-- ==== Sys2Proof/Word.lean ====
section
/-! DEFINITION. The word types of the block and the sparse map they are kept in. -/

namespace Sys2Proof

/-- One byte of a frame, a message or a memory cell. -/
abbrev Byte := BitVec 8

/-- A sparse table: (index, value) pairs, indexes strictly rising, no pair equal to what an unlisted
index reads as (notes/assumptions/1). -/
abbrev SMap (α : Type) := List (Nat × α)

end Sys2Proof
end

