-- ==== Sys2Proof/Syntax.lean ====
section
/-! DEFINITION. The commands of the block, one constructor per row of spec/opcode_table.json, and their operands. -/

namespace Sys2Proof

/-- Who accesses the dictionary (R393): the PF, a VF, a Synsa session by its ID, the management firmware. -/
inductive Client where
  | pf
  | vf (v : Nat)
  | session (id : Nat)
  | firmware
deriving DecidableEq, Repr

/-- One turn of a job (R409, R411): its start by a client, or its next step. -/
inductive JobOp where
  | start (client : Client)
  | step
deriving DecidableEq, Repr

/-- How a Synsa message arrives (R422): in a function's mailbox; in a datagram at an out-of-band port, with its destination
address (4 or 16 bytes) and UDP port, its sender, and whether it is unfragmented; or as the oldest packet held for a bundle's
management channel. -/
inductive Via where
  | mailbox (fn : Nat)
  | udp (oob : Nat) (dst : List Byte) (dport : Nat) (peer : List Byte) (whole : Bool) (msg : List Byte)
  | channel (bundle : Nat)
deriving DecidableEq, Repr

/-- A write that has no row of its own: a function's access to its BAR0 at an offset (R402), or a client's write of a value. -/
inductive WriteForm where
  | map (fn off : Nat) (bytes : List Byte)
  | entry (client : Client) (entry value : Nat)
deriving DecidableEq, Repr


/-- The commands of the block, one per row of the opcode table. Each docstring gives the rule. -/
inductive Instr where
  /-- REGISTER_WRITE (R394). -/
  | registerWrite (how : WriteForm)
  /-- CROSSING (R25). -/
  | crossing (island occupied : Nat) (late : Bool)
  /-- GOVERNOR_INTERVAL (R31). -/
  | governorInterval (island busy total : Nat)
  /-- ISLAND_MODE_WRITE (R50). -/
  | islandModeWrite (client : Client) (island : Nat) (floor : Bool) (value : Nat)
  /-- PIN_ALL_SCALABLE_WRITE (R50). -/
  | pinAllScalableWrite (client : Client) (value : Nat)
  /-- TIME_CONFIG_WRITE (R28). -/
  | timeConfigWrite (value : Nat)
  /-- PORT_MODE_WRITE (R56). -/
  | portModeWrite (client : Client) (port value : Nat)
  /-- PORT_FEC_WRITE (R53). -/
  | portFecWrite (client : Client) (port value : Nat)
  /-- PORT_ADMIN_UP_WRITE (R56). -/
  | portAdminUpWrite (client : Client) (port value : Nat)
  /-- LINK_UP (R57). -/
  | linkUp (port : Nat)
  /-- LINK_DOWN (R57). -/
  | linkDown (port : Nat)
  /-- LINE_LANE_SIGNAL_CHANGE (R57). -/
  | lineLaneSignalChange (lane : Nat) (signal fecLock blockLock localFault remoteFault : Bool)
  /-- RX_FRAME_START (R63). -/
  | rxFrameStart (port : Nat) (window : List Byte) (frac : Nat) (holding : Bool)
  /-- RX_FRAME_END (R62). -/
  | rxFrameEnd (port : Nat) (frame : List Byte)
  /-- PAUSE_TIME_EXPIRY (R70). -/
  | pauseTimeExpiry (port state : Nat)
  /-- LMAC_DRAIN_RESUME (R528). -/
  | lmacDrainResume (lmac : Nat)
  /-- PAUSE_RESEND (R71). -/
  | pauseResend (port state : Nat)
  /-- EGG_TIMER_FIRE (R72). -/
  | eggTimerFire (port state : Nat)
  /-- EGG_HOLD_END (R72). -/
  | eggHoldEnd (port state : Nat)
  /-- TX_FRAME_START (R69). -/
  | txFrameStart (port frac : Nat)
  /-- TX_FRAME_END (R68). -/
  | txFrameEnd (port : Nat)
  /-- PORT_TS_FIFO_READ (R79). -/
  | portTsFifoRead (client : Client) (port : Nat)
  /-- PORT_STATS_READ_CLEAR (R73). -/
  | portStatsReadClear (client : Client) (port counter : Nat)
  /-- FLEXE_CAL_SWITCH (R60). -/
  | flexeCalSwitch (client : Client) (port : Nat)
  /-- FLEXE_CAL_SWITCH_ACK (R60). -/
  | flexeCalSwitchAck (port : Nat)
  /-- FLEXE_CAL_SWITCH_TIMEOUT (R60). -/
  | flexeCalSwitchTimeout (port : Nat)
  /-- LANE_PRBS_MODE_WRITE (R77). -/
  | lanePrbsModeWrite (client : Client) (lane value : Nat)
  /-- PRBS_LOCK_LOST (R77). -/
  | prbsLockLost (fabric : Bool) (lane errors : Nat)
  /-- LANE_PRBS_ERRORS_READ (R80). -/
  | lanePrbsErrorsRead (client : Client) (lane errors : Nat)
  /-- LANE_LOOPBACK_WRITE (R78). -/
  | laneLoopbackWrite (client : Client) (lane value : Nat)
  /-- INGRESS_PASS (R102). -/
  | ingressPass (pkt : Nat)
  /-- COUNTER_UPDATE_POST (R117). -/
  | counterUpdatePost (counter : Nat)
  /-- EGRESS_RUN (R127). -/
  | egressRun (out : Nat)
  /-- CLS_EPOCH_SWAP (R124). -/
  | clsEpochSwap (client : Client)
  /-- EPOCH_RETIRED (R124). -/
  | epochRetired
  /-- CLS_STAGE_PLAN_WRITE (R529). -/
  | clsStagePlanWrite (client : Client) (slot : Nat) (value : List Byte)
  /-- CLS_DIRECT_TABLE_WRITE (R131). -/
  | clsDirectTableWrite (client : Client) (slot : Nat) (value : List Byte)
  /-- CLS_REWRITE_PROFILES_WRITE (R129). -/
  | clsRewriteProfilesWrite (client : Client) (slot : Nat) (value : List Byte)
  /-- CLS_COMPAT_BUCKETS_WRITE (R145). -/
  | clsCompatBucketsWrite (client : Client) (value : Nat)
  /-- LEARN_NOTICES_READ (R407). -/
  | learnNoticesRead (client : Client)
  /-- LKP_LOAD_WRITE (R153). -/
  | lkpLoadWrite (client : Client) (records : List Byte)
  /-- LKP_APPLY (R154). -/
  | lkpApply (turn : JobOp)
  /-- ROUTE_ADD (R137). -/
  | routeAdd
  /-- ROUTE_DELETE (R153). -/
  | routeDelete
  /-- ROUTE_REPLACE (R137). -/
  | routeReplace
  /-- EXACT_ADD (R146). -/
  | exactAdd
  /-- EXACT_DELETE (R153). -/
  | exactDelete
  /-- EXACT_REPLACE (R153). -/
  | exactReplace
  /-- ADJACENCY_WRITE (R148). -/
  | adjacencyWrite
  /-- GROUP_WRITE (R149). -/
  | groupWrite
  /-- MEMBER_WRITE (R149). -/
  | memberWrite
  /-- ACTION_PROFILE_WRITE (R140). -/
  | actionProfileWrite
  /-- COMPATIBILITY_SLOT_WRITE (R147). -/
  | compatibilitySlotWrite
  /-- LPM_SUBTREE_SWITCH (R141). -/
  | lpmSubtreeSwitch (stripe : Nat)
  /-- LPM_SUBTREE_FREE (R141). -/
  | lpmSubtreeFree (stripe : Nat)
  /-- LKP_APPLY_END (R154). -/
  | lkpApplyEnd
  /-- LKP_PIVOT_MOVE (R143). -/
  | lkpPivotMove (turn : JobOp)
  /-- PIVOT_OLD_COPIES_REMOVE (R143). -/
  | pivotOldCopiesRemove
  /-- LKP_DUMP_READ (R155). -/
  | lkpDumpRead (client : Client)
  /-- ASE_LOAD_WRITE (R180). -/
  | aseLoadWrite (client : Client) (records : List Byte)
  /-- ASE_APPLY (R181). -/
  | aseApply (turn : JobOp)
  /-- ASE_INSERT (R169). -/
  | aseInsert
  /-- ASE_DELETE (R169). -/
  | aseDelete
  /-- ASE_REPLACE (R180). -/
  | aseReplace
  /-- ASE_MEMBERSHIP (R172). -/
  | aseMembership
  /-- ASE_REGION_CREATE (R164). -/
  | aseRegionCreate
  /-- ASE_REGION_DELETE (R180). -/
  | aseRegionDelete
  /-- ASE_ACTION_PROFILE_WRITE (R161). -/
  | aseActionProfileWrite
  /-- ASE_COPY_STEP (R170). -/
  | aseCopyStep (bank : Nat)
  /-- ASE_WRITE_STEP (R169). -/
  | aseWriteStep (bank : Nat)
  /-- ASE_SWEEP_START (R174). -/
  | aseSweepStart (bank : Nat)
  /-- ASE_SCRUB_READ (R174). -/
  | aseScrubRead (bank : Nat) (found : Option Nat)
  /-- ASE_TEMP_READ (R177). -/
  | aseTempRead (bank reading : Nat)
  /-- ASE_UPDATE_BUDGET_WRITE (R171). -/
  | aseUpdateBudgetWrite (client : Client) (value : Nat)
  /-- ASE_SCRUB_BUDGET_WRITE (R174). -/
  | aseScrubBudgetWrite (client : Client) (value : Nat)
  /-- ASE_DUMP_READ (R181). -/
  | aseDumpRead (client : Client)
  /-- METER_CORRECTION (R190). -/
  | meterCorrection (meter : Nat)
  /-- MTR_CONFIG_WRITE (R191). -/
  | mtrConfigWrite (client : Client) (value : List Byte)
  /-- MTR_LOAD_WRITE (R200). -/
  | mtrLoadWrite (client : Client) (records : List Byte)
  /-- MTR_APPLY (R200). -/
  | mtrApply (turn : JobOp)
  /-- CTR_PKTS_READ (R196). -/
  | ctrPktsRead (client : Client)
  /-- CTR_CLEAR (R196). -/
  | ctrClear (client : Client) (value : Nat)
  /-- CTR_SWEEP (R197). -/
  | ctrSweep (turn : JobOp)
  /-- ENQUEUE_ARRIVAL (R257). -/
  | enqueueArrival (pkt : Nat)
  /-- SKIMMER_REBUILD_DONE (R210). -/
  | skimmerRebuildDone (pool : Nat)
  /-- LAST_BYTE_STORED (R223). -/
  | lastByteStored (pkt : Nat)
  /-- DEQUEUE (R265). -/
  | dequeue (kind index : Nat)
  /-- UNSPILL_PREFETCH (R227). -/
  | unspillPrefetch (queue : Nat)
  /-- POOL_DESC_WRITE (R207). -/
  | poolDescWrite (client : Client) (pool value : Nat)
  /-- ADM_PROFILE_WRITE (R219). -/
  | admProfileWrite (client : Client) (profile : Nat) (value : List Byte)
  /-- POOL_SIZE_WRITE (R222). -/
  | poolSizeWrite (client : Client) (pool : Nat) (headroom : Bool) (value : Nat)
  /-- FC_THRESHOLD_WRITE (R224). -/
  | fcThresholdWrite (client : Client) (profile : Nat) (xon : Bool) (value : Nat)
  /-- POOL_WATERMARK_READ (R229). -/
  | poolWatermarkRead (client : Client) (pool : Nat)
  /-- HBM_REQUEST (R234). -/
  | hbmRequest (stack port page burst count : Nat) (write : Bool)
  /-- HBM_REQUEST_COMPLETE (R235). -/
  | hbmRequestComplete (stack channel : Nat)
  /-- REFRESH_DUE (R238). -/
  | refreshDue (stack channel : Nat)
  /-- REFRESH_PAYBACK (R239). -/
  | refreshPayback (stack channel : Nat)
  /-- HBM_TEMP_READ (R238). -/
  | hbmTempRead (stack readout : Nat)
  /-- HBM_RATE_WINDOW (R240). -/
  | hbmRateWindow
  /-- HBM_RATE_CHANGE (R241). -/
  | hbmRateChange
  /-- HBM_RATE_PIN_WRITE (R243). -/
  | hbmRatePinWrite (client : Client) (value : Nat)
  /-- HBM_IDLE_ENTER (R242). -/
  | hbmIdleEnter
  /-- HBM_CAPTURE (R245). -/
  | hbmCapture (turn : JobOp) (pass : Nat)
  /-- HBM_INIT (R251). -/
  | hbmInit (stack : Nat) (turn : JobOp) (pass : Bool)
  /-- HBM_OFFLINE (R251). -/
  | hbmOffline (client : Client) (stack : Nat)
  /-- HBM_DRAINED (R250). -/
  | hbmDrained (stack : Nat)
  /-- HBM_PATROL_SCRUB (R249). -/
  | hbmPatrolScrub (stack : Nat) (upsets : List (Nat × Nat))
  /-- HBM_SCRUB_BATCH (R249). -/
  | hbmScrubBatch (stack : Nat)
  /-- HBM_REFRESH_OWED_MAX_READ (R252). -/
  | hbmRefreshOwedMaxRead (client : Client) (stack : Nat)
  /-- SHAPER_REFILL (R267). -/
  | shaperRefill (kind index : Nat)
  /-- SHAPER_CORRECTION (R269). -/
  | shaperCorrection (pkt : Nat)
  /-- MC_FANOUT (R276). -/
  | mcFanout (qms : Nat)
  /-- VOQ_IDLE_RELEASE (R280). -/
  | voqIdleRelease (queue : Nat)
  /-- QM_LOAD_WRITE (R283). -/
  | qmLoadWrite (client : Client) (records : List Byte)
  /-- QM_APPLY (R283). -/
  | qmApply (turn : JobOp)
  /-- NODE_WRITE (R283). -/
  | nodeWrite
  /-- QUEUE_WRITE (R262). -/
  | queueWrite
  /-- CLASS_MAP_WRITE (R256). -/
  | classMapWrite
  /-- MC_GROUP_WRITE (R275). -/
  | mcGroupWrite
  /-- TARGET_WRITE (R275). -/
  | targetWrite
  /-- SCH_CONFIG_WRITE (R270). -/
  | schConfigWrite (client : Client) (value : List Byte)
  /-- FEC_CODEWORD_DECODE (R287). -/
  | fecCodewordDecode (lane outcome : Nat)
  /-- BUNTING_FRAME_RECEIVE (R291). -/
  | buntingFrameReceive (lane offset skew : Nat) (frame : List Byte)
  /-- BUNTING_FRAME_SEND (R289). -/
  | buntingFrameSend (bundle : Nat) (lead : Int)
  /-- CONTAINER_FRAME_RECEIVE (R302). -/
  | containerFrameReceive (bundle : Nat)
  /-- LOS_CLEAR (R307). -/
  | losClear (lane : Nat)
  /-- PM_SECOND (R308). -/
  | pmSecond
  /-- LANE_SET_PROPOSE (R313). -/
  | laneSetPropose (bundle : Nat)
  /-- LANE_SET_ACCEPT (R313). -/
  | laneSetAccept (bundle : Nat)
  /-- LANE_SET_REJECT (R314). -/
  | laneSetReject (bundle : Nat)
  /-- LANE_SET_COMMIT (R313). -/
  | laneSetCommit (bundle : Nat)
  /-- LANE_SET_REQUEST (R315). -/
  | laneSetRequest (bundle : Nat)
  /-- LANE_SET_EFFECT (R313). -/
  | laneSetEffect (bundle : Nat) (transmit : Bool)
  /-- LANE_SET_TIMEOUT (R314). -/
  | laneSetTimeout (bundle : Nat) (transmit : Bool)
  /-- LANE_QUIET (R313). -/
  | laneQuiet (bundle : Nat)
  /-- LANE_WAKE (R311). -/
  | laneWake (lane : Nat)
  /-- LANE_AUTO_REMOVE (R315). -/
  | laneAutoRemove (lane : Nat)
  /-- SHED_GOVERNOR (R317). -/
  | shedGovernor (bundle : Nat)
  /-- FB_LANE_SET_CHANGE (R317). -/
  | fbLaneSetChange (client : Client) (bundle : Nat)
  /-- MGMT_CHANNEL_PACKET (R318). -/
  | mgmtChannelPacket (bundle : Nat)
  /-- FABRIC_PRBS_LOOPBACK_WRITE (R319). -/
  | fabricPrbsLoopbackWrite (client : Client) (lane : Nat) (loopback : Bool) (value : Nat)
  /-- FL_PRBS_ERRORS_READ (R320). -/
  | flPrbsErrorsRead (client : Client) (lane errors : Nat)
  /-- IDLE_PENNANT_RECEIVE (R325). -/
  | idlePennantReceive (bundle : Nat)
  /-- DATA_PENNANT_RECEIVE (R347). -/
  | dataPennantReceive (bundle : Nat)
  /-- MULTICAST_PENNANT_RECEIVE (R352). -/
  | multicastPennantReceive (bundle : Nat)
  /-- BEACON_RECEIVE (R334). -/
  | beaconReceive (bundle : Nat)
  /-- SEQUENCE_START_RECEIVE (R347). -/
  | sequenceStartReceive (bundle : Nat)
  /-- CREDIT_REQUEST_PENNANT_RECEIVE (R344). -/
  | creditRequestPennantReceive (bundle : Nat)
  /-- CREDIT_GRANT_PENNANT_RECEIVE (R344). -/
  | creditGrantPennantReceive (bundle : Nat)
  /-- CREDIT_REQUEST_ENTRY (R346). -/
  | creditRequestEntry
  /-- CREDIT_GRANT_ENTRY (R345). -/
  | creditGrantEntry
  /-- CREDIT_RETURN_ENTRY (R346). -/
  | creditReturnEntry
  /-- CREDIT_BUSY_ENTRY (R345). -/
  | creditBusyEntry
  /-- PROBE_ENTRY (R337). -/
  | probeEntry
  /-- PROBE_ANSWER_ENTRY (R337). -/
  | probeAnswerEntry
  /-- BEACON_SEND (R333). -/
  | beaconSend
  /-- BEACON_MISS_CHECK (R335). -/
  | beaconMissCheck
  /-- PROBE_SEND (R337). -/
  | probeSend (dest : Nat)
  /-- PROBE_UNANSWERED (R336). -/
  | probeUnanswered (dest : Nat)
  /-- CREDIT_PENNANT_SEND (R344). -/
  | creditPennantSend (dest : Nat)
  /-- GRANT_ISSUE (R346). -/
  | grantIssue (port : Nat)
  /-- CREDIT_RETURN_TIMER (R345). -/
  | creditReturnTimer (queue : Nat)
  /-- CREDIT_REQUEST_TIMEOUT (R345). -/
  | creditRequestTimeout (queue : Nat)
  /-- PENNANT_SEND (R340). -/
  | pennantSend (queue : Nat)
  /-- REORDER_TIMEOUT (R347). -/
  | reorderTimeout (src : Nat)
  /-- REASSEMBLY_TIMEOUT (R348). -/
  | reassemblyTimeout (src : Nat) (group : Option Nat)
  /-- FT_DEVICE_ID_WRITE (R332). -/
  | ftDeviceIdWrite (client : Client) (value : Nat)
  /-- LEDGER_EPOCH_BOUNDARY (R360). -/
  | ledgerEpochBoundary
  /-- PERF_SELECT_WRITE (R363). -/
  | perfSelectWrite (client : Client) (counter value : Nat)
  /-- PERF_COUNTER_WRITE (R364). -/
  | perfCounterWrite (client : Client) (counter value : Nat)
  /-- PERF_COUNTER_WRAP (R364). -/
  | perfCounterWrap (counter : Nat)
  /-- BW_WINDOW_END (R367). -/
  | bwWindowEnd (port : Nat)
  /-- BW_WINDOW_K_WRITE (R367). -/
  | bwWindowKWrite (client : Client) (port value : Nat)
  /-- QWM_VALUE_READ (R368). -/
  | qwmValueRead (client : Client)
  /-- HIST_SAMPLE (R369). -/
  | histSample (monitor : Nat)
  /-- HIST_CLEAR (R369). -/
  | histClear (client : Client) (monitor value : Nat)
  /-- SOJ_CLEAR (R377). -/
  | sojClear (client : Client) (port value : Nat)
  /-- ENSIGN_SNAPSHOT (R375). -/
  | ensignSnapshot
  /-- ENSIGN_MESSAGE_SEND (R375). -/
  | ensignMessageSend
  /-- ENSIGN_TEMPLATE_SEND (R375). -/
  | ensignTemplateSend
  /-- ENS_ENABLE_WRITE (R375). -/
  | ensEnableWrite (client : Client) (value : Nat)
  /-- MIRROR_SESSION_WRITE (R371). -/
  | mirrorSessionWrite (client : Client) (session : Nat) (value : List Byte)
  /-- FW_EVENT_TAKE (R385). -/
  | fwEventTake
  /-- CAUSE_ENABLE_WRITE (R380). -/
  | causeEnableWrite (client : Client) (entry value : Nat)
  /-- CAUSE_CLEAR (R381). -/
  | causeClear (client : Client) (entry value : Nat)
  /-- EVT_STICKY_CLEAR (R380). -/
  | evtStickyClear (client : Client) (source value : Nat)
  /-- EVT_GROUP_STICKY_CLEAR (R386). -/
  | evtGroupStickyClear (client : Client) (group value : Nat)
  /-- EVT_MASK_WRITE (R384). -/
  | evtMaskWrite (client : Client) (source value : Nat)
  /-- EVT_GROUP_MASK_WRITE (R386). -/
  | evtGroupMaskWrite (client : Client) (group value : Nat)
  /-- EVT_ROUTE_WRITE (R382). -/
  | evtRouteWrite (client : Client) (source value : Nat)
  /-- EVT_TEST_RAISE (R388). -/
  | evtTestRaise (client : Client) (value : Nat)
  /-- EVT_FW_QUEUE_HIGH_READ (R389). -/
  | evtFwQueueHighRead (client : Client)
  /-- OD_ACCESS_STATUS_READ (R403). -/
  | odAccessStatusRead (fn width : Nat)
  /-- MB_DOORBELL (R405). -/
  | mbDoorbell (client : Client) (value : Nat)
  /-- SYNSA_READ (R416). -/
  | synsaRead (via : Via)
  /-- SYNSA_WRITE (R416). -/
  | synsaWrite (via : Via)
  /-- DOMAIN_BEGIN (R406). -/
  | domainBegin (via : Via)
  /-- DOMAIN_SEGMENT (R406). -/
  | domainSegment (via : Via)
  /-- DOMAIN_END (R406). -/
  | domainEnd (via : Via)
  /-- JOB_START (R410). -/
  | jobStart (via : Via)
  /-- JOB_STATUS (R410). -/
  | jobStatus (via : Via)
  /-- SYNSA_EVENT_SEND (R421). -/
  | synsaEventSend (session : Nat)
  /-- DISCOVER_PROBE (R423). -/
  | discoverProbe (via : Via)
  /-- SESSION_OPEN (R418). -/
  | sessionOpen (via : Via)
  /-- SESSION_CLOSE (R419). -/
  | sessionClose (via : Via)
  /-- ANNOUNCE_SEND (R423). -/
  | announceSend
  /-- ANNOUNCE_RECEIVE (R423). -/
  | announceReceive (bundle : Nat)
  /-- SYNSA_RELAY (R425). -/
  | synsaRelay (via : Via)
  /-- RELAY_RESPONSE (R425). -/
  | relayResponse (bundle : Nat)
  /-- RELAY_ENTRY_EXPIRE (R425). -/
  | relayEntryExpire
  /-- SESSION_IDLE_TIMEOUT (R419). -/
  | sessionIdleTimeout (session : Nat)
  /-- DOMAIN_IDLE_TIMEOUT (R408). -/
  | domainIdleTimeout (handle : Nat)
  /-- OD_SAVE (R397). -/
  | odSave (turn : JobOp) (upTo result : Nat)
  /-- OD_SETTINGS_ERASE (R398). -/
  | odSettingsErase (turn : JobOp)
  /-- COUNTED_WRITE (R399). -/
  | countedWrite (client : Client) (entry value : Nat)
  /-- COUNTED_WRITE_COMPLETE (R401). -/
  | countedWriteComplete (entry : Nat)
  /-- SYN_DEVICE_KEY_WRITE (R417). -/
  | synDeviceKeyWrite (client : Client) (value : List Byte)
  /-- PUNT_DMA (R439). -/
  | puntDma (out : Nat) (addrs : List Nat) (writes : Nat)
  /-- PUNT_DOORBELL (R437). -/
  | puntDoorbell (fn ring value : Nat)
  /-- INJECT_DOORBELL (R437). -/
  | injectDoorbell (fn ring value : Nat)
  /-- INJECT_FETCH (R442). -/
  | injectFetch (fn ring : Nat) (descs : List (List Byte))
  /-- INJECT_BUILD (R442). -/
  | injectBuild (inject : Nat)
  /-- HOST_READ_COMPLETION (R443). -/
  | hostReadCompletion (tag : Nat) (ok : Bool) (data : List Byte)
  /-- RING_INTERRUPT (R441). -/
  | ringInterrupt (fn : Nat) (inj : Bool) (ring : Nat)
  /-- RING_CONFIG_WRITE (R435). -/
  | ringConfigWrite (client : Client) (entry value : Nat)
  /-- HOST_PUNT_BIND_WRITE (R438). -/
  | hostPuntBindWrite (client : Client) (value : Nat)
  /-- VF_OD_GRANT_WRITE (R434). -/
  | vfOdGrantWrite (client : Client) (vf : Nat) (value : List Byte)
  /-- VF_FLR (R444). -/
  | vfFlr (vf : Nat) (complete : Bool)
  /-- VF_RESET (R444). -/
  | vfReset (vf : Nat) (turn : JobOp)
  /-- VF_ENABLE_CLEAR (R443). -/
  | vfEnableClear
  /-- PF_FLR (R477). -/
  | pfFlr
  /-- PCIE_HOT_RESET (R477). -/
  | pcieHotReset
  /-- PCIE_LINK_CHANGE (R447). -/
  | pcieLinkChange (up : Bool) (rate width : Nat)
  /-- COUNTER_EXPORT (R445). -/
  | counterExport (fn writes : Nat)
  /-- FW_STAGED_WRITE (R452). -/
  | fwStagedWrite (client : Client) (value : List Byte)
  /-- FW_STAGED_VERIFY (R460). -/
  | fwStagedVerify
  /-- FW_INSTALL (R454). -/
  | fwInstall (turn : JobOp) (ok : Bool)
  /-- LOADER_BOOT (R456). -/
  | loaderBoot (readOk : Bool) (image : List Byte)
  /-- RECOVERY_SEEK (R458). -/
  | recoverySeek (bundle : Nat) (header : List Byte)
  /-- RELAY_POLL (R460). -/
  | relayPoll (bundle valid : Nat) (header : List Byte)
  /-- IMAGE_FETCH_COMPLETE (R460). -/
  | imageFetchComplete (image : List Byte)
  /-- FW_ROLLBACK_FLOOR_WRITE (R463). -/
  | fwRollbackFloorWrite (client : Client) (value : Nat)
  /-- MGMT_RESTART_L_FALL (R464). -/
  | mgmtRestartLFall
  /-- MGMT_RESTART_L_RISE (R464). -/
  | mgmtRestartLRise
  /-- FW_RESTART (R464). -/
  | fwRestart (client : Client) (value : Nat)
  /-- FW_WATCHDOG_EXPIRY (R464). -/
  | fwWatchdogExpiry
  /-- FIRMWARE_START (R462). -/
  | firmwareStart (ready : Bool)
  /-- POWER_ON_RESET (R477). -/
  | powerOnReset (railsOk : Bool) (straps : Nat)
  /-- PIN_RESET (R477). -/
  | pinReset (straps : Nat)
  /-- FUSE_SENSE_COMPLETE (R483). -/
  | fuseSenseComplete
  /-- LOADER_SECTOR_CHECK (R450). -/
  | loaderSectorCheck (sectorOk : Bool) (repaired : Nat) (d2dOk : Bool)
  /-- SETTINGS_RELOAD (R483). -/
  | settingsReload
  /-- AVS_EVALUATE (R469). -/
  | avsEvaluate (rail : Nat) (ack : Bool)
  /-- RETENTION_ENTER (R472). -/
  | retentionEnter (turn : JobOp)
  /-- RETENTION_EXIT (R473). -/
  | retentionExit (turn : JobOp)
  /-- DATAPATH_RESET (R478). -/
  | datapathReset (turn : JobOp)
  /-- ISLAND_RESET (R479). -/
  | islandReset (turn : JobOp)
  /-- TEMP_READ (R475). -/
  | tempRead (sensors diodes : List Nat)
  /-- POWER_ESTIMATE_UPDATE (R474). -/
  | powerEstimateUpdate
  /-- REFCLK_LOSS (R485). -/
  | refclkLoss (clock : Nat)
  /-- PATROL_SCRUB_READ (R490). -/
  | patrolScrubRead (cls unit index found : Nat) (last : Bool)
  /-- PATROL_SCRUB_SWEEP_START (R490). -/
  | patrolScrubSweepStart (cls : Nat)
  /-- PATROL_SCRUB_BATCH (R490). -/
  | patrolScrubBatch (unit : Nat) (reads : List (Nat × Nat × Nat))
  /-- MGMT_RAM_ERROR (R496). -/
  | mgmtRamError (index flips : Nat)
  /-- INT_INJECT_WRITE (R498). -/
  | intInjectWrite (client : Client) (value : Nat)
  /-- INJECT_FIRE (R498). -/
  | injectFire (index pkt : Nat) (data : Bool)
  /-- PPS_IN_EDGE (R522). -/
  | ppsInEdge (off : Nat)
  /-- PPS_OUT_PULSE (R522). -/
  | ppsOutPulse
  /-- GPIO_WRITE (R524). -/
  | gpioWrite (client : Client) (out : Bool) (value : Nat)
  /-- IO_I2C_XFER (R525). -/
  | ioI2cXfer (master : Nat) (answers : List (Nat × List Byte))
  /-- IO_MDIO_XFER (R525). -/
  | ioMdioXfer (master : Nat) (answers : List (Nat × List Byte))
  /-- JTAG_EXTEST (R523). -/
  | jtagExtest
  /-- JTAG_EXTEST_PULSE (R523). -/
  | jtagExtestPulse
  /-- JTAG_EXTEST_TRAIN (R523). -/
  | jtagExtestTrain
  /-- JTAG_CLAMP (R523). -/
  | jtagClamp
  /-- JTAG_HIGHZ (R523). -/
  | jtagHighz
  /-- JTAG_BYPASS (R523). -/
  | jtagBypass (straps : Nat)
  /-- JTAG_IDCODE (R523). -/
  | jtagIdcode (straps : Nat)
  /-- JTAG_SAMPLE_PRELOAD (R523). -/
  | jtagSamplePreload (straps : Nat)
  /-- JTAG_TEST_EXIT (R523). -/
  | jtagTestExit (straps : Nat)
  /-- POWER_LOSS (R470). -/
  | powerLoss
  /-- TIME_PLL_LOCK (R296). -/
  | timePllLock
  /-- FABRIC_LANE_SIGNAL_CHANGE (R307). -/
  | fabricLaneSignalChange (lane : Nat) (signal : Bool)
  /-- PRBS_CHECKER_LOCK (R77). -/
  | prbsCheckerLock (fabric : Bool) (lane : Nat)
  /-- FLEXE_GROUP_FAULT (R81). -/
  | flexeGroupFault (port : Nat)
  /-- MSIX_CONTROL_WRITE (R383). -/
  | msixControlWrite (fn field vector : Nat) (on : Bool)
  /-- VF_ENABLE_SET (R431). -/
  | vfEnableSet (count : Nat)
  /-- HOST_COMPLETION_TIMEOUT (R442). -/
  | hostCompletionTimeout (tag : Nat)
  /-- CREDIT_BUSY_HOLDOFF_END (R345). -/
  | creditBusyHoldoffEnd (queue : Nat)
deriving DecidableEq, Repr

end Sys2Proof
end

