-- ==== Sys2Proof/Decode.lean ====
section
/-! DEFINITION. The command a word spells by the bits of spec/opcode_table.json. The table gives no row any bits, so no word spells
a command. -/

namespace Sys2Proof

/-- The command of a word: none. -/
def decodeTableWord (_ _ : Nat) : Option Instr := none

end Sys2Proof
end

