-- ==== Sys2Proof/Machine/Bits.lean ====
section
/-! DEFINITION. Bit fields and byte order: the one home of both. -/

namespace Sys2Proof.Machine

/-- Bits [hi:lo] of `v` (R5). -/
def bits (v hi lo : Nat) : Nat := (v / 2 ^ lo) % 2 ^ (hi + 1 - lo)

/-- Bit `i` of `v`. -/
def bit (v i : Nat) : Bool := (v / 2 ^ i) % 2 == 1

/-- `v` with bits [hi:lo] replaced by `x`. -/
def setBits (v hi lo x : Nat) : Nat :=
  v - bits v hi lo * 2 ^ lo + (x % 2 ^ (hi + 1 - lo)) * 2 ^ lo

/-- `v` with bit `i` set. -/
def setBit (v i : Nat) : Nat := if bit v i then v else v + 2 ^ i

/-- `v` with bit `i` clear. -/
def clearBit (v i : Nat) : Nat := if bit v i then v - 2 ^ i else v

/-- A Bool as bit 0. -/
def b2n (b : Bool) : Nat := if b then 1 else 0

/-- The bits of `v` that the mask keeps. -/
def maskBits (v m : Nat) : Nat := Nat.land v m

/-- The bits of `v` that the mask does not name. -/
def dropBits (v m : Nat) : Nat := v - Nat.land v m

/-- The number of bits set among the lowest `n`. -/
def popCount : Nat → Nat → Nat
  | 0, _ => 0
  | n + 1, v => b2n (bit v n) + popCount n v

/-- The indexes of the bits set among the lowest `n`, ascending. -/
def bitList (n v : Nat) : List Nat := (List.range n).filter (fun i => bit v i)

/-- The lowest bit set among the lowest `n`. -/
def lowestBit (n v : Nat) : Option Nat := (bitList n v).head?

/-- One byte from a number. -/
def byte (v : Nat) : Byte := BitVec.ofNat 8 v

/-- `n` bytes of `v`, most significant first. -/
def beBytes : Nat → Nat → List Byte
  | 0, _ => []
  | n + 1, v => byte (v / 2 ^ (8 * n)) :: beBytes n v

/-- `n` bytes of `v`, least significant first. -/
def leBytes : Nat → Nat → List Byte
  | 0, _ => []
  | n + 1, v => byte v :: leBytes n (v / 256)

/-- A number from bytes, most significant first. -/
def beNat (l : List Byte) : Nat := l.foldl (fun a b => a * 256 + b.toNat) 0

/-- A number from bytes, least significant first. -/
def leNat : List Byte → Nat
  | [] => 0
  | b :: r => b.toNat + 256 * leNat r

/-- `n` bytes from offset `o`. -/
def slice (l : List Byte) (o n : Nat) : List Byte := (l.drop o).take n

/-- Big-endian field of `n` bytes at offset `o`; bytes past the end read as absent. -/
def beAt (l : List Byte) (o n : Nat) : Nat := beNat (slice l o n)

/-- Little-endian field of `n` bytes at offset `o`. -/
def leAt (l : List Byte) (o n : Nat) : Nat := leNat (slice l o n)

/-- Byte `o`, 0 past the end. -/
def byteAt (l : List Byte) (o : Nat) : Nat := ((l.drop o).head?.map BitVec.toNat).getD 0

/-- `l` padded with zeros, or cut, to `n` bytes. -/
def padTo (l : List Byte) (n : Nat) : List Byte := l.take n ++ List.replicate (n - l.length) 0

/-- `l` with the bytes `x` in place from offset `o`. -/
def splice (l : List Byte) (o : Nat) (x : List Byte) : List Byte :=
  l.take o ++ x ++ l.drop (o + x.length)

/-- Two's complement of width `w`. -/
def toSigned (w v : Nat) : Int := if v % 2 ^ w < 2 ^ (w - 1) then (v % 2 ^ w : Nat) else (v % 2 ^ w : Nat) - (2 ^ w : Nat)

/-- The `w`-bit pattern of a signed number. -/
def ofSigned (w : Nat) (i : Int) : Nat := (i % (2 ^ w : Nat)).toNat

/-- `a / b` rounded up. -/
def ceilDiv (a b : Nat) : Nat := (a + b - 1) / b

/-- The ASCII bytes of a string. -/
def ascii (s : String) : List Byte := s.toList.map (fun c => byte c.toNat)

/-- Exclusive or of two byte lists, as long as the shorter. -/
def xorBytes (a b : List Byte) : List Byte := List.zipWith (fun x y => x ^^^ y) a b

/-- `f` applied once per element. -/
def forEach {α σ : Type} (l : List α) (s : σ) (f : σ → α → σ) : σ := l.foldl f s

/-- Numbers `a`, `a+1`, … , `n` of them. -/
def rangeFrom (a n : Nat) : List Nat := (List.range n).map (· + a)

end Sys2Proof.Machine
end

