-- ==== Sys2Proof/Machine/Fields.lean ====
section
/-! DEFINITION. The fields of the header vector (Table — Header vector, R95) and of the metadata bus (Table — Metadata
bus, R109): the highest and lowest bit of each. -/

namespace Sys2Proof.Machine

/-- A field of a wide word: its highest and lowest bit. -/
abbrev Fld := Nat × Nat

/-- Read a field. -/
def fget (v : Nat) (f : Fld) : Nat := bits v f.1 f.2

/-- Write a field. -/
def fput (v : Nat) (f : Fld) (x : Nat) : Nat := setBits v f.1 f.2 x

def hvValidLen : Fld := (1279, 1272)
def hvParseError : Fld := (1271, 1271)
def hvErrorClass : Fld := (1270, 1267)
def hvDepth : Fld := (1266, 1266)
def hvDepthLayer : Fld := (1265, 1262)
def hvFrag : Fld := (1261, 1260)
def hvVlanCount : Fld := (1259, 1257)
def hvMplsCount : Fld := (1256, 1253)
def hvMplsCw : Fld := (1252, 1252)
def hvL3Type : Fld := (1251, 1250)
def hvExtCount : Fld := (1249, 1248)
def hvL4Type : Fld := (1247, 1245)
def hvTunnelType : Fld := (1244, 1243)
def hvTunnelUnparsed : Fld := (1242, 1242)
def hvInnerL2 : Fld := (1241, 1241)
def hvInnerL3Type : Fld := (1240, 1239)
def hvInnerFrag : Fld := (1238, 1237)
def hvInnerL4Type : Fld := (1236, 1234)
def hvPtpValid : Fld := (1233, 1233)
def hvPtpOnestepOk : Fld := (1232, 1232)
def hvPtpMsgType : Fld := (1231, 1228)
def hvIpv4CsumBad : Fld := (1227, 1227)
def hvDaClass : Fld := (1226, 1225)
def hvSaGroup : Fld := (1224, 1224)
def hvParseStart : Fld := (1223, 1216)
def hvMplsOff : Fld := (1215, 1208)
def hvL3Off : Fld := (1207, 1200)
def hvL4Off : Fld := (1199, 1192)
def hvTunOff : Fld := (1191, 1184)
def hvInnerL2Off : Fld := (1183, 1176)
def hvInnerL3Off : Fld := (1175, 1168)
def hvInnerL4Off : Fld := (1167, 1160)
def hvPtpOff : Fld := (1159, 1152)
def hvDmac : Fld := (1151, 1104)
def hvSmac : Fld := (1103, 1056)
def hvEthertype : Fld := (1055, 1040)
def hvTagTci : Fld := (1039, 976)
def hvTagKinds : Fld := (975, 968)
def hvMplsTop : Fld := (967, 936)
def hvMplsSecond : Fld := (935, 904)
def hvMplsBottom : Fld := (903, 872)
def hvL3Src : Fld := (871, 744)
def hvL3Dst : Fld := (743, 616)
def hvL3Proto : Fld := (615, 608)
def hvL3Ttl : Fld := (607, 600)
def hvL3Dscp : Fld := (599, 594)
def hvL3Ecn : Fld := (593, 592)
def hvFlowLabel : Fld := (591, 572)
def hvL3Len : Fld := (571, 556)
def hvL4Src : Fld := (555, 540)
def hvL4Dst : Fld := (539, 524)
def hvTcpFlags : Fld := (523, 515)
def hvVni : Fld := (511, 488)
def hvGreProto : Fld := (487, 472)
def hvInnerDmac : Fld := (471, 424)
def hvInnerSmac : Fld := (423, 376)
def hvInnerEthertype : Fld := (375, 360)
def hvInnerTagTci : Fld := (359, 344)
def hvInnerL3Src : Fld := (343, 216)
def hvInnerL3Dst : Fld := (215, 88)
def hvInnerProto : Fld := (87, 80)
def hvInnerTtl : Fld := (79, 72)
def hvInnerDscp : Fld := (71, 66)
def hvInnerEcn : Fld := (65, 64)
def hvInnerL4Src : Fld := (63, 48)
def hvInnerL4Dst : Fld := (47, 32)
def hvInnerTcpFlags : Fld := (31, 23)
def hvPtpDomain : Fld := (22, 15)

def mdDisposition : Fld := (767, 766)
def mdDropReason : Fld := (765, 760)
def mdTerminalStage : Fld := (759, 756)
def mdPass : Fld := (755, 754)
def mdEpoch : Fld := (753, 753)
def mdIngressPort : Fld := (752, 743)
def mdVrf : Fld := (742, 731)
def mdFid : Fld := (730, 717)
def mdVlan : Fld := (716, 705)
def mdDestKind : Fld := (704, 703)
def mdDestDevice : Fld := (702, 683)
def mdDestPort : Fld := (682, 673)
def mdClass : Fld := (672, 670)
def mdColour : Fld := (669, 668)
def mdMcGroup : Fld := (667, 652)
def mdNhDmac : Fld := (651, 604)
def mdEgressVlan : Fld := (603, 592)
def mdPushLabel : Fld := (591, 572)
def mdRewrite : Fld := (571, 564)
def mdTtlDec : Fld := (563, 563)
def mdDscpSet : Fld := (562, 556)
def mdExpSet : Fld := (555, 552)
def mdMeter : Fld := (551, 534)
def mdMeterValid : Fld := (533, 533)
def mdCounterA : Fld := (532, 513)
def mdCounterAValid : Fld := (512, 512)
def mdCounterB : Fld := (511, 492)
def mdCounterBValid : Fld := (491, 491)
def mdAclLabel : Fld := (490, 483)
def mdMirror : Fld := (482, 479)
def mdHostCopy : Fld := (478, 478)
def mdTrap : Fld := (477, 470)
def mdRecirc : Fld := (469, 469)
def mdRecircOff : Fld := (468, 461)
def mdRecircKind : Fld := (460, 459)
def mdHash : Fld := (458, 443)
def mdPtpAction : Fld := (442, 441)
def mdLearn : Fld := (440, 440)
def mdHits : Fld := (439, 436)
def mdScratch : Fld := (435, 404)
def mdResultA : Fld := (319, 192)
def mdResultB : Fld := (191, 64)
def mdResultAse : Fld := (63, 0)

/-- The header vector with every layer absent: offsets and tag kinds read 0xFF (R95). -/
def hvReset : Nat :=
  [hvMplsOff, hvL3Off, hvL4Off, hvTunOff, hvInnerL2Off, hvInnerL3Off, hvInnerL4Off, hvPtpOff, hvTagKinds].foldl
    (fun v f => fput v f 0xFF) 0

end Sys2Proof.Machine
end

