-- ==== Sys2Proof/Machine/Crypto.lean ====
section
/-! DEFINITION. The check codes and the keyed hash the spec names: CRC-32 of IEEE 802.3, CRC-32C, CRC-16, CRC-8,
SHA-256, HMAC and HKDF. The spec names the standards and not their steps; the steps are the standards'
(PRESUMED, notes/assumptions/8). -/

namespace Sys2Proof.Machine

/-- One bit of a reflected CRC. -/
def crcReflStep (poly : Nat) (c : Nat) : Nat := if c % 2 = 1 then Nat.xor (c / 2) poly else c / 2

/-- Eight bits of a reflected CRC over a byte. -/
def crcReflByte (poly : Nat) (c : Nat) (b : Byte) : Nat :=
  (List.range 8).foldl (fun c _ => crcReflStep poly c) (Nat.xor c b.toNat)

/-- A reflected 32-bit CRC, all ones in, complemented out. -/
def crcRefl32 (poly : Nat) (l : List Byte) : Nat := Nat.xor (l.foldl (crcReflByte poly) 0xFFFFFFFF) 0xFFFFFFFF

/-- The frame check sequence of IEEE 802.3. -/
def crc32 (l : List Byte) : Nat := crcRefl32 0xEDB88320 l

/-- CRC-32C (Castagnoli). -/
def crc32c (l : List Byte) : Nat := crcRefl32 0x82F63B78 l

/-- One byte of a forward CRC of width `w`. -/
def crcFwdByte (w poly : Nat) (c : Nat) (b : Byte) : Nat :=
  (List.range 8).foldl (fun c _ => if bit c (w - 1) then Nat.xor ((c * 2) % 2 ^ w) poly else (c * 2) % 2 ^ w)
    (Nat.xor c (b.toNat * 2 ^ (w - 8)))

/-- A forward CRC of width `w` with the given start value. -/
def crcFwd (w poly init : Nat) (l : List Byte) : Nat := l.foldl (crcFwdByte w poly) init

/-- 32-bit addition. -/
def add32 (a b : Nat) : Nat := (a + b) % 2 ^ 32

/-- 32-bit rotation right. -/
def rotr32 (x n : Nat) : Nat := (x / 2 ^ n + x * 2 ^ (32 - n)) % 2 ^ 32

/-- The round constants of SHA-256. -/
def sha256K : List Nat :=
  [0x428a2f98, 0x71374491, 0xb5c0fbcf, 0xe9b5dba5, 0x3956c25b, 0x59f111f1, 0x923f82a4, 0xab1c5ed5,
   0xd807aa98, 0x12835b01, 0x243185be, 0x550c7dc3, 0x72be5d74, 0x80deb1fe, 0x9bdc06a7, 0xc19bf174] ++
  [0xe49b69c1, 0xefbe4786, 0x0fc19dc6, 0x240ca1cc, 0x2de92c6f, 0x4a7484aa, 0x5cb0a9dc, 0x76f988da,
   0x983e5152, 0xa831c66d, 0xb00327c8, 0xbf597fc7, 0xc6e00bf3, 0xd5a79147, 0x06ca6351, 0x14292967] ++
  [0x27b70a85, 0x2e1b2138, 0x4d2c6dfc, 0x53380d13, 0x650a7354, 0x766a0abb, 0x81c2c92e, 0x92722c85,
   0xa2bfe8a1, 0xa81a664b, 0xc24b8b70, 0xc76c51a3, 0xd192e819, 0xd6990624, 0xf40e3585, 0x106aa070] ++
  [0x19a4c116, 0x1e376c08, 0x2748774c, 0x34b0bcb5, 0x391c0cb3, 0x4ed8aa4a, 0x5b9cca4f, 0x682e6ff3,
   0x748f82ee, 0x78a5636f, 0x84c87814, 0x8cc70208, 0x90befffa, 0xa4506ceb, 0xbef9a3f7, 0xc67178f2]

/-- The start value of SHA-256. -/
def sha256H : List Nat :=
  [0x6a09e667, 0xbb67ae85, 0x3c6ef372, 0xa54ff53a, 0x510e527f, 0x9b05688c, 0x1f83d9ab, 0x5be0cd19]

/-- Word `i` of a list, 0 past its end. -/
def nth (l : List Nat) (i : Nat) : Nat := (l.drop i).head?.getD 0

/-- The message schedule, newest word first. -/
def shaSchedule (w : List Nat) : Nat → List Nat
  | 0 => w
  | n + 1 =>
    let w := shaSchedule w n
    let x2 := nth w 1
    let x15 := nth w 14
    let s0 := Nat.xor (Nat.xor (rotr32 x15 7) (rotr32 x15 18)) (x15 / 2 ^ 3)
    let s1 := Nat.xor (Nat.xor (rotr32 x2 17) (rotr32 x2 19)) (x2 / 2 ^ 10)
    (add32 (add32 (nth w 15) s0) (add32 (nth w 6) s1)) :: w

/-- One round. -/
def shaRound (st : List Nat) (kw : Nat × Nat) : List Nat :=
  let a := nth st 0; let b := nth st 1; let c := nth st 2; let d := nth st 3
  let e := nth st 4; let f := nth st 5; let g := nth st 6; let h := nth st 7
  let S1 := Nat.xor (Nat.xor (rotr32 e 6) (rotr32 e 11)) (rotr32 e 25)
  let ch := Nat.xor (Nat.land e f) (Nat.land (0xFFFFFFFF - e) g)
  let t1 := add32 (add32 h S1) (add32 ch (add32 kw.1 kw.2))
  let S0 := Nat.xor (Nat.xor (rotr32 a 2) (rotr32 a 13)) (rotr32 a 22)
  let mj := Nat.xor (Nat.xor (Nat.land a b) (Nat.land a c)) (Nat.land b c)
  [add32 t1 (add32 S0 mj), a, b, c, add32 d t1, e, f, g]

/-- One 64-byte block. -/
def shaBlock (h : List Nat) (blk : List Byte) : List Nat :=
  let w := (shaSchedule ((List.range 16).map (fun i => beAt blk (4 * i) 4)).reverse 48).reverse
  List.zipWith add32 h ((List.zip sha256K w).foldl shaRound h)

/-- Blocks in order. -/
def shaBlocks : Nat → List Nat → List Byte → List Nat
  | 0, h, _ => h
  | n + 1, h, m => shaBlocks n (shaBlock h (m.take 64)) (m.drop 64)

/-- SHA-256. -/
def sha256 (m : List Byte) : List Byte :=
  let z := (119 - m.length % 64) % 64
  let p := m ++ [0x80] ++ List.replicate z 0 ++ beBytes 8 (8 * m.length)
  (shaBlocks (p.length / 64) sha256H p).flatMap (beBytes 4)

/-- HMAC-SHA-256. -/
def hmac256 (key m : List Byte) : List Byte :=
  let k := padTo (if key.length > 64 then sha256 key else key) 64
  sha256 (k.map (fun b => b ^^^ 0x5C) ++ sha256 (k.map (fun b => b ^^^ 0x36) ++ m))

/-- HKDF-SHA-256 with an output of 32 bytes (R417): one expansion step. -/
def hkdf256 (salt ikm info : List Byte) : List Byte :=
  hmac256 (hmac256 salt ikm) (info ++ [1])

end Sys2Proof.Machine
end

