-- ==== Sys2Proof/Config.lean ====
section
/-! DEFINITION. What the spec leaves open: constants with no body. Nothing in Lean can evaluate them. -/

namespace Sys2Proof.Config

/-- The n-th value the spec leaves open (a random number, a value of a sequence whose polynomial or seed the
spec does not state, a value it states nowhere): nothing constrains it (notes/assumptions/7). -/
opaque freeValue : Nat → Nat

/-- Whether an Ed25519 signature (third argument) of a message (second) holds under a public key (first):
the spec names the algorithm and leaves it to its standard (notes/assumptions/8). -/
opaque signatureHolds : List Byte → List Byte → List Byte → Bool

/-- Kreost's Ed25519 public key in the loader sector (R450): the spec does not state it (notes/assumptions/8). -/
opaque loaderKey : List Byte

/-- Kreost's 11-bit JEP106 identity in IDCODE (R523): the spec does not state it (notes/assumptions/8). -/
opaque jepIdentity : Nat

end Sys2Proof.Config
end

