-- ==== Sys2Proof/Machine/OdTable.lean ====
section
/-! DEFINITION. The object dictionary as one table (R390, R413): one row per entry of the chapters' tables, its type,
access code, default, persistence class, stated range, writable bits and the levels to read and write it (R392 and the
chapters' level sentences). An entry is keyed by index * 256 + subindex, and a per-caller entry by its caller as well.
Range and mask columns are read from the Meaning column (DEDUCED, notes/assumptions/10). -/

namespace Sys2Proof.Machine

/-- The types of Table — Types (R391). The 40-bit fall-back statistics (R73) are `u40`. -/
inductive EType where
  | bool | u8 | u16 | u32 | u64 | s32 | bits32 | mac48 | u40 | str (n : Nat) | domain | job
deriving DecidableEq, Repr

/-- The access codes of R7. -/
inductive Acc where
  | ro | rw | wo | rc | w1c | cw (n : Nat)
deriving DecidableEq, Repr

/-- The persistence codes of R7: volatile, persistent, fuse. -/
inductive Persist where
  | v | p | f
deriving DecidableEq, Repr

/-- One row of a dictionary table. Levels: 0 Observer, 1 Operator, 2 Administrator, 3 Vendor. -/
structure OdRow where
  idx : Nat
  cnt : Nat
  sub : Nat
  subCnt : Nat
  ty : EType
  acc : Acc
  dflt : Nat
  per : Persist
  lo : Nat
  hi : Nat
  zeroOk : Bool
  mask : Nat
  rd : Nat
  wr : Nat
  caller : Bool
deriving DecidableEq, Repr

/-- The key of an entry: index.subindex. -/
def key (idx sub : Nat) : Nat := idx * 256 + sub

/-- A key whose parameters lie in range, else key 0, which names no entry. -/
def keyIf (b : Bool) (k : Nat) : Nat := if b then k else 0

/-- Rows 0x1000.00 to 0x1010.00. -/
def odRows0 : List OdRow := [
  ⟨0x1000, 1, 0, 1, (.str 8), .ro, 0, .f, 0, 0, false, 0, 0, 2, false⟩, -- id_vendor, R414
  ⟨0x1001, 1, 0, 1, (.str 16), .ro, 0, .f, 0, 0, false, 0, 0, 2, false⟩, -- id_family, R414
  ⟨0x1002, 1, 0, 1, (.str 16), .ro, 0, .f, 0, 0, false, 0, 0, 2, false⟩, -- id_part, R414
  ⟨0x1003, 1, 0, 1, (.str 24), .ro, 0, .f, 0, 0, false, 0, 0, 2, false⟩, -- id_ordering_code, R414
  ⟨0x1004, 1, 0, 1, .u8, .ro, 0xA1, .f, 0, 0xFF, false, 0xFF, 0, 2, false⟩, -- id_silicon_rev, R414
  ⟨0x1005, 1, 0, 1, .u8, .ro, 0, .f, 0, 0xFF, false, 0xFF, 0, 2, false⟩, -- id_temp_grade, R414
  ⟨0x1006, 1, 0, 1, (.str 4), .ro, 0, .f, 0, 0, false, 0, 0, 2, false⟩, -- id_package, R414
  ⟨0x1007, 1, 0, 1, .u16, .ro, 0x5120, .f, 0, 0xFFFF, false, 0xFFFF, 0, 2, false⟩, -- id_hw_type, R414
  ⟨0x1008, 1, 0, 1, .u64, .ro, 0, .f, 0, 0xFFFFFFFFFFFFFFFF, false, 0xFFFFFFFFFFFFFFFF, 0, 2, false⟩, -- id_unit_id_hi, R414
  ⟨0x1008, 1, 1, 1, .u64, .ro, 0, .f, 0, 0xFFFFFFFFFFFFFFFF, false, 0xFFFFFFFFFFFFFFFF, 0, 2, false⟩, -- id_unit_id_lo, R414
  ⟨0x1009, 1, 0, 1, (.str 16), .ro, 0, .f, 0, 0, false, 0, 0, 2, false⟩, -- id_lot, R414
  ⟨0x1010, 1, 0, 1, .u16, .ro, 0x100, .v, 0, 0xFFFF, false, 0xFFFF, 0, 2, false⟩ -- id_od_version, R414
  ]

/-- Rows 0x1011.00 to 0x1027.00. -/
def odRows1 : List OdRow := [
  ⟨0x1011, 1, 0, 1, .u32, .ro, 0, .v, 0, 0xFFFFFFFF, false, 0xFFFFFFFF, 0, 2, false⟩, -- id_fw_version, R414
  ⟨0x1012, 1, 0, 1, .u32, .ro, 0, .v, 0, 0xFFFFFFFF, false, 0xFFFFFFFF, 0, 2, false⟩, -- id_loader_version, R414
  ⟨0x1013, 1, 0, 1, .u32, .ro, 0, .v, 0, 0xFFFFFFFF, false, 0xFFFFFFFF, 0, 2, false⟩, -- id_straps, R414
  ⟨0x1014, 1, 0, 1, .bool, .ro, 0, .f, 0, 1, false, 1, 0, 2, false⟩, -- id_jtag_locked, R414
  ⟨0x1020, 1, 0, 1, .u16, .ro, 0x100, .v, 0, 0xFFFF, false, 0xFFFF, 0, 2, false⟩, -- cap_line_lanes, R414
  ⟨0x1021, 1, 0, 1, .u16, .ro, 0x140, .v, 0, 0xFFFF, false, 0xFFFF, 0, 2, false⟩, -- cap_fabric_lanes, R414
  ⟨0x1022, 1, 0, 1, .u16, .ro, 0x400, .v, 0, 0xFFFF, false, 0xFFFF, 0, 2, false⟩, -- cap_port_instances, R414
  ⟨0x1023, 1, 0, 1, .u8, .ro, 0x79, .v, 0, 0xFF, false, 0xFF, 0, 2, false⟩, -- cap_islands, R414
  ⟨0x1024, 1, 0, 1, .u32, .ro, 0x80000, .v, 0, 0xFFFFFFFF, false, 0xFFFFFFFF, 0, 2, false⟩, -- cap_queues, R414
  ⟨0x1025, 1, 0, 1, .u32, .ro, 0xC00000, .v, 0, 0xFFFFFFFF, false, 0xFFFFFFFF, 0, 2, false⟩, -- cap_lpm_units, R414
  ⟨0x1026, 1, 0, 1, .u32, .ro, 0x200000, .v, 0, 0xFFFFFFFF, false, 0xFFFFFFFF, 0, 2, false⟩, -- cap_em_slots, R414
  ⟨0x1027, 1, 0, 1, .u32, .ro, 0x40000, .v, 0, 0xFFFFFFFF, false, 0xFFFFFFFF, 0, 2, false⟩ -- cap_ase_entries, R414
  ]

/-- Rows 0x1028.00 to 0x1103.pp. -/
def odRows2 : List OdRow := [
  ⟨0x1028, 1, 0, 1, .u16, .ro, 0x400, .v, 0, 0xFFFF, false, 0xFFFF, 0, 2, false⟩, -- cap_event_sources, R414
  ⟨0x1029, 1, 0, 1, .u16, .ro, 0x1000, .v, 0, 0xFFFF, false, 0xFFFF, 0, 2, false⟩, -- cap_perf_counters, R414
  ⟨0x102A, 1, 0, 1, .u8, .ro, 0x3F, .v, 0, 0xFF, false, 0xFF, 0, 2, false⟩, -- cap_vfs, R414
  ⟨0x102B, 1, 0, 1, .u16, .ro, 0x188, .v, 0, 0xFFFF, false, 0xFFFF, 0, 2, false⟩, -- cap_sram_mib, R414
  ⟨0x102C, 1, 0, 1, .u16, .ro, 0x60, .v, 0, 0xFFFF, false, 0xFFFF, 0, 2, false⟩, -- cap_crock_gib, R414
  ⟨0x102D, 1, 0, 1, .bits32, .ro, 0x1F, .v, 0, 0xFFFFFFFF, false, 0xFFFFFFFF, 0, 2, false⟩, -- cap_features, R414
  ⟨0x1050, 1, 0, 1, (.str 64), .rw, 0, .p, 0, 0, false, 0, 0, 2, false⟩, -- id_user_label, R414
  ⟨0x1051, 1, 0, 1, (.str 64), .rw, 0, .p, 0, 0, false, 0, 0, 2, false⟩, -- id_user_location, R414
  ⟨0x1100, 1, 0, 1, .u16, .rw, 0x181A, .p, 1, 0xFFFF, false, 0xFFFF, 0, 2, false⟩, -- syn_udp_port, R427
  ⟨0x1101, 1, 0, 1, .bits32, .rw, 7, .p, 0, 0xFFFFFFFF, false, 7, 0, 2, false⟩, -- syn_enable, R427
  ⟨0x1102, 1, 0, 2, .u8, .rw, 0, .p, 0, 1, false, 0xFF, 0, 2, false⟩, -- syn_oob_mode, R427
  ⟨0x1103, 1, 0, 2, .mac48, .rw, 0, .p, 0, 0xFFFFFFFFFFFF, false, 0xFFFFFFFFFFFF, 0, 2, false⟩ -- syn_oob_mac, R427
  ]

/-- Rows 0x1104.pp to 0x1113.00. -/
def odRows3 : List OdRow := [
  ⟨0x1104, 1, 0, 2, .u64, .rw, 0, .p, 0, 0xFFFFFFFFFFFFFFFF, false, 0xFFFFFFFF3F, 0, 2, false⟩, -- syn_oob_ipv4, R427
  ⟨0x1105, 1, 0, 2, .domain, .rw, 0, .p, 0, 0, false, 0, 0, 2, false⟩, -- syn_oob_ipv6, R427
  ⟨0x1106, 1, 0, 2, .u32, .rw, 0, .p, 0, 0xFFFFFFFF, false, 0xFFFFFFFF, 0, 2, false⟩, -- syn_oob_gw4, R427
  ⟨0x1107, 1, 0, 1, .domain, (.cw 4), 0, .f, 0, 0, false, 0, 0, 2, false⟩, -- syn_device_key, R427
  ⟨0x1108, 1, 0, 1, .bool, .ro, 0, .f, 0, 1, false, 1, 0, 2, false⟩, -- syn_key_set, R427
  ⟨0x1109, 1, 0, 1, .bool, .rw, 1, .p, 0, 1, false, 1, 0, 2, false⟩, -- syn_discover_open, R427
  ⟨0x110A, 1, 0, 1, .u16, .rw, 0x3C, .p, 5, 0xE10, false, 0xFFFF, 0, 2, false⟩, -- syn_session_idle_s, R427
  ⟨0x110B, 1, 0, 1, .u8, .rw, 0x40, .p, 1, 0xFF, false, 0xFF, 0, 2, false⟩, -- syn_relay_hop_limit, R427
  ⟨0x1110, 1, 0, 1, .domain, .ro, 0, .v, 0, 0, false, 0, 0, 2, false⟩, -- syn_sessions, R427
  ⟨0x1111, 1, 0, 1, .u8, .ro, 0, .v, 0, 0xFF, false, 0xFF, 0, 2, false⟩, -- syn_session_count, R427
  ⟨0x1112, 1, 0, 1, .u64, .ro, 0, .v, 0, 0xFFFFFFFFFFFFFFFF, false, 0xFFFFFFFFFFFFFFFF, 0, 2, false⟩, -- syn_auth_failures, R427
  ⟨0x1113, 1, 0, 1, .u64, .ro, 0, .v, 0, 0xFFFFFFFFFFFFFFFF, false, 0xFFFFFFFFFFFFFFFF, 0, 2, false⟩ -- syn_replays, R427
  ]

/-- Rows 0x1114.00 to 0x11A0.00. -/
def odRows4 : List OdRow := [
  ⟨0x1114, 1, 0, 1, .u64, .ro, 0, .v, 0, 0xFFFFFFFFFFFFFFFF, false, 0xFFFFFFFFFFFFFFFF, 0, 2, false⟩, -- syn_relay_forwarded, R427
  ⟨0x1115, 1, 0, 1, .u64, .ro, 0, .v, 0, 0xFFFFFFFFFFFFFFFF, false, 0xFFFFFFFFFFFFFFFF, 0, 2, false⟩, -- syn_relay_dropped, R427
  ⟨0x1116, 1, 0, 1, .domain, .ro, 0, .v, 0, 0, false, 0, 0, 2, false⟩, -- syn_neighbours, R427
  ⟨0x1120, 1, 0, 1, .u64, .rw, 0, .v, 0, 0xFFFFFFFFFFFFFFFF, false, 0xFFFFFFFFFFFFFFFF, 0, 1, true⟩, -- syn_event_groups, R427
  ⟨0x1180, 1, 0, 1, .u32, .wo, 0, .v, 0x14, 0x1000, false, 0xFFFFFFFF, 0, 1, true⟩, -- mb_doorbell, R427
  ⟨0x1181, 1, 0, 1, .u32, .ro, 0, .v, 0, 0xFFFFFFFF, false, 0xFFFFFFFF, 0, 2, true⟩, -- mb_status, R427
  ⟨0x1182, 1, 0, 1, .u64, .rc, 0, .v, 0, 0xFFFFFFFFFFFFFFFF, false, 0xFFFFFFFFFFFFFFFF, 1, 2, true⟩, -- od_access_status, R427
  ⟨0x1190, 1, 0, 1, .job, .wo, 0, .v, 0, 0, false, 0, 0, 1, false⟩, -- od_save, R427
  ⟨0x1191, 1, 0, 1, .bool, .ro, 0, .v, 0, 1, false, 1, 0, 2, false⟩, -- od_unsaved, R427
  ⟨0x1192, 1, 0, 1, .job, .wo, 0, .v, 0, 0, false, 0, 0, 2, false⟩, -- od_settings_erase, R427
  ⟨0x1193, 1, 0, 1, .u16, .rw, 0x3E8, .p, 0xA, 0xEA60, false, 0xFFFF, 0, 2, false⟩, -- od_domain_idle_ms, R427
  ⟨0x11A0, 1, 0, 1, .bits32, .w1c, 0, .v, 0, 0xFFFFFFFF, false, 0x3F, 0, 2, false⟩ -- od_cause, R427
  ]

/-- Rows 0x11A1.00 to 0x1210.00. -/
def odRows5 : List OdRow := [
  ⟨0x11A1, 1, 0, 1, .bits32, .rw, 0x1F, .p, 0, 0xFFFFFFFF, false, 0x3F, 0, 2, false⟩, -- od_cause_enable, R427
  ⟨0x1200, 1, 0, 1, .u8, .ro, 0, .v, 0, 0xFF, false, 0xFF, 0, 2, false⟩, -- fw_state, R465
  ⟨0x1201, 1, 0, 1, .u32, .ro, 0, .v, 0, 0xFFFFFFFF, false, 0xFFFFFFFF, 0, 2, false⟩, -- fw_last_boot, R465
  ⟨0x1202, 1, 0, 1, .bool, .wo, 0, .v, 0, 1, false, 1, 0, 2, false⟩, -- fw_restart, R465
  ⟨0x1203, 1, 0, 1, .u32, .ro, 0, .v, 0, 0xFFFFFFFF, false, 0xFFFFFFFF, 0, 2, false⟩, -- fw_restart_count, R465
  ⟨0x1204, 1, 0, 1, .u16, .rw, 0x1F4, .p, 0x64, 0x2710, false, 0xFFFF, 0, 2, false⟩, -- fw_watchdog_ms, R465
  ⟨0x1205, 1, 0, 1, .u8, (.cw 64), 0, .f, 0, 0xFF, false, 0xFF, 0, 2, false⟩, -- fw_rollback_floor, R465
  ⟨0x1206, 1, 0, 1, .domain, .ro, 0, .v, 0, 0, false, 0, 0, 2, false⟩, -- fw_running_header, R465
  ⟨0x1207, 1, 0, 1, .u8, .ro, 0, .f, 0, 0xFF, false, 0xFF, 0, 2, false⟩, -- fw_region_state, R465
  ⟨0x1208, 1, 0, 1, .job, .wo, 0, .v, 0, 0, false, 0, 0, 2, false⟩, -- fw_install, R465
  ⟨0x1209, 1, 0, 1, .u16, .ro, 0, .f, 0, 0xFFFF, false, 0xFFFF, 0, 2, false⟩, -- fw_settings_schema, R465
  ⟨0x1210, 1, 0, 1, .domain, .rw, 0, .v, 0, 0, false, 0, 0, 2, false⟩ -- fw_staged, R465
  ]

/-- Rows 0x1211.00 to 0x1301.00. -/
def odRows6 : List OdRow := [
  ⟨0x1211, 1, 0, 1, .domain, .ro, 0, .v, 0, 0, false, 0, 0, 2, false⟩, -- fw_staged_header, R465
  ⟨0x1212, 1, 0, 1, .u8, .ro, 0, .v, 0, 0xFF, false, 0xFF, 0, 2, false⟩, -- fw_staged_valid, R465
  ⟨0x1213, 1, 0, 1, .bool, .rw, 1, .p, 0, 1, false, 1, 0, 2, false⟩, -- fw_relay_enable, R465
  ⟨0x1214, 1, 0, 1, .bool, .rw, 0, .p, 0, 1, false, 1, 0, 2, false⟩, -- fw_auto_install, R465
  ⟨0x1215, 1, 0, 1, .u16, .rw, 0xA, .p, 1, 0xE10, false, 0xFFFF, 0, 2, false⟩, -- fw_relay_poll_s, R465
  ⟨0x1216, 1, 0, 1, .u32, .ro, 0, .v, 0, 0xFFFFFFFF, false, 0xFFFFFFFF, 0, 2, false⟩, -- fw_relay_fetches, R465
  ⟨0x1217, 1, 0, 1, .u32, .ro, 0, .v, 0, 0xFFFFFFFF, false, 0xFFFFFFFF, 0, 2, false⟩, -- fw_relay_served, R465
  ⟨0x1218, 1, 0, 1, .domain, .ro, 0, .f, 0, 0, false, 0, 0, 2, false⟩, -- fw_key_digest, R465
  ⟨0x1220, 1, 0, 1, .bits32, .w1c, 0, .v, 0, 0xFFFFFFFF, false, 0xFF, 0, 2, false⟩, -- fw_cause, R465
  ⟨0x1221, 1, 0, 1, .bits32, .rw, 0xFF, .p, 0, 0xFFFFFFFF, false, 0xFF, 0, 2, false⟩, -- fw_cause_enable, R465
  ⟨0x1300, 1, 0, 1, .u8, .ro, 0, .v, 0, 0xFF, false, 0xFF, 0, 2, false⟩, -- pwr_state, R485
  ⟨0x1301, 1, 0, 1, .job, .wo, 0, .v, 0, 0, false, 0, 0, 1, false⟩ -- pwr_retention_enter, R485
  ]

/-- Rows 0x1302.00 to 0x1321.nn. -/
def odRows7 : List OdRow := [
  ⟨0x1302, 1, 0, 1, .job, .wo, 0, .v, 0, 0, false, 0, 0, 1, false⟩, -- pwr_retention_exit, R485
  ⟨0x1303, 1, 0, 1, .job, .wo, 0, .v, 0, 0, false, 0, 0, 1, false⟩, -- pwr_datapath_reset, R485
  ⟨0x1304, 1, 0, 1, .u8, .rw, 0x20, .v, 0, 0xFF, false, 0xFF, 0, 2, false⟩, -- pwr_island_reset_arg, R485
  ⟨0x1305, 1, 0, 1, .job, .wo, 0, .v, 0, 0, false, 0, 0, 1, false⟩, -- pwr_island_reset, R485
  ⟨0x1306, 1, 0, 1, .u8, .ro, 0, .v, 0, 0xFF, false, 0xFF, 0, 2, false⟩, -- pwr_last_reset, R485
  ⟨0x1307, 1, 1, 8, .u32, .ro, 0, .v, 0, 0xFFFFFFFF, false, 0xFFFFFFFF, 0, 2, false⟩, -- pwr_reset_count, R485
  ⟨0x1308, 1, 0, 1, .u8, .ro, 0, .v, 0, 0xFF, false, 0xFF, 0, 2, false⟩, -- pwr_startup_phase, R485
  ⟨0x1309, 1, 0, 1, .domain, .ro, 0, .v, 0, 0, false, 0, 0, 2, false⟩, -- pwr_startup_ms, R485
  ⟨0x130A, 1, 0, 1, .bool, .rw, 1, .p, 0, 1, false, 1, 0, 2, false⟩, -- pwr_auto_bringup, R485
  ⟨0x1310, 1, 0, 1, .u8, .ro, 0x79, .v, 0, 0xFF, false, 0xFF, 0, 2, false⟩, -- island_count, R50
  ⟨0x1320, 1, 0, 121, .u8, .rw, 0, .v, 0, 1, false, 0xFF, 0, 1, false⟩, -- island_mode, R50
  ⟨0x1321, 1, 0, 121, .u32, .ro, 0, .v, 0, 0xFFFFFFFF, false, 0xFFFFFFFF, 0, 2, false⟩ -- island_freq_khz, R50
  ]

/-- Rows 0x1322.nn to 0x1340.ss. -/
def odRows8 : List OdRow := [
  ⟨0x1322, 1, 0, 121, .bool, .rw, 1, .p, 0, 1, false, 1, 0, 1, false⟩, -- island_stop_enable, R50
  ⟨0x1323, 1, 0, 121, .u8, .rw, 4, .p, 4, 0x10, false, 0xFF, 0, 2, false⟩, -- island_floor_step, R50
  ⟨0x1324, 1, 0, 121, .u8, .ro, 0, .v, 0, 0xFF, false, 0xFF, 0, 2, false⟩, -- island_step, R50
  ⟨0x1325, 1, 0, 121, .u32, .ro, 0, .v, 0, 0xFFFFFFFF, false, 0xFFFFFFFF, 0, 2, false⟩, -- island_busy_ppm, R50
  ⟨0x1326, 1, 0, 121, .u64, .ro, 0, .v, 0, 0xFFFFFFFFFFFFFFFF, false, 0xFFFFFFFFFFFFFFFF, 0, 2, false⟩, -- island_wake_count, R50
  ⟨0x1327, 1, 0, 1, .bool, .wo, 0, .v, 0, 1, false, 1, 0, 1, false⟩, -- pin_all_scalable, R50
  ⟨0x1328, 1, 0, 1, .u8, .ro, 0, .v, 0, 0xFF, false, 0xFF, 0, 2, false⟩, -- clock_fault_island, R50
  ⟨0x1330, 1, 0, 2, .u16, .ro, 0x2EE, .v, 0, 0xFFFF, false, 0xFFFF, 0, 2, false⟩, -- pwr_vdd_mv, R485
  ⟨0x1331, 1, 0, 2, .u16, .ro, 0, .f, 0, 0xFFFF, false, 0xFFFF, 0, 2, false⟩, -- pwr_vdd_fuse_mv, R485
  ⟨0x1332, 1, 0, 1, .u16, .rw, 0x258, .p, 0x258, 0x2EE, false, 0xFFFF, 0, 2, false⟩, -- pwr_retention_mv, R485
  ⟨0x1333, 1, 0, 1, .u16, .ro, 0, .v, 0, 0xFFFF, false, 0xFFFF, 0, 2, false⟩, -- pwr_estimate_w, R485
  ⟨0x1340, 1, 0, 64, .s32, .ro, 0, .v, 0, 0xFFFFFFFF, false, 0xFFFFFFFF, 0, 2, false⟩ -- temp_sensor, R485
  ]

/-- Rows 0x1341.00 to 0x13C3.mm. -/
def odRows9 : List OdRow := [
  ⟨0x1341, 1, 0, 1, .s32, .ro, 0, .v, 0, 0xFFFFFFFF, false, 0xFFFFFFFF, 0, 2, false⟩, -- temp_max, R485
  ⟨0x1342, 1, 0, 1, .u8, .ro, 0, .v, 0, 0xFF, false, 0xFF, 0, 2, false⟩, -- temp_max_sensor, R485
  ⟨0x1343, 1, 0, 2, .s32, .ro, 0, .v, 0, 0xFFFFFFFF, false, 0xFFFFFFFF, 0, 2, false⟩, -- temp_diode, R485
  ⟨0x1344, 1, 0, 1, .u8, .rw, 0x64, .p, 0x50, 0x69, false, 0xFF, 0, 2, false⟩, -- pwr_temp_warn_c, R485
  ⟨0x1345, 1, 0, 1, .u8, .rw, 0x6E, .p, 0x69, 0x78, false, 0xFF, 0, 2, false⟩, -- pwr_temp_crit_c, R485
  ⟨0x1346, 1, 0, 1, .u8, .rw, 1, .p, 0, 1, false, 0xFF, 0, 2, false⟩, -- pwr_crit_action, R485
  ⟨0x1370, 1, 0, 1, .bits32, .w1c, 0, .v, 0, 0xFFFFFFFF, false, 0x7F, 0, 2, false⟩, -- pwr_cause, R485
  ⟨0x1371, 1, 0, 1, .bits32, .rw, 0x7F, .p, 0, 0xFFFFFFFF, false, 0x7F, 0, 2, false⟩, -- pwr_cause_enable, R485
  ⟨0x13C0, 1, 0, 1, .bits32, .rw, 0, .p, 0, 0xFFFFFFFF, false, 0xFFFFFFFF, 0, 2, false⟩, -- io_gpio_dir, R524
  ⟨0x13C1, 1, 0, 1, .bits32, .rw, 0, .p, 0, 0xFFFFFFFF, false, 0xFFFFFFFF, 0, 2, false⟩, -- io_gpio_out, R524
  ⟨0x13C2, 1, 0, 1, .bits32, .ro, 0, .v, 0, 0xFFFFFFFF, false, 0xFFFFFFFF, 0, 2, false⟩, -- io_gpio_in, R524
  ⟨0x13C3, 1, 0, 2, .u8, .rw, 0, .p, 0, 1, false, 0xFF, 0, 2, false⟩ -- io_i2c_speed, R524
  ]

/-- Rows 0x13C4.mm to 0x1413.gg. -/
def odRows10 : List OdRow := [
  ⟨0x13C4, 1, 0, 2, .domain, .rw, 0, .v, 0, 0, false, 0, 0, 2, false⟩, -- io_i2c_xfer, R524
  ⟨0x13C5, 1, 0, 2, .u16, .rw, 0x9C4, .p, 0x64, 0x30D4, false, 0xFFFF, 0, 2, false⟩, -- io_mdio_mdc_khz, R524
  ⟨0x13C6, 1, 0, 2, .domain, .rw, 0, .v, 0, 0, false, 0, 0, 2, false⟩, -- io_mdio_xfer, R524
  ⟨0x13C7, 1, 0, 1, .u64, .ro, 0, .v, 0, 0xFFFFFFFFFFFFFFFF, false, 0xFFFFFFFFFFFFFFFF, 0, 2, false⟩, -- io_pps_in_ts, R524
  ⟨0x1400, 4, 0, 256, .bool, .ro, 0, .v, 0, 1, false, 1, 0, 2, false⟩, -- evt_status, R389
  ⟨0x1404, 4, 0, 256, .bool, .w1c, 0, .v, 0, 1, false, 1, 0, 1, false⟩, -- evt_sticky, R389
  ⟨0x1408, 4, 0, 256, .bool, .rw, 1, .p, 0, 1, false, 1, 0, 2, false⟩, -- evt_mask, R389
  ⟨0x140C, 4, 0, 256, .u32, .rw, 0, .p, 0, 0xFFFFFFFF, false, 0xFFFFFE00, 0, 2, false⟩, -- evt_route, R389
  ⟨0x1410, 1, 0, 1, .u64, .ro, 0, .v, 0, 0xFFFFFFFFFFFFFFFF, false, 0xFFFFFFFFFFFFFFFF, 0, 2, false⟩, -- evt_group_pending, R389
  ⟨0x1411, 1, 0, 64, .u16, .w1c, 0, .v, 0, 0xFFFF, false, 0xFFFF, 0, 1, false⟩, -- evt_group_sticky, R389
  ⟨0x1412, 1, 0, 64, .u16, .ro, 0, .v, 0, 0xFFFF, false, 0xFFFF, 0, 2, false⟩, -- evt_group_status, R389
  ⟨0x1413, 1, 0, 64, .u16, .rw, 0xFFFF, .v, 0, 0xFFFF, false, 0xFFFF, 0, 2, false⟩ -- evt_group_mask, R389
  ]

/-- Rows 0x1420.vv to 0x1501.cc. -/
def odRows11 : List OdRow := [
  ⟨0x1420, 1, 0, 256, .u64, .ro, 0, .v, 0, 0xFFFFFFFFFFFFFFFF, false, 0xFFFFFFFFFFFFFFFF, 0, 2, false⟩, -- evt_pf_vector_groups, R389
  ⟨0x1430, 1, 0, 1, .bool, .rw, 1, .p, 0, 1, false, 1, 0, 2, false⟩, -- evt_pin_enable, R389
  ⟨0x1431, 1, 0, 1, .bool, .ro, 0, .v, 0, 1, false, 1, 0, 2, false⟩, -- evt_pin_state, R389
  ⟨0x1440, 1, 0, 1, .u16, .ro, 0, .v, 0, 0xFFFF, false, 0xFFFF, 0, 2, false⟩, -- evt_fw_queue_depth, R389
  ⟨0x1441, 1, 0, 1, .u64, .ro, 0, .v, 0, 0xFFFFFFFFFFFFFFFF, false, 0xFFFFFFFFFFFFFFFF, 0, 2, false⟩, -- evt_fw_queue_lost, R389
  ⟨0x1442, 1, 0, 1, .u16, .rc, 0, .v, 0, 0xFFFF, false, 0xFFFF, 1, 2, false⟩, -- evt_fw_queue_high, R389
  ⟨0x1450, 1, 0, 1, .u16, .wo, 0, .v, 0x3F0, 0x3FF, false, 0xFFFF, 0, 1, false⟩, -- evt_test_raise, R389
  ⟨0x1451, 1, 0, 1, .bits32, .w1c, 0, .v, 0, 0xFFFFFFFF, false, 0xFFFF, 0, 1, false⟩, -- evt_test_cause, R389
  ⟨0x1452, 1, 0, 1, .bits32, .rw, 0xFFFF, .p, 0, 0xFFFFFFFF, false, 0xFFFF, 0, 2, false⟩, -- evt_test_cause_enable, R389
  ⟨0x1460, 1, 0, 1, .u64, .ro, 0, .v, 0, 0xFFFFFFFFFFFFFFFF, false, 0xFFFFFFFFFFFFFFFF, 0, 2, false⟩, -- evt_pulses, R389
  ⟨0x1500, 1, 0, 12, .u64, .ro, 0, .v, 0, 0xFFFFFFFFFFFFFFFF, false, 0xFFFFFFFFFFFFFFFF, 0, 2, false⟩, -- int_corrected, R499
  ⟨0x1501, 1, 0, 12, .u64, .ro, 0, .v, 0, 0xFFFFFFFFFFFFFFFF, false, 0xFFFFFFFFFFFFFFFF, 0, 2, false⟩ -- int_uncorrectable, R499
  ]

/-- Rows 0x1502.00 to 0x1520.00. -/
def odRows12 : List OdRow := [
  ⟨0x1502, 1, 0, 1, .u64, .ro, 0, .v, 0, 0xFFFFFFFFFFFFFFFF, false, 0xFFFFFFFFFFFFFFFF, 0, 2, false⟩, -- int_last_error, R499
  ⟨0x1503, 1, 0, 1, .u32, .ro, 0, .v, 0, 0xFFFFFFFF, false, 0xFFFFFFFF, 0, 2, false⟩, -- int_poisoned, R499
  ⟨0x1504, 1, 0, 1, .u32, .ro, 0, .v, 0, 0xFFFFFFFF, false, 0xFFFFFFFF, 0, 2, false⟩, -- int_queue_faulted, R499
  ⟨0x1505, 1, 0, 1, .u16, .ro, 0, .v, 0, 0xFFFF, false, 0xFFFF, 0, 2, false⟩, -- int_d2d_lanes_repaired, R499
  ⟨0x1506, 1, 0, 1, .u64, .ro, 0, .v, 0, 0xFFFFFFFFFFFFFFFF, false, 0xFFFFFFFFFFFFFFFF, 0, 2, false⟩, -- int_residue_faults, R499
  ⟨0x1507, 1, 0, 1, .u64, .ro, 0, .v, 0, 0xFFFFFFFFFFFFFFFF, false, 0xFFFFFFFFFFFFFFFF, 0, 2, false⟩, -- int_scrub_late, R499
  ⟨0x1510, 1, 0, 1, .u32, .rw, 0x3E8, .p, 0xFA, 0x186A0, false, 0xFFFFFFFF, 0, 2, false⟩, -- int_buf_scrub_ns, R499
  ⟨0x1511, 1, 0, 1, .u16, .rw, 0xA, .p, 1, 0x2710, false, 0xFFFF, 0, 2, false⟩, -- int_qms_scrub_ms, R499
  ⟨0x1512, 1, 0, 1, .u16, .rw, 0x64, .p, 0xA, 0x2710, false, 0xFFFF, 0, 2, false⟩, -- int_lkp_scrub_ms, R499
  ⟨0x1513, 1, 0, 1, .u16, .rw, 0xA, .p, 1, 0x2710, false, 0xFFFF, 0, 2, false⟩, -- int_cls_scrub_ms, R499
  ⟨0x1514, 1, 0, 1, .u16, .rw, 0x64, .p, 0xA, 0x2710, false, 0xFFFF, 0, 2, false⟩, -- int_mc_scrub_ms, R499
  ⟨0x1520, 1, 0, 1, .u64, .rw, 0, .v, 0, 0xFFFFFFFFFFFFFFFF, false, 0xFFFFFFFFFFFFFFFF, 0, 2, false⟩ -- int_inject, R499
  ]

/-- Rows 0x1521.00 to 0x1615.vv. -/
def odRows13 : List OdRow := [
  ⟨0x1521, 1, 0, 1, .u32, .ro, 0, .v, 0, 0xFFFFFFFF, false, 0xFFFFFFFF, 0, 2, false⟩, -- int_inject_fired, R499
  ⟨0x1530, 1, 0, 1, .bits32, .w1c, 0, .v, 0, 0xFFFFFFFF, false, 0x1FF, 0, 2, false⟩, -- int_cause, R499
  ⟨0x1531, 1, 0, 1, .bits32, .rw, 0x1FE, .p, 0, 0xFFFFFFFF, false, 0x1FF, 0, 2, false⟩, -- int_cause_enable, R499
  ⟨0x1600, 1, 0, 1, .u32, .ro, 0, .v, 0, 0xFFFFFFFF, false, 0xFFFFFFFF, 0, 2, false⟩, -- host_link, R447
  ⟨0x1601, 1, 0, 1, .u16, .ro, 0, .f, 0, 0xFFFF, false, 0xFFFF, 0, 2, false⟩, -- host_vendor_id, R447
  ⟨0x1602, 1, 0, 1, .u8, .ro, 0, .v, 0, 0xFF, false, 0xFF, 0, 2, false⟩, -- host_num_vfs, R447
  ⟨0x1610, 1, 0, 64, .u8, .ro, 0, .v, 0, 0xFF, false, 0xFF, 0, 2, false⟩, -- vf_generation, R447
  ⟨0x1611, 1, 1, 63, .bits32, .rw, 0, .v, 0, 0xFFFFFFFF, false, 0xFFFF, 0, 2, false⟩, -- vf_ring_grant, R447
  ⟨0x1612, 1, 1, 63, .domain, .rw, 0, .v, 0, 0, false, 0, 0, 2, false⟩, -- vf_od_grant, R447
  ⟨0x1613, 1, 1, 63, .u64, .rw, 0, .v, 0, 0xFFFFFFFFFFFFFFFF, false, 0x1FFFFF000FFFFF, 0, 2, false⟩, -- vf_ctr_window, R447
  ⟨0x1614, 1, 1, 63, .u64, .rw, 0, .v, 0, 0xFFFFFFFFFFFFFFFF, false, 0xFFFFF0007FFFF, 0, 2, false⟩, -- vf_inject_queues, R447
  ⟨0x1615, 1, 1, 63, .u32, .rw, 0, .v, 0, 0xFFFFFFFF, false, 0x87FF03FF, 0, 2, false⟩ -- vf_inject_ports, R447
  ]

/-- Rows 0x1616.vv to 0x1630.rr. -/
def odRows14 : List OdRow := [
  ⟨0x1616, 1, 1, 63, .u32, .ro, 0, .v, 0, 0xFFFFFFFF, false, 0xFFFFFFFF, 0, 2, false⟩, -- vf_flr_count, R447
  ⟨0x1617, 1, 1, 63, .job, .wo, 0, .v, 0, 0, false, 0, 0, 2, false⟩, -- vf_reset, R447
  ⟨0x1618, 1, 1, 63, .domain, .rw, 0, .v, 0, 0, false, 0, 0, 2, false⟩, -- vf_dirty_regions, R447
  ⟨0x1620, 1, 0, 1, .u32, .rw, 0, .v, 0, 0x7FFFF, false, 0xFFFFFFFF, 0, 2, false⟩, -- host_punt_bind_select, R447
  ⟨0x1621, 1, 0, 1, .u32, .rw, 0, .v, 0, 0xFFFFFFFF, false, 0xBF000007, 0, 2, false⟩, -- host_punt_bind, R447
  ⟨0x1622, 1, 0, 1, .u64, .ro, 0, .v, 0, 0xFFFFFFFFFFFFFFFF, false, 0xFFFFFFFFFFFFFFFF, 0, 2, false⟩, -- host_ring_full_drops, R447
  ⟨0x1623, 1, 0, 1, .u64, .ro, 0, .v, 0, 0xFFFFFFFFFFFFFFFF, false, 0xFFFFFFFFFFFFFFFF, 0, 2, false⟩, -- host_vf_reset_drops, R447
  ⟨0x1624, 1, 0, 1, .u64, .ro, 0, .v, 0, 0xFFFFFFFFFFFFFFFF, false, 0xFFFFFFFFFFFFFFFF, 0, 2, false⟩, -- host_stale_completions, R447
  ⟨0x1625, 1, 0, 1, .u64, .ro, 0, .v, 0, 0xFFFFFFFFFFFFFFFF, false, 0xFFFFFFFFFFFFFFFF, 0, 2, false⟩, -- host_dma_errors, R447
  ⟨0x1626, 1, 0, 1, .u64, .ro, 0, .v, 0, 0xFFFFFFFFFFFFFFFF, false, 0xFFFFFFFFFFFFFFFF, 0, 2, false⟩, -- host_inject_refused, R447
  ⟨0x1627, 1, 0, 1, .u64, .ro, 0, .v, 0, 0xFFFFFFFFFFFFFFFF, false, 0xFFFFFFFFFFFFFFFF, 0, 2, false⟩, -- host_doorbell_errors, R447
  ⟨0x1630, 1, 0, 8, .u64, .rw, 0, .v, 0, 0xFFFFFFFFFFFFFFFF, false, 0xFFFFFFFFFFFFFFFF, 0, 1, true⟩ -- ring_punt_base, R447
  ]

/-- Rows 0x1631.rr to 0x1661.00. -/
def odRows15 : List OdRow := [
  ⟨0x1631, 1, 0, 8, .u32, .rw, 0x40, .v, 0, 0xFFFFFFFF, false, 0xFFFFFFFF, 0, 1, true⟩, -- ring_punt_size, R447
  ⟨0x1632, 1, 0, 8, .u64, .rw, 0, .v, 0, 0xFFFFFFFFFFFFFFFF, false, 0xFFFFFFFFFFFFFFFF, 0, 1, true⟩, -- ring_punt_wb, R447
  ⟨0x1633, 1, 0, 8, .u32, .rw, 0x1003, .v, 0, 0xFFFFFFFF, false, 0xFFFFFFFF, 0, 1, true⟩, -- ring_punt_ctrl, R447
  ⟨0x1634, 1, 0, 8, .u32, .ro, 0, .v, 0, 0xFFFFFFFF, false, 0xFFFFFFFF, 0, 1, true⟩, -- ring_punt_consumed, R447
  ⟨0x1638, 1, 0, 8, .u64, .rw, 0, .v, 0, 0xFFFFFFFFFFFFFFFF, false, 0xFFFFFFFFFFFFFFFF, 0, 1, true⟩, -- ring_inj_base, R447
  ⟨0x1639, 1, 0, 8, .u32, .rw, 0x40, .v, 0, 0xFFFFFFFF, false, 0xFFFFFFFF, 0, 1, true⟩, -- ring_inj_size, R447
  ⟨0x163A, 1, 0, 8, .u64, .rw, 0, .v, 0, 0xFFFFFFFFFFFFFFFF, false, 0xFFFFFFFFFFFFFFFF, 0, 1, true⟩, -- ring_inj_wb, R447
  ⟨0x163B, 1, 0, 8, .u32, .rw, 0x1000, .v, 0, 0xFFFFFFFF, false, 0xFFFFFFFF, 0, 1, true⟩, -- ring_inj_ctrl, R447
  ⟨0x163C, 1, 0, 8, .u32, .ro, 0, .v, 0, 0xFFFFFFFF, false, 0xFFFFFFFF, 0, 1, true⟩, -- ring_inj_consumed, R447
  ⟨0x1650, 1, 0, 16, .u64, .ro, 0, .v, 0, 0xFFFFFFFFFFFFFFFF, false, 0xFFFFFFFFFFFFFFFF, 0, 1, true⟩, -- vf_vector_groups, R447
  ⟨0x1660, 1, 0, 1, .u64, .rw, 0, .v, 0, 0xFFFFFFFFFFFFFFFF, false, 0xFFFFFFFFFFFFFFFF, 0, 1, true⟩, -- ctr_export_addr, R447
  ⟨0x1661, 1, 0, 1, .u32, .rw, 0x3E8, .v, 0x64, 0x989680, false, 0xFFFFFFFF, 0, 1, true⟩ -- ctr_export_period_us, R447
  ]

/-- Rows 0x1662.00 to 0x1702.00. -/
def odRows16 : List OdRow := [
  ⟨0x1662, 1, 0, 1, .bool, .rw, 0, .v, 0, 1, false, 1, 0, 1, true⟩, -- ctr_export_enable, R447
  ⟨0x1663, 1, 0, 1, .u64, .ro, 0, .v, 0, 0xFFFFFFFFFFFFFFFF, false, 0xFFFFFFFFFFFFFFFF, 0, 1, true⟩, -- ctr_export_seq, R447
  ⟨0x1670, 1, 0, 1, .bits32, .w1c, 0, .v, 0, 0xFFFFFFFF, false, 0x3F, 0, 2, false⟩, -- host_cause, R447
  ⟨0x1671, 1, 0, 1, .bits32, .rw, 0x23, .v, 0, 0xFFFFFFFF, false, 0x3F, 0, 2, false⟩, -- host_cause_enable, R447
  ⟨0x1672, 1, 0, 1, .bits32, .w1c, 0, .v, 0, 0xFFFFFFFF, false, 0x1F, 0, 1, true⟩, -- vf_cause, R447
  ⟨0x1673, 1, 0, 1, .bits32, .rw, 0x1F, .v, 0, 0xFFFFFFFF, false, 0x1F, 0, 1, true⟩, -- vf_cause_enable, R447
  ⟨0x1700, 1, 0, 1, .domain, .ro, 0, .f, 0, 0, false, 0, 0, 2, false⟩, -- cw_log, R427
  ⟨0x1701, 1, 0, 1, .u16, .ro, 0, .f, 0, 0xFFFF, false, 0xFFFF, 0, 2, false⟩, -- cw_log_count, R427
  ⟨0x1702, 1, 0, 1, .domain, .ro, 0, .f, 0, 0, false, 0, 0, 2, false⟩ -- cw_summary, R427
  ]

/-- Rows 0x2000+p.00 to 0x2000+p.13. -/
def odRows17 : List OdRow := [
  ⟨0x2000, 1024, 0, 1, .u8, .ro, 0, .v, 0, 0xFF, false, 0xFF, 0, 1, false⟩, -- port_role, R79
  ⟨0x2000, 1024, 1, 1, .u8, .rw, 0, .p, 0, 0xFF, false, 0xFF, 0, 2, false⟩, -- port_mode, R79
  ⟨0x2000, 1024, 2, 1, .bool, .rw, 0, .p, 0, 1, false, 1, 0, 1, false⟩, -- port_admin_up, R79
  ⟨0x2000, 1024, 3, 1, .bool, .ro, 0, .v, 0, 1, false, 1, 0, 1, false⟩, -- port_link_up, R79
  ⟨0x2000, 1024, 4, 1, .u8, .rw, 0, .p, 0, 3, false, 0xFF, 0, 1, false⟩, -- port_fec, R79
  ⟨0x2000, 1024, 5, 1, .u16, .rw, 0xA, .p, 0, 0x3E8, false, 0xFFFF, 0, 1, false⟩, -- port_link_up_hold_ms, R79
  ⟨0x2000, 1024, 7, 1, .u16, .rw, 0x5F2, .p, 0x5EE, 0x3E80, false, 0xFFFF, 0, 1, false⟩, -- port_max_frame, R79
  ⟨0x2000, 1024, 8, 8, .mac48, .rw, 0, .p, 0, 0xFFFFFFFFFFFF, false, 0xFFFFFFFFFFFF, 0, 2, false⟩, -- port_da_entry, R79
  ⟨0x2000, 1024, 0x10, 1, .bits32, .rw, 0, .p, 0, 0xFFFFFFFF, false, 0xFF, 0, 1, false⟩, -- port_da_enable, R79
  ⟨0x2000, 1024, 0x11, 1, .bool, .rw, 0, .p, 0, 1, false, 1, 0, 1, false⟩, -- port_da_filter_on, R79
  ⟨0x2000, 1024, 0x12, 1, .u8, .rw, 0, .p, 0, 0xFF, false, 0xFF, 0, 1, false⟩, -- port_fc_mode, R79
  ⟨0x2000, 1024, 0x13, 1, .u8, .rw, 0xFF, .p, 0, 0xFF, false, 0xFF, 0, 1, false⟩ -- port_pfc_enable_mask, R79
  ]

/-- Rows 0x2000+p.14 to 0x2000+p.1F. -/
def odRows18 : List OdRow := [
  ⟨0x2000, 1024, 0x14, 1, .u16, .rw, 0xFFFF, .p, 0, 0xFFFF, false, 0xFFFF, 0, 1, false⟩, -- port_pause_quanta, R79
  ⟨0x2000, 1024, 0x15, 1, .bool, .rw, 1, .p, 0, 1, false, 1, 0, 1, false⟩, -- port_egg_enable, R79
  ⟨0x2000, 1024, 0x16, 1, .u16, .rw, 0xC8, .p, 1, 0x2710, false, 0xFFFF, 0, 1, false⟩, -- port_egg_time_ms, R79
  ⟨0x2000, 1024, 0x17, 1, .u16, .rw, 0x64, .p, 1, 0x2710, false, 0xFFFF, 0, 1, false⟩, -- port_egg_hold_ms, R79
  ⟨0x2000, 1024, 0x18, 1, .bits32, .ro, 0, .v, 0, 0xFFFFFFFF, false, 0xFFFFFFFF, 0, 1, false⟩, -- port_egg_state, R79
  ⟨0x2000, 1024, 0x19, 1, .bool, .rw, 0, .p, 0, 1, false, 1, 0, 1, false⟩, -- port_ptp_enable, R79
  ⟨0x2000, 1024, 0x1A, 1, .s32, .rw, 0, .p, 0, 0xFFFFFFFF, false, 0xFFFFFFFF, 0, 1, false⟩, -- port_ptp_rx_corr_ps, R79
  ⟨0x2000, 1024, 0x1B, 1, .s32, .rw, 0, .p, 0, 0xFFFFFFFF, false, 0xFFFFFFFF, 0, 1, false⟩, -- port_ptp_tx_corr_ps, R79
  ⟨0x2000, 1024, 0x1C, 1, .domain, .ro, 0, .v, 0, 0, false, 0, 0, 1, false⟩, -- port_ts_fifo, R79
  ⟨0x2000, 1024, 0x1D, 1, .u32, .rc, 0, .v, 0, 0xFFFFFFFF, false, 0xFFFFFFFF, 1, 1, false⟩, -- port_ts_fifo_drops, R79
  ⟨0x2000, 1024, 0x1E, 1, .bits32, .w1c, 0, .v, 0, 0xFFFFFFFF, false, 0x1FF, 0, 1, false⟩, -- port_cause, R79
  ⟨0x2000, 1024, 0x1F, 1, .bits32, .rw, 0x1FF, .p, 0, 0xFFFFFFFF, false, 0x1FF, 0, 1, false⟩ -- port_cause_enable, R79
  ]

/-- Rows 0x2000+p.20 to 0x2000+p.46. -/
def odRows19 : List OdRow := [
  ⟨0x2000, 1024, 0x20, 1, .u32, .rw, 0, .p, 0, 0xFFFFFFFF, false, 0xFFFFFFFF, 0, 1, false⟩, -- port_flexe_group, R79
  ⟨0x2000, 1024, 0x21, 1, .u8, .rw, 0, .p, 1, 0xFE, false, 0xFF, 0, 1, false⟩, -- port_flexe_phy_number, R79
  ⟨0x2000, 1024, 0x22, 1, .u16, .rw, 0, .p, 1, 0xFFFE, false, 0xFFFF, 0, 1, false⟩, -- port_flexe_client_id, R79
  ⟨0x2000, 1024, 0x23, 1, .domain, .rw, 0, .p, 0, 0, false, 0, 0, 1, false⟩, -- port_flexe_calendar, R79
  ⟨0x2000, 1024, 0x24, 1, .job, .wo, 0, .v, 0, 0, false, 0, 0, 1, false⟩, -- port_flexe_cal_switch, R79
  ⟨0x2000, 1024, 0x40, 1, .u64, .rc, 0, .v, 0, 0xFFFFFFFFFFFFFFFF, false, 0xFFFFFFFFFFFFFFFF, 1, 1, false⟩, -- rx_frames_ok, R74
  ⟨0x2000, 1024, 0x41, 1, .u64, .rc, 0, .v, 0, 0xFFFFFFFFFFFFFFFF, false, 0xFFFFFFFFFFFFFFFF, 1, 1, false⟩, -- rx_bytes_ok, R74
  ⟨0x2000, 1024, 0x42, 1, .u64, .rc, 0, .v, 0, 0xFFFFFFFFFFFFFFFF, false, 0xFFFFFFFFFFFFFFFF, 1, 1, false⟩, -- tx_frames_ok, R74
  ⟨0x2000, 1024, 0x43, 1, .u64, .rc, 0, .v, 0, 0xFFFFFFFFFFFFFFFF, false, 0xFFFFFFFFFFFFFFFF, 1, 1, false⟩, -- tx_bytes_ok, R74
  ⟨0x2000, 1024, 0x44, 1, .u64, .rc, 0, .v, 0, 0xFFFFFFFFFFFFFFFF, false, 0xFFFFFFFFFFFFFFFF, 1, 1, false⟩, -- rx_fcs_errors, R74
  ⟨0x2000, 1024, 0x45, 1, .u64, .rc, 0, .v, 0, 0xFFFFFFFFFFFFFFFF, false, 0xFFFFFFFFFFFFFFFF, 1, 1, false⟩, -- rx_undersize, R74
  ⟨0x2000, 1024, 0x46, 1, .u64, .rc, 0, .v, 0, 0xFFFFFFFFFFFFFFFF, false, 0xFFFFFFFFFFFFFFFF, 1, 1, false⟩ -- rx_fragments, R74
  ]

/-- Rows 0x2000+p.47 to 0x2000+p.82. -/
def odRows20 : List OdRow := [
  ⟨0x2000, 1024, 0x47, 1, .u64, .rc, 0, .v, 0, 0xFFFFFFFFFFFFFFFF, false, 0xFFFFFFFFFFFFFFFF, 1, 1, false⟩, -- rx_oversize, R74
  ⟨0x2000, 1024, 0x48, 1, .u64, .rc, 0, .v, 0, 0xFFFFFFFFFFFFFFFF, false, 0xFFFFFFFFFFFFFFFF, 1, 1, false⟩, -- rx_jabber, R74
  ⟨0x2000, 1024, 0x49, 1, .u64, .rc, 0, .v, 0, 0xFFFFFFFFFFFFFFFF, false, 0xFFFFFFFFFFFFFFFF, 1, 1, false⟩, -- rx_overflow, R74
  ⟨0x2000, 1024, 0x4A, 1, .u64, .rc, 0, .v, 0, 0xFFFFFFFFFFFFFFFF, false, 0xFFFFFFFFFFFFFFFF, 1, 1, false⟩, -- rx_throttle, R74
  ⟨0x2000, 1024, 0x4B, 1, .u64, .rc, 0, .v, 0, 0xFFFFFFFFFFFFFFFF, false, 0xFFFFFFFFFFFFFFFF, 1, 1, false⟩, -- rx_addr_filtered, R74
  ⟨0x2000, 1024, 0x4C, 1, .u64, .rc, 0, .v, 0, 0xFFFFFFFFFFFFFFFF, false, 0xFFFFFFFFFFFFFFFF, 1, 1, false⟩, -- rx_pause, R74
  ⟨0x2000, 1024, 0x4D, 1, .u64, .rc, 0, .v, 0, 0xFFFFFFFFFFFFFFFF, false, 0xFFFFFFFFFFFFFFFF, 1, 1, false⟩, -- tx_pause, R74
  ⟨0x2000, 1024, 0x4E, 1, .u64, .rc, 0, .v, 0, 0xFFFFFFFFFFFFFFFF, false, 0xFFFFFFFFFFFFFFFF, 1, 1, false⟩, -- tx_abort, R74
  ⟨0x2000, 1024, 0x4F, 1, .u64, .rc, 0, .v, 0, 0xFFFFFFFFFFFFFFFF, false, 0xFFFFFFFFFFFFFFFF, 1, 1, false⟩, -- egg_fired, R74
  ⟨0x2000, 1024, 0x80, 1, .u40, .ro, 0, .v, 0, 0xFFFFFFFFFF, false, 0xFFFFFFFFFF, 0, 1, false⟩, -- fb_rx_octets, R74
  ⟨0x2000, 1024, 0x81, 1, .u40, .ro, 0, .v, 0, 0xFFFFFFFFFF, false, 0xFFFFFFFFFF, 0, 1, false⟩, -- fb_rx_pkts, R74
  ⟨0x2000, 1024, 0x82, 1, .u40, .ro, 0, .v, 0, 0xFFFFFFFFFF, false, 0xFFFFFFFFFF, 0, 1, false⟩ -- fb_rx_broadcast, R74
  ]

/-- Rows 0x2000+p.83 to 0x2000+p.97. -/
def odRows21 : List OdRow := [
  ⟨0x2000, 1024, 0x83, 1, .u40, .ro, 0, .v, 0, 0xFFFFFFFFFF, false, 0xFFFFFFFFFF, 0, 1, false⟩, -- fb_rx_multicast, R74
  ⟨0x2000, 1024, 0x84, 1, .u40, .ro, 0, .v, 0, 0xFFFFFFFFFF, false, 0xFFFFFFFFFF, 0, 1, false⟩, -- fb_rx_unicast, R74
  ⟨0x2000, 1024, 0x85, 10, .u40, .ro, 0, .v, 0, 0xFFFFFFFFFF, false, 0xFFFFFFFFFF, 0, 1, false⟩, -- fb_rx_bin, R74
  ⟨0x2000, 1024, 0x8F, 1, .u40, .ro, 0, .v, 0, 0xFFFFFFFFFF, false, 0xFFFFFFFFFF, 0, 1, false⟩, -- fb_rx_undersize, R74
  ⟨0x2000, 1024, 0x90, 1, .u40, .ro, 0, .v, 0, 0xFFFFFFFFFF, false, 0xFFFFFFFFFF, 0, 1, false⟩, -- fb_rx_fragments, R74
  ⟨0x2000, 1024, 0x91, 1, .u40, .ro, 0, .v, 0, 0xFFFFFFFFFF, false, 0xFFFFFFFFFF, 0, 1, false⟩, -- fb_rx_oversize, R74
  ⟨0x2000, 1024, 0x92, 1, .u40, .ro, 0, .v, 0, 0xFFFFFFFFFF, false, 0xFFFFFFFFFF, 0, 1, false⟩, -- fb_rx_jabber, R74
  ⟨0x2000, 1024, 0x93, 1, .u40, .ro, 0, .v, 0, 0xFFFFFFFFFF, false, 0xFFFFFFFFFF, 0, 1, false⟩, -- fb_rx_fcs_errors, R74
  ⟨0x2000, 1024, 0x94, 1, .u40, .ro, 0, .v, 0, 0xFFFFFFFFFF, false, 0xFFFFFFFFFF, 0, 1, false⟩, -- fb_rx_vlan, R74
  ⟨0x2000, 1024, 0x95, 1, .u40, .ro, 0, .v, 0, 0xFFFFFFFFFF, false, 0xFFFFFFFFFF, 0, 1, false⟩, -- fb_rx_overflow, R74
  ⟨0x2000, 1024, 0x96, 1, .u40, .ro, 0, .v, 0, 0xFFFFFFFFFF, false, 0xFFFFFFFFFF, 0, 1, false⟩, -- fb_rx_addr_filtered, R74
  ⟨0x2000, 1024, 0x97, 1, .u40, .ro, 0, .v, 0, 0xFFFFFFFFFF, false, 0xFFFFFFFFFF, 0, 1, false⟩ -- fb_rx_pause, R74
  ]

/-- Rows 0x2000+p.98–.9F to 0x2000+p.B8. -/
def odRows22 : List OdRow := [
  ⟨0x2000, 1024, 0x98, 8, .u40, .ro, 0, .v, 0, 0xFFFFFFFFFF, false, 0xFFFFFFFFFF, 0, 1, false⟩, -- fb_rx_pfc, R74
  ⟨0x2000, 1024, 0xA0, 1, .u40, .ro, 0, .v, 0, 0xFFFFFFFFFF, false, 0xFFFFFFFFFF, 0, 1, false⟩, -- fb_tx_octets, R74
  ⟨0x2000, 1024, 0xA1, 1, .u40, .ro, 0, .v, 0, 0xFFFFFFFFFF, false, 0xFFFFFFFFFF, 0, 1, false⟩, -- fb_tx_pkts, R74
  ⟨0x2000, 1024, 0xA2, 1, .u40, .ro, 0, .v, 0, 0xFFFFFFFFFF, false, 0xFFFFFFFFFF, 0, 1, false⟩, -- fb_tx_broadcast, R74
  ⟨0x2000, 1024, 0xA3, 1, .u40, .ro, 0, .v, 0, 0xFFFFFFFFFF, false, 0xFFFFFFFFFF, 0, 1, false⟩, -- fb_tx_multicast, R74
  ⟨0x2000, 1024, 0xA4, 1, .u40, .ro, 0, .v, 0, 0xFFFFFFFFFF, false, 0xFFFFFFFFFF, 0, 1, false⟩, -- fb_tx_unicast, R74
  ⟨0x2000, 1024, 0xA5, 10, .u40, .ro, 0, .v, 0, 0xFFFFFFFFFF, false, 0xFFFFFFFFFF, 0, 1, false⟩, -- fb_tx_bin, R74
  ⟨0x2000, 1024, 0xAF, 1, .u40, .ro, 0, .v, 0, 0xFFFFFFFFFF, false, 0xFFFFFFFFFF, 0, 1, false⟩, -- fb_tx_pause, R74
  ⟨0x2000, 1024, 0xB0, 8, .u40, .ro, 0, .v, 0, 0xFFFFFFFFFF, false, 0xFFFFFFFFFF, 0, 1, false⟩, -- fb_tx_pfc, R74
  ⟨0x2000, 1024, 0xB8, 1, .u40, .ro, 0, .v, 0, 0xFFFFFFFFFF, false, 0xFFFFFFFFFF, 0, 1, false⟩ -- fb_tx_abort, R74
  ]

/-- Rows 0x2400+l.00 to 0x2400+l.0A. -/
def odRows23 : List OdRow := [
  ⟨0x2400, 256, 0, 1, .u8, .ro, 0, .v, 0, 0xFF, false, 0xFF, 0, 2, false⟩, -- lane_rate, R80
  ⟨0x2400, 256, 1, 1, .bool, .rw, 0, .p, 0, 1, false, 1, 0, 2, false⟩, -- lane_rx_invert, R80
  ⟨0x2400, 256, 2, 1, .bool, .rw, 0, .p, 0, 1, false, 1, 0, 2, false⟩, -- lane_tx_invert, R80
  ⟨0x2400, 256, 3, 1, .bool, .ro, 0, .v, 0, 1, false, 1, 0, 2, false⟩, -- lane_signal, R80
  ⟨0x2400, 256, 4, 1, .u64, .ro, 0, .v, 0, 0xFFFFFFFFFFFFFFFF, false, 0xFFFFFFFFFFFFFFFF, 0, 2, false⟩, -- lane_fec_corrected, R80
  ⟨0x2400, 256, 5, 1, .u64, .ro, 0, .v, 0, 0xFFFFFFFFFFFFFFFF, false, 0xFFFFFFFFFFFFFFFF, 0, 2, false⟩, -- lane_fec_uncorrected, R80
  ⟨0x2400, 256, 6, 1, .u8, .rw, 0, .v, 0, 7, false, 0xFF, 0, 1, false⟩, -- lane_prbs_mode, R80
  ⟨0x2400, 256, 7, 1, .u32, .rc, 0, .v, 0, 0xFFFFFFFF, false, 0xFFFFFFFF, 1, 2, false⟩, -- lane_prbs_errors, R80
  ⟨0x2400, 256, 8, 1, .u8, .rw, 0, .v, 0, 2, false, 0xFF, 0, 1, false⟩, -- lane_loopback, R80
  ⟨0x2400, 256, 9, 1, .bits32, .w1c, 0, .v, 0, 0xFFFFFFFF, false, 7, 0, 2, false⟩, -- lane_cause, R80
  ⟨0x2400, 256, 0xA, 1, .bits32, .rw, 3, .p, 0, 0xFFFFFFFF, false, 7, 0, 2, false⟩ -- lane_cause_enable, R80
  ]

/-- Rows 0x2500+l.00 to 0x2500+l.0B. -/
def odRows24 : List OdRow := [
  ⟨0x2500, 320, 0, 1, .u8, .ro, 0, .v, 0, 0xFF, false, 0xFF, 0, 2, false⟩, -- fl_bundle, R320
  ⟨0x2500, 320, 1, 1, .bool, .rw, 1, .p, 0, 1, false, 1, 0, 2, false⟩, -- fl_enable, R320
  ⟨0x2500, 320, 2, 1, .bool, .rw, 0, .p, 0, 1, false, 1, 0, 2, false⟩, -- fl_rx_invert, R320
  ⟨0x2500, 320, 3, 1, .bool, .rw, 0, .p, 0, 1, false, 1, 0, 2, false⟩, -- fl_tx_invert, R320
  ⟨0x2500, 320, 4, 1, .u8, .ro, 0, .v, 0, 0xFF, false, 0xFF, 0, 2, false⟩, -- fl_state, R320
  ⟨0x2500, 320, 5, 1, .u8, .ro, 0xFF, .v, 0, 0xFF, false, 0xFF, 0, 2, false⟩, -- fl_rx_lane_id, R320
  ⟨0x2500, 320, 6, 1, .bits32, .ro, 0, .v, 0, 0xFFFFFFFF, false, 0xFFFFFFFF, 0, 2, false⟩, -- fl_defects, R320
  ⟨0x2500, 320, 7, 1, .u32, .ro, 0, .v, 0, 0xFFFFFFFF, false, 0xFFFFFFFF, 0, 2, false⟩, -- fl_skew_ps, R320
  ⟨0x2500, 320, 8, 1, .u64, .ro, 0, .v, 0, 0xFFFFFFFFFFFFFFFF, false, 0xFFFFFFFFFFFFFFFF, 0, 2, false⟩, -- fl_fec_corrected, R320
  ⟨0x2500, 320, 9, 1, .u64, .ro, 0, .v, 0, 0xFFFFFFFFFFFFFFFF, false, 0xFFFFFFFFFFFFFFFF, 0, 2, false⟩, -- fl_fec_uncorrected, R320
  ⟨0x2500, 320, 0xA, 1, .u64, .ro, 0, .v, 0, 0xFFFFFFFFFFFFFFFF, false, 0xFFFFFFFFFFFFFFFF, 0, 2, false⟩, -- fl_bip8_errors, R320
  ⟨0x2500, 320, 0xB, 1, .u64, .ro, 0, .v, 0, 0xFFFFFFFFFFFFFFFF, false, 0xFFFFFFFFFFFFFFFF, 0, 2, false⟩ -- fl_far_errors, R320
  ]

/-- Rows 0x2500+l.0C to 0x2500+l.14. -/
def odRows25 : List OdRow := [
  ⟨0x2500, 320, 0xC, 1, .u64, .ro, 0, .v, 0, 0xFFFFFFFFFFFFFFFF, false, 0xFFFFFFFFFFFFFFFF, 0, 2, false⟩, -- fl_crc8_errors, R320
  ⟨0x2500, 320, 0xD, 1, .u64, .ro, 0, .v, 0, 0xFFFFFFFFFFFFFFFF, false, 0xFFFFFFFFFFFFFFFF, 0, 2, false⟩, -- fl_mf_errors, R320
  ⟨0x2500, 320, 0xE, 1, .u8, .rw, 0, .v, 0, 2, false, 0xFF, 0, 1, false⟩, -- fl_prbs_mode, R320
  ⟨0x2500, 320, 0xF, 1, .u32, .rc, 0, .v, 0, 0xFFFFFFFF, false, 0xFFFFFFFF, 1, 2, false⟩, -- fl_prbs_errors, R320
  ⟨0x2500, 320, 0x10, 1, .u8, .rw, 0, .v, 0, 2, false, 0xFF, 0, 1, false⟩, -- fl_loopback, R320
  ⟨0x2500, 320, 0x11, 1, .domain, .ro, 0, .v, 0, 0, false, 0, 0, 2, false⟩, -- fl_pm_current, R320
  ⟨0x2500, 320, 0x12, 1, .domain, .ro, 0, .v, 0, 0, false, 0, 0, 2, false⟩, -- fl_pm_history, R320
  ⟨0x2500, 320, 0x13, 1, .bits32, .w1c, 0, .v, 0, 0xFFFFFFFF, false, 0x1FF, 0, 2, false⟩, -- fl_cause, R320
  ⟨0x2500, 320, 0x14, 1, .bits32, .rw, 0x3F, .p, 0, 0xFFFFFFFF, false, 0x1FF, 0, 2, false⟩ -- fl_cause_enable, R320
  ]

/-- Rows 0x2700+b.00 to 0x2700+b.0B. -/
def odRows26 : List OdRow := [
  ⟨0x2700, 8, 0, 1, .u64, .ro, 0, .v, 0, 0xFFFFFFFFFFFFFFFF, false, 0xFFFFFFFFFFFFFFFF, 0, 2, false⟩, -- fb_tx_lane_set, R321
  ⟨0x2700, 8, 1, 1, .u64, .ro, 0, .v, 0, 0xFFFFFFFFFFFFFFFF, false, 0xFFFFFFFFFFFFFFFF, 0, 2, false⟩, -- fb_rx_lane_set, R321
  ⟨0x2700, 8, 2, 1, .u8, .rw, 4, .p, 1, 0x28, false, 0xFF, 0, 2, false⟩, -- fb_shed_floor, R321
  ⟨0x2700, 8, 3, 1, .bool, .rw, 1, .p, 0, 1, false, 1, 0, 2, false⟩, -- fb_shed_enable, R321
  ⟨0x2700, 8, 4, 1, .u8, .rw, 0x28, .p, 1, 0x63, false, 0xFF, 0, 2, false⟩, -- fb_shed_low_pct, R321
  ⟨0x2700, 8, 5, 1, .u8, .rw, 0x50, .p, 2, 0x64, false, 0xFF, 0, 2, false⟩, -- fb_shed_high_pct, R321
  ⟨0x2700, 8, 6, 1, .bool, .rw, 1, .p, 0, 1, false, 1, 0, 2, false⟩, -- fb_quiet_enable, R321
  ⟨0x2700, 8, 7, 1, .bool, .rw, 1, .p, 0, 1, false, 1, 0, 2, false⟩, -- fb_auto_remove, R321
  ⟨0x2700, 8, 8, 1, .u64, .rw, 0, .v, 0, 0xFFFFFFFFFFFFFFFF, false, 0xFFFFFFFFFF, 0, 2, false⟩, -- fb_lane_set_arg, R321
  ⟨0x2700, 8, 9, 1, .job, .wo, 0, .v, 0, 0, false, 0, 0, 1, false⟩, -- fb_lane_set_change, R321
  ⟨0x2700, 8, 0xA, 1, .u8, .ro, 2, .v, 0, 0xFF, false, 0xFF, 0, 2, false⟩, -- fb_ptr_state, R321
  ⟨0x2700, 8, 0xB, 1, .u16, .ro, 0, .v, 0, 0xFFFF, false, 0xFFFF, 0, 2, false⟩ -- fb_ptr_value, R321
  ]

/-- Rows 0x2700+b.0C to 0x2700+b.17. -/
def odRows27 : List OdRow := [
  ⟨0x2700, 8, 0xC, 1, .u64, .ro, 0, .v, 0, 0xFFFFFFFFFFFFFFFF, false, 0xFFFFFFFFFFFFFFFF, 0, 2, false⟩, -- fb_ptr_inc, R321
  ⟨0x2700, 8, 0xD, 1, .u64, .ro, 0, .v, 0, 0xFFFFFFFFFFFFFFFF, false, 0xFFFFFFFFFFFFFFFF, 0, 2, false⟩, -- fb_ptr_dec, R321
  ⟨0x2700, 8, 0xE, 1, .u64, .ro, 0, .v, 0, 0xFFFFFFFFFFFFFFFF, false, 0xFFFFFFFFFFFFFFFF, 0, 2, false⟩, -- fb_ptr_new, R321
  ⟨0x2700, 8, 0xF, 1, .u64, .ro, 0, .v, 0, 0xFFFFFFFFFFFFFFFF, false, 0xFFFFFFFFFFFFFFFF, 0, 2, false⟩, -- fb_ptr_invalid, R321
  ⟨0x2700, 8, 0x10, 1, .u64, .ro, 0, .v, 0, 0xFFFFFFFFFFFFFFFF, false, 0xFFFFFFFFFFFFFFFF, 0, 2, false⟩, -- fb_tx_adjust, R321
  ⟨0x2700, 8, 0x11, 1, .bits32, .ro, 0, .v, 0, 0xFFFFFFFF, false, 0xFFFFFFFF, 0, 2, false⟩, -- fb_path_defects, R321
  ⟨0x2700, 8, 0x12, 1, .u64, .ro, 0, .v, 0, 0xFFFFFFFFFFFFFFFF, false, 0xFFFFFFFFFFFFFFFF, 0, 2, false⟩, -- fb_bip16_errors, R321
  ⟨0x2700, 8, 0x13, 1, .u64, .ro, 0, .v, 0, 0xFFFFFFFFFFFFFFFF, false, 0xFFFFFFFFFFFFFFFF, 0, 2, false⟩, -- fb_far_path_errors, R321
  ⟨0x2700, 8, 0x14, 1, .u64, .ro, 0, .v, 0, 0xFFFFFFFFFFFFFFFF, false, 0xFFFFFFFFFFFFFFFF, 0, 2, false⟩, -- fb_po_crc_errors, R321
  ⟨0x2700, 8, 0x15, 1, (.str 64), .rw, 0, .p, 0, 0, false, 0, 0, 2, false⟩, -- fb_trace_tx, R321
  ⟨0x2700, 8, 0x16, 1, (.str 64), .rw, 0, .p, 0, 0, false, 0, 0, 2, false⟩, -- fb_trace_expected, R321
  ⟨0x2700, 8, 0x17, 1, (.str 64), .ro, 0, .v, 0, 0, false, 0, 0, 2, false⟩ -- fb_trace_rx, R321
  ]

/-- Rows 0x2700+b.18 to 0x2700+b.23. -/
def odRows28 : List OdRow := [
  ⟨0x2700, 8, 0x18, 1, .bool, .rw, 0, .p, 0, 1, false, 1, 0, 2, false⟩, -- fb_tim_enable, R321
  ⟨0x2700, 8, 0x19, 1, .u32, .rw, 0, .p, 0, 0xFFFFFFFF, false, 0xFFFFF7, 0, 2, false⟩, -- fb_src_expected, R321
  ⟨0x2700, 8, 0x1A, 1, .bool, .rw, 0, .p, 0, 1, false, 1, 0, 2, false⟩, -- fb_src_check, R321
  ⟨0x2700, 8, 0x1B, 1, .u32, .ro, 0, .v, 0, 0xFFFFFFFF, false, 0xFFFFFFFF, 0, 2, false⟩, -- fb_src_rx, R321
  ⟨0x2700, 8, 0x1C, 1, .domain, .ro, 0, .v, 0, 0, false, 0, 0, 2, false⟩, -- fb_pm_current, R321
  ⟨0x2700, 8, 0x1D, 1, .domain, .ro, 0, .v, 0, 0, false, 0, 0, 2, false⟩, -- fb_pm_history, R321
  ⟨0x2700, 8, 0x1E, 1, .u64, .ro, 0, .v, 0, 0xFFFFFFFFFFFFFFFF, false, 0xFFFFFFFFFFFFFFFF, 0, 2, false⟩, -- fb_mgmt_tx_packets, R321
  ⟨0x2700, 8, 0x1F, 1, .u64, .ro, 0, .v, 0, 0xFFFFFFFFFFFFFFFF, false, 0xFFFFFFFFFFFFFFFF, 0, 2, false⟩, -- fb_mgmt_rx_packets, R321
  ⟨0x2700, 8, 0x20, 1, .u64, .ro, 0, .v, 0, 0xFFFFFFFFFFFFFFFF, false, 0xFFFFFFFFFFFFFFFF, 0, 2, false⟩, -- fb_mgmt_rx_crc_errors, R321
  ⟨0x2700, 8, 0x21, 1, .u64, .ro, 0, .v, 0, 0xFFFFFFFFFFFFFFFF, false, 0xFFFFFFFFFFFFFFFF, 0, 2, false⟩, -- fb_ls_changes, R321
  ⟨0x2700, 8, 0x22, 1, .u64, .ro, 0, .v, 0, 0xFFFFFFFFFFFFFFFF, false, 0xFFFFFFFFFFFFFFFF, 0, 2, false⟩, -- fb_ls_refused, R321
  ⟨0x2700, 8, 0x23, 1, .u64, .ro, 0, .v, 0, 0xFFFFFFFFFFFFFFFF, false, 0xFFFFFFFFFFFFFFFF, 0, 2, false⟩ -- fb_ls_timeouts, R321
  ]

/-- Rows 0x2700+b.24 to 0x2700+b.25. -/
def odRows29 : List OdRow := [
  ⟨0x2700, 8, 0x24, 1, .bits32, .w1c, 0, .v, 0, 0xFFFFFFFF, false, 0x7FFF, 0, 2, false⟩, -- fb_cause, R321
  ⟨0x2700, 8, 0x25, 1, .bits32, .rw, 0x6EFF, .p, 0, 0xFFFFFFFF, false, 0x7FFF, 0, 2, false⟩ -- fb_cause_enable, R321
  ]

/-- Rows 0x2800.00 to 0x280B.00. -/
def odRows30 : List OdRow := [
  ⟨0x2800, 1, 0, 1, .u32, (.cw 8), 0, .f, 0, 0xFFFFFFFF, false, 0xFFFFF, 0, 2, false⟩, -- ft_device_id, R353
  ⟨0x2801, 1, 0, 1, .bool, .rw, 1, .p, 0, 1, false, 1, 0, 2, false⟩, -- ft_beacon_enable, R353
  ⟨0x2802, 1, 0, 1, .u8, .rw, 0xFF, .p, 0, 0xFF, false, 0xFF, 0, 2, false⟩, -- ft_bundle_route_enable, R353
  ⟨0x2803, 1, 0, 1, .u32, .rw, 0x3E80, .p, 0x3E8, 0x10000, false, 0xFFFFFFFF, 0, 2, false⟩, -- ft_horizon_ns, R353
  ⟨0x2804, 1, 0, 1, .u32, .rw, 0x3E8, .p, 0x64, 0x186A0, false, 0xFFFFFFFF, 0, 2, false⟩, -- ft_probe_us, R353
  ⟨0x2805, 1, 0, 1, .u16, .rw, 0x1000, .p, 0x40, 0x4000, false, 0xFFFF, 0, 2, false⟩, -- ft_reorder_window, R353
  ⟨0x2806, 1, 0, 1, .u32, .rw, 0x4E20, .p, 0x3E8, 0xF4240, false, 0xFFFFFFFF, 0, 2, false⟩, -- ft_reorder_timeout_ns, R353
  ⟨0x2807, 1, 0, 1, .u32, .rw, 0x64, .p, 2, 0x186A0, false, 0xFFFFFFFF, 0, 2, false⟩, -- ft_reassembly_timeout_us, R353
  ⟨0x2808, 1, 0, 1, .u8, .rw, 0, .p, 0, 0x1A, false, 0xFF, 0, 2, false⟩, -- ft_rx_pool, R353
  ⟨0x2809, 1, 0, 1, .u16, .rw, 0x5F2, .p, 0x5EE, 0x3E80, false, 0xFFFF, 0, 2, false⟩, -- ft_rx_max_frame, R353
  ⟨0x280A, 1, 0, 1, .bool, .rw, 1, .p, 0, 1, false, 1, 0, 2, false⟩, -- ft_rx_cut_through, R353
  ⟨0x280B, 1, 0, 1, .u16, .rw, 0x100, .p, 4, 0x1000, false, 0xFFFF, 0, 2, false⟩ -- ft_max_request_units, R353
  ]

/-- Rows 0x280C.00 to 0x2820.bb. -/
def odRows31 : List OdRow := [
  ⟨0x280C, 1, 0, 1, .u32, .rw, 0x7D0, .p, 0x64, 0xF4240, false, 0xFFFFFFFF, 0, 2, false⟩, -- ft_return_ns, R353
  ⟨0x280D, 1, 0, 1, .u32, .rw, 0x3E8, .p, 0xA, 0x186A0, false, 0xFFFFFFFF, 0, 2, false⟩, -- ft_request_timeout_us, R353
  ⟨0x280E, 1, 0, 1, .u32, .rw, 0x400, .p, 0x10, 0x10000, false, 0xFFFFFFFF, 0, 2, false⟩, -- ft_grant_budget_kib, R353
  ⟨0x280F, 1, 0, 1, .u8, .rw, 0x69, .p, 0x64, 0x96, false, 0xFF, 0, 2, false⟩, -- ft_grant_speedup_pct, R353
  ⟨0x2810, 1, 0, 1, .u16, .rw, 0x800, .p, 0x40, 0x2000, false, 0xFFFF, 0, 2, false⟩, -- ft_burgee_xoff, R353
  ⟨0x2811, 1, 0, 1, .u16, .rw, 0x400, .p, 0, 0x1FFF, false, 0xFFFF, 0, 2, false⟩, -- ft_burgee_xon, R353
  ⟨0x2812, 1, 0, 1, .domain, .rw, 0, .v, 0, 0, false, 0, 0, 2, false⟩, -- ft_mc_map, R353
  ⟨0x2813, 1, 0, 1, .u32, .rw, 0, .v, 0, 0xFFFFFFFF, false, 0xFFFFFFFF, 0, 2, false⟩, -- ft_dest_select, R353
  ⟨0x2814, 1, 0, 1, .domain, .ro, 0, .v, 0, 0, false, 0, 0, 2, false⟩, -- ft_dest_info, R353
  ⟨0x2815, 1, 0, 1, .domain, .ro, 0, .v, 0, 0, false, 0, 0, 2, false⟩, -- ft_dest_list, R353
  ⟨0x2816, 1, 0, 1, .u32, .ro, 0, .v, 0, 0xFFFFFFFF, false, 0xFFFFFFFF, 0, 2, false⟩, -- ft_dest_reachable, R353
  ⟨0x2820, 1, 0, 8, .u64, .ro, 0, .v, 0, 0xFFFFFFFFFFFFFFFF, false, 0xFFFFFFFFFFFFFFFF, 0, 2, false⟩ -- ft_hdr_errors, R353
  ]

/-- Rows 0x2821.bb to 0x2840.00. -/
def odRows32 : List OdRow := [
  ⟨0x2821, 1, 0, 8, .u64, .ro, 0, .v, 0, 0xFFFFFFFFFFFFFFFF, false, 0xFFFFFFFFFFFFFFFF, 0, 2, false⟩, -- ft_relayed, R353
  ⟨0x2822, 1, 0, 8, .u64, .ro, 0, .v, 0, 0xFFFFFFFFFFFFFFFF, false, 0xFFFFFFFFFFFFFFFF, 0, 2, false⟩, -- ft_relay_overflow, R353
  ⟨0x2823, 1, 0, 8, .u64, .ro, 0, .v, 0, 0xFFFFFFFFFFFFFFFF, false, 0xFFFFFFFFFFFFFFFF, 0, 2, false⟩, -- ft_burgee_held_ns, R353
  ⟨0x2830, 1, 0, 1, .u64, .ro, 0, .v, 0, 0xFFFFFFFFFFFFFFFF, false, 0xFFFFFFFFFFFFFFFF, 0, 2, false⟩, -- ft_relay_no_route, R353
  ⟨0x2831, 1, 0, 1, .u64, .ro, 0, .v, 0, 0xFFFFFFFFFFFFFFFF, false, 0xFFFFFFFFFFFFFFFF, 0, 2, false⟩, -- ft_own_beacons, R353
  ⟨0x2832, 1, 0, 1, .u64, .ro, 0, .v, 0, 0xFFFFFFFFFFFFFFFF, false, 0xFFFFFFFFFFFFFFFF, 0, 2, false⟩, -- ft_unnamed_discards, R353
  ⟨0x2833, 1, 0, 1, .u64, .ro, 0, .v, 0, 0xFFFFFFFFFFFFFFFF, false, 0xFFFFFFFFFFFFFFFF, 0, 2, false⟩, -- ft_request_timeouts, R353
  ⟨0x2834, 1, 0, 1, .u64, .ro, 0, .v, 0, 0xFFFFFFFFFFFFFFFF, false, 0xFFFFFFFFFFFFFFFF, 0, 2, false⟩, -- ft_stale_pennants, R353
  ⟨0x2835, 1, 0, 1, .u64, .ro, 0, .v, 0, 0xFFFFFFFFFFFFFFFF, false, 0xFFFFFFFFFFFFFFFF, 0, 2, false⟩, -- ft_reorder_full, R353
  ⟨0x2836, 1, 0, 1, .u64, .ro, 0, .v, 0, 0xFFFFFFFFFFFFFFFF, false, 0xFFFFFFFFFFFFFFFF, 0, 2, false⟩, -- ft_seq_gaps, R353
  ⟨0x2837, 1, 0, 1, .u64, .ro, 0, .v, 0, 0xFFFFFFFFFFFFFFFF, false, 0xFFFFFFFFFFFFFFFF, 0, 2, false⟩, -- ft_orphan_segments, R353
  ⟨0x2840, 1, 0, 1, .bits32, .w1c, 0, .v, 0, 0xFFFFFFFF, false, 0xFF, 0, 2, false⟩ -- ft_cause, R353
  ]

/-- Rows 0x2841.00 to 0x3022.00. -/
def odRows33 : List OdRow := [
  ⟨0x2841, 1, 0, 1, .bits32, .rw, 0xFE, .p, 0, 0xFFFFFFFF, false, 0xFF, 0, 2, false⟩, -- ft_cause_enable, R353
  ⟨0x3000, 1, 0, 1, .u16, .rw, 0x8100, .p, 0, 0xFFFF, false, 0xFFFF, 0, 2, false⟩, -- parser_tpid_ctag, R100
  ⟨0x3001, 1, 0, 1, .u16, .rw, 0x88A8, .p, 0, 0xFFFF, false, 0xFFFF, 0, 2, false⟩, -- parser_tpid_stag, R100
  ⟨0x3002, 1, 0, 1, .u16, .rw, 0, .p, 0, 0xFFFF, false, 0xFFFF, 0, 2, false⟩, -- parser_tpid_extra, R100
  ⟨0x3003, 1, 0, 1, .u16, .rw, 0x12B5, .p, 0, 0xFFFF, false, 0xFFFF, 0, 2, false⟩, -- parser_vxlan_udp_port, R100
  ⟨0x3004, 1, 0, 1, .u8, .rw, 1, .p, 0, 2, false, 0xFF, 0, 2, false⟩, -- parser_mpls_payload, R100
  ⟨0x3005, 1, 0, 1, .bool, .rw, 1, .p, 0, 1, false, 1, 0, 2, false⟩, -- parser_ipv4_csum_check, R100
  ⟨0x3010, 1, 1, 12, .u8, .rw, 0, .p, 0, 1, false, 0xFF, 0, 2, false⟩, -- parser_malformed_action, R100
  ⟨0x3011, 1, 0, 1, .u32, .rw, 0, .p, 0, 0x7FFFF, false, 0xFFFFFFFF, 0, 2, false⟩, -- parser_punt_queue, R100
  ⟨0x3020, 1, 1, 12, .u64, .ro, 0, .v, 0, 0xFFFFFFFFFFFFFFFF, false, 0xFFFFFFFFFFFFFFFF, 0, 2, false⟩, -- parser_malformed_count, R100
  ⟨0x3021, 1, 0, 1, .u64, .ro, 0, .v, 0, 0xFFFFFFFFFFFFFFFF, false, 0xFFFFFFFFFFFFFFFF, 0, 2, false⟩, -- parser_depth_count, R100
  ⟨0x3022, 1, 0, 1, .u64, .ro, 0, .v, 0, 0xFFFFFFFFFFFFFFFF, false, 0xFFFFFFFFFFFFFFFF, 0, 2, false⟩ -- parser_fragment_count, R100
  ]

/-- Rows 0x3030.00 to 0x3120.tt. -/
def odRows34 : List OdRow := [
  ⟨0x3030, 1, 0, 1, .bits32, .w1c, 0, .v, 0, 0xFFFFFFFF, false, 7, 0, 2, false⟩, -- parser_cause, R100
  ⟨0x3031, 1, 0, 1, .bits32, .rw, 5, .p, 0, 0xFFFFFFFF, false, 7, 0, 2, false⟩, -- parser_cause_enable, R100
  ⟨0x3100, 1, 0, 1, .u8, .ro, 0, .v, 0, 0xFF, false, 0xFF, 0, 2, false⟩, -- cls_epoch_current, R131
  ⟨0x3101, 1, 0, 1, .u8, .ro, 0, .v, 0, 0xFF, false, 0xFF, 0, 2, false⟩, -- cls_epoch_state, R131
  ⟨0x3102, 1, 0, 1, .job, .wo, 0, .v, 0, 0, false, 0, 0, 1, false⟩, -- cls_epoch_swap, R131
  ⟨0x3103, 1, 0, 2, .u32, .ro, 0, .v, 0, 0xFFFFFFFF, false, 0xFFFFFFFF, 0, 2, false⟩, -- cls_epoch_inflight, R131
  ⟨0x3104, 1, 0, 2, .u32, .rw, 0, .v, 0, 0xFFFFFFFF, false, 0xFFFFFFFF, 0, 2, false⟩, -- cls_epoch_label, R131
  ⟨0x3105, 1, 0, 1, .u32, .ro, 0, .v, 0, 0xFFFFFFFF, false, 0xFFFFFFFF, 0, 2, false⟩, -- cls_last_retire_ns, R131
  ⟨0x3110, 1, 0, 2, .domain, .rw, 0, .v, 0, 0, false, 0, 0, 2, false⟩, -- cls_stage_plan, R131
  ⟨0x3111, 1, 0, 2, .domain, .rw, 0, .v, 0, 0, false, 0, 0, 2, false⟩, -- cls_direct_table, R131
  ⟨0x3112, 1, 0, 2, .domain, .rw, 0, .v, 0, 0, false, 0, 0, 2, false⟩, -- cls_rewrite_profiles, R131
  ⟨0x3120, 1, 0, 256, .u32, .rw, 0, .p, 0, 0xFFFFFFFF, false, 0xFFFFFFFF, 0, 2, false⟩ -- cls_trap_queue, R131
  ]

/-- Rows 0x3121.00 to 0x3150.00. -/
def odRows35 : List OdRow := [
  ⟨0x3121, 1, 0, 1, .u32, .rw, 0x400, .p, 0, 0xFFFFFFFF, false, 0xFFFFFFFF, 0, 2, false⟩, -- cls_compat_buckets, R131
  ⟨0x3130, 1, 0, 1, .u64, .ro, 0, .v, 0, 0xFFFFFFFFFFFFFFFF, false, 0xFFFFFFFFFFFFFFFF, 0, 2, false⟩, -- cls_recirc_limit_count, R131
  ⟨0x3131, 1, 0, 1, .u64, .ro, 0, .v, 0, 0xFFFFFFFFFFFFFFFF, false, 0xFFFFFFFFFFFFFFFF, 0, 2, false⟩, -- cls_no_dest_count, R131
  ⟨0x3132, 1, 0, 1, .u64, .ro, 0, .v, 0, 0xFFFFFFFFFFFFFFFF, false, 0xFFFFFFFFFFFFFFFF, 0, 2, false⟩, -- cls_ptp_onestep_refused, R131
  ⟨0x3133, 1, 0, 1, .u64, .ro, 0, .v, 0, 0xFFFFFFFFFFFFFFFF, false, 0xFFFFFFFFFFFFFFFF, 0, 2, false⟩, -- cls_compat_bad_op, R131
  ⟨0x3140, 1, 0, 1, .domain, .ro, 0, .v, 0, 0, false, 0, 0, 2, false⟩, -- learn_notices, R131
  ⟨0x3141, 1, 0, 1, .u32, .rw, 0x2710, .p, 1, 0xF4240, false, 0xFFFFFFFF, 0, 2, false⟩, -- learn_rate, R131
  ⟨0x3142, 1, 0, 1, .u16, .rw, 0x100, .p, 1, 0x2000, false, 0xFFFF, 0, 2, false⟩, -- learn_burst, R131
  ⟨0x3143, 1, 0, 1, .u16, .rw, 0x64, .p, 0, 0x2710, false, 0xFFFF, 0, 2, false⟩, -- learn_dedup_ms, R131
  ⟨0x3144, 1, 0, 1, .u64, .ro, 0, .v, 0, 0xFFFFFFFFFFFFFFFF, false, 0xFFFFFFFFFFFFFFFF, 0, 2, false⟩, -- learn_dropped, R131
  ⟨0x3145, 1, 0, 1, .u64, .ro, 0, .v, 0, 0xFFFFFFFFFFFFFFFF, false, 0xFFFFFFFFFFFFFFFF, 0, 2, false⟩, -- learn_suppressed, R131
  ⟨0x3150, 1, 0, 1, .bits32, .w1c, 0, .v, 0, 0xFFFFFFFF, false, 0x1F, 0, 2, false⟩ -- cls_cause, R131
  ]

/-- Rows 0x3151.00 to 0x3212.00. -/
def odRows36 : List OdRow := [
  ⟨0x3151, 1, 0, 1, .bits32, .rw, 0x1D, .p, 0, 0xFFFFFFFF, false, 0x1F, 0, 2, false⟩, -- cls_cause_enable, R131
  ⟨0x3200, 1, 0, 1, .u32, .ro, 0xC00000, .v, 0, 0xFFFFFFFF, false, 0xFFFFFFFF, 0, 2, false⟩, -- lkp_lpm_units_total, R156
  ⟨0x3201, 1, 0, 8, .u32, .ro, 0, .v, 0, 0xFFFFFFFF, false, 0xFFFFFFFF, 0, 2, false⟩, -- lkp_lpm_units_used, R156
  ⟨0x3202, 1, 0, 1, .u8, .rw, 0x5A, .p, 0x32, 0x64, false, 0xFF, 0, 2, false⟩, -- lkp_lpm_units_high_pct, R156
  ⟨0x3203, 1, 0, 1, .u8, .rw, 0xC, .p, 8, 0x10, false, 0xFF, 0, 2, false⟩, -- lkp_pivot_v4, R156
  ⟨0x3204, 1, 0, 1, .u8, .rw, 0x14, .p, 0x10, 0x20, false, 0xFF, 0, 2, false⟩, -- lkp_pivot_v6, R156
  ⟨0x3205, 1, 0, 1, .domain, .ro, 0, .v, 0, 0, false, 0, 0, 2, false⟩, -- lkp_pivot_map, R156
  ⟨0x3206, 1, 0, 1, .u32, .rw, 0, .v, 0, 0xFFFFFFFF, false, 0x7FFFF, 0, 2, false⟩, -- lkp_pivot_move_arg, R156
  ⟨0x3207, 1, 0, 1, .job, .wo, 0, .v, 0, 0, false, 0, 0, 2, false⟩, -- lkp_pivot_move, R156
  ⟨0x3210, 1, 0, 8, .u32, .ro, 0, .v, 0, 0xFFFFFFFF, false, 0xFFFFFFFF, 0, 2, false⟩, -- lkp_em_slots_used, R156
  ⟨0x3211, 1, 0, 1, .u64, .ro, 0, .v, 0, 0xFFFFFFFFFFFFFFFF, false, 0xFFFFFFFFFFFFFFFF, 0, 2, false⟩, -- lkp_em_insert_refused, R156
  ⟨0x3212, 1, 0, 1, .u64, .ro, 0, .v, 0, 0xFFFFFFFFFFFFFFFF, false, 0xFFFFFFFFFFFFFFFF, 0, 2, false⟩ -- lkp_em_relocations, R156
  ]

/-- Rows 0x3220.00 to 0x3240.kk. -/
def odRows37 : List OdRow := [
  ⟨0x3220, 1, 0, 1, .bits32, .rw, 0x1F, .p, 0, 0xFFFFFFFF, false, 0xFFFFFFFF, 0, 2, false⟩, -- lkp_ecmp_fields, R156
  ⟨0x3221, 1, 0, 1, .u32, .rw, 0, .p, 0, 0xFFFFFFFF, false, 0xFFFFFFFF, 0, 2, false⟩, -- lkp_ecmp_seed, R156
  ⟨0x3222, 1, 0, 1, .u64, .ro, 0, .v, 0, 0xFFFFFFFFFFFFFFFF, false, 0xFFFFFFFFFFFFFFFF, 0, 2, false⟩, -- lkp_nh_invalid, R156
  ⟨0x3230, 1, 0, 1, .domain, .wo, 0, .v, 0, 0, false, 0, 0, 2, false⟩, -- lkp_load, R156
  ⟨0x3231, 1, 0, 1, .job, .wo, 0, .v, 0, 0, false, 0, 0, 2, false⟩, -- lkp_apply, R156
  ⟨0x3232, 1, 0, 1, .u8, .rw, 0, .p, 0, 1, false, 0xFF, 0, 2, false⟩, -- lkp_apply_mode, R156
  ⟨0x3233, 1, 0, 1, .u32, .ro, 0, .v, 0, 0xFFFFFFFF, false, 0xFFFFFFFF, 0, 2, false⟩, -- lkp_apply_done, R156
  ⟨0x3234, 1, 0, 1, .u32, .ro, 0xFFFFFFFF, .v, 0, 0xFFFFFFFF, false, 0xFFFFFFFF, 0, 2, false⟩, -- lkp_apply_error_index, R156
  ⟨0x3235, 1, 0, 1, .u8, .ro, 0, .v, 0, 0xFF, false, 0xFF, 0, 2, false⟩, -- lkp_apply_error_code, R156
  ⟨0x3236, 1, 0, 1, .u32, .rw, 0, .v, 0, 0xFFFFFFFF, false, 0xFFFFFFFF, 0, 2, false⟩, -- lkp_dump_select, R156
  ⟨0x3237, 1, 0, 1, .domain, .ro, 0, .v, 0, 0, false, 0, 0, 2, false⟩, -- lkp_dump, R156
  ⟨0x3240, 1, 0, 8, .u64, .ro, 0, .v, 0, 0xFFFFFFFFFFFFFFFF, false, 0xFFFFFFFFFFFFFFFF, 0, 2, false⟩ -- lkp_lookups, R156
  ]

/-- Rows 0x3241.kk to 0x3306.00. -/
def odRows38 : List OdRow := [
  ⟨0x3241, 1, 0, 8, .u64, .ro, 0, .v, 0, 0xFFFFFFFFFFFFFFFF, false, 0xFFFFFFFFFFFFFFFF, 0, 2, false⟩, -- lkp_steal_cycles, R156
  ⟨0x3242, 1, 0, 8, .u64, .ro, 0, .v, 0, 0xFFFFFFFFFFFFFFFF, false, 0xFFFFFFFFFFFFFFFF, 0, 2, false⟩, -- lkp_wait_cycles, R156
  ⟨0x3243, 1, 0, 8, .u64, .ro, 0, .v, 0, 0xFFFFFFFFFFFFFFFF, false, 0xFFFFFFFFFFFFFFFF, 0, 2, false⟩, -- lkp_rebuilds, R156
  ⟨0x3250, 1, 0, 1, .bits32, .w1c, 0, .v, 0, 0xFFFFFFFF, false, 0x3F, 0, 2, false⟩, -- lkp_cause, R156
  ⟨0x3251, 1, 0, 1, .bits32, .rw, 0x37, .p, 0, 0xFFFFFFFF, false, 0x3F, 0, 2, false⟩, -- lkp_cause_enable, R156
  ⟨0x3300, 1, 0, 1, .u8, .ro, 8, .v, 0, 0xFF, false, 0xFF, 0, 2, false⟩, -- ase_bank_count, R182
  ⟨0x3301, 1, 0, 8, .u16, .ro, 0, .v, 0, 0xFFFF, false, 0xFFFF, 0, 2, false⟩, -- ase_high_mark, R182
  ⟨0x3302, 1, 0, 8, .u16, .ro, 0, .v, 0, 0xFFFF, false, 0xFFFF, 0, 2, false⟩, -- ase_rules, R182
  ⟨0x3303, 1, 0, 1, .u16, .rw, 0x10, .p, 4, 0x100, false, 0xFFFF, 0, 2, false⟩, -- ase_update_budget, R182
  ⟨0x3304, 1, 0, 1, .u16, .rw, 0x40, .p, 0x10, 0x400, false, 0xFFFF, 0, 2, false⟩, -- ase_scrub_budget, R182
  ⟨0x3305, 1, 0, 8, .domain, .ro, 0, .v, 0, 0, false, 0, 0, 2, false⟩, -- ase_region_map, R182
  ⟨0x3306, 1, 0, 1, .domain, .wo, 0, .v, 0, 0, false, 0, 0, 2, false⟩ -- ase_load, R182
  ]

/-- Rows 0x3307.00 to 0x3314.kk. -/
def odRows39 : List OdRow := [
  ⟨0x3307, 1, 0, 1, .job, .wo, 0, .v, 0, 0, false, 0, 0, 2, false⟩, -- ase_apply, R182
  ⟨0x3308, 1, 0, 1, .u8, .rw, 0, .p, 0, 1, false, 0xFF, 0, 2, false⟩, -- ase_apply_mode, R182
  ⟨0x3309, 1, 0, 1, .u32, .ro, 0, .v, 0, 0xFFFFFFFF, false, 0xFFFFFFFF, 0, 2, false⟩, -- ase_apply_done, R182
  ⟨0x330A, 1, 0, 1, .u32, .ro, 0xFFFFFFFF, .v, 0, 0xFFFFFFFF, false, 0xFFFFFFFF, 0, 2, false⟩, -- ase_apply_error_index, R182
  ⟨0x330B, 1, 0, 1, .u8, .ro, 0, .v, 0, 0xFF, false, 0xFF, 0, 2, false⟩, -- ase_apply_error_code, R182
  ⟨0x330C, 1, 0, 1, .u8, .rw, 0, .v, 0, 7, false, 0xFF, 0, 2, false⟩, -- ase_dump_select, R182
  ⟨0x330D, 1, 0, 1, .domain, .ro, 0, .v, 0, 0, false, 0, 0, 2, false⟩, -- ase_dump, R182
  ⟨0x3310, 1, 0, 8, .u64, .ro, 0, .v, 0, 0xFFFFFFFFFFFFFFFF, false, 0xFFFFFFFFFFFFFFFF, 0, 2, false⟩, -- ase_searches, R182
  ⟨0x3311, 1, 0, 8, .u64, .ro, 0, .v, 0, 0xFFFFFFFFFFFFFFFF, false, 0xFFFFFFFFFFFFFFFF, 0, 2, false⟩, -- ase_hits, R182
  ⟨0x3312, 1, 0, 8, .u64, .ro, 0, .v, 0, 0xFFFFFFFFFFFFFFFF, false, 0xFFFFFFFFFFFFFFFF, 0, 2, false⟩, -- ase_ties, R182
  ⟨0x3313, 1, 0, 8, .u32, .ro, 0, .v, 0, 0xFFFFFFFF, false, 0xFFFFFFFF, 0, 2, false⟩, -- ase_last_tie, R182
  ⟨0x3314, 1, 0, 8, .u64, .ro, 0, .v, 0, 0xFFFFFFFFFFFFFFFF, false, 0xFFFFFFFFFFFFFFFF, 0, 2, false⟩ -- ase_update_slots, R182
  ]

/-- Rows 0x3315.kk to 0x3341.kk. -/
def odRows40 : List OdRow := [
  ⟨0x3315, 1, 0, 8, .u64, .ro, 0, .v, 0, 0xFFFFFFFFFFFFFFFF, false, 0xFFFFFFFFFFFFFFFF, 0, 2, false⟩, -- ase_wait_cycles, R182
  ⟨0x3316, 1, 0, 8, .u64, .ro, 0, .v, 0, 0xFFFFFFFFFFFFFFFF, false, 0xFFFFFFFFFFFFFFFF, 0, 2, false⟩, -- ase_shift_places, R182
  ⟨0x3320, 1, 0, 8, .u64, .ro, 0, .v, 0, 0xFFFFFFFFFFFFFFFF, false, 0xFFFFFFFFFFFFFFFF, 0, 2, false⟩, -- ase_scrub_sweeps, R182
  ⟨0x3321, 1, 0, 8, .u64, .ro, 0, .v, 0, 0xFFFFFFFFFFFFFFFF, false, 0xFFFFFFFFFFFFFFFF, 0, 2, false⟩, -- ase_scrub_repairs, R182
  ⟨0x3322, 1, 0, 8, .u64, .ro, 0, .v, 0, 0xFFFFFFFFFFFFFFFF, false, 0xFFFFFFFFFFFFFFFF, 0, 2, false⟩, -- ase_scrub_shadow_errors, R182
  ⟨0x3323, 1, 0, 8, .u16, .ro, 0, .v, 0, 0xFFFF, false, 0xFFFF, 0, 2, false⟩, -- ase_last_repair_row, R182
  ⟨0x3324, 1, 0, 8, .u64, .ro, 0, .v, 0, 0xFFFFFFFFFFFFFFFF, false, 0xFFFFFFFFFFFFFFFF, 0, 2, false⟩, -- ase_scrub_late, R182
  ⟨0x3330, 1, 0, 8, .s32, .ro, 0, .v, 0, 0xFFFFFFFF, false, 0xFFFFFFFF, 0, 2, false⟩, -- ase_temp, R182
  ⟨0x3331, 1, 0, 8, .u8, .ro, 0, .v, 0, 0xFF, false, 0xFF, 0, 2, false⟩, -- ase_throttle_level, R182
  ⟨0x3332, 1, 0, 8, .u64, .ro, 0, .v, 0, 0xFFFFFFFFFFFFFFFF, false, 0xFFFFFFFFFFFFFFFF, 0, 2, false⟩, -- ase_throttle_ns, R182
  ⟨0x3340, 1, 0, 8, .bits32, .w1c, 0, .v, 0, 0xFFFFFFFF, false, 0x7F, 0, 2, false⟩, -- ase_cause, R182
  ⟨0x3341, 1, 0, 8, .bits32, .rw, 0x5F, .p, 0, 0xFFFFFFFF, false, 0x7F, 0, 2, false⟩ -- ase_cause_enable, R182
  ]

/-- Rows 0x3400.00 to 0x3418.cc. -/
def odRows41 : List OdRow := [
  ⟨0x3400, 1, 0, 1, .u32, .ro, 0x40000, .v, 0, 0xFFFFFFFF, false, 0xFFFFFFFF, 0, 2, false⟩, -- mtr_count, R200
  ⟨0x3401, 1, 0, 1, .u32, .ro, 0x100000, .v, 0, 0xFFFFFFFF, false, 0xFFFFFFFF, 0, 2, false⟩, -- ctr_count, R200
  ⟨0x3402, 1, 0, 16, .s32, .rw, 0, .p, 0, 0xFFFFFFFF, false, 0xFFFFFFFF, 0, 2, false⟩, -- len_overhead, R200
  ⟨0x3410, 1, 0, 1, .u32, .rw, 0, .v, 0, 0x3FFFF, false, 0xFFFFFFFF, 0, 2, false⟩, -- mtr_select, R200
  ⟨0x3411, 1, 0, 1, .domain, .rw, 0, .v, 0, 0, false, 0, 0, 2, false⟩, -- mtr_config, R200
  ⟨0x3412, 1, 0, 1, .domain, .ro, 0, .v, 0, 0, false, 0, 0, 2, false⟩, -- mtr_state, R200
  ⟨0x3413, 1, 0, 1, .domain, .wo, 0, .v, 0, 0, false, 0, 0, 2, false⟩, -- mtr_load, R200
  ⟨0x3414, 1, 0, 1, .job, .wo, 0, .v, 0, 0, false, 0, 0, 2, false⟩, -- mtr_apply, R200
  ⟨0x3415, 1, 0, 1, .u32, .ro, 0, .v, 0, 0xFFFFFFFF, false, 0xFFFFFFFF, 0, 2, false⟩, -- mtr_apply_done, R200
  ⟨0x3416, 1, 0, 1, .u32, .ro, 0xFFFFFFFF, .v, 0, 0xFFFFFFFF, false, 0xFFFFFFFF, 0, 2, false⟩, -- mtr_apply_error_index, R200
  ⟨0x3417, 1, 0, 1, .u8, .ro, 0, .v, 0, 0xFF, false, 0xFF, 0, 2, false⟩, -- mtr_apply_error_code, R200
  ⟨0x3418, 1, 0, 3, .u64, .ro, 0, .v, 0, 0xFFFFFFFFFFFFFFFF, false, 0xFFFFFFFFFFFFFFFF, 0, 2, false⟩ -- mtr_colour_count, R200
  ]

/-- Rows 0x3419.00 to 0x3430.00. -/
def odRows42 : List OdRow := [
  ⟨0x3419, 1, 0, 1, .u64, .ro, 0, .v, 0, 0xFFFFFFFFFFFFFFFF, false, 0xFFFFFFFFFFFFFFFF, 0, 2, false⟩, -- mtr_disabled_hits, R200
  ⟨0x341A, 1, 0, 1, .u64, .ro, 0, .v, 0, 0xFFFFFFFFFFFFFFFF, false, 0xFFFFFFFFFFFFFFFF, 0, 2, false⟩, -- mtr_corrections, R200
  ⟨0x3420, 1, 0, 1, .u32, .rw, 0, .v, 0, 0xFFFFF, false, 0xFFFFFFFF, 0, 1, false⟩, -- ctr_select, R200
  ⟨0x3421, 1, 0, 1, .u64, .ro, 0, .v, 0, 0xFFFFFFFFFFFFFFFF, false, 0xFFFFFFFFFFFFFFFF, 0, 2, false⟩, -- ctr_pkts, R200
  ⟨0x3422, 1, 0, 1, .u64, .ro, 0, .v, 0, 0xFFFFFFFFFFFFFFFF, false, 0xFFFFFFFFFFFFFFFF, 0, 2, false⟩, -- ctr_bytes, R200
  ⟨0x3423, 1, 0, 1, .bool, .wo, 0, .v, 0, 1, false, 1, 0, 1, false⟩, -- ctr_clear, R200
  ⟨0x3424, 1, 0, 1, .u32, .rw, 0, .v, 0, 0xFFFFFFFF, false, 0xFFFFFFFF, 0, 1, false⟩, -- ctr_sweep_base, R200
  ⟨0x3425, 1, 0, 1, .u32, .rw, 1, .v, 0, 0xFFFFFFFF, false, 0xFFFFFFFF, 0, 1, false⟩, -- ctr_sweep_count, R200
  ⟨0x3426, 1, 0, 1, .bool, .rw, 0, .v, 0, 1, false, 1, 0, 1, false⟩, -- ctr_sweep_clear, R200
  ⟨0x3427, 1, 0, 1, .job, .wo, 0, .v, 0, 0, false, 0, 0, 1, false⟩, -- ctr_sweep, R200
  ⟨0x3428, 1, 0, 1, .domain, .ro, 0, .v, 0, 0, false, 0, 0, 2, false⟩, -- ctr_sweep_data, R200
  ⟨0x3430, 1, 0, 1, .u64, .ro, 0, .v, 0, 0xFFFFFFFFFFFFFFFF, false, 0xFFFFFFFFFFFFFFFF, 0, 2, false⟩ -- mtr_residue_faults, R200
  ]

/-- Rows 0x3431.00 to 0x4007.nn. -/
def odRows43 : List OdRow := [
  ⟨0x3431, 1, 0, 1, .u64, .ro, 0, .v, 0, 0xFFFFFFFFFFFFFFFF, false, 0xFFFFFFFFFFFFFFFF, 0, 2, false⟩, -- ctr_residue_faults, R200
  ⟨0x3432, 1, 0, 1, .u32, .ro, 0, .v, 0, 0xFFFFFFFF, false, 0xFFFFFFFF, 0, 2, false⟩, -- mc_last_fault, R200
  ⟨0x3440, 1, 0, 1, .bits32, .w1c, 0, .v, 0, 0xFFFFFFFF, false, 0x1F, 0, 2, false⟩, -- mc_cause, R200
  ⟨0x3441, 1, 0, 1, .bits32, .rw, 0xF, .p, 0, 0xFFFFFFFF, false, 0x1F, 0, 2, false⟩, -- mc_cause_enable, R200
  ⟨0x4000, 1, 0, 1, .u32, .ro, 0x60000, .v, 0, 0xFFFFFFFF, false, 0xFFFFFFFF, 0, 2, false⟩, -- pm_cells_total, R229
  ⟨0x4001, 1, 0, 1, .u32, .ro, 0x3000000, .v, 0, 0xFFFFFFFF, false, 0xFFFFFFFF, 0, 2, false⟩, -- pm_pages_total, R229
  ⟨0x4002, 1, 0, 32, .u64, .rw, 0, .p, 0, 0xFFFFFFFFFFFFFFFF, false, 0xFFFFFFFFFFFFFFFF, 0, 2, false⟩, -- pool_desc, R229
  ⟨0x4003, 1, 0, 32, .u32, .ro, 0, .v, 0, 0xFFFFFFFF, false, 0xFFFFFFFF, 0, 2, false⟩, -- pool_free, R229
  ⟨0x4004, 1, 0, 32, .u32, .ro, 0, .v, 0, 0xFFFFFFFF, false, 0xFFFFFFFF, 0, 2, false⟩, -- pool_used, R229
  ⟨0x4005, 1, 0, 32, .u32, .rw, 0, .p, 0, 0xFFFFFFFF, false, 0xFFFFFFFF, 0, 2, false⟩, -- pool_shared_size, R229
  ⟨0x4006, 1, 0, 32, .u32, .rw, 0, .p, 0, 0xFFFFFFFF, false, 0xFFFFFFFF, 0, 2, false⟩, -- pool_headroom, R229
  ⟨0x4007, 1, 0, 32, .u32, .ro, 0, .v, 0, 0xFFFFFFFF, false, 0xFFFFFFFF, 0, 2, false⟩ -- pool_guarantee_sum, R229
  ]

/-- Rows 0x4008.nn to 0x4031.00. -/
def odRows44 : List OdRow := [
  ⟨0x4008, 1, 0, 32, .u32, .ro, 0, .v, 0, 0xFFFFFFFF, false, 0xFFFFFFFF, 0, 2, false⟩, -- pool_shared_used, R229
  ⟨0x4009, 1, 0, 32, .u32, .rc, 0, .v, 0, 0xFFFFFFFF, false, 0xFFFFFFFF, 1, 2, false⟩, -- pool_watermark, R229
  ⟨0x400A, 1, 0, 32, .u32, .ro, 0, .v, 0, 0xFFFFFFFF, false, 0xFFFFFFFF, 0, 2, false⟩, -- pool_quarantined, R229
  ⟨0x400B, 1, 0, 32, .u32, .rw, 0, .p, 0, 0xFFFFFFFF, false, 0xFFFFFFFF, 0, 2, false⟩, -- pool_low_units, R229
  ⟨0x400C, 1, 0, 32, .u32, .ro, 0, .v, 0, 0xFFFFFFFF, false, 0xFFFFFFFF, 0, 2, false⟩, -- pool_rebuilds, R229
  ⟨0x400D, 1, 0, 32, .u32, .ro, 0, .v, 0, 0xFFFFFFFF, false, 0xFFFFFFFF, 0, 2, false⟩, -- pool_leaked, R229
  ⟨0x4010, 1, 0, 256, .domain, .rw, 0, .p, 0, 0, false, 0, 0, 2, false⟩, -- adm_profile, R229
  ⟨0x4020, 1, 0, 16, .u32, .rw, 0x400, .p, 0, 0xFFFFFFFF, false, 0xFFFFFFFF, 0, 2, false⟩, -- fc_xoff_cells, R229
  ⟨0x4021, 1, 0, 16, .u32, .rw, 0x300, .p, 0, 0xFFFFFFFF, false, 0xFFFFFFFF, 0, 2, false⟩, -- fc_xon_cells, R229
  ⟨0x4022, 1, 0, 1, .domain, .rw, 0, .p, 0, 0, false, 0, 0, 2, false⟩, -- pm_port_map, R229
  ⟨0x4030, 1, 0, 1, .u8, .rw, 4, .p, 1, 0x10, false, 0xFF, 0, 2, false⟩, -- spill_prefetch_pages, R229
  ⟨0x4031, 1, 0, 1, .u32, .ro, 0, .v, 0, 0xFFFFFFFF, false, 0xFFFFFFFF, 0, 2, false⟩ -- spill_queues, R229
  ]

/-- Rows 0x4032.00 to 0x4101.ss. -/
def odRows45 : List OdRow := [
  ⟨0x4032, 1, 0, 1, .u64, .ro, 0, .v, 0, 0xFFFFFFFFFFFFFFFF, false, 0xFFFFFFFFFFFFFFFF, 0, 2, false⟩, -- spill_entries, R229
  ⟨0x4033, 1, 0, 1, .u64, .ro, 0, .v, 0, 0xFFFFFFFFFFFFFFFF, false, 0xFFFFFFFFFFFFFFFF, 0, 2, false⟩, -- spill_exits, R229
  ⟨0x4034, 1, 0, 1, .u64, .ro, 0, .v, 0, 0xFFFFFFFFFFFFFFFF, false, 0xFFFFFFFFFFFFFFFF, 0, 2, false⟩, -- spill_refused, R229
  ⟨0x4040, 1, 0, 1, .u64, .ro, 0, .v, 0, 0xFFFFFFFFFFFFFFFF, false, 0xFFFFFFFFFFFFFFFF, 0, 2, false⟩, -- pm_ptr_faults, R229
  ⟨0x4041, 1, 0, 1, .u64, .ro, 0, .v, 0, 0xFFFFFFFFFFFFFFFF, false, 0xFFFFFFFFFFFFFFFF, 0, 2, false⟩, -- pm_last_ptr_fault, R229
  ⟨0x4042, 1, 0, 1, .u64, .ro, 0, .v, 0, 0xFFFFFFFFFFFFFFFF, false, 0xFFFFFFFFFFFFFFFF, 0, 2, false⟩, -- pm_refcount_underflows, R229
  ⟨0x4043, 1, 0, 1, .u64, .ro, 0, .v, 0, 0xFFFFFFFFFFFFFFFF, false, 0xFFFFFFFFFFFFFFFF, 0, 2, false⟩, -- pm_residue_faults, R229
  ⟨0x4044, 1, 0, 1, .u64, .ro, 0, .v, 0, 0xFFFFFFFFFFFFFFFF, false, 0xFFFFFFFFFFFFFFFF, 0, 2, false⟩, -- pm_chain_breaks, R229
  ⟨0x4050, 1, 0, 1, .bits32, .w1c, 0, .v, 0, 0xFFFFFFFF, false, 0x7F, 0, 2, false⟩, -- pm_cause, R229
  ⟨0x4051, 1, 0, 1, .bits32, .rw, 0x7F, .p, 0, 0xFFFFFFFF, false, 0x7F, 0, 2, false⟩, -- pm_cause_enable, R229
  ⟨0x4100, 1, 0, 1, .u8, .ro, 4, .v, 0, 0xFF, false, 0xFF, 0, 2, false⟩, -- hbm_stack_count, R252
  ⟨0x4101, 1, 0, 4, .u8, .ro, 0, .v, 0, 0xFF, false, 0xFF, 0, 2, false⟩ -- hbm_stack_state, R252
  ]

/-- Rows 0x4102.ss to 0x4114.00. -/
def odRows46 : List OdRow := [
  ⟨0x4102, 1, 0, 4, .job, .wo, 0, .v, 0, 0, false, 0, 0, 1, false⟩, -- hbm_init, R252
  ⟨0x4103, 1, 0, 4, .job, .wo, 0, .v, 0, 0, false, 0, 0, 1, false⟩, -- hbm_offline, R252
  ⟨0x4104, 1, 0, 1, .u8, .ro, 2, .v, 0, 0xFF, false, 0xFF, 0, 2, false⟩, -- hbm_rate, R252
  ⟨0x4105, 1, 0, 1, .u8, .rw, 0xFF, .p, 0, 0xFF, false, 0xFF, 0, 2, false⟩, -- hbm_rate_pin, R252
  ⟨0x4106, 1, 0, 1, .u64, .ro, 0, .v, 0, 0xFFFFFFFFFFFFFFFF, false, 0xFFFFFFFFFFFFFFFF, 0, 2, false⟩, -- hbm_rate_changes, R252
  ⟨0x4107, 1, 0, 1, .bool, .rw, 1, .p, 0, 1, false, 1, 0, 2, false⟩, -- hbm_idle_enable, R252
  ⟨0x4108, 1, 0, 1, .u32, .rw, 0x3E8, .p, 0x64, 0xF4240, false, 0xFFFFFFFF, 0, 2, false⟩, -- hbm_idle_us, R252
  ⟨0x4110, 1, 0, 4, .domain, .rw, 0, .p, 0, 0, false, 0, 0, 2, false⟩, -- hbm_mode_regs, R252
  ⟨0x4111, 1, 0, 1, .u32, .rw, 0xF3C, .p, 0x3E8, 0x2710, false, 0xFFFFFFFF, 0, 2, false⟩, -- hbm_t_refi_ns, R252
  ⟨0x4112, 1, 0, 1, .u32, .rw, 0x79E, .p, 0x1F4, 0x2710, false, 0xFFFFFFFF, 0, 2, false⟩, -- hbm_t_refi_hot_ns, R252
  ⟨0x4113, 1, 0, 1, .u8, .rw, 0x55, .p, 0x3C, 0x69, false, 0xFF, 0, 2, false⟩, -- hbm_hot_c, R252
  ⟨0x4114, 1, 0, 1, .u16, .rw, 0x15E, .p, 0, 0xFFFF, false, 0xFFFF, 0, 2, false⟩ -- hbm_t_rfc_ns, R252
  ]

/-- Rows 0x4115.00 to 0x4142.ss. -/
def odRows47 : List OdRow := [
  ⟨0x4115, 1, 0, 1, .u16, .rw, 0x10, .p, 0, 0xFFFF, false, 0xFFFF, 0, 2, false⟩, -- hbm_t_rp_ns, R252
  ⟨0x4116, 1, 0, 1, .u16, .rw, 0x10, .p, 0, 0xFFFF, false, 0xFFFF, 0, 2, false⟩, -- hbm_t_rcd_ns, R252
  ⟨0x4117, 1, 0, 1, .domain, .rw, 0, .p, 0, 0, false, 0, 0, 2, false⟩, -- hbm_timing_other, R252
  ⟨0x4120, 1, 0, 4, .domain, .rw, 0, .p, 0, 0, false, 0, 0, 2, false⟩, -- hbm_delay_8g0, R252
  ⟨0x4121, 1, 0, 4, .domain, .rw, 0, .p, 0, 0, false, 0, 0, 2, false⟩, -- hbm_delay_6g4, R252
  ⟨0x4122, 1, 0, 4, .domain, .rw, 0, .p, 0, 0, false, 0, 0, 2, false⟩, -- hbm_delay_4g0, R252
  ⟨0x4130, 1, 0, 1, .u32, .rw, 0, .v, 0, 0xFFFFFFFF, false, 0xFFFFFFF8, 0, 2, false⟩, -- hbm_capture_arg, R252
  ⟨0x4131, 1, 0, 1, .job, .wo, 0, .v, 0, 0, false, 0, 0, 1, false⟩, -- hbm_capture, R252
  ⟨0x4132, 1, 0, 1, .domain, .ro, 0, .v, 0, 0, false, 0, 0, 2, false⟩, -- hbm_capture_result, R252
  ⟨0x4140, 1, 0, 4, .u64, .ro, 0, .v, 0, 0xFFFFFFFFFFFFFFFF, false, 0xFFFFFFFFFFFFFFFF, 0, 2, false⟩, -- hbm_ecc_corrected, R252
  ⟨0x4141, 1, 0, 4, .u64, .ro, 0, .v, 0, 0xFFFFFFFFFFFFFFFF, false, 0xFFFFFFFFFFFFFFFF, 0, 2, false⟩, -- hbm_ecc_uncorrectable, R252
  ⟨0x4142, 1, 0, 4, .u64, .ro, 0, .v, 0, 0xFFFFFFFFFFFFFFFF, false, 0xFFFFFFFFFFFFFFFF, 0, 2, false⟩ -- hbm_last_ecc, R252
  ]

/-- Rows 0x4143.00 to 0x4201.00. -/
def odRows48 : List OdRow := [
  ⟨0x4143, 1, 0, 1, .u32, .rw, 0x3E800, .p, 0x3E8, 0xFFFFFFFF, false, 0xFFFFFFFF, 0, 2, false⟩, -- hbm_scrub_page_ns, R252
  ⟨0x4144, 1, 0, 4, .u32, .ro, 0, .v, 0, 0xFFFFFFFF, false, 0xFFFFFFFF, 0, 2, false⟩, -- hbm_scrub_position, R252
  ⟨0x4145, 1, 0, 4, .u64, .ro, 0, .v, 0, 0xFFFFFFFFFFFFFFFF, false, 0xFFFFFFFFFFFFFFFF, 0, 2, false⟩, -- hbm_scrub_sweeps, R252
  ⟨0x4150, 1, 0, 5, .u32, .rw, 0, .p, 0x64, 0x5F5E100, false, 0xFFFFFFFF, 0, 2, false⟩, -- hbm_port_target_ns, R252
  ⟨0x4151, 1, 0, 5, .u64, .ro, 0, .v, 0, 0xFFFFFFFFFFFFFFFF, false, 0xFFFFFFFFFFFFFFFF, 0, 2, false⟩, -- hbm_deadline_miss, R252
  ⟨0x4152, 1, 0, 4, .u64, .ro, 0, .v, 0, 0xFFFFFFFFFFFFFFFF, false, 0xFFFFFFFFFFFFFFFF, 0, 2, false⟩, -- hbm_refresh_splits, R252
  ⟨0x4153, 1, 0, 4, .u8, .rc, 0, .v, 0, 0xFF, false, 0xFF, 1, 2, false⟩, -- hbm_refresh_owed_max, R252
  ⟨0x4160, 1, 0, 4, .s32, .ro, 0, .v, 0, 0xFFFFFFFF, false, 0xFFFFFFFF, 0, 2, false⟩, -- hbm_temp, R252
  ⟨0x4170, 1, 0, 4, .bits32, .w1c, 0, .v, 0, 0xFFFFFFFF, false, 0xFF, 0, 2, false⟩, -- hbm_cause, R252
  ⟨0x4171, 1, 0, 4, .bits32, .rw, 0xE6, .p, 0, 0xFFFFFFFF, false, 0xFF, 0, 2, false⟩, -- hbm_cause_enable, R252
  ⟨0x4200, 1, 0, 1, .u32, .ro, 0x80000, .v, 0, 0xFFFFFFFF, false, 0xFFFFFFFF, 0, 2, false⟩, -- qm_queue_count, R284
  ⟨0x4201, 1, 0, 1, .u32, .rw, 0, .v, 0, 0xFFFFFFFF, false, 0xFFFFFFFF, 0, 2, false⟩ -- sch_select, R284
  ]

/-- Rows 0x4202.00 to 0x4221.00. -/
def odRows49 : List OdRow := [
  ⟨0x4202, 1, 0, 1, .domain, .rw, 0, .v, 0, 0, false, 0, 0, 2, false⟩, -- sch_config, R284
  ⟨0x4203, 1, 0, 1, .domain, .ro, 0, .v, 0, 0, false, 0, 0, 2, false⟩, -- sch_state, R284
  ⟨0x4204, 1, 0, 1, .domain, .wo, 0, .v, 0, 0, false, 0, 0, 2, false⟩, -- qm_load, R284
  ⟨0x4205, 1, 0, 1, .job, .wo, 0, .v, 0, 0, false, 0, 0, 2, false⟩, -- qm_apply, R284
  ⟨0x4206, 1, 0, 1, .u8, .rw, 0, .p, 0, 1, false, 0xFF, 0, 2, false⟩, -- qm_apply_mode, R284
  ⟨0x4207, 1, 0, 1, .u32, .ro, 0, .v, 0, 0xFFFFFFFF, false, 0xFFFFFFFF, 0, 2, false⟩, -- qm_apply_done, R284
  ⟨0x4208, 1, 0, 1, .u32, .ro, 0xFFFFFFFF, .v, 0, 0xFFFFFFFF, false, 0xFFFFFFFF, 0, 2, false⟩, -- qm_apply_error_index, R284
  ⟨0x4209, 1, 0, 1, .u8, .ro, 0, .v, 0, 0xFF, false, 0xFF, 0, 2, false⟩, -- qm_apply_error_code, R284
  ⟨0x4210, 1, 0, 1, .domain, .rw, 0, .v, 0, 0, false, 0, 0, 2, false⟩, -- port_class_map, R284
  ⟨0x4211, 1, 0, 1, .u16, .rw, 0x40, .p, 0x40, 0x1000, false, 0xFFFF, 0, 2, false⟩, -- sch_quantum_bytes, R284
  ⟨0x4220, 1, 0, 16, .domain, .rw, 0, .p, 0, 0, false, 0, 0, 2, false⟩, -- aqm_profile, R284
  ⟨0x4221, 1, 0, 1, .u64, .ro, 0, .v, 0, 0xFFFFFFFFFFFFFFFF, false, 0xFFFFFFFFFFFFFFFF, 0, 2, false⟩ -- aqm_marked, R284
  ]

/-- Rows 0x4222.00 to 0x4246.00. -/
def odRows50 : List OdRow := [
  ⟨0x4222, 1, 0, 1, .u64, .ro, 0, .v, 0, 0xFFFFFFFFFFFFFFFF, false, 0xFFFFFFFFFFFFFFFF, 0, 2, false⟩, -- aqm_dropped, R284
  ⟨0x4230, 1, 0, 1, .u64, .ro, 0, .v, 0, 0xFFFFFFFFFFFFFFFF, false, 0xFFFFFFFFFFFFFFFF, 0, 2, false⟩, -- mc_pruned, R284
  ⟨0x4231, 1, 0, 1, .u64, .ro, 0, .v, 0, 0xFFFFFFFFFFFFFFFF, false, 0xFFFFFFFFFFFFFFFF, 0, 2, false⟩, -- mc_empty_group, R284
  ⟨0x4232, 1, 0, 1, .u64, .ro, 0, .v, 0, 0xFFFFFFFFFFFFFFFF, false, 0xFFFFFFFFFFFFFFFF, 0, 2, false⟩, -- mc_copies_refused, R284
  ⟨0x4233, 1, 0, 1, .u32, .ro, 0, .v, 0, 0xFFFFFFFF, false, 0xFFFFFFFF, 0, 2, false⟩, -- mc_last_refusal, R284
  ⟨0x4240, 1, 0, 8, .u32, .rw, 2, .p, 0, 0xFFFFFFFF, false, 0xFFFFFFFE, 0, 2, false⟩, -- voq_template, R284
  ⟨0x4241, 1, 0, 1, .u16, .rw, 0xA, .p, 1, 0x2710, false, 0xFFFF, 0, 2, false⟩, -- voq_idle_ms, R284
  ⟨0x4242, 1, 0, 16, .u32, .ro, 0, .v, 0, 0xFFFFFFFF, false, 0xFFFFFFFF, 0, 2, false⟩, -- voq_bound, R284
  ⟨0x4243, 1, 0, 16, .u32, .ro, 0, .v, 0, 0xFFFFFFFF, false, 0xFFFFFFFF, 0, 2, false⟩, -- voq_free, R284
  ⟨0x4244, 1, 0, 1, .u32, .rw, 0, .p, 0, 0xFFFFFFFF, false, 0xFFFFFFFF, 0, 2, false⟩, -- voq_low_count, R284
  ⟨0x4245, 1, 0, 1, .u64, .ro, 0, .v, 0, 0xFFFFFFFFFFFFFFFF, false, 0xFFFFFFFFFFFFFFFF, 0, 2, false⟩, -- voq_binds, R284
  ⟨0x4246, 1, 0, 1, .u64, .ro, 0, .v, 0, 0xFFFFFFFFFFFFFFFF, false, 0xFFFFFFFFFFFFFFFF, 0, 2, false⟩ -- voq_releases, R284
  ]

/-- Rows 0x4247.00 to 0x5011.00. -/
def odRows51 : List OdRow := [
  ⟨0x4247, 1, 0, 1, .u64, .ro, 0, .v, 0, 0xFFFFFFFFFFFFFFFF, false, 0xFFFFFFFFFFFFFFFF, 0, 2, false⟩, -- voq_unavailable, R284
  ⟨0x4248, 1, 0, 1, .u64, .ro, 0, .v, 0, 0xFFFFFFFFFFFFFFFF, false, 0xFFFFFFFFFFFFFFFF, 0, 2, false⟩, -- voq_stray_grants, R284
  ⟨0x4250, 1, 0, 1, .u64, .ro, 0, .v, 0, 0xFFFFFFFFFFFFFFFF, false, 0xFFFFFFFFFFFFFFFF, 0, 2, false⟩, -- qm_no_queue, R284
  ⟨0x4251, 1, 0, 16, .u32, .ro, 0x10000, .v, 0, 0xFFFFFFFF, false, 0xFFFFFFFF, 0, 2, false⟩, -- qm_links_free, R284
  ⟨0x4252, 1, 0, 1, .u64, .ro, 0, .v, 0, 0xFFFFFFFFFFFFFFFF, false, 0xFFFFFFFFFFFFFFFF, 0, 2, false⟩, -- qm_links_exhausted, R284
  ⟨0x4253, 1, 0, 1, .u64, .ro, 0, .v, 0, 0xFFFFFFFFFFFFFFFF, false, 0xFFFFFFFFFFFFFFFF, 0, 2, false⟩, -- sch_residue_faults, R284
  ⟨0x4260, 1, 0, 1, .bits32, .w1c, 0, .v, 0, 0xFFFFFFFF, false, 0xFF, 0, 2, false⟩, -- qm_cause, R284
  ⟨0x4261, 1, 0, 1, .bits32, .rw, 0x77, .p, 0, 0xFFFFFFFF, false, 0xFF, 0, 2, false⟩, -- qm_cause_enable, R284
  ⟨0x5000, 1, 0, 64, .u64, .ro, 0, .v, 0, 0xFFFFFFFFFFFFFFFF, false, 0xFFFFFFFFFFFFFFFF, 0, 2, false⟩, -- drop_total, R377
  ⟨0x5001, 1, 0, 64, .u64, .ro, 0, .v, 0, 0xFFFFFFFFFFFFFFFF, false, 0xFFFFFFFFFFFFFFFF, 0, 2, false⟩, -- drop_unattributed, R377
  ⟨0x5010, 1, 0, 1, .domain, .ro, 0, .v, 0, 0, false, 0, 0, 2, false⟩, -- ledger_last, R377
  ⟨0x5011, 1, 0, 1, .domain, .ro, 0, .v, 0, 0, false, 0, 0, 2, false⟩ -- ledger_history, R377
  ]

/-- Rows 0x5012.00 to 0x5061.00. -/
def odRows52 : List OdRow := [
  ⟨0x5012, 1, 0, 1, .u64, .ro, 0, .v, 0, 0xFFFFFFFFFFFFFFFF, false, 0xFFFFFFFFFFFFFFFF, 0, 2, false⟩, -- ledger_mismatches, R377
  ⟨0x5013, 1, 0, 1, .u64, .ro, 0, .v, 0, 0xFFFFFFFFFFFFFFFF, false, 0xFFFFFFFFFFFFFFFF, 0, 2, false⟩, -- ledger_last_mismatch, R377
  ⟨0x5020, 1, 0, 1, .domain, .ro, 0, .v, 0, 0, false, 0, 0, 2, false⟩, -- perf_overflow, R377
  ⟨0x5030, 1, 1, 15, .domain, .rw, 0, .p, 0, 0, false, 0, 0, 2, false⟩, -- mirror_session, R377
  ⟨0x5031, 1, 1, 15, .u64, .ro, 0, .v, 0, 0xFFFFFFFFFFFFFFFF, false, 0xFFFFFFFFFFFFFFFF, 0, 2, false⟩, -- mirror_lost, R377
  ⟨0x5040, 1, 0, 64, .u32, .rw, 0, .p, 0, 0xFFFFFFFF, false, 0xFFFFFFFF, 0, 2, false⟩, -- sampler, R377
  ⟨0x5041, 1, 0, 64, .u64, .ro, 0, .v, 0, 0xFFFFFFFFFFFFFFFF, false, 0xFFFFFFFFFFFFFFFF, 0, 2, false⟩, -- sampler_taken, R377
  ⟨0x5050, 1, 0, 64, .u64, .rw, 0, .p, 0, 0xFFFFFFFFFFFFFFFF, false, 0xFFFFFFFFFFF00000, 0, 2, false⟩, -- hist_monitor, R377
  ⟨0x5051, 1, 0, 64, .domain, .ro, 0, .v, 0, 0, false, 0, 0, 2, false⟩, -- hist_bins, R377
  ⟨0x5052, 1, 0, 64, .bool, .wo, 0, .v, 0, 1, false, 1, 0, 1, false⟩, -- hist_clear, R377
  ⟨0x5060, 1, 0, 1, .u32, .rw, 0, .v, 0, 0x7FFFF, false, 0xFFFFFFFF, 0, 1, false⟩, -- qwm_select, R377
  ⟨0x5061, 1, 0, 1, .u32, .rc, 0, .v, 0, 0xFFFFFFFF, false, 0xFFFFFFFF, 1, 2, false⟩ -- qwm_value, R377
  ]

/-- Rows 0x5070.00 to 0x507B.00. -/
def odRows53 : List OdRow := [
  ⟨0x5070, 1, 0, 1, .bool, .rw, 0, .p, 0, 1, false, 1, 0, 2, false⟩, -- ens_enable, R377
  ⟨0x5071, 1, 0, 1, .u32, .rw, 0, .p, 0, 0xFFFFFFFF, false, 0xFFFFFFFF, 0, 2, false⟩, -- ens_pen, R377
  ⟨0x5072, 1, 0, 1, .u32, .rw, 0, .p, 0, 0xFFFFFFFF, false, 0xFFFFFFFF, 0, 2, false⟩, -- ens_domain_id, R377
  ⟨0x5073, 1, 0, 1, .u32, .rw, 0, .p, 0, 0xFFFFFFFF, false, 0xFFFFFFFF, 0, 2, false⟩, -- ens_dest, R377
  ⟨0x5074, 1, 0, 1, .domain, .rw, 0, .p, 0, 0, false, 0, 0, 2, false⟩, -- ens_header, R377
  ⟨0x5075, 1, 0, 1, .u16, .rw, 0x5DC, .p, 0x240, 0x2328, false, 0xFFFF, 0, 2, false⟩, -- ens_mtu, R377
  ⟨0x5076, 1, 0, 1, .u16, .rw, 0x3C, .p, 1, 0xE10, false, 0xFFFF, 0, 2, false⟩, -- ens_template_s, R377
  ⟨0x5077, 1, 0, 1, .u32, .rw, 0x3E8, .p, 0xA, 0xF4240, false, 0xFFFFFFFF, 0, 2, false⟩, -- ens_flush_us, R377
  ⟨0x5078, 1, 0, 1, .u64, .rw, 0xFFFFFFFFFFFFFEFE, .p, 0, 0xFFFFFFFFFFFFFFFF, false, 0xFFFFFFFFFFFFFFFF, 0, 2, false⟩, -- ens_postcard_mask, R377
  ⟨0x5079, 1, 0, 1, .u32, .rw, 0x2710, .p, 1, 0x989680, false, 0xFFFFFFFF, 0, 2, false⟩, -- ens_postcard_rate, R377
  ⟨0x507A, 1, 0, 1, .u32, .rw, 0, .p, 0x64, 0x3938700, true, 0xFFFFFFFF, 0, 2, false⟩, -- ens_snapshot_us, R377
  ⟨0x507B, 1, 0, 1, .domain, .rw, 0, .p, 0, 0, false, 0, 0, 2, false⟩ -- ens_snapshot_list, R377
  ]

/-- Rows 0x507C.00 to 0x5800+p.4B. -/
def odRows54 : List OdRow := [
  ⟨0x507C, 1, 0, 1, .u64, .ro, 0, .v, 0, 0xFFFFFFFFFFFFFFFF, false, 0xFFFFFFFFFFFFFFFF, 0, 2, false⟩, -- ens_records_sent, R377
  ⟨0x507D, 1, 0, 1, .u64, .ro, 0, .v, 0, 0xFFFFFFFFFFFFFFFF, false, 0xFFFFFFFFFFFFFFFF, 0, 2, false⟩, -- ens_records_dropped, R377
  ⟨0x507E, 1, 0, 1, .u64, .ro, 0, .v, 0, 0xFFFFFFFFFFFFFFFF, false, 0xFFFFFFFFFFFFFFFF, 0, 2, false⟩, -- ens_postcards_suppressed, R377
  ⟨0x5080, 1, 0, 1, .bits32, .w1c, 0, .v, 0, 0xFFFFFFFF, false, 0x1F, 0, 2, false⟩, -- obs_cause, R377
  ⟨0x5081, 1, 0, 1, .bits32, .rw, 0x1B, .p, 0, 0xFFFFFFFF, false, 0x1F, 0, 2, false⟩, -- obs_cause_enable, R377
  ⟨0x5100, 16, 0, 256, .u32, .rw, 0, .v, 0, 0xFFFFFFFF, false, 0xFFFFFFFF, 0, 2, false⟩, -- perf_counter, R377
  ⟨0x5110, 16, 0, 256, .u32, .rw, 0, .v, 0, 0xFFFFFFFF, false, 0xFFFFFFFF, 0, 2, false⟩, -- perf_select, R377
  ⟨0x5800, 1024, 0, 64, .u64, .ro, 0, .v, 0, 0xFFFFFFFFFFFFFFFF, false, 0xFFFFFFFFFFFFFFFF, 0, 2, false⟩, -- drop_port, R377
  ⟨0x5800, 1024, 0x40, 1, .u8, .rw, 0xA, .p, 0, 0x14, false, 0xFF, 0, 1, false⟩, -- bw_window_k, R377
  ⟨0x5800, 1024, 0x41, 1, .u32, .ro, 0, .v, 0, 0xFFFFFFFF, false, 0xFFFFFFFF, 0, 2, false⟩, -- bw_seq, R377
  ⟨0x5800, 1024, 0x42, 1, .u64, .ro, 0, .v, 0, 0xFFFFFFFFFFFFFFFF, false, 0xFFFFFFFFFFFFFFFF, 0, 2, false⟩, -- bw_rx_bytes, R377
  ⟨0x5800, 1024, 0x43, 1, .u64, .ro, 0, .v, 0, 0xFFFFFFFFFFFFFFFF, false, 0xFFFFFFFFFFFFFFFF, 0, 2, false⟩, -- bw_tx_bytes, R377
  ⟨0x5800, 1024, 0x44, 1, .u32, .rw, 0, .p, 1, 0x3D0900, true, 0xFFFFFFFF, 0, 2, false⟩, -- age_limit_us, R377
  ⟨0x5800, 1024, 0x45, 1, .u8, .rw, 0, .p, 0, 0x40, false, 0xFF, 0, 1, false⟩, -- sample_rx, R377
  ⟨0x5800, 1024, 0x46, 1, .u8, .rw, 0, .p, 0, 0x40, false, 0xFF, 0, 1, false⟩, -- sample_tx, R377
  ⟨0x5800, 1024, 0x47, 1, .u32, .rw, 0x264, .p, 0, 0xFFFFFFFF, false, 0xFFFFFFFF, 0, 1, false⟩, -- soj_offset_ns, R377
  ⟨0x5800, 1024, 0x48, 1, .u8, .rw, 0, .p, 0, 2, false, 0xFF, 0, 1, false⟩, -- soj_shift, R377
  ⟨0x5800, 1024, 0x49, 1, .domain, .ro, 0, .v, 0, 0, false, 0, 0, 2, false⟩, -- soj_bins, R377
  ⟨0x5800, 1024, 0x4A, 1, .u64, .ro, 0, .v, 0, 0xFFFFFFFFFFFFFFFF, false, 0xFFFFFFFFFFFFFFFF, 0, 2, false⟩, -- soj_negative, R377
  ⟨0x5800, 1024, 0x4B, 1, .bool, .wo, 0, .v, 0, 1, false, 1, 0, 1, false⟩ -- soj_clear, R377
  ]

/-- Every row, in index order. -/
def odRows : List OdRow :=
  odRows0 ++ odRows1 ++ odRows2 ++ odRows3 ++ odRows4 ++ odRows5 ++ odRows6 ++ odRows7 ++ odRows8 ++ odRows9 ++ odRows10 ++ odRows11 ++
  odRows12 ++ odRows13 ++ odRows14 ++ odRows15 ++ odRows16 ++ odRows17 ++ odRows18 ++ odRows19 ++ odRows20 ++ odRows21 ++ odRows22 ++
  odRows23 ++ odRows24 ++ odRows25 ++ odRows26 ++ odRows27 ++ odRows28 ++ odRows29 ++ odRows30 ++ odRows31 ++ odRows32 ++ odRows33 ++
  odRows34 ++ odRows35 ++ odRows36 ++ odRows37 ++ odRows38 ++ odRows39 ++ odRows40 ++ odRows41 ++ odRows42 ++ odRows43 ++ odRows44 ++
  odRows45 ++ odRows46 ++ odRows47 ++ odRows48 ++ odRows49 ++ odRows50 ++ odRows51 ++ odRows52 ++ odRows53 ++ odRows54

/-- The part of the table in which an index and subindex can lie. -/
def odPart (idx sub : Nat) : List OdRow :=
  if idx < 0x2700 then
    if idx < 0x1521 then
      if idx < 0x1211 then
        if idx < 0x1104 then
          if idx < 0x1011 then odRows0 else if idx < 0x1028 then odRows1 else odRows2
        else
          if idx < 0x1114 then odRows3 else if idx < 0x11A1 then odRows4 else odRows5
      else
        if idx < 0x1341 then
          if idx < 0x1302 then odRows6 else if idx < 0x1322 then odRows7 else odRows8
        else
          if idx < 0x1420 then if idx < 0x13C4 then odRows9 else odRows10 else if idx < 0x1502 then odRows11 else odRows12
    else
      if idx < 0x2000 then
        if idx < 0x1631 then if idx < 0x1616 then odRows13 else odRows14 else if idx < 0x1662 then odRows15 else odRows16
      else
        if idx < 0x2400 then
          if sub < 0x47 then
            if sub < 0x14 then odRows17 else if sub < 0x20 then odRows18 else odRows19
          else
            if sub < 0x83 then odRows20 else if sub < 0x98 then odRows21 else odRows22
        else
          if idx < 0x2500 then odRows23 else if sub < 0xC then odRows24 else odRows25
  else
    if idx < 0x3315 then
      if idx < 0x2841 then
        if idx < 0x2800 then
          if sub < 0x18 then if sub < 0xC then odRows26 else odRows27 else if sub < 0x24 then odRows28 else odRows29
        else
          if idx < 0x280C then odRows30 else if idx < 0x2821 then odRows31 else odRows32
      else
        if idx < 0x3151 then
          if idx < 0x3030 then odRows33 else if idx < 0x3121 then odRows34 else odRows35
        else
          if idx < 0x3241 then if idx < 0x3220 then odRows36 else odRows37 else if idx < 0x3307 then odRows38 else odRows39
    else
      if idx < 0x4115 then
        if idx < 0x3431 then
          if idx < 0x3400 then odRows40 else if idx < 0x3419 then odRows41 else odRows42
        else
          if idx < 0x4032 then if idx < 0x4008 then odRows43 else odRows44 else if idx < 0x4102 then odRows45 else odRows46
      else
        if idx < 0x4247 then
          if idx < 0x4202 then if idx < 0x4143 then odRows47 else odRows48 else if idx < 0x4222 then odRows49 else odRows50
        else
          if idx < 0x5070 then if idx < 0x5012 then odRows51 else odRows52 else if idx < 0x507C then odRows53 else odRows54

/-- Whether a row holds index.subindex. -/
def OdRow.has (r : OdRow) (idx sub : Nat) : Bool :=
  decide (r.idx ≤ idx) && decide (idx < r.idx + r.cnt) && decide (r.sub ≤ sub) && decide (sub < r.sub + r.subCnt)

/-- The row of a key, if the key names an entry (R390). -/
def odFind (k : Nat) : Option OdRow :=
  (odPart (k % 2 ^ 24 / 256) (k % 256)).find? (fun r => r.has (k % 2 ^ 24 / 256) (k % 256))

/-- The width of a fixed-size type in bits. -/
def EType.width : EType → Nat
  | .bool => 1 | .u8 => 8 | .u16 => 16 | .u32 => 32 | .u64 => 64 | .s32 => 32 | .bits32 => 32 | .mac48 => 48
  | .u40 => 40 | .str _ => 0 | .domain => 0 | .job => 64

/-- The size of a fixed-size type in bytes (Table — Types); the 40-bit statistics travel as U64. -/
def EType.size : EType → Nat
  | .bool => 1 | .u8 => 1 | .u16 => 2 | .u32 => 4 | .u64 => 8 | .s32 => 4 | .bits32 => 4 | .mac48 => 6
  | .u40 => 8 | .str n => n | .domain => 0 | .job => 8

/-- The type code of Table — Types. -/
def EType.code : EType → Nat
  | .bool => 1 | .u8 => 2 | .u16 => 3 | .u32 => 4 | .u64 => 5 | .s32 => 6 | .bits32 => 8 | .mac48 => 9
  | .u40 => 5 | .str _ => 10 | .domain => 11 | .job => 12

end Sys2Proof.Machine
end

