-- ==== Sys2Proof/Machine/Regs.lean ====
section
/-! DEFINITION. The keys of the dictionary entries, by the names the chapters give them (R390). -/

namespace Sys2Proof.Machine.Reg

/-- `id_vendor` (R414). -/
def idVendor : Nat := key 0x1000 0
/-- `id_family` (R414). -/
def idFamily : Nat := key 0x1001 0
/-- `id_part` (R414). -/
def idPart : Nat := key 0x1002 0
/-- `id_ordering_code` (R414). -/
def idOrderingCode : Nat := key 0x1003 0
/-- `id_silicon_rev` (R414). -/
def idSiliconRev : Nat := key 0x1004 0
/-- `id_temp_grade` (R414). -/
def idTempGrade : Nat := key 0x1005 0
/-- `id_package` (R414). -/
def idPackage : Nat := key 0x1006 0
/-- `id_hw_type` (R414). -/
def idHwType : Nat := key 0x1007 0
/-- `id_unit_id_hi` (R414). -/
def idUnitIdHi : Nat := key 0x1008 0
/-- `id_unit_id_lo` (R414). -/
def idUnitIdLo : Nat := key 0x1008 1
/-- `id_lot` (R414). -/
def idLot : Nat := key 0x1009 0
/-- `id_od_version` (R414). -/
def idOdVersion : Nat := key 0x1010 0
/-- `id_fw_version` (R414). -/
def idFwVersion : Nat := key 0x1011 0
/-- `id_loader_version` (R414). -/
def idLoaderVersion : Nat := key 0x1012 0
/-- `id_straps` (R414). -/
def idStraps : Nat := key 0x1013 0
/-- `id_jtag_locked` (R414). -/
def idJtagLocked : Nat := key 0x1014 0
/-- `cap_line_lanes` (R414). -/
def capLineLanes : Nat := key 0x1020 0
/-- `cap_fabric_lanes` (R414). -/
def capFabricLanes : Nat := key 0x1021 0
/-- `cap_port_instances` (R414). -/
def capPortInstances : Nat := key 0x1022 0
/-- `cap_islands` (R414). -/
def capIslands : Nat := key 0x1023 0
/-- `cap_queues` (R414). -/
def capQueues : Nat := key 0x1024 0
/-- `cap_lpm_units` (R414). -/
def capLpmUnits : Nat := key 0x1025 0
/-- `cap_em_slots` (R414). -/
def capEmSlots : Nat := key 0x1026 0
/-- `cap_ase_entries` (R414). -/
def capAseEntries : Nat := key 0x1027 0
/-- `cap_event_sources` (R414). -/
def capEventSources : Nat := key 0x1028 0
/-- `cap_perf_counters` (R414). -/
def capPerfCounters : Nat := key 0x1029 0
/-- `cap_vfs` (R414). -/
def capVfs : Nat := key 0x102A 0
/-- `cap_sram_mib` (R414). -/
def capSramMib : Nat := key 0x102B 0
/-- `cap_crock_gib` (R414). -/
def capCrockGib : Nat := key 0x102C 0
/-- `cap_features` (R414). -/
def capFeatures : Nat := key 0x102D 0
/-- `id_user_label` (R414). -/
def idUserLabel : Nat := key 0x1050 0
/-- `id_user_location` (R414). -/
def idUserLocation : Nat := key 0x1051 0
/-- `syn_udp_port` (R427). -/
def synUdpPort : Nat := key 0x1100 0
/-- `syn_enable` (R427). -/
def synEnable : Nat := key 0x1101 0
/-- `syn_oob_mode` (R427). -/
def synOobMode (p : Nat) : Nat := keyIf (decide (p < 2)) (key 0x1102 p)
/-- `syn_oob_mac` (R427). -/
def synOobMac (p : Nat) : Nat := keyIf (decide (p < 2)) (key 0x1103 p)
/-- `syn_oob_ipv4` (R427). -/
def synOobIpv4 (p : Nat) : Nat := keyIf (decide (p < 2)) (key 0x1104 p)
/-- `syn_oob_ipv6` (R427). -/
def synOobIpv6 (p : Nat) : Nat := keyIf (decide (p < 2)) (key 0x1105 p)
/-- `syn_oob_gw4` (R427). -/
def synOobGw4 (p : Nat) : Nat := keyIf (decide (p < 2)) (key 0x1106 p)
/-- `syn_device_key` (R427). -/
def synDeviceKey : Nat := key 0x1107 0
/-- `syn_key_set` (R427). -/
def synKeySet : Nat := key 0x1108 0
/-- `syn_discover_open` (R427). -/
def synDiscoverOpen : Nat := key 0x1109 0
/-- `syn_session_idle_s` (R427). -/
def synSessionIdleS : Nat := key 0x110A 0
/-- `syn_relay_hop_limit` (R427). -/
def synRelayHopLimit : Nat := key 0x110B 0
/-- `syn_sessions` (R427). -/
def synSessions : Nat := key 0x1110 0
/-- `syn_session_count` (R427). -/
def synSessionCount : Nat := key 0x1111 0
/-- `syn_auth_failures` (R427). -/
def synAuthFailures : Nat := key 0x1112 0
/-- `syn_replays` (R427). -/
def synReplays : Nat := key 0x1113 0
/-- `syn_relay_forwarded` (R427). -/
def synRelayForwarded : Nat := key 0x1114 0
/-- `syn_relay_dropped` (R427). -/
def synRelayDropped : Nat := key 0x1115 0
/-- `syn_neighbours` (R427). -/
def synNeighbours : Nat := key 0x1116 0
/-- `syn_event_groups` (R427). -/
def synEventGroups : Nat := key 0x1120 0
/-- `mb_doorbell` (R427). -/
def mbDoorbell : Nat := key 0x1180 0
/-- `mb_status` (R427). -/
def mbStatus : Nat := key 0x1181 0
/-- `od_access_status` (R427). -/
def odAccessStatus : Nat := key 0x1182 0
/-- `od_save` (R427). -/
def odSave : Nat := key 0x1190 0
/-- `od_unsaved` (R427). -/
def odUnsaved : Nat := key 0x1191 0
/-- `od_settings_erase` (R427). -/
def odSettingsErase : Nat := key 0x1192 0
/-- `od_domain_idle_ms` (R427). -/
def odDomainIdleMs : Nat := key 0x1193 0
/-- `od_cause` (R427). -/
def odCause : Nat := key 0x11A0 0
/-- `od_cause_enable` (R427). -/
def odCauseEnable : Nat := key 0x11A1 0
/-- `fw_state` (R465). -/
def fwState : Nat := key 0x1200 0
/-- `fw_last_boot` (R465). -/
def fwLastBoot : Nat := key 0x1201 0
/-- `fw_restart` (R465). -/
def fwRestart : Nat := key 0x1202 0
/-- `fw_restart_count` (R465). -/
def fwRestartCount : Nat := key 0x1203 0
/-- `fw_watchdog_ms` (R465). -/
def fwWatchdogMs : Nat := key 0x1204 0
/-- `fw_rollback_floor` (R465). -/
def fwRollbackFloor : Nat := key 0x1205 0
/-- `fw_running_header` (R465). -/
def fwRunningHeader : Nat := key 0x1206 0
/-- `fw_region_state` (R465). -/
def fwRegionState : Nat := key 0x1207 0
/-- `fw_install` (R465). -/
def fwInstall : Nat := key 0x1208 0
/-- `fw_settings_schema` (R465). -/
def fwSettingsSchema : Nat := key 0x1209 0
/-- `fw_staged` (R465). -/
def fwStaged : Nat := key 0x1210 0
/-- `fw_staged_header` (R465). -/
def fwStagedHeader : Nat := key 0x1211 0
/-- `fw_staged_valid` (R465). -/
def fwStagedValid : Nat := key 0x1212 0
/-- `fw_relay_enable` (R465). -/
def fwRelayEnable : Nat := key 0x1213 0
/-- `fw_auto_install` (R465). -/
def fwAutoInstall : Nat := key 0x1214 0
/-- `fw_relay_poll_s` (R465). -/
def fwRelayPollS : Nat := key 0x1215 0
/-- `fw_relay_fetches` (R465). -/
def fwRelayFetches : Nat := key 0x1216 0
/-- `fw_relay_served` (R465). -/
def fwRelayServed : Nat := key 0x1217 0
/-- `fw_key_digest` (R465). -/
def fwKeyDigest : Nat := key 0x1218 0
/-- `fw_cause` (R465). -/
def fwCause : Nat := key 0x1220 0
/-- `fw_cause_enable` (R465). -/
def fwCauseEnable : Nat := key 0x1221 0
/-- `pwr_state` (R485). -/
def pwrState : Nat := key 0x1300 0
/-- `pwr_retention_enter` (R485). -/
def pwrRetentionEnter : Nat := key 0x1301 0
/-- `pwr_retention_exit` (R485). -/
def pwrRetentionExit : Nat := key 0x1302 0
/-- `pwr_datapath_reset` (R485). -/
def pwrDatapathReset : Nat := key 0x1303 0
/-- `pwr_island_reset_arg` (R485). -/
def pwrIslandResetArg : Nat := key 0x1304 0
/-- `pwr_island_reset` (R485). -/
def pwrIslandReset : Nat := key 0x1305 0
/-- `pwr_last_reset` (R485). -/
def pwrLastReset : Nat := key 0x1306 0
/-- `pwr_reset_count` (R485). -/
def pwrResetCount (k : Nat) : Nat := keyIf (decide (1 ≤ k) && decide (k < 9)) (key 0x1307 k)
/-- `pwr_startup_phase` (R485). -/
def pwrStartupPhase : Nat := key 0x1308 0
/-- `pwr_startup_ms` (R485). -/
def pwrStartupMs : Nat := key 0x1309 0
/-- `pwr_auto_bringup` (R485). -/
def pwrAutoBringup : Nat := key 0x130A 0
/-- `island_count` (R50). -/
def islandCount : Nat := key 0x1310 0
/-- `island_mode` (R50). -/
def islandMode (n : Nat) : Nat := keyIf (decide (n < 121)) (key 0x1320 n)
/-- `island_freq_khz` (R50). -/
def islandFreqKhz (n : Nat) : Nat := keyIf (decide (n < 121)) (key 0x1321 n)
/-- `island_stop_enable` (R50). -/
def islandStopEnable (n : Nat) : Nat := keyIf (decide (n < 121)) (key 0x1322 n)
/-- `island_floor_step` (R50). -/
def islandFloorStep (n : Nat) : Nat := keyIf (decide (n < 121)) (key 0x1323 n)
/-- `island_step` (R50). -/
def islandStep (n : Nat) : Nat := keyIf (decide (n < 121)) (key 0x1324 n)
/-- `island_busy_ppm` (R50). -/
def islandBusyPpm (n : Nat) : Nat := keyIf (decide (n < 121)) (key 0x1325 n)
/-- `island_wake_count` (R50). -/
def islandWakeCount (n : Nat) : Nat := keyIf (decide (n < 121)) (key 0x1326 n)
/-- `pin_all_scalable` (R50). -/
def pinAllScalable : Nat := key 0x1327 0
/-- `clock_fault_island` (R50). -/
def clockFaultIsland : Nat := key 0x1328 0
/-- `pwr_vdd_mv` (R485). -/
def pwrVddMv (e : Nat) : Nat := keyIf (decide (e < 2)) (key 0x1330 e)
/-- `pwr_vdd_fuse_mv` (R485). -/
def pwrVddFuseMv (e : Nat) : Nat := keyIf (decide (e < 2)) (key 0x1331 e)
/-- `pwr_retention_mv` (R485). -/
def pwrRetentionMv : Nat := key 0x1332 0
/-- `pwr_estimate_w` (R485). -/
def pwrEstimateW : Nat := key 0x1333 0
/-- `temp_sensor` (R485). -/
def tempSensor (s : Nat) : Nat := keyIf (decide (s < 64)) (key 0x1340 s)
/-- `temp_max` (R485). -/
def tempMax : Nat := key 0x1341 0
/-- `temp_max_sensor` (R485). -/
def tempMaxSensor : Nat := key 0x1342 0
/-- `temp_diode` (R485). -/
def tempDiode (d : Nat) : Nat := keyIf (decide (d < 2)) (key 0x1343 d)
/-- `pwr_temp_warn_c` (R485). -/
def pwrTempWarnC : Nat := key 0x1344 0
/-- `pwr_temp_crit_c` (R485). -/
def pwrTempCritC : Nat := key 0x1345 0
/-- `pwr_crit_action` (R485). -/
def pwrCritAction : Nat := key 0x1346 0
/-- `pwr_cause` (R485). -/
def pwrCause : Nat := key 0x1370 0
/-- `pwr_cause_enable` (R485). -/
def pwrCauseEnable : Nat := key 0x1371 0
/-- `io_gpio_dir` (R524). -/
def ioGpioDir : Nat := key 0x13C0 0
/-- `io_gpio_out` (R524). -/
def ioGpioOut : Nat := key 0x13C1 0
/-- `io_gpio_in` (R524). -/
def ioGpioIn : Nat := key 0x13C2 0
/-- `io_i2c_speed` (R524). -/
def ioI2cSpeed (m : Nat) : Nat := keyIf (decide (m < 2)) (key 0x13C3 m)
/-- `io_i2c_xfer` (R524). -/
def ioI2cXfer (m : Nat) : Nat := keyIf (decide (m < 2)) (key 0x13C4 m)
/-- `io_mdio_mdc_khz` (R524). -/
def ioMdioMdcKhz (m : Nat) : Nat := keyIf (decide (m < 2)) (key 0x13C5 m)
/-- `io_mdio_xfer` (R524). -/
def ioMdioXfer (m : Nat) : Nat := keyIf (decide (m < 2)) (key 0x13C6 m)
/-- `io_pps_in_ts` (R524). -/
def ioPpsInTs : Nat := key 0x13C7 0
/-- `evt_status` (R389). -/
def evtStatus (n : Nat) : Nat := keyIf (decide (n < 1024)) (key (0x1400 + n / 256) (n % 256))
/-- `evt_sticky` (R389). -/
def evtSticky (n : Nat) : Nat := keyIf (decide (n < 1024)) (key (0x1404 + n / 256) (n % 256))
/-- `evt_mask` (R389). -/
def evtMask (n : Nat) : Nat := keyIf (decide (n < 1024)) (key (0x1408 + n / 256) (n % 256))
/-- `evt_route` (R389). -/
def evtRoute (n : Nat) : Nat := keyIf (decide (n < 1024)) (key (0x140C + n / 256) (n % 256))
/-- `evt_group_pending` (R389). -/
def evtGroupPending : Nat := key 0x1410 0
/-- `evt_group_sticky` (R389). -/
def evtGroupSticky (g : Nat) : Nat := keyIf (decide (g < 64)) (key 0x1411 g)
/-- `evt_group_status` (R389). -/
def evtGroupStatus (g : Nat) : Nat := keyIf (decide (g < 64)) (key 0x1412 g)
/-- `evt_group_mask` (R389). -/
def evtGroupMask (g : Nat) : Nat := keyIf (decide (g < 64)) (key 0x1413 g)
/-- `evt_pf_vector_groups` (R389). -/
def evtPfVectorGroups (v : Nat) : Nat := keyIf (decide (v < 256)) (key 0x1420 v)
/-- `evt_pin_enable` (R389). -/
def evtPinEnable : Nat := key 0x1430 0
/-- `evt_pin_state` (R389). -/
def evtPinState : Nat := key 0x1431 0
/-- `evt_fw_queue_depth` (R389). -/
def evtFwQueueDepth : Nat := key 0x1440 0
/-- `evt_fw_queue_lost` (R389). -/
def evtFwQueueLost : Nat := key 0x1441 0
/-- `evt_fw_queue_high` (R389). -/
def evtFwQueueHigh : Nat := key 0x1442 0
/-- `evt_test_raise` (R389). -/
def evtTestRaise : Nat := key 0x1450 0
/-- `evt_test_cause` (R389). -/
def evtTestCause : Nat := key 0x1451 0
/-- `evt_test_cause_enable` (R389). -/
def evtTestCauseEnable : Nat := key 0x1452 0
/-- `evt_pulses` (R389). -/
def evtPulses : Nat := key 0x1460 0
/-- `int_corrected` (R499). -/
def intCorrected (c : Nat) : Nat := keyIf (decide (c < 12)) (key 0x1500 c)
/-- `int_uncorrectable` (R499). -/
def intUncorrectable (c : Nat) : Nat := keyIf (decide (c < 12)) (key 0x1501 c)
/-- `int_last_error` (R499). -/
def intLastError : Nat := key 0x1502 0
/-- `int_poisoned` (R499). -/
def intPoisoned : Nat := key 0x1503 0
/-- `int_queue_faulted` (R499). -/
def intQueueFaulted : Nat := key 0x1504 0
/-- `int_d2d_lanes_repaired` (R499). -/
def intD2dLanesRepaired : Nat := key 0x1505 0
/-- `int_residue_faults` (R499). -/
def intResidueFaults : Nat := key 0x1506 0
/-- `int_scrub_late` (R499). -/
def intScrubLate : Nat := key 0x1507 0
/-- `int_buf_scrub_ns` (R499). -/
def intBufScrubNs : Nat := key 0x1510 0
/-- `int_qms_scrub_ms` (R499). -/
def intQmsScrubMs : Nat := key 0x1511 0
/-- `int_lkp_scrub_ms` (R499). -/
def intLkpScrubMs : Nat := key 0x1512 0
/-- `int_cls_scrub_ms` (R499). -/
def intClsScrubMs : Nat := key 0x1513 0
/-- `int_mc_scrub_ms` (R499). -/
def intMcScrubMs : Nat := key 0x1514 0
/-- `int_inject` (R499). -/
def intInject : Nat := key 0x1520 0
/-- `int_inject_fired` (R499). -/
def intInjectFired : Nat := key 0x1521 0
/-- `int_cause` (R499). -/
def intCause : Nat := key 0x1530 0
/-- `int_cause_enable` (R499). -/
def intCauseEnable : Nat := key 0x1531 0
/-- `host_link` (R447). -/
def hostLink : Nat := key 0x1600 0
/-- `host_vendor_id` (R447). -/
def hostVendorId : Nat := key 0x1601 0
/-- `host_num_vfs` (R447). -/
def hostNumVfs : Nat := key 0x1602 0
/-- `vf_generation` (R447). -/
def vfGeneration (v : Nat) : Nat := keyIf (decide (v < 64)) (key 0x1610 v)
/-- `vf_ring_grant` (R447). -/
def vfRingGrant (v : Nat) : Nat := keyIf (decide (1 ≤ v) && decide (v < 64)) (key 0x1611 v)
/-- `vf_od_grant` (R447). -/
def vfOdGrant (v : Nat) : Nat := keyIf (decide (1 ≤ v) && decide (v < 64)) (key 0x1612 v)
/-- `vf_ctr_window` (R447). -/
def vfCtrWindow (v : Nat) : Nat := keyIf (decide (1 ≤ v) && decide (v < 64)) (key 0x1613 v)
/-- `vf_inject_queues` (R447). -/
def vfInjectQueues (v : Nat) : Nat := keyIf (decide (1 ≤ v) && decide (v < 64)) (key 0x1614 v)
/-- `vf_inject_ports` (R447). -/
def vfInjectPorts (v : Nat) : Nat := keyIf (decide (1 ≤ v) && decide (v < 64)) (key 0x1615 v)
/-- `vf_flr_count` (R447). -/
def vfFlrCount (v : Nat) : Nat := keyIf (decide (1 ≤ v) && decide (v < 64)) (key 0x1616 v)
/-- `vf_reset` (R447). -/
def vfReset (v : Nat) : Nat := keyIf (decide (1 ≤ v) && decide (v < 64)) (key 0x1617 v)
/-- `vf_dirty_regions` (R447). -/
def vfDirtyRegions (v : Nat) : Nat := keyIf (decide (1 ≤ v) && decide (v < 64)) (key 0x1618 v)
/-- `host_punt_bind_select` (R447). -/
def hostPuntBindSelect : Nat := key 0x1620 0
/-- `host_punt_bind` (R447). -/
def hostPuntBind : Nat := key 0x1621 0
/-- `host_ring_full_drops` (R447). -/
def hostRingFullDrops : Nat := key 0x1622 0
/-- `host_vf_reset_drops` (R447). -/
def hostVfResetDrops : Nat := key 0x1623 0
/-- `host_stale_completions` (R447). -/
def hostStaleCompletions : Nat := key 0x1624 0
/-- `host_dma_errors` (R447). -/
def hostDmaErrors : Nat := key 0x1625 0
/-- `host_inject_refused` (R447). -/
def hostInjectRefused : Nat := key 0x1626 0
/-- `host_doorbell_errors` (R447). -/
def hostDoorbellErrors : Nat := key 0x1627 0
/-- `ring_punt_base` (R447). -/
def ringPuntBase (r : Nat) : Nat := keyIf (decide (r < 8)) (key 0x1630 r)
/-- `ring_punt_size` (R447). -/
def ringPuntSize (r : Nat) : Nat := keyIf (decide (r < 8)) (key 0x1631 r)
/-- `ring_punt_wb` (R447). -/
def ringPuntWb (r : Nat) : Nat := keyIf (decide (r < 8)) (key 0x1632 r)
/-- `ring_punt_ctrl` (R447). -/
def ringPuntCtrl (r : Nat) : Nat := keyIf (decide (r < 8)) (key 0x1633 r)
/-- `ring_punt_consumed` (R447). -/
def ringPuntConsumed (r : Nat) : Nat := keyIf (decide (r < 8)) (key 0x1634 r)
/-- `ring_inj_base` (R447). -/
def ringInjBase (r : Nat) : Nat := keyIf (decide (r < 8)) (key 0x1638 r)
/-- `ring_inj_size` (R447). -/
def ringInjSize (r : Nat) : Nat := keyIf (decide (r < 8)) (key 0x1639 r)
/-- `ring_inj_wb` (R447). -/
def ringInjWb (r : Nat) : Nat := keyIf (decide (r < 8)) (key 0x163A r)
/-- `ring_inj_ctrl` (R447). -/
def ringInjCtrl (r : Nat) : Nat := keyIf (decide (r < 8)) (key 0x163B r)
/-- `ring_inj_consumed` (R447). -/
def ringInjConsumed (r : Nat) : Nat := keyIf (decide (r < 8)) (key 0x163C r)
/-- `vf_vector_groups` (R447). -/
def vfVectorGroups (v : Nat) : Nat := keyIf (decide (v < 16)) (key 0x1650 v)
/-- `ctr_export_addr` (R447). -/
def ctrExportAddr : Nat := key 0x1660 0
/-- `ctr_export_period_us` (R447). -/
def ctrExportPeriodUs : Nat := key 0x1661 0
/-- `ctr_export_enable` (R447). -/
def ctrExportEnable : Nat := key 0x1662 0
/-- `ctr_export_seq` (R447). -/
def ctrExportSeq : Nat := key 0x1663 0
/-- `host_cause` (R447). -/
def hostCause : Nat := key 0x1670 0
/-- `host_cause_enable` (R447). -/
def hostCauseEnable : Nat := key 0x1671 0
/-- `vf_cause` (R447). -/
def vfCause : Nat := key 0x1672 0
/-- `vf_cause_enable` (R447). -/
def vfCauseEnable : Nat := key 0x1673 0
/-- `cw_log` (R427). -/
def cwLog : Nat := key 0x1700 0
/-- `cw_log_count` (R427). -/
def cwLogCount : Nat := key 0x1701 0
/-- `cw_summary` (R427). -/
def cwSummary : Nat := key 0x1702 0
/-- `port_role` (R79). -/
def portRole (p : Nat) : Nat := keyIf (decide (p < 1024)) (key (0x2000 + p) 0)
/-- `port_mode` (R79). -/
def portMode (p : Nat) : Nat := keyIf (decide (p < 1024)) (key (0x2000 + p) 1)
/-- `port_admin_up` (R79). -/
def portAdminUp (p : Nat) : Nat := keyIf (decide (p < 1024)) (key (0x2000 + p) 2)
/-- `port_link_up` (R79). -/
def portLinkUp (p : Nat) : Nat := keyIf (decide (p < 1024)) (key (0x2000 + p) 3)
/-- `port_fec` (R79). -/
def portFec (p : Nat) : Nat := keyIf (decide (p < 1024)) (key (0x2000 + p) 4)
/-- `port_link_up_hold_ms` (R79). -/
def portLinkUpHoldMs (p : Nat) : Nat := keyIf (decide (p < 1024)) (key (0x2000 + p) 5)
/-- `port_max_frame` (R79). -/
def portMaxFrame (p : Nat) : Nat := keyIf (decide (p < 1024)) (key (0x2000 + p) 7)
/-- `port_da_entry` (R79). -/
def portDaEntry (p i : Nat) : Nat := keyIf (decide (p < 1024) && decide (i < 8)) (key (0x2000 + p) (8 + i))
/-- `port_da_enable` (R79). -/
def portDaEnable (p : Nat) : Nat := keyIf (decide (p < 1024)) (key (0x2000 + p) 0x10)
/-- `port_da_filter_on` (R79). -/
def portDaFilterOn (p : Nat) : Nat := keyIf (decide (p < 1024)) (key (0x2000 + p) 0x11)
/-- `port_fc_mode` (R79). -/
def portFcMode (p : Nat) : Nat := keyIf (decide (p < 1024)) (key (0x2000 + p) 0x12)
/-- `port_pfc_enable_mask` (R79). -/
def portPfcEnableMask (p : Nat) : Nat := keyIf (decide (p < 1024)) (key (0x2000 + p) 0x13)
/-- `port_pause_quanta` (R79). -/
def portPauseQuanta (p : Nat) : Nat := keyIf (decide (p < 1024)) (key (0x2000 + p) 0x14)
/-- `port_egg_enable` (R79). -/
def portEggEnable (p : Nat) : Nat := keyIf (decide (p < 1024)) (key (0x2000 + p) 0x15)
/-- `port_egg_time_ms` (R79). -/
def portEggTimeMs (p : Nat) : Nat := keyIf (decide (p < 1024)) (key (0x2000 + p) 0x16)
/-- `port_egg_hold_ms` (R79). -/
def portEggHoldMs (p : Nat) : Nat := keyIf (decide (p < 1024)) (key (0x2000 + p) 0x17)
/-- `port_egg_state` (R79). -/
def portEggState (p : Nat) : Nat := keyIf (decide (p < 1024)) (key (0x2000 + p) 0x18)
/-- `port_ptp_enable` (R79). -/
def portPtpEnable (p : Nat) : Nat := keyIf (decide (p < 1024)) (key (0x2000 + p) 0x19)
/-- `port_ptp_rx_corr_ps` (R79). -/
def portPtpRxCorrPs (p : Nat) : Nat := keyIf (decide (p < 1024)) (key (0x2000 + p) 0x1A)
/-- `port_ptp_tx_corr_ps` (R79). -/
def portPtpTxCorrPs (p : Nat) : Nat := keyIf (decide (p < 1024)) (key (0x2000 + p) 0x1B)
/-- `port_ts_fifo` (R79). -/
def portTsFifo (p : Nat) : Nat := keyIf (decide (p < 1024)) (key (0x2000 + p) 0x1C)
/-- `port_ts_fifo_drops` (R79). -/
def portTsFifoDrops (p : Nat) : Nat := keyIf (decide (p < 1024)) (key (0x2000 + p) 0x1D)
/-- `port_cause` (R79). -/
def portCause (p : Nat) : Nat := keyIf (decide (p < 1024)) (key (0x2000 + p) 0x1E)
/-- `port_cause_enable` (R79). -/
def portCauseEnable (p : Nat) : Nat := keyIf (decide (p < 1024)) (key (0x2000 + p) 0x1F)
/-- `port_flexe_group` (R79). -/
def portFlexeGroup (p : Nat) : Nat := keyIf (decide (p < 1024)) (key (0x2000 + p) 0x20)
/-- `port_flexe_phy_number` (R79). -/
def portFlexePhyNumber (p : Nat) : Nat := keyIf (decide (p < 1024)) (key (0x2000 + p) 0x21)
/-- `port_flexe_client_id` (R79). -/
def portFlexeClientId (p : Nat) : Nat := keyIf (decide (p < 1024)) (key (0x2000 + p) 0x22)
/-- `port_flexe_calendar` (R79). -/
def portFlexeCalendar (p : Nat) : Nat := keyIf (decide (p < 1024)) (key (0x2000 + p) 0x23)
/-- `port_flexe_cal_switch` (R79). -/
def portFlexeCalSwitch (p : Nat) : Nat := keyIf (decide (p < 1024)) (key (0x2000 + p) 0x24)
/-- `rx_frames_ok` (R74). -/
def rxFramesOk (p : Nat) : Nat := keyIf (decide (p < 1024)) (key (0x2000 + p) 0x40)
/-- `rx_bytes_ok` (R74). -/
def rxBytesOk (p : Nat) : Nat := keyIf (decide (p < 1024)) (key (0x2000 + p) 0x41)
/-- `tx_frames_ok` (R74). -/
def txFramesOk (p : Nat) : Nat := keyIf (decide (p < 1024)) (key (0x2000 + p) 0x42)
/-- `tx_bytes_ok` (R74). -/
def txBytesOk (p : Nat) : Nat := keyIf (decide (p < 1024)) (key (0x2000 + p) 0x43)
/-- `rx_fcs_errors` (R74). -/
def rxFcsErrors (p : Nat) : Nat := keyIf (decide (p < 1024)) (key (0x2000 + p) 0x44)
/-- `rx_undersize` (R74). -/
def rxUndersize (p : Nat) : Nat := keyIf (decide (p < 1024)) (key (0x2000 + p) 0x45)
/-- `rx_fragments` (R74). -/
def rxFragments (p : Nat) : Nat := keyIf (decide (p < 1024)) (key (0x2000 + p) 0x46)
/-- `rx_oversize` (R74). -/
def rxOversize (p : Nat) : Nat := keyIf (decide (p < 1024)) (key (0x2000 + p) 0x47)
/-- `rx_jabber` (R74). -/
def rxJabber (p : Nat) : Nat := keyIf (decide (p < 1024)) (key (0x2000 + p) 0x48)
/-- `rx_overflow` (R74). -/
def rxOverflow (p : Nat) : Nat := keyIf (decide (p < 1024)) (key (0x2000 + p) 0x49)
/-- `rx_throttle` (R74). -/
def rxThrottle (p : Nat) : Nat := keyIf (decide (p < 1024)) (key (0x2000 + p) 0x4A)
/-- `rx_addr_filtered` (R74). -/
def rxAddrFiltered (p : Nat) : Nat := keyIf (decide (p < 1024)) (key (0x2000 + p) 0x4B)
/-- `rx_pause` (R74). -/
def rxPause (p : Nat) : Nat := keyIf (decide (p < 1024)) (key (0x2000 + p) 0x4C)
/-- `tx_pause` (R74). -/
def txPause (p : Nat) : Nat := keyIf (decide (p < 1024)) (key (0x2000 + p) 0x4D)
/-- `tx_abort` (R74). -/
def txAbort (p : Nat) : Nat := keyIf (decide (p < 1024)) (key (0x2000 + p) 0x4E)
/-- `egg_fired` (R74). -/
def eggFired (p : Nat) : Nat := keyIf (decide (p < 1024)) (key (0x2000 + p) 0x4F)
/-- `fb_rx_octets` (R74). -/
def fbRxOctets (p : Nat) : Nat := keyIf (decide (p < 1024)) (key (0x2000 + p) 0x80)
/-- `fb_rx_pkts` (R74). -/
def fbRxPkts (p : Nat) : Nat := keyIf (decide (p < 1024)) (key (0x2000 + p) 0x81)
/-- `fb_rx_broadcast` (R74). -/
def fbRxBroadcast (p : Nat) : Nat := keyIf (decide (p < 1024)) (key (0x2000 + p) 0x82)
/-- `fb_rx_multicast` (R74). -/
def fbRxMulticast (p : Nat) : Nat := keyIf (decide (p < 1024)) (key (0x2000 + p) 0x83)
/-- `fb_rx_unicast` (R74). -/
def fbRxUnicast (p : Nat) : Nat := keyIf (decide (p < 1024)) (key (0x2000 + p) 0x84)
/-- `fb_rx_bin` (R74). -/
def fbRxBin (p i : Nat) : Nat := keyIf (decide (p < 1024) && decide (i < 10)) (key (0x2000 + p) (0x85 + i))
/-- `fb_rx_undersize` (R74). -/
def fbRxUndersize (p : Nat) : Nat := keyIf (decide (p < 1024)) (key (0x2000 + p) 0x8F)
/-- `fb_rx_fragments` (R74). -/
def fbRxFragments (p : Nat) : Nat := keyIf (decide (p < 1024)) (key (0x2000 + p) 0x90)
/-- `fb_rx_oversize` (R74). -/
def fbRxOversize (p : Nat) : Nat := keyIf (decide (p < 1024)) (key (0x2000 + p) 0x91)
/-- `fb_rx_jabber` (R74). -/
def fbRxJabber (p : Nat) : Nat := keyIf (decide (p < 1024)) (key (0x2000 + p) 0x92)
/-- `fb_rx_fcs_errors` (R74). -/
def fbRxFcsErrors (p : Nat) : Nat := keyIf (decide (p < 1024)) (key (0x2000 + p) 0x93)
/-- `fb_rx_vlan` (R74). -/
def fbRxVlan (p : Nat) : Nat := keyIf (decide (p < 1024)) (key (0x2000 + p) 0x94)
/-- `fb_rx_overflow` (R74). -/
def fbRxOverflow (p : Nat) : Nat := keyIf (decide (p < 1024)) (key (0x2000 + p) 0x95)
/-- `fb_rx_addr_filtered` (R74). -/
def fbRxAddrFiltered (p : Nat) : Nat := keyIf (decide (p < 1024)) (key (0x2000 + p) 0x96)
/-- `fb_rx_pause` (R74). -/
def fbRxPause (p : Nat) : Nat := keyIf (decide (p < 1024)) (key (0x2000 + p) 0x97)
/-- `fb_rx_pfc` (R74). -/
def fbRxPfc (p i : Nat) : Nat := keyIf (decide (p < 1024) && decide (i < 8)) (key (0x2000 + p) (0x98 + i))
/-- `fb_tx_octets` (R74). -/
def fbTxOctets (p : Nat) : Nat := keyIf (decide (p < 1024)) (key (0x2000 + p) 0xA0)
/-- `fb_tx_pkts` (R74). -/
def fbTxPkts (p : Nat) : Nat := keyIf (decide (p < 1024)) (key (0x2000 + p) 0xA1)
/-- `fb_tx_broadcast` (R74). -/
def fbTxBroadcast (p : Nat) : Nat := keyIf (decide (p < 1024)) (key (0x2000 + p) 0xA2)
/-- `fb_tx_multicast` (R74). -/
def fbTxMulticast (p : Nat) : Nat := keyIf (decide (p < 1024)) (key (0x2000 + p) 0xA3)
/-- `fb_tx_unicast` (R74). -/
def fbTxUnicast (p : Nat) : Nat := keyIf (decide (p < 1024)) (key (0x2000 + p) 0xA4)
/-- `fb_tx_bin` (R74). -/
def fbTxBin (p i : Nat) : Nat := keyIf (decide (p < 1024) && decide (i < 10)) (key (0x2000 + p) (0xA5 + i))
/-- `fb_tx_pause` (R74). -/
def fbTxPause (p : Nat) : Nat := keyIf (decide (p < 1024)) (key (0x2000 + p) 0xAF)
/-- `fb_tx_pfc` (R74). -/
def fbTxPfc (p i : Nat) : Nat := keyIf (decide (p < 1024) && decide (i < 8)) (key (0x2000 + p) (0xB0 + i))
/-- `fb_tx_abort` (R74). -/
def fbTxAbort (p : Nat) : Nat := keyIf (decide (p < 1024)) (key (0x2000 + p) 0xB8)
/-- `lane_rate` (R80). -/
def laneRate (l : Nat) : Nat := keyIf (decide (l < 256)) (key (0x2400 + l) 0)
/-- `lane_rx_invert` (R80). -/
def laneRxInvert (l : Nat) : Nat := keyIf (decide (l < 256)) (key (0x2400 + l) 1)
/-- `lane_tx_invert` (R80). -/
def laneTxInvert (l : Nat) : Nat := keyIf (decide (l < 256)) (key (0x2400 + l) 2)
/-- `lane_signal` (R80). -/
def laneSignal (l : Nat) : Nat := keyIf (decide (l < 256)) (key (0x2400 + l) 3)
/-- `lane_fec_corrected` (R80). -/
def laneFecCorrected (l : Nat) : Nat := keyIf (decide (l < 256)) (key (0x2400 + l) 4)
/-- `lane_fec_uncorrected` (R80). -/
def laneFecUncorrected (l : Nat) : Nat := keyIf (decide (l < 256)) (key (0x2400 + l) 5)
/-- `lane_prbs_mode` (R80). -/
def lanePrbsMode (l : Nat) : Nat := keyIf (decide (l < 256)) (key (0x2400 + l) 6)
/-- `lane_prbs_errors` (R80). -/
def lanePrbsErrors (l : Nat) : Nat := keyIf (decide (l < 256)) (key (0x2400 + l) 7)
/-- `lane_loopback` (R80). -/
def laneLoopback (l : Nat) : Nat := keyIf (decide (l < 256)) (key (0x2400 + l) 8)
/-- `lane_cause` (R80). -/
def laneCause (l : Nat) : Nat := keyIf (decide (l < 256)) (key (0x2400 + l) 9)
/-- `lane_cause_enable` (R80). -/
def laneCauseEnable (l : Nat) : Nat := keyIf (decide (l < 256)) (key (0x2400 + l) 0xA)
/-- `fl_bundle` (R320). -/
def flBundle (l : Nat) : Nat := keyIf (decide (l < 320)) (key (0x2500 + l) 0)
/-- `fl_enable` (R320). -/
def flEnable (l : Nat) : Nat := keyIf (decide (l < 320)) (key (0x2500 + l) 1)
/-- `fl_rx_invert` (R320). -/
def flRxInvert (l : Nat) : Nat := keyIf (decide (l < 320)) (key (0x2500 + l) 2)
/-- `fl_tx_invert` (R320). -/
def flTxInvert (l : Nat) : Nat := keyIf (decide (l < 320)) (key (0x2500 + l) 3)
/-- `fl_state` (R320). -/
def flState (l : Nat) : Nat := keyIf (decide (l < 320)) (key (0x2500 + l) 4)
/-- `fl_rx_lane_id` (R320). -/
def flRxLaneId (l : Nat) : Nat := keyIf (decide (l < 320)) (key (0x2500 + l) 5)
/-- `fl_defects` (R320). -/
def flDefects (l : Nat) : Nat := keyIf (decide (l < 320)) (key (0x2500 + l) 6)
/-- `fl_skew_ps` (R320). -/
def flSkewPs (l : Nat) : Nat := keyIf (decide (l < 320)) (key (0x2500 + l) 7)
/-- `fl_fec_corrected` (R320). -/
def flFecCorrected (l : Nat) : Nat := keyIf (decide (l < 320)) (key (0x2500 + l) 8)
/-- `fl_fec_uncorrected` (R320). -/
def flFecUncorrected (l : Nat) : Nat := keyIf (decide (l < 320)) (key (0x2500 + l) 9)
/-- `fl_bip8_errors` (R320). -/
def flBip8Errors (l : Nat) : Nat := keyIf (decide (l < 320)) (key (0x2500 + l) 0xA)
/-- `fl_far_errors` (R320). -/
def flFarErrors (l : Nat) : Nat := keyIf (decide (l < 320)) (key (0x2500 + l) 0xB)
/-- `fl_crc8_errors` (R320). -/
def flCrc8Errors (l : Nat) : Nat := keyIf (decide (l < 320)) (key (0x2500 + l) 0xC)
/-- `fl_mf_errors` (R320). -/
def flMfErrors (l : Nat) : Nat := keyIf (decide (l < 320)) (key (0x2500 + l) 0xD)
/-- `fl_prbs_mode` (R320). -/
def flPrbsMode (l : Nat) : Nat := keyIf (decide (l < 320)) (key (0x2500 + l) 0xE)
/-- `fl_prbs_errors` (R320). -/
def flPrbsErrors (l : Nat) : Nat := keyIf (decide (l < 320)) (key (0x2500 + l) 0xF)
/-- `fl_loopback` (R320). -/
def flLoopback (l : Nat) : Nat := keyIf (decide (l < 320)) (key (0x2500 + l) 0x10)
/-- `fl_pm_current` (R320). -/
def flPmCurrent (l : Nat) : Nat := keyIf (decide (l < 320)) (key (0x2500 + l) 0x11)
/-- `fl_pm_history` (R320). -/
def flPmHistory (l : Nat) : Nat := keyIf (decide (l < 320)) (key (0x2500 + l) 0x12)
/-- `fl_cause` (R320). -/
def flCause (l : Nat) : Nat := keyIf (decide (l < 320)) (key (0x2500 + l) 0x13)
/-- `fl_cause_enable` (R320). -/
def flCauseEnable (l : Nat) : Nat := keyIf (decide (l < 320)) (key (0x2500 + l) 0x14)
/-- `fb_tx_lane_set` (R321). -/
def fbTxLaneSet (b : Nat) : Nat := keyIf (decide (b < 8)) (key (0x2700 + b) 0)
/-- `fb_rx_lane_set` (R321). -/
def fbRxLaneSet (b : Nat) : Nat := keyIf (decide (b < 8)) (key (0x2700 + b) 1)
/-- `fb_shed_floor` (R321). -/
def fbShedFloor (b : Nat) : Nat := keyIf (decide (b < 8)) (key (0x2700 + b) 2)
/-- `fb_shed_enable` (R321). -/
def fbShedEnable (b : Nat) : Nat := keyIf (decide (b < 8)) (key (0x2700 + b) 3)
/-- `fb_shed_low_pct` (R321). -/
def fbShedLowPct (b : Nat) : Nat := keyIf (decide (b < 8)) (key (0x2700 + b) 4)
/-- `fb_shed_high_pct` (R321). -/
def fbShedHighPct (b : Nat) : Nat := keyIf (decide (b < 8)) (key (0x2700 + b) 5)
/-- `fb_quiet_enable` (R321). -/
def fbQuietEnable (b : Nat) : Nat := keyIf (decide (b < 8)) (key (0x2700 + b) 6)
/-- `fb_auto_remove` (R321). -/
def fbAutoRemove (b : Nat) : Nat := keyIf (decide (b < 8)) (key (0x2700 + b) 7)
/-- `fb_lane_set_arg` (R321). -/
def fbLaneSetArg (b : Nat) : Nat := keyIf (decide (b < 8)) (key (0x2700 + b) 8)
/-- `fb_lane_set_change` (R321). -/
def fbLaneSetChange (b : Nat) : Nat := keyIf (decide (b < 8)) (key (0x2700 + b) 9)
/-- `fb_ptr_state` (R321). -/
def fbPtrState (b : Nat) : Nat := keyIf (decide (b < 8)) (key (0x2700 + b) 0xA)
/-- `fb_ptr_value` (R321). -/
def fbPtrValue (b : Nat) : Nat := keyIf (decide (b < 8)) (key (0x2700 + b) 0xB)
/-- `fb_ptr_inc` (R321). -/
def fbPtrInc (b : Nat) : Nat := keyIf (decide (b < 8)) (key (0x2700 + b) 0xC)
/-- `fb_ptr_dec` (R321). -/
def fbPtrDec (b : Nat) : Nat := keyIf (decide (b < 8)) (key (0x2700 + b) 0xD)
/-- `fb_ptr_new` (R321). -/
def fbPtrNew (b : Nat) : Nat := keyIf (decide (b < 8)) (key (0x2700 + b) 0xE)
/-- `fb_ptr_invalid` (R321). -/
def fbPtrInvalid (b : Nat) : Nat := keyIf (decide (b < 8)) (key (0x2700 + b) 0xF)
/-- `fb_tx_adjust` (R321). -/
def fbTxAdjust (b : Nat) : Nat := keyIf (decide (b < 8)) (key (0x2700 + b) 0x10)
/-- `fb_path_defects` (R321). -/
def fbPathDefects (b : Nat) : Nat := keyIf (decide (b < 8)) (key (0x2700 + b) 0x11)
/-- `fb_bip16_errors` (R321). -/
def fbBip16Errors (b : Nat) : Nat := keyIf (decide (b < 8)) (key (0x2700 + b) 0x12)
/-- `fb_far_path_errors` (R321). -/
def fbFarPathErrors (b : Nat) : Nat := keyIf (decide (b < 8)) (key (0x2700 + b) 0x13)
/-- `fb_po_crc_errors` (R321). -/
def fbPoCrcErrors (b : Nat) : Nat := keyIf (decide (b < 8)) (key (0x2700 + b) 0x14)
/-- `fb_trace_tx` (R321). -/
def fbTraceTx (b : Nat) : Nat := keyIf (decide (b < 8)) (key (0x2700 + b) 0x15)
/-- `fb_trace_expected` (R321). -/
def fbTraceExpected (b : Nat) : Nat := keyIf (decide (b < 8)) (key (0x2700 + b) 0x16)
/-- `fb_trace_rx` (R321). -/
def fbTraceRx (b : Nat) : Nat := keyIf (decide (b < 8)) (key (0x2700 + b) 0x17)
/-- `fb_tim_enable` (R321). -/
def fbTimEnable (b : Nat) : Nat := keyIf (decide (b < 8)) (key (0x2700 + b) 0x18)
/-- `fb_src_expected` (R321). -/
def fbSrcExpected (b : Nat) : Nat := keyIf (decide (b < 8)) (key (0x2700 + b) 0x19)
/-- `fb_src_check` (R321). -/
def fbSrcCheck (b : Nat) : Nat := keyIf (decide (b < 8)) (key (0x2700 + b) 0x1A)
/-- `fb_src_rx` (R321). -/
def fbSrcRx (b : Nat) : Nat := keyIf (decide (b < 8)) (key (0x2700 + b) 0x1B)
/-- `fb_pm_current` (R321). -/
def fbPmCurrent (b : Nat) : Nat := keyIf (decide (b < 8)) (key (0x2700 + b) 0x1C)
/-- `fb_pm_history` (R321). -/
def fbPmHistory (b : Nat) : Nat := keyIf (decide (b < 8)) (key (0x2700 + b) 0x1D)
/-- `fb_mgmt_tx_packets` (R321). -/
def fbMgmtTxPackets (b : Nat) : Nat := keyIf (decide (b < 8)) (key (0x2700 + b) 0x1E)
/-- `fb_mgmt_rx_packets` (R321). -/
def fbMgmtRxPackets (b : Nat) : Nat := keyIf (decide (b < 8)) (key (0x2700 + b) 0x1F)
/-- `fb_mgmt_rx_crc_errors` (R321). -/
def fbMgmtRxCrcErrors (b : Nat) : Nat := keyIf (decide (b < 8)) (key (0x2700 + b) 0x20)
/-- `fb_ls_changes` (R321). -/
def fbLsChanges (b : Nat) : Nat := keyIf (decide (b < 8)) (key (0x2700 + b) 0x21)
/-- `fb_ls_refused` (R321). -/
def fbLsRefused (b : Nat) : Nat := keyIf (decide (b < 8)) (key (0x2700 + b) 0x22)
/-- `fb_ls_timeouts` (R321). -/
def fbLsTimeouts (b : Nat) : Nat := keyIf (decide (b < 8)) (key (0x2700 + b) 0x23)
/-- `fb_cause` (R321). -/
def fbCause (b : Nat) : Nat := keyIf (decide (b < 8)) (key (0x2700 + b) 0x24)
/-- `fb_cause_enable` (R321). -/
def fbCauseEnable (b : Nat) : Nat := keyIf (decide (b < 8)) (key (0x2700 + b) 0x25)
/-- `ft_device_id` (R353). -/
def ftDeviceId : Nat := key 0x2800 0
/-- `ft_beacon_enable` (R353). -/
def ftBeaconEnable : Nat := key 0x2801 0
/-- `ft_bundle_route_enable` (R353). -/
def ftBundleRouteEnable : Nat := key 0x2802 0
/-- `ft_horizon_ns` (R353). -/
def ftHorizonNs : Nat := key 0x2803 0
/-- `ft_probe_us` (R353). -/
def ftProbeUs : Nat := key 0x2804 0
/-- `ft_reorder_window` (R353). -/
def ftReorderWindow : Nat := key 0x2805 0
/-- `ft_reorder_timeout_ns` (R353). -/
def ftReorderTimeoutNs : Nat := key 0x2806 0
/-- `ft_reassembly_timeout_us` (R353). -/
def ftReassemblyTimeoutUs : Nat := key 0x2807 0
/-- `ft_rx_pool` (R353). -/
def ftRxPool : Nat := key 0x2808 0
/-- `ft_rx_max_frame` (R353). -/
def ftRxMaxFrame : Nat := key 0x2809 0
/-- `ft_rx_cut_through` (R353). -/
def ftRxCutThrough : Nat := key 0x280A 0
/-- `ft_max_request_units` (R353). -/
def ftMaxRequestUnits : Nat := key 0x280B 0
/-- `ft_return_ns` (R353). -/
def ftReturnNs : Nat := key 0x280C 0
/-- `ft_request_timeout_us` (R353). -/
def ftRequestTimeoutUs : Nat := key 0x280D 0
/-- `ft_grant_budget_kib` (R353). -/
def ftGrantBudgetKib : Nat := key 0x280E 0
/-- `ft_grant_speedup_pct` (R353). -/
def ftGrantSpeedupPct : Nat := key 0x280F 0
/-- `ft_burgee_xoff` (R353). -/
def ftBurgeeXoff : Nat := key 0x2810 0
/-- `ft_burgee_xon` (R353). -/
def ftBurgeeXon : Nat := key 0x2811 0
/-- `ft_mc_map` (R353). -/
def ftMcMap : Nat := key 0x2812 0
/-- `ft_dest_select` (R353). -/
def ftDestSelect : Nat := key 0x2813 0
/-- `ft_dest_info` (R353). -/
def ftDestInfo : Nat := key 0x2814 0
/-- `ft_dest_list` (R353). -/
def ftDestList : Nat := key 0x2815 0
/-- `ft_dest_reachable` (R353). -/
def ftDestReachable : Nat := key 0x2816 0
/-- `ft_hdr_errors` (R353). -/
def ftHdrErrors (b : Nat) : Nat := keyIf (decide (b < 8)) (key 0x2820 b)
/-- `ft_relayed` (R353). -/
def ftRelayed (b : Nat) : Nat := keyIf (decide (b < 8)) (key 0x2821 b)
/-- `ft_relay_overflow` (R353). -/
def ftRelayOverflow (b : Nat) : Nat := keyIf (decide (b < 8)) (key 0x2822 b)
/-- `ft_burgee_held_ns` (R353). -/
def ftBurgeeHeldNs (b : Nat) : Nat := keyIf (decide (b < 8)) (key 0x2823 b)
/-- `ft_relay_no_route` (R353). -/
def ftRelayNoRoute : Nat := key 0x2830 0
/-- `ft_own_beacons` (R353). -/
def ftOwnBeacons : Nat := key 0x2831 0
/-- `ft_unnamed_discards` (R353). -/
def ftUnnamedDiscards : Nat := key 0x2832 0
/-- `ft_request_timeouts` (R353). -/
def ftRequestTimeouts : Nat := key 0x2833 0
/-- `ft_stale_pennants` (R353). -/
def ftStalePennants : Nat := key 0x2834 0
/-- `ft_reorder_full` (R353). -/
def ftReorderFull : Nat := key 0x2835 0
/-- `ft_seq_gaps` (R353). -/
def ftSeqGaps : Nat := key 0x2836 0
/-- `ft_orphan_segments` (R353). -/
def ftOrphanSegments : Nat := key 0x2837 0
/-- `ft_cause` (R353). -/
def ftCause : Nat := key 0x2840 0
/-- `ft_cause_enable` (R353). -/
def ftCauseEnable : Nat := key 0x2841 0
/-- `parser_tpid_ctag` (R100). -/
def parserTpidCtag : Nat := key 0x3000 0
/-- `parser_tpid_stag` (R100). -/
def parserTpidStag : Nat := key 0x3001 0
/-- `parser_tpid_extra` (R100). -/
def parserTpidExtra : Nat := key 0x3002 0
/-- `parser_vxlan_udp_port` (R100). -/
def parserVxlanUdpPort : Nat := key 0x3003 0
/-- `parser_mpls_payload` (R100). -/
def parserMplsPayload : Nat := key 0x3004 0
/-- `parser_ipv4_csum_check` (R100). -/
def parserIpv4CsumCheck : Nat := key 0x3005 0
/-- `parser_malformed_action` (R100). -/
def parserMalformedAction (c : Nat) : Nat := keyIf (decide (1 ≤ c) && decide (c < 13)) (key 0x3010 c)
/-- `parser_punt_queue` (R100). -/
def parserPuntQueue : Nat := key 0x3011 0
/-- `parser_malformed_count` (R100). -/
def parserMalformedCount (c : Nat) : Nat := keyIf (decide (1 ≤ c) && decide (c < 13)) (key 0x3020 c)
/-- `parser_depth_count` (R100). -/
def parserDepthCount : Nat := key 0x3021 0
/-- `parser_fragment_count` (R100). -/
def parserFragmentCount : Nat := key 0x3022 0
/-- `parser_cause` (R100). -/
def parserCause : Nat := key 0x3030 0
/-- `parser_cause_enable` (R100). -/
def parserCauseEnable : Nat := key 0x3031 0
/-- `cls_epoch_current` (R131). -/
def clsEpochCurrent : Nat := key 0x3100 0
/-- `cls_epoch_state` (R131). -/
def clsEpochState : Nat := key 0x3101 0
/-- `cls_epoch_swap` (R131). -/
def clsEpochSwap : Nat := key 0x3102 0
/-- `cls_epoch_inflight` (R131). -/
def clsEpochInflight (e : Nat) : Nat := keyIf (decide (e < 2)) (key 0x3103 e)
/-- `cls_epoch_label` (R131). -/
def clsEpochLabel (e : Nat) : Nat := keyIf (decide (e < 2)) (key 0x3104 e)
/-- `cls_last_retire_ns` (R131). -/
def clsLastRetireNs : Nat := key 0x3105 0
/-- `cls_stage_plan` (R131). -/
def clsStagePlan (e : Nat) : Nat := keyIf (decide (e < 2)) (key 0x3110 e)
/-- `cls_direct_table` (R131). -/
def clsDirectTable (e : Nat) : Nat := keyIf (decide (e < 2)) (key 0x3111 e)
/-- `cls_rewrite_profiles` (R131). -/
def clsRewriteProfiles (e : Nat) : Nat := keyIf (decide (e < 2)) (key 0x3112 e)
/-- `cls_trap_queue` (R131). -/
def clsTrapQueue (t : Nat) : Nat := keyIf (decide (t < 256)) (key 0x3120 t)
/-- `cls_compat_buckets` (R131). -/
def clsCompatBuckets : Nat := key 0x3121 0
/-- `cls_recirc_limit_count` (R131). -/
def clsRecircLimitCount : Nat := key 0x3130 0
/-- `cls_no_dest_count` (R131). -/
def clsNoDestCount : Nat := key 0x3131 0
/-- `cls_ptp_onestep_refused` (R131). -/
def clsPtpOnestepRefused : Nat := key 0x3132 0
/-- `cls_compat_bad_op` (R131). -/
def clsCompatBadOp : Nat := key 0x3133 0
/-- `learn_notices` (R131). -/
def learnNotices : Nat := key 0x3140 0
/-- `learn_rate` (R131). -/
def learnRate : Nat := key 0x3141 0
/-- `learn_burst` (R131). -/
def learnBurst : Nat := key 0x3142 0
/-- `learn_dedup_ms` (R131). -/
def learnDedupMs : Nat := key 0x3143 0
/-- `learn_dropped` (R131). -/
def learnDropped : Nat := key 0x3144 0
/-- `learn_suppressed` (R131). -/
def learnSuppressed : Nat := key 0x3145 0
/-- `cls_cause` (R131). -/
def clsCause : Nat := key 0x3150 0
/-- `cls_cause_enable` (R131). -/
def clsCauseEnable : Nat := key 0x3151 0
/-- `lkp_lpm_units_total` (R156). -/
def lkpLpmUnitsTotal : Nat := key 0x3200 0
/-- `lkp_lpm_units_used` (R156). -/
def lkpLpmUnitsUsed (k : Nat) : Nat := keyIf (decide (k < 8)) (key 0x3201 k)
/-- `lkp_lpm_units_high_pct` (R156). -/
def lkpLpmUnitsHighPct : Nat := key 0x3202 0
/-- `lkp_pivot_v4` (R156). -/
def lkpPivotV4 : Nat := key 0x3203 0
/-- `lkp_pivot_v6` (R156). -/
def lkpPivotV6 : Nat := key 0x3204 0
/-- `lkp_pivot_map` (R156). -/
def lkpPivotMap : Nat := key 0x3205 0
/-- `lkp_pivot_move_arg` (R156). -/
def lkpPivotMoveArg : Nat := key 0x3206 0
/-- `lkp_pivot_move` (R156). -/
def lkpPivotMove : Nat := key 0x3207 0
/-- `lkp_em_slots_used` (R156). -/
def lkpEmSlotsUsed (k : Nat) : Nat := keyIf (decide (k < 8)) (key 0x3210 k)
/-- `lkp_em_insert_refused` (R156). -/
def lkpEmInsertRefused : Nat := key 0x3211 0
/-- `lkp_em_relocations` (R156). -/
def lkpEmRelocations : Nat := key 0x3212 0
/-- `lkp_ecmp_fields` (R156). -/
def lkpEcmpFields : Nat := key 0x3220 0
/-- `lkp_ecmp_seed` (R156). -/
def lkpEcmpSeed : Nat := key 0x3221 0
/-- `lkp_nh_invalid` (R156). -/
def lkpNhInvalid : Nat := key 0x3222 0
/-- `lkp_load` (R156). -/
def lkpLoad : Nat := key 0x3230 0
/-- `lkp_apply` (R156). -/
def lkpApply : Nat := key 0x3231 0
/-- `lkp_apply_mode` (R156). -/
def lkpApplyMode : Nat := key 0x3232 0
/-- `lkp_apply_done` (R156). -/
def lkpApplyDone : Nat := key 0x3233 0
/-- `lkp_apply_error_index` (R156). -/
def lkpApplyErrorIndex : Nat := key 0x3234 0
/-- `lkp_apply_error_code` (R156). -/
def lkpApplyErrorCode : Nat := key 0x3235 0
/-- `lkp_dump_select` (R156). -/
def lkpDumpSelect : Nat := key 0x3236 0
/-- `lkp_dump` (R156). -/
def lkpDump : Nat := key 0x3237 0
/-- `lkp_lookups` (R156). -/
def lkpLookups (k : Nat) : Nat := keyIf (decide (k < 8)) (key 0x3240 k)
/-- `lkp_steal_cycles` (R156). -/
def lkpStealCycles (k : Nat) : Nat := keyIf (decide (k < 8)) (key 0x3241 k)
/-- `lkp_wait_cycles` (R156). -/
def lkpWaitCycles (k : Nat) : Nat := keyIf (decide (k < 8)) (key 0x3242 k)
/-- `lkp_rebuilds` (R156). -/
def lkpRebuilds (k : Nat) : Nat := keyIf (decide (k < 8)) (key 0x3243 k)
/-- `lkp_cause` (R156). -/
def lkpCause : Nat := key 0x3250 0
/-- `lkp_cause_enable` (R156). -/
def lkpCauseEnable : Nat := key 0x3251 0
/-- `ase_bank_count` (R182). -/
def aseBankCount : Nat := key 0x3300 0
/-- `ase_high_mark` (R182). -/
def aseHighMark (k : Nat) : Nat := keyIf (decide (k < 8)) (key 0x3301 k)
/-- `ase_rules` (R182). -/
def aseRules (k : Nat) : Nat := keyIf (decide (k < 8)) (key 0x3302 k)
/-- `ase_update_budget` (R182). -/
def aseUpdateBudget : Nat := key 0x3303 0
/-- `ase_scrub_budget` (R182). -/
def aseScrubBudget : Nat := key 0x3304 0
/-- `ase_region_map` (R182). -/
def aseRegionMap (k : Nat) : Nat := keyIf (decide (k < 8)) (key 0x3305 k)
/-- `ase_load` (R182). -/
def aseLoad : Nat := key 0x3306 0
/-- `ase_apply` (R182). -/
def aseApply : Nat := key 0x3307 0
/-- `ase_apply_mode` (R182). -/
def aseApplyMode : Nat := key 0x3308 0
/-- `ase_apply_done` (R182). -/
def aseApplyDone : Nat := key 0x3309 0
/-- `ase_apply_error_index` (R182). -/
def aseApplyErrorIndex : Nat := key 0x330A 0
/-- `ase_apply_error_code` (R182). -/
def aseApplyErrorCode : Nat := key 0x330B 0
/-- `ase_dump_select` (R182). -/
def aseDumpSelect : Nat := key 0x330C 0
/-- `ase_dump` (R182). -/
def aseDump : Nat := key 0x330D 0
/-- `ase_searches` (R182). -/
def aseSearches (k : Nat) : Nat := keyIf (decide (k < 8)) (key 0x3310 k)
/-- `ase_hits` (R182). -/
def aseHits (k : Nat) : Nat := keyIf (decide (k < 8)) (key 0x3311 k)
/-- `ase_ties` (R182). -/
def aseTies (k : Nat) : Nat := keyIf (decide (k < 8)) (key 0x3312 k)
/-- `ase_last_tie` (R182). -/
def aseLastTie (k : Nat) : Nat := keyIf (decide (k < 8)) (key 0x3313 k)
/-- `ase_update_slots` (R182). -/
def aseUpdateSlots (k : Nat) : Nat := keyIf (decide (k < 8)) (key 0x3314 k)
/-- `ase_wait_cycles` (R182). -/
def aseWaitCycles (k : Nat) : Nat := keyIf (decide (k < 8)) (key 0x3315 k)
/-- `ase_shift_places` (R182). -/
def aseShiftPlaces (k : Nat) : Nat := keyIf (decide (k < 8)) (key 0x3316 k)
/-- `ase_scrub_sweeps` (R182). -/
def aseScrubSweeps (k : Nat) : Nat := keyIf (decide (k < 8)) (key 0x3320 k)
/-- `ase_scrub_repairs` (R182). -/
def aseScrubRepairs (k : Nat) : Nat := keyIf (decide (k < 8)) (key 0x3321 k)
/-- `ase_scrub_shadow_errors` (R182). -/
def aseScrubShadowErrors (k : Nat) : Nat := keyIf (decide (k < 8)) (key 0x3322 k)
/-- `ase_last_repair_row` (R182). -/
def aseLastRepairRow (k : Nat) : Nat := keyIf (decide (k < 8)) (key 0x3323 k)
/-- `ase_scrub_late` (R182). -/
def aseScrubLate (k : Nat) : Nat := keyIf (decide (k < 8)) (key 0x3324 k)
/-- `ase_temp` (R182). -/
def aseTemp (k : Nat) : Nat := keyIf (decide (k < 8)) (key 0x3330 k)
/-- `ase_throttle_level` (R182). -/
def aseThrottleLevel (k : Nat) : Nat := keyIf (decide (k < 8)) (key 0x3331 k)
/-- `ase_throttle_ns` (R182). -/
def aseThrottleNs (k : Nat) : Nat := keyIf (decide (k < 8)) (key 0x3332 k)
/-- `ase_cause` (R182). -/
def aseCause (k : Nat) : Nat := keyIf (decide (k < 8)) (key 0x3340 k)
/-- `ase_cause_enable` (R182). -/
def aseCauseEnable (k : Nat) : Nat := keyIf (decide (k < 8)) (key 0x3341 k)
/-- `mtr_count` (R200). -/
def mtrCount : Nat := key 0x3400 0
/-- `ctr_count` (R200). -/
def ctrCount : Nat := key 0x3401 0
/-- `len_overhead` (R200). -/
def lenOverhead (p : Nat) : Nat := keyIf (decide (p < 16)) (key 0x3402 p)
/-- `mtr_select` (R200). -/
def mtrSelect : Nat := key 0x3410 0
/-- `mtr_config` (R200). -/
def mtrConfig : Nat := key 0x3411 0
/-- `mtr_state` (R200). -/
def mtrState : Nat := key 0x3412 0
/-- `mtr_load` (R200). -/
def mtrLoad : Nat := key 0x3413 0
/-- `mtr_apply` (R200). -/
def mtrApply : Nat := key 0x3414 0
/-- `mtr_apply_done` (R200). -/
def mtrApplyDone : Nat := key 0x3415 0
/-- `mtr_apply_error_index` (R200). -/
def mtrApplyErrorIndex : Nat := key 0x3416 0
/-- `mtr_apply_error_code` (R200). -/
def mtrApplyErrorCode : Nat := key 0x3417 0
/-- `mtr_colour_count` (R200). -/
def mtrColourCount (c : Nat) : Nat := keyIf (decide (c < 3)) (key 0x3418 c)
/-- `mtr_disabled_hits` (R200). -/
def mtrDisabledHits : Nat := key 0x3419 0
/-- `mtr_corrections` (R200). -/
def mtrCorrections : Nat := key 0x341A 0
/-- `ctr_select` (R200). -/
def ctrSelect : Nat := key 0x3420 0
/-- `ctr_pkts` (R200). -/
def ctrPkts : Nat := key 0x3421 0
/-- `ctr_bytes` (R200). -/
def ctrBytes : Nat := key 0x3422 0
/-- `ctr_clear` (R200). -/
def ctrClear : Nat := key 0x3423 0
/-- `ctr_sweep_base` (R200). -/
def ctrSweepBase : Nat := key 0x3424 0
/-- `ctr_sweep_count` (R200). -/
def ctrSweepCount : Nat := key 0x3425 0
/-- `ctr_sweep_clear` (R200). -/
def ctrSweepClear : Nat := key 0x3426 0
/-- `ctr_sweep` (R200). -/
def ctrSweep : Nat := key 0x3427 0
/-- `ctr_sweep_data` (R200). -/
def ctrSweepData : Nat := key 0x3428 0
/-- `mtr_residue_faults` (R200). -/
def mtrResidueFaults : Nat := key 0x3430 0
/-- `ctr_residue_faults` (R200). -/
def ctrResidueFaults : Nat := key 0x3431 0
/-- `mc_last_fault` (R200). -/
def mcLastFault : Nat := key 0x3432 0
/-- `mc_cause` (R200). -/
def mcCause : Nat := key 0x3440 0
/-- `mc_cause_enable` (R200). -/
def mcCauseEnable : Nat := key 0x3441 0
/-- `pm_cells_total` (R229). -/
def pmCellsTotal : Nat := key 0x4000 0
/-- `pm_pages_total` (R229). -/
def pmPagesTotal : Nat := key 0x4001 0
/-- `pool_desc` (R229). -/
def poolDesc (n : Nat) : Nat := keyIf (decide (n < 32)) (key 0x4002 n)
/-- `pool_free` (R229). -/
def poolFree (n : Nat) : Nat := keyIf (decide (n < 32)) (key 0x4003 n)
/-- `pool_used` (R229). -/
def poolUsed (n : Nat) : Nat := keyIf (decide (n < 32)) (key 0x4004 n)
/-- `pool_shared_size` (R229). -/
def poolSharedSize (n : Nat) : Nat := keyIf (decide (n < 32)) (key 0x4005 n)
/-- `pool_headroom` (R229). -/
def poolHeadroom (n : Nat) : Nat := keyIf (decide (n < 32)) (key 0x4006 n)
/-- `pool_guarantee_sum` (R229). -/
def poolGuaranteeSum (n : Nat) : Nat := keyIf (decide (n < 32)) (key 0x4007 n)
/-- `pool_shared_used` (R229). -/
def poolSharedUsed (n : Nat) : Nat := keyIf (decide (n < 32)) (key 0x4008 n)
/-- `pool_watermark` (R229). -/
def poolWatermark (n : Nat) : Nat := keyIf (decide (n < 32)) (key 0x4009 n)
/-- `pool_quarantined` (R229). -/
def poolQuarantined (n : Nat) : Nat := keyIf (decide (n < 32)) (key 0x400A n)
/-- `pool_low_units` (R229). -/
def poolLowUnits (n : Nat) : Nat := keyIf (decide (n < 32)) (key 0x400B n)
/-- `pool_rebuilds` (R229). -/
def poolRebuilds (n : Nat) : Nat := keyIf (decide (n < 32)) (key 0x400C n)
/-- `pool_leaked` (R229). -/
def poolLeaked (n : Nat) : Nat := keyIf (decide (n < 32)) (key 0x400D n)
/-- `adm_profile` (R229). -/
def admProfile (p : Nat) : Nat := keyIf (decide (p < 256)) (key 0x4010 p)
/-- `fc_xoff_cells` (R229). -/
def fcXoffCells (f : Nat) : Nat := keyIf (decide (f < 16)) (key 0x4020 f)
/-- `fc_xon_cells` (R229). -/
def fcXonCells (f : Nat) : Nat := keyIf (decide (f < 16)) (key 0x4021 f)
/-- `pm_port_map` (R229). -/
def pmPortMap : Nat := key 0x4022 0
/-- `spill_prefetch_pages` (R229). -/
def spillPrefetchPages : Nat := key 0x4030 0
/-- `spill_queues` (R229). -/
def spillQueues : Nat := key 0x4031 0
/-- `spill_entries` (R229). -/
def spillEntries : Nat := key 0x4032 0
/-- `spill_exits` (R229). -/
def spillExits : Nat := key 0x4033 0
/-- `spill_refused` (R229). -/
def spillRefused : Nat := key 0x4034 0
/-- `pm_ptr_faults` (R229). -/
def pmPtrFaults : Nat := key 0x4040 0
/-- `pm_last_ptr_fault` (R229). -/
def pmLastPtrFault : Nat := key 0x4041 0
/-- `pm_refcount_underflows` (R229). -/
def pmRefcountUnderflows : Nat := key 0x4042 0
/-- `pm_residue_faults` (R229). -/
def pmResidueFaults : Nat := key 0x4043 0
/-- `pm_chain_breaks` (R229). -/
def pmChainBreaks : Nat := key 0x4044 0
/-- `pm_cause` (R229). -/
def pmCause : Nat := key 0x4050 0
/-- `pm_cause_enable` (R229). -/
def pmCauseEnable : Nat := key 0x4051 0
/-- `hbm_stack_count` (R252). -/
def hbmStackCount : Nat := key 0x4100 0
/-- `hbm_stack_state` (R252). -/
def hbmStackState (s : Nat) : Nat := keyIf (decide (s < 4)) (key 0x4101 s)
/-- `hbm_init` (R252). -/
def hbmInit (s : Nat) : Nat := keyIf (decide (s < 4)) (key 0x4102 s)
/-- `hbm_offline` (R252). -/
def hbmOffline (s : Nat) : Nat := keyIf (decide (s < 4)) (key 0x4103 s)
/-- `hbm_rate` (R252). -/
def hbmRate : Nat := key 0x4104 0
/-- `hbm_rate_pin` (R252). -/
def hbmRatePin : Nat := key 0x4105 0
/-- `hbm_rate_changes` (R252). -/
def hbmRateChanges : Nat := key 0x4106 0
/-- `hbm_idle_enable` (R252). -/
def hbmIdleEnable : Nat := key 0x4107 0
/-- `hbm_idle_us` (R252). -/
def hbmIdleUs : Nat := key 0x4108 0
/-- `hbm_mode_regs` (R252). -/
def hbmModeRegs (s : Nat) : Nat := keyIf (decide (s < 4)) (key 0x4110 s)
/-- `hbm_t_refi_ns` (R252). -/
def hbmTRefiNs : Nat := key 0x4111 0
/-- `hbm_t_refi_hot_ns` (R252). -/
def hbmTRefiHotNs : Nat := key 0x4112 0
/-- `hbm_hot_c` (R252). -/
def hbmHotC : Nat := key 0x4113 0
/-- `hbm_t_rfc_ns` (R252). -/
def hbmTRfcNs : Nat := key 0x4114 0
/-- `hbm_t_rp_ns` (R252). -/
def hbmTRpNs : Nat := key 0x4115 0
/-- `hbm_t_rcd_ns` (R252). -/
def hbmTRcdNs : Nat := key 0x4116 0
/-- `hbm_timing_other` (R252). -/
def hbmTimingOther : Nat := key 0x4117 0
/-- `hbm_delay_8g0` (R252). -/
def hbmDelay8g0 (s : Nat) : Nat := keyIf (decide (s < 4)) (key 0x4120 s)
/-- `hbm_delay_6g4` (R252). -/
def hbmDelay6g4 (s : Nat) : Nat := keyIf (decide (s < 4)) (key 0x4121 s)
/-- `hbm_delay_4g0` (R252). -/
def hbmDelay4g0 (s : Nat) : Nat := keyIf (decide (s < 4)) (key 0x4122 s)
/-- `hbm_capture_arg` (R252). -/
def hbmCaptureArg : Nat := key 0x4130 0
/-- `hbm_capture` (R252). -/
def hbmCapture : Nat := key 0x4131 0
/-- `hbm_capture_result` (R252). -/
def hbmCaptureResult : Nat := key 0x4132 0
/-- `hbm_ecc_corrected` (R252). -/
def hbmEccCorrected (s : Nat) : Nat := keyIf (decide (s < 4)) (key 0x4140 s)
/-- `hbm_ecc_uncorrectable` (R252). -/
def hbmEccUncorrectable (s : Nat) : Nat := keyIf (decide (s < 4)) (key 0x4141 s)
/-- `hbm_last_ecc` (R252). -/
def hbmLastEcc (s : Nat) : Nat := keyIf (decide (s < 4)) (key 0x4142 s)
/-- `hbm_scrub_page_ns` (R252). -/
def hbmScrubPageNs : Nat := key 0x4143 0
/-- `hbm_scrub_position` (R252). -/
def hbmScrubPosition (s : Nat) : Nat := keyIf (decide (s < 4)) (key 0x4144 s)
/-- `hbm_scrub_sweeps` (R252). -/
def hbmScrubSweeps (s : Nat) : Nat := keyIf (decide (s < 4)) (key 0x4145 s)
/-- `hbm_port_target_ns` (R252). -/
def hbmPortTargetNs (p : Nat) : Nat := keyIf (decide (p < 5)) (key 0x4150 p)
/-- `hbm_deadline_miss` (R252). -/
def hbmDeadlineMiss (p : Nat) : Nat := keyIf (decide (p < 5)) (key 0x4151 p)
/-- `hbm_refresh_splits` (R252). -/
def hbmRefreshSplits (s : Nat) : Nat := keyIf (decide (s < 4)) (key 0x4152 s)
/-- `hbm_refresh_owed_max` (R252). -/
def hbmRefreshOwedMax (s : Nat) : Nat := keyIf (decide (s < 4)) (key 0x4153 s)
/-- `hbm_temp` (R252). -/
def hbmTemp (s : Nat) : Nat := keyIf (decide (s < 4)) (key 0x4160 s)
/-- `hbm_cause` (R252). -/
def hbmCause (s : Nat) : Nat := keyIf (decide (s < 4)) (key 0x4170 s)
/-- `hbm_cause_enable` (R252). -/
def hbmCauseEnable (s : Nat) : Nat := keyIf (decide (s < 4)) (key 0x4171 s)
/-- `qm_queue_count` (R284). -/
def qmQueueCount : Nat := key 0x4200 0
/-- `sch_select` (R284). -/
def schSelect : Nat := key 0x4201 0
/-- `sch_config` (R284). -/
def schConfig : Nat := key 0x4202 0
/-- `sch_state` (R284). -/
def schState : Nat := key 0x4203 0
/-- `qm_load` (R284). -/
def qmLoad : Nat := key 0x4204 0
/-- `qm_apply` (R284). -/
def qmApply : Nat := key 0x4205 0
/-- `qm_apply_mode` (R284). -/
def qmApplyMode : Nat := key 0x4206 0
/-- `qm_apply_done` (R284). -/
def qmApplyDone : Nat := key 0x4207 0
/-- `qm_apply_error_index` (R284). -/
def qmApplyErrorIndex : Nat := key 0x4208 0
/-- `qm_apply_error_code` (R284). -/
def qmApplyErrorCode : Nat := key 0x4209 0
/-- `port_class_map` (R284). -/
def portClassMap : Nat := key 0x4210 0
/-- `sch_quantum_bytes` (R284). -/
def schQuantumBytes : Nat := key 0x4211 0
/-- `aqm_profile` (R284). -/
def aqmProfile (a : Nat) : Nat := keyIf (decide (a < 16)) (key 0x4220 a)
/-- `aqm_marked` (R284). -/
def aqmMarked : Nat := key 0x4221 0
/-- `aqm_dropped` (R284). -/
def aqmDropped : Nat := key 0x4222 0
/-- `mc_pruned` (R284). -/
def mcPruned : Nat := key 0x4230 0
/-- `mc_empty_group` (R284). -/
def mcEmptyGroup : Nat := key 0x4231 0
/-- `mc_copies_refused` (R284). -/
def mcCopiesRefused : Nat := key 0x4232 0
/-- `mc_last_refusal` (R284). -/
def mcLastRefusal : Nat := key 0x4233 0
/-- `voq_template` (R284). -/
def voqTemplate (c : Nat) : Nat := keyIf (decide (c < 8)) (key 0x4240 c)
/-- `voq_idle_ms` (R284). -/
def voqIdleMs : Nat := key 0x4241 0
/-- `voq_bound` (R284). -/
def voqBound (n : Nat) : Nat := keyIf (decide (n < 16)) (key 0x4242 n)
/-- `voq_free` (R284). -/
def voqFree (n : Nat) : Nat := keyIf (decide (n < 16)) (key 0x4243 n)
/-- `voq_low_count` (R284). -/
def voqLowCount : Nat := key 0x4244 0
/-- `voq_binds` (R284). -/
def voqBinds : Nat := key 0x4245 0
/-- `voq_releases` (R284). -/
def voqReleases : Nat := key 0x4246 0
/-- `voq_unavailable` (R284). -/
def voqUnavailable : Nat := key 0x4247 0
/-- `voq_stray_grants` (R284). -/
def voqStrayGrants : Nat := key 0x4248 0
/-- `qm_no_queue` (R284). -/
def qmNoQueue : Nat := key 0x4250 0
/-- `qm_links_free` (R284). -/
def qmLinksFree (n : Nat) : Nat := keyIf (decide (n < 16)) (key 0x4251 n)
/-- `qm_links_exhausted` (R284). -/
def qmLinksExhausted : Nat := key 0x4252 0
/-- `sch_residue_faults` (R284). -/
def schResidueFaults : Nat := key 0x4253 0
/-- `qm_cause` (R284). -/
def qmCause : Nat := key 0x4260 0
/-- `qm_cause_enable` (R284). -/
def qmCauseEnable : Nat := key 0x4261 0
/-- `drop_total` (R377). -/
def dropTotal (r : Nat) : Nat := keyIf (decide (r < 64)) (key 0x5000 r)
/-- `drop_unattributed` (R377). -/
def dropUnattributed (r : Nat) : Nat := keyIf (decide (r < 64)) (key 0x5001 r)
/-- `ledger_last` (R377). -/
def ledgerLast : Nat := key 0x5010 0
/-- `ledger_history` (R377). -/
def ledgerHistory : Nat := key 0x5011 0
/-- `ledger_mismatches` (R377). -/
def ledgerMismatches : Nat := key 0x5012 0
/-- `ledger_last_mismatch` (R377). -/
def ledgerLastMismatch : Nat := key 0x5013 0
/-- `perf_overflow` (R377). -/
def perfOverflow : Nat := key 0x5020 0
/-- `mirror_session` (R377). -/
def mirrorSession (s : Nat) : Nat := keyIf (decide (1 ≤ s) && decide (s < 16)) (key 0x5030 s)
/-- `mirror_lost` (R377). -/
def mirrorLost (s : Nat) : Nat := keyIf (decide (1 ≤ s) && decide (s < 16)) (key 0x5031 s)
/-- `sampler` (R377). -/
def sampler (n : Nat) : Nat := keyIf (decide (n < 64)) (key 0x5040 n)
/-- `sampler_taken` (R377). -/
def samplerTaken (n : Nat) : Nat := keyIf (decide (n < 64)) (key 0x5041 n)
/-- `hist_monitor` (R377). -/
def histMonitor (m : Nat) : Nat := keyIf (decide (m < 64)) (key 0x5050 m)
/-- `hist_bins` (R377). -/
def histBins (m : Nat) : Nat := keyIf (decide (m < 64)) (key 0x5051 m)
/-- `hist_clear` (R377). -/
def histClear (m : Nat) : Nat := keyIf (decide (m < 64)) (key 0x5052 m)
/-- `qwm_select` (R377). -/
def qwmSelect : Nat := key 0x5060 0
/-- `qwm_value` (R377). -/
def qwmValue : Nat := key 0x5061 0
/-- `ens_enable` (R377). -/
def ensEnable : Nat := key 0x5070 0
/-- `ens_pen` (R377). -/
def ensPen : Nat := key 0x5071 0
/-- `ens_domain_id` (R377). -/
def ensDomainId : Nat := key 0x5072 0
/-- `ens_dest` (R377). -/
def ensDest : Nat := key 0x5073 0
/-- `ens_header` (R377). -/
def ensHeader : Nat := key 0x5074 0
/-- `ens_mtu` (R377). -/
def ensMtu : Nat := key 0x5075 0
/-- `ens_template_s` (R377). -/
def ensTemplateS : Nat := key 0x5076 0
/-- `ens_flush_us` (R377). -/
def ensFlushUs : Nat := key 0x5077 0
/-- `ens_postcard_mask` (R377). -/
def ensPostcardMask : Nat := key 0x5078 0
/-- `ens_postcard_rate` (R377). -/
def ensPostcardRate : Nat := key 0x5079 0
/-- `ens_snapshot_us` (R377). -/
def ensSnapshotUs : Nat := key 0x507A 0
/-- `ens_snapshot_list` (R377). -/
def ensSnapshotList : Nat := key 0x507B 0
/-- `ens_records_sent` (R377). -/
def ensRecordsSent : Nat := key 0x507C 0
/-- `ens_records_dropped` (R377). -/
def ensRecordsDropped : Nat := key 0x507D 0
/-- `ens_postcards_suppressed` (R377). -/
def ensPostcardsSuppressed : Nat := key 0x507E 0
/-- `obs_cause` (R377). -/
def obsCause : Nat := key 0x5080 0
/-- `obs_cause_enable` (R377). -/
def obsCauseEnable : Nat := key 0x5081 0
/-- `perf_counter` (R377). -/
def perfCounter (n : Nat) : Nat := keyIf (decide (n < 4096)) (key (0x5100 + n / 256) (n % 256))
/-- `perf_select` (R377). -/
def perfSelect (n : Nat) : Nat := keyIf (decide (n < 4096)) (key (0x5110 + n / 256) (n % 256))
/-- `drop_port` (R377). -/
def dropPort (p r : Nat) : Nat := keyIf (decide (p < 1024) && decide (r < 64)) (key (0x5800 + p) r)
/-- `bw_window_k` (R377). -/
def bwWindowK (p : Nat) : Nat := keyIf (decide (p < 1024)) (key (0x5800 + p) 0x40)
/-- `bw_seq` (R377). -/
def bwSeq (p : Nat) : Nat := keyIf (decide (p < 1024)) (key (0x5800 + p) 0x41)
/-- `bw_rx_bytes` (R377). -/
def bwRxBytes (p : Nat) : Nat := keyIf (decide (p < 1024)) (key (0x5800 + p) 0x42)
/-- `bw_tx_bytes` (R377). -/
def bwTxBytes (p : Nat) : Nat := keyIf (decide (p < 1024)) (key (0x5800 + p) 0x43)
/-- `age_limit_us` (R377). -/
def ageLimitUs (p : Nat) : Nat := keyIf (decide (p < 1024)) (key (0x5800 + p) 0x44)
/-- `sample_rx` (R377). -/
def sampleRx (p : Nat) : Nat := keyIf (decide (p < 1024)) (key (0x5800 + p) 0x45)
/-- `sample_tx` (R377). -/
def sampleTx (p : Nat) : Nat := keyIf (decide (p < 1024)) (key (0x5800 + p) 0x46)
/-- `soj_offset_ns` (R377). -/
def sojOffsetNs (p : Nat) : Nat := keyIf (decide (p < 1024)) (key (0x5800 + p) 0x47)
/-- `soj_shift` (R377). -/
def sojShift (p : Nat) : Nat := keyIf (decide (p < 1024)) (key (0x5800 + p) 0x48)
/-- `soj_bins` (R377). -/
def sojBins (p : Nat) : Nat := keyIf (decide (p < 1024)) (key (0x5800 + p) 0x49)
/-- `soj_negative` (R377). -/
def sojNegative (p : Nat) : Nat := keyIf (decide (p < 1024)) (key (0x5800 + p) 0x4A)
/-- `soj_clear` (R377). -/
def sojClear (p : Nat) : Nat := keyIf (decide (p < 1024)) (key (0x5800 + p) 0x4B)

end Sys2Proof.Machine.Reg
end

