-- ==== Sys2Proof/Machine/SMap.lean ====
section
/-! DEFINITION. Reading and writing a sparse table in its one canonical form (notes/assumptions/1). -/

namespace Sys2Proof.Machine

/-- The value at index `k`; an unlisted index reads as `d`. -/
def mget {α : Type} (d : α) : SMap α → Nat → α
  | [], _ => d
  | (k', v) :: r, k => if k < k' then d else if k = k' then v else mget d r k

/-- Write `v` at index `k`; writing the unlisted value `d` removes the entry. -/
def mset {α : Type} [DecidableEq α] (d : α) : SMap α → Nat → α → SMap α
  | [], k, v => if v = d then [] else [(k, v)]
  | (k', v') :: r, k, v =>
    if k < k' then (if v = d then (k', v') :: r else (k, v) :: (k', v') :: r)
    else if k = k' then (if v = d then r.filter (fun p => k < p.1) else (k, v) :: r)
    else (k', v') :: mset d r k v

/-- The entry at index `k`, if one is listed. -/
def mfind {α : Type} : SMap α → Nat → Option α
  | [], _ => none
  | (k', v) :: r, k => if k < k' then none else if k = k' then some v else mfind r k

/-- List `v` at index `k`. -/
def mput {α : Type} : SMap α → Nat → α → SMap α
  | [], k, v => [(k, v)]
  | (k', v') :: r, k, v =>
    if k < k' then (k, v) :: (k', v') :: r
    else if k = k' then (k, v) :: r
    else (k', v') :: mput r k v

/-- Remove index `k`. -/
def mdel {α : Type} (m : SMap α) (k : Nat) : SMap α := m.filter (fun p => p.1 ≠ k)

/-- The indexes listed. -/
def mkeys {α : Type} (m : SMap α) : List Nat := m.map (·.1)

/-- Indexes strictly rising from above `lo`. -/
def risingFrom {α : Type} : Nat → SMap α → Bool
  | _, [] => true
  | lo, (k, _) :: r => decide (lo ≤ k) && risingFrom (k + 1) r

/-- The canonical form: indexes strictly rising, no entry equal to the unlisted value. -/
def mwf {α : Type} [DecidableEq α] (d : α) (m : SMap α) : Bool :=
  risingFrom 0 m && m.all (fun p => decide (p.2 ≠ d))

end Sys2Proof.Machine
end

