-- ==== Sys2Proof/Machine/State.lean ====
section
/-! DEFINITION. The state of the block as plain data: the object dictionary, the packet memories, the tables and
engines of each chapter, the queue of waiting commands, and what the block has sent out. -/

namespace Sys2Proof.Machine

/-- Why the block stops. Raised only by the power steps. -/
inductive Fault where
  /-- The supply rails did not follow R468's order and limits: the spec states no behaviour outside them (R468,
  R501). Raised by POWER_ON_RESET. Safe: the machine stops where the spec gives no effect. -/
  | outsideRatings
deriving DecidableEq, Repr

/-- Why a command is turned away whole. -/
inductive Refusal where
  /-- The command has no meaning in this model yet. Raised by a refused arm of `exec` only. Safe. -/
  | notModelled (mnemonic : String)
deriving DecidableEq, Repr

/-- Where a packet came from (R356, R359). -/
inductive Origin where
  | line (port : Nat)
  | fabric
  | injectPort (fn port : Nat)
  | injectDirect (fn : Nat) (remote : Bool)
  | mgmt
  | ensign
deriving DecidableEq, Repr

/-- Where a packet stands on its path. `held`: in a paused LMAC receive buffer (R528). `window`: its header window is
at the PIPE and a pass may run. `ready`: its descriptor is written. `fanout`: a multicast descriptor waiting for the
fan-out engine. `stored`: its references are in queues or beyond. -/
inductive Stage where
  | held | window | ready | fanout | stored
deriving DecidableEq, Repr

/-- What a meter took from its buckets, for the later correction (R190). -/
structure MeterDraw where
  meter : Nat
  est : Nat
  drew1 : Bool
  drew2 : Bool
deriving DecidableEq, Repr

/-- A packet inside the device, under its number. `data` is what has arrived and is not yet in cells; `cells` are the
Stockpot cells in link-word order (R203); `refs` is the reference count of its first cell (R215). -/
structure Pkt where
  origin : Origin
  inPort : Nat := 0
  stage : Stage := .window
  win : List Byte := []
  data : List Byte := []
  len : Option Nat := none
  ended : Bool := false
  bad : Option Nat := none
  desc : Nat := 0
  pass : Nat := 0
  startOff : Nat := 0
  startKind : Nat := 0
  bus : Nat := 0
  ecn : Nat := 0
  tsFrac : Nat := 0
  cells : List Nat := []
  refs : Nat := 0
  staged : Bool := false
  hrPool : Nat := 32
  hrCells : Nat := 0
  est : Nat := 0
  maxFrame : Nat := 1522
  slot : Option Nat := none
  draws : List MeterDraw := []
  posts : List Nat := []
  namedQueue : Nat := 0
  src : Nat := 0
  speed : Nat := 0
  credited : Bool := false
  mcFabric : Bool := false
  poison : Bool := false
  leaked : Bool := false
  copyOf : Option (Nat × Nat) := none
  copyHdr : List Byte := []
  copySkip : Nat := 0
  rxAt : Nat := 0
deriving DecidableEq, Repr

/-- What kind of copy a reference is (R215, R257): the packet itself, a multicast copy for a port, the fabric
multicast copy, a host copy, an ingress mirror copy of a session for a port, an egress mirror copy. -/
inductive RefKind where
  | main
  | mcCopy (port : Nat)
  | fabricCopy
  | hostCopy
  | ingressMirror (session port : Nat)
  | egressMirror (session port : Nat)
deriving DecidableEq, Repr

/-- A reference to a stored packet: one queue link with its per-copy fields (R258); `link` is the link's number in its QMS
(notes/assumptions/22). -/
structure Ref where
  pkt : Nat
  kind : RefKind
  charge : Nat
  enqAt : Nat
  cut : Bool
  marked : Bool
  vlan : Option Nat
  cls : Nat
  desc : Nat
  origin : Origin
  src : Nat
  link : Nat := 0
deriving DecidableEq, Repr

/-- A record of a Crock backlog (R226): the reference, where its record starts, its length, and whether the packer has
written it. -/
structure Rec where
  ref : Ref
  page : Nat
  off : Nat
  bytes : Nat
  packed : Bool
deriving DecidableEq, Repr

/-- A queue's contents (R225, R258): the Stockpot part, what is staged, the Crock backlog, its page chain, charges and
watermark. -/
structure Queue where
  refs : List Ref := []
  staged : List Ref := []
  backlog : List Rec := []
  spilled : Bool := false
  pages : List Nat := []
  packOff : Nat := 0
  opened : Nat := 0
  qs : Nat := 0
  qc : Nat := 0
  watermark : Nat := 0
  faulted : Bool := false
deriving DecidableEq, Repr

/-- A scheduler node or queue of the tree (R262, R265, R267): its words, the values in use, its tokens and its part in
the rounds. `shRate`, `shBurst`, `shOvh` are the shaper's values in use; the word holds the new ones. `wt` is the
weight in use; `faulted` stands for R493. -/
structure Node where
  word : Nat := 2 ^ 105 + 64 * 2 ^ 17
  qword : Nat := 0
  wt : Nat := 1
  shRate : Nat := 0
  shBurst : Nat := 64
  shOvh : Nat := 0
  tok : Int := 0
  cursor : Nat := 0
  round : Nat := 0
  seen : List Nat := []
  faulted : Bool := false
  deficit : Int := 0
  quantum : Nat := 64
deriving DecidableEq, Repr

/-- A dequeued reference on its way out (R263): the queue and port or root it left, what was charged, the egress half's
result (`hdr` replaces the first `skip` stored bytes), its PTP action with the offsets in the frame, and the counters its
egress stages posted (R195). -/
structure Out where
  ref : Ref
  queue : Nat
  root : Nat
  lf : Nat
  lfKnown : Bool
  path : List Nat
  egressDone : Bool := false
  hdr : List Byte := []
  skip : Nat := 0
  limit : Nat := 0
  ptp : Nat := 0
  ptpOff : Nat := 0
  udpOff : Nat := 0
  udp6 : Bool := false
  counters : List Nat := []
deriving DecidableEq, Repr

/-- The credit state and timers of a bound VOQ (R280, R345): balance B in bytes, requested units R, the busy
hold-off, when the last request or answer was, since when it has been empty with credit, and since when idle. -/
structure Voq where
  b : Nat := 0
  r : Nat := 0
  busyUntil : Option Nat := none
  answerAt : Nat := 0
  creditSince : Option Nat := none
  idleSince : Option Nat := none
deriving DecidableEq, Repr

/-- The packet memory (ch. 9): the two memories, the free bitmaps (units in use), quarantine maps, Ladle cursors,
Skimmer lists, rebuilds in progress, and pointers a fault has damaged. -/
structure PoolMem where
  pot : List Host.Cell := []
  crock : List Host.Cell := []
  usedCells : SMap Nat := []
  usedPages : SMap Nat := []
  quarCells : SMap Nat := []
  quarPages : SMap Nat := []
  cursor : SMap Nat := []
  skimHead : SMap Nat := []
  skimTail : SMap Nat := []
  skimCount : SMap Nat := []
  rebuilding : SMap Nat := []
  badPtr : SMap Nat := []
deriving DecidableEq, Repr

/-- A shaper correction that waits for a true length (R269): the packet, the charged length used, the shapers, the VOQ, and the
true length of a packet that has left. -/
structure ShaperDue where
  pkt : Nat
  lf : Nat
  path : List Nat
  voq : Option Nat
  known : Option Nat := none
deriving DecidableEq, Repr

/-- Queue managers (ch. 11): queue contents, tree nodes by node reference, class maps, multicast groups and targets, VOQ
credit, fan-out lines by QMS, and the shaper corrections due. -/
structure QmState where
  queues : SMap Queue := []
  nodes : SMap Node := []
  classMap : SMap Nat := []
  groups : SMap Nat := []
  targets : SMap Nat := []
  voqs : SMap Voq := []
  fanout : SMap (List Nat) := []
  due : List ShaperDue := []
deriving DecidableEq, Repr
/-- A scalable island (R30–R34, R50): mode and floor in use (the entries hold what was written), its step, whether its clock is
stopped and since when, idle intervals in a row, and the busy fraction of the last interval. -/
structure Isl where
  pinned : Bool := false
  floor : Nat := 4
  step : Nat := 16
  stopped : Bool := false
  stoppedAt : Nat := 0
  idle : Nat := 0
  ppm : Nat := 0
deriving DecidableEq, Repr

/-- The clocks (ch. 2): the islands; configuration values on their way into TIME (instant of effect, value; R28); whether TIME
has been set. -/
structure ClkState where
  isls : SMap Isl := []
  timeDue : List (Nat × Nat) := []
  timeSet : Bool := false
deriving DecidableEq, Repr
/-- One entry of the firmware event queue (R383): source and TIME at the pulse. -/
structure FwEvent where
  source : Nat
  ns : Nat
deriving DecidableEq, Repr

/-- MSI-X state of one PCIe function (R383): enable, function mask, vector masks, Pending Bit Array: the messages of
aggregates, and those of rings (R441). -/
structure MsiX where
  enable : Bool := false
  funcMask : Bool := false
  vecMask : SMap Bool := []
  pba : SMap Bool := []
  held : SMap Bool := []
deriving DecidableEq, Repr

/-- The event system (ch. 15). `sticky` lists the sources whose sticky bit is 1, `pulsedAt` the instant of each source's last pulse
(R380); records gathered for each session, since when, and the session's EVENT sequence (R421). -/
structure EvtState where
  sticky : SMap Bool := []
  pulsedAt : SMap Nat := []
  fwQueue : List FwEvent := []
  msix : SMap MsiX := []
  gather : SMap (List FwEvent) := []
  gatherAt : SMap Nat := []
  evSeq : SMap Nat := []
deriving DecidableEq, Repr

/-- The terms of the conservation ledger in the epoch now running (R359), and the occupancies held. -/
structure Ledger where
  aLine : Nat := 0
  aFabric : Nat := 0
  aInject : Nat := 0
  aMgmt : Nat := 0
  aEnsign : Nat := 0
  aCopy : Nat := 0
  dLine : Nat := 0
  dFabric : Nat := 0
  dHost : Nat := 0
  dMgmt : Nat := 0
  dFanout : Nat := 0
  x : SMap Nat := []
  c : Nat := 0
  oRx : Nat := 0
  oFab : Nat := 0
  oQueue : Nat := 0
  oOut : Nat := 0
  oGen : Nat := 0
  oStart : Nat := 0
  incomplete : Bool := true
  fault : Bool := false
  history : List (List Byte) := []
deriving DecidableEq, Repr

/-- Observability (ch. 14) behind its entries. A record of Ensign's buffer is its template, its instant and its bytes; `bwRx`
and `bwTx` are the octet counts as the window began, `bwSkip` the ports whose window was discarded. -/
structure ObsState where
  perfOverflow : SMap Bool := []
  bwRx : SMap Nat := []
  bwTx : SMap Nat := []
  bwSkip : SMap Nat := []
  histBins : SMap (List Nat) := []
  sojBins : SMap (List Nat) := []
  samplerSeen : SMap Nat := []
  ensRecords : List (Nat × Nat × List Byte) := []
  ensSeq : Nat := 0
  postTokens : Nat := 64 * 1000000000
  postAt : Nat := 0
  tmplDue : Bool := false
  tmplAt : Nat := 0
deriving DecidableEq, Repr

/-- What the block has put out, newest first: the model's own record of its outputs (notes/assumptions/6). -/
inductive Emission where
  | frame (port : Nat) (bytes : List Byte) (good : Bool)
  | pennant (bundle : Nat) (bytes : List Byte)
  | laneFrame (lane : Nat) (bytes : List Byte)
  | lanePattern (lane : Nat) (kind : Nat)
  | mgmtPacket (bundle : Nat) (bytes : List Byte)
  | msix (fn vec : Nat)
  | hostWrite (fn addr : Nat) (bytes : List Byte)
  | hostRead (fn tag addr len : Nat)
  | status (client : Nat) (code : Nat) (value : List Byte)
  | synsa (oob : Nat) (peer bytes : List Byte)
  | avs (rail mv : Nat)
  | i2c (master : Nat) (bytes : List Byte)
  | mdio (master : Nat) (bytes : List Byte)
  | jtag (bytes : List Byte)
  | pps (level : Bool)
  | gpio (levels : Nat)
  | mgmtFrame (bytes : List Byte)
  | flexeOverhead (port : Nat) (calendar : Nat)
deriving DecidableEq, Repr
/-- A frame being received (R62, R63): its packet number, whether it was admitted, the discard reason if not, and the
port settings at its first byte. -/
structure Rx where
  pkt : Nat
  admitted : Bool
  reason : Nat
  maxFrame : Nat
  filterOn : Bool
  filter : List Nat
  win : List Byte
deriving DecidableEq, Repr

/-- A frame being sent (R67–R69): the reference going out, when it began, and whether it was begun cut-through. -/
structure Tx where
  out : Nat
  startAt : Nat
  cut : Bool
  frac : Nat := 0
deriving DecidableEq, Repr

/-- A paused state (R70, R72): when its time runs out and since when it has been continuous. -/
structure Pause where
  ends : Nat
  since : Nat
deriving DecidableEq, Repr

/-- A port instance (ch. 3): mode and FEC in effect (the entries hold the values written, so a held one differs, R56),
link conditions, the frames in the MAC, what is dequeued and not begun, and flow control. Pause states 0–7 are PFC priorities, 8 is link pause. `parked`: start-up left the port down (R483). -/
structure Port where
  mode : Nat := 0
  fec : Nat := 0
  blockLock : Bool := false
  localFault : Bool := false
  remoteFault : Bool := false
  condSince : Option Nat := none
  rx : Option Rx := none
  tx : Option Tx := none
  dq : List Nat := []
  pause : SMap Pause := []
  eggHold : SMap Nat := []
  xoff : SMap Nat := []
  pauseOut : List (List Byte) := []
  ts : List (List Byte) := []
  calB : Bool := false
  calSwitch : Option Nat := none
  clientHeld : Bool := false
  parked : Bool := false
deriving DecidableEq, Repr

/-- A line lane (R57, R77). -/
structure Lane where
  fecLock : Bool := false
  prbsLock : Bool := false
deriving DecidableEq, Repr

/-- An LMAC island's receive buffer (R64, R528): the packets held while its drain is paused, oldest first. -/
structure Lmac where
  held : List Nat := []
  paused : Bool := false
deriving DecidableEq, Repr
/-- The classification stores behind their entries (ch. 5): direct-table banks and rewrite profiles by slot, the duplicate
filters by PIPE (pair and instant, oldest first), the learning bucket in units of 10^-9 notices, and the notices. The
stage plans are the bytes of `cls_stage_plan`. `swapAt` is t0 of the swap being retired. -/
structure ClsState where
  direct : SMap Nat := []
  rewrite : SMap Nat := []
  dedup : SMap (List (Nat × Nat)) := []
  learnTok : Nat := 256 * 1000000000
  learnAt : Nat := 0
  notices : List (List Byte) := []
  swapAt : Nat := 0
deriving DecidableEq, Repr
/-- A route: its result, its extended action, and where its copy stands in the stripe (R140). -/
structure Route where
  res : Nat
  ext : Nat
  word : Nat
deriving DecidableEq, Repr

/-- A rebuild in flight in a stripe (R141): the change it brings, and when it was switched in. -/
structure Rebuild where
  key : Nat
  val : Option Route
  at0 : Option Nat := none
deriving DecidableEq, Repr

/-- An exact-match entry at its first slot (Table — Exact-match slot): type, key right-aligned, result [85:0]. -/
structure EmEntry where
  ty : Nat
  key : Nat
  res : Nat
deriving DecidableEq, Repr

/-- The lookup tables (ch. 6). Route copies by stripe and key: `want` after every record taken, `routes` as lookups see
them. Rebuilds by stripe, oldest first; the pivot move's
argument as taken, and the stripe whose old copies it has yet to remove. -/
structure LkpState where
  want : SMap Route := []
  routes : SMap Route := []
  rebuilds : SMap (List Rebuild) := []
  pivot : SMap Nat := []
  em : SMap EmEntry := []
  compat : SMap Nat := []
  adj : SMap Nat := []
  groups : SMap Nat := []
  members : SMap Nat := []
  profiles : SMap Nat := []
  nextWord : Nat := 0
  moveFrom : Option Nat := none
  moveArg : Nat := 0
deriving DecidableEq, Repr
/-- A region of a bank (R163). -/
structure AseRegion where
  num : Nat
  base : Nat
  limit : Nat
  wide : Bool
deriving DecidableEq, Repr

/-- An update step a bank has queued (R169–R171): copy place p − 1 to p; the end of a growth of the region at this position;
write the rows of a place from the first given. -/
inductive AseStep where
  | copy (p : Nat)
  | grown (at' : Nat)
  | write (row : Nat) (rows : List Nat) (assoc : Nat)
deriving DecidableEq, Repr

/-- A bank (ch. 7): rows, shadow copies, associated records by first row, regions in order, update steps queued, and the
scrubber's next row. -/
structure AseBank where
  rows : SMap Nat := []
  shadow : SMap Nat := []
  assoc : SMap Nat := []
  regions : List AseRegion := []
  steps : List AseStep := []
  scrub : Option Nat := none
  due : Bool := false
deriving DecidableEq, Repr

/-- The ASE banks (ch. 7), the action profiles, the banks the records of the running job named, whether a record is being
applied, and the PIPEs that hold back their LMACs (R179). -/
structure AseState where
  banks : SMap AseBank := []
  profiles : SMap Nat := []
  named : Nat := 0
  busy : Bool := false
  hold : SMap Bool := []
deriving DecidableEq, Repr
/-- A correction due (R190): bytes to give back, and the buckets drawn. -/
structure MeterDue where
  meter : Nat
  amount : Int
  drew1 : Bool
  drew2 : Bool
deriving DecidableEq, Repr

/-- Meters and counters (ch. 8): the 384-bit entries, corrections due, the pairs, the latched byte count, and the counter
updates posted and not landed (index, bytes), and the range a running sweep took at its start (base, count, clear). -/
structure MtrState where
  meters : SMap Nat := []
  due : List MeterDue := []
  pkts : SMap Nat := []
  bytes : SMap Nat := []
  latch : Nat := 0
  posts : List (Nat × Nat) := []
  sweepBase : Nat := 0
  sweepCount : Nat := 0
  sweepClear : Bool := false
deriving DecidableEq, Repr
/-- A request a Crock controller has accepted (R234): its port, page, first burst, bursts, direction and instant. -/
structure HbmReq where
  id : Nat
  prt : Nat
  page : Nat
  burst : Nat
  count : Nat
  write : Bool
  at0 : Nat
deriving DecidableEq, Repr

/-- A pseudo channel (R236, R238): waiting requests oldest first, the one being served, refreshes owed, and when the
next falls due. -/
structure HbmPc where
  reqs : List HbmReq := []
  current : Option Nat := none
  owed : Nat := 0
  nextDue : Nat := 0
deriving DecidableEq, Repr

/-- The Crock controllers (ch. 10): pseudo channels by 64·stack + number, hot stacks, delay lines as loaded, bytes moved in
the rate window, windows below the fall mark, the rate change in progress, the last use for R242, scrub instants and
pages due. -/
structure HbmState where
  pcs : SMap HbmPc := []
  nextReq : Nat := 0
  hot : SMap Bool := []
  loaded : SMap (List Byte) := []
  moved : Nat := 0
  windowAt : Nat := 0
  below : Nat := 0
  change : Option Nat := none
  lastUse : Nat := 0
  scrubAt : SMap Nat := []
  scrubDue : SMap Nat := []
deriving DecidableEq, Repr
/-- A candidate of the alignment hunt (R305): its offset, its hits, and the multiframe count its next hit must carry. -/
structure Cand where
  off : Nat
  hits : Nat
  next : Nat
deriving DecidableEq, Repr

/-- A performance bin (R310): its counts and flags, and the TIME second it began. -/
structure PmBin where
  es : Nat := 0
  ses : Nat := 0
  uas : Nat := 0
  flags : Nat := 0
  errors : Nat := 0
  began : Nat := 0
deriving DecidableEq, Repr

/-- One end of a monitored entity (R308–R310): this second's errored frames, error count, defect and severe marks; the last
seconds classified (second, ES, SES), newest first; whether it is unavailable; and its bins. -/
structure PmEnd where
  frames : Nat := 0
  errors : Nat := 0
  defect : Bool := false
  severe : Bool := false
  last : List (Nat × Bool × Bool) := []
  down : Bool := false
  quarter : PmBin := { flags := 1 }
  day : PmBin := { flags := 1 }
  quarters : List PmBin := []
  days : List PmBin := []
deriving DecidableEq, Repr

/-- A fabric lane (R287–R307). `on`: its transmitter is on. Runs of consecutive frames decide LANE_ID, SKEW and PTR_MISMATCH;
`fe` is the error count to report back, `bip` what the next byte 6 must be, `slots` bytes 11 and 12 of this multiframe's
first frames, `acc` container bytes received and not taken, `units` its part of the bundle frame being gathered. -/
structure FLane where
  on : Bool := false
  signal : Bool := false
  signalAt : Nat := 0
  cwLock : Bool := false
  cwRun : Nat := 0
  locked : Bool := false
  off : Nat := 0
  misses : Nat := 0
  cands : List Cand := []
  mf : Nat := 0
  bip : Option Nat := none
  idRun : Nat := 0
  skewRun : Nat := 0
  ptrRun : Nat := 0
  fe : Nat := 0
  txBip : Nat := 0
  rdi : Bool := false
  slots : SMap Nat := []
  word : Option (Nat × Nat × Nat) := none
  units : List Byte := []
  acc : List Byte := []
  chunk : List Byte := []
  defectAt : Option Nat := none
  prbsLock : Bool := false
  near : PmEnd := {}
  far : PmEnd := {}
deriving DecidableEq, Repr

/-- A lane-set message (R312). -/
structure LsMsg where
  ty : Nat
  tag : Nat
  arg : Nat
  mask : Nat
  count : Nat
deriving DecidableEq, Repr

/-- A change of a direction's lane set (R313): its mask and tag; step 0 waits for its lanes, 1 proposed, 2 accepted; the
multiframe it was proposed or accepted in, the one it takes effect in; and whether the job asked for it. -/
structure LsChange where
  mask : Nat
  tag : Nat := 0
  step : Nat := 0
  at0 : Nat := 0
  effect : Option Nat := none
  job : Bool := false
deriving DecidableEq, Repr

/-- A bundle's receiver and transmitter (R289–R318) and its transmit buffers (R342). -/
structure FBundle where
  got : List Nat := []
  rxMf : Nat := 0
  sinceAdj : Nat := 3
  invalid : Nat := 0
  sameVal : Nat := 0
  sameRun : Nat := 0
  aisRun : Nat := 0
  aligned : Bool := false
  bip : Option Nat := none
  traceRun : Nat := 0
  traceNow : List Byte := []
  traceLast : List Byte := []
  labelRun : Nat × Nat := (0, 0)
  label : Option Nat := none
  countRun : Nat × Nat := (0, 0)
  count : Option Nat := none
  srcRun : Nat × Nat := (0, 0)
  src : Option Nat := none
  rdi : Bool := false
  fe : Nat := 0
  places : List (List Byte) := []
  burgee : Nat := 0
  msgs : List LsMsg := []
  seenT : Nat := 0
  seenR : Nat := 0
  rxChange : Option LsChange := none
  txChange : Option LsChange := none
  tag : Nat := 0
  slotT : Option LsMsg := none
  slotR : Option LsMsg := none
  sendT : Option LsMsg := none
  sendR : Option LsMsg := none
  quietAt : Option Nat := none
  txFrame : Nat := 0
  txMf : Nat := 0
  txPtr : Nat := 0
  txSince : Nat := 3
  fresh : Bool := true
  running : Bool := false
  stream : List Byte := []
  streamSet : Nat := 0
  txBip : Nat := 0
  txCount : Nat := 0
  traceIdx : Nat := 0
  used : Nat := 0
  sent : Nat := 0
  lowRun : Nat := 0
  mgIn : List Byte := []
  mgBusy : Bool := false
  mgLane : Option Nat := none
  mgRaw : List (List Byte) := []
  mgHeld : List (List Byte) := []
  mgOut : List (List Byte) := []
  mgRest : List Byte := []
  relay : List (List Byte) := []
  own : List (List Byte) := []
  credit : List (List Byte) := []
  ctrl : List (List Byte) := []
  ownTurn : Bool := false
  near : PmEnd := {}
  far : PmEnd := {}
deriving DecidableEq, Repr

/-- The fabric lanes and bundles (ch. 12), and whether TIME is locked to SYSREF (R296). -/
structure FlState where
  lanes : SMap FLane := []
  bundles : SMap FBundle := []
  timeLocked : Bool := false
deriving DecidableEq, Repr
/-- A grant context of a destination (R346): pending units P and outstanding bytes O_x. -/
structure Grant where
  p : Nat := 0
  o : Nat := 0
deriving DecidableEq, Repr

/-- The reachability record of a device (R334, R337): distances and miss counts by bundle, the beacon bundles heard since the
last check, the last relayed count, the round trip, probes in a row without an answer and when the last probe went, whether
it has been REACHABLE, and whether a sequence start is owed (R329). -/
structure DestRec where
  dist : List Nat := List.replicate 8 0xFFFF
  miss : List Nat := List.replicate 8 0
  heard : Nat := 0
  relayed : Option Nat := none
  rtt : Nat := 0
  silent : Nat := 0
  probeAt : Option Nat := none
  startOwed : Bool := true
deriving DecidableEq, Repr

/-- A pennant held for reorder (R347): its sequence, when it came, and its bytes. -/
structure HeldPennant where
  seq : Nat
  at0 : Nat
  bytes : List Byte
deriving DecidableEq, Repr

/-- A receive context of a source (R347): state 0 NONE, 1 AWAIT, 2 OPEN; the expected sequence; what is held. -/
structure RxCtx where
  state : Nat := 0
  e : Nat := 0
  since : Nat := 0
  held : List HeldPennant := []
deriving DecidableEq, Repr

/-- An open reassembly (R348, R349, R352): its packet, none when the packet is already lost; the fabric form so far; when its
last segment came; and for multicast the last sequence. -/
structure Assembly where
  pkt : Option Nat
  form : List Byte
  lastAt : Nat
  seq : Nat := 0
deriving DecidableEq, Repr

/-- Credit entries gathered for a destination (R344): the first one's instant, and entries by pennant type. -/
structure CreditOut where
  since : Nat
  ty : Nat
  entries : List Nat
deriving DecidableEq, Repr

/-- Fabric transport (ch. 13): destination states and records, grant contexts, grant engines' tokens (in bits) and cursors by
port, pair sequences, group sequences, receive contexts, reassemblies, credit entries waiting, how much of each reference in
the FABX has been sent, the VOQ in mid-packet to a destination, the spray cursor and deficits by destination, and the Burgee
bits now sent; credit entries received and not yet handled (source, entry). -/
structure FtState where
  dest : SMap Nat := []
  recs : SMap DestRec := []
  grants : SMap Grant := []
  tokens : SMap Nat := []
  tokenAt : SMap Nat := []
  cursor : SMap Nat := []
  pairSeq : SMap Nat := []
  groupSeq : SMap Nat := []
  ctxs : SMap RxCtx := []
  asm : SMap Assembly := []
  gather : SMap (List CreditOut) := []
  sentOff : SMap Nat := []
  busy : SMap Nat := []
  sprayAt : Nat := 7
  sprayLeft : SMap Nat := []
  burgee : Nat := 0
  burgeeAt : SMap Nat := []
  beacons : Nat := 0
  mcMap : SMap Nat := []
  inbox : List (Nat × Nat) := []
deriving DecidableEq, Repr
/-- The status word of a job in parts (R409): 0 idle, 1 running, 2 completed, 3 cancelled; and a phase of the model's own
for jobs that run in named steps. -/
structure Job where
  state : Nat := 0
  cancel : Bool := false
  result : Nat := 0
  run : Nat := 0
  progress : Nat := 0
  phase : Nat := 0
  at0 : Nat := 0
deriving DecidableEq, Repr

/-- An open DOMAIN transfer (R406, R407). `buf` is what has been written, or the whole value being read; `pos` the next
expected offset, or how far the client has read. -/
structure Transfer where
  client : Client
  entry : Nat
  write : Bool
  total : Nat
  buf : List Byte := []
  pos : Nat := 0
  lastAt : Nat := 0
deriving DecidableEq, Repr

/-- An open session (R418–R420): level, where it was opened (a bundle 0 to 7, or 16 with the out-of-band port), the sender's address
over UDP, label, session key, the highest sequence accepted and the record of the accepted values below it (bit i for high − i), the
last 8 responses by sequence, and when a valid message last came. -/
structure Session where
  level : Nat
  transport : Nat
  peer : List Byte
  label : List Byte
  key : List Byte
  high : Nat := 0
  window : Nat := 0
  cache : List (Nat × List Byte) := []
  lastAt : Nat := 0
deriving DecidableEq, Repr

/-- A remembered relay request (R425): the bundle it came over, or 8 at the origin with the session and sequence to answer and where
that request came from. -/
structure RelayEntry where
  relayId : Nat
  origin : Nat
  arrival : Nat
  session : Nat := 0
  seq : Nat := 0
  place : Nat := 0
  peer : List Byte := []
  at0 : Nat
deriving DecidableEq, Repr

/-- A mailbox (R405): windows, state 0 idle, 1 busy, 2 response ready, and the length of the message in service or of the response. -/
structure Mailbox where
  request : List Byte := []
  response : List Byte := []
  state : Nat := 0
  len : Nat := 0
deriving DecidableEq, Repr

/-- A counted write in progress (R399): the entry, the value, the writer's log code, which write of the entry it is, TIME's seconds
at the write (0 when TIME was not set), and when it began. -/
structure Burn where
  entry : Nat
  value : List Byte
  client : Nat
  count : Nat
  sec : Nat
  at0 : Nat
deriving DecidableEq, Repr

/-- The dictionary behind its entries (ch. 16): jobs by entry key, open transfers by handle, sessions by ID, relay
memory, neighbours with the instant of their announce, mailboxes by function, the counts taken of the fuse counters, writes in
progress, places left incomplete by a reset (R400) and the log; the settings store in flash (entries that differ from their
defaults, and whether it is empty), whether R462 calls the live values unsaved, how far a save has come and its copy; the
completed loads by entry (R153); and whether every session closes after the response now due (R417). -/
structure DictState where
  jobs : SMap Job := []
  transfers : SMap Transfer := []
  sessions : SMap Session := []
  relays : List RelayEntry := []
  neighbours : SMap (List Byte × Nat) := []
  mailboxes : SMap Mailbox := []
  burns : List Burn := []
  fuseCounts : SMap Nat := []
  torn : List Burn := []
  deviceKey : List Byte := []
  cwLog : List (List Byte) := []
  store : SMap Nat := []
  storeBlocks : SMap (List Byte) := []
  storeEmpty : Bool := true
  unsaved : Bool := false
  closeDue : Bool := false
  announcedAt : Nat := 0
  savePos : Nat := 0
  saveCopy : SMap Nat := []
  saveBlocks : SMap (List Byte) := []
  loads : SMap (List (List Byte)) := []
deriving DecidableEq, Repr
/-- A ring behind its entries (R436, R441): the producer count, the count of reserved descriptors, frames finished since its
last message and when the first of them finished. The consumer count is its entry. -/
structure Ring where
  prod : Nat := 0
  resv : Nat := 0
  frames : Nat := 0
  firstAt : Option Nat := none
deriving DecidableEq, Repr

/-- A punt DMA (R439): function, ring, generation at its start, first slot count, buffer size, buffer addresses, and the
writes issued. -/
structure PuntCtx where
  fn : Nat
  ring : Nat
  gen : Nat
  slot : Nat
  size : Nat
  root : Nat
  addrs : List Nat
  done : Nat := 0
deriving DecidableEq, Repr

/-- An inject frame (R442): function, ring, generation, its first slot count, how many descriptors, its first descriptor and
whether the last asks for a status, its cells, what has been read, bytes not yet read, and the status it failed with. -/
structure Inject where
  fn : Nat
  ring : Nat
  gen : Nat
  slot : Nat
  count : Nat
  desc : Nat
  wb : Bool
  cells : List Nat := []
  data : List Byte := []
  need : Nat := 0
  fail : Option Nat := none
deriving DecidableEq, Repr

/-- A host read request under its tag (R443). -/
structure Tag where
  inject : Nat
  fn : Nat
  gen : Nat
  off : Nat
  len : Nat
  stale : Bool := false
deriving DecidableEq, Repr

/-- A counter export in progress (R445): generation, the window, the next pair, the address and the start. -/
structure Export where
  gen : Nat
  base : Nat
  count : Nat
  pos : Nat
  addr : Nat
  at0 : Nat
deriving DecidableEq, Repr

/-- The host side (ch. 17): functions in FLR, rings by function, direction and number, punt DMA by the number of its dequeued
reference, inject frames, tags, exports by function, bindings by punt queue, and the host root served last. -/
structure HostState where
  inFlr : SMap Bool := []
  rings : SMap Ring := []
  punts : SMap PuntCtx := []
  injects : SMap Inject := []
  nextInject : Nat := 0
  tags : SMap Tag := []
  exports : SMap Export := []
  bind : SMap Nat := []
  rootTurn : Nat := 15
deriving DecidableEq, Repr
/-- A relay fetch in progress (R458, R460): the bundle, the neighbour's header, and whether recovery seeks it. -/
structure Fetch where
  bundle : Nat
  header : List Byte
  recovery : Bool
deriving DecidableEq, Repr

/-- Firmware and loader (ch. 18). `running`: the firmware serves the dictionary. `loaded`: its body is in RAM, to be started.
`started`: it executes. `appliesEnded`: the load jobs whose APPLY_DONE is owed (R154). `halted`: the management
cores stand still. `loader`: the resident loader is in RAM. `image`: what `fw_install` last programmed into the image region;
none, what the external programmer left there. `autoBoot`: the install running ends in a restart (R458). `bootDue`, `bootCause`:
the loader is to check the region, and why. `restarted`, `restartDue`: RESTARTED is owed; a restart follows the response now due.
`pinLow`, `pinAt`: MGMT_RESTART_L and its last rise. `pos`: bytes of the install programmed. `polled`: the last poll by bundle.
`seekAt`, `seekNext`: the last seek of recovery and the bundle next in turn. -/
structure FwState where
  running : Bool := false
  loaded : Bool := false
  started : Bool := false
  halted : Bool := false
  loader : Bool := false
  image : Option (List Byte) := none
  fetch : Option Fetch := none
  autoBoot : Bool := false
  bootDue : Bool := false
  bootCause : Nat := 1
  restarted : Bool := false
  restartDue : Bool := false
  pinLow : Bool := false
  pinAt : Nat := 0
  pos : Nat := 0
  startedAt : Nat := 0
  polled : SMap Nat := []
  seekAt : Nat := 0
  seekNext : Nat := 0
  appliesEnded : List Nat := []
deriving DecidableEq, Repr
/-- Power, resets and start-up (ch. 19). `inReset`: RESET_L is low, a rail is down, or a JTAG instruction holds the device. `off`: a
rail is below its step's 90% point. `rose`: the instant start-up began. `sensed`: fuse sense is complete. `startMs`: the instants
of the start-up steps in ms. `flushing`: LMACs admit no frame, inject fetch has stopped, and FABX sends nothing of its own. `dark`:
line and fabric transmitters are off. `since`: when the reset or transition now running began. `entering`, `leaving`: the last
step done of the Retention transition in progress, 0 none. `target`, `nacks`, `avsDead`, `avsAt` are by rail: the target voltage,
failures in a row, no more commands, the last command. `warned`: TEMP_WARN is not armed. `crit`: `temp_max` is at the critical
level. `jtag`: the instruction that holds the device. -/
structure PwrState where
  inReset : Bool := false
  off : Bool := false
  rose : Nat := 0
  sensed : Bool := false
  startMs : SMap Nat := []
  flushing : Bool := false
  dark : Bool := false
  dpReset : Bool := false
  islReset : Option Nat := none
  since : Nat := 0
  entering : Nat := 0
  leaving : Nat := 0
  target : SMap Nat := []
  nacks : SMap Nat := []
  avsDead : SMap Bool := []
  avsAt : SMap Nat := []
  warned : Bool := false
  crit : Bool := false
  jtag : Option Nat := none
deriving DecidableEq, Repr
/-- Integrity (ch. 20): the words that differ from what was written, by class, unit and index: 1 to 3 flipped bits, or 4
poisoned (R489); the scrub sweeps in progress, by class, with the place after the last word read; the classes whose next sweep
is due; and the reads due in stopped islands. -/
structure IntegState where
  bad : SMap Nat := []
  sweeps : SMap Nat := []
  late : SMap Bool := []
  due : SMap Nat := []
deriving DecidableEq, Repr
/-- Board I/O (ch. 21): the last edge of PTP_1PPS_IN, when PTP_1PPS_OUT falls, the last record lists of the I2C and MDIO masters, the
masters whose list runs and how many of its records have run, the GPIO levels last driven, and the TAP's instruction. -/
structure IoState where
  ppsInAt : Option Nat := none
  ppsFall : Option Nat := none
  i2c : SMap (List Byte) := []
  mdio : SMap (List Byte) := []
  i2cRun : SMap Bool := []
  mdioRun : SMap Bool := []
  gpio : Nat := 0
deriving DecidableEq, Repr
/-- The whole block. `od` holds the dictionary entries that differ from their defaults, by key; `blocks` the DOMAIN and
STRING entries that are tables of their own; `time` is TIME in nanoseconds; `sent` what has gone out; `freeCtr` counts
the open values used (both the model's own). -/
structure State where
  od : SMap Nat := []
  blocks : SMap (List Byte) := []
  pending : List Instr := []
  time : Nat := 0
  timeOffset : Nat := 0
  freeCtr : Nat := 0
  sent : List Emission := []
  evt : EvtState := {}
  led : Ledger := {}
  obs : ObsState := {}
  pkts : SMap Pkt := []
  nextPkt : Nat := 0
  outs : SMap Out := []
  nextOut : Nat := 0
  ports : SMap Port := []
  lanes : SMap Lane := []
  lmacs : SMap Lmac := []
  mem : PoolMem := {}
  qm : QmState := {}
  pwr : PwrState := {}
  host : HostState := {}
  fl : FlState := {}
  ft : FtState := {}
  hbm : HbmState := {}
  integ : IntegState := {}
  ase : AseState := {}
  dict : DictState := {}
  cls : ClsState := {}
  lkp : LkpState := {}
  mtr : MtrState := {}
  fw : FwState := {}
  clk : ClkState := {}
  io : IoState := {}
deriving DecidableEq, Repr

/-- Right after reset: the instant RESET_L rises after power-on, before any step of start-up (R477, R483). Every entry is at its
default, but `pwr_last_reset` and the power-on count name this reset; nothing is stored, nothing is queued. -/
def State.reset : State := { od := [(0x130600, 1), (0x130701, 1)] }

end Sys2Proof.Machine
end

