-- ==== Sys2Proof/Machine/Ops.lean ====
section
/-! DEFINITION. The operations every command shares: reading and writing a dictionary entry, counting (R526), free
values, outputs, raising a cause (R380), the event targets (R383), the performance counters (R364), Ensign's record
buffer (R375) and the discard of a reference (R355). -/

namespace Sys2Proof.Machine

/-! ### Dictionary values -/

/-- The default route word of a source (Table — Default routes, R382). -/
def defaultRoute (src : Nat) : Nat :=
  if src ≤ 47 then 0x800
  else if src = 64 then 0x80000000
  else if 65 ≤ src ∧ src ≤ 127 then 0x400000 + (src - 64) * 2 ^ 16
  else 0

/-- The default descriptor of a pool (Table — Default pools, R206). -/
def defaultPoolDesc (n : Nat) : Nat :=
  if n = 0 then 0x8000000000058000
  else if n = 1 then 0xC000000003000000
  else if n = 27 then 0x8000160000004000
  else if n = 28 then 0xA000170000001800
  else if n = 29 then 0xA000176000000800
  else if n = 30 then 0xA000178000001000
  else if n = 31 then 0xA00017C000001000
  else 0

/-- Defaults that a table of their own gives. -/
def tableDefault (idx sub : Nat) : Option Nat :=
  if 0x140C ≤ idx ∧ idx ≤ 0x140F then some (defaultRoute ((idx - 0x140C) * 256 + sub))
  else if idx = 0x4002 then some (defaultPoolDesc sub)
  else if idx = 0x4005 then some (if sub = 0 then 0x56000 else if sub = 1 then 0x3000000 else 0)
  else if idx = 0x4006 then some (if sub = 0 then 0x2000 else 0)
  else if idx = 0x4150 then
    some (if sub = 0 then 0x1F4 else if sub = 1 then 0x3E8 else if sub = 2 then 0x7D0
          else if sub = 3 then 0xF4240 else if sub = 4 then 0x186A0 else 0)
  else if idx = 0x1005 then some 0x43
  else none

/-- The default of an entry: what it reads as when nothing has changed it. -/
def odDefault (k : Nat) : Nat :=
  match tableDefault (k % 2 ^ 24 / 256) (k % 256) with
  | some d => d
  | none => match odFind k with
    | some r => r.dflt
    | none => 0

/-- The stored value of an entry. -/
def reg (s : State) (k : Nat) : Nat := mget (odDefault k) s.od k

/-- Store a value in an entry. -/
def setReg (s : State) (k v : Nat) : State := { s with od := mset (odDefault k) s.od k v }

/-- Whether an entry is non-zero. -/
def flag (s : State) (k : Nat) : Bool := reg s k != 0

/-- The stored bytes of a DOMAIN or STRING entry that is a table of its own. -/
def blk (s : State) (k : Nat) : List Byte := mget [] s.blocks k

/-- Store the bytes of such an entry. -/
def setBlk (s : State) (k : Nat) (b : List Byte) : State := { s with blocks := mset [] s.blocks k b }

/-- The key of a per-caller entry (R427, R447). -/
def callerKey (caller k : Nat) : Nat := caller * 2 ^ 24 + k

/-- Add to a count of width `w`: it wraps to zero (R526). -/
def countBy (s : State) (w k n : Nat) : State := setReg s k ((reg s k + n) % 2 ^ w)

/-- A 64-bit count takes one. -/
def count1 (s : State) (k : Nat) : State := countBy s 64 k 1

/-- A 32-bit count takes one. -/
def count32 (s : State) (k : Nat) : State := countBy s 32 k 1

/-- A saturating count of width `w`. -/
def countSat (s : State) (w k n : Nat) : State := setReg s k (min (reg s k + n) (2 ^ w - 1))

/-- Record an output. -/
def emit (s : State) (e : Emission) : State := { s with sent := e :: s.sent }

/-- A fresh open value of `w` bits, and the state that has used it (notes/assumptions/7). -/
def freeBits (s : State) (w : Nat) : Nat × State :=
  (Config.freeValue s.freeCtr % 2 ^ w, { s with freeCtr := s.freeCtr + 1 })

/-- TIME as it is shown: nanoseconds of TIME as software set it. -/
def timeNs (s : State) : Nat := (s.time + s.timeOffset) % 2 ^ 64

/-- The device's own fabric ID (R331). -/
def ownId (s : State) : Nat := reg s Reg.ftDeviceId % 2 ^ 20

/-- A step of start-up is reached: milliseconds from the rise of RESET_L (`pwr_startup_ms`). -/
def startupMark (s : State) (n : Nat) : State :=
  { s with pwr.startMs := mput s.pwr.startMs n ((s.time - s.pwr.rose) / 1000000) }

/-! ### Packets and ports -/

/-- The record of a port instance. -/
def port (s : State) (p : Nat) : Port := mget {} s.ports p

/-- Replace the record of a port instance. -/
def setPort (s : State) (p : Nat) (x : Port) : State := { s with ports := mset {} s.ports p x }

/-- The packet of a number. -/
def pkt? (s : State) (i : Nat) : Option Pkt := mfind s.pkts i

/-- Replace a packet. -/
def setPkt (s : State) (i : Nat) (p : Pkt) : State := { s with pkts := mput s.pkts i p }

/-- Forget a packet. -/
def delPkt (s : State) (i : Nat) : State := { s with pkts := mdel s.pkts i }

/-- The first lane of the native port or FlexE PHY in slot P(32i + j) (R55). -/
def firstLane (p : Nat) : Nat := p / 32 * 8 + p % 32

/-- The slot of the native port whose first lane is `l` (R55). -/
def slotOfLane (l : Nat) : Nat := l / 8 * 32 + l % 8

/-- The LMAC island of a port instance. -/
def lmacOf (p : Nat) : Nat := p / 32

/-- The PIPE of a port instance (R12, R55). -/
def pipeOf (p : Nat) : Nat := p / 64

/-- The lanes a mode takes (Table — Port modes, R53). -/
def modeLanes (m : Nat) : Nat :=
  if m = 0 then 0
  else if m = 1 ∨ m = 2 ∨ m = 4 ∨ m = 7 ∨ m = 10 then 1
  else if m = 6 ∨ m = 9 ∨ m = 13 then 2
  else if m = 3 ∨ m = 5 ∨ m = 8 ∨ m = 12 ∨ m = 15 then 4
  else 8

/-- The speed of a mode in Gb/s (Table — Port modes). -/
def modeSpeed (m : Nat) : Nat :=
  if m = 0 then 0 else if m = 1 then 10 else if m = 2 then 25 else if m = 3 then 40 else if m = 4 then 50
  else if m ≤ 7 then 100 else if m ≤ 10 then 200 else if m ≤ 13 then 400 else if m ≤ 15 then 800 else 1600

/-- The `lane_rate` code of a mode's lanes (R80). -/
def modeRate (m : Nat) : Nat :=
  if m = 0 then 0 else if m = 1 ∨ m = 3 then 1 else if m = 2 ∨ m = 5 then 2
  else if m = 4 ∨ m = 6 ∨ m = 8 ∨ m = 11 then 3
  else if m = 7 ∨ m = 9 ∨ m = 12 ∨ m = 14 then 4 else 5

/-! ### Causes and sources -/

/-- The cause registers of the block. -/
inductive CauseReg where
  | port (p : Nat) | lane (l : Nat) | parser | cls | lkp | ase (k : Nat) | mc | pm | hbm (s : Nat) | qm
  | fl (l : Nat) | fb (b : Nat) | ft | obs | test | od | host | vf (v : Nat) | fw | pwr | int
deriving DecidableEq, Repr

/-- The cause register's entry. -/
def CauseReg.key : CauseReg → Nat
  | .port p => Reg.portCause p | .lane l => Reg.laneCause l | .parser => Reg.parserCause | .cls => Reg.clsCause
  | .lkp => Reg.lkpCause | .ase k => Reg.aseCause k | .mc => Reg.mcCause | .pm => Reg.pmCause
  | .hbm s => Reg.hbmCause s | .qm => Reg.qmCause | .fl l => Reg.flCause l | .fb b => Reg.fbCause b
  | .ft => Reg.ftCause | .obs => Reg.obsCause | .test => Reg.evtTestCause | .od => Reg.odCause
  | .host => Reg.hostCause | .vf v => callerKey v Reg.vfCause | .fw => Reg.fwCause | .pwr => Reg.pwrCause
  | .int => Reg.intCause

/-- The cause enable's entry. -/
def CauseReg.enableKey : CauseReg → Nat
  | .port p => Reg.portCauseEnable p | .lane l => Reg.laneCauseEnable l | .parser => Reg.parserCauseEnable
  | .cls => Reg.clsCauseEnable | .lkp => Reg.lkpCauseEnable | .ase k => Reg.aseCauseEnable k
  | .mc => Reg.mcCauseEnable | .pm => Reg.pmCauseEnable | .hbm s => Reg.hbmCauseEnable s | .qm => Reg.qmCauseEnable
  | .fl l => Reg.flCauseEnable l | .fb b => Reg.fbCauseEnable b | .ft => Reg.ftCauseEnable
  | .obs => Reg.obsCauseEnable | .test => Reg.evtTestCauseEnable | .od => Reg.odCauseEnable
  | .host => Reg.hostCauseEnable | .vf v => callerKey v Reg.vfCauseEnable | .fw => Reg.fwCauseEnable
  | .pwr => Reg.pwrCauseEnable | .int => Reg.intCauseEnable

/-- The FlexE group number of a port (log entry 14): the low 20 bits of `port_flexe_group`. -/
def flexeGroup (s : State) (p : Nat) : Nat := reg s (Reg.portFlexeGroup p) % 2 ^ 20

/-- The FlexE PHYs of a group in a PIPE, in first-lane order. -/
def groupPhys (s : State) (pipe g : Nat) : List Nat :=
  ((List.range 16).map (fun j => 64 * pipe + 32 * (j / 8) + j % 8)).filter
    (fun p => reg s (Reg.portRole p) = 2 ∧ flexeGroup s p = g)

/-- The group's PHY with the lowest PHY number (R81). -/
def lowestPhy (s : State) (l : List Nat) : Option Nat :=
  l.foldl (fun (b : Option Nat) p => match b with
    | none => some p
    | some q => if reg s (Reg.portFlexePhyNumber p) < reg s (Reg.portFlexePhyNumber q) then some p else some q) none

/-- The lane source a port's causes raise (R81). -/
def portSource (s : State) (p : Nat) : Option Nat :=
  if reg s (Reg.portRole p) = 3 then
    (lowestPhy s (groupPhys s (pipeOf p) (flexeGroup s p))).map (fun q => 128 + firstLane q)
  else if p % 32 < 8 then some (128 + firstLane p) else none

/-- The source a cause bit raises: the event tables of the chapters. -/
def CauseReg.source (s : State) : CauseReg → Nat → Option Nat
  | .port p, _ => portSource s p
  | .lane l, _ => some (128 + l)
  | .parser, b => if b = 1 then some 753 else some 752
  | .cls, b => some (754 + b)
  | .lkp, b => some (768 + b)
  | .ase _, b => some (784 + b)
  | .mc, b => some (800 + b)
  | .pm, b => some (816 + b)
  | .hbm k, b => some (832 + 8 * k + b)
  | .qm, b => some (864 + b)
  | .fl l, _ => some (384 + l)
  | .fb k, b => some (704 + 4 * k + (if b ≤ 8 then 0 else if b ≤ 11 then 1 else if b = 12 then 2 else 3))
  | .ft, b => some (736 + b)
  | .obs, b => some (896 + b)
  | .test, b => some (1008 + b)
  | .od, b => some (32 + b)
  | .host, b => some (48 + b)
  | .vf v, _ => some (64 + v)
  | .fw, b => some (40 + b)
  | .pwr, b => some b
  | .int, b => some (16 + b)

/-- The cause registers that can raise a source (R379). -/
def sourceCauses (s : State) (src : Nat) : List CauseReg :=
  if src ≤ 15 then [.pwr]
  else if src ≤ 31 then [.int]
  else if src ≤ 39 then [.od]
  else if src ≤ 47 then [.fw]
  else if src ≤ 63 then [.host]
  else if src = 64 then rangeFrom 1 63 |>.map .vf
  else if src ≤ 127 then [.vf (src - 64)]
  else if src ≤ 383 then
    .lane (src - 128) :: (((mkeys s.ports).filter (fun p => portSource s p = some src)).map .port ++
      [.port (slotOfLane (src - 128))])
  else if src ≤ 703 then [.fl (src - 384)]
  else if src ≤ 735 then [.fb ((src - 704) / 4)]
  else if src ≤ 751 then [.ft]
  else if src ≤ 753 then [.parser]
  else if src ≤ 767 then [.cls]
  else if src ≤ 783 then [.lkp]
  else if src ≤ 799 then (List.range 8).map .ase
  else if src ≤ 815 then [.mc]
  else if src ≤ 831 then [.pm]
  else if src ≤ 863 then [.hbm ((src - 832) / 8)]
  else if src ≤ 895 then [.qm]
  else if src ≤ 959 then [.obs]
  else if src ≤ 1007 then []
  else [.test]

/-- Whether an enabled cause bit of the register stands for the source. -/
def causeStands (s : State) (src : Nat) (c : CauseReg) : Bool :=
  (bitList 32 (Nat.land (reg s c.key) (reg s c.enableKey))).any
    (fun b => c.source s b = some src || (src == 64 && (match c with | .vf _ => true | _ => false)))

/-- The status of a source: an enabled cause bit is set (R379). -/
def srcStatus (s : State) (src : Nat) : Bool := (sourceCauses s src).any (causeStands s src)

/-- The sticky bit of a source. -/
def srcSticky (s : State) (src : Nat) : Bool := mget false s.evt.sticky src

/-- The mask of a source. -/
def srcMask (s : State) (src : Nat) : Bool := flag s (Reg.evtMask src)

/-- The route word of a source. -/
def srcRoute (s : State) (src : Nat) : Nat := reg s (Reg.evtRoute src)

/-- A source is pending when its sticky bit is 1 and its mask is 0 (R381). -/
def pending (s : State) (src : Nat) : Bool := srcSticky s src && !srcMask s src

/-- Whether a source is routed to a PF vector. -/
def toPf (s : State) (src v : Nat) : Bool := bit (srcRoute s src) 31 && bits (srcRoute s src) 30 23 == v

/-- Whether a source is routed to a vector of a VF. -/
def toVf (s : State) (src vf v : Nat) : Bool :=
  bit (srcRoute s src) 22 && bits (srcRoute s src) 21 16 == vf && bits (srcRoute s src) 15 12 == v

/-- The aggregate of a vector of a function, 0 the PF (R383). -/
def aggregate (s : State) (fn v : Nat) : Bool :=
  (mkeys s.evt.sticky).any (fun src => pending s src && (if fn = 0 then toPf s src v else toVf s src fn v))

/-- The level of EVENT_L: driven low while enabled and a pin source is pending; released in a device reset (R383). -/
def eventPin (s : State) : Bool :=
  flag s Reg.evtPinEnable && !s.pwr.inReset &&
    (mkeys s.evt.sticky).any (fun src => pending s src && bit (srcRoute s src) 10)

/-- MSI-X state of a function. -/
def msixOf (s : State) (fn : Nat) : MsiX := mget {} s.evt.msix fn

/-- Replace it. -/
def setMsix (s : State) (fn : Nat) (m : MsiX) : State :=
  { s with evt.msix := mset {} s.evt.msix fn m }

/-- Whether messages may go to a function: its MSI-X is enabled and, for a VF, it exists and is not in FLR (R383). -/
def msixOpen (s : State) (fn : Nat) : Bool :=
  (msixOf s fn).enable && (fn = 0 || (decide (fn ≤ reg s Reg.hostNumVfs) && !(mget false s.host.inFlr fn)))

/-- One MSI-X message for a vector, or its Pending Bit (R383). -/
def sendMsix (s : State) (fn v : Nat) : State :=
  if msixOpen s fn then
    let m := msixOf s fn
    if m.funcMask || mget false m.vecMask v then setMsix s fn { m with pba := mset false m.pba v true }
    else emit s (.msix fn v)
  else s

/-- The source's targets with vectors: (function, vector). -/
def vectorsOf (s : State) (src : Nat) : List (Nat × Nat) :=
  let r := srcRoute s src
  (if bit r 31 then [(0, bits r 30 23)] else []) ++ (if bit r 22 then [(bits r 21 16, bits r 15 12)] else [])

/-- The vectors whose aggregate was 0 in `s0` and is 1 in `s` send their message. -/
def riseMessages (s0 s : State) (vs : List (Nat × Nat)) : State :=
  vs.foldl (fun s v => if !aggregate s0 v.1 v.2 && aggregate s v.1 v.2 then sendMsix s v.1 v.2 else s) s

/-- Put one record in Ensign's buffer (R375); `tmpl` is its template. True: the buffer was full and the record is lost. -/
def ensPut (s : State) (tmpl : Nat) (body : List Byte) : Bool × State :=
  if flag s Reg.ensEnable then
    if s.obs.ensRecords.length < 8192 then
      (false, { s with obs.ensRecords := s.obs.ensRecords ++ [(tmpl, s.time, body)] })
    else (true, count1 s Reg.ensRecordsDropped)
  else (false, s)

/-- The event record of a pulse (R387). -/
def eventRecord (s : State) (src : Nat) : List Byte :=
  beBytes 8 (timeNs s) ++ beBytes 2 src ++ [byte (src / 16), 1]

/-- Write one entry of the firmware event queue, or lose it when the queue is full (R383, R385). -/
def fwEnqueue (s : State) (src : Nat) : State :=
  if s.evt.fwQueue.length < 4096 then
    let q := s.evt.fwQueue ++ [{ source := src, ns := timeNs s }]
    let s := { s with evt.fwQueue := q }
    if reg s Reg.evtFwQueueHigh < q.length then setReg s Reg.evtFwQueueHigh q.length else s
  else count1 s Reg.evtFwQueueLost

/-- One pulse of a source to its own targets (R380, R383); true: its Ensign record was lost. -/
def pulseBare (s : State) (src : Nat) : Bool × State :=
  let s0 := s
  let s := count1 s Reg.evtPulses
  let s := { s with evt.sticky := mset false s.evt.sticky src true, evt.pulsedAt := mput s.evt.pulsedAt src s.time }
  let s := riseMessages s0 s (vectorsOf s src)
  let s := if bit (srcRoute s src) 11 && (!srcMask s src || decide (src ≤ 47)) then fwEnqueue s src else s
  if bit (srcRoute s src) 9 && !srcMask s src then ensPut s 259 (eventRecord s src) else (false, s)

/-- A lost Ensign record sets ENSIGN_DROP, whose own event record is lost too where it asks for one (R375, R380). -/
def ensignDropped (s : State) : State :=
  if bit (reg s Reg.obsCause) 3 then s
  else
    let s := setReg s Reg.obsCause (setBit (reg s Reg.obsCause) 3)
    if bit (reg s Reg.obsCauseEnable) 3 then (pulseBare s 899).2 else s

/-- Put one record in Ensign's buffer, or lose it (R375). -/
def ensRecord (s : State) (tmpl : Nat) (body : List Byte) : State :=
  let r := ensPut s tmpl body
  if r.1 then ensignDropped r.2 else r.2

/-- One pulse of a source with all its effects. -/
def pulseOne (s : State) (src : Nat) : State :=
  let r := pulseBare s src
  if r.1 then ensignDropped r.2 else r.2

/-- A source pulses; source 64 pulses with any of sources 65 to 127 (R383). -/
def pulse (s : State) (src : Nat) : State :=
  let s := pulseOne s src
  if 65 ≤ src ∧ src ≤ 127 then pulseOne s 64 else s

/-- Pulse the source of a cause bit, where it has one. -/
def pulseCause (s : State) (c : CauseReg) (b : Nat) : State :=
  match c.source s b with
  | some src => pulse s src
  | none => s

/-- A subsystem sets a cause bit; a newly set, enabled bit pulses its source (R380). -/
def raise (s : State) (c : CauseReg) (b : Nat) : State :=
  if bit (reg s c.key) b then s
  else
    let s := setReg s c.key (setBit (reg s c.key) b)
    if bit (reg s c.enableKey) b then pulseCause s c b else s

/-- A W1C write to a cause register clears bits and touches no sticky bit (R381). -/
def clearCause (s : State) (c : CauseReg) (v : Nat) : State := setReg s c.key (dropBits (reg s c.key) v)

/-- A write to a cause enable: a bit that goes to 1 over a set cause pulses its source (R380). -/
def writeCauseEnable (s : State) (c : CauseReg) (v : Nat) : State :=
  let old := reg s c.enableKey
  let s := setReg s c.enableKey v
  (bitList 32 (Nat.land (reg s c.key) (dropBits v (Nat.land old v)))).foldl (fun s b => pulseCause s c b) s

/-! ### Protected words and residues (R487–R489, R495, R497, R498) -/

/-- The key of a protected word: class, unit, index within the unit. -/
def wordKey (cls unit idx : Nat) : Nat := cls * 2 ^ 48 + unit * 2 ^ 40 + idx

/-- What a word holds against what was written: flipped bits, or 4 when poisoned. -/
def flipsOf (s : State) (cls unit idx : Nat) : Nat := mget 0 s.integ.bad (wordKey cls unit idx)

/-- Set it. -/
def setFlips (s : State) (cls unit idx n : Nat) : State :=
  { s with integ.bad := mset 0 s.integ.bad (wordKey cls unit idx) n }

/-- The bad words of a class: (unit, index, flips). -/
def badWords (s : State) (cls : Nat) : List (Nat × Nat × Nat) :=
  (s.integ.bad.filter (fun x => x.1 / 2 ^ 48 == cls)).map (fun x => (x.1 / 2 ^ 40 % 256, x.1 % 2 ^ 40, x.2))

/-- `int_poisoned`. -/
def poisonedWords (s : State) : Nat := (s.integ.bad.filter (fun x => x.2 == 4)).length

/-- Whether a class's code is SECDED; the others are DEC-TED (Table — Array classes). -/
def isSecded (cls : Nat) : Bool := cls == 0 || decide (9 ≤ cls)

/-- Latch `int_last_error` (R497). -/
def latchError (s : State) (cls kind unit idx : Nat) : State :=
  setReg s Reg.intLastError (cls * 2 ^ 56 + kind * 2 ^ 48 + unit * 2 ^ 40 + idx)

/-- A corrected word is counted (R488). -/
def wordCorrected (s : State) (cls unit idx : Nat) : State :=
  let s := latchError (count1 s (Reg.intCorrected cls)) cls 0 unit idx
  let s := if cls = 0xA then raise s .int 4 else s
  raise s .int 0

/-- An uncorrectable or poisoned word is counted (R488, R499). -/
def wordLost (s : State) (cls unit idx : Nat) (poisoned : Bool) : State :=
  let s := latchError (count1 s (Reg.intUncorrectable cls)) cls (if poisoned then 2 else 1) unit idx
  raise s .int (if poisoned then 2 else 1)

/-- A read of a protected word: whether it is lost, and the counts (R488). Three flipped bits are beyond SECDED: any
outcome the code allows, an open value (R498, notes/assumptions/7). -/
def checkWord (s : State) (cls unit idx : Nat) : Bool × State :=
  let f := flipsOf s cls unit idx
  if f = 0 then (false, s)
  else if f = 4 then (true, wordLost s cls unit idx true)
  else if f = 1 ∨ (f = 2 ∧ isSecded cls = false) then (false, wordCorrected s cls unit idx)
  else if f = 3 ∧ isSecded cls then
    let r := freeBits s 1
    if r.1 = 0 then (true, wordLost r.2 cls unit idx false) else (false, wordCorrected r.2 cls unit idx)
  else (true, wordLost s cls unit idx false)

/-- Read several words; whether any is lost. -/
def checkWords (s : State) (cls : Nat) (l : List (Nat × Nat)) : Bool × State :=
  l.foldl (fun r w => let x := checkWord r.2 cls w.1 w.2; (r.1 || x.1, x.2)) (false, s)

/-- The armed fault fires: `int_inject` reads zero (R498). -/
def injectFired (s : State) : State :=
  raise (count32 (setReg s Reg.intInject 0) Reg.intInjectFired) .int 6

/-- Whether the armed fault corrupts the next result of a unit (R498). -/
def residueArmed (s : State) (unit : Nat) : Bool :=
  bits (reg s Reg.intInject) 63 60 == 4 && bits (reg s Reg.intInject) 59 56 == unit

/-- A residue mismatch: the armed fault has fired, and the mismatch is counted (R495). -/
def residueMismatch (s : State) : State :=
  raise (count1 (injectFired s) Reg.intResidueFaults) .int 8

/-- The word of a write at which the armed fault fires, if it names one (R498). -/
def armedWord (s : State) (cls unit : Nat) (idxs : List Nat) : Option Nat :=
  let f := reg s Reg.intInject
  if 1 ≤ bits f 63 60 ∧ bits f 63 60 ≤ 3 ∧ bits f 59 56 = cls ∧ bits f 55 48 = unit then
    (if bits f 39 0 = 0xFFFFFFFFFF then idxs.head? else idxs.find? (fun i => i == bits f 39 0))
  else none

/-- Words are written: what was wrong in them is gone, and an armed fault may fire, which latches its place (R489, R497,
R498). -/
def wordsWritten (s : State) (cls unit : Nat) (idxs : List Nat) : State :=
  let s := if s.integ.bad.isEmpty then s else idxs.foldl (fun s i => setFlips s cls unit i 0) s
  match armedWord s cls unit idxs with
  | some i =>
    let n := bits (reg s Reg.intInject) 63 60
    setFlips (latchError (injectFired s) cls 3 unit i) cls unit i n
  | none => s

/-! ### Performance counters -/

/-- Whether counter `n` counts carries of counter n − 1 (R364). -/
def chained (s : State) (n : Nat) : Bool := decide (0 < n) && bit (reg s (Reg.perfSelect (n - 1))) 30

/-- Carry into counter `n` after a wrap of counter n − 1. -/
def perfCarry : Nat → State → Nat → State
  | 0, s, _ => s
  | fuel + 1, s, n =>
    if bit (reg s (Reg.perfSelect n)) 31 then
      let v := reg s (Reg.perfCounter n)
      let s := setReg s (Reg.perfCounter n) ((v + 1) % 2 ^ 32)
      if v + 1 < 2 ^ 32 then s
      else if bit (reg s (Reg.perfSelect n)) 30 then perfCarry fuel s (n + 1)
      else raise { s with obs.perfOverflow := mset false s.obs.perfOverflow n true } .obs 2
    else s

/-- Add to a counter; each wrap carries into a chained neighbour or sets the overflow bit (R364). -/
def perfAdd (s : State) (n amount : Nat) : State :=
  let t := reg s (Reg.perfCounter n) + amount
  let s := setReg s (Reg.perfCounter n) (t % 2 ^ 32)
  if t < 2 ^ 32 then s
  else if bit (reg s (Reg.perfSelect n)) 30 then perfCarry 4096 s (n + 1)
  else raise { s with obs.perfOverflow := mset false s.obs.perfOverflow n true } .obs 2

/-- The counters whose selector is not 0. -/
def perfSelected (s : State) : List (Nat × Nat) :=
  (s.od.filter (fun p => decide (key 0x5110 0 ≤ p.1) && decide (p.1 < key 0x5120 0))).map
    (fun p => (p.1 - key 0x5110 0, p.2))

/-- Whether a selector matches an event: code and instance; for a discard the instance names port and reason (R363). -/
def perfMatches (sel code inst : Nat) : Bool :=
  bit sel 31 && bits sel 27 18 == code &&
    (if code = 3 then bits sel 5 0 == bits inst 5 0 && (bit sel 16 || (!bit inst 16 && bits sel 15 6 == bits inst 15 6))
     else bits sel 17 0 == inst)

/-- An event with a byte value reaches the counters (R363, R364). -/
def perfEvent (s : State) (code inst bytes : Nat) : State :=
  (perfSelected s).foldl (fun s c =>
    if perfMatches c.2 code inst && !chained s c.1 then
      (if bits c.2 29 28 = 0 then perfAdd s c.1 1 else if bits c.2 29 28 = 1 then perfAdd s c.1 bytes else s)
    else s) s

/-- Nanoseconds during which a condition held reach the counters of mode 0b10, and TIME's own nanoseconds. -/
def perfHeld (s : State) (code inst ns : Nat) : State :=
  (perfSelected s).foldl (fun s c =>
    if perfMatches c.2 code inst && bits c.2 29 28 == (if code = 0x70 then 0 else 2) && !chained s c.1 then perfAdd s c.1 ns
    else s) s

/-! ### Discards -/

/-- What a drop postcard says of its packet (R375, R376). -/
structure Card where
  inPort : Nat := 0xFFFFFFFF
  egress : Nat := 0xFFFFFFFF
  cls : Nat := 0
  size : Nat := 0
  data : List Byte := []
deriving DecidableEq, Repr

/-- Refill the postcard bucket to now: 10^9 units are one token (R375). -/
def postcardRefill (s : State) : State :=
  { s with
    obs.postTokens := min (s.obs.postTokens + (s.time - s.obs.postAt) * reg s Reg.ensPostcardRate) (64 * 1000000000)
    obs.postAt := s.time }

/-- The postcard of a discard, when its reason is enabled and a token permits (R375). -/
def postcard (s : State) (reason : Nat) (c : Card) : State :=
  if flag s Reg.ensEnable && bit (reg s Reg.ensPostcardMask) reason then
    let s := postcardRefill s
    if 1000000000 ≤ s.obs.postTokens then
      ensRecord { s with obs.postTokens := s.obs.postTokens - 1000000000 } 257
        (beBytes 8 (timeNs s) ++ [byte reason] ++ beBytes 4 c.inPort ++ beBytes 4 c.egress ++ [byte c.cls] ++
          beBytes 2 c.size ++ [byte (min c.data.length 128)] ++ c.data.take 128)
    else count1 s Reg.ensPostcardsSuppressed
  else s

/-- A discard is counted once in `drop_total` and once at its port, or as unattributed (R355). -/
def discard (s : State) (reason : Nat) (at? : Option Nat) (c : Card) : State :=
  if reason = 0 ∨ (46 ≤ reason ∧ reason ≤ 62) then s
  else
    let s := count1 s (Reg.dropTotal reason)
    let s := match at? with
      | some p => count1 s (Reg.dropPort p reason)
      | none => count1 s (Reg.dropUnattributed reason)
    let s := if reason = 8 then { s with led.c := s.led.c + 1 }
      else { s with led.x := mset 0 s.led.x reason (mget 0 s.led.x reason + 1) }
    let s := perfEvent s 3 (match at? with | some p => p * 64 + reason | none => 2 ^ 16 + reason) 0
    postcard s reason c

end Sys2Proof.Machine
end

