-- ==== Sys2Proof/Machine/Access.lean ====
section
/-! DEFINITION. Access to the dictionary (ch. 16): clients and levels (R392, R393), what a VF may reach (R433), the
statuses and the order of the write checks (R394), the failed-access record (R403), and jobs (R409–R412). -/

namespace Sys2Proof.Machine

/-- The statuses of Table — Access status. -/
inductive Status where
  | ok | refused | readOnly | busy | noEntry | level | exhausted | notReady | type | sequence | noHandle | tooLarge
  | noSession | unreachable
deriving DecidableEq, Repr

/-- Their codes. -/
def Status.code : Status → Nat
  | .ok => 0 | .refused => 1 | .readOnly => 2 | .busy => 3 | .noEntry => 4 | .level => 5 | .exhausted => 6
  | .notReady => 7 | .type => 8 | .sequence => 9 | .noHandle => 10 | .tooLarge => 11 | .noSession => 12
  | .unreachable => 13

/-- What a write comes to: a status other than OK, or the state it leaves. -/
inductive Applied where
  | fail (c : Status)
  | done (s : State)

/-- A client's number in per-caller keys: PF 0, VF v, firmware 64, sessions above. -/
def callerOf : Client → Nat
  | .pf => 0 | .vf v => v | .firmware => 64 | .session i => 65 + i

/-- A client's level (R393): 0 Observer, 1 Operator, 2 Administrator, 3 Vendor. -/
def levelOf (s : State) : Client → Nat
  | .pf => 2
  | .vf _ => 1
  | .firmware => 3
  | .session i => ((mfind s.dict.sessions i).map (·.level)).getD 0

/-- The index and subindex of a key. -/
def idxOf (k : Nat) : Nat := k % 2 ^ 24 / 256
def subOf (k : Nat) : Nat := k % 256

/-- Whether a record of `vf_od_grant` (R434) grants the access. -/
def grantCovers (r : List Byte) (idx sub : Nat) (write : Bool) : Bool :=
  decide (beAt r 0 2 ≤ idx) && decide (idx ≤ beAt r 2 2) && decide (beAt r 4 1 ≤ sub) && decide (sub ≤ beAt r 5 1) &&
    (!write || beAt r 6 1 == 2)

/-- The 8-byte records of a list. -/
def chunks (n : Nat) : Nat → List Byte → List (List Byte)
  | 0, _ => []
  | f + 1, l => if l.isEmpty then [] else l.take n :: chunks n f (l.drop n)

/-- Entries a VF always reaches (R433). -/
def vfAlways (idx : Nat) (write : Bool) : Bool :=
  (decide (0x1000 ≤ idx) && decide (idx ≤ 0x10FF) && !write) ||
  idx == 0x1180 || idx == 0x1181 || idx == 0x1182 || idx == 0x1411 || idx == 0x1412 ||
  (decide (0x1630 ≤ idx) && decide (idx ≤ 0x163C)) || idx == 0x1650 || idx == 0x1660 || idx == 0x1661 ||
  (decide (0x1662 ≤ idx) && decide (idx ≤ 0x166F)) || idx == 0x1672 || idx == 0x1673

/-- Whether a client reaches an entry at all (R433, R447). -/
def reaches (s : State) (c : Client) (k : Nat) (write : Bool) : Bool :=
  match c with
  | .vf v => vfAlways (idxOf k) write ||
      (chunks 8 32 (blk s (Reg.vfOdGrant v))).any (fun r => grantCovers r (idxOf k) (subOf k) write)
  | .pf => !(idxOf k == 0x1650 || idxOf k == 0x1672 || idxOf k == 0x1673)
  | .session _ => !(idxOf k == 0x1650 || idxOf k == 0x1672 || idxOf k == 0x1673)
  | .firmware => true

/-- Whether the firmware serves accesses to an entry (R404). -/
def fwServed (k : Nat) (cw : Bool) : Bool :=
  cw || (((decide (0x1100 ≤ idxOf k) && decide (idxOf k ≤ 0x12FF)) ||
    (decide (0x1700 ≤ idxOf k) && decide (idxOf k ≤ 0x17FF))) &&
    !(idxOf k == 0x1180 || idxOf k == 0x1181 || idxOf k == 0x1182))

/-- Whether firmware or, in recovery, the loader is there to serve an access: the loader serves only the PF, the identity range
and the firmware range (R404, R457). -/
def served (s : State) (c : Client) (k : Nat) : Bool :=
  s.fw.running || (s.fw.loader && !s.fw.halted && reg s Reg.fwState == 1 && c == .pf &&
    ((decide (0x1000 ≤ idxOf k) && decide (idxOf k ≤ 0x10FF)) || (decide (0x1200 ≤ idxOf k) && decide (idxOf k ≤ 0x12FF))))

/-- NOT_READY while the firmware that serves the access is away (R404), or until the dictionary is ready (R484). -/
def notReady (s : State) (c : Client) (k : Nat) (cw : Bool) : Bool :=
  match c with
  | .firmware => false
  | _ => s.pwr.inReset || (fwServed k cw && !served s c k) ||
    (decide (reg s Reg.pwrStartupPhase < 4) &&
      !((decide (0x1000 ≤ idxOf k) && decide (idxOf k ≤ 0x10FF)) || (decide (0x1200 ≤ idxOf k) && decide (idxOf k ≤ 0x12FF)) ||
        idxOf k == 0x1308))

/-- In Retention every access to 0x2000–0x5FFF is busy (R471). -/
def retentionBusy (s : State) (k : Nat) : Bool :=
  reg s Reg.pwrState == 2 && decide (0x2000 ≤ idxOf k) && decide (idxOf k ≤ 0x5FFF)

/-- A session that is not open: NO_SESSION (R419). Session 0 stands for the neighbours' untagged reads (R459). -/
def sessionClosed (s : State) : Client → Bool
  | .session i => i != 0 && (mfind s.dict.sessions i).isNone
  | _ => false

/-- Whether an island has no mode: a fixed island or an HBMC island (R14, R50). -/
def islandFixed (n : Nat) : Bool :=
  decide (n < 32) || n == 64 || n == 65 || (decide (106 ≤ n))

/-- Whether a job, transfer or counted write holds an entry (R394). -/
def held (s : State) (k : Nat) : Bool :=
  s.dict.transfers.any (fun t => t.2.entry == k) || s.dict.burns.any (fun b => b.entry == k)

/-- The row a client's write goes to, after the checks before the chapter's own rule, in R394's order: a session must be
open, the entry must exist for the client, take a fixed-size value, be writable, be within the client's level, and be
free. `cwTaken`: all counted writes are used up. -/
def writeChecks (s : State) (c : Client) (k : Nat) (v : Nat) : Option Status :=
  match odFind k with
  | none => some .noEntry
  | some r =>
    if sessionClosed s c then some .noSession
    else if !reaches s c k true then some .noEntry
    else if notReady s c k (match r.acc with | .cw _ => true | _ => false) then some .notReady
    else if r.ty = .domain ∨ r.ty = .job then some .type
    else if r.ty.width ≠ 0 ∧ 2 ^ r.ty.width ≤ v then some .type
    else if r.acc = .ro ∨ r.acc = .rc then some .readOnly
    else if (decide (0x1320 ≤ idxOf k) && decide (idxOf k ≤ 0x1323)) && islandFixed (subOf k) then some .readOnly
    else if levelOf s c < r.wr then some .level
    else if (match r.acc with | .cw n => decide (n ≤ mget 0 s.dict.fuseCounts k) && reg s k != v | _ => false) then some .exhausted
    else if retentionBusy s k || held s k then some .busy
    else none

/-- The stated range of an entry (R394, check 7); reserved bits are outside it only in that they read as zero (R6). -/
def inRange (k v : Nat) : Bool := match odFind k with
  | some r => (r.zeroOk && v == 0) || (decide (r.lo ≤ v) && decide (v ≤ r.hi)) || r.acc = .w1c
  | none => false

/-- The writable bits of a value (R6). -/
def writable (k v : Nat) : Nat := match odFind k with
  | some r => maskBits v r.mask
  | none => v

/-- The last failed access of a function (R403). -/
def noteFailure (s : State) (c : Client) (k : Nat) (st : Status) : State :=
  match c with
  | .session _ => s
  | .firmware => s
  | _ =>
    let e := callerKey (callerOf c) Reg.odAccessStatus
    let n := min (reg s e % 2 ^ 32 + 1) (2 ^ 32 - 1)
    setReg s e (st.code * 2 ^ 56 + idxOf k * 2 ^ 40 + subOf k * 2 ^ 32 + n)

/-- The end of an access: OK takes the new state; any other status changes nothing but the record of the failure. The
status goes out to the client (posted direct-map writes leave it in `od_access_status` alone, R403). -/
def conclude (s : State) (c : Client) (k : Nat) : Applied → State
  | .done s' => emit s' (.status (callerOf c) 0 [])
  | .fail st => emit (noteFailure s c k st) (.status (callerOf c) st.code [])

/-- A write: the common checks, the stated range, then the chapter's rule (R394). -/
def checkedWrite (s : State) (c : Client) (k v : Nat) (rule : State → Applied) : Applied :=
  match writeChecks s c k v with
  | some st => .fail st
  | none => if inRange k v then rule s else .fail .refused

/-- The main statistics of a port: only the PF reads them (R73). -/
def pfOnly (k : Nat) : Bool :=
  decide (0x2000 ≤ idxOf k) && decide (idxOf k < 0x2400) && decide (0x40 ≤ subOf k) && decide (subOf k < 0x50)

/-- The checks of a read (R392, R394, R404, R471), `wrong` the types the path does not carry; a WO entry reads as zero at any
level. -/
def readable (s : State) (c : Client) (k : Nat) (wrong : EType → Bool) : Option Status :=
  match odFind k with
  | none => some .noEntry
  | some r =>
    if sessionClosed s c then some .noSession
    else if !reaches s c k false then some .noEntry
    else if notReady s c k false then some .notReady
    else if wrong r.ty then some .type
    else if (levelOf s c < r.rd ∧ r.acc ≠ .wo) ∨ (pfOnly k ∧ c ≠ .pf) then some .level
    else if retentionBusy s k then some .busy
    else none

/-- The checks of a read of a fixed-size value. -/
def readChecks (s : State) (c : Client) (k : Nat) : Option Status := readable s c k (fun t => t == .domain)

/-- The checks of a committed DOMAIN value before its chapter's rule (R392, R394, R406). -/
def domainChecks (s : State) (c : Client) (k : Nat) : Option Status :=
  match odFind k with
  | none => some .noEntry
  | some r =>
    if sessionClosed s c then some .noSession
    else if !reaches s c k true then some .noEntry
    else if notReady s c k false then some .notReady
    else if r.ty ≠ .domain then some .type
    else if r.acc = .ro ∨ r.acc = .rc then some .readOnly
    else if levelOf s c < r.wr then some .level
    else if retentionBusy s k || held s k then some .busy
    else none

/-- A write command of a fixed-size entry. -/
def writeRow (s : State) (c : Client) (k v : Nat) (rule : State → Applied) : State :=
  conclude s c k (checkedWrite s c k v rule)

/-- A read of a whole DOMAIN value by a client: its status, or its bytes; busy while a transfer of the entry is open (R408). -/
def domainRead (s : State) (c : Client) (k : Nat) (b : List Byte) (after : State → State) : State :=
  match readable s c k (fun t => t != .domain) with
  | some st => emit (noteFailure s c k st) (.status (callerOf c) st.code [])
  | none =>
    if s.dict.transfers.any (fun t => t.2.entry == k) then emit (noteFailure s c k .busy) (.status (callerOf c) 3 [])
    else emit (after s) (.status (callerOf c) 0 b)

/-- A whole DOMAIN value committed by a client. -/
def commitRow (s : State) (c : Client) (k : Nat) (rule : State → Applied) : State :=
  match domainChecks s c k with
  | some st => conclude s c k (.fail st)
  | none => conclude s c k (rule s)

/-- The bytes of a value of an entry, most significant first (R391). -/
def valueBytes (k v : Nat) : List Byte := match odFind k with
  | some r => beBytes r.ty.size v
  | none => []

/-- A read: the value goes out, and `after` is what the read leaves behind. -/
def readRow (s : State) (c : Client) (k v : Nat) (after : State → State) : State :=
  match readChecks s c k with
  | some st => emit (noteFailure s c k st) (.status (callerOf c) st.code [])
  | none => emit (after s) (.status (callerOf c) 0 (valueBytes k v))

/-- A write that stores its writable bits. -/
def storeRule (k v : Nat) (s : State) : Applied := .done (setReg s k (writable k v))

/-- A status as a refusal or a success. -/
def guardWith (b : Bool) (st : Status) (s : State) : Applied := if b then .done s else .fail st

/-- What follows a success. -/
def Applied.bind (a : Applied) (f : State → Applied) : Applied := match a with
  | .done s => f s
  | .fail c => .fail c

/-- The state of an outcome, or the one before. -/
def Applied.getD (a : Applied) (s : State) : State := match a with
  | .done s' => s'
  | .fail _ => s

/-! ### Jobs -/

def job (s : State) (k : Nat) : Job := mget {} s.dict.jobs k
def setJob (s : State) (k : Nat) (j : Job) : State := { s with dict.jobs := mset {} s.dict.jobs k j }
def jobRunning (s : State) (k : Nat) : Bool := (job s k).state == 1

/-- The status word (Table — Job status word). -/
def Job.word (j : Job) : Nat :=
  j.state * 2 ^ 61 + b2n j.cancel * 2 ^ 60 + j.result % 256 * 2 ^ 48 + j.run % 2 ^ 16 * 2 ^ 32 + j.progress % 2 ^ 32

/-- An accepted start: the run number rises, everything else starts anew. -/
def jobBegin (s : State) (k : Nat) : State :=
  setJob s k { state := 1, run := ((job s k).run + 1) % 2 ^ 16, at0 := s.time }

/-- The running job ends with a result; after a management restart there is none to end (R412). -/
def jobEnd (s : State) (k result : Nat) : State :=
  if jobRunning s k then setJob s k { job s k with state := 2, cancel := false, result := result, phase := 0 } else s

/-- The running job ends at a cancel. -/
def jobCancelled (s : State) (k result : Nat) : State :=
  if jobRunning s k then setJob s k { job s k with state := 3, cancel := false, result := result, phase := 0 } else s

/-- Units done. -/
def jobProgress (s : State) (k n : Nat) : State := setJob s k { job s k with progress := (job s k).progress + n }
def jobPhase (s : State) (k n : Nat) : State := setJob s k { job s k with phase := n }

/-- A start: the checks of a job entry, then the chapter's refusal, then the run (R410). -/
def jobStart (s : State) (c : Client) (k : Nat) (rule : State → Applied) : Applied :=
  match odFind k with
  | none => .fail .noEntry
  | some r =>
    if sessionClosed s c then .fail .noSession
    else if !reaches s c k true then .fail .noEntry
    else if notReady s c k true then .fail .notReady
    else if r.ty ≠ .job then .fail .type
    else if levelOf s c < r.wr then .fail .level
    else if retentionBusy s k && k != Reg.pwrRetentionExit then .fail .busy
    else if jobRunning s k then .fail .busy
    else (rule s).bind (fun s => .done s)

/-- A start that begins the run when the chapter's rule passes. -/
def jobStartWith (s : State) (c : Client) (k : Nat) (rule : State → Applied) : Applied :=
  jobStart s c k (fun s => (rule s).bind (fun s => .done (jobBegin s k)))

/-- The answer to a start: the status word after it. -/
def concludeJob (s : State) (c : Client) (k : Nat) : Applied → State
  | .done s' => emit s' (.status (callerOf c) 0 (beBytes 8 (job s' k).word))
  | .fail st => emit (noteFailure s c k st) (.status (callerOf c) st.code [])

end Sys2Proof.Machine
end

