-- ==== Sys2Proof/Machine/Jobs.lean ====
section
/-! DEFINITION. Loads and the jobs that apply them (R153, R154): the same statuses and rules for `lkp_load`,
`ase_load`, `mtr_load` and `qm_load`, each with its own record size. -/

namespace Sys2Proof.Machine

/-- The entries of one load and its job: the DOMAIN, its record size, the JOB, its mode and report entries, and the
cause APPLY_DONE sets, and whether every record applied is visible (R154). -/
structure LoadJob where
  load : Nat
  size : Nat
  job : Nat
  mode : Nat
  done : Nat
  errIndex : Nat
  errCode : Nat
  cause : CauseReg
  causeBit : Nat
  ready : State → Bool := fun _ => true

/-- The completed load, if any. -/
def loadOf (s : State) (j : LoadJob) : Option (List (List Byte)) := mfind s.dict.loads j.load

/-- A commit into the load: zero bytes or a broken record refuse it, and too many records (R153). A running job holds
the load (R394). -/
def commitLoad (j : LoadJob) (b : List Byte) (s : State) : Applied :=
  if jobRunning s j.job then .fail .busy
  else if 65536 * j.size < b.length then .fail .tooLarge
  else if b.isEmpty || b.length % j.size != 0 then .fail .refused
  else .done { s with dict.loads := mput s.dict.loads j.load (chunks j.size (b.length / j.size) b) }

/-- A start (R154): refused with no completed load, busy while a transfer into the load is open. -/
def startLoadJob (j : LoadJob) (s : State) : Applied :=
  if (loadOf s j).isNone then .fail .refused
  else if s.dict.transfers.any (fun t => t.2.entry == j.load) then .fail .busy
  else .done (setReg (setReg (setReg s j.done 0) j.errIndex 0xFFFFFFFF) j.errCode 0)

/-- The next record of the running job. -/
def nextRecord (s : State) (j : LoadJob) : Option (List Byte) :=
  if jobRunning s j.job then (loadOf s j).bind (fun l => (l.drop (job s j.job).phase).head?) else none

/-- The op of the next record. -/
def nextOp (s : State) (j : LoadJob) : Option Nat := (nextRecord s j).map (fun r => byteAt r 0)

/-- The job ends: APPLY_DONE is set at every end (R154). -/
def endLoadJob (s : State) (j : LoadJob) (cancelled : Bool) : State :=
  let code := reg s j.errCode
  raise (if cancelled then jobCancelled s j.job code else jobEnd s j.job code) j.cause j.causeBit

/-- One record's result: it counts as applied, or it is the first refused record, and the job goes on or ends by its
mode (R154). -/
def recordDone (s : State) (j : LoadJob) (code : Nat) : State :=
  let i := (job s j.job).phase
  let s := jobProgress (jobPhase s j.job (i + 1)) j.job 1
  if code = 0 then setReg s j.done (reg s j.done + 1)
  else
    let s := if reg s j.errIndex = 0xFFFFFFFF then setReg (setReg s j.errIndex i) j.errCode code else s
    if reg s j.mode = 0 then
      let s := jobPhase s j.job 65536
      if j.ready s then endLoadJob s j false else s
    else s

/-- Take the next record with the chapter's rule for it: its result and what it leaves. -/
def takeRecord (s : State) (j : LoadJob) (apply : State → List Byte → Nat × State) : State :=
  match nextRecord s j with
  | none => s
  | some r =>
    let x := apply s r
    recordDone (if x.1 = 0 then x.2 else s) j x.1

/-- Take the next record when its op is one of these. -/
def takeOp (s : State) (j : LoadJob) (ops : List Nat) (apply : State → List Byte → Nat × State) : State :=
  match nextOp s j with
  | some op => if ops.contains op then takeRecord s j apply else s
  | none => s

/-- The job ends once every record it applied is visible (R154). -/
def endIfReady (s : State) (j : LoadJob) (cancelled : Bool) : State :=
  if j.ready s then endLoadJob s j cancelled else jobPhase s j.job 65536

/-- One turn of the job: a start, or a step that honours a cancel, takes the next record, or ends the job. -/
def loadJobTurn (s : State) (j : LoadJob) (op : JobOp) (apply : State → List Byte → Nat × State) : State :=
  match op with
  | .start c => concludeJob s c j.job (jobStartWith s c j.job (startLoadJob j))
  | .step =>
    if !jobRunning s j.job then s
    else if (job s j.job).cancel then endIfReady s j true
    else match nextRecord s j with
      | some _ => takeRecord s j apply
      | none => endIfReady s j false

/-- Whether the bytes of a record in a range are all zero. -/
def zeroBytes (r : List Byte) (a n : Nat) : Bool := (slice r a n).all (fun b => b == 0)

end Sys2Proof.Machine
end

