-- ==== Sys2Proof/Machine/Lookup.lean ====
section
/-! DEFINITION. The lookup tables (ch. 6): routes and their rebuilds, the pivot map, the exact-match pool with its
relocations, the compatibility region, next hops, loads, the pivot move and the dump. -/

namespace Sys2Proof.Machine

/-! ### Stage actions (R110) -/

/-- How many operand bits the table names for an action code, from bit 0; none for a reserved code. -/
def operandBits (c : Nat) : Option Nat :=
  match c with
  | 0x00 => some 0 | 0x01 => some 6 | 0x02 => some 8 | 0x03 => some 0 | 0x04 => some 26 | 0x05 => some 16 | 0x06 => some 7
  | 0x07 => some 18 | 0x08 => some 21 | 0x09 => some 8 | 0x0A => some 4 | 0x0B => some 8 | 0x0C => some 10 | 0x0D => some 33
  | 0x0E => some 11 | 0x0F => some 2 | 0x10 => some 11 | 0x11 => some 10 | 0x12 => some 11
  | _ => none

/-- Whether an action's code is not reserved. -/
def codeOk (a : Nat) : Bool := (operandBits (a / 2 ^ 56)).isSome

/-- Whether a stage action holds no reserved code and no reserved operand bit. -/
def actionOk (a : Nat) : Bool :=
  match operandBits (a / 2 ^ 56) with
  | some n => decide (a % 2 ^ 56 < 2 ^ n)
  | none => false

/-- An action without the operand bits its code does not name: reserved bits read as zero (R6). -/
def actionNamed (a : Nat) : Nat := a / 2 ^ 56 * 2 ^ 56 + a % 2 ^ ((operandBits (a / 2 ^ 56)).getD 0)

/-- An action of a code and an operand. -/
def action (c o : Nat) : Nat := c * 2 ^ 56 + o

/-! ### Words of the stripes (class 0x05, notes/assumptions/22) -/

/-- The word index of an entry of a table: 1 routes, 2 exact, 3 compatibility, 4 adjacencies, 5 groups, 6 members. -/
def lkpWord (t i : Nat) : Nat := t * 2 ^ 32 + i

/-- A word of a stripe is written. -/
def lkpWritten (s : State) (stripe t i : Nat) : State := wordsWritten s 5 (48 + stripe) [lkpWord t i]

/-- A word of a stripe is read: whether it is lost. -/
def lkpRead (s : State) (stripe t i : Nat) : Bool × State := checkWord s 5 (48 + stripe) (lkpWord t i)

/-! ### Longest-prefix match (R137–R141) -/

/-- Address bits of a family: 0 IPv4, 1 IPv6. -/
def addrBits (fam : Nat) : Nat := if fam = 0 then 32 else 128

/-- The key of a route. -/
def routeKey (vrf fam len pfx : Nat) : Nat := ((vrf * 2 + fam) * 256 + len) * 2 ^ 128 + pfx
def rkVrf (k : Nat) : Nat := k / 2 ^ 137 % 2 ^ 12
def rkFam (k : Nat) : Nat := k / 2 ^ 136 % 2
def rkLen (k : Nat) : Nat := k / 2 ^ 128 % 256
def rkPfx (k : Nat) : Nat := k % 2 ^ 128

/-- A route's copy in a stripe. -/
def copyKey (stripe rk : Nat) : Nat := stripe * 2 ^ 160 + rk

/-- The pivot length of a family. -/
def pivotLen (s : State) (fam : Nat) : Nat := reg s (if fam = 0 then Reg.lkpPivotV4 else Reg.lkpPivotV6)

/-- The map index of a VRF, family and address (R139). -/
def pivotIndex (s : State) (vrf fam addr : Nat) : Nat :=
  let top := if fam = 0 then addr else addr / 2 ^ 96
  let n := pivotLen s fam
  let m := top / 2 ^ (32 - n) * 2 ^ (32 - n)
  crcFwd 16 0x1021 0xFFFF (beBytes 2 vrf ++ [if fam = 0 then 4 else 6] ++ beBytes 4 m)

/-- A map entry: entry i names stripe i AND 7 until moved (R139). -/
def pivotEntry (s : State) (i : Nat) : Nat := mget (i % 8) s.lkp.pivot i

/-- The stripes a prefix is stored in (R138). -/
def stripesOf (s : State) (rk : Nat) : List Nat :=
  if rkLen rk < pivotLen s (rkFam rk) then List.range 8
  else [pivotEntry s (pivotIndex s (rkVrf rk) (rkFam rk) (rkPfx rk))]

/-- The units of a route (R137). -/
def routeUnits (rk : Nat) (r : Route) : Nat :=
  (if rkFam rk = 0 then 1 else if rkLen rk ≤ 64 then 2 else 4) + (if bit r.res 1 then 1 else 0)

/-- `lkp_lpm_units_used` of a stripe. -/
def unitsUsed (s : State) (stripe : Nat) : Nat :=
  (s.lkp.want.filter (fun x => x.1 / 2 ^ 160 == stripe)).foldl (fun n x => n + routeUnits (x.1 % 2 ^ 160) x.2) 0

/-- The units of a stripe (R133). -/
def stripeUnits : Nat := 1572864

/-- UNITS_HIGH when a stripe reaches the percentage (R156). -/
def unitsHigh (s0 s : State) (stripe : Nat) : State :=
  let at' := fun (t : State) => decide (reg s Reg.lkpLpmUnitsHighPct * stripeUnits ≤ unitsUsed t stripe * 100)
  if at' s && !at' s0 then raise s .lkp 1 else s

/-- The rebuilds in flight of a stripe. -/
def rebuildsOf (s : State) (stripe : Nat) : List Rebuild := mget [] s.lkp.rebuilds stripe
def setRebuilds (s : State) (stripe : Nat) (l : List Rebuild) : State :=
  { s with lkp.rebuilds := mset [] s.lkp.rebuilds stripe l }

/-- Whether every change taken in a stripe is visible. -/
def stripeVisible (s : State) (stripe : Nat) : Bool := (rebuildsOf s stripe).all (fun r => r.at0.isSome)

/-- Whether every record taken is visible (R154). -/
def allVisible (s : State) : Bool := (List.range 8).all (stripeVisible s)

/-- A change of one copy: it holds for later records at once, and a rebuild brings it to lookups (R141). -/
def changeCopy (s : State) (stripe rk : Nat) (v : Option Route) : State :=
  let k := copyKey stripe rk
  let s := { s with lkp.want := match v with | some r => mput s.lkp.want k r | none => mdel s.lkp.want k }
  setRebuilds s stripe (rebuildsOf s stripe ++ [{ key := rk, val := v }])

/-- A route of these values for a new copy; it carries an action of its own only with its extended bit set (R140). -/
def newRoute (s : State) (res ext : Nat) : Route := { res := res, ext := if bit res 1 then ext else 0, word := s.lkp.nextWord }

/-- Whether every stripe of a list can begin one more rebuild (R141). -/
def rebuildRoom (s : State) (l : List Nat) : Bool := l.all (fun k => decide ((rebuildsOf s k).length < 32))

/-- LPM_SUBTREE_SWITCH: the stripe's oldest rebuild is switched in; lookups walk it from now on (R141). -/
def execLpmSubtreeSwitch (stripe : Nat) (s : State) : Host.Outcome State Fault Refusal :=
  let l := rebuildsOf s stripe
  match l.find? (fun r => r.at0.isNone) with
  | none => .next s
  | some r =>
    let k := copyKey stripe r.key
    let s := setRebuilds s stripe (l.takeWhile (fun x => x.at0.isSome) ++ [{ r with at0 := some s.time }] ++
      (l.dropWhile (fun x => x.at0.isSome)).drop 1)
    let s := { s with lkp.routes := match r.val with | some x => mput s.lkp.routes k x | none => mdel s.lkp.routes k }
    let s := match r.val with | some x => lkpWritten s stripe 1 x.word | none => s
    .next (count1 s (Reg.lkpRebuilds stripe))

/-- LPM_SUBTREE_FREE: 1 µs after its switch the old subtree of the oldest rebuild is freed (R141). -/
def execLpmSubtreeFree (stripe : Nat) (s : State) : Host.Outcome State Fault Refusal :=
  match rebuildsOf s stripe with
  | r :: rest => match r.at0 with
    | some t => if t + 1000 ≤ s.time then .next (setRebuilds s stripe rest) else .next s
    | none => .next s
  | [] => .next s

/-- The prefix of `len` bits of an address. -/
def prefixOf (fam len addr : Nat) : Nat := addr / 2 ^ (addrBits fam - len) * 2 ^ (addrBits fam - len)

/-- The longest matching prefix of a stripe, lengths from `n` down. -/
def longestFrom (s : State) (stripe vrf fam addr : Nat) : Nat → Option Route
  | 0 => mfind s.lkp.routes (copyKey stripe (routeKey vrf fam 0 0))
  | n + 1 => match mfind s.lkp.routes (copyKey stripe (routeKey vrf fam (n + 1) (prefixOf fam (n + 1) addr))) with
    | some r => some r
    | none => longestFrom s stripe vrf fam addr n

/-! ### The exact-match pool (R144–R147) -/

/-- Key bits of a type; 0 for a reserved type (Table — Exact-match types). -/
def emBits (ty : Nat) : Nat :=
  if ty = 1 then 62 else if ty = 2 then 44 else if ty = 3 then 28 else if ty = 4 then 78 else if ty = 5 then 24
  else if ty = 6 then 96 else if ty = 8 then 128 else if ty = 9 then 128 else 0

/-- Whether a type takes two slots. -/
def emWide (ty : Nat) : Bool := decide (8 ≤ ty)

/-- Native buckets of a stripe: B (R145). -/
def emBuckets (s : State) : Nat := 65536 - reg s Reg.clsCompatBuckets / 8

/-- The key hash (R145). -/
def emHash (ty key : Nat) : Nat := crc32c (byte ty :: beBytes ((emBits ty + 7) / 8) key)

/-- Home stripe and the two buckets of a hash. -/
def emHome (h : Nat) : Nat := h / 2 ^ 29 % 8
def emB1 (s : State) (h : Nat) : Nat := h % 65536 * emBuckets s / 65536
def emB2 (s : State) (h : Nat) : Nat := bits h 28 13 * emBuckets s / 65536

/-- The place of a slot of a bucket of a stripe. -/
def emPlace (stripe b slot : Nat) : Nat := stripe * 2 ^ 18 + b * 4 + slot

/-- The entry whose first slot this is. -/
def emAt (m : SMap EmEntry) (stripe b slot : Nat) : Option EmEntry := mfind m (emPlace stripe b slot)

/-- Whether a slot is taken: by its own entry, or by the pair below it. -/
def emTaken (m : SMap EmEntry) (stripe b slot : Nat) : Bool :=
  (emAt m stripe b slot).isSome ||
    (slot % 2 == 1 && (match emAt m stripe b (slot - 1) with | some e => emWide e.ty | none => false))

/-- The lowest free place of a bucket: a slot, or a pair (R146). -/
def emFree (m : SMap EmEntry) (stripe b : Nat) (wide : Bool) : Option Nat :=
  if wide then [0, 2].find? (fun x => !emTaken m stripe b x && !emTaken m stripe b (x + 1))
  else [0, 1, 2, 3].find? (fun x => !emTaken m stripe b x)

/-- The slot of a key in a bucket. -/
def emSlotOf (m : SMap EmEntry) (stripe b ty key : Nat) : Option Nat :=
  [0, 1, 2, 3].find? (fun x => match emAt m stripe b x with | some e => e.ty == ty && e.key == key | none => false)

/-- Where a key stands: bucket and slot. -/
def emFind (s : State) (ty key : Nat) : Option (Nat × Nat) :=
  let h := emHash ty key
  match emSlotOf s.lkp.em (emHome h) (emB1 s h) ty key with
  | some x => some (emB1 s h, x)
  | none => (emSlotOf s.lkp.em (emHome h) (emB2 s h) ty key).map (fun x => (emB2 s h, x))

/-- The other bucket of a resident entry. -/
def emOther (s : State) (b : Nat) (e : EmEntry) : Nat :=
  let h := emHash e.ty e.key
  if emB1 s h = b then emB2 s h else emB1 s h

/-- The relocations that free a place in a bucket with exactly `d` moves, the first found in slot order; each move is
(from bucket, slot, to bucket, slot), in the order performed (R146). -/
def emRoom (s : State) (stripe : Nat) : Nat → SMap EmEntry → Nat → Bool → Option (SMap EmEntry × List (Nat × Nat × Nat × Nat))
  | 0, _, _, _ => none
  | d + 1, m, b, wide =>
    [0, 1, 2, 3].findSome? (fun x => match emAt m stripe b x with
      | none => none
      | some e =>
        let o := emOther s b e
        if o = b then none
        else
          let room := if d = 0 then some (m, []) else emRoom s stripe d m o (emWide e.ty)
          match room with
          | none => none
          | some (m', moves) =>
            if emAt m' stripe b x = some e then
              match emFree m' stripe o (emWide e.ty) with
              | none => none
              | some y =>
                let m'' := mput (mdel m' (emPlace stripe b x)) (emPlace stripe o y) e
                if (emFree m'' stripe b wide).isSome then some (m'', moves ++ [(b, x, o, y)]) else none
            else none)

/-- The shortest chain, up to 8 deep, from b1 before b2: the table after it, its moves, and the bucket freed. -/
def emSearch (s : State) (stripe b1 b2 : Nat) (wide : Bool) : Option (SMap EmEntry × List (Nat × Nat × Nat × Nat) × Nat) :=
  (rangeFrom 1 8).findSome? (fun d =>
    match emRoom s stripe d s.lkp.em b1 wide with
    | some (m, l) => some (m, l, b1)
    | none => if b1 = b2 then none else (emRoom s stripe d s.lkp.em b2 wide).map (fun x => (x.1, x.2, b2)))

/-- Install an entry at a place. -/
def emPut (s : State) (stripe b x : Nat) (e : EmEntry) : State :=
  lkpWritten { s with lkp.em := mput s.lkp.em (emPlace stripe b x) e } stripe 2 (b * 4 + x)

/-- Whether the native region of any stripe holds an entry (R145). -/
def emEmpty (s : State) : Bool := s.lkp.em.isEmpty

/-- `lkp_em_slots_used`. -/
def emUsed (s : State) (stripe : Nat) : Nat :=
  (s.lkp.em.filter (fun x => x.1 / 2 ^ 18 == stripe)).foldl (fun n x => n + (if emWide x.2.ty then 2 else 1)) 0

/-- An exact add (R146): its result. -/
def exactAdd (s : State) (ty key res : Nat) : Nat × State :=
  let h := emHash ty key
  let st := emHome h
  let e : EmEntry := { ty := ty, key := key, res := res }
  if (emFind s ty key).isSome then (3, s)
  else match emFree s.lkp.em st (emB1 s h) (emWide ty) with
    | some x => (0, emPut s st (emB1 s h) x e)
    | none => match emFree s.lkp.em st (emB2 s h) (emWide ty) with
      | some x => (0, emPut s st (emB2 s h) x e)
      | none => match emSearch s st (emB1 s h) (emB2 s h) (emWide ty) with
        | some (m, moves, b) =>
          let s := moves.foldl (fun s v => lkpWritten s st 2 (v.2.2.1 * 4 + v.2.2.2)) { s with lkp.em := m }
          let s := countBy s 64 Reg.lkpEmRelocations moves.length
          match emFree s.lkp.em st b (emWide ty) with
          | some x => (0, emPut s st b x e)
          | none => (2, s)
        | none => (2, s)

/-- N, the buckets of the compatibility region (R119). -/
def compatBuckets (s : State) : Nat := reg s Reg.clsCompatBuckets

/-- The compatibility hit of a template and key: the action word (R120, R147); none on a miss or a lost word. -/
def compatFind (s : State) (tmpl key : Nat) : Option Nat × State :=
  let h := crc32c (byte tmpl :: beBytes 13 key)
  let b1 := bits h 18 0 % compatBuckets s
  let b2 := bits h 31 13 % compatBuckets s
  let places := ([0, 1, 2, 3].map (fun x => (b1, x))) ++ ([0, 1, 2, 3].map (fun x => (b2, x)))
  match places.find? (fun p =>
      let w := mget 0 s.lkp.compat (p.1 * 4 + p.2)
      bit w 191 && bits w 190 188 == tmpl && bits w 187 84 == key) with
  | none => (none, s)
  | some p =>
    let r := lkpRead s (p.1 % 8) 3 (p.1 / 8 * 4 + p.2)
    if r.1 then (none, r.2) else (some (bits (mget 0 s.lkp.compat (p.1 * 4 + p.2)) 79 16), r.2)

/-! ### Next hops (R148–R150) -/

def adjOf (s : State) (i : Nat) : Nat := mget 0 s.lkp.adj i
def groupOf (s : State) (g : Nat) : Nat := mget 0 s.lkp.groups g
def memberOf (s : State) (m : Nat) : Nat := mget 0 s.lkp.members m

/-- What resolving an index comes to: the adjacency as read, whether it is valid, and whether a word was lost. -/
structure Resolved where
  adj : Nat := 0
  valid : Bool := false
  lost : Bool := false
  s : State

/-- Read an adjacency. -/
def readAdj (s : State) (i : Nat) : Resolved :=
  let r := lkpRead s (i % 8) 4 i
  let a := adjOf s i
  { adj := a, valid := bit a 127, lost := r.1, s := r.2 }

/-- Resolve a next-hop index under a hash (R149, R150). -/
def resolveNh (s : State) (n hash : Nat) : Resolved :=
  if bit n 20 then
    let g := n % 65536
    let r := lkpRead s (g % 8) 5 g
    let w := groupOf s g
    if r.1 then { lost := true, s := r.2 }
    else if !bit w 63 then { s := r.2 }
    else
      let m := bits w 62 43 + hash * bits w 42 30 / 65536
      let q := lkpRead r.2 (m % 8) 6 m
      if q.1 then { lost := true, s := q.2 } else readAdj q.2 (memberOf s m)
  else readAdj s (n % 2 ^ 20)

/-- What a slot returns (R134, R148): hit, actions in order, and the result block; `nh` is the next hop that action 0x03
applies, if any. -/
structure SlotResult where
  hit : Bool := false
  acts : List Nat := []
  block : Nat := 0
  nh : Option Resolved := none

/-- A miss. -/
def slotMiss : SlotResult := {}

/-- A hit with these actions; with a next hop it is resolved first and listed first. A lost word makes it a miss (R492). -/
def slotHit (s : State) (nh : Option Nat) (hash : Nat) (acts : List Nat) : SlotResult × State :=
  match nh with
  | none => ({ hit := true, acts := acts }, s)
  | some n =>
    let r := resolveNh s n hash
    if r.lost then (slotMiss, r.s)
    else ({ hit := true, acts := action 3 0 :: acts, block := r.adj, nh := some r }, r.s)

/-- A lookup is served by an LKP: it counts there (R136). -/
def servedBy (s : State) (stripe : Nat) : State := perfEvent (count1 s (Reg.lkpLookups stripe)) 0x20 stripe 0

/-- A null lookup (R37, R133). -/
def nullLookup (s : State) (pipe : Nat) : State := servedBy s (pipe % 8)

/-- The actions of an action profile. -/
def lkpProfile (s : State) (n : Nat) : List Nat :=
  let w := mget 0 s.lkp.profiles n
  [w / 2 ^ 64, w % 2 ^ 64]

/-- An LPM lookup (R138–R140). -/
def lookupLpm (s : State) (fam vrf addr hash : Nat) : SlotResult × State :=
  let st := pivotEntry s (pivotIndex s vrf fam addr)
  let s := servedBy s st
  match longestFrom s st vrf fam addr (addrBits fam) with
  | none => (slotMiss, s)
  | some r =>
    let q := lkpRead s st 1 r.word
    if q.1 then (slotMiss, q.2)
    else slotHit q.2 (if bit r.res 31 then some (bits r.res 30 10) else none) hash
      (lkpProfile s (bits r.res 9 2) ++ (if bit r.res 1 then [r.ext] else []))

/-- An exact lookup (R145). -/
def lookupExact (s : State) (ty key hash : Nat) : SlotResult × State :=
  let h := emHash ty key
  let s := servedBy s (emHome h)
  match emFind s ty key with
  | none => (slotMiss, s)
  | some p => match emAt s.lkp.em (emHome h) p.1 p.2 with
    | none => (slotMiss, s)
    | some e =>
      let q := lkpRead s (emHome h) 2 (p.1 * 4 + p.2)
      if q.1 then (slotMiss, q.2)
      else slotHit q.2 (if bit e.res 85 then some (bits e.res 84 64) else none) hash [e.res % 2 ^ 64]

/-- An adjacency read (R150). -/
def lookupAdj (s : State) (pipe n hash : Nat) : SlotResult × State :=
  let s := servedBy s (pipe % 8)
  if bit n 20 then
    if bits n 19 16 ≠ 0 ∨ !bit (groupOf s (n % 65536)) 63 then (slotMiss, s) else slotHit s (some n) hash []
  else if !bit (adjOf s (n % 2 ^ 20)) 127 then (slotMiss, s)
  else slotHit s (some n) hash []

/-- The actions a compatibility action word stands for (Table — Compatibility action word). -/
def compatActions (w : Nat) : List Nat :=
  let op := bits w 63 60
  (if op = 1 then [action 1 17] else if op = 2 then [action 2 (bits w 47 40)] else []) ++
  (if bit w 36 then [action 6 (bits w 39 37 + 8)] else []) ++
  (if bit w 15 then [action 8 (bits w 35 16 + 2 ^ 20)] else []) ++
  (if op = 3 then [action 0xA (bits w 14 11)] else []) ++
  [action 0xD (bits w 10 0 + 0x7FF * 2 ^ 16)]

/-- A compatibility lookup (R119, R120, R147). -/
def lookupCompat (s : State) (tmpl key hash : Nat) : SlotResult × State :=
  let h := crc32c (byte tmpl :: beBytes 13 key)
  let s := servedBy s (bits h 18 0 % compatBuckets s % 8)
  let r := compatFind s tmpl key
  match r.1 with
  | none => (slotMiss, r.2)
  | some w =>
    let op := bits w 63 60
    let s := if 6 ≤ op then count1 r.2 Reg.clsCompatBadOp else r.2
    let nh := if op = 0 ∨ op = 3 then some (bits w 59 40) else if op = 5 then some (2 ^ 20 + bits w 55 40) else none
    slotHit s nh hash (compatActions w)

/-! ### Loads (R153, R154) -/

/-- A next-hop index that a record may hold (R150). -/
def nhIndexOk (n : Nat) : Bool := !bit n 20 || bits n 19 16 == 0

/-- `lkp_load` and `lkp_apply`. -/
def lkpJob : LoadJob :=
  { load := Reg.lkpLoad, size := 64, job := Reg.lkpApply, mode := Reg.lkpApplyMode, done := Reg.lkpApplyDone,
    errIndex := Reg.lkpApplyErrorIndex, errCode := Reg.lkpApplyErrorCode, cause := .lkp, causeBit := 0,
    ready := allVisible }

/-- The key of a route record. -/
def recRoute (r : List Byte) : Nat :=
  routeKey (beAt r 4 2) (if byteAt r 6 = 4 then 0 else 1) (byteAt r 7) (beAt r 8 16)

/-- A route record is whole: reserved bytes, family, length, VRF, and for adds the result's reserved values (R153). -/
def routeCode (r : List Byte) : Nat :=
  let op := byteAt r 0
  let fam := if byteAt r 6 = 4 then 0 else 1
  let rest := if op = 2 then 24 else 36
  let res := beAt r 24 4
  if !zeroBytes r 1 3 || !zeroBytes r rest (64 - rest) then 5
  else if beAt r 4 2 / 4096 ≠ 0 ∨ (byteAt r 6 ≠ 4 ∧ byteAt r 6 ≠ 6) then 5
  else if fam = 0 ∧ !zeroBytes r 8 12 then 5
  else if addrBits fam < byteAt r 7 then 5
  else if op ≠ 2 ∧ (bit res 0 ∨ (bit res 1 && !actionOk (beAt r 28 8))) then 5
  else if op ≠ 2 ∧ !nhIndexOk (bits res 30 10) then 6
  else if op = 1 ∧ prefixOf fam (byteAt r 7) (beAt r 8 16) ≠ beAt r 8 16 then 7
  else 0

/-- A route record takes its stripes' copies (R137, R141). -/
def applyRoute (s : State) (r : List Byte) : Nat × State :=
  let op := byteAt r 0
  let rk := recRoute r
  let ss := stripesOf s rk
  let c := routeCode r
  let old := ss.head?.bind (fun k => mfind s.lkp.want (copyKey k rk))
  let new := newRoute s (beAt r 24 4) (beAt r 28 8)
  let extra := if op = 2 then 0 else routeUnits rk new - (match old with | some o => routeUnits rk o | none => 0)
  if c ≠ 0 then (c, s)
  else if op = 1 ∧ old.isSome then (3, s)
  else if op ≠ 1 ∧ old.isNone then (4, s)
  else if ss.any (fun k => decide (stripeUnits < unitsUsed s k + extra)) then (1, s)
  else
    let s0 := s
    let s := { s with lkp.nextWord := s.lkp.nextWord + (if op = 1 then 1 else 0) }
    let v := if op = 2 then none else some (match old with | some o => { new with word := o.word } | none => new)
    let s := ss.foldl (fun s k => changeCopy s k rk v) s
    (0, ss.foldl (fun t k => unitsHigh s0 t k) s)

/-- The key of an exact record, right-aligned. -/
def recKey (r : List Byte) : Nat := beAt r 8 40 / 2 ^ (320 - emBits (byteAt r 4))

/-- An exact record is whole (R153). -/
def exactCode (r : List Byte) : Nat :=
  let op := byteAt r 0
  let ty := byteAt r 4
  let rest := if op = 5 then 48 else 59
  let res := beAt r 48 11
  if !zeroBytes r 1 3 || !zeroBytes r 5 3 || !zeroBytes r rest (64 - rest) || emBits ty == 0 then 5
  else if beAt r 8 40 % 2 ^ (320 - emBits ty) ≠ 0 then 5
  else if op ≠ 5 ∧ (2 ^ 86 ≤ res ∨ !actionOk (res % 2 ^ 64)) then 5
  else if op ≠ 5 ∧ !nhIndexOk (bits res 84 64) then 6
  else 0

/-- An exact record (R146). -/
def applyExact (s : State) (r : List Byte) : Nat × State :=
  let op := byteAt r 0
  let ty := byteAt r 4
  let key := recKey r
  let res := beAt r 48 11
  let c := exactCode r
  let st := emHome (emHash ty key)
  if c ≠ 0 then (c, s)
  else if op = 4 then
    let x := exactAdd s ty key res
    if x.1 = 2 then (2, raise (count1 s Reg.lkpEmInsertRefused) .lkp 2) else x
  else match emFind s ty key with
    | none => (4, s)
    | some p =>
      if op = 6 then (0, emPut s st p.1 p.2 { ty := ty, key := key, res := res })
      else (0, { s with lkp.em := mdel s.lkp.em (emPlace st p.1 p.2) })

/-- An adjacency record (R148). -/
def applyAdj (s : State) (r : List Byte) : Nat × State :=
  let i := beAt r 4 4
  let a := beAt r 8 16
  if !zeroBytes r 1 3 || !zeroBytes r 24 40 || bits a 6 0 != 0 || bits a 126 125 == 3 then (5, s)
  else if 1048576 ≤ i then (6, s)
  else (0, lkpWritten { s with lkp.adj := mset 0 s.lkp.adj i (if bit a 127 then a else 0) } (i % 8) 4 i)

/-- A group record (R149). -/
def applyGroup (s : State) (r : List Byte) : Nat × State :=
  let g := beAt r 4 4
  let w := beAt r 8 8
  let n := bits w 42 30
  if !zeroBytes r 1 3 || !zeroBytes r 16 48 || w % 2 ^ 30 != 0 then (5, s)
  else if 65536 ≤ g then (6, s)
  else if bit w 63 ∧ (n = 0 ∨ 4096 < n ∨ 1048575 < bits w 62 43 + n - 1) then (6, s)
  else (0, lkpWritten { s with lkp.groups := mset 0 s.lkp.groups g (if bit w 63 then w else 0) } (g % 8) 5 g)

/-- A member record (R149): 1 to 12 members. -/
def applyMembers (s : State) (r : List Byte) : Nat × State :=
  let m := beAt r 4 4
  let n := byteAt r 8
  let l := (List.range n).map (fun i => beAt r (12 + 4 * i) 4)
  if !zeroBytes r 1 3 || !zeroBytes r 9 3 then (5, s)
  else if n = 0 ∨ 12 < n then (5, s)
  else if 1048576 < m + n then (6, s)
  else if !zeroBytes r (12 + 4 * n) (52 - 4 * n) || l.any (fun x => decide (2 ^ 20 ≤ x)) then (5, s)
  else (0, (l.zip (rangeFrom m n)).foldl (fun s x =>
    lkpWritten { s with lkp.members := mset 0 s.lkp.members x.2 x.1 } (x.2 % 8) 6 x.2) s)

/-- An action profile record (R140); profile 0 is fixed. -/
def applyProfile (s : State) (r : List Byte) : Nat × State :=
  let p := beAt r 4 2
  if !zeroBytes r 1 3 || !zeroBytes r 6 2 || !zeroBytes r 24 40 || !actionOk (beAt r 8 8) || !actionOk (beAt r 16 8) then (5, s)
  else if p = 0 ∨ 255 < p then (6, s)
  else (0, { s with lkp.profiles := mset 0 s.lkp.profiles p (beAt r 8 16) })

/-- A compatibility slot record (R119, R147). -/
def applyCompat (s : State) (r : List Byte) : Nat × State :=
  let b := beAt r 4 4
  let x := byteAt r 8
  let e := beAt r 16 24
  if !zeroBytes r 1 3 || !zeroBytes r 9 7 || !zeroBytes r 40 24 || bits e 83 80 != 0 || bits e 15 0 != 0 then (5, s)
  else if compatBuckets s ≤ b ∨ 3 < x then (6, s)
  else (0, lkpWritten { s with lkp.compat := mset 0 s.lkp.compat (b * 4 + x) (if bit e 191 then e else 0) } (b % 8) 3 (b / 8 * 4 + x))

/-- One record of `lkp_load` (R153). -/
def applyLkp (s : State) (r : List Byte) : Nat × State :=
  match byteAt r 0 with
  | 0x01 => applyRoute s r | 0x02 => applyRoute s r | 0x03 => applyRoute s r
  | 0x04 => applyExact s r | 0x05 => applyExact s r | 0x06 => applyExact s r
  | 0x07 => applyAdj s r | 0x08 => applyGroup s r | 0x09 => applyMembers s r
  | 0x0A => applyProfile s r | 0x0B => applyCompat s r
  | _ => (5, s)

/-- Whether the next record may be taken now: a route record finds room for its rebuilds (R141); an exact record keeps the
order of its stripe (R154). -/
def mayTake (s : State) : Bool :=
  match nextRecord s lkpJob with
  | none => true
  | some r =>
    let op := byteAt r 0
    if 1 ≤ op ∧ op ≤ 3 then routeCode r != 0 || rebuildRoom s (stripesOf s (recRoute r))
    else if 4 ≤ op ∧ op ≤ 6 then exactCode r != 0 || stripeVisible s (emHome (emHash (byteAt r 4) (recKey r)))
    else true

/-- The result that INSERT_REFUSED stands for is kept though the record changes nothing. -/
def lkpTake (s : State) : State :=
  if mayTake s then
    match nextRecord s lkpJob with
    | none => s
    | some r =>
      let x := applyLkp s r
      recordDone (if x.1 = 0 ∨ x.1 = 2 then x.2 else s) lkpJob x.1
  else s

/-- Take the next record when its op is this. -/
def lkpTakeOp (s : State) (op : Nat) : State := if nextOp s lkpJob = some op then lkpTake s else s

/-- LKP_LOAD_WRITE (R153). -/
def execLkpLoadWrite (client : Client) (records : List Byte) (s : State) : Host.Outcome State Fault Refusal :=
  .next (commitRow s client Reg.lkpLoad (commitLoad lkpJob records))

/-- A start of `lkp_apply`: busy while a pivot move runs (R143). -/
def startLkpApply (s : State) : Applied := if jobRunning s Reg.lkpPivotMove then .fail .busy else startLoadJob lkpJob s

/-- LKP_APPLY (R154). -/
def execLkpApply (turn : JobOp) (s : State) : Host.Outcome State Fault Refusal :=
  match turn with
  | .start c => .next (concludeJob s c Reg.lkpApply (jobStartWith s c Reg.lkpApply startLkpApply))
  | .step =>
    if !jobRunning s Reg.lkpApply then .next s
    else if (job s Reg.lkpApply).cancel then .next (endIfReady s lkpJob true)
    else match nextRecord s lkpJob with
      | some _ => .next (lkpTake s)
      | none => .next (endIfReady s lkpJob false)

/-- ROUTE_ADD (R137). -/
def execRouteAdd (s : State) : Host.Outcome State Fault Refusal := .next (lkpTakeOp s 1)

/-- ROUTE_DELETE (R153). -/
def execRouteDelete (s : State) : Host.Outcome State Fault Refusal := .next (lkpTakeOp s 2)

/-- ROUTE_REPLACE (R137). -/
def execRouteReplace (s : State) : Host.Outcome State Fault Refusal := .next (lkpTakeOp s 3)

/-- EXACT_ADD (R146). -/
def execExactAdd (s : State) : Host.Outcome State Fault Refusal := .next (lkpTakeOp s 4)

/-- EXACT_DELETE (R153). -/
def execExactDelete (s : State) : Host.Outcome State Fault Refusal := .next (lkpTakeOp s 5)

/-- EXACT_REPLACE (R153). -/
def execExactReplace (s : State) : Host.Outcome State Fault Refusal := .next (lkpTakeOp s 6)

/-- ADJACENCY_WRITE (R148). -/
def execAdjacencyWrite (s : State) : Host.Outcome State Fault Refusal := .next (lkpTakeOp s 7)

/-- GROUP_WRITE (R149). -/
def execGroupWrite (s : State) : Host.Outcome State Fault Refusal := .next (lkpTakeOp s 8)

/-- MEMBER_WRITE (R149). -/
def execMemberWrite (s : State) : Host.Outcome State Fault Refusal := .next (lkpTakeOp s 9)

/-- ACTION_PROFILE_WRITE (R140). -/
def execActionProfileWrite (s : State) : Host.Outcome State Fault Refusal := .next (lkpTakeOp s 10)

/-- COMPATIBILITY_SLOT_WRITE (R147). -/
def execCompatibilitySlotWrite (s : State) : Host.Outcome State Fault Refusal := .next (lkpTakeOp s 11)

/-- LKP_APPLY_END (R154): nothing is left to take and every record applied is visible. -/
def execLkpApplyEnd (s : State) : Host.Outcome State Fault Refusal :=
  if jobRunning s Reg.lkpApply then
    (if (job s Reg.lkpApply).cancel then .next (endIfReady s lkpJob true)
     else if (nextRecord s lkpJob).isNone then .next (endIfReady s lkpJob false) else .next s)
  else .next s

/-! ### The pivot move (R143) -/

/-- The copies in a stripe that a map entry places. -/
def placedBy (s : State) (i stripe : Nat) : List (Nat × Route) :=
  (s.lkp.want.filter (fun x =>
    let rk := x.1 % 2 ^ 160
    x.1 / 2 ^ 160 == stripe && decide (pivotLen s (rkFam rk) ≤ rkLen rk) &&
      pivotIndex s (rkVrf rk) (rkFam rk) (rkPfx rk) == i)).map (fun x => (x.1 % 2 ^ 160, x.2))

/-- A start: busy while an apply job runs; the argument is taken (R409). -/
def startPivotMove (s : State) : Applied :=
  if jobRunning s Reg.lkpApply then .fail .busy else .done { s with lkp.moveFrom := none, lkp.moveArg := reg s Reg.lkpPivotMoveArg }

/-- The job ends, and PIVOT_DONE is set (R157). -/
def pivotEnd (s : State) (result : Nat) : State :=
  raise (jobEnd { s with lkp.moveFrom := none } Reg.lkpPivotMove result) .lkp 5

/-- Steps 1 and 2: the copies are made in the new stripe, and the entry is written in every PIPE's map. -/
def pivotStep (s : State) : State :=
  let k := Reg.lkpPivotMove
  if !jobRunning s k || (job s k).phase != 0 then s
  else if (job s k).cancel then raise (jobCancelled s k 0) .lkp 5
  else
    let a := s.lkp.moveArg
    let i := a % 65536
    let new := bits a 18 16
    let old := pivotEntry s i
    let l := placedBy s i old
    let need := l.foldl (fun n x => n + routeUnits x.1 x.2) 0
    if new ≠ old ∧ stripeUnits < unitsUsed s new + need then pivotEnd s 1
    else
      let s0 := s
      let s := if new = old then s else l.foldl (fun s x =>
        let c := copyKey new x.1
        lkpWritten { s with lkp.want := mput s.lkp.want c x.2, lkp.routes := mput s.lkp.routes c x.2 } new 1 x.2.word) s
      let s := unitsHigh s0 s new
      let s := { s with lkp.pivot := mset (i % 8) s.lkp.pivot i new, lkp.moveFrom := some old }
      setJob s k { job s k with phase := 1, at0 := s.time }

/-- LKP_PIVOT_MOVE (R143). -/
def execLkpPivotMove (turn : JobOp) (s : State) : Host.Outcome State Fault Refusal :=
  match turn with
  | .start c => .next (concludeJob s c Reg.lkpPivotMove (jobStartWith s c Reg.lkpPivotMove startPivotMove))
  | .step => .next (pivotStep s)

/-- PIVOT_OLD_COPIES_REMOVE (R143): 1 µs after the map write reached every PIPE's lookups, 16 ns after it began. -/
def execPivotOldCopiesRemove (s : State) : Host.Outcome State Fault Refusal :=
  let k := Reg.lkpPivotMove
  match s.lkp.moveFrom with
  | none => .next s
  | some old =>
    if jobRunning s k ∧ (job s k).at0 + 1000 ≤ s.time then
      let i := s.lkp.moveArg % 65536
      let l := if pivotEntry s i = old then [] else placedBy s i old
      let s := l.foldl (fun s x =>
        let c := copyKey old x.1
        { s with lkp.want := mdel s.lkp.want c, lkp.routes := mdel s.lkp.routes c }) s
      .next (pivotEnd s 0)
    else .next s

/-! ### The dump (R155) -/

/-- A record of an op and a body from byte 4, padded to 64 B. -/
def lkpRecord (op : Nat) (body : List Byte) : List Byte := padTo ([byte op, 0, 0, 0] ++ body) 64

/-- The routes of a family and VRF. -/
def dumpRoutes (s : State) (fam vrf : Nat) : List (List Byte) :=
  (s.lkp.routes.filter (fun x =>
    let rk := x.1 % 2 ^ 160
    rkFam rk == fam && (vrf == 0xFFF || rkVrf rk == vrf) && (stripesOf s rk).head? == some (x.1 / 2 ^ 160))).map (fun x =>
      let rk := x.1 % 2 ^ 160
      lkpRecord 1 (beBytes 2 (rkVrf rk) ++ [if fam = 0 then 4 else 6, byte (rkLen rk)] ++ beBytes 16 (rkPfx rk) ++
        beBytes 4 x.2.res ++ beBytes 8 x.2.ext))

/-- The table `lkp_dump_select` names, as load records. -/
def lkpDumpBytes (s : State) : List Byte :=
  let sel := reg s Reg.lkpDumpSelect
  let sub := bits sel 27 16
  let recs : List (List Byte) := match bits sel 31 28 with
    | 1 => dumpRoutes s 0 sub
    | 2 => dumpRoutes s 1 sub
    | 3 => (s.lkp.em.filter (fun x => sub == 0xFFF || x.2.ty == sub)).map (fun x =>
        lkpRecord 4 ([byte x.2.ty, 0, 0, 0] ++ beBytes 40 (x.2.key * 2 ^ (320 - emBits x.2.ty)) ++ beBytes 11 x.2.res))
    | 4 => s.lkp.adj.map (fun x => lkpRecord 7 (beBytes 4 x.1 ++ beBytes 16 x.2))
    | 5 => s.lkp.groups.map (fun x => lkpRecord 8 (beBytes 4 x.1 ++ beBytes 8 x.2))
    | 6 => s.lkp.members.map (fun x => lkpRecord 9 (beBytes 4 x.1 ++ [1, 0, 0, 0] ++ beBytes 4 x.2))
    | 7 => s.lkp.profiles.map (fun x => lkpRecord 10 (beBytes 2 x.1 ++ [0, 0] ++ beBytes 16 x.2))
    | 8 => s.lkp.compat.map (fun x => lkpRecord 11 (beBytes 4 (x.1 / 4) ++ [byte (x.1 % 4)] ++ List.replicate 7 0 ++ beBytes 24 x.2))
    | _ => []
  recs.flatten

/-- LKP_DUMP_READ. -/
def execLkpDumpRead (client : Client) (s : State) : Host.Outcome State Fault Refusal :=
  .next (domainRead s client Reg.lkpDump (lkpDumpBytes s) id)

/-! ### Entries (R156) -/

/-- Whether the LPM holds a prefix of a family. -/
def famEmpty (s : State) (fam : Nat) : Bool := !s.lkp.want.any (fun x => rkFam (x.1 % 2 ^ 160) == fam)

/-- Writes of the chapter's entries. -/
def lkpWrite (k v : Nat) (s : State) : Applied :=
  if idxOf k = 0x3203 then (if famEmpty s 0 then storeRule k v s else .fail .refused)
  else if idxOf k = 0x3204 then (if famEmpty s 1 then storeRule k v s else .fail .refused)
  else storeRule k v s

/-- Values that are not stored. -/
def lkpReadVal (s : State) (k : Nat) : Nat :=
  if idxOf k = 0x3201 then unitsUsed s (subOf k) else if idxOf k = 0x3210 then emUsed s (subOf k) else reg s k

/-- DOMAIN values read. -/
def lkpDomain (s : State) (k : Nat) : List Byte :=
  if idxOf k = 0x3205 then (List.range 65536).map (fun i => byte (pivotEntry s i))
  else if idxOf k = 0x3237 then lkpDumpBytes s else []

/-- Committed DOMAIN values. -/
def lkpCommit (k : Nat) (b : List Byte) : State → Applied :=
  if idxOf k = 0x3230 then commitLoad lkpJob b else fun _ => .fail .readOnly

/-- Jobs. -/
def lkpStart (k : Nat) : State → Applied := if idxOf k = 0x3231 then startLkpApply else startPivotMove

end Sys2Proof.Machine
end

