-- ==== Sys2Proof/Machine/Plan.lean ====
section
/-! DEFINITION. The stage plan of an epoch slot as R529 lays it out: stages, key profiles, conditions and templates, and the
keys and conditions they build (R106–R108, R120). -/

namespace Sys2Proof.Machine

/-- The plan of a slot; a slot never written reads as zeros. -/
def planOf (s : State) (e : Nat) : List Byte := blk s (Reg.clsStagePlan e)

/-- Fields of a stage descriptor (Table — Stage descriptor). -/
def stageOf (b : List Byte) (i : Nat) : Nat := beAt (padTo (slice b (16 * i) 16) 16) 0 16
def stEnable (d : Nat) : Bool := bit d 127
def stPhase (d : Nat) : Nat := bits d 126 125
def stKind (d : Nat) : Nat := bits d 124 121
def stSlot (d : Nat) : Nat := bits d 120 120
def stKey (d : Nat) : Nat := bits d 119 112
def stCond (d : Nat) : Nat := bits d 111 104
def stTable (d : Nat) : Nat := bits d 103 88
def stMissCode (d : Nat) : Nat := bits d 87 80
def stMissOperand (d : Nat) : Nat := bits d 79 24
def stMiss (d : Nat) : Nat := action (stMissCode d) (stMissOperand d)

/-- A key profile record, 64 B. -/
def profileRec (b : List Byte) (n : Nat) : List Byte := padTo (slice b (192 + 64 * n) 64) 64

/-- A selector: source, highest bit, width. -/
structure Sel where
  src : Nat
  msb : Nat
  width : Nat

/-- The used selectors of a profile, most significant first (Table — Key selector). -/
def selectorsOf (r : List Byte) : List Sel :=
  ((List.range 8).map (fun i =>
    let w := beAt r (4 * i) 4
    { src := bits w 31 29, msb := bits w 28 18, width := bits w 17 11 : Sel })).filter (fun x => x.src != 0)

/-- The profile's constant and direct size. -/
def profileConst (r : List Byte) : Nat := beAt r 32 8
def profileSize (r : List Byte) : Nat := beAt r 40 2

/-- The width of a profile's key (R107). -/
def keyWidth (r : List Byte) : Nat := (selectorsOf r).foldl (fun n x => n + x.width) 0

/-- What selectors take their bits from: the header vector, the metadata bus or the descriptor, and the egress port. -/
structure Sources where
  hv : Nat
  bus : Nat
  port : Nat := 0

/-- The source word of a selector. -/
def Sources.word (x : Sources) (const src : Nat) : Nat :=
  if src = 1 then x.hv else if src = 2 then x.bus else if src = 3 then const else x.port

/-- The key a profile builds (R107, R529). -/
def buildKey (x : Sources) (r : List Byte) : Nat :=
  (selectorsOf r).foldl (fun k y =>
    k * 2 ^ y.width + bits (x.word (profileConst r) y.src) y.msb (y.msb + 1 - y.width)) 0

/-- A condition test's word. -/
def testOf (b : List Byte) (n j : Nat) : Nat := beAt (padTo (slice b (16576 + 16 * n + 8 * j) 8) 8) 0 8

/-- Whether a test holds (Table — Condition test). -/
def testHolds (x : Sources) (w : Nat) : Bool :=
  let src := bits w 63 61
  let f := bits (x.word 0 src) (bits w 60 50) (bits w 60 50 + 1 - bits w 49 45)
  src == 0 || Nat.land f (w % 65536) == Nat.land (bits w 31 16) (w % 65536)

/-- Whether a condition profile holds; profile 0 always does. -/
def condHolds (x : Sources) (b : List Byte) (n : Nat) : Bool :=
  n == 0 || (testHolds x (testOf b n 0) && testHolds x (testOf b n 1))

/-- The byte selectors of a compatibility template: base and offset (R120, R529). -/
def templateSel (b : List Byte) (t i : Nat) : Nat × Nat :=
  let w := beAt (padTo (slice b (20672 + 32 * t + 2 * i) 2) 2) 0 2
  (bits w 15 14, bits w 13 7)

/-- The 13 key bytes a template takes from a window (R120). -/
def templateKey (b : List Byte) (t : Nat) (hv : Nat) (w : List Byte) : Nat :=
  (List.range 13).foldl (fun k i =>
    let x := templateSel b t i
    let base := if x.1 = 0 then 0 else fget hv (if x.1 = 1 then hvL3Off else if x.1 = 2 then hvL4Off else hvInnerL3Off)
    let v := if base = 0xFF ∨ w.length ≤ base + x.2 then 0 else byteAt w (base + x.2)
    k * 256 + v) 0

end Sys2Proof.Machine
end

