-- ==== Sys2Proof/Machine/Ase.lean ====
section
/-! DEFINITION. The associative search engine (ch. 7): banks, searches, rules and regions, update steps, loads, the
scrubber and the temperature throttle. -/

namespace Sys2Proof.Machine

/-! ### Rows (R158–R160) -/

def bank (s : State) (k : Nat) : AseBank := mget {} s.ase.banks k
def setBank (s : State) (k : Nat) (b : AseBank) : State := { s with ase.banks := mset {} s.ase.banks k b }

def aeKey (r : Nat) : Nat := bits r 351 192
def aeCare (r : Nat) : Nat := bits r 191 32
def aeValid (r : Nat) : Bool := bit r 31
def aeSecond (r : Nat) : Bool := bit r 30
def aeRegion (r : Nat) : Nat := bits r 29 24
def aeMember (r e : Nat) : Bool := bit r (22 + e)
def aePriority (r : Nat) : Nat := bits r 15 0

/-- A row word. -/
def aseRow (key care : Nat) (second : Bool) (region m prio : Nat) : Nat :=
  key * 2 ^ 192 + care * 2 ^ 32 + 2 ^ 31 + b2n second * 2 ^ 30 + region * 2 ^ 24 + m * 2 ^ 22 + prio

def arId (a : Nat) : Nat := bits a 191 177
def arProfile (a : Nat) : Nat := bits a 176 169
def arTag (a : Nat) : Nat := bits a 159 128
def arAction1 (a : Nat) : Nat := bits a 127 64
def arAction2 (a : Nat) : Nat := bits a 63 0

/-- An associated record. -/
def aseRecord (id profile tag a1 a2 : Nat) : Nat := id * 2 ^ 177 + profile * 2 ^ 169 + tag * 2 ^ 128 + a1 * 2 ^ 64 + a2

/-- The region of a number in a bank. -/
def regionOf (b : AseBank) (r : Nat) : Option AseRegion := b.regions.find? (fun x => x.num == r)

/-- The high mark (R163). -/
def highMark (b : AseBank) : Nat := (b.regions.getLast?.map (·.limit)).getD 0

/-- The first row of a rule. -/
def ruleRow (b : AseBank) (id : Nat) : Option Nat := (b.assoc.find? (fun x => arId x.2 == id && aeValid (mget 0 b.rows x.1))).map (·.1)

/-- Valid rules; a rule and its duplicate during a shift are one (R168). -/
def ruleCount (b : AseBank) : Nat :=
  ((b.assoc.filter (fun x => aeValid (mget 0 b.rows x.1))).foldl (fun (m : SMap Nat) x => mput m (arId x.2) 1) []).length

/-! ### Searches (R165–R168) -/

/-- Key bits under a care mask. -/
def keyMatches (row k : Nat) : Bool := Nat.land (Nat.xor (aeKey row) k) (aeCare row) == 0

/-- The first rows that match, in row order. -/
def matchingRows (b : AseBank) (r key e : Nat) (wide : Bool) : List (Nat × Nat) :=
  b.rows.filter (fun x =>
    aeValid x.2 && !aeSecond x.2 && aeRegion x.2 == r && aeMember x.2 e &&
      (if wide then keyMatches x.2 (key / 2 ^ 160) && keyMatches (mget 0 b.rows (x.1 + 1)) (key % 2 ^ 160)
       else keyMatches x.2 (key % 2 ^ 160)))

/-- The winner: highest priority, then lowest row (R167). -/
def winnerOf (l : List (Nat × Nat)) : Option (Nat × Nat) :=
  l.foldl (fun w x => match w with
    | none => some x
    | some y => if aePriority y.2 < aePriority x.2 then some x else some y) none

/-- The words of a bank (class 0x06, notes/assumptions/22): shadow rows, then associated records. -/
def aseWord (t row : Nat) : Nat := t * 2 ^ 32 + row

/-- What a search returns: hit, actions, hit word (R161, R162). -/
structure AseResult where
  hit : Bool := false
  acts : List Nat := []
  word : Nat := 0

/-- The actions of an ASE action profile. -/
def aseProfile (s : State) (n : Nat) : List Nat :=
  let w := mget 0 s.ase.profiles n
  [w / 2 ^ 64, w % 2 ^ 64]

/-- A search of a bank for a packet of an epoch (R162, R165, R167, R168, R492). -/
def aseSearch (s : State) (k r key e : Nat) : AseResult × State :=
  let b := bank s k
  let s := perfEvent (count1 s (Reg.aseSearches k)) 0x30 k 0
  match regionOf b r with
  | none => ({}, s)
  | some g =>
    let l := matchingRows b r key e g.wide
    match winnerOf l with
    | none => ({}, s)
    | some w =>
      let a := mget 0 b.assoc w.1
      let s := match l.find? (fun x => aePriority x.2 == aePriority w.2 && arId (mget 0 b.assoc x.1) != arId a) with
        | some x =>
          let s := setReg s (Reg.aseLastTie k) (arId a * 2 ^ 16 + arId (mget 0 b.assoc x.1))
          raise (perfEvent (count1 s (Reg.aseTies k)) 0x31 k 0) (.ase k) 5
        | none => s
      let q := checkWord s 6 (56 + k) (aseWord 1 w.1)
      if q.1 then ({}, q.2)
      else
        ({ hit := true, acts := arAction1 a :: arAction2 a :: aseProfile s (arProfile a),
           word := aePriority w.2 * 2 ^ 48 + arId a * 2 ^ 33 + b2n g.wide * 2 ^ 32 + arTag a }, count1 q.2 (Reg.aseHits k))

/-! ### Update steps (R169–R171, R173) -/

/-- Write rows and shadows, and their associated records, from a row on. -/
def writeRows (s : State) (k : Nat) : Nat → List (Nat × Nat) → State
  | _, [] => s
  | row, x :: rest =>
    let b := bank s k
    let s := setBank s k { b with rows := mset 0 b.rows row x.1, shadow := mset 0 b.shadow row x.1, assoc := mset 0 b.assoc row x.2 }
    let s := wordsWritten s 6 (56 + k) [aseWord 0 row, aseWord 1 row]
    writeRows s k (row + 1) rest

/-- The rows and records of a place. -/
def placeRows (b : AseBank) (p : Nat) : List (Nat × Nat) :=
  [2 * p, 2 * p + 1].map (fun r => (mget 0 b.rows r, mget 0 b.assoc r))

/-- The end of a growth (R170): the regions above move up, and the place joins the region at position `i`. -/
def finishGrowth (l : List AseRegion) (i : Nat) : List AseRegion :=
  l.zipIdx.map (fun x => if x.2 = i then { x.1 with limit := x.1.limit + 1 } else if i < x.2 then { x.1 with base := x.1.base + 1 } else x.1)

/-- Growth bookkeeping at the head of a bank's steps is done at once. -/
def settleGrowth (s : State) (k : Nat) : State :=
  let b := bank s k
  match b.steps with
  | .grown i :: rest => setBank s k { b with regions := finishGrowth b.regions i, steps := rest }
  | _ => s

/-- Whether a bank has queued steps. -/
def stepsQueued (s : State) : Bool := s.ase.banks.any (fun x => !x.2.steps.isEmpty)

/-- `ase_load` and `ase_apply`. -/
def aseJob : LoadJob :=
  { load := Reg.aseLoad, size := 128, job := Reg.aseApply, mode := Reg.aseApplyMode, done := Reg.aseApplyDone,
    errIndex := Reg.aseApplyErrorIndex, errCode := Reg.aseApplyErrorCode, cause := .ase 0, causeBit := 0,
    ready := fun s => !stepsQueued s }

/-- The job ends: APPLY_DONE in every bank its records named (R181). -/
def aseEnd (s : State) (cancelled : Bool) : State :=
  let code := reg s Reg.aseApplyErrorCode
  let s := if cancelled then jobCancelled s Reg.aseApply code else jobEnd s Reg.aseApply code
  (bitList 8 s.ase.named).foldl (fun s k => raise s (.ase k) 0) { s with ase.named := 0 }

/-- One record's result (R154, R181). -/
def aseRecordDone (s : State) (code : Nat) : State :=
  let k := Reg.aseApply
  let i := (job s k).phase
  let s := jobProgress (jobPhase s k (i + 1)) k 1
  if code = 0 then setReg s Reg.aseApplyDone (reg s Reg.aseApplyDone + 1)
  else
    let s := if reg s Reg.aseApplyErrorIndex = 0xFFFFFFFF then
        setReg (setReg s Reg.aseApplyErrorIndex i) Reg.aseApplyErrorCode code else s
    if reg s Reg.aseApplyMode = 0 then aseEnd s false else s

/-- A record is visible in every bank of its mask once no step is queued (R181). -/
def recordVisible (s : State) : State :=
  if s.ase.busy && !stepsQueued s then
    let s := { s with ase.busy := false }
    if jobRunning s Reg.aseApply then aseRecordDone s 0 else s
  else s

/-- ASE_COPY_STEP: one place moves up in a stolen slot (R170, R171). -/
def execAseCopyStep (bank : Nat) (s : State) : Host.Outcome State Fault Refusal :=
  let b := Machine.bank s bank
  match b.steps with
  | .copy p :: rest =>
    let s := setBank s bank { b with steps := rest }
    let s := writeRows s bank (2 * p) (placeRows b (p - 1))
    let s := count1 (count1 s (Reg.aseShiftPlaces bank)) (Reg.aseUpdateSlots bank)
    .next (settleGrowth s bank)
  | _ => .next s

/-- ASE_WRITE_STEP: a rule's place is written in one stolen slot (R169, R171). -/
def execAseWriteStep (bank : Nat) (s : State) : Host.Outcome State Fault Refusal :=
  let b := Machine.bank s bank
  match b.steps with
  | .write row rows assoc :: rest =>
    let s := setBank s bank { b with steps := rest }
    let s := writeRows s bank row (rows.zipIdx.map (fun x => (x.1, if x.2 = 0 then assoc else 0)))
    .next (recordVisible (count1 s (Reg.aseUpdateSlots bank)))
  | _ => .next s

/-! ### Records (R169, R172, R180) -/

/-- The slots that are current or retiring, as a mask of membership bits (R122). -/
def liveSlots (s : State) : Nat :=
  if reg s Reg.clsEpochState = 1 then 3 else 2 ^ reg s Reg.clsEpochCurrent

/-- A stage action an ASE record may hold (R161). -/
def aseActionOk (a : Nat) : Bool := actionOk a && a / 2 ^ 56 != 3

/-- The lowest invalid row of a region, or the first row of its lowest invalid place (R169). -/
def freeRow (b : AseBank) (g : AseRegion) : Option Nat :=
  let ks := mkeys b.rows
  let gap := fun (l : List Nat) (c : Nat) => l.foldl (fun c k => if k = c then c + 1 else c) c
  if g.wide then
    let p := gap ((ks.filter (fun r => r % 2 == 0)).map (fun r => r / 2)) g.base
    if p < g.limit then some (2 * p) else none
  else
    let r := gap ks (2 * g.base)
    if r < 2 * g.limit then some r else none

/-- Insert fields are whole (R160, R161, R180). -/
def insertCode (r : List Byte) : Nat :=
  if bit (byteAt r 2) 7 ∨ 63 < byteAt r 4 ∨ 3 < byteAt r 5 ∨ !aseActionOk (beAt r 92 8) ∨ !aseActionOk (beAt r 100 8) ∨
      !zeroBytes r 109 19 then 5 else 0

/-- A 160-bit record leaves the high halves zero. -/
def narrowCode (r : List Byte) (wide : Bool) : Nat :=
  if !wide && (!zeroBytes r 8 20 || !zeroBytes r 48 20) then 5 else 0

/-- The rows of an insert record. -/
def recordRows (r : List Byte) (wide : Bool) (m : Nat) : List Nat :=
  let row := fun (ko co : Nat) (second : Bool) => aseRow (beAt r ko 20) (beAt r co 20) second (byteAt r 4) m (beAt r 6 2)
  if wide then [row 8 48 false, row 28 68 true] else [row 28 68 false]

/-- The associated record of an insert record. -/
def recordAssoc (r : List Byte) : Nat :=
  aseRecord (beAt r 2 2) (byteAt r 108) (beAt r 88 4) (beAt r 92 8) (beAt r 100 8)

/-- Whether an enabled ASE stage of either plan names a region with a key of the other width (R164). -/
def plansDisagree (s : State) (r : Nat) (wide : Bool) : Bool :=
  [0, 1].any (fun e =>
    let b := planOf s e
    (List.range 12).any (fun i =>
      let d := stageOf b i
      stEnable d && stKind d == 6 && stTable d == 0x0800 + r &&
        keyWidth (profileRec b (stKey d)) != (if wide then 320 else 160)))

/-- The width a region has in any bank. -/
def regionWide (s : State) (r : Nat) : Option Bool :=
  (List.range 8).findSome? (fun k => (regionOf (bank s k) r).map (·.wide))

/-- The check of a record in one bank (R172, R180): its result. -/
def aseCheck (s : State) (k : Nat) (r : List Byte) : Nat :=
  let b := bank s k
  let id := beAt r 2 2
  let row := ruleRow b id
  let live := liveSlots s
  let m := match row with | some x => bits (mget 0 b.rows x) 23 22 | none => 0
  match byteAt r 0 with
  | 1 =>
    if insertCode r ≠ 0 then insertCode r
    else match regionOf b (byteAt r 4) with
      | none => 6
      | some g =>
        if narrowCode r g.wide ≠ 0 then 5
        else if row.isSome then 2
        else if Nat.land (byteAt r 5) live ≠ 0 then 4
        else if (freeRow b g).isNone ∧ highMark b = 16384 then 1 else 0
  | 2 =>
    if bit (byteAt r 2) 7 ∨ !zeroBytes r 4 124 then 5
    else if row.isNone then 3 else if Nat.land m live ≠ 0 then 4 else 0
  | 3 =>
    if insertCode r ≠ 0 then insertCode r
    else match row with
      | none => 3
      | some x =>
        let w := mget 0 b.rows x
        let wide := ((regionOf b (aeRegion w)).map (·.wide)).getD false
        let same := (recordRows r wide 0).zipIdx.all (fun y =>
          let o := mget 0 b.rows (x + y.2)
          aeKey y.1 == aeKey o && aeCare y.1 == aeCare o && aeRegion y.1 == aeRegion o)
        if narrowCode r wide ≠ 0 ∨ !same then 5 else if Nat.land m live ≠ 0 then 4 else 0
  | 4 =>
    if bit (byteAt r 2) 7 ∨ byteAt r 4 ≠ 0 ∨ 3 < byteAt r 5 ∨ !zeroBytes r 6 122 then 5
    else if row.isNone then 3
    else if reg s Reg.clsEpochState = 1 ∨ Nat.land (Nat.xor m (byteAt r 5)) live ≠ 0 then 4 else 0
  | 5 =>
    if !zeroBytes r 2 2 ∨ 63 < byteAt r 4 ∨ 1 < byteAt r 5 ∨ 16384 < beAt r 6 2 ∨ !zeroBytes r 8 120 then 5
    else
      let wide := byteAt r 5 == 1
      if (regionOf b (byteAt r 4)).isSome || (match regionWide s (byteAt r 4) with | some x => x != wide | none => false) ||
          plansDisagree s (byteAt r 4) wide then 6
      else if 16384 < highMark b + beAt r 6 2 then 1 else 0
  | 6 =>
    if !zeroBytes r 2 2 ∨ 63 < byteAt r 4 ∨ !zeroBytes r 5 123 then 5
    else match b.regions.getLast? with
      | none => 6
      | some g => if g.num ≠ byteAt r 4 ∨ b.rows.any (fun x => aeRegion x.2 == g.num) then 6 else 0
  | 7 =>
    if byteAt r 2 = 0 ∨ !zeroBytes r 3 5 ∨ !aseActionOk (beAt r 8 8) ∨ !aseActionOk (beAt r 16 8) ∨ !zeroBytes r 24 104 then 5 else 0
  | _ => 5

/-- The steps of an insert: into a free row, or after the region has grown by one place (R169, R170). -/
def insertSteps (b : AseBank) (r : List Byte) : AseBank :=
  match b.regions.findIdx? (fun x => x.num == byteAt r 4) with
  | none => b
  | some i => match b.regions[i]? with
    | none => b
    | some g =>
      let rows := recordRows r g.wide (byteAt r 5)
      match freeRow b g with
      | some row => { b with steps := b.steps ++ [.write row rows (recordAssoc r)] }
      | none =>
        let top := highMark b
        let copies := ((rangeFrom (g.limit + 1) (top - g.limit)).reverse).map AseStep.copy
        let wider := b.regions.zipIdx.map (fun x => if i < x.2 then { x.1 with limit := x.1.limit + 1 } else x.1)
        { b with regions := wider,
                 steps := b.steps ++ copies ++ [.grown i, .write (2 * g.limit) (rows ++ (if g.wide then [] else [0])) (recordAssoc r)] }

/-- A rule's rows rewritten in place. -/
def rewriteSteps (b : AseBank) (row : Nat) (f : Nat → Nat) (assoc : Nat) : AseBank :=
  let n := if aeSecond (mget 0 b.rows (row + 1)) && row % 2 == 0 then 2 else 1
  { b with steps := b.steps ++ [.write row ((rangeFrom row n).map (fun x => f (mget 0 b.rows x))) assoc] }

/-- What a record does in one bank of its mask. -/
def aseEffect (s : State) (k : Nat) (r : List Byte) : State :=
  let b := bank s k
  let id := beAt r 2 2
  match byteAt r 0 with
  | 1 => settleGrowth (setBank s k (insertSteps b r)) k
  | 5 => setBank s k { b with regions := b.regions ++
      [{ num := byteAt r 4, base := highMark b, limit := highMark b + beAt r 6 2, wide := byteAt r 5 == 1 }] }
  | 6 => setBank s k { b with regions := b.regions.dropLast }
  | 7 => { s with ase.profiles := mset 0 s.ase.profiles (byteAt r 2) (beAt r 8 16) }
  | op => match ruleRow b id with
    | none => s
    | some row =>
      let a := mget 0 b.assoc row
      setBank s k (if op = 2 then rewriteSteps b row (fun _ => 0) 0
        else if op = 3 then rewriteSteps b row (fun w => setBits w 15 0 (beAt r 6 2)) (recordAssoc r)
        else rewriteSteps b row (fun w => setBits w 23 22 (byteAt r 5)) a)

/-- Take the next record: it is checked in every bank of its mask before any applies it (R180, R181). -/
def aseTake (s : State) : State :=
  if s.ase.busy then s
  else match nextRecord s aseJob with
    | none => s
    | some r =>
      let ks := bitList 8 (byteAt r 1)
      let codes := ks.map (fun k => (k, aseCheck s k r))
      let s := { s with ase.named := Nat.lor s.ase.named (byteAt r 1) }
      match codes.find? (fun x => x.2 != 0) with
      | some x =>
        let s := (codes.filter (fun x => x.2 == 1 && byteAt r 0 == 1)).foldl (fun s x => raise s (.ase x.1) 1) s
        aseRecordDone s x.2
      | none =>
        if ks.isEmpty then aseRecordDone s 5
        else recordVisible (ks.foldl (fun s k => aseEffect s k r) { s with ase.busy := true })

/-- Take the next record when its op is this. -/
def aseTakeOp (s : State) (op : Nat) : State := if nextOp s aseJob = some op then aseTake s else s

/-- ASE_LOAD_WRITE (R180). -/
def execAseLoadWrite (client : Client) (records : List Byte) (s : State) : Host.Outcome State Fault Refusal :=
  .next (commitRow s client Reg.aseLoad (commitLoad aseJob records))

/-- A start of `ase_apply`. -/
def startAseApply (s : State) : Applied := (startLoadJob aseJob s).bind (fun s => .done { s with ase.named := 0 })

/-- ASE_APPLY (R181). -/
def execAseApply (turn : JobOp) (s : State) : Host.Outcome State Fault Refusal :=
  match turn with
  | .start c => .next (concludeJob s c Reg.aseApply (jobStartWith s c Reg.aseApply startAseApply))
  | .step =>
    if !jobRunning s Reg.aseApply || s.ase.busy then .next s
    else if (job s Reg.aseApply).cancel then .next (aseEnd s true)
    else match nextRecord s aseJob with
      | some _ => .next (aseTake s)
      | none => .next (aseEnd s false)

/-- ASE_INSERT (R169). -/
def execAseInsert (s : State) : Host.Outcome State Fault Refusal := .next (aseTakeOp s 1)

/-- ASE_DELETE (R169). -/
def execAseDelete (s : State) : Host.Outcome State Fault Refusal := .next (aseTakeOp s 2)

/-- ASE_REPLACE (R180). -/
def execAseReplace (s : State) : Host.Outcome State Fault Refusal := .next (aseTakeOp s 3)

/-- ASE_MEMBERSHIP (R172). -/
def execAseMembership (s : State) : Host.Outcome State Fault Refusal := .next (aseTakeOp s 4)

/-- ASE_REGION_CREATE (R163, R164). -/
def execAseRegionCreate (s : State) : Host.Outcome State Fault Refusal := .next (aseTakeOp s 5)

/-- ASE_REGION_DELETE (R180). -/
def execAseRegionDelete (s : State) : Host.Outcome State Fault Refusal := .next (aseTakeOp s 6)

/-- ASE_ACTION_PROFILE_WRITE (R161). -/
def execAseActionProfileWrite (s : State) : Host.Outcome State Fault Refusal := .next (aseTakeOp s 7)

/-! ### Scrubbing (R174–R176) -/

/-- ASE_SWEEP_START: at a multiple of 8 ms a sweep begins, or is counted late (R174, R176). -/
def execAseSweepStart (bank : Nat) (s : State) : Host.Outcome State Fault Refusal :=
  if bank < 8 ∧ timeNs s % 8000000 = 0 then
    let b := Machine.bank s bank
    match b.scrub with
    | none => .next (setBank s bank { b with scrub := some 0 })
    | some _ => .next (raise (count1 (setBank s bank { b with due := true }) (Reg.aseScrubLate bank)) (.ase bank) 6)
  else .next s

/-- A patrol read of a protected word (R489, R490): a correctable word is written back, an uncorrectable one in use is
poisoned; whether it is lost. -/
def scrubWord (s : State) (cls unit idx : Nat) : Bool × State :=
  let r := checkWord s cls unit idx
  if flipsOf s cls unit idx = 0 then r
  else if r.1 then (true, setFlips r.2 cls unit idx 4) else (false, setFlips r.2 cls unit idx 0)

/-- The next row of a sweep, or its end (R174, R176). -/
def aseScrubNext (s : State) (k row : Nat) : State :=
  let b := bank s k
  if row < 32767 then setBank s k { b with scrub := some (row + 1) }
  else count1 (setBank s k { b with scrub := if b.due then some 0 else none, due := false }) (Reg.aseScrubSweeps k)

/-- ASE_SCRUB_READ: one row against its shadow; `found` is what an upset has made of the row (R174–R176). -/
def execAseScrubRead (bank : Nat) (found : Option Nat) (s : State) : Host.Outcome State Fault Refusal :=
  let b := Machine.bank s bank
  match b.scrub with
  | none => .next s
  | some row =>
    let now := (found.getD (mget 0 b.rows row)) % 2 ^ 352
    let s := setBank s bank { b with rows := mset 0 b.rows row now }
    let q := scrubWord s 6 (56 + bank) (aseWord 0 row)
    let s := (scrubWord q.2 6 (56 + bank) (aseWord 1 row)).2
    let s := if q.1 then raise (count1 s (Reg.aseScrubShadowErrors bank)) (.ase bank) 3
      else if now ≠ mget 0 b.shadow row then
        let b := Machine.bank s bank
        let s := setBank s bank { b with rows := mset 0 b.rows row (mget 0 b.shadow row) }
        let s := setReg (count1 (count1 s (Reg.aseUpdateSlots bank)) (Reg.aseScrubRepairs bank)) (Reg.aseLastRepairRow bank) row
        raise s (.ase bank) 2
      else s
    .next (aseScrubNext s bank row)

/-! ### Temperature (R177, R178) -/

/-- The level after a reading in 1/16 °C (Table — ASE throttle levels). -/
def throttleAfter (level : Nat) (t : Int) : Nat :=
  let up := if 103 * 16 ≤ t then 3 else if 100 * 16 ≤ t then 2 else if 95 * 16 ≤ t then 1 else 0
  if level < up then up
  else if level ≠ 0 ∧ t ≤ (if level = 1 then 92 * 16 else if level = 2 then 97 * 16 else 100 * 16) then level - 1
  else level

/-- ASE_TEMP_READ: every 100 µs of TIME (R177). -/
def execAseTempRead (bank reading : Nat) (s : State) : Host.Outcome State Fault Refusal :=
  if bank < 8 ∧ timeNs s % 100000 = 0 then
    let old := reg s (Reg.aseThrottleLevel bank)
    let new := throttleAfter old (toSigned 32 reading)
    let s := setReg (setReg s (Reg.aseTemp bank) (reading % 2 ^ 32)) (Reg.aseThrottleLevel bank) new
    .next (if old = 0 ∧ new ≠ 0 then raise s (.ase bank) 4 else s)
  else .next s

/-! ### Entries (R182) -/

/-- ASE_UPDATE_BUDGET_WRITE (R171). -/
def execAseUpdateBudgetWrite (client : Client) (value : Nat) (s : State) : Host.Outcome State Fault Refusal :=
  .next (writeRow s client Reg.aseUpdateBudget value (storeRule Reg.aseUpdateBudget value))

/-- ASE_SCRUB_BUDGET_WRITE (R174). -/
def execAseScrubBudgetWrite (client : Client) (value : Nat) (s : State) : Host.Outcome State Fault Refusal :=
  .next (writeRow s client Reg.aseScrubBudget value (storeRule Reg.aseScrubBudget value))

/-- A region descriptor of `ase_region_map`. -/
def regionBytes (b : AseBank) (r : Nat) : List Byte := match regionOf b r with
  | some g => beBytes 2 g.base ++ beBytes 2 g.limit ++ [byte (b2n g.wide), 1, 0, 0]
  | none => List.replicate 8 0

/-- The insert record of a rule. -/
def dumpRule (b : AseBank) (k row : Nat) : List Byte :=
  let w := mget 0 b.rows row
  let a := mget 0 b.assoc row
  let wide := ((regionOf b (aeRegion w)).map (·.wide)).getD false
  let lo := if wide then mget 0 b.rows (row + 1) else w
  [1, byte (2 ^ k)] ++ beBytes 2 (arId a) ++ [byte (aeRegion w), byte (bits w 23 22)] ++ beBytes 2 (aePriority w) ++
    beBytes 20 (if wide then aeKey w else 0) ++ beBytes 20 (aeKey lo) ++
    beBytes 20 (if wide then aeCare w else 0) ++ beBytes 20 (aeCare lo) ++
    beBytes 4 (arTag a) ++ beBytes 8 (arAction1 a) ++ beBytes 8 (arAction2 a) ++ [byte (arProfile a)] ++ List.replicate 19 0

/-- The dump of the bank `ase_dump_select` names: region creates, then rules in row order (R181). -/
def aseDumpBytes (s : State) : List Byte :=
  let k := reg s Reg.aseDumpSelect
  let b := bank s k
  (b.regions.flatMap (fun g => padTo ([5, byte (2 ^ k), 0, 0, byte g.num, byte (b2n g.wide)] ++ beBytes 2 (g.limit - g.base)) 128)) ++
    ((b.rows.filter (fun x => aeValid x.2 && !aeSecond x.2)).flatMap (fun x => dumpRule b k x.1))

/-- ASE_DUMP_READ. -/
def execAseDumpRead (client : Client) (s : State) : Host.Outcome State Fault Refusal :=
  .next (domainRead s client Reg.aseDump (aseDumpBytes s) id)

/-- Values that are not stored. -/
def aseReadVal (s : State) (k : Nat) : Nat :=
  if idxOf k = 0x3301 then highMark (bank s (subOf k)) else if idxOf k = 0x3302 then ruleCount (bank s (subOf k)) else reg s k

/-- DOMAIN values read. -/
def aseDomain (s : State) (k : Nat) : List Byte :=
  if idxOf k = 0x3305 then (List.range 64).flatMap (regionBytes (bank s (subOf k)))
  else if idxOf k = 0x330D then aseDumpBytes s else []

/-- Committed DOMAIN values. -/
def aseCommit (k : Nat) (b : List Byte) : State → Applied :=
  if idxOf k = 0x3306 then commitLoad aseJob b else fun _ => .fail .readOnly

end Sys2Proof.Machine
end

