-- ==== Sys2Proof/Machine/Memory.lean ====
section
/-! DEFINITION. The two addressed memories: the Stockpot and the Crock (R202, R204), as (address, byte) lists in one
canonical form. An unlisted byte of the Crock reads 0; an unlisted byte of the Stockpot reads 0 but for the link words
of the Skimmer pools' lists as start-up threads them (R209); notes/assumptions/4. -/

namespace Sys2Proof.Machine

/-- The cells of the Skimmer pools at start-up: (first, past the last) of pools 28 to 31 (R206). -/
def skimmerRuns : List (Nat × Nat) := [(376832, 382976), (382976, 385024), (385024, 389120), (389120, 393216)]

/-- The link word of a free cell of a start-up list (R209). -/
def startLink (c : Nat) : Option Nat :=
  (skimmerRuns.find? (fun r => decide (r.1 ≤ c) && decide (c < r.2))).map
    (fun r => if c + 1 < r.2 then (c + 1) * 256 else 0xFFFFFFFF)

/-- What an unlisted byte of the Stockpot reads as. -/
def potUnlisted (a : Nat) : Byte :=
  if a % 256 < 4 then
    match startLink (a / 256) with
    | some w => byte (w / 2 ^ (8 * (3 - a % 256)))
    | none => 0
  else 0

/-- What an unlisted byte of the Crock reads as. -/
def crockUnlisted (_ : Nat) : Byte := 0

/-- Read one byte. -/
def Memory.get (d : Nat → Byte) (m : List Host.Cell) (a : Nat) : Byte := mget (d a) m a

/-- Write one byte. -/
def Memory.set (d : Nat → Byte) (m : List Host.Cell) (a : Nat) (v : Byte) : List Host.Cell := mset (d a) m a v

/-- Read `n` bytes. -/
def Memory.read (d : Nat → Byte) (m : List Host.Cell) (a : Nat) : Nat → List Byte
  | 0 => []
  | n + 1 => Memory.get d m a :: Memory.read d m (a + 1) n

/-- Write bytes in order. -/
def Memory.write (d : Nat → Byte) : List Host.Cell → Nat → List Byte → List Host.Cell
  | m, _, [] => m
  | m, a, b :: r => Memory.write d (Memory.set d m a b) (a + 1) r

/-- The canonical form: addresses strictly rising, no entry equal to what an unlisted address reads as. -/
def Memory.wf (d : Nat → Byte) (m : List Host.Cell) : Bool :=
  risingFrom 0 m && m.all (fun p => decide (p.2 ≠ d p.1))

end Sys2Proof.Machine
end

