-- ==== Sys2Proof/Machine/Pool.lean ====
section
/-! DEFINITION. Packet memory and buffer pools (ch. 9): the Ladle, the Skimmer, pointer checks and quarantine, the
admission arithmetic, and the cells of a packet. -/

namespace Sys2Proof.Machine

/-! ### Pool descriptors (R205–R207) -/

/-- The descriptor of a pool; `pl_method` is fixed by the number. -/
def poolDesc (s : State) (n : Nat) : Nat :=
  let d := reg s (Reg.poolDesc n)
  if 28 ≤ n then setBit d 61 else clearBit d 61

def plEnable (s : State) (n : Nat) : Bool := bit (poolDesc s n) 63
/-- 0 Stockpot, 1 Crock. -/
def plMemory (s : State) (n : Nat) : Nat := b2n (bit (poolDesc s n) 62)
def plBase (s : State) (n : Nat) : Nat := bits (poolDesc s n) 51 26
def plSize (s : State) (n : Nat) : Nat := bits (poolDesc s n) 25 0

/-- Units of a memory (R202). -/
def memUnits (m : Nat) : Nat := if m = 0 then 393216 else 50331648

/-- The units in use of a memory. -/
def usedOf (s : State) (m : Nat) : SMap Nat := if m = 0 then s.mem.usedCells else s.mem.usedPages
/-- The quarantined units of a memory. -/
def quarOf (s : State) (m : Nat) : SMap Nat := if m = 0 then s.mem.quarCells else s.mem.quarPages
/-- Whether a unit's bitmap bit is 0: the unit is in use. -/
def unitUsed (s : State) (m u : Nat) : Bool := mget 0 (usedOf s m) u != 0
/-- Whether a unit is quarantined. -/
def unitQuar (s : State) (m u : Nat) : Bool := mget 0 (quarOf s m) u != 0

def setUsed (s : State) (m u v : Nat) : State :=
  if m = 0 then { s with mem.usedCells := mset 0 s.mem.usedCells u v }
  else { s with mem.usedPages := mset 0 s.mem.usedPages u v, hbm.lastUse := s.time }

def setQuar (s : State) (m u : Nat) : State :=
  if m = 0 then { s with mem.quarCells := mset 0 s.mem.quarCells u 1 }
  else { s with mem.quarPages := mset 0 s.mem.quarPages u 1 }

/-- Whether a unit lies in a pool. -/
def inPool (s : State) (n u : Nat) : Bool := decide (plBase s n ≤ u) && decide (u < plBase s n + plSize s n)

/-- The listed units that lie in a pool. -/
def unitsIn (s : State) (n : Nat) (l : SMap Nat) : List Nat := (mkeys l).filter (inPool s n)

/-- `pool_used`. -/
def poolUsed (s : State) (n : Nat) : Nat :=
  if plEnable s n then (unitsIn s n (usedOf s (plMemory s n))).length else 0
/-- `pool_quarantined` (R213). -/
def poolQuarantined (s : State) (n : Nat) : Nat :=
  if plEnable s n then (unitsIn s n (quarOf s (plMemory s n))).length else 0
/-- Whether a unit may be supplied: any cell, or a page of a READY or IDLE stack (R250). -/
def unitServes (s : State) (m u : Nat) : Bool :=
  m == 0 || (let x := reg s (Reg.hbmStackState (u % 4)); x == 1 || x == 4)

/-- Units of a pool that may be supplied. -/
def poolServing (s : State) (n : Nat) : Nat :=
  if plMemory s n = 0 then plSize s n
  else
    let upTo (x k : Nat) := (x + 3 - k) / 4
    (List.range 4).foldl (fun t k =>
      if unitServes s 1 k then t + (upTo (plBase s n + plSize s n) k - upTo (plBase s n) k) else t) 0

/-- `pool_free`: supplied units neither in use nor quarantined (R213, R250). -/
def poolFree (s : State) (n : Nat) : Nat :=
  if plEnable s n then
    let m := plMemory s n
    poolServing s n - ((unitsIn s n (usedOf s m)).filter (unitServes s m)).length -
      ((unitsIn s n (quarOf s m)).filter (fun u => unitServes s m u && !unitUsed s m u)).length
  else 0

/-- POOL_LOW when the free units fall below a non-zero threshold (R230). -/
def poolLowCheck (s : State) (n : Nat) : State :=
  if poolFree s n < reg s (Reg.poolLowUnits n) then raise s .pm 1 else s

/-- After an allocation: the watermark and POOL_LOW. -/
def afterAlloc (s : State) (n : Nat) : State :=
  let u := poolUsed s n
  let s := if reg s (Reg.poolWatermark n) < u then setReg s (Reg.poolWatermark n) u else s
  poolLowCheck s n

/-! ### Pointer checks (R204, R211, R212) -/

/-- The pointer of a unit. -/
def unitPtr (m u : Nat) : Nat := if m = 0 then u * 256 else u * 2048
/-- The unit a pointer names. -/
def ptrUnit (m p : Nat) : Nat := if m = 0 then bits p 26 8 else bits p 36 11
/-- Reserved bits zero and aligned (Table — Pointer formats). -/
def ptrShape (m p : Nat) : Bool :=
  if m = 0 then decide (p < 2 ^ 27) && p % 256 == 0 else decide (p < 2 ^ 37) && p % 2048 == 0

/-- A failed check is counted and latched; `wh` is 0 allocation, 1 free, 2 page link (R212). -/
def ptrFault (s : State) (wh n p : Nat) : State :=
  let s := count1 s Reg.pmPtrFaults
  let s := setReg s Reg.pmLastPtrFault (wh * 2 ^ 46 + n % 32 * 2 ^ 40 + p % 2 ^ 40)
  raise s .pm 0

/-- Quarantine the unit a failed pointer names when it lies inside the memory (R212). -/
def quarantinePtr (s : State) (m p : Nat) : State :=
  let u := ptrUnit m p
  if u < memUnits m then
    let s := setQuar s m u
    match (List.range 32).find? (fun n => plEnable s n && plMemory s n == m && inPool s n u) with
    | some n => poolLowCheck s n
    | none => s
  else s

/-! ### The Ladle (R208) -/

/-- The lowest number at or above `c` that a rising list does not hold. -/
def firstGap : List Nat → Nat → Nat
  | [], c => c
  | k :: r, c => if k < c then firstGap r c else if k = c then firstGap r (c + 1) else c

/-- Two rising lists as one. -/
def joinKeys (a b : SMap Nat) : SMap Nat := b.foldl (fun m p => mput m p.1 1) a

/-- The lowest free, unquarantined, supplied unit below `e` at or above `c`. -/
def gapFrom (s : State) (m : Nat) (ks : List Nat) (e : Nat) : Nat → Nat → Option Nat
  | 0, _ => none
  | f + 1, c =>
    let u := firstGap ks c
    if e ≤ u then none else if unitServes s m u then some u else gapFrom s m ks e f (u + 1)

/-- The lowest free, unquarantined, supplied unit of a pool at or above `c` (R208, R250). -/
def ladleFrom (s : State) (n c : Nat) : Option Nat :=
  let m := plMemory s n
  let ks := mkeys (joinKeys (usedOf s m) (quarOf s m))
  gapFrom s m ks (plBase s n + plSize s n) (4 * ks.length + 8) (max c (plBase s n))

/-- The next unit the Ladle returns: from the cursor, then from the base. -/
def ladleNext (s : State) (n : Nat) : Option Nat :=
  match ladleFrom s n ((mfind s.mem.cursor n).getD (plBase s n)) with
  | some u => some u
  | none => ladleFrom s n (plBase s n)

/-- An allocation's outcome. -/
inductive Alloc where
  | unit (u : Nat) (s : State)
  | empty
  | fault (s : State)

/-- The Ladle returns the next free unit and moves its cursor past it. -/
def ladleAlloc (s : State) (n : Nat) : Alloc :=
  if plEnable s n then
    match ladleNext s n with
    | none => .empty
    | some u =>
      let m := plMemory s n
      let p := mget (unitPtr m u) s.mem.badPtr (m * 2 ^ 26 + u)
      if ptrShape m p && ptrUnit m p == u then
        let nx := if u + 1 < plBase s n + plSize s n then u + 1 else plBase s n
        let s := setUsed s m u 1
        let s := { s with mem.cursor := mput s.mem.cursor n nx }
        .unit u (afterAlloc s n)
      else .fault (quarantinePtr (ptrFault s 0 n p) m p)
  else .empty

/-! ### The Skimmer (R209, R210) -/

def skimHead (s : State) (n : Nat) : Nat := (mfind s.mem.skimHead n).getD (plBase s n)
def skimTail (s : State) (n : Nat) : Nat := (mfind s.mem.skimTail n).getD (plBase s n + plSize s n - 1)
def skimCount (s : State) (n : Nat) : Nat := (mfind s.mem.skimCount n).getD (plSize s n)
def setSkim (s : State) (n h t c : Nat) : State :=
  { s with mem.skimHead := mput s.mem.skimHead n h, mem.skimTail := mput s.mem.skimTail n t,
           mem.skimCount := mput s.mem.skimCount n c }

/-- Bytes of the Stockpot. -/
def potRead (s : State) (a n : Nat) : List Byte := Memory.read potUnlisted s.mem.pot a n
def potWrite (s : State) (a : Nat) (b : List Byte) : State :=
  let s := { s with mem.pot := Memory.write potUnlisted s.mem.pot a b }
  if b.isEmpty then s
  else wordsWritten s 0 (66 + a / 256 % 24)
    ((rangeFrom (a % 256 / 8) ((a % 256 + b.length - 1) / 8 - a % 256 / 8 + 1)).map (· + a / 6144 * 32))
/-- Bytes of the Crock. -/
def crockRead (s : State) (a n : Nat) : List Byte := Memory.read crockUnlisted s.mem.crock a n
def crockWrite (s : State) (a : Nat) (b : List Byte) : State :=
  let s := { s with mem.crock := Memory.write crockUnlisted s.mem.crock a b }
  if b.isEmpty then s
  else wordsWritten s 9 (a / 2048 % 4)
    ((rangeFrom (a % 2048 / 8) ((a % 2048 + b.length - 1) / 8 - a % 2048 / 8 + 1)).map (· + a / 8192 * 256))

/-- The link word of a free cell. -/
def linkWord (s : State) (c : Nat) : Nat := beNat (potRead s (c * 256) 4)
def setLinkWord (s : State) (c w : Nat) : State := potWrite s (c * 256) (beBytes 4 w)

/-- The link word at the head passes: a free, unquarantined cell of the pool, or the end mark on the last cell. -/
def skimLinkOk (s : State) (n : Nat) : Bool :=
  let w := linkWord s (skimHead s n)
  if w = 0xFFFFFFFF then skimCount s n == 1
  else ptrShape 0 w && inPool s n (ptrUnit 0 w) && !unitUsed s 0 (ptrUnit 0 w) && !unitQuar s 0 (ptrUnit 0 w)

/-- The Skimmer takes the cell at the head, or starts a rebuild when its link word fails. -/
def skimAlloc (s : State) (n : Nat) : Alloc :=
  if !plEnable s n || mget 0 s.mem.rebuilding n != 0 || skimCount s n == 0 then .empty
  else
    let h := skimHead s n
    let w := linkWord s h
    if skimLinkOk s n then
      let s := setSkim s n (ptrUnit 0 w) (skimTail s n) (skimCount s n - 1)
      .unit h (afterAlloc (setUsed s 0 h 1) n)
    else
      let s := quarantinePtr (ptrFault s 0 n w) 0 w
      let s := count32 s (Reg.poolRebuilds n)
      let s := raise s .pm 2
      .fault { s with mem.rebuilding := mset 0 s.mem.rebuilding n 1 }

/-- Take one unit of a pool from its store. -/
def storeAlloc (s : State) (n : Nat) : Alloc := if 28 ≤ n then skimAlloc s n else ladleAlloc s n

/-- The pool whose run holds a unit of a memory. -/
def poolOfUnit (s : State) (m u : Nat) : Option Nat :=
  (List.range 32).find? (fun n => plEnable s n && plMemory s n == m && inPool s n u)

/-- Units that no reference can give back count as leaked in their pool (R214, R492). -/
def leakUnits (s : State) (m : Nat) (l : List Nat) : State :=
  l.foldl (fun s u => match poolOfUnit s m u with
    | some n => count32 s (Reg.poolLeaked n)
    | none => s) s

/-- The words of a unit's bits in the free bitmap and the quarantine map: unit and index (notes/assumptions/22). -/
def bitmapWord (m u : Nat) (quar : Bool) : Nat × Nat := (66 + u / 64 % 24, (2 * m + b2n quar) * 2 ^ 32 + u / 1536)

/-- The 64 units of a word. -/
def wordUnits (m u : Nat) : List Nat := (rangeFrom (u / 64 * 64) 64).filter (fun x => decide (x < memUnits m))

/-- Read the words that hold a unit's bits: of a lost one, all units are taken as in use, or as quarantined (R492). -/
def readBitmap (s : State) (m u : Nat) : State :=
  if (badWords s 4).isEmpty then s
  else
    let w := bitmapWord m u false
    let r := checkWord s 4 w.1 w.2
    let s := if r.1 then
        let l := (wordUnits m u).filter (fun x => !unitUsed s m x)
        leakUnits (l.foldl (fun s x => setUsed s m x 1) (setFlips r.2 4 w.1 w.2 0)) m l
      else r.2
    let w := bitmapWord m u true
    let r := checkWord s 4 w.1 w.2
    if r.1 then (wordUnits m u).foldl (fun s x => setQuar s m x) (setFlips r.2 4 w.1 w.2 0) else r.2

/-- Take one unit of a pool; a lost bitmap word takes its units away first. -/
def allocUnit (s : State) (n : Nat) : Alloc :=
  if (badWords s 4).isEmpty then storeAlloc s n
  else match storeAlloc s n with
    | .unit u _ => storeAlloc (readBitmap s (plMemory s n) u) n
    | x => x

/-- Thread a new list through the given cells, in order (R210). -/
def threadCells : State → List Nat → State
  | s, [] => s
  | s, [c] => setLinkWord s c 0xFFFFFFFF
  | s, c :: d :: r => threadCells (setLinkWord s c (d * 256)) (d :: r)

/-- The rebuild's list: every free, unquarantined cell of the pool, ascending. -/
def skimRebuild (s : State) (n : Nat) : State :=
  let cs := (rangeFrom (plBase s n) (plSize s n)).filter (fun c => !unitUsed s 0 c && !unitQuar s 0 c)
  let s := threadCells s cs
  let s := setSkim s n (cs.head?.getD 0) (cs.getLast?.getD 0) cs.length
  { s with mem.rebuilding := mset 0 s.mem.rebuilding n 0 }

/-- Whether a cell holds a word that no read can correct. -/
def cellLost (s : State) (c : Nat) : Bool :=
  (badWords s 0).any (fun w => w.1 == 66 + c % 24 && w.2.1 / 32 == c / 24 && decide (2 ≤ w.2.2))

/-- Free a unit: a checked pointer goes back to its store (R208, R209, R211); a cell with an uncorrectable
word is quarantined instead (R492). -/
def freeUnit (s : State) (m u : Nat) : State :=
  let s := readBitmap s m u
  match poolOfUnit s m u with
  | none => quarantinePtr (ptrFault s 1 0 (unitPtr m u)) m (unitPtr m u)
  | some n =>
    if unitUsed s m u && !unitQuar s m u then
      let s := setUsed s m u 0
      if m = 0 && cellLost s u then setQuar s 0 u
      else
      if 28 ≤ n then
        let s := setLinkWord s u 0xFFFFFFFF
        if skimCount s n = 0 then setSkim s n u u 1
        else setSkim (setLinkWord s (skimTail s n) (u * 256)) n (skimHead s n) u (skimCount s n + 1)
      else s
    else quarantinePtr (ptrFault s 1 n (unitPtr m u)) m (unitPtr m u)

/-- Free units in order. -/
def freeUnits (s : State) (m : Nat) (l : List Nat) : State := l.foldl (fun s u => freeUnit s m u) s

/-- What taking several units came to. -/
inductive Take where
  | got (l : List Nat) (s : State)
  | short (s : State)
  | fault (s : State)

/-- Take `k` units of a pool; what was taken goes back when the store cannot supply them all. -/
def takeUnits : Nat → State → Nat → List Nat → Take
  | 0, s, _, acc => .got acc.reverse s
  | k + 1, s, n, acc =>
    match allocUnit s n with
    | .unit u s' => takeUnits k s' n (u :: acc)
    | .empty => .short (freeUnits s (plMemory s n) acc)
    | .fault s' => .fault (freeUnits s' (plMemory s n) acc)

/-! ### Charges (R217–R222) -/

/-- The 128-bit admission profile (R219). -/
def defaultAdmProfile : Nat := 2 ^ 113 + 0x7FFFF * 2 ^ 71 + 0x1000 * 2 ^ 52 + 0x3FFFFFF
def admProfile (s : State) (n : Nat) : Nat :=
  match mfind s.blocks (Reg.admProfile n) with
  | some b => beNat b
  | none => defaultAdmProfile

def apSpill (a : Nat) : Bool := bit a 127
def apSAlpha (a : Nat) : Int := toSigned 4 (bits a 126 123)
def apSPool (a : Nat) : Nat := bits a 122 118
def apCPool (a : Nat) : Nat := bits a 117 113
def apCAlpha (a : Nat) : Int := toSigned 4 (bits a 112 109)
def apSGuar (a : Nat) : Nat := bits a 108 90
def apSMax (a : Nat) : Nat := bits a 89 71
def apSpillCells (a : Nat) : Nat := bits a 70 52
def apCGuar (a : Nat) : Nat := bits a 51 26
def apCMax (a : Nat) : Nat := bits a 25 0

/-- Scheduler node references: kind code and index (R260); the fabric class nodes have a code of the model's own. -/
def nodeKey (kind idx : Nat) : Nat := kind * 2 ^ 29 + idx
def nodeKind (k : Nat) : Nat := k / 2 ^ 29
def nodeIdx (k : Nat) : Nat := k % 2 ^ 29

/-- The QMS of a node (Table — Node kinds). -/
def nodeQms (k : Nat) : Nat :=
  let i := nodeIdx k
  if nodeKind k = 0 then i / 64 else if nodeKind k = 1 then i / 512 else if nodeKind k = 2 then i / 4096
  else if nodeKind k = 3 then i / 32768 else if nodeKind k = 7 then i / 8 else i

def node (s : State) (k : Nat) : Node := mget {} s.qm.nodes k
def setNode (s : State) (k : Nat) (x : Node) : State := { s with qm.nodes := mset {} s.qm.nodes k x }
def queue (s : State) (q : Nat) : Queue := mget {} s.qm.queues q
def setQueue (s : State) (q : Nat) (x : Queue) : State := { s with qm.queues := mset {} s.qm.queues q x }

/-- Fields of a queue's words (R262). -/
def qWord (s : State) (q : Nat) : Nat := (node s (nodeKey 3 q)).qword
def qType (s : State) (q : Nat) : Nat := bits (qWord s q) 63 62
def qAdm (s : State) (q : Nat) : Nat := bits (qWord s q) 61 54
def qAqm (s : State) (q : Nat) : Nat := bits (qWord s q) 53 50
def qPfc (s : State) (q : Nat) : Nat := bits (qWord s q) 49 47

/-- A queue's profile. -/
def qProfile (s : State) (q : Nat) : Nat := admProfile s (qAdm s q)

/-- The queues of the tables: those whose type is not unused. -/
def typedQueues (s : State) : List Nat :=
  ((mkeys s.qm.nodes).filter (fun k => nodeKind k == 3 && qType s (nodeIdx k) != 0)).map nodeIdx

/-- Charge above guarantee of a queue in a set: 0 Stockpot, 1 Crock. -/
def sharedPart (s : State) (set q : Nat) : Nat :=
  let a := qProfile s q
  if set = 0 then (queue s q).qs - apSGuar a else (queue s q).qc - apCGuar a

/-- The pool a set of a queue is charged to. -/
def chargePool (s : State) (set q : Nat) : Nat := if set = 0 then apSPool (qProfile s q) else apCPool (qProfile s q)

/-- U of a pool: the sum of max(Q − G, 0) over the queues charged to it (R217). -/
def sharedUse (s : State) (n : Nat) : Nat :=
  ((typedQueues s).filter (fun q => chargePool s (plMemory s n) q == n)).foldl
    (fun t q => t + sharedPart s (plMemory s n) q) 0

/-- The sum of the guarantees of the queues charged to a pool (R217). -/
def guaranteeSum (s : State) (n : Nat) : Nat :=
  ((typedQueues s).filter (fun q => chargePool s (plMemory s n) q == n)).foldl
    (fun t q => t + (if plMemory s n = 0 then apSGuar (qProfile s q) else apCGuar (qProfile s q))) 0

/-- Headroom in use of a pool: the frames in flight charged to it (R218). -/
def headroomUse (s : State) (n : Nat) : Nat :=
  s.pkts.foldl (fun t p => if p.2.hrPool = n then t + p.2.hrCells else t) 0

/-- R222: guarantees, shared size and headroom fit in the pool. -/
def poolFits (s : State) (n : Nat) : Bool :=
  decide (guaranteeSum s n + reg s (Reg.poolSharedSize n) + reg s (Reg.poolHeadroom n) ≤ plSize s n)

/-- x > 2^a · f. -/
def aboveAlpha (a : Int) (x : Int) (f : Int) : Bool :=
  if 0 ≤ a then decide (x > 2 ^ a.toNat * f) else decide (x * 2 ^ (-a).toNat > f)

/-- The admission rule (R220): the reason of refusal, or none. -/
def admission (s : State) (set q n : Nat) : Option Nat :=
  let a := qProfile s q
  let pool := chargePool s set q
  let qq := if set = 0 then (queue s q).qs else (queue s q).qc
  let g := if set = 0 then apSGuar a else apCGuar a
  let noLimit := if set = 0 then apSMax a == 0x7FFFF else apCMax a == 0x3FFFFFF
  let x := if set = 0 then apSMax a else apCMax a
  let e := if set = 0 then apSAlpha a else apCAlpha a
  let f : Int := (reg s (Reg.poolSharedSize pool) : Int) - sharedUse s pool
  let ns : Nat := n - min n (g - qq)
  let qsh := qq - g
  if !noLimit && decide (qq + n > x) then some 26
  else if decide (ns > 0) && decide ((ns : Int) > f) then some 28
  else if decide (ns > 0) && aboveAlpha e ((qsh + ns : Nat) : Int) f then some 25
  else none

/-- Charge a queue. -/
def chargeQueue (s : State) (set q n : Nat) : State :=
  let x := queue s q
  let x := if set = 0 then { x with qs := x.qs + n } else { x with qc := x.qc + n }
  let t := x.qs + 8 * x.qc
  setQueue s q (if x.watermark < t then { x with watermark := t } else x)

/-- Release charge of a queue. -/
def unchargeQueue (s : State) (set q n : Nat) : State :=
  let x := queue s q
  setQueue s q (if set = 0 then { x with qs := x.qs - n } else { x with qc := x.qc - n })

/-! ### A packet's cells (R203, R215) -/

/-- The cells `n` bytes take. -/
def cellsFor (n : Nat) : Nat := ceilDiv n 256

/-- Write bytes into a packet's cells from the first byte of the first cell. -/
def writeCells : State → List Nat → List Byte → State
  | s, [], _ => s
  | s, c :: r, b => writeCells (potWrite s (c * 256) (b.take 256)) r (b.drop 256)

/-- Write a packet's bytes from byte `a` on into its cells. -/
def storeFrom (s : State) (cells : List Nat) (a : Nat) (b : List Byte) : State :=
  match cells.drop (a / 256) with
  | [] => s
  | c :: r =>
    let k := 256 - a % 256
    writeCells (potWrite s (c * 256 + a % 256) ((b.drop a).take k)) r (b.drop (a + k))

/-- Read `n` bytes of a packet from its cells. -/
def readCells (s : State) : List Nat → Nat → List Byte
  | [], _ => []
  | c :: r, n => potRead s (c * 256) (min n 256) ++ readCells s r (n - 256)

/-- The bytes of a stored packet, as far as they have arrived. -/
def pktBytes (s : State) (p : Pkt) : List Byte :=
  if p.cells.isEmpty then p.data else readCells s p.cells (if p.ended then p.len.getD 0 else p.data.length)

/-- The words of a cell's link and of its reference count: unit and index (notes/assumptions/22). -/
def linkIdx (c : Nat) : Nat × Nat := (66 + c % 24, 2 * (c / 24))
def countIdx (c : Nat) : Nat × Nat := (66 + c % 24, 2 * (c / 24) + 1)

/-- Walk a packet's links: the cells up to the first unreadable link, and those beyond it (R492). -/
def walkLinks : State → List Nat → (List Nat × List Nat) × State
  | s, [] => (([], []), s)
  | s, [c] => (([c], []), s)
  | s, c :: r =>
    let x := checkWord s 1 (linkIdx c).1 (linkIdx c).2
    if x.1 then (([c], r), x.2)
    else
      let y := walkLinks x.2 r
      ((c :: y.1.1, y.1.2), y.2)

/-- The Stockpot words that `n` bytes of a packet's cells take (class 0x00). -/
def potWords (cells : List Nat) (n : Nat) : List (Nat × Nat) :=
  cells.zipIdx.flatMap (fun c =>
    (List.range (ceilDiv (min (n - 256 * c.2) 256) 8)).map (fun k => (66 + c.1 % 24, c.1 / 24 * 32 + k)))

/-- Read bytes `a` to `b` of packet `i` from the Stockpot: its links, then its words (R488, R492); whether anything is lost.
Cells beyond an unreadable link stay in use and leak. -/
def readPot (s : State) (i : Nat) (p : Pkt) (a b : Nat) : Bool × State :=
  if p.poison then (true, wordLost s 0 66 0 true)
  else
    let l := if (badWords s 1).isEmpty then ((p.cells, []), s) else walkLinks s p.cells
    if l.1.2.isEmpty then
      if (badWords l.2 0).isEmpty then (false, l.2) else checkWords l.2 0 ((potWords p.cells b).drop (potWords p.cells a).length)
    else (true, leakUnits (setPkt l.2 i { p with cells := l.1.1, poison := true }) 0 l.1.2)

/-- Descriptor fields (Table — Descriptor, R130). -/
def dKind (d : Nat) : Nat := bits d 255 253
def dDrop (d : Nat) : Nat := bits d 252 247
def dInPort (d : Nat) : Nat := bits d 243 234
def dDestDevice (d : Nat) : Nat := bits d 233 214
def dDestPort (d : Nat) : Nat := bits d 213 204
def dClass (d : Nat) : Nat := bits d 203 201
def dLength (d : Nat) : Nat := bits d 198 185
def dMcGroup (d : Nat) : Nat := bits d 184 169
def dTrap (d : Nat) : Nat := bits d 168 161
def dMirror (d : Nat) : Nat := bits d 160 157
def dHostCopy (d : Nat) : Bool := bit d 156
def dRewrite (d : Nat) : Nat := bits d 155 148
def dNhDmac (d : Nat) : Nat := bits d 147 100
def dEgressVlan (d : Nat) : Nat := bits d 99 88
def dPushLabel (d : Nat) : Nat := bits d 87 68
def dTtlDec (d : Nat) : Bool := bit d 67
def dDscpSet (d : Nat) : Nat := bits d 66 60
def dExpSet (d : Nat) : Nat := bits d 59 56
def dPtp (d : Nat) : Nat := bits d 55 54
def dAclLabel (d : Nat) : Nat := bits d 53 46
def dEcn (d : Nat) : Nat := bits d 45 44
def dTimestamp (d : Nat) : Nat := bits d 43 4
def dParserPunt (d : Nat) : Bool := bit d 3

/-- The ports a packet's cells count against: its line port (R224). -/
def fcPort (p : Pkt) : Option Nat := match p.origin with
  | .line q => some q
  | _ => none

/-- Cells of stored packets of an ingress port and class (R224). -/
def storedCells (s : State) (p c : Nat) : Nat :=
  s.pkts.foldl (fun t x => if fcPort x.2 = some p ∧ x.2.stage = .stored ∧ ¬ x.2.staged ∧ dClass x.2.desc = c
    then t + x.2.cells.length else t) 0

/-- The flow-control profile and receive pool of a port (R229). -/
def portMapWord (s : State) (p : Nat) : Nat := beAt (blk s Reg.pmPortMap) (2 * p) 2
def rxPool (s : State) (p : Nat) : Nat := bits (portMapWord s p) 12 8
def fcProfile (s : State) (p : Nat) : Nat := bits (portMapWord s p) 3 0

end Sys2Proof.Machine
end

