-- ==== Sys2Proof/Machine/PortOps.lean ====
section
/-! DEFINITION. What the ports share (ch. 3): speeds, statistics (R73, R74), and the pause and PFC frames a port sends
(R71, R224). -/

namespace Sys2Proof.Machine

/-- The calendar in use of a FlexE PHY: one 2-byte client number per slot (notes/assumptions/14). -/
def calendarInUse (s : State) (p : Nat) : List Byte :=
  let n := 2 * (modeSpeed (port s p).mode / 5)
  slice (blk s (Reg.portFlexeCalendar p)) (if (port s p).calB then n else 0) n

/-- The slots a client holds in a list of calendar bytes. -/
def clientSlots (b : List Byte) (client : Nat) : Nat :=
  ((List.range (b.length / 2)).filter (fun i => beAt b (2 * i) 2 = client)).length

/-- The port speed in Gb/s: the mode's, or 5 Gb/s a slot for a FlexE client (R52, R59). -/
def portSpeed (s : State) (p : Nat) : Nat :=
  if reg s (Reg.portRole p) = 3 then
    5 * ((groupPhys s (pipeOf p) (flexeGroup s p)).foldl
      (fun t q => t + clientSlots (calendarInUse s q) (reg s (Reg.portFlexeClientId p))) 0)
  else modeSpeed (port s p).mode

/-- M of a port. -/
def maxFrame (s : State) (p : Nat) : Nat := reg s (Reg.portMaxFrame p)

/-- Whether a port's link is up. -/
def linkUp (s : State) (p : Nat) : Bool := flag s (Reg.portLinkUp p)

/-- A fall-back counter takes `n`; its bit 39 going to 1 raises FB_BIT39 (R73). -/
def fbCount (s : State) (p sub n : Nat) : State :=
  let k := key (0x2000 + p) sub
  let old := reg s k
  let s := countBy s 40 k n
  if !bit old 39 && bit (reg s k) 39 then raise s (.port p) 3 else s

/-- A main statistics counter takes `n` (R73). -/
def mainCount (s : State) (p sub n : Nat) : State := countBy s 64 (key (0x2000 + p) sub) n

/-- The size bin of a length of 64 or more (Table — Size bins). -/
def sizeBin (l : Nat) : Nat :=
  if l ≤ 64 then 0 else if l ≤ 127 then 1 else if l ≤ 255 then 2 else if l ≤ 511 then 3 else if l ≤ 1023 then 4
  else if l ≤ 1518 then 5 else if l ≤ 2047 then 6 else if l ≤ 4095 then 7 else if l ≤ 9216 then 8 else 9

/-- Octets, packets and size bin of a received frame (R73). -/
def fbRxSize (s : State) (p l : Nat) : State :=
  let s := fbCount (fbCount s p 0x80 l) p 0x81 1
  let s := if 64 ≤ l then fbCount s p (0x85 + sizeBin l) 1 else s
  perfEvent s 1 p l

/-- The address class of a frame: 0 broadcast, 1 other group, 2 individual. -/
def addrClass (f : List Byte) : Nat :=
  if beAt f 0 6 = 0xFFFFFFFFFFFF then 0 else if byteAt f 0 % 2 = 1 then 1 else 2

/-- Octets, packets, address class and size bin of a frame begun (R73). -/
def fbTxSize (s : State) (p : Nat) (f : List Byte) : State :=
  let s := fbCount (fbCount s p 0xA0 f.length) p 0xA1 1
  let s := fbCount s p (0xA2 + addrClass f) 1
  let s := if 64 ≤ f.length then fbCount s p (0xA5 + sizeBin f.length) 1 else s
  perfEvent s 2 p f.length

/-- A frame with its FCS (R67). -/
def withFcs (f : List Byte) : List Byte := f ++ leBytes 4 (crc32 f)

/-- A frame with the ones' complement of its FCS (R68). -/
def withBadFcs (f : List Byte) : List Byte := f ++ leBytes 4 (Nat.xor (crc32 f) 0xFFFFFFFF)

/-- Whether a frame's last four bytes are its FCS. -/
def fcsGood (f : List Byte) : Bool :=
  decide (4 ≤ f.length) && leNat (f.drop (f.length - 4)) == crc32 (f.take (f.length - 4))

/-- A pause frame (opcode 0x0001) or PFC frame (opcode 0x0101) body: times for link pause or for the priorities of the
vector. The spec names no source address: an open value stands there (notes/assumptions/7). -/
def pauseFrame (sa : Nat) (pfc : Bool) (vec time : Nat) : List Byte :=
  let head := beBytes 6 0x0180C2000001 ++ beBytes 6 sa ++ beBytes 2 0x8808
  let body := if pfc then
      beBytes 2 0x0101 ++ beBytes 2 vec ++ (List.range 8).flatMap (fun i => beBytes 2 (if bit vec i then time else 0))
    else beBytes 2 0x0001 ++ beBytes 2 time
  withFcs (padTo (head ++ body) 60)

/-- A pause or PFC frame leaves: it is counted in both sets (R73). -/
def sendControl (s : State) (p : Nat) (f : List Byte) : State :=
  let s := mainCount (fbTxSize s p f) p 0x4D 1
  let s := if beAt f 14 2 = 1 then fbCount s p 0xAF 1
    else (bitList 8 (beAt f 16 2)).foldl (fun s i => fbCount s p (0xB0 + i) 1) s
  emit s (.frame p f true)

/-- Send a pause or PFC frame ahead of queued data: at once, or after the frame in progress (R71). -/
def queueControl (s : State) (p : Nat) (pfc : Bool) (vec time : Nat) : State :=
  let r := freeBits s 48
  let f := pauseFrame r.1 pfc vec time
  let s := r.2
  if !linkUp s p then s
  else match (port s p).tx with
    | some _ => setPort s p { port s p with pauseOut := (port s p).pauseOut ++ [f] }
    | none => sendControl s p f

/-- Which of a port's nine XOFF states is on: 0–7 priorities, 8 the link. -/
def xoffOn (s : State) (p i : Nat) : Bool := (mfind (port s p).xoff i).isSome

/-- Turn one XOFF state on or off and send its frame (R71). -/
def sendXoff (s : State) (p i : Nat) (on : Bool) : State :=
  let s := setPort s p { port s p with
    xoff := if on then mput (port s p).xoff i s.time else mdel (port s p).xoff i }
  queueControl s p (i != 8) (if i = 8 then 0 else 2 ^ i) (if on then reg s (Reg.portPauseQuanta p) else 0)

/-- Compare one count with its thresholds (R224). -/
def thresholdStep (s : State) (p i n : Nat) : State :=
  let f := fcProfile s p
  if !xoffOn s p i && decide (reg s (Reg.fcXoffCells f) ≤ n) then sendXoff s p i true
  else if xoffOn s p i && decide (n ≤ reg s (Reg.fcXonCells f)) then sendXoff s p i false
  else s

/-- The flow-control thresholds of an ingress port after its stored cells changed (R224). -/
def fcCheck (s : State) (p : Nat) : State :=
  let m := reg s (Reg.portFcMode p)
  if m = 2 then
    (bitList 8 (reg s (Reg.portPfcEnableMask p))).foldl (fun s c => thresholdStep s p c (storedCells s p c)) s
  else if m = 1 then
    thresholdStep s p 8 ((List.range 8).foldl (fun t c => t + storedCells s p c) 0)
  else s

/-- The flow-control check of a packet's ingress port. -/
def fcCheckOf (s : State) (p : Pkt) : State :=
  match fcPort p with
  | some q => fcCheck s q
  | none => s

end Sys2Proof.Machine
end

