-- ==== Sys2Proof/Machine/Queue.lean ====
section
/-! DEFINITION. Queues (ch. 11) and where their packets lie (ch. 9): the tree's parents, VOQ binding, AQM, the five steps
of an arrival (R257), spilling, packing and staging (R225–R227), and the release of references (R215). -/

namespace Sys2Proof.Machine

/-! ### Words and parents (R260–R262) -/

def snEnable (w : Nat) : Bool := bit w 127
def snStrict (w : Nat) : Bool := bit w 123
def snSlot (w : Nat) : Nat := bits w 122 121
def snWeight (w : Nat) : Nat := bits w 120 105
def snParent (w : Nat) : Nat := bits w 104 86
def snOvh (w : Nat) : Nat := bits w 85 82
def snRate (w : Nat) : Nat := bits w 81 42
def snBurst (w : Nat) : Nat := bits w 41 17

/-- The QMS of a queue (R254). -/
def qmsOf (q : Nat) : Nat := q / 32768

/-- The node of a fabric class node (R260): a kind code of the model's own. -/
def classNode (n c : Nat) : Nat := nodeKey 7 (8 * n + c)

/-- Fields of a bound VOQ (Table — Queue word). -/
def voqBound (w : Nat) : Bool := bit w 46
def voqDevice (w : Nat) : Nat := bits w 45 26
def voqPort (w : Nat) : Nat := bits w 25 16
def voqClass (w : Nat) : Nat := bits w 15 13

/-- The parent of a node (Table — Node kinds). -/
def parentOf (s : State) (k : Nat) : Option Nat :=
  let i := nodeIdx k
  let w := (node s k).word
  if nodeKind k = 1 then some (nodeKey 0 (snParent w))
  else if nodeKind k = 2 then some (nodeKey 1 (snParent w))
  else if nodeKind k = 3 then
    if qType s i = 1 then some (nodeKey 2 (snParent w))
    else if qType s i = 2 then some (nodeKey 4 (qmsOf i))
    else if qType s i = 3 && voqBound (qWord s i) then some (classNode (qmsOf i) (voqClass (qWord s i)))
    else none
  else if nodeKind k = 7 then some (nodeKey 5 (i / 8))
  else none

/-- The path from a node up to its root, leaf first. -/
def pathUp (s : State) : Nat → Nat → List Nat
  | 0, k => [k]
  | f + 1, k => match parentOf s k with
    | some p => k :: pathUp s f p
    | none => [k]

/-- The path of a queue. -/
def queuePath (s : State) (q : Nat) : List Nat := pathUp s 4 (nodeKey 3 q)

/-- The port an egress queue's chain of parents ends at (R256). -/
def queuePort (s : State) (q : Nat) : Option Nat :=
  if qType s q = 1 then (queuePath s q).getLast?.bind (fun k => if nodeKind k = 0 then some (nodeIdx k) else none)
  else none

/-- A queue or node is served no longer (R493). -/
def faultNode (s : State) (k : Nat) : State :=
  let s := if nodeKind k = 3 then setQueue s (nodeIdx k) { queue s (nodeIdx k) with faulted := true }
    else setNode s k { node s k with faulted := true }
  raise (count32 s Reg.intQueueFaulted) .int 3

/-- Whether a queue or node is faulted. -/
def nodeFaulted (s : State) (k : Nat) : Bool := if nodeKind k = 3 then (queue s (nodeIdx k)).faulted else (node s k).faulted

/-- Read the two copies of the state of a queue or node (class 0x03, R492): a lost copy is rewritten from the other and counts
as corrected; both lost fault it. The words of a copy are one index (notes/assumptions/22). -/
def readState (s : State) (k : Nat) : State :=
  if (badWords s 3).isEmpty || nodeFaulted s k then s
  else
    let u := 90 + nodeQms k
    let a := flipsOf s 3 u (2 * k)
    let b := flipsOf s 3 u (2 * k + 1)
    if 3 ≤ a ∧ 3 ≤ b then faultNode (wordLost s 3 u (2 * k) (a == 4)) k
    else
      let fix := fun (s : State) (f i : Nat) =>
        let s := if f = 0 then s else wordCorrected s 3 u i
        if 3 ≤ f then setFlips s 3 u i 0 else s
      fix (fix s a (2 * k)) b (2 * k + 1)

/-- Whether a queue holds a reference. -/
def holdsRef (x : Queue) : Bool := !x.refs.isEmpty || !x.staged.isEmpty || !x.backlog.isEmpty

/-- References held. -/
def refsHeld (x : Queue) : Nat := x.refs.length + x.staged.length + x.backlog.length

/-- The links in use in a QMS. -/
def linksUsed (s : State) (n : Nat) : List Nat :=
  s.qm.queues.flatMap (fun x => if qmsOf x.1 = n then (x.2.refs ++ x.2.staged).map (·.link) else [])

/-- The lowest number a list does not hold. -/
def lowestFree (l : List Nat) : Nat → Nat → Nat
  | 0, n => n
  | f + 1, n => if l.contains n then lowestFree l f (n + 1) else n

/-- The link a new reference of a QMS takes. -/
def freeLink (s : State) (n : Nat) : Nat := lowestFree (linksUsed s n) ((linksUsed s n).length) 0

/-- A reference takes its link: the descriptor's words and the next field are written (class 0x02, notes/assumptions/22). -/
def linkWritten (s : State) (q link : Nat) : State := wordsWritten s 2 (90 + qmsOf q) ((List.range 5).map (· + 8 * link))

/-- Free queue links of a QMS (R258): a link for each reference in a Stockpot part or in staging. -/
def linksFree (s : State) (n : Nat) : Nat :=
  65536 - (s.qm.queues.foldl
    (fun t x => if qmsOf x.1 = n then t + x.2.refs.length + x.2.staged.length else t) 0)

/-- Queues now SPILLED. -/
def spillCount (s : State) : Nat := (s.qm.queues.filter (fun x => x.2.spilled)).length

/-- Q of a queue as R273 takes it. -/
def qDepth (x : Queue) : Nat := x.qs + 8 * x.qc

/-! ### Occupancy of the ledger (R359) -/

/-- A packet not yet enqueued stops being held. -/
def leaveArrival (s : State) (p : Pkt) : State :=
  match p.origin with
  | .line _ => { s with led.oRx := s.led.oRx - 1 }
  | .fabric => { s with led.oFab := s.led.oFab - 1 }
  | _ => { s with led.oGen := s.led.oGen - 1 }

def queueHeld (s : State) : State := { s with led.oQueue := s.led.oQueue + 1 }
def queueLeft (s : State) : State := { s with led.oQueue := s.led.oQueue - 1 }
def copyMade (s : State) : State := { s with led.aCopy := s.led.aCopy + 1 }

/-! ### Discards of packets and references (R355, R356) -/

/-- The line port a packet came in on. -/
def linePort (p : Pkt) : Option Nat := match p.origin with
  | .line q => some q
  | _ => none

/-- Attribution of a discard before enqueue (rules 6 to 8 of R356). -/
def arrivalPort (p : Pkt) : Option Nat := match p.origin with
  | .fabric => some (dDestPort p.desc)
  | .line q => some q
  | _ => none

/-- The ingress port of a packet on its way into the fabric (rule 5 of R356): none for one injected direct. -/
def voqAttr (p : Pkt) : Option Nat := match p.origin with
  | .line q => some q
  | .injectPort _ q => some q
  | _ => none

/-- Attribution of a discard at or after an enqueue on a queue (rules 4, 5, 7, 8 of R356). -/
def queueAttr (s : State) (q : Nat) (p : Pkt) : Option Nat :=
  if qType s q = 1 then queuePort s q
  else if qType s q = 3 then voqAttr p
  else linePort p

/-- The postcard of a packet. -/
def pktCard (s : State) (p : Pkt) (egress : Option Nat) : Card :=
  { inPort := (linePort p).getD 0xFFFFFFFF, egress := egress.getD 0xFFFFFFFF, cls := dClass p.desc,
    size := (p.len.map (· + 4)).getD 0,
    data := if p.stage = .stored ∨ !p.cells.isEmpty then (pktBytes s p).take 128 else [] }

/-- The key of a grant context: source device, port, class (R346). -/
def grantKey (src port cls : Nat) : Nat := src * 8192 + port * 8 + cls

/-- Replace a grant context; one with nothing pending or outstanding is freed (R346). -/
def setGrant (s : State) (k : Nat) (g : Grant) : State := { s with ft.grants := mset {} s.ft.grants k g }

/-- The dequeue or discard of a packet received under a grant takes its charge from O_x (R346). -/
def creditBack (s : State) (i : Nat) : State :=
  match pkt? s i with
  | some p =>
    if p.credited then
      let k := grantKey p.src (dDestPort p.desc) (dClass p.desc)
      let g := mget {} s.ft.grants k
      let l := (p.len.getD (reg s Reg.ftRxMaxFrame - 4)) + 44
      setPkt (setGrant s k { g with o := g.o - l }) i { p with credited := false }
    else s
  | none => s

/-- A packet leaves before its shapers were corrected: its true length stands with the correction (R269). -/
def dueKnown (s : State) (i : Nat) (p : Pkt) : State :=
  { s with qm.due := s.qm.due.map (fun d => if d.pkt = i then { d with known := some (p.len.getD p.data.length) } else d) }

/-- The packet's cells go back and it is forgotten; its ingress port's thresholds are looked at (R215, R224). -/
def freePkt (s : State) (i : Nat) : State :=
  match pkt? s i with
  | some p => fcCheckOf (delPkt (freeUnits (dueKnown s i p) 0 p.cells) i) p
  | none => s

/-- The count of a packet's first cell is lost: its cells stay in use (R492). -/
def countLost (s : State) (i : Nat) (p : Pkt) : State := leakUnits (setPkt s i { p with leaked := true }) 0 p.cells

/-- Read a packet's reference count; whether it is lost. -/
def readCount (s : State) (p : Pkt) : Bool × State := match p.cells.head? with
  | some c => if (badWords s 1).isEmpty then (false, s) else checkWord s 1 (countIdx c).1 (countIdx c).2
  | none => (false, s)

/-- Release one reference: the count falls by one as one action, and at zero the cells are freed once (R215). A release of
a packet whose count was lost changes nothing (R492). -/
def releaseRef (s : State) (i : Nat) : State :=
  match pkt? s i with
  | some p =>
    let c := readCount s p
    let s := c.2
    if p.leaked then s
    else if c.1 then countLost s i p
    else if p.refs = 0 then raise (count1 s Reg.pmRefcountUnderflows) .pm 3
    else if p.refs = 1 then freePkt (setPkt s i { p with refs := 0 }) i
    else setPkt s i { p with refs := p.refs - 1 }
  | none => raise (count1 s Reg.pmRefcountUnderflows) .pm 3

/-- A packet that never reaches a queue is discarded whole. -/
def discardArrival (s : State) (i reason : Nat) : State :=
  match pkt? s i with
  | some p =>
    let s := discard s reason (arrivalPort p) (pktCard s p none)
    let s := creditBack (leaveArrival s p) i
    freePkt s i
  | none => s

/-- A reference held by a queue is discarded: counted, no longer held, released. Its charge is the caller's. -/
def discardHeld (s : State) (q : Nat) (r : Ref) (reason : Nat) : State :=
  match pkt? s r.pkt with
  | some p =>
    let s := discard s reason (queueAttr s q p) (pktCard s p (queuePort s q))
    releaseRef (creditBack (queueLeft s) r.pkt) r.pkt
  | none => queueLeft s

/-! ### Spilled queues (R225–R227) -/

/-- The bytes of a record: the descriptor, then the data padded to 32 (R226). -/
def recordBytes (len : Nat) : Nat := 32 + ceilDiv len 32 * 32

/-- The length a packet is judged by: its own, or the estimate M − 4 (R223). -/
def judgedLen (p : Pkt) : Nat := p.len.getD (p.maxFrame - 4)

/-- Stream bytes that the records not yet written will take. -/
def unpackedBytes (x : Queue) : Nat := (x.backlog.filter (fun r => !r.packed)).foldl (fun t r => t + r.bytes) 0

/-- The pages a record of `n` bytes needs that the queue has not opened (R226). -/
def pagesNeeded (x : Queue) (n : Nat) : Nat := ceilDiv (x.packOff + unpackedBytes x + n) 1984 - x.opened

/-- A page header (Table — Page header). -/
def pageHeader (s : State) (g : Nat) : Nat := beNat (crockRead s (g * 2048) 8)
def setPageHeader (s : State) (g h : Nat) : State := crockWrite s (g * 2048) (beBytes 8 h)

/-- Open one page at the end of a queue's chain: its header is written, and its predecessor's link. -/
def openPage (s : State) (q g : Nat) : State :=
  let x := queue s q
  let s := crockWrite s (g * 2048) (beBytes 8 (0x7FF * 2 ^ 26 + q) ++ List.replicate 56 0)
  let s := match x.pages.getLast? with
    | some l => setPageHeader s l (setBits (setBit (pageHeader s l) 63) 62 37 g)
    | none => s
  setQueue s q { x with pages := x.pages ++ [g], opened := x.opened + 1 }

/-- The page of a stream position of a queue's chain. -/
def pageAt (x : Queue) (pos : Nat) : Nat := nthD x.pages (pos / 1984 - (x.opened - x.pages.length))
where
  /-- Element `i` of a list, 0 past its end. -/
  nthD (l : List Nat) (i : Nat) : Nat := (l.drop i).head?.getD 0

/-- Write bytes from a stream position on, page by page. -/
def writeStream : Nat → State → Queue → Nat → List Byte → State
  | 0, s, _, _, _ => s
  | f + 1, s, x, pos, b =>
    if b.isEmpty then s
    else
      let n := 1984 - pos % 1984
      writeStream f (crockWrite s (pageAt x pos * 2048 + 64 + pos % 1984) (b.take n)) x (pos + n) (b.drop n)

/-- Read bytes from a stream position on. -/
def readStream : Nat → State → Queue → Nat → Nat → List Byte
  | 0, _, _, _, _ => []
  | f + 1, s, x, pos, n =>
    if n = 0 then []
    else
      let k := min n (1984 - pos % 1984)
      crockRead s (pageAt x pos * 2048 + 64 + pos % 1984) k ++ readStream f s x (pos + k) (n - k)

/-- A record starts in a page: the page's `ph_first` and `ph_starts` (R226). -/
def noteStart (s : State) (x : Queue) (pos : Nat) : State :=
  let g := pageAt x pos
  let h := pageHeader s g
  let h := if bits h 36 26 = 0x7FF then setBits h 36 26 (64 + pos % 1984) else h
  setPageHeader s g (setBits h 25 20 (bits h 25 20 + 1))

/-- A Crock word: its stack and its index within it. -/
def crockWord (page word : Nat) : Nat × Nat := (page % 4, page / 4 * 256 + word)

/-- The words of a stretch of a queue's stream: (page, word). -/
def streamWords (x : Queue) (pos n : Nat) : List (Nat × Nat) :=
  (List.range (ceilDiv n 8)).map (fun i =>
    let p := pos + 8 * i
    (pageAt x p, (64 + p % 1984) / 8))

/-- Write the first unwritten record of a queue when its packet is whole; its packet is then released (R216, R226). -/
def packNext (s : State) (q : Nat) : Option State :=
  let x := queue s q
  match x.backlog.find? (fun r => !r.packed) with
  | none => none
  | some r =>
    match pkt? s r.ref.pkt with
    | none => none
    | some p =>
      if p.ended then
        let data := pktBytes s p
        let n := recordBytes data.length
        let pos := x.packOff
        let s := writeStream 16 s x pos (beBytes 32 r.ref.desc ++ padTo data (n - 32))
        let s := if p.poison then (streamWords x (pos + 32) 8).foldl (fun s w => setFlips s 9 (crockWord w.1 w.2).1 (crockWord w.1 w.2).2 4) s
          else s
        let s := noteStart s x pos
        let bl := x.backlog.map (fun y => if y = r then { r with packed := true, page := pageAt x pos, off := pos, bytes := n } else y)
        let s := setQueue s q { queue s q with backlog := bl, packOff := pos + n }
        some (releaseRef s r.ref.pkt)
      else none

/-- Pack as many records as are whole, oldest first. -/
def packAll : Nat → State → Nat → State
  | 0, s, _ => s
  | f + 1, s, q => match packNext s q with
    | some s' => packAll f s' q
    | none => s

/-- A spilled queue whose Crock backlog is gone becomes NORMAL; pages it had opened go back (R225). -/
def spillExit (s : State) (q : Nat) : State :=
  let x := queue s q
  if x.spilled && x.backlog.isEmpty && x.staged.isEmpty then
    let s := freeUnits s 1 x.pages
    let s := setQueue s q { x with spilled := false, pages := [], packOff := 0, opened := 0, qc := x.qc - x.pages.length }
    count1 s Reg.spillExits
  else s

/-- Abandon the rest of a queue's Crock chain (R214); the reason is DR_POINTER_CHECK, or DR_CROCK_ECC (R248). -/
def chainBreak (s : State) (q reason : Nat) : State :=
  let x := queue s q
  let s := x.backlog.foldl (fun s r =>
    if r.packed then queueLeft (discard s reason (linePortOfDesc s q r.ref) {}) else discardHeld s q r.ref reason) s
  let s := countBy s 32 (Reg.poolLeaked (chargePool s 1 q)) x.pages.length
  let s := setQueue s q { queue s q with backlog := [], pages := [], packOff := 0, opened := 0, qc := x.qc - x.pages.length }
  let s := raise (count1 s Reg.pmChainBreaks) .pm 6
  spillExit s q
where
  /-- Attribution of a record whose packet is only in the Crock. -/
  linePortOfDesc (s : State) (q : Nat) (r : Ref) : Option Nat :=
    if qType s q = 1 then queuePort s q else some (dInPort r.desc)

/-- The pages that a stretch of a queue's stream crosses. -/
def pagesOf (x : Queue) (a b : Nat) : List Nat :=
  (List.range (b / 1984 - a / 1984 + 1)).map (fun i => pageAt x (a + i * 1984))

/-- The page link among these that fails R211: not valid, or outside the queue's pool. -/
def linkFault (s : State) (q : Nat) (gs : List Nat) : Option Nat :=
  gs.dropLast.findSome? (fun g =>
    let h := pageHeader s g
    if bit h 63 && inPool s (chargePool s 1 q) (bits h 62 37) then none else some (unitPtr 1 (bits h 62 37)))

/-- Every page belongs to the queue (R214). -/
def pagesOwned (s : State) (q : Nat) (gs : List Nat) : Bool := gs.all (fun g => bits (pageHeader s g) 18 0 == q)

/-- A corrected or uncorrectable word is counted at its stack too, and its place latched (R247). -/
def stackWord (s : State) (prt page word : Nat) (lost : Bool) : State :=
  let k := page % 4
  let s := count1 s (if lost then Reg.hbmEccUncorrectable k else Reg.hbmEccCorrected k)
  let s := setReg s (Reg.hbmLastEcc k) (b2n lost * 2 ^ 63 + prt * 2 ^ 60 + page * 2 ^ 8 + word)
  raise s (.hbm k) (b2n lost)

/-- Read words of a page through a port of its stack: whether any is lost, and the counts (R247, R488). -/
def readCrockWords (s : State) (prt : Nat) (l : List (Nat × Nat)) : Bool × State :=
  l.foldl (fun r w =>
    let c := crockWord w.1 w.2
    if flipsOf r.2 9 c.1 c.2 = 0 then r
    else
      let x := checkWord r.2 9 c.1 c.2
      (r.1 || x.1, stackWord x.2 prt w.1 w.2 x.1)) (false, s)

/-- The header words of the pages of a stretch. -/
def headerWords (x : Queue) (pos n : Nat) : List (Nat × Nat) :=
  (List.range ((pos + n - 1) / 1984 - pos / 1984 + 1)).flatMap (fun i =>
    (List.range 8).map (fun w => (pageAt x (pos + 1984 * i), w)))

/-- Free the pages wholly read: those before the page of a stream position; each releases its page charge (R227). -/
def freeReadPages (s : State) (q pos : Nat) : State :=
  let x := queue s q
  let k := pos / 1984 - (x.opened - x.pages.length)
  let s := freeUnits s 1 (x.pages.take k)
  setQueue s q { queue s q with pages := x.pages.drop k, qc := (queue s q).qc - (x.pages.take k).length }

/-- Stage the first record of a backlog (R227): its packet gets cells of pool 27 and its reference a link. None when it
must wait. -/
def stageOne (s : State) (q : Nat) : Option State :=
  let x := queue s q
  match x.backlog with
  | [] => none
  | r :: rest =>
    if !r.packed then none
    else
      let hd := readCrockWords s 0 (headerWords x r.off r.bytes)
      let ds := readCrockWords hd.2 0 (streamWords x r.off 32)
      let dt := readCrockWords ds.2 0 (streamWords x (r.off + 32) (r.bytes - 32))
      if hd.1 then some (chainBreak hd.2 q 42)
      else if (linkFault s q (pagesOf x r.off (r.off + r.bytes - 1))).isSome then
        some (chainBreak (ptrFault hd.2 2 (chargePool s 1 q)
          ((linkFault s q (pagesOf x r.off (r.off + r.bytes - 1))).getD 0)) q 29)
      else if !pagesOwned s q (pagesOf x r.off (r.off + r.bytes - 1)) then some (chainBreak hd.2 q 29)
      else if ds.1 then some (chainBreak ds.2 q 42)
      else
      let lost := dt.1
      let s := dt.2
      let raw := readStream 16 s x r.off r.bytes
      let desc := beNat (raw.take 32)
      let len := if dLength r.ref.desc = 0x3FFF then r.bytes - 32 else dLength r.ref.desc
      let next := r.off + r.bytes
      if lost then
        let s := queueLeft (discard s 42 (if qType s q = 1 then queuePort s q else some (dInPort desc)) {})
        let s := setQueue s q { x with backlog := rest }
        some (spillExit (freeReadPages s q (if rest.isEmpty then next + 1983 else next)) q)
      else if linksFree s (qmsOf q) = 0 then none
      else match takeUnits (cellsFor len) s 27 [] with
        | .got cs s =>
          let data := (raw.drop 32).take len
          let s := writeCells s cs data
          let i := s.nextPkt
          let p : Pkt := { origin := r.ref.origin, inPort := dInPort desc, stage := .stored, len := some len, ended := true,
                           desc := desc, cells := cs, refs := 1, staged := true, src := r.ref.src }
          let s := { setPkt s i p with nextPkt := i + 1 }
          let k := freeLink s (qmsOf q)
          let s := linkWritten s q k
          let s := setQueue s q { queue s q with staged := x.staged ++ [{ r.ref with pkt := i, charge := 0, link := k }], backlog := rest }
          some (freeReadPages s q (if rest.isEmpty then ceilDiv next 1984 * 1984 else next))
        | .short _ => none
        | .fault s => some (spillExit (setQueue (queueLeft (discard s 29 none {})) q { x with backlog := rest }) q)

/-! ### VOQ binding (R278, R279) -/

/-- State codes of a destination (R336): 0 UNKNOWN, 1 PROBING, 2 REACHABLE, 3 TOO_FAR. -/
def destState (s : State) (d : Nat) : Nat := mget 0 s.ft.dest d

/-- The VOQ of a QMS bound to a triple. -/
def findVoq (s : State) (qms dev prt cls : Nat) : Option Nat :=
  (typedQueues s).find? (fun q => qmsOf q == qms && qType s q == 3 && voqBound (qWord s q) &&
    voqDevice (qWord s q) == dev && voqPort (qWord s q) == prt && voqClass (qWord s q) == cls)

/-- The free VOQ-pool queues of a QMS, lowest first. -/
def freeVoqs (s : State) (qms : Nat) : List Nat :=
  (typedQueues s).filter (fun q => qmsOf q == qms && qType s q == 3 && !voqBound (qWord s q))

/-- Bind a free VOQ-pool queue to a triple with the template of its class (R279). -/
def bindVoq (s : State) (q dev prt cls : Nat) : State :=
  let t := reg s (Reg.voqTemplate cls)
  let k := nodeKey 3 q
  let w := 3 * 2 ^ 62 + bits t 31 24 * 2 ^ 54 + bits t 23 20 * 2 ^ 50 + 2 ^ 46 + dev % 2 ^ 20 * 2 ^ 26 +
    prt % 1024 * 2 ^ 16 + cls % 8 * 2 ^ 13
  let n := node s k
  let s := setNode s k { n with qword := w, word := setBits (setBits (setBit n.word 127) 81 42 0) 120 105 1,
                                wt := 1, shRate := 0, deficit := 0 }
  let s := { s with qm.voqs := mset {} s.qm.voqs q {} }
  let s := count1 s Reg.voqBinds
  let low := reg s Reg.voqLowCount
  if (freeVoqs s (qmsOf q)).length < low then raise s .qm 2 else s

/-- The VOQ an arrival for a triple joins: the bound one, or the lowest free one bound now; none when there is none. -/
def takeVoq (s : State) (qms dev prt cls : Nat) : Option Nat × State :=
  match findVoq s qms dev prt cls with
  | some q => (some q, s)
  | none => match (freeVoqs s qms).head? with
    | some q => (some q, bindVoq s q dev prt cls)
    | none => (none, raise (count1 s Reg.voqUnavailable) .qm 1)

/-! ### Active queue management (R272, R273) -/

/-- An AQM profile. -/
def aqmProfile (s : State) (n : Nat) : Nat :=
  match mfind s.blocks (Reg.aqmProfile n) with
  | some b => beNat b
  | none => 2 ^ 64 + 2 ^ 32

/-- What AQM decides. -/
inductive AqmOut where
  | pass | mark | drop
deriving DecidableEq, Repr

/-- The decision of R273 for depth `q` and random `r`. -/
def aqmDecide (a q ecn r : Nat) : AqmOut :=
  let lo := bits a 127 96
  let hi := bits a 95 64
  let ectd := bits a 63 32
  let maxp := bits a 31 16
  let ect := bit a 0 && ecn != 0
  let hit := if ect then AqmOut.mark else .drop
  if q < lo then .pass
  else if ectd ≤ q then .drop
  else if hi ≤ q then hit
  else if r < maxp * (q - lo) / (hi - lo) then hit else .pass

/-! ### An arrival at a queue (R257) -/

/-- One reference that is to be placed: the queue chosen, or the reason of step 1 where there is none; its kind and
per-copy fields; the descriptor it carries where that is not the packet's own. -/
structure Target where
  queue : Option Nat
  miss : Nat := 63
  kind : RefKind
  vlan : Option Nat := none
  cls : Nat := 0
  desc : Option Nat := none
deriving DecidableEq, Repr

/-- The reason a step of R257 refuses, or what was charged: set, units, mark. -/
inductive Decision where
  | refuse (s : State) (reason : Nat)
  | take (s : State) (set n : Nat) (marked : Bool)

/-- Step 2: the set, after the spill table (R225). True: the Crock set. -/
def chooseSet (s : State) (q n : Nat) : State × Bool :=
  let x := queue s q
  if x.spilled then (s, true)
  else if apSpill (qProfile s q) && decide (x.qs + n > apSpillCells (qProfile s q)) then
    if spillCount s < 65536 then
      (perfEvent (count1 (setQueue s q { x with spilled := true }) Reg.spillEntries) 0x50 0 0, true)
    else (raise (count1 s Reg.spillRefused) .pm 5, false)
  else (s, false)

/-- Steps 3 to 5: AQM, admission, and for the Stockpot set the link. -/
def decideSet (s : State) (q : Nat) (p : Pkt) (crock : Bool) : Decision :=
  let prof := qAqm s q
  let r := if prof = 0 then (0, s) else freeBits s 16
  let s := r.2
  let out := if prof = 0 then AqmOut.pass
    else aqmDecide (aqmProfile s prof) (qDepth (queue s q)) (dEcn p.desc) r.1
  if out = .drop then .refuse (count1 s Reg.aqmDropped) 27
  else
    let s := if out = .mark then count1 s Reg.aqmMarked else s
    let set := b2n crock
    let n := if crock then pagesNeeded (queue s q) (recordBytes (judgedLen p)) else cellsFor (judgedLen p)
    if residueArmed s 3 then .refuse (residueHit s) 23
    else match admission s set q n with
      | some reason => .refuse s reason
      | none =>
        if !crock && linksFree s (qmsOf q) == 0 then
          .refuse (raise (count1 s Reg.qmLinksExhausted) .qm 5) 28
        else .take (chargeQueue s set q n) set n (out = .mark)
where
  /-- A residue mismatch in an admission decision (R223). -/
  residueHit (s : State) : State :=
    raise (count1 (residueMismatch s) Reg.pmResidueFaults) .pm 4

/-- Whether the port of an egress queue is idle (R259). -/
def portIdle (s : State) (p : Nat) : Bool :=
  (port s p).tx.isNone && (port s p).dq.isEmpty &&
    s.qm.queues.all (fun x => !holdsRef x.2 || queuePort s x.1 != some p)

/-- The speed a packet came in at; none where it has no line port behind it. -/
def speedIn (s : State) (p : Pkt) : Option Nat := match p.origin with
  | .line q => some (portSpeed s q)
  | .fabric => if flag s Reg.ftRxCutThrough then some p.speed else none
  | _ => none

/-- The cut-through mark of R15 and R259: the port is idle and at least as fast as the ingress. -/
def cutMark (s : State) (q : Nat) (p : Pkt) : Bool :=
  match queuePort s q, speedIn s p with
  | some o, some v => portIdle s o && decide (v ≤ portSpeed s o)
  | _, _ => false

/-- The port a refused copy counts against (rule 1 of R356). -/
def copyPort (s : State) (q : Nat) (p : Pkt) : RefKind → Option Nat
  | .mcCopy t => some t
  | _ => (queuePort s q).orElse (fun _ => linePort p)

/-- A copy is refused at its target: DR_MC_COPY_REFUSED, with the step's own reason latched (R257, R277). -/
def refuseCopy (s : State) (i : Nat) (p : Pkt) (q : Nat) (kind : RefKind) (reason : Nat) : State :=
  let at? := copyPort s q p kind
  let s := discard s 35 at? (pktCard s p at?)
  let s := count1 s Reg.mcCopiesRefused
  let s := setReg s Reg.mcLastRefusal (at?.getD 0 * 2 ^ 16 + reason)
  releaseRef (raise s .qm 3) i

/-- The main reference of a packet is refused at its queue. -/
def refuseMain (s : State) (i : Nat) (p : Pkt) (q reason : Nat) : State :=
  let at? := if qType s q = 1 then queuePort s q else arrivalPort p
  releaseRef (creditBack (discard s reason at? (pktCard s p at?)) i) i

/-- A refusal of any reference. -/
def refuseRef (s : State) (i : Nat) (p : Pkt) (q : Nat) (kind : RefKind) (reason : Nat) : State :=
  let s := perfEvent s 0x42 (qmsOf q) 0
  match kind with
  | .main => refuseMain s i p q reason
  | k => refuseCopy s i p q k reason

/-- A reference is linked or packed. -/
def linkRef (s : State) (i : Nat) (p : Pkt) (q set n : Nat) (marked : Bool) (t : Target) : State :=
  let x := queue s q
  let r : Ref := { pkt := i, kind := t.kind, charge := n, enqAt := s.time, cut := cutMark s q p, marked := marked,
                   vlan := t.vlan, cls := t.cls, desc := t.desc.getD p.desc, origin := p.origin, src := p.src }
  let r := if set = 0 then { r with link := freeLink s (qmsOf q) } else r
  let s := if set = 0 then linkWritten s q r.link else s
  let s := perfEvent (queueHeld s) 0x40 (qmsOf q) (judgedLen p)
  if set = 0 then setQueue s q { x with refs := x.refs ++ [r] }
  else setQueue s q { x with backlog := x.backlog ++
    [{ ref := { r with cut := false }, page := 0, off := 0, bytes := recordBytes (judgedLen p), packed := false }] }

/-- The pages a spilled arrival opens (R226); false when the store cannot supply them. -/
def openPages : Nat → State → Nat → State × Bool
  | 0, s, _ => (s, true)
  | n + 1, s, q => match allocUnit s (chargePool s 1 q) with
    | .unit g s' => openPages n (openPage s' q g) q
    | .empty => (s, false)
    | .fault s' => (s', false)

/-- Place one reference: the steps of R257 in order; a faulted queue takes none (R493). -/
def placeRef (s : State) (i : Nat) (t : Target) : State :=
  let s := match t.queue with
    | some q => readState s (nodeKey 3 q)
    | none => s
  match pkt? s i, t.queue with
  | some p, some q =>
    if (queue s q).faulted then refuseRef s i p q t.kind 24
    else
    let c := chooseSet s q (cellsFor (judgedLen p))
    match decideSet c.1 q p c.2 with
    | .refuse s reason => refuseRef s i p q t.kind reason
    | .take s set n marked =>
      if set = 0 then linkRef s i p q 0 n marked t
      else
        let o := openPages n s q
        if o.2 then linkRef o.1 i p q 1 n marked t
        else refuseRef (unchargeQueue o.1 1 q (n - ((queue o.1 q).opened - (queue s q).opened))) i p q t.kind 28
  | some p, none =>
    if t.miss = 63 then
      let s := raise (count1 s Reg.qmNoQueue) .qm 4
      match t.kind with
      | .mcCopy _ => refuseCopy s i p 0 t.kind 63
      | _ => releaseRef (creditBack (discard s 63 (arrivalPort p) (pktCard s p none)) i) i
    else releaseRef (creditBack (discard s t.miss (linePort p) (pktCard s p none)) i) i
  | none, _ => s

/-- Take the packet's Stockpot references back out of their queues and discard them for want of a cell (R220). -/
def unplace (s : State) (i reason : Nat) : State :=
  let hit := s.qm.queues.filter (fun x => x.2.refs.any (fun r => r.pkt = i))
  hit.foldl (fun s x =>
    (x.2.refs.filter (fun r => r.pkt = i)).foldl (fun s r =>
      let s := setQueue s x.1 { queue s x.1 with refs := (queue s x.1).refs.erase r, qs := (queue s x.1).qs - r.charge }
      match pkt? s i with
      | some p => refuseRef (queueLeft s) i p x.1 r.kind reason
      | none => s) s) s

/-- The pool a packet's cells come from (R206, R218, R349). -/
def sourcePool (s : State) (p : Pkt) : Nat := match p.origin with
  | .line q => rxPool s q
  | .fabric => reg s Reg.ftRxPool
  | .injectPort _ _ => 28
  | .injectDirect _ _ => 28
  | .mgmt => 29
  | .ensign => 29

/-- Whether any reference to the packet stands in a Stockpot part. -/
def inStockpot (s : State) (i : Nat) : Bool := s.qm.queues.any (fun x => x.2.refs.any (fun r => r.pkt = i))

/-- Whether any reference to the packet stands anywhere. -/
def referenced (s : State) (i : Nat) : Bool :=
  s.qm.queues.any (fun x => x.2.refs.any (fun r => r.pkt = i) || x.2.backlog.any (fun r => r.ref.pkt = i))

/-- Cells of a fabric packet: each from its pool, or from pool 30 where that pool refuses (R207, R349). -/
def takeMixed : Nat → State → Nat → List Nat → Take
  | 0, s, _, acc => .got acc.reverse s
  | k + 1, s, n, acc =>
    let a := match allocUnit s n with
      | .empty => allocUnit s 30
      | x => x
    match a with
    | .unit u s' => takeMixed k s' n (u :: acc)
    | .empty => .short (freeUnits s 0 acc)
    | .fault s' => .fault (freeUnits s' 0 acc)

/-- The cells of a packet. -/
def takeFor (s : State) (p : Pkt) (n : Nat) : Take := match p.origin with
  | .fabric => takeMixed n s (sourcePool s p) []
  | _ => takeUnits n s (sourcePool s p) []

/-- The cells a packet holds and as many more as make `n`; those beyond `n` go back. -/
def takeUpTo (s : State) (p : Pkt) (n : Nat) : Take :=
  if n ≤ p.cells.length then .got (p.cells.take n) (freeUnits s 0 (p.cells.drop n))
  else match takeFor s p (n - p.cells.length) with
    | .got cs s => .got (p.cells ++ cs) s
    | x => x

/-- Give the packet the cells its length takes once a Stockpot part holds it (R208, R220); its headroom charge ends (R218). -/
def supplyCells (s : State) (i : Nat) : State :=
  match pkt? s i with
  | none => s
  | some p =>
    let p := { p with hrPool := 32, hrCells := 0, stage := .stored, est := cellsFor (judgedLen p) }
    let s := setPkt s i p
    if inStockpot s i then
      match takeUpTo s p (cellsFor (judgedLen p)) with
      | .got cs s =>
        let s := if p.cells.isEmpty then writeCells s cs p.data else s
        let c := cs.headD 0
        let s := if p.poison then setFlips s 0 (66 + c % 24) (c / 24 * 32) 4 else s
        fcCheckOf (setPkt s i { p with cells := cs, data := if p.ended then [] else p.data, poison := false }) p
      | .short s => unplace s i 28
      | .fault s => unplace s i 29
    else s

/-- Pack what a packet's backlog references allow. -/
def packFor (s : State) (i : Nat) : State :=
  (s.qm.queues.filter (fun x => x.2.backlog.any (fun r => r.ref.pkt = i))).foldl (fun s x => packAll 65536 s x.1) s

/-- Place a packet's references: the count first (R215), then each target in order, then cells and packing. -/
def placeAll (s : State) (i : Nat) (ts : List Target) : State :=
  match pkt? s i with
  | none => s
  | some p =>
    let s := setPkt s i { p with refs := p.refs + ts.length, stage := .stored }
    let s := ts.foldl (fun s t => placeRef s i t) s
    packFor (supplyCells s i) i

end Sys2Proof.Machine
end

