-- ==== Sys2Proof/Machine/Sched.lean ====
section
/-! DEFINITION. The scheduling tree (ch. 11): eligibility (R263), charged lengths (R264), selection (R265), shapers
(R267–R269), ageing (R358) and the dequeue itself (R266). -/

namespace Sys2Proof.Machine

/-- The value of a length-overhead profile (R189). -/
def ovhValue (s : State) (n : Nat) : Int := toSigned 32 (reg s (Reg.lenOverhead n))

/-- Lf of a packet (R264). -/
def chargedLen (p : Pkt) : Nat := match p.len with
  | some l => max (l + 4) 64
  | none => p.maxFrame

/-- B of a length at a node: max(Lf + ovh, 0). -/
def overLen (lf : Nat) (ovh : Int) : Nat := ((lf : Int) + ovh).toNat

/-- The head of a queue: its Stockpot part first, then what is staged (R227). -/
def headRef (x : Queue) : Option Ref := match x.refs with
  | r :: _ => some r
  | [] => x.staged.head?

/-- Bytes of a packet that are stored. -/
def bytesStored (p : Pkt) : Nat := if p.ended then p.len.getD 0 else p.data.length

/-- The credit charge of a reference in a VOQ (R345). -/
def creditCharge (p : Pkt) : Nat := p.len.getD (p.maxFrame - 4) + 44

/-- Whether a paused state of a port stands (R70). -/
def paused (s : State) (p i : Nat) : Bool := match mfind (port s p).pause i with
  | some x => decide (s.time < x.ends)
  | none => false

/-- The head is ready (R263). -/
def headReady (s : State) (q : Nat) (r : Ref) : Bool := match pkt? s r.pkt with
  | none => false
  | some p =>
    if qType s q = 3 then p.ended || decide (min (judgedLen p) 204 ≤ bytesStored p)
    else r.cut || p.ended

/-- A shaper permits service (R268). -/
def permits (x : Node) : Bool := x.shRate == 0 || decide (0 ≤ x.tok)

/-- The VOQ holds credit for its head: B ≥ c; the multicast VOQ always does (R345, R351). -/
def hasCredit (s : State) (q : Nat) (p : Pkt) : Bool :=
  voqDevice (qWord s q) == 0xFFFFF || decide (creditCharge p ≤ (mget {} s.qm.voqs q).b)

/-- A queue is eligible (R263). -/
def queueEligible (s : State) (q : Nat) : Bool :=
  let n := node s (nodeKey 3 q)
  snEnable n.word && permits n && !(queue s q).faulted &&
  match headRef (queue s q) with
  | none => false
  | some r =>
    headReady s q r &&
    (if qType s q = 1 then match queuePort s q with
      | some p => !(reg s (Reg.portFcMode p) == 2 && paused s p (qPfc s q))
      | none => false
    else if qType s q = 3 then match pkt? s r.pkt with
      | some p => hasCredit s q p
      | none => false
    else qType s q == 2)

/-- The children of a node, in ascending order of reference (the spec gives no order: notes/assumptions/16). -/
def childrenOf (s : State) (k : Nat) : List Nat :=
  if nodeKind k = 5 then (List.range 8).map (classNode (nodeIdx k))
  else (mkeys s.qm.nodes).filter (fun c => parentOf s c = some k)

/-- Class nodes are always served; every other node by its enable. -/
def nodeOn (s : State) (k : Nat) : Bool := (nodeKind k == 7 || snEnable (node s k).word) && !(node s k).faulted

/-- The lengths dequeued for a port and not begun, and whether it has a free place (R263). -/
def freePlace (s : State) (p : Nat) : Bool :=
  (port s p).dq.isEmpty ||
    decide ((port s p).dq.foldl (fun t o => t + ((mfind s.outs o).map (·.lf)).getD 0) 0 < portSpeed s p * 128)

/-- A node is eligible (R263). -/
def nodeEligible (s : State) : Nat → Nat → Bool
  | 0, _ => false
  | f + 1, k =>
    if nodeKind k = 3 then queueEligible s (nodeIdx k)
    else nodeOn s k && permits (node s k) && (childrenOf s k).any (nodeEligible s f) &&
      (nodeKind k != 0 || (!(reg s (Reg.portFcMode (nodeIdx k)) == 1 && paused s (nodeIdx k) 8) && freePlace s (nodeIdx k)))

/-- The strict children of a slot: at most one (R261), but for two classes whose templates ask for one slot, which the
spec does not order (notes/assumptions/16). VOQs are all weighted. -/
def strictChildren (s : State) (k slot : Nat) : List Nat :=
  (childrenOf s k).filter (fun c => nodeKind k != 7 && snStrict (node s c).word && snSlot (node s c).word == slot)

/-- The weighted children of a node. -/
def weightedChildren (s : State) (k : Nat) : List Nat :=
  (childrenOf s k).filter (fun c => nodeKind k == 7 || !snStrict (node s c).word)

/-- A node's round ends: its counter, its marks, and the pending weights and quantum of its children (R265, R270). -/
def endRound (s : State) (k : Nat) (cs : List Nat) : State :=
  let s := cs.foldl (fun s c =>
    if nodeKind k = 5 then
      let t := reg s (Reg.voqTemplate (nodeIdx c % 8))
      let w := setBits (setBits (setBits (node s c).word 123 123 (bits t 19 19)) 122 121 (bits t 18 17)) 120 105 (bits t 16 1)
      setNode s c { node s c with word := w, wt := bits t 16 1 }
    else if nodeKind k = 7 then s
    else setNode s c { node s c with wt := snWeight (node s c).word }) s
  let n := node s k
  setNode s k { n with round := (n.round + 1) % 2 ^ 64, seen := [], quantum := reg s Reg.schQuantumBytes }

/-- The weighted walk: the cursor moves until a child's deficit covers its next reference (R265). `bs` gives each
eligible child its B. -/
def drrLoop : Nat → State → Nat → List Nat → List (Nat × Nat) → Option (Nat × State)
  | 0, _, _, _, _ => none
  | f + 1, s, k, ws, bs =>
    let n := node s k
    let cur := n.cursor % ws.length
    match (ws.drop cur).head? with
    | none => none
    | some c =>
      let advance (s : State) : Option (Nat × State) :=
        let nx := (cur + 1) % ws.length
        let s := setNode s k { node s k with cursor := nx }
        drrLoop f (if nx = 0 then endRound s k ws else s) k ws bs
      match bs.find? (fun x => x.1 == c) with
      | none => advance s
      | some x =>
        let s :=
          if n.seen.contains c then s
          else
            let s := setNode s c { node s c with deficit := (node s c).deficit + ((node s c).wt * n.quantum : Nat) }
            setNode s k { node s k with seen := c :: (node s k).seen }
        if (x.2 : Int) ≤ (node s c).deficit then some (c, setNode s k { node s k with cursor := cur })
        else advance s

/-- Choose a path from a node down to a queue: strict slots first, then the weighted walk (R265). The result lists the
path leaf first, and the state with the cursors and deficits of the walk. -/
def selectPath : Nat → State → Nat → Option (List Nat × State)
  | 0, _, _ => none
  | f + 1, s, k =>
    if nodeKind k = 3 then (if queueEligible s (nodeIdx k) then some ([k], s) else none)
    else if !nodeEligible s (f + 1) k then none
    else
      match (List.range 4).findSome? (fun i => (strictChildren s k i).find? (nodeEligible s f)) with
      | some c => (selectPath f s c).map (fun r => (r.1 ++ [k], r.2))
      | none =>
        let ws := weightedChildren s k
        let bs := ws.filterMap (fun c => (selectPath f s c).bind (fun r => (nextLen s c r.1).map (fun b => (c, b))))
        if bs.isEmpty then none
        else match drrLoop ((ws.length + 1) * 300) s k ws bs with
          | some (c, s) => (selectPath f s c).map (fun r => (r.1 ++ [k], r.2))
          | none => none
where
  /-- B of a child's next reference: the head of the queue its own selection reaches. -/
  nextLen (s : State) (c : Nat) (path : List Nat) : Option Nat :=
    match path.head? with
    | none => none
    | some q => match headRef (queue s (nodeIdx q)) with
      | none => none
      | some r => (pkt? s r.pkt).map (fun p =>
          overLen (chargedLen p) (if nodeKind c = 7 then 0 else ovhValue s (snOvh (node s c).word)))

/-- Whether anything below a node holds a reference. -/
def holdsBelow (s : State) : Nat → Nat → Bool
  | 0, _ => false
  | f + 1, k => if nodeKind k = 3 then holdsRef (queue s (nodeIdx k)) else (childrenOf s k).any (holdsBelow s f)

/-- Charge a shaper (R267). -/
def chargeShaper (s : State) (k lf : Nat) : State :=
  let n := node s k
  if n.shRate = 0 then s
  else setNode s k { n with tok := n.tok - (overLen lf (ovhValue s n.shOvh) * 2 ^ 32 : Nat) }

/-- Deficits and shapers after a dequeue: `path` is leaf first (R265). -/
def chargePath (s : State) (path : List Nat) (lf : Nat) : State :=
  let s := path.dropLast.foldl (fun s c =>
    let weighted := match parentOf s c with
      | some p => nodeKind p == 7 || !snStrict (node s c).word
      | none => false
    if weighted then
      let b := overLen lf (if nodeKind c = 7 then 0 else ovhValue s (snOvh (node s c).word))
      let d := if holdsBelow s 5 c then (node s c).deficit - (b : Int) else 0
      setNode s c { node s c with deficit := d }
    else s) s
  path.foldl (fun s k => chargeShaper s k lf) s

/-- Refill one shaper: written values take effect, then tokens (R267). -/
def refillShaper (s : State) (k period : Nat) : State :=
  let n := node s k
  let wasOff := n.shRate == 0
  let n := { n with shRate := snRate n.word, shBurst := snBurst n.word, shOvh := snOvh n.word }
  if n.shRate = 0 then setNode s k n
  else
    let cap : Int := (n.shBurst * 2 ^ 32 : Nat)
    setNode s k { n with tok := if wasOff then cap else min (n.tok + (n.shRate * period : Nat)) cap }

/-- The refill period of a kind (Table — Shaper refill periods); none for a class node. -/
def refillPeriod (kind : Nat) : Option Nat :=
  if kind = 0 ∨ kind = 4 ∨ kind = 5 then some 128
  else if kind = 1 then some 512 else if kind = 2 then some 2048 else if kind = 3 then some 8192 else none

/-- The age limit that applies to a reference of a queue, in µs; 0 none (R358). -/
def ageLimit (s : State) (q : Nat) (p : Pkt) : Nat :=
  if qType s q = 1 then ((queuePort s q).map (fun x => reg s (Reg.ageLimitUs x))).getD 0
  else ((linePort p).map (fun x => reg s (Reg.ageLimitUs x))).getD 0

/-- Take the head reference out of a queue; a Stockpot reference releases its charge (R217). -/
def popHead (s : State) (q : Nat) : State :=
  let x := queue s q
  match x.refs with
  | r :: rest => setQueue s q { x with refs := rest, qs := x.qs - r.charge }
  | [] => setQueue s q { x with staged := x.staged.drop 1 }

/-- The dequeued reference goes out: it is held as `Out`, and a port's MAC line takes its number (R263, R359). -/
def sendOut (s : State) (o : Out) : State :=
  let i := s.nextOut
  let s := { s with outs := mput s.outs i o, nextOut := i + 1, led.oQueue := s.led.oQueue - 1, led.oOut := s.led.oOut + 1 }
  if nodeKind o.root = 0 then
    setPort s (nodeIdx o.root) { port s (nodeIdx o.root) with dq := (port s (nodeIdx o.root)).dq ++ [i] }
  else s

/-- A reference whose cells nothing reaches any more is discarded; the cells leak (R492). -/
def leakRef (s : State) (q : Nat) (r : Ref) : State :=
  match pkt? s r.pkt with
  | none => queueLeft s
  | some p =>
    let s := discard s 24 (queueAttr s q p) (pktCard s p (queuePort s q))
    let s := if p.leaked then s else countLost s r.pkt p
    queueLeft (creditBack s r.pkt)

/-- Read the words of a queue's head reference (class 0x02, R492): a lost descriptor loses the reference, a lost next field
also every later one of the Stockpot part. True when the head is gone. -/
def readHead (s : State) (q : Nat) (r : Ref) : Bool × State :=
  if (badWords s 2).isEmpty then (false, s)
  else
    let u := 90 + qmsOf q
    let d := checkWords s 2 ((List.range 4).map (fun w => (u, 8 * r.link + w)))
    let n := checkWord d.2 2 u (8 * r.link + 4)
    let s := n.2
    if n.1 then
      let x := queue s q
      let l := if x.refs.isEmpty then [r] else x.refs
      let s := l.foldl (fun s r => leakRef (popHead s q) q r) s
      (true, spillExit s q)
    else if d.1 then (true, spillExit (discardHeld (popHead s q) q r 24) q)
    else (false, s)

/-- The dequeue of a chosen path (R265, R266, R345, R358). -/
def dequeuePath (s : State) (root : Nat) (path : List Nat) : State :=
  match path.head? with
  | none => s
  | some qk =>
    let q := nodeIdx qk
    match headRef (queue s q) with
    | none => s
    | some r =>
      let h := readHead s q r
      let s := h.2
      if h.1 then s
      else match pkt? s r.pkt with
      | none => spillExit (popHead s q) q
      | some p =>
        let lim := ageLimit s q p
        if lim != 0 && decide (lim * 1000 < s.time - r.enqAt) then
          spillExit (discardHeld (popHead s q) q r 43) q
        else if residueArmed s 4 || residueArmed s 5 then
          let s := raise (count1 (residueMismatch s) Reg.schResidueFaults) .qm 6
          spillExit (discardHeld (popHead s q) q r 23) q
        else
          let lf := chargedLen p
          let s := popHead s q
          let s := chargePath s path lf
          let s := perfEvent s 0x41 (qmsOf q) (judgedLen p)
          let s := if qType s q = 3 && voqDevice (qWord s q) != 0xFFFFF then
              let v := mget {} s.qm.voqs q
              { s with qm.voqs := mset {} s.qm.voqs q { v with b := v.b - creditCharge p } }
            else s
          let s := if p.len.isNone then
              { s with qm.due := s.qm.due ++ [{ pkt := r.pkt, lf := lf, path := path, voq := if qType s q = 3 then some q else none }] }
            else s
          let s := sendOut s { ref := r, queue := q, root := root, lf := lf, lfKnown := p.len.isSome, path := path }
          spillExit (creditBack s r.pkt) q

/-- One dequeue of a port, host root or fabric root (R265); nothing happens while nothing under it is eligible. -/
def dequeueRoot (s : State) (root : Nat) : State :=
  match selectPath 5 s root with
  | some (path, t) =>
    let f := path.foldl readState s
    if path.any (nodeFaulted f) then f else dequeuePath (path.foldl readState t) root path
  | none => s

end Sys2Proof.Machine
end

