-- ==== Sys2Proof/Machine/Enqueue.lean ====
section
/-! DEFINITION. The arrival of a descriptor at the T-die: the queues its references join (R255, R256), host and mirror
copies (R371–R373), multicast fan-out (R275, R276), the length fill (R223), and a discard by the ingress MAC after the
enqueue. -/

namespace Sys2Proof.Machine

/-- The queue of a port and class, when its class-map entry is valid (R256). -/
def classQueue (s : State) (p c : Nat) : Option Nat :=
  let w := mget 0 s.qm.classMap (p * 8 + c)
  if bit w 31 then some (bits w 18 0) else none

/-- The punt queue of a trap, when its entry names a punt queue (R112, R256). -/
def trapQueue (s : State) (t : Nat) : Option Nat :=
  let q := reg s (Reg.clsTrapQueue t)
  if q < 524288 && qType s q == 2 then some q else none

/-- The VOQ of a triple for a packet, or the reason there is none (R278, R339). -/
def voqTarget (s : State) (qms dev prt cls : Nat) (kind : RefKind) (desc : Option Nat) : Target × State :=
  if dev != 0xFFFFF && (destState s dev == 0 || destState s dev == 3) then
    ({ queue := none, miss := 31, kind := kind, desc := desc }, s)
  else match takeVoq s qms dev prt cls with
    | (some q, s) => ({ queue := some q, kind := kind, cls := cls, desc := desc }, s)
    | (none, s) => ({ queue := none, miss := 30, kind := kind, desc := desc }, s)

/-- A mirror session's record (R371). -/
def mirrorSession (s : State) (n : Nat) : Nat := beNat (blk s (Reg.mirrorSession n))
def msEnable (m : Nat) : Bool := bit m 127
def msKind (m : Nat) : Nat := bits m 126 125
def msQueue (m : Nat) : Nat := bits m 124 106
def msDevice (m : Nat) : Nat := bits m 105 86
def msPort (m : Nat) : Nat := bits m 85 76
def msClass (m : Nat) : Nat := bits m 75 73
def msTrunc (m : Nat) : Nat := bits m 72 64 * 32
def msRewrite (m : Nat) : Nat := bits m 63 56

/-- The descriptor of a mirror copy (R372): kind by the session, its length, its rewrite profile. -/
def mirrorDesc (m d len : Nat) : Nat :=
  let k := if msKind m = 0 then 4 else if msKind m = 1 then 1 else 3
  let d := setBits (setBits (setBits d 255 253 k) 198 185 len) 155 148 (msRewrite m)
  if msKind m = 1 then setBits (setBits (setBits d 233 214 (msDevice m)) 213 204 (msPort m)) 203 201 (msClass m) else d

/-- A mirror copy is lost (R373). -/
def loseMirror (s : State) (n prt : Nat) (p : Pkt) : State :=
  let s := discard s 41 (some prt) (pktCard s p none)
  raise (count1 s (Reg.mirrorLost n)) .obs 4

/-- A copy of a mirrored packet's first bytes in cells of pool 31, as a packet of its own; none when the pool is
short (R372, R373). -/
def copyPacket (s : State) (p : Pkt) (data : List Byte) (len desc : Nat) (whole : Bool) (src : Option (Nat × Nat)) :
    Option (Nat × State) :=
  match takeUnits (cellsFor len) s 31 [] with
  | .got cs s =>
    let i := s.nextPkt
    let c : Pkt := { p with stage := .stored, cells := cs, refs := 0, len := some len, ended := whole, desc := desc, data := [],
                            hrPool := 32, hrCells := 0, credited := false, posts := [], draws := [], slot := none,
                            staged := true, copyOf := src }
    some (i, writeCells { setPkt s i c with nextPkt := i + 1 } cs (data.take len))
  | _ => none

/-- The mirror copy of a packet: a further reference where it is whole or fabric, else a packet of its own; the
targets that share the packet's cells come back (R372). -/
def ingressMirror (s : State) (i : Nat) (p : Pkt) : List Target × State :=
  let n := dMirror p.desc
  if n = 0 then ([], s)
  else
    let m := mirrorSession s n
    let s := copyMade s
    let kind : RefKind := .ingressMirror n p.inPort
    if !msEnable m then ([], loseMirror s n p.inPort p)
    else if msKind m = 1 then
      let t := voqTarget s (p.inPort / 64) (msDevice m) (msPort m) (msClass m) kind
        (some (mirrorDesc m p.desc (p.len.getD 0x3FFF)))
      ([t.1], t.2)
    else if msTrunc m == 0 || (match p.len with | some l => decide (l ≤ msTrunc m) | none => false) then
      ([{ queue := some (msQueue m), kind := kind, cls := dClass p.desc,
          desc := some (mirrorDesc m p.desc (p.len.getD 0x3FFF)) }], s)
    else
      let len := msTrunc m
      let data := pktBytes s p
      let whole := p.ended || decide (len ≤ data.length)
      match copyPacket s p data len (mirrorDesc m p.desc len) whole (if whole then none else some (i, len)) with
      | some (j, s) => ([], placeAll s j [{ queue := some (msQueue m), kind := kind, cls := dClass p.desc }])
      | none => ([], loseMirror s n p.inPort p)

/-- The host copy's target (R255). -/
def hostTarget (s : State) (p : Pkt) : List Target :=
  if dHostCopy p.desc then [{ queue := trapQueue s (dTrap p.desc), kind := .hostCopy, cls := dClass p.desc }] else []

/-- Count the copies of a list in the ledger (R359). -/
def copiesMade (s : State) (n : Nat) : State := { s with led.aCopy := s.led.aCopy + n }

/-- The main reference's target (Table — Queue chosen by descriptor). -/
def mainTarget (s : State) (p : Pkt) : Target × State :=
  let d := p.desc
  if dKind d = 0 then ({ queue := classQueue s (dDestPort d) (dClass d), kind := .main, cls := dClass d }, s)
  else if dKind d = 1 then voqTarget s (p.inPort / 64) (dDestDevice d) (dDestPort d) (dClass d) .main none
  else if dKind d = 4 then
    let q := p.namedQueue
    ({ queue := if qType s q = 1 ∨ qType s q = 2 then some q else none, kind := .main, cls := dClass d }, s)
  else if dParserPunt d then
    let q := reg s Reg.parserPuntQueue
    if q < 524288 && qType s q == 2 then ({ queue := some q, kind := .main, cls := dClass d }, s)
    else ({ queue := none, kind := .main }, raise s .parser 2)
  else match trapQueue s (dTrap d) with
    | some q => ({ queue := some q, kind := .main, cls := dClass d }, s)
    | none => ({ queue := none, kind := .main }, raise s .cls 4)

/-- An arrival of a descriptor that is not multicast and not a discard. -/
def enqueueUnicast (s : State) (i : Nat) (p : Pkt) : State :=
  let s := leaveArrival s p
  let t := mainTarget s p
  let m := ingressMirror t.2 i p
  let h := hostTarget m.2 p
  placeAll (copiesMade m.2 h.length) i (t.1 :: (h ++ m.1))

/-- A multicast descriptor joins the fan-out line of its QMS (R255, R276). -/
def enqueueMulticast (s : State) (i : Nat) (p : Pkt) : State :=
  let n := p.inPort / 64
  let s := queueHeld (leaveArrival s p)
  let s := { s with qm.fanout := mset [] s.qm.fanout n (mget [] s.qm.fanout n ++ [i]) }
  setPkt s i { p with stage := .fanout }

/-- A descriptor reaches the queues. -/
def enqueueArrival (s : State) (i : Nat) : State :=
  match pkt? s i with
  | none => s
  | some p =>
    if p.stage ≠ .ready then s
    else if dKind p.desc = 7 then
      (if p.bad.isSome then discardArrival s i (dDrop p.desc) else s)
    else if dKind p.desc = 2 then enqueueMulticast s i p
    else enqueueUnicast s i p

/-- Fields of a multicast group (R275). -/
def mgValid (g : Nat) : Bool := bit g 63
def mgFabric (g : Nat) : Bool := bit g 62
def mgBase (g : Nat) : Nat := bits g 61 44
def mgCount (g : Nat) : Nat := bits g 43 32

/-- The target of one multicast target word; none where it is pruned (R275, R276). -/
def mcTarget (s : State) (p : Pkt) (w : Nat) : Option Target :=
  let prt := bits w 29 20
  if bit w 31 && prt == dInPort p.desc then none
  else
    let c := if bit w 7 then bits w 6 4 else dClass p.desc
    some { queue := classQueue s prt c, kind := .mcCopy prt, cls := c,
           vlan := if bit w 30 then some (bits w 19 8) else none }

/-- The fan-out engine of a QMS takes the oldest waiting descriptor and issues its arrivals (R276). -/
def fanOut (s : State) (n : Nat) : State :=
  match mget [] s.qm.fanout n with
  | [] => s
  | i :: rest =>
    let s := { s with qm.fanout := mset [] s.qm.fanout n rest }
    match pkt? s i with
    | none => queueLeft s
    | some p =>
      let s := queueLeft s
      let g := mget 0 s.qm.groups (dMcGroup p.desc)
      let fabric := mgFabric g && !p.mcFabric
      if !mgValid g || (mgCount g == 0 && !fabric && !dHostCopy p.desc && dMirror p.desc == 0) then
        let s := count1 s Reg.mcEmptyGroup
        let s := discard s 63 (arrivalPort p) (pktCard s p none)
        freePkt (creditBack s i) i
      else
        let s := { s with led.dFanout := s.led.dFanout + 1 }
        let ws := (rangeFrom (mgBase g) (mgCount g)).map (fun t => mget 0 s.qm.targets t)
        let ts := ws.filterMap (mcTarget s p)
        let s := countBy s 64 Reg.mcPruned (ws.length - ts.length)
        let f := if fabric then
            let t := voqTarget s n 0xFFFFF 0 (dClass p.desc) .fabricCopy none
            ([t.1], t.2)
          else ([], s)
        let m := ingressMirror f.2 i p
        let h := hostTarget m.2 p
        let own := ts ++ f.1 ++ h
        let s := copiesMade m.2 own.length
        if (own ++ m.1).isEmpty then freePkt s i else placeAll s i (own ++ m.1)

/-- The charge of a packet's references falls to its true length (R223). -/
def correctCharges (s : State) (i n : Nat) : State :=
  (s.qm.queues.filter (fun x => x.2.refs.any (fun r => r.pkt = i))).foldl (fun s x =>
    let q := queue s x.1
    let old := (q.refs.filter (fun r => r.pkt = i)).foldl (fun t r => t + r.charge) 0
    let cnt := (q.refs.filter (fun r => r.pkt = i)).length
    setQueue s x.1 { q with
      refs := q.refs.map (fun r => if r.pkt = i then { r with charge := n } else r)
      qs := q.qs - old + cnt * n }) s

/-- Every reference of a packet that still waits in a queue is discarded, its whole charge released (R223). -/
def purge (s : State) (i reason : Nat) : State :=
  s.qm.queues.foldl (fun s x =>
    let q := queue s x.1
    let a := q.refs.filter (fun r => r.pkt = i)
    let b := q.backlog.filter (fun r => r.ref.pkt = i && !r.packed)
    if a.isEmpty && b.isEmpty then s
    else
      let s := setQueue s x.1 { q with
        refs := q.refs.filter (fun r => r.pkt ≠ i)
        qs := q.qs - a.foldl (fun t r => t + r.charge) 0
        backlog := q.backlog.filter (fun r => r.packed || r.ref.pkt ≠ i) }
      let s := (a ++ b.map (·.ref)).foldl (fun s r => discardHeld s x.1 r reason) s
      spillExit s x.1) s

/-- Mirror copies that waited for a packet's bytes are filled, and the cells they do not need go back (R372). -/
def fillCopies (s : State) (i : Nat) (data : List Byte) : State :=
  (s.pkts.filter (fun x => match x.2.copyOf with | some c => c.1 = i | none => false)).foldl (fun s x =>
    let c := x.2
    let bytes := c.copyHdr ++ data.drop c.copySkip
    let len := min ((c.copyOf.map (·.2)).getD 0) bytes.length
    let n := cellsFor len
    let s := writeCells s (c.cells.take n) (bytes.take len)
    let s := freeUnits s 0 (c.cells.drop n)
    let s := setPkt s x.1 { c with ended := true, len := some len, cells := c.cells.take n, desc := setBits c.desc 198 185 len,
                                   copyOf := none, copyHdr := [], copySkip := 0 }
    packFor s x.1) s

/-- The last byte of a packet is stored: the length is filled, charges corrected, surplus cells freed (R130, R223). -/
def lastByteStored (s : State) (i : Nat) : State :=
  match pkt? s i with
  | none => s
  | some p =>
    if p.ended || p.bad != some 0 then s
    else match p.len with
      | none => s
      | some l =>
        if residueArmed s 2 && p.stage == .stored then
          let s := raise (count1 (residueMismatch s) Reg.pmResidueFaults) .pm 4
          purge s i 23
        else
          let d := setBits p.desc 198 185 l
          let n := cellsFor l
          if p.cells.isEmpty then
            let s := setPkt s i { p with ended := true, desc := d }
            packFor (fillCopies (correctCharges s i n) i p.data) i
          else
            let s := freeUnits s 0 (p.cells.drop n)
            let s := setPkt s i { p with ended := true, desc := d, cells := p.cells.take n, data := [] }
            fcCheckOf (packFor (fillCopies (correctCharges s i n) i p.data) i) p

end Sys2Proof.Machine
end

