-- ==== Sys2Proof/Machine/PacketMem.lean ====
section
/-! DEFINITION. The packet-memory commands (ch. 9) and the chapter's entries: writes with their refusals, values read,
DOMAIN values. -/

namespace Sys2Proof.Machine

/-- VOQs of a bound queue word. -/
def boundVoqs (s : State) : List Nat := (typedQueues s).filter (fun q => qType s q == 3 && voqBound (qWord s q))

/-- Whether a VOQ is idle (R280). -/
def voqIdle (s : State) (q : Nat) : Bool :=
  let v := mget {} s.qm.voqs q
  !holdsRef (queue s q) && !(queue s q).spilled && v.b == 0 && v.r == 0

/-- A timer that runs while a condition holds. -/
def holdTimer (now : Nat) (c : Bool) (t : Option Nat) : Option Nat := if c then some (t.getD now) else none

/-- A credit entry (Table — Credit entry). -/
def creditEntry (prt cls kind units bytes time : Nat) : Nat :=
  prt % 1024 * 2 ^ 118 + cls % 8 * 2 ^ 115 + kind * 2 ^ 112 + units % 2 ^ 16 * 2 ^ 96 + bytes % 2 ^ 24 * 2 ^ 72 +
    time % 2 ^ 32 * 2 ^ 32

/-- An entry joins those waiting for a destination: type 7 request, 8 grant (R344). -/
def gatherEntry (s : State) (d ty e : Nat) : State :=
  let l := mget [] s.ft.gather d
  let l := if l.any (fun c => c.ty == ty && decide (c.entries.length < 15)) then
      l.map (fun c => if c.ty = ty ∧ c.entries.length < 15 then { c with entries := c.entries ++ [e] } else c)
    else l ++ [{ since := s.time, ty := ty, entries := [e] }]
  { s with ft.gather := mset [] s.ft.gather d l }

/-- W: the charges of a VOQ's references (R345). -/
def voqCharges (s : State) (q : Nat) : Nat :=
  let x := queue s q
  let c := fun (r : Ref) => ((pkt? s r.pkt).map creditCharge).getD 0
  let packed := fun (r : Rec) => (if dLength r.ref.desc = 0x3FFF then r.bytes - 32 else dLength r.ref.desc) + 44
  (x.refs ++ x.staged).foldl (fun t r => t + c r) 0 +
    x.backlog.foldl (fun t r => t + (if r.packed then packed r else c r.ref)) 0

/-- The request rule (R345): units asked for the charges that neither the balance nor the requests out cover. -/
def requestUnits (s : State) (q : Nat) : State :=
  let v := mget {} s.qm.voqs q
  let w := qWord s q
  let d := voqDevice w
  let u := min (ceilDiv (voqCharges s q - v.b - 4096 * v.r) 4096) (reg s Reg.ftMaxRequestUnits - v.r)
  if d = 0xFFFFF ∨ u = 0 ∨ v.busyUntil.isSome ∨ destState s d = 0 ∨ destState s d = 3 then s
  else
    let s := { s with qm.voqs := mset {} s.qm.voqs q { v with r := v.r + u, answerAt := if v.r = 0 then s.time else v.answerAt } }
    gatherEntry s d 7 (creditEntry (voqPort w) (voqClass w) 1 u 0 0)

/-- What follows a change of the bound VOQs: their idle and return timers (R280, R345) and their requests. -/
def touchVoqs (s : State) : State :=
  (boundVoqs s).foldl (fun s q =>
    let v := mget {} s.qm.voqs q
    let v := { v with idleSince := holdTimer s.time (voqIdle s q) v.idleSince,
                      creditSince := holdTimer s.time (!holdsRef (queue s q) && decide (0 < v.b)) v.creditSince }
    requestUnits { s with qm.voqs := mset {} s.qm.voqs q v } q) s

/-! ### Entries -/

/-- The pools that a port, an admission profile or the fabric receive setting names (R207). -/
def poolNamed (s : State) (n : Nat) : Bool :=
  (List.range 1024).any (fun p => rxPool s p == n) || reg s Reg.ftRxPool == n ||
    (List.range 256).any (fun a => apSPool (admProfile s a) == n || apCPool (admProfile s a) == n)

/-- R207's refusals of a descriptor `d` for pool `n`. -/
def poolDescRefused (s : State) (n d : Nat) : Bool :=
  let m := b2n (bit d 62)
  let base := bits d 51 26
  let size := bits d 25 0
  decide (0 < poolUsed s n) || decide (0 < headroomUse s n) ||
  (poolNamed s n && (!bit d 63 || m != plMemory s n)) ||
  (List.range 32).any (fun x => x != n && plEnable s x && plMemory s x == m &&
    decide (base < plBase s x + plSize s x) && decide (plBase s x < base + size) && decide (0 < size)) ||
  decide (memUnits m < base + size) || (decide (27 ≤ n) && m == 1) || (bit d 63 && size == 0)

/-- A write of a pool descriptor; a Skimmer pool's list is threaded through its new cells (R207, R209). -/
def wPoolDesc (n v : Nat) (s : State) : Applied :=
  if poolDescRefused s n v then .fail .refused
  else
    let s := setReg s (Reg.poolDesc n) (writable (Reg.poolDesc n) v)
    .done (if 28 ≤ n then skimRebuild s n else s)

/-- The sum R222 bounds. -/
def poolSum (s : State) (n : Nat) : Nat :=
  guaranteeSum s n + reg s (Reg.poolSharedSize n) + reg s (Reg.poolHeadroom n)

/-- Whether a write from `s` to `t` would make the sum of any pool exceed its size (R222). -/
def breaksR222 (s t : State) : Bool :=
  (List.range 32).any (fun n => poolSum s n != poolSum t n && !poolFits t n)

/-- A write of a shared size or a headroom (R222). -/
def wPoolSize (k v : Nat) (s : State) : Applied :=
  let t := setReg s k v
  if breaksR222 s t then .fail .refused else .done t

/-- An exponent in −4 to +4 (R219). -/
def alphaOk (a : Int) : Bool := decide (-4 ≤ a) && decide (a ≤ 4)

/-- An enabled pool of a memory among 0 to 26. -/
def poolServes (s : State) (n m : Nat) : Bool := decide (n ≤ 26) && plEnable s n && plMemory s n == m

/-- A write of an admission profile (R219, R222, R279). -/
def wAdmProfile (n : Nat) (b : List Byte) (s : State) : Applied :=
  let a := beNat b
  if b.length ≠ 16 then .fail .refused
  else
    let t := setBlk s (Reg.admProfile n) b
    if !alphaOk (apSAlpha a) || !alphaOk (apCAlpha a) || !poolServes s (apSPool a) 0 || !poolServes s (apCPool a) 1 ||
        breaksR222 s t ||
        ((List.range 8).any (fun c => bits (reg s (Reg.voqTemplate c)) 31 24 == n) && (apSGuar a != 0 || apCGuar a != 0))
    then .fail .refused else .done t

/-- A write of an XOFF or XON threshold (R224). -/
def wFcThreshold (f : Nat) (xon : Bool) (v : Nat) (s : State) : Applied :=
  let t := setReg s (if xon then Reg.fcXonCells f else Reg.fcXoffCells f) v
  if reg t (Reg.fcXoffCells f) ≤ reg t (Reg.fcXonCells f) then .fail .refused
  else .done (((mkeys t.ports).filter (fun p => fcProfile t p == f)).foldl fcCheck t)

/-- A write of `pm_port_map` (R229). -/
def wPortMap (b : List Byte) (s : State) : Applied :=
  if b.length ≠ 2048 then .fail .refused
  else
    let ws := (List.range 1024).map (fun p => maskBits (beAt b (2 * p) 2) 0x1F0F)
    if ws.all (fun w => poolServes s (bits w 12 8) 0) then
      .done (setBlk s Reg.pmPortMap (ws.flatMap (beBytes 2)))
    else .fail .refused

/-- The chapter's writes. -/
def pmWrite (k v : Nat) : State → Applied :=
  let n := subOf k
  match idxOf k with
  | 0x4002 => wPoolDesc n v
  | 0x4005 => wPoolSize k v
  | 0x4006 => wPoolSize k v
  | 0x4020 => wFcThreshold n false v
  | 0x4021 => wFcThreshold n true v
  | _ => storeRule k v

/-- The chapter's values that are not stored. -/
def pmRead (s : State) (k : Nat) : Nat :=
  let n := subOf k
  match idxOf k with
  | 0x4002 => poolDesc s n
  | 0x4003 => poolFree s n
  | 0x4004 => poolUsed s n
  | 0x4007 => guaranteeSum s n
  | 0x4008 => sharedUse s n
  | 0x400A => poolQuarantined s n
  | 0x4031 => spillCount s
  | _ => reg s k

/-- The chapter's DOMAIN writes. -/
def pmCommit (k : Nat) (b : List Byte) : State → Applied :=
  match idxOf k with
  | 0x4010 => wAdmProfile (subOf k) b
  | 0x4022 => wPortMap b
  | _ => fun _ => .fail .refused

/-- The chapter's DOMAIN values. -/
def pmDomain (s : State) (k : Nat) : List Byte :=
  match idxOf k with
  | 0x4010 => beBytes 16 (admProfile s (subOf k))
  | 0x4022 => padTo (blk s Reg.pmPortMap) 2048
  | _ => []

/-! ### Commands -/

/-- SKIMMER_REBUILD_DONE (R210): the list is threaded anew and allocation resumes. -/
def execSkimmerRebuildDone (pool : Nat) (s : State) : Host.Outcome State Fault Refusal :=
  .next (if mget 0 s.mem.rebuilding pool != 0 then skimRebuild s pool else s)

/-- LAST_BYTE_STORED (R223). -/
def execLastByteStored (pkt : Nat) (s : State) : Host.Outcome State Fault Refusal :=
  .next (touchVoqs (lastByteStored s pkt))

/-- Punt contexts of a host root in use (R438). -/
def puntsOf (s : State) (index : Nat) : Nat :=
  (s.outs.filter (fun x => x.2.root == nodeKey 4 index)).length +
    (s.host.punts.filter (fun x => x.2.root == index && (mfind s.outs x.1).isNone)).length

/-- A host root that the round robin may visit (R438). -/
def hostRootReady (s : State) (index : Nat) : Bool :=
  decide (puntsOf s index < 64) && (selectPath 5 s (nodeKey 4 index)).isSome

/-- The host root whose turn it is (R438). -/
def hostTurn (s : State) : Option Nat :=
  ((List.range 16).map (fun i => (s.host.rootTurn + 1 + i) % 16)).find? (hostRootReady s)

/-- DEQUEUE (R265, R266): a port (kind 0), host root (4) or fabric root (5) asks for a packet; the DMA engine asks host roots
in round robin (R438). -/
def execDequeue (kind index : Nat) (s : State) : Host.Outcome State Fault Refusal :=
  if kind = 4 then
    if hostTurn s = some index then
      .next (touchVoqs (dequeueRoot { s with host.rootTurn := index } (nodeKey 4 index)))
    else .next s
  else if (kind = 0 ∧ index < 1024) ∨ (kind = 5 ∧ index < 16) then
    .next (touchVoqs (dequeueRoot s (nodeKey kind index)))
  else .next s

/-- Whether prefetch of a queue has begun and staging has room (R227). -/
def prefetchOpen (s : State) (q : Nat) : Bool :=
  let x := queue s q
  let limit := 8 * reg s Reg.spillPrefetchPages
  let cells (l : List Ref) := l.foldl (fun t r => t + ((pkt? s r.pkt).map (fun p => p.cells.length)).getD 0) 0
  x.spilled && decide (x.qs ≤ limit) && decide (cells x.staged < limit)

/-- UNSPILL_PREFETCH (R227): one record of a queue's backlog enters staging, when prefetch has begun. -/
def execUnspillPrefetch (queue : Nat) (s : State) : Host.Outcome State Fault Refusal :=
  if prefetchOpen s queue then
    match stageOne s queue with
    | some s => .next (touchVoqs s)
    | none => .next s
  else .next s

/-- POOL_DESC_WRITE (R207). -/
def execPoolDescWrite (client : Client) (pool value : Nat) (s : State) : Host.Outcome State Fault Refusal :=
  .next (writeRow s client (Reg.poolDesc pool) value (wPoolDesc pool value))

/-- ADM_PROFILE_WRITE (R219): a completed transfer. -/
def execAdmProfileWrite (client : Client) (profile : Nat) (value : List Byte) (s : State) : Host.Outcome State Fault Refusal :=
  .next (commitRow s client (Reg.admProfile profile) (wAdmProfile profile value))

/-- POOL_SIZE_WRITE (R222): of `pool_headroom` or `pool_shared_size`. -/
def execPoolSizeWrite (client : Client) (pool : Nat) (headroom : Bool) (value : Nat) (s : State) :
    Host.Outcome State Fault Refusal :=
  let k := if headroom then Reg.poolHeadroom pool else Reg.poolSharedSize pool
  .next (writeRow s client k value (wPoolSize k value))

/-- FC_THRESHOLD_WRITE (R224). -/
def execFcThresholdWrite (client : Client) (profile : Nat) (xon : Bool) (value : Nat) (s : State) :
    Host.Outcome State Fault Refusal :=
  .next (writeRow s client (if xon then Reg.fcXonCells profile else Reg.fcXoffCells profile) value
    (wFcThreshold profile xon value))

/-- POOL_WATERMARK_READ (R229): the value goes out, and the watermark starts anew at 0. -/
def execPoolWatermarkRead (client : Client) (pool : Nat) (s : State) : Host.Outcome State Fault Refusal :=
  .next (readRow s client (Reg.poolWatermark pool) (reg s (Reg.poolWatermark pool))
    (fun s => setReg s (Reg.poolWatermark pool) 0))

end Sys2Proof.Machine
end

