-- ==== Sys2Proof/Machine/QueueMgr.lean ====
section
/-! DEFINITION. The queue and scheduling commands (ch. 11): arrivals, fan-out, refills and corrections, VOQ release, and
the writes of nodes, queues, class maps, groups and targets with their refusals. -/

namespace Sys2Proof.Machine

/-! ### Writes of the tree (R260–R262, R267, R271, R279) -/

/-- What a refused record reports (R283): malformed, out of range, refused. -/
def resMalformed : Nat := 5
def resRange : Nat := 6
def resRefused : Nat := 8

/-- Nodes of a kind (Table — Node kinds). -/
def kindCount (k : Nat) : Nat :=
  if k = 0 then 1024 else if k = 1 then 8192 else if k = 2 then 65536 else if k = 3 then 524288
  else if k = 4 ∨ k = 5 then 16 else 0

/-- A node reference: reserved bits or a reserved code make it malformed, an index outside its kind's range is out of
range (R260). -/
def refCheck (w : Nat) : Nat :=
  if bits w 28 19 ≠ 0 ∨ 6 ≤ bits w 31 29 then resMalformed
  else if kindCount (bits w 31 29) ≤ bits w 18 0 then resRange else 0

/-- The node a reference names. -/
def refNode (w : Nat) : Nat := nodeKey (bits w 31 29) (bits w 18 0)

/-- A rate within R192's range, or 0. -/
def rateOk (r : Nat) : Bool := r == 0 || (decide (0x10C7 ≤ r) && decide (r ≤ 0xC800000000))

/-- A shaper's rate and burst at a kind's period (R267). -/
def shaperOk (w kind : Nat) : Bool :=
  rateOk (snRate w) && decide (64 ≤ snBurst w) && decide (snBurst w ≤ 16777216) &&
    decide (ceilDiv (snRate w * (refillPeriod kind).getD 0) (2 ^ 32) ≤ snBurst w)

/-- Whether a node takes its place from its word: not a port or a root, and for a queue an egress or punt queue. -/
def placed (s : State) (k : Nat) : Bool :=
  nodeKind k == 1 || nodeKind k == 2 || (nodeKind k == 3 && (qType s (nodeIdx k) == 1 || qType s (nodeIdx k) == 2))

/-- Nodes of the kind of the parent a node's word names. -/
def parentCount (s : State) (k : Nat) : Nat :=
  if nodeKind k = 1 then 1024 else if nodeKind k = 2 then 8192
  else if qType s (nodeIdx k) = 1 then 65536 else 16

/-- R261's refusals of a node's place in state `t`, where the new word is in place. -/
def placeRefused (t : State) (k : Nat) : Bool :=
  match parentOf t k with
  | none => false
  | some p =>
    let w := (node t k).word
    let others := (childrenOf t p).filter (fun c => c != k)
    nodeQms p != nodeQms k || (nodeKind k == 3 && qType t (nodeIdx k) == 2 && snParent w != qmsOf (nodeIdx k)) ||
      (snStrict w && others.any (fun c => snStrict (node t c).word && snSlot (node t c).word == snSlot w)) ||
      (!snStrict w && decide (252 ≤ (others.filter (fun c => !snStrict (node t c).word)).length))

/-- Whether some valid class-map entry names a queue that no longer serves its port (R256, R271). -/
def mapBroken (t : State) : Bool :=
  t.qm.classMap.any (fun e => bit e.2 31 && queuePort t (bits e.2 18 0) != some (e.1 / 8))

/-- Whether a class map names a queue. -/
def mapped (s : State) (q : Nat) : Bool := s.qm.classMap.any (fun e => bit e.2 31 && bits e.2 18 0 == q)

/-- Whether the place fields of two words differ. -/
def placeDiffers (a b : Nat) : Bool :=
  snParent a != snParent b || snStrict a != snStrict b || snSlot a != snSlot b

/-- The new words put in place: shaper values wait, and so does the weight of a child that keeps its place. At a move, or at the first
write of a node, the deficit falls to 0 and the weight is in use at once (R270, notes/assumptions/16). -/
def putWords (s : State) (k w qw : Nat) : State :=
  let n := node s k
  let t := setNode s k { n with word := w, qword := qw }
  if placeDiffers n.word w || parentOf t k != parentOf s k || (mfind s.qm.nodes k).isNone then
    setNode s k { n with word := w, qword := qw, wt := snWeight w, deficit := 0 }
  else t

/-- Write a node's scheduling word and, for a queue, its queue word: the result code of R283 and the state. -/
def writeWords (s : State) (k w : Nat) (qw? : Option Nat) : Nat × State :=
  if nodeFaulted s k then (resRefused, s)
  else
  let n := node s k
  let w := setBits w 126 124 (nodeKind k)
  let q := nodeIdx k
  let old := n.qword
  let qw := match qw? with
    | none => old
    | some x => setBits x 46 13 (bits old 46 13)
  let typeChanges := bits qw 63 62 != bits old 63 62
  let t := putWords s k (setBits w 126 124 0) qw
  if bits w 16 0 != 0 || bits (qw?.getD 0) 12 0 != 0 then (resMalformed, s)
  else if placed t k && snWeight w == 0 then (resRefused, s)
  else if placed t k && decide (parentCount t k ≤ snParent w) then (resRange, s)
  else if !shaperOk w (nodeKind k) then (resRefused, s)
  else if typeChanges && (holdsRef (queue s q) || snEnable n.word || voqBound old || mapped s q) then (resRefused, s)
  else if voqBound old && placeDiffers n.word w then (resRefused, s)
  else if placed t k && placeRefused t k then (resRefused, s)
  else if mapBroken t || breaksR222 s t then (resRefused, s)
  else
    let low := reg s Reg.voqLowCount
    let m := qmsOf q
    let t := if typeChanges && nodeKind k == 3 && bits old 63 62 == 3 && decide ((freeVoqs t m).length < low)
      then raise t .qm 2 else t
    (0, t)

/-- A class-map entry of a port and class (R256). -/
def writeClassMap (s : State) (p c w : Nat) : Nat × State :=
  if bits w 30 19 ≠ 0 then (resMalformed, s)
  else if 1024 ≤ p ∨ 8 ≤ c then (resRange, s)
  else if bit w 31 && queuePort s (bits w 18 0) != some p then (resRefused, s)
  else (0, { s with qm.classMap := mset 0 s.qm.classMap (p * 8 + c) w })

/-- A multicast group entry (R275). -/
def writeGroup (s : State) (g w : Nat) : Nat × State :=
  if bits w 31 0 ≠ 0 then (resMalformed, s)
  else if 65536 ≤ g ∨ 262144 < mgBase w + mgCount w then (resRange, s)
  else (0, { s with qm.groups := mset 0 s.qm.groups g w })

/-- One to five multicast targets (R275). -/
def writeTargets (s : State) (first n : Nat) (ws : List Nat) : Nat × State :=
  if ws.any (fun w => bits w 3 0 != 0) || n == 0 || decide (5 < n) then (resMalformed, s)
  else if 262144 < first + n then (resRange, s)
  else (0, (ws.zipIdx).foldl (fun s x => { s with qm.targets := mset 0 s.qm.targets (first + x.2) x.1 }) s)

/-- One queue load record (R283). -/
def applyQm (s : State) (r : List Byte) : Nat × State :=
  if !zeroBytes r 1 3 then (resMalformed, s)
  else match byteAt r 0 with
  | 1 =>
    if !zeroBytes r 24 8 then (resMalformed, s)
    else
      let c := refCheck (beAt r 4 4)
      if c ≠ 0 then (c, s) else writeWords s (refNode (beAt r 4 4)) (beAt r 8 16) none
  | 2 =>
    if 524288 ≤ beAt r 4 4 then (resRange, s)
    else writeWords s (nodeKey 3 (beAt r 4 4)) (beAt r 8 16) (some (beAt r 24 8))
  | 3 =>
    if !zeroBytes r 7 1 || !zeroBytes r 12 20 then (resMalformed, s)
    else writeClassMap s (beAt r 4 2) (byteAt r 6) (beAt r 8 4)
  | 4 =>
    if !zeroBytes r 16 16 then (resMalformed, s) else writeGroup s (beAt r 4 4) (beAt r 8 8)
  | 5 =>
    let n := byteAt r 8
    if !zeroBytes r 9 3 || !zeroBytes r (12 + 4 * min n 5) (20 - 4 * min n 5) then (resMalformed, s)
    else writeTargets s (beAt r 4 4) n ((List.range (min n 5)).map (fun i => beAt r (12 + 4 * i) 4))
  | _ => (resMalformed, s)

/-- `qm_load` and `qm_apply`. -/
def qmJob : LoadJob :=
  { load := Reg.qmLoad, size := 32, job := Reg.qmApply, mode := Reg.qmApplyMode, done := Reg.qmApplyDone,
    errIndex := Reg.qmApplyErrorIndex, errCode := Reg.qmApplyErrorCode, cause := .qm, causeBit := 0 }

/-! ### Entries -/

/-- The node `sch_select` names. -/
def selectedNode (s : State) : Nat := refNode (reg s Reg.schSelect)

/-- A write of `sch_config` (R270, R284). -/
def wSchConfig (b : List Byte) (s : State) : Applied :=
  let k := selectedNode s
  if b.length ≠ 16 ∧ b.length ≠ 24 then .fail .refused
  else if b.length = 24 ∧ nodeKind k ≠ 3 then .fail .refused
  else
    let r := writeWords s k (beAt b 0 16) (if b.length = 24 then some (beAt b 16 8) else none)
    if r.1 = 0 then .done r.2 else .fail .refused

/-- A write of a VOQ template (R279, R284). -/
def wVoqTemplate (c v : Nat) (s : State) : Applied :=
  let a := admProfile s (bits v 31 24)
  if bits v 16 1 = 0 ∨ apSGuar a ≠ 0 ∨ apCGuar a ≠ 0 then .fail .refused
  else .done (setReg s (Reg.voqTemplate c) (writable (Reg.voqTemplate c) v))

/-- A write of an AQM profile (R272); profile 0 is fixed. -/
def wAqmProfile (n : Nat) (b : List Byte) (s : State) : Applied :=
  let a := beNat b
  if b.length ≠ 16 then .fail .refused
  else if n = 0 ∨ bits a 95 64 ≤ bits a 127 96 ∨ bits a 63 32 < bits a 95 64 then .fail .refused
  else .done (setBlk s (Reg.aqmProfile n) (beBytes 16 (maskBits a (2 ^ 128 - 2 ^ 16 + 1))))

/-- A write of the whole class map (R256, R284): every valid entry must pass. -/
def wClassMaps (b : List Byte) (s : State) : Applied :=
  if b.length ≠ 32768 then .fail .refused
  else
    let ws := (List.range 8192).map (fun i => (i, maskBits (beAt b (4 * i) 4) 0x8007FFFF))
    if ws.all (fun x => !bit x.2 31 || queuePort s (bits x.2 18 0) == some (x.1 / 8)) then
      .done { s with qm.classMap := ws.filter (fun x => x.2 != 0) }
    else .fail .refused

/-- The chapter's writes. -/
def qmWrite (k v : Nat) : State → Applied :=
  match idxOf k with
  | 0x4201 => fun s => if refCheck v = 0 then .done (setReg s k v) else .fail .refused
  | 0x4240 => wVoqTemplate (subOf k) v
  | _ => storeRule k v

/-- The chapter's values that are not stored. -/
def qmRead (s : State) (k : Nat) : Nat :=
  let n := subOf k
  match idxOf k with
  | 0x4242 => ((boundVoqs s).filter (fun q => qmsOf q == n)).length
  | 0x4243 => (freeVoqs s n).length
  | 0x4251 => linksFree s n
  | _ => reg s k

/-- The chapter's DOMAIN writes. -/
def qmCommit (k : Nat) (b : List Byte) : State → Applied :=
  match idxOf k with
  | 0x4202 => wSchConfig b
  | 0x4204 => commitLoad qmJob b
  | 0x4210 => wClassMaps b
  | 0x4220 => wAqmProfile (subOf k) b
  | _ => fun _ => .fail .refused

/-- The scheduling word of a node as read: its kind in `sn_kind` (R262), its enable 0 while faulted (R493). -/
def readWord (s : State) (k : Nat) : Nat :=
  let w := setBits (node s k).word 126 124 (nodeKind k)
  if nodeFaulted s k then clearBit w 127 else w

/-- `sch_state` (R284). -/
def schState (s : State) (k : Nat) : List Byte :=
  let n := node s k
  let x := queue s (nodeIdx k)
  let isQ := nodeKind k == 3
  beBytes 8 (ofSigned 64 n.tok) ++ beBytes 8 (ofSigned 64 n.deficit) ++ beBytes 8 n.round ++
    beBytes 4 (if isQ then refsHeld x else 0) ++ beBytes 4 (if isQ then qDepth x else 0)

/-- The chapter's DOMAIN values. -/
def qmDomain (s : State) (k : Nat) : List Byte :=
  match idxOf k with
  | 0x4202 =>
    let n := selectedNode s
    beBytes 16 (readWord s n) ++ (if nodeKind n = 3 then beBytes 8 (node s n).qword else [])
  | 0x4203 => schState s (selectedNode s)
  | 0x4210 => (List.range 8192).flatMap (fun i => beBytes 4 (mget 0 s.qm.classMap i))
  | 0x4220 => beBytes 16 (aqmProfile s (subOf k))
  | _ => []

/-! ### Commands -/

/-- ENQUEUE_ARRIVAL (R257): a packet whose descriptor is ready reaches the queues. -/
def execEnqueueArrival (pkt : Nat) (s : State) : Host.Outcome State Fault Refusal :=
  .next (touchVoqs (enqueueArrival s pkt))

/-- MC_FANOUT (R276): the fan-out engine of a QMS handles its oldest descriptor. -/
def execMcFanout (qms : Nat) (s : State) : Host.Outcome State Fault Refusal :=
  .next (touchVoqs (fanOut s qms))

/-- Whether TIME stands at a shaper's refill instant (R267). -/
def refillInstant (s : State) (k : Nat) : Bool := match refillPeriod (nodeKind k) with
  | some p => timeNs s % p == 8 * (nodeIdx k % (p / 8))
  | none => false

/-- A refill that fails its check is lost (R282). -/
def refillResidue (s : State) : State :=
  raise (count1 (residueMismatch s) Reg.schResidueFaults) .qm 6

/-- SHAPER_REFILL (R267): at a node's refill instant. -/
def execShaperRefill (kind index : Nat) (s : State) : Host.Outcome State Fault Refusal :=
  let k := nodeKey kind index
  if index < kindCount kind ∧ refillInstant s k then
    if residueArmed s 4 then .next (refillResidue s)
    else .next (refillShaper s k ((refillPeriod kind).getD 0))
  else .next s

/-- The tokens a shaper gets back when the true length is known (R269). -/
def correctShaper (s : State) (k lfEst lf : Nat) : State :=
  let n := node s k
  if n.shRate = 0 then s
  else
    let cap : Int := (n.shBurst * 2 ^ 32 : Nat)
    let d : Int := ((lfEst : Int) - lf) * 2 ^ 32
    setNode s k { n with tok := min (n.tok + max (-cap) (min d cap)) cap }

/-- One due correction: the shapers of its path, and a VOQ's balance (R269, R345). -/
def correctDue (s : State) (d : ShaperDue) (lf l : Nat) : State :=
  let s := d.path.foldl (fun s k => correctShaper s k d.lf lf) s
  match d.voq with
  | some q =>
    let v := mget {} s.qm.voqs q
    { s with qm.voqs := mset {} s.qm.voqs q { v with b := v.b + (d.lf - 4) - l } }
  | none => s

/-- The charged and the true length of a correction's packet, once its last byte has come (R269). -/
def dueLen (s : State) (d : ShaperDue) : Option (Nat × Nat) :=
  match d.known with
  | some l => some (max (l + 4) 64, l)
  | none => match pkt? s d.pkt with
    | some p => if p.ended || p.bad.getD 0 != 0 then some (chargedLen p, p.len.getD 0) else none
    | none => none

/-- SHAPER_CORRECTION (R269): the true length of a packet charged by its estimate is known. -/
def execShaperCorrection (pkt : Nat) (s : State) : Host.Outcome State Fault Refusal :=
  let ds := s.qm.due.filter (fun d => d.pkt == pkt && (dueLen s d).isSome)
  if ds.isEmpty then .next s
  else
    let t := { s with qm.due := s.qm.due.filter (fun d => d.pkt != pkt || (dueLen s d).isNone) }
    if residueArmed t 4 then .next (refillResidue t)
    else .next (touchVoqs (ds.foldl (fun t d => match dueLen s d with
      | some (lf, l) => correctDue t d lf l
      | none => t) t))

/-- A VOQ goes back to the free pool (R280). -/
def releaseVoq (s : State) (q : Nat) : State :=
  let k := nodeKey 3 q
  let n := node s k
  let s := setNode s k { n with qword := setBits n.qword 46 13 0 }
  let s := { s with qm.voqs := mdel s.qm.voqs q }
  count1 s Reg.voqReleases

/-- VOQ_IDLE_RELEASE (R280): at a microsecond tick, a VOQ idle for `voq_idle_ms`. -/
def execVoqIdleRelease (queue : Nat) (s : State) : Host.Outcome State Fault Refusal :=
  match (mget {} s.qm.voqs queue).idleSince with
  | none => .next s
  | some t =>
    if voqBound (qWord s queue) ∧ qType s queue = 3 ∧ voqIdle s queue ∧ timeNs s % 1000 = 0 ∧
        reg s Reg.voqIdleMs * 1000 ≤ s.time / 1000 - t / 1000 then .next (releaseVoq s queue)
    else .next s

/-- QM_LOAD_WRITE (R283): a completed transfer into `qm_load`. -/
def execQmLoadWrite (client : Client) (records : List Byte) (s : State) : Host.Outcome State Fault Refusal :=
  .next (commitRow s client Reg.qmLoad (commitLoad qmJob records))

/-- QM_APPLY (R283): a start, or the job's next step. -/
def execQmApply (turn : JobOp) (s : State) : Host.Outcome State Fault Refusal :=
  .next (loadJobTurn s qmJob turn applyQm)

/-- NODE_WRITE (op 0x01, R283). -/
def execNodeWrite (s : State) : Host.Outcome State Fault Refusal := .next (takeOp s qmJob [1] applyQm)

/-- QUEUE_WRITE (op 0x02, R262). -/
def execQueueWrite (s : State) : Host.Outcome State Fault Refusal := .next (takeOp s qmJob [2] applyQm)

/-- CLASS_MAP_WRITE (op 0x03, R256). -/
def execClassMapWrite (s : State) : Host.Outcome State Fault Refusal := .next (takeOp s qmJob [3] applyQm)

/-- MC_GROUP_WRITE (op 0x04, R275). -/
def execMcGroupWrite (s : State) : Host.Outcome State Fault Refusal := .next (takeOp s qmJob [4] applyQm)

/-- TARGET_WRITE (op 0x05, R275). -/
def execTargetWrite (s : State) : Host.Outcome State Fault Refusal := .next (takeOp s qmJob [5] applyQm)

/-- SCH_CONFIG_WRITE (R270): the selected node's words. -/
def execSchConfigWrite (client : Client) (value : List Byte) (s : State) : Host.Outcome State Fault Refusal :=
  .next (commitRow s client Reg.schConfig (wSchConfig value))

end Sys2Proof.Machine
end

