-- ==== Sys2Proof/Machine/Hbm.lean ====
section
/-! DEFINITION. The Crock memory controller (ch. 10): requests and urgency, refresh, data rates, idle, captures, states
and patrol scrub. -/

namespace Sys2Proof.Machine

/-! ### Stacks and pseudo channels -/

/-- The state of a stack (Table — Stack states). -/
def stackState (s : State) (k : Nat) : Nat := reg s (Reg.hbmStackState k)

/-- A change of state sets STATE (R250). -/
def setStack (s : State) (k v : Nat) : State :=
  if stackState s k = v then s else raise (setReg s (Reg.hbmStackState k) v) (.hbm k) 6

/-- In service: READY, DRAINING or IDLE. -/
def inService (s : State) (k : Nat) : Bool := let x := stackState s k; x == 1 || x == 2 || x == 4

/-- The stacks in service. -/
def serviceStacks (s : State) : List Nat := (List.range 4).filter (inService s)

/-- UNINIT, OFFLINE or FAULT: captures and initialisation permitted. -/
def stackParked (s : State) (k : Nat) : Bool := let x := stackState s k; x == 0 || x == 3 || x == 6

def pcOf (s : State) (k : Nat) : HbmPc := mget {} s.hbm.pcs k
def setPc (s : State) (k : Nat) (x : HbmPc) : State := { s with hbm.pcs := mset {} s.hbm.pcs k x }

/-- The refresh interval in force for a stack (R238). -/
def refreshInterval (s : State) (k : Nat) : Nat :=
  if mget false s.hbm.hot k then reg s Reg.hbmTRefiHotNs else reg s Reg.hbmTRefiNs

/-- Refreshes of a stack start anew: none owed, the next one interval away. -/
def startRefresh (s : State) (k : Nat) : State :=
  (List.range 64).foldl (fun s c =>
    setPc s (64 * k + c) { pcOf s (64 * k + c) with owed := 0, nextDue := s.time + refreshInterval s k }) s

/-- A stack enters self-refresh: every refresh owed is issued first (R239). -/
def selfRefresh (s : State) (k : Nat) : State :=
  (List.range 64).foldl (fun s c => setPc s (64 * k + c) { pcOf s (64 * k + c) with owed := 0 }) s

/-- The delay set of the current rate (R244). -/
def delaySet (s : State) (k : Nat) : List Byte :=
  blk s (if reg s Reg.hbmRate = 2 then Reg.hbmDelay8g0 k else if reg s Reg.hbmRate = 1 then Reg.hbmDelay6g4 k else Reg.hbmDelay4g0 k)

/-- Load the delay lines of a stack. -/
def loadDelays (s : State) (k : Nat) : State :=
  { s with hbm.loaded := mset [] s.hbm.loaded k (delaySet s k) }

/-! ### Requests (R234–R237) -/

/-- The urgency of a request (R235). -/
def urgency (s : State) (r : HbmReq) : Nat := min 7 (8 * (s.time - r.at0) / reg s (Reg.hbmPortTargetNs r.prt))

/-- Two requests touch a common burst. -/
def overlaps (a b : HbmReq) : Bool :=
  a.page == b.page && decide (a.burst < b.burst + b.count) && decide (b.burst < a.burst + a.count)

/-- Whether `a` goes before `b`: higher urgency, then lower port, then older (R236). -/
def goesBefore (s : State) (a b : HbmReq) : Bool :=
  let u := urgency s a
  let v := urgency s b
  decide (v < u) || (u == v && (decide (a.prt < b.prt) || (a.prt == b.prt && decide (a.id < b.id))))

/-- The next request of a list; one waits behind an older request for the same burst (R237). -/
def chooseReq (s : State) (l : List HbmReq) : Option HbmReq :=
  let free := l.filter (fun r => !l.any (fun x => decide (x.id < r.id) && overlaps x r))
  free.foldl (fun b r => match b with
    | none => some r
    | some x => if goesBefore s r x then some r else some x) none

/-- A pseudo channel with nothing in service takes its next request. -/
def startNext (s : State) (k : Nat) : State :=
  let p := pcOf s k
  if p.current.isNone && s.hbm.change.isNone then
    match chooseReq s p.reqs with
    | some r => setPc s k { p with current := some r.id }
    | none => s
  else s

/-- The first request wakes every IDLE stack (R242). -/
def wakeStacks (s : State) : State :=
  ((List.range 4).filter (fun k => stackState s k == 4)).foldl (fun s k => startRefresh (setStack s k 1) k) s

/-- Whether a controller takes the request: the page is its own, the bursts lie in the page, and the stack is in service,
or the port is the diagnostic one. -/
def requestTaken (s : State) (stack prt page burst count : Nat) : Bool :=
  decide (stack < 4) && decide (prt < 5) && decide (page < 50331648) && page % 4 == stack && decide (0 < count) &&
    decide (burst + count ≤ 64) && (inService s stack || (prt == 4 && stackParked s stack))

/-- HBM_REQUEST (R234): accepted, it waits at its pseudo channel. -/
def execHbmRequest (stack port page burst count : Nat) (write : Bool) (s : State) : Host.Outcome State Fault Refusal :=
  if requestTaken s stack port page burst count then
    let s := if stackState s stack = 4 then wakeStacks s else s
    let s := if port = 3 then s else { s with hbm.lastUse := s.time }
    let k := 64 * stack + page / 4 % 64
    let i := s.hbm.nextReq
    let r : HbmReq := { id := i, prt := port, page := page, burst := burst, count := count, write := write, at0 := s.time }
    let s := { s with hbm.nextReq := i + 1 }
    .next (startNext (setPc s k { pcOf s k with reqs := (pcOf s k).reqs ++ [r] }) k)
  else .next s

/-- HBM_REQUEST_COMPLETE (R235): the request in service on a pseudo channel ends; a late one is counted, and a read's words
are checked (R247). -/
def execHbmRequestComplete (stack channel : Nat) (s : State) : Host.Outcome State Fault Refusal :=
  let k := 64 * stack + channel
  let p := pcOf s k
  match p.current with
  | none => .next s
  | some i => match p.reqs.find? (fun r => r.id == i) with
    | none => .next s
    | some r =>
      let s := setPc s k { p with reqs := p.reqs.filter (fun x => x.id != i), current := none }
      let s := { s with hbm.moved := s.hbm.moved + 32 * r.count }
      let s := (List.range r.count).foldl (fun s _ => perfEvent s 0x51 stack 32) s
      let s := if r.write then s else
        (readCrockWords s r.prt ((rangeFrom (4 * r.burst) (4 * r.count)).map (fun w => (r.page, w)))).2
      let s := if reg s (Reg.hbmPortTargetNs r.prt) < s.time - r.at0 then
        raise (count1 s (Reg.hbmDeadlineMiss r.prt)) (.hbm stack) 2 else s
      .next (startNext s k)

/-! ### Refresh (R238, R239) -/

/-- Whether a pseudo channel is in an unspill burst. -/
def unspillBurst (p : HbmPc) : Bool := p.reqs.any (fun r => r.prt == 0)

/-- The highest count owed. -/
def noteOwed (s : State) (stack n : Nat) : State :=
  if reg s (Reg.hbmRefreshOwedMax stack) < n then setReg s (Reg.hbmRefreshOwedMax stack) n else s

/-- REFRESH_DUE (R238, R239): issued at once outside an unspill burst with none owed before; postponed in a burst until the
seventh, which splits it. -/
def execRefreshDue (stack channel : Nat) (s : State) : Host.Outcome State Fault Refusal :=
  let k := 64 * stack + channel
  let p := pcOf s k
  let x := stackState s stack
  if stack < 4 ∧ channel < 64 ∧ (x = 1 ∨ x = 2 ∨ x = 3) ∧ p.nextDue ≤ s.time then
    let n := p.owed + 1
    let s := noteOwed s stack n
    let next := p.nextDue + refreshInterval s stack
    if unspillBurst p then
      if n < 7 then .next (setPc s k { p with owed := n, nextDue := next })
      else
        let s := setPc s k { p with owed := n - 1, nextDue := next }
        .next (raise (count1 s (Reg.hbmRefreshSplits stack)) (.hbm stack) 3)
    else .next (setPc s k { p with owed := if p.owed = 0 then 0 else n, nextDue := next })
  else .next s

/-- REFRESH_PAYBACK (R239): after a burst, one owed refresh is issued. -/
def execRefreshPayback (stack channel : Nat) (s : State) : Host.Outcome State Fault Refusal :=
  let k := 64 * stack + channel
  let p := pcOf s k
  if 0 < p.owed ∧ unspillBurst p = false then .next (setPc s k { p with owed := p.owed - 1 }) else .next s

/-- HBM_TEMP_READ (R238, R252): the readout, in 1/16 °C as a 32-bit pattern. -/
def execHbmTempRead (stack readout : Nat) (s : State) : Host.Outcome State Fault Refusal :=
  if stack < 4 then
    let s := setReg s (Reg.hbmTemp stack) (readout % 2 ^ 32)
    let hot := decide ((16 * reg s Reg.hbmHotC : Int) ≤ toSigned 32 readout)
    let s := { s with hbm.hot := mset false s.hbm.hot stack hot }
    .next (if hot then raise s (.hbm stack) 7 else s)
  else .next s

/-! ### Data rates and idle (R240–R243) -/

/-- Sustained capacity of a rate in b/s (Table — Crock capacity). -/
def rateCapacity (r : Nat) : Nat :=
  if r = 0 then 27850000000000 else if r = 1 then 44560000000000 else 55700000000000

/-- A rate change begins when the rate differs. -/
def beginRate (s : State) (r : Nat) : State :=
  if reg s Reg.hbmRate = r then s else { s with hbm.change := some r }

/-- The lowest rate whose 75% is at least `d`, or 8.0 Gb/s. -/
def rateFor (d : Nat) : Nat :=
  if 100 * d ≤ 75 * rateCapacity 0 then 0 else if 100 * d ≤ 75 * rateCapacity 1 then 1 else 2

/-- The governor's judgement of a window of `d` b/s (R240). -/
def governRate (s : State) (d : Nat) : State :=
  let r := reg s Reg.hbmRate
  if 75 * rateCapacity r < 100 * d then beginRate { s with hbm.below := 0 } (max r (rateFor d))
  else if 0 < r ∧ 100 * d < 50 * rateCapacity (r - 1) then
    if 10 ≤ s.hbm.below + 1 then beginRate { s with hbm.below := 0 } (r - 1)
    else { s with hbm.below := s.hbm.below + 1 }
  else { s with hbm.below := 0 }

/-- HBM_RATE_WINDOW (R240, R243): at the end of a 100-µs window of TIME. -/
def execHbmRateWindow (s : State) : Host.Outcome State Fault Refusal :=
  if timeNs s % 100000 = 0 ∧ s.hbm.windowAt < s.time then
    let d := s.hbm.moved * 80000
    let s := { s with hbm.moved := 0, hbm.windowAt := s.time }
    if reg s Reg.hbmRatePin = 0xFF ∧ s.hbm.change = none ∧ jobRunning s Reg.hbmCapture = false then .next (governRate s d)
    else .next s
  else .next s

/-- HBM_RATE_CHANGE (R241): with no burst in flight, the stacks change rate and delays, and service resumes. -/
def execHbmRateChange (s : State) : Host.Outcome State Fault Refusal :=
  match s.hbm.change with
  | none => .next s
  | some r =>
    if s.hbm.pcs.any (fun p => p.2.current.isSome) then .next s
    else
      let s := (serviceStacks s).foldl selfRefresh s
      let s := setReg { s with hbm.change := none } Reg.hbmRate r
      let s := (List.range 4).foldl loadDelays s
      let s := count1 s Reg.hbmRateChanges
      let s := (serviceStacks s).foldl (fun s k => raise s (.hbm k) 4) s
      .next ((mkeys s.hbm.pcs).foldl startNext s)

/-- A write of `hbm_rate_pin` (R240, R243, R252). -/
def wHbmRatePin (v : Nat) (s : State) : Applied :=
  if v = 0xFF then .done (setReg s Reg.hbmRatePin v)
  else if 2 < v then .fail .refused
  else if s.hbm.change.isSome || (jobRunning s Reg.hbmCapture && reg s Reg.hbmRate != v) then .fail .busy
  else .done (beginRate (setReg s Reg.hbmRatePin v) v)

/-- HBM_RATE_PIN_WRITE (R243). -/
def execHbmRatePinWrite (client : Client) (value : Nat) (s : State) : Host.Outcome State Fault Refusal :=
  .next (writeRow s client Reg.hbmRatePin value (wHbmRatePin value))

/-- HBM_IDLE_ENTER (R242): no page in use and no request but scrub's for `hbm_idle_us`. -/
def execHbmIdleEnter (s : State) : Host.Outcome State Fault Refusal :=
  if flag s Reg.hbmIdleEnable ∧ s.mem.usedPages = [] ∧ s.hbm.lastUse + reg s Reg.hbmIdleUs * 1000 ≤ s.time ∧
      s.hbm.change = none ∧ s.hbm.pcs.all (fun p => p.2.reqs.isEmpty) then
    .next (((List.range 4).filter (fun k => stackState s k == 1)).foldl (fun s k => setStack (selfRefresh s k) k 4) s)
  else .next s

/-! ### Capture, initialisation, states (R245, R250, R251) -/

/-- The fields of `hbm_capture_arg`. -/
def capStack (s : State) : Nat := bits (reg s Reg.hbmCaptureArg) 31 30
def capRead (s : State) : Bool := bit (reg s Reg.hbmCaptureArg) 29
def capChannel (s : State) : Nat := bits (reg s Reg.hbmCaptureArg) 28 23
def capStart (s : State) : Nat := bits (reg s Reg.hbmCaptureArg) 22 15
def capStop (s : State) : Nat := bits (reg s Reg.hbmCaptureArg) 14 7
def capStep (s : State) : Nat := bits (reg s Reg.hbmCaptureArg) 6 3

/-- A write of `hbm_capture_arg` (R252). -/
def wCaptureArg (v : Nat) (s : State) : Applied :=
  if bits v 14 7 < bits v 22 15 ∨ bits v 6 3 = 0 then .fail .refused
  else .done (setReg s Reg.hbmCaptureArg (writable Reg.hbmCaptureArg v))

/-- Set the swept delays of the captured group to one value (R245). -/
def sweepDelays (s : State) (v : Nat) : State :=
  let k := capStack s
  let old := padTo (mget [] s.hbm.loaded k) 4640
  let new := (List.range 36).foldl (fun l b => splice l (2 * (36 * capChannel s + b) + b2n (capRead s)) [byte v]) old
  { s with hbm.loaded := mset [] s.hbm.loaded k new }

/-- The captured group gets its stored delays back. -/
def restoreDelays (s : State) : State :=
  let k := capStack s
  let o := 72 * capChannel s
  let old := padTo (mget [] s.hbm.loaded k) 4640
  { s with hbm.loaded := mset [] s.hbm.loaded k (splice old o (slice (padTo (delaySet s k) 4640) o 72)) }

/-- The capture ends: JOB_DONE on its stack. -/
def captureEnd (s : State) (cancelled : Bool) : State :=
  let s := restoreDelays s
  raise (if cancelled then jobCancelled s Reg.hbmCapture 0 else jobEnd s Reg.hbmCapture 0) (.hbm (capStack s)) 5

/-- A start of `hbm_capture`: turned away, it ends with its result at once (R245). -/
def startCapture (s : State) : Applied :=
  let k := capStack s
  let b := jobBegin s Reg.hbmCapture
  if !stackParked s k then .done (raise (jobEnd b Reg.hbmCapture 1) (.hbm k) 5)
  else if s.hbm.change.isSome then .done (raise (jobEnd b Reg.hbmCapture 3) (.hbm k) 5)
  else .done (setBlk b Reg.hbmCaptureResult [])

/-- One step of a capture: the pins that passed at the next value. -/
def captureStep (s : State) (pass : Nat) : State :=
  if jobRunning s Reg.hbmCapture then
    let v := capStart s + (job s Reg.hbmCapture).phase * capStep s
    let s := sweepDelays s v
    let s := setBlk s Reg.hbmCaptureResult (blk s Reg.hbmCaptureResult ++ byte v :: beBytes 5 (pass % 2 ^ 36))
    let s := jobProgress (jobPhase s Reg.hbmCapture ((job s Reg.hbmCapture).phase + 1)) Reg.hbmCapture 1
    if capStop s < v + capStep s then captureEnd s false
    else if (job s Reg.hbmCapture).cancel then captureEnd s true else s
  else s

/-- HBM_CAPTURE (R245): a start, or a step whose `pass` says which of the 36 pins matched. -/
def execHbmCapture (turn : JobOp) (pass : Nat) (s : State) : Host.Outcome State Fault Refusal :=
  match turn with
  | .start c => .next (concludeJob s c Reg.hbmCapture (jobStart s c Reg.hbmCapture startCapture))
  | .step => .next (captureStep s pass)

/-- A start of `hbm_init` (R251). -/
def startHbmInit (k : Nat) (s : State) : Applied :=
  let b := jobBegin s (Reg.hbmInit k)
  if !stackParked s k || s.hbm.change.isSome || jobRunning s Reg.hbmCapture then
    .done (raise (jobEnd b (Reg.hbmInit k) 1) (.hbm k) 5)
  else .done b

/-- Step 6 of start-up: no `hbm_init` runs any more (R483). -/
def stacksInitialised (s : State) : State :=
  if reg s Reg.pwrStartupPhase = 2 ∧ flag s Reg.pwrAutoBringup ∧ (List.range 4).all (fun k => !jobRunning s (Reg.hbmInit k)) then
    startupMark (setReg s Reg.pwrStartupPhase 3) 6
  else s

/-- The end of `hbm_init`: READY when every pseudo channel passed, else FAULT. -/
def hbmInitEnd (s : State) (k : Nat) (pass : Bool) : State :=
  if jobRunning s (Reg.hbmInit k) then
    let s := loadDelays s k
    let s := if pass then startRefresh (setStack { s with hbm.lastUse := s.time } k 1) k else setStack s k 6
    stacksInitialised (raise (jobEnd s (Reg.hbmInit k) (if pass then 0 else 2)) (.hbm k) 5)
  else s

/-- HBM_INIT (R251): a start, or the end of the sequence with the outcome of its test pages. -/
def execHbmInit (stack : Nat) (turn : JobOp) (pass : Bool) (s : State) : Host.Outcome State Fault Refusal :=
  match turn with
  | .start c => .next (concludeJob s c (Reg.hbmInit stack) (jobStart s c (Reg.hbmInit stack) (startHbmInit stack)))
  | .step => .next (hbmInitEnd s stack pass)

/-- A start of `hbm_offline` (R251). -/
def startHbmOffline (k : Nat) (s : State) : Applied :=
  if stackState s k = 1 then .done (setStack s k 2)
  else if stackState s k = 4 then .done (setStack (startRefresh s k) k 2)
  else .fail .refused

/-- HBM_OFFLINE (R251). -/
def execHbmOffline (client : Client) (stack : Nat) (s : State) : Host.Outcome State Fault Refusal :=
  .next (concludeJob s client (Reg.hbmOffline stack)
    (jobStartWith s client (Reg.hbmOffline stack) (startHbmOffline stack)))

/-- Pages of a stack in use. -/
def stackInUse (s : State) (k : Nat) : Bool := s.mem.usedPages.any (fun p => p.1 % 4 == k)

/-- A DRAINING stack with no page in use goes OFFLINE, and its job completes (R250, R251). -/
def drained (s : State) (k : Nat) : State :=
  if k < 4 ∧ stackState s k = 2 ∧ stackInUse s k = false then
    let s := setStack s k 3
    if jobRunning s (Reg.hbmOffline k) then raise (jobEnd s (Reg.hbmOffline k) 0) (.hbm k) 5 else s
  else s

/-- HBM_DRAINED (R250). -/
def execHbmDrained (stack : Nat) (s : State) : Host.Outcome State Fault Refusal := .next (drained s stack)

/-! ### Patrol scrub (R249) -/

/-- Scrub one page through port 3: corrected words are written back; a free page with an uncorrectable one is
quarantined. -/
def scrubPage (s : State) (k p : Nat) : State :=
  let g := 4 * p + k
  ((badWords s 9).filter (fun w => w.1 == k && w.2.1 / 256 == p)).foldl (fun s w =>
    let i := w.2.1 % 256
    let r := readCrockWords s 3 [(g, i)]
    if r.1 then (if unitUsed r.2 1 g then r.2 else setQuar r.2 1 g) else setFlips r.2 9 k w.2.1 0) s

/-- Words the outside has disturbed (R246): (word, flipped bits). -/
def disturb (s : State) (k p : Nat) (l : List (Nat × Nat)) : State :=
  l.foldl (fun s w => if w.1 < 256 ∧ w.2 ≤ 3 then setFlips s 9 k (256 * p + w.1) w.2 else s) s

/-- Scrub the page at the position and move on. -/
def scrubNext (s : State) (k : Nat) : State :=
  let p := reg s (Reg.hbmScrubPosition k)
  let s := scrubPage s k p
  if p + 1 < 12582912 then setReg s (Reg.hbmScrubPosition k) (p + 1)
  else count1 (setReg s (Reg.hbmScrubPosition k) 0) (Reg.hbmScrubSweeps k)

/-- HBM_PATROL_SCRUB (R249): a page falls due; an IDLE stack counts it. `upsets` names disturbed words of the page. -/
def execHbmPatrolScrub (stack : Nat) (upsets : List (Nat × Nat)) (s : State) : Host.Outcome State Fault Refusal :=
  let x := stackState s stack
  if stack < 4 ∧ (x = 1 ∨ x = 2 ∨ x = 4) ∧ mget 0 s.hbm.scrubAt stack + reg s Reg.hbmScrubPageNs ≤ s.time then
    let s := { s with hbm.scrubAt := mset 0 s.hbm.scrubAt stack s.time }
    if x = 4 then .next { s with hbm.scrubDue := mset 0 s.hbm.scrubDue stack (mget 0 s.hbm.scrubDue stack + 1) }
    else .next (scrubNext (disturb s stack (reg s (Reg.hbmScrubPosition stack)) upsets) stack)
  else .next s

/-- HBM_SCRUB_BATCH (R249): the due pages of an IDLE stack, at 64 or when it has woken. -/
def execHbmScrubBatch (stack : Nat) (s : State) : Host.Outcome State Fault Refusal :=
  let n := mget 0 s.hbm.scrubDue stack
  let x := stackState s stack
  if stack < 4 ∧ 0 < n ∧ ((x = 4 ∧ 64 ≤ n) ∨ x = 1 ∨ x = 2) then
    let s := (List.range n).foldl (fun s _ => scrubNext s stack) s
    let s := if x = 4 then raise s (.hbm stack) 6 else s
    .next { s with hbm.scrubDue := mset 0 s.hbm.scrubDue stack 0 }
  else .next s

/-- HBM_REFRESH_OWED_MAX_READ (R252). -/
def execHbmRefreshOwedMaxRead (client : Client) (stack : Nat) (s : State) : Host.Outcome State Fault Refusal :=
  .next (readRow s client (Reg.hbmRefreshOwedMax stack) (reg s (Reg.hbmRefreshOwedMax stack))
    (fun s => setReg s (Reg.hbmRefreshOwedMax stack) 0))

/-! ### Entries -/

/-- A DOMAIN of a fixed length, or empty. -/
def storeBlock (k n : Nat) (b : List Byte) (s : State) : Applied :=
  if b.length = n then .done (setBlk s k b) else .fail .refused

/-- The chapter's writes. -/
def hbmWrite (k v : Nat) : State → Applied :=
  match idxOf k with
  | 0x4105 => wHbmRatePin v
  | 0x4130 => wCaptureArg v
  | _ => storeRule k v

/-- The chapter's DOMAIN writes. -/
def hbmCommit (k : Nat) (b : List Byte) : State → Applied :=
  match idxOf k with
  | 0x4110 => fun s => if b.length % 2 = 0 then .done (setBlk s k b) else .fail .refused
  | 0x4117 => storeBlock k 18 b
  | 0x4120 => storeBlock k 4640 b
  | 0x4121 => storeBlock k 4640 b
  | 0x4122 => storeBlock k 4640 b
  | _ => fun _ => .fail .refused

/-- The chapter's job starts. -/
def hbmStart (k : Nat) (s : State) : Applied :=
  match idxOf k with
  | 0x4102 => startHbmInit (subOf k) s
  | 0x4103 => (startHbmOffline (subOf k) s).bind (fun s => .done (jobBegin s k))
  | 0x4131 => startCapture s
  | _ => .fail .noEntry

end Sys2Proof.Machine
end

