-- ==== Sys2Proof/Machine/Meters.lean ====
section
/-! DEFINITION. Meters and flow counters (ch. 8): updates, corrections, the counter store, their jobs and entries. -/

namespace Sys2Proof.Machine

/-! ### Meter entries (R191, R192) -/

def mEnable (m : Nat) : Bool := bit m 383
def mMode (m : Nat) : Nat := bits m 382 381
def mAware (m : Nat) : Bool := bit m 380
def mCouple (m : Nat) : Bool := bit m 379
def mOvh (m : Nat) : Nat := bits m 378 375
def mRate1 (m : Nat) : Nat := bits m 335 296
def mRate2 (m : Nat) : Nat := bits m 295 256
def mBurst1 (m : Nat) : Nat := bits m 255 232
def mBurst2 (m : Nat) : Nat := bits m 231 208
def mTok1 (m : Nat) : Int := toSigned 64 (bits m 191 128)
def mTok2 (m : Nat) : Int := toSigned 64 (bits m 127 64)
def mLast (m : Nat) : Nat := bits m 63 0

/-- A meter. -/
def meterOf (s : State) (i : Nat) : Nat := mget 0 s.mtr.meters i

/-- Its state half replaced. -/
def withState (m : Nat) (t1 t2 : Int) (last : Nat) : Nat :=
  setBits (setBits (setBits m 191 128 (ofSigned 64 t1)) 127 64 (ofSigned 64 t2)) 63 0 last

/-- Bursts in token units: bytes with 32 fractional bits. -/
def tokens (b : Nat) : Int := (b * 2 ^ 32 : Nat)

/-- The word index of a table of class 0x08 (notes/assumptions/22): 0 configuration, 1 state, 2 counter pair. -/
def mcWord (t i : Nat) : Nat := t * 2 ^ 32 + i

/-- Store a meter; `t` lists the words written. -/
def setMeter (s : State) (i m : Nat) (t : List Nat) : State :=
  wordsWritten { s with mtr.meters := mset 0 s.mtr.meters i m } 8 (i % 8) (t.map (fun x => mcWord x i))

/-- The code of a configuration's refusal: 0 none, 5 reserved value, 6 out of range (R192, R200). -/
def meterConfigCode (c : Nat) : Nat :=
  let m := c * 2 ^ 192
  let rateBad := fun r => r != 0 && (decide (r < 0x10C7) || decide (0xC800000000 < r))
  if mMode m = 3 ∨ bits m 374 336 ≠ 0 ∨ bits m 207 192 ≠ 0 then 5
  else if rateBad (mRate1 m) || rateBad (mRate2 m) then 6
  else if mMode m = 1 ∧ mRate2 m < mRate1 m then 6
  else if mEnable m ∧ mRate1 m = 0 then 6
  else 0

/-- A configuration is installed as one action: full buckets, last update now (R191). -/
def installMeter (s : State) (i c : Nat) : State :=
  let m := c * 2 ^ 192
  setMeter s i (withState m (tokens (mBurst1 m)) (tokens (mBurst2 m)) (timeNs s)) [0, 1]

/-! ### Updates (R188, R193, R194, R199) -/

/-- Refill (R193): both buckets to `now`. -/
def refillMeter (m now : Nat) : Int × Int :=
  let dt := (now + 2 ^ 64 - mLast m) % 2 ^ 64
  let cap1 := tokens (mBurst1 m)
  let sum1 := mTok1 m + (mRate1 m * dt : Nat)
  let excess := if cap1 < sum1 then sum1 - cap1 else 0
  let add2 : Int := if mMode m = 0 then 0 else (mRate2 m * dt : Nat)
  let add2 := if mMode m = 0 ∨ (mMode m = 2 ∧ mCouple m) then add2 + excess else add2
  (min sum1 cap1, min (mTok2 m + add2) (tokens (mBurst2 m)))

/-- What a decision comes to: the colour, the buckets left, and which were drawn. -/
structure Decided where
  colour : Nat
  t1 : Int
  t2 : Int
  drew1 : Bool := false
  drew2 : Bool := false

/-- The colour of `b` bytes (R193). -/
def decideColour (m b pre : Nat) (t1 t2 : Int) : Decided :=
  let need := tokens b
  let pre := if mAware m then (if pre = 3 then 2 else pre) else 0
  if mMode m = 1 then
    if pre = 2 ∨ t2 < need then { colour := 2, t1 := t1, t2 := t2 }
    else if pre = 1 ∨ t1 < need then { colour := 1, t1 := t1, t2 := t2 - need, drew2 := true }
    else { colour := 0, t1 := t1 - need, t2 := t2 - need, drew1 := true, drew2 := true }
  else if pre = 0 ∧ need ≤ t1 then { colour := 0, t1 := t1 - need, t2 := t2, drew1 := true }
  else if pre ≠ 2 ∧ need ≤ t2 then { colour := 1, t1 := t1, t2 := t2 - need, drew2 := true }
  else { colour := 2, t1 := t1, t2 := t2 }

/-- A meter or counter fault is latched (R199): `c` 1 for a counter. -/
def mcFault (s : State) (c : Bool) (i : Nat) : State :=
  let s := setReg (residueMismatch s) Reg.mcLastFault (b2n c * 2 ^ 31 + i)
  if c then raise (count1 s Reg.ctrResidueFaults) .mc 1 else raise (count1 s Reg.mtrResidueFaults) .mc 0

/-- What a metering comes to: nothing metered, a residue fault, or a colour with what was drawn. -/
inductive Metered where
  | disabled (s : State)
  | fault (s : State)
  | coloured (c : Nat) (draw : MeterDraw) (s : State)

/-- Meter `e` bytes under a pre-colour (R188, R193, R194, R199, R492). -/
def meterPacket (s : State) (i e pre : Nat) : Metered :=
  if residueArmed s 2 then .fault (residueMismatch s)
  else
    let cfg := checkWord s 8 (i % 8) (mcWord 0 i)
    let s := cfg.2
    let m := meterOf s i
    if cfg.1 || !mEnable m then .disabled (raise (count1 s Reg.mtrDisabledHits) .mc 4)
    else
      let st := checkWord s 8 (i % 8) (mcWord 1 i)
      let s := st.2
      let m := if st.1 then withState m (tokens (mBurst1 m)) (tokens (mBurst2 m)) (timeNs s) else m
      if residueArmed s 0 then .fault (mcFault s false i)
      else
        let b := ((e : Int) + toSigned 32 (reg s (Reg.lenOverhead (mOvh m)))).toNat
        let r := refillMeter m (timeNs s)
        let d := decideColour m b pre r.1 r.2
        let s := setMeter s i (withState m d.t1 d.t2 (timeNs s)) [1]
        .coloured d.colour { meter := i, est := e, drew1 := d.drew1, drew2 := d.drew2 }
          (count1 s (Reg.mtrColourCount d.colour))

/-! ### Corrections (R190) -/

/-- A bucket given `a` bytes back: the amount clamped to the bucket's size, the level capped at the burst. -/
def correctBucket (t : Int) (burst : Nat) (a : Int) : Int :=
  let size := tokens burst
  min (t + max (-size) (min size (a * 2 ^ 32))) size

/-- Corrections fall due for what a packet drew: E − L, or E in full where the frame is discarded by the MAC. A draw whose
estimate was true needs none. -/
def correctionsDue (s : State) (ds : List MeterDraw) (len : Option Nat) : State :=
  let l := (ds.filter (fun d => (d.drew1 || d.drew2) && len != some d.est)).map (fun d =>
    ({ meter := d.meter, amount := (d.est : Int) - ((len.getD 0 : Nat) : Int), drew1 := d.drew1, drew2 := d.drew2 } : MeterDue))
  if l.isEmpty then s else { s with mtr.due := s.mtr.due ++ l }

/-- One correction lands (R190, R199). -/
def applyCorrection (s : State) (d : MeterDue) : State :=
  if residueArmed s 0 then mcFault s false d.meter
  else
    let m := meterOf s d.meter
    let t1 := if d.drew1 then correctBucket (mTok1 m) (mBurst1 m) d.amount else mTok1 m
    let t2 := if d.drew2 then correctBucket (mTok2 m) (mBurst2 m) d.amount else mTok2 m
    count1 (setMeter s d.meter (withState m t1 t2 (mLast m)) [1]) Reg.mtrCorrections

/-- METER_CORRECTION: the oldest correction due of a meter lands (R184, R190). -/
def execMeterCorrection (meter : Nat) (s : State) : Host.Outcome State Fault Refusal :=
  match s.mtr.due.find? (fun d => d.meter == meter) with
  | none => .next s
  | some d => .next (applyCorrection { s with mtr.due := s.mtr.due.erase d } d)

/-! ### Flow counters (R117, R195, R196) -/

/-- A counter's pair: packets and bytes. -/
def pairOf (s : State) (i : Nat) : Nat × Nat := (mget 0 s.mtr.pkts i, mget 0 s.mtr.bytes i)

/-- Replace a pair as one action. -/
def setPair (s : State) (i p b : Nat) : State :=
  wordsWritten { s with mtr.pkts := mset 0 s.mtr.pkts i (p % 2 ^ 64), mtr.bytes := mset 0 s.mtr.bytes i (b % 2 ^ 64) }
    8 (i % 8) [mcWord 2 i]

/-- Updates posted: they land at COUNTER_UPDATE_POST. -/
def postCounters (s : State) (l : List Nat) (n : Nat) : State :=
  if l.isEmpty then s else { s with mtr.posts := s.mtr.posts ++ l.map (fun i => (i, n)) }

/-- One update of a pair (R195, R199, R492). -/
def updatePair (s : State) (i n : Nat) : State :=
  let r := checkWord s 8 (i % 8) (mcWord 2 i)
  let s := r.2
  let p := if r.1 then (0, 0) else pairOf s i
  if residueArmed s 1 then mcFault s true i else setPair s i (p.1 + 1) (p.2 + n)

/-- COUNTER_UPDATE_POST: the oldest update posted to a counter lands (R117, R184). -/
def execCounterUpdatePost (counter : Nat) (s : State) : Host.Outcome State Fault Refusal :=
  match s.mtr.posts.find? (fun x => x.1 == counter) with
  | none => .next s
  | some x => .next (updatePair { s with mtr.posts := s.mtr.posts.erase x } x.1 x.2)

/-- The pair `ctr_select` names. -/
def ctrSelected (s : State) : Nat := reg s Reg.ctrSelect

/-- CTR_PKTS_READ: both counts are sampled, the byte count latched (R196). -/
def execCtrPktsRead (client : Client) (s : State) : Host.Outcome State Fault Refusal :=
  let p := pairOf s (ctrSelected s)
  .next (readRow s client Reg.ctrPkts p.1 (fun s => { s with mtr.latch := p.2 }))

/-- A write of `ctr_clear` (R196). -/
def wCtrClear (v : Nat) (s : State) : Applied := .done (if v = 0 then s else setPair s (ctrSelected s) 0 0)

/-- CTR_CLEAR. -/
def execCtrClear (client : Client) (value : Nat) (s : State) : Host.Outcome State Fault Refusal :=
  .next (writeRow s client Reg.ctrClear value (wCtrClear value))

/-! ### Sweep (R197) -/

/-- A start of `ctr_sweep`: the range must lie in the store; the arguments are taken (R409). -/
def startSweep (s : State) : Applied :=
  let b := reg s Reg.ctrSweepBase
  let n := reg s Reg.ctrSweepCount
  if n = 0 ∨ 1048576 < b + n then .fail .refused
  else .done { setBlk s Reg.ctrSweepData [] with
    mtr.sweepBase := b, mtr.sweepCount := n, mtr.sweepClear := flag s Reg.ctrSweepClear }

/-- One pair of the sweep. -/
def sweepPair (s : State) (i : Nat) : State :=
  let p := pairOf s i
  let s := setBlk s Reg.ctrSweepData (blk s Reg.ctrSweepData ++ beBytes 8 p.1 ++ beBytes 8 p.2)
  if s.mtr.sweepClear then setPair s i 0 0 else s

/-- A step reads 256 pairs; the job ends after the last, or after the step in which it was cancelled. -/
def sweepStep (s : State) : State :=
  if !jobRunning s Reg.ctrSweep then s
  else if (job s Reg.ctrSweep).cancel then jobCancelled s Reg.ctrSweep 0
  else
    let i := (job s Reg.ctrSweep).progress
    let n := min 256 (s.mtr.sweepCount - i)
    let s := jobProgress ((rangeFrom (s.mtr.sweepBase + i) n).foldl sweepPair s) Reg.ctrSweep n
    if i + n = s.mtr.sweepCount then raise (jobEnd s Reg.ctrSweep 0) .mc 3 else s

/-- CTR_SWEEP. -/
def execCtrSweep (turn : JobOp) (s : State) : Host.Outcome State Fault Refusal :=
  match turn with
  | .start c => .next (concludeJob s c Reg.ctrSweep (jobStartWith s c Reg.ctrSweep startSweep))
  | .step => .next (sweepStep s)

/-! ### Loads and entries (R200) -/

/-- A commit of `mtr_config` (R191, R192). -/
def wMtrConfig (b : List Byte) (s : State) : Applied :=
  if b.length ≠ 24 ∨ meterConfigCode (beNat b) ≠ 0 then .fail .refused
  else .done (installMeter s (reg s Reg.mtrSelect) (beNat b))

/-- MTR_CONFIG_WRITE. -/
def execMtrConfigWrite (client : Client) (value : List Byte) (s : State) : Host.Outcome State Fault Refusal :=
  .next (commitRow s client Reg.mtrConfig (wMtrConfig value))

/-- `mtr_load` and `mtr_apply`; the job ends at the first refused record, so it has no mode entry. -/
def mtrJob : LoadJob :=
  { load := Reg.mtrLoad, size := 32, job := Reg.mtrApply, mode := 0, done := Reg.mtrApplyDone,
    errIndex := Reg.mtrApplyErrorIndex, errCode := Reg.mtrApplyErrorCode, cause := .mc, causeBit := 2 }

/-- One record (R200). -/
def applyMtr (s : State) (r : List Byte) : Nat × State :=
  let c := beAt r 8 24
  if beAt r 0 4 / 2 ^ 18 ≠ 0 ∨ !zeroBytes r 4 4 then (5, s)
  else if meterConfigCode c ≠ 0 then (meterConfigCode c, s)
  else (0, installMeter s (beAt r 0 4) c)

/-- MTR_LOAD_WRITE. -/
def execMtrLoadWrite (client : Client) (records : List Byte) (s : State) : Host.Outcome State Fault Refusal :=
  .next (commitRow s client Reg.mtrLoad (commitLoad mtrJob records))

/-- MTR_APPLY. -/
def execMtrApply (turn : JobOp) (s : State) : Host.Outcome State Fault Refusal :=
  .next (loadJobTurn s mtrJob turn applyMtr)

/-- Writes of the chapter's entries; a length overhead runs from -32 to 63, and profile 0 is fixed (R189). -/
def mcWrite (k v : Nat) : State → Applied :=
  if idxOf k = 0x3423 then wCtrClear v
  else if idxOf k = 0x3402 ∧ (subOf k = 0 ∨ toSigned 32 v < -32 ∨ 63 < toSigned 32 v) then fun _ => .fail .refused
  else storeRule k v

/-- Values that are not stored. -/
def mcRead (s : State) (k : Nat) : Nat :=
  if idxOf k = 0x3421 then (pairOf s (ctrSelected s)).1
  else if idxOf k = 0x3422 then s.mtr.latch
  else reg s k

/-- Committed DOMAIN values. -/
def mcCommit (k : Nat) (b : List Byte) : State → Applied :=
  if idxOf k = 0x3411 then wMtrConfig b else if idxOf k = 0x3413 then commitLoad mtrJob b else fun _ => .fail .readOnly

/-- DOMAIN values read. -/
def mcDomain (s : State) (k : Nat) : List Byte :=
  let m := meterOf s (reg s Reg.mtrSelect)
  if idxOf k = 0x3411 then beBytes 24 (m / 2 ^ 192)
  else if idxOf k = 0x3412 then beBytes 24 (m % 2 ^ 192)
  else blk s k

/-- Jobs. -/
def mcStart (k : Nat) : State → Applied :=
  if idxOf k = 0x3414 then startLoadJob mtrJob else startSweep

end Sys2Proof.Machine
end

