-- ==== Sys2Proof/Machine/LinePort.lean ====
section
/-! DEFINITION. The line ports (ch. 3): modes, link state, frame reception, flow control, FlexE, PRBS and loopback. -/

namespace Sys2Proof.Machine

/-! ### Modes, lanes, roles (R52–R56, R58, R59) -/

/-- FEC codes a mode permits besides 0x00 (Table — Port modes). -/
def fecPermitted (m f : Nat) : Bool :=
  f == 0 || (if m = 1 ∨ m = 3 then f == 1 else if m = 2 ∨ m = 5 then f == 1 || f == 2
    else if m = 0 then false else f == 3)

/-- Whether FEC applies to a port in effect. -/
def fecApplies (x : Port) : Bool :=
  if x.fec = 0 then x.mode != 1 && x.mode != 3 else x.fec != 1

/-- The lanes a mode takes at a slot. -/
def laneRange (p m : Nat) : List Nat := rangeFrom (firstLane p) (modeLanes m)

/-- The native slots of an LMAC island. -/
def nativeSlots (lmac : Nat) : List Nat := rangeFrom (32 * lmac) 8

/-- Lanes in use by a slot: the mode in effect and a held one (R54). -/
def lanesInUse (s : State) (p : Nat) : List Nat :=
  laneRange p (port s p).mode ++ laneRange p (reg s (Reg.portMode p))

/-- The native port or PHY whose mode in effect takes a lane. -/
def laneOwner (s : State) (l : Nat) : Option Nat :=
  (nativeSlots (l / 8)).find? (fun p => (laneRange p (port s p).mode).contains l)

/-- `lane_rate`. -/
def laneRate (s : State) (l : Nat) : Nat := match laneOwner s l with
  | some p => modeRate (port s p).mode
  | none => 0

/-- The lanes of a port: its own, or its group's PHYs'. -/
def portLanes (s : State) (p : Nat) : List Nat :=
  if reg s (Reg.portRole p) = 3 then
    (groupPhys s (pipeOf p) (flexeGroup s p)).flatMap (fun q => laneRange q (port s q).mode)
  else laneRange p (port s p).mode

/-- The PHYs behind a port: itself, or its group's. -/
def portPhys (s : State) (p : Nat) : List Nat :=
  if reg s (Reg.portRole p) = 3 then groupPhys s (pipeOf p) (flexeGroup s p) else [p]

/-- The FlexE type of a mode: 1 100G, 2 200G, 3 400G, 0 none (Table — FlexE PHY modes). -/
def phyType (m : Nat) : Nat :=
  if 5 ≤ m ∧ m ≤ 7 then 1 else if 8 ≤ m ∧ m ≤ 10 then 2 else if 11 ≤ m ∧ m ≤ 13 then 3 else 0

/-- The role of a slot from its mode and `port_flexe_group` (log entry 14). -/
def roleOf (s : State) (p : Nat) : Nat :=
  let g := reg s (Reg.portFlexeGroup p)
  if p % 32 < 8 then
    (if (port s p).mode = 0 then 0 else if bits g 31 30 = 1 ∧ phyType (port s p).mode ≠ 0 then 2 else 1)
  else if bits g 31 30 = 2 then 3 else 0

/-- Bring `port_role` up to date. -/
def setRole (s : State) (p : Nat) : State := setReg s (Reg.portRole p) (roleOf s p)

/-! ### Link (R56, R57) -/

/-- The conditions of R57 hold. -/
def linkCond (s : State) (p : Nat) : Bool :=
  let ls := portLanes s p
  !ls.isEmpty && flag s (Reg.portAdminUp p) && !(port s p).parked && !s.pwr.dark &&
  ls.all (fun l => flag s (Reg.laneSignal l) && reg s (Reg.lanePrbsMode l) == 0) &&
  (portPhys s p).all (fun q =>
    let x := port s q
    x.blockLock && !x.localFault && !x.remoteFault &&
      (!fecApplies x || (laneRange q x.mode).all (fun l => (mget {} s.lanes l).fecLock)))

/-- Receive statistics of a frame that ends: octets, packets and size bin (R73). -/
def rxCounted (s : State) (p l : Nat) : State := fbRxSize s p l

/-- The counters of a discard by the receive MAC. -/
def rxErrorCount (s : State) (p r : Nat) : State :=
  if r = 1 then fbCount (mainCount s p 0x44 1) p 0x93 1
  else if r = 2 then fbCount (mainCount s p 0x45 1) p 0x8F 1
  else if r = 3 then fbCount (mainCount s p 0x46 1) p 0x90 1
  else if r = 4 then fbCount (mainCount s p 0x47 1) p 0x91 1
  else if r = 5 then fbCount (mainCount s p 0x48 1) p 0x92 1
  else s

/-- The ingress MAC discards a packet of its own: before its enqueue it is discarded whole; afterwards its references that
wait are discarded with the reason, those begun end as R68 says, and its true length is known (R62, R68, R223, R269). -/
def macDiscard (s : State) (i r : Nat) (data : List Byte) : State :=
  match pkt? s i with
  | none => s
  | some p =>
    let s := correctionsDue s p.draws none
    let data := if p.cells.isEmpty then data else data.take (256 * p.cells.length)
    let s := writeCells s p.cells data
    let s := setPkt s i { p with bad := some r, data := data, draws := [], posts := [] }
    match p.stage with
    | .stored =>
      let copies := (s.pkts.filter (fun x => match x.2.copyOf with | some c => c.1 == i | none => false)).map (·.1)
      let s := copies.foldl (fun s j => purge s j r) (purge s i r)
      let s := match pkt? s i with
        | some p => if p.len.isSome then s else setPkt s i { p with len := some data.length }
        | none => s
      touchVoqs s
    | .fanout =>
      let s := { s with qm.fanout := (s.qm.fanout.map (fun x => (x.1, x.2.filter (· ≠ i)))).filter (fun x => !x.2.isEmpty) }
      let s := discard (queueLeft s) r (arrivalPort p) (pktCard s p none)
      freePkt s i
    | _ =>
      let s := { s with lmacs := s.lmacs.map (fun x => (x.1, { x.2 with held := x.2.held.filter (· ≠ i) })) }
      discardArrival s i r

/-- The bytes of an arriving packet land in cells of its pool as they stream (R218, R349): those from byte `a` on have come.
A store that cannot supply a cell ends it (R212, R220). -/
def landBytes (s : State) (i a : Nat) : State :=
  match pkt? s i with
  | none => s
  | some p =>
    match takeUpTo s p (max p.cells.length (cellsFor p.data.length)) with
    | .got cs s => setPkt (storeFrom s cs a p.data) i { p with cells := cs }
    | .short s => macDiscard s i 28 p.data
    | .fault s => macDiscard s i 29 p.data

/-- A discard of a frame for which the device holds no packet: not admitted, consumed, filtered. -/
def rxDiscard (s : State) (p r : Nat) (data : List Byte) : State :=
  discard { s with led.oRx := s.led.oRx - 1 } r (some p)
    { inPort := p, size := data.length + 4, data := [] }

/-- The frame in reception is lost to a link failure (R57). -/
def rxLost (s : State) (p : Nat) : State :=
  match (port s p).rx with
  | none => s
  | some x =>
    let s := setPort s p { port s p with rx := none }
    let n := x.win.length
    let r := if n < 64 then 3 else 1
    let s := rxCounted s p n
    if !x.admitted then s
    else
      let s := rxErrorCount s p r
      if x.reason = 0 then macDiscard s x.pkt r x.win else rxDiscard s p r x.win

/-- The reference of an Out is discarded at its egress port (R356 rule 4), and the Out is gone. -/
def dropOut (s : State) (o reason : Nat) : State :=
  match mfind s.outs o with
  | none => s
  | some x =>
    let p := nodeIdx x.root
    let at? : Option Nat := if nodeKind x.root = 0 then some p else
      (pkt? s x.ref.pkt).bind (if nodeKind x.root = 5 then voqAttr else linePort)
    let c := match pkt? s x.ref.pkt with
      | some k => pktCard s k (if nodeKind x.root = 0 then some p else none)
      | none => {}
    let s := { s with outs := mdel s.outs o, led.oOut := s.led.oOut - 1 }
    let s := if nodeKind x.root = 0 then setPort s p { port s p with dq := (port s p).dq.filter (· ≠ o) } else s
    releaseRef (discard s reason at? c) x.ref.pkt

/-- The link goes down; a lane condition also ends the frames in progress (R57). -/
def linkFails (s : State) (p : Nat) (lane : Bool) : State :=
  let was := linkUp s p
  let s := setPort s p { port s p with condSince := none }
  let s := setReg s (Reg.portLinkUp p) 0
  let s := if was then raise s (.port p) 0 else s
  if was && lane then
    let s := rxLost s p
    match (port s p).tx with
    | some t => dropOut (setPort s p { port s p with tx := none }) t.out 38
    | none => s
  else s

/-- Look at a port's link conditions after a change (R57). -/
def touchLink (s : State) (p : Nat) : State :=
  if linkCond s p then
    setPort s p { port s p with condSince := some ((port s p).condSince.getD s.time) }
  else if linkUp s p || (port s p).condSince.isSome then linkFails s p true else s

/-- The clients of a PHY's group. -/
def clientsOf (s : State) (p : Nat) : List Nat :=
  (rangeFrom (64 * pipeOf p) 64).filter (fun c => reg s (Reg.portRole c) == 3 && flexeGroup s c == flexeGroup s p)

/-- Look at a port and, for a PHY, its group's clients. -/
def touchLinks (s : State) (p : Nat) : State :=
  let s := touchLink s p
  if reg s (Reg.portRole p) = 2 then (clientsOf s p).foldl touchLink s else s

/-- Written mode and FEC take effect (R56). -/
def applyMode (s : State) (p : Nat) : State :=
  let x := port s p
  let m := reg s (Reg.portMode p)
  let s := setPort s p { x with mode := m, fec := reg s (Reg.portFec p),
                                blockLock := x.blockLock && m == x.mode, condSince := none }
  touchLinks (setRole s p) p

/-- A write of `port_mode` (R53, R54, R56, R59). -/
def wPortMode (p v : Nat) (s : State) : Applied :=
  let n := modeLanes v
  if 8 ≤ p % 32 ∨ 0x10 < v then .fail .refused
  else if !fecPermitted v (reg s (Reg.portFec p)) then .fail .refused
  else if v ≠ 0 ∧ (firstLane p % n ≠ 0 ∨
      (nativeSlots (lmacOf p)).any (fun q => q != p && (lanesInUse s q).any (laneRange p v).contains)) then .fail .refused
  else
    let s := setReg s (Reg.portMode p) v
    .done (if flag s (Reg.portAdminUp p) then s else applyMode s p)

/-- A write of `port_fec` (R53). -/
def wPortFec (p v : Nat) (s : State) : Applied :=
  if 3 < v ∨ !fecPermitted (reg s (Reg.portMode p)) v then .fail .refused
  else
    let s := setReg s (Reg.portFec p) v
    .done (if flag s (Reg.portAdminUp p) then s else applyMode s p)

/-- A write of `port_admin_up` (R56, R57); it also starts a port that start-up left down (R483). -/
def wPortAdminUp (p v : Nat) (s : State) : Applied :=
  let k := Reg.portAdminUp p
  let s := setPort s p { port s p with parked := false }
  if v = 0 then
    let s := linkFails (setReg s k 0) p false
    .done (if (port s p).mode ≠ reg s (Reg.portMode p) ∨ (port s p).fec ≠ reg s (Reg.portFec p) then applyMode s p else s)
  else .done (touchLink (setReg s k 1) p)

/-- PORT_MODE_WRITE (R56). -/
def execPortModeWrite (client : Client) (port value : Nat) (s : State) : Host.Outcome State Fault Refusal :=
  .next (writeRow s client (Reg.portMode port) value (wPortMode port value))

/-- PORT_FEC_WRITE (R53). -/
def execPortFecWrite (client : Client) (port value : Nat) (s : State) : Host.Outcome State Fault Refusal :=
  .next (writeRow s client (Reg.portFec port) value (wPortFec port value))

/-- PORT_ADMIN_UP_WRITE (R56). -/
def execPortAdminUpWrite (client : Client) (port value : Nat) (s : State) : Host.Outcome State Fault Refusal :=
  .next (writeRow s client (Reg.portAdminUp port) value (wPortAdminUp port value))

/-- LINK_UP (R57): every condition has held for `port_link_up_hold_ms`. -/
def execLinkUp (port : Nat) (s : State) : Host.Outcome State Fault Refusal :=
  match (Machine.port s port).condSince with
  | none => .next s
  | some t =>
    if linkUp s port = false ∧ linkCond s port ∧ t + reg s (Reg.portLinkUpHoldMs port) * 1000000 ≤ s.time then
      .next (raise (setReg s (Reg.portLinkUp port) 1) (.port port) 1)
    else .next s

/-- LINK_DOWN (R57): the PCS of a native port or PHY loses lock, and the link goes down. -/
def execLinkDown (port : Nat) (s : State) : Host.Outcome State Fault Refusal :=
  if port < 1024 ∧ port % 32 < 8 then
    .next (touchLinks (setPort s port { Machine.port s port with blockLock := false }) port)
  else .next s

/-- LINE_LANE_SIGNAL_CHANGE (R57): a lane's signal and FEC lock, and the PCS lock and fault state of the port it serves. -/
def execLineLaneSignalChange (lane : Nat) (signal fecLock blockLock localFault remoteFault : Bool) (s : State) :
    Host.Outcome State Fault Refusal :=
  if lane < 256 then
    let was := flag s (Reg.laneSignal lane)
    let s := setReg s (Reg.laneSignal lane) (b2n signal)
    let s := { s with lanes := mset {} s.lanes lane { mget {} s.lanes lane with fecLock := fecLock } }
    let s := if was && !signal then raise s (.lane lane) 0 else s
    match laneOwner s lane with
    | none => .next s
    | some p =>
      .next (touchLinks (setPort s p { port s p with
        blockLock := blockLock, localFault := localFault, remoteFault := remoteFault }) p)
  else .next s

/-! ### Reception (R61–R66, R218, R528) -/

/-- The PIPE holds back its LMACs (R179). -/
def pipeHolding (s : State) (p : Nat) : Bool := mget false s.ase.hold (pipeOf p)

/-- The ASE bank of a port's PIPE runs below full rate (R63, R178). -/
def bankThrottled (s : State) (p : Nat) : Bool := reg s (Reg.aseThrottleLevel (pipeOf p / 2)) != 0

/-- Bytes of an LMAC's receive buffer held or reserved (R64). -/
def bufferTaken (s : State) (lmac : Nat) : Nat :=
  let inRx := (rangeFrom (32 * lmac) 32).foldl (fun t p => match (port s p).rx with
    | some x => if x.admitted then t + x.maxFrame else t
    | none => t) 0
  let live := (rangeFrom (32 * lmac) 32).filterMap (fun p => ((port s p).rx).map (·.pkt))
  (mget {} s.lmacs lmac).held.foldl (fun t i =>
    if live.contains i then t else match pkt? s i with
      | some p => t + p.data.length
      | none => t) inRx

/-- Free headroom of a pool. -/
def headroomFree (s : State) (n : Nat) : Nat := reg s (Reg.poolHeadroom n) - headroomUse s n

/-- A frame of a port may cross now: its pool has headroom and its PIPE takes it (R218, R528). -/
def mayCross (s : State) (p m : Nat) : Bool :=
  decide (ceilDiv m 256 ≤ headroomFree s (rxPool s p)) && !pipeHolding s p

/-- The frame crosses: the most cells it may take are charged to headroom, its bytes so far land in cells and its window is at
the PIPE (R218, notes/assumptions/24). -/
def crosses (s : State) (i : Nat) : State :=
  match pkt? s i with
  | none => s
  | some p => landBytes (setPkt s i { p with stage := .window, hrPool := rxPool s p.inPort,
                                             hrCells := ceilDiv (p.len.getD p.maxFrame) 256 }) i 0

/-- The outcome of checks 3 and 4, known from the first 14 bytes: 8 consumed, 7 filtered, 0 passes (R62, R65, R66). -/
def earlyReason (filterOn : Bool) (filter : List Nat) (f : List Byte) : Nat :=
  if beAt f 12 2 = 0x8808 then 8
  else if filterOn && byteAt f 0 % 2 == 0 && !filter.contains (beAt f 0 6) then 7 else 0

/-- The enabled filter entries of a port. -/
def filterEntries (s : State) (p : Nat) : List Nat :=
  (bitList 8 (reg s (Reg.portDaEnable p))).map (fun i => reg s (Reg.portDaEntry p i))

/-- A port receives: it has a mode or a client's slots, its link is up and no frame is in reception. -/
def canReceive (s : State) (p : Nat) : Bool :=
  decide (p < 1024) && linkUp s p && (port s p).rx.isNone

/-- The d_timestamp of a frame: TIME at its message timestamp point, with the port's correction (R75, R130). -/
def rxStamp (s : State) (p frac : Nat) : Nat :=
  let t : Int := (timeNs s * 65536 + frac % 65536 : Nat)
  let c : Int := toSigned 32 (reg s (Reg.portPtpRxCorrPs p)) * 65536 / 1000
  (if flag s (Reg.portPtpEnable p) then t + c else t).toNat

/-- RX_FRAME_START (R62–R65, R472): the first bytes of a frame, all that come before anything else happens
(notes/assumptions/12), with the fraction of the nanosecond; `holding` says whether the searches asked of the bank make the port's PIPE hold back its LMACs now (R179). -/
def execRxFrameStart (port : Nat) (window : List Byte) (frac : Nat) (holding : Bool) (s : State) :
    Host.Outcome State Fault Refusal :=
  if canReceive s port then
    let s := { s with ase.hold := mset false s.ase.hold (pipeOf port) holding }
    let m := maxFrame s port
    let w := window.take (max 128 m)
    let s := { s with led.aLine := s.led.aLine + 1, led.oRx := s.led.oRx + 1 }
    let fOn := flag s (Reg.portDaFilterOn port)
    let fs := filterEntries s port
    let rx : Rx := { pkt := s.nextPkt, admitted := true, reason := earlyReason fOn fs w, maxFrame := m, filterOn := fOn,
                     filter := fs, win := w }
    if s.pwr.flushing then
      .next (setPort (rxDiscard s port 45 []) port { Machine.port s port with rx := some { rx with admitted := false, reason := 45 } })
    else if 524288 < bufferTaken s (lmacOf port) + m then
      let r := if bankThrottled s port && pipeHolding s port then 22 else 6
      let s := rxDiscard s port r []
      let s := mainCount (fbCount s port 0x95 1) port (if r = 6 then 0x49 else 0x4A) 1
      let s := raise s (.port port) 6
      .next (setPort s port { Machine.port s port with rx := some { rx with admitted := false, reason := r } })
    else
      let s := setPort s port { Machine.port s port with rx := some rx }
      if rx.reason ≠ 0 then .next s
      else
        let i := s.nextPkt
        let p : Pkt := { origin := .line port, inPort := port, stage := .held, win := w.take 128, data := w, maxFrame := m,
                         tsFrac := rxStamp s port frac, rxAt := s.time }
        let s := { setPkt s i p with nextPkt := i + 1 }
        let l := mget {} s.lmacs (lmacOf port)
        if l.held.isEmpty && mayCross s port m then .next (crosses s i)
        else .next { s with lmacs := mput s.lmacs (lmacOf port) { held := l.held ++ [i], paused := true } }
  else .next s

/-- The outcome by length and FCS (Table — Receive outcome by length). -/
def lengthReason (l m : Nat) (good : Bool) : Nat :=
  if l ≤ 63 then (if good then 2 else 3) else if l ≤ m then (if good then 0 else 1) else if good then 4 else 5

/-- The time `n` quanta take on a port, in ns (R70). -/
def quantaNs (s : State) (p n : Nat) : Nat := if portSpeed s p = 0 then 0 else ceilDiv (n * 512) (portSpeed s p)

/-- A pause time for one state: obeyed unless its egg hold runs (R70, R72). -/
def obeyPause (s : State) (p i n : Nat) : State :=
  let x := port s p
  if (mfind x.eggHold i).isSome then s
  else if n = 0 then setPort s p { x with pause := mdel x.pause i }
  else
    let since := match mfind x.pause i with
      | some y => if s.time < y.ends then y.since else s.time
      | none => s.time
    setPort s p { x with pause := mput x.pause i { ends := s.time + quantaNs s p n, since := since } }

/-- A consumed control frame is counted and, where R66 says so, acted on. -/
def consumeControl (s : State) (p : Nat) (rx : Rx) (f : List Byte) : State :=
  let op := beAt f 14 2
  let s := mainCount s p 0x4C 1
  let s := if op = 1 then fbCount s p 0x97 1
    else if op = 0x0101 then (bitList 8 (beAt f 16 2)).foldl (fun s i => fbCount s p (0x98 + i) 1) s else s
  let da := beAt f 0 6
  if da = 0x0180C2000001 ∨ rx.filter.contains da then
    if op = 1 ∧ reg s (Reg.portFcMode p) = 1 then obeyPause s p 8 (beAt f 16 2)
    else if op = 0x0101 ∧ reg s (Reg.portFcMode p) = 2 then
      (bitList 8 (Nat.land (beAt f 16 2) (reg s (Reg.portPfcEnableMask p)))).foldl
        (fun s i => obeyPause s p i (beAt f (18 + 2 * i) 2)) s
    else s
  else s

/-- Counters of a good frame: address class and tag (R73). -/
def goodCounted (s : State) (p : Nat) (f : List Byte) : State :=
  let s := fbCount s p (0x82 + addrClass f) 1
  if beAt f 12 2 = 0x8100 ∨ beAt f 12 2 = 0x88A8 then fbCount s p 0x94 1 else s

/-- An accepted frame: its length and bytes are known, without the FCS. -/
def rxAccepted (s : State) (p i : Nat) (f : List Byte) : State :=
  let s := mainCount (mainCount s p 0x40 1) p 0x41 f.length
  match pkt? s i with
  | none => s
  | some k =>
    let s := postCounters (correctionsDue s k.draws (some f.length)) k.posts f.length
    let s := setPkt s i { k with len := some (f.length - 4), data := f.take (f.length - 4), bad := some 0, draws := [], posts := [],
                                 hrCells := if k.hrPool = 32 then 0 else ceilDiv (f.length - 4) 256 }
    if k.stage = .held then s else landBytes s i k.data.length

/-- A frame that was admitted ends (R62). -/
def rxEnds (s : State) (p : Nat) (rx : Rx) (f : List Byte) : State :=
  let s := rxCounted s p f.length
  let r := lengthReason f.length rx.maxFrame (fcsGood f)
  if r ≠ 0 then
    let s := rxErrorCount s p r
    if rx.reason = 0 then macDiscard s rx.pkt r (f.take (min (f.length - 4) rx.maxFrame)) else rxDiscard s p r f
  else
    let s := goodCounted s p f
    if rx.reason = 8 then rxDiscard (consumeControl s p rx f) p 8 f
    else if rx.reason = 7 then rxDiscard (mainCount (fbCount s p 0x96 1) p 0x4B 1) p 7 f
    else rxAccepted s p rx.pkt f

/-- RX_FRAME_END (R62): the whole frame, destination address to FCS; it must continue what its start brought. -/
def execRxFrameEnd (port : Nat) (frame : List Byte) (s : State) : Host.Outcome State Fault Refusal :=
  match (Machine.port s port).rx with
  | none => .next s
  | some rx =>
    if rx.win = frame.take rx.win.length ∧ min 128 frame.length ≤ rx.win.length then
      let s := setPort s port { Machine.port s port with rx := none }
      if rx.admitted then .next (rxEnds s port rx frame) else .next (rxCounted s port frame.length)
    else .next s

/-- The held frames that may cross do, in order (R528). -/
def drainHeld : Nat → State → Nat → State
  | 0, s, _ => s
  | f + 1, s, n =>
    match (mget {} s.lmacs n).held with
    | [] => { s with lmacs := mset {} s.lmacs n {} }
    | i :: rest => match pkt? s i with
      | none => drainHeld f { s with lmacs := mput s.lmacs n { held := rest, paused := true } } n
      | some p =>
        if mayCross s p.inPort p.maxFrame then
          drainHeld f (crosses { s with lmacs := mput s.lmacs n { held := rest, paused := true } } i) n
        else s

/-- LMAC_DRAIN_RESUME (R528): the PIPE holds back no longer, and what has headroom crosses. -/
def execLmacDrainResume (lmac : Nat) (s : State) : Host.Outcome State Fault Refusal :=
  let s := { s with ase.hold := mset false s.ase.hold (lmac / 2) false }
  .next (drainHeld ((mget {} s.lmacs lmac).held.length + 1) s lmac)

/-! ### Pause and the egg timer (R70–R72) -/

/-- PAUSE_TIME_EXPIRY (R70): state 0 to 7 is a priority, 8 the link. -/
def execPauseTimeExpiry (port state : Nat) (s : State) : Host.Outcome State Fault Refusal :=
  match mfind (Machine.port s port).pause state with
  | some x =>
    if x.ends ≤ s.time then .next (setPort s port { Machine.port s port with pause := mdel (Machine.port s port).pause state })
    else .next s
  | none => .next s

/-- PAUSE_RESEND (R71): half of the time sent has passed since the last XOFF frame. -/
def execPauseResend (port state : Nat) (s : State) : Host.Outcome State Fault Refusal :=
  match mfind (Machine.port s port).xoff state with
  | some t =>
    if quantaNs s port (reg s (Reg.portPauseQuanta port)) ≤ 2 * (s.time - t) then .next (sendXoff s port state true)
    else .next s
  | none => .next s

/-- Whole microsecond ticks of TIME since an instant (R72). -/
def ticksSince (s : State) (t : Nat) : Nat := s.time / 1000 - t / 1000

/-- EGG_TIMER_FIRE (R72): at a microsecond tick, a paused state has lasted `port_egg_time_ms`. -/
def execEggTimerFire (port state : Nat) (s : State) : Host.Outcome State Fault Refusal :=
  let x := Machine.port s port
  match mfind x.pause state with
  | some y =>
    if s.time < y.ends ∧ timeNs s % 1000 = 0 ∧ flag s (Reg.portEggEnable port) ∧
        reg s (Reg.portEggTimeMs port) * 1000 ≤ ticksSince s y.since then
      let s := setPort s port { x with pause := mdel x.pause state, eggHold := mput x.eggHold state s.time }
      let s := setReg s (Reg.portEggState port) (setBit (reg s (Reg.portEggState port)) state)
      .next (raise (mainCount s port 0x4F 1) (.port port) 2)
    else .next s
  | none => .next s

/-- EGG_HOLD_END (R72). -/
def execEggHoldEnd (port state : Nat) (s : State) : Host.Outcome State Fault Refusal :=
  let x := Machine.port s port
  match mfind x.eggHold state with
  | some t =>
    if timeNs s % 1000 = 0 ∧ reg s (Reg.portEggHoldMs port) * 1000 ≤ ticksSince s t then
      let s := setPort s port { x with eggHold := mdel x.eggHold state }
      .next (setReg s (Reg.portEggState port) (clearBit (reg s (Reg.portEggState port)) state))
    else .next s
  | none => .next s

/-! ### Reads -/

/-- PORT_TS_FIFO_READ (R79): the entries go out and are removed. -/
def execPortTsFifoRead (client : Client) (port : Nat) (s : State) : Host.Outcome State Fault Refusal :=
  let x := Machine.port s port
  .next (domainRead s client (Reg.portTsFifo port) x.ts.flatten (fun s => setPort s port { x with ts := [] }))

/-- PORT_STATS_READ_CLEAR (R73): counter 0 to 15 of the main set; only the PF reads it. -/
def execPortStatsReadClear (client : Client) (port counter : Nat) (s : State) : Host.Outcome State Fault Refusal :=
  let k := keyIf (decide (port < 1024) && decide (counter < 16)) (key (0x2000 + port) (0x40 + counter))
  .next (readRow s client k (reg s k) (fun s => setReg s k 0))

/-! ### FlexE (R58–R60) -/

/-- The clients of a group whose slot count differs between a PHY's two calendars. -/
def changedClients (s : State) (p : Nat) : List Nat :=
  let n := 2 * (modeSpeed (port s p).mode / 5)
  let b := blk s (Reg.portFlexeCalendar p)
  (clientsOf s p).filter (fun c =>
    let id := reg s (Reg.portFlexeClientId c)
    clientSlots (slice b 0 n) id != clientSlots (slice b n n) id)

/-- Hold or release clients. -/
def holdClients (s : State) (l : List Nat) (on : Bool) : State :=
  l.foldl (fun s c => setPort s c { port s c with clientHeld := on }) s

/-- A start of `port_flexe_cal_switch` (R60): the handshake begins, and changing clients are held. -/
def startCalSwitch (p : Nat) (s : State) : Applied :=
  if reg s (Reg.portRole p) ≠ 2 then .fail .refused
  else
    let s := setPort s p { port s p with calSwitch := some s.time }
    let s := holdClients s (changedClients s p) true
    .done (emit s (.flexeOverhead p (b2n (!(port s p).calB))))

/-- The job ends, either way (R81). -/
def calSwitchEnd (s : State) (p result : Nat) : State :=
  let s := setPort s p { port s p with calSwitch := none }
  let s := holdClients s (clientsOf s p) false
  raise (jobEnd s (Reg.portFlexeCalSwitch p) result) (.port p) 8

/-- FLEXE_CAL_SWITCH (R60). -/
def execFlexeCalSwitch (client : Client) (port : Nat) (s : State) : Host.Outcome State Fault Refusal :=
  let k := Reg.portFlexeCalSwitch port
  .next (concludeJob s client k (jobStartWith s client k (startCalSwitch port)))

/-- FLEXE_CAL_SWITCH_ACK (R60): the calendars change over, and the clients resume. -/
def execFlexeCalSwitchAck (port : Nat) (s : State) : Host.Outcome State Fault Refusal :=
  match (Machine.port s port).calSwitch with
  | none => .next s
  | some _ =>
    let x := Machine.port s port
    .next (calSwitchEnd (setPort s port { x with calB := !x.calB }) port 0)

/-- FLEXE_CAL_SWITCH_TIMEOUT (R60): more than 100 ms have passed; the result code is not stated (log entry 20). -/
def execFlexeCalSwitchTimeout (port : Nat) (s : State) : Host.Outcome State Fault Refusal :=
  match (Machine.port s port).calSwitch with
  | none => .next s
  | some t => if t + 100000000 < s.time then .next (calSwitchEnd s port 1) else .next s

/-- FLEXE_GROUP_FAULT (R81). -/
def execFlexeGroupFault (port : Nat) (s : State) : Host.Outcome State Fault Refusal :=
  if reg s (Reg.portRole port) = 2 then .next (raise s (.port port) 7) else .next s

/-- A write of `port_flexe_group` (R58, R59; log entry 14). -/
def wFlexeGroup (p v : Nat) (s : State) : Applied :=
  let role := bits v 31 30
  let g := v % 2 ^ 20
  let t := setRole (setReg s (Reg.portFlexeGroup p) v) p
  let phys := groupPhys t (pipeOf p) g
  let groups := (rangeFrom (64 * pipeOf p) 64).foldl (fun l q =>
    if reg t (Reg.portRole q) = 2 ∧ !l.contains (flexeGroup t q) then flexeGroup t q :: l else l) ([] : List Nat)
  if role = 3 ∨ bits v 29 20 ≠ 0 then .fail .refused
  else if role = 0 then (if g = 0 then .done t else .fail .refused)
  else if g = 0 ∨ g = 0xFFFFF then .fail .refused
  else if role = 1 then
    if 8 ≤ p % 32 ∨ phyType (reg s (Reg.portMode p)) = 0 ∨ 8 < phys.length ∨ 8 < groups.length ∨
        phys.any (fun q => phyType (port s q).mode != phyType (port s p).mode) then .fail .refused
    else .done (touchLinks t p)
  else if p % 32 < 8 then .fail .refused else .done (touchLink t p)

/-- A write of `port_flexe_calendar` (R60, log entry 14): calendar A then B; while the port is up only the inactive one may
change. -/
def wFlexeCalendar (p : Nat) (b : List Byte) (s : State) : Applied :=
  let n := 2 * (modeSpeed (port s p).mode / 5)
  let x := port s p
  let old := padTo (blk s (Reg.portFlexeCalendar p)) (2 * n)
  if reg s (Reg.portRole p) ≠ 2 then .fail .refused
  else if b.length ≠ 2 * n then .fail .refused
  else if flag s (Reg.portAdminUp p) && slice b (if x.calB then n else 0) n != slice old (if x.calB then n else 0) n then
    .fail .refused
  else .done (setBlk s (Reg.portFlexeCalendar p) b)

/-! ### PRBS and loopback (R77, R78) -/

/-- Whether a pattern suits a lane rate's modulation. -/
def prbsSuits (rate v : Nat) : Bool :=
  v == 0 || (if rate = 1 ∨ rate = 2 then v == 1 || v == 2 || v == 4 || v == 5 || v == 6
    else if 3 ≤ rate then v == 3 || v == 7 else false)

/-- A write of `lane_prbs_mode` (R77, R80). -/
def wLanePrbs (l v : Nat) (s : State) : Applied :=
  if 7 < v ∨ !prbsSuits (laneRate s l) v then .fail .refused
  else
    let s := setReg s (Reg.lanePrbsMode l) v
    let s := { s with lanes := mset {} s.lanes l { mget {} s.lanes l with prbsLock := false } }
    let s := emit s (.lanePattern l v)
    .done (match laneOwner s l with
      | some p => touchLinks s p
      | none => s)

/-- A write of `lane_loopback` (R78). -/
def wLaneLoopback (l v : Nat) (s : State) : Applied :=
  let old := reg s (Reg.laneLoopback l)
  if 2 < v ∨ (old ≠ 0 ∧ v ≠ 0 ∧ v ≠ old) then .fail .refused else .done (setReg s (Reg.laneLoopback l) v)

/-- LANE_PRBS_MODE_WRITE (R77). -/
def execLanePrbsModeWrite (client : Client) (lane value : Nat) (s : State) : Host.Outcome State Fault Refusal :=
  .next (writeRow s client (Reg.lanePrbsMode lane) value (wLanePrbs lane value))

/-- LANE_LOOPBACK_WRITE (R78). -/
def execLaneLoopbackWrite (client : Client) (lane value : Nat) (s : State) : Host.Outcome State Fault Refusal :=
  .next (writeRow s client (Reg.laneLoopback lane) value (wLaneLoopback lane value))

/-- LANE_PRBS_ERRORS_READ (R80): the errors the checker has seen since the last report are added first. -/
def execLanePrbsErrorsRead (client : Client) (lane errors : Nat) (s : State) : Host.Outcome State Fault Refusal :=
  let k := Reg.lanePrbsErrors lane
  let s := if (mget {} s.lanes lane).prbsLock then countSat s 32 k errors else s
  .next (readRow s client k (reg s k) (fun s => setReg s k 0))

/-- A lane's far loopback sends packets of its port nowhere (R78). -/
def farLooped (s : State) (p : Nat) : Bool := (portLanes s p).any (fun l => reg s (Reg.laneLoopback l) == 2)

/-! ### Entries -/

/-- The writes of port and lane entries. -/
def lineWrite (k v : Nat) : State → Applied :=
  let p := idxOf k - 0x2000
  let l := idxOf k - 0x2400
  if idxOf k < 0x2400 then
    match subOf k with
    | 0x01 => wPortMode p v
    | 0x02 => wPortAdminUp p v
    | 0x04 => wPortFec p v
    | 0x12 => fun s => if 2 < v then .fail .refused else .done (setReg s k v)
    | 0x20 => wFlexeGroup p v
    | _ => storeRule k v
  else match subOf k with
    | 0x06 => wLanePrbs l v
    | 0x08 => wLaneLoopback l v
    | _ => storeRule k v

/-- The values of port and lane entries that are not stored. -/
def lineRead (s : State) (k : Nat) : Nat :=
  if 0x2400 ≤ idxOf k ∧ subOf k = 0 then laneRate s (idxOf k - 0x2400) else reg s k

end Sys2Proof.Machine
end

