-- ==== Sys2Proof/Machine/Pm.lean ====
section
/-! DEFINITION. Performance monitoring (R308–R310): the classification of a second, unavailability, and the bins. -/

namespace Sys2Proof.Machine

/-- The bin of a TIME second's kind, with the second it began. -/
def PmBin.fresh (sec : Nat) : PmBin := { began := sec }

/-- An errored frame or its absence. -/
def PmEnd.frame (x : PmEnd) (n : Nat) : PmEnd :=
  if n = 0 then x else { x with frames := x.frames + 1, errors := x.errors + n }

/-- A defect, or one that makes the second severe. -/
def PmEnd.mark (x : PmEnd) (severe : Bool) : PmEnd := { x with defect := true, severe := x.severe || severe }

/-- Adjust the bins that hold a second (R309). -/
def PmEnd.adjust (x : PmEnd) (sec : Nat) (f : PmBin → PmBin) : PmEnd :=
  let g := fun (b : PmBin) => let c := f b; { c with flags := setBit c.flags 1 }
  let x := if x.quarter.began ≤ sec then { x with quarter := g x.quarter }
    else { x with quarters := (x.quarters.take 1).map g ++ x.quarters.drop 1 }
  if x.day.began ≤ sec then { x with day := g x.day } else { x with days := (x.days.take 1).map g ++ x.days.drop 1 }

/-- Count one second in the current bins. -/
def PmEnd.count (x : PmEnd) (f : PmBin → PmBin) : PmEnd := { x with quarter := f x.quarter, day := f x.day }

/-- The second that ends is classified (R308, R309): `sec` is its TIME second. -/
def PmEnd.second (x : PmEnd) (sec : Nat) : PmEnd :=
  let ses := decide (457764 ≤ x.frames) || x.severe
  let es := decide (0 < x.frames) || x.defect || ses
  let n := x.errors
  let x := x.count (fun b => { b with errors := b.errors + n })
  let x := { x with frames := 0, errors := 0, defect := false, severe := false, last := ((sec, es, ses) :: x.last).take 10 }
  if x.down then
    let x := x.count (fun b => { b with uas := b.uas + 1 })
    if x.last.length = 10 ∧ x.last.all (fun y => !y.2.2) then
      x.last.foldl (fun x y => x.adjust y.1 (fun b => { b with uas := b.uas - 1, es := b.es + b2n y.2.1 }))
        { x with down := false }
    else x
  else
    let x := x.count (fun b => { b with es := b.es + b2n es, ses := b.ses + b2n ses })
    if x.last.length = 10 ∧ x.last.all (fun y => y.2.2) then
      x.last.foldl (fun x y => x.adjust y.1 (fun b => { b with uas := b.uas + 1, es := b.es - 1, ses := b.ses - 1 }))
        { x with down := true }
    else x

/-- A second that starts now may close bins (R310); true: a 15-minute bin closed. -/
def PmEnd.close (x : PmEnd) (sec : Nat) : PmEnd :=
  let x := if sec % 900 = 0 then
      { x with quarters := (x.quarter :: x.quarters).take 96, quarter := PmBin.fresh sec } else x
  if sec % 86400 = 0 then { x with days := [x.day], day := PmBin.fresh sec } else x

/-- The bytes of a record (R310). -/
def PmBin.bytes (b : PmBin) : List Byte :=
  beBytes 4 b.es ++ beBytes 4 b.ses ++ beBytes 4 b.uas ++ beBytes 4 b.flags ++ beBytes 8 b.errors

/-- `fl_pm_current` and `fb_pm_current`. -/
def pmCurrent (near far : PmEnd) : List Byte :=
  near.quarter.bytes ++ near.day.bytes ++ far.quarter.bytes ++ far.day.bytes

/-- One end's history: 96 + 1 records, newest first; those not yet made read as zeros. -/
def PmEnd.history (x : PmEnd) : List Byte :=
  padTo (x.quarters.flatMap PmBin.bytes) (96 * 24) ++ padTo (x.days.flatMap PmBin.bytes) 24

/-- `fl_pm_history` and `fb_pm_history`. -/
def pmHistory (near far : PmEnd) : List Byte := near.history ++ far.history

end Sys2Proof.Machine
end

