-- ==== Sys2Proof/Machine/Reach.lean ====
section
/-! DEFINITION. Reachability (R334–R339): records of destinations, their states, and what a state change does to VOQs and
grant contexts; and the credit entries that wait for a pennant (R344). -/

namespace Sys2Proof.Machine

/-- The bundle's record. -/
def bundle (s : State) (b : Nat) : FBundle := mget {} s.fl.bundles b
def setBundle (s : State) (b : Nat) (x : FBundle) : State := { s with fl.bundles := mset {} s.fl.bundles b x }

/-- The fabric lane's record. -/
def flane (s : State) (l : Nat) : FLane := mget {} s.fl.lanes l
def setFlane (s : State) (l : Nat) (x : FLane) : State := { s with fl.lanes := mset {} s.fl.lanes l x }

/-- The record of a device. -/
def destRec (s : State) (d : Nat) : DestRec := mget {} s.ft.recs d
def setDestRec (s : State) (d : Nat) (x : DestRec) : State := { s with ft.recs := mset {} s.ft.recs d x }

/-- Element `i` of a list of numbers. -/
def natAt (l : List Nat) (i : Nat) : Nat := (l.drop i).head?.getD 0

/-- Replace it. -/
def putAt (l : List Nat) (i v : Nat) : List Nat := l.take i ++ [v] ++ l.drop (i + 1)

/-- The best distance D of a device; 0xFFFF none (R334). -/
def bestDist (s : State) (d : Nat) : Nat := (destRec s d).dist.foldl min 0xFFFF

/-- The route set (R334, R335): the bundles at the best distance, those left out by `ft_bundle_route_enable` apart. -/
def routeSet (s : State) (d : Nat) : List Nat :=
  let m := bestDist s d
  (List.range 8).filter (fun b =>
    natAt (destRec s d).dist b == m && m != 0xFFFF && bit (reg s Reg.ftBundleRouteEnable) b)

/-- The route set as a mask. -/
def routeMask (s : State) (d : Nat) : Nat := (routeSet s d).foldl (fun m b => m + 2 ^ b) 0

/-- Whether a device's state is reachable: PROBING or REACHABLE (R336). -/
def destReachable (s : State) (d : Nat) : Bool := destState s d == 1 || destState s d == 2

/-- A probe to a destination (R337); its time is written as its pennant enters the FABX. -/
def probeDest (s : State) (d : Nat) : State :=
  let s := setDestRec s d { destRec s d with probeAt := some s.time, silent := (destRec s d).silent + 1 }
  gatherEntry s d 7 (creditEntry 0 0 5 0 0 0)

/-- Every reference a queue holds is discarded with one reason, and its pages go back. -/
def flushQueue (s : State) (q reason : Nat) : State :=
  let x := queue s q
  let s := setQueue s q { x with refs := [], staged := [], backlog := [], pages := [], packOff := 0, opened := 0, spilled := false,
                                 qs := 0, qc := 0 }
  let s := (x.refs ++ x.staged ++ (x.backlog.filter (fun r => !r.packed)).map (·.ref)).foldl
    (fun s r => discardHeld s q r reason) s
  let s := (x.backlog.filter (·.packed)).foldl (fun s r =>
    let at? : Option Nat := if qType s q = 1 then queuePort s q else match r.ref.origin with
      | .line p => some p
      | _ => none
    queueLeft (discard s reason at? { inPort := dInPort r.ref.desc, cls := dClass r.ref.desc })) s
  freeUnits s 1 x.pages

/-- The VOQs bound to a device. -/
def voqsOf (s : State) (d : Nat) : List Nat :=
  (typedQueues s).filter (fun q => qType s q == 3 && voqBound (qWord s q) && voqDevice (qWord s q) == d)

/-- R338: what waits for a lost destination is discarded, and its VOQs' credit becomes zero. -/
def dropWaiting (s : State) (d : Nat) : State :=
  (voqsOf s d).foldl (fun s q =>
    let s := flushQueue s q 31
    { s with qm.voqs := mset {} s.qm.voqs q { mget {} s.qm.voqs q with b := 0, r := 0, creditSince := none } }) s

/-- Enter a reachability state (R336). -/
def enterDest (s : State) (d st : Nat) : State :=
  let old := destState s d
  let s := { s with ft.dest := mset 0 s.ft.dest d st }
  let s := if st = 0 ∧ old ≠ 0 then
      let s := dropWaiting (raise s .ft 1) d
      let s := { s with ft.grants := s.ft.grants.filter (fun x => x.1 / 8192 != d) }
      setDestRec s d { destRec s d with startOwed := true, silent := 0, probeAt := none }
    else s
  let s := if st = 2 ∧ old = 1 then raise s .ft 0 else s
  let s := if st = 3 ∧ old ≠ 3 then dropWaiting (raise s .ft 2) d else s
  let s := if st = 1 ∧ old = 0 then probeDest s d else s
  setReg s Reg.ftDestReachable ((s.ft.dest.filter (fun x => x.2 == 1 || x.2 == 2)).length)

/-- The route set of a device changed (R336). -/
def routeChanged (s : State) (d : Nat) : State :=
  if (routeSet s d).isEmpty then (if destState s d = 0 then s else touchVoqs (enterDest s d 0))
  else if destState s d = 0 then enterDest s d 1 else s

/-- A bundle enters a path defect: every distance over it is gone at once (R335). -/
def bundleDown (s : State) (b : Nat) : State :=
  (mkeys s.ft.recs).foldl (fun s d =>
    if natAt (destRec s d).dist b = 0xFFFF then s
    else
      let r := destRec s d
      routeChanged (setDestRec s d { r with dist := putAt r.dist b 0xFFFF, miss := putAt r.miss b 0 }) d) s

end Sys2Proof.Machine
end

