-- ==== Sys2Proof/Machine/Bunting.lean ====
section
/-! DEFINITION. Bunting frames, received (ch. 12): codeword lock, the alignment hunt, section checks, the pointer interpreter,
containers, defects, lane-set slots and the management channel. -/

namespace Sys2Proof.Machine

/-! ### Codes (R291–R293, R301, R302) -/

/-- The frame alignment word. -/
def fawWord : Nat := 0x4EB17A0D

/-- CRC-8 over bytes 4 to 14 (R291). -/
def crc8 (l : List Byte) : Nat := crcFwd 8 0x07 0 l

/-- CRC-16 (R301, R323). -/
def crc16 (l : List Byte) : Nat := crcFwd 16 0x1021 0xFFFF l

/-- One byte of the keystream and the scrambler's next state (R292). -/
def scrambleStep (st : Nat) : Nat × Nat :=
  (List.range 8).foldl (fun (r : Nat × Nat) _ =>
    let k := b2n (bit r.2 22 != bit r.2 17)
    (r.1 * 2 + k, (r.2 * 2 + k) % 2 ^ 23)) (0, st)

/-- Scramble or descramble bytes from byte 64 of a frame on (R292). -/
def scramble : Nat → List Byte → List Byte
  | _, [] => []
  | st, b :: r => let k := scrambleStep st; (b ^^^ byte k.1) :: scramble k.2 r

/-- The scrambler's state at byte 64. -/
def scramblerStart : Nat := 0x7FFFFF

/-- BIP-8: the exclusive or of bytes (R293). -/
def bip8 (l : List Byte) : Nat := l.foldl (fun t b => Nat.xor t b.toNat) 0

/-- BIP-16: the exclusive or of 16-bit words (R302). -/
def bip16 : List Byte → Nat
  | a :: b :: r => Nat.xor (a.toNat * 256 + b.toNat) (bip16 r)
  | [a] => a.toNat * 256
  | [] => 0

/-! ### Lanes and defects (R307) -/

/-- The bundle of a lane. -/
def bundleOf (l : Nat) : Nat := l / 40

/-- The lanes of a bundle. -/
def bundleLanes (b : Nat) : List Nat := rangeFrom (40 * b) 40

/-- A lane in PRBS or loopback sends and hunts no frames (R319). -/
def laneTest (s : State) (l : Nat) : Bool := flag s (Reg.flPrbsMode l) || flag s (Reg.flLoopback l)

/-- The framed lane that carries a lane ID. -/
def laneOfId (s : State) (b i : Nat) : Option Nat :=
  (bundleLanes b).find? (fun l => (flane s l).locked && reg s (Reg.flRxLaneId l) == i)

/-- The committed lane IDs of a mask, ascending. -/
def idsOf (mask : Nat) : List Nat := bitList 40 mask

/-- The path defects as they stand (Table — Defects): bit k for cause k of `fb_cause`. -/
def pathDefects (s : State) (b : Nat) : Nat :=
  let x := bundle s b
  let set := reg s (Reg.fbRxLaneSet b)
  let fail := (idsOf set).any (fun i => match laneOfId s b i with
    | some l => flag s (Reg.flDefects l)
    | none => true)
  let src := match x.src with
    | some v => flag s (Reg.fbSrcCheck b) && v != maskBits (reg s (Reg.fbSrcExpected b)) 0xFFFFF7
    | none => false
  let tim := flag s (Reg.fbTimEnable b) && decide (3 ≤ x.traceRun) &&
    blk s (Reg.fbTraceRx b) != padTo (blk s (Reg.fbTraceExpected b)) 64
  b2n fail + b2n (reg s (Reg.fbPtrState b) == 1) * 2 + b2n (reg s (Reg.fbPtrState b) == 2) * 4 + b2n (x.label == some 0) * 8 +
    b2n (match x.label with | some v => decide (2 ≤ v) | none => false) * 16 +
    b2n (match x.count with | some v => v != popCount 40 set | none => false) * 32 + b2n tim * 64 + b2n src * 128

/-- Look at a bundle's path defects: each entered one sets its cause, and the first one empties the bundle's distances
(R307, R335). With no committed set there is no path to judge. -/
def touchPath (s : State) (b : Nat) : State :=
  let old := reg s (Reg.fbPathDefects b)
  let now := if reg s (Reg.fbRxLaneSet b) = 0 then 0 else pathDefects s b
  let s := setReg s (Reg.fbPathDefects b) now
  let s := (bitList 8 (dropBits now (Nat.land now old))).foldl (fun s k => raise s (.fb b) k) s
  let s := if now ≠ 0 then setBundle s b { bundle s b with near := (bundle s b).near.mark (bits now 2 1 != 0) } else s
  if old = 0 ∧ now ≠ 0 then bundleDown s b else s

/-- A lane enters or leaves a section defect (R307). -/
def sectionDefect (s : State) (l k : Nat) (on : Bool) : State :=
  let old := reg s (Reg.flDefects l)
  if bit old k = on then s
  else
    let new := if on then setBit old k else clearBit old k
    let s := setReg s (Reg.flDefects l) new
    let x := flane s l
    let s := setFlane s l { x with defectAt := if new = 0 then none else some (x.defectAt.getD s.time),
                                   near := if on then x.near.mark (k == 2) else x.near }
    let s := if on then raise s (.fl l) k else s
    touchPath s (bundleOf l)

/-- A run of frames that contradict a defect's state: at the third the state turns (Table — Defects). -/
def runStep (s : State) (l k : Nat) (bad : Bool) (run : Nat) : Nat × State :=
  if bad = bit (reg s (Reg.flDefects l)) k then (0, s)
  else if run + 1 < 3 then (run + 1, s)
  else (0, sectionDefect s l k bad)

/-- Frame lock is lost (R305, R318). -/
def loseFrame (s : State) (l : Nat) : State :=
  let b := bundleOf l
  let s := setFlane s l { flane s l with locked := false, misses := 0, cands := [], bip := none, slots := [], word := none,
                                         units := [], acc := [] }
  let s := setReg s (Reg.flRxLaneId l) 0xFF
  let s := if (bundle s b).mgLane = some l then setBundle s b { bundle s b with mgBusy := false, mgIn := [] } else s
  sectionDefect s l 2 true

/-- FEC_CODEWORD_DECODE (R287): outcome 0 good, 1 corrected, 2 uncorrectable. -/
def execFecCodewordDecode (lane outcome : Nat) (s : State) : Host.Outcome State Fault Refusal :=
  if 320 ≤ lane ∨ 2 < outcome ∨ s.pwr.dark then .next s
  else
    let s := if outcome = 1 then count1 s (Reg.flFecCorrected lane)
      else if outcome = 2 then raise (count1 s (Reg.flFecUncorrected lane)) (.fl lane) 6 else s
    let x := flane s lane
    let good := outcome != 2
    if good != x.cwLock then
      if x.cwRun + 1 < 8 then .next (setFlane s lane { x with cwRun := x.cwRun + 1 })
      else
        let s := setFlane s lane { x with cwRun := 0, cwLock := good }
        let s := sectionDefect s lane 1 (!good)
        .next (if good then sectionDefect s lane 2 true else loseFrame s lane)
    else .next (setFlane s lane { x with cwRun := 0 })

/-! ### The hunt (R305) -/

/-- A frame at a candidate's offset: the candidates left, and whether it makes the third hit. -/
def huntStep (cs : List Cand) (off : Nat) (f : List Byte) : List Cand × Bool :=
  let faw := beAt f 0 4 == fawWord
  let good := faw && crc8 (slice f 4 11) == byteAt f 15
  let mf := byteAt f 5
  let others := cs.filter (fun c => c.off ≠ off)
  let first := if faw && good && decide (others.length < 8) then (others ++ [{ off := off, hits := 1, next := (mf + 1) % 64 }], false)
    else (others, false)
  match cs.find? (fun c => c.off = off) with
  | none => if cs.length < 8 then first else (cs, false)
  | some c =>
    if good && mf == c.next then
      if c.hits + 1 = 3 then ([], true)
      else (others ++ [{ c with hits := c.hits + 1, next := (mf + 1) % 64 }], false)
    else first

/-! ### The pointer interpreter (R300) -/

/-- What a frame's pointer word does to the container: nothing new, an increment, a decrement, or a start at a value. -/
inductive PtrStep where
  | none | inc | dec | start (v : Nat)

/-- Whether R316 forbids an adjustment in frame `mf` of the multiframe now received. -/
def adjustForbidden (x : FBundle) (mf : Nat) : Bool :=
  match x.rxChange.bind (·.effect) with
  | some e => (x.rxMf + 1 == e && decide (61 ≤ mf)) || (x.rxMf == e && decide (mf ≤ 3))
  | none => false

/-- Count one pointer event. -/
def ptrCount (s : State) (k : Nat) : State := count1 s k

/-- One bundle pointer word, none when no lane qualifies or its repeat disagrees (R300). -/
def interpret (s : State) (b mf : Nat) (w : Option Nat) : PtrStep × State :=
  let x := bundle s b
  let st := reg s (Reg.fbPtrState b)
  let p := reg s (Reg.fbPtrValue b)
  let act := (w.map (fun v => v / 2 ^ 14)).getD 4
  let v := (w.map (fun v => v % 1024)).getD 0x3FF
  let ais := w == some 0xFFFF
  let same := if act = 0 ∧ v ≤ 509 then (if x.sameRun ≠ 0 ∧ x.sameVal = v then x.sameRun + 1 else 1) else 0
  let x1 := { x with aisRun := if ais then x.aisRun + 1 else 0, sameVal := v, sameRun := same, sinceAdj := x.sinceAdj + 1 }
  let s1 := fun (y : FBundle) => setBundle s b y
  let goTo := fun (s : State) (st v : Nat) => setReg (setReg s (Reg.fbPtrState b) st) (Reg.fbPtrValue b) v
  let bad := fun (y : FBundle) (n : Nat) (ptr : PtrStep) =>
    let s := count1 (setBundle s b { y with invalid := n }) (Reg.fbPtrInvalid b)
    (ptr, s)
  if st = 0 then
    let free := decide (3 ≤ x.sinceAdj) && !adjustForbidden x mf
    let done := { x1 with invalid := 0 }
    if act = 0 ∧ v = p then (.none, s1 { done with sameRun := 0 })
    else if act = 1 ∧ v = (if p = 509 then 0 else p + 1) ∧ free then
      (.inc, goTo (count1 (s1 { done with sinceAdj := 0 }) (Reg.fbPtrInc b)) 0 v)
    else if act = 2 ∧ v = (if p = 0 then 509 else p - 1) ∧ free then
      (.dec, goTo (count1 (s1 { done with sinceAdj := 0 }) (Reg.fbPtrDec b)) 0 v)
    else if act = 3 ∧ v ≤ 509 ∧ 3 ≤ x.sinceAdj then
      (.start v, goTo (count1 (s1 { done with sinceAdj := 0 }) (Reg.fbPtrNew b)) 0 v)
    else if 3 ≤ same then (.start v, goTo (count1 (s1 { done with sinceAdj := 0, sameRun := 0 }) (Reg.fbPtrNew b)) 0 v)
    else
      let n := x.invalid + 1
      let r := bad x1 n .none
      if 3 ≤ x1.aisRun then (.none, goTo r.2 2 p)
      else if 8 ≤ n then (.none, goTo r.2 1 p) else r
  else if st = 1 then
    if 3 ≤ x1.aisRun then (.none, goTo (s1 { x1 with invalid := 0 }) 2 p)
    else if 3 ≤ same then (.start v, goTo (s1 { x1 with invalid := 0, sameRun := 0, sinceAdj := 0 }) 0 v)
    else if w.isNone then bad x1 0 .none else (.none, s1 x1)
  else
    if act = 3 ∧ v ≤ 509 then (.start v, goTo (s1 { x1 with invalid := 0, sinceAdj := 0 }) 0 v)
    else if 3 ≤ same then (.start v, goTo (s1 { x1 with invalid := 0, sameRun := 0, sinceAdj := 0 }) 0 v)
    else if ais then (.none, s1 { x1 with invalid := 0 })
    else if act = 0 ∧ v ≤ 509 then (.none, s1 x1)
    else
      let r := bad x1 (x.invalid + 1) .none
      if 8 ≤ x.invalid + 1 then (.none, goTo r.2 1 p) else r

/-- The container bytes of one lane's frame: from its units −1 to 509, 32 B each (R297, R298). -/
def dataUnits (st : PtrStep) (u : List Byte) : List Byte := match st with
  | .none => u.drop 32
  | .inc => u.drop 64
  | .dec => u
  | .start v => u.drop (32 * (v + 1))

/-! ### The management channel (R318) -/

/-- Bytes of the channel's packet in progress: a whole one, or more to come. -/
def mgTake (x : FBundle) (more : List Byte) : FBundle :=
  let l := x.mgIn ++ more
  let n := beAt l 0 2
  if l.length < 2 then { x with mgIn := l }
  else if n = 0 ∨ 1500 < n then { x with mgBusy := false, mgIn := [] }
  else if l.length < n + 6 then { x with mgIn := l }
  else { x with mgBusy := false, mgIn := [], mgRaw := x.mgRaw ++ [l.take (n + 6)] }

/-- One 16-B chunk. -/
def mgChunk (x : FBundle) (c : List Byte) : FBundle :=
  let st := c.drop 1
  let start := decide (128 ≤ byteAt c 0)
  let o := byteAt c 0 % 16
  let x := if x.mgBusy then mgTake x (if start then st.take o else st) else x
  if start ∧ o ≤ 14 then mgTake { x with mgBusy := true, mgIn := [] } (st.drop o) else x

/-! ### One bundle frame (R297–R300) -/

/-- The lane whose chunk is the channel: the lowest committed ID, or the lowest framed one (R318). -/
def mgmtLane (s : State) (b : Nat) : Option Nat :=
  match (idsOf (reg s (Reg.fbRxLaneSet b))).head? with
  | some i => laneOfId s b i
  | none => (List.range 40).findSome? (laneOfId s b)

/-- The Burgee bits a bundle receives now; how long any was set is counted as it ends (R343, R353). -/
def setBurgee (s : State) (b v : Nat) : State :=
  let old := (bundle s b).burgee
  let s := setBundle s b { bundle s b with burgee := v }
  if old = 0 ∧ v ≠ 0 then { s with ft.burgeeAt := mput s.ft.burgeeAt b s.time }
  else if old ≠ 0 ∧ v = 0 then
    let n := s.time - (mfind s.ft.burgeeAt b).getD s.time
    perfHeld (countBy { s with ft.burgeeAt := mdel s.ft.burgeeAt b } 64 (Reg.ftBurgeeHeldNs b) n) 0x62 b n
  else s

/-- A frame period of a bundle is complete: pointer, container bytes, Burgee flags and channel. -/
def bundleFrame (s : State) (b : Nat) : State :=
  let set := reg s (Reg.fbRxLaneSet b)
  let lanes := (bundleLanes b).filter (fun l => (flane s l).locked)
  let active := (idsOf set).filterMap (laneOfId s b)
  let good := active.find? (fun l => (flane s l).word.isSome && !flag s (Reg.flDefects l))
  let w := good.bind (fun l => (flane s l).word)
  let s := match w with
    | some (v, k, _) => active.foldl (fun s l => match (flane s l).word with
        | some (v', k', _) =>
          let r := runStep s l 5 (v' != v || k' != k) (flane s l).ptrRun
          setFlane r.2 l { flane r.2 l with ptrRun := r.1 }
        | none => s) s
    | none => s
  let mfOf := fun (l : Nat) => (flane s l).mf
  let mf := ((good.map mfOf).orElse (fun _ => lanes.head?.map mfOf)).getD 0
  let s := if mf = 0 ∧ !lanes.isEmpty then setBundle s b { bundle s b with rxMf := (bundle s b).rxMf + 1 } else s
  let ptr := w.bind (fun x => if x.2.1 / 64 = x.1 / 2 ^ 14 then some x.1 else none)
  let r := if set = 0 then (PtrStep.none, s) else interpret s b mf ptr
  let s := r.2
  let keep := reg s (Reg.fbPtrState b) == 0
  let restart := match r.1 with | .start _ => true | _ => false
  let s := lanes.foldl (fun s l =>
    let x := flane s l
    let old := if restart then [] else x.acc
    setFlane s l { x with acc := if keep then old ++ dataUnits r.1 x.units else [], units := [], word := none }) s
  let s := setBundle s b { bundle s b with aligned := keep, got := [] }
  let s := match w with
    | some x => setBurgee s b x.2.2
    | none => s
  let m := mgmtLane s b
  let s := match m with
    | some l =>
      let x := { bundle s b with mgLane := m }
      let s := setBundle s b (if (flane s l).chunk.isEmpty then x else mgChunk x (flane s l).chunk)
      setFlane s l { flane s l with chunk := [] }
    | none => s
  touchPath s b

/-! ### Lane-set slots (R312) -/

/-- A slot's message from the four words of a copy. -/
def slotMsg (m : SMap Nat) (a : Nat) : Option LsMsg :=
  match mfind m a, mfind m (a + 1), mfind m (a + 2), mfind m (a + 3) with
  | some w0, some w1, some w2, some w3 =>
    some { ty := w0 / 2 ^ 12, tag := w0 / 256 % 16, arg := w0 % 256, mask := w1 * 2 ^ 24 + w2 * 2 ^ 8 + w3 / 256, count := w3 % 256 }
  | _, _, _, _ => none

/-- A copy that has come whole delivers its message once in a multiframe. -/
def slotDone (s : State) (l mf : Nat) : State :=
  let b := bundleOf l
  let x := bundle s b
  if mf = 3 ∨ mf = 7 then
    match slotMsg (flane s l).slots (mf - 3) with
    | some m => if x.seenT = x.rxMf + 1 then s
      else setBundle s b { x with seenT := x.rxMf + 1, msgs := if m.ty = 1 ∨ m.ty = 4 then x.msgs ++ [m] else x.msgs }
    | none => s
  else if mf = 11 ∨ mf = 15 then
    match slotMsg (flane s l).slots (mf - 3) with
    | some m => if x.seenR = x.rxMf + 1 then s
      else setBundle s b { x with seenR := x.rxMf + 1,
                                  msgs := if m.ty = 2 ∨ m.ty = 3 ∨ m.ty = 5 then x.msgs ++ [m] else x.msgs }
    | none => s
  else s

/-! ### A lane's frame in lock (R289–R294, R306) -/

/-- Bytes 4 to 14 of a CRC-valid frame. -/
def validFrame (s : State) (l : Nat) (f : List Byte) : State :=
  let b := bundleOf l
  let id := byteAt f 4
  let mf := byteAt f 5 % 64
  let s := setReg s (Reg.flRxLaneId l) id
  let dup := decide (39 < id) ||
    (bundleLanes b).any (fun k => k != l && (flane s k).locked && reg s (Reg.flRxLaneId k) == id)
  let r := runStep s l 3 dup (flane s l).idRun
  let s := setFlane r.2 l { flane r.2 l with idRun := r.1 }
  let x := flane s l
  let e := match x.bip with
    | some v => popCount 8 (Nat.xor v (byteAt f 6))
    | none => 0
  let far := if 8 < byteAt f 7 % 16 then 0 else byteAt f 7 % 16
  let rdi := decide (128 ≤ byteAt f 7)
  let s := countBy (countBy s 64 (Reg.flBip8Errors l) e) 64 (Reg.flFarErrors l) far
  let s := if rdi && !x.rdi then raise s (.fl l) 8 else s
  let fr := if rdi then (x.far.frame far).mark true else x.far.frame far
  let slots := if mf = 0 then [] else x.slots
  let s := setFlane s l { x with
    fe := if x.bip.isSome then e else x.fe, rdi := rdi, near := x.near.frame e, far := fr
    slots := if mf < 16 then mput slots mf (beAt f 11 2) else slots
    word := some (beAt f 8 2, byteAt f 10, byteAt f 13) }
  slotDone s l mf

/-- One frame period of a framed lane. -/
def framedFrame (s : State) (l skew : Nat) (f : List Byte) : State :=
  let x := flane s l
  let miss := if beAt f 0 4 = fawWord then 0 else x.misses + 1
  if 4 ≤ miss then loseFrame s l
  else
    let s := setReg s (Reg.flSkewPs l) skew
    let r := runStep s l 4 (decide (160000 < skew)) x.skewRun
    let s := setFlane r.2 l { flane r.2 l with misses := miss, skewRun := r.1, chunk := slice f 16 16,
                                               units := slice f 32 32 ++ scramble scramblerStart (f.drop 64) }
    let ok := crc8 (slice f 4 11) == byteAt f 15
    let mf := byteAt f 5 % 64
    let s := if !ok then count1 s (Reg.flCrc8Errors l)
      else if mf ≠ (x.mf + 1) % 64 then count1 s (Reg.flMfErrors l) else s
    let s := setFlane s l { flane s l with mf := if ok then mf else (x.mf + 1) % 64 }
    let s := if ok then validFrame s l f else s
    setFlane s l { flane s l with bip := some (bip8 (f.drop 64)) }

/-- A lane's frame period counts toward its bundle's: a second one of the same lane, or the last of the framed lanes, ends
the bundle frame. -/
def gatherFrame (s : State) (l : Nat) : State :=
  let b := bundleOf l
  let x := bundle s b
  let got := l :: x.got
  let s := setBundle s b { x with got := got }
  if (bundleLanes b).all (fun k => got.contains k || !(flane s k).locked) then bundleFrame s b else s

/-- BUNTING_FRAME_RECEIVE (R291): 16,384 bytes from an offset of the lane's stream, and the lane's lateness in ps. -/
def execBuntingFrameReceive (lane offset skew : Nat) (frame : List Byte) (s : State) : Host.Outcome State Fault Refusal :=
  let x := flane s lane
  if 320 ≤ lane ∨ !x.cwLock ∨ laneTest s lane ∨ frame.length ≠ 16384 ∨ 16384 ≤ offset then .next s
  else if x.locked then
    if offset ≠ x.off then .next s
    else
      let b := bundleOf lane
      let s := if (bundle s b).got.contains lane then bundleFrame s b else s
      .next (gatherFrame (framedFrame s lane skew frame) lane)
  else
    let r := huntStep x.cands offset frame
    if r.2 then
      let s := setFlane s lane { x with locked := true, off := offset, cands := [], misses := 0, mf := byteAt frame 5 % 64,
                                        bip := none, idRun := 0, skewRun := 0, ptrRun := 0, slots := [] }
      .next (sectionDefect (setReg s (Reg.flRxLaneId lane) (byteAt frame 4)) lane 2 false)
    else .next (setFlane s lane { x with cands := r.1 })

/-! ### Containers (R295, R301–R304) -/

/-- The bytes of several lanes, one of each in turn. -/
def interleave : Nat → List (List Byte) → List Byte
  | 0, _ => []
  | n + 1, ls => ls.map (fun l => l.head?.getD 0) ++ interleave n (ls.map (·.drop 1))

/-- Pennant places of a container of `n` lanes. -/
def pennantPlaces (n : Nat) : Nat := (16320 * n - 32) / 256

/-- A run of equal values: five of them are accepted (R304). -/
def acceptRun (run : Nat × Nat) (acc : Option Nat) (v : Nat) : (Nat × Nat) × Option Nat :=
  let n := if run.2 ≠ 0 ∧ run.1 = v then run.2 + 1 else 1
  ((v, min n 5), if 5 ≤ n then some v else acc)

/-- The path overhead's fields when its CRC-16 holds. -/
def pathOverhead (s : State) (b : Nat) (po : Nat) : State :=
  let x := bundle s b
  let rdi := bit po 239
  let fe := if 16 < bits po 236 232 then 0 else bits po 236 232
  let s := countBy s 64 (Reg.fbFarPathErrors b) fe
  let s := if rdi && !x.rdi then raise s (.fb b) 8 else s
  let i := bits po 221 216
  let now := if i = 0 then [byte (bits po 231 224)]
    else if i = x.traceNow.length ∧ x.traceNow ≠ [] then x.traceNow ++ [byte (bits po 231 224)] else []
  let whole := decide (now.length = 64)
  let run := if whole then (if now = x.traceLast then x.traceRun + 1 else 1) else x.traceRun
  let la := acceptRun x.labelRun x.label (bits po 215 208)
  let ca := acceptRun x.countRun x.count (bits po 183 176)
  let sa := acceptRun x.srcRun x.src (bits po 207 188 * 16 + bits po 186 184)
  let s := if whole ∧ 3 ≤ run then setBlk s (Reg.fbTraceRx b) now else s
  let s := match sa.2 with | some v => setReg s (Reg.fbSrcRx b) v | none => s
  let fr := if rdi then (x.far.frame fe).mark true else x.far.frame fe
  setBundle s b { x with rdi := rdi, far := fr, traceNow := if whole then [] else now,
                         traceLast := if whole then now else x.traceLast, traceRun := run, labelRun := la.1, label := la.2,
                         countRun := ca.1, count := ca.2, srcRun := sa.1, src := sa.2 }

/-- A whole container frame (R301–R304, R307). -/
def containerFrame (s : State) (b n : Nat) (c : List Byte) : State :=
  let x := bundle s b
  let po := beNat (c.take 32)
  let e := match x.bip with
    | some v => popCount 16 (Nat.xor v (bits po 255 240))
    | none => 0
  let s := countBy s 64 (Reg.fbBip16Errors b) e
  let s := setBundle s b { x with bip := some (bip16 c), fe := if x.bip.isSome then e else x.fe, near := x.near.frame e }
  let s := if crc16 (slice c 2 28) = beAt c 30 2 then pathOverhead s b po else count1 s (Reg.fbPoCrcErrors b)
  let s := touchPath s b
  if reg s (Reg.fbPathDefects b) ≠ 0 then s
  else
    let ps := (List.range (pennantPlaces n)).map (fun j => slice c (32 + 256 * j) 256)
    setBundle s b { bundle s b with places := (bundle s b).places ++ ps }

/-- CONTAINER_FRAME_RECEIVE (R302): every active lane of the bundle holds a container frame's bytes. -/
def execContainerFrameReceive (bundle : Nat) (s : State) : Host.Outcome State Fault Refusal :=
  let ids := idsOf (reg s (Reg.fbRxLaneSet bundle))
  let lanes := (bundleLanes bundle).filter (fun l => (flane s l).locked)
  let active := ids.filterMap (laneOfId s bundle)
  if 8 ≤ bundle ∨ active.isEmpty ∨ active.any (fun l => decide ((flane s l).acc.length < 16320)) then .next s
  else
    let bytes := fun (i : Nat) => match laneOfId s bundle i with
      | some l => (flane s l).acc.take 16320
      | none => List.replicate 16320 0
    let c := interleave 16320 (ids.map bytes)
    let s := lanes.foldl (fun s l => setFlane s l { flane s l with acc := (flane s l).acc.drop 16320 }) s
    .next (containerFrame s bundle ids.length c)

/-! ### Signal and time (R296, R307) -/

/-- FABRIC_LANE_SIGNAL_CHANGE (R307): loss enters LOS; a return starts the 1 ms of LOS_CLEAR. -/
def execFabricLaneSignalChange (lane : Nat) (signal : Bool) (s : State) : Host.Outcome State Fault Refusal :=
  if lane < 320 then
    let s := setFlane s lane { flane s lane with signal := signal, signalAt := s.time }
    .next (if signal then s else sectionDefect s lane 0 true)
  else .next s

/-- LOS_CLEAR (R307): the signal has been present for 1 ms. -/
def execLosClear (lane : Nat) (s : State) : Host.Outcome State Fault Refusal :=
  if (flane s lane).signal ∧ (flane s lane).signalAt + 1000000 ≤ s.time ∧ bit (reg s (Reg.flDefects lane)) 0 then
    .next (sectionDefect s lane 0 false)
  else .next s

/-- PM_SECOND (R308–R310): at a whole TIME second the one that ends is classified for every lane and bundle, and bins close. -/
def execPmSecond (s : State) : Host.Outcome State Fault Refusal :=
  let t := timeNs s
  if t % 1000000000 ≠ 0 then .next s
  else
    let sec := t / 1000000000
    let one := fun (x : PmEnd) (d severe : Bool) =>
      ((if d then x.mark severe else x).second (sec - 1)).close sec
    let s := { s with fl.lanes := (List.range 320).foldl (fun m l =>
      let x := mget {} m l
      let d := reg s (Reg.flDefects l)
      mset {} m l { x with near := one x.near (d != 0) (bit d 2), far := one x.far x.rdi x.rdi }) s.fl.lanes }
    .next ((List.range 8).foldl (fun s b =>
      let x := bundle s b
      let d := reg s (Reg.fbPathDefects b)
      let lof := (idsOf (reg s (Reg.fbRxLaneSet b))).any (fun i => (laneOfId s b i).isNone)
      let s := setBundle s b { x with near := one x.near (d != 0) (bits d 2 1 != 0 || lof), far := one x.far x.rdi x.rdi }
      if sec % 900 = 0 then raise s (.fb b) 12 else s) s)

/-! ### Test (R77, R319) -/

/-- A write of `fl_prbs_mode` or `fl_loopback` (R78, R319). -/
def wFlTest (k v : Nat) (s : State) : Applied :=
  let l := idxOf k - 0x2500
  let b := bundleOf l
  let committed := bit (reg s (Reg.fbTxLaneSet b)) (l % 40) ||
    (idsOf (reg s (Reg.fbRxLaneSet b))).any (fun i => laneOfId s b i == some l)
  let old := reg s k
  if 2 < v ∨ committed then .fail .refused
  else if subOf k = 0x10 ∧ old ≠ 0 ∧ v ≠ 0 ∧ v ≠ old then .fail .refused
  else
    let s := setReg s k v
    let s := if subOf k = 0x0E then emit (setFlane s l { flane s l with prbsLock := false }) (.lanePattern (256 + l) v) else s
    .done (if laneTest s l then loseFrame s l else s)

/-- FABRIC_PRBS_LOOPBACK_WRITE (R319). -/
def execFabricPrbsLoopbackWrite (client : Client) (lane : Nat) (loopback : Bool) (value : Nat) (s : State) :
    Host.Outcome State Fault Refusal :=
  let k := if loopback then Reg.flLoopback lane else Reg.flPrbsMode lane
  .next (writeRow s client k value (wFlTest k value))

/-- FL_PRBS_ERRORS_READ (R320): the errors seen since the last report are added first. -/
def execFlPrbsErrorsRead (client : Client) (lane errors : Nat) (s : State) : Host.Outcome State Fault Refusal :=
  let k := Reg.flPrbsErrors lane
  let s := if (flane s lane).prbsLock then countSat s 32 k errors else s
  .next (readRow s client k (reg s k) (fun s => setReg s k 0))

/-- PRBS_CHECKER_LOCK (R77): 64 error-free bits on a line lane or a fabric lane. -/
def execPrbsCheckerLock (fabric : Bool) (lane : Nat) (s : State) : Host.Outcome State Fault Refusal :=
  if fabric then
    (if flag s (Reg.flPrbsMode lane) then .next (setFlane s lane { flane s lane with prbsLock := true }) else .next s)
  else if flag s (Reg.lanePrbsMode lane) then
    .next { s with lanes := mset {} s.lanes lane { mget {} s.lanes lane with prbsLock := true } }
  else .next s

/-- PRBS_LOCK_LOST (R77): 64 errors within 1,024 bits, counted by a checker in lock. -/
def execPrbsLockLost (fabric : Bool) (lane errors : Nat) (s : State) : Host.Outcome State Fault Refusal :=
  if fabric then
    if (flane s lane).prbsLock then
      let s := countSat s 32 (Reg.flPrbsErrors lane) errors
      .next (raise (setFlane s lane { flane s lane with prbsLock := false }) (.fl lane) 7)
    else .next s
  else if (mget {} s.lanes lane).prbsLock then
    let s := countSat s 32 (Reg.lanePrbsErrors lane) errors
    .next (raise { s with lanes := mset {} s.lanes lane { mget {} s.lanes lane with prbsLock := false } } (.lane lane) 2)
  else .next s

end Sys2Proof.Machine
end

