-- ==== Sys2Proof/Machine/LaneSet.lean ====
section
/-! DEFINITION. Lane sets (R311–R317), the bunting frames a bundle sends (R289–R299, R342) and its entries. -/

namespace Sys2Proof.Machine

/-! ### Pennant header fields (Table — Pennant header) -/

def pnHeader (p : List Byte) : Nat := beAt p 0 16
def pnType (p : List Byte) : Nat := bits (pnHeader p) 127 124
def pnSrc (p : List Byte) : Nat := bits (pnHeader p) 123 104
def pnDst (p : List Byte) : Nat := bits (pnHeader p) 103 84
def pnPort (p : List Byte) : Nat := bits (pnHeader p) 83 74
def pnClass (p : List Byte) : Nat := bits (pnHeader p) 73 71
def pnSeq (p : List Byte) : Nat := bits (pnHeader p) 70 47
def pnLen (p : List Byte) : Nat := bits (pnHeader p) 46 39
def pnSegs (p : List Byte) : Nat := bits (pnHeader p) 38 37
def pnFlags (p : List Byte) : Nat := bits (pnHeader p) 36 32

/-- A pennant from its fields and payload (R323). -/
def pennant (ty src dst prt cls seq len segs flags : Nat) (payload : List Byte) : List Byte :=
  let h := ty * 2 ^ 124 + src % 2 ^ 20 * 2 ^ 104 + dst % 2 ^ 20 * 2 ^ 84 + prt % 1024 * 2 ^ 74 + cls % 8 * 2 ^ 71 +
    seq % 2 ^ 24 * 2 ^ 47 + len % 256 * 2 ^ 39 + segs % 4 * 2 ^ 37 + flags % 32 * 2 ^ 32
  let b := beBytes 14 (h / 2 ^ 16)
  b ++ beBytes 2 (crc16 b) ++ padTo payload 240

/-- The idle pennant (R323). -/
def idlePennant : List Byte := pennant 0 0 0 0 0 0 0 0 0 []

/-! ### Changes (R313–R315) -/

/-- Whether a transmit lane may be in a set: enabled and, while it has a signal, without a section defect
(notes/assumptions/29). -/
def laneFit (s : State) (l : Nat) : Bool :=
  flag s (Reg.flEnable l) && !laneTest s l && (!flag s (Reg.flDefects l) || !(flane s l).signal)

/-- A mask the transmitter may propose: enabled lanes, at or above the floor. -/
def maskFit (s : State) (b mask : Nat) : Bool :=
  decide (reg s (Reg.fbShedFloor b) ≤ popCount 40 mask) && decide (mask < 2 ^ 40) &&
    (idsOf mask).all (fun i => flag s (Reg.flEnable (40 * b + i)))

/-- A change may begin: none is under way, and with a set committed both interpreters are in NORM as far as the device can
tell (R314). -/
def mayChange (s : State) (b : Nat) : Bool :=
  (bundle s b).txChange.isNone &&
    (reg s (Reg.fbTxLaneSet b) == 0 || (reg s (Reg.fbPtrState b) == 0 && !(bundle s b).rdi))

/-- Begin a change of the transmit set. -/
def beginChange (s : State) (b mask : Nat) (job : Bool) : State :=
  setBundle s b { bundle s b with txChange := some { mask := mask, job := job } }

/-- A change ends without effect: 1 refused, 2 timed out (R314, R317). -/
def changeEnds (s : State) (b result : Nat) : State :=
  match (bundle s b).txChange with
  | none => s
  | some c =>
    let s := setBundle s b { bundle s b with txChange := none, sendT := none }
    if c.job then jobEnd s (Reg.fbLaneSetChange b) result else s

/-- A start of `fb_lane_set_change` (R317): a mask below the floor or with a disabled lane ends the job at once with result 0x03. -/
def startLaneSetChange (s : State) (b : Nat) : Applied :=
  let k := Reg.fbLaneSetChange b
  let mask := reg s (Reg.fbLaneSetArg b)
  if !maskFit s b mask then .done (jobEnd (jobBegin s k) k 3)
  else if mayChange s b then .done (beginChange (jobBegin s k) b mask true)
  else .fail .busy

/-- FB_LANE_SET_CHANGE (R317). -/
def execFbLaneSetChange (client : Client) (bundle : Nat) (s : State) : Host.Outcome State Fault Refusal :=
  let k := Reg.fbLaneSetChange bundle
  .next (concludeJob s client k (jobStart s client k (fun s => startLaneSetChange s bundle)))

/-- SHED_GOVERNOR (R317): each 1 ms of TIME. -/
def execShedGovernor (bundle : Nat) (s : State) : Host.Outcome State Fault Refusal :=
  if 8 ≤ bundle ∨ timeNs s % 1000000 ≠ 0 then .next s
  else
    let x := Machine.bundle s bundle
    let n := popCount 40 (reg s (Reg.fbTxLaneSet bundle))
    let need := if x.sent = 0 then 0 else ceilDiv (2 * n * x.used) x.sent
    let low := decide (x.used * 100 < reg s (Reg.fbShedLowPct bundle) * x.sent) || x.sent == 0
    let high := decide (reg s (Reg.fbShedHighPct bundle) * x.sent ≤ x.used * 100) && x.sent != 0
    let runs := if low then x.lowRun + 1 else 0
    let on := flag s (Reg.fbShedEnable bundle)
    let fit := (List.range 40).filter (fun i => laneFit s (40 * bundle + i))
    let enabled := ((List.range 40).filter (fun i => flag s (Reg.flEnable (40 * bundle + i)))).length
    let want := if on && high then min enabled need else max (reg s (Reg.fbShedFloor bundle)) need
    let s := setBundle s bundle { x with used := 0, sent := 0, lowRun := if 10 ≤ runs then 0 else runs }
    let mask := (fit.take want).foldl (fun m i => m + 2 ^ i) 0
    if ((on && high) || decide (10 ≤ runs)) ∧ mask ≠ reg s (Reg.fbTxLaneSet bundle) ∧ mayChange s bundle ∧ maskFit s bundle mask then
      .next (beginChange s bundle mask false)
    else .next s

/-- The next waiting lane-set message, if it is of this type. -/
def takeMsg (s : State) (b ty : Nat) : Option (LsMsg × State) :=
  match (bundle s b).msgs with
  | m :: r => if m.ty = ty then some (m, setBundle s b { bundle s b with msgs := r }) else none
  | [] => none

/-- Why the receiver rejects a proposal (R312, R314): the checks in the order 3, 2, 4, 1 (notes/assumptions/30). -/
def rejectReason (s : State) (b : Nat) (m : LsMsg) : Nat :=
  if popCount 40 m.mask ≠ m.count then 3
  else if (bundle s b).rxChange.isSome then 2
  else if (idsOf m.mask).any (fun i => match laneOfId s b i with
      | some l => !flag s (Reg.flEnable l)
      | none => false) then 4
  else if (idsOf m.mask).any (fun i => match laneOfId s b i with
      | some l => flag s (Reg.flDefects l)
      | none => true) then 1
  else 0

/-- LANE_SET_PROPOSE (R313): the receiver answers in its next receive slot. -/
def execLaneSetPropose (bundle : Nat) (s : State) : Host.Outcome State Fault Refusal :=
  match takeMsg s bundle 1 with
  | none => .next s
  | some (m, s) =>
    let r := rejectReason s bundle m
    let x := Machine.bundle s bundle
    if r = 0 then
      .next (setBundle s bundle { x with rxChange := some { mask := m.mask, tag := m.tag, step := 2, at0 := x.rxMf }
                                         slotR := some { m with ty := 2, arg := 0 } })
    else .next (setBundle s bundle { x with slotR := some { m with ty := 3, arg := r } })

/-- LANE_SET_ACCEPT (R313): COMMIT follows in the next two multiframes. -/
def execLaneSetAccept (bundle : Nat) (s : State) : Host.Outcome State Fault Refusal :=
  match takeMsg s bundle 2 with
  | none => .next s
  | some (m, s) =>
    let x := Machine.bundle s bundle
    match x.txChange with
    | some c => if c.step = 1 ∧ c.tag = m.tag ∧ c.mask = m.mask then
        .next (setBundle s bundle { x with txChange := some { c with step := 2, effect := some (x.txMf + 3) } })
      else .next s
    | none => .next s

/-- LANE_SET_REJECT (R314). -/
def execLaneSetReject (bundle : Nat) (s : State) : Host.Outcome State Fault Refusal :=
  match takeMsg s bundle 3 with
  | none => .next s
  | some (m, s) =>
    match (Machine.bundle s bundle).txChange with
    | some c => if c.step = 1 ∧ c.tag = m.tag then
        .next (changeEnds (raise (count1 s (Reg.fbLsRefused bundle)) (.fb bundle) 10) bundle 1)
      else .next s
    | none => .next s

/-- LANE_SET_COMMIT (R313): the argument fixes the effect multiframe. -/
def execLaneSetCommit (bundle : Nat) (s : State) : Host.Outcome State Fault Refusal :=
  match takeMsg s bundle 4 with
  | none => .next s
  | some (m, s) =>
    let x := Machine.bundle s bundle
    match x.rxChange with
    | some c => if c.tag = m.tag ∧ c.mask = m.mask ∧ (m.arg = 1 ∨ m.arg = 2) then
        .next (setBundle s bundle { x with rxChange := some { c with effect := some (x.rxMf + m.arg) } })
      else .next s
    | none => .next s

/-- LANE_SET_REQUEST (R315): the transmitter proposes the mask, when it may. -/
def execLaneSetRequest (bundle : Nat) (s : State) : Host.Outcome State Fault Refusal :=
  match takeMsg s bundle 5 with
  | none => .next s
  | some (m, s) =>
    if maskFit s bundle m.mask && (Machine.bundle s bundle).txChange.isNone then .next (beginChange s bundle m.mask false)
    else .next s

/-- LANE_SET_EFFECT (R313): in the effect multiframe the new set applies, from the next container frame on, at the transmitter
or at the receiver. -/
def execLaneSetEffect (bundle : Nat) (transmit : Bool) (s : State) : Host.Outcome State Fault Refusal :=
  let x := Machine.bundle s bundle
  let c := if transmit then x.txChange else x.rxChange
  let now := if transmit then x.txMf else x.rxMf
  match c with
  | none => .next s
  | some c => match c.effect with
    | none => .next s
    | some e =>
      if now < e then .next s
      else
        let s := raise (count1 s (Reg.fbLsChanges bundle)) (.fb bundle) 9
        if transmit then
          let s := setReg s (Reg.fbTxLaneSet bundle) c.mask
          let s := setBundle s bundle { Machine.bundle s bundle with txChange := none, sendT := none, quietAt := some e }
          .next (if c.job then jobEnd s (Reg.fbLaneSetChange bundle) 0 else s)
        else
          .next (touchPath (setBundle (setReg s (Reg.fbRxLaneSet bundle) c.mask) bundle
            { Machine.bundle s bundle with rxChange := none }) bundle)

/-- LANE_SET_TIMEOUT (R314): four multiframes without an answer, or without a COMMIT. -/
def execLaneSetTimeout (bundle : Nat) (transmit : Bool) (s : State) : Host.Outcome State Fault Refusal :=
  let x := Machine.bundle s bundle
  if transmit then
    match x.txChange with
    | some c => if c.step = 1 ∧ c.at0 + 4 ≤ x.txMf then
        .next (changeEnds (raise (count1 s (Reg.fbLsTimeouts bundle)) (.fb bundle) 11) bundle 2)
      else .next s
    | none => .next s
  else
    match x.rxChange with
    | some c => if c.effect = none ∧ c.at0 + 4 ≤ x.rxMf then .next (setBundle s bundle { x with rxChange := none }) else .next s
    | none => .next s

/-- LANE_QUIET (R313): past the effect multiframe the lanes outside the set go quiet. -/
def execLaneQuiet (bundle : Nat) (s : State) : Host.Outcome State Fault Refusal :=
  let x := Machine.bundle s bundle
  match x.quietAt with
  | none => .next s
  | some e =>
    if x.txMf ≤ e then .next s
    else
      let s := setBundle s bundle { x with quietAt := none }
      if flag s (Reg.fbQuietEnable bundle) then
        let keep := Nat.lor (reg s (Reg.fbTxLaneSet bundle)) ((x.txChange.map (·.mask)).getD 0)
        .next ((List.range 40).foldl (fun s i =>
          if bit keep i then s else setFlane s (40 * bundle + i) { flane s (40 * bundle + i) with on := false }) s)
      else .next s

/-- LANE_WAKE (R311): an enabled lane sends frames again. -/
def execLaneWake (lane : Nat) (s : State) : Host.Outcome State Fault Refusal :=
  if lane < 320 ∧ flag s (Reg.flEnable lane) ∧ !laneTest s lane ∧ !s.pwr.dark ∧ 2 ≤ reg s Reg.pwrStartupPhase then .next (setFlane s lane { flane s lane with on := true })
  else .next s

/-- LANE_AUTO_REMOVE (R315): an active receive lane has had a section defect for 1 ms. -/
def execLaneAutoRemove (lane : Nat) (s : State) : Host.Outcome State Fault Refusal :=
  let b := bundleOf lane
  let set := reg s (Reg.fbRxLaneSet b)
  let i := reg s (Reg.flRxLaneId lane)
  match (flane s lane).defectAt with
  | none => .next s
  | some t =>
    if lane < 320 ∧ flag s (Reg.fbAutoRemove b) ∧ t + 1000000 ≤ s.time ∧ bit set i ∧
        reg s (Reg.fbShedFloor b) + 1 ≤ popCount 40 set then
      let m := clearBit set i
      .next (setBundle s b { bundle s b with slotR := some { ty := 5, tag := 0, arg := 0, mask := m, count := popCount 40 m } })
    else .next s

/-! ### Sending (R289–R299, R312, R318, R342, R343) -/

/-- A pennant whose class a received Burgee bit holds waits (R343). -/
def burgeeHeld (x : FBundle) (p : List Byte) : Bool := bit x.burgee (pnClass p)

/-- The first pennant of a list that is not held, and the rest. -/
def takeFree (x : FBundle) : List (List Byte) → Option (List Byte × List (List Byte))
  | [] => none
  | p :: r => if burgeeHeld x p then (takeFree x r).map (fun y => (y.1, p :: y.2)) else some (p, r)

/-- What fills the next pennant place (R342): the pennant, the bundle after it, and 1 for an own, 2 for a relayed one. -/
def nextPlace (x : FBundle) : List Byte × FBundle × Nat :=
  match x.ctrl with
  | p :: r => (p, { x with ctrl := r }, 1)
  | [] => match x.credit with
    | p :: r => (p, { x with credit := r }, 1)
    | [] =>
      let own := takeFree x x.own
      let rel := takeFree x x.relay
      match own, rel with
      | some o, none => (o.1, { x with own := o.2, ownTurn := false }, 1)
      | none, some r => (r.1, { x with relay := r.2, ownTurn := true }, 2)
      | some o, some r => if x.ownTurn then (o.1, { x with own := o.2, ownTurn := false }, 1)
          else (r.1, { x with relay := r.2, ownTurn := true }, 2)
      | none, none => (idlePennant, x, 0)

/-- Fill pennant places. -/
def fillPlaces : Nat → State → Nat → List Byte × State
  | 0, s, _ => ([], s)
  | n + 1, s, b =>
    let r := nextPlace (bundle s b)
    let x := r.2.1
    let s := setBundle s b { x with sent := x.sent + 1, used := x.used + (if r.2.2 = 0 then 0 else 1) }
    let s := if r.2.2 = 1 then perfEvent s 0x60 b 0
      else if r.2.2 = 2 then perfEvent (count1 s (Reg.ftRelayed b)) 0x61 b 0 else s
    let t := fillPlaces n s b
    (r.1 ++ t.1, t.2)

/-- A new container frame of the committed set (R295, R301–R303). -/
def buildContainer (s : State) (b : Nat) : State :=
  let set := reg s (Reg.fbTxLaneSet b)
  let n := popCount 40 set
  let x := bundle s b
  let po := x.txBip * 2 ^ 240 + b2n (reg s (Reg.fbPathDefects b) != 0) * 2 ^ 239 + x.fe % 32 * 2 ^ 232 +
    byteAt (blk s (Reg.fbTraceTx b)) x.traceIdx * 2 ^ 224 + x.traceIdx * 2 ^ 216 + 2 ^ 208 + ownId s * 2 ^ 188 + b * 2 ^ 184 +
    n * 2 ^ 176 + x.txCount * 2 ^ 168
  let h := beBytes 30 (po / 2 ^ 16)
  let s := setBundle s b { x with fe := 0, traceIdx := (x.traceIdx + 1) % 64, txCount := (x.txCount + 1) % 256 }
  let r := fillPlaces (pennantPlaces n) s b
  let c := padTo (h ++ beBytes 2 (crc16 (h.drop 2)) ++ r.1) (16320 * n)
  setBundle r.2 b { bundle r.2 b with stream := c, streamSet := set, txBip := bip16 c }

/-- Every `n`-th byte of a list. -/
def everyNth (n : Nat) : Nat → List Byte → List Byte
  | 0, _ => []
  | f + 1, l => match l with
    | [] => []
    | b :: r => b :: everyNth n f (r.drop (n - 1))

/-- The next `k` units of container for each lane ID: 32 bytes a unit from the lanes of the set in use, zeros for the others. -/
def sendUnits : Nat → State → Nat → List (List Byte) × State
  | 0, s, _ => (List.replicate 40 [], s)
  | k + 1, s, b =>
    let s := if (bundle s b).stream.isEmpty then buildContainer s b else s
    let x := bundle s b
    let n := popCount 40 x.streamSet
    let now := x.stream.take (32 * n)
    let s := setBundle s b { x with stream := x.stream.drop (32 * n) }
    let lanes := (List.range 40).map (fun i =>
      if bit x.streamSet i then everyNth n 32 (now.drop (popCount i x.streamSet)) else List.replicate 32 0)
    let t := sendUnits k s b
    (List.zipWith (· ++ ·) lanes t.1, t.2)

/-- The words of a lane-set slot (Table — Lane-set slots). -/
def slotWord (m : Option LsMsg) (k : Nat) : Nat := match m with
  | none => 0
  | some m => if k = 0 then m.ty * 2 ^ 12 + m.tag % 16 * 256 + m.arg % 256
    else if k = 1 then m.mask / 2 ^ 24 % 65536 else if k = 2 then m.mask / 2 ^ 8 % 65536 else m.mask % 256 * 256 + m.count % 256

/-- Bytes 11 and 12 of frame `f`. -/
def lsWord (x : FBundle) (f : Nat) : Nat :=
  if f < 8 then slotWord x.sendT (f % 4) else if f < 16 then slotWord x.sendR (f % 4) else 0

/-- What a multiframe's slots carry is fixed at its frame 0 (R313). -/
def startMultiframe (s : State) (b : Nat) : State :=
  let x := bundle s b
  let mf := x.txMf + 1
  let ready := fun (c : LsChange) => (idsOf c.mask).all (fun i =>
    let l := 40 * b + i
    (flane s l).on && !laneTest s l && !(flane s l).rdi)
  let x := { x with txMf := mf, sendR := x.slotR, slotR := none, sendT := none }
  match x.txChange with
  | none => setBundle s b x
  | some c =>
    let msg := fun (ty tag arg : Nat) =>
      some ({ ty := ty, tag := tag, arg := arg, mask := c.mask, count := popCount 40 c.mask } : LsMsg)
    if c.step = 0 then
      if ready c then
        let tag := (x.tag + 1) % 16
        setBundle s b { x with tag := tag, sendT := msg 1 tag 0, txChange := some { c with tag := tag, step := 1, at0 := mf } }
      else
        let s := setBundle s b x
        (idsOf c.mask).foldl (fun s i =>
          let l := 40 * b + i
          if laneTest s l then s else setFlane s l { flane s l with on := true }) s
    else if c.step = 1 then setBundle s b x
    else match c.effect with
      | some e => setBundle s b { x with sendT := if mf < e ∧ e ≤ mf + 2 then msg 4 c.tag (e - mf) else none }
      | none => setBundle s b x

/-- Whether R316 forbids an adjustment in frame `f`. -/
def sendForbidden (x : FBundle) (f : Nat) : Bool :=
  (match x.txChange.bind (·.effect) with
   | some e => (x.txMf + 1 == e && decide (61 ≤ f)) || (x.txMf == e && decide (f ≤ 3))
   | none => false) || (x.quietAt == some x.txMf && decide (f ≤ 3))

/-- The channel's next 16 bytes (R318). -/
def sendChunk (s : State) (b : Nat) : List Byte × State :=
  let x := bundle s b
  let o := x.mgRest.length
  let moves := match x.txChange with
    | some c => c.effect.isSome && lowestBit 40 c.mask != lowestBit 40 (reg s (Reg.fbTxLaneSet b))
    | none => false
  let room := match x.txChange.bind (·.effect) with
    | some e => (e - x.txMf) * 64 - x.txFrame
    | none => 0
  if 15 ≤ o then
    let s := if o = 15 then count1 s (Reg.fbMgmtTxPackets b) else s
    ([0] ++ x.mgRest.take 15, setBundle s b { x with mgRest := x.mgRest.drop 15 })
  else
    let s := if 0 < o then count1 s (Reg.fbMgmtTxPackets b) else s
    match x.mgOut with
    | m :: r =>
      let p := beBytes 2 m.length ++ m
      let p := p ++ beBytes 4 (crc32 p)
      if moves && decide (room < ceilDiv (o + p.length) 15) then ([0] ++ padTo x.mgRest 15, setBundle s b { x with mgRest := [] })
      else
        let k := 15 - o
        ([byte (128 + o)] ++ x.mgRest ++ padTo (p.take k) k, setBundle s b { x with mgRest := p.drop k, mgOut := r })
    | [] => ([0] ++ padTo x.mgRest 15, setBundle s b { x with mgRest := [] })

/-- The Burgee flags sent now (R343): held from `ft_burgee_xoff` to `ft_burgee_xon`. -/
def burgeeNow (s : State) : Nat :=
  (List.range 8).foldl (fun m c =>
    let most := (List.range 8).foldl (fun t b =>
      max t (((bundle s b).own ++ (bundle s b).relay).filter (fun p => pnClass p == c)).length) 0
    let on := if bit s.ft.burgee c then decide (reg s Reg.ftBurgeeXon < most) else decide (reg s Reg.ftBurgeeXoff ≤ most)
    m + b2n on * 2 ^ c) 0

/-- One lane's frame (Table — Section overhead). -/
def laneFrame (s : State) (b l ptr just ls : Nat) (chunk neg body : List Byte) : State :=
  let x := flane s l
  let f := (bundle s b).txFrame
  let head := [byte (l % 40), byte f, byte x.txBip, byte (b2n (flag s (Reg.flDefects l)) * 128 + x.fe)] ++ beBytes 2 ptr ++
    [byte just] ++ beBytes 2 ls ++ [byte s.ft.burgee, 0]
  let body := scramble scramblerStart body
  let s := setFlane s l { x with fe := 0, txBip := bip8 body }
  emit s (.laneFrame l (beBytes 4 fawWord ++ head ++ [byte (crc8 head)] ++ chunk ++ neg ++ body))

/-- BUNTING_FRAME_SEND (R289): a bundle's framed lanes send one frame; `lead` is by how many bytes a lane the container leads
the lanes (R296). -/
def execBuntingFrameSend (bundle : Nat) (lead : Int) (s : State) : Host.Outcome State Fault Refusal :=
  if 8 ≤ bundle ∨ s.pwr.dark then .next s
  else
    let s := if (Machine.bundle s bundle).txFrame = 0 then startMultiframe s bundle else s
    let s := { s with ft.burgee := burgeeNow s }
    let x := Machine.bundle s bundle
    let set := reg s (Reg.fbTxLaneSet bundle)
    let lanes := (bundleLanes bundle).filter (fun l => (flane s l).on && flag s (Reg.flEnable l) && !laneTest s l)
    let chunkLane := (if set = 0 then lanes.head? else (lowestBit 40 set).map (fun i => 40 * bundle + i))
    let c := sendChunk s bundle
    let s := c.2
    let next := fun (s : State) => setBundle s bundle { Machine.bundle s bundle with txFrame := (x.txFrame + 1) % 64 }
    let chunkOf := fun (l : Nat) => if chunkLane = some l then c.1 else List.replicate 16 0
    let locked := b2n s.fl.timeLocked * 32
    let ls := lsWord x x.txFrame
    if set = 0 then
      let s := setBundle s bundle { Machine.bundle s bundle with running := false, fresh := true, stream := [] }
      .next (next (lanes.foldl (fun s l => laneFrame s bundle l 0xFFFF (0xC0 + locked) ls (chunkOf l) (List.replicate 32 0)
        (List.replicate 16320 0xFF)) s))
    else
      let free := decide (3 ≤ x.txSince) && !sendForbidden x x.txFrame
      let act := if x.fresh then 3 else if !free then 0 else if 32 ≤ lead then 2 else if lead ≤ -32 then 1 else 0
      let v := if act = 3 then 0 else if act = 1 then (if x.txPtr = 509 then 0 else x.txPtr + 1)
        else if act = 2 then (if x.txPtr = 0 then 509 else x.txPtr - 1) else x.txPtr
      let s := if act = 1 ∨ act = 2 then count1 s (Reg.fbTxAdjust bundle) else s
      let s := setBundle s bundle { Machine.bundle s bundle with
        txPtr := v, txSince := if act = 0 then x.txSince + 1 else 0, fresh := false, running := true
        stream := if act = 3 then [] else (Machine.bundle s bundle).stream }
      let n := if act = 1 then 509 else if act = 2 then 511 else 510
      let r := sendUnits n s bundle
      .next (next (lanes.foldl (fun s l =>
        let u := ((r.1.drop (l % 40)).head?).getD []
        let neg := if act = 2 then u.take 32 else List.replicate 32 0
        let body := if act = 1 then List.replicate 32 0 ++ u else if act = 2 then u.drop 32 else u
        laneFrame s bundle l (act * 2 ^ 14 + v) (act * 64 + locked) ls (chunkOf l) neg body) r.2))

/-- MGMT_CHANNEL_PACKET (R318): a whole packet of the channel is checked. -/
def execMgmtChannelPacket (bundle : Nat) (s : State) : Host.Outcome State Fault Refusal :=
  let x := Machine.bundle s bundle
  match x.mgRaw with
  | [] => .next s
  | p :: r =>
    let n := beAt p 0 2
    let s := setBundle s bundle { x with mgRaw := r }
    if crc32 (p.take (n + 2)) = beAt p (n + 2) 4 then
      if 8 ≤ x.mgHeld.length then .next (raise s (.fb bundle) 14)
      else .next (setBundle (count1 s (Reg.fbMgmtRxPackets bundle)) bundle
        { Machine.bundle s bundle with mgHeld := x.mgHeld ++ [slice p 2 n] })
    else .next (raise (count1 s (Reg.fbMgmtRxCrcErrors bundle)) (.fb bundle) 13)

/-- TIME_PLL_LOCK (R296): the TIME PLL locks to SYSREF. -/
def execTimePllLock (s : State) : Host.Outcome State Fault Refusal := 
  .next (if s.pwr.inReset then s else { s with fl.timeLocked := true })

/-! ### Entries (R320, R321) -/

/-- `fl_state`. -/
def flStateOf (s : State) (l : Nat) : Nat :=
  let b := bundleOf l
  let x := flane s l
  if laneTest s l then 5
  else if !x.on && !x.signal then 0
  else if bit (reg s (Reg.fbTxLaneSet b)) (l % 40) && x.on then 4
  else if x.locked then (if bit (reg s (Reg.fbRxLaneSet b)) (reg s (Reg.flRxLaneId l)) then 4 else 3)
  else if !x.on then 1 else 2

/-- Values that are not stored. -/
def flRead (s : State) (k : Nat) : Nat :=
  if idxOf k < 0x2640 ∧ subOf k = 0 then bundleOf (idxOf k - 0x2500)
  else if idxOf k < 0x2640 ∧ subOf k = 4 then flStateOf s (idxOf k - 0x2500)
  else reg s k

/-- Writes of lane and bundle entries. -/
def flWrite (k v : Nat) (s : State) : Applied :=
  if idxOf k < 0x2640 then
    if subOf k = 0x0E ∨ subOf k = 0x10 then wFlTest k v s
    else if subOf k = 1 then
      let l := idxOf k - 0x2500
      .done (setFlane (setReg s k v) l { flane s l with on := v != 0 && (flane s l).on })
    else storeRule k v s
  else
    let b := idxOf k - 0x2700
    if subOf k = 4 then (if v < reg s (Reg.fbShedHighPct b) then storeRule k v s else .fail .refused)
    else if subOf k = 5 then (if reg s (Reg.fbShedLowPct b) < v then storeRule k v s else .fail .refused)
    else if subOf k = 0x19 ∨ subOf k = 0x1A ∨ subOf k = 0x18 then .done (touchPath (setReg s k (writable k v)) b)
    else storeRule k v s

/-- DOMAIN values. -/
def flDomain (s : State) (k : Nat) : List Byte :=
  if idxOf k < 0x2640 then
    let x := flane s (idxOf k - 0x2500)
    if subOf k = 0x11 then pmCurrent x.near x.far else pmHistory x.near x.far
  else
    let x := bundle s (idxOf k - 0x2700)
    if subOf k = 0x1C then pmCurrent x.near x.far else pmHistory x.near x.far

end Sys2Proof.Machine
end

