-- ==== Sys2Proof/Machine/Pennant.lean ====
section
/-! DEFINITION. Pennants received (R323–R328, R331, R334–R337, R341, R344–R349, R352): the header check, relaying, beacons,
credit entries, reorder and reassembly. -/

namespace Sys2Proof.Machine

/-- Whether an ID names a device (R331). -/
def namesDevice (d : Nat) : Bool := d != 0 && d != 0xFFFFF

/-- The header check (R325). A beacon's length is not stated: any is taken (notes/assumptions/32). -/
def headerOk (p : List Byte) : Bool :=
  let n := pnLen p
  let t := pnType p
  crc16 (p.take 14) == beAt p 14 2 && decide (n ≤ 240) &&
    (if t = 5 then decide (1 ≤ pnSegs p) && decide (5 * (pnSegs p + 1) ≤ n)
     else pnSegs p == 0 &&
       (if t = 0 then n == 0
        else if t = 2 ∨ t = 3 then n == 240
        else if t = 1 ∨ t = 4 ∨ t = 6 ∨ t = 10 then decide (1 ≤ n)
        else if t = 7 ∨ t = 8 then decide (16 ≤ n) && n % 16 == 0
        else t == 9))

/-- The next received pennant of a bundle, where its type is one of these: one that fails its check is discarded, and one
other than idle at an unnamed device (R325, R331). -/
def takePlace (s : State) (b : Nat) (tys : List Nat) : Option (List Byte) × State :=
  match (bundle s b).places with
  | [] => (none, s)
  | p :: r =>
    let t := setBundle s b { bundle s b with places := r }
    if !headerOk p then (none, raise (count1 t (Reg.ftHdrErrors b)) .ft 3)
    else if !tys.contains (pnType p) then (none, s)
    else if pnType p ≠ 0 ∧ !namesDevice (ownId s) then (none, count1 t Reg.ftUnnamedDiscards)
    else (some p, t)

/-! ### Choosing a bundle (R340, R342) -/

/-- Places free in a bundle's transmit buffer. -/
def bufferRoom (x : FBundle) : Bool := decide (x.relay.length + x.own.length + x.credit.length < 8192)

/-- The deficit round robin over the bundles; a pennant costs one of a bundle's committed lanes (R340). -/
def sprayLoop : Nat → State → (Nat → Bool) → Option (Nat × State)
  | 0, _, _ => none
  | f + 1, s, ok =>
    let b := s.ft.sprayAt
    let left := mget 0 s.ft.sprayLeft b
    if 0 < left ∧ ok b then some (b, { s with ft.sprayLeft := mset 0 s.ft.sprayLeft b (left - 1) })
    else
      let n := (b + 1) % 8
      let quantum := popCount 40 (reg s (Reg.fbTxLaneSet n))
      sprayLoop f { s with ft.sprayAt := n, ft.sprayLeft := mset 0 s.ft.sprayLeft n quantum } ok

/-- The bundle of a pennant to a device: in its route set but not `from'`, with room, and for a data pennant with its Burgee
bit clear. -/
def spray (s : State) (d : Nat) (from' : Option Nat) (cls : Option Nat) (room : FBundle → Bool) : Option (Nat × State) :=
  let set := routeSet s d
  sprayLoop 10 s (fun b => set.contains b && some b != from' && room (bundle s b) &&
    (match cls with
     | some c => !bit (bundle s b).burgee c
     | none => true))

/-- Whether a pennant is data for R340. -/
def dataClass (p : List Byte) : Option Nat := if 1 ≤ pnType p ∧ pnType p ≤ 5 then some (pnClass p) else none

/-- Relay a pennant that came on bundle `a` (R341, R342). Where every bundle is held back it takes its turn all the same and
waits in the buffer; a relayed sequence start takes one bundle's queue (notes/assumptions/33). -/
def relay (s : State) (a : Nat) (p : List Byte) : State :=
  let d := pnDst p
  let routes := (routeSet s d).filter (· ≠ a)
  if destState s d = 0 ∨ natAt (destRec s d).dist a ≤ bestDist s d ∨ routes.isEmpty then
    raise (count1 s Reg.ftRelayNoRoute) .ft 4
  else
    let ctl := pnType p == 10
    let room : FBundle → Bool := fun x => if ctl then decide (x.ctrl.length < 64) else bufferRoom x
    match (spray s d (some a) (dataClass p) room).orElse (fun _ => spray s d (some a) none room) with
    | some (b, s) =>
      let x := bundle s b
      setBundle s b (if ctl then { x with ctrl := x.ctrl ++ [p] } else { x with relay := x.relay ++ [p] })
    | none => match routes.head? with
      | some b => count1 s (Reg.ftRelayOverflow b)
      | none => s

/-! ### Reassembly (R328, R348, R349, R352) -/

/-- The keys of a pair's reassembly and of a group's. -/
def pairKey (src : Nat) : Nat := src
def groupKey (src g : Nat) : Nat := 2 ^ 40 + src * 65536 + g

/-- The packet of an open reassembly is lost with a reason. -/
def dropAssembly (s : State) (k reason : Nat) : State :=
  match mfind s.ft.asm k with
  | none => s
  | some a =>
    let s := { s with ft.asm := mdel s.ft.asm k }
    match a.pkt with
    | some i => macDiscard s i reason (a.form.drop 36)
    | none => s

/-- A segment that belongs to no packet. -/
def orphan (s : State) : State := count1 s Reg.ftOrphanSegments

/-- The speed a prefix names, in Gb/s; 0 not known (R326). -/
def codeSpeed (c : Nat) : Nat :=
  natAt [0, 10, 25, 40, 50, 100, 200, 400, 800, 1600] c

/-- The descriptor of a packet as it is stored here: local unicast, or a local fan-out (R255, R352). The source's copies are
made again where the descriptor asks for them (notes/assumptions/31). -/
def arrivalDesc (form : List Byte) (mc : Bool) : Nat := setBits (beAt form 4 32) 255 253 (if mc then 2 else 0)

/-- The end of a packet from the fabric: its trailer is checked (R328). Cells beyond the estimate are taken now (R349). -/
def finishForm (s : State) (k : Nat) : State :=
  match mfind s.ft.asm k with
  | none => s
  | some a =>
    let s := { s with ft.asm := mdel s.ft.asm k }
    match a.pkt with
    | none => s
    | some i => match pkt? s i with
      | none => s
      | some p =>
        let n := a.form.length - 44
        let old := p.data.length
        let data := slice a.form 36 n
        let tl := beAt a.form (36 + n) 8
        let desc := setBits (beAt a.form 4 32) 198 185 (bits tl 31 18)
        let crc := crc32c (a.form.take 4 ++ beBytes 32 desc ++ data)
        if a.form.length < 44 ∨ bits tl 31 18 ≠ n ∨ crc ≠ bits tl 63 32 then macDiscard s i 32 data
        else if bits tl 17 12 ≠ 0 then macDiscard s i (bits tl 17 12) data
        else
          let p := { p with len := some n, data := data, bad := some 0,
                            hrCells := if p.hrPool = 32 then 0 else cellsFor n }
          landBytes (setPkt s i p) i old

/-- A packet begins (R348, R349): it arrives, and is stored where the pool's free headroom lets it. -/
def beginForm (s : State) (k src seq : Nat) (mc : Bool) (form : List Byte) : State :=
  let d := arrivalDesc form mc
  let s := { s with led.aFabric := s.led.aFabric + 1, led.oFab := s.led.oFab + 1 }
  let m := reg s Reg.ftRxMaxFrame
  let l := if dLength d = 0x3FFF then m - 4 else dLength d
  let pool := reg s Reg.ftRxPool
  let i := s.nextPkt
  let p : Pkt := { origin := .fabric, inPort := dInPort d, stage := .ready, desc := d,
                   data := (form.drop 36).take (if dLength d = 0x3FFF then form.length else dLength d), est := cellsFor l,
                   len := if dLength d = 0x3FFF then none else some l, hrPool := pool, hrCells := cellsFor l, maxFrame := m, src := src,
                   speed := codeSpeed (byteAt form 0 / 16), credited := !mc, mcFabric := mc, rxAt := s.time }
  let free := reg s (Reg.poolHeadroom pool) - headroomUse s pool
  let full := mc && decide (4096 ≤ (s.ft.asm.filter (fun x => decide (2 ^ 40 ≤ x.1))).length)
  if full ∨ free < cellsFor l then
    let s := discardArrival { setPkt s i { p with len := some l } with nextPkt := i + 1 } i 28
    if full then s else { s with ft.asm := mput s.ft.asm k { pkt := none, form := form, lastAt := s.time, seq := seq } }
  else
    landBytes { setPkt s i p with
      nextPkt := i + 1
      ft.asm := mput s.ft.asm k { pkt := some i, form := form, lastAt := s.time, seq := seq } } i 0

/-- The bytes of a packet in reassembly have grown. -/
def growForm (s : State) (k seq : Nat) (a : Assembly) (b : List Byte) : State :=
  let form := a.form ++ b
  let s := { s with ft.asm := mput s.ft.asm k { a with form := form, lastAt := s.time, seq := seq } }
  match a.pkt.bind (pkt? s) with
  | some p =>
    let n := if dLength p.desc = 0x3FFF then form.length else dLength p.desc
    landBytes (setPkt s (a.pkt.getD 0) { p with data := (form.drop 36).take n }) (a.pkt.getD 0) p.data.length
  | none => s

/-- One delivered segment (R348): position 0 single, 1 first, 2 middle, 3 last. One too short for a descriptor is an orphan
(notes/assumptions/32). -/
def segment (s : State) (k src seq : Nat) (mc : Bool) (pos : Nat) (b : List Byte) : State :=
  if pos ≤ 1 then
    let s := dropAssembly s k 34
    if b.length < 36 then orphan s
    else
      let s := beginForm s k src seq mc b
      if pos = 0 then finishForm s k else s
  else match mfind s.ft.asm k with
    | none => orphan s
    | some a =>
      let s := growForm s k seq a b
      if pos = 3 then finishForm s k else s

/-- The segments of a packed payload, behind their markers (R327); none where they break its rules. -/
def markers : Nat → List Byte → Bool → Option (List (Nat × List Byte))
  | 0, _, _ => some []
  | n + 1, b, first =>
    let m := beAt b 0 4
    let pos := bits m 31 30
    let k := bits m 29 22
    if b.length < 4 + k ∨ k = 0 ∨ 236 < k ∨ (!first ∧ 2 ≤ pos) ∨ (n ≠ 0 ∧ (pos = 1 ∨ pos = 2)) then none
    else (markers n (b.drop (4 + k)) false).map (fun r => (pos, slice b 4 k) :: r)

/-- Deliver a pennant of a pair (R348). -/
def deliver (s : State) (src : Nat) (p : List Byte) : State :=
  let body := (p.drop 16).take (pnLen p)
  let segs : Option (List (Nat × List Byte)) :=
    if pnType p = 5 then markers (pnSegs p + 1) body true else some [(pnType p - 1, body)]
  match segs with
  | some l => l.foldl (fun s x => segment s (pairKey src) src (pnSeq p) false x.1 x.2) s
  | none => orphan s

/-! ### Reorder (R347) -/

def rxCtx (s : State) (src : Nat) : RxCtx := mget {} s.ft.ctxs src
def setCtx (s : State) (src : Nat) (c : RxCtx) : State := { s with ft.ctxs := mset {} s.ft.ctxs src c }

/-- Pennants held for all sources. -/
def heldPennants (s : State) : Nat := s.ft.ctxs.foldl (fun t c => t + c.2.held.length) 0

/-- Hold a pennant, where there is a place. -/
def holdPennant (s : State) (src : Nat) (h : HeldPennant) : State :=
  let c := rxCtx s src
  if 16384 ≤ heldPennants s then count1 s Reg.ftReorderFull
  else setCtx s src { c with held := c.held ++ [h] }

/-- How far a sequence lies past the expected one. -/
def seqAhead (e q : Nat) : Nat := (q + 2 ^ 24 - e % 2 ^ 24) % 2 ^ 24

/-- Deliver every held pennant that now follows in order. -/
def drainHeldPennants : Nat → State → Nat → State
  | 0, s, _ => s
  | f + 1, s, src =>
    let c := rxCtx s src
    match c.held.find? (fun h => h.seq == c.e) with
    | none => s
    | some h =>
      let s := setCtx s src { c with e := (c.e + 1) % 2 ^ 24, held := c.held.filter (fun x => x.seq != h.seq) }
      drainHeldPennants f (deliver s src h.bytes) src

/-- Sequences from the expected one up to `e` are declared lost; what was held among them is gone. -/
def declareLost (s : State) (src e : Nat) : State :=
  let s := raise (count1 s Reg.ftSeqGaps) .ft 5
  let s := dropAssembly s (pairKey src) 34
  let c := rxCtx s src
  let keep := c.held.filter (fun h => decide (seqAhead e h.seq < 2 ^ 23))
  drainHeldPennants 16384 (setCtx s src { c with e := e % 2 ^ 24, held := keep }) src

/-- A pennant of an OPEN context is judged. A second copy of a held one is stale (notes/assumptions/32). -/
def judge : Nat → State → Nat → HeldPennant → State
  | 0, s, _, _ => s
  | f + 1, s, src, h =>
    let c := rxCtx s src
    let d := seqAhead c.e h.seq
    if d = 0 then
      drainHeldPennants 16384 (deliver (setCtx s src { c with e := (c.e + 1) % 2 ^ 24 }) src h.bytes) src
    else if d < reg s Reg.ftReorderWindow then
      (if c.held.any (fun x => x.seq == h.seq) then count1 s Reg.ftStalePennants else holdPennant s src h)
    else if 2 ^ 23 ≤ d then count1 s Reg.ftStalePennants
    else judge f (declareLost s src ((h.seq + 1 + 2 ^ 24 - reg s Reg.ftReorderWindow) % 2 ^ 24)) src h

/-- The context opens at a sequence: what it holds is judged. -/
def openCtx (s : State) (src e : Nat) : State :=
  let c := rxCtx s src
  c.held.foldl (fun s h => judge 2 s src h) (setCtx s src { c with state := 2, e := e, held := [] })

/-- A data pennant of a pair arrives at its destination. -/
def pairArrival (s : State) (src : Nat) (p : List Byte) : State :=
  let h : HeldPennant := { seq := pnSeq p, at0 := s.time, bytes := p }
  let c := rxCtx s src
  if c.state = 2 then judge 2 s src h
  else if c.state = 1 then holdPennant s src h
  else holdPennant (setCtx s src { c with state := 1, since := s.time }) src h

/-- DATA_PENNANT_RECEIVE (R341, R347). -/
def execDataPennantReceive (bundle : Nat) (s : State) : Host.Outcome State Fault Refusal :=
  match takePlace s bundle [1, 2, 3, 4, 5] with
  | (none, s) => .next s
  | (some p, s) =>
    if pnDst p ≠ ownId s then .next (relay s bundle p)
    else if namesDevice (pnSrc p) then .next (touchVoqs (pairArrival s (pnSrc p) p))
    else .next s

/-- SEQUENCE_START_RECEIVE (R329, R347): other control codes are reserved, and nothing comes of them. -/
def execSequenceStartReceive (bundle : Nat) (s : State) : Host.Outcome State Fault Refusal :=
  match takePlace s bundle [10] with
  | (none, s) => .next s
  | (some p, s) =>
    if pnDst p ≠ ownId s then .next (relay s bundle p)
    else if byteAt p 16 ≠ 1 ∨ !namesDevice (pnSrc p) then .next s
    else
      let c := rxCtx s (pnSrc p)
      if c.state ≠ 2 then .next (openCtx s (pnSrc p) (pnSeq p))
      else if c.e = pnSeq p then .next s
      else .next (declareLost s (pnSrc p) (pnSeq p))

/-- IDLE_PENNANT_RECEIVE (R325). -/
def execIdlePennantReceive (bundle : Nat) (s : State) : Host.Outcome State Fault Refusal :=
  .next (takePlace s bundle [0]).2

/-- REORDER_TIMEOUT (R347): AWAIT opens at the lowest held sequence; in an OPEN context the sequences below the lowest held
one are lost. -/
def execReorderTimeout (src : Nat) (s : State) : Host.Outcome State Fault Refusal :=
  let c := rxCtx s src
  let t := reg s Reg.ftReorderTimeoutNs
  match c.held with
  | [] => .next s
  | h :: r =>
    if c.state = 1 then
      if c.since + t ≤ s.time then .next (touchVoqs (openCtx s src (r.foldl (fun m x => min m x.seq) h.seq))) else .next s
    else if c.state = 2 then
      if h.at0 + t ≤ s.time then
        let low := r.foldl (fun m x => if seqAhead c.e x.seq < seqAhead c.e m then x.seq else m) h.seq
        .next (touchVoqs (declareLost s src low))
      else .next s
    else .next s

/-- REASSEMBLY_TIMEOUT (R348): of a source's pair, or of one of its groups. -/
def execReassemblyTimeout (src : Nat) (group : Option Nat) (s : State) : Host.Outcome State Fault Refusal :=
  let k := match group with
    | some g => groupKey src g
    | none => pairKey src
  match mfind s.ft.asm k with
  | none => .next s
  | some a =>
    if a.lastAt + reg s Reg.ftReassemblyTimeoutUs * 1000 ≤ s.time then .next (touchVoqs (dropAssembly s k 33)) else .next s

/-! ### Multicast (R352) -/

/-- A group's word of `ft_mc_map`. -/
def fabricMap (s : State) (g : Nat) : Nat := mget 0 s.ft.mcMap g

/-- MULTICAST_PENNANT_RECEIVE (R352): a copy on each other bundle of the mask, and local delivery. -/
def execMulticastPennantReceive (bundle : Nat) (s : State) : Host.Outcome State Fault Refusal :=
  match takePlace s bundle [6] with
  | (none, s) => .next s
  | (some p, s) =>
    let g := pnDst p % 65536
    let src := pnSrc p
    let w := fabricMap s g
    let s := (bitList 8 w).foldl (fun s b =>
      if b = bundle then s
      else
        let x := Machine.bundle s b
        if bufferRoom x then setBundle s b { x with relay := x.relay ++ [p] } else count1 s (Reg.ftRelayOverflow b)) s
    if bit w 8 ∧ namesDevice src then
      let k := groupKey src g
      let s := match mfind s.ft.asm k with
        | some a => if (a.seq + 1) % 2 ^ 24 = pnSeq p then s else dropAssembly s k 34
        | none => s
      .next (touchVoqs (segment s k src (pnSeq p) true (pnFlags p / 8) ((p.drop 16).take (pnLen p))))
    else .next s

/-! ### Beacons and probes (R333–R337) -/

/-- A beacon or control pennant joins a bundle's queue of 64; one that finds it full is lost. -/
def sendControlPennant (s : State) (b : Nat) (p : List Byte) : State :=
  let x := bundle s b
  if x.ctrl.length < 64 then setBundle s b { x with ctrl := x.ctrl ++ [p] } else s

/-- A beacon as bundle `b` sends it. -/
def beacon (s : State) (src seq dist b : Nat) : List Byte :=
  pennant 9 src 0 0 0 seq 8 0 0 (beBytes 2 dist ++ [byte b, 0] ++ beBytes 4 (ownId s))

/-- Whether a bundle's receive side has a path defect. -/
def pathDown (s : State) (b : Nat) : Bool := reg s (Reg.fbPathDefects b) != 0

/-- BEACON_RECEIVE (R334). -/
def execBeaconReceive (bundle : Nat) (s : State) : Host.Outcome State Fault Refusal :=
  match takePlace s bundle [9] with
  | (none, s) => .next s
  | (some p, s) =>
    let o := pnSrc p
    if o = ownId s then .next (raise (count1 s Reg.ftOwnBeacons) .ft 7)
    else if !namesDevice o then .next s
    else
      let r := destRec s o
      let d := min (beAt p 16 2 + 1) 0xFFFE
      let s := setDestRec s o { r with dist := putAt r.dist bundle d, miss := putAt r.miss bundle 0
                                       heard := if bit r.heard bundle then r.heard else setBit r.heard bundle }
      let s := routeChanged s o
      if d = bestDist s o ∧ r.relayed ≠ some (pnSeq p) ∧ d < 0xFFFE then
        let s := setDestRec s o { destRec s o with relayed := some (pnSeq p) }
        .next ((List.range 8).foldl (fun s b =>
          if b = bundle ∨ pathDown s b then s else sendControlPennant s b (beacon s o (pnSeq p) d b)) s)
      else .next s

/-- BEACON_SEND (R333): at each multiple of 100 µs of TIME. -/
def execBeaconSend (s : State) : Host.Outcome State Fault Refusal :=
  if timeNs s % 100000 = 0 ∧ flag s Reg.ftBeaconEnable ∧ namesDevice (ownId s) then
    let n := s.ft.beacons
    let s := (List.range 8).foldl (fun s b =>
      if pathDown s b then s else sendControlPennant s b (beacon s (ownId s) n 0 b)) s
    .next { s with ft.beacons := (n + 1) % 2 ^ 24 }
  else .next s

/-- One device's misses (R335). -/
def missCheck (s : State) (d : Nat) : State :=
  let r := destRec s d
  let step := fun (x : List Nat × List Nat) (b : Nat) =>
    if natAt x.1 b = 0xFFFF ∨ bit r.heard b then x
    else if natAt x.2 b = 2 then (putAt x.1 b 0xFFFF, putAt x.2 b 0)
    else (x.1, putAt x.2 b (natAt x.2 b + 1))
  let x := (List.range 8).foldl step (r.dist, r.miss)
  routeChanged (setDestRec s d { r with dist := x.1, miss := x.2, heard := 0 }) d

/-- BEACON_MISS_CHECK (R335): at each multiple of 100 µs of TIME. -/
def execBeaconMissCheck (s : State) : Host.Outcome State Fault Refusal :=
  if timeNs s % 100000 = 0 then .next ((mkeys s.ft.recs).foldl missCheck s) else .next s

/-- PROBE_SEND (R337): to a PROBING or TOO_FAR device, or a REACHABLE one with a bound VOQ, every `ft_probe_us`. -/
def execProbeSend (dest : Nat) (s : State) : Host.Outcome State Fault Refusal :=
  let st := destState s dest
  let due := match (destRec s dest).probeAt with
    | some t => decide (t + reg s Reg.ftProbeUs * 1000 ≤ s.time)
    | none => true
  if (st == 1 || st == 3 || (st == 2 && !(voqsOf s dest).isEmpty)) && due then .next (probeDest s dest) else .next s

/-- PROBE_UNANSWERED (R336): the third probe in a row has found no answer within the horizon. -/
def execProbeUnanswered (dest : Nat) (s : State) : Host.Outcome State Fault Refusal :=
  let r := destRec s dest
  match r.probeAt with
  | none => .next s
  | some t =>
    if destReachable s dest ∧ 3 ≤ r.silent ∧ t + reg s Reg.ftHorizonNs < s.time then .next (enterDest s dest 3) else .next s

/-! ### Credit entries (R337, R344–R346) -/

/-- The entries of a credit pennant wait for their handling; reserved kinds and kinds of the other pennant are ignored. -/
def takeEntries (s : State) (p : List Byte) (kinds : List Nat) : State :=
  if namesDevice (pnSrc p) then
    let es := (List.range (pnLen p / 16)).map (fun i => beAt p (16 + 16 * i) 16)
    { s with ft.inbox := s.ft.inbox ++ ((es.filter (fun e => kinds.contains (bits e 114 112))).map (fun e => (pnSrc p, e))) }
  else s

/-- CREDIT_REQUEST_PENNANT_RECEIVE (R344). -/
def execCreditRequestPennantReceive (bundle : Nat) (s : State) : Host.Outcome State Fault Refusal :=
  match takePlace s bundle [7] with
  | (none, s) => .next s
  | (some p, s) => if pnDst p ≠ ownId s then .next (relay s bundle p) else .next (takeEntries s p [1, 3, 5])

/-- CREDIT_GRANT_PENNANT_RECEIVE (R344). -/
def execCreditGrantPennantReceive (bundle : Nat) (s : State) : Host.Outcome State Fault Refusal :=
  match takePlace s bundle [8] with
  | (none, s) => .next s
  | (some p, s) => if pnDst p ≠ ownId s then .next (relay s bundle p) else .next (takeEntries s p [2, 4, 6])

/-- Fields of an entry. -/
def cePort (e : Nat) : Nat := bits e 127 118
def ceClass (e : Nat) : Nat := bits e 117 115
def ceUnits (e : Nat) : Nat := bits e 111 96
def ceBytes (e : Nat) : Nat := bits e 95 72
def ceTime (e : Nat) : Nat := bits e 63 32

/-- The next waiting entry, where it is of this kind: its source, the entry, and the state without it. -/
def takeEntry (s : State) (kind : Nat) : Option (Nat × Nat × State) :=
  match s.ft.inbox with
  | [] => none
  | (src, e) :: r => if bits e 114 112 = kind then some (src, e, { s with ft.inbox := r }) else none

/-- Return entries for `n` bytes, as many as the 24-bit field needs. -/
def returnBytes : Nat → State → Nat → Nat → Nat → Nat → State
  | 0, s, _, _, _, _ => s
  | f + 1, s, d, prt, cls, n =>
    if n = 0 then s
    else
      let k := min n 0xFFFFFF
      returnBytes f (gatherEntry s d 7 (creditEntry prt cls 3 0 k 0)) d prt cls (n - k)

/-- CREDIT_REQUEST_ENTRY (R346). -/
def execCreditRequestEntry (s : State) : Host.Outcome State Fault Refusal :=
  match takeEntry s 1 with
  | none => .next s
  | some (src, e, s) =>
    let k := grantKey src (cePort e) (ceClass e)
    if (mfind s.ft.grants k).isSome ∨ s.ft.grants.length < 65536 then
      let g := mget {} s.ft.grants k
      .next (setGrant s k { g with p := g.p + ceUnits e })
    else .next (gatherEntry s src 8 (creditEntry (cePort e) (ceClass e) 4 (ceUnits e) 0 0))

/-- The bound VOQs of a triple. -/
def voqsFor (s : State) (d prt cls : Nat) : List Nat :=
  (voqsOf s d).filter (fun q => voqPort (qWord s q) == prt && voqClass (qWord s q) == cls)

/-- The VOQ an answer is for: the lowest that has asked, or else the lowest (notes/assumptions/34). -/
def answeredVoq (s : State) (src e : Nat) : Option Nat :=
  let l := voqsFor s src (cePort e) (ceClass e)
  (l.find? (fun q => decide (0 < (mget {} s.qm.voqs q).r))).orElse (fun _ => l.head?)

/-- Replace a VOQ's credit state. -/
def setVoq (s : State) (q : Nat) (v : Voq) : State := { s with qm.voqs := mset {} s.qm.voqs q v }

/-- CREDIT_GRANT_ENTRY (R345, R281). -/
def execCreditGrantEntry (s : State) : Host.Outcome State Fault Refusal :=
  match takeEntry s 2 with
  | none => .next s
  | some (src, e, s) => match answeredVoq s src e with
    | some q =>
      let v := mget {} s.qm.voqs q
      .next (touchVoqs (setVoq s q { v with b := v.b + 4096 * ceUnits e, r := v.r - ceUnits e, answerAt := s.time }))
    | none =>
      let s := raise (count1 s Reg.voqStrayGrants) .qm 7
      .next (returnBytes 17 s src (cePort e) (ceClass e) (4096 * ceUnits e))

/-- CREDIT_RETURN_ENTRY (R346). -/
def execCreditReturnEntry (s : State) : Host.Outcome State Fault Refusal :=
  match takeEntry s 3 with
  | none => .next s
  | some (src, e, s) =>
    let k := grantKey src (cePort e) (ceClass e)
    let g := mget {} s.ft.grants k
    .next (setGrant s k { g with o := g.o - ceBytes e })

/-- CREDIT_BUSY_ENTRY (R345). -/
def execCreditBusyEntry (s : State) : Host.Outcome State Fault Refusal :=
  match takeEntry s 4 with
  | none => .next s
  | some (src, e, s) => match answeredVoq s src e with
    | some q =>
      let v := mget {} s.qm.voqs q
      .next (touchVoqs (setVoq s q { v with r := v.r - ceUnits e, busyUntil := some (s.time + 1000), answerAt := s.time }))
    | none => .next s

/-- PROBE_ENTRY (R337): answered at once, whatever the budgets. -/
def execProbeEntry (s : State) : Host.Outcome State Fault Refusal :=
  match takeEntry s 5 with
  | none => .next s
  | some (src, e, s) => .next (gatherEntry s src 8 (creditEntry 0 0 6 0 0 (ceTime e)))

/-- PROBE_ANSWER_ENTRY (R336, R337). -/
def execProbeAnswerEntry (s : State) : Host.Outcome State Fault Refusal :=
  match takeEntry s 6 with
  | none => .next s
  | some (src, e, s) =>
    let rtt := (timeNs s + 2 ^ 32 - ceTime e) % 2 ^ 32
    let s := setDestRec s src { destRec s src with rtt := rtt, silent := 0 }
    let st := destState s src
    if st = 0 then .next s
    else if rtt ≤ reg s Reg.ftHorizonNs then .next (if st = 2 then s else touchVoqs (enterDest s src 2))
    else .next (if st = 3 then s else touchVoqs (enterDest s src 3))

/-- CREDIT_BUSY_HOLDOFF_END (R345). -/
def execCreditBusyHoldoffEnd (queue : Nat) (s : State) : Host.Outcome State Fault Refusal :=
  let v := mget {} s.qm.voqs queue
  match v.busyUntil with
  | some t => if t ≤ s.time then .next (touchVoqs { s with qm.voqs := mset {} s.qm.voqs queue { v with busyUntil := none } })
      else .next s
  | none => .next s

/-- CREDIT_RETURN_TIMER (R345). -/
def execCreditReturnTimer (queue : Nat) (s : State) : Host.Outcome State Fault Refusal :=
  let v := mget {} s.qm.voqs queue
  let w := qWord s queue
  match v.creditSince with
  | some t =>
    if t + reg s Reg.ftReturnNs ≤ s.time ∧ !holdsRef (Machine.queue s queue) ∧ 0 < v.b then
      let s := { s with qm.voqs := mset {} s.qm.voqs queue { v with b := 0, creditSince := none } }
      .next (touchVoqs (returnBytes (v.b / 0xFFFFFF + 1) s (voqDevice w) (voqPort w) (voqClass w) v.b))
    else .next s
  | none => .next s

/-- CREDIT_REQUEST_TIMEOUT (R345). -/
def execCreditRequestTimeout (queue : Nat) (s : State) : Host.Outcome State Fault Refusal :=
  let v := mget {} s.qm.voqs queue
  if 0 < v.r ∧ v.answerAt + reg s Reg.ftRequestTimeoutUs * 1000 ≤ s.time then
    let s := { s with qm.voqs := mset {} s.qm.voqs queue { v with r := 0 } }
    .next (touchVoqs (raise (count1 s Reg.ftRequestTimeouts) .ft 6))
  else .next s

/-! ### The grant engine (R346) -/

/-- A port's token bucket: its unit is one bit over 100, it holds 4 units and starts full (notes/assumptions/34). -/
def grantCap : Nat := 4 * 4096 * 8 * 100

/-- Tokens of a port now. -/
def grantTokens (s : State) (p : Nat) : Nat :=
  min grantCap (mget grantCap s.ft.tokens p +
    (s.time - mget 0 s.ft.tokenAt p) * portSpeed s p * reg s Reg.ftGrantSpeedupPct)

/-- O of a port and class. -/
def grantedBytes (s : State) (p c : Nat) : Nat :=
  (s.ft.grants.filter (fun x => x.1 % 8192 == p * 8 + c)).foldl (fun t x => t + x.2.o) 0

/-- The contexts of a port, from the one after the cursor on. -/
def grantTurn (s : State) (p : Nat) : List Nat :=
  let l := mkeys (s.ft.grants.filter (fun x => x.1 % 8192 / 8 == p))
  let c := mget 0 s.ft.cursor p
  l.filter (fun k => decide (c ≤ k)) ++ l.filter (fun k => decide (k < c))

/-- Whether a context may be granted a unit. -/
def grantable (s : State) (k : Nat) : Bool :=
  decide (0 < (mget {} s.ft.grants k).p) &&
    decide (grantedBytes s (k % 8192 / 8) (k % 8) + 4096 ≤ reg s Reg.ftGrantBudgetKib * 1024)

/-- GRANT_ISSUE (R346): one unit to the next context in turn that may have it. -/
def execGrantIssue (port : Nat) (s : State) : Host.Outcome State Fault Refusal :=
  let t := grantTokens s port
  match (grantTurn s port).find? (grantable s) with
  | none => .next s
  | some k =>
    if t < 4096 * 8 * 100 ∨ portSpeed s port = 0 then .next s
    else
      let g := mget {} s.ft.grants k
      let s := { s with ft.tokens := mset grantCap s.ft.tokens port (t - 4096 * 8 * 100),
                        ft.tokenAt := mset 0 s.ft.tokenAt port s.time, ft.cursor := mset 0 s.ft.cursor port (k + 1) }
      let s := setGrant s k { p := g.p - 1, o := g.o + 4096 }
      .next (gatherEntry s (k / 8192) 8 (creditEntry (k % 8192 / 8) (k % 8) 2 1 0 0))

end Sys2Proof.Machine
end

