-- ==== Sys2Proof/Machine/Parser.lean ====
section
/-! DEFINITION. The Sieve (ch. 4): from a header window, a start offset and a start kind to the header vector of
R95. It has no state of its own (R99): the configuration is read as the window enters. -/

namespace Sys2Proof.Machine

/-- A window under parse: its bytes, its valid length, and the parser entries in effect (R82, R99, R100). -/
structure Sieve where
  w : List Byte
  vl : Nat
  ctag : Nat
  stag : Nat
  extra : Nat
  vxlan : Nat
  mpls : Nat
  csum : Bool

/-- A window of the given bytes of a packet (R82). -/
def sieveOf (s : State) (w : List Byte) : Sieve :=
  { w := w.take 128, vl := min w.length 128, ctag := reg s Reg.parserTpidCtag, stag := reg s Reg.parserTpidStag,
    extra := reg s Reg.parserTpidExtra, vxlan := reg s Reg.parserVxlanUdpPort, mpls := reg s Reg.parserMplsPayload,
    csum := flag s Reg.parserIpv4CsumCheck }

/-- `n` window bytes from offset `o`, most significant first. -/
def Sieve.u (c : Sieve) (o n : Nat) : Nat := beAt c.w o n

/-- One window byte. -/
def Sieve.b (c : Sieve) (o : Nat) : Nat := byteAt c.w o

/-- A failed check (R92). -/
def malformed (cls hv : Nat) : Nat := fput (fput hv hvParseError 1) hvErrorClass cls

/-- A depth event (R88). -/
def tooDeep (layer hv : Nat) : Nat := fput (fput hv hvDepth 1) hvDepthLayer layer

/-- A layer's first `n` bytes run past the frame's end (malformed, while the frame ends inside the window) or past byte
127 (depth); none when they lie in the window (R88, R92). -/
def Sieve.short (c : Sieve) (o n layer cls hv : Nat) : Option Nat :=
  if c.vl < 128 ∧ c.vl < o + n then some (malformed cls hv)
  else if 128 < o + n then some (tooDeep layer hv)
  else none

/-- The kind of tag a type value names: 0 C-tag, 1 S-tag, 2 extra (R85). -/
def Sieve.tagKind (c : Sieve) (t : Nat) : Option Nat :=
  if t = c.ctag then some 0 else if t = c.stag then some 1 else if c.extra ≠ 0 ∧ t = c.extra then some 2 else none

/-- The outer or the inner field. -/
def side (inner : Bool) (o i : Fld) : Fld := if inner then i else o

/-- A PTP event header (R85, R97); `ulen` is the UDP length over IPv6, absent otherwise. -/
def Sieve.ptp (c : Sieve) (o : Nat) (ulen : Option Nat) (hv : Nat) : Nat :=
  if c.vl < 128 ∧ c.vl < o + 34 then hv
  else if 128 < o + 34 then tooDeep 10 hv
  else if 3 < c.b o % 16 then hv
  else
    let hv := fput (fput (fput (fput hv hvPtpValid 1) hvPtpOff o) hvPtpMsgType (c.b o % 16)) hvPtpDomain (c.b (o + 4))
    fput hv hvPtpOnestepOk (match ulen with
      | none => 1
      | some n => b2n (decide (8 + c.u (o + 2) 2 + 2 ≤ n)))

/-- TCP (R85, R88, R92). -/
def Sieve.tcp (c : Sieve) (inner : Bool) (o hv : Nat) : Nat :=
  let layer := if inner then 9 else 5
  match c.short o 20 layer 10 hv with
  | some h => h
  | none =>
    let n := c.b (o + 12) / 16 * 4
    if n < 20 ∨ (c.vl < 128 ∧ c.vl < o + n) then malformed 10 hv
    else
      let hv := fput (fput hv (side inner hvL4Type hvInnerL4Type) 2) (side inner hvL4Off hvInnerL4Off) o
      let hv := fput (fput hv (side inner hvL4Src hvInnerL4Src) (c.u o 2)) (side inner hvL4Dst hvInnerL4Dst) (c.u (o + 2) 2)
      let hv := fput hv (side inner hvTcpFlags hvInnerTcpFlags) (c.u (o + 12) 2 % 512)
      if 128 < o + n then tooDeep layer hv else hv

/-- ICMP and ICMPv6 (R85, R95). -/
def Sieve.icmp (c : Sieve) (inner v6 : Bool) (o hv : Nat) : Nat :=
  match c.short o 4 (if inner then 9 else 5) 10 hv with
  | some h => h
  | none =>
    let hv := fput (fput hv (side inner hvL4Type hvInnerL4Type) (if v6 then 4 else 3)) (side inner hvL4Off hvInnerL4Off) o
    fput hv (side inner hvL4Src hvInnerL4Src) (c.u o 2)

/-- UDP, then VXLAN by `vx` or PTP (R85, R92). -/
def Sieve.udp (c : Sieve) (inner v6 : Bool) (vx : Nat → Nat → Nat) (o hv : Nat) : Nat :=
  match c.short o 8 (if inner then 9 else 5) 10 hv with
  | some h => h
  | none =>
    let n := c.u (o + 4) 2
    let d := c.u (o + 2) 2
    if n < 8 then malformed 10 hv
    else
      let hv := fput (fput hv (side inner hvL4Type hvInnerL4Type) 1) (side inner hvL4Off hvInnerL4Off) o
      let hv := fput (fput hv (side inner hvL4Src hvInnerL4Src) (c.u o 2)) (side inner hvL4Dst hvInnerL4Dst) d
      if c.vxlan ≠ 0 ∧ d = c.vxlan then vx (o + 8) hv
      else if d = 319 then c.ptp (o + 8) (if v6 then some n else none) hv
      else hv

/-- The layer a protocol or final next header names (R85, R86); `vx` and `gre` parse the tunnels. -/
def Sieve.l4 (c : Sieve) (inner v6 : Bool) (vx gre : Nat → Nat → Nat) (o proto hv : Nat) : Nat :=
  if proto = 6 then c.tcp inner o hv
  else if proto = 17 then c.udp inner v6 vx o hv
  else if proto = (if v6 then 58 else 1) then c.icmp inner v6 o hv
  else if proto = 47 then gre o hv
  else fput hv (side inner hvL4Type hvInnerL4Type) 5

/-- The ones' complement sum of 16-bit words, folded. -/
def onesSum (l : List Byte) (n : Nat) : Nat :=
  let t := (List.range (n / 2)).foldl (fun t i => t + beAt l (2 * i) 2) 0
  let t := t % 65536 + t / 65536
  t % 65536 + t / 65536

/-- The fragment code of an offset and an M flag (R90). -/
def fragCode (off : Nat) (m : Bool) : Nat := if off = 0 then (if m then 1 else 0) else 2

/-- IPv4 (R85, R90–R92, R96). -/
def Sieve.ipv4 (c : Sieve) (inner : Bool) (vx gre : Nat → Nat → Nat) (o hv : Nat) : Nat :=
  let layer := if inner then 8 else 3
  match c.short o 20 layer 12 hv with
  | some h => h
  | none =>
    let n := c.b o % 16 * 4
    let total := c.u (o + 2) 2
    if c.b o / 16 ≠ 4 then malformed 3 hv
    else if n < 20 then malformed 4 hv
    else if total < n ∨ (c.vl < 128 ∧ c.vl < o + total) then malformed 5 hv
    else
      let bad := decide (o + n ≤ 128) && onesSum (slice c.w o n) n != 0xFFFF
      let hv := if bad then fput hv hvIpv4CsumBad 1 else hv
      if bad && c.csum then malformed 6 hv
      else
        let fr := fragCode (c.u (o + 6) 2 % 8192) (bit (c.b (o + 6)) 5)
        let hv := fput (fput hv (side inner hvL3Type hvInnerL3Type) 1) (side inner hvL3Off hvInnerL3Off) o
        let hv := fput (fput hv (side inner hvL3Src hvInnerL3Src) (c.u (o + 12) 4)) (side inner hvL3Dst hvInnerL3Dst) (c.u (o + 16) 4)
        let hv := fput (fput hv (side inner hvL3Proto hvInnerProto) (c.b (o + 9))) (side inner hvL3Ttl hvInnerTtl) (c.b (o + 8))
        let hv := fput (fput hv (side inner hvL3Dscp hvInnerDscp) (c.b (o + 1) / 4)) (side inner hvL3Ecn hvInnerEcn) (c.b (o + 1) % 4)
        let hv := if inner then hv else fput hv hvL3Len total
        let hv := fput hv (side inner hvFrag hvInnerFrag) fr
        let hv := if fr = 0 then hv else fput hv (side inner hvL4Type hvInnerL4Type) 6
        if 128 < o + n then tooDeep layer hv
        else if fr ≠ 0 then hv
        else c.l4 inner false vx gre (o + n) (c.b (o + 9)) hv

/-- The extension headers of an IPv6 header, `n` of them read (R86, R90, R91). The third is a depth event; the next
header last seen stands in the protocol field (notes/assumptions/21). -/
def Sieve.ext (c : Sieve) (inner : Bool) (vx gre : Nat → Nat → Nat) : Nat → Nat → Nat → Nat → Nat → Nat
  | 0, _, _, _, hv => hv
  | f + 1, n, o, nh, hv =>
    let layer := if inner then 8 else 4
    let hv := fput hv (side inner hvL3Proto hvInnerProto) nh
    if nh = 0 ∨ nh = 43 ∨ nh = 44 ∨ nh = 60 then
      if n = 2 then tooDeep layer hv
      else match c.short o 8 layer 9 hv with
        | some h => h
        | none =>
          let len := if nh = 44 then 8 else (c.b (o + 1) + 1) * 8
          if c.vl < 128 ∧ c.vl < o + len then malformed 9 hv
          else
            let hv := if inner then hv else fput hv hvExtCount (n + 1)
            let hv := fput hv (side inner hvL3Proto hvInnerProto) (c.b o)
            let fr := if nh = 44 then fragCode (c.u (o + 2) 2 / 8) (bit (c.b (o + 3)) 0) else 0
            if fr ≠ 0 then fput (fput hv (side inner hvFrag hvInnerFrag) fr) (side inner hvL4Type hvInnerL4Type) 6
            else if 128 < o + len then tooDeep layer hv
            else c.ext inner vx gre f (n + 1) (o + len) (c.b o) hv
    else c.l4 inner true vx gre o nh hv

/-- IPv6 (R85, R86, R92). -/
def Sieve.ipv6 (c : Sieve) (inner : Bool) (vx gre : Nat → Nat → Nat) (o hv : Nat) : Nat :=
  match c.short o 40 (if inner then 8 else 3) 12 hv with
  | some h => h
  | none =>
    let len := c.u (o + 4) 2 + 40
    let tc := c.u o 2 / 16 % 256
    if c.b o / 16 ≠ 6 then malformed 7 hv
    else if c.vl < 128 ∧ c.vl < o + len then malformed 8 hv
    else
      let hv := fput (fput hv (side inner hvL3Type hvInnerL3Type) 2) (side inner hvL3Off hvInnerL3Off) o
      let hv := fput (fput hv (side inner hvL3Src hvInnerL3Src) (c.u (o + 8) 16)) (side inner hvL3Dst hvInnerL3Dst) (c.u (o + 24) 16)
      let hv := fput hv (side inner hvL3Ttl hvInnerTtl) (c.b (o + 7))
      let hv := fput (fput hv (side inner hvL3Dscp hvInnerDscp) (tc / 4)) (side inner hvL3Ecn hvInnerEcn) (tc % 4)
      let hv := if inner then hv else fput (fput hv hvFlowLabel (c.u o 4 % 2 ^ 20)) hvL3Len len
      c.ext inner vx gre 4 0 (o + 40) (c.b (o + 6)) hv

/-- Label stack entries from `n` on; the parse goes on by `pay` after the bottom entry (R85, R87, R88). -/
def Sieve.labels (c : Sieve) (pay : Nat → Nat → Nat) : Nat → Nat → Nat → Nat → Nat
  | 0, _, _, hv => hv
  | f + 1, n, o, hv =>
    if n = 8 then tooDeep 2 hv
    else match c.short o 4 2 2 hv with
      | some h => h
      | none =>
        let e := c.u o 4
        let hv := if n = 0 then fput (fput hv hvMplsOff o) hvMplsTop e else if n = 1 then fput hv hvMplsSecond e else hv
        let hv := fput (fput hv hvMplsBottom e) hvMplsCount (n + 1)
        if bit e 8 then pay (o + 4) hv else c.labels pay f (n + 1) (o + 4) hv

/-- What follows the bottom entry (R87): `ip4` and `ip6` parse the payload, `cw` a control word. -/
def Sieve.payload (c : Sieve) (ip4 ip6 cw : Nat → Nat → Nat) (o hv : Nat) : Nat :=
  if c.mpls = 0 then hv
  else if c.vl ≤ o then (if c.vl < 128 then hv else tooDeep 3 hv)
  else
    let nib := c.b o / 16
    if nib = 4 then ip4 o hv else if nib = 6 then ip6 o hv else if nib = 0 ∧ c.mpls = 2 then cw o hv else hv

/-- Nothing further is parsed. -/
def endHere (_ hv : Nat) : Nat := hv

/-- Inner layers hold no tunnel (R85). -/
def Sieve.innerIp4 (c : Sieve) : Nat → Nat → Nat := c.ipv4 true endHere endHere
def Sieve.innerIp6 (c : Sieve) : Nat → Nat → Nat := c.ipv6 true endHere endHere

/-- An inner label stack: it fills the label fields when the pass has parsed no stack; a control word after it is a second
tunnel (R85). -/
def Sieve.innerMpls (c : Sieve) (o hv : Nat) : Nat :=
  if fget hv hvMplsCount ≠ 0 then hv
  else c.labels (c.payload c.innerIp4 c.innerIp6 (fun _ h => fput h hvMplsCw 1)) 9 0 o hv

/-- Inner Ethernet with at most one tag (R95); an inner type of MPLS is taken as after GRE (notes/assumptions/21). -/
def Sieve.innerEth (c : Sieve) (o hv : Nat) : Nat :=
  match c.short o 14 7 2 hv with
  | some h => h
  | none =>
    let hv := fput (fput hv hvInnerL2 1) hvInnerL2Off o
    let hv := fput (fput hv hvInnerDmac (c.u o 6)) hvInnerSmac (c.u (o + 6) 6)
    let next := fun (t q h : Nat) =>
      if t = 0x0800 then c.innerIp4 q h
      else if t = 0x86DD then c.innerIp6 q h
      else if t = 0x8847 ∨ t = 0x8848 then c.innerMpls q h
      else
        let h := fput h hvInnerL3Type 3
        if t = 0x88F7 then c.ptp q none h else h
    let t := c.u (o + 12) 2
    let hv := fput hv hvInnerEthertype t
    if (c.tagKind t).isSome then
      match c.short (o + 14) 4 7 2 hv with
      | some h => h
      | none =>
        let t := c.u (o + 16) 2
        let hv := fput (fput hv hvInnerTagTci (c.u (o + 14) 2)) hvInnerEthertype t
        if (c.tagKind t).isSome then fput hv hvInnerL3Type 3 else next t (o + 18) hv
    else next t (o + 14) hv

/-- VXLAN (R85, R92). -/
def Sieve.vxlanAt (c : Sieve) (o hv : Nat) : Nat :=
  match c.short o 8 6 10 hv with
  | some h => h
  | none =>
    let hv := fput (fput hv hvTunnelType 1) hvTunOff o
    if bit (c.b o) 3 then c.innerEth (o + 8) (fput hv hvVni (c.u (o + 4) 3)) else fput hv hvTunnelUnparsed 1

/-- GRE (R85, R88, R92). -/
def Sieve.greAt (c : Sieve) (o hv : Nat) : Nat :=
  match c.short o 4 6 10 hv with
  | some h => h
  | none =>
    let g := c.u o 2
    let p := c.u (o + 2) 2
    let n := if bit g 15 then 8 else 4
    if g % 8 ≠ 0 then malformed 11 hv
    else if c.vl < 128 ∧ c.vl < o + n then malformed 10 hv
    else
      let hv := fput (fput (fput hv hvTunnelType 2) hvTunOff o) hvGreProto p
      if bit g 13 || bit g 12 then fput hv hvTunnelUnparsed 1
      else if 128 < o + n then tooDeep 6 hv
      else if p = 0x0800 then c.innerIp4 (o + n) hv
      else if p = 0x86DD then c.innerIp6 (o + n) hv
      else if p = 0x6558 then c.innerEth (o + n) hv
      else if p = 0x8847 then c.innerMpls (o + n) hv
      else hv

/-- The outer layers, which may hold one tunnel. -/
def Sieve.outerIp4 (c : Sieve) : Nat → Nat → Nat := c.ipv4 false c.vxlanAt c.greAt
def Sieve.outerIp6 (c : Sieve) : Nat → Nat → Nat := c.ipv6 false c.vxlanAt c.greAt

/-- The control word, then inner Ethernet (R85). -/
def Sieve.controlWord (c : Sieve) (o hv : Nat) : Nat :=
  match c.short o 4 6 2 hv with
  | some h => h
  | none => c.innerEth (o + 4) (fput (fput (fput hv hvMplsCw 1) hvTunnelType 3) hvTunOff o)

/-- The outer label stack. -/
def Sieve.outerMpls (c : Sieve) (o hv : Nat) : Nat :=
  c.labels (c.payload c.outerIp4 c.outerIp6 c.controlWord) 9 0 o hv

/-- Tags from `n` on: `o` is the offset after the type field `t` (R85, R88). -/
def Sieve.tags (c : Sieve) (next : Nat → Nat → Nat → Nat) : Nat → Nat → Nat → Nat → Nat → Nat
  | 0, _, _, _, hv => hv
  | f + 1, n, o, t, hv =>
    let hv := fput hv hvEthertype t
    match c.tagKind t with
    | none => next t o hv
    | some k =>
      if n = 4 then tooDeep 1 hv
      else match c.short o 4 1 2 hv with
        | some h => h
        | none =>
          let hv := setBits hv (1039 - 16 * n) (1024 - 16 * n) (c.u o 2)
          let hv := setBits hv (969 + 2 * n) (968 + 2 * n) k
          c.tags next f (n + 1) (o + 4) (c.u (o + 2) 2) (fput hv hvVlanCount (n + 1))

/-- Ethernet (R85, R88, R98). -/
def Sieve.eth (c : Sieve) (o hv : Nat) : Nat :=
  match c.short o 14 3 1 hv with
  | some h => h
  | none =>
    let d := c.u o 6
    let hv := fput (fput hv hvDmac d) hvSmac (c.u (o + 6) 6)
    let hv := fput hv hvDaClass (if d = 2 ^ 48 - 1 then 2 else b2n (bit (c.b o) 0))
    let hv := fput hv hvSaGroup (b2n (bit (c.b (o + 6)) 0))
    c.tags (fun t q h =>
      if t = 0x0800 then c.outerIp4 q h
      else if t = 0x86DD then c.outerIp6 q h
      else if t = 0x8847 ∨ t = 0x8848 then c.outerMpls q h
      else
        let h := fput h hvL3Type 3
        if t = 0x88F7 then c.ptp q none h else h) 5 0 (o + 14) (c.u (o + 12) 2) hv

/-- One parse: kind 0 Ethernet, 1 MPLS, 2 IPv4, 3 IPv6 (R98). -/
def Sieve.parse (c : Sieve) (start kind : Nat) : Nat :=
  let hv := fput (fput hvReset hvValidLen c.vl) hvParseStart start
  if c.vl ≤ start then (if c.vl < 128 then malformed 1 hv else tooDeep 3 hv)
  else if kind = 0 then c.eth start hv
  else if kind = 1 then c.outerMpls start hv
  else if kind = 2 then c.outerIp4 start hv
  else c.outerIp6 start hv

/-- The counts and causes of one pass's parse (R89, R93, R100, R101). -/
def parseCounted (s : State) (hv : Nat) : State :=
  let s := if fget hv hvFrag ≠ 0 ∨ fget hv hvInnerFrag ≠ 0 then count1 s Reg.parserFragmentCount else s
  let s := if fget hv hvDepth = 1 then raise (count1 s Reg.parserDepthCount) .parser 1 else s
  if fget hv hvParseError = 1 then raise (count1 s (Reg.parserMalformedCount (fget hv hvErrorClass))) .parser 0 else s

/-- Whether a queue number names a punt queue. -/
def isPuntQueue (s : State) (q : Nat) : Bool := decide (q < 524288) && (mget {} s.qm.nodes (3 * 2 ^ 29 + q)).qword / 2 ^ 62 % 4 == 2

end Sys2Proof.Machine
end

