-- ==== Sys2Proof/Machine/Sample.lean ====
section
/-! DEFINITION. The samplers (R374) and the sojourn histogram (R370): what a pass and a transmit MAC feed them. -/

namespace Sys2Proof.Machine

/-- A sample record (Table — Ensign templates, 256). -/
def sampleRecord (s : State) (n : Nat) (tx : Bool) (inPort egress cls size : Nat) (data : List Byte) : List Byte :=
  beBytes 8 (timeNs s) ++ beBytes 8 n ++ [byte (b2n tx)] ++ beBytes 4 inPort ++ beBytes 4 egress ++ [byte cls] ++
    beBytes 4 (reg s (Reg.sampler n) % 2 ^ 24) ++ beBytes 2 size ++ [byte (min data.length 128)] ++ data.take 128

/-- Whether sampler `n` takes its next candidate: at random by a fresh 24-bit value, or each N-th (R374). The spec gives
no LFSR: the value is open (notes/assumptions/7). -/
def samplerTakes (s : State) (n : Nat) : Bool × State :=
  let w := reg s (Reg.sampler n)
  let m := w % 2 ^ 24
  if !bit w 31 || m == 0 then (false, s)
  else if bit w 30 then
    let c := mget 0 s.obs.samplerSeen n + 1
    if m ≤ c then (true, { s with obs.samplerSeen := mset 0 s.obs.samplerSeen n 0 })
    else (false, { s with obs.samplerSeen := mset 0 s.obs.samplerSeen n c })
  else
    let r := freeBits s 24
    (decide (r.1 < 2 ^ 24 / m), r.2)

/-- A candidate of the sampler a port names (`sel` is `sample_rx` or `sample_tx`). -/
def sampleCandidate (s : State) (sel : Nat) (tx : Bool) (inPort egress cls size : Nat) (data : List Byte) : State :=
  if sel = 0 ∨ 64 < sel then s
  else
    let r := samplerTakes s (sel - 1)
    if r.1 then
      ensRecord (count1 r.2 (Reg.samplerTaken (sel - 1))) 256 (sampleRecord r.2 (sel - 1) tx inPort egress cls size data)
    else r.2

/-- The sojourn bin of a value with shift `sh` (R370). -/
def sojournBin (v sh : Nat) : Nat := min ((List.range 31).filter (fun i => 2 ^ (sh + i) ≤ v)).length 31

/-- One frame's contribution to a port's sojourn histogram (R370): `out` is the TIME nanosecond count at the timestamp
point, `ts` the descriptor's nanoseconds. -/
def sojourn (s : State) (p out ts : Nat) : State :=
  let v : Int := toSigned 32 (ofSigned 32 ((out : Int) - ts - reg s (Reg.sojOffsetNs p)))
  if v < 0 then count1 s (Reg.sojNegative p)
  else
    let b := sojournBin v.toNat (reg s (Reg.sojShift p))
    let l := padded (mget [] s.obs.sojBins p)
    { s with obs.sojBins := mset [] s.obs.sojBins p (l.take b ++ [((l.drop b).head?.getD 0 + 1) % 2 ^ 64] ++ l.drop (b + 1)) }
where
  /-- The 32 bins. -/
  padded (l : List Nat) : List Nat := if l.isEmpty then List.replicate 32 0 else l

end Sys2Proof.Machine
end

