-- ==== Sys2Proof/Machine/Classify.lean ====
section
/-! DEFINITION. Classification (ch. 5): plan checks, stage actions, the pass and its descriptor, learning notices, epochs and
their entries. -/

namespace Sys2Proof.Machine

/-! ### Plan checks (R102, R103, R105, R107, R108, R144, R164, R186, R529) -/

/-- Whether a phase suits a kind (Table — Stage kinds). -/
def phaseOk (kind phase : Nat) : Bool :=
  if kind ≤ 1 then phase != 1
  else if kind ≤ 6 then phase == 1
  else if kind = 7 then phase == 2
  else if kind = 8 then phase == 2 || phase == 3
  else false

/-- Bits of a selector's source (R529). -/
def sourceBits (src : Nat) (egress : Bool) : Nat :=
  if src = 1 then 1280 else if src = 2 then (if egress then 256 else 768) else if src = 3 then 64 else if src = 4 then 10 else 0

/-- Whether a selection of `w` bits from bit `msb` lies in its source. -/
def rangeOk (src msb w most : Nat) (egress : Bool) : Bool :=
  decide (1 ≤ w) && decide (w ≤ most) && decide (msb < sourceBits src egress) && decide (w ≤ msb + 1)

/-- The well-formed shape of a key profile record. -/
def profileOk (r : List Byte) : Bool :=
  zeroBytes r 42 22 && (List.range 8).all (fun i => beAt r (4 * i) 4 % 2 ^ 11 == 0) &&
    (selectorsOf r).all (fun x => decide (x.src ≤ 4) && rangeOk x.src x.msb x.width 64 false)

/-- The well-formed shape of a condition test. -/
def testOk (w : Nat) (egress : Bool) : Bool :=
  bits w 44 32 == 0 && (bits w 63 61 == 0 ||
    (decide (bits w 63 61 ≤ 4) && rangeOk (bits w 63 61) (bits w 60 50) (bits w 49 45) 16 egress))

/-- The selections an enabled stage makes: (source, highest bit, width). -/
def stageSelections (b : List Byte) (d : Nat) : List Sel :=
  (if 1 ≤ stKind d ∧ stKind d ≤ 6 ∧ stKind d ≠ 5 then selectorsOf (profileRec b (stKey d)) else []) ++
  (if stCond d = 0 then [] else
    (([0, 1].map (fun j => testOf b (stCond d) j)).filter (fun w => bits w 63 61 != 0)).map (fun w =>
      { src := bits w 63 61, msb := bits w 60 50, width := bits w 49 45 : Sel }))

/-- The key width and handle of a stage with a table (R107, R144, R156, R164). -/
def tableOk (s : State) (b : List Byte) (d : Nat) : Bool :=
  let r := profileRec b (stKey d)
  let w := keyWidth r
  let t := stTable d
  if stKind d = 1 then decide (1 ≤ profileSize r) && decide (profileSize r ≤ 16384) && decide (2 * t + profileSize r ≤ 32768)
  else if stKind d = 2 then
    decide (0x0101 ≤ t) && decide (t ≤ 0x0109) && emBits (t - 0x0100) != 0 &&
      (if t = 0x0106 ∨ t = 0x0109 then decide (w ≤ emBits (t - 0x0100)) else w == emBits (t - 0x0100))
  else if stKind d = 3 then (t == 0x0040 && w == 44) || (t == 0x0060 && w == 140)
  else if stKind d = 4 then t == 0x0200 && w == 21
  else if stKind d = 5 then t == 0
  else if stKind d = 6 then
    decide (0x0800 ≤ t) && decide (t < 0x0840) && (w == 160 || w == 320) &&
      (match regionWide s (t - 0x0800) with | some x => w == (if x then 320 else 160) | none => true)
  else true

/-- The checks of one enabled stage. -/
def stageOk (s : State) (b : List Byte) (d : Nat) : Bool :=
  let e := stPhase d == 3
  phaseOk (stKind d) (stPhase d) && actionOk (stMiss d) && tableOk s b d &&
    (stageSelections b d).all (fun x =>
      decide (x.msb < sourceBits x.src e) && (x.src != 4 || e) &&
        !(stPhase d == 1 && x.src == 2 && decide (x.msb + 1 - x.width < 320)))

/-- The checks of a whole plan (R529). -/
def planOk (s : State) (b : List Byte) : Bool :=
  let ds := (List.range 12).map (stageOf b)
  let on := ds.filter stEnable
  b.length == 20928 && ds.all (fun d => d % 2 ^ 24 == 0) &&
    (List.range 256).all (fun n => profileOk (profileRec b n)) &&
    (List.range 256).all (fun n => testOk (testOf b n 0) false && testOk (testOf b n 1) false) &&
    zeroBytes b 16576 16 &&
    (List.range 8).all (fun t => zeroBytes b (20672 + 32 * t + 26) 6 &&
      (List.range 13).all (fun i => beAt b (20672 + 32 * t + 2 * i) 2 % 128 == 0)) &&
    on.all (stageOk s b) && (on.zip (on.drop 1)).all (fun x => decide (stPhase x.1 ≤ stPhase x.2)) &&
    decide ((on.filter (fun d => stKind d == 7)).length ≤ 1)

/-! ### Epochs (R121–R124) -/

def epochNow (s : State) : Nat := reg s Reg.clsEpochCurrent
def retiring (s : State) : Bool := flag s Reg.clsEpochState

/-- Packets of a slot between the Sieve and the end of their last pass (R123): those between two passes. -/
def inflight (s : State) (e : Nat) : Nat := (s.pkts.filter (fun x => x.2.slot == some e)).length

/-- Whether a slot may be written: only the inactive one; busy while the other slot is retiring (R122). -/
def slotStatus (s : State) (e : Nat) : Option Status :=
  if e = epochNow s then some .refused else if retiring s then some .busy else none

/-- A rule that applies to the inactive slot. -/
def inSlot (e : Nat) (rule : State → Applied) (s : State) : Applied := match slotStatus s e with
  | some st => .fail st
  | none => rule s

/-- The classification words (class 0x07, notes/assumptions/22): 0 stages, 1 key profiles, 2 conditions, 3 direct entries,
4 rewrite profiles, 5 pivot map. -/
def clsWord (t e i : Nat) : Nat := t * 2 ^ 32 + e * 2 ^ 20 + i

/-- Words written into every PIPE's copy (R105). -/
def clsWritten (s : State) (t e : Nat) (l : List Nat) : State :=
  (List.range 16).foldl (fun s n => wordsWritten s 7 (32 + n) (l.map (clsWord t e))) s

/-- A commit of a stage plan (R529). -/
def wStagePlan (e : Nat) (b : List Byte) : State → Applied := inSlot e (fun s =>
  if planOk s b then
    let s := setBlk s (Reg.clsStagePlan e) b
    .done (clsWritten (clsWritten (clsWritten s 0 e (List.range 12)) 1 e (List.range 256)) 2 e (List.range 256))
  else .fail .refused)

/-- The 16-B entries of a committed bank. -/
def entriesOf (b : List Byte) : List Nat := (chunks 16 (b.length / 16) b).map beNat

/-- A bank's length: whole entries, one to the full bank (R131). -/
def bankLength (b : List Byte) (n : Nat) : Bool := !b.isEmpty && b.length % 16 == 0 && decide (b.length ≤ 16 * n)

/-- Replace entries from entry 0 of a slot's bank. -/
def putEntries (m : SMap Nat) (base : Nat) (l : List Nat) : SMap Nat :=
  l.zipIdx.foldl (fun m x => mset 0 m (base + x.2) x.1) m

/-- A direct entry as it is held: both actions without reserved operand bits. -/
def entryNamed (w : Nat) : Nat := actionNamed (w / 2 ^ 64) * 2 ^ 64 + actionNamed (w % 2 ^ 64)

/-- A commit of a direct-table bank: a reserved code refuses it, reserved operand bits are not held (R6, R110, R131). -/
def wDirectTable (e : Nat) (b : List Byte) : State → Applied := inSlot e (fun s =>
  let l := entriesOf b
  if bankLength b 32768 && l.all (fun w => codeOk (w / 2 ^ 64) && codeOk (w % 2 ^ 64)) then
    .done (clsWritten { s with cls.direct := putEntries s.cls.direct (32768 * e) (l.map entryNamed) } 3 e (List.range l.length))
  else .fail .refused)

/-- Whether a rewrite profile holds no reserved value (R129). -/
def rewriteOk (w : Nat) : Bool :=
  w % 2 ^ 68 == 0 && bits w 79 78 != 3 && decide (bits w 77 75 ≤ 4) && decide (bits w 74 72 ≤ 4) && bits w 70 69 != 3

/-- A commit of rewrite profiles (R129, R131). -/
def wRewriteProfiles (e : Nat) (b : List Byte) : State → Applied := inSlot e (fun s =>
  let l := entriesOf b
  if bankLength b 256 && l.all rewriteOk then
    .done (clsWritten { s with cls.rewrite := putEntries s.cls.rewrite (256 * e) l } 4 e (List.range l.length))
  else .fail .refused)

/-- Whether a compatibility stage is enabled in either slot (R131). -/
def compatEnabled (s : State) : Bool :=
  [0, 1].any (fun e => (List.range 12).any (fun i =>
    let d := stageOf (planOf s e) i
    stEnable d && stKind d == 5))

/-- A write of `cls_compat_buckets`: a power of two from 2^10 to 2^19 (R119), while no stage and no entry depends on it
(R131, R145). -/
def wCompatBuckets (v : Nat) (s : State) : Applied :=
  if ((rangeFrom 10 10).any (fun k => v == 2 ^ k)) && !compatEnabled s && emEmpty s then .done (setReg s Reg.clsCompatBuckets v)
  else .fail .refused

/-- A start of `cls_epoch_swap` (R124): busy while the other slot is not inactive or a transfer into it is open. -/
def startSwap (s : State) : Applied :=
  let other := 1 - epochNow s
  let open' := s.dict.transfers.any (fun t => t.2.write &&
    (t.2.entry == Reg.clsStagePlan other || t.2.entry == Reg.clsDirectTable other || t.2.entry == Reg.clsRewriteProfiles other))
  if retiring s || open' then .fail .busy
  else .done { setReg (setReg s Reg.clsEpochCurrent other) Reg.clsEpochState 1 with cls.swapAt := s.time }

/-- CLS_EPOCH_SWAP (R124). -/
def execClsEpochSwap (client : Client) (s : State) : Host.Outcome State Fault Refusal :=
  .next (concludeJob s client Reg.clsEpochSwap (jobStartWith s client Reg.clsEpochSwap startSwap))

/-- EPOCH_RETIRED (R124): every PIPE has the change, 16 ns after the swap at the latest, and the retiring slot is empty. -/
def execEpochRetired (s : State) : Host.Outcome State Fault Refusal :=
  if retiring s ∧ inflight s (1 - epochNow s) = 0 then
    let s := setReg (setReg s Reg.clsEpochState 0) Reg.clsLastRetireNs ((s.time - s.cls.swapAt) % 2 ^ 32)
    let s := if jobRunning s Reg.clsEpochSwap then jobEnd s Reg.clsEpochSwap 0 else s
    .next (raise s .cls 0)
  else .next s

/-- CLS_STAGE_PLAN_WRITE. -/
def execClsStagePlanWrite (client : Client) (slot : Nat) (value : List Byte) (s : State) : Host.Outcome State Fault Refusal :=
  .next (commitRow s client (Reg.clsStagePlan slot) (wStagePlan slot value))

/-- CLS_DIRECT_TABLE_WRITE. -/
def execClsDirectTableWrite (client : Client) (slot : Nat) (value : List Byte) (s : State) : Host.Outcome State Fault Refusal :=
  .next (commitRow s client (Reg.clsDirectTable slot) (wDirectTable slot value))

/-- CLS_REWRITE_PROFILES_WRITE. -/
def execClsRewriteProfilesWrite (client : Client) (slot : Nat) (value : List Byte) (s : State) :
    Host.Outcome State Fault Refusal :=
  .next (commitRow s client (Reg.clsRewriteProfiles slot) (wRewriteProfiles slot value))

/-- CLS_COMPAT_BUCKETS_WRITE. -/
def execClsCompatBucketsWrite (client : Client) (value : Nat) (s : State) : Host.Outcome State Fault Refusal :=
  .next (writeRow s client Reg.clsCompatBuckets value (wCompatBuckets value))

/-- LEARN_NOTICES_READ: the records go out, oldest first, and are removed at the commit (R407). -/
def execLearnNoticesRead (client : Client) (s : State) : Host.Outcome State Fault Refusal :=
  .next (domainRead s client Reg.learnNotices s.cls.notices.flatten (fun s => { s with cls.notices := [] }))

/-! ### The pass -/

/-- A pass under way: the state, the header vector, the bus, the window, and what the stages drew and posted. -/
structure Pass where
  s : State
  hv : Nat
  bus : Nat
  win : List Byte
  est : Nat := 0
  draws : List MeterDraw := []
  posts : List Nat := []

/-- The bus at the start of a first pass (R109). -/
def busReset : Nat := fput 0 mdTerminalStage 0xF

/-- A terminal action has been applied (R111). -/
def Pass.ended (x : Pass) : Bool := fget x.bus mdTerminalStage != 0xF

/-- Write bus fields. -/
def Pass.put (x : Pass) (f : Fld) (v : Nat) : Pass := { x with bus := fput x.bus f v }

/-- A terminal drop or punt by stage `i` (R110, R111). -/
def Pass.drop (x : Pass) (i reason : Nat) : Pass :=
  ((x.put mdDisposition 1).put mdDropReason reason).put mdTerminalStage i
def Pass.punt (x : Pass) (i trap : Nat) : Pass :=
  ((x.put mdDisposition 2).put mdTrap trap).put mdTerminalStage i

/-- The hash fields of `lkp_ecmp_fields`, each with its bytes (Table — ECMP hash fields). -/
def hashBytes (hv port : Nat) (i : Nat) : List Byte :=
  let f := fun (x : Fld) (n : Nat) => beBytes n (fget hv x)
  let a := if fget hv hvL3Type = 1 then 4 else 16
  let b := if fget hv hvInnerL3Type = 1 then 4 else 16
  match i with
  | 0 => f hvL3Src a | 1 => f hvL3Dst a | 2 => f hvL3Proto 1 | 3 => f hvL4Src 2 | 4 => f hvL4Dst 2 | 5 => f hvFlowLabel 3
  | 6 => f hvInnerL3Src b ++ f hvInnerL3Dst b
  | 7 => f hvInnerL4Src 2 ++ f hvInnerL4Dst 2
  | 8 => f hvMplsTop 4 | 9 => f hvMplsSecond 4 | 10 => f hvMplsBottom 4 | 11 => f hvDmac 6 | 12 => f hvSmac 6
  | 13 => f hvEthertype 2 | 14 => beBytes 2 port | 15 => f hvVni 3
  | _ => []

/-- The fields hashed (R151): without an IP header each selected field of bits 0 to 5 gives way to that of bits 8 to 13
(notes/assumptions/23). -/
def hashFields (sel l3 : Nat) : List Nat :=
  let m := if l3 = 0 ∨ l3 = 3 then Nat.lor (sel % 65536 / 64 * 64) (sel % 64 * 256) else sel
  bitList 16 m

/-- `md_hash` (R151). -/
def ecmpHash (s : State) (hv port : Nat) : Nat :=
  let l := (hashFields (reg s Reg.lkpEcmpFields) (fget hv hvL3Type)).flatMap (hashBytes hv port)
  let seed := if reg s Reg.lkpEcmpSeed = 0 then ownId s else reg s Reg.lkpEcmpSeed
  let h := l.foldl (crcReflByte 0x82F63B78) seed
  Nat.xor (h / 65536) (h % 65536)

/-- A learning notice (R115, R116). -/
def learn (s : State) (pipe fid sa port kind stored : Nat) : State :=
  let ms := reg s Reg.learnDedupMs
  let key := fid * 2 ^ 48 + sa
  let l := mget [] s.cls.dedup pipe
  if ms ≠ 0 ∧ l.any (fun x => x.1 == key && decide (s.time - x.2 ≤ ms * 1000000)) then count1 s Reg.learnSuppressed
  else
    let tok := min (s.cls.learnTok + (s.time - s.cls.learnAt) * reg s Reg.learnRate) (reg s Reg.learnBurst * 1000000000)
    let s := { s with cls.learnTok := tok, cls.learnAt := s.time }
    if tok < 1000000000 then count1 s Reg.learnDropped
    else
      let s := { s with cls.learnTok := tok - 1000000000 }
      if 8192 ≤ s.cls.notices.length then raise (count1 s Reg.learnDropped) .cls 3
      else
        let l := l.filter (fun x => x.1 != key) ++ [(key, s.time)]
        let s := if ms = 0 then s else { s with cls.dedup := mset [] s.cls.dedup pipe (l.drop (l.length - 256)) }
        let r := beBytes 6 sa ++ beBytes 2 fid ++ beBytes 2 port ++ [byte kind] ++ beBytes 2 stored ++ beBytes 3 (timeNs s)
        let first := s.cls.notices.isEmpty
        let s := { s with cls.notices := s.cls.notices ++ [r] }
        if first then raise s .cls 2 else s

/-- A notice request of a pass. -/
def Pass.notice (x : Pass) (kind stored : Nat) : Pass :=
  let port := fget x.bus mdIngressPort
  { x.put mdLearn 1 with s := learn x.s (port / 64) (fget x.bus mdFid) (fget x.hv hvSmac) port kind stored }

/-- Action 0x10 (R115). -/
def Pass.sourceCheck (x : Pass) (i o : Nat) (miss : Bool) : Pass :=
  if miss then x.notice 1 0
  else if bits o 9 0 = fget x.bus mdIngressPort then x
  else if bit o 10 then x.drop i 13 else x.notice 2 (bits o 9 0)

/-- Action 0x11: a packet without the header named has no TTL, and nothing happens (notes/assumptions/23). -/
def Pass.ttl (x : Pass) (i o : Nat) : Pass :=
  let has := if bit o 9 then fget x.hv hvMplsCount != 0 else fget x.hv hvL3Type == 1 || fget x.hv hvL3Type == 2
  let ttl := if bit o 9 then fget x.hv hvMplsTop % 256 else fget x.hv hvL3Ttl
  if !has then x
  else if ttl ≤ 1 then (if bit o 0 then x.punt i (bits o 8 1) else x.drop i 14)
  else x.put mdTtlDec 1

/-- Action 0x03 with the slot's next hop (R150). -/
def Pass.nextHop (x : Pass) (i : Nat) (nh : Option Resolved) : Pass :=
  match nh with
  | none => x
  | some r =>
    let a := r.adj
    if !r.valid then { x.drop i 63 with s := raise (count1 x.s Reg.lkpNhInvalid) .lkp 4 }
    else if bits a 126 125 = 1 then x.drop i (bits a 52 47)
    else if bits a 126 125 = 2 then x.punt i (bits a 54 47)
    else ((((((x.put mdDestKind 1).put mdDestDevice (bits a 124 105)).put mdDestPort (bits a 104 95)).put mdNhDmac
      (bits a 94 47)).put mdEgressVlan (bits a 46 35)).put mdPushLabel (bits a 34 15)).put mdRewrite (bits a 14 7)

/-- One stage action (R110): `nh` is the slot's next hop, `miss` a stage's miss action. -/
def Pass.act (x : Pass) (i a : Nat) (nh : Option Resolved) (miss : Bool) : Pass :=
  let o := a % 2 ^ 56
  if x.ended then x
  else match a / 2 ^ 56 with
  | 0x01 => x.drop i (o % 64)
  | 0x02 => x.punt i (o % 256)
  | 0x03 => x.nextHop i nh
  | 0x04 => (x.put mdFid (bits o 13 0)).put mdVrf (bits o 25 14)
  | 0x05 => (x.put mdDestKind 2).put mdMcGroup (bits o 15 0)
  | 0x06 =>
    let x := if bit o 3 then x.put mdClass (o % 8) else x
    if bit o 6 then x.put mdColour (bits o 5 4) else x
  | 0x07 => (x.put mdMeter (bits o 17 0)).put mdMeterValid 1
  | 0x08 =>
    if bit o 20 then (x.put mdCounterB (bits o 19 0)).put mdCounterBValid 1
    else (x.put mdCounterA (bits o 19 0)).put mdCounterAValid 1
  | 0x09 => x.put mdAclLabel (o % 256)
  | 0x0A => x.put mdMirror (o % 16)
  | 0x0B => (x.put mdHostCopy 1).put mdTrap (o % 256)
  | 0x0C => ((x.put mdRecirc 1).put mdRecircOff (o % 256)).put mdRecircKind (bits o 9 8)
  | 0x0D =>
    let sh := if bit o 32 then 16 else 0
    let m := bits o 31 16 * 2 ^ sh
    let old := fget x.bus mdScratch
    x.put mdScratch (Nat.lor (dropBits old m) (Nat.land (bits o 15 0 * 2 ^ sh) m))
  | 0x0E => (x.put mdDscpSet (bits o 6 0)).put mdExpSet (bits o 10 7)
  | 0x0F => x.put mdPtpAction (o % 4)
  | 0x10 => x.sourceCheck i o miss
  | 0x11 => x.ttl i o
  | 0x12 => if fget x.hv hvDepth = 1 ∧ bit o (fget x.hv hvDepthLayer) then x.drop i 10 else x
  | _ => x

/-- Actions in order. -/
def Pass.acts (x : Pass) (i : Nat) (l : List Nat) (nh : Option Resolved) (miss : Bool) : Pass :=
  l.foldl (fun x a => x.act i a nh miss) x

/-- The counters named in the bus are posted and their valid bits cleared (R187). -/
def Pass.count (x : Pass) : Pass :=
  let x := if fget x.bus mdCounterAValid = 1 then
      { x.put mdCounterAValid 0 with posts := x.posts ++ [fget x.bus mdCounterA] } else x
  if fget x.bus mdCounterBValid = 1 then { x.put mdCounterBValid 0 with posts := x.posts ++ [fget x.bus mdCounterB] } else x

/-- A direct stage's entry: none on a miss or a lost word (R105, R492). -/
def Pass.direct (x : Pass) (b : List Byte) (e d pipe : Nat) (src : Sources) : Option Nat × Pass :=
  let r := profileRec b (stKey d)
  let i := buildKey src r % 2 ^ 14
  if profileSize r ≤ i then (none, x)
  else
    let n := 2 * stTable d + i
    let q := checkWord x.s 7 (32 + pipe) (clsWord 3 e n)
    (if q.1 then none else some (mget 0 x.s.cls.direct (32768 * e + n)), { x with s := q.2 })

/-- The meter stage (R187, R188, R194, R199). -/
def Pass.meter (x : Pass) (i d : Nat) (true' : Bool) : Pass :=
  if fget x.bus mdMeterValid = 0 then x
  else
    let m := fget x.bus mdMeter
    let x := x.put mdMeterValid 0
    match meterPacket x.s m x.est (fget x.bus mdColour) with
    | .disabled s => { x with s := s }
    | .fault s => { x.drop i 23 with s := s }
    | .coloured c w s =>
      let x := { x.put mdColour c with s := s, draws := if true' then x.draws else x.draws ++ [w] }
      if c = 2 then x.act i (stMiss d) none true else x

/-- The estimated frame length and whether it is the true one (R188). -/
def estimate (p : Pkt) (hv : Nat) : Nat × Bool :=
  let known := fget hv hvValidLen < 128 || (match p.origin with | .injectPort _ _ => true | _ => false)
  if known then (p.len.getD 0 + 4, true)
  else if (fget hv hvL3Type = 1 ∨ fget hv hvL3Type = 2) ∧ fget hv hvParseError = 0 then
    (fget hv hvL3Off + fget hv hvL3Len + 4, false)
  else (p.maxFrame, false)

/-- The words a stage reads from the plan: descriptor, condition and key profile; whether one is lost (R492). -/
def Pass.planLost (x : Pass) (e i d pipe : Nat) : Bool × Pass :=
  let r := checkWords x.s 7 [(32 + pipe, clsWord 0 e i), (32 + pipe, clsWord 2 e (stCond d)), (32 + pipe, clsWord 1 e (stKey d))]
  (r.1, { x with s := r.2 })

/-- One front or back stage. -/
def Pass.stage (x : Pass) (b : List Byte) (e i pipe : Nat) (true' : Bool) : Pass :=
  let d := stageOf b i
  let q := x.planLost e i d pipe
  let x := q.2
  let src : Sources := { hv := x.hv, bus := x.bus }
  if q.1 then x.drop i 63
  else if !condHolds src b (stCond d) then x
  else if stKind d = 0 then x.act i (stMiss d) none false
  else if stKind d = 1 then
    let r := x.direct b e d pipe src
    match r.1 with
    | some w => r.2.acts i [w / 2 ^ 64, w % 2 ^ 64] none false
    | none => r.2.act i (stMiss d) none true
  else if stKind d = 7 then x.meter i d true'
  else if stKind d = 8 then x.count
  else x

/-- The lookup of an LKP stage (Table — Stage kinds). -/
def lkpLookup (x : Pass) (b : List Byte) (d pipe : Nat) : SlotResult × State :=
  let k := buildKey { hv := x.hv, bus := x.bus } (profileRec b (stKey d))
  let h := fget x.bus mdHash
  if stKind d = 2 then lookupExact x.s (stTable d - 0x0100) k h
  else if stKind d = 3 then
    let fam := if stTable d = 0x0040 then 0 else 1
    let vrf := k / 2 ^ addrBits fam
    let addr := k % 2 ^ addrBits fam
    let w := clsWord 5 0 (pivotIndex x.s vrf fam addr)
    let q := checkWord x.s 7 (32 + pipe) w
    lookupLpm (if q.1 then setFlips q.2 7 (32 + pipe) w 0 else q.2) fam vrf addr h
  else if stKind d = 4 then lookupAdj x.s pipe k h
  else lookupCompat x.s (stKey d % 8) (templateKey b (stKey d % 8) x.hv x.win) h

/-- What the lookup phase found for a stage: (stage, descriptor, hit, actions, next hop). -/
abbrev Found := Nat × Nat × Bool × List Nat × Option Resolved

/-- The lowest-numbered enabled lookup stage of a resource whose condition holds: 0 slot A, 1 slot B, 2 the ASE (R104). -/
def boundStage (x : Pass) (b : List Byte) (res : Nat) : Option (Nat × Nat) :=
  ((List.range 12).map (fun i => (i, stageOf b i))).find? (fun y =>
    stEnable y.2 && stPhase y.2 == 1 && (if stKind y.2 = 6 then 2 else stSlot y.2) == res &&
      condHolds { hv := x.hv, bus := x.bus } b (stCond y.2))

/-- A slot's lookup, or its null lookup (R104, R148). -/
def slotLookup (x : Pass) (b : List Byte) (e res pipe : Nat) : Option Found × Pass :=
  match boundStage x b res with
  | none => (none, { x with s := nullLookup x.s pipe })
  | some (i, d) =>
    let q := x.planLost e i d pipe
    if q.1 then (some (i, d, false, [action 1 63], none), q.2)
    else
      let r := lkpLookup q.2 b d pipe
      let y : Pass := { q.2 with s := r.2 }
      let y := y.put (if res = 0 then mdResultA else mdResultB) r.1.block
      let y := if r.1.hit then y.put mdHits (Nat.lor (fget y.bus mdHits) (if res = 0 then 8 else 4)) else y
      (some (i, d, r.1.hit, if r.1.hit then r.1.acts else [stMiss d], r.1.nh), y)

/-- The ASE search of a pass (R104, R162). -/
def aseLookup (x : Pass) (b : List Byte) (e pipe : Nat) : Option Found × Pass :=
  match boundStage x b 2 with
  | none => (none, x)
  | some (i, d) =>
    let q := x.planLost e i d pipe
    if q.1 then (some (i, d, false, [action 1 63], none), q.2)
    else
      let x := q.2
      let k := buildKey { hv := x.hv, bus := x.bus } (profileRec b (stKey d))
      let r := aseSearch x.s (pipe / 2) (stTable d - 0x0800) k e
      let y := ({ x with s := r.2 }.put mdResultAse r.1.word).put mdHits
        (Nat.lor (fget x.bus mdHits) (if r.1.hit then 3 else 1))
      (some (i, d, r.1.hit, if r.1.hit then r.1.acts else [stMiss d], none), y)

/-- Insert by stage number. -/
def insertFound (y : Found) : List Found → List Found
  | [] => [y]
  | z :: r => if y.1 < z.1 then y :: z :: r else z :: insertFound y r

/-- The whole plan of one pass (R102, R108, R111): front stages, the three lookups, their results in stage order, back
stages. Nothing is applied after a terminal action. -/
def Pass.run (x : Pass) (b : List Byte) (e pipe : Nat) (true' : Bool) : Pass :=
  let stages := fun (phase : Nat) => (List.range 12).filter (fun i => stEnable (stageOf b i) && stPhase (stageOf b i) == phase)
  let x := (stages 0).foldl (fun x i => if x.ended then x else x.stage b e i pipe true') x
  let ra := slotLookup x b e 0 pipe
  let rb := slotLookup ra.2 b e 1 pipe
  let rc := aseLookup rb.2 b e pipe
  let found := ([ra.1, rb.1, rc.1].filterMap id).foldl (fun l y => insertFound y l) []
  let x := found.foldl (fun (x : Pass) y => if x.ended then x else x.acts y.1 y.2.2.2.1 y.2.2.2.2 (!y.2.2.1)) rc.2
  (stages 2).foldl (fun x i => if x.ended then x else x.stage b e i pipe true') x

/-- The bus fields a descriptor carries, with their descriptor bits (R130). -/
def descFields : List (Fld × Fld) :=
  [(mdDestDevice, (233, 214)), (mdDestPort, (213, 204)), (mdClass, (203, 201)), (mdColour, (200, 199)),
   (mdMcGroup, (184, 169)), (mdTrap, (168, 161)), (mdMirror, (160, 157)), (mdHostCopy, (156, 156)),
   (mdRewrite, (155, 148)), (mdNhDmac, (147, 100)), (mdEgressVlan, (99, 88)), (mdPushLabel, (87, 68)),
   (mdTtlDec, (67, 67)), (mdDscpSet, (66, 60)), (mdExpSet, (59, 56)), (mdPtpAction, (55, 54)), (mdAclLabel, (53, 46))]

/-- A descriptor with the bus's fields. -/
def busToDesc (bus d : Nat) : Nat := descFields.foldl (fun d f => fput d f.2 (fget bus f.1)) d

/-- A bus with a descriptor's fields. -/
def descToBus (d bus : Nat) : Nat := descFields.foldl (fun b f => fput b f.1 (fget d f.2)) bus

/-- The descriptor at the end of the last pass (R130): its kind and reason, and the fields of its own. -/
def passDesc (p : Pkt) (hv bus kind reason : Nat) : Nat :=
  let d := busToDesc bus 0
  let d := setBits (setBits d 255 253 kind) 252 247 reason
  let d := setBits (setBits d 246 246 (fget bus mdEpoch)) 245 244 (fget bus mdPass)
  let d := setBits (setBits d 243 234 p.inPort) 198 185 (if fget hv hvValidLen < 128 then p.len.getD 0x3FFF else 0x3FFF)
  setBits (setBits d 45 44 p.ecn) 43 4 (p.tsFrac / 256)

/-- The pass ends in a descriptor: posts and corrections wait for the MAC's verdict (R117, R190). -/
def passEnds (x : Pass) (i : Nat) (p : Pkt) (d : Nat) : State :=
  let draws := p.draws ++ x.draws
  let posts := p.posts ++ x.posts
  let p := { p with desc := d, stage := .ready, slot := none, bus := x.bus }
  if p.bad = some 0 then
    let l := p.len.getD 0 + 4
    setPkt (postCounters (correctionsDue x.s draws (some l)) posts l) i { p with draws := [], posts := [] }
  else setPkt x.s i { p with draws := draws, posts := posts }

/-- The outcome of a malformed packet (R93, R101). -/
def malformedEnds (x : Pass) (i : Nat) (p : Pkt) : State :=
  let c := fget x.hv hvErrorClass
  if reg x.s (Reg.parserMalformedAction c) = 1 then
    if isPuntQueue x.s (reg x.s Reg.parserPuntQueue) then
      passEnds x i p (setBit (setBits (passDesc p x.hv x.bus 3 0) 168 161 c) 3)
    else passEnds { x with s := raise x.s .parser 2 } i p (passDesc p x.hv x.bus 7 9)
  else passEnds x i p (passDesc p x.hv x.bus 7 9)

/-- The descriptor kind the bus gives (R112); a packet without a destination sets NO_DEST too (notes/assumptions/23). -/
def passOutcome (x : Pass) (i : Nat) (p : Pkt) : State :=
  let disp := fget x.bus mdDisposition
  let other := fun (s : State) => passEnds { x with s := raise s .cls 4 } i p (passDesc p x.hv x.bus 7 63)
  if disp = 1 then passEnds x i p (passDesc p x.hv x.bus 7 (fget x.bus mdDropReason))
  else if disp = 2 then
    (if isPuntQueue x.s (reg x.s (Reg.clsTrapQueue (fget x.bus mdTrap))) then passEnds x i p (passDesc p x.hv x.bus 3 0)
     else other x.s)
  else if fget x.bus mdDestKind = 2 then passEnds x i p (passDesc p x.hv x.bus 2 0)
  else if fget x.bus mdDestKind = 1 then
    passEnds x i p (passDesc p x.hv x.bus (if fget x.bus mdDestDevice = ownId x.s then 0 else 1) 0)
  else other (count1 x.s Reg.clsNoDestCount)

/-- The bus a pass starts with (R109). -/
def passBus (s : State) (p : Pkt) (hv : Nat) : Nat :=
  let b := if p.pass = 0 then fput (fput busReset mdIngressPort p.inPort) mdEpoch (epochNow s)
    else
      let b := [mdResultA, mdResultB, mdResultAse, mdHits, mdRecirc, mdLearn].foldl (fun b f => fput b f 0) p.bus
      fput b mdPass p.pass
  fput b mdHash (ecmpHash s hv p.inPort)

/-- The window of a packet: its first 128 bytes, without the FCS once the end is known (R82). -/
def windowOf (p : Pkt) : List Byte := match p.len with
  | some n => p.win.take n
  | none => p.win

/-- One pass (R84, R93, R98, R104, R126). -/
def runPass (s : State) (i : Nat) (p : Pkt) : State :=
  let pipe := pipeOf p.inPort
  let w := windowOf p
  let hv := if p.pass = 0 then (sieveOf s w).parse 0 0
    else (sieveOf s w).parse (fget p.bus mdRecircOff) (fget p.bus mdRecircKind)
  let bus := passBus s p hv
  let p := if p.pass = 0 then { p with ecn := fget hv hvL3Ecn } else p
  let s := parseCounted s hv
  let e := estimate p hv
  let x : Pass := { s := s, hv := hv, bus := bus, win := w, est := e.1 }
  if fget hv hvParseError = 1 then malformedEnds { x with s := nullLookup (nullLookup s pipe) pipe } i p
  else
    let ep := fget bus mdEpoch
    let x := x.run (planOf s ep) ep pipe e.2
    if fget x.bus mdRecirc = 1 ∧ fget x.bus mdDisposition = 0 then
      if p.pass = 3 then
        let s := raise (count1 x.s Reg.clsRecircLimitCount) .cls 1
        passEnds { x with s := s } i p (passDesc p x.hv x.bus 7 21)
      else
        setPkt x.s i { p with pass := p.pass + 1, bus := x.bus, slot := some ep, draws := p.draws ++ x.draws,
                              posts := p.posts ++ x.posts }
    else passOutcome x i p

/-- The end of a first pass is a receive candidate (R374). -/
def firstPassSampled (s : State) (i : Nat) (p : Pkt) : State :=
  if p.pass = 0 then
    let d := ((pkt? s i).map (·.desc)).getD 0
    sampleCandidate s (reg s (Reg.sampleRx p.inPort)) false p.inPort 0xFFFFFFFF (dClass d) ((p.len.map (· + 4)).getD 0)
      (windowOf p)
  else s

/-- INGRESS_PASS: a packet's window enters the Sieve and one pass runs; a window of fewer than 128 bytes waits for the
frame's end, which it must not run past (R82). -/
def execIngressPass (pkt : Nat) (s : State) : Host.Outcome State Fault Refusal :=
  match pkt? s pkt with
  | none => .next s
  | some p =>
    if p.stage = .window ∧ (p.len.isSome ∨ 128 ≤ p.win.length) then .next (firstPassSampled (runPass s pkt p) pkt p) else .next s

/-! ### Entries (R131) -/

/-- Writes of the chapter's entries. -/
def clsWrite (k v : Nat) : State → Applied :=
  if idxOf k = 0x3104 then inSlot (subOf k) (storeRule k v)
  else if idxOf k = 0x3121 then wCompatBuckets v
  else storeRule k v

/-- A write of `parser_tpid_extra`: 0, or 0x0600 and above (R100). -/
def parserWrite (k v : Nat) (s : State) : Applied :=
  if idxOf k = 0x3002 ∧ v ≠ 0 ∧ v < 0x0600 then .fail .refused else storeRule k v s

/-- Values that are not stored. -/
def clsRead (s : State) (k : Nat) : Nat := if idxOf k = 0x3103 then inflight s (subOf k) else reg s k

/-- Committed DOMAIN values. -/
def clsCommit (k : Nat) (b : List Byte) : State → Applied :=
  if idxOf k = 0x3110 then wStagePlan (subOf k) b
  else if idxOf k = 0x3111 then wDirectTable (subOf k) b
  else if idxOf k = 0x3112 then wRewriteProfiles (subOf k) b
  else fun _ => .fail .readOnly

/-- DOMAIN values read. -/
def clsDomain (s : State) (k : Nat) : List Byte :=
  let e := subOf k
  if idxOf k = 0x3110 then padTo (planOf s e) 20928
  else if idxOf k = 0x3111 then (rangeFrom (32768 * e) 32768).flatMap (fun i => beBytes 16 (mget 0 s.cls.direct i))
  else if idxOf k = 0x3112 then (rangeFrom (256 * e) 256).flatMap (fun i => beBytes 16 (mget 0 s.cls.rewrite i))
  else s.cls.notices.flatten

end Sys2Proof.Machine
end

