-- ==== Sys2Proof/Machine/Rewrite.lean ====
section
/-! DEFINITION. The rewrite of the egress half (R129, R274): what a rewrite profile makes of a packet's first bytes
(notes/assumptions/25 for the order and the bytes the spec leaves to its reader). -/

namespace Sys2Proof.Machine

/-- Fields of a rewrite profile (Table — Rewrite profile). -/
def rwSmac (w : Nat) : Nat := bits w 127 80
def rwL2 (w : Nat) : Nat := bits w 79 78
def rwVlan (w : Nat) : Nat := bits w 77 75
def rwMpls (w : Nat) : Nat := bits w 74 72
def rwTtl (w : Nat) : Bool := bit w 71
def rwDecap (w : Nat) : Nat := bits w 70 69
def rwQos (w : Nat) : Bool := bit w 68

/-- An IPv4 checksum after a 16-bit word of its header changed from `m` to `n` (R129: incrementally). -/
def csumAdjust (c m n : Nat) : Nat :=
  let t := (0xFFFF - c) + (0xFFFF - m) + n
  let t := t % 65536 + t / 65536
  0xFFFF - (t % 65536 + t / 65536)

/-- Write byte `pos` of an IP header at `ip`; over IPv4 the checksum follows. -/
def setIpByte (b : List Byte) (ip pos v : Nat) (v4 : Bool) : List Byte :=
  let w := pos - (pos - ip) % 2
  let n := splice b pos [byte v]
  if v4 then splice n (ip + 10) (beBytes 2 (csumAdjust (beAt b (ip + 10) 2) (beAt b w 2) (beAt n w 2))) else n

/-- The IP traffic class byte: DSCP and ECN. -/
def trafficByte (b : List Byte) (ip : Nat) (v4 : Bool) : Nat :=
  if v4 then byteAt b (ip + 1) else byteAt b ip % 16 * 16 + byteAt b (ip + 1) / 16

/-- Replace it. -/
def setTrafficByte (b : List Byte) (ip v : Nat) (v4 : Bool) : List Byte :=
  if v4 then setIpByte b ip (ip + 1) v true
  else splice b ip [byte (byteAt b ip / 16 * 16 + v / 16), byte (v % 16 * 16 + byteAt b (ip + 1) % 16)]

/-- The outer IP header of a parse, where it lies in the bytes: its offset and whether it is IPv4. -/
def ipHeader (hv : Nat) (b : List Byte) : Option (Nat × Bool) :=
  let o := fget hv hvL3Off
  let t := fget hv hvL3Type
  if (t = 1 ∨ t = 2) ∧ o ≠ 0xFF ∧ o + 20 ≤ b.length then some (o, t = 1) else none

/-- The mark of R274: ECN 0b11 in the outer IP header. -/
def markEcn (hv : Nat) (b : List Byte) : List Byte := match ipHeader hv b with
  | some (o, v4) =>
    let t := trafficByte b o v4
    if t % 4 = 3 then b else setTrafficByte b o (t / 4 * 4 + 3) v4
  | none => b

/-- Decapsulation: the bytes left, and those removed as (from, count). -/
def decap (w hv : Nat) (b : List Byte) : List Byte × Nat × Nat :=
  if rwDecap w = 1 ∧ fget hv hvInnerL2 = 1 then (b.drop (fget hv hvInnerL2Off), 0, fget hv hvInnerL2Off)
  else if rwDecap w = 2 ∧ (fget hv hvL3Type = 1 ∨ fget hv hvL3Type = 2) ∧ fget hv hvL3Off ≠ 0xFF then
    let e := 12 + 4 * fget hv hvVlanCount
    let o := fget hv hvL3Off
    (b.take e ++ beBytes 2 (if fget hv hvL3Type = 1 then 0x0800 else 0x86DD) ++ b.drop o, e + 2, o - (e + 2))
  else (b, 0, 0)

/-- A frame's first bytes in parts: addresses, tags, type, labels and the rest. -/
structure Heads where
  dmac : Nat
  smac : Nat
  tags : List Nat
  etype : Nat
  labels : List Nat
  rest : List Byte

/-- The parts of parsed bytes. -/
def headsOf (hv : Nat) (b : List Byte) : Heads :=
  let nt := fget hv hvVlanCount
  let e := 14 + 4 * nt
  let nl := if fget hv hvMplsOff = e then fget hv hvMplsCount else 0
  { dmac := beAt b 0 6, smac := beAt b 6 6, tags := (List.range nt).map (fun i => beAt b (12 + 4 * i) 4),
    etype := beAt b (12 + 4 * nt) 2, labels := (List.range nl).map (fun i => beAt b (e + 4 * i) 4),
    rest := b.drop (e + 4 * nl) }

/-- The bytes of the parts. -/
def Heads.bytes (h : Heads) : List Byte :=
  beBytes 6 h.dmac ++ beBytes 6 h.smac ++ h.tags.flatMap (beBytes 4) ++ beBytes 2 h.etype ++ h.labels.flatMap (beBytes 4) ++
    h.rest

/-- The type value of an IP payload. -/
def ipType (l3 : Nat) : Option Nat := if l3 = 1 then some 0x0800 else if l3 = 2 then some 0x86DD else none

/-- The TTL decrement and the DSCP of the IP header (R129). -/
def rewriteIp (w d hv : Nat) (b : List Byte) : List Byte :=
  match ipHeader hv b with
  | none => b
  | some (o, v4) =>
    let t := if v4 then o + 8 else o + 7
    let b := if rwTtl w && dTtlDec d && fget hv hvMplsCount == 0 then setIpByte b o t (byteAt b t - 1) v4 else b
    if rwQos w && bit (dDscpSet d) 6 then setTrafficByte b o (dDscpSet d % 64 * 4 + trafficByte b o v4 % 4) v4 else b

/-- The label stack operation (Table — Rewrite profile, `rw_mpls`); `ttl` is what a pushed label takes. -/
def rewriteMpls (w d l3 ttl : Nat) (h : Heads) : Heads :=
  let h := if rwTtl w && dTtlDec d then
      { h with labels := match h.labels with
          | l :: r => (l - (if l % 256 = 0 then 0 else 1)) :: r
          | [] => [] }
    else h
  let op := rwMpls w
  let h := if op = 1 then
      { h with labels := (dPushLabel d * 2 ^ 12 + b2n h.labels.isEmpty * 2 ^ 8 + ttl) :: h.labels,
               etype := if h.labels.isEmpty then 0x8847 else h.etype }
    else if op = 2 then
      { h with labels := match h.labels with
          | l :: r => (dPushLabel d * 2 ^ 12 + l % 2 ^ 12) :: r
          | [] => [] }
    else if (op = 3 ∨ op = 4) ∧ h.labels ≠ [] then
      let left := if op = 3 then h.labels.drop 1 else []
      { h with labels := left,
               etype := if left.isEmpty ∧ bit (h.labels.getLast?.getD 0) 8 then (ipType l3).getD h.etype else h.etype }
    else h
  if rwQos w && bit (dExpSet d) 3 then
    { h with labels := match h.labels with
        | l :: r => setBits l 11 9 (dExpSet d % 8) :: r
        | [] => [] }
  else h

/-- The tag operation: a pushed tag takes the parser's type value, PCP 0 and DEI 0. -/
def rewriteVlan (w d ctag stag : Nat) (h : Heads) : Heads :=
  let op := rwVlan w
  if op = 1 then
    { h with tags := match h.tags with
        | t :: r => (t / 2 ^ 12 * 2 ^ 12 + dEgressVlan d) :: r
        | [] => [] }
  else if op = 2 then { h with tags := (ctag * 2 ^ 16 + dEgressVlan d) :: h.tags }
  else if op = 3 then { h with tags := (stag * 2 ^ 16 + dEgressVlan d) :: h.tags }
  else if op = 4 then { h with tags := h.tags.drop 1 }
  else h

/-- The address operation. -/
def rewriteL2 (w d : Nat) (h : Heads) : Heads :=
  if rwL2 w = 1 then { h with dmac := dNhDmac d, smac := rwSmac w }
  else if rwL2 w = 2 then { h with dmac := dNhDmac d }
  else h

/-- The whole rewrite of a packet's first bytes `b`, parsed as `hv`: the new bytes, and where the removed bytes lay and how
many more bytes the frame has ahead of what follows them. `again` parses the bytes a decapsulation leaves. -/
def rewriteBytes (w d hv ctag stag : Nat) (marked : Bool) (b : List Byte) (again : List Byte → Nat) :
    List Byte × Nat × Nat :=
  let b := if marked then markEcn hv b else b
  let x := decap w hv b
  let hv := if x.2.2 = 0 then hv else again x.1
  if x.1.length < 14 + 4 * fget hv hvVlanCount then (x.1, x.2)
  else
    let b := rewriteIp w d hv x.1
    let ttl := match ipHeader hv b with
      | some (o, v4) => byteAt b (if v4 then o + 8 else o + 7)
      | none => 255
    let h := rewriteMpls w d (fget hv hvL3Type) ttl (headsOf hv b)
    ((rewriteL2 w d (rewriteVlan w d ctag stag h)).bytes, x.2)

end Sys2Proof.Machine
end

