-- ==== Sys2Proof/Machine/Egress.lean ====
section
/-! DEFINITION. The egress half (R127, R128): the egress parse, the MTU check, the egress stages, the rewrite, egress mirrors
and the PTP action. -/

namespace Sys2Proof.Machine

/-- The descriptor the egress stages see: what lower stages wrote is in it; without a mirror request of its own the
packet's session stays. -/
def egressDesc (bus d : Nat) : Nat :=
  let n := busToDesc bus d
  if fget bus mdMirror = 0 then setBits n 160 157 (dMirror d) else n

/-- The bus of an egress run: the descriptor's fields, with no counters and no mirror request (R195, R372). -/
def egressBus (s : State) (d : Nat) : Nat :=
  fput (fput (fput (descToBus d busReset) mdIngressPort (dInPort d)) mdEpoch (epochNow s)) mdMirror 0

/-- One egress stage (R127, R195). -/
def Pass.egressStage (x : Pass) (b : List Byte) (e i prt d : Nat) : Pass :=
  let st := stageOf b i
  let q := x.planLost e i st (pipeOf prt)
  let x := q.2
  let src : Sources := { hv := x.hv, bus := egressDesc x.bus d, port := prt }
  if q.1 then x.drop i 63
  else if !condHolds src b (stCond st) then x
  else if stKind st = 0 then x.act i (stMiss st) none false
  else if stKind st = 1 then
    let r := x.direct b e st (pipeOf prt) src
    match r.1 with
    | some w => r.2.acts i [w / 2 ^ 64, w % 2 ^ 64] none false
    | none => r.2.act i (stMiss st) none true
  else if stKind st = 8 then x.count
  else x

/-- The egress stages in order (R111). -/
def Pass.egressStages (x : Pass) (b : List Byte) (e prt d : Nat) : Pass :=
  ((List.range 12).filter (fun i => stEnable (stageOf b i) && stPhase (stageOf b i) == 3)).foldl
    (fun x i => if x.ended then x else x.egressStage b e i prt d) x

/-- The egress mirror of a packet as rewritten (R372): `hdr` stands for the first `skip` of its bytes. A copy of a packet
still arriving is filled when its last byte is stored. -/
def egressMirror (s : State) (o : Out) (p : Pkt) (n prt d : Nat) (hdr : List Byte) (skip : Nat) : State :=
  if n = 0 then s
  else
    let m := mirrorSession s n
    let s := copyMade s
    let kind : RefKind := .egressMirror n prt
    let whole := hdr.length + judgedLen p - skip
    let len := if msTrunc m = 0 then whole else min whole (msTrunc m)
    let data := hdr ++ (pktBytes s p).drop skip
    let known := p.ended || decide (len ≤ data.length)
    let lost := fun (s : State) =>
      let s := discard s 41 (some prt) (pktCard s p (some prt))
      raise (count1 s (Reg.mirrorLost n)) .obs 4
    if !msEnable m then lost s
    else match copyPacket s p data len (mirrorDesc m d len) known (if known then none else some (o.ref.pkt, len)) with
      | none => lost s
      | some (j, s) =>
        let s := match pkt? s j with
          | some c => if known then s else setPkt s j { c with copyHdr := hdr, copySkip := skip, len := none }
          | none => s
        let t := if msKind m = 1 then voqTarget s (p.inPort / 64) (msDevice m) (msPort m) (msClass m) kind none
          else ({ queue := some (msQueue m), kind := kind, cls := dClass d }, s)
        placeAll t.2 j [t.1]

/-- A punt by an egress stage: the reference leaves the egress half for its trap's punt queue, as R112 sends a punt
(notes/assumptions/26). -/
def egressPunt (s : State) (i : Nat) (o : Out) (d trap : Nat) : State :=
  match trapQueue s trap with
  | none => dropOut (raise s .cls 4) i 63
  | some q =>
    let prt := nodeIdx o.root
    let s := { s with outs := mdel s.outs i, led.oOut := s.led.oOut - 1 }
    let s := setPort s prt { port s prt with dq := (port s prt).dq.filter (· ≠ i) }
    let t : Target := { queue := some q, kind := o.ref.kind, cls := o.ref.cls,
                        desc := some (setBits (setBits d 255 253 3) 168 161 trap) }
    packFor (placeRef s o.ref.pkt t) o.ref.pkt

/-- The PTP action that applies (R128): none without an event message or with the port's time stamping off
(notes/assumptions/27), two-step for a one-step action the header does not permit. -/
def ptpAction (s : State) (prt hv want : Nat) : Nat × State :=
  if want = 0 ∨ fget hv hvPtpValid = 0 ∨ !flag s (Reg.portPtpEnable prt) then (0, s)
  else if want ≠ 1 ∧ fget hv hvPtpOnestepOk = 0 then (1, count1 s Reg.clsPtpOnestepRefused)
  else (want, s)

/-- An offset of the stored packet in the rewritten one: bytes removed at (from, count), then `delta` more in front. -/
def movedOffset (off : Nat) (removed : Nat × Nat) (newLen oldLen : Nat) : Option Nat :=
  if removed.1 + removed.2 ≤ off then some (off + newLen - oldLen) else none

/-- The egress half of one packet or copy for a port (R127). -/
def egressRun (s : State) (i : Nat) (o : Out) (p : Pkt) : State :=
  let prt := nodeIdx o.root
  let rd := readPot s o.ref.pkt p 0 (bytesStored p)
  let s := rd.2
  if rd.1 then dropOut s i 24
  else
    let d := match o.ref.vlan with
      | some v => setBits o.ref.desc 99 88 v
      | none => o.ref.desc
    let bytes := pktBytes s p
    let w := bytes.take 128
    let sv := sieveOf s w
    let hv := sv.parse 0 0
    let e := epochNow s
    let q := checkWord s 7 (32 + pipeOf prt) (clsWord 4 e (dRewrite d))
    let s := q.2
    if q.1 then dropOut s i 63
    else
      let rw := mget 0 s.cls.rewrite (256 * e + dRewrite d)
      let again := fun (b : List Byte) =>
        let k := b ++ bytes.drop 128
        ({ sv with w := k.take 128, vl := if p.ended then min k.length 128 else 128 } : Sieve).parse 0 0
      let rewrite := fun (d : Nat) => rewriteBytes rw d hv sv.ctag sv.stag o.ref.marked w again
      let first := rewrite d
      if !o.ref.cut && decide (maxFrame s prt < first.1.length + p.len.getD 0 - w.length + 4) then dropOut s i 37
      else
        let x : Pass := { s := s, hv := hv, bus := egressBus s d, win := w }
        let x := x.egressStages (planOf s e) e prt d
        let s := x.s
        let d := egressDesc x.bus d
        if fget x.bus mdDisposition = 1 then dropOut s i (fget x.bus mdDropReason)
        else if fget x.bus mdDisposition = 2 then egressPunt s i o d (fget x.bus mdTrap)
        else
          let r := rewrite d
          let s := egressMirror s o p (fget x.bus mdMirror) prt d r.1 w.length
          let a := ptpAction s prt hv (dPtp d)
          let at' := movedOffset (fget hv hvPtpOff) r.2 r.1.length w.length
          let udp := fget hv hvL4Off ≠ 0xFF ∧ fget hv hvPtpOff = fget hv hvL4Off + 8
          let s := a.2
          { s with outs := mput s.outs i { o with
              egressDone := true, hdr := r.1, skip := w.length, counters := x.posts
              ptp := if at'.isSome then a.1 else 0, ptpOff := at'.getD 0
              udpOff := if udp then (at'.getD 0) - 8 else 0, udp6 := fget hv hvL3Type == 2 } }

/-- EGRESS_RUN (R127): a packet or copy dequeued for a port enters the egress half. -/
def execEgressRun (out : Nat) (s : State) : Host.Outcome State Fault Refusal :=
  match mfind s.outs out with
  | none => .next s
  | some o =>
    match pkt? s o.ref.pkt with
    | none => .next s
    | some p => if nodeKind o.root = 0 ∧ !o.egressDone then .next (egressRun s out o p) else .next s

end Sys2Proof.Machine
end

