-- ==== Sys2Proof/Machine/Transmit.lean ====
section
/-! DEFINITION. The transmit MAC (R67–R69, R75, R76): the start and the end of a frame, its time stamp, its counters, and what
its end tells the ledger, the samplers and the histograms. -/

namespace Sys2Proof.Machine

/-- Bytes of a frame the device has received by now (R69): by the line rate since its first byte, or as stored. -/
def bytesReceived (s : State) (p : Pkt) (speed : Nat) : Nat := match p.origin with
  | .line _ => (s.time - p.rxAt) * speed / 8
  | _ => bytesStored p

/-- The bytes that must have come before a cut-through frame may start (R69). -/
def startThreshold (m sIn sOut : Nat) : Nat := if sIn < sOut then ceilDiv (m * (sOut - sIn)) sOut else 0

/-- A cut-through frame waits for its bytes (R69); one from the fabric by the bytes stored, and to its last segment where its
speed is not known (R350). -/
def cutHeld (s : State) (prt : Nat) (p : Pkt) : Bool :=
  match p.origin, speedIn s p with
  | .fabric, some v => !p.ended && (v == 0 || decide (bytesStored p < startThreshold p.maxFrame v (portSpeed s prt)))
  | _, some v => p.len.isNone && decide (bytesReceived s p v < startThreshold p.maxFrame v (portSpeed s prt))
  | _, none => false

/-- Flow control or a calendar switch holds the port's next frame (R60, R70). -/
def startHeld (s : State) (prt q : Nat) : Bool :=
  (port s prt).clientHeld ||
    (if reg s (Reg.portFcMode prt) = 1 then paused s prt 8
     else if reg s (Reg.portFcMode prt) = 2 then paused s prt (qPfc s q) else false)

/-- TX_FRAME_START (R69): the next packet of a port's transmit MAC starts, `frac` the fraction of the nanosecond at its
timestamp point; one that meets a port that is down or looped, or that its ingress MAC has discarded, is discarded. -/
def execTxFrameStart (port frac : Nat) (s : State) : Host.Outcome State Fault Refusal :=
  let x := Machine.port s port
  match x.dq with
  | [] => .next s
  | i :: rest =>
    match mfind s.outs i with
    | none => .next (setPort s port { x with dq := rest })
    | some o =>
      match pkt? s o.ref.pkt with
      | none => .next s
      | some p =>
        if !o.egressDone ∨ x.tx.isSome then .next s
        else if !linkUp s port || farLooped s port then .next (dropOut s i 38)
        else if p.bad.getD 0 ≠ 0 then .next (dropOut s i (p.bad.getD 0))
        else if startHeld s port o.queue || (o.ref.cut && cutHeld s port p) then .next s
        else .next (setPort s port { x with
          dq := rest, tx := some { out := i, startAt := s.time, cut := !p.ended, frac := frac % 65536 } })

/-- The transmit time stamp in units of 2^-16 ns (R75). -/
def txStamp (s : State) (prt : Nat) (t : Tx) : Nat :=
  let c : Int := toSigned 32 (reg s (Reg.portPtpTxCorrPs prt)) * 65536 / 1000
  ((((t.startAt + s.timeOffset) % 2 ^ 64 * 65536 + t.frac : Nat) : Int) + c).toNat

/-- A PTP time: 48-bit seconds and 32-bit nanoseconds. -/
def ptpTime (ns : Nat) : List Byte := beBytes 6 (ns / 1000000000) ++ beBytes 4 (ns % 1000000000)

/-- An entry of the time-stamp FIFO (notes/assumptions/28). -/
def tsEntry (stamp : Nat) (f : List Byte) (off : Nat) : List Byte :=
  ptpTime (stamp / 65536) ++ beBytes 2 stamp ++ slice f (off + 30) 2 ++ [byte (byteAt f off % 16), byte (byteAt f (off + 4))]

/-- A capture joins the FIFO, or is lost to a full one (R76). -/
def captureStamp (s : State) (prt : Nat) (e : List Byte) : State :=
  let x := port s prt
  if 64 ≤ x.ts.length then raise (count32 s (Reg.portTsFifoDrops prt)) (.port prt) 5
  else
    let s := setPort s prt { x with ts := x.ts ++ [e] }
    if x.ts.isEmpty then raise s (.port prt) 4 else s

/-- The ones' complement sum of bytes taken as 16-bit words. -/
def wordSum (l : List Byte) : Nat :=
  let n := (List.range (ceilDiv l.length 2)).foldl (fun t i => t + byteAt l (2 * i) * 256 + byteAt l (2 * i + 1)) 0
  let n := n % 65536 + n / 65536
  n % 65536 + n / 65536

/-- Ones' complement addition. -/
def onesAdd (a b : Nat) : Nat := let t := a + b; t % 65536 + t / 65536

/-- The UDP checksum after a one-step write (R76): zero over IPv4; over IPv6 the two bytes after the message take up the
change. -/
def udpAfter (o : Out) (old new : List Byte) : List Byte :=
  if o.udpOff = 0 then new
  else if o.udp6 then
    let e := o.ptpOff + beAt new (o.ptpOff + 2) 2
    let odd := e % 2 ≠ o.ptpOff % 2
    let swap := fun (v : Nat) => if odd then v % 256 * 256 + v / 256 else v
    let n := e - o.ptpOff
    let v := onesAdd (onesAdd (swap (beAt new e 2)) (wordSum (slice old o.ptpOff n))) (0xFFFF - wordSum (slice new o.ptpOff n))
    splice new e (beBytes 2 (swap (v % 65536)))
  else splice new (o.udpOff + 6) [0, 0]

/-- The PTP action of a frame that leaves (R76): the frame as sent, and the FIFO. -/
def applyPtp (s : State) (prt : Nat) (t : Tx) (o : Out) (f : List Byte) : List Byte × State :=
  let stamp := txStamp s prt t
  if o.ptp = 1 then (f, captureStamp s prt (tsEntry stamp f o.ptpOff))
  else if o.ptp = 2 then (udpAfter o f (splice f (o.ptpOff + 34) (ptpTime (stamp / 65536))), s)
  else if o.ptp = 3 then
    let stay := (stamp / 256 + 2 ^ 40 - dTimestamp o.ref.desc) % 2 ^ 40 * 256
    (udpAfter o f (splice f (o.ptpOff + 8) (beBytes 8 (beAt f (o.ptpOff + 8) 8 + stay))), s)
  else (f, s)

/-- The bytes of a packet that have come: its cells once its last byte is stored, else what has arrived. -/
def arrivedBytes (s : State) (p : Pkt) : List Byte := if p.ended then pktBytes s p else p.data

/-- The frame in transmission is over: the MAC is free, and the pause frames that waited go (R71). -/
def macFree (s : State) (prt i : Nat) : State :=
  let x := port s prt
  let s := setPort s prt { x with tx := none, pauseOut := [] }
  let s := { s with outs := mdel s.outs i, led.oOut := s.led.oOut - 1 }
  x.pauseOut.foldl (fun s f => sendControl s prt f) s

/-- An abort (R68): `body` and the complement of its FCS leave; the discard counts at the egress port. -/
def txAborted (s : State) (prt i : Nat) (o : Out) (p : Pkt) (body : List Byte) (reason : Nat) : State :=
  let f := withBadFcs body
  let s := emit (fbTxSize s prt f) (.frame prt f false)
  let s := if reason = 44 then fbCount (mainCount s prt 0x4E 1) prt 0xB8 1 else s
  let s := discard s reason (some prt) (pktCard s p (some prt))
  releaseRef (macFree s prt i) o.ref.pkt

/-- A frame ends with its correct FCS (R67, R73, R195, R359, R370, R374). -/
def txSent (s : State) (prt i : Nat) (t : Tx) (o : Out) (body : List Byte) : State :=
  let r := applyPtp s prt t o (padTo body (max body.length 60))
  let f := withFcs r.1
  let s := emit (fbTxSize r.2 prt f) (.frame prt f true)
  let s := mainCount (mainCount s prt 0x42 1) prt 0x43 f.length
  let s := { s with led.dLine := s.led.dLine + 1 }
  let s := postCounters s o.counters f.length
  let s := sojourn s prt ((t.startAt + s.timeOffset) % 2 ^ 32) (dTimestamp o.ref.desc / 256)
  let s := sampleCandidate s (reg s (Reg.sampleTx prt)) true (dInPort o.ref.desc) prt o.ref.cls f.length f
  releaseRef (macFree s prt i) o.ref.pkt

/-- The end of a frame whose verdict is known (R68, R492). -/
def txEnds (s : State) (prt : Nat) (t : Tx) (o : Out) (p : Pkt) : State :=
  let c := if t.cut && p.ended then readPot s o.ref.pkt p 0 (bytesStored p) else (false, s)
  let s := c.2
  let body := o.hdr ++ (arrivedBytes s p).drop o.skip
  let m := maxFrame s prt
  if m < body.length + 4 then txAborted s prt t.out o p (body.take (m - 4)) 44
  else if p.bad.getD 0 ≠ 0 then txAborted s prt t.out o p body 44
  else if c.1 then txAborted s prt t.out o p body 24
  else txSent s prt t.out t o body

/-- The bytes of a frame in transmission that have come. -/
def txBody (s : State) (o : Out) (p : Pkt) : List Byte := o.hdr ++ (arrivedBytes s p).drop o.skip

/-- A byte of a packet from the fabric falls due before it is stored (R350). -/
def txStarved (s : State) (prt : Nat) (t : Tx) (o : Out) (p : Pkt) : Bool :=
  p.origin == .fabric && decide ((txBody s o p).length < (s.time - t.startAt) * portSpeed s prt / 8)

/-- TX_FRAME_END (R68): the frame in transmission ends once its ingress verdict is known, or where the fabric's
next byte is not stored when it falls due (R350). -/
def execTxFrameEnd (port : Nat) (s : State) : Host.Outcome State Fault Refusal :=
  match (Machine.port s port).tx with
  | none => .next s
  | some t =>
    match mfind s.outs t.out with
    | none => .next s
    | some o =>
      match pkt? s o.ref.pkt with
      | none => .next s
      | some p => if p.ended ∨ p.bad.isSome then .next (txEnds s port t o p)
          else if txStarved s port t o p then .next (txAborted s port t.out o p (txBody s o p) 44)
          else .next s

end Sys2Proof.Machine
end

