-- ==== Sys2Proof/Machine/PennantSend.lean ====
section
/-! DEFINITION. Pennants a device sends (R326–R330, R340, R344, R350, R351), and the chapter's entries (R353). -/

namespace Sys2Proof.Machine

/-- CREDIT_PENNANT_SEND (R344): the oldest entries that wait for a device leave in one pennant; they wait for a free place,
and are lost where no route is left (notes/assumptions/33). -/
def execCreditPennantSend (dest : Nat) (s : State) : Host.Outcome State Fault Refusal :=
  if s.pwr.flushing then .next s
  else match mget [] s.ft.gather dest with
  | [] => .next s
  | c :: r =>
    let gone := { s with ft.gather := mset [] s.ft.gather dest r }
    if (routeSet s dest).isEmpty ∨ !namesDevice (ownId s) then .next gone
    else
      match spray gone dest none none bufferRoom with
      | none => .next s
      | some (b, s) =>
        let es := c.entries.map (fun e => if bits e 114 112 = 5 then setBits e 63 32 (timeNs s % 2 ^ 32) else e)
        let p := pennant c.ty (ownId s) dest 0 0 0 (16 * es.length) 0 0 (es.flatMap (beBytes 16))
        let x := bundle s b
        .next (setBundle s b { x with credit := x.credit ++ [p] })

/-! ### The fabric form (R326, R328, R330) -/

/-- The speed code of a packet's prefix: the largest at or below its port's speed; 0 for one that came in elsewhere. -/
def speedCode (s : State) (p : Pkt) : Nat := match p.origin with
  | .line q => (([10, 25, 40, 50, 100, 200, 400, 800, 1600]).filter (fun v => decide (v ≤ portSpeed s q))).length
  | _ => 0

/-- The descriptor a reference carries into the fabric: its length as stored, CE where it was marked (R273). -/
def sentDesc (o : Out) (p : Pkt) : Nat :=
  let d := if p.ended ∧ dLength o.ref.desc = 0x3FFF then setBits o.ref.desc 198 185 (p.len.getD 0x3FFF) else o.ref.desc
  if o.ref.marked then setBits d 45 44 3 else d

/-- Whether all bytes of a packet that will come have come: its last byte is stored, or its MAC has discarded it. -/
def formWhole (p : Pkt) : Bool := p.ended || p.bad.getD 0 != 0

/-- The fabric form as far as it is stored; `lost` when a word of it was lost (R489). -/
def fabricForm (s : State) (o : Out) (p : Pkt) (lost : Bool) : List Byte :=
  let d := sentDesc o p
  let pre := beBytes 4 (speedCode s p * 2 ^ 28)
  let data := arrivedBytes s p
  if formWhole p then
    let n := data.length
    let reason := if p.bad.getD 0 ≠ 0 then p.bad.getD 0 else if lost then 24 else 0
    let crc := crc32c (pre ++ beBytes 32 (setBits d 198 185 n) ++ data)
    pre ++ beBytes 32 d ++ data ++ beBytes 8 (crc * 2 ^ 32 + n * 2 ^ 18 + reason * 2 ^ 12)
  else pre ++ beBytes 32 d ++ data

/-- The references of a queue in the FABX, oldest first. -/
def fabxLine (s : State) (q : Nat) : List (Nat × Out) := s.outs.filter (fun x => x.2.queue == q && nodeKind x.2.root == 5)

/-- A pennant being made: its type, segments minus one, payload, the references it ends, and where the next one stands. -/
structure Cut where
  ty : Nat
  segs : Nat
  body : List Byte
  ends : List Nat
  open' : Option (Nat × Nat)
deriving DecidableEq, Repr

/-- A segment marker. -/
def marker (pos n : Nat) : List Byte := beBytes 4 (pos * 2 ^ 30 + n * 2 ^ 22)

/-- Further references join a packed pennant (R330): up to 4 segments, while 48 bytes are free. -/
def packMore : Nat → State → List (Nat × Out) → Cut → Cut
  | 0, _, _, c => c
  | f + 1, s, l, c =>
    match l with
    | [] => c
    | (i, o) :: r =>
      match pkt? s o.ref.pkt with
      | none => c
      | some p =>
        if !formWhole p ∨ 240 < c.body.length + 48 then c
        else
          let form := fabricForm s o p (readPot s o.ref.pkt p 0 (bytesStored p)).1
          let room := 236 - c.body.length
          if form.length ≤ room then
            packMore f s r { c with segs := c.segs + 1, body := c.body ++ marker 0 form.length ++ form, ends := c.ends ++ [i] }
          else { c with segs := c.segs + 1, body := c.body ++ marker 1 room ++ form.take room, open' := some (i, room) }

/-- The next pennant of a queue's line: none while its bytes are not all stored (R327, R330, R350). -/
def cutNext (s : State) (line : List (Nat × Out)) : Option Cut :=
  match line with
  | [] => none
  | (i, o) :: rest =>
    match pkt? s o.ref.pkt with
    | none => none
    | some p =>
      let at' := mget 0 s.ft.sentOff i
      let form := fabricForm s o p (formWhole p && (readPot s o.ref.pkt p 0 (bytesStored p)).1)
      let left := form.length - at'
      if 240 < left ∨ (!formWhole p ∧ 240 = left) then
        some { ty := if at' = 0 then 2 else 3, segs := 0, body := slice form at' 240, ends := [], open' := some (i, at' + 240) }
      else if !formWhole p then none
      else
        let seg := form.drop at'
        let one : Cut := { ty := if at' = 0 then 1 else 4, segs := 0, body := seg, ends := [i], open' := none }
        let more := match rest with
          | (_, o2) :: _ => (match pkt? s o2.ref.pkt with
            | some p2 => formWhole p2
            | none => false)
          | [] => false
        if more && decide (left + 48 ≤ 240) then
          some { packMore 3 s rest { one with body := marker (if at' = 0 then 0 else 3) left ++ seg } with ty := 5 }
        else some one

/-- The last pennant of a packet has entered a transmit buffer (R359): its reference is released. -/
def endOut (s : State) (i : Nat) : State :=
  match mfind s.outs i with
  | none => s
  | some o =>
    let lost := match pkt? s o.ref.pkt with
      | some p => (readPot s o.ref.pkt p 0 (bytesStored p)).2
      | none => s
    let s := { lost with outs := mdel s.outs i, ft.sentOff := mdel s.ft.sentOff i, led.dFabric := s.led.dFabric + 1,
                         led.oOut := s.led.oOut - 1 }
    releaseRef s o.ref.pkt

/-- What a cut leaves: references end, and the open one stands further on. -/
def afterCut (s : State) (c : Cut) : State :=
  let s := c.ends.foldl endOut s
  match c.open' with
  | some (i, n) => { s with ft.sentOff := mset 0 s.ft.sentOff i n }
  | none => s

/-- The sequence start goes out on every bundle of the route set (R329); none while one has no room for it. -/
def sendStart (s : State) (d : Nat) : Option State :=
  let set := routeSet s d
  if !(destRec s d).startOwed then some s
  else if set.isEmpty || set.any (fun b => decide (64 ≤ (bundle s b).ctrl.length)) then none
  else
    let p := pennant 10 (ownId s) d 0 0 (mget 0 s.ft.pairSeq d) 1 0 0 [1]
    let s := set.foldl (fun s b => sendControlPennant s b p) s
    some (setDestRec s d { destRec s d with startOwed := false })

/-- A pennant of a unicast reference (R329, R340). -/
def sendUnicast (s : State) (q : Nat) (o : Out) (line : List (Nat × Out)) : State :=
  let desc := o.ref.desc
  let d := dDestDevice desc
  if destState s d = 0 ∨ destState s d = 3 then dropOut s ((line.map (·.1)).head?.getD 0) 31
  else if (mget q s.ft.busy d) ≠ q then s
  else match cutNext s line with
    | none => s
    | some c => match sendStart s d with
      | none => s
      | some t => match spray t d none (some (dClass desc)) bufferRoom with
        | none => s
        | some (b, s) =>
          let seq := mget 0 s.ft.pairSeq d
          let p := pennant c.ty (ownId s) d (dDestPort desc) (dClass desc) seq c.body.length c.segs 0 c.body
          let x := bundle s b
          let s := setBundle s b { x with own := x.own ++ [p] }
          let s := { s with ft.pairSeq := mset 0 s.ft.pairSeq d ((seq + 1) % 2 ^ 24),
                            ft.busy := if c.open'.isSome then mput s.ft.busy d q else mdel s.ft.busy d }
          afterCut s c

/-- A pennant of a multicast reference, on every bundle of the group's mask (R351, R352). -/
def sendMulticast (s : State) (i : Nat) (o : Out) : State :=
  let g := dMcGroup o.ref.desc
  let mask := bitList 8 (fabricMap s g)
  match pkt? s o.ref.pkt with
  | none => s
  | some p =>
    let at' := mget 0 s.ft.sentOff i
    let form := fabricForm s o p (formWhole p && (readPot s o.ref.pkt p 0 (bytesStored p)).1)
    let left := form.length - at'
    let last := formWhole p && decide (left ≤ 240)
    if (!last ∧ left < 240) ∨ mask.any (fun b => !bufferRoom (bundle s b)) ∨ mget q0 s.ft.busy (2 ^ 32 + g) ≠ q0 then s
    else
      let body := (form.drop at').take 240
      let pos := if at' = 0 then (if last then 0 else 1) else if last then 3 else 2
      let seq := mget 0 s.ft.groupSeq g
      let p := pennant 6 (ownId s) g 0 (dClass o.ref.desc) seq body.length 0 (pos * 8) body
      let s := mask.foldl (fun s b =>
        let x := bundle s b
        setBundle s b { x with own := x.own ++ [p] }) s
      let s := { s with ft.groupSeq := mset 0 s.ft.groupSeq g ((seq + 1) % 2 ^ 24),
                        ft.busy := if last then mdel s.ft.busy (2 ^ 32 + g) else mput s.ft.busy (2 ^ 32 + g) q0 }
      afterCut s { ty := 6, segs := 0, body := body, ends := if last then [i] else [],
                   open' := if last then none else some (i, at' + 240) }
where
  /-- The queue whose packet is under way. -/
  q0 : Nat := o.queue

/-- PENNANT_SEND (R340): the FABX makes the next pennant of a VOQ's packets. -/
def execPennantSend (queue : Nat) (s : State) : Host.Outcome State Fault Refusal :=
  let line := fabxLine s queue
  match line with
  | [] => .next s
  | (i, o) :: _ =>
    if !namesDevice (ownId s) ∨ s.pwr.flushing then .next s
    else if o.ref.kind = .fabricCopy then .next (touchVoqs (sendMulticast s i o))
    else .next (touchVoqs (sendUnicast s queue o line))

/-! ### Entries (R353) -/

/-- Writes with a rule of their own. -/
def ftWrite (k v : Nat) (s : State) : Applied :=
  match idxOf k with
  | 0x2802 =>
    let s := setReg s k v
    .done ((mkeys s.ft.recs).foldl routeChanged s)
  | 0x2806 => if reg s Reg.ftReassemblyTimeoutUs * 1000 ≤ v then .fail .refused else storeRule k v s
  | 0x2807 => if v * 1000 ≤ reg s Reg.ftReorderTimeoutNs then .fail .refused else storeRule k v s
  | 0x2808 => if poolServes s v 0 then storeRule k v s else .fail .refused
  | 0x2810 => if v ≤ reg s Reg.ftBurgeeXon then .fail .refused else storeRule k v s
  | 0x2811 => if reg s Reg.ftBurgeeXoff ≤ v then .fail .refused else storeRule k v s
  | _ => storeRule k v s

/-- The record of a device as `ft_dest_info` shows it. -/
def destInfo (s : State) (d : Nat) : List Byte :=
  let r := destRec s d
  [byte (destState s d), byte (routeMask s d)] ++ beBytes 2 (bestDist s d) ++ r.dist.flatMap (beBytes 2) ++ beBytes 4 r.rtt ++
    beBytes 4 (s.ft.grants.filter (fun x => x.1 / 8192 == d)).length

/-- DOMAIN values. -/
def ftDomain (s : State) (k : Nat) : List Byte :=
  match idxOf k with
  | 0x2812 => (List.range 65536).flatMap (fun g => beBytes 2 (fabricMap s g))
  | 0x2814 => destInfo s (reg s Reg.ftDestSelect % 2 ^ 20)
  | 0x2815 => (s.ft.dest.filter (fun x => x.2 != 0)).flatMap (fun x =>
      beBytes 4 x.1 ++ [byte x.2, byte (routeMask s x.1)] ++ beBytes 2 (bestDist s x.1))
  | _ => []

/-- DOMAIN writes: `ft_mc_map`. -/
def ftCommit (k : Nat) (b : List Byte) (s : State) : Applied :=
  if idxOf k ≠ 0x2812 then .fail .refused
  else if b.length ≠ 131072 then .fail .refused
  else
    let ws := (List.range 65536).map (fun g => (g, maskBits (beAt b (2 * g) 2) 0x1FF))
    .done { s with ft.mcMap := ws.filter (fun x => x.2 ≠ 0) }

end Sys2Proof.Machine
end

