-- ==== Sys2Proof/Machine/Observe.lean ====
section
/-! DEFINITION. Observability (ch. 14): ledger epochs, the performance counters' entries, windows, watermarks and
histograms, mirror sessions, and Ensign's messages. -/

namespace Sys2Proof.Machine

/-- TIME stands at a multiple of `n` nanoseconds (n > 0). -/
def atMultiple (s : State) (n : Nat) : Bool := decide (0 < n) && timeNs s % n == 0

/-! ### The conservation ledger (R359–R362) -/

/-- The five occupancy terms added up. -/
def Ledger.held (l : Ledger) : Nat := l.oRx + l.oFab + l.oQueue + l.oOut + l.oGen

/-- The arrivals of the epoch. -/
def Ledger.arrivals (l : Ledger) : Nat := l.aLine + l.aFabric + l.aInject + l.aMgmt + l.aEnsign + l.aCopy

/-- The departures of the epoch. -/
def Ledger.departures (l : Ledger) : Nat := l.dLine + l.dFabric + l.dHost + l.dMgmt + l.dFanout

/-- I (R361). -/
def Ledger.imbalance (l : Ledger) : Int :=
  (l.arrivals : Int) - (l.departures : Int) - ((l.x.foldl (fun t x => t + x.2) 0 : Nat) : Int) - (l.c : Int) -
    ((l.held : Int) - (l.oStart : Int))

/-- A ledger record (Table — Ledger record). -/
def ledgerRecord (l : Ledger) (epoch : Nat) : List Byte :=
  let i := l.imbalance
  let flags := b2n (i == 0 && !l.incomplete) + 2 * b2n l.incomplete + 4 * b2n l.fault
  beBytes 8 epoch ++ beBytes 4 flags ++ beBytes 4 0 ++ beBytes 8 (ofSigned 64 i) ++
    [l.aLine, l.aFabric, l.aInject, l.aMgmt, l.aEnsign, l.aCopy].flatMap (beBytes 8) ++
    [l.dLine, l.dFabric, l.dHost, l.dMgmt, l.dFanout].flatMap (beBytes 8) ++
    (List.range 64).flatMap (fun r => beBytes 8 (if r = 8 then l.c else mget 0 l.x r)) ++
    [l.oRx, l.oFab, l.oQueue, l.oOut, l.oGen].flatMap (beBytes 8) ++ beBytes 8 0

/-- A ledger counter fails its residue check (R361, R495). -/
def ledgerResidue (s : State) : State :=
  let s := residueMismatch s
  raise { s with led.fault := true, led.incomplete := true } .obs 1

/-- LEDGER_EPOCH_BOUNDARY (R360, R361): the record of the epoch just closed, its check, and the next epoch. -/
def execLedgerEpochBoundary (s : State) : Host.Outcome State Fault Refusal :=
  if atMultiple s 1000000 then
    let s := if residueArmed s 6 then ledgerResidue s else s
    let l := s.led
    let epoch := timeNs s / 1000000 - 1
    let s := { s with led := { oRx := l.oRx, oFab := l.oFab, oQueue := l.oQueue, oOut := l.oOut, oGen := l.oGen,
                               oStart := l.held, incomplete := false, history := (ledgerRecord l epoch :: l.history).take 64 } }
    if l.incomplete ∨ l.imbalance = 0 then .next s
    else .next (raise (setReg (count1 s Reg.ledgerMismatches) Reg.ledgerLastMismatch epoch) .obs 0)
  else .next s

/-! ### Performance counters (R363, R364) -/

/-- How many instances an event code has; 0 for a reserved code (Table — Performance events). -/
def perfInstances (code : Nat) : Nat :=
  if code = 1 ∨ code = 2 then 1024 else if code = 3 then 2 ^ 17 else if code = 0x10 ∨ code = 0x11 then 121
  else if code = 0x20 ∨ code = 0x21 ∨ code = 0x30 ∨ code = 0x31 then 8
  else if 0x40 ≤ code ∧ code ≤ 0x42 then 16 else if code = 0x50 ∨ code = 0x70 then 1 else if code = 0x51 then 4
  else if 0x60 ≤ code ∧ code ≤ 0x62 then 8 else 0

/-- The modes a code permits. -/
def perfModes (code : Nat) : List Nat :=
  if code = 1 ∨ code = 2 ∨ code = 0x40 ∨ code = 0x41 ∨ code = 0x51 then [0, 1]
  else if code = 0x11 ∨ code = 0x62 then [2] else [0]

/-- A write of a selector (R363). The zero word selects nothing and is always taken. -/
def wPerfSelect (n v : Nat) (s : State) : Applied :=
  let code := bits v 27 18
  if v ≠ 0 ∧ (perfInstances code = 0 ∨ !(perfModes code).contains (bits v 29 28) ∨ perfInstances code ≤ bits v 17 0 ∨
      (bit v 30 ∧ n = 4095)) then .fail .refused
  else .done (setReg s (Reg.perfSelect n) v)

/-- A write of a counter (R364). -/
def wPerfCounter (n v : Nat) (s : State) : Applied :=
  .done { setReg s (Reg.perfCounter n) v with obs.perfOverflow := mset false s.obs.perfOverflow n false }

/-- PERF_SELECT_WRITE (R363). -/
def execPerfSelectWrite (client : Client) (counter value : Nat) (s : State) : Host.Outcome State Fault Refusal :=
  .next (writeRow s client (Reg.perfSelect counter) value (wPerfSelect counter value))

/-- PERF_COUNTER_WRITE (R364). -/
def execPerfCounterWrite (client : Client) (counter value : Nat) (s : State) : Host.Outcome State Fault Refusal :=
  .next (writeRow s client (Reg.perfCounter counter) value (wPerfCounter counter value))

/-- PERF_COUNTER_WRAP (R364): an enabled counter at its last value counts one more, and wraps. -/
def execPerfCounterWrap (counter : Nat) (s : State) : Host.Outcome State Fault Refusal :=
  if counter < 4096 ∧ bit (reg s (Reg.perfSelect counter)) 31 ∧ reg s (Reg.perfCounter counter) = 2 ^ 32 - 1 then
    .next (perfAdd s counter 1)
  else .next s

/-! ### Windows, watermarks and histograms (R367–R370) -/

/-- Octets counted since a window began; the octet counters are 40 bits wide. -/
def octetsSince (now base : Nat) : Nat := (now + 2 ^ 40 - base % 2 ^ 40) % 2 ^ 40

/-- BW_WINDOW_END (R367): at a multiple of the window in TIME. -/
def execBwWindowEnd (port : Nat) (s : State) : Host.Outcome State Fault Refusal :=
  if port < 1024 ∧ atMultiple s (2 ^ reg s (Reg.bwWindowK port) * 1000) then
    let rx := reg s (Reg.fbRxOctets port)
    let tx := reg s (Reg.fbTxOctets port)
    let t := if mget 0 s.obs.bwSkip port ≠ 0 then s
      else
        let s := setReg s (Reg.bwRxBytes port) (octetsSince rx (mget 0 s.obs.bwRx port))
        let s := setReg s (Reg.bwTxBytes port) (octetsSince tx (mget 0 s.obs.bwTx port))
        count32 s (Reg.bwSeq port)
    .next { t with obs.bwRx := mset 0 t.obs.bwRx port rx, obs.bwTx := mset 0 t.obs.bwTx port tx,
                   obs.bwSkip := mset 0 t.obs.bwSkip port 0 }
  else .next s

/-- A write of `bw_window_k`: the window in progress is discarded (R367). -/
def wBwWindowK (p v : Nat) (s : State) : Applied :=
  .done { setReg s (Reg.bwWindowK p) v with obs.bwSkip := mset 0 s.obs.bwSkip p 1 }

/-- BW_WINDOW_K_WRITE (R367). -/
def execBwWindowKWrite (client : Client) (port value : Nat) (s : State) : Host.Outcome State Fault Refusal :=
  .next (writeRow s client (Reg.bwWindowK port) value (wBwWindowK port value))

/-- QWM_VALUE_READ (R368): the selected queue's watermark goes out and falls to its Q, as one action. -/
def execQwmValueRead (client : Client) (s : State) : Host.Outcome State Fault Refusal :=
  let q := reg s Reg.qwmSelect
  let x := queue s q
  .next (readRow s client Reg.qwmValue x.watermark (fun s => setQueue s q { x with watermark := qDepth x }))

/-- The bin of a depth with exponent `e` (R369). -/
def histBin (q e : Nat) : Nat := min ((List.range 15).filter (fun i => 2 ^ (e + i) ≤ q)).length 15

/-- HIST_SAMPLE (R369): at a multiple of the monitor's period in TIME. -/
def execHistSample (monitor : Nat) (s : State) : Host.Outcome State Fault Refusal :=
  let w := reg s (Reg.histMonitor monitor)
  if monitor < 64 ∧ bit w 63 ∧ atMultiple s (bits w 39 20 * 128) then
    let b := histBin (qDepth (queue s (bits w 62 44))) (bits w 43 40)
    let l := mget [] s.obs.histBins monitor
    let l := if l.isEmpty then List.replicate 16 0 else l
    .next { s with obs.histBins := mset [] s.obs.histBins monitor (putAt l b (min (natAt l b + 1) (2 ^ 64 - 1))) }
  else .next s

/-- A write of `hist_clear` (R369). -/
def wHistClear (m v : Nat) (s : State) : Applied :=
  .done (if v = 0 then s else { s with obs.histBins := mset [] s.obs.histBins m [] })

/-- A write of `hist_monitor` zeroes the bins too (R369); a period of 0 is outside its range. -/
def wHistMonitor (m v : Nat) (s : State) : Applied :=
  if v ≠ 0 ∧ bits v 39 20 = 0 then .fail .refused
  else .done { setReg s (Reg.histMonitor m) (writable (Reg.histMonitor m) v) with obs.histBins := mset [] s.obs.histBins m [] }

/-- HIST_CLEAR (R369). -/
def execHistClear (client : Client) (monitor value : Nat) (s : State) : Host.Outcome State Fault Refusal :=
  .next (writeRow s client (Reg.histClear monitor) value (wHistClear monitor value))

/-- A write of `soj_clear` (R377). -/
def wSojClear (p v : Nat) (s : State) : Applied :=
  .done (if v = 0 then s else { setReg s (Reg.sojNegative p) 0 with obs.sojBins := mset [] s.obs.sojBins p [] })

/-- SOJ_CLEAR (R377). -/
def execSojClear (client : Client) (port value : Nat) (s : State) : Host.Outcome State Fault Refusal :=
  .next (writeRow s client (Reg.sojClear port) value (wSojClear port value))

/-! ### Mirror sessions (R371) -/

/-- A write of a session: the fields outside its kind are zero, and the truncation is not 1. -/
def wMirrorSession (n : Nat) (b : List Byte) (s : State) : Applied :=
  let m := beNat b
  if b.length ≠ 16 then .fail .refused
  else if bits m 72 64 = 1 ∨ msKind m = 3 ∨ (msKind m = 1 ∧ msQueue m ≠ 0) ∨
      (msKind m ≠ 1 ∧ (msDevice m ≠ 0 ∨ msPort m ≠ 0 ∨ msClass m ≠ 0)) then .fail .refused
  else .done (setBlk s (Reg.mirrorSession n) (if m / 2 ^ 56 = 0 then [] else beBytes 16 (m / 2 ^ 56 * 2 ^ 56)))

/-- MIRROR_SESSION_WRITE (R371). -/
def execMirrorSessionWrite (client : Client) (session : Nat) (value : List Byte) (s : State) : Host.Outcome State Fault Refusal :=
  .next (commitRow s client (Reg.mirrorSession session) (wMirrorSession session value))

/-! ### Ensign (R375, R376) -/

/-- A field specifier: an IANA element, or one of Kreost's with its enterprise number. -/
def fieldSpec (pen id len : Nat) : List Byte :=
  if 512 ≤ id then beBytes 2 (0x8000 + (id - 512)) ++ beBytes 2 len ++ beBytes 4 pen else beBytes 2 id ++ beBytes 2 len

/-- The fields of a template: element (Kreost's plus 512) and length, 65535 the variable one. -/
def templateFields (t : Nat) : List (Nat × Nat) :=
  if t = 256 then [(513, 8), (302, 8), (61, 1), (10, 4), (14, 4), (522, 1), (305, 4), (312, 2), (315, 65535)]
  else if t = 257 then [(513, 8), (514, 1), (10, 4), (14, 4), (522, 1), (312, 2), (315, 65535)]
  else if t = 258 then [(513, 8), (515, 4), (14, 4), (516, 4), (517, 4), (518, 4), (519, 1), (520, 4)]
  else [(513, 8), (523, 2), (524, 1), (525, 1)]

/-- A template record. -/
def templateRecord (pen t : Nat) : List Byte :=
  let l := templateFields t
  beBytes 2 t ++ beBytes 2 l.length ++ l.flatMap (fun f => fieldSpec pen f.1 f.2)

/-- An IPFIX set. -/
def ipfixSet (id : Nat) (b : List Byte) : List Byte := beBytes 2 id ++ beBytes 2 (4 + b.length) ++ b

/-- Records as data sets, one for each run of one template. -/
def dataSets : List (Nat × Nat × List Byte) → Option (Nat × List Byte) → List Byte
  | [], none => []
  | [], some (t, b) => ipfixSet t b
  | (t, _, b) :: r, none => dataSets r (some (t, b))
  | (t, _, b) :: r, some (u, c) => if t = u then dataSets r (some (u, c ++ b)) else ipfixSet u c ++ dataSets r (some (t, b))

/-- How many records fit in `room` bytes of sets. -/
def recordsFit : List (Nat × Nat × List Byte) → Option Nat → Nat → Nat
  | [], _, _ => 0
  | (t, _, b) :: r, last, room =>
    let n := b.length + (if last = some t then 0 else 4)
    if n ≤ room then 1 + recordsFit r (some t) (room - n) else 0

/-- The stored header of Ensign's frames. -/
def ensHeader (s : State) : List Byte := blk s Reg.ensHeader

/-- Bytes of an IPFIX message that `ens_mtu` leaves. -/
def ipfixRoom (s : State) : Nat := reg s Reg.ensMtu - ((ensHeader s).length - 14)

/-- An IPFIX message (RFC 7011). -/
def ipfixMessage (s : State) (sets : List Byte) : List Byte :=
  let d := reg s Reg.ensDomainId
  beBytes 2 10 ++ beBytes 2 (16 + sets.length) ++ beBytes 4 (timeNs s / 1000000000) ++ beBytes 4 s.obs.ensSeq ++
    beBytes 4 (if d = 0 then ownId s else d) ++ sets

/-- The frame: the header with its lengths and checksums filled in, then the message (R375). -/
def ensignFrame (s : State) (m : List Byte) : List Byte :=
  let h := ensHeader s
  let udp := 8 + m.length
  if h.length = 42 then
    let h := splice (splice h 16 (beBytes 2 (28 + m.length))) 24 [0, 0]
    let h := splice h 24 (beBytes 2 (0xFFFF - wordSum (slice h 14 20)))
    splice (splice h 38 (beBytes 2 udp)) 40 [0, 0] ++ m
  else if h.length = 62 then
    let h := splice (splice (splice h 18 (beBytes 2 udp)) 58 (beBytes 2 udp)) 60 [0, 0]
    let c := 0xFFFF - wordSum (slice h 22 32 ++ beBytes 4 udp ++ beBytes 4 17 ++ slice h 54 8 ++ m)
    splice h 60 (beBytes 2 (if c = 0 then 0xFFFF else c)) ++ m
  else h ++ m

/-- A packet the device makes itself reaches its queue, or is discarded where the queue is none of a packet's (R256, R359). -/
def placeOwn (s : State) (origin : Origin) (q : Nat) (desc : Nat) (data : List Byte) : State :=
  let i := s.nextPkt
  let d := setBits (setBits desc 255 253 4) 198 185 data.length
  let p : Pkt := { origin := origin, stage := .ready, data := data, len := some data.length, ended := true, bad := some 0,
                   desc := d, namedQueue := q, maxFrame := data.length + 4, rxAt := s.time }
  let s := { setPkt s i p with nextPkt := i + 1, led.oGen := s.led.oGen + 1 }
  if qType s q = 1 ∨ qType s q = 2 then touchVoqs (enqueueArrival s i)
  else discardArrival (raise (count1 s Reg.qmNoQueue) .qm 4) i 63

/-- One message leaves (R375). -/
def sendEnsign (s : State) (sets : List Byte) : State :=
  let f := ensignFrame s (ipfixMessage s sets)
  let s := { s with led.aEnsign := s.led.aEnsign + 1 }
  placeOwn s .ensign (reg s Reg.ensDest) (timeNs s % 2 ^ 32 * 2 ^ 12) f

/-- ENSIGN_MESSAGE_SEND (R375): the records that fit go, when a further one does not fit or the oldest has waited long
enough. -/
def execEnsignMessageSend (s : State) : Host.Outcome State Fault Refusal :=
  match s.obs.ensRecords with
  | [] => .next s
  | (t, at0, b) :: r =>
    let l := (t, at0, b) :: r
    let n := max 1 (recordsFit l none (ipfixRoom s - 16))
    if !s.pwr.flushing ∧ (n < l.length ∨ at0 + reg s Reg.ensFlushUs * 1000 ≤ s.time) then
      let out := l.take n
      let s := sendEnsign s (dataSets out none)
      let s := { s with obs.ensRecords := s.obs.ensRecords.drop n, obs.ensSeq := (s.obs.ensSeq + n) % 2 ^ 32 }
      .next (countBy s 64 Reg.ensRecordsSent n)
    else .next s

/-- ENSIGN_TEMPLATE_SEND (R375, R387): at enable, every `ens_template_s`, and after a write to an Ensign entry. -/
def execEnsignTemplateSend (s : State) : Host.Outcome State Fault Refusal :=
  if flag s Reg.ensEnable ∧ !s.pwr.flushing ∧ (s.obs.tmplDue ∨ s.obs.tmplAt + reg s Reg.ensTemplateS * 1000000000 ≤ s.time) then
    let pen := reg s Reg.ensPen
    let routed := s.od.any (fun e => decide (key 0x140C 0 ≤ e.1) && decide (e.1 < key 0x1410 0) && bit e.2 9)
    let ts := [256, 257, 258] ++ (if routed then [259] else [])
    let s := sendEnsign s (ipfixSet 2 (ts.flatMap (templateRecord pen)))
    .next { s with obs.tmplDue := false, obs.tmplAt := s.time }
  else .next s

/-- A snapshot record (Table — Ensign templates, 258). -/
def snapshotRecord (s : State) (q : Nat) : List Byte :=
  let x := queue s q
  beBytes 8 (timeNs s) ++ beBytes 4 q ++ beBytes 4 ((queuePort s q).getD 0xFFFFFFFF) ++ beBytes 4 x.qs ++ beBytes 4 x.qc ++
    beBytes 4 x.watermark ++ [byte (b2n x.spilled)] ++ beBytes 4 (refsHeld x)

/-- ENSIGN_SNAPSHOT (R375): a record for each listed queue, at a multiple of the period. -/
def execEnsignSnapshot (s : State) : Host.Outcome State Fault Refusal :=
  if atMultiple s (reg s Reg.ensSnapshotUs * 1000) then
    .next ((chunks 4 1024 (blk s Reg.ensSnapshotList)).foldl (fun s b => ensRecord s 258 (snapshotRecord s (beNat b))) s)
  else .next s

/-- A write of `ens_enable` (R375). -/
def wEnsEnable (v : Nat) (s : State) : Applied :=
  let q := reg s Reg.ensDest
  if v ≠ 0 ∧ (reg s Reg.ensPen = 0 ∨ (qType s q ≠ 1 ∧ qType s q ≠ 2)) then .fail .refused
  else .done { setReg s Reg.ensEnable v with obs.tmplDue := v != 0 }

/-- ENS_ENABLE_WRITE (R375). -/
def execEnsEnableWrite (client : Client) (value : Nat) (s : State) : Host.Outcome State Fault Refusal :=
  .next (writeRow s client Reg.ensEnable value (wEnsEnable value))

/-! ### Entries (R377) -/

/-- A write to an Ensign entry makes the templates due (R375). -/
def ensWritten (a : Applied) : Applied := a.bind (fun s => .done { s with obs.tmplDue := flag s Reg.ensEnable })

/-- The chapter's writes. -/
def obsWrite (k v : Nat) (s : State) : Applied :=
  let i := idxOf k
  if i = 0x5070 then wEnsEnable v s
  else if 0x5071 ≤ i ∧ i ≤ 0x507B then ensWritten (storeRule k v s)
  else if i = 0x5040 then (if v ≠ 0 ∧ v % 2 ^ 24 = 0 then .fail .refused else .done (setReg s k (maskBits v 0xC0FFFFFF)))
  else if i = 0x5050 then wHistMonitor (subOf k) v s
  else if i = 0x5052 then wHistClear (subOf k) v s
  else if 0x5100 ≤ i ∧ i < 0x5110 then wPerfCounter ((i - 0x5100) * 256 + subOf k) v s
  else if 0x5110 ≤ i ∧ i < 0x5120 then wPerfSelect ((i - 0x5110) * 256 + subOf k) v s
  else if 0x5800 ≤ i ∧ subOf k = 0x40 then wBwWindowK (i - 0x5800) v s
  else if 0x5800 ≤ i ∧ subOf k = 0x4B then wSojClear (i - 0x5800) v s
  else storeRule k v s

/-- The chapter's values that are not stored. -/
def obsRead (s : State) (k : Nat) : Nat :=
  if k = Reg.qwmValue then (queue s (reg s Reg.qwmSelect)).watermark else reg s k

/-- `perf_overflow`: bit n for counter n, the lowest-numbered bits in the first byte (notes/assumptions/35). -/
def perfOverflowBytes (s : State) : List Byte :=
  (List.range 512).map (fun i => byte ((List.range 8).foldl (fun v j =>
    v + b2n (mget false s.obs.perfOverflow (8 * i + j)) * 2 ^ j) 0))

/-- The chapter's DOMAIN values. -/
def obsDomain (s : State) (k : Nat) : List Byte :=
  let i := idxOf k
  if i = 0x5010 then s.led.history.head?.getD (List.replicate 672 0)
  else if i = 0x5011 then s.led.history.flatten
  else if i = 0x5020 then perfOverflowBytes s
  else if i = 0x5030 then padTo (blk s k) 16
  else if i = 0x5051 then
    let l := mget [] s.obs.histBins (subOf k)
    (if l.isEmpty then List.replicate 16 0 else l).flatMap (beBytes 8)
  else if 0x5800 ≤ i then
    let l := mget [] s.obs.sojBins (i - 0x5800)
    (if l.isEmpty then List.replicate 32 0 else l).flatMap (beBytes 8)
  else blk s k

/-- The chapter's DOMAIN writes. -/
def obsCommit (k : Nat) (b : List Byte) (s : State) : Applied :=
  let i := idxOf k
  if i = 0x5030 then wMirrorSession (subOf k) b s
  else if i = 0x5074 then (if b.length = 42 ∨ b.length = 62 then ensWritten (.done (setBlk s k b)) else .fail .refused)
  else if i = 0x507B then
    (if b.length % 4 ≠ 0 ∨ 4096 < b.length then .fail .refused
     else if (chunks 4 1024 b).any (fun q => decide (524288 ≤ beNat q)) then .fail .refused
     else ensWritten (.done (setBlk s k b)))
  else .fail .refused

end Sys2Proof.Machine
end

