-- ==== Sys2Proof/Machine/Events.lean ====
section
/-! DEFINITION. The event system's commands and entries (R379–R389). -/

namespace Sys2Proof.Machine

/-- The cause register whose cause (false) or enable (true) an entry is, for a client (R447 for a VF's own). -/
def causeOfEntry (c : Client) (k : Nat) : Option (CauseReg × Bool) :=
  let i := idxOf k
  let test := fun (r : CauseReg) => if k = r.key then some (r, false) else if k = r.enableKey then some (r, true) else none
  if 0x2000 ≤ i ∧ i < 0x2400 then test (.port (i - 0x2000))
  else if 0x2400 ≤ i ∧ i < 0x2500 then test (.lane (i - 0x2400))
  else if 0x2500 ≤ i ∧ i < 0x2640 then test (.fl (i - 0x2500))
  else if 0x2700 ≤ i ∧ i < 0x2708 then test (.fb (i - 0x2700))
  else if k = Reg.vfCause ∨ k = Reg.vfCauseEnable then
    match c with
    | .vf v => some (.vf v, k == Reg.vfCauseEnable)
    | _ => none
  else (([.parser, .cls, .lkp, .mc, .pm, .qm, .ft, .obs, .test, .od, .host, .fw, .pwr, .int] : List CauseReg) ++
    (List.range 8).map CauseReg.ase ++ (List.range 4).map CauseReg.hbm).findSome? test

/-- A write of a cause register or a cause enable (R380, R381). -/
def wCause (c : Client) (k v : Nat) (s : State) : Applied :=
  match causeOfEntry c k with
  | some (r, true) => .done (writeCauseEnable s r (writable k v))
  | some (r, false) => .done (clearCause s r (writable k v))
  | none => .fail .refused

/-- CAUSE_ENABLE_WRITE (R380): of the cause enable at an entry. -/
def execCauseEnableWrite (client : Client) (entry value : Nat) (s : State) : Host.Outcome State Fault Refusal :=
  match causeOfEntry client entry with
  | some (r, true) => .next (writeRow s client entry value (fun s => .done (writeCauseEnable s r (writable entry value))))
  | _ => .next s

/-- CAUSE_CLEAR (R381): of the cause register at an entry. -/
def execCauseClear (client : Client) (entry value : Nat) (s : State) : Host.Outcome State Fault Refusal :=
  match causeOfEntry client entry with
  | some (r, false) => .next (writeRow s client entry value (fun s => .done (clearCause s r (writable entry value))))
  | _ => .next s

/-- Sources of the reserved groups G60 to G62 (R379). -/
def reservedSource (src : Nat) : Bool := decide (960 ≤ src) && decide (src ≤ 1007)

/-- Clear a sticky bit; a pulse in the same nanosecond is applied after the write (R380). -/
def clearSticky (s : State) (src : Nat) : State :=
  if mfind s.evt.pulsedAt src = some s.time then s
  else { s with evt.sticky := mset false s.evt.sticky src false }

/-- Whether a source is routed to any vector of a VF (R433). -/
def vfSees (s : State) (vf src : Nat) : Bool := bit (srcRoute s src) 22 && bits (srcRoute s src) 21 16 == vf

/-- The bits of a group a client sees. -/
def seenBits (s : State) (c : Client) (g v : Nat) : List Nat :=
  (bitList 16 v).filter (fun i => match c with
    | .vf f => vfSees s f (16 * g + i)
    | _ => true)

/-- Sixteen bits of a group as one word. -/
def groupWord (f : Nat → Bool) (g : Nat) : Nat :=
  (List.range 16).foldl (fun v i => v + b2n (f (16 * g + i)) * 2 ^ i) 0

/-- A write of `evt_sticky` (R380). -/
def wSticky (src v : Nat) (s : State) : Applied :=
  if reservedSource src then .fail .refused else .done (if v = 0 then s else clearSticky s src)

/-- A write of `evt_group_sticky` (R386, R433). -/
def wGroupSticky (c : Client) (g v : Nat) (s : State) : Applied :=
  if reservedSource (16 * g) then .fail .refused
  else .done ((seenBits s c g v).foldl (fun s i => clearSticky s (16 * g + i)) s)

/-- A write of masks: vectors whose aggregate rises send their message (R384). -/
def setMasks (s : State) (l : List (Nat × Nat)) : State :=
  let t := l.foldl (fun s x => setReg s (Reg.evtMask x.1) x.2) s
  riseMessages s t (l.flatMap (fun x => vectorsOf t x.1)).eraseDups

/-- A write of `evt_mask`. -/
def wMask (src v : Nat) (s : State) : Applied :=
  if reservedSource src then .fail .refused else .done (setMasks s [(src, v)])

/-- A write of `evt_group_mask` (R386). -/
def wGroupMask (g v : Nat) (s : State) : Applied :=
  if reservedSource (16 * g) then .fail .refused
  else .done (setMasks s ((List.range 16).map (fun i => (16 * g + i, b2n (bit v i)))))

/-- A write of a route word (R382, R384). -/
def wRoute (c : Client) (src v : Nat) (s : State) : Applied :=
  if bit v 11 != bit (srcRoute s src) 11 && decide (levelOf s c < 3) then .fail .level
  else if reservedSource src || (bit v 22 && bits v 21 16 == 0) then .fail .refused
  else
    let t := setReg s (Reg.evtRoute src) (writable (Reg.evtRoute src) v)
    .done (riseMessages s t (vectorsOf t src))

/-- A write of `evt_test_raise` (R388). -/
def wTestRaise (v : Nat) (s : State) : Applied :=
  if 1008 ≤ v ∧ v ≤ 1023 then .done (raise s .test (v - 1008)) else .fail .refused

/-- EVT_STICKY_CLEAR (R380). -/
def execEvtStickyClear (client : Client) (source value : Nat) (s : State) : Host.Outcome State Fault Refusal :=
  .next (writeRow s client (Reg.evtSticky source) value (wSticky source value))

/-- EVT_GROUP_STICKY_CLEAR (R386). -/
def execEvtGroupStickyClear (client : Client) (group value : Nat) (s : State) : Host.Outcome State Fault Refusal :=
  .next (writeRow s client (Reg.evtGroupSticky group) value (wGroupSticky client group value))

/-- EVT_MASK_WRITE (R384). -/
def execEvtMaskWrite (client : Client) (source value : Nat) (s : State) : Host.Outcome State Fault Refusal :=
  .next (writeRow s client (Reg.evtMask source) value (wMask source value))

/-- EVT_GROUP_MASK_WRITE (R386). -/
def execEvtGroupMaskWrite (client : Client) (group value : Nat) (s : State) : Host.Outcome State Fault Refusal :=
  .next (writeRow s client (Reg.evtGroupMask group) value (wGroupMask group value))

/-- EVT_ROUTE_WRITE (R382). -/
def execEvtRouteWrite (client : Client) (source value : Nat) (s : State) : Host.Outcome State Fault Refusal :=
  .next (writeRow s client (Reg.evtRoute source) value (wRoute client source value))

/-- EVT_TEST_RAISE (R388). -/
def execEvtTestRaise (client : Client) (value : Nat) (s : State) : Host.Outcome State Fault Refusal :=
  .next (writeRow s client Reg.evtTestRaise value (wTestRaise value))

/-- EVT_FW_QUEUE_HIGH_READ (R389). -/
def execEvtFwQueueHighRead (client : Client) (s : State) : Host.Outcome State Fault Refusal :=
  .next (readRow s client Reg.evtFwQueueHigh (reg s Reg.evtFwQueueHigh) (fun s => setReg s Reg.evtFwQueueHigh 0))

/-- An event for a session joins the records gathered for it (R421). -/
def gatherEvent (s : State) (e : FwEvent) (i : Nat) : State :=
  if bit (reg s (callerKey (callerOf (.session i)) Reg.synEventGroups)) (e.source / 16) then
    let l := mget [] s.evt.gather i
    { s with evt.gather := mset [] s.evt.gather i (l ++ [e]),
             evt.gatherAt := if l.isEmpty then mput s.evt.gatherAt i s.time else s.evt.gatherAt }
  else s

/-- FW_EVENT_TAKE (R385, R421): the running firmware takes the oldest entry. -/
def execFwEventTake (s : State) : Host.Outcome State Fault Refusal :=
  match s.evt.fwQueue with
  | [] => .next s
  | e :: r =>
    if s.fw.running then .next ((mkeys s.dict.sessions).foldl (fun s i => gatherEvent s e i) { s with evt.fwQueue := r })
    else .next s

/-! ### MSI-X (R383, R441) -/

/-- The vectors of a function. -/
def vectorCount (fn : Nat) : Nat := if fn = 0 then 256 else 16

/-- A vector that a mask held is free to go: one message where its aggregate is still 1 or a ring asked for it. -/
def releaseVector (s : State) (fn v : Nat) : State :=
  let m := msixOf s fn
  let p := mget false m.pba v
  let h := mget false m.held v
  if (p || h) && m.enable && !m.funcMask && !mget false m.vecMask v then
    let s := setMsix s fn { m with pba := mset false m.pba v false, held := mset false m.held v false }
    if h || aggregate s fn v then sendMsix s fn v else s
  else s

/-- MSIX_CONTROL_WRITE (R383): field 0 the enable, 1 the function mask, 2 the mask of a vector. -/
def execMsixControlWrite (fn field vector : Nat) (on : Bool) (s : State) : Host.Outcome State Fault Refusal :=
  if (fn ≠ 0 ∧ reg s Reg.hostNumVfs < fn) ∨ mget false s.host.inFlr fn ∨ vectorCount fn ≤ vector then .next s
  else
    let m := msixOf s fn
    let all := List.range (vectorCount fn)
    if field = 0 then
      let s := setMsix s fn { m with enable := on }
      .next (if on && !m.enable then all.foldl (fun s v => if aggregate s fn v then sendMsix s fn v else s) s else s)
    else if field = 1 then
      .next (all.foldl (fun s v => releaseVector s fn v) (setMsix s fn { m with funcMask := on }))
    else .next (releaseVector (setMsix s fn { m with vecMask := mset false m.vecMask vector on }) fn vector)

/-! ### Entries (R389) -/

/-- The source of an entry of the four per-source ranges. -/
def entrySource (k : Nat) : Nat := (idxOf k - 0x1400) % 4 * 256 + subOf k

/-- Whether any source of a group passes a test. -/
def groupAny (g : Nat) (f : Nat → Bool) : Bool := (List.range 16).any (fun i => f (16 * g + i))

/-- One bit for each group. -/
def groupMap (f : Nat → Bool) : Nat := (List.range 64).foldl (fun v g => v + b2n (groupAny g f) * 2 ^ g) 0

/-- The values of the event entries, as a client sees them. -/
def evtRead (s : State) (c : Client) (k : Nat) : Nat :=
  let i := idxOf k
  let n := subOf k
  let see := fun (src : Nat) => match c with
    | .vf f => vfSees s f src
    | _ => true
  if i < 0x1404 then b2n (srcStatus s (entrySource k))
  else if i < 0x1408 then b2n (srcSticky s (entrySource k))
  else if i = 0x1410 then groupMap (pending s)
  else if i = 0x1411 then groupWord (fun x => srcSticky s x && see x) n
  else if i = 0x1412 then groupWord (fun x => srcStatus s x && see x) n
  else if i = 0x1413 then groupWord (srcMask s) n
  else if i = 0x1420 then groupMap (fun x => pending s x && toPf s x n)
  else if i = 0x1431 then b2n (eventPin s)
  else if i = 0x1440 then s.evt.fwQueue.length
  else reg s k

/-- The writes of the event entries. -/
def evtWrite (c : Client) (k v : Nat) : State → Applied :=
  let i := idxOf k
  if i < 0x1408 then wSticky (entrySource k) v
  else if i < 0x140C then wMask (entrySource k) v
  else if i < 0x1410 then wRoute c (entrySource k) v
  else if i = 0x1411 then wGroupSticky c (subOf k) v
  else if i = 0x1413 then wGroupMask (subOf k) v
  else if i = 0x1450 then wTestRaise v
  else storeRule k v

end Sys2Proof.Machine
end

