-- ==== Sys2Proof/Machine/Host.lean ====
section
/-! DEFINITION. The host side: rings and doorbells, punt DMA, inject, tags, counter export, dirty-page logging, and the resets of
functions (ch. 17). -/

namespace Sys2Proof.Machine

/-! ### Functions, rings and causes -/

/-- Whether a function exists: the PF, or an enabled VF (R430). -/
def fnExists (s : State) (fn : Nat) : Bool := fn == 0 || decide (fn ≤ reg s Reg.hostNumVfs)

/-- Whether a function is in FLR. -/
def fnInFlr (s : State) (fn : Nat) : Bool := mget false s.host.inFlr fn

/-- A function's generation (R443). -/
def fnGen (s : State) (fn : Nat) : Nat := reg s (Reg.vfGeneration fn)

/-- A per-caller entry of a function. -/
def fnReg (s : State) (fn k : Nat) : Nat := reg s (callerKey fn k)
def setFnReg (s : State) (fn k v : Nat) : State := setReg s (callerKey fn k) v

/-- A cause of a function: its own for a VF, the host's for the PF (R447). -/
def fnCause (s : State) (fn pfBit vfBit : Nat) : State := if fn = 0 then raise s .host pfBit else raise s (.vf fn) vfBit

/-- The entries of a ring: inject rings (`inj`) and punt rings. -/
def ringBase (inj : Bool) (r : Nat) : Nat := if inj then Reg.ringInjBase r else Reg.ringPuntBase r
def ringSize (inj : Bool) (r : Nat) : Nat := if inj then Reg.ringInjSize r else Reg.ringPuntSize r
def ringWb (inj : Bool) (r : Nat) : Nat := if inj then Reg.ringInjWb r else Reg.ringPuntWb r
def ringCtrl (inj : Bool) (r : Nat) : Nat := if inj then Reg.ringInjCtrl r else Reg.ringPuntCtrl r
def ringConsumed (inj : Bool) (r : Nat) : Nat := if inj then Reg.ringInjConsumed r else Reg.ringPuntConsumed r

/-- The key of a ring's record. -/
def ringKey (fn : Nat) (inj : Bool) (r : Nat) : Nat := fn * 16 + b2n inj * 8 + r

def ringOf (s : State) (fn : Nat) (inj : Bool) (r : Nat) : Ring := mget {} s.host.rings (ringKey fn inj r)
def setRing (s : State) (fn : Nat) (inj : Bool) (r : Nat) (x : Ring) : State :=
  { s with host.rings := mset {} s.host.rings (ringKey fn inj r) x }

/-- Whether a ring is enabled (Table — Ring control word). -/
def ringOn (s : State) (fn : Nat) (inj : Bool) (r : Nat) : Bool := bit (fnReg s fn (ringCtrl inj r)) 31

/-- Descriptors posted and not reserved (R436, R439). -/
def ringHeld (s : State) (fn : Nat) (inj : Bool) (r : Nat) : Nat :=
  let x := ringOf s fn inj r
  (x.prod + 2 ^ 32 - x.resv) % 2 ^ 32

/-- Whether a ring is granted to a function (R435). -/
def ringGranted (s : State) (fn : Nat) (inj : Bool) (r : Nat) : Bool :=
  fn == 0 || bit (reg s (Reg.vfRingGrant fn)) (b2n inj * 8 + r)

/-! ### Writes to host memory -/

/-- The regions of a VF's dirty-page log (R446). -/
def dirtyRegions (s : State) (fn : Nat) : List (List Byte) := chunks 32 4 (blk s (Reg.vfDirtyRegions fn))

/-- The log writes of one write in one region: one byte for each page of the write that lies in the region (R446). -/
def dirtyBytes (r : List Byte) (a n : Nat) : List Nat :=
  if byteAt r 24 % 2 = 0 then []
  else
    let base := beAt r 0 8 / 4096
    let pages := rangeFrom (a / 4096) ((a + n - 1) / 4096 + 1 - a / 4096)
    (pages.filter (fun p => decide (base ≤ p) && decide (p < base + beAt r 8 4))).map (fun p => (beAt r 16 8 + p - base) % 2 ^ 64)

/-- A write with a function's requester ID, and for a VF its log writes (R446). -/
def hostWrite (s : State) (fn a : Nat) (b : List Byte) : State :=
  let s := emit s (.hostWrite fn a b)
  if fn = 0 ∨ b.isEmpty then s
  else (dirtyRegions s fn).foldl (fun s r => (dirtyBytes r a b.length).foldl (fun s l => emit s (.hostWrite fn l [1])) s) s

/-- The address of a descriptor slot. -/
def slotAddr (s : State) (fn : Nat) (inj : Bool) (r count : Nat) : Nat :=
  let n := fnReg s fn (ringSize inj r)
  fnReg s fn (ringBase inj r) + 32 * (if n = 0 then 0 else count % n)

/-- The descriptors of a frame are finished: the consumer count is written, and the frame counts for the interrupt (R436,
R441). -/
def ringFinish (s : State) (fn : Nat) (inj : Bool) (r count : Nat) : State :=
  let c := count % 2 ^ 32
  let s := setFnReg s fn (ringConsumed inj r) c
  let s := hostWrite s fn (fnReg s fn (ringWb inj r)) (leBytes 4 c)
  let x := ringOf s fn inj r
  setRing s fn inj r { x with frames := x.frames + 1, firstAt := some (x.firstAt.getD s.time) }

/-! ### Doorbells and ring settings (R435–R437) -/

/-- A doorbell: ignored for a disabled ring or in FLR, counted when it would overfill the ring (R436, R437). -/
def doorbell (s : State) (fn : Nat) (inj : Bool) (r v : Nat) : State :=
  if r < 8 && fnExists s fn && !fnInFlr s fn && ringOn s fn inj r then
    let held := (v % 2 ^ 32 + 2 ^ 32 - fnReg s fn (ringConsumed inj r)) % 2 ^ 32
    if fnReg s fn (ringSize inj r) < held then count1 s Reg.hostDoorbellErrors
    else setRing s fn inj r { ringOf s fn inj r with prod := v % 2 ^ 32 }
  else s

/-- PUNT_DOORBELL (R437). -/
def execPuntDoorbell (fn ring value : Nat) (s : State) : Host.Outcome State Fault Refusal :=
  .next (doorbell s fn false ring value)

/-- INJECT_DOORBELL (R437). -/
def execInjectDoorbell (fn ring value : Nat) (s : State) : Host.Outcome State Fault Refusal :=
  .next (doorbell s fn true ring value)

/-- A function client's number; none for a session or the firmware, which hold no per-function value. -/
def fnOf : Client → Option Nat
  | .pf => some 0
  | .vf v => some v
  | _ => none

/-- Sizes a ring may have (R435). -/
def ringSizes : List Nat := (List.range 11).map (fun i => 64 * 2 ^ i)

/-- A ring control word (Table — Ring control word, R435). -/
def wRingCtrl (fn : Nat) (inj : Bool) (r v : Nat) (s : State) : Applied :=
  let v := if inj then setBits v 3 0 0 else v
  let k := ringCtrl inj r
  if (fn ≠ 0 ∧ 15 < bits v 29 22) ∨ bits v 21 12 = 0 ∨ 6 < bits v 3 0 then .fail .refused
  else if bit v 31 && !ringOn s fn inj r then
    if fnReg s fn (ringBase inj r) % 4096 ≠ 0 ∨ ¬ ringSizes.contains (fnReg s fn (ringSize inj r)) ∨ !ringGranted s fn inj r then
      .fail .refused
    else .done (setFnReg (setRing (setFnReg s fn k v) fn inj r {}) fn (ringConsumed inj r) 0)
  else .done (setFnReg s fn k v)

/-- A write of a ring entry (R435). -/
def wRing (fn k v : Nat) (s : State) : Applied :=
  let r := subOf k
  let inj := decide (0x1638 ≤ idxOf k)
  match (idxOf k - 0x1630) % 8 with
  | 3 => wRingCtrl fn inj r v s
  | n => if ringOn s fn inj r || (n == 2 && v % 4 != 0) then .fail .refused else .done (setFnReg s fn k v)

/-- RING_CONFIG_WRITE (R435): a base, size, write-back address or control word. -/
def execRingConfigWrite (client : Client) (entry value : Nat) (s : State) : Host.Outcome State Fault Refusal :=
  match fnOf client with
  | some fn =>
    if 0x1630 ≤ idxOf entry ∧ idxOf entry ≤ 0x163B then .next (writeRow s client entry value (wRing fn entry value)) else .next s
  | none => .next (conclude s client entry (.fail .noEntry))

/-- A ring's message goes out, or is recorded while a mask holds it (R441). -/
def ringMessage (s : State) (fn v : Nat) : State :=
  if msixOpen s fn then
    let m := msixOf s fn
    if m.funcMask || mget false m.vecMask v then setMsix s fn { m with held := mset false m.held v true }
    else emit s (.msix fn v)
  else s

/-- RING_INTERRUPT (R441): when the ring has finished enough frames, or its holdoff has passed. -/
def execRingInterrupt (fn : Nat) (inj : Bool) (ring : Nat) (s : State) : Host.Outcome State Fault Refusal :=
  let c := fnReg s fn (ringCtrl inj ring)
  let x := ringOf s fn inj ring
  let late : Bool := match x.firstAt with
    | some t => bits c 11 4 != 0 && decide (t + 1000 * bits c 11 4 ≤ s.time)
    | none => false
  if fnExists s fn ∧ bit c 30 ∧ x.frames ≠ 0 ∧ (bits c 21 12 ≤ x.frames ∨ late = true) then
    .next (ringMessage (setRing s fn inj ring { x with frames := 0, firstAt := none }) fn (bits c 29 22))
  else .next s

/-! ### Punt (R438–R440) -/

/-- A write of `host_punt_bind` (R438). -/
def wPuntBind (v : Nat) (s : State) : Applied :=
  let q := reg s Reg.hostPuntBindSelect
  if qType s q ≠ 2 ∨ (bit v 31 ∧ !ringGranted s (bits v 29 24) false (bits v 2 0)) then .fail .refused
  else .done { s with host.bind := mset 0 s.host.bind q (writable Reg.hostPuntBind v) }

/-- HOST_PUNT_BIND_WRITE (R438): for the queue that `host_punt_bind_select` names. -/
def execHostPuntBindWrite (client : Client) (value : Nat) (s : State) : Host.Outcome State Fault Refusal :=
  .next (writeRow s client Reg.hostPuntBind value (wPuntBind value))

/-- A reference lost in host DMA for a full or absent ring (R439); an unbound queue's is the host's. -/
def ringFull (s : State) (o fn : Nat) : State :=
  fnCause (count1 (dropOut s o 39) Reg.hostRingFullDrops) fn 2 0

/-- `pc_kind` (Table — Punt completion). -/
def puntKind (o : Out) : Nat := match o.ref.kind, o.ref.origin with
  | .hostCopy, _ => 1
  | .ingressMirror _ _, _ => 2
  | .egressMirror _ _, _ => 2
  | _, .ensign => 3
  | _, .mgmt => 3
  | _, _ => 0

/-- Descriptors a frame of `n` bytes needs (R439). -/
def puntCount (c : PuntCtx) : Nat := c.addrs.length

/-- Bytes in buffer `i` of a frame of `n` bytes. -/
def puntLen (c : PuntCtx) (n i : Nat) : Nat := min c.size (n - c.size * i)

/-- Completion `i` (Table — Punt completion, R440). -/
def completion (s : State) (c : PuntCtx) (o : Out) (n i : Nat) : List Byte :=
  let d := o.ref.desc
  let src := if o.ref.origin = .fabric then o.ref.src else ownId s
  leBytes 32 (2 ^ 255 + b2n (i == 0) * 2 ^ 254 + b2n (i + 1 == puntCount c) * 2 ^ 253 + puntKind o * 2 ^ 251 + c.gen * 2 ^ 243 +
    puntLen c n i * 2 ^ 228 + n * 2 ^ 214 + dTrap d * 2 ^ 206 + dInPort d * 2 ^ 196 + dClass d * 2 ^ 193 + o.queue * 2 ^ 174 +
    src * 2 ^ 154 + dTimestamp d * 2 ^ 114 + b2n (dParserPunt d) * 2 ^ 113 + (c.addrs.drop i).headD 0)

/-- Whether a punt is the oldest of its ring: completions leave in slot order. -/
def puntFirst (s : State) (i : Nat) (c : PuntCtx) : Bool :=
  s.host.punts.all (fun x => !(x.2.fn == c.fn && x.2.ring == c.ring) || decide (i ≤ x.1))

def dropPunt (s : State) (i : Nat) : State := { s with host.punts := mdel s.host.punts i }

/-- The DMA completes: the reference counts in D_host and is released (R439). -/
def puntDone (s : State) (i : Nat) (o : Out) : State :=
  releaseRef { s with outs := mdel s.outs i, led.oOut := s.led.oOut - 1, led.dHost := s.led.dHost + 1 } o.ref.pkt

/-- One buffer is read and written; an uncorrectable word ends the DMA (R439, R492). -/
def puntData (s : State) (i : Nat) (c : PuntCtx) (p : Pkt) (n : Nat) : State :=
  let a := c.size * c.done
  let b := a + puntLen c n c.done
  let r := readPot s ((mfind s.outs i).map (·.ref.pkt) |>.getD 0) p a b
  if r.1 then dropPunt (dropOut r.2 i 24) i
  else
    let s := hostWrite r.2 c.fn ((c.addrs.drop c.done).headD 0) (slice (pktBytes s p) a (b - a))
    { s with host.punts := mput s.host.punts i { c with done := c.done + 1 } }

/-- One write of a punt (steps 4 to 6 of R439), under the generation check. -/
def puntWrite (s : State) (i : Nat) : State :=
  match mfind s.host.punts i with
  | none => s
  | some c =>
    if fnGen s c.fn ≠ c.gen then
      if (mfind s.outs i).isSome then dropPunt (count1 (dropOut s i 40) Reg.hostVfResetDrops) i else dropPunt s i
    else match mfind s.outs i with
      | none => dropPunt (ringFinish s c.fn false c.ring (c.slot + puntCount c)) i
      | some o => match pkt? s o.ref.pkt with
        | none => dropPunt s i
        | some p =>
          let n := p.len.getD 0
          if c.done < puntCount c then puntData s i c p n
          else if !puntFirst s i c then s
          else
            let k := c.done - puntCount c
            let s := hostWrite s c.fn (slotAddr s c.fn false c.ring (c.slot + k)) (completion s c o n k)
            let s := { s with host.punts := mput s.host.punts i { c with done := c.done + 1 } }
            if k + 1 = puntCount c then puntDone s i o else s

/-- Steps 1 to 3 of R439 for a dequeued punt reference; `addrs` is what the reserved descriptors hold. -/
def puntStart (s : State) (i : Nat) (o : Out) (p : Pkt) (addrs : List Nat) : State :=
  let w := mget 0 s.host.bind o.queue
  let fn := bits w 29 24
  let r := bits w 2 0
  if !bit w 31 then ringFull s i 0
  else if !fnExists s fn || !ringOn s fn false r then ringFull s i fn
  else
    let size := 256 * 2 ^ bits (fnReg s fn (ringCtrl false r)) 3 0
    let n := ceilDiv (p.len.getD 0) size
    if ringHeld s fn false r < n then ringFull s i fn
    else if addrs.length ≠ n then s
    else
      let x := ringOf s fn false r
      let c : PuntCtx := { fn := fn, ring := r, gen := fnGen s fn, slot := x.resv, size := size, root := nodeIdx o.root, addrs := addrs }
      { setRing s fn false r { x with resv := (x.resv + n) % 2 ^ 32 } with host.punts := mput s.host.punts i c }

/-- PUNT_DMA (R439): a dequeued punt reference reserves descriptors, which read as the buffer addresses `addrs`, then up to
`writes` writes are issued; a further command carries on. -/
def execPuntDma (out : Nat) (addrs : List Nat) (writes : Nat) (s : State) : Host.Outcome State Fault Refusal :=
  let s := match mfind s.host.punts out, mfind s.outs out with
    | none, some o => (match pkt? s o.ref.pkt with
      | some p => if nodeKind o.root = 4 ∧ p.ended then puntStart s out o p addrs else s
      | none => s)
    | _, _ => s
  .next ((List.range writes).foldl (fun s _ => puntWrite s out) s)

/-! ### Inject (R442) -/

/-- Fields of an inject descriptor. -/
def ijWb (d : Nat) : Bool := bit d 127
def ijClass (d : Nat) : Nat := bits d 126 124
def ijRewrite (d : Nat) : Nat := bits d 123 116
def ijTarget (d : Nat) : Nat := bits d 115 96
def ijPort (d : Nat) : Nat := bits d 95 86
def ijRoute (d : Nat) : Nat := bits d 81 80
def ijLast (d : Nat) : Bool := bit d 79
def ijFirst (d : Nat) : Bool := bit d 78
def ijLen (d : Nat) : Nat := bits d 77 64
def ijAddr (d : Nat) : Nat := bits d 63 0

/-- Whether a function's route is granted (R442, check 0x01). -/
def routeGranted (s : State) (fn d : Nat) : Bool :=
  let q := reg s (Reg.vfInjectQueues fn)
  let p := reg s (Reg.vfInjectPorts fn)
  fn == 0 || (match ijRoute d with
    | 0 => decide (bits q 18 0 ≤ ijTarget d) && decide (ijTarget d < bits q 18 0 + bits q 51 32)
    | 1 => decide (bits p 9 0 ≤ ijPort d) && decide (ijPort d < bits p 9 0 + bits p 26 16)
    | 2 => bit p 31
    | _ => true)

/-- Whether a frame's descriptors are injectMalformed (check 0x02). -/
def injectMalformed (s : State) (ds : List Nat) : Bool :=
  let d := ds.headD 0
  let total := ds.foldl (fun t x => t + ijLen x) 0
  ijRoute d == 3 || ds.any (fun x => ijLen x == 0) || decide (15996 < total) || !ijFirst d || !ds.any ijLast ||
    (ijRoute d == 0 && !(decide (ijTarget d < 524288) && (qType s (ijTarget d) == 1 || qType s (ijTarget d) == 2))) ||
    (ijRoute d == 2 && (ijTarget d == 0 || ijTarget d == 0xFFFFF || ijTarget d == ownId s))

/-- The descriptors of the next frame: up to its last, or sixteen; none while the ring's next ones do not end it. -/
def frameDescs (l : List Nat) : Option (List Nat) :=
  let n := ((l.take 16).findIdx ijLast) + 1
  if n ≤ min 16 l.length then some (l.take n) else if 16 ≤ l.length then some (l.take 16) else none

/-- Whether an inject frame is the oldest of its ring. -/
def injectFirst (s : State) (i : Nat) (j : Inject) : Bool :=
  s.host.injects.all (fun x => !(x.2.fn == j.fn && x.2.ring == j.ring) || decide (i ≤ x.1))

/-- A frame's descriptors are finished: its status where it has one, then the consumer count (R442). -/
def injectFinish (s : State) (i : Nat) (j : Inject) : State :=
  let s := { s with host.injects := mdel s.host.injects i }
  let at' := slotAddr s j.fn true j.ring (j.slot + j.count - 1) + 24
  let s := if j.fail.isSome || j.wb then hostWrite s j.fn at' (leBytes 8 (2 ^ 63 + j.fail.getD 0 * 2 ^ 55 + j.gen * 2 ^ 47)) else s
  ringFinish s j.fn true j.ring (j.slot + j.count)

/-- A frame fails its checks: counted, not read; its status waits for the frames ahead of it. -/
def injectRefused (s : State) (i : Nat) (j : Inject) : State :=
  let s := { s with host.injects := mput s.host.injects i j }
  let s := fnCause (count1 s Reg.hostInjectRefused) j.fn 4 1
  if injectFirst s i j then injectFinish s i j else s

/-- The read requests of a buffer: at most 4,096 bytes each, none across a 4,096-byte boundary. -/
def readChunks : Nat → Nat → Nat → Nat → List (Nat × Nat × Nat)
  | 0, _, _, _ => []
  | f + 1, a, off, n =>
    if n = 0 then []
    else
      let k := min n (4096 - a % 4096)
      (a, off, k) :: readChunks f (a + k) (off + k) (n - k)

/-- The read requests of a frame: address, offset in the frame, length. -/
def frameReads (ds : List Nat) : List (Nat × Nat × Nat) :=
  (ds.foldl (fun (x : Nat × List (Nat × Nat × Nat)) d => (x.1 + ijLen d, x.2 ++ readChunks 8 (ijAddr d) x.1 (ijLen d))) (0, [])).2

/-- Tags not outstanding (R430). -/
def freeTags (s : State) : List Nat := (List.range 768).filter (fun t => (mfind s.host.tags t).isNone)

/-- The reads of a frame go out on free tags. -/
def issueReads (s : State) (i : Nat) (j : Inject) (l : List (Nat × Nat × Nat)) : State :=
  ((freeTags s).zip l).foldl (fun s x =>
    let t : Tag := { inject := i, fn := j.fn, gen := j.gen, off := x.2.2.1, len := x.2.2.2 }
    emit { s with host.tags := mput s.host.tags x.1 t } (.hostRead j.fn x.1 x.2.1 x.2.2.2)) s

/-- The next frame of an inject ring, given its descriptors: checked, then read into cells of pool 28; it waits where there is
no cell or no tag (R442). -/
def injectFetch (s : State) (fn r : Nat) (l : List Nat) : State :=
  match frameDescs l with
  | none => s
  | some ds =>
    let x := ringOf s fn true r
    let n := ds.length
    let d := ds.headD 0
    let j : Inject := { fn := fn, ring := r, gen := fnGen s fn, slot := x.resv, count := n, desc := d, wb := ijWb d }
    let i := s.host.nextInject
    if ringHeld s fn true r < n then s
    else
      let taken := { setRing s fn true r { x with resv := (x.resv + n) % 2 ^ 32 } with host.nextInject := i + 1 }
      if !routeGranted s fn d then injectRefused taken i { j with fail := some 1 }
      else if injectMalformed s ds then injectRefused taken i { j with fail := some 2 }
      else
        let total := ds.foldl (fun t d => t + ijLen d) 0
        let reads := frameReads ds
        if (freeTags s).length < reads.length then s
        else match takeUnits (cellsFor total) taken 28 [] with
          | .got cs s =>
            let j := { j with cells := cs, data := List.replicate total 0, need := total }
            issueReads { s with host.injects := mput s.host.injects i j } i j reads
          | _ => s

/-- INJECT_FETCH (R442): the descriptors `descs`, 32 bytes each as they lie in host memory, stand at the ring's next slots. -/
def execInjectFetch (fn ring : Nat) (descs : List (List Byte)) (s : State) : Host.Outcome State Fault Refusal :=
  if ring < 8 && fnExists s fn && !fnInFlr s fn && ringOn s fn true ring && !s.pwr.flushing then
    .next (injectFetch s fn ring (descs.map leNat))
  else .next s

/-- A frame whose read failed: its cells go back (R442, outcome 0x03). -/
def injectFailed (s : State) (i : Nat) (j : Inject) : State :=
  if j.fail.isSome then s
  else
    let s := freeUnits s 0 j.cells
    let s := { s with host.injects := mput s.host.injects i { j with fail := some 3, cells := [], data := [], need := 0 } }
    fnCause (count1 s Reg.hostDmaErrors) j.fn 1 2

/-- The tag's frame, where the tag is outstanding, current and not stale (R443). -/
def tagFrame (s : State) (t : Tag) : Option Inject :=
  if t.stale || fnGen s t.fn != t.gen then none else mfind s.host.injects t.inject

/-- A completion that is not accepted (R443). -/
def staleCompletion (s : State) : State := raise (count1 s Reg.hostStaleCompletions) .host 3

/-- HOST_READ_COMPLETION (R443): the whole answer to a request, or an error or poisoned one (`ok` false). -/
def execHostReadCompletion (tag : Nat) (ok : Bool) (data : List Byte) (s : State) : Host.Outcome State Fault Refusal :=
  match mfind s.host.tags tag with
  | none => .next (staleCompletion s)
  | some t =>
    let s := { s with host.tags := mdel s.host.tags tag }
    if t.stale || fnGen s t.fn != t.gen then .next (staleCompletion s)
    else match tagFrame s t with
      | none => .next s
      | some j =>
        if j.fail.isSome then .next s
        else if !ok ∨ data.length ≠ t.len then .next (injectFailed s t.inject j)
        else
          let j := { j with data := splice j.data t.off data, need := j.need - t.len }
          .next { s with host.injects := mput s.host.injects t.inject j }

/-- HOST_COMPLETION_TIMEOUT (R442, R443). -/
def execHostCompletionTimeout (tag : Nat) (s : State) : Host.Outcome State Fault Refusal :=
  match mfind s.host.tags tag with
  | none => .next s
  | some t =>
    let s := { s with host.tags := mdel s.host.tags tag }
    match tagFrame s t with
    | some j => .next (injectFailed s t.inject j)
    | none => .next s

/-- The packet of a frame that has been read whole (R442). -/
def injectPacket (s : State) (j : Inject) : Pkt :=
  let d := j.desc
  let n := j.data.length
  let stamp := timeNs s % 2 ^ 32 * 2 ^ 12
  let desc := fun (kind : Nat) => setBits (setBits (setBits (setBits stamp 255 253 kind) 203 201 (ijClass d)) 198 185 n) 155 148 (ijRewrite d)
  let base : Pkt := { origin := .injectDirect j.fn (ijRoute d == 2), stage := .ready, win := j.data.take 128, len := some n, ended := true,
                      bad := some 0, cells := j.cells, maxFrame := n + 4, rxAt := s.time }
  match ijRoute d with
  | 0 => { base with desc := desc 4, namedQueue := bits (ijTarget d) 18 0 }
  | 1 => { base with origin := .injectPort j.fn (ijPort d), inPort := ijPort d, stage := .window, tsFrac := timeNs s * 65536 }
  | _ => { base with desc := setBits (setBits (desc 1) 233 214 (ijTarget d)) 213 204 (ijPort d) }

/-- A frame is whole: its descriptor is built, it counts in A_inject and goes its way; its descriptors are finished. -/
def injectBuild (s : State) (i : Nat) (j : Inject) : State :=
  let s := writeCells s j.cells j.data
  let k := s.nextPkt
  let s := { setPkt s k (injectPacket s j) with nextPkt := k + 1, led.aInject := s.led.aInject + 1, led.oGen := s.led.oGen + 1 }
  injectFinish s i { j with cells := [] }

/-- INJECT_BUILD (R442): the last byte of a frame is stored; or a frame that failed is finished. Frames of a ring finish in
order. -/
def execInjectBuild (inject : Nat) (s : State) : Host.Outcome State Fault Refusal :=
  match mfind s.host.injects inject with
  | none => .next s
  | some j =>
    if j.need ≠ 0 ∨ !injectFirst s inject j then .next s
    else if j.fail.isSome then .next (injectFinish s inject j)
    else if s.pwr.flushing then .next s
    else .next (injectBuild s inject j)

/-! ### Grants (R434, R446) -/

/-- Whether a grant record is refused. -/
def grantBad (r : List Byte) : Bool :=
  let a := beAt r 0 2
  let b := beAt r 2 2
  decide (b < a) || decide (byteAt r 5 < byteAt r 4) || (byteAt r 6 != 1 && byteAt r 6 != 2) ||
    (byteAt r 6 == 2 && decide (a ≤ 0x17FF) && decide (0x1000 ≤ b)) || (decide (a ≤ 0x60FF) && decide (0x6000 ≤ b))

/-- A commit of `vf_od_grant`. -/
def wOdGrant (v : Nat) (b : List Byte) (s : State) : Applied :=
  if 256 < b.length then .fail .tooLarge
  else if b.length % 8 ≠ 0 ∨ (chunks 8 32 b).any grantBad then .fail .refused
  else .done (setBlk s (Reg.vfOdGrant v) b)

/-- VF_OD_GRANT_WRITE (R434). -/
def execVfOdGrantWrite (client : Client) (vf : Nat) (value : List Byte) (s : State) : Host.Outcome State Fault Refusal :=
  .next (commitRow s client (Reg.vfOdGrant vf) (wOdGrant vf value))

/-- A commit of `vf_dirty_regions` (R446): the stated values of an enabled region. -/
def wDirtyRegions (v : Nat) (b : List Byte) (s : State) : Applied :=
  let bad := fun (r : List Byte) => byteAt r 24 % 2 == 1 &&
    (beAt r 0 8 % 4096 != 0 || beAt r 8 4 == 0 || decide (2 ^ 24 < beAt r 8 4))
  if b.length ≠ 128 ∨ (chunks 32 4 b).any bad then .fail .refused else .done (setBlk s (Reg.vfDirtyRegions v) b)

/-! ### Resets of functions (R443, R444, R477) -/

/-- The pattern and loopback entries of the lanes that are listed (R77, R78, R319). -/
def overrideKeys (s : State) : List Nat :=
  (mkeys s.od).filter (fun k =>
    (decide (key 0x2400 0 ≤ k) && decide (k < key 0x2500 0) && (subOf k == 6 || subOf k == 8)) ||
    (decide (key 0x2500 0 ≤ k) && decide (k < key 0x2640 0) && (subOf k == 0xE || subOf k == 0x10)))

/-- One of them returns to 0. -/
def overrideOff (k : Nat) (s : State) : Applied :=
  if 0x2500 ≤ idxOf k then wFlTest k 0 s
  else if subOf k = 6 then wLanePrbs (idxOf k - 0x2400) 0 s
  else wLaneLoopback (idxOf k - 0x2400) 0 s

/-- The diagnostic overrides return to their defaults, with no event (R482): pinned islands, line and fabric patterns and
loopbacks, and the fault armed. -/
def overridesOff (s : State) : State :=
  let s := { s with od := s.od.filter (fun e =>
      !(idxOf e.1 == 0x1320 || e.1 == Reg.intInject)) }
  let s := { s with clk.isls := s.clk.isls.map (fun x => (x.1, { x.2 with pinned := false })) }
  (overrideKeys s).foldl (fun s k => (overrideOff k s).getD s) s

/-- The entries a function holds a value of (Table — Host entries, R403). -/
def perFunction (k : Nat) : Bool :=
  (decide (0x1630 ≤ idxOf k) && decide (idxOf k ≤ 0x163C)) || (decide (0x1660 ≤ idxOf k) && decide (idxOf k ≤ 0x1663)) ||
    idxOf k == 0x1672 || idxOf k == 0x1673 || k % 2 ^ 24 == Reg.odAccessStatus

/-- The generation of a function rises; what the engines hold for it stops (steps 1 to 5 of Table — VF FLR timeline). -/
def fnStop (s : State) (fn : Nat) : State :=
  let s := setReg s (Reg.vfGeneration fn) ((fnGen s fn + 1) % 256)
  let s := (List.range 8).foldl (fun s r =>
    let s := setFnReg s fn (ringCtrl false r) (clearBit (fnReg s fn (ringCtrl false r)) 31)
    setFnReg s fn (ringCtrl true r) (clearBit (fnReg s fn (ringCtrl true r)) 31)) s
  let s : State := setFnReg s fn Reg.ctrExportEnable 0
  let tags := s.host.tags.map (fun (t : Nat × Tag) => (t.1, { t.2 with stale := t.2.stale || t.2.fn == fn }))
  let s : State := { s with host.tags := tags, host.exports := mdel s.host.exports fn }
  let s := (s.host.punts.filter (fun x => x.2.fn == fn)).foldl (fun s x => puntWrite s x.1) s
  (s.host.injects.filter (fun x => x.2.fn == fn)).foldl (fun s x =>
    { freeUnits s 0 x.2.cells with host.injects := mdel s.host.injects x.1 }) s

/-- A function's own state returns to its defaults (R444, Table — Survival matrix). -/
def fnDefaults (s : State) (fn : Nat) : State :=
  { s with
    od := s.od.filter (fun e => !(e.1 / 2 ^ 24 == fn && perFunction e.1))
    evt.msix := mdel s.evt.msix fn
    dict.mailboxes := mdel s.dict.mailboxes fn
    host.rings := s.host.rings.filter (fun x => x.1 / 16 != fn) }

/-- A VF's reset is complete (R444). -/
def vfResetDone (s : State) (v : Nat) : State :=
  let s := fnDefaults s v
  let s := { s with host.inFlr := mset false s.host.inFlr v false }
  raise (count32 s (Reg.vfFlrCount v)) .host 5

/-- A VF's reset begins. -/
def vfResetBegin (s : State) (v : Nat) : State := fnStop { s with host.inFlr := mset false s.host.inFlr v true } v

/-- VF_FLR (R444): the FLR of a VF is initiated, or (`complete`) is complete. -/
def execVfFlr (vf : Nat) (complete : Bool) (s : State) : Host.Outcome State Fault Refusal :=
  if vf = 0 ∨ reg s Reg.hostNumVfs < vf ∨ jobRunning s (Reg.vfReset vf) then .next s
  else if complete then
    .next (if fnInFlr s vf then overridesOff (vfResetDone (count32 s (Reg.pwrResetCount 6)) vf) else s)
  else .next (if fnInFlr s vf then s else vfResetBegin s vf)

/-- VF_RESET (R444): the job resets a VF as an FLR does; busy while one runs. -/
def execVfReset (vf : Nat) (turn : JobOp) (s : State) : Host.Outcome State Fault Refusal :=
  let k := Reg.vfReset vf
  match turn with
  | .start c => .next (concludeJob s c k (jobStartWith s c k (fun s => if fnInFlr s vf then .fail .busy else .done (vfResetBegin s vf))))
  | .step =>
    if jobRunning s k then .next (overridesOff (vfResetDone (count32 (jobEnd s k 0) (Reg.pwrResetCount 6)) vf)) else .next s

/-- Every VF is reset at once, and VF Enable is clear. -/
def resetVfs (s : State) : State :=
  let s := (rangeFrom 1 63).foldl (fun s v => vfResetDone (fnStop s v) v) s
  setReg s Reg.hostNumVfs 0

/-- VF_ENABLE_CLEAR (R443). -/
def execVfEnableClear (s : State) : Host.Outcome State Fault Refusal :=
  if reg s Reg.hostNumVfs = 0 then .next s
  else .next (overridesOff (countBy (resetVfs s) 32 (Reg.pwrResetCount 6) 63))

/-- VF_ENABLE_SET (R430, R431): the VFs come into being; configuration space answers from step 5 of start-up on. -/
def execVfEnableSet (count : Nat) (s : State) : Host.Outcome State Fault Refusal :=
  if 1 ≤ count ∧ count ≤ 63 ∧ reg s Reg.hostNumVfs = 0 ∧ 2 ≤ reg s Reg.pwrStartupPhase ∧ reg s Reg.pwrStartupPhase ≤ 4 then
    .next (setReg s Reg.hostNumVfs count)
  else .next s

/-- The PF and every VF are reset (R443, R477). -/
def resetFunctions (s : State) (kind : Nat) : State :=
  let s := fnDefaults (fnStop (resetVfs s) 0) 0
  overridesOff (count32 s (Reg.pwrResetCount kind))

/-- PF_FLR (R477). -/
def execPfFlr (s : State) : Host.Outcome State Fault Refusal := .next (resetFunctions s 7)

/-- The link state changes, and LINK is set (R447). -/
def setHostLink (s : State) (v : Nat) : State := if reg s Reg.hostLink = v then s else raise (setReg s Reg.hostLink v) .host 0

/-- PCIE_HOT_RESET (R477): a hot reset received on the link. -/
def execPcieHotReset (s : State) : Host.Outcome State Fault Refusal := .next (setHostLink (resetFunctions s 8) 0)

/-- PCIE_LINK_CHANGE (R430, R447, R517): the link is up at a rate and width, or down, which is a DL_Down (R477). -/
def execPcieLinkChange (up : Bool) (rate width : Nat) (s : State) : Host.Outcome State Fault Refusal :=
  if !up then .next (if reg s Reg.hostLink = 0 then s else setHostLink (resetFunctions s 8) 0)
  else if 1 ≤ rate ∧ rate ≤ 6 ∧ (width = 1 ∨ width = 2 ∨ width = 4 ∨ width = 8) ∧ ¬ (rate = 6 ∧ bit (reg s Reg.idStraps) 2) then
    .next (setHostLink s (rate * 256 + width * 16 + 2 + b2n (rate == 6)))
  else .next s

/-! ### Counter export (R445) -/

/-- The window of a function: base and count. -/
def exportWindow (s : State) (fn : Nat) : Nat × Nat :=
  if fn = 0 then (0, 1048576) else
    let w := reg s (Reg.vfCtrWindow fn)
    (bits w 19 0, bits w 52 32)

/-- An export begins at a multiple of its period; one that still runs stands in its place. -/
def exportBegin (s : State) (fn : Nat) : State :=
  let w := exportWindow s fn
  let e : Export := { gen := fnGen s fn, base := w.1, count := w.2, pos := 0, addr := fnReg s fn Reg.ctrExportAddr, at0 := timeNs s }
  { s with host.exports := mput s.host.exports fn e }

/-- One pair is written, or the trailer after the last. -/
def exportStep (s : State) (fn : Nat) : State :=
  match mfind s.host.exports fn with
  | none => s
  | some e =>
    if fnGen s fn ≠ e.gen then { s with host.exports := mdel s.host.exports fn }
    else if e.pos < e.count then
      let p := pairOf s (e.base + e.pos)
      let s := hostWrite s fn (e.addr + 16 * e.pos) (beBytes 8 p.1 ++ beBytes 8 p.2)
      { s with host.exports := mput s.host.exports fn { e with pos := e.pos + 1 } }
    else
      let n := (fnReg s fn Reg.ctrExportSeq + 1) % 2 ^ 64
      let s := setFnReg s fn Reg.ctrExportSeq n
      let s := hostWrite s fn (e.addr + 16 * e.count) (beBytes 8 n ++ beBytes 8 e.at0)
      let s := { s with host.exports := mdel s.host.exports fn }
      if fn = 0 then s else raise s (.vf fn) 3

/-- COUNTER_EXPORT (R445): a function's export begins where its period has come round, and up to `writes` writes are issued. -/
def execCounterExport (fn writes : Nat) (s : State) : Host.Outcome State Fault Refusal :=
  let s := if (mfind s.host.exports fn).isNone ∧ fnExists s fn ∧ !fnInFlr s fn ∧ fnReg s fn Reg.ctrExportEnable = 1 ∧
      timeNs s % (1000 * fnReg s fn Reg.ctrExportPeriodUs) = 0 then exportBegin s fn else s
  .next ((List.range writes).foldl (fun s _ => exportStep s fn) s)

/-! ### Entries (R447) -/

/-- A window whose count or end is out of range. -/
def wWindow (k v n limit : Nat) (s : State) : Applied :=
  let c := match idxOf k with
    | 0x1613 => (bits v 52 32, bits v 52 32 + bits v 19 0)
    | 0x1614 => (bits v 51 32, 0)
    | _ => (bits v 26 16, 0)
  if n < c.1 ∨ limit < c.2 then .fail .refused else storeRule k v s

/-- Writes of the host entries; `fn` is the function of the client, where it is one. -/
def hostEntryWrite (c : Client) (k v : Nat) (s : State) : Applied :=
  match idxOf k with
  | 0x1613 => wWindow k v 1048576 1048576 s
  | 0x1614 => wWindow k v 524288 0 s
  | 0x1615 => wWindow k v 1024 0 s
  | 0x1621 => wPuntBind v s
  | i =>
    if perFunction k then
      match fnOf c with
      | none => .fail .noEntry
      | some fn =>
        if i ≤ 0x163C then wRing fn k v s
        else if i = 0x1660 ∧ v % 16 ≠ 0 then .fail .refused
        else .done (setFnReg s fn k (writable k v))
    else storeRule k v s

/-- Values of the host entries. -/
def hostEntryRead (s : State) (c : Client) (k : Nat) : Nat :=
  match idxOf k, fnOf c with
  | 0x1621, _ => mget 0 s.host.bind (reg s Reg.hostPuntBindSelect)
  | 0x1650, some v => groupMap (fun x => pending s x && toVf s x v (subOf k))
  | _, some fn => if perFunction k then fnReg s fn k else reg s k
  | _, none => reg s k

/-- DOMAIN values and commits of the host entries. -/
def hostDomain (s : State) (k : Nat) : List Byte := if idxOf k = 0x1618 then padTo (blk s k) 128 else blk s k
def hostCommit (k : Nat) (b : List Byte) : State → Applied :=
  if idxOf k = 0x1612 then wOdGrant (subOf k) b else wDirtyRegions (subOf k) b

end Sys2Proof.Machine
end

