-- ==== Sys2Proof/Machine/Islands.lean ====
section
/-! DEFINITION. The clock islands: governors, stopping and waking, modes and floors, and the crossing into TIME (ch. 2). -/

namespace Sys2Proof.Machine

/-- The scalable islands (R29). -/
def scalable : List Nat := rangeFrom 32 32 ++ rangeFrom 66 40

/-- The record of an island. -/
def isl (s : State) (n : Nat) : Isl := mget {} s.clk.isls n

/-- Replace it. -/
def setIsl (s : State) (n : Nat) (i : Isl) : State := { s with clk.isls := mset {} s.clk.isls n i }

/-- Whole cycles at a condition reach the counters of mode 0b00 (R363, event 0x010). -/
def perfCycles (s : State) (code inst n : Nat) : State :=
  (perfSelected s).foldl (fun s c =>
    if perfMatches c.2 code inst && bits c.2 29 28 == 0 && !chained s c.1 then perfAdd s c.1 n else s) s

/-- A stopped island's clock starts at a step; the nanoseconds stopped are counted. -/
def islStart (s : State) (n step : Nat) : State :=
  let i := isl s n
  perfHeld (setIsl s n { i with stopped := false, step := step, idle := 0 }) 0x11 n (s.time - i.stoppedAt)

/-- An island's clock stops. -/
def islStop (s : State) (n : Nat) : State :=
  if (isl s n).stopped then s else setIsl s n { isl s n with stopped := true, stoppedAt := s.time }

/-- The governor's target step (R31). -/
def targetStep (k floor busy total : Nat) : Nat :=
  let u := min (65536 * busy / total) 65535
  min (max (ceilDiv (k * u * 4) (3 * 65536)) floor) 16

/-- A governor in proportional mode after its floor check (R31, R33). -/
def governed (s : State) (n busy total : Nat) : State :=
  let i := isl s n
  let t := targetStep i.step i.floor busy total
  let k := if i.step < t then t else if t < i.step then i.step - 1 else i.step
  let idle := if busy = 0 then i.idle + 1 else 0
  let s := setIsl s n { i with step := k, idle := idle }
  if flag s (Reg.islandStopEnable n) && k == i.floor && decide (8 ≤ idle) then islStop s n else s

/-- One governor interval of a scalable island: written modes and floors take effect (R50), then it acts (R31, R34, R51). -/
def governorInterval (s : State) (n busy total : Nat) : State :=
  let s := perfCycles s 0x10 n busy
  let ppm := if total = 0 then 0 else 1000000 * busy / total
  let i := { isl s n with pinned := flag s (Reg.islandMode n), floor := reg s (Reg.islandFloorStep n), ppm := ppm }
  let s := setIsl s n i
  if i.pinned then
    let s := if i.stopped then islStart s n 16 else s
    setIsl s n { isl s n with step := 16, idle := 0 }
  else if i.stopped then s
  else
    let s := if i.step < i.floor then setIsl (pulse s 9) n { i with step := i.floor } else s
    if total = 0 then s else governed s n busy total

/-- GOVERNOR_INTERVAL (R31): at a whole microsecond of TIME; nothing while Retention holds the island stopped. -/
def execGovernorInterval (island busy total : Nat) (s : State) : Host.Outcome State Fault Refusal :=
  if scalable.contains island ∧ reg s Reg.pwrState = 0 ∧ timeNs s % 1000 = 0 ∧ busy ≤ total ∧ s.pwr.islReset ≠ some island then
    .next (governorInterval s island busy total)
  else .next s

/-- A crossing wakes a stopped island at its floor (R33). -/
def islWake (s : State) (n : Nat) : State :=
  if (isl s n).stopped then count1 (islStart s n (isl s n).floor) (Reg.islandWakeCount n) else s

/-- CROSSING (R25, R31, R33, R51): an item enters an island with `occupied` of its 16 input slots taken; `late`: its generator
resumed later than 2.25 periods after the crossing began. -/
def execCrossing (island occupied : Nat) (late : Bool) (s : State) : Host.Outcome State Fault Refusal :=
  if island ≤ 119 ∧ occupied ≤ 16 ∧ ¬ (reg s Reg.pwrState = 2 ∧ island < 118) ∧ s.pwr.islReset ≠ some island then
    let s := if scalable.contains island then
        let s := islWake s island
        if 8 ≤ occupied then setIsl s island { isl s island with step := 16 } else s
      else s
    .next (if late then pulse (setReg s Reg.clockFaultIsland island) 8 else s)
  else .next s

/-- ISLAND_MODE_WRITE (R50): of `island_mode`, or of `island_floor_step`; in use from the next governor interval. -/
def execIslandModeWrite (client : Client) (island : Nat) (floor : Bool) (value : Nat) (s : State) :
    Host.Outcome State Fault Refusal :=
  let k := if floor then Reg.islandFloorStep island else Reg.islandMode island
  .next (writeRow s client k value (storeRule k value))

/-- The rule of `pin_all_scalable` (R50). -/
def wPinAll (v : Nat) (s : State) : Applied :=
  .done (scalable.foldl (fun s n => setReg s (Reg.islandMode n) v) s)

/-- PIN_ALL_SCALABLE_WRITE (R50). -/
def execPinAllScalableWrite (client : Client) (value : Nat) (s : State) : Host.Outcome State Fault Refusal :=
  .next (writeRow s client Reg.pinAllScalable value (wPinAll value))

/-- TIME_CONFIG_WRITE (R28): the value takes effect 3 ns after MGMT presents it. -/
def execTimeConfigWrite (value : Nat) (s : State) : Host.Outcome State Fault Refusal :=
  .next { s with clk.timeDue := s.clk.timeDue ++ [(s.time + 3, value % 2 ^ 64)] }

/-- Both open bins of an end are incomplete (R310). -/
def binsStepped (e : PmEnd) : PmEnd :=
  { e with quarter := { e.quarter with flags := setBit e.quarter.flags 0 }, day := { e.day with flags := setBit e.day.flags 0 } }

/-- TIME takes a value: the open performance bins and the ledger's epoch are incomplete (R310, R361). -/
def timeStepped (s : State) (v : Nat) : State :=
  { s with
    timeOffset := (v + 2 ^ 64 - s.time % 2 ^ 64) % 2 ^ 64
    clk.timeSet := true
    led.incomplete := true
    fl.lanes := s.fl.lanes.map (fun x => (x.1, { x.2 with near := binsStepped x.2.near, far := binsStepped x.2.far }))
    fl.bundles := s.fl.bundles.map (fun x => (x.1, { x.2 with near := binsStepped x.2.near, far := binsStepped x.2.far })) }

/-- The values whose instant has come take effect (R28). -/
def timeArrivals (s : State) : State :=
  s.clk.timeDue.foldl (fun s d => if d.1 ≤ s.time then
    timeStepped { s with clk.timeDue := s.clk.timeDue.drop 1 } d.2 else s) s

/-- The nominal frequency of an island in kHz (Table — Island inventory, R14). -/
def nominalKhz (s : State) (n : Nat) : Nat :=
  if n ≤ 31 then 1562500 else if n ≤ 47 then 2000000 else if n ≤ 55 then 1600000 else if n ≤ 65 then 2000000
  else if n ≤ 89 then 1600000 else if n ≤ 105 then 1500000 else if n ≤ 113 then 1562500
  else if n ≤ 117 then (match reg s Reg.hbmRate with
    | 0 => 500000
    | 1 => 800000
    | _ => 1000000)
  else 1000000

/-- Values of the island entries (R50). -/
def islRead (s : State) (k : Nat) : Nat :=
  let n := subOf k
  let sc := scalable.contains n
  let i := isl s n
  let off := decide (reg s Reg.pwrState = 2) && decide (n < 118)
  match idxOf k with
  | 0x1320 => if sc then reg s k else 2
  | 0x1321 => if off || (sc && i.stopped) then 0 else if sc then nominalKhz s n * i.step / 16 else nominalKhz s n
  | 0x1324 => if sc then (if i.stopped then 0 else i.step) else 16
  | 0x1325 => i.ppm
  | _ => reg s k

/-- Writes of the island entries. -/
def islWrite (k v : Nat) : State → Applied :=
  if k = Reg.pinAllScalable then wPinAll v else storeRule k v

end Sys2Proof.Machine
end

