-- ==== Sys2Proof/Machine/Power.lean ====
section
/-! DEFINITION. Power, resets and start-up (ch. 19): what each reset keeps (R481), the start-up timeline, AVSBus, Retention, the
data-path and island resets, temperatures, and the loss of a clock or of power. -/

namespace Sys2Proof.Machine

/-! ### What a reset keeps (R481) -/

/-- Whether an entry is kept in fuses or flash. -/
def isFuse (k : Nat) : Bool := match odFind k with
  | some r => r.per = .f
  | none => false

/-- Whether an entry is kept in the settings store. -/
def isPersistent (k : Nat) : Bool := match odFind k with
  | some r => r.per = .p
  | none => false

/-- An image region being written by an install that ends here is incomplete (R454). -/
def regionBroken (s : State) : State :=
  if reg s Reg.fwRegionState = 2 then setReg s Reg.fwRegionState 1 else s

/-- What a power-on or pin reset leaves: fuses, flash, and counted writes now incomplete (R400, R454, R481); the commands waiting
and the record of outputs are the model's own. -/
def fullReset (s : State) : State :=
  let s := regionBroken s
  { State.reset with
    od := s.od.filter (fun e => decide (e.1 < 2 ^ 24) && isFuse e.1)
    blocks := s.blocks.filter (fun e => decide (e.1 < 2 ^ 24) && isFuse e.1)
    pending := s.pending
    freeCtr := s.freeCtr
    sent := s.sent
    dict := { fuseCounts := s.dict.fuseCounts, torn := s.dict.torn ++ s.dict.burns, deviceKey := s.dict.deviceKey,
              cwLog := s.dict.cwLog, store := s.dict.store, storeBlocks := s.dict.storeBlocks, storeEmpty := s.dict.storeEmpty }
    fw := { image := s.fw.image, pinLow := s.fw.pinLow } }

/-- Start-up begins: the kind of reset, and the straps sampled (R477, R483, R517). -/
def startUp (s : State) (kind straps : Nat) : State :=
  let s := fullReset s
  let s := setReg (setReg s Reg.pwrLastReset kind) (Reg.pwrResetCount kind) 1
  let s := setReg s Reg.idStraps (straps % 256)
  { s with fw.bootCause := kind }

/-- POWER_ON_RESET (R468, R477): RESET_L rises after power-up; `railsOk` says that the rails followed R468. -/
def execPowerOnReset (railsOk : Bool) (straps : Nat) (s : State) : Host.Outcome State Fault Refusal :=
  if railsOk then .next (startUp s 1 straps) else .fault .outsideRatings

/-- PIN_RESET (R477): RESET_L has been low for 10 µs with every rail up, and rises. -/
def execPinReset (straps : Nat) (s : State) : Host.Outcome State Fault Refusal :=
  if s.pwr.off ∨ s.pwr.jtag.isSome then .next s else .next (startUp s 2 straps)

/-- POWER_LOSS (R470): a rail falls below its step's 90% point, and the device is Off. -/
def execPowerLoss (s : State) : Host.Outcome State Fault Refusal :=
  let t := fullReset s
  .next { t with pwr := { inReset := true, off := true } }

/-! ### AVSBus (R469) -/

/-- The target of a rail in mV: 0 is VDD_F, 1 VDD_T. -/
def avsTarget (s : State) (rail : Nat) : Nat :=
  if rail = 0 ∧ (6 ≤ s.pwr.entering ∨ reg s Reg.pwrState = 2) then ceilDiv (reg s Reg.pwrRetentionMv) 5 * 5
  else
    let f := reg s (Reg.pwrVddFuseMv rail) + (if toSigned 32 (reg s Reg.tempMax) < 400 then 10 else 0)
    min (max (ceilDiv f 5 * 5) 600) 850

/-- Both targets are worked out anew. -/
def setTargets (s : State) : State :=
  { s with pwr.target := [(0, avsTarget s 0), (1, avsTarget s 1)] }

/-- Whether a rail stands at its target, or takes no more commands. -/
def railSettled (s : State) (rail : Nat) : Bool :=
  mget false s.pwr.avsDead rail || mget 750 s.pwr.target rail == reg s (Reg.pwrVddMv rail)

/-- The voltage of the next command: at most 25 mV towards the target. -/
def avsNext (now target : Nat) : Nat := if now < target then min target (now + 25) else max target (now - 25)

/-- One command to a regulator, and whether it acknowledges. -/
def avsCommand (s : State) (rail : Nat) (ack : Bool) : State :=
  let v := avsNext (reg s (Reg.pwrVddMv rail)) (mget 750 s.pwr.target rail)
  let s := emit { s with pwr.avsAt := mput s.pwr.avsAt rail s.time } (.avs rail v)
  if ack then setReg { s with pwr.nacks := mset 0 s.pwr.nacks rail 0 } (Reg.pwrVddMv rail) v
  else
    let n := mget 0 s.pwr.nacks rail + 1
    let s := { s with pwr.nacks := mset 0 s.pwr.nacks rail n }
    if n < 3 then s else raise { s with pwr.avsDead := mset false s.pwr.avsDead rail true } .pwr 3

/-- AVS_EVALUATE (R469): every 100 ms the targets are worked out anew; a rail away from its target is sent a command, at least
50 µs after the one before. -/
def execAvsEvaluate (rail : Nat) (ack : Bool) (s : State) : Host.Outcome State Fault Refusal :=
  if 2 ≤ rail ∨ !s.pwr.sensed ∨ s.pwr.inReset then .next s
  else
    let s := if timeNs s % 100000000 = 0 then setTargets s else s
    let early : Bool := match mfind s.pwr.avsAt rail with
      | some t => decide (s.time < t + 50000)
      | none => false
    .next (if railSettled s rail || early then s else avsCommand s rail ack)

/-! ### Start-up (R483) -/

/-- A record of `cw_log` (Table — Counted-write log record): 0 written, 1 torn. -/
def cwRecord (b : Burn) (result : Nat) : List Byte :=
  beBytes 2 (idxOf b.entry) ++ [byte (subOf b.entry), byte b.count, byte result, byte b.client, 0, 0] ++ beBytes 4 b.sec ++
    beBytes 4 (crc32c (if result = 0 then b.value else []))

/-- FUSE_SENSE_COMPLETE (R400, R483): torn counted writes are found and logged, and AVSBus has its targets. -/
def execFuseSenseComplete (s : State) : Host.Outcome State Fault Refusal :=
  if s.pwr.sensed ∨ s.pwr.inReset then .next s
  else
    let s := startupMark { s with pwr.sensed := true } 2
    let s := s.dict.torn.foldl (fun s b => raise { s with dict.cwLog := s.dict.cwLog ++ [cwRecord b 1] } .od 3)
      { s with dict.torn := [] }
    .next (setTargets s)

/-- LOADER_SECTOR_CHECK (R450, R483, R494): the boot ROM's comparison, and the repair of the die-to-die modules. -/
def execLoaderSectorCheck (sectorOk : Bool) (repaired : Nat) (d2dOk : Bool) (s : State) : Host.Outcome State Fault Refusal :=
  if !s.pwr.sensed ∨ s.pwr.inReset ∨ s.fw.loader ∨ s.fw.halted then .next s
  else if !sectorOk then .next { s with fw.halted := true }
  else
    let s := setReg s Reg.intD2dLanesRepaired (repaired % 65536)
    let s := setReg { s with fw.loader := true } Reg.pwrStartupPhase 1
    if d2dOk then .next (startupMark { s with fw.bootDue := true } 3) else .next (raise s .int 4)

/-- The GPIO pins as the entries drive them: direction above the levels (R524). -/
def gpioDrive (s : State) : State :=
  let d := reg s Reg.ioGpioDir
  let v := d * 2 ^ 32 + Nat.land d (reg s Reg.ioGpioOut)
  if s.io.gpio = v then s else emit { s with io.gpio := v } (.gpio v)

/-- The port instances that the store has entries of. -/
def storedPorts (s : State) : List Nat :=
  let ks := (mkeys s.dict.store ++ mkeys s.dict.storeBlocks).filter (fun k => decide (0x2000 ≤ idxOf k) && decide (idxOf k < 0x2400))
  (List.range 1024).filter (fun p => ks.any (fun k => idxOf k == 0x2000 + p))

/-- Every P entry takes its stored value, or its default (R396, R483). -/
def loadStore (s : State) : State :=
  let s := { s with od := s.od.filter (fun e => !(decide (e.1 < 2 ^ 24) && isPersistent e.1)),
                    blocks := s.blocks.filter (fun e => !(decide (e.1 < 2 ^ 24) && isPersistent e.1)) }
  let s := s.dict.store.foldl (fun s e => setReg s e.1 e.2) s
  s.dict.storeBlocks.foldl (fun s e => setBlk s e.1 e.2) s

/-- What loaded values set at once: island floors, a pinned Crock rate, Skimmer lists, port modes and roles, GPIO pins. -/
def applyStore (s : State) : State :=
  let s := scalable.foldl (fun s n => setIsl s n { isl s n with floor := reg s (Reg.islandFloorStep n) }) s
  let s := if reg s Reg.hbmRatePin = 0xFF then s else setReg s Reg.hbmRate (reg s Reg.hbmRatePin)
  let s := ([28, 29, 30, 31].filter (fun n => (mfind s.dict.store (Reg.poolDesc n)).isSome)).foldl skimRebuild s
  let s := (storedPorts s).foldl (fun s p => if p % 32 < 8 then applyMode s p else setRole s p) s
  gpioDrive s

/-- Automatic bring-up: lanes frame, stacks with a delay set initialise, ports are enabled. -/
def bringUp (s : State) : State :=
  let s := ((List.range 320).filter (fun l => flag s (Reg.flEnable l))).foldl (fun s l => setFlane s l { flane s l with on := true }) s
  let s := ((List.range 4).filter (fun k => !(delaySet s k).isEmpty)).foldl (fun s k => jobBegin s (Reg.hbmInit k)) s
  stacksInitialised ((storedPorts s).foldl touchLink s)

/-- SETTINGS_RELOAD (R483): step 5, once the firmware has started. Without `pwr_auto_bringup` ports and lanes stay down until
software starts them (notes/assumptions/37). -/
def execSettingsReload (s : State) : Host.Outcome State Fault Refusal :=
  if s.fw.started ∧ !s.fw.running ∧ !s.pwr.inReset ∧ (reg s Reg.pwrStartupPhase = 1 ∨ reg s Reg.pwrStartupPhase = 5) then
    let s := startupMark (setReg (loadStore s) Reg.pwrStartupPhase 2) 5
    if flag s Reg.pwrAutoBringup then .next (bringUp (applyStore s))
    else
      let s := ((storedPorts s).filter (fun p => flag s (Reg.portAdminUp p))).foldl
        (fun s p => setPort s p { port s p with parked := true }) s
      .next (applyStore s)
  else .next s

/-! ### The flush: steps 1 to 3 of Table — Retention entry (R472, R478) -/

/-- Whether a packet is still in reception at a line port. -/
def inReception (s : State) (i : Nat) : Bool :=
  s.ports.any (fun x => match x.2.rx with
    | some r => r.admitted && r.reason == 0 && r.pkt == i
    | none => false)

/-- The frame a MAC is sending ends; one whose bytes have not all come ends as an abort. -/
def flushTx (s : State) (p : Nat) : State :=
  match (port s p).tx with
  | none => s
  | some t => match mfind s.outs t.out with
    | none => s
    | some o => match pkt? s o.ref.pkt with
      | none => s
      | some k => if k.ended then txEnds s p t o k else txAborted s p t.out o k (txBody s o k) 45

/-- A VOQ's binding ends with a flush. -/
def unbindVoq (s : State) (q : Nat) : State :=
  let k := nodeKey 3 q
  let n := node s k
  { setNode s k { n with qword := setBits n.qword 46 13 0 } with qm.voqs := mdel s.qm.voqs q }

/-- Every reference still held is discarded; VOQs are unbound, queues NORMAL, credit and grants gone. -/
def flushPackets (s : State) : State :=
  let s := (mkeys s.ports).foldl flushTx s
  let s := (mkeys s.outs).foldl (fun s o => dropOut s o 45) s
  let s := (mkeys s.qm.queues).foldl (fun s q => flushQueue s q 45) s
  let s := (mkeys s.ft.asm).foldl (fun s k => dropAssembly s k 45) s
  let s := (s.pkts.filter (fun x => x.2.stage != .stored && !inReception s x.1)).foldl (fun s x => macDiscard s x.1 45 x.2.data) s
  let s := (boundVoqs s).foldl unbindVoq s
  { s with
    qm.due := []
    ft.grants := []
    ft.gather := []
    ft.sentOff := []
    ft.busy := []
    ft.inbox := []
    fl.bundles := s.fl.bundles.map (fun x => (x.1, { x.2 with own := [], credit := [] })) }

/-! ### The data-path reset (R478) -/

/-- Both free stores from the quarantine map. -/
def rebuildStores (s : State) : State :=
  let pkts := s.pkts.filter (fun x => inReception s x.1)
  let cells := pkts.flatMap (fun x => x.2.cells) ++ s.host.injects.flatMap (fun x => x.2.cells)
  let s : State := { s with
    pkts := pkts
    mem.usedCells := cells.foldl (fun m c => mset 0 m c 1) []
    mem.usedPages := []
    mem.badPtr := []
    mem.rebuilding := [] }
  let s := (List.range 32).foldl (fun s n => setReg s (Reg.poolLeaked n) 0) s
  [28, 29, 30, 31].foldl skimRebuild s

/-- Faulted queues and nodes are served again (R493). -/
def clearFaults (s : State) : State :=
  let s : State := { s with
    qm.queues := s.qm.queues.map (fun (x : Nat × Queue) => (x.1, { x.2 with faulted := false }))
    qm.nodes := s.qm.nodes.map (fun (x : Nat × Node) => (x.1, { x.2 with faulted := false }))
    integ.bad := s.integ.bad.filter (fun x => x.1 / 2 ^ 48 != 3) }
  setReg s Reg.intQueueFaulted 0

/-- Sequences start at 0, every record is UNKNOWN, and every bundle starts its container stream anew. -/
def fabricSessionsOver (s : State) : State :=
  let s := ((mkeys s.ft.dest).filter (fun d => destState s d != 0)).foldl (fun s d => enterDest s d 0) s
  { s with
    ft.pairSeq := []
    ft.groupSeq := []
    ft.ctxs := []
    ft.recs := []
    fl.bundles := s.fl.bundles.map (fun x => (x.1, { x.2 with fresh := true })) }

/-- A data-path reset begins (step 1). -/
def dpBegin (s : State) : State :=
  { s with pwr.dpReset := true, pwr.since := s.time, pwr.flushing := true }

/-- It completes (steps 2 to 7). -/
def dpEnd (s : State) : State :=
  let s := fabricSessionsOver (clearFaults (rebuildStores (flushPackets s)))
  let s := { s with pwr.dpReset := false, pwr.flushing := s.pwr.entering != 0 || reg s Reg.pwrState == 2 }
  let s := if jobRunning s Reg.pwrDatapathReset then jobEnd s Reg.pwrDatapathReset 0 else s
  overridesOff (raise (count32 s (Reg.pwrResetCount 4)) .pwr 4)

/-- Whether a reset or a Retention transition is under way, or Retention holds. -/
def resetBusy (s : State) : Bool :=
  reg s Reg.pwrState != 0 || s.pwr.dpReset || s.pwr.islReset.isSome || s.pwr.entering != 0 || s.pwr.leaving != 0

/-- DATAPATH_RESET (R478): a start, or (20 µs later) its end. -/
def execDatapathReset (turn : JobOp) (s : State) : Host.Outcome State Fault Refusal :=
  let k := Reg.pwrDatapathReset
  match turn with
  | .start c => .next (concludeJob s c k (jobStartWith s c k (fun s => if resetBusy s then .fail .busy else .done (dpBegin s))))
  | .step => if s.pwr.dpReset ∧ s.pwr.since + 20000 ≤ s.time then .next (dpEnd s) else .next s

/-! ### The island reset (R479) -/

/-- A start: only a scalable island. -/
def startIslReset (s : State) : Applied :=
  let n := reg s Reg.pwrIslandResetArg
  if resetBusy s then .fail .busy
  else if !scalable.contains n then .fail .refused
  else .done { s with pwr.islReset := some n, pwr.since := s.time }

/-- The end: the island runs at step 16, its governor anew. -/
def islResetEnd (s : State) : State :=
  match s.pwr.islReset with
  | none => s
  | some n =>
    let s := setIsl { s with pwr.islReset := none } n
      { pinned := flag s (Reg.islandMode n), floor := reg s (Reg.islandFloorStep n) }
    let s := if jobRunning s Reg.pwrIslandReset then jobEnd s Reg.pwrIslandReset 0 else s
    raise (count32 s (Reg.pwrResetCount 5)) .pwr 4

/-- ISLAND_RESET (R479): a start, or its end once every item inside is done. -/
def execIslandReset (turn : JobOp) (s : State) : Host.Outcome State Fault Refusal :=
  let k := Reg.pwrIslandReset
  match turn with
  | .start c => .next (concludeJob s c k (jobStartWith s c k startIslReset))
  | .step => .next (islResetEnd s)

/-! ### Retention (R470–R473) -/

/-- Whether an entry lies in the islands that Retention stops (R471). -/
def retentionRange (k : Nat) : Bool := decide (0x2000 ≤ idxOf k) && decide (idxOf k ≤ 0x5FFF)

/-- Jobs and transfers into that range end as a management restart ends them (R471). -/
def endRangeWork (s : State) : State :=
  { s with
    dict.jobs := s.dict.jobs.map (fun (x : Nat × Job) => (x.1, if retentionRange x.1 then { run := x.2.run } else x.2))
    dict.transfers := s.dict.transfers.filter (fun x => !retentionRange x.2.entry) }

/-- Entry is accepted (step 1). -/
def entryBegin (s : State) : State :=
  setReg { s with pwr.entering := 1, pwr.leaving := 0, pwr.since := s.time, pwr.flushing := true } Reg.pwrState 1

/-- Every fabric receiver is off: no lane is framed, no bundle has a set, and no device is reached over it (R335). -/
def fabricDark (s : State) : State :=
  let s := (s.fl.lanes.filter (fun x => x.2.locked)).foldl (fun s x => loseFrame s x.1) s
  let s := { s with fl.lanes := s.fl.lanes.map (fun (x : Nat × FLane) =>
      (x.1, { x.2 with on := false, cwLock := false, cwRun := 0, cands := [] })) }
  let s := (List.range 8).foldl (fun s b =>
    let x := bundle s b
    let s := setReg (setReg s (Reg.fbRxLaneSet b) 0) (Reg.fbTxLaneSet b) 0
    let s := setReg (setReg s (Reg.fbPtrState b) 2) (Reg.fbPtrValue b) 0
    let s := setBundle s b { near := x.near, far := x.far }
    setReg (bundleDown s b) (Reg.fbPathDefects b) 0) s
  s

/-- Step 4: line and fabric transmitters are off. -/
def goDark (s : State) : State :=
  let s := { s with pwr.dark := true }
  let s := ((mkeys s.ports).filter (fun p => linkUp s p || (port s p).condSince.isSome)).foldl (fun s p => linkFails s p true) s
  flushPackets (fabricDark s)

/-- Step 5: stacks enter self-refresh. -/
def stacksRest (s : State) : State :=
  let s := { s with hbm.pcs := s.hbm.pcs.map (fun (x : Nat × HbmPc) => (x.1, { x.2 with reqs := [], current := none })) }
  (List.range 4).foldl (fun s k =>
    let x := stackState s k
    if x = 1 ∨ x = 4 then setStack (selfRefresh s k) k 5
    else if x = 2 then selfRefresh (drained s k) k
    else if x = 3 then selfRefresh s k else s) s

/-- Step 6: the islands stop, and VDD_F has its Retention target. -/
def islandsRest (s : State) : State :=
  setTargets (endRangeWork (scalable.foldl islStop { s with pwr.entering := 6 }))

/-- Step 7: Retention. -/
def entryEnd (s : State) : State :=
  let s := setReg { s with pwr.entering := 0 } Reg.pwrState 2
  let s := if jobRunning s Reg.pwrRetentionEnter then jobEnd s Reg.pwrRetentionEnter 0 else s
  raise s .pwr 0

/-- The next step of an entry, when its instant has come (Table — Retention entry). A rate change in progress completes before
step 5 (R476). -/
def entryStep (s : State) : State :=
  let due := fun (ns : Nat) => decide (s.pwr.since + ns ≤ s.time)
  let goTo := fun (s : State) (n : Nat) => { s with pwr.entering := n }
  match s.pwr.entering with
  | 1 => if due 20000 then goTo (flushPackets s) 3 else s
  | 3 => if due 60000 then goTo (goDark s) 4 else s
  | 4 => if due 100000 && s.hbm.change.isNone then goTo (stacksRest s) 5 else s
  | 5 => if due 200000 then islandsRest s else s
  | 6 => if railSettled s 0 then entryEnd s else s
  | _ => s

/-- R472's refusal. -/
def entryBusy (s : State) : Bool :=
  s.pwr.dpReset || s.pwr.islReset.isSome || s.pwr.entering != 0 || s.pwr.leaving != 0 || s.hbm.change.isSome ||
    jobRunning s Reg.hbmCapture || (List.range 4).any (fun k => jobRunning s (Reg.hbmInit k))

/-- A start of `pwr_retention_enter`; in Retention it has nothing to do (notes/assumptions/40). -/
def startEntry (s : State) : Applied :=
  if entryBusy s then .fail .busy
  else if reg s Reg.pwrState = 2 then .done (jobEnd (jobBegin s Reg.pwrRetentionEnter) Reg.pwrRetentionEnter 0)
  else .done (entryBegin (jobBegin s Reg.pwrRetentionEnter))

/-- RETENTION_ENTER (R472): a start, or the next step of an entry in progress. -/
def execRetentionEnter (turn : JobOp) (s : State) : Host.Outcome State Fault Refusal :=
  let k := Reg.pwrRetentionEnter
  match turn with
  | .start c => .next (concludeJob s c k (jobStart s c k startEntry))
  | .step => .next (entryStep s)

/-- Whether `temp_max` holds Retention (R476). -/
def thermalHold (s : State) : Bool :=
  decide ((16 * reg s Reg.pwrTempWarnC : Int) ≤ toSigned 32 (reg s Reg.tempMax))

/-- A start of `pwr_retention_exit` (R473); outside Retention it has nothing to do (notes/assumptions/40). -/
def startExit (s : State) : Applied :=
  let k := Reg.pwrRetentionExit
  if thermalHold s then .fail .refused
  else if s.pwr.entering ≠ 0 ∨ s.pwr.leaving ≠ 0 then .fail .busy
  else if reg s Reg.pwrState = 0 then .done (jobEnd (jobBegin s k) k 0)
  else
    let s := setReg { jobBegin s k with pwr.leaving := 1, pwr.since := s.time } Reg.pwrState 3
    .done (setTargets s)

/-- Steps 2 to 6 of an exit. -/
def exitEnd (s : State) : State :=
  let s := scalable.foldl (fun s n => if (isl s n).stopped then islStart s n 16 else s) s
  let s := (List.range 4).foldl (fun s k =>
    if stackState s k = 5 then startRefresh (setStack s k 1) k
    else if stackState s k = 3 then startRefresh s k else s) s
  let s := overridesOff { s with hbm.lastUse := s.time }
  let s := { s with pwr.dark := false, pwr.flushing := false, pwr.leaving := 0 }
  let s := ((List.range 320).filter (fun l => flag s (Reg.flEnable l))).foldl (fun s l => setFlane s l { flane s l with on := true }) s
  let s := (mkeys s.ports).foldl touchLink s
  let s := setReg s Reg.pwrState 0
  let s := if jobRunning s Reg.pwrRetentionExit then jobEnd s Reg.pwrRetentionExit 0 else s
  raise s .pwr 0

/-- RETENTION_EXIT (R473): a start, or, once VDD_F stands at its target, the rest. -/
def execRetentionExit (turn : JobOp) (s : State) : Host.Outcome State Fault Refusal :=
  let k := Reg.pwrRetentionExit
  match turn with
  | .start c => .next (concludeJob s c k (jobStart s c k startExit))
  | .step => .next (if s.pwr.leaving ≠ 0 ∧ railSettled s 0 then exitEnd s else s)

/-! ### Power and temperature (R474–R476) -/

/-- POWER_ESTIMATE_UPDATE (R474): the estimate is an open value (notes/assumptions/7). -/
def execPowerEstimateUpdate (s : State) : Host.Outcome State Fault Refusal :=
  if timeNs s % 10000000 = 0 ∧ !s.pwr.inReset then
    let r := freeBits s 16
    .next (setReg r.2 Reg.pwrEstimateW r.1)
  else .next s

/-- The thermal action: entry begins whatever runs; captures and initialisations end in FAULT (R476). An exit in progress ends
with its result 0x01. -/
def thermalEntry (s : State) : State :=
  let s := ((List.range 4).filter (fun k => jobRunning s (Reg.hbmInit k))).foldl (fun s k => hbmInitEnd s k false) s
  let s := if jobRunning s Reg.hbmCapture then setStack (captureEnd s false) (capStack s) 6 else s
  let s := if jobRunning s Reg.pwrRetentionExit then jobEnd s Reg.pwrRetentionExit 1 else s
  entryBegin s

/-- The highest reading and its sensor, the lowest-numbered of equals. -/
def hottest (l : List Nat) : Nat × Nat :=
  (l.zipIdx).foldl (fun m x => if toSigned 32 m.1 < toSigned 32 x.1 then x else m) (l.headD 0, 0)

/-- What `temp_max` sets off (R475, R476). -/
def tempActs (s : State) : State :=
  let m := toSigned 32 (reg s Reg.tempMax)
  let warn : Int := 16 * reg s Reg.pwrTempWarnC
  let s := if warn ≤ m ∧ !s.pwr.warned then raise { s with pwr.warned := true } .pwr 1
    else if m ≤ warn - 48 then { s with pwr.warned := false } else s
  let crit := decide ((16 * reg s Reg.pwrTempCritC : Int) ≤ m)
  let was := s.pwr.crit
  let s := { s with pwr.crit := crit }
  if crit && !was then
    let s := raise s .pwr 2
    if reg s Reg.pwrCritAction = 1 ∧ s.pwr.entering = 0 ∧ reg s Reg.pwrState ≠ 2 then thermalEntry s else s
  else s

/-- TEMP_READ (R475): the 64 sensors and the two diodes, as 32-bit patterns of 1/16 °C. -/
def execTempRead (sensors diodes : List Nat) (s : State) : Host.Outcome State Fault Refusal :=
  if timeNs s % 100000 = 0 ∧ !s.pwr.inReset ∧ sensors.length = 64 ∧ diodes.length = 2 then
    let s := (sensors.zipIdx).foldl (fun s x => setReg s (Reg.tempSensor x.2) (x.1 % 2 ^ 32)) s
    let s := (diodes.zipIdx).foldl (fun s x => setReg s (Reg.tempDiode x.2) (x.1 % 2 ^ 32)) s
    let h := hottest sensors
    .next (tempActs (setReg (setReg s Reg.tempMax (h.1 % 2 ^ 32)) Reg.tempMaxSensor h.2))
  else .next s

/-! ### Clocks (R485, R514) -/

/-- A line lane loses its signal. -/
def lineSignalLost (s : State) (l : Nat) : State :=
  let was := flag s (Reg.laneSignal l)
  let s := setReg s (Reg.laneSignal l) 0
  let s := if was then raise s (.lane l) 0 else s
  match laneOwner s l with
  | some p => touchLinks s p
  | none => s

/-- A fabric lane loses its signal. -/
def fabricSignalLost (s : State) (l : Nat) : State :=
  if (flane s l).signal then sectionDefect (setFlane s l { flane s l with signal := false, signalAt := s.time }) l 0 true else s

/-- TIME is no longer locked (R296): a pulse of PTP_1PPS_OUT ends (R522). -/
def timeUnlocked (s : State) : State :=
  let s : State := { s with fl.timeLocked := false }
  if s.io.ppsFall.isSome then emit { s with io.ppsFall := none } (.pps false) else s

/-- REFCLK_LOSS (R485): clock 0 SYSREF, 1 to 8 LREF0 to LREF7, 9 to 12 FREF0 to FREF3, 13 the PCIe reference clock. -/
def execRefclkLoss (clock : Nat) (s : State) : Host.Outcome State Fault Refusal :=
  if 13 < clock ∨ s.pwr.inReset then .next s
  else
    let s := if clock = 0 then timeUnlocked s
      else if clock ≤ 8 then (rangeFrom (32 * (clock - 1)) 32).foldl lineSignalLost s
      else if clock ≤ 12 then (rangeFrom (80 * (clock - 9)) 80).foldl fabricSignalLost s
      else s
    .next (raise s .pwr 5)

/-! ### Entries (R485) -/

/-- Writes of the power entries: the two thresholds stand in order. -/
def pwrWrite (k v : Nat) (s : State) : Applied :=
  if k = Reg.pwrTempCritC ∧ v ≤ reg s Reg.pwrTempWarnC then .fail .refused
  else if k = Reg.pwrTempWarnC ∧ reg s Reg.pwrTempCritC ≤ v then .fail .refused
  else if k = Reg.pwrIslandResetArg ∧ !scalable.contains v then .fail .refused
  else storeRule k v s

/-- DOMAIN values. -/
def pwrDomain (s : State) (_ : Nat) : List Byte := ([2, 3, 4, 5, 6, 7].map (fun n => beBytes 4 (mget 0 s.pwr.startMs n))).flatten

/-- Starts of the chapter's jobs. -/
def pwrStart (k : Nat) (s : State) : Applied :=
  if k = Reg.pwrRetentionEnter then startEntry s
  else if k = Reg.pwrRetentionExit then startExit s
  else if k = Reg.pwrDatapathReset then (if resetBusy s then .fail .busy else .done (dpBegin (jobBegin s k)))
  else (startIslReset s).bind (fun s => .done (jobBegin s k))

end Sys2Proof.Machine
end

