-- ==== Sys2Proof/Machine/Counted.lean ====
section
/-! DEFINITION. Counted writes (R399–R401): a write takes its count, burns, and is logged; and what a new device ID (R332), device
key (R417) and rollback floor (R463) do. -/

namespace Sys2Proof.Machine

/-- The writer's code in the log. -/
def logClient : Client → Nat
  | .pf => 1
  | .vf _ => 2
  | .session _ => 3
  | .firmware => 4

/-- The writes an entry permits. -/
def cwPlaces (k : Nat) : Nat := match odFind k with
  | some r => (match r.acc with
    | .cw n => n
    | _ => 0)
  | none => 0

/-- A write takes one count and begins to burn (R399). -/
def cwBegin (c : Client) (k : Nat) (b : List Byte) (s : State) : Applied :=
  let n := mget 0 s.dict.fuseCounts k
  if cwPlaces k ≤ n then .fail .exhausted
  else if s.dict.burns.any (fun x => x.entry == k) then .fail .busy
  else
    let sec := if s.clk.timeSet then timeNs s / 1000000000 % 2 ^ 32 else 0
    let x : Burn := { entry := k, value := b, client := logClient c, count := n + 1, sec := sec, at0 := s.time }
    .done { s with dict.fuseCounts := mset 0 s.dict.fuseCounts k (n + 1), dict.burns := s.dict.burns ++ [x] }

/-- A write of `ft_device_id` (R331, R332). -/
def wDeviceId (c : Client) (v : Nat) (s : State) : Applied :=
  let v := writable Reg.ftDeviceId v
  if v = reg s Reg.ftDeviceId then .done s
  else if v = 0 ∨ v = 0xFFFFF then .fail .refused
  else cwBegin c Reg.ftDeviceId (beBytes 4 v) s

/-- A write of `fw_rollback_floor` (R463). -/
def wRollbackFloor (c : Client) (v : Nat) (s : State) : Applied :=
  let floor := reg s Reg.fwRollbackFloor
  if v = floor then .done s
  else if v < floor ∨ byteAt (blk s Reg.fwRunningHeader) 9 < v then .fail .refused
  else cwBegin c Reg.fwRollbackFloor [byte v] s

/-- A write of `syn_device_key` (R417): every session closes once its response is sent. -/
def wDeviceKey (c : Client) (b : List Byte) (s : State) : Applied :=
  if b.length ≠ 32 then .fail .refused
  else if b = s.dict.deviceKey then .done s
  else (cwBegin c Reg.synDeviceKey b s).bind (fun s => .done { s with dict.closeDue := true })

/-- The rule of a fixed-size counted entry. -/
def cwWrite (c : Client) (k v : Nat) : State → Applied :=
  if k = Reg.ftDeviceId then wDeviceId c v
  else if k = Reg.fwRollbackFloor then wRollbackFloor c v
  else fun _ => .fail .type

/-- COUNTED_WRITE (R399): of a fixed-size entry. -/
def execCountedWrite (client : Client) (entry value : Nat) (s : State) : Host.Outcome State Fault Refusal :=
  if cwPlaces entry = 0 then .next s else .next (writeRow s client entry value (cwWrite client entry value))

/-- FT_DEVICE_ID_WRITE (R332). -/
def execFtDeviceIdWrite (client : Client) (value : Nat) (s : State) : Host.Outcome State Fault Refusal :=
  .next (writeRow s client Reg.ftDeviceId value (wDeviceId client value))

/-- FW_ROLLBACK_FLOOR_WRITE (R463). -/
def execFwRollbackFloorWrite (client : Client) (value : Nat) (s : State) : Host.Outcome State Fault Refusal :=
  .next (writeRow s client Reg.fwRollbackFloor value (wRollbackFloor client value))

/-- What the burnt value sets off. -/
def cwEffect (s : State) (b : Burn) : State :=
  if b.entry = Reg.ftDeviceId then dpEnd (dpBegin (setReg s Reg.ftDeviceId (beNat b.value)))
  else if b.entry = Reg.fwRollbackFloor then raise (setReg s Reg.fwRollbackFloor (beNat b.value)) .fw 6
  else if b.entry = Reg.synDeviceKey then setReg { s with dict.deviceKey := b.value } Reg.synKeySet 1
  else s

/-- COUNTED_WRITE_COMPLETE (R399, R401, R428): the value is burnt and takes effect, the record is written, and CW_WRITE is set. -/
def execCountedWriteComplete (entry : Nat) (s : State) : Host.Outcome State Fault Refusal :=
  match s.dict.burns.find? (fun b => b.entry == entry) with
  | none => .next s
  | some b =>
    let s := { s with dict.burns := s.dict.burns.filter (fun x => x.entry != entry),
                      dict.cwLog := s.dict.cwLog ++ [cwRecord b 0] }
    .next (raise (cwEffect s b) .od 3)

/-- Every session closes, with what is held for it (R419). -/
def closeSessions (s : State) : State :=
  { s with
    dict.sessions := []
    dict.closeDue := false
    od := s.od.filter (fun e => decide (e.1 / 2 ^ 24 < 65))
    evt.gather := []
    evt.gatherAt := []
    evt.evSeq := [] }

/-- What follows a response: sessions close under a new device key (R417). -/
def keyResponse (s : State) : State := if s.dict.closeDue then closeSessions s else s

/-- SYN_DEVICE_KEY_WRITE (R417): a completed transfer. -/
def execSynDeviceKeyWrite (client : Client) (value : List Byte) (s : State) : Host.Outcome State Fault Refusal :=
  .next (keyResponse (commitRow s client Reg.synDeviceKey (wDeviceKey client value)))

end Sys2Proof.Machine
end

