-- ==== Sys2Proof/Machine/Firmware.lean ====
section
/-! DEFINITION. Firmware images (ch. 18): staging, installing, the boot check, recovery, relay distribution, and management
restarts. -/

namespace Sys2Proof.Machine

/-! ### The image (R451) -/

/-- Fields of an image header. -/
def imgLen (h : List Byte) : Nat := beAt h 20 4
def imgRollback (h : List Byte) : Nat := byteAt h 9
def imgVersion (h : List Byte) : Nat := beAt h 12 4
def imgSchema (h : List Byte) : Nat := beAt h 16 2

/-- The unit ID (R414). -/
def unitId (s : State) : List Byte := beBytes 8 (reg s Reg.idUnitIdHi) ++ beBytes 8 (reg s Reg.idUnitIdLo)

/-- Whether the unit matches the image's list. -/
def unitListed (s : State) (h : List Byte) : Bool :=
  byteAt h 10 == 0 || (List.range (min (byteAt h 10) 16)).any (fun k => slice h (64 + 16 * k) 16 == unitId s)

/-- Whether an image's signature verifies. -/
def signatureOk (img : List Byte) : Bool :=
  let n := 320 + imgLen img
  Config.signatureHolds Config.loaderKey (img.take n) (slice img n 64)

/-- A staged or fetched image whose parts fit together and whose signature verifies. -/
def imageSound (img : List Byte) : Bool := img.length == imgLen img + 384 && signatureOk img

/-- Checks 5 to 8 of Table — Boot checks: the first that fails. -/
def headerFit (s : State) (h : List Byte) : Nat :=
  if beAt h 6 2 ≠ reg s Reg.idHwType then 4
  else if reg s Reg.idSiliconRev < byteAt h 8 then 5
  else if !unitListed s h then 6
  else if imgRollback h < reg s Reg.fwRollbackFloor then 7
  else 0

/-- Check 2: magic and format version. -/
def magicOk (h : List Byte) : Bool := beAt h 0 4 == 0x4B465731 && beAt h 4 2 == 1

/-- The boot check of the image region (R456): 0, or the code of the first check that fails. -/
def bootCheck (s : State) (readOk : Bool) (img : List Byte) : Nat :=
  if !readOk then 8
  else if !magicOk img then 1
  else if reg s Reg.fwRegionState ≠ 0 ∨ imgLen img = 0 ∨ 15728256 < imgLen img then 2
  else if !signatureOk img then 3
  else headerFit s img

/-! ### Management restarts (R464) -/

/-- The load jobs and their `LoadJob`s, in a fixed order. -/
def loadJobs : List LoadJob := [lkpJob, aseJob, mtrJob, qmJob]

/-- The load jobs a restart ends (R154). -/
def runningApplies (s : State) : List Nat :=
  (List.range 4).filter (fun i => ((loadJobs.drop i).head?.map (fun j => jobRunning s j.job)).getD false)

/-- APPLY_DONE of the load jobs a restart ended, once the firmware is back (R154). -/
def appliesBack (s : State) : State :=
  s.fw.appliesEnded.foldl (fun s i => match (loadJobs.drop i).head? with
    | some j => raise s j.cause j.causeBit
    | none => s) { s with fw.appliesEnded := [] }

/-- A management restart begins: firmware jobs, transfers, sessions and staging end; everything else carries on (R481). -/
def mgmtRestart (s : State) (cause : Nat) : State :=
  let s := closeSessions (regionBroken s)
  let s := setReg (setBlk s Reg.fwStaged []) Reg.fwStagedValid 0
  let s : State := { s with
    dict.jobs := s.dict.jobs.map (fun (x : Nat × Job) => (x.1, { run := x.2.run }))
    dict.transfers := []
    dict.relays := []
    dict.mailboxes := s.dict.mailboxes.map (fun (x : Nat × Mailbox) => (x.1, if x.2.state = 1 then { x.2 with state := 0 } else x.2))
    fl.bundles := s.fl.bundles.map (fun (x : Nat × FBundle) =>
      (x.1, { x.2 with txChange := x.2.txChange.map (fun c => { c with job := false }) }))
    io.i2cRun := []
    io.mdioRun := []
    fw := { loader := s.fw.loader, image := s.fw.image, bootDue := true, bootCause := cause, restarted := true,
            pinLow := s.fw.pinLow, pinAt := s.fw.pinAt
            appliesEnded := s.fw.appliesEnded.filter (fun i => !(runningApplies s).contains i) ++ runningApplies s } }
  let s := count32 (count32 (setReg s Reg.fwState 0) Reg.fwRestartCount) (Reg.pwrResetCount 3)
  overridesOff s

/-- What follows a response: the restart that `fw_restart` asked for, and the sessions a new key closes. -/
def afterResponse (s : State) : State :=
  let s := keyResponse s
  if s.fw.restartDue then mgmtRestart s 4 else s

/-- A write of `fw_restart`. -/
def wFwRestart (v : Nat) (s : State) : Applied := .done (if v = 1 then { s with fw.restartDue := true } else s)

/-- FW_RESTART (R464). -/
def execFwRestart (client : Client) (value : Nat) (s : State) : Host.Outcome State Fault Refusal :=
  .next (afterResponse (writeRow s client Reg.fwRestart value (wFwRestart value)))

/-- MGMT_RESTART_L_FALL (R464): after 1 µs high, a restart begins; the cores stay in reset while the pin is low. -/
def execMgmtRestartLFall (s : State) : Host.Outcome State Fault Refusal :=
  if s.fw.pinLow then .next s
  else
    let t : State := { s with fw.pinLow := true }
    if s.fw.loader ∧ !s.pwr.inReset ∧ s.fw.pinAt + 1000 ≤ s.time then .next (mgmtRestart t 3) else .next t

/-- MGMT_RESTART_L_RISE (R464). -/
def execMgmtRestartLRise (s : State) : Host.Outcome State Fault Refusal :=
  .next (if s.fw.pinLow then { s with fw.pinLow := false, fw.pinAt := s.time } else s)

/-- FW_WATCHDOG_EXPIRY (R464): firmware that runs, or cores that halted (R496), have not refreshed the watchdog. -/
def execFwWatchdogExpiry (s : State) : Host.Outcome State Fault Refusal :=
  if s.fw.loader ∧ (s.fw.started ∨ s.fw.halted) ∧ !s.fw.pinLow ∧ !s.pwr.inReset then .next (mgmtRestart (raise s .fw 5) 5) else .next s

/-! ### Booting (R455–R457, R462) -/

/-- Recovery after a failed check (R457): after power-on or pin reset the bundles come up with default lane settings. -/
def enterRecovery (s : State) : State :=
  let s := raise (setReg s Reg.fwState 1) .fw 0
  let s : State := { setReg (setBlk s Reg.fwRunningHeader []) Reg.idFwVersion 0 with fw.seekAt := s.time, fw.seekNext := 0 }
  if s.fw.bootCause ≤ 2 then
    (List.range 320).foldl (fun s l => setFlane s l { flane s l with on := true }) (setReg s Reg.pwrStartupPhase 5)
  else s

/-- LOADER_BOOT (R456): `image` is what the region holds where no install of this device wrote it. -/
def execLoaderBoot (readOk : Bool) (image : List Byte) (s : State) : Host.Outcome State Fault Refusal :=
  if !s.fw.bootDue ∨ s.fw.pinLow ∨ !s.fw.loader ∨ s.pwr.inReset then .next s
  else
    let img := s.fw.image.getD image
    let code := bootCheck s readOk img
    let s := setReg { s with fw.bootDue := false } Reg.fwLastBoot (s.fw.bootCause * 2 ^ 24 + code * 2 ^ 16)
    if code = 0 then
      let s := setReg (setBlk s Reg.fwRunningHeader (img.take 320)) Reg.idFwVersion (imgVersion img)
      let s := { s with fw.loaded := true }
      .next (if s.fw.bootCause ≤ 2 then startupMark s 4 else s)
    else .next (enterRecovery s)

/-- The settings store is emptied (R398). -/
def eraseStore (s : State) : State :=
  setReg { s with dict.store := [], dict.storeBlocks := [], dict.storeEmpty := true } Reg.fwSettingsSchema 0

/-- The firmware starts: a store of another schema is erased (R462), and RESTARTED is set after a restart (R464). -/
def firmwareStarts (s : State) : State :=
  let again := s.fw.restarted
  let s := { s with fw.loaded := false, fw.started := true, fw.startedAt := s.time, fw.restarted := false }
  let s := if !s.dict.storeEmpty && reg s Reg.fwSettingsSchema != imgSchema (blk s Reg.fwRunningHeader) then
      let s := raise (eraseStore s) .fw 2
      if again then { s with dict.unsaved := true } else s
    else s
  if again then raise s .fw 1 else s

/-- FIRMWARE_START (R456, R462, R483): the firmware starts, or (`ready`) serves the dictionary; start-up is over with it. -/
def execFirmwareStart (ready : Bool) (s : State) : Host.Outcome State Fault Refusal :=
  if s.pwr.inReset ∨ s.fw.halted then .next s
  else if !ready then .next (if s.fw.loaded then firmwareStarts s else s)
  else
    let p := reg s Reg.pwrStartupPhase
    if s.fw.started ∧ !s.fw.running ∧ (p = 3 ∨ p = 4 ∨ (p = 2 ∧ !flag s Reg.pwrAutoBringup)) then
      let s := appliesBack { s with fw.running := true }
      .next (if p = 4 then s else raise (startupMark (setReg s Reg.pwrStartupPhase 4) 7) .pwr 6)
    else .next s

/-! ### Staging and installing (R452–R454, R460) -/

/-- R453: what keeps the staged image in place. -/
def stagedBusy (s : State) : Bool :=
  s.dict.transfers.any (fun t => t.2.entry == Reg.fwStaged && !t.2.write) || jobRunning s Reg.fwInstall

/-- A commit of `fw_staged`. -/
def wStaged (b : List Byte) (s : State) : Applied :=
  if stagedBusy s || s.fw.fetch.isSome then .fail .busy
  else if b.length < 385 ∨ 15728640 < b.length then .fail .refused
  else .done (setReg (setBlk s Reg.fwStaged b) Reg.fwStagedValid 1)

/-- FW_STAGED_WRITE (R452): a completed transfer. -/
def execFwStagedWrite (client : Client) (value : List Byte) (s : State) : Host.Outcome State Fault Refusal :=
  .next (commitRow s client Reg.fwStaged (wStaged value))

/-- FW_STAGED_VERIFY (R460). -/
def execFwStagedVerify (s : State) : Host.Outcome State Fault Refusal :=
  if s.fw.started ∧ reg s Reg.fwStagedValid = 1 then
    .next (setReg s Reg.fwStagedValid (if imageSound (blk s Reg.fwStaged) then 2 else 3))
  else .next s

/-- An install begins (R454); with nothing staged it ends at once with result 0x02. -/
def beginInstall (s : State) : State :=
  let s := jobBegin s Reg.fwInstall
  if (blk s Reg.fwStaged).isEmpty then jobEnd s Reg.fwInstall 2
  else { setReg s Reg.fwRegionState 2 with fw.pos := 0 }

/-- The install ends without a complete region. -/
def installBroken (s : State) : State := raise (setReg s Reg.fwRegionState 1) .fw 7

/-- One sector is erased, programmed and compared; `ok` says that all three held. -/
def installSector (s : State) (ok : Bool) : State :=
  let k := Reg.fwInstall
  let img := blk s Reg.fwStaged
  let n := min 65536 (img.length - s.fw.pos)
  if !ok then installBroken (jobEnd { s with fw.image := some (img.take s.fw.pos), fw.autoBoot := false } k 1)
  else
    let s := jobProgress { s with fw.pos := s.fw.pos + n, fw.image := some (img.take (s.fw.pos + n)) } k (ceilDiv n 1024)
    if (job s k).cancel then installBroken (jobCancelled { s with fw.autoBoot := false } k 3)
    else if s.fw.pos < img.length then s
    else
      let s := raise (setReg (jobEnd s k 0) Reg.fwRegionState 0) .fw 3
      if s.fw.autoBoot then mgmtRestart s 6 else s

/-- FW_INSTALL (R454): a start, or the next sector. -/
def execFwInstall (turn : JobOp) (ok : Bool) (s : State) : Host.Outcome State Fault Refusal :=
  let k := Reg.fwInstall
  match turn with
  | .start c => .next (concludeJob s c k (jobStart s c k (fun s => .done (beginInstall s))))
  | .step => .next (if jobRunning s k then installSector s ok else s)

/-! ### Relay distribution and recovery (R458–R461) -/

/-- The poll's conditions (R460). -/
def relayQualifies (s : State) (valid : Nat) (h : List Byte) : Bool :=
  valid == 2 && beAt h 6 2 == reg s Reg.idHwType && decide (reg s Reg.fwRollbackFloor ≤ imgRollback h) &&
    ((blk s Reg.fwStaged).isEmpty || decide (imgVersion (blk s Reg.fwStaged) < imgVersion h))

/-- RELAY_POLL (R460): the neighbour on a bundle answers with its `fw_staged_valid` and its `fw_staged_header`. -/
def execRelayPoll (bundle valid : Nat) (header : List Byte) (s : State) : Host.Outcome State Fault Refusal :=
  let last := (mfind s.fw.polled bundle).getD s.fw.startedAt
  if s.fw.running ∧ flag s Reg.fwRelayEnable ∧ bundle < 8 ∧ last + reg s Reg.fwRelayPollS * 1000000000 ≤ s.time then
    let s := { s with fw.polled := mput s.fw.polled bundle s.time }
    if s.fw.fetch = none ∧ !stagedBusy s ∧ relayQualifies s valid header then
      .next { s with fw.fetch := some { bundle := bundle, header := header, recovery := false } }
    else .next s
  else .next s

/-- The next bundle of a seek: those with a path defect are skipped (R458). -/
def seekTurn (s : State) : Option Nat :=
  (List.range 8).find? (fun b => decide (s.fw.seekNext ≤ b) && reg s (Reg.fbPathDefects b) == 0)

/-- The bundle after one in a seek; 0 when the seek is over. -/
def seekAfter (s : State) (b : Nat) : Nat :=
  if (List.range 8).any (fun x => decide (b < x) && reg s (Reg.fbPathDefects x) == 0) then b + 1 else 0

/-- RECOVERY_SEEK (R458): every 1 s; the neighbour on the bundle whose turn it is answers with its `fw_staged_header`. -/
def execRecoverySeek (bundle : Nat) (header : List Byte) (s : State) : Host.Outcome State Fault Refusal :=
  if reg s Reg.fwState = 1 ∧ s.fw.loader ∧ !s.fw.bootDue ∧ s.fw.fetch = none ∧ jobRunning s Reg.fwInstall = false ∧
      seekTurn s = some bundle ∧ (s.fw.seekNext ≠ 0 ∨ s.fw.seekAt + 1000000000 ≤ s.time) then
    let s := { s with fw.seekAt := if s.fw.seekNext = 0 then s.time else s.fw.seekAt, fw.seekNext := seekAfter s bundle }
    if magicOk header ∧ headerFit s header = 0 then
      .next { s with fw.fetch := some { bundle := bundle, header := header, recovery := true } }
    else .next s
  else .next s

/-- A fetched image takes the staging store. -/
def stageFetched (s : State) (img : List Byte) : State := setReg (setBlk s Reg.fwStaged img) Reg.fwStagedValid 2

/-- Whether the firmware installs a fetched image by itself (R461). -/
def autoInstalls (s : State) (img : List Byte) : Bool :=
  flag s Reg.fwAutoInstall && unitListed s img && decide (reg s Reg.idFwVersion < imgVersion img)

/-- IMAGE_FETCH_COMPLETE (R458, R460, R461): the image read over the channel is kept only when its signature verifies. -/
def execImageFetchComplete (image : List Byte) (s : State) : Host.Outcome State Fault Refusal :=
  match s.fw.fetch with
  | none => .next s
  | some f =>
    let s := { s with fw.fetch := none }
    if stagedBusy s ∨ !imageSound image then .next s
    else if f.recovery then .next { beginInstall (stageFetched s image) with fw.autoBoot := true }
    else
      let s := raise (count32 (stageFetched s image) Reg.fwRelayFetches) .fw 4
      .next (if autoInstalls s image then beginInstall s else s)

/-! ### Entries (R465) -/

/-- Writes of the firmware entries. -/
def fwWrite (k v : Nat) : State → Applied := if k = Reg.fwRestart then wFwRestart v else storeRule k v

/-- DOMAIN values. -/
def fwDomain (s : State) (k : Nat) : List Byte :=
  if k = Reg.fwStagedHeader then padTo (blk s Reg.fwStaged) 320
  else if k = Reg.fwRunningHeader then padTo (blk s k) 320
  else if k = Reg.fwKeyDigest then sha256 Config.loaderKey
  else blk s k

end Sys2Proof.Machine
end

