-- ==== Sys2Proof/Machine/Board.lean ====
section
/-! DEFINITION. Board signals (ch. 21): the pulse-per-second pins, GPIO, the I2C and MDIO masters, and JTAG. -/

namespace Sys2Proof.Machine

/-! ### Pulse per second (R522) -/

/-- PPS_IN_EDGE: a rising edge; `off` is the stamp's error of −2 to +2 ns, from 0 to 4. An edge less than 1 µs after the one
before it is not latched. -/
def execPpsInEdge (off : Nat) (s : State) : Host.Outcome State Fault Refusal :=
  if s.pwr.inReset ∨ 4 < off then .next s
  else
    let near : Bool := match s.io.ppsInAt with
      | some t => decide (s.time < t + 1000)
      | none => false
    let s : State := { s with io.ppsInAt := some s.time }
    .next (if near then s else setReg s Reg.ioPpsInTs ((timeNs s + off + 2 ^ 64 - 2) % 2 ^ 64))

/-- PPS_OUT_PULSE: TIME reaches a whole second while it is locked; the pin is high for 1 ms. -/
def execPpsOutPulse (s : State) : Host.Outcome State Fault Refusal :=
  if timeNs s % 1000000000 = 0 ∧ s.fl.timeLocked ∧ !s.pwr.inReset ∧ s.io.ppsFall = none then
    .next (emit { s with io.ppsFall := some (s.time + 1000000) } (.pps true))
  else .next s

/-- The fall of PTP_1PPS_OUT, when its instant has come. -/
def ppsFalls (s : State) : State := match s.io.ppsFall with
  | some t => if t ≤ s.time then emit { s with io.ppsFall := none } (.pps false) else s
  | none => s

/-! ### GPIO (R524) -/

/-- A write of `io_gpio_dir` or `io_gpio_out`: the pins change. -/
def wGpio (k v : Nat) (s : State) : Applied := .done (gpioDrive (setReg s k v))

/-- GPIO_WRITE. -/
def execGpioWrite (client : Client) (out : Bool) (value : Nat) (s : State) : Host.Outcome State Fault Refusal :=
  let k := if out then Reg.ioGpioOut else Reg.ioGpioDir
  .next (writeRow s client k value (wGpio k value))

/-- The levels at the pins: outputs as driven, inputs an open value (notes/assumptions/7). -/
def gpioIn (s : State) : Nat × State :=
  let r := freeBits s 32
  let d := reg s Reg.ioGpioDir
  (Nat.land d (reg s Reg.ioGpioOut) + dropBits r.1 d, r.2)

/-! ### I2C and MDIO (R525) -/

/-- The 8-byte records of a list. -/
def ioRecords (b : List Byte) : List (List Byte) := chunks 8 (b.length / 8) b

/-- What an I2C record must state. -/
def i2cRecordOk (r : List Byte) : Bool :=
  (byteAt r 0 == 1 || byteAt r 0 == 2) && decide (byteAt r 1 < 128) && decide (1 ≤ byteAt r 2) && decide (byteAt r 2 ≤ 4)

/-- What an MDIO record must state. -/
def mdioRecordOk (r : List Byte) : Bool :=
  decide (byteAt r 0 < 4) && decide (byteAt r 1 < 32) && decide (byteAt r 2 < 32)

/-- A list of 1 to 64 good records. -/
def ioListOk (ok : List Byte → Bool) (b : List Byte) : Bool :=
  b.length % 8 == 0 && !b.isEmpty && decide (b.length ≤ 512) && (ioRecords b).all ok

/-- One record with the bus's answer, its status and read data: `n` bytes at offset 4. -/
def ioFilled (r : List Byte) (st n : Nat) (data : List Byte) : List Byte :=
  splice r 3 [byte st] |> (fun r => if st = 0 then splice r 4 (padTo data n) else r)

/-- The records as they have run: each takes the next answer; after a failure every later one reads 0x04. `size` is how many bytes
a record reads. -/
def ioRun (size : List Byte → Nat) : List (List Byte) → List (Nat × List Byte) → Bool → List (List Byte)
  | [], _, _ => []
  | r :: l, a, failed =>
    let x := a.headD (0, [])
    if failed then splice r 3 [4] :: ioRun size l a true
    else ioFilled r (min x.1 3) (size r) x.2 :: ioRun size l a.tail (x.1 != 0)

/-- Bytes an I2C record reads, and an MDIO record. -/
def i2cSize (r : List Byte) : Nat := if byteAt r 0 = 2 then byteAt r 2 else 0
def mdioSize (r : List Byte) : Nat := if 2 ≤ byteAt r 0 then 2 else 0

/-- A commit of `io_i2c_xfer`: the list waits for the bus. -/
def wI2c (m : Nat) (b : List Byte) (s : State) : Applied :=
  if mget false s.io.i2cRun m then .fail .busy
  else if !ioListOk i2cRecordOk b then .fail .refused
  else .done { s with io.i2c := mset [] s.io.i2c m b, io.i2cRun := mset false s.io.i2cRun m true }

/-- A commit of `io_mdio_xfer`. -/
def wMdio (m : Nat) (b : List Byte) (s : State) : Applied :=
  if mget false s.io.mdioRun m then .fail .busy
  else if !ioListOk mdioRecordOk b then .fail .refused
  else .done { s with io.mdio := mset [] s.io.mdio m b, io.mdioRun := mset false s.io.mdioRun m true }

/-- IO_I2C_XFER (R525): the committed list of a master runs; `answers` are the bus's statuses and read data in order. -/
def execIoI2cXfer (master : Nat) (answers : List (Nat × List Byte)) (s : State) : Host.Outcome State Fault Refusal :=
  if mget false s.io.i2cRun master then
    let l := (ioRun i2cSize (ioRecords (mget [] s.io.i2c master)) answers false).flatten
    .next (emit { s with io.i2c := mset [] s.io.i2c master l, io.i2cRun := mset false s.io.i2cRun master false } (.i2c master l))
  else .next s

/-- IO_MDIO_XFER (R525). -/
def execIoMdioXfer (master : Nat) (answers : List (Nat × List Byte)) (s : State) : Host.Outcome State Fault Refusal :=
  if mget false s.io.mdioRun master then
    let l := (ioRun mdioSize (ioRecords (mget [] s.io.mdio master)) answers false).flatten
    .next (emit { s with io.mdio := mset [] s.io.mdio master l, io.mdioRun := mset false s.io.mdioRun master false } (.mdio master l))
  else .next s

/-! ### JTAG (R523) -/

/-- An instruction that holds the device as in a pin reset. -/
def jtagHold (s : State) (i : Nat) : State :=
  if s.pwr.off then s
  else
    let t := fullReset s
    { t with pwr := { inReset := true, jtag := some i } }

/-- The TAP leaves such an instruction: start-up runs as from a rise of RESET_L. -/
def jtagLeave (s : State) (straps : Nat) : State := if s.pwr.jtag.isSome then startUp s 2 straps else s

/-- JTAG_EXTEST. -/
def execJtagExtest (s : State) : Host.Outcome State Fault Refusal := .next (jtagHold s 0)

/-- JTAG_EXTEST_PULSE. -/
def execJtagExtestPulse (s : State) : Host.Outcome State Fault Refusal := .next (jtagHold s 1)

/-- JTAG_EXTEST_TRAIN. -/
def execJtagExtestTrain (s : State) : Host.Outcome State Fault Refusal := .next (jtagHold s 2)

/-- JTAG_CLAMP. -/
def execJtagClamp (s : State) : Host.Outcome State Fault Refusal := .next (jtagHold s 3)

/-- JTAG_HIGHZ. -/
def execJtagHighz (s : State) : Host.Outcome State Fault Refusal := .next (jtagHold s 4)

/-- JTAG_BYPASS: the one-bit bypass register, which IEEE 1149.1 captures as 0. -/
def execJtagBypass (straps : Nat) (s : State) : Host.Outcome State Fault Refusal := .next (emit (jtagLeave s straps) (.jtag [0]))

/-- The identification code. -/
def idcode : Nat := 1 * 2 ^ 28 + 0x5120 * 2 ^ 12 + Config.jepIdentity % 2 ^ 11 * 2 + 1

/-- JTAG_IDCODE: least significant bit first. -/
def execJtagIdcode (straps : Nat) (s : State) : Host.Outcome State Fault Refusal :=
  .next (emit (jtagLeave s straps) (.jtag (leBytes 4 idcode)))

/-- JTAG_SAMPLE_PRELOAD: the boundary register, whose cells the BSDL file describes, is no state of this model. -/
def execJtagSamplePreload (straps : Nat) (s : State) : Host.Outcome State Fault Refusal := .next (jtagLeave s straps)

/-- JTAG_TEST_EXIT. -/
def execJtagTestExit (straps : Nat) (s : State) : Host.Outcome State Fault Refusal := .next (jtagLeave s straps)

/-! ### Entries (R524) -/

/-- Writes. -/
def boardWrite (k v : Nat) : State → Applied :=
  if k = Reg.ioGpioDir ∨ k = Reg.ioGpioOut then wGpio k v else storeRule k v

/-- Commits. -/
def boardCommit (k : Nat) (b : List Byte) : State → Applied :=
  if idxOf k = 0x13C4 then wI2c (subOf k) b else wMdio (subOf k) b

/-- DOMAIN values. -/
def boardDomain (s : State) (k : Nat) : List Byte :=
  if idxOf k = 0x13C4 then mget [] s.io.i2c (subOf k) else mget [] s.io.mdio (subOf k)

/-- A list runs: transfers into its entry are turned away. -/
def ioRunning (s : State) (k : Nat) : Bool :=
  (idxOf k == 0x13C4 && mget false s.io.i2cRun (subOf k)) || (idxOf k == 0x13C6 && mget false s.io.mdioRun (subOf k))

end Sys2Proof.Machine
end

