-- ==== Sys2Proof/Machine/Integrity.lean ====
section
/-! DEFINITION. Patrol scrub, management RAM and fault injection (ch. 20). -/

namespace Sys2Proof.Machine

/-! ### Fault injection (R498) -/

/-- A write of `int_inject`: kinds and classes outside Table — Fault injection are refused. -/
def wIntInject (v : Nat) (s : State) : Applied :=
  let k := bits v 63 60
  if 4 < k ∨ (k = 4 ∧ 6 < bits v 59 56) ∨ 0xB < bits v 59 56 then .fail .refused else .done (setReg s Reg.intInject v)

/-- INT_INJECT_WRITE. -/
def execIntInjectWrite (client : Client) (value : Nat) (s : State) : Host.Outcome State Fault Refusal :=
  .next (writeRow s client Reg.intInject value (wIntInject value))

/-- A flit with `n` flipped bits carries part of a packet to the T-die (R492, R494): corrected; or the packet is discarded where
its descriptor is lost; or the word is carried poisoned. -/
def flitFault (s : State) (i : Nat) (p : Pkt) (data : Bool) (unit idx n : Nat) : State :=
  let r := checkWord (setFlips s 0xA unit idx n) 0xA unit idx
  let s := setFlips r.2 0xA unit idx 0
  if !r.1 then s
  else if data then setPkt s i { p with poison := true }
  else if p.stage = .ready then discardArrival s i 24 else s

/-- INJECT_FIRE (R498): the word `index` of the armed unit is written, for a die-to-die module as a flit of packet `pkt`; or a
ledger counter takes its next result. The words and results that a command of this model writes fire within it. -/
def execInjectFire (index pkt : Nat) (data : Bool) (s : State) : Host.Outcome State Fault Refusal :=
  let f := reg s Reg.intInject
  let kind := bits f 63 60
  let cls := bits f 59 56
  let unit := bits f 55 48
  if kind = 0 then .next s
  else if kind = 4 then .next (if cls = 6 then ledgerResidue s else s)
  else if bits f 39 0 ≠ 0xFFFFFFFFFF ∧ bits f 39 0 ≠ index then .next s
  else if cls = 0xA then
    match pkt? s pkt with
    | some p =>
      if p.stage = .window ∨ p.stage = .ready then
        .next (flitFault (latchError (injectFired s) 0xA 3 unit index) pkt p data unit index kind)
      else .next s
    | none => .next s
  else .next (setFlips (latchError (injectFired s) cls 3 unit index) cls unit index kind)

/-! ### Management RAM (R496) -/

/-- MGMT_RAM_ERROR (R496): a word of MGMT RAM is read with `flips` flipped bits: corrected and written back, or the cores halt. -/
def execMgmtRamError (index flips : Nat) (s : State) : Host.Outcome State Fault Refusal :=
  if 1 ≤ flips ∧ flips ≤ 3 then
    let r := checkWord (setFlips s 0xB 118 index flips) 0xB 118 index
    let s := setFlips r.2 0xB 118 index 0
    .next (if r.1 then { raise s .int 7 with fw.halted := true, fw.running := false } else s)
  else .next s

/-! ### Patrol scrub (R490, R491) -/

/-- The period of a class's sweep in ns (Table — Array classes); 0 where another chapter scrubs it. -/
def scrubPeriod (s : State) (cls : Nat) : Nat :=
  if cls = 0 ∨ cls = 1 ∨ cls = 4 then 16384 * reg s Reg.intBufScrubNs
  else if cls = 2 ∨ cls = 3 then 1000000 * reg s Reg.intQmsScrubMs
  else if cls = 5 then 1000000 * reg s Reg.intLkpScrubMs
  else if cls = 7 then 1000000 * reg s Reg.intClsScrubMs
  else if cls = 8 then 1000000 * reg s Reg.intMcScrubMs
  else if cls = 0xB then 1000000000 else 0

/-- PATROL_SCRUB_SWEEP_START (R490): at a multiple of the period; late while the last sweep still runs. -/
def execPatrolScrubSweepStart (cls : Nat) (s : State) : Host.Outcome State Fault Refusal :=
  let p := scrubPeriod s cls
  if p ≠ 0 ∧ atMultiple s p ∧ (reg s Reg.pwrState = 0 ∨ cls = 0xB) then
    if (mfind s.integ.sweeps cls).isSome then
      let s := raise (count1 s Reg.intScrubLate) .int 5
      .next { s with integ.late := mset false s.integ.late cls true }
    else .next { s with integ.sweeps := mput s.integ.sweeps cls 0 }
  else .next s

/-- The memory and unit of a bitmap word's first bit. -/
def bitmapUnit (unit idx : Nat) : Nat × Nat := (idx / 2 ^ 33, (idx % 2 ^ 32 * 24 + (unit - 66)) * 64)

/-- What a scrub does with a word it cannot correct (R489, R491, R492). -/
def scrubLost (s : State) (cls unit idx : Nat) : State :=
  let cell := unit - 66 + 24 * (idx / 32)
  if cls = 0 ∧ !unitUsed s 0 cell then setQuar (setFlips s 0 unit idx 0) 0 cell
  else if cls = 4 then
    let w := bitmapUnit unit idx
    let l := wordUnits w.1 w.2
    let s := setFlips s 4 unit idx 0
    if idx / 2 ^ 32 % 2 = 1 then l.foldl (fun s u => setQuar s w.1 u) s
    else
      let n := l.filter (fun u => !unitUsed s w.1 u)
      leakUnits (n.foldl (fun s u => setUsed s w.1 u 1) s) w.1 n
  else setFlips s cls unit idx 4

/-- One scrub read, with `found` bits newly flipped, and its write-back. -/
def patrolWord (s : State) (cls unit idx found : Nat) : State :=
  let s := if flipsOf s cls unit idx < found then setFlips s cls unit idx found else s
  if cls = 3 then readState s (idx / 2)
  else if flipsOf s cls unit idx = 0 then s
  else
    let r := checkWord s cls unit idx
    if r.1 then scrubLost r.2 cls unit idx else setFlips r.2 cls unit idx 0

/-- The scrubbers that count the reads due in a stopped island (R490). -/
def scrubCounts (s : State) (cls unit : Nat) : Bool := (cls == 0 || cls == 1 || cls == 4) && (isl s unit).stopped

/-- A sweep ends; a late one begins at once (R490). -/
def sweepEnd (s : State) (cls : Nat) : State :=
  if mget false s.integ.late cls then
    { s with integ.sweeps := mput s.integ.sweeps cls 0, integ.late := mset false s.integ.late cls false }
  else { s with integ.sweeps := mdel s.integ.sweeps cls }

/-- PATROL_SCRUB_READ (R490, R491): the next word of a class's sweep, in ascending order, with `found` bits an upset has flipped;
`last` ends the sweep. -/
def execPatrolScrubRead (cls unit index found : Nat) (last : Bool) (s : State) : Host.Outcome State Fault Refusal :=
  match mfind s.integ.sweeps cls with
  | none => .next s
  | some p =>
    let k := unit % 256 * 2 ^ 40 + index % 2 ^ 40
    if k < p ∨ 3 < found ∨ 256 ≤ unit ∨ 2 ^ 40 ≤ index ∨ (reg s Reg.pwrState ≠ 0 ∧ cls ≠ 0xB) then .next s
    else
      let s := { s with integ.sweeps := mput s.integ.sweeps cls (k + 1) }
      let s := if scrubCounts s cls unit then { s with integ.due := mset 0 s.integ.due unit (mget 0 s.integ.due unit + 1) }
        else patrolWord s cls unit index found
      .next (if last then sweepEnd s cls else s)

/-- PATROL_SCRUB_BATCH (R490): the reads due in an island, as (class, index, bits found flipped), once 1,024 are due or it is
awake. -/
def execPatrolScrubBatch (unit : Nat) (reads : List (Nat × Nat × Nat)) (s : State) : Host.Outcome State Fault Refusal :=
  let n := mget 0 s.integ.due unit
  if n = 0 ∨ reads.length ≠ n ∨ ((isl s unit).stopped ∧ n < 1024) ∨ reg s Reg.pwrState ≠ 0 then .next s
  else .next (reads.foldl (fun s r => if (r.1 = 0 ∨ r.1 = 1 ∨ r.1 = 4) ∧ r.2.2 ≤ 3 then patrolWord s r.1 unit r.2.1 r.2.2 else s)
    { s with integ.due := mset 0 s.integ.due unit 0 })

/-- Values and writes of the integrity entries (R499). -/
def intRead (s : State) (k : Nat) : Nat := if k = Reg.intPoisoned then poisonedWords s else reg s k
def intWrite (k v : Nat) : State → Applied := if k = Reg.intInject then wIntInject v else storeRule k v

end Sys2Proof.Machine
end

