-- ==== Sys2Proof/Machine/Dict.lean ====
section
/-! DEFINITION. The dictionary as a whole (ch. 16): every entry's write, value, DOMAIN value, commit and job start behind one
dispatcher; the direct map (R402, R403); the settings store's jobs (R396–R398). -/

namespace Sys2Proof.Machine

/-! ### Writes -/

/-- A mailbox. -/
def mailbox (s : State) (fn : Nat) : Mailbox := mget {} s.dict.mailboxes fn
def setMailbox (s : State) (fn : Nat) (m : Mailbox) : State := { s with dict.mailboxes := mset {} s.dict.mailboxes fn m }

/-- Whether a function's mailbox is served: by the firmware, or for the PF by the loader in recovery (R405, R457). -/
def mailboxUp (s : State) (fn : Nat) : Bool :=
  !s.pwr.inReset && (s.fw.running || (s.fw.loader && !s.fw.halted && reg s Reg.fwState == 1 && fn == 0))

/-- Message fields (Table — Synsa header). -/
def msgType (m : List Byte) : Nat := byteAt m 1
def msgIsResponse (m : List Byte) : Bool := decide (128 ≤ byteAt m 2)
def msgSession (m : List Byte) : Nat := beAt m 4 4
def msgSeq (m : List Byte) : Nat := beAt m 8 8
def msgBodyLen (m : List Byte) : Nat := beAt m 16 2
def msgBody (m : List Byte) : List Byte := slice m 20 (msgBodyLen m)

/-- Whether a message is of a kind a device takes: version 1, a known type, and a length that fits (R415, R416). -/
def msgKnown (m : List Byte) : Bool :=
  byteAt m 0 == 1 && (decide (1 ≤ msgType m) && decide (msgType m ≤ 10) && msgType m != 8) &&
    (!msgIsResponse m || msgType m == 10) &&
    (m.length == 20 + msgBodyLen m || m.length == 36 + msgBodyLen m)

/-- Whether the mailbox takes a message: RELAY, opens and closes need a session or a tag, which it has not (R405, R418, R424). -/
def mailboxTakes (m : List Byte) : Bool :=
  msgKnown m && m.length == 20 + msgBodyLen m && msgType m != 10 && (msgType m != 9 || byteAt m 20 == 1)

/-- A doorbell (R405): busy turns it away; a message that is discarded leaves the mailbox idle. -/
def wDoorbell (c : Client) (v : Nat) (s : State) : Applied :=
  match fnOf c with
  | none => .fail .noEntry
  | some fn =>
    let x := mailbox s fn
    if !mailboxUp s fn then .fail .notReady
    else if x.state = 1 then .fail .refused
    else
      let m := padTo (x.request.take v) v
      .done (setMailbox s fn (if mailboxTakes m then { x with state := 1, len := v } else { x with state := 0, len := 0 }))

/-- The writes of this chapter's entries. -/
def dictWrite (c : Client) (k v : Nat) (s : State) : Applied :=
  if k = Reg.mbDoorbell then wDoorbell c v s
  else if k = Reg.synEventGroups then
    match c with
    | .session _ => .done (setReg s (callerKey (callerOf c) k) v)
    | _ => .fail .noSession
  else if idxOf k = 0x1104 ∧ 32 < v % 64 then .fail .refused
  else storeRule k v s

/-- The write rule of every fixed-size entry, by its chapter. -/
def entryWrite (c : Client) (k v : Nat) : State → Applied :=
  let i := idxOf k
  if (causeOfEntry c k).isSome then wCause c k v
  else if cwPlaces k ≠ 0 then cwWrite c k v
  else if i < 0x1200 then dictWrite c k v
  else if i < 0x1300 then fwWrite k v
  else if i < 0x1310 then pwrWrite k v
  else if i < 0x1330 then islWrite k v
  else if i < 0x13C0 then pwrWrite k v
  else if i < 0x1400 then boardWrite k v
  else if i < 0x1500 then evtWrite c k v
  else if i < 0x1600 then intWrite k v
  else if i < 0x1700 then hostEntryWrite c k v
  else if i < 0x2000 then storeRule k v
  else if i < 0x2500 then lineWrite k v
  else if i < 0x2800 then flWrite k v
  else if i < 0x3000 then ftWrite k v
  else if i < 0x3100 then parserWrite k v
  else if i < 0x3200 then clsWrite k v
  else if i < 0x3300 then lkpWrite k v
  else if i < 0x3400 then storeRule k v
  else if i < 0x4000 then mcWrite k v
  else if i < 0x4100 then pmWrite k v
  else if i < 0x4200 then hbmWrite k v
  else if i < 0x5000 then qmWrite k v
  else if i < 0x6000 then obsWrite k v
  else storeRule k v

/-- The bytes a STRING entry holds, one to its length of them, padded (R391); a trace string may end a mismatch (R307). -/
def stringWrite (k n : Nat) (v : List Byte) (s : State) : Applied :=
  let s := setBlk s k (padTo v n)
  .done (if 0x2700 ≤ idxOf k ∧ idxOf k < 0x2708 then touchPath s (idxOf k - 0x2700) else s)

/-- One item of a WRITE (R394, R416): the value's bytes must fit the type. -/
def typedWrite (s : State) (c : Client) (k : Nat) (v : List Byte) : Applied :=
  match odFind k with
  | none => .fail .noEntry
  | some r =>
    if !reaches s c k true then .fail .noEntry
    else if notReady s c k (match r.acc with | .cw _ => true | _ => false) then .fail .notReady
    else match r.ty with
      | .str n =>
        if v.isEmpty ∨ n < v.length then .fail .type
        else match writeChecks s c k 0 with
          | some st => .fail st
          | none => stringWrite k n v s
      | _ => if v.length ≠ r.ty.size ∨ r.ty.size = 0 then .fail .type else checkedWrite s c k (beNat v) (entryWrite c k (beNat v))

/-! ### Values -/

/-- The strings the identity entries hold (R414); the others are the unit's own (notes/assumptions/2). -/
def identityString (s : State) (k n : Nat) : List Byte :=
  padTo (if k = Reg.idVendor then ascii "KREOST" else if k = Reg.idFamily then ascii "Ivfarak"
    else if k = Reg.idPart then ascii "UMZ-5120" else if k = Reg.idPackage then ascii "KB"
    else if k = Reg.idOrderingCode then ascii (if reg s Reg.idTempGrade = 0x49 then "UMZ-5120-A1-I-KB" else "UMZ-5120-A1-C-KB")
    else blk s k) n

/-- The persistent part of the live values, in the form the store keeps. -/
def livePersistent (s : State) : SMap Nat := s.od.filter (fun e => decide (e.1 < 2 ^ 24) && isPersistent e.1)
def liveBlocks (s : State) : SMap (List Byte) := s.blocks.filter (fun e => decide (e.1 < 2 ^ 24) && isPersistent e.1)

/-- `od_unsaved` (R396, R462). -/
def unsaved (s : State) : Bool :=
  s.dict.unsaved || livePersistent s != s.dict.store || liveBlocks s != s.dict.storeBlocks

/-- `mb_status` of a function (R405). -/
def mailboxStatus (s : State) (fn : Nat) : Nat :=
  if mailboxUp s fn then (mailbox s fn).state * 2 ^ 30 + (if (mailbox s fn).state = 2 then (mailbox s fn).len else 0) else 3 * 2 ^ 30

/-- The values of this chapter's entries. -/
def dictRead (s : State) (c : Client) (k : Nat) : Nat :=
  if k = Reg.synSessionCount then s.dict.sessions.length
  else if k = Reg.mbStatus then (match fnOf c with
    | some fn => mailboxStatus s fn
    | none => 0)
  else if k = Reg.odAccessStatus ∨ k = Reg.synEventGroups then reg s (callerKey (callerOf c) k)
  else if k = Reg.odUnsaved then b2n (unsaved s)
  else reg s k

/-- The value of every fixed-size entry, by its chapter. -/
def entryValue (s : State) (c : Client) (k : Nat) : Nat :=
  let i := idxOf k
  if i < 0x1200 then dictRead s c k
  else if 0x1310 ≤ i ∧ i < 0x1330 then islRead s k
  else if i < 0x1400 then reg s k
  else if i < 0x1500 then evtRead s c k
  else if i < 0x1600 then intRead s k
  else if i < 0x1700 then hostEntryRead s c k
  else if i = 0x1701 then s.dict.cwLog.length
  else if i < 0x2000 then reg s k
  else if i < 0x2500 then lineRead s k
  else if i < 0x2800 then flRead s k
  else if i < 0x3100 then reg s k
  else if i < 0x3200 then clsRead s k
  else if i < 0x3300 then lkpReadVal s k
  else if i < 0x3400 then aseReadVal s k
  else if i < 0x4000 then mcRead s k
  else if i < 0x4100 then pmRead s k
  else if i < 0x4200 then reg s k
  else if i < 0x5000 then qmRead s k
  else if i < 0x6000 then obsRead s k
  else reg s k

/-- What a read leaves: a read-clear entry at zero — the watermark at the queue's depth now (R377) — and the byte count of a
counter latched with its packet count (R196). -/
def readLeaves (s : State) (c : Client) (k : Nat) : State :=
  if k = Reg.odAccessStatus then setReg s (callerKey (callerOf c) k) 0
  else if k = Reg.qwmValue then
    let q := reg s Reg.qwmSelect
    { s with qm.queues := mset {} s.qm.queues q { queue s q with watermark := qDepth (queue s q) } }
  else if k = Reg.ctrPkts then { s with mtr.latch := (pairOf s (ctrSelected s)).2 }
  else match odFind k with
    | some r => if r.acc = .rc then setReg s k 0 else s
    | none => s

/-- A read of a fixed-size entry: its value, and what it leaves. The levels at the GPIO pins are inputs. -/
def readEntry (s : State) (c : Client) (k : Nat) : Nat × State :=
  match odFind k with
  | none => (0, s)
  | some r =>
    if r.ty = .job then ((job s k).word, s)
    else if r.acc = .wo then (0, s)
    else if k = Reg.ioGpioIn then gpioIn s
    else (entryValue s c k, readLeaves s c k)

/-- The bytes of a fixed-size or STRING value, and what the read leaves (R391). -/
def readBytes (s : State) (c : Client) (k : Nat) : List Byte × State :=
  match odFind k with
  | none => ([], s)
  | some r => match r.ty with
    | .str n => (if idxOf k < 0x1050 then identityString s k n else padTo (blk s k) n, s)
    | _ =>
      let x := readEntry s c k
      (beBytes r.ty.size x.1, x.2)

/-! ### DOMAIN values -/

/-- `syn_sessions` (R427). -/
def sessionRecord (s : State) (x : Nat × Session) : List Byte :=
  beBytes 4 x.1 ++ [byte x.2.level, if x.2.transport < 16 then 2 else 1, 0, 0] ++
    beBytes 4 ((s.time - x.2.lastAt) / 1000000000) ++ padTo x.2.label 16 ++ [0, 0, 0, 0]

/-- `syn_neighbours` (R427). -/
def neighbourRecord (s : State) (b : Nat) : List Byte :=
  match mfind s.dict.neighbours b with
  | some x => padTo x.1 96 ++ beBytes 4 ((s.time - x.2) / 1000000)
  | none => List.replicate 100 0

/-- `cw_summary` (R427). -/
def cwSummary (s : State) : List Byte :=
  ([Reg.synDeviceKey, Reg.fwRollbackFloor, Reg.ftDeviceId] : List Nat).flatMap (fun k =>
    beBytes 2 (idxOf k) ++ [byte (subOf k), byte (cwPlaces k), byte (mget 0 s.dict.fuseCounts k), 0, 0, 0])

/-- The DOMAIN value of every entry, by its chapter; one that is written only, or never read back, has no bytes (R392, R417). -/
def domainValue (s : State) (k : Nat) : List Byte :=
  let i := idxOf k
  if k = Reg.synDeviceKey || (match odFind k with | some r => decide (r.acc = .wo) | none => true) then []
  else if i = 0x1105 then padTo (blk s k) 17
  else if i = 0x1110 then s.dict.sessions.flatMap (sessionRecord s)
  else if i = 0x1116 then (List.range 8).flatMap (neighbourRecord s)
  else if i < 0x1300 then fwDomain s k
  else if i < 0x13C0 then pwrDomain s k
  else if i < 0x1600 then boardDomain s k
  else if i < 0x1700 then hostDomain s k
  else if i = 0x1700 then s.dict.cwLog.flatten
  else if i = 0x1702 then cwSummary s
  else if i < 0x2400 then
    let p := i - 0x2000
    if k = Reg.portTsFifo p then (port s p).ts.flatten
    else padTo (blk s k) (4 * (modeSpeed (port s p).mode / 5))
  else if i < 0x2800 then flDomain s k
  else if i < 0x3000 then ftDomain s k
  else if i < 0x3200 then clsDomain s k
  else if i < 0x3300 then lkpDomain s k
  else if i < 0x3400 then aseDomain s k
  else if i < 0x4000 then mcDomain s k
  else if i < 0x4100 then pmDomain s k
  else if i < 0x4200 then blk s k
  else if i < 0x5000 then qmDomain s k
  else obsDomain s k

/-- The commit rule of every DOMAIN entry, by its chapter. -/
def domainCommit (c : Client) (k : Nat) (b : List Byte) : State → Applied :=
  let i := idxOf k
  if i = 0x1105 then fun s =>
    if b.length ≠ 17 then .fail .refused else if 128 < byteAt b 16 then .fail .refused else .done (setBlk s k b)
  else if k = Reg.synDeviceKey then wDeviceKey c b
  else if i < 0x1300 then wStaged b
  else if i < 0x1600 then boardCommit k b
  else if i < 0x1700 then hostCommit k b
  else if i < 0x2400 then wFlexeCalendar (i - 0x2000) b
  else if i < 0x3000 then ftCommit k b
  else if i < 0x3200 then clsCommit k b
  else if i < 0x3300 then lkpCommit k b
  else if i < 0x3400 then aseCommit k b
  else if i < 0x4000 then mcCommit k b
  else if i < 0x4100 then pmCommit k b
  else if i < 0x4200 then hbmCommit k b
  else if i < 0x5000 then qmCommit k b
  else obsCommit k b

/-- What a committed read removes: the records the transfer returned (R407); a completed read of `fw_staged` is counted (R459). -/
def readCommitted (s : State) (k pos total : Nat) : State :=
  if k = Reg.learnNotices then { s with cls.notices := s.cls.notices.drop (pos / 16) }
  else if k = Reg.fwStaged then (if pos = total then count32 s Reg.fwRelayServed else s)
  else if 0x2000 ≤ idxOf k ∧ idxOf k < 0x2400 ∧ k = Reg.portTsFifo (idxOf k - 0x2000) then
    let p := idxOf k - 0x2000
    setPort s p { port s p with ts := (port s p).ts.drop (pos / 16) }
  else s

/-! ### Jobs -/

/-- A start of `od_save` or `od_settings_erase` while the other runs is busy (R397). -/
def startSave (s : State) : Applied :=
  if jobRunning s Reg.odSettingsErase then .fail .busy
  else .done (jobBegin { s with dict.savePos := 0, dict.saveCopy := [], dict.saveBlocks := [] } Reg.odSave)
def startErase (s : State) : Applied :=
  if jobRunning s Reg.odSave then .fail .busy else .done (jobBegin s Reg.odSettingsErase)

/-- A chapter's start followed by the run. -/
def thenBegin (k : Nat) (rule : State → Applied) (s : State) : Applied := (rule s).bind (fun s => .done (jobBegin s k))

/-- The start rule of every JOB entry, by its chapter. -/
def jobRule (k : Nat) : State → Applied :=
  let i := idxOf k
  if k = Reg.odSave then startSave
  else if k = Reg.odSettingsErase then startErase
  else if k = Reg.fwInstall then fun s => .done (beginInstall s)
  else if i < 0x1400 then pwrStart k
  else if i < 0x2000 then
    thenBegin k (fun s => if fnInFlr s (subOf k) then .fail .busy else .done (vfResetBegin s (subOf k)))
  else if i < 0x2400 then thenBegin k (startCalSwitch (i - 0x2000))
  else if i < 0x2800 then fun s => startLaneSetChange s (i - 0x2700)
  else if i < 0x3200 then thenBegin k startSwap
  else if i < 0x3300 then thenBegin k (lkpStart k)
  else if i < 0x3400 then thenBegin k startAseApply
  else if i < 0x4000 then thenBegin k (mcStart k)
  else if i < 0x4200 then hbmStart k
  else thenBegin k (startLoadJob qmJob)

/-- How many P entries stand below a key (R397). -/
def persistentBelow (upTo : Nat) : Nat :=
  odRows.foldl (fun n r => if r.per = .p then
      let full := min r.cnt (upTo / 256 - r.idx)
      let part := if r.idx ≤ upTo / 256 ∧ upTo / 256 < r.idx + r.cnt then min r.subCnt (upTo % 256 - r.sub) else 0
      n + full * r.subCnt + part
    else n) 0

/-- The job takes the P entries up to a key with the values they hold now. -/
def saveTake (s : State) (upTo : Nat) : State :=
  let here := fun (k : Nat) => decide (s.dict.savePos ≤ k) && decide (k < upTo)
  let n := persistentBelow upTo - persistentBelow s.dict.savePos
  jobProgress { s with
    dict.saveCopy := s.dict.saveCopy ++ (livePersistent s).filter (fun e => here e.1)
    dict.saveBlocks := s.dict.saveBlocks ++ (liveBlocks s).filter (fun e => here e.1)
    dict.savePos := upTo } Reg.odSave n

/-- The end of a save (R397): the new copy is current, or the old one is kept. -/
def saveEnd (s : State) (result : Nat) : State :=
  let s : State := if result = 0 then
      setReg { s with dict.store := s.dict.saveCopy, dict.storeBlocks := s.dict.saveBlocks, dict.storeEmpty := false,
                      dict.unsaved := false } Reg.fwSettingsSchema (imgSchema (blk s Reg.fwRunningHeader))
    else s
  raise (jobEnd { s with dict.saveCopy := [], dict.saveBlocks := [] } Reg.odSave result) .od 0

/-- OD_SAVE (R397): a start, or a step: the entries below `upTo` are taken, or, with every entry taken, the final write ends the job
with `result`. -/
def execOdSave (turn : JobOp) (upTo result : Nat) (s : State) : Host.Outcome State Fault Refusal :=
  match turn with
  | .start c => .next (concludeJob s c Reg.odSave (jobStart s c Reg.odSave startSave))
  | .step =>
    if !jobRunning s Reg.odSave then .next s
    else if s.dict.savePos < 0x600000 then .next (if s.dict.savePos < upTo then saveTake s (min upTo 0x600000) else s)
    else .next (if result ≤ 2 then saveEnd s result else s)

/-- OD_SETTINGS_ERASE (R398). -/
def execOdSettingsErase (turn : JobOp) (s : State) : Host.Outcome State Fault Refusal :=
  match turn with
  | .start c => .next (concludeJob s c Reg.odSettingsErase (jobStart s c Reg.odSettingsErase startErase))
  | .step => .next (if jobRunning s Reg.odSettingsErase then jobEnd (eraseStore s) Reg.odSettingsErase 0 else s)

/-! ### The direct map (R402–R404) -/

/-- Widths and alignment of an access to an entry of a size: 8 B only above 4 B, and nothing at offset + 4. -/
def mapFits (size off n : Nat) : Bool := off % 8 == 0 && (n == 8 || (n == 4 && decide (size ≤ 4)))

/-- The size of a value on the map; lengths of DOMAIN and STRING values are 4 B (R391). -/
def mapSize (t : EType) : Nat := match t with
  | .str _ => 4
  | .domain => 4
  | t => t.size

/-- A posted write's end: a failure is only recorded (R403). -/
def posted (s : State) (c : Client) (k : Nat) : Applied → State
  | .done s' => s'
  | .fail st => noteFailure s c k st

/-- A direct-map write of an entry. -/
def mapWrite (s : State) (c : Client) (off : Nat) (b : List Byte) : Applied :=
  let k := off / 8
  let v := leNat b
  match odFind k with
  | none => .fail .noEntry
  | some r =>
    if !reaches s c k true then .fail .noEntry
    else if notReady s c k (match r.acc with | .cw _ => true | _ => false) then .fail .notReady
    else if !mapFits (mapSize r.ty) off b.length || (match r.ty with | .str _ => true | _ => false) then .fail .type
    else if r.ty.size ≤ 4 ∧ 2 ^ 32 ≤ v then .fail .type
    else checkedWrite s c k v (entryWrite c k v)

/-- A write into the mailbox windows of a function: raw memory (R405). -/
def windowWrite (s : State) (fn off : Nat) (b : List Byte) : State :=
  let x := mailbox s fn
  let o := off - 0x8F8000
  if o < 4096 then setMailbox s fn { x with request := splice (padTo x.request 4096) o b }
  else setMailbox s fn { x with response := splice (padTo x.response 4096) (o - 4096) b }

/-- The client that a function is. -/
def fnClient (fn : Nat) : Client := if fn = 0 then .pf else .vf fn

/-- A function's write to its BAR0. -/
def barWrite (s : State) (fn off : Nat) (b : List Byte) : State :=
  if !fnExists s fn || fnInFlr s fn || decide (0x8000000 ≤ off + b.length) || !(b.length == 4 || b.length == 8) then s
  else if 0x8F8000 ≤ off ∧ off < 0x8FA000 then (if off % b.length = 0 then windowWrite s fn off b else s)
  else posted s (fnClient fn) (off / 8) (mapWrite s (fnClient fn) off b)

/-- A function's read of its BAR0: the bytes in address order, all ones where it fails (R402). -/
def barRead (s : State) (fn off n : Nat) : List Byte × State :=
  let c := fnClient fn
  let k := off / 8
  let ones := List.replicate n (0xFF : Byte)
  if 0x8F8000 ≤ off ∧ off < 0x8FA000 then
    let x := mailbox s fn
    let o := off - 0x8F8000
    (padTo (if o < 4096 then slice (padTo x.request 4096) o n else slice (padTo x.response 4096) (o - 4096) n) n, s)
  else match readable s c k (fun t => !mapFits (mapSize t) off n) with
    | some st => (ones, noteFailure s c k st)
    | none =>
      if k = Reg.synEventGroups then (ones, noteFailure s c k .noSession)
      else match odFind k with
        | none => (ones, s)
        | some r => match r.ty with
          | .str m => (leBytes n m, s)
          | .domain => (leBytes n (domainValue s k).length, s)
          | _ =>
            let x := readEntry s c k
            (leBytes n x.1, x.2)

/-- REGISTER_WRITE (R394, R402): a write of an entry that has no row of its own, and writes of the mailbox windows. -/
def execRegisterWrite (how : WriteForm) (s : State) : Host.Outcome State Fault Refusal :=
  match how with
  | .map fn off bytes => .next (afterResponse (barWrite s fn off bytes))
  | .entry client entry value => .next (afterResponse (writeRow s client entry value (entryWrite client entry value)))

/-- OD_ACCESS_STATUS_READ (R403): a function reads its record, which clears; only an 8-byte read fits the entry. -/
def execOdAccessStatusRead (fn width : Nat) (s : State) : Host.Outcome State Fault Refusal :=
  if !fnExists s fn || fnInFlr s fn then .next s
  else
    let x := barRead s fn (8 * Reg.odAccessStatus) width
    .next (emit x.2 (.status fn 0 x.1))

/-- MB_DOORBELL (R405). -/
def execMbDoorbell (client : Client) (value : Nat) (s : State) : Host.Outcome State Fault Refusal :=
  .next (writeRow s client Reg.mbDoorbell value (wDoorbell client value))

end Sys2Proof.Machine
end

