-- ==== Sys2Proof/Machine/Synsa.lean ====
section
/-! DEFINITION. The Synsa protocol (R415–R426): messages over the three transports, their bodies, keys and sessions, discovery,
events and relay. -/

namespace Sys2Proof.Machine

/-! ### Bodies (R416) -/

/-- Who sent a request and how the response travels: the client, the longest response, what of it is header and tag, and for a
relay the request's session, sequence, place and sender. -/
structure Ctx where
  client : Client
  limit : Nat
  frame : Nat
  session : Nat := 0
  seq : Nat := 0
  place : Nat := 0
  peer : List Byte := []
deriving DecidableEq, Repr

/-- A response's status code and body; none where the response comes later or never. -/
structure Reply where
  status : Nat
  body : List Byte
deriving DecidableEq, Repr

/-- A failed message: its status, an empty body, and the record of the failure (R403). -/
def failed (s : State) (c : Client) (k : Nat) (st : Status) : Option Reply × State :=
  (some ⟨st.code, []⟩, noteFailure s c k st)

/-- A message whose body does not have its type's layout, or that holds too many items: nothing is applied. -/
def badBody (s : State) (st : Status) : Option Reply × State := (some ⟨st.code, []⟩, s)

/-- The entry an entry reference names. -/
def refKey (b : List Byte) (o : Nat) : Nat := key (beAt b o 2) (byteAt b (o + 2))

/-- One item of a READ: status, type code, length and value; a failed item has neither type nor value. -/
def readItem (s : State) (c : Client) (k : Nat) : List Byte × State :=
  let st := match readable s c k (fun t => t == .domain || t == .job) with
    | some st => some st
    | none => if k = Reg.synEventGroups ∧ (fnOf c).isSome then some .noSession else none
  match st with
  | some st => ([byte st.code, 0, 0, 0], noteFailure s c k st)
  | none =>
    let x := readBytes s c k
    ([0, byte (((odFind k).map (fun r => r.ty.code)).getD 0)] ++ beBytes 2 x.1.length ++ x.1, x.2)

/-- READ. -/
def readBody (s : State) (x : Ctx) (b : List Byte) : Option Reply × State :=
  let n := byteAt b 0
  if 64 < n then badBody s .tooLarge
  else if n = 0 ∨ b.length ≠ 1 + 4 * n then badBody s .type
  else
    let r := (List.range n).foldl (fun (r : List Byte × State) i =>
      let y := readItem r.2 x.client (refKey b (1 + 4 * i))
      (r.1 ++ y.1, y.2)) ([byte n], s)
    (some ⟨0, r.1⟩, r.2)

/-- The items of a WRITE: entries and values, if the body holds exactly `n`. -/
def writeItems : Nat → List Byte → Option (List (Nat × List Byte))
  | 0, b => if b.isEmpty then some [] else none
  | n + 1, b =>
    let len := beAt b 4 2
    if b.length < 6 + len then none
    else (writeItems n (b.drop (6 + len))).map (fun l => (refKey b 0, slice b 6 len) :: l)

/-- WRITE. -/
def writeBody (s : State) (x : Ctx) (b : List Byte) : Option Reply × State :=
  let n := byteAt b 0
  if 64 < n then badBody s .tooLarge
  else match (if n = 0 then none else writeItems n (b.drop 1)) with
    | none => badBody s .type
    | some l =>
      let r := l.foldl (fun (r : List Byte × State) (i : Nat × List Byte) =>
        match typedWrite r.2 x.client i.1 i.2 with
        | .done s => (r.1 ++ [0], s)
        | .fail st => (r.1 ++ [byte st.code], noteFailure r.2 x.client i.1 st)) ([byte n], s)
      (some ⟨0, r.1⟩, r.2)

/-- A number of `w` bits the device chooses: any that is not taken (notes/assumptions/7). -/
def freshNumber (s : State) (w tries : Nat) (taken : Nat → Bool) : Nat × State :=
  let r := freeBits s w
  ((((List.range tries).map (fun i => (r.1 + i) % 2 ^ w)).find? (fun n => !taken n)).getD r.1, r.2)

/-- Bytes of write data staged (R408). -/
def stagedBytes (s : State) : Nat := (s.dict.transfers.map (fun t => if t.2.write then t.2.total else 0)).foldl (· + ·) 0

/-- Why a DOMAIN_BEGIN fails (R153, R392, R394, R406, R408, R453, R525). -/
def beginRefusal (s : State) (c : Client) (k dir total : Nat) : Option Status :=
  match odFind k with
  | none => some .noEntry
  | some r =>
    if !reaches s c k (dir == 0) then some .noEntry
    else if notReady s c k false then some .notReady
    else if r.ty ≠ .domain then some .type
    else if 1 < dir then some .refused
    else if dir = 0 ∧ r.acc = .ro then some .readOnly
    else if (dir = 0 ∧ levelOf s c < r.wr) ∨ (dir = 1 ∧ levelOf s c < r.rd ∧ r.acc ≠ .wo) then some .level
    else if retentionBusy s k || held s k || ioRunning s k then some .busy
    else if dir = 0 ∧ k = Reg.fwStaged ∧ (jobRunning s Reg.fwInstall || s.fw.fetch.isSome) = true then some .busy
    else if 16 ≤ s.dict.transfers.length ∨ (dir = 0 ∧ 33554432 < stagedBytes s + total) then some .busy
    else if dir = 0 ∧ loadJobs.any (fun j => j.load == k && decide (65536 * j.size < total)) then some .tooLarge
    else none

/-- DOMAIN_BEGIN (R406): a read takes the value as it stands now. -/
def domainBeginBody (s : State) (x : Ctx) (b : List Byte) : Option Reply × State :=
  if b.length ≠ 12 then badBody s .type
  else
    let k := refKey b 0
    let dir := byteAt b 4
    match beginRefusal s x.client k dir (beAt b 8 4) with
    | some st => failed s x.client k st
    | none =>
      let h := freshNumber s 16 17 (fun n => (mfind s.dict.transfers n).isSome)
      let value := if dir = 1 then domainValue s k else []
      let total := if dir = 1 then value.length else beAt b 8 4
      let t : Transfer := { client := x.client, entry := k, write := dir == 0, total := total, buf := value, lastAt := s.time }
      (some ⟨0, beBytes 2 h.1 ++ [0, 0] ++ beBytes 4 (if dir = 1 then total else 0) ++ beBytes 2 (x.limit - x.frame - 8)⟩,
       { h.2 with dict.transfers := mput h.2.dict.transfers h.1 t })

/-- The open transfer a client's handle names. -/
def transferOf (s : State) (c : Client) (h : Nat) : Option Transfer :=
  match mfind s.dict.transfers h with
  | some t => if t.client = c then some t else none
  | none => none

/-- DOMAIN_SEGMENT (R406, R416). -/
def domainSegmentBody (s : State) (x : Ctx) (b : List Byte) : Option Reply × State :=
  let h := beAt b 0 2
  let n := beAt b 2 2
  let off := beAt b 4 4
  if b.length < 8 then badBody s .type
  else match transferOf s x.client h with
  | none => badBody s .noHandle
  | some t =>
    if (t.write && b.length != 8 + n) || (!t.write && b.length != 8) then failed s x.client t.entry .type
    else if off ≠ t.pos then failed s x.client t.entry .sequence
    else if t.write then
      if t.total < off + n then failed s x.client t.entry .tooLarge
      else
        let t := { t with buf := t.buf ++ b.drop 8, pos := off + n, lastAt := s.time }
        (some ⟨0, beBytes 2 h ++ beBytes 2 n ++ beBytes 4 off⟩, { s with dict.transfers := mput s.dict.transfers h t })
    else if x.limit - x.frame - 8 < n then failed s x.client t.entry .tooLarge
    else
      let d := slice t.buf off n
      let t := { t with pos := off + d.length, lastAt := s.time }
      (some ⟨0, beBytes 2 h ++ beBytes 2 d.length ++ beBytes 4 off ++ d⟩, { s with dict.transfers := mput s.dict.transfers h t })

/-- A transfer is gone. -/
def dropTransfer (s : State) (h : Nat) : State := { s with dict.transfers := mdel s.dict.transfers h }

/-- DOMAIN_END (R406, R407): a commit that fails changes nothing, and the transfer stays open. -/
def domainEndBody (s : State) (x : Ctx) (b : List Byte) : Option Reply × State :=
  let h := beAt b 0 2
  let act := byteAt b 2
  if b.length ≠ 4 then badBody s .type
  else match transferOf s x.client h with
  | none => badBody s .noHandle
  | some t =>
    let done := fun (s : State) => ((some ⟨0, beBytes 2 h ++ [0, 0]⟩ : Option Reply), s)
    let u := dropTransfer s h
    if 1 < act then failed s x.client t.entry .refused
    else if act = 1 then done u
    else if !t.write then done (readCommitted u t.entry t.pos t.total)
    else if t.pos ≠ t.total then failed s x.client t.entry .refused
    else match domainChecks u x.client t.entry with
      | some st => failed s x.client t.entry st
      | none => match domainCommit x.client t.entry t.buf u with
        | .done u => done u
        | .fail st => failed s x.client t.entry st

/-- JOB_START (R410). -/
def jobStartBody (s : State) (x : Ctx) (b : List Byte) : Option Reply × State :=
  if b.length ≠ 4 then badBody s .type
  else
    let k := refKey b 0
    match jobStart s x.client k (jobRule k) with
    | .done s => (some ⟨0, beBytes 8 (job s k).word⟩, s)
    | .fail st => failed s x.client k st

/-- JOB_STATUS (R410): a cancel needs the start level; `cls_epoch_swap` refuses it while it runs (R124). -/
def jobStatusBody (s : State) (x : Ctx) (b : List Byte) : Option Reply × State :=
  let k := refKey b 0
  let act := byteAt b 4
  if b.length ≠ 8 then badBody s .type
  else match readable s x.client k (fun t => t != .job) with
  | some st => failed s x.client k st
  | none =>
    let answer := fun (s : State) => ((some ⟨0, beBytes 8 (job s k).word⟩ : Option Reply), s)
    if act = 0 then answer s
    else if 1 < act then failed s x.client k .refused
    else if levelOf s x.client < ((odFind k).map (·.wr)).getD 3 then failed s x.client k .level
    else if !jobRunning s k then answer s
    else if k = Reg.clsEpochSwap then failed s x.client k .refused
    else answer (setJob s k { job s k with cancel := true })

/-! ### Keys (R417, R418) -/

/-- The level key. -/
def levelKey (s : State) (v : Nat) : List Byte := hkdf256 (unitId s) s.dict.deviceKey (ascii "synsa level " ++ [byte v])

/-- The session key. -/
def sessionKey (level nonces : List Byte) (id : Nat) : List Byte :=
  hkdf256 nonces level (ascii "synsa session " ++ beBytes 4 id)

/-- The tag of a message (R415). -/
def tagOf (k m : List Byte) : List Byte := (hmac256 k m).take 16

/-- A message with its tag. -/
def tagged (k m : List Byte) : List Byte := m ++ tagOf k m

/-- Whether a message's tag holds under a key. -/
def tagHolds (k m : List Byte) : Bool :=
  m.length == 36 + msgBodyLen m && m.drop (20 + msgBodyLen m) == tagOf k (m.take (20 + msgBodyLen m))

/-- A header and a body. -/
def synsaMessage (ty flags st sid seq : Nat) (b : List Byte) : List Byte :=
  [1, byte ty, byte flags, byte st] ++ beBytes 4 sid ++ beBytes 8 seq ++ beBytes 2 b.length ++ [0, 0] ++ b

/-- The response to a request, under a session number. -/
def response (m : List Byte) (sid : Nat) (r : Reply) : List Byte := synsaMessage (msgType m) 128 r.status sid (msgSeq m) r.body

/-- NO_SESSION: session ID 0 and no valid tag (R419). -/
def noSession (m : List Byte) (tag : Bool) : List Byte :=
  response m 0 ⟨Status.noSession.code, []⟩ ++ (if tag then List.replicate 16 0 else [])

/-- A failed tag (R420). -/
def authFailed (s : State) : State := raise (count1 s Reg.synAuthFailures) .od 1

/-- A replay (R420). -/
def replayed (s : State) : State := raise (count1 s Reg.synReplays) .od 2

/-- A handler of a body. -/
abbrev Handler := State → Ctx → List Byte → Option Reply × State

/-- Run a request and form its response; one too long is never formed, and the request fails instead (R415). -/
def runRequest (s : State) (x : Ctx) (f : Handler) (m : List Byte) (mk : Reply → List Byte) : Option (List Byte) × State :=
  let r := f s x (msgBody m)
  match r.1 with
  | none => (none, r.2)
  | some a => if x.limit < (mk a).length then (some (mk ⟨Status.tooLarge.code, []⟩), s) else (some (mk a), r.2)

/-- A sequence number against the record of the accepted ones: the new highest and record, or none where it is recorded or too old
(R420). -/
def acceptSeq (high window n : Nat) : Option (Nat × Nat) :=
  if high < n then some (n, (if 64 ≤ n - high then 1 else window * 2 ^ (n - high) % 2 ^ 64 + 1))
  else if high < n + 64 ∧ !bit window (high - n) then some (high, setBit window (high - n))
  else none

/-- Keep a response with the last eight. -/
def cacheResponse (s : State) (id seq : Nat) (r : List Byte) : State :=
  match mfind s.dict.sessions id with
  | some x => { s with dict.sessions := mput s.dict.sessions id { x with cache := ((seq, r) :: x.cache).take 8 } }
  | none => s

/-- A request in a session (R419, R420). -/
def serveSession (s : State) (place : Nat) (peer : List Byte) (limit : Nat) (f : Handler) (m : List Byte) :
    Option (List Byte) × State :=
  let id := msgSession m
  let n := msgSeq m
  match (if flag s Reg.synKeySet then mfind s.dict.sessions id else none) with
  | none => (some (noSession m true), s)
  | some x =>
    if !tagHolds x.key m then (none, authFailed s)
    else if n = 0 then (none, s)
    else match acceptSeq x.high x.window n with
      | none => match x.cache.find? (fun e => e.1 == n) with
        | some e => (some e.2, { s with dict.sessions := mput s.dict.sessions id { x with lastAt := s.time } })
        | none => (none, replayed s)
      | some w =>
        let s := { s with dict.sessions := mput s.dict.sessions id { x with high := w.1, window := w.2, lastAt := s.time } }
        let c : Ctx := { client := .session id, limit := limit, frame := 36, session := id, seq := n, place := place, peer := peer }
        let r := runRequest s c f m (fun a => tagged x.key (response m id a))
        match r.1 with
        | some out => (some out, cacheResponse r.2 id n out)
        | none => r

/-! ### Sessions and discovery (R418, R419, R423) -/

/-- A session is over, with what is held for it. -/
def sessionGone (s : State) (id : Nat) : State :=
  { s with
    dict.sessions := mdel s.dict.sessions id
    od := s.od.filter (fun e => decide (e.1 / 2 ^ 24 ≠ 65 + id))
    evt.gather := mdel s.evt.gather id
    evt.gatherAt := mdel s.evt.gatherAt id
    evt.evSeq := mdel s.evt.evSeq id }

/-- DISCOVER op 0x03. -/
def closeBody (s : State) (x : Ctx) (_ : List Byte) : Option Reply × State := (some ⟨0, []⟩, sessionGone s x.session)

/-- The 96-byte body of a probe's answer and of an announce. -/
def identityBody (s : State) (op b : Nat) : List Byte :=
  [byte op, byte b, 0, 0] ++ unitId s ++ beBytes 4 (ownId s) ++ beBytes 2 (reg s Reg.idHwType) ++
    [byte (reg s Reg.idSiliconRev), byte (reg s Reg.idTempGrade)] ++ beBytes 4 (reg s Reg.idFwVersion) ++
    padTo (blk s Reg.idUserLabel) 64

/-- DISCOVER op 0x01: open to all, or under the Observer level key. -/
def serveProbe (s : State) (leaves : Nat) (m : List Byte) : Option (List Byte) × State :=
  let a := response m 0 ⟨0, identityBody s 1 leaves⟩
  if msgSession m ≠ 0 then (none, s)
  else if flag s Reg.synDiscoverOpen then (some (a ++ List.replicate 16 0), s)
  else if flag s Reg.synKeySet && tagHolds (levelKey s 0) m then (some (tagged (levelKey s 0) a), s)
  else (none, authFailed s)

/-- DISCOVER op 0x02. -/
def serveOpen (s : State) (place : Nat) (peer : List Byte) (m : List Byte) : Option (List Byte) × State :=
  let b := msgBody m
  let v := byteAt b 1
  let k := levelKey s v
  if !flag s Reg.synKeySet then (some (noSession m true), s)
  else if 3 < v || b.length != 36 || !tagHolds k m then (none, authFailed s)
  else if msgSession m ≠ 0 ∨ msgSeq m = 0 then (none, s)
  else if 32 ≤ s.dict.sessions.length then (some (tagged k (response m 0 ⟨Status.busy.code, []⟩)), s)
  else
    let i := freshNumber s 32 35 (fun n => n == 0 || n == 2 ^ 32 - 1 || (mfind s.dict.sessions n).isSome)
    let r := freeBits i.2 128
    let nd := beBytes 16 r.1
    let x : Session := { level := v, transport := place, peer := peer, label := slice b 20 16,
                         key := sessionKey k (slice b 4 16 ++ nd) i.1, lastAt := s.time }
    let s := { r.2 with dict.sessions := mput r.2.dict.sessions i.1 x }
    (some (tagged k (response m 0 ⟨0, beBytes 4 i.1 ++ nd ++ beBytes 2 (reg s Reg.synSessionIdleS)⟩)), s)

/-! ### Sending -/

/-- Whether a bundle's channel has a lane to ride on (R318). -/
def channelUp (s : State) (b : Nat) : Bool :=
  reg s (Reg.fbTxLaneSet b) != 0 ||
    (bundleLanes b).any (fun l => (flane s l).on && flag s (Reg.flEnable l) && !laneTest s l)

/-- A message goes out on a bundle's channel. -/
def channelSend (s : State) (b : Nat) (m : List Byte) : State :=
  if b < 8 ∧ channelUp s b = true then setBundle s b { bundle s b with mgOut := (bundle s b).mgOut ++ [m] } else s

/-- A message goes out where a request came from. -/
def sendAt (s : State) (place : Nat) (peer m : List Byte) : State :=
  if place < 16 then channelSend s place m else emit s (.synsa (place - 16) peer m)

/-- The longest message over a place. -/
def placeLimit (place : Nat) : Nat := if place < 16 then 1500 else 1400

/-- A request's answer, if it has one. -/
def answerAt (r : Option (List Byte) × State) (place : Nat) (peer : List Byte) : State :=
  match r.1 with
  | some m => sendAt r.2 place peer m
  | none => r.2

/-! ### Relay (R424–R426, R459) -/

/-- The relay header in front of an inner message. -/
def relayHeader (rid origin target hop exit flags : Nat) : List Byte :=
  beBytes 4 rid ++ beBytes 4 origin ++ beBytes 4 target ++ [byte hop, byte exit, byte flags, 0]

/-- The fields of one. -/
def rhId (h : List Byte) : Nat := beAt h 0 4
def rhOrigin (h : List Byte) : Nat := beAt h 4 4 % 2 ^ 20
def rhTarget (h : List Byte) : Nat := beAt h 8 4 % 2 ^ 20
def rhHop (h : List Byte) : Nat := byteAt h 12
def rhExit (h : List Byte) : Nat := byteAt h 13

/-- The same header on the way back. -/
def relayBack (h : List Byte) : List Byte := relayHeader (rhId h) (rhOrigin h) (rhTarget h) (rhHop h) (rhExit h) 1

/-- The handler of a type that a session may send, relay and discovery apart. -/
def bodyHandler (t : Nat) : Option Handler :=
  if t = 1 then some readBody else if t = 2 then some writeBody else if t = 3 then some domainBeginBody
  else if t = 4 then some domainSegmentBody else if t = 5 then some domainEndBody else if t = 6 then some jobStartBody
  else if t = 7 then some jobStatusBody else none

/-- Whether a session-0 inner message is served without a tag (R459). -/
def relayReads (s : State) (m : List Byte) : Bool :=
  flag s Reg.fwRelayEnable && flag s Reg.synKeySet && m.length == 20 + msgBodyLen m &&
    ((msgType m == 3 && byteAt m 24 == 1 && (refKey m 20 == Reg.fwStaged || refKey m 20 == Reg.fwStagedHeader)) ||
      msgType m == 4 || msgType m == 5)

/-- The inner message at its target; one that relays in turn is discarded. -/
def serveInner (s : State) (place : Nat) (peer : List Byte) (limit : Nat) (channel : Bool) (m : List Byte) :
    Option (List Byte) × State :=
  if !msgKnown m || msgIsResponse m then (none, s)
  else if msgType m = 9 then
    match byteAt m 20 with
    | 1 => serveProbe s (if place < 16 then place else 0xFF) m
    | 2 => serveOpen s place peer m
    | 3 => serveSession s place peer limit closeBody m
    | _ => (none, s)
  else match bodyHandler (msgType m) with
    | none => (none, s)
    | some f =>
      if msgSession m ≠ 0 then serveSession s place peer limit f m
      else if channel && relayReads s m then
        runRequest s { client := .session 0, limit := limit, frame := 20 } f m (response m 0)
      else (some (noSession m (m.length == 36 + msgBodyLen m)), s)

/-- The bundle a request goes out on (R425): at the origin the exit bundle for target 0xF_FFFF, else the lowest of the route set. -/
def relayExit (s : State) (origin : Bool) (h : List Byte) : Option Nat :=
  if rhTarget h = 0xFFFFF then (if origin ∧ rhExit h < 8 ∧ channelUp s (rhExit h) = true then some (rhExit h) else none)
  else if destState s (rhTarget h) = 0 then none
  else (routeSet s (rhTarget h)).head?

/-- A request that is not forwarded (R426). -/
def relayDropped (s : State) : State := raise (count1 s Reg.synRelayDropped) .od 4

/-- Forward a request and remember it; none when it cannot go on. -/
def relayForward (s : State) (h inner : List Byte) (seq : Nat) (e : RelayEntry) : Option State :=
  let hop := rhHop h - 1
  match relayExit s (e.arrival == 8) h with
  | none => none
  | some b =>
    if hop = 0 ∨ 256 ≤ s.dict.relays.length then none
    else
      let h := relayHeader (rhId h) (rhOrigin h) (rhTarget h) hop (rhExit h) 0
      let s := { s with dict.relays := s.dict.relays ++ [e] }
      some (count1 (channelSend s b (synsaMessage 10 0 0 0 seq (h ++ inner))) Reg.synRelayForwarded)

/-- Whether a target is this device. -/
def isOwn (s : State) (d : Nat) : Bool := namesDevice (ownId s) && d == ownId s

/-- RELAY within a session: this device is the origin (R424, R425). -/
def relayBody (s : State) (x : Ctx) (b : List Byte) : Option Reply × State :=
  let inner := b.drop 16
  if b.length < 16 then badBody s .type
  else if 1500 < 36 + inner.length then badBody s .tooLarge
  else
    let i := freshNumber s 32 257 (fun n => s.dict.relays.any (fun e => e.relayId == n && e.origin == ownId s))
    let h := relayHeader i.1 (ownId s) (rhTarget b) (reg s Reg.synRelayHopLimit) (rhExit b) 0
    let s := i.2
    if isOwn s (rhTarget h) then
      let r := serveInner s x.place x.peer (x.limit - 52) false inner
      (r.1.map (fun m => ⟨0, relayBack h ++ m⟩), r.2)
    else
      let e : RelayEntry := { relayId := i.1, origin := ownId s, arrival := 8, session := x.session, seq := x.seq,
                              place := x.place, peer := x.peer, at0 := s.time }
      match relayForward s h inner 0 e with
      | some s => (none, s)
      | none => (some ⟨Status.unreachable.code, relayBack h⟩, relayDropped s)

/-- A RELAY request from a neighbour, session 0 and no tag (R425, R426). -/
def relayTransit (s : State) (b : Nat) (m : List Byte) : State :=
  let h := (msgBody m).take 16
  let inner := (msgBody m).drop 16
  let back := fun (st : Nat) (i : List Byte) => synsaMessage 10 128 st 0 (msgSeq m) (relayBack h ++ i)
  if (msgBody m).length < 16 then s
  else if isOwn s (rhTarget h) || rhTarget h == 0xFFFFF then
    let r := serveInner s b [] 1464 true inner
    match r.1 with
    | some i => channelSend r.2 b (back 0 i)
    | none => r.2
  else match relayForward s h inner (msgSeq m) { relayId := rhId h, origin := rhOrigin h, arrival := b, at0 := s.time } with
    | some s => s
    | none => channelSend (relayDropped s) b (back Status.unreachable.code [])

/-! ### Taking a message (R422) -/

/-- Whether a datagram is for this device: the port is enabled, the address and UDP port are its own, and it is whole. -/
def datagramTaken (s : State) (oob : Nat) (dst : List Byte) (dport : Nat) (whole : Bool) (m : List Byte) : Bool :=
  decide (oob < 2) && bit (reg s Reg.synEnable) oob && dport == reg s Reg.synUdpPort && whole && decide (m.length ≤ 1400) &&
    ((dst.length == 4 && beNat dst != 0 && beNat dst == bits (reg s (Reg.synOobIpv4 oob)) 39 8) ||
      (dst.length == 16 && beNat dst != 0 && dst == (padTo (blk s (Reg.synOobIpv6 oob)) 17).take 16)) && msgKnown m

/-- Whether the firmware takes messages. -/
def synsaUp (s : State) : Bool := s.fw.running && !s.pwr.inReset

/-- The oldest message held for a bundle's channel that is of a known kind; those before it are discarded. -/
def channelHead (s : State) (b : Nat) : Option (List Byte × State) :=
  match (bundle s b).mgHeld.dropWhile (fun m => !msgKnown m) with
  | m :: r =>
    let t := setBundle s b { bundle s b with mgHeld := r }
    if decide (b < 8) && synsaUp s then some (m, t) else none
  | [] => none

/-- The message of a type at hand outside the mailbox: its place, sender, bytes, and the state with it taken. -/
def takeMessage (s : State) (via : Via) (kind : List Byte → Bool) : Option (Nat × List Byte × List Byte × State) :=
  match via with
  | .mailbox _ => none
  | .udp oob dst dport peer whole m =>
    if synsaUp s && datagramTaken s oob dst dport whole m && kind m then some (16 + oob, peer, m, s) else none
  | .channel b => match channelHead s b with
    | some (m, t) => if kind m then some (b, [], m, t) else none
    | none => none

/-- Whether messages over a place are taken: the channels can be off (`syn_enable`). -/
def placeOn (s : State) (place : Nat) : Bool := decide (16 ≤ place) || bit (reg s Reg.synEnable) 2

/-- The message the firmware serves in a mailbox, if it is of a kind. -/
def mailboxMessage (s : State) (fn : Nat) (kind : List Byte → Bool) : Option (List Byte) :=
  let x := mailbox s fn
  let m := padTo (x.request.take x.len) x.len
  if mailboxUp s fn && x.state == 1 && kind m then some m else none

/-- A response in the window, and the event of its completion (R405, R428). -/
def mailboxRespond (s : State) (fn : Nat) (r : List Byte) : State :=
  let x := mailbox s fn
  let s := setMailbox s fn { x with state := 2, len := r.length, response := splice (padTo x.response 4096) 0 r }
  if fn = 0 then raise s .od 5 else raise s (.vf fn) 4

/-- Serve a mailbox's message. -/
def serveMailbox (s : State) (fn : Nat) (kind : List Byte → Bool) (f : Handler) : State :=
  match mailboxMessage s fn kind with
  | none => s
  | some m =>
    let r := runRequest s { client := fnClient fn, limit := 4096, frame := 20 } f m (response m 0)
    match r.1 with
    | some a => afterResponse (mailboxRespond r.2 fn a)
    | none => setMailbox r.2 fn { mailbox r.2 fn with state := 0, len := 0 }

/-- Serve a message of a type by its handler, however it arrives (R420, R422): outside the mailbox it needs a session. -/
def serveBody (s : State) (via : Via) (ty : Nat) (f : Handler) : State :=
  let kind := fun (m : List Byte) => msgType m == ty && !msgIsResponse m
  match via with
  | .mailbox fn => serveMailbox s fn kind f
  | _ => match takeMessage s via kind with
    | none => s
    | some (place, peer, m, s) =>
      if placeOn s place then afterResponse (answerAt (serveSession s place peer (placeLimit place) f m) place peer) else s

/-! ### Commands -/

/-- SYNSA_READ (R416). -/
def execSynsaRead (via : Via) (s : State) : Host.Outcome State Fault Refusal := .next (serveBody s via 1 readBody)

/-- SYNSA_WRITE (R416). -/
def execSynsaWrite (via : Via) (s : State) : Host.Outcome State Fault Refusal := .next (serveBody s via 2 writeBody)

/-- DOMAIN_BEGIN (R406). -/
def execDomainBegin (via : Via) (s : State) : Host.Outcome State Fault Refusal := .next (serveBody s via 3 domainBeginBody)

/-- DOMAIN_SEGMENT (R406). -/
def execDomainSegment (via : Via) (s : State) : Host.Outcome State Fault Refusal := .next (serveBody s via 4 domainSegmentBody)

/-- DOMAIN_END (R406). -/
def execDomainEnd (via : Via) (s : State) : Host.Outcome State Fault Refusal := .next (serveBody s via 5 domainEndBody)

/-- JOB_START (R410). -/
def execJobStart (via : Via) (s : State) : Host.Outcome State Fault Refusal := .next (serveBody s via 6 jobStartBody)

/-- JOB_STATUS (R410). -/
def execJobStatus (via : Via) (s : State) : Host.Outcome State Fault Refusal := .next (serveBody s via 7 jobStatusBody)

/-- A DISCOVER message of an op. -/
def discoverOp (op : Nat) (m : List Byte) : Bool := msgType m == 9 && byteAt m 20 == op && !msgIsResponse m

/-- The mailbox's probe carries no tag: it is answered only while probes are open (R423). -/
def probeBody (s : State) (_ : Ctx) (_ : List Byte) : Option Reply × State :=
  (if flag s Reg.synDiscoverOpen then some ⟨0, identityBody s 1 0xFF⟩ else none, s)

/-- DISCOVER_PROBE (R423). -/
def execDiscoverProbe (via : Via) (s : State) : Host.Outcome State Fault Refusal :=
  match via with
  | .mailbox fn => .next (serveMailbox s fn (discoverOp 1) probeBody)
  | _ => match takeMessage s via (discoverOp 1) with
    | none => .next s
    | some (place, peer, m, s) =>
      .next (if placeOn s place then answerAt (serveProbe s (if place < 16 then place else 0xFF) m) place peer else s)

/-- SESSION_OPEN (R418). -/
def execSessionOpen (via : Via) (s : State) : Host.Outcome State Fault Refusal :=
  match takeMessage s via (discoverOp 2) with
  | none => .next s
  | some (place, peer, m, s) => .next (if placeOn s place then answerAt (serveOpen s place peer m) place peer else s)

/-- SESSION_CLOSE (R419). -/
def execSessionClose (via : Via) (s : State) : Host.Outcome State Fault Refusal :=
  match takeMessage s via (discoverOp 3) with
  | none => .next s
  | some (place, peer, m, s) =>
    .next (if placeOn s place then answerAt (serveSession s place peer (placeLimit place) closeBody m) place peer else s)

/-- SESSION_IDLE_TIMEOUT (R419). -/
def execSessionIdleTimeout (session : Nat) (s : State) : Host.Outcome State Fault Refusal :=
  match mfind s.dict.sessions session with
  | some x => .next (if x.lastAt + reg s Reg.synSessionIdleS * 1000000000 ≤ s.time then sessionGone s session else s)
  | none => .next s

/-- DOMAIN_IDLE_TIMEOUT (R408). -/
def execDomainIdleTimeout (handle : Nat) (s : State) : Host.Outcome State Fault Refusal :=
  match mfind s.dict.transfers handle with
  | some t => .next (if t.lastAt + reg s Reg.odDomainIdleMs * 1000000 ≤ s.time then dropTransfer s handle else s)
  | none => .next s

/-- SYNSA_EVENT_SEND (R421): the records gathered within 10 ms, up to 32, travel in one message; a session whose own sequence
numbers are used up closes (R419). -/
def execSynsaEventSend (session : Nat) (s : State) : Host.Outcome State Fault Refusal :=
  let l := mget [] s.evt.gather session
  let since := (mfind s.evt.gatherAt session).getD 0
  match mfind s.dict.sessions session with
  | none => .next s
  | some x =>
    if l.isEmpty || !synsaUp s || !(decide (since + 10000000 ≤ s.time) || decide (32 ≤ l.length)) then .next s
    else
      let n := mget 0 s.evt.evSeq session + 1
      if 2 ^ 64 ≤ n then .next (sessionGone s session)
      else
        let b := (l.take 32).flatMap (fun e => beBytes 2 e.source ++ [byte (e.source / 16), 0] ++ beBytes 8 e.ns)
        let r := l.drop 32
        let s := { s with
          evt.gather := mset [] s.evt.gather session r
          evt.gatherAt := if r.isEmpty then mdel s.evt.gatherAt session else mput s.evt.gatherAt session s.time
          evt.evSeq := mset 0 s.evt.evSeq session n }
        .next (sendAt s x.transport x.peer (tagged x.key (synsaMessage 8 0 0 session n b)))

/-- ANNOUNCE_SEND (R423): every 1 s. -/
def execAnnounceSend (s : State) : Host.Outcome State Fault Refusal :=
  if synsaUp s && bit (reg s Reg.synEnable) 2 && decide (s.dict.announcedAt + 1000000000 ≤ s.time) then
    .next ((List.range 8).foldl (fun s b => channelSend s b (synsaMessage 9 0 0 0 0 (identityBody s 4 b)))
      { s with dict.announcedAt := s.time })
  else .next s

/-- ANNOUNCE_RECEIVE (R423). -/
def execAnnounceReceive (bundle : Nat) (s : State) : Host.Outcome State Fault Refusal :=
  match takeMessage s (.channel bundle) (discoverOp 4) with
  | none => .next s
  | some (b, _, m, s) =>
    .next (if placeOn s b && (msgBody m).length == 96 && msgSession m == 0 then
      { s with dict.neighbours := mput s.dict.neighbours b (msgBody m, s.time) } else s)

/-- SYNSA_RELAY (R424–R426): a request within a session, or one from a neighbour with session 0. -/
def execSynsaRelay (via : Via) (s : State) : Host.Outcome State Fault Refusal :=
  match takeMessage s via (fun m => msgType m == 10 && !msgIsResponse m) with
  | none => .next s
  | some (place, peer, m, s) =>
    if !placeOn s place then .next s
    else if msgSession m ≠ 0 then
      .next (afterResponse (answerAt (serveSession s place peer (placeLimit place) relayBody m) place peer))
    else .next (if place < 16 then afterResponse (relayTransit s place m) else s)

/-- A response at the origin goes to the client within its session (R425). -/
def relayAnswer (s : State) (e : RelayEntry) (m : List Byte) : State :=
  match mfind s.dict.sessions e.session with
  | none => s
  | some x =>
    let mk := fun (st : Nat) (b : List Byte) => tagged x.key (synsaMessage 10 128 st e.session e.seq b)
    let out := mk (byteAt m 3) (msgBody m)
    let out := if placeLimit e.place < out.length then mk Status.tooLarge.code [] else out
    sendAt (cacheResponse s e.session e.seq out) e.place e.peer out

/-- RELAY_RESPONSE (R425, R426): over a bundle's channel; it goes back the way the request came. -/
def execRelayResponse (bundle : Nat) (s : State) : Host.Outcome State Fault Refusal :=
  match takeMessage s (.channel bundle) (fun m => msgType m == 10 && msgIsResponse m) with
  | none => .next s
  | some (b, _, m, s) =>
    let h := msgBody m
    if !placeOn s b || decide (h.length < 16) then .next s
    else match s.dict.relays.find? (fun e => e.relayId == rhId h && e.origin == rhOrigin h) with
      | none => .next s
      | some e => .next (if e.arrival < 8 then channelSend s e.arrival m else relayAnswer s e m)

/-- RELAY_ENTRY_EXPIRE (R425): entries 100 ms old are forgotten. -/
def execRelayEntryExpire (s : State) : Host.Outcome State Fault Refusal :=
  .next { s with dict.relays := s.dict.relays.filter (fun e => decide (s.time < e.at0 + 100000000)) }

end Sys2Proof.Machine
end

