-- ==== Sys2Proof/Machine/Dispatch.lean ====
section
/-! DEFINITION. The dispatch: one arm per command, one direct call each. -/

namespace Sys2Proof.Machine

/-- What a command does to everything but the queue. -/
def exec (i : Instr) (s : State) : Host.Outcome State Fault Refusal :=
  match i with
  | .registerWrite how => Sys2Proof.Machine.execRegisterWrite how s
  | .crossing island occupied late => Sys2Proof.Machine.execCrossing island occupied late s
  | .governorInterval island busy total => Sys2Proof.Machine.execGovernorInterval island busy total s
  | .islandModeWrite client island floor value => Sys2Proof.Machine.execIslandModeWrite client island floor value s
  | .pinAllScalableWrite client value => Sys2Proof.Machine.execPinAllScalableWrite client value s
  | .timeConfigWrite value => Sys2Proof.Machine.execTimeConfigWrite value s
  | .portModeWrite client port value => Sys2Proof.Machine.execPortModeWrite client port value s
  | .portFecWrite client port value => Sys2Proof.Machine.execPortFecWrite client port value s
  | .portAdminUpWrite client port value => Sys2Proof.Machine.execPortAdminUpWrite client port value s
  | .linkUp port => Sys2Proof.Machine.execLinkUp port s
  | .linkDown port => Sys2Proof.Machine.execLinkDown port s
  | .lineLaneSignalChange lane signal fecLock blockLock localFault remoteFault => Sys2Proof.Machine.execLineLaneSignalChange lane signal fecLock blockLock localFault remoteFault s
  | .rxFrameStart port window frac holding => Sys2Proof.Machine.execRxFrameStart port window frac holding s
  | .rxFrameEnd port frame => Sys2Proof.Machine.execRxFrameEnd port frame s
  | .pauseTimeExpiry port state => Sys2Proof.Machine.execPauseTimeExpiry port state s
  | .lmacDrainResume lmac => Sys2Proof.Machine.execLmacDrainResume lmac s
  | .pauseResend port state => Sys2Proof.Machine.execPauseResend port state s
  | .eggTimerFire port state => Sys2Proof.Machine.execEggTimerFire port state s
  | .eggHoldEnd port state => Sys2Proof.Machine.execEggHoldEnd port state s
  | .txFrameStart port frac => Sys2Proof.Machine.execTxFrameStart port frac s
  | .txFrameEnd port => Sys2Proof.Machine.execTxFrameEnd port s
  | .portTsFifoRead client port => Sys2Proof.Machine.execPortTsFifoRead client port s
  | .portStatsReadClear client port counter => Sys2Proof.Machine.execPortStatsReadClear client port counter s
  | .flexeCalSwitch client port => Sys2Proof.Machine.execFlexeCalSwitch client port s
  | .flexeCalSwitchAck port => Sys2Proof.Machine.execFlexeCalSwitchAck port s
  | .flexeCalSwitchTimeout port => Sys2Proof.Machine.execFlexeCalSwitchTimeout port s
  | .lanePrbsModeWrite client lane value => Sys2Proof.Machine.execLanePrbsModeWrite client lane value s
  | .prbsLockLost fabric lane errors => Sys2Proof.Machine.execPrbsLockLost fabric lane errors s
  | .lanePrbsErrorsRead client lane errors => Sys2Proof.Machine.execLanePrbsErrorsRead client lane errors s
  | .laneLoopbackWrite client lane value => Sys2Proof.Machine.execLaneLoopbackWrite client lane value s
  | .ingressPass pkt => Sys2Proof.Machine.execIngressPass pkt s
  | .counterUpdatePost counter => Sys2Proof.Machine.execCounterUpdatePost counter s
  | .egressRun out => Sys2Proof.Machine.execEgressRun out s
  | .clsEpochSwap client => Sys2Proof.Machine.execClsEpochSwap client s
  | .epochRetired => Sys2Proof.Machine.execEpochRetired s
  | .clsStagePlanWrite client slot value => Sys2Proof.Machine.execClsStagePlanWrite client slot value s
  | .clsDirectTableWrite client slot value => Sys2Proof.Machine.execClsDirectTableWrite client slot value s
  | .clsRewriteProfilesWrite client slot value => Sys2Proof.Machine.execClsRewriteProfilesWrite client slot value s
  | .clsCompatBucketsWrite client value => Sys2Proof.Machine.execClsCompatBucketsWrite client value s
  | .learnNoticesRead client => Sys2Proof.Machine.execLearnNoticesRead client s
  | .lkpLoadWrite client records => Sys2Proof.Machine.execLkpLoadWrite client records s
  | .lkpApply turn => Sys2Proof.Machine.execLkpApply turn s
  | .routeAdd => Sys2Proof.Machine.execRouteAdd s
  | .routeDelete => Sys2Proof.Machine.execRouteDelete s
  | .routeReplace => Sys2Proof.Machine.execRouteReplace s
  | .exactAdd => Sys2Proof.Machine.execExactAdd s
  | .exactDelete => Sys2Proof.Machine.execExactDelete s
  | .exactReplace => Sys2Proof.Machine.execExactReplace s
  | .adjacencyWrite => Sys2Proof.Machine.execAdjacencyWrite s
  | .groupWrite => Sys2Proof.Machine.execGroupWrite s
  | .memberWrite => Sys2Proof.Machine.execMemberWrite s
  | .actionProfileWrite => Sys2Proof.Machine.execActionProfileWrite s
  | .compatibilitySlotWrite => Sys2Proof.Machine.execCompatibilitySlotWrite s
  | .lpmSubtreeSwitch stripe => Sys2Proof.Machine.execLpmSubtreeSwitch stripe s
  | .lpmSubtreeFree stripe => Sys2Proof.Machine.execLpmSubtreeFree stripe s
  | .lkpApplyEnd => Sys2Proof.Machine.execLkpApplyEnd s
  | .lkpPivotMove turn => Sys2Proof.Machine.execLkpPivotMove turn s
  | .pivotOldCopiesRemove => Sys2Proof.Machine.execPivotOldCopiesRemove s
  | .lkpDumpRead client => Sys2Proof.Machine.execLkpDumpRead client s
  | .aseLoadWrite client records => Sys2Proof.Machine.execAseLoadWrite client records s
  | .aseApply turn => Sys2Proof.Machine.execAseApply turn s
  | .aseInsert => Sys2Proof.Machine.execAseInsert s
  | .aseDelete => Sys2Proof.Machine.execAseDelete s
  | .aseReplace => Sys2Proof.Machine.execAseReplace s
  | .aseMembership => Sys2Proof.Machine.execAseMembership s
  | .aseRegionCreate => Sys2Proof.Machine.execAseRegionCreate s
  | .aseRegionDelete => Sys2Proof.Machine.execAseRegionDelete s
  | .aseActionProfileWrite => Sys2Proof.Machine.execAseActionProfileWrite s
  | .aseCopyStep bank => Sys2Proof.Machine.execAseCopyStep bank s
  | .aseWriteStep bank => Sys2Proof.Machine.execAseWriteStep bank s
  | .aseSweepStart bank => Sys2Proof.Machine.execAseSweepStart bank s
  | .aseScrubRead bank found => Sys2Proof.Machine.execAseScrubRead bank found s
  | .aseTempRead bank reading => Sys2Proof.Machine.execAseTempRead bank reading s
  | .aseUpdateBudgetWrite client value => Sys2Proof.Machine.execAseUpdateBudgetWrite client value s
  | .aseScrubBudgetWrite client value => Sys2Proof.Machine.execAseScrubBudgetWrite client value s
  | .aseDumpRead client => Sys2Proof.Machine.execAseDumpRead client s
  | .meterCorrection meter => Sys2Proof.Machine.execMeterCorrection meter s
  | .mtrConfigWrite client value => Sys2Proof.Machine.execMtrConfigWrite client value s
  | .mtrLoadWrite client records => Sys2Proof.Machine.execMtrLoadWrite client records s
  | .mtrApply turn => Sys2Proof.Machine.execMtrApply turn s
  | .ctrPktsRead client => Sys2Proof.Machine.execCtrPktsRead client s
  | .ctrClear client value => Sys2Proof.Machine.execCtrClear client value s
  | .ctrSweep turn => Sys2Proof.Machine.execCtrSweep turn s
  | .enqueueArrival pkt => Sys2Proof.Machine.execEnqueueArrival pkt s
  | .skimmerRebuildDone pool => Sys2Proof.Machine.execSkimmerRebuildDone pool s
  | .lastByteStored pkt => Sys2Proof.Machine.execLastByteStored pkt s
  | .dequeue kind index => Sys2Proof.Machine.execDequeue kind index s
  | .unspillPrefetch queue => Sys2Proof.Machine.execUnspillPrefetch queue s
  | .poolDescWrite client pool value => Sys2Proof.Machine.execPoolDescWrite client pool value s
  | .admProfileWrite client profile value => Sys2Proof.Machine.execAdmProfileWrite client profile value s
  | .poolSizeWrite client pool headroom value => Sys2Proof.Machine.execPoolSizeWrite client pool headroom value s
  | .fcThresholdWrite client profile xon value => Sys2Proof.Machine.execFcThresholdWrite client profile xon value s
  | .poolWatermarkRead client pool => Sys2Proof.Machine.execPoolWatermarkRead client pool s
  | .hbmRequest stack port page burst count write => Sys2Proof.Machine.execHbmRequest stack port page burst count write s
  | .hbmRequestComplete stack channel => Sys2Proof.Machine.execHbmRequestComplete stack channel s
  | .refreshDue stack channel => Sys2Proof.Machine.execRefreshDue stack channel s
  | .refreshPayback stack channel => Sys2Proof.Machine.execRefreshPayback stack channel s
  | .hbmTempRead stack readout => Sys2Proof.Machine.execHbmTempRead stack readout s
  | .hbmRateWindow => Sys2Proof.Machine.execHbmRateWindow s
  | .hbmRateChange => Sys2Proof.Machine.execHbmRateChange s
  | .hbmRatePinWrite client value => Sys2Proof.Machine.execHbmRatePinWrite client value s
  | .hbmIdleEnter => Sys2Proof.Machine.execHbmIdleEnter s
  | .hbmCapture turn pass => Sys2Proof.Machine.execHbmCapture turn pass s
  | .hbmInit stack turn pass => Sys2Proof.Machine.execHbmInit stack turn pass s
  | .hbmOffline client stack => Sys2Proof.Machine.execHbmOffline client stack s
  | .hbmDrained stack => Sys2Proof.Machine.execHbmDrained stack s
  | .hbmPatrolScrub stack upsets => Sys2Proof.Machine.execHbmPatrolScrub stack upsets s
  | .hbmScrubBatch stack => Sys2Proof.Machine.execHbmScrubBatch stack s
  | .hbmRefreshOwedMaxRead client stack => Sys2Proof.Machine.execHbmRefreshOwedMaxRead client stack s
  | .shaperRefill kind index => Sys2Proof.Machine.execShaperRefill kind index s
  | .shaperCorrection pkt => Sys2Proof.Machine.execShaperCorrection pkt s
  | .mcFanout qms => Sys2Proof.Machine.execMcFanout qms s
  | .voqIdleRelease queue => Sys2Proof.Machine.execVoqIdleRelease queue s
  | .qmLoadWrite client records => Sys2Proof.Machine.execQmLoadWrite client records s
  | .qmApply turn => Sys2Proof.Machine.execQmApply turn s
  | .nodeWrite => Sys2Proof.Machine.execNodeWrite s
  | .queueWrite => Sys2Proof.Machine.execQueueWrite s
  | .classMapWrite => Sys2Proof.Machine.execClassMapWrite s
  | .mcGroupWrite => Sys2Proof.Machine.execMcGroupWrite s
  | .targetWrite => Sys2Proof.Machine.execTargetWrite s
  | .schConfigWrite client value => Sys2Proof.Machine.execSchConfigWrite client value s
  | .fecCodewordDecode lane outcome => Sys2Proof.Machine.execFecCodewordDecode lane outcome s
  | .buntingFrameReceive lane offset skew frame => Sys2Proof.Machine.execBuntingFrameReceive lane offset skew frame s
  | .buntingFrameSend bundle lead => Sys2Proof.Machine.execBuntingFrameSend bundle lead s
  | .containerFrameReceive bundle => Sys2Proof.Machine.execContainerFrameReceive bundle s
  | .losClear lane => Sys2Proof.Machine.execLosClear lane s
  | .pmSecond => Sys2Proof.Machine.execPmSecond s
  | .laneSetPropose bundle => Sys2Proof.Machine.execLaneSetPropose bundle s
  | .laneSetAccept bundle => Sys2Proof.Machine.execLaneSetAccept bundle s
  | .laneSetReject bundle => Sys2Proof.Machine.execLaneSetReject bundle s
  | .laneSetCommit bundle => Sys2Proof.Machine.execLaneSetCommit bundle s
  | .laneSetRequest bundle => Sys2Proof.Machine.execLaneSetRequest bundle s
  | .laneSetEffect bundle transmit => Sys2Proof.Machine.execLaneSetEffect bundle transmit s
  | .laneSetTimeout bundle transmit => Sys2Proof.Machine.execLaneSetTimeout bundle transmit s
  | .laneQuiet bundle => Sys2Proof.Machine.execLaneQuiet bundle s
  | .laneWake lane => Sys2Proof.Machine.execLaneWake lane s
  | .laneAutoRemove lane => Sys2Proof.Machine.execLaneAutoRemove lane s
  | .shedGovernor bundle => Sys2Proof.Machine.execShedGovernor bundle s
  | .fbLaneSetChange client bundle => Sys2Proof.Machine.execFbLaneSetChange client bundle s
  | .mgmtChannelPacket bundle => Sys2Proof.Machine.execMgmtChannelPacket bundle s
  | .fabricPrbsLoopbackWrite client lane loopback value => Sys2Proof.Machine.execFabricPrbsLoopbackWrite client lane loopback value s
  | .flPrbsErrorsRead client lane errors => Sys2Proof.Machine.execFlPrbsErrorsRead client lane errors s
  | .idlePennantReceive bundle => Sys2Proof.Machine.execIdlePennantReceive bundle s
  | .dataPennantReceive bundle => Sys2Proof.Machine.execDataPennantReceive bundle s
  | .multicastPennantReceive bundle => Sys2Proof.Machine.execMulticastPennantReceive bundle s
  | .beaconReceive bundle => Sys2Proof.Machine.execBeaconReceive bundle s
  | .sequenceStartReceive bundle => Sys2Proof.Machine.execSequenceStartReceive bundle s
  | .creditRequestPennantReceive bundle => Sys2Proof.Machine.execCreditRequestPennantReceive bundle s
  | .creditGrantPennantReceive bundle => Sys2Proof.Machine.execCreditGrantPennantReceive bundle s
  | .creditRequestEntry => Sys2Proof.Machine.execCreditRequestEntry s
  | .creditGrantEntry => Sys2Proof.Machine.execCreditGrantEntry s
  | .creditReturnEntry => Sys2Proof.Machine.execCreditReturnEntry s
  | .creditBusyEntry => Sys2Proof.Machine.execCreditBusyEntry s
  | .probeEntry => Sys2Proof.Machine.execProbeEntry s
  | .probeAnswerEntry => Sys2Proof.Machine.execProbeAnswerEntry s
  | .beaconSend => Sys2Proof.Machine.execBeaconSend s
  | .beaconMissCheck => Sys2Proof.Machine.execBeaconMissCheck s
  | .probeSend dest => Sys2Proof.Machine.execProbeSend dest s
  | .probeUnanswered dest => Sys2Proof.Machine.execProbeUnanswered dest s
  | .creditPennantSend dest => Sys2Proof.Machine.execCreditPennantSend dest s
  | .grantIssue port => Sys2Proof.Machine.execGrantIssue port s
  | .creditReturnTimer queue => Sys2Proof.Machine.execCreditReturnTimer queue s
  | .creditRequestTimeout queue => Sys2Proof.Machine.execCreditRequestTimeout queue s
  | .pennantSend queue => Sys2Proof.Machine.execPennantSend queue s
  | .reorderTimeout src => Sys2Proof.Machine.execReorderTimeout src s
  | .reassemblyTimeout src group => Sys2Proof.Machine.execReassemblyTimeout src group s
  | .ftDeviceIdWrite client value => Sys2Proof.Machine.execFtDeviceIdWrite client value s
  | .ledgerEpochBoundary => Sys2Proof.Machine.execLedgerEpochBoundary s
  | .perfSelectWrite client counter value => Sys2Proof.Machine.execPerfSelectWrite client counter value s
  | .perfCounterWrite client counter value => Sys2Proof.Machine.execPerfCounterWrite client counter value s
  | .perfCounterWrap counter => Sys2Proof.Machine.execPerfCounterWrap counter s
  | .bwWindowEnd port => Sys2Proof.Machine.execBwWindowEnd port s
  | .bwWindowKWrite client port value => Sys2Proof.Machine.execBwWindowKWrite client port value s
  | .qwmValueRead client => Sys2Proof.Machine.execQwmValueRead client s
  | .histSample monitor => Sys2Proof.Machine.execHistSample monitor s
  | .histClear client monitor value => Sys2Proof.Machine.execHistClear client monitor value s
  | .sojClear client port value => Sys2Proof.Machine.execSojClear client port value s
  | .ensignSnapshot => Sys2Proof.Machine.execEnsignSnapshot s
  | .ensignMessageSend => Sys2Proof.Machine.execEnsignMessageSend s
  | .ensignTemplateSend => Sys2Proof.Machine.execEnsignTemplateSend s
  | .ensEnableWrite client value => Sys2Proof.Machine.execEnsEnableWrite client value s
  | .mirrorSessionWrite client session value => Sys2Proof.Machine.execMirrorSessionWrite client session value s
  | .fwEventTake => Sys2Proof.Machine.execFwEventTake s
  | .causeEnableWrite client entry value => Sys2Proof.Machine.execCauseEnableWrite client entry value s
  | .causeClear client entry value => Sys2Proof.Machine.execCauseClear client entry value s
  | .evtStickyClear client source value => Sys2Proof.Machine.execEvtStickyClear client source value s
  | .evtGroupStickyClear client group value => Sys2Proof.Machine.execEvtGroupStickyClear client group value s
  | .evtMaskWrite client source value => Sys2Proof.Machine.execEvtMaskWrite client source value s
  | .evtGroupMaskWrite client group value => Sys2Proof.Machine.execEvtGroupMaskWrite client group value s
  | .evtRouteWrite client source value => Sys2Proof.Machine.execEvtRouteWrite client source value s
  | .evtTestRaise client value => Sys2Proof.Machine.execEvtTestRaise client value s
  | .evtFwQueueHighRead client => Sys2Proof.Machine.execEvtFwQueueHighRead client s
  | .odAccessStatusRead fn width => Sys2Proof.Machine.execOdAccessStatusRead fn width s
  | .mbDoorbell client value => Sys2Proof.Machine.execMbDoorbell client value s
  | .synsaRead via => Sys2Proof.Machine.execSynsaRead via s
  | .synsaWrite via => Sys2Proof.Machine.execSynsaWrite via s
  | .domainBegin via => Sys2Proof.Machine.execDomainBegin via s
  | .domainSegment via => Sys2Proof.Machine.execDomainSegment via s
  | .domainEnd via => Sys2Proof.Machine.execDomainEnd via s
  | .jobStart via => Sys2Proof.Machine.execJobStart via s
  | .jobStatus via => Sys2Proof.Machine.execJobStatus via s
  | .synsaEventSend session => Sys2Proof.Machine.execSynsaEventSend session s
  | .discoverProbe via => Sys2Proof.Machine.execDiscoverProbe via s
  | .sessionOpen via => Sys2Proof.Machine.execSessionOpen via s
  | .sessionClose via => Sys2Proof.Machine.execSessionClose via s
  | .announceSend => Sys2Proof.Machine.execAnnounceSend s
  | .announceReceive bundle => Sys2Proof.Machine.execAnnounceReceive bundle s
  | .synsaRelay via => Sys2Proof.Machine.execSynsaRelay via s
  | .relayResponse bundle => Sys2Proof.Machine.execRelayResponse bundle s
  | .relayEntryExpire => Sys2Proof.Machine.execRelayEntryExpire s
  | .sessionIdleTimeout session => Sys2Proof.Machine.execSessionIdleTimeout session s
  | .domainIdleTimeout handle => Sys2Proof.Machine.execDomainIdleTimeout handle s
  | .odSave turn upTo result => Sys2Proof.Machine.execOdSave turn upTo result s
  | .odSettingsErase turn => Sys2Proof.Machine.execOdSettingsErase turn s
  | .countedWrite client entry value => Sys2Proof.Machine.execCountedWrite client entry value s
  | .countedWriteComplete entry => Sys2Proof.Machine.execCountedWriteComplete entry s
  | .synDeviceKeyWrite client value => Sys2Proof.Machine.execSynDeviceKeyWrite client value s
  | .puntDma out addrs writes => Sys2Proof.Machine.execPuntDma out addrs writes s
  | .puntDoorbell fn ring value => Sys2Proof.Machine.execPuntDoorbell fn ring value s
  | .injectDoorbell fn ring value => Sys2Proof.Machine.execInjectDoorbell fn ring value s
  | .injectFetch fn ring descs => Sys2Proof.Machine.execInjectFetch fn ring descs s
  | .injectBuild inject => Sys2Proof.Machine.execInjectBuild inject s
  | .hostReadCompletion tag ok data => Sys2Proof.Machine.execHostReadCompletion tag ok data s
  | .ringInterrupt fn inj ring => Sys2Proof.Machine.execRingInterrupt fn inj ring s
  | .ringConfigWrite client entry value => Sys2Proof.Machine.execRingConfigWrite client entry value s
  | .hostPuntBindWrite client value => Sys2Proof.Machine.execHostPuntBindWrite client value s
  | .vfOdGrantWrite client vf value => Sys2Proof.Machine.execVfOdGrantWrite client vf value s
  | .vfFlr vf complete => Sys2Proof.Machine.execVfFlr vf complete s
  | .vfReset vf turn => Sys2Proof.Machine.execVfReset vf turn s
  | .vfEnableClear => Sys2Proof.Machine.execVfEnableClear s
  | .pfFlr => Sys2Proof.Machine.execPfFlr s
  | .pcieHotReset => Sys2Proof.Machine.execPcieHotReset s
  | .pcieLinkChange up rate width => Sys2Proof.Machine.execPcieLinkChange up rate width s
  | .counterExport fn writes => Sys2Proof.Machine.execCounterExport fn writes s
  | .fwStagedWrite client value => Sys2Proof.Machine.execFwStagedWrite client value s
  | .fwStagedVerify => Sys2Proof.Machine.execFwStagedVerify s
  | .fwInstall turn ok => Sys2Proof.Machine.execFwInstall turn ok s
  | .loaderBoot readOk image => Sys2Proof.Machine.execLoaderBoot readOk image s
  | .recoverySeek bundle header => Sys2Proof.Machine.execRecoverySeek bundle header s
  | .relayPoll bundle valid header => Sys2Proof.Machine.execRelayPoll bundle valid header s
  | .imageFetchComplete image => Sys2Proof.Machine.execImageFetchComplete image s
  | .fwRollbackFloorWrite client value => Sys2Proof.Machine.execFwRollbackFloorWrite client value s
  | .mgmtRestartLFall => Sys2Proof.Machine.execMgmtRestartLFall s
  | .mgmtRestartLRise => Sys2Proof.Machine.execMgmtRestartLRise s
  | .fwRestart client value => Sys2Proof.Machine.execFwRestart client value s
  | .fwWatchdogExpiry => Sys2Proof.Machine.execFwWatchdogExpiry s
  | .firmwareStart ready => Sys2Proof.Machine.execFirmwareStart ready s
  | .powerOnReset railsOk straps => Sys2Proof.Machine.execPowerOnReset railsOk straps s
  | .pinReset straps => Sys2Proof.Machine.execPinReset straps s
  | .fuseSenseComplete => Sys2Proof.Machine.execFuseSenseComplete s
  | .loaderSectorCheck sectorOk repaired d2dOk => Sys2Proof.Machine.execLoaderSectorCheck sectorOk repaired d2dOk s
  | .settingsReload => Sys2Proof.Machine.execSettingsReload s
  | .avsEvaluate rail ack => Sys2Proof.Machine.execAvsEvaluate rail ack s
  | .retentionEnter turn => Sys2Proof.Machine.execRetentionEnter turn s
  | .retentionExit turn => Sys2Proof.Machine.execRetentionExit turn s
  | .datapathReset turn => Sys2Proof.Machine.execDatapathReset turn s
  | .islandReset turn => Sys2Proof.Machine.execIslandReset turn s
  | .tempRead sensors diodes => Sys2Proof.Machine.execTempRead sensors diodes s
  | .powerEstimateUpdate => Sys2Proof.Machine.execPowerEstimateUpdate s
  | .refclkLoss clock => Sys2Proof.Machine.execRefclkLoss clock s
  | .patrolScrubRead cls unit index found last => Sys2Proof.Machine.execPatrolScrubRead cls unit index found last s
  | .patrolScrubSweepStart cls => Sys2Proof.Machine.execPatrolScrubSweepStart cls s
  | .patrolScrubBatch unit reads => Sys2Proof.Machine.execPatrolScrubBatch unit reads s
  | .mgmtRamError index flips => Sys2Proof.Machine.execMgmtRamError index flips s
  | .intInjectWrite client value => Sys2Proof.Machine.execIntInjectWrite client value s
  | .injectFire index pkt data => Sys2Proof.Machine.execInjectFire index pkt data s
  | .ppsInEdge off => Sys2Proof.Machine.execPpsInEdge off s
  | .ppsOutPulse => Sys2Proof.Machine.execPpsOutPulse s
  | .gpioWrite client out value => Sys2Proof.Machine.execGpioWrite client out value s
  | .ioI2cXfer master answers => Sys2Proof.Machine.execIoI2cXfer master answers s
  | .ioMdioXfer master answers => Sys2Proof.Machine.execIoMdioXfer master answers s
  | .jtagExtest => Sys2Proof.Machine.execJtagExtest s
  | .jtagExtestPulse => Sys2Proof.Machine.execJtagExtestPulse s
  | .jtagExtestTrain => Sys2Proof.Machine.execJtagExtestTrain s
  | .jtagClamp => Sys2Proof.Machine.execJtagClamp s
  | .jtagHighz => Sys2Proof.Machine.execJtagHighz s
  | .jtagBypass straps => Sys2Proof.Machine.execJtagBypass straps s
  | .jtagIdcode straps => Sys2Proof.Machine.execJtagIdcode straps s
  | .jtagSamplePreload straps => Sys2Proof.Machine.execJtagSamplePreload straps s
  | .jtagTestExit straps => Sys2Proof.Machine.execJtagTestExit straps s
  | .powerLoss => Sys2Proof.Machine.execPowerLoss s
  | .timePllLock => Sys2Proof.Machine.execTimePllLock s
  | .fabricLaneSignalChange lane signal => Sys2Proof.Machine.execFabricLaneSignalChange lane signal s
  | .prbsCheckerLock fabric lane => Sys2Proof.Machine.execPrbsCheckerLock fabric lane s
  | .flexeGroupFault port => Sys2Proof.Machine.execFlexeGroupFault port s
  | .msixControlWrite fn field vector on => Sys2Proof.Machine.execMsixControlWrite fn field vector on s
  | .vfEnableSet count => Sys2Proof.Machine.execVfEnableSet count s
  | .hostCompletionTimeout tag => Sys2Proof.Machine.execHostCompletionTimeout tag s
  | .creditBusyHoldoffEnd queue => Sys2Proof.Machine.execCreditBusyHoldoffEnd queue s

end Sys2Proof.Machine
end

