-- ==== Sys2Proof/Machine/Tick.lean ====
section
/-! DEFINITION. What a nanosecond of TIME brings with no command waiting (DESIGN CHOICE, notes/assumptions/5): the opcode table has no row
for these. -/

namespace Sys2Proof.Machine

/-- A bank above throttle level 0 spends a nanosecond there (R178). -/
def throttleTick (s : State) (k : Nat) : State :=
  if reg s (Reg.aseThrottleLevel k) = 0 then s else count1 s (Reg.aseThrottleNs k)

/-- One nanosecond: TIME advances, a configured TIME takes effect when due (R28), PTP_1PPS_OUT falls when due (R522), throttled banks
count it, and the event TIME nanosecond occurs (R363). In a device reset only the model's own clock runs. -/
def tick (s : State) : State :=
  let s := { s with time := s.time + 1 }
  if s.pwr.inReset then s
  else
    let s := ppsFalls (timeArrivals s)
    perfEvent ((List.range 8).foldl throttleTick s) 0x70 0 0

end Sys2Proof.Machine
end

