-- ==== Sys2Proof/Safety.lean ====
section
/-! DEFINITION. The terms the statements use: the canonical forms a reachable state has, what a command leaves as it was, and what a
safe run is. -/

namespace Sys2Proof

open Machine

/-- A sparse table is in its canonical form under the value `d k` an unlisted index `k` reads as. -/
abbrev Canonical {α : Type} [DecidableEq α] (d : Nat → α) (m : SMap α) : Prop :=
  risingFrom 0 m = true ∧ ∀ p ∈ m, p.2 ≠ d p.1

/-- The stored entries of the dictionary are in canonical form: indexes strictly rising, no entry equal to its default. -/
abbrev OdTidy (s : State) : Prop := Canonical odDefault s.od

/-- Both packet memories are in canonical form. -/
abbrev MemoriesTidy (s : State) : Prop :=
  Memory.wf potUnlisted s.mem.pot = true ∧ Memory.wf crockUnlisted s.mem.crock = true

/-- Of the entries of the dictionary only those of `ks` may differ. -/
def OnlyEntries (s t : State) (ks : List Nat) : Prop := ∀ k, k ∉ ks → reg t k = reg s k

/-- The entries any command may move on the side: the performance counters (R364), the cause register of the observation block with
its counter and record overflows (R364, R375), key 0, which names no entry, the count of pulses (R380), and the marks of the firmware event queue (R383). -/
def sideEntry (k : Nat) : Bool :=
  k == 0 || (decide (0x510000 ≤ k) && decide (k < 0x511000)) || k == Reg.obsCause || k == Reg.evtPulses || k == Reg.evtFwQueueHigh ||
    k == Reg.evtFwQueueLost || k == Reg.ensRecordsDropped || k == Reg.ensPostcardsSuppressed

/-- Between `s` and `t` only the entries of `ks` and what events bring on the side may differ: side entries, the event system, the
records of the observation block, and outputs. Everything else of the state is as it was. -/
def Noted (ks : List Nat) (s t : State) : Prop :=
  t = { s with od := t.od, evt := t.evt, obs := t.obs, sent := t.sent } ∧
  (OdTidy s → OdTidy t) ∧ ∀ k, sideEntry k = false → k ∉ ks → reg t k = reg s k

/-- The free store gives a unit of the pool `n`, and no word of the bitmap is lost (R208, R209). -/
abbrev HasCell (s : State) (n : Nat) : Prop :=
  (badWords s 4).isEmpty = true ∧ (match allocUnit s n with | .unit _ _ => true | _ => false) = true

/-- The command `c` answers the state `t`, with no fault and no refusal. -/
def Answers (c : Instr) (s t : State) : Prop := exec c s = .next t

/-- A client's write of a fixed-size entry passes every check of R394 that comes before the chapter's own rule. -/
abbrev Permitted (s : State) (c : Client) (k v : Nat) : Prop := writeChecks s c k v = none ∧ inRange k v = true

/-- The OK that answers a client. -/
def okTo (c : Client) : Emission := .status (callerOf c) 0 []

/-- The command stores the writable bits of the value in the entry, answers OK, and changes nothing else. -/
def Stores (i : Instr) (s : State) (c : Client) (k v : Nat) : Prop := Answers i s (emit (setReg s k (writable k v)) (okTo c))

/-- The command takes effect as `t` and answers OK. -/
def Does (i : Instr) (s : State) (c : Client) (t : State) : Prop := Answers i s (emit t (okTo c))

/-- The command is turned away with a status: nothing changes but the client's record of the failure, and the status goes out (R394,
R403). -/
def TurnedAway (i : Instr) (s : State) (c : Client) (k : Nat) (st : Status) : Prop :=
  Answers i s (emit (noteFailure s c k st) (.status (callerOf c) st.code []))

/-- A start of a job entry passes the checks before the chapter's own rule (R410). -/
def MayStart (s : State) (c : Client) (k : Nat) : Prop := jobStart s c k .done = .done s

/-- The status word goes out to the client that started a job (R410). -/
def answeredWord (s : State) (c : Client) (k : Nat) : State := emit s (.status (callerOf c) 0 (beBytes 8 (job s k).word))

/-- A client may read a whole DOMAIN value now (R407, R408). -/
abbrev MayReadValue (s : State) (c : Client) (k : Nat) : Prop :=
  readable s c k (fun t => t != .domain) = none ∧ s.dict.transfers.any (fun t => t.2.entry == k) = false

/-- No protected word differs from what was written, and no fault is armed (R487, R498): the ordinary case of every rule that reads the
arrays. -/
abbrev Sound (s : State) : Prop := s.integ.bad = [] ∧ reg s Reg.intInject = 0

/-- One record of a load job has been applied (R154): the job is one record further, and its count of applied records is one more. -/
abbrev RecordTaken (j : LoadJob) (s t : State) : Prop :=
  (job t j.job).progress = (job s j.job).progress + 1 ∧ (job t j.job).phase = (job s j.job).phase + 1 ∧
  reg t j.done = reg s j.done + 1

/-- The running job of `k` has completed with a result (R409). -/
abbrev JobCompleted (t : State) (k result : Nat) : Prop := (job t k).state = 2 ∧ (job t k).result = result

/-- The message of a type that waits in a function's mailbox (R405, R416). -/
abbrev Asked (s : State) (fn ty : Nat) (m : List Byte) : Prop :=
  mailboxMessage s fn (fun m => msgType m == ty && !msgIsResponse m) = some m

/-- Nothing waits for a response to leave: no session closes and no restart begins with it (R417, R464). -/
abbrev Quiet (s : State) : Prop := s.dict.closeDue = false ∧ s.fw.restartDue = false

/-- The response `a` stands in the function's mailbox (R405), and nothing else differs from `u` but the cause of its completion. -/
def Replied (u t : State) (fn : Nat) (a : List Byte) : Prop :=
  (mailbox t fn).state = 2 ∧ (mailbox t fn).len = a.length ∧ (mailbox t fn).response.take a.length = a ∧
  Noted [Reg.odCause, callerKey fn Reg.vfCause] u { t with dict.mailboxes := u.dict.mailboxes }

/-- Start-up has begun from a reset of a kind (R477, R481, R483): fuses and flash are kept, everything else is as at reset. -/
def Restarted (s t : State) (kind straps : Nat) : Prop :=
  reg t Reg.pwrLastReset = kind ∧ reg t (Reg.pwrResetCount kind) = 1 ∧ reg t Reg.idStraps = straps % 256 ∧
  (∀ k < 2 ^ 24, k ∉ [Reg.pwrLastReset, Reg.pwrResetCount kind, Reg.idStraps, Reg.fwRegionState] →
    reg t k = if isFuse k = true then reg s k else odDefault k) ∧
  t = { State.reset with
    od := t.od, blocks := t.blocks, pending := s.pending, freeCtr := s.freeCtr, sent := s.sent, dict := t.dict, fw := t.fw } ∧
  t.dict.store = s.dict.store ∧ t.dict.fuseCounts = s.dict.fuseCounts ∧ t.dict.deviceKey = s.dict.deviceKey ∧
  t.dict.torn = s.dict.torn ++ s.dict.burns ∧ t.dict.sessions = [] ∧ t.dict.jobs = [] ∧ t.fw.image = s.fw.image ∧
  t.fw.bootCause = kind

/-- A management restart has begun (R464, R481): firmware jobs, transfers and sessions are over, and the loader boots for a cause. -/
def MgmtRestarted (t : State) (cause : Nat) : Prop :=
  t.fw.bootDue = true ∧ t.fw.bootCause = cause ∧ t.fw.running = false ∧ t.fw.restarted = true ∧ t.dict.sessions = [] ∧
  t.dict.transfers = []

/-- A safe run: every step from here answers a next state. -/
def StepsOn (s : State) : Prop := ∃ t, step s = .next t

/-- The sum of the values a table lists. -/
def total (m : SMap Nat) : Nat := (m.map (·.2)).sum

/-- The counted writes are accounted for (R399, R400, R401): no entry has taken more than it permits, at most one write of an entry
burns at a time, and every count taken is in the log, burning, or torn and waiting for the log. -/
abbrev CountedTidy (s : State) : Prop :=
  Canonical (fun _ => 0) s.dict.fuseCounts ∧
  (∀ k, mget 0 s.dict.fuseCounts k ≤ cwPlaces k) ∧
  (s.dict.burns.map (·.entry)).Nodup ∧
  total s.dict.fuseCounts = s.dict.cwLog.length + s.dict.burns.length + s.dict.torn.length

/-! ### What may change each part

A command through which a client can reach any entry, or that begins a management restart, may change what those entries hold; the
others change a part only when it is theirs. -/

/-- The commands of the resets, and of JTAG, which holds the device in reset and lets it start up again (R477, R525). -/
def isReset : Instr → Bool
  | .powerOnReset .. | .pinReset .. | .powerLoss | .jtagExtest | .jtagExtestPulse | .jtagExtestTrain | .jtagClamp | .jtagHighz
  | .jtagBypass .. | .jtagIdcode .. | .jtagSamplePreload .. | .jtagTestExit .. => true
  | _ => false

/-- Messages, writes over the direct map, and what restarts the firmware (R402, R416, R464). -/
def reachesEntries : Instr → Bool
  | .registerWrite .. | .synsaRead .. | .synsaWrite .. | .domainBegin .. | .domainSegment .. | .domainEnd .. | .jobStart ..
  | .jobStatus .. | .discoverProbe .. | .synsaRelay .. | .fwInstall .. | .mgmtRestartLFall | .fwRestart .. | .fwWatchdogExpiry => true
  | _ => false

/-- The lookup tables (ch. 6): their load job and its records, rebuilds, the pivot move. -/
def touchesLookups : Instr → Bool
  | .lkpApply .. | .routeAdd | .routeDelete | .routeReplace | .exactAdd | .exactDelete | .exactReplace | .adjacencyWrite
  | .groupWrite | .memberWrite | .actionProfileWrite | .compatibilitySlotWrite | .lpmSubtreeSwitch .. | .lpmSubtreeFree ..
  | .lkpPivotMove .. | .pivotOldCopiesRemove | .jobStart .. | .synsaRelay .. => true
  | _ => false

/-- The associative search (ch. 7): its load job, update steps and scrubber; and frames, whose LMAC it may hold back (R179). -/
def touchesAse : Instr → Bool
  | .rxFrameStart .. | .lmacDrainResume .. | .aseApply .. | .aseInsert | .aseDelete | .aseReplace | .aseMembership
  | .aseRegionCreate | .aseRegionDelete | .aseActionProfileWrite | .aseCopyStep .. | .aseWriteStep .. | .aseSweepStart ..
  | .aseScrubRead .. | .jobStart .. | .synsaRelay .. => true
  | _ => false

/-- The classification stores (ch. 5): passes, which learn, and the writes of the stores. -/
def touchesClassification : Instr → Bool
  | .ingressPass .. | .egressRun .. | .clsEpochSwap .. | .clsDirectTableWrite .. | .clsRewriteProfilesWrite ..
  | .learnNoticesRead .. | .domainEnd .. | .jobStart .. | .synsaRelay .. => true
  | _ => false

/-- The clocks (ch. 2). -/
def touchesClocks : Instr → Bool
  | .crossing .. | .governorInterval .. | .timeConfigWrite .. | .countedWriteComplete .. | .vfFlr .. | .vfReset ..
  | .vfEnableClear | .pfFlr | .pcieHotReset | .pcieLinkChange .. | .settingsReload | .retentionEnter .. | .retentionExit ..
  | .datapathReset .. | .islandReset .. => true
  | c => reachesEntries c

/-- The line lanes (ch. 3). -/
def touchesLanes : Instr → Bool
  | .lineLaneSignalChange .. | .lanePrbsModeWrite .. | .prbsLockLost .. | .countedWriteComplete .. | .vfFlr .. | .vfReset ..
  | .vfEnableClear | .pfFlr | .pcieHotReset | .pcieLinkChange .. | .retentionExit .. | .datapathReset .. | .prbsCheckerLock .. => true
  | c => reachesEntries c

/-- The host side (ch. 17). -/
def touchesHost : Instr → Bool
  | .registerWrite .. | .dequeue .. | .synsaWrite .. | .jobStart .. | .synsaRelay .. | .puntDma .. | .puntDoorbell ..
  | .injectDoorbell .. | .injectFetch .. | .injectBuild .. | .hostReadCompletion .. | .ringInterrupt .. | .ringConfigWrite ..
  | .hostPuntBindWrite .. | .vfFlr .. | .vfReset .. | .vfEnableClear | .pfFlr | .pcieHotReset | .pcieLinkChange ..
  | .counterExport .. | .hostCompletionTimeout .. => true
  | _ => false

/-- Firmware and loader (ch. 18). -/
def touchesFirmware : Instr → Bool
  | .loaderBoot .. | .recoverySeek .. | .relayPoll .. | .imageFetchComplete .. | .mgmtRestartLRise | .firmwareStart ..
  | .loaderSectorCheck .. | .mgmtRamError .. => true
  | c => reachesEntries c

/-- Power and start-up (ch. 19). -/
def touchesPower : Instr → Bool
  | .hbmInit .. | .jobStart .. | .synsaRelay .. | .countedWriteComplete .. | .loaderBoot .. | .firmwareStart ..
  | .fuseSenseComplete | .loaderSectorCheck .. | .settingsReload | .avsEvaluate .. | .retentionEnter .. | .retentionExit ..
  | .datapathReset .. | .islandReset .. | .tempRead .. => true
  | _ => false

/-- Board I/O (ch. 21). -/
def touchesBoard : Instr → Bool
  | .settingsReload | .refclkLoss .. | .ppsInEdge .. | .ppsOutPulse | .gpioWrite .. | .ioI2cXfer .. | .ioMdioXfer .. => true
  | c => reachesEntries c

end Sys2Proof
end

