-- ==== Sys2Proof/Certificates/Slice0/Obligations.lean ====
section
/-! DEFINITION. The statements about the block, chapter by chapter of the spec. `Answers c s t`: the command `c` completes at `s` with the
next state `t`. `Noted ks s t`: between `s` and `t` nothing differs but the entries of `ks` and what events bring on the side. -/

open Sys2Proof Sys2Proof.Machine

/-! ### The machine -/

/-- A step takes the command at the front of the queue and runs it with the rest of the queue waiting. -/
def Obligations.StepRunsFrontCommand : Prop :=
  ∀ (c : Instr) (rest : List Instr) (s : State),
    Machine.step { s with pending := c :: rest } = Machine.exec c { s with pending := rest }

/-- On an empty queue a nanosecond of TIME passes (the model's choice, notes/assumptions/5): the step answers a next state in which TIME
is one more, and the packet memories, the packets and the queue are as they were. -/
def Obligations.IdleStepIsANanosecond : Prop :=
  ∀ s : State, s.pending = [] → ∃ t, Machine.step s = .next t ∧ t.time = s.time + 1 ∧ t.pending = [] ∧ t.mem = s.mem ∧
    t.pkts = s.pkts ∧ t.outs = s.outs ∧ t.qm = s.qm ∧ t.dict = s.dict

/-- Every command completes: the one stop is a power-on whose rails break R468. That stop is the model's reading of R501
(notes/assumptions/64); that a happening which cannot occur completes and changes nothing is its choice (11). -/
def Obligations.EveryCommandCompletes : Prop :=
  (∀ (c : Instr) (s : State), (∀ n, c ≠ .powerOnReset false n) → ∃ t, Machine.exec c s = .next t) ∧
  (∀ (n : Nat) (s : State), Machine.exec (.powerOnReset false n) s = .fault .outsideRatings)

/-! ### Clock islands (ch. 2) -/

/-- Mode and floor writes of an island store the value (in use from the next governor interval, R50), and a write of `pin_all_scalable`
sets `island_mode` of all 72 scalable islands as one action; each answers OK and changes nothing else. An item that crosses into a
scalable island wakes it when it is stopped, at its floor step, and counts the wake (R33); with 8 or more of its 16 slots occupied the
island steps to 16 (R31); a late generator latches the island's number (R51). -/
def Obligations.IslandSettingsAndCrossings : Prop :=
  (∀ (s : State) (c : Client) (n v : Nat),
      (Permitted s c (Reg.islandMode n) v → Stores (.islandModeWrite c n false v) s c (Reg.islandMode n) v) ∧
      (Permitted s c (Reg.islandFloorStep n) v → Stores (.islandModeWrite c n true v) s c (Reg.islandFloorStep n) v) ∧
      (OdTidy s → Permitted s c Reg.pinAllScalable v → ∃ t, Does (.pinAllScalableWrite c v) s c t ∧ t = { s with od := t.od } ∧
        (∀ m ∈ scalable, reg t (Reg.islandMode m) = v) ∧ OnlyEntries s t (scalable.map Reg.islandMode)) ∧
      Answers (.timeConfigWrite v) s { s with clk.timeDue := s.clk.timeDue ++ [(s.time + 3, v % 2 ^ 64)] }) ∧
  (∀ (s : State) (n occ : Nat) (late : Bool), OdTidy s → n ≤ 119 → occ ≤ 16 → reg s Reg.pwrState ≠ 2 → s.pwr.islReset ≠ some n →
      ∃ t, Answers (.crossing n occ late) s t ∧
        Noted [Reg.islandWakeCount n, Reg.clockFaultIsland] s { t with clk := s.clk } ∧
        (n ∈ scalable →
          (isl t n).stopped = false ∧
          (8 ≤ occ → (isl t n).step = 16) ∧
          (occ < 8 → (isl t n).step = if (isl s n).stopped then (isl s n).floor else (isl s n).step) ∧
          reg t (Reg.islandWakeCount n) = if (isl s n).stopped then (reg s (Reg.islandWakeCount n) + 1) % 2 ^ 64
            else reg s (Reg.islandWakeCount n)) ∧
        (n ∉ scalable → t.clk = s.clk) ∧
        (late = true → reg t Reg.clockFaultIsland = n))

/-- The governor of a running island in proportional mode (R31): with u = min(⌊65536 · busy / total⌋, 65535) it takes the target clamp(⌈k
· u · 4 / (3 · 65536)⌉, floor, 16), goes up to it at once and down to it one step an interval; a pinned island runs at step 16 (R34); and
a step between 4 and 16 stays between 4 and 16 (R30). -/
def Obligations.GovernorStepsTowardsTarget : Prop :=
  ∀ (s : State) (n busy tot : Nat), n ∈ scalable → reg s Reg.pwrState = 0 → timeNs s % 1000 = 0 → busy ≤ tot → 0 < tot →
    s.pwr.islReset ≠ some n → 4 ≤ reg s (Reg.islandFloorStep n) → reg s (Reg.islandFloorStep n) ≤ 16 →
    4 ≤ (isl s n).step → (isl s n).step ≤ 16 →
    ∃ t, Answers (.governorInterval n busy tot) s t ∧ 4 ≤ (isl t n).step ∧ (isl t n).step ≤ 16 ∧
      (flag s (Reg.islandMode n) = true → (isl t n).step = 16 ∧ (isl t n).stopped = false) ∧
      (flag s (Reg.islandMode n) = false → (isl s n).stopped = false → reg s (Reg.islandFloorStep n) ≤ (isl s n).step →
        (isl t n).step =
          (let u := min (65536 * busy / tot) 65535
           let target := min (max (((isl s n).step * u * 4 + 196607) / 196608) (reg s (Reg.islandFloorStep n))) 16
           if (isl s n).step < target then target else if target < (isl s n).step then (isl s n).step - 1 else (isl s n).step))

/-! ### Line ports (ch. 3) -/

/-- A `port_mode` or `port_fec` written while the port is administratively up is held: the entry stores it and nothing else changes; while
it is down it takes effect at once (R53, R56). A value with a FEC the mode does not permit is refused (R53). -/
def Obligations.PortModeAndFecWrites : Prop :=
  ∀ (s : State) (c : Client) (p v : Nat), OdTidy s → p < 1024 → p % 32 < 8 →
    (Permitted s c (Reg.portMode p) v → v ≤ 0x10 → fecPermitted v (reg s (Reg.portFec p)) = true →
      (v = 0 ∨ (firstLane p % modeLanes v = 0 ∧
        ∀ q ∈ nativeSlots (lmacOf p), q ≠ p → ∀ l ∈ lanesInUse s q, l ∉ laneRange p v)) →
      (reg s (Reg.portAdminUp p) ≠ 0 → Does (.portModeWrite c p v) s c (setReg s (Reg.portMode p) v)) ∧
      (reg s (Reg.portAdminUp p) = 0 → reg s (Reg.portLinkUp p) = 0 → bits (reg s (Reg.portFlexeGroup p)) 31 30 ≠ 1 →
        Does (.portModeWrite c p v) s c (setReg (setPort (setReg s (Reg.portMode p) v) p { port s p with
          mode := v, fec := reg s (Reg.portFec p), blockLock := (port s p).blockLock && v == (port s p).mode,
          condSince := none }) (Reg.portRole p) (if v = 0 then 0 else 1)))) ∧
    (Permitted s c (Reg.portMode p) v → fecPermitted v (reg s (Reg.portFec p)) = false →
      TurnedAway (.portModeWrite c p v) s c (Reg.portMode p) .refused) ∧
    (Permitted s c (Reg.portFec p) v → v ≤ 3 → fecPermitted (reg s (Reg.portMode p)) v = true → reg s (Reg.portAdminUp p) ≠ 0 →
      Does (.portFecWrite c p v) s c (setReg s (Reg.portFec p) v)) ∧
    (Permitted s c (Reg.portFec p) v → fecPermitted (reg s (Reg.portMode p)) v = false →
      TurnedAway (.portFecWrite c p v) s c (Reg.portFec p) .refused)

/-- A write of 0 to `port_admin_up` takes the link down and lets a held mode and FEC take effect (R56); a write of 1 starts the wait of
R57 when every link condition holds. The link comes up when its conditions have held for `port_link_up_hold_ms` (R57): `port_link_up`
reads 1, and nothing but that entry, the port's cause register and the side changes. A PCS that loses lock on a port that is up, with no
frame in progress, takes the link down. A line lane stores its signal and its FEC lock. -/
def Obligations.LinksComeUpAndGoDown : Prop :=
  (∀ (s : State) (c : Client) (p : Nat), OdTidy s → p < 1024 → p % 32 < 8 →
      (Permitted s c (Reg.portAdminUp p) 0 → bits (reg s (Reg.portFlexeGroup p)) 31 30 ≠ 1 → ∃ t,
        Does (.portAdminUpWrite c p 0) s c t ∧ reg t (Reg.portAdminUp p) = 0 ∧ reg t (Reg.portLinkUp p) = 0 ∧
        (port t p).mode = (if (port s p).mode ≠ reg s (Reg.portMode p) ∨ (port s p).fec ≠ reg s (Reg.portFec p) then
          reg s (Reg.portMode p) else (port s p).mode) ∧ (port t p).condSince = none) ∧
      (Permitted s c (Reg.portAdminUp p) 1 →
        ∀ u, u = setReg (setPort s p { port s p with parked := false }) (Reg.portAdminUp p) 1 → linkCond u p = true →
          Does (.portAdminUpWrite c p 1) s c (setPort u p { port u p with condSince := some ((port u p).condSince.getD s.time) }))) ∧
  (∀ (s : State) (p : Nat), OdTidy s → p < 1024 →
      (∀ since, (port s p).condSince = some since → linkUp s p = false → linkCond s p = true →
        since + reg s (Reg.portLinkUpHoldMs p) * 1000000 ≤ s.time →
        ∃ t, Answers (.linkUp p) s t ∧ reg t (Reg.portLinkUp p) = 1 ∧ bit (reg t (Reg.portCause p)) 1 = true ∧
          Noted [Reg.portLinkUp p, Reg.portCause p] s t) ∧
      (p % 32 < 8 → linkUp s p = true → reg s (Reg.portRole p) = 1 → (port s p).rx = none → (port s p).tx = none →
        ∃ t, Answers (.linkDown p) s t ∧ reg t (Reg.portLinkUp p) = 0 ∧ bit (reg t (Reg.portCause p)) 0 = true ∧
          t.ports = mset {} (mset {} s.ports p { port s p with blockLock := false }) p
            { port s p with blockLock := false, condSince := none } ∧
          Noted [Reg.portLinkUp p, Reg.portCause p] s { t with ports := s.ports }) ∧
      (∀ l sg fl bl lf rf, l < 256 → laneOwner s l = none → ∃ t, Answers (.lineLaneSignalChange l sg fl bl lf rf) s t ∧
        reg t (Reg.laneSignal l) = b2n sg ∧ (mget {} t.lanes l).fecLock = fl ∧
        Noted [Reg.laneSignal l, Reg.laneCause l] s { t with lanes := s.lanes }))

/-- At the first byte of a frame the MAC admits it when the receive buffer has room for M (R63); the frame is in reception and, unless it
is consumed or filtered, stands as a packet with the bytes that came, as long as its pool has a cell for them (R218). Without room it is
not admitted. The end of a frame that was admitted (R62): a frame of 64 to M bytes with a good FCS is accepted, its bytes without the FCS
stand as the packet's, and its MAC is free; one not admitted is only counted. The drain of an LMAC's receive buffer resumes (R528): an
empty one is no longer paused, a frame at its head that may not cross keeps its place, and a single one that may crosses with its headroom
charged. -/
def Obligations.ReceiveMac : Prop :=
  (∀ (s : State) (p frac : Nat) (w v : List Byte) (holding : Bool), canReceive s p = true → s.pwr.flushing = false →
      v = w.take (max 128 (maxFrame s p)) →
      (bufferTaken s (lmacOf p) + maxFrame s p ≤ 524288 →
        ∃ t, Answers (.rxFrameStart p w frac holding) s t ∧ t.led.aLine = s.led.aLine + 1 ∧
          (port t p).rx = some {
            pkt := s.nextPkt, admitted := true, maxFrame := maxFrame s p, win := v,
            reason := earlyReason (flag s (Reg.portDaFilterOn p)) (filterEntries s p) v,
            filterOn := flag s (Reg.portDaFilterOn p), filter := filterEntries s p } ∧
          (earlyReason (flag s (Reg.portDaFilterOn p)) (filterEntries s p) v = 0 →
            t.nextPkt = s.nextPkt + 1 ∧ ∀ k, pkt? t s.nextPkt = some k → k.origin = .line p ∧ k.inPort = p ∧
              k.win = v.take 128 ∧ k.data = v ∧ k.maxFrame = maxFrame s p ∧ k.len = none) ∧
          (HasCell s (rxPool s p) ∧ v.length ≤ 256 ∨ (mget {} s.lmacs (lmacOf p)).held ≠ [] ∨
              earlyReason (flag s (Reg.portDaFilterOn p)) (filterEntries s p) v ≠ 0 →
            t.led.oRx = s.led.oRx + 1 ∧
            (earlyReason (flag s (Reg.portDaFilterOn p)) (filterEntries s p) v = 0 → (pkt? t s.nextPkt).isSome = true))) ∧
      (524288 < bufferTaken s (lmacOf p) + maxFrame s p →
        ∃ t rx, Answers (.rxFrameStart p w frac holding) s t ∧ (port t p).rx = some rx ∧ rx.admitted = false ∧
          (rx.reason = 6 ∨ rx.reason = 22) ∧ t.pkts = s.pkts)) ∧
  (∀ (s : State) (p : Nat) (f : List Byte) (rx : Rx), (port s p).rx = some rx →
      rx.win = f.take rx.win.length → min 128 f.length ≤ rx.win.length →
      (∀ k, rx.admitted = true → rx.reason = 0 → 64 ≤ f.length → f.length ≤ rx.maxFrame → fcsGood f = true →
        pkt? s rx.pkt = some k → k.draws = [] → k.posts = [] →
        ∃ t, Answers (.rxFrameEnd p f) s t ∧ (port t p).rx = none ∧ ∀ d, d = { k with
            len := some (f.length - 4), data := f.take (f.length - 4), bad := some 0,
            hrCells := if k.hrPool = 32 then 0 else ceilDiv (f.length - 4) 256 } →
          (k.stage = .held ∨ cellsFor (f.length - 4) ≤ k.cells.length → pkt? t rx.pkt = some d) ∧
          (∀ k', k.stage ≠ .held → pkt? t rx.pkt = some k' → k'.bad = some 0 →
            k' = { d with cells := k'.cells } ∧ k.cells <+: k'.cells ∧ cellsFor (f.length - 4) ≤ k'.cells.length)) ∧
      (rx.admitted = false → ∃ t, Answers (.rxFrameEnd p f) s t ∧ (port t p).rx = none ∧ t.pkts = s.pkts ∧ t.led = s.led)) ∧
  (∀ (s : State) (n : Nat),
      ((mget {} s.lmacs n).held = [] → Answers (.lmacDrainResume n) s
        { s with ase.hold := mset false s.ase.hold (n / 2) false, lmacs := mset {} s.lmacs n {} }) ∧
      (∀ i r k, (mget {} s.lmacs n).held = i :: r → pkt? s i = some k →
        mayCross { s with ase.hold := mset false s.ase.hold (n / 2) false } k.inPort k.maxFrame = false →
        Answers (.lmacDrainResume n) s { s with ase.hold := mset false s.ase.hold (n / 2) false }) ∧
      (∀ i k, (mget {} s.lmacs n).held = [i] → pkt? s i = some k →
        mayCross { s with ase.hold := mset false s.ase.hold (n / 2) false } k.inPort k.maxFrame = true →
        ∃ t, Answers (.lmacDrainResume n) s t ∧ (mget {} t.lmacs n).held = [] ∧
          (k.cells = [] → k.data.length ≤ 256 → HasCell s (sourcePool s k) → (pkt? t i).isSome = true) ∧
          (∀ k', pkt? t i = some k' → cellsFor k.data.length ≤ k'.cells.length ∧ k' = { k with
            stage := .window, cells := k'.cells,
            hrPool := rxPool s k.inPort, hrCells := ceilDiv (k.len.getD k.maxFrame) 256 })))

/-- Pause states and the egg timer (R70, R71, R72): a state ends when its time runs out; an XOFF is sent again with `port_pause_quanta`
when half of its time has passed; a state that has lasted `port_egg_time_ms` is ended and held off, and the hold ends after
`port_egg_hold_ms`. -/
def Obligations.PauseTimers : Prop :=
  ∀ (s : State) (p st : Nat), OdTidy s → p < 1024 →
    (∀ x, mfind (port s p).pause st = some x → x.ends ≤ s.time →
      Answers (.pauseTimeExpiry p st) s (setPort s p { port s p with pause := mdel (port s p).pause st })) ∧
    (∀ x, mfind (port s p).xoff st = some x → quantaNs s p (reg s (Reg.portPauseQuanta p)) ≤ 2 * (s.time - x) →
      ∃ t, Answers (.pauseResend p st) s t ∧ mfind (port t p).xoff st = some s.time ∧
        (linkUp s p = true → (port s p).tx = none → ∃ sa, t.sent.head? = some (.frame p (pauseFrame sa (st != 8)
          (if st = 8 then 0 else 2 ^ st) (reg s (Reg.portPauseQuanta p))) true))) ∧
    (∀ x, mfind (port s p).pause st = some x → s.time < x.ends → timeNs s % 1000 = 0 → flag s (Reg.portEggEnable p) = true →
      reg s (Reg.portEggTimeMs p) * 1000 ≤ ticksSince s x.since →
      ∃ t, Answers (.eggTimerFire p st) s t ∧ mfind (port t p).pause st = none ∧ mfind (port t p).eggHold st = some s.time ∧
        reg t (Reg.portEggState p) = setBit (reg s (Reg.portEggState p)) st ∧ bit (reg t (Reg.portCause p)) 2 = true ∧
        reg t (key (0x2000 + p) 0x4F) = (reg s (key (0x2000 + p) 0x4F) + 1) % 2 ^ 64) ∧
    (∀ x, mfind (port s p).eggHold st = some x → timeNs s % 1000 = 0 → reg s (Reg.portEggHoldMs p) * 1000 ≤ ticksSince s x →
      Answers (.eggHoldEnd p st) s (setReg (setPort s p { port s p with eggHold := mdel (port s p).eggHold st })
        (Reg.portEggState p) (clearBit (reg s (Reg.portEggState p)) st)))

/-- The transmit MAC (R67, R68, R69): the next frame of a port whose link is up starts when nothing holds it; a good one ends with its
correct FCS, padded to 64 bytes, and the MAC is free; one that the ingress MAC discarded ends with the complement of its FCS. -/
def Obligations.TransmitMac : Prop :=
  ∀ (s : State) (p i frac : Nat) (o : Out) (k : Pkt), mfind s.outs i = some o → pkt? s o.ref.pkt = some k →
    (∀ rest, (port s p).dq = i :: rest → o.egressDone = true → (port s p).tx = none → linkUp s p = true → farLooped s p = false →
      k.bad.getD 0 = 0 → startHeld s p o.queue = false → (o.ref.cut && cutHeld s p k) = false →
      Answers (.txFrameStart p frac) s (setPort s p { port s p with
        dq := rest,
        tx := some { out := i, startAt := s.time, cut := !k.ended, frac := frac % 65536 } })) ∧
    (∀ x, (port s p).tx = some x → x.out = i → x.cut = false → (k.ended = true ∨ k.bad.isSome = true) →
      (k.bad.getD 0 = 0 → o.ptp = 0 → (txBody s o k).length + 4 ≤ maxFrame s p →
        ∃ t, Answers (.txFrameEnd p) s t ∧ (port t p).tx = none ∧
          .frame p (withFcs (padTo (txBody s o k) (max (txBody s o k).length 60))) true ∈ t.sent) ∧
      (k.bad.getD 0 ≠ 0 → (txBody s o k).length + 4 ≤ maxFrame s p →
        ∃ t, Answers (.txFrameEnd p) s t ∧ (port t p).tx = none ∧ .frame p (withBadFcs (txBody s o k)) false ∈ t.sent))

/-- Reads of the time-stamp FIFO and of the main statistics answer what they hold and clear it (R73, R79); a read of the PRBS error count
answers it with the errors seen since and clears it (R80). FlexE and the lane tests (R60, R77, R78, R81): a calendar switch job holds the
clients and asks the far end; its acknowledgement changes the calendars over and completes the job, its timeout ends the job with the
calendar as it was; a group fault sets its cause; PRBS and loopback modes are stored. The layout of `port_flexe_group` is the model's
reading (notes/assumptions/14). -/
def Obligations.PortReadsFlexeAndTests : Prop :=
  (∀ (s : State) (c : Client) (p n e : Nat),
      (MayReadValue s c (Reg.portTsFifo p) → Answers (.portTsFifoRead c p) s
        (emit (setPort s p { port s p with ts := [] }) (.status (callerOf c) 0 (port s p).ts.flatten))) ∧
      (p < 1024 → n < 16 → readChecks s c (key (0x2000 + p) (0x40 + n)) = none → Answers (.portStatsReadClear c p n) s
        (emit (setReg s (key (0x2000 + p) (0x40 + n)) 0)
          (.status (callerOf c) 0 (valueBytes (key (0x2000 + p) (0x40 + n)) (reg s (key (0x2000 + p) (0x40 + n))))))) ∧
      ((mget {} s.lanes p).prbsLock = false → readChecks s c (Reg.lanePrbsErrors p) = none → Answers (.lanePrbsErrorsRead c p e) s
        (emit (setReg s (Reg.lanePrbsErrors p) 0)
          (.status (callerOf c) 0 (valueBytes (Reg.lanePrbsErrors p) (reg s (Reg.lanePrbsErrors p)))))) ∧
      ((mget {} s.lanes p).prbsLock = true → readChecks (countSat s 32 (Reg.lanePrbsErrors p) e) c (Reg.lanePrbsErrors p) = none →
        ∃ t, Answers (.lanePrbsErrorsRead c p e) s t ∧ reg t (Reg.lanePrbsErrors p) = 0 ∧ t.sent = .status (callerOf c) 0
          (valueBytes (Reg.lanePrbsErrors p) (min (reg s (Reg.lanePrbsErrors p) + e) (2 ^ 32 - 1))) :: s.sent)) ∧
  (∀ (s : State) (c : Client) (p v : Nat), OdTidy s → p < 1024 →
      (reg s (Reg.portRole p) = 2 → MayStart s c (Reg.portFlexeCalSwitch p) → ∃ t, Answers (.flexeCalSwitch c p) s
        (answeredWord (jobBegin t (Reg.portFlexeCalSwitch p)) c (Reg.portFlexeCalSwitch p)) ∧ (port t p).calSwitch = some s.time ∧
        t.sent = .flexeOverhead p (b2n (!(port s p).calB)) :: s.sent) ∧
      (∀ x, (port s p).calSwitch = some x → jobRunning s (Reg.portFlexeCalSwitch p) = true → ∃ t, Answers (.flexeCalSwitchAck p) s t ∧
        (port t p).calB = !(port s p).calB ∧ (port t p).calSwitch = none ∧ (job t (Reg.portFlexeCalSwitch p)).state = 2 ∧
        (job t (Reg.portFlexeCalSwitch p)).result = 0) ∧
      (∀ x, (port s p).calSwitch = some x → x + 100000000 < s.time → jobRunning s (Reg.portFlexeCalSwitch p) = true →
        ∃ t, Answers (.flexeCalSwitchTimeout p) s t ∧ (port t p).calB = (port s p).calB ∧ (port t p).calSwitch = none ∧
        (job t (Reg.portFlexeCalSwitch p)).state = 2) ∧
      (reg s (Reg.portRole p) = 2 → ∃ t, Answers (.flexeGroupFault p) s t ∧ bit (reg t (Reg.portCause p)) 7 = true ∧
        Noted [Reg.portCause p] s t) ∧
      (Permitted s c (Reg.lanePrbsMode p) v → v ≤ 7 → prbsSuits (laneRate s p) v = true → laneOwner s p = none →
        Does (.lanePrbsModeWrite c p v) s c (emit { setReg s (Reg.lanePrbsMode p) v with
          lanes := mset {} s.lanes p { mget {} s.lanes p with prbsLock := false } } (.lanePattern p v))) ∧
      (Permitted s c (Reg.laneLoopback p) v → v ≤ 2 →
        (reg s (Reg.laneLoopback p) = 0 ∨ v = 0 ∨ v = reg s (Reg.laneLoopback p)) →
        Does (.laneLoopbackWrite c p v) s c (setReg s (Reg.laneLoopback p) v)))

/-! ### Parser and classification (ch. 4, 5) -/

/-- A pass of the ingress half (R84, R102, R104): the packet's window has run through the plan, and it either has a descriptor (its stage
is `ready`) or goes round for one more pass, of at most four. The egress half of a dequeued packet or copy (R127): it either leaves the
egress half, discarded or punted, or is ready for the port's transmit MAC with the same reference. Corners of the parse and of the actions
follow notes/assumptions/21, 23 and 26. -/
def Obligations.PassesOfThePlan : Prop :=
  (∀ (s : State) (i : Nat) (k : Pkt), pkt? s i = some k → k.stage = .window → (k.len.isSome = true ∨ 128 ≤ k.win.length) →
      k.pass ≤ 3 → ∃ t k', Answers (.ingressPass i) s t ∧ pkt? t i = some k' ∧
        (k'.stage = .ready ∨ (k'.stage = .window ∧ k'.pass = k.pass + 1 ∧ k'.pass ≤ 3)) ∧
        k'.origin = k.origin ∧ k'.inPort = k.inPort ∧ k'.data = k.data ∧ k'.win = k.win) ∧
  (∀ (s : State) (i : Nat) (o : Out) (k : Pkt), mfind s.outs i = some o → pkt? s o.ref.pkt = some k → nodeKind o.root = 0 →
      o.egressDone = false → ∃ t, Answers (.egressRun i) s t ∧
        (mfind t.outs i = none ∨ ∃ o', mfind t.outs i = some o' ∧ o'.egressDone = true ∧ o'.ref = o.ref ∧ o'.queue = o.queue ∧
          o'.root = o.root))

/-- The epoch swap (R124): the other slot becomes current and the old one retires; it is retired when no packet of it is left, and the job
completes. A swap is busy while a slot is retiring. The stores of classification take a committed value only into the inactive slot (R122,
R131, R529), and `cls_compat_buckets` only a power of two from 2^10 to 2^19 (R119). A commit into the current slot is refused. Learning
notices are read and removed (R407). -/
def Obligations.EpochsAndClassificationWrites : Prop :=
  (∀ (s : State) (c : Client), OdTidy s →
      (MayStart s c Reg.clsEpochSwap → retiring s = false → s.dict.transfers = [] → ∃ t,
        Answers (.clsEpochSwap c) s (answeredWord (jobBegin t Reg.clsEpochSwap) c Reg.clsEpochSwap) ∧
        t = { s with od := t.od, cls.swapAt := s.time } ∧ reg t Reg.clsEpochCurrent = 1 - reg s Reg.clsEpochCurrent ∧
        reg t Reg.clsEpochState = 1 ∧ OnlyEntries s t [Reg.clsEpochCurrent, Reg.clsEpochState]) ∧
      (MayStart s c Reg.clsEpochSwap → retiring s = true → TurnedAway (.clsEpochSwap c) s c Reg.clsEpochSwap .busy) ∧
      (retiring s = true → inflight s (1 - epochNow s) = 0 → ∃ t, Answers .epochRetired s t ∧ reg t Reg.clsEpochState = 0 ∧
        reg t Reg.clsLastRetireNs = (s.time - s.cls.swapAt) % 2 ^ 32 ∧ bit (reg t Reg.clsCause) 0 = true ∧
        (jobRunning s Reg.clsEpochSwap = true → JobCompleted t Reg.clsEpochSwap 0))) ∧
  (∀ (s : State) (c : Client) (e v : Nat) (b : List Byte), Sound s →
      (domainChecks s c (Reg.clsStagePlan e) = none → e ≠ epochNow s → retiring s = false → planOk s b = true →
        Does (.clsStagePlanWrite c e b) s c (setBlk s (Reg.clsStagePlan e) b)) ∧
      (domainChecks s c (Reg.clsStagePlan e) = none → e = epochNow s →
        TurnedAway (.clsStagePlanWrite c e b) s c (Reg.clsStagePlan e) .refused) ∧
      (domainChecks s c (Reg.clsDirectTable e) = none → e ≠ epochNow s → retiring s = false → bankLength b 32768 = true →
        (∀ w ∈ entriesOf b, codeOk (w / 2 ^ 64) = true ∧ codeOk (w % 2 ^ 64) = true) →
        Does (.clsDirectTableWrite c e b) s c { s with cls.direct := putEntries s.cls.direct (32768 * e) ((entriesOf b).map entryNamed) }) ∧
      (domainChecks s c (Reg.clsRewriteProfiles e) = none → e ≠ epochNow s → retiring s = false → bankLength b 256 = true →
        (∀ w ∈ entriesOf b, rewriteOk w = true) →
        Does (.clsRewriteProfilesWrite c e b) s c { s with cls.rewrite := putEntries s.cls.rewrite (256 * e) (entriesOf b) }) ∧
      (Permitted s c Reg.clsCompatBuckets v → (∃ n, 10 ≤ n ∧ n ≤ 19 ∧ v = 2 ^ n) → compatEnabled s = false → emEmpty s = true →
        Does (.clsCompatBucketsWrite c v) s c (setReg s Reg.clsCompatBuckets v)) ∧
      (MayReadValue s c Reg.learnNotices → Answers (.learnNoticesRead c) s
        (emit { s with cls.notices := [] } (.status (callerOf c) 0 s.cls.notices.flatten))))

/-! ### Load jobs and lookup tables (ch. 6, 7, 8, 11) -/

/-- A completed transfer into a load entry replaces the load by its whole records (R153, R180, R200, R283), and a job that runs holds its
load. A start of an apply job with a completed load, and no transfer into it open, begins the job with its reports cleared (R154). -/
def Obligations.LoadsAndApplyStarts : Prop :=
  (∀ (s : State) (c : Client) (b : List Byte), b ≠ [] →
      (domainChecks s c Reg.lkpLoad = none → jobRunning s Reg.lkpApply = false → b.length % 64 = 0 → b.length ≤ 65536 * 64 →
        Does (.lkpLoadWrite c b) s c { s with dict.loads := mput s.dict.loads Reg.lkpLoad (chunks 64 (b.length / 64) b) }) ∧
      (domainChecks s c Reg.aseLoad = none → jobRunning s Reg.aseApply = false → b.length % 128 = 0 → b.length ≤ 65536 * 128 →
        Does (.aseLoadWrite c b) s c { s with dict.loads := mput s.dict.loads Reg.aseLoad (chunks 128 (b.length / 128) b) }) ∧
      (domainChecks s c Reg.mtrLoad = none → jobRunning s Reg.mtrApply = false → b.length % 32 = 0 → b.length ≤ 65536 * 32 →
        Does (.mtrLoadWrite c b) s c { s with dict.loads := mput s.dict.loads Reg.mtrLoad (chunks 32 (b.length / 32) b) }) ∧
      (domainChecks s c Reg.qmLoad = none → jobRunning s Reg.qmApply = false → b.length % 32 = 0 → b.length ≤ 65536 * 32 →
        Does (.qmLoadWrite c b) s c { s with dict.loads := mput s.dict.loads Reg.qmLoad (chunks 32 (b.length / 32) b) }) ∧
      (domainChecks s c Reg.lkpLoad = none → jobRunning s Reg.lkpApply = true →
        TurnedAway (.lkpLoadWrite c b) s c Reg.lkpLoad .busy)) ∧
  (∀ (s : State) (c : Client), s.dict.transfers = [] →
      (MayStart s c Reg.lkpApply → (loadOf s lkpJob).isSome = true → jobRunning s Reg.lkpPivotMove = false →
        Answers (.lkpApply (.start c)) s (answeredWord (jobBegin (setReg (setReg (setReg s Reg.lkpApplyDone 0)
          Reg.lkpApplyErrorIndex 0xFFFFFFFF) Reg.lkpApplyErrorCode 0) Reg.lkpApply) c Reg.lkpApply)) ∧
      (MayStart s c Reg.aseApply → (loadOf s aseJob).isSome = true →
        Answers (.aseApply (.start c)) s (answeredWord (jobBegin { setReg (setReg (setReg s Reg.aseApplyDone 0)
          Reg.aseApplyErrorIndex 0xFFFFFFFF) Reg.aseApplyErrorCode 0 with ase.named := 0 } Reg.aseApply) c Reg.aseApply)) ∧
      (MayStart s c Reg.mtrApply → (loadOf s mtrJob).isSome = true →
        Answers (.mtrApply (.start c)) s (answeredWord (jobBegin (setReg (setReg (setReg s Reg.mtrApplyDone 0)
          Reg.mtrApplyErrorIndex 0xFFFFFFFF) Reg.mtrApplyErrorCode 0) Reg.mtrApply) c Reg.mtrApply)) ∧
      (MayStart s c Reg.qmApply → (loadOf s qmJob).isSome = true →
        Answers (.qmApply (.start c)) s (answeredWord (jobBegin (setReg (setReg (setReg s Reg.qmApplyDone 0)
          Reg.qmApplyErrorIndex 0xFFFFFFFF) Reg.qmApplyErrorCode 0) Reg.qmApply) c Reg.qmApply)) ∧
      (MayStart s c Reg.lkpApply → jobRunning s Reg.lkpPivotMove = true →
        TurnedAway (.lkpApply (.start c)) s c Reg.lkpApply .busy))

/-- Route records (R137, R141, R153): an add or a replace that is applied makes the copy of every stripe of the prefix hold the record's
result for later records, a delete removes it, and each counts as applied. -/
def Obligations.RouteRecords : Prop :=
  ∀ (s : State) (r : List Byte), OdTidy s → nextRecord s lkpJob = some r → mayTake s = true → (applyRoute s r).1 = 0 →
    ((byteAt r 0 = 1 → ∃ t, Answers .routeAdd s t ∧ RecordTaken lkpJob s t ∧ ∀ k ∈ stripesOf s (recRoute r),
        ∃ x, mfind t.lkp.want (copyKey k (recRoute r)) = some x ∧ x.res = beAt r 24 4 ∧ x.ext = beAt r 28 8) ∧
     (byteAt r 0 = 3 → ∃ t, Answers .routeReplace s t ∧ RecordTaken lkpJob s t ∧ ∀ k ∈ stripesOf s (recRoute r),
        ∃ x, mfind t.lkp.want (copyKey k (recRoute r)) = some x ∧ x.res = beAt r 24 4 ∧ x.ext = beAt r 28 8) ∧
     (byteAt r 0 = 2 → ∃ t, Answers .routeDelete s t ∧ RecordTaken lkpJob s t ∧ ∀ k ∈ stripesOf s (recRoute r),
        mfind t.lkp.want (copyKey k (recRoute r)) = none))

/-- Exact-match records (R146, R153): an add whose key is not stored takes a free place of its first bucket; a replace writes the record's
result at the place the key is found; a delete empties that place; each counts as applied. Next-hop and profile records (R140, R147, R148,
R149, R153): one that is applied stands at its index, cleared where its valid bit is 0, and counts as applied. -/
def Obligations.ExactAndTableRecords : Prop :=
  (∀ (s : State) (r : List Byte), OdTidy s → nextRecord s lkpJob = some r → mayTake s = true → (applyExact s r).1 = 0 →
      (byteAt r 0 = 4 → ∃ t, Answers .exactAdd s t ∧ RecordTaken lkpJob s t ∧
        ∀ x, emFree s.lkp.em (emHome (emHash (byteAt r 4) (recKey r))) (emB1 s (emHash (byteAt r 4) (recKey r)))
            (emWide (byteAt r 4)) = some x →
          mfind t.lkp.em (emPlace (emHome (emHash (byteAt r 4) (recKey r))) (emB1 s (emHash (byteAt r 4) (recKey r))) x) =
            some { ty := byteAt r 4, key := recKey r, res := beAt r 48 11 }) ∧
      (∀ p, emFind s (byteAt r 4) (recKey r) = some p →
        (byteAt r 0 = 6 → ∃ t, Answers .exactReplace s t ∧ RecordTaken lkpJob s t ∧
          mfind t.lkp.em (emPlace (emHome (emHash (byteAt r 4) (recKey r))) p.1 p.2) =
            some { ty := byteAt r 4, key := recKey r, res := beAt r 48 11 }) ∧
        (byteAt r 0 = 5 → ∃ t, Answers .exactDelete s t ∧ RecordTaken lkpJob s t ∧
          mfind t.lkp.em (emPlace (emHome (emHash (byteAt r 4) (recKey r))) p.1 p.2) = none))) ∧
  (∀ (s : State) (r : List Byte), OdTidy s → nextRecord s lkpJob = some r → mayTake s = true →
      (byteAt r 0 = 7 → (applyAdj s r).1 = 0 → ∃ t, Answers .adjacencyWrite s t ∧ RecordTaken lkpJob s t ∧
        mget 0 t.lkp.adj (beAt r 4 4) = if bit (beAt r 8 16) 127 then beAt r 8 16 else 0) ∧
      (byteAt r 0 = 8 → (applyGroup s r).1 = 0 → ∃ t, Answers .groupWrite s t ∧ RecordTaken lkpJob s t ∧
        mget 0 t.lkp.groups (beAt r 4 4) = if bit (beAt r 8 8) 63 then beAt r 8 8 else 0) ∧
      (byteAt r 0 = 9 → byteAt r 8 = 1 → (applyMembers s r).1 = 0 → ∃ t, Answers .memberWrite s t ∧ RecordTaken lkpJob s t ∧
        mget 0 t.lkp.members (beAt r 4 4) = beAt r 12 4) ∧
      (byteAt r 0 = 10 → (applyProfile s r).1 = 0 → ∃ t, Answers .actionProfileWrite s t ∧ RecordTaken lkpJob s t ∧
        mget 0 t.lkp.profiles (beAt r 4 2) = beAt r 8 16) ∧
      (byteAt r 0 = 11 → (applyCompat s r).1 = 0 → ∃ t, Answers .compatibilitySlotWrite s t ∧ RecordTaken lkpJob s t ∧
        mget 0 t.lkp.compat (beAt r 4 4 * 4 + byteAt r 8) = if bit (beAt r 16 24) 191 then beAt r 16 24 else 0))

/-- A rebuild is switched in, oldest first, and from then on lookups see its change (R141); its old subtree is freed 1 us later. When no
record is left and every change is visible, the apply job ends with APPLY_DONE (R154). The steps of the load jobs (R154): with a record
left that its chapter accepts, a step applies it and counts it; with none left, the job completes with the code of the first refusal. -/
def Obligations.ApplyJobsRunAndEnd : Prop :=
  (∀ (s : State) (k : Nat), OdTidy s → Sound s →
      (∀ x rest v, rebuildsOf s k = x :: rest → x.at0 = none → x.val = some v → ∃ t, Answers (.lpmSubtreeSwitch k) s t ∧
        mfind t.lkp.routes (copyKey k x.key) = some v ∧ rebuildsOf t k = { x with at0 := some s.time } :: rest ∧
        reg t (Reg.lkpRebuilds k) = (reg s (Reg.lkpRebuilds k) + 1) % 2 ^ 64) ∧
      (∀ x rest, rebuildsOf s k = x :: rest → x.at0 = none → x.val = none → ∃ t, Answers (.lpmSubtreeSwitch k) s t ∧
        mfind t.lkp.routes (copyKey k x.key) = none) ∧
      (∀ x rest a, rebuildsOf s k = x :: rest → x.at0 = some a → a + 1000 ≤ s.time →
        Answers (.lpmSubtreeFree k) s (setRebuilds s k rest)) ∧
      (jobRunning s Reg.lkpApply = true → (job s Reg.lkpApply).cancel = false → nextRecord s lkpJob = none → allVisible s = true →
        ∃ t, Answers .lkpApplyEnd s t ∧ JobCompleted t Reg.lkpApply (reg s Reg.lkpApplyErrorCode) ∧
          bit (reg t Reg.lkpCause) 0 = true ∧ Noted [Reg.lkpCause] s { t with dict := s.dict })) ∧
  (∀ (s : State) (r : List Byte), OdTidy s →
      (jobRunning s Reg.qmApply = true → (job s Reg.qmApply).cancel = false → nextRecord s qmJob = some r → (applyQm s r).1 = 0 →
        ∃ t, Answers (.qmApply .step) s t ∧ RecordTaken qmJob s t) ∧
      (jobRunning s Reg.lkpApply = true → (job s Reg.lkpApply).cancel = false → nextRecord s lkpJob = some r → mayTake s = true →
        (applyLkp s r).1 = 0 → ∃ t, Answers (.lkpApply .step) s t ∧ RecordTaken lkpJob s t) ∧
      (jobRunning s Reg.aseApply = true → (job s Reg.aseApply).cancel = false → nextRecord s aseJob = none → s.ase.busy = false →
        ∃ t, Answers (.aseApply .step) s t ∧ JobCompleted t Reg.aseApply (reg s Reg.aseApplyErrorCode)) ∧
      (jobRunning s Reg.mtrApply = true → (job s Reg.mtrApply).cancel = false → nextRecord s mtrJob = none →
        ∃ t, Answers (.mtrApply .step) s t ∧ JobCompleted t Reg.mtrApply (reg s Reg.mtrApplyErrorCode)))

/-- The pivot move (R143): a start takes its argument; a step makes the copies in the new stripe and writes the map; 1 us later the old
copies are removed and the job completes. The dump answers the tables as they are (R155). -/
def Obligations.PivotMove : Prop :=
  ∀ (s : State) (c : Client), OdTidy s →
    (MayStart s c Reg.lkpPivotMove → jobRunning s Reg.lkpApply = false → Answers (.lkpPivotMove (.start c)) s
      (answeredWord (jobBegin { s with lkp.moveFrom := none, lkp.moveArg := reg s Reg.lkpPivotMoveArg } Reg.lkpPivotMove) c
        Reg.lkpPivotMove)) ∧
    (jobRunning s Reg.lkpPivotMove = true → (job s Reg.lkpPivotMove).phase = 0 → (job s Reg.lkpPivotMove).cancel = false →
      (bits s.lkp.moveArg 18 16 = pivotEntry s (s.lkp.moveArg % 65536) ∨
        unitsUsed s (bits s.lkp.moveArg 18 16) + (placedBy s (s.lkp.moveArg % 65536)
          (pivotEntry s (s.lkp.moveArg % 65536))).foldl (fun n x => n + routeUnits x.1 x.2) 0 ≤ stripeUnits) →
      ∃ t, Answers (.lkpPivotMove .step) s t ∧ pivotEntry t (s.lkp.moveArg % 65536) = bits s.lkp.moveArg 18 16 ∧
        t.lkp.moveFrom = some (pivotEntry s (s.lkp.moveArg % 65536)) ∧ (job t Reg.lkpPivotMove).phase = 1) ∧
    (∀ old, s.lkp.moveFrom = some old → jobRunning s Reg.lkpPivotMove = true → (job s Reg.lkpPivotMove).at0 + 1000 ≤ s.time →
      ∃ t, Answers .pivotOldCopiesRemove s t ∧ JobCompleted t Reg.lkpPivotMove 0 ∧ t.lkp.moveFrom = none ∧
        bit (reg t Reg.lkpCause) 5 = true) ∧
    (MayReadValue s c Reg.lkpDump → Answers (.lkpDumpRead c) s (emit s (.status (callerOf c) 0 (lkpDumpBytes s))))

/-- A record of the associative search that every bank of its mask accepts (R163, R169, R172, R180, R181): a region is created above the
high mark or the last one deleted; an action profile is written; an insert queues the write of the region's free row, and a delete, a
replace and a change of membership queue the rewrite of the rule's rows. The update steps of a bank (R169, R170, R171): a copy step writes
a place from the one below it, a write step writes its first row with its record, and each takes one stolen slot. -/
def Obligations.AseRecordsAndSteps : Prop :=
  (∀ (s : State) (k : Nat) (r : List Byte), OdTidy s → stepsQueued s = false → s.ase.busy = false → nextRecord s aseJob = some r → k < 8 →
      byteAt r 1 = 2 ^ k → aseCheck s k r = 0 →
      (byteAt r 0 = 5 → ∃ t, Answers .aseRegionCreate s t ∧ RecordTaken aseJob s t ∧
        (bank t k).regions = (bank s k).regions ++ [{ num := byteAt r 4, base := highMark (bank s k),
                                                      limit := highMark (bank s k) + beAt r 6 2, wide := byteAt r 5 == 1 }]) ∧
      (byteAt r 0 = 6 → ∃ t, Answers .aseRegionDelete s t ∧ RecordTaken aseJob s t ∧
        (bank t k).regions = (bank s k).regions.dropLast) ∧
      (byteAt r 0 = 7 → ∃ t, Answers .aseActionProfileWrite s t ∧ RecordTaken aseJob s t ∧
        mget 0 t.ase.profiles (byteAt r 2) = beAt r 8 16) ∧
      (∀ g row, byteAt r 0 = 1 → regionOf (bank s k) (byteAt r 4) = some g → freeRow (bank s k) g = some row →
        ∃ t, Answers .aseInsert s t ∧ t.ase.busy = true ∧
          (bank t k).steps = [.write row (recordRows r g.wide (byteAt r 5)) (recordAssoc r)]) ∧
      (∀ row, ruleRow (bank s k) (beAt r 2 2) = some row →
        (byteAt r 0 = 2 → ∃ t, Answers .aseDelete s t ∧ t.ase.busy = true ∧
          (bank t k).steps = (rewriteSteps (bank s k) row (fun _ => 0) 0).steps) ∧
        (byteAt r 0 = 3 → ∃ t, Answers .aseReplace s t ∧ t.ase.busy = true ∧
          (bank t k).steps = (rewriteSteps (bank s k) row (fun w => setBits w 15 0 (beAt r 6 2)) (recordAssoc r)).steps) ∧
        (byteAt r 0 = 4 → ∃ t, Answers .aseMembership s t ∧ t.ase.busy = true ∧
          (bank t k).steps = (rewriteSteps (bank s k) row (fun w => setBits w 23 22 (byteAt r 5))
            (mget 0 (bank s k).assoc row)).steps))) ∧
  (∀ (s : State) (k : Nat), OdTidy s → k < 8 →
      (∀ p rest, (bank s k).steps = .copy p :: rest → ∃ t, Answers (.aseCopyStep k) s t ∧
        mget 0 (bank t k).rows (2 * p + 1) = mget 0 (bank s k).rows (2 * (p - 1) + 1) ∧
        reg t (Reg.aseShiftPlaces k) = (reg s (Reg.aseShiftPlaces k) + 1) % 2 ^ 64 ∧
        reg t (Reg.aseUpdateSlots k) = (reg s (Reg.aseUpdateSlots k) + 1) % 2 ^ 64) ∧
      (∀ row w a rest, (bank s k).steps = .write row [w] a :: rest → ∃ t, Answers (.aseWriteStep k) s t ∧
        mget 0 (bank t k).rows row = w ∧ mget 0 (bank t k).shadow row = w ∧ mget 0 (bank t k).assoc row = a ∧
        (bank t k).steps = rest ∧ reg t (Reg.aseUpdateSlots k) = (reg s (Reg.aseUpdateSlots k) + 1) % 2 ^ 64))

/-- The scrubber and the thermometer of a bank (R174, R176, R177, R178): a sweep begins at a multiple of 8 ms; a row that an upset has
changed is written back from its shadow, and the row is latched; a reading sets the throttle level by the table; the budgets are stored.
-/
def Obligations.AseScrubAndTemperature : Prop :=
  ∀ (s : State) (c : Client) (k v : Nat), OdTidy s → k < 8 →
    (timeNs s % 8000000 = 0 → (bank s k).scrub = none → Answers (.aseSweepStart k) s (setBank s k { bank s k with scrub := some 0 })) ∧
    (∀ row found, (bank s k).scrub = some row → Sound s → found % 2 ^ 352 ≠ mget 0 (bank s k).shadow row →
      ∃ t, Answers (.aseScrubRead k (some found)) s t ∧ mget 0 (bank t k).rows row = mget 0 (bank s k).shadow row ∧
        reg t (Reg.aseLastRepairRow k) = row ∧ reg t (Reg.aseScrubRepairs k) = (reg s (Reg.aseScrubRepairs k) + 1) % 2 ^ 64 ∧
        bit (reg t (Reg.aseCause k)) 2 = true ∧ (row < 32767 → (bank t k).scrub = some (row + 1))) ∧
    (timeNs s % 100000 = 0 → ∃ t, Answers (.aseTempRead k v) s t ∧ reg t (Reg.aseTemp k) = v % 2 ^ 32 ∧
      reg t (Reg.aseThrottleLevel k) = throttleAfter (reg s (Reg.aseThrottleLevel k)) (toSigned 32 v) ∧
      Noted [Reg.aseTemp k, Reg.aseThrottleLevel k, Reg.aseCause k] s t) ∧
    (Permitted s c Reg.aseUpdateBudget v → Stores (.aseUpdateBudgetWrite c v) s c Reg.aseUpdateBudget v) ∧
    (Permitted s c Reg.aseScrubBudget v → Stores (.aseScrubBudgetWrite c v) s c Reg.aseScrubBudget v) ∧
    (MayReadValue s c Reg.aseDump → Answers (.aseDumpRead c) s (emit s (.status (callerOf c) 0 (aseDumpBytes s))))

/-! ### Meters and counters (ch. 8) -/

/-- Flow counters (R195, R196, R197): an update adds one packet and its bytes to the pair as one action; a read of the packet count
latches the byte count, which a read of `ctr_bytes` answers; a clear zeroes the pair; a sweep of up to 256 pairs reads them all and
completes with SWEEP_DONE. Meters (R190, R191, R200): a correction gives each bucket the packet drew its difference back, within the
bucket; a configuration is installed as one action with full buckets; the steps of `mtr_apply` install the records in order. -/
def Obligations.CountersAndMeters : Prop :=
  (∀ (s : State) (c : Client) (i : Nat), OdTidy s → Sound s →
      (∀ x, s.mtr.posts.find? (fun x => x.1 == i) = some x → Answers (.counterUpdatePost i) s { s with
        mtr.posts := s.mtr.posts.erase x
        mtr.pkts := mset 0 s.mtr.pkts x.1 (((pairOf s x.1).1 + 1) % 2 ^ 64)
        mtr.bytes := mset 0 s.mtr.bytes x.1 (((pairOf s x.1).2 + x.2) % 2 ^ 64) }) ∧
      (readChecks s c Reg.ctrPkts = none → Answers (.ctrPktsRead c) s (emit { s with mtr.latch := (pairOf s (reg s Reg.ctrSelect)).2 }
        (.status (callerOf c) 0 (valueBytes Reg.ctrPkts (pairOf s (reg s Reg.ctrSelect)).1)))) ∧
      readBytes s c Reg.ctrBytes = (beBytes 8 s.mtr.latch, s) ∧
      (Permitted s c Reg.ctrClear 1 → Does (.ctrClear c 1) s c { s with
        mtr.pkts := mset 0 s.mtr.pkts (reg s Reg.ctrSelect) 0
        mtr.bytes := mset 0 s.mtr.bytes (reg s Reg.ctrSelect) 0 }) ∧
      (MayStart s c Reg.ctrSweep → 0 < reg s Reg.ctrSweepCount → reg s Reg.ctrSweepBase + reg s Reg.ctrSweepCount ≤ 1048576 →
        Answers (.ctrSweep (.start c)) s (answeredWord (jobBegin { setBlk s Reg.ctrSweepData [] with
          mtr.sweepBase := reg s Reg.ctrSweepBase, mtr.sweepCount := reg s Reg.ctrSweepCount,
          mtr.sweepClear := flag s Reg.ctrSweepClear } Reg.ctrSweep) c Reg.ctrSweep)) ∧
      (jobRunning s Reg.ctrSweep = true → (job s Reg.ctrSweep).cancel = false → (job s Reg.ctrSweep).progress = 0 →
        s.mtr.sweepCount ≤ 256 → s.mtr.sweepClear = false → blk s Reg.ctrSweepData = [] →
        ∃ t, Answers (.ctrSweep .step) s t ∧ JobCompleted t Reg.ctrSweep 0 ∧ bit (reg t Reg.mcCause) 3 = true ∧
          t.mtr = s.mtr ∧ blk t Reg.ctrSweepData = (rangeFrom s.mtr.sweepBase s.mtr.sweepCount).flatMap
            (fun j => beBytes 8 (mget 0 s.mtr.pkts j) ++ beBytes 8 (mget 0 s.mtr.bytes j)))) ∧
  (∀ (s : State) (c : Client) (i : Nat) (b : List Byte), OdTidy s → Sound s →
      (∀ d, s.mtr.due.find? (fun d => d.meter == i) = some d → ∃ t, Answers (.meterCorrection i) s t ∧
        t.mtr.due = s.mtr.due.erase d ∧ reg t Reg.mtrCorrections = (reg s Reg.mtrCorrections + 1) % 2 ^ 64 ∧
        meterOf t i = withState (meterOf s i)
          (if d.drew1 then correctBucket (mTok1 (meterOf s i)) (mBurst1 (meterOf s i)) d.amount else mTok1 (meterOf s i))
          (if d.drew2 then correctBucket (mTok2 (meterOf s i)) (mBurst2 (meterOf s i)) d.amount else mTok2 (meterOf s i))
          (mLast (meterOf s i))) ∧
      (domainChecks s c Reg.mtrConfig = none → b.length = 24 → meterConfigCode (beNat b) = 0 → ∃ t, Does (.mtrConfigWrite c b) s c t ∧
        meterOf t (reg s Reg.mtrSelect) = withState (beNat b * 2 ^ 192) (tokens (mBurst1 (beNat b * 2 ^ 192)))
          (tokens (mBurst2 (beNat b * 2 ^ 192))) (timeNs s) ∧ t = { s with mtr.meters := t.mtr.meters }) ∧
      (∀ r, jobRunning s Reg.mtrApply = true → (job s Reg.mtrApply).cancel = false → nextRecord s mtrJob = some r →
        (applyMtr s r).1 = 0 → ∃ t, Answers (.mtrApply .step) s t ∧ RecordTaken mtrJob s t ∧
        meterOf t (beAt r 0 4) = withState (beAt r 8 24 * 2 ^ 192) (tokens (mBurst1 (beAt r 8 24 * 2 ^ 192)))
          (tokens (mBurst2 (beAt r 8 24 * 2 ^ 192))) (timeNs s)))

/-! ### Packet memory (ch. 9) -/

/-- The settings of the pools (R207, R219, R222, R224, R229): a descriptor that R207 permits is stored, and a Skimmer pool's list is
threaded anew; one over a pool in use is refused; an admission profile, a shared size, a headroom and a threshold are stored where R219,
R222 and R224 permit them, and refused where the sum of R222 breaks or XOFF does not exceed XON; a read of the watermark answers and
clears it. -/
def Obligations.PoolSettings : Prop :=
  ∀ (s : State) (c : Client) (n v : Nat) (b : List Byte) (f : Bool), OdTidy s →
    (Permitted s c (Reg.poolDesc n) v → poolDescRefused s n v = false →
      (n < 28 → Stores (.poolDescWrite c n v) s c (Reg.poolDesc n) v) ∧
      (28 ≤ n → Does (.poolDescWrite c n v) s c (skimRebuild (setReg s (Reg.poolDesc n) (writable (Reg.poolDesc n) v)) n))) ∧
    (Permitted s c (Reg.poolDesc n) v → (0 < poolUsed s n ∨ (bit v 63 = true ∧ bits v 25 0 = 0)) →
      TurnedAway (.poolDescWrite c n v) s c (Reg.poolDesc n) .refused) ∧
    (domainChecks s c (Reg.admProfile n) = none → b.length = 16 → alphaOk (apSAlpha (beNat b)) = true →
      alphaOk (apCAlpha (beNat b)) = true → poolServes s (apSPool (beNat b)) 0 = true → poolServes s (apCPool (beNat b)) 1 = true →
      breaksR222 s (setBlk s (Reg.admProfile n) b) = false →
      ((∀ x < 8, bits (reg s (Reg.voqTemplate x)) 31 24 ≠ n) ∨ (apSGuar (beNat b) = 0 ∧ apCGuar (beNat b) = 0)) →
      Does (.admProfileWrite c n b) s c (setBlk s (Reg.admProfile n) b)) ∧
    (∀ k, k = (if f then Reg.poolHeadroom n else Reg.poolSharedSize n) → Permitted s c k v →
      (breaksR222 s (setReg s k v) = false → Does (.poolSizeWrite c n f v) s c (setReg s k v)) ∧
      (breaksR222 s (setReg s k v) = true → TurnedAway (.poolSizeWrite c n f v) s c k .refused)) ∧
    (n < 16 → Permitted s c (Reg.fcXonCells n) v → v < reg s (Reg.fcXoffCells n) →
      ∃ t, Does (.fcThresholdWrite c n true v) s c t ∧ reg t (Reg.fcXonCells n) = v) ∧
    (n < 16 → Permitted s c (Reg.fcXoffCells n) v → v ≤ reg s (Reg.fcXonCells n) →
      TurnedAway (.fcThresholdWrite c n false v) s c (Reg.fcXoffCells n) .refused) ∧
    (readChecks s c (Reg.poolWatermark n) = none → Answers (.poolWatermarkRead c n) s
      (emit (setReg s (Reg.poolWatermark n) 0)
        (.status (callerOf c) 0 (valueBytes (Reg.poolWatermark n) (reg s (Reg.poolWatermark n))))))

/-- A Skimmer pool's rebuild ends with a list of every free cell of the pool that is not quarantined (R210). The last byte of a packet
fills its length and keeps the cells its true length needs (R223). A spilled record is staged: it leaves the backlog for the queue's
staging, under a packet of its own (R227). -/
def Obligations.CellsAndPages : Prop :=
  ∀ (s : State) (n i q : Nat), Sound s →
    (mget 0 s.mem.rebuilding n ≠ 0 → ∃ t, Answers (.skimmerRebuildDone n) s t ∧ mget 0 t.mem.rebuilding n = 0 ∧
      skimCount t n = ((rangeFrom (plBase s n) (plSize s n)).filter (fun x => !unitUsed s 0 x && !unitQuar s 0 x)).length ∧
      t.mem.usedCells = s.mem.usedCells ∧ t.od = s.od) ∧
    (∀ p l, pkt? s i = some p → p.ended = false → p.bad = some 0 → p.len = some l →
      (∀ x ∈ s.qm.queues, ∀ r ∈ x.2.backlog, r.ref.pkt ≠ i) → (∀ x ∈ s.pkts, x.2.copyOf = none) →
      ∃ t p', Answers (.lastByteStored i) s t ∧ pkt? t i = some p' ∧ p'.ended = true ∧ p'.desc = setBits p.desc 198 185 l ∧
        p'.cells = p.cells.take (cellsFor l) ∧ p'.refs = p.refs) ∧
    (∀ r rest cs u, prefetchOpen s q = true → (queue s q).backlog = r :: rest → r.packed = true →
      linkFault s q (pagesOf (queue s q) r.off (r.off + r.bytes - 1)) = none →
      pagesOwned s q (pagesOf (queue s q) r.off (r.off + r.bytes - 1)) = true → linksFree s (qmsOf q) ≠ 0 →
      takeUnits (cellsFor (if dLength r.ref.desc = 0x3FFF then r.bytes - 32 else dLength r.ref.desc)) s 27 [] = .got cs u →
      u.nextPkt = s.nextPkt → u.qm = s.qm →
      ∃ t r', Answers (.unspillPrefetch q) s t ∧ (queue t q).backlog = rest ∧ (queue t q).staged = (queue s q).staged ++ [r'] ∧
        r'.pkt = s.nextPkt ∧ r'.kind = r.ref.kind ∧ r'.desc = r.ref.desc ∧ (pkt? t s.nextPkt).map (·.cells) = some cs)

/-! ### Queues and scheduling (ch. 11) -/

/-- A descriptor reaches the queues (R255, R256, R257): a unicast one whose class-map entry names an egress queue that admits it, with
cells at hand, joins the end of that queue with its charge; one whose class-map entry is not valid is discarded and its packet is gone; a
multicast one joins the fan-out line of its QMS. That a packet is one record here is the model's choice (notes/assumptions/24). -/
def Obligations.ArrivalJoinsItsQueue : Prop :=
  ∀ (s : State) (i : Nat) (p : Pkt), OdTidy s → Sound s → pkt? s i = some p → p.stage = .ready → p.credited = false → p.refs = 0 →
    p.leaked = false → (∀ x, p.origin = .line x → x < 1024) → dMirror p.desc = 0 → dHostCopy p.desc = false →
    (∀ x ∈ s.qm.queues, ∀ r ∈ x.2.refs, r.pkt ≠ i) → (∀ x ∈ s.qm.queues, ∀ r ∈ x.2.backlog, r.ref.pkt ≠ i) →
    (∀ q a, dKind p.desc = 0 → classQueue s (dDestPort p.desc) (dClass p.desc) = some q → qType s q = 1 →
      a = cellsFor (judgedLen p) → (queue s q).faulted = false → (queue s q).spilled = false → apSpill (qProfile s q) = false →
      qAqm s q = 0 → admission s 0 q a = none → linksFree s (qmsOf q) ≠ 0 →
      (∀ u, u = placeRef (setPkt (leaveArrival s p) i { p with refs := 1, stage := .stored }) i
          { queue := some q, kind := .main, cls := dClass p.desc } →
        ∃ cs w, takeUpTo (setPkt u i { p with refs := 1, stage := .stored, hrPool := 32, hrCells := 0, est := a }) p a = .got cs w) →
      ∃ t r, Answers (.enqueueArrival i) s t ∧ (queue t q).refs = (queue s q).refs ++ [r] ∧ r.pkt = i ∧ r.kind = .main ∧
        r.charge = a ∧ r.desc = p.desc ∧ (queue t q).qs = (queue s q).qs + a) ∧
    (dKind p.desc = 0 → classQueue s (dDestPort p.desc) (dClass p.desc) = none →
      ∃ t, Answers (.enqueueArrival i) s t ∧ pkt? t i = none ∧ bit (reg t Reg.qmCause) 4 = true ∧ t.qm.queues = s.qm.queues) ∧
    (dKind p.desc = 2 → ∃ t, Answers (.enqueueArrival i) s t ∧
      mget [] t.qm.fanout (p.inPort / 64) = mget [] s.qm.fanout (p.inPort / 64) ++ [i] ∧
      (pkt? t i).map (·.stage) = some .fanout ∧ t.led.oQueue = s.led.oQueue + 1)

/-- The fan-out engine takes the oldest descriptor of its QMS (R276): where every target of a valid group is pruned, nothing is copied,
the pruned targets are counted and the packet is gone; a group that is not valid discards it and is counted. A dequeue (R265, R266): the
head of the queue that the walk reaches goes out for the root that asked, with the length it is charged, and leaves its queue. Nothing
happens while nothing under the root is eligible. The order in which the walk visits children is the model's choice where R265 gives none
(notes/assumptions/16). -/
def Obligations.FanOutAndDequeue : Prop :=
  (∀ (s : State) (n i : Nat) (rest : List Nat) (p : Pkt), OdTidy s → Sound s → mget [] s.qm.fanout n = i :: rest → pkt? s i = some p →
      p.credited = false → (∀ x, p.origin = .line x → x < 1024) →
      (mgValid (mget 0 s.qm.groups (dMcGroup p.desc)) = true → 0 < mgCount (mget 0 s.qm.groups (dMcGroup p.desc)) →
        mgFabric (mget 0 s.qm.groups (dMcGroup p.desc)) = false → dMirror p.desc = 0 → dHostCopy p.desc = false →
        (∀ x ∈ rangeFrom (mgBase (mget 0 s.qm.groups (dMcGroup p.desc))) (mgCount (mget 0 s.qm.groups (dMcGroup p.desc))),
          mcTarget s p (mget 0 s.qm.targets x) = none) →
        ∃ t, Answers (.mcFanout n) s t ∧ mget [] t.qm.fanout n = rest ∧ pkt? t i = none ∧ t.led.dFanout = s.led.dFanout + 1 ∧
          t.led.aCopy = s.led.aCopy ∧
          reg t Reg.mcPruned = (reg s Reg.mcPruned + mgCount (mget 0 s.qm.groups (dMcGroup p.desc))) % 2 ^ 64) ∧
      (mgValid (mget 0 s.qm.groups (dMcGroup p.desc)) = false →
        ∃ t, Answers (.mcFanout n) s t ∧ mget [] t.qm.fanout n = rest ∧ pkt? t i = none ∧
          reg t Reg.mcEmptyGroup = (reg s Reg.mcEmptyGroup + 1) % 2 ^ 64)) ∧
  (∀ (s : State) (kind index : Nat),
      ((kind = 0 ∧ index < 1024) ∨ (kind = 4 ∧ hostTurn s = some index) ∨ (kind = 5 ∧ index < 16)) →
      ∀ s0, s0 = (if kind = 4 then { s with host.rootTurn := index } else s) →
      (∀ path u q r p, Sound s0 → Sound u → selectPath 5 s0 (nodeKey kind index) = some (path, u) → path.head? = some (nodeKey 3 q) →
        nodeIdx (nodeKey 3 q) = q → path.any (nodeFaulted s0) = false → headRef (queue u q) = some r → pkt? u r.pkt = some p →
        (ageLimit u q p = 0 ∨ u.time - r.enqAt ≤ ageLimit u q p * 1000) →
        ∃ t, Answers (.dequeue kind index) s t ∧ t.nextOut = u.nextOut + 1 ∧
          mfind t.outs u.nextOut = some { ref := r, queue := q, root := nodeKey kind index, lf := chargedLen p,
                                          lfKnown := p.len.isSome, path := path } ∧
          (∀ rest, (queue u q).refs = r :: rest → (queue t q).refs = rest ∧ (queue t q).qs = (queue u q).qs - r.charge)) ∧
      (selectPath 5 s0 (nodeKey kind index) = none → boundVoqs s0 = [] → Answers (.dequeue kind index) s s0))

/-- Shapers (R267, R269): at its refill instant a shaper takes its written values and its tokens, up to its burst, all of them when it was
off; where a packet's true length is known, each shaper of its path gets the difference back. An idle VOQ is released (R280). -/
def Obligations.ShapersAndVoqRelease : Prop :=
  ∀ (s : State) (kind index q : Nat), OdTidy s → Sound s →
    (index < kindCount kind → refillInstant s (nodeKey kind index) = true → ∃ t, Answers (.shaperRefill kind index) s t ∧
      ∀ x, x = node s (nodeKey kind index) →
        (snRate x.word = 0 → (node t (nodeKey kind index)).shRate = 0 ∧ (node t (nodeKey kind index)).tok = x.tok) ∧
        (snRate x.word ≠ 0 → node t (nodeKey kind index) = { x with
          shRate := snRate x.word, shBurst := snBurst x.word, shOvh := snOvh x.word,
          tok := if x.shRate = 0 then ((snBurst x.word * 2 ^ 32 : Nat) : Int)
            else min (x.tok + (snRate x.word * (refillPeriod kind).getD 0 : Nat))
              ((snBurst x.word * 2 ^ 32 : Nat) : Int) })) ∧
    (∀ i p d k, pkt? s i = some p → p.ended = true → s.qm.due = [d] → d.pkt = i → d.known = none → d.path = [k] → d.voq = none →
      (node s k).shRate ≠ 0 → ∃ t, Answers (.shaperCorrection i) s t ∧ t.qm.due = [] ∧
        (node t k).tok = min ((node s k).tok + max (-(((node s k).shBurst * 2 ^ 32 : Nat) : Int))
          (min (((d.lf : Int) - chargedLen p) * 2 ^ 32) (((node s k).shBurst * 2 ^ 32 : Nat) : Int)))
          (((node s k).shBurst * 2 ^ 32 : Nat) : Int)) ∧
    (∀ a, (mget {} s.qm.voqs q).idleSince = some a → voqBound (qWord s q) = true → qType s q = 3 → voqIdle s q = true →
      timeNs s % 1000 = 0 → reg s Reg.voqIdleMs * 1000 ≤ s.time / 1000 - a / 1000 →
      ∃ t, Answers (.voqIdleRelease q) s t ∧ mfind t.qm.voqs q = none ∧ (qWord t q) = setBits (qWord s q) 46 13 0 ∧
        reg t Reg.voqReleases = (reg s Reg.voqReleases + 1) % 2 ^ 64)

/-- Queue records (R256, R262, R275, R283): one that is applied stores its words and counts as applied, and `sch_config` stores those of
the node `sch_select` names. Nodes are named by the model's reading of R262 (notes/assumptions/15). -/
def Obligations.QueueRecords : Prop :=
  ∀ (s : State) (c : Client) (r b : List Byte), OdTidy s →
    (nextRecord s qmJob = some r → (applyQm s r).1 = 0 →
      (byteAt r 0 = 1 → ∃ t, Answers .nodeWrite s t ∧ RecordTaken qmJob s t ∧
        (node t (refNode (beAt r 4 4))).word =
          setBits (setBits (beAt r 8 16) 126 124 (nodeKind (refNode (beAt r 4 4)))) 126 124 0) ∧
      (byteAt r 0 = 2 → ∃ t, Answers .queueWrite s t ∧ RecordTaken qmJob s t ∧
        (node t (nodeKey 3 (beAt r 4 4))).qword = setBits (beAt r 24 8) 46 13 (bits (node s (nodeKey 3 (beAt r 4 4))).qword 46 13)) ∧
      (byteAt r 0 = 3 → ∃ t, Answers .classMapWrite s t ∧ RecordTaken qmJob s t ∧
        mget 0 t.qm.classMap (beAt r 4 2 * 8 + byteAt r 6) = beAt r 8 4) ∧
      (byteAt r 0 = 4 → ∃ t, Answers .mcGroupWrite s t ∧ RecordTaken qmJob s t ∧ mget 0 t.qm.groups (beAt r 4 4) = beAt r 8 8) ∧
      (byteAt r 0 = 5 → byteAt r 8 = 1 → ∃ t, Answers .targetWrite s t ∧ RecordTaken qmJob s t ∧
        mget 0 t.qm.targets (beAt r 4 4) = beAt r 12 4)) ∧
    (domainChecks s c Reg.schConfig = none → b.length = 16 → (writeWords s (selectedNode s) (beAt b 0 16) none).1 = 0 →
      ∃ t, Does (.schConfigWrite c b) s c t ∧
        (node t (selectedNode s)).word = setBits (setBits (beAt b 0 16) 126 124 (nodeKind (selectedNode s))) 126 124 0) ∧
    (domainChecks s c Reg.schConfig = none → b.length = 24 → nodeKind (selectedNode s) ≠ 3 →
      TurnedAway (.schConfigWrite c b) s c Reg.schConfig .refused)

/-! ### The Crock memory controller (ch. 10) -/

/-- Requests, refresh and scrub (R234–R239, R242, R249): a request that is accepted waits at its pseudo channel behind the older ones and
wakes an IDLE stack; one that completes leaves, and a late one is counted; a refresh due is issued, postponed in an unspill burst, or
splits it at the seventh, and one owed is paid back after the burst; the scrubber takes a page, and an IDLE stack takes its due pages as
one batch. -/
def Obligations.HbmRequestsAndRefresh : Prop :=
  ∀ (s : State) (cl : Client) (k c n : Nat), OdTidy s → k < 4 →
    (∀ prt page burst count w, requestTaken s k prt page burst count = true → ∃ t, Answers (.hbmRequest k prt page burst count w) s t ∧
      (pcOf t (64 * k + page / 4 % 64)).reqs = (pcOf s (64 * k + page / 4 % 64)).reqs ++ [{
        id := s.hbm.nextReq, prt := prt, page := page, burst := burst, count := count, write := w, at0 := s.time }] ∧
      (stackState s k = 4 → stackState t k = 1)) ∧
    (∀ i r, (pcOf s (64 * k + c)).current = some i → (pcOf s (64 * k + c)).reqs.find? (fun r => r.id == i) = some r → r.prt < 5 →
      ∃ t, Answers (.hbmRequestComplete k c) s t ∧
        (pcOf t (64 * k + c)).reqs = (pcOf s (64 * k + c)).reqs.filter (fun x => x.id != i) ∧
        t.hbm.moved = s.hbm.moved + 32 * r.count ∧
        (reg s (Reg.hbmPortTargetNs r.prt) < s.time - r.at0 →
          reg t (Reg.hbmDeadlineMiss r.prt) = (reg s (Reg.hbmDeadlineMiss r.prt) + 1) % 2 ^ 64 ∧
          bit (reg t (Reg.hbmCause k)) 2 = true)) ∧
    (c < 64 → (stackState s k = 1 ∨ stackState s k = 2 ∨ stackState s k = 3) → (pcOf s (64 * k + c)).nextDue ≤ s.time →
      ∃ t, Answers (.refreshDue k c) s t ∧
        (pcOf t (64 * k + c)).nextDue = (pcOf s (64 * k + c)).nextDue + refreshInterval s k ∧
        (unspillBurst (pcOf s (64 * k + c)) = false → (pcOf s (64 * k + c)).owed = 0 → (pcOf t (64 * k + c)).owed = 0) ∧
        (unspillBurst (pcOf s (64 * k + c)) = true → (pcOf s (64 * k + c)).owed < 6 →
          (pcOf t (64 * k + c)).owed = (pcOf s (64 * k + c)).owed + 1) ∧
        (unspillBurst (pcOf s (64 * k + c)) = true → 6 ≤ (pcOf s (64 * k + c)).owed →
          (pcOf t (64 * k + c)).owed = (pcOf s (64 * k + c)).owed ∧
          reg t (Reg.hbmRefreshSplits k) = (reg s (Reg.hbmRefreshSplits k) + 1) % 2 ^ 64 ∧ bit (reg t (Reg.hbmCause k)) 3 = true)) ∧
    (0 < (pcOf s (64 * k + c)).owed → unspillBurst (pcOf s (64 * k + c)) = false → Answers (.refreshPayback k c) s
      (setPc s (64 * k + c) { pcOf s (64 * k + c) with owed := (pcOf s (64 * k + c)).owed - 1 })) ∧
    (∃ t, Answers (.hbmTempRead k n) s t ∧ reg t (Reg.hbmTemp k) = n % 2 ^ 32 ∧
      mget false t.hbm.hot k = decide ((16 * reg s Reg.hbmHotC : Int) ≤ toSigned 32 n) ∧
      ((16 * reg s Reg.hbmHotC : Int) ≤ toSigned 32 n → bit (reg t (Reg.hbmCause k)) 7 = true)) ∧
    (readChecks s cl (Reg.hbmRefreshOwedMax k) = none → Answers (.hbmRefreshOwedMaxRead cl k) s
      (emit (setReg s (Reg.hbmRefreshOwedMax k) 0)
        (.status (callerOf cl) 0 (valueBytes (Reg.hbmRefreshOwedMax k) (reg s (Reg.hbmRefreshOwedMax k)))))) ∧
    (Sound s → (stackState s k = 1 ∨ stackState s k = 2) → mget 0 s.hbm.scrubAt k + reg s Reg.hbmScrubPageNs ≤ s.time →
      reg s (Reg.hbmScrubPosition k) + 1 < 12582912 → Answers (.hbmPatrolScrub k []) s
        (setReg { s with hbm.scrubAt := mset 0 s.hbm.scrubAt k s.time } (Reg.hbmScrubPosition k)
          (reg s (Reg.hbmScrubPosition k) + 1))) ∧
    (Sound s → stackState s k = 4 → 64 ≤ mget 0 s.hbm.scrubDue k →
      reg s (Reg.hbmScrubPosition k) + mget 0 s.hbm.scrubDue k < 12582912 → ∃ t, Answers (.hbmScrubBatch k) s t ∧
        mget 0 t.hbm.scrubDue k = 0 ∧ reg t (Reg.hbmScrubPosition k) = reg s (Reg.hbmScrubPosition k) + mget 0 s.hbm.scrubDue k ∧
        stackState t k = 4)

/-- Rates, idle, captures and stack states (R240–R245, R250, R251). The governor judges the bytes moved in a window of 100 us and sets a
rise at once and a fall after ten low windows; a rate change counts and is reported. A write of `hbm_rate_pin` that would change the rate
is busy, and a window changes nothing, while a capture or another change runs; a window after it judges the bytes moved since the one
before (R243). An idle Crock enters IDLE; a capture takes one sample a step and completes; an initialisation ends ACTIVE or FAULT; a stack
taken offline drains and parks. -/
def Obligations.HbmRatesAndStates : Prop :=
  ∀ (s : State) (c : Client) (k v : Nat), OdTidy s → k < 4 →
    (timeNs s % 100000 = 0 → s.hbm.windowAt < s.time → reg s Reg.hbmRatePin = 0xFF → s.hbm.change = none →
      jobRunning s Reg.hbmCapture = false → ∃ t, Answers .hbmRateWindow s t ∧ t.hbm.moved = 0 ∧ t.hbm.windowAt = s.time ∧
        (75 * rateCapacity (reg s Reg.hbmRate) < 100 * (s.hbm.moved * 80000) →
          t.hbm.change = if rateFor (s.hbm.moved * 80000) ≤ reg s Reg.hbmRate then none
            else some (rateFor (s.hbm.moved * 80000))) ∧
        (0 < reg s Reg.hbmRate → 100 * (s.hbm.moved * 80000) < 50 * rateCapacity (reg s Reg.hbmRate - 1) → 9 ≤ s.hbm.below →
          t.hbm.change = some (reg s Reg.hbmRate - 1))) ∧
    (∀ r, s.hbm.change = some r → (∀ p ∈ s.hbm.pcs, p.2.current = none) → ∃ t, Answers .hbmRateChange s t ∧
      t.hbm.change = none ∧ reg t Reg.hbmRate = r ∧ reg t Reg.hbmRateChanges = (reg s Reg.hbmRateChanges + 1) % 2 ^ 64 ∧
      (inService s k = true → bit (reg t (Reg.hbmCause k)) 4 = true)) ∧
    (Permitted s c Reg.hbmRatePin v → v ≤ 2 → s.hbm.change = none → jobRunning s Reg.hbmCapture = false →
      ∃ t, Does (.hbmRatePinWrite c v) s c t ∧ reg t Reg.hbmRatePin = v ∧
        t.hbm.change = if reg s Reg.hbmRate = v then none else some v) ∧
    (Permitted s c Reg.hbmRatePin v → v ≤ 2 → s.hbm.change ≠ none → TurnedAway (.hbmRatePinWrite c v) s c Reg.hbmRatePin .busy) ∧
    (Permitted s c Reg.hbmRatePin v → v ≤ 2 → reg s Reg.hbmRate ≠ v → jobRunning s Reg.hbmCapture = true →
      TurnedAway (.hbmRatePinWrite c v) s c Reg.hbmRatePin .busy) ∧
    (timeNs s % 100000 = 0 → s.hbm.windowAt < s.time → (jobRunning s Reg.hbmCapture = true ∨ s.hbm.change ≠ none) →
      Answers .hbmRateWindow s { s with hbm.moved := 0, hbm.windowAt := s.time }) ∧
    (flag s Reg.hbmIdleEnable = true → s.mem.usedPages = [] → s.hbm.lastUse + reg s Reg.hbmIdleUs * 1000 ≤ s.time →
      s.hbm.change = none → (∀ p ∈ s.hbm.pcs, p.2.reqs = []) → stackState s k = 1 → ∃ t, Answers .hbmIdleEnter s t ∧
        stackState t k = 4 ∧ bit (reg t (Reg.hbmCause k)) 6 = true) ∧
    (MayStart s c Reg.hbmCapture → stackParked s (capStack s) = true → s.hbm.change = none → Answers (.hbmCapture (.start c) v) s
      (answeredWord (setBlk (jobBegin s Reg.hbmCapture) Reg.hbmCaptureResult []) c Reg.hbmCapture)) ∧
    (∀ x, jobRunning s Reg.hbmCapture = true → x = capStart s + (job s Reg.hbmCapture).phase * capStep s →
      capStop s < x + capStep s → ∃ t, Answers (.hbmCapture .step v) s t ∧ JobCompleted t Reg.hbmCapture 0 ∧
        blk t Reg.hbmCaptureResult = blk s Reg.hbmCaptureResult ++ byte x :: beBytes 5 (v % 2 ^ 36) ∧
        bit (reg t (Reg.hbmCause (capStack s))) 5 = true) ∧
    (MayStart s c (Reg.hbmInit k) → stackParked s k = true → s.hbm.change = none → jobRunning s Reg.hbmCapture = false →
      Answers (.hbmInit k (.start c) true) s (answeredWord (jobBegin s (Reg.hbmInit k)) c (Reg.hbmInit k))) ∧
    (∀ pass, jobRunning s (Reg.hbmInit k) = true → ∃ t, Answers (.hbmInit k .step pass) s t ∧
      stackState t k = (if pass then 1 else 6) ∧ JobCompleted t (Reg.hbmInit k) (if pass then 0 else 2) ∧
      bit (reg t (Reg.hbmCause k)) 5 = true) ∧
    (MayStart s c (Reg.hbmOffline k) → stackState s k = 1 → Answers (.hbmOffline c k) s
      (answeredWord (jobBegin (setStack s k 2) (Reg.hbmOffline k)) c (Reg.hbmOffline k))) ∧
    (MayStart s c (Reg.hbmOffline k) → stackState s k ≠ 1 → stackState s k ≠ 4 →
      TurnedAway (.hbmOffline c k) s c (Reg.hbmOffline k) .refused) ∧
    (stackState s k = 2 → stackInUse s k = false → ∃ t, Answers (.hbmDrained k) s t ∧ stackState t k = 3 ∧
      (jobRunning s (Reg.hbmOffline k) = true → JobCompleted t (Reg.hbmOffline k) 0))

/-! ### Bunting (ch. 12) -/

/-- Frames received (R287, R300–R307, R318): decoded codewords are counted, and eight in a row turn the codeword lock; a third frame
alignment hit locks the frame, and a frame in lock is taken; a container frame's bytes leave the lanes; loss of the signal enters LOS and
1 ms of it leaves LOS; a management packet with a good CRC is held. -/
def Obligations.FabricFramesReceived : Prop :=
  ∀ (s : State) (l b : Nat), OdTidy s → l < 320 → b < 8 →
    (∀ o, o ≤ 2 → s.pwr.dark = false → ∃ t, Answers (.fecCodewordDecode l o) s t ∧
      (o = 1 → reg t (Reg.flFecCorrected l) = (reg s (Reg.flFecCorrected l) + 1) % 2 ^ 64) ∧
      (o = 2 → reg t (Reg.flFecUncorrected l) = (reg s (Reg.flFecUncorrected l) + 1) % 2 ^ 64 ∧ bit (reg t (Reg.flCause l)) 6 = true) ∧
      (o = 2 → (flane s l).cwLock = true → (flane s l).cwRun = 7 → (flane t l).cwLock = false ∧ (flane t l).locked = false) ∧
      (o ≤ 1 → (flane s l).cwLock = false → (flane s l).cwRun = 7 → (flane t l).cwLock = true)) ∧
    (∀ off skew f c, (flane s l).cwLock = true → laneTest s l = false → f.length = 16384 → off < 16384 → (flane s l).locked = false →
      (flane s l).cands.find? (fun c => c.off = off) = some c → c.hits = 2 → beAt f 0 4 = fawWord →
      crc8 (slice f 4 11) = byteAt f 15 → byteAt f 5 = c.next → ∃ t, Answers (.buntingFrameReceive l off skew f) s t ∧
        (flane t l).locked = true ∧ (flane t l).off = off ∧ reg t (Reg.flRxLaneId l) = byteAt f 4 ∧
        bit (reg t (Reg.flDefects l)) 2 = false) ∧
    (∀ skew f, (flane s l).cwLock = true → laneTest s l = false → f.length = 16384 → (flane s l).off < 16384 →
      (flane s l).locked = true → beAt f 0 4 = fawWord → ∃ t, Answers (.buntingFrameReceive l (flane s l).off skew f) s t ∧
        (flane t l).locked = true ∧ (flane t l).misses = 0 ∧ (flane t l).bip = some (bip8 (f.drop 64))) ∧
    (∀ ids, ids = idsOf (reg s (Reg.fbRxLaneSet b)) → ids.filterMap (laneOfId s b) ≠ [] →
      (∀ x ∈ ids.filterMap (laneOfId s b), 16320 ≤ (flane s x).acc.length) → ∃ t, Answers (.containerFrameReceive b) s t ∧
        (bundle t b).bip = some (bip16 (interleave 16320 (ids.map (fun i => match laneOfId s b i with
          | some x => (flane s x).acc.take 16320
          | none => List.replicate 16320 0)))) ∧
        ∀ x ∈ bundleLanes b, (flane s x).locked = true → (flane t x).acc = (flane s x).acc.drop 16320) ∧
    (∀ sg, ∃ t, Answers (.fabricLaneSignalChange l sg) s t ∧ (flane t l).signal = sg ∧ (flane t l).signalAt = s.time ∧
      (sg = false → bit (reg t (Reg.flDefects l)) 0 = true)) ∧
    ((flane s l).signal = true → (flane s l).signalAt + 1000000 ≤ s.time → bit (reg s (Reg.flDefects l)) 0 = true →
      ∃ t, Answers (.losClear l) s t ∧ bit (reg t (Reg.flDefects l)) 0 = false) ∧
    (∀ p r, (bundle s b).mgRaw = p :: r →
      (crc32 (p.take (beAt p 0 2 + 2)) = beAt p (beAt p 0 2 + 2) 4 → (bundle s b).mgHeld.length < 8 →
        ∃ t, Answers (.mgmtChannelPacket b) s t ∧ (bundle t b).mgHeld = (bundle s b).mgHeld ++ [slice p 2 (beAt p 0 2)] ∧
          (bundle t b).mgRaw = r ∧ reg t (Reg.fbMgmtRxPackets b) = (reg s (Reg.fbMgmtRxPackets b) + 1) % 2 ^ 64) ∧
      (crc32 (p.take (beAt p 0 2 + 2)) ≠ beAt p (beAt p 0 2 + 2) 4 → ∃ t, Answers (.mgmtChannelPacket b) s t ∧
        (bundle t b).mgHeld = (bundle s b).mgHeld ∧ bit (reg t (Reg.fbCause b)) 13 = true)) ∧
    (s.pwr.inReset = false → Answers .timePllLock s { s with fl.timeLocked := true })

/-- At a whole TIME second the second that ends is classified for every lane and bundle (R308–R310), near end by its defects. PRBS and
loopback of lanes (R77, R319, R320): a checker locks and loses lock with its errors counted; a read answers the errors and clears them; a
mode is stored while the lane is in no committed set, and its frame lock is lost. -/
def Obligations.PmSecondAndLaneTests : Prop :=
  (∀ (s : State) (l : Nat), OdTidy s → timeNs s % 1000000000 = 0 → l < 320 → ∃ t, Answers .pmSecond s t ∧
      (flane t l).near = ((if reg s (Reg.flDefects l) ≠ 0 then (flane s l).near.mark (bit (reg s (Reg.flDefects l)) 2)
        else (flane s l).near).second (timeNs s / 1000000000 - 1)).close (timeNs s / 1000000000) ∧
      (flane t l).locked = (flane s l).locked ∧
      (timeNs s / 1000000000 % 900 = 0 → ∀ b < 8, bit (reg t (Reg.fbCause b)) 12 = true)) ∧
  (∀ (s : State) (c : Client) (l v e : Nat), OdTidy s →
      (flag s (Reg.flPrbsMode l) = true → Answers (.prbsCheckerLock true l) s (setFlane s l { flane s l with prbsLock := true })) ∧
      (flag s (Reg.lanePrbsMode l) = true → Answers (.prbsCheckerLock false l) s
        { s with lanes := mset {} s.lanes l { mget {} s.lanes l with prbsLock := true } }) ∧
      (l < 320 → (flane s l).prbsLock = true → ∃ t, Answers (.prbsLockLost true l e) s t ∧ (flane t l).prbsLock = false ∧
        bit (reg t (Reg.flCause l)) 7 = true ∧ reg t (Reg.flPrbsErrors l) = min (reg s (Reg.flPrbsErrors l) + e) (2 ^ 32 - 1)) ∧
      (l < 256 → (mget {} s.lanes l).prbsLock = true → ∃ t, Answers (.prbsLockLost false l e) s t ∧
        (mget {} t.lanes l).prbsLock = false ∧ bit (reg t (Reg.laneCause l)) 2 = true ∧
        reg t (Reg.lanePrbsErrors l) = min (reg s (Reg.lanePrbsErrors l) + e) (2 ^ 32 - 1)) ∧
      ((flane s l).prbsLock = false → readChecks s c (Reg.flPrbsErrors l) = none → Answers (.flPrbsErrorsRead c l e) s
        (emit (setReg s (Reg.flPrbsErrors l) 0)
          (.status (callerOf c) 0 (valueBytes (Reg.flPrbsErrors l) (reg s (Reg.flPrbsErrors l)))))) ∧
      (∀ lb k, l < 320 → k = (if lb then Reg.flLoopback l else Reg.flPrbsMode l) → Permitted s c k v → 0 < v → v ≤ 2 →
        bit (reg s (Reg.fbTxLaneSet (bundleOf l))) (l % 40) = false →
        (∀ i ∈ idsOf (reg s (Reg.fbRxLaneSet (bundleOf l))), laneOfId s (bundleOf l) i ≠ some l) →
        (lb = true → reg s k = 0 ∨ reg s k = v) → ∃ t, Does (.fabricPrbsLoopbackWrite c l lb v) s c t ∧ reg t k = v ∧
          (flane t l).locked = false))

/-- Lane sets (R311–R317). A change job begins where the mask fits and none runs, is busy while one runs, and ends with result 3 on a mask
that does not fit; the governor proposes at most one fitting set at each ms; PROPOSE is answered by ACCEPT or REJECT, ACCEPT sets the
effect multiframe, REJECT ends the change and its job, COMMIT tells the receiver the multiframe, REQUEST begins a change; at its
multiframe the set takes effect and is counted; and a proposal or an acceptance that gets no answer in four multiframes is dropped. Where
several checks of a proposal fail, which reason is carried is the model's choice (notes/assumptions/30), as is which lanes may join (29).
-/
def Obligations.LaneSetChanges : Prop :=
  ∀ (s : State) (c : Client) (b : Nat), OdTidy s → b < 8 →
    (MayStart s c (Reg.fbLaneSetChange b) → maskFit s b (reg s (Reg.fbLaneSetArg b)) = true →
      (mayChange s b = true → Answers (.fbLaneSetChange c b) s (answeredWord (beginChange (jobBegin s (Reg.fbLaneSetChange b)) b
        (reg s (Reg.fbLaneSetArg b)) true) c (Reg.fbLaneSetChange b))) ∧
      (mayChange s b = false → TurnedAway (.fbLaneSetChange c b) s c (Reg.fbLaneSetChange b) .busy)) ∧
    (MayStart s c (Reg.fbLaneSetChange b) → maskFit s b (reg s (Reg.fbLaneSetArg b)) = false → Answers (.fbLaneSetChange c b) s
      (answeredWord (jobEnd (jobBegin s (Reg.fbLaneSetChange b)) (Reg.fbLaneSetChange b) 3) c (Reg.fbLaneSetChange b))) ∧
    (timeNs s % 1000000 = 0 → ∃ t, Answers (.shedGovernor b) s t ∧ (bundle t b).used = 0 ∧ (bundle t b).sent = 0 ∧
      ((bundle t b).txChange = (bundle s b).txChange ∨ ∃ m, maskFit s b m = true ∧ m ≠ reg s (Reg.fbTxLaneSet b) ∧
        mayChange s b = true ∧ (bundle t b).txChange = some { mask := m })) ∧
    (∀ m rest, (bundle s b).msgs = m :: rest →
      (m.ty = 1 → rejectReason s b m = 0 → ∃ t, Answers (.laneSetPropose b) s t ∧ t = { s with fl := t.fl } ∧
        t.fl.lanes = s.fl.lanes ∧ bundle t b = { bundle s b with
          msgs := rest, rxChange := some { mask := m.mask, tag := m.tag, step := 2, at0 := (bundle s b).rxMf },
          slotR := some { m with ty := 2, arg := 0 } }) ∧
      (m.ty = 1 → rejectReason s b m ≠ 0 → ∃ t, Answers (.laneSetPropose b) s t ∧ bundle t b = { bundle s b with
        msgs := rest, slotR := some { m with ty := 3, arg := rejectReason s b m } }) ∧
      (∀ x, m.ty = 2 → (bundle s b).txChange = some x → x.step = 1 → x.tag = m.tag → x.mask = m.mask →
        ∃ t, Answers (.laneSetAccept b) s t ∧ bundle t b = { bundle s b with
          msgs := rest, txChange := some { x with step := 2, effect := some ((bundle s b).txMf + 3) } }) ∧
      (∀ x, m.ty = 3 → (bundle s b).txChange = some x → x.step = 1 → x.tag = m.tag → ∃ t, Answers (.laneSetReject b) s t ∧
        (bundle t b).txChange = none ∧ reg t (Reg.fbLsRefused b) = (reg s (Reg.fbLsRefused b) + 1) % 2 ^ 64 ∧
        bit (reg t (Reg.fbCause b)) 10 = true ∧ (x.job = true → jobRunning s (Reg.fbLaneSetChange b) = true →
          JobCompleted t (Reg.fbLaneSetChange b) 1)) ∧
      (∀ x, m.ty = 4 → (bundle s b).rxChange = some x → x.tag = m.tag → x.mask = m.mask → (m.arg = 1 ∨ m.arg = 2) →
        ∃ t, Answers (.laneSetCommit b) s t ∧ bundle t b = { bundle s b with
          msgs := rest, rxChange := some { x with effect := some ((bundle s b).rxMf + m.arg) } }) ∧
      (m.ty = 5 → maskFit s b m.mask = true → (bundle s b).txChange = none → ∃ t, Answers (.laneSetRequest b) s t ∧
        bundle t b = { bundle s b with msgs := rest, txChange := some { mask := m.mask } })) ∧
    (∀ x e, (bundle s b).txChange = some x → x.effect = some e → e ≤ (bundle s b).txMf → ∃ t, Answers (.laneSetEffect b true) s t ∧
      reg t (Reg.fbTxLaneSet b) = x.mask ∧ (bundle t b).txChange = none ∧ (bundle t b).quietAt = some e ∧
      reg t (Reg.fbLsChanges b) = (reg s (Reg.fbLsChanges b) + 1) % 2 ^ 64 ∧ bit (reg t (Reg.fbCause b)) 9 = true) ∧
    (∀ x e, (bundle s b).rxChange = some x → x.effect = some e → e ≤ (bundle s b).rxMf → ∃ t, Answers (.laneSetEffect b false) s t ∧
      reg t (Reg.fbRxLaneSet b) = x.mask ∧ (bundle t b).rxChange = none) ∧
    (∀ x, (bundle s b).txChange = some x → x.step = 1 → x.at0 + 4 ≤ (bundle s b).txMf → ∃ t, Answers (.laneSetTimeout b true) s t ∧
      (bundle t b).txChange = none ∧ reg t (Reg.fbLsTimeouts b) = (reg s (Reg.fbLsTimeouts b) + 1) % 2 ^ 64 ∧
      bit (reg t (Reg.fbCause b)) 11 = true) ∧
    (∀ x, (bundle s b).rxChange = some x → x.effect = none → x.at0 + 4 ≤ (bundle s b).rxMf → Answers (.laneSetTimeout b false) s
      (setBundle s b { bundle s b with rxChange := none }))

/-- Lanes and frames sent (R289, R311, R313, R315): past the effect multiframe the lanes outside the set go quiet; an enabled lane wakes;
a lane that has been defective for 1 ms is asked out of the set; each lane that is on sends a frame with its alignment word, its number
and the frame's number. -/
def Obligations.FabricLanesSend : Prop :=
  ∀ (s : State) (l b : Nat), OdTidy s → l < 320 → b < 8 →
    (∀ e, (bundle s b).quietAt = some e → e < (bundle s b).txMf → flag s (Reg.fbQuietEnable b) = true → (bundle s b).txChange = none →
      ∃ t, Answers (.laneQuiet b) s t ∧ (bundle t b).quietAt = none ∧ ∀ i < 40,
        (flane t (40 * b + i)).on = ((flane s (40 * b + i)).on && bit (reg s (Reg.fbTxLaneSet b)) i)) ∧
    (flag s (Reg.flEnable l) = true → laneTest s l = false → s.pwr.dark = false → 2 ≤ reg s Reg.pwrStartupPhase →
      Answers (.laneWake l) s (setFlane s l { flane s l with on := true })) ∧
    (∀ a m, (flane s l).defectAt = some a → flag s (Reg.fbAutoRemove (bundleOf l)) = true → a + 1000000 ≤ s.time →
      bit (reg s (Reg.fbRxLaneSet (bundleOf l))) (reg s (Reg.flRxLaneId l)) = true →
      reg s (Reg.fbShedFloor (bundleOf l)) + 1 ≤ popCount 40 (reg s (Reg.fbRxLaneSet (bundleOf l))) →
      m = clearBit (reg s (Reg.fbRxLaneSet (bundleOf l))) (reg s (Reg.flRxLaneId l)) → Answers (.laneAutoRemove l) s
        (setBundle s (bundleOf l) { bundle s (bundleOf l) with
          slotR := some { ty := 5, tag := 0, arg := 0, mask := m, count := popCount 40 m } })) ∧
    (∀ lead, s.pwr.dark = false → ∃ t, Answers (.buntingFrameSend b lead) s t ∧
      (bundle t b).txFrame = ((bundle s b).txFrame + 1) % 64 ∧
      ∀ x ∈ bundleLanes b, (flane s x).on = true → flag s (Reg.flEnable x) = true → laneTest s x = false →
        ∃ f, .laneFrame x f ∈ t.sent ∧ f.take 4 = beBytes 4 fawWord ∧ byteAt f 4 = x % 40 ∧
          byteAt f 5 = (bundle s b).txFrame % 256)

/-! ### Fabric transport (ch. 13) -/

/-- Pennants received (R323, R325, R331, R334, R341, R344, R347, R348, R352): the next place is taken; one that fails its check is
discarded; data of a new source waits for its context, and in an OPEN one the expected sequence is delivered; one for another device is
relayed; a multicast one is copied to the other bundles of its mask; a beacon is recorded; a sequence start opens its context; credit
entries wait for their handling; and the timers open a context, declare a gap and end a reassembly. Corners R323 to R352 leave open follow
notes/assumptions/32 and 33. -/
def Obligations.PennantsReceived : Prop :=
  ∀ (s : State) (a : Nat), OdTidy s → a < 8 →
    (∀ p r u, (bundle s a).places = p :: r → u = setBundle s a { bundle s a with places := r } →
      (headerOk p = false → Answers (.idlePennantReceive a) s (raise (count1 u (Reg.ftHdrErrors a)) .ft 3)) ∧
      (headerOk p = true → pnType p = 0 → Answers (.idlePennantReceive a) s u) ∧
      (headerOk p = true → namesDevice (ownId s) = true →
        ((1 ≤ pnType p ∧ pnType p ≤ 5) → pnDst p = ownId s → namesDevice (pnSrc p) = true →
          ((rxCtx s (pnSrc p)).state = 0 → heldPennants s < 16384 → ∃ t, Answers (.dataPennantReceive a) s t ∧
            rxCtx t (pnSrc p) = { rxCtx s (pnSrc p) with
              state := 1, since := s.time,
              held := (rxCtx s (pnSrc p)).held ++ [{ seq := pnSeq p, at0 := s.time, bytes := p }] }) ∧
          ((rxCtx s (pnSrc p)).state = 2 → (rxCtx s (pnSrc p)).held = [] → seqAhead (rxCtx s (pnSrc p)).e (pnSeq p) = 0 →
            ∃ t, Answers (.dataPennantReceive a) s t ∧ (rxCtx t (pnSrc p)).state = 2 ∧
              (rxCtx t (pnSrc p)).e = ((rxCtx s (pnSrc p)).e + 1) % 2 ^ 24)) ∧
        ((1 ≤ pnType p ∧ pnType p ≤ 5) → pnDst p ≠ ownId s → destState s (pnDst p) ≠ 0 →
          bestDist s (pnDst p) < natAt (destRec s (pnDst p)).dist a → (routeSet s (pnDst p)).filter (· ≠ a) ≠ [] →
          ∀ b w, spray u (pnDst p) (some a) (dataClass p) bufferRoom = some (b, w) → ∃ t, Answers (.dataPennantReceive a) s t ∧
            b ≠ a ∧ (bundle t b).relay = (bundle s b).relay ++ [p] ∧ (bundle t a).places = r) ∧
        (pnType p = 6 → bit (fabricMap s (pnDst p % 65536)) 8 = false → ∃ t, Answers (.multicastPennantReceive a) s t ∧
          ∀ b < 8, b ≠ a → bit (fabricMap s (pnDst p % 65536)) b = true → bufferRoom (bundle s b) = true →
            (bundle t b).relay = (bundle s b).relay ++ [p]) ∧
        (pnType p = 9 → pnSrc p = ownId s → ∃ t, Answers (.beaconReceive a) s t ∧
          reg t Reg.ftOwnBeacons = (reg s Reg.ftOwnBeacons + 1) % 2 ^ 64 ∧ bit (reg t Reg.ftCause) 7 = true) ∧
        (pnType p = 9 → pnSrc p ≠ ownId s → namesDevice (pnSrc p) = true → (destRec s (pnSrc p)).dist.length = 8 →
          ∃ t, Answers (.beaconReceive a) s t ∧ natAt (destRec t (pnSrc p)).dist a = min (beAt p 16 2 + 1) 0xFFFE) ∧
        (pnType p = 10 → pnDst p = ownId s → byteAt p 16 = 1 → namesDevice (pnSrc p) = true → (rxCtx s (pnSrc p)).state ≠ 2 →
          (rxCtx s (pnSrc p)).held = [] → Answers (.sequenceStartReceive a) s
            (setCtx u (pnSrc p) { rxCtx s (pnSrc p) with state := 2, e := pnSeq p, held := [] })) ∧
        (pnType p = 7 → pnDst p = ownId s → namesDevice (pnSrc p) = true → Answers (.creditRequestPennantReceive a) s
          { u with ft.inbox := s.ft.inbox ++ (((List.range (pnLen p / 16)).map (fun i => beAt p (16 + 16 * i) 16)).filter
            (fun e => [1, 3, 5].contains (bits e 114 112))).map (fun e => (pnSrc p, e)) }) ∧
        (pnType p = 8 → pnDst p = ownId s → namesDevice (pnSrc p) = true → Answers (.creditGrantPennantReceive a) s
          { u with ft.inbox := s.ft.inbox ++ (((List.range (pnLen p / 16)).map (fun i => beAt p (16 + 16 * i) 16)).filter
            (fun e => [2, 4, 6].contains (bits e 114 112))).map (fun e => (pnSrc p, e)) }))) ∧
    (∀ src h r, (rxCtx s src).held = h :: r →
      ((rxCtx s src).state = 1 → (rxCtx s src).since + reg s Reg.ftReorderTimeoutNs ≤ s.time →
        ∃ t, Answers (.reorderTimeout src) s t ∧ (rxCtx t src).state = 2) ∧
      ((rxCtx s src).state = 2 → h.at0 + reg s Reg.ftReorderTimeoutNs ≤ s.time → ∃ t, Answers (.reorderTimeout src) s t ∧
        reg t Reg.ftSeqGaps = (reg s Reg.ftSeqGaps + 1) % 2 ^ 64 ∧ bit (reg t Reg.ftCause) 5 = true)) ∧
    (∀ src g k x, k = (match g with | some n => groupKey src n | none => pairKey src) → mfind s.ft.asm k = some x →
      x.lastAt + reg s Reg.ftReassemblyTimeoutUs * 1000 ≤ s.time → ∃ t, Answers (.reassemblyTimeout src g) s t ∧
        mfind t.ft.asm k = none)

/-- Credit (R337, R345, R346). The oldest entry is handled: a request adds its units to its grant context, a grant adds 4,096 bytes a unit
to its VOQ or is counted stray, a return lowers the outstanding bytes, a busy answer holds the VOQ off for 1 us, a probe is answered with
its time, and an answer sets the round trip and REACHABLE or TOO_FAR by the horizon. The hold-off ends; credit unused for `ft_return_ns`
goes back; a request unanswered for `ft_request_timeout_us` is counted; and a port's grant engine with tokens for one unit grants one to
the next context in turn. Which VOQ an answer goes to, and the size of a grant bucket, are the model's choice (notes/assumptions/34). -/
def Obligations.CreditEntriesAndTimers : Prop :=
  ∀ (s : State) (q : Nat), OdTidy s →
    (∀ src e r, s.ft.inbox = (src, e) :: r →
      (bits e 114 112 = 1 → s.ft.grants.length < 65536 → ∃ t, Answers (.creditRequestEntry) s t ∧ t.ft.inbox = r ∧
        mget {} t.ft.grants (grantKey src (cePort e) (ceClass e)) =
          { mget {} s.ft.grants (grantKey src (cePort e) (ceClass e)) with
            p := (mget {} s.ft.grants (grantKey src (cePort e) (ceClass e))).p + ceUnits e }) ∧
      (bits e 114 112 = 2 → answeredVoq s src e = some q → ∃ t, Answers .creditGrantEntry s t ∧ t.ft.inbox = r ∧
        (mget {} t.qm.voqs q).b = (mget {} s.qm.voqs q).b + 4096 * ceUnits e) ∧
      (bits e 114 112 = 2 → answeredVoq s src e = none → ∃ t, Answers .creditGrantEntry s t ∧
        reg t Reg.voqStrayGrants = (reg s Reg.voqStrayGrants + 1) % 2 ^ 64 ∧ bit (reg t Reg.qmCause) 7 = true) ∧
      (bits e 114 112 = 3 → ∃ t, Answers .creditReturnEntry s t ∧ t.ft.inbox = r ∧
        (mget {} t.ft.grants (grantKey src (cePort e) (ceClass e))).o =
          (mget {} s.ft.grants (grantKey src (cePort e) (ceClass e))).o - ceBytes e) ∧
      (bits e 114 112 = 4 → answeredVoq s src e = some q → ∃ t, Answers .creditBusyEntry s t ∧ t.ft.inbox = r ∧
        (mget {} t.qm.voqs q).busyUntil = some (s.time + 1000) ∧ (mget {} t.qm.voqs q).r = (mget {} s.qm.voqs q).r - ceUnits e) ∧
      (bits e 114 112 = 5 → Answers .probeEntry s (gatherEntry { s with ft.inbox := r } src 8 (creditEntry 0 0 6 0 0 (ceTime e)))) ∧
      (bits e 114 112 = 6 → destState s src ≠ 0 → ∃ t, Answers .probeAnswerEntry s t ∧ t.ft.inbox = r ∧
        (destRec t src).rtt = (timeNs s + 2 ^ 32 - ceTime e) % 2 ^ 32 ∧
        destState t src = if (timeNs s + 2 ^ 32 - ceTime e) % 2 ^ 32 ≤ reg s Reg.ftHorizonNs then 2 else 3)) ∧
    (∀ a, (mget {} s.qm.voqs q).busyUntil = some a → a ≤ s.time → ∃ t, Answers (.creditBusyHoldoffEnd q) s t ∧
      (mget {} t.qm.voqs q).busyUntil = none) ∧
    (∀ a, (mget {} s.qm.voqs q).creditSince = some a → a + reg s Reg.ftReturnNs ≤ s.time → holdsRef (queue s q) = false →
      0 < (mget {} s.qm.voqs q).b → ∃ t, Answers (.creditReturnTimer q) s t ∧ (mget {} t.qm.voqs q).b = 0) ∧
    (0 < (mget {} s.qm.voqs q).r → (mget {} s.qm.voqs q).answerAt + reg s Reg.ftRequestTimeoutUs * 1000 ≤ s.time →
      ∃ t, Answers (.creditRequestTimeout q) s t ∧ reg t Reg.ftRequestTimeouts = (reg s Reg.ftRequestTimeouts + 1) % 2 ^ 64 ∧
        bit (reg t Reg.ftCause) 6 = true) ∧
    (∀ p k, (grantTurn s p).find? (grantable s) = some k → 4096 * 8 * 100 ≤ grantTokens s p → portSpeed s p ≠ 0 →
      ∃ t, Answers (.grantIssue p) s t ∧ mget grantCap t.ft.tokens p = grantTokens s p - 4096 * 8 * 100 ∧
        mget {} t.ft.grants k = { p := (mget {} s.ft.grants k).p - 1, o := (mget {} s.ft.grants k).o + 4096 })

/-- Pennants sent (R330, R333, R335–R337, R340, R344): beacons at each 100 us; a bundle whose beacons were missed three times loses its
distance; a probe goes to a device that may be reachable, and three without an answer make it TOO_FAR; the oldest credit entries leave in
one pennant; and a packet whose rest fits one pennant leaves in it and is released. Where every bundle is held back, the model's choice is
notes/assumptions/33. -/
def Obligations.PennantsSent : Prop :=
  ∀ (s : State) (d : Nat), OdTidy s →
    (timeNs s % 100000 = 0 → flag s Reg.ftBeaconEnable = true → namesDevice (ownId s) = true → ∃ t, Answers .beaconSend s t ∧
      t.ft.beacons = (s.ft.beacons + 1) % 2 ^ 24 ∧ ∀ b < 8, pathDown s b = false → (bundle s b).ctrl.length < 64 →
        (bundle t b).ctrl = (bundle s b).ctrl ++ [beacon s (ownId s) s.ft.beacons 0 b]) ∧
    (timeNs s % 100000 = 0 → (mkeys s.ft.recs).Nodup → d ∈ mkeys s.ft.recs → (destRec s d).dist.length = 8 →
      (destRec s d).miss.length = 8 → ∃ t, Answers .beaconMissCheck s t ∧ (destRec t d).heard = 0 ∧ ∀ b < 8,
        (natAt (destRec s d).dist b ≠ 0xFFFF → bit (destRec s d).heard b = false → natAt (destRec s d).miss b = 2 →
          natAt (destRec t d).dist b = 0xFFFF) ∧
        (bit (destRec s d).heard b = true → natAt (destRec t d).dist b = natAt (destRec s d).dist b)) ∧
    ((destState s d = 1 ∨ destState s d = 3) → (destRec s d).probeAt = none → Answers (.probeSend d) s (probeDest s d)) ∧
    (∀ a, (destRec s d).probeAt = some a → destReachable s d = true → 3 ≤ (destRec s d).silent →
      a + reg s Reg.ftHorizonNs < s.time → ∃ t, Answers (.probeUnanswered d) s t ∧ destState t d = 3 ∧
        bit (reg t Reg.ftCause) 2 = true) ∧
    (∀ c r b u, s.pwr.flushing = false → mget [] s.ft.gather d = c :: r → (routeSet s d).isEmpty = false →
      namesDevice (ownId s) = true → spray { s with ft.gather := mset [] s.ft.gather d r } d none none bufferRoom = some (b, u) →
      ∃ t, Answers (.creditPennantSend d) s t ∧ mget [] t.ft.gather d = r ∧
        (bundle t b).credit = (bundle s b).credit ++ [pennant c.ty (ownId s) d 0 0 0 (16 * c.entries.length) 0 0
          ((c.entries.map (fun e => if bits e 114 112 = 5 then setBits e 63 32 (timeNs s % 2 ^ 32) else e)).flatMap (beBytes 16))]) ∧
    (∀ q i o p b u n, Sound s → fabxLine s q = [(i, o)] → mfind s.outs i = some o → o.ref.kind ≠ .fabricCopy →
      namesDevice (ownId s) = true → s.pwr.flushing = false → pkt? s o.ref.pkt = some p → p.poison = false → formWhole p = true →
      n = dDestDevice o.ref.desc → (destState s n = 1 ∨ destState s n = 2) → mget q s.ft.busy n = q →
      (destRec s n).startOwed = false → (fabricForm s o p false).length ≤ mget 0 s.ft.sentOff i + 240 →
      spray s n none (some (dClass o.ref.desc)) bufferRoom = some (b, u) → ∃ t, Answers (.pennantSend q) s t ∧
        (bundle t b).own = (bundle s b).own ++ [pennant (if mget 0 s.ft.sentOff i = 0 then 1 else 4) (ownId s) n
          (dDestPort o.ref.desc) (dClass o.ref.desc) (mget 0 s.ft.pairSeq n)
          ((fabricForm s o p false).drop (mget 0 s.ft.sentOff i)).length 0 0
          ((fabricForm s o p false).drop (mget 0 s.ft.sentOff i))] ∧
        mget 0 t.ft.pairSeq n = (mget 0 s.ft.pairSeq n + 1) % 2 ^ 24 ∧ mfind t.outs i = none ∧
        t.led.dFabric = s.led.dFabric + 1)

/-! ### Observability (ch. 14) -/

/-- The ledger, the counters and the windows (R360, R361, R363, R364, R367–R370, R377). At each ms the epoch's record joins the history
and the terms start again, and an imbalance of a complete epoch is counted, named and reported. A counter's selector is stored or refused;
its value is stored; a wrap pulses its overflow or carries into the next counter. A window ends with the octets since the last, its
sequence one higher. A read of the watermark answers it and leaves the depth. A histogram sample adds one to its bin; clears clear. -/
def Obligations.LedgerCountersAndWindows : Prop :=
  ∀ (s : State) (c : Client) (n v : Nat), OdTidy s →
    (Sound s → timeNs s % 1000000 = 0 → ∃ t, Answers .ledgerEpochBoundary s t ∧
      t.led = { oRx := s.led.oRx, oFab := s.led.oFab, oQueue := s.led.oQueue, oOut := s.led.oOut, oGen := s.led.oGen,
                oStart := s.led.oRx + s.led.oFab + s.led.oQueue + s.led.oOut + s.led.oGen, incomplete := false,
                history := (ledgerRecord s.led (timeNs s / 1000000 - 1) :: s.led.history).take 64 } ∧
      (s.led.incomplete = false → s.led.imbalance ≠ 0 →
        reg t Reg.ledgerMismatches = (reg s Reg.ledgerMismatches + 1) % 2 ^ 64 ∧
        reg t Reg.ledgerLastMismatch = timeNs s / 1000000 - 1 ∧ bit (reg t Reg.obsCause) 0 = true) ∧
      ((s.led.incomplete = true ∨ s.led.imbalance = 0) → t = { s with led := t.led })) ∧
    (Permitted s c (Reg.perfSelect n) v → perfInstances (bits v 27 18) > bits v 17 0 → (perfModes (bits v 27 18)).contains (bits v 29 28) = true →
      (bit v 30 = false ∨ n ≠ 4095) → Does (.perfSelectWrite c n v) s c (setReg s (Reg.perfSelect n) v)) ∧
    (Permitted s c (Reg.perfSelect n) v → v ≠ 0 → perfInstances (bits v 27 18) = 0 →
      TurnedAway (.perfSelectWrite c n v) s c (Reg.perfSelect n) .refused) ∧
    (Permitted s c (Reg.perfCounter n) v → Does (.perfCounterWrite c n v) s c
      { setReg s (Reg.perfCounter n) v with obs.perfOverflow := mset false s.obs.perfOverflow n false }) ∧
    (n < 4095 → bit (reg s (Reg.perfSelect n)) 31 = true → reg s (Reg.perfCounter n) = 2 ^ 32 - 1 →
      ∃ t, Answers (.perfCounterWrap n) s t ∧ reg t (Reg.perfCounter n) = 0 ∧
        (bit (reg s (Reg.perfSelect n)) 30 = false → mget false t.obs.perfOverflow n = true ∧ bit (reg t Reg.obsCause) 2 = true) ∧
        (bit (reg s (Reg.perfSelect n)) 30 = true → bit (reg s (Reg.perfSelect (n + 1))) 31 = true →
          reg s (Reg.perfCounter (n + 1)) + 1 < 2 ^ 32 →
          reg t (Reg.perfCounter (n + 1)) = reg s (Reg.perfCounter (n + 1)) + 1)) ∧
    (n < 1024 → atMultiple s (2 ^ reg s (Reg.bwWindowK n) * 1000) = true → mget 0 s.obs.bwSkip n = 0 →
      ∃ t, Answers (.bwWindowEnd n) s t ∧
        reg t (Reg.bwRxBytes n) = octetsSince (reg s (Reg.fbRxOctets n)) (mget 0 s.obs.bwRx n) ∧
        reg t (Reg.bwTxBytes n) = octetsSince (reg s (Reg.fbTxOctets n)) (mget 0 s.obs.bwTx n) ∧
        reg t (Reg.bwSeq n) = (reg s (Reg.bwSeq n) + 1) % 2 ^ 32 ∧ mget 0 t.obs.bwRx n = reg s (Reg.fbRxOctets n)) ∧
    (Permitted s c (Reg.bwWindowK n) v → Does (.bwWindowKWrite c n v) s c
      { setReg s (Reg.bwWindowK n) v with obs.bwSkip := mset 0 s.obs.bwSkip n 1 }) ∧
    (readChecks s c Reg.qwmValue = none → Answers (.qwmValueRead c) s
      (emit (setQueue s (reg s Reg.qwmSelect) { queue s (reg s Reg.qwmSelect) with
        watermark := (queue s (reg s Reg.qwmSelect)).qs + 8 * (queue s (reg s Reg.qwmSelect)).qc })
        (.status (callerOf c) 0 (valueBytes Reg.qwmValue (queue s (reg s Reg.qwmSelect)).watermark)))) ∧
    (∀ l b, n < 64 → bit (reg s (Reg.histMonitor n)) 63 = true → atMultiple s (bits (reg s (Reg.histMonitor n)) 39 20 * 128) = true →
      l = (if mget [] s.obs.histBins n = [] then List.replicate 16 0 else mget [] s.obs.histBins n) →
      b = histBin (qDepth (queue s (bits (reg s (Reg.histMonitor n)) 62 44))) (bits (reg s (Reg.histMonitor n)) 43 40) →
      ∃ t, Answers (.histSample n) s t ∧ t = { s with obs.histBins := t.obs.histBins } ∧
        mget [] t.obs.histBins n = putAt l b (min (natAt l b + 1) (2 ^ 64 - 1))) ∧
    (Permitted s c (Reg.histClear n) v → v ≠ 0 → Does (.histClear c n v) s c
      { s with obs.histBins := mset [] s.obs.histBins n [] }) ∧
    (Permitted s c (Reg.sojClear n) v → v ≠ 0 → Does (.sojClear c n v) s c
      { setReg s (Reg.sojNegative n) 0 with obs.sojBins := mset [] s.obs.sojBins n [] })

/-- Ensign and the mirror sessions (R371, R375): snapshots join the buffer, records leave in a message in their order and are counted,
templates leave when due, and the enable and a session are taken or refused by their rules. -/
def Obligations.EnsignAndMirrors : Prop :=
  ∀ (s : State) (c : Client) (n : Nat) (b : List Byte), OdTidy s →
    (flag s Reg.ensEnable = true → atMultiple s (reg s Reg.ensSnapshotUs * 1000) = true →
      s.obs.ensRecords.length + (chunks 4 1024 (blk s Reg.ensSnapshotList)).length ≤ 8192 → ∃ t, Answers .ensignSnapshot s t ∧
        t.obs.ensRecords = s.obs.ensRecords ++ (chunks 4 1024 (blk s Reg.ensSnapshotList)).map
          (fun q => (258, s.time, snapshotRecord s (beNat q))) ∧ t = { s with obs := t.obs }) ∧
    (∀ r rest k, s.obs.ensRecords = r :: rest → k = max 1 (recordsFit (r :: rest) none (ipfixRoom s - 16)) → s.pwr.flushing = false →
      (k < rest.length + 1 ∨ r.2.1 + reg s Reg.ensFlushUs * 1000 ≤ s.time) → ∃ t, Answers .ensignMessageSend s t ∧
        t.obs.ensSeq = (s.obs.ensSeq + k) % 2 ^ 32 ∧ t.led.aEnsign = s.led.aEnsign + 1 ∧
        reg t Reg.ensRecordsSent = (reg s Reg.ensRecordsSent + k) % 2 ^ 64) ∧
    (flag s Reg.ensEnable = true → s.pwr.flushing = false →
      (s.obs.tmplDue = true ∨ s.obs.tmplAt + reg s Reg.ensTemplateS * 1000000000 ≤ s.time) → ∃ t, Answers .ensignTemplateSend s t ∧
        t.obs.tmplDue = false ∧ t.obs.tmplAt = s.time ∧ t.led.aEnsign = s.led.aEnsign + 1) ∧
    (Permitted s c Reg.ensEnable n → n ≠ 0 → reg s Reg.ensPen ≠ 0 → (qType s (reg s Reg.ensDest) = 1 ∨ qType s (reg s Reg.ensDest) = 2) →
      Does (.ensEnableWrite c n) s c { setReg s Reg.ensEnable n with obs.tmplDue := true }) ∧
    (Permitted s c Reg.ensEnable n → n ≠ 0 → reg s Reg.ensPen = 0 → TurnedAway (.ensEnableWrite c n) s c Reg.ensEnable .refused) ∧
    (domainChecks s c (Reg.mirrorSession n) = none → b.length = 16 → bits (beNat b) 72 64 ≠ 1 →
      (msKind (beNat b) = 0 ∨ msKind (beNat b) = 2) → msDevice (beNat b) = 0 → msPort (beNat b) = 0 → msClass (beNat b) = 0 →
      0 < beNat b / 2 ^ 56 →
      Does (.mirrorSessionWrite c n b) s c (setBlk s (Reg.mirrorSession n) (beBytes 16 (beNat b / 2 ^ 56 * 2 ^ 56)))) ∧
    (domainChecks s c (Reg.mirrorSession n) = none → b.length = 16 → msKind (beNat b) = 1 → msQueue (beNat b) ≠ 0 →
      TurnedAway (.mirrorSessionWrite c n b) s c (Reg.mirrorSession n) .refused)

/-! ### Events (ch. 15) -/

/-- Causes (R380, R381, R388): a cause enable is stored, and a bit that is newly enabled over a set cause pulses its source; a write of
ones clears causes and leaves the sticky bits; `evt_test_raise` sets its cause, which pulses its source where it is enabled. -/
def Obligations.CausesAndPulses : Prop :=
  ∀ (s : State) (c : Client) (k v : Nat) (r : CauseReg), OdTidy s →
    (causeOfEntry c k = some (r, true) → Permitted s c k v → ∃ t, Does (.causeEnableWrite c k v) s c t ∧
      reg t r.enableKey = writable k v ∧ Noted [r.enableKey] s t ∧
      ∀ b src, b < 32 → bit (reg s r.key) b = true → bit (writable k v) b = true → bit (reg s r.enableKey) b = false →
        r.source s b = some src → srcSticky t src = true) ∧
    (causeOfEntry c k = some (r, false) → Permitted s c k v →
      Does (.causeClear c k v) s c (setReg s r.key (dropBits (reg s r.key) (writable k v)))) ∧
    (Permitted s c Reg.evtTestRaise v → 1008 ≤ v → v ≤ 1023 → ∃ t, Does (.evtTestRaise c v) s c t ∧
      bit (reg t Reg.evtTestCause) (v - 1008) = true ∧ Noted [Reg.evtTestCause] s t ∧
      (bit (reg s Reg.evtTestCause) (v - 1008) = false → bit (reg s Reg.evtTestCauseEnable) (v - 1008) = true →
        srcSticky t v = true))

/-- Sticky bits, masks, routes and the firmware's queue (R380, R382, R384–R386, R389): a sticky bit is cleared but for a pulse of the same
nanosecond; masks and routes are stored; a reserved source refuses; the oldest entry of the queue is taken; the controls of MSI-X are
stored. -/
def Obligations.EventEntries : Prop :=
  ∀ (s : State) (c : Client) (n v : Nat), OdTidy s →
    (Permitted s c (Reg.evtSticky n) v → reservedSource n = false → v ≠ 0 → mfind s.evt.pulsedAt n ≠ some s.time →
      Does (.evtStickyClear c n v) s c { s with evt.sticky := mset false s.evt.sticky n false }) ∧
    (Permitted s c (Reg.evtSticky n) v → reservedSource n = false → mfind s.evt.pulsedAt n = some s.time →
      Does (.evtStickyClear c n v) s c s) ∧
    (Permitted s c (Reg.evtSticky n) v → reservedSource n = true → TurnedAway (.evtStickyClear c n v) s c (Reg.evtSticky n) .refused) ∧
    (Permitted s c (Reg.evtGroupSticky n) v → c = .pf → reservedSource (16 * n) = false → ∃ t, Does (.evtGroupStickyClear c n v) s c t ∧
      t = { s with evt.sticky := t.evt.sticky } ∧
      ∀ i < 16, bit v i = true → mfind s.evt.pulsedAt (16 * n + i) ≠ some s.time → srcSticky t (16 * n + i) = false) ∧
    (Permitted s c (Reg.evtMask n) v → reservedSource n = false → ∃ t, Does (.evtMaskWrite c n v) s c t ∧
      reg t (Reg.evtMask n) = v ∧ OnlyEntries s t [Reg.evtMask n] ∧ t.evt.sticky = s.evt.sticky) ∧
    (Permitted s c (Reg.evtGroupMask n) v → n < 64 → reservedSource (16 * n) = false → ∃ t, Does (.evtGroupMaskWrite c n v) s c t ∧
      (∀ i < 16, reg t (Reg.evtMask (16 * n + i)) = b2n (bit v i)) ∧
      OnlyEntries s t ((List.range 16).map (fun i => Reg.evtMask (16 * n + i)))) ∧
    (Permitted s c (Reg.evtRoute n) v → reservedSource n = false → (bit v 22 = false ∨ bits v 21 16 ≠ 0) →
      (bit v 11 = bit (srcRoute s n) 11 ∨ 3 ≤ levelOf s c) → ∃ t, Does (.evtRouteWrite c n v) s c t ∧
        reg t (Reg.evtRoute n) = writable (Reg.evtRoute n) v ∧ OnlyEntries s t [Reg.evtRoute n]) ∧
    (Permitted s c (Reg.evtRoute n) v → bit v 11 ≠ bit (srcRoute s n) 11 → levelOf s c < 3 →
      TurnedAway (.evtRouteWrite c n v) s c (Reg.evtRoute n) .level) ∧
    (readChecks s c Reg.evtFwQueueHigh = none → Answers (.evtFwQueueHighRead c) s (emit (setReg s Reg.evtFwQueueHigh 0)
      (.status (callerOf c) 0 (valueBytes Reg.evtFwQueueHigh (reg s Reg.evtFwQueueHigh))))) ∧
    (∀ e r, s.evt.fwQueue = e :: r → s.fw.running = true → ∃ t, Answers .fwEventTake s t ∧ t.evt.fwQueue = r ∧ t = { s with evt := t.evt }) ∧
    (∀ on, (n = 0 ∨ n ≤ reg s Reg.hostNumVfs) → mget false s.host.inFlr n = false → v < vectorCount n →
      (∃ t, Answers (.msixControlWrite n 0 v on) s t ∧ (msixOf t n).enable = on) ∧
      (∃ t, Answers (.msixControlWrite n 1 v on) s t ∧ (msixOf t n).funcMask = on) ∧
      (∃ t, Answers (.msixControlWrite n 2 v on) s t ∧ mget false (msixOf t n).vecMask v = on))

/-! ### The object dictionary (ch. 16) -/

/-- Writes of entries that have no row of their own (R394, R402, R403, R405): a permitted write has the effect of its entry's rule; one
that a check turns away changes nothing but the record of the failure; on the direct map the answer is in that record alone; the mailbox
windows take bytes as memory does. The status that goes out is the model's record of the answer (notes/assumptions/63); the order of the
checks is its reading of R394 (17). -/
def Obligations.RegisterWrites : Prop :=
  ∀ (s u : State) (c : Client) (k v fn off : Nat) (st : Status) (b : List Byte), Quiet s → Quiet u →
    (Permitted s c k v → entryWrite c k v s = .done u → Does (.registerWrite (.entry c k v)) s c u) ∧
    (Permitted s c k v → entryWrite c k v s = .fail st → TurnedAway (.registerWrite (.entry c k v)) s c k st) ∧
    (writeChecks s c k v = some st → TurnedAway (.registerWrite (.entry c k v)) s c k st) ∧
    (odFind k = none → TurnedAway (.registerWrite (.entry c k v)) s c k .noEntry) ∧
    (writeChecks s c k v = none → inRange k v = false → TurnedAway (.registerWrite (.entry c k v)) s c k .refused) ∧
    (fnExists s fn = true → fnInFlr s fn = false → (b.length = 4 ∨ b.length = 8) → off + b.length < 0x8000000 →
      ((off < 0x8F8000 ∨ 0x8FA000 ≤ off) → mapWrite s (fnClient fn) off b = .done u → Answers (.registerWrite (.map fn off b)) s u) ∧
      ((off < 0x8F8000 ∨ 0x8FA000 ≤ off) → mapWrite s (fnClient fn) off b = .fail st →
        Answers (.registerWrite (.map fn off b)) s (noteFailure s (fnClient fn) (off / 8) st)) ∧
      (0x8F8000 ≤ off → off < 0x8F9000 → off % b.length = 0 → Answers (.registerWrite (.map fn off b)) s
        (setMailbox s fn { mailbox s fn with request := splice (padTo (mailbox s fn).request 4096) (off - 0x8F8000) b })))

/-- Messages in a function's mailbox (R405–R410, R416, R423): READ and WRITE of one item answer the item's status; a transfer begins under
a handle that is not in use, moves in segments at its position, and is committed or dropped at its end; a job starts and is cancelled; a
probe is answered while probes are open, and discarded while they are not. Answers to malformed and oversized messages, and refused
commits, are the model's choice (notes/assumptions/51, 52, 54). -/
def Obligations.MailboxMessages : Prop :=
  ∀ (s : State) (fn : Nat) (c : Client) (m b : List Byte) (h k : Nat), OdTidy s → Quiet s → c = fnClient fn → b = msgBody m →
    (Asked s fn 1 m → byteAt b 0 = 1 → b.length = 5 → k = refKey b 1 → k ≠ Reg.synEventGroups →
      readable s c k (fun t => t == .domain || t == .job) = none → ∀ x, x = readBytes s c k → x.1.length ≤ 4000 →
      ∃ t, Answers (.synsaRead (.mailbox fn)) s t ∧ Replied x.2 t fn (response m 0 ⟨0,
        [1, 0, byte (((odFind k).map (fun r => r.ty.code)).getD 0)] ++ beBytes 2 x.1.length ++ x.1⟩)) ∧
    (Asked s fn 2 m → byteAt b 0 = 1 → b.length = 7 + beAt b 5 2 → k = refKey b 1 →
      (∀ u, typedWrite s c k (b.drop 7) = .done u → Quiet u →
        ∃ t, Answers (.synsaWrite (.mailbox fn)) s t ∧ Replied u t fn (response m 0 ⟨0, [1, 0]⟩)) ∧
      (∀ st, typedWrite s c k (b.drop 7) = .fail st → ∃ t, Answers (.synsaWrite (.mailbox fn)) s t ∧
        Replied (noteFailure s c k st) t fn (response m 0 ⟨0, [1, byte st.code]⟩))) ∧
    (Asked s fn 3 m → b.length = 12 → k = refKey b 0 →
      (beginRefusal s c k (byteAt b 4) (beAt b 8 4) = none → ∃ g u t, Answers (.domainBegin (.mailbox fn)) s t ∧ g < 2 ^ 16 ∧
        mfind s.dict.transfers g = none ∧
        (byteAt b 4 = 0 → mfind u.dict.transfers g = some {
          client := c, entry := k, write := true, total := beAt b 8 4, lastAt := s.time }) ∧
        (byteAt b 4 = 1 → mfind u.dict.transfers g = some {
          client := c, entry := k, write := false, total := (domainValue s k).length, buf := domainValue s k, lastAt := s.time }) ∧
        u = { s with freeCtr := u.freeCtr, dict.transfers := u.dict.transfers } ∧
        Replied u t fn (response m 0 ⟨0, beBytes 2 g ++ [0, 0] ++
          beBytes 4 (if byteAt b 4 = 1 then (domainValue s k).length else 0) ++ beBytes 2 4068⟩)) ∧
      (∀ st, beginRefusal s c k (byteAt b 4) (beAt b 8 4) = some st → ∃ t, Answers (.domainBegin (.mailbox fn)) s t ∧
        Replied (noteFailure s c k st) t fn (response m 0 ⟨st.code, []⟩))) ∧
    (∀ x, transferOf s c h = some x → h = beAt b 0 2 →
      (Asked s fn 4 m → x.write = true → b.length = 8 + beAt b 2 2 → beAt b 4 4 = x.pos → x.pos + beAt b 2 2 ≤ x.total →
        ∃ t, Answers (.domainSegment (.mailbox fn)) s t ∧ Replied { s with dict.transfers := mput s.dict.transfers h { x with
          buf := x.buf ++ b.drop 8, pos := x.pos + beAt b 2 2, lastAt := s.time } } t fn
          (response m 0 ⟨0, beBytes 2 h ++ beBytes 2 (beAt b 2 2) ++ beBytes 4 x.pos⟩)) ∧
      (Asked s fn 4 m → x.write = false → b.length = 8 → beAt b 4 4 = x.pos → beAt b 2 2 ≤ 4068 → ∀ d,
        d = slice x.buf x.pos (beAt b 2 2) → ∃ t, Answers (.domainSegment (.mailbox fn)) s t ∧
          Replied { s with dict.transfers := mput s.dict.transfers h { x with pos := x.pos + d.length, lastAt := s.time } } t fn
            (response m 0 ⟨0, beBytes 2 h ++ beBytes 2 d.length ++ beBytes 4 x.pos ++ d⟩)) ∧
      (Asked s fn 4 m → (x.write = true → b.length = 8 + beAt b 2 2) → (x.write = false → b.length = 8) → beAt b 4 4 ≠ x.pos →
        ∃ t, Answers (.domainSegment (.mailbox fn)) s t ∧
          Replied (noteFailure s c x.entry .sequence) t fn (response m 0 ⟨9, []⟩)) ∧
      (Asked s fn 5 m → b.length = 4 → byteAt b 2 = 1 → ∃ t, Answers (.domainEnd (.mailbox fn)) s t ∧
        Replied (dropTransfer s h) t fn (response m 0 ⟨0, beBytes 2 h ++ [0, 0]⟩)) ∧
      (Asked s fn 5 m → b.length = 4 → byteAt b 2 = 0 → x.write = true → x.pos = x.total →
        domainChecks (dropTransfer s h) c x.entry = none →
        ∀ u, domainCommit c x.entry x.buf (dropTransfer s h) = .done u → Quiet u → ∃ t, Answers (.domainEnd (.mailbox fn)) s t ∧
          Replied u t fn (response m 0 ⟨0, beBytes 2 h ++ [0, 0]⟩)) ∧
      (Asked s fn 5 m → b.length = 4 → byteAt b 2 = 0 → x.write = true → x.pos ≠ x.total →
        ∃ t, Answers (.domainEnd (.mailbox fn)) s t ∧
          Replied (noteFailure s c x.entry .refused) t fn (response m 0 ⟨1, []⟩))) ∧
    (Asked s fn 6 m → b.length = 4 → k = refKey b 0 → ∀ u, jobStart s c k (jobRule k) = .done u → Quiet u →
      ∃ t, Answers (.jobStart (.mailbox fn)) s t ∧ Replied u t fn (response m 0 ⟨0, beBytes 8 (job u k).word⟩)) ∧
    (Asked s fn 7 m → b.length = 8 → k = refKey b 0 → readable s c k (fun t => t != .job) = none →
      (byteAt b 4 = 0 → ∃ t, Answers (.jobStatus (.mailbox fn)) s t ∧
        Replied s t fn (response m 0 ⟨0, beBytes 8 (job s k).word⟩)) ∧
      (byteAt b 4 = 1 → ((odFind k).map (·.wr)).getD 3 ≤ levelOf s c → jobRunning s k = true → k ≠ Reg.clsEpochSwap →
        ∀ u, u = setJob s k { job s k with cancel := true } → ∃ t, Answers (.jobStatus (.mailbox fn)) s t ∧
          Replied u t fn (response m 0 ⟨0, beBytes 8 (job u k).word⟩))) ∧
    (mailboxMessage s fn (discoverOp 1) = some m →
      (flag s Reg.synDiscoverOpen = true → ∃ t, Answers (.discoverProbe (.mailbox fn)) s t ∧
        Replied s t fn (response m 0 ⟨0, identityBody s 1 0xFF⟩)) ∧
      (flag s Reg.synDiscoverOpen = false → Answers (.discoverProbe (.mailbox fn)) s
        (setMailbox s fn { mailbox s fn with state := 0, len := 0 })))

/-- Sessions (R418–R421, R423): an open under its level key makes a session of a number that is not in use; a request takes its sequence
number, a replay and a failed tag are counted; a close and an idle time end the session; events and announces go out; and an idle transfer
is dropped (R408). Where R418 to R421 leave a corner open, the model's reading is notes/assumptions/50 and 55. -/
def Obligations.SessionsOpenServeAndEnd : Prop :=
  (∀ high window n, acceptSeq high window n = none ↔ n ≤ high ∧ (n + 64 ≤ high ∨ bit window (high - n) = true)) ∧
  ∀ (s : State), OdTidy s →
    (∀ via place peer m u, takeMessage s via (discoverOp 2) = some (place, peer, m, u) → placeOn u place = true →
      flag u Reg.synKeySet = true → byteAt (msgBody m) 1 ≤ 3 → (msgBody m).length = 36 →
      tagHolds (levelKey u (byteAt (msgBody m) 1)) m = true → msgSession m = 0 → msgSeq m ≠ 0 → u.dict.sessions.length < 32 →
      ∃ t i x nd, Answers (.sessionOpen via) s t ∧ i ≠ 0 ∧ i < 2 ^ 32 - 1 ∧ mfind u.dict.sessions i = none ∧
        mfind t.dict.sessions i = some x ∧ x.level = byteAt (msgBody m) 1 ∧ x.transport = place ∧ x.peer = peer ∧ nd.length = 16 ∧
        x.key = sessionKey (levelKey u (byteAt (msgBody m) 1)) (slice (msgBody m) 4 16 ++ nd) i ∧ x.high = 0 ∧ x.lastAt = u.time) ∧
    (∀ via place peer m u x, takeMessage s via (fun m => msgType m == 1 && !msgIsResponse m) = some (place, peer, m, u) →
      placeOn u place = true → Quiet u → OdTidy u → flag u Reg.synKeySet = true → mfind u.dict.sessions (msgSession m) = some x →
      (tagHolds x.key m = true → msgSeq m ≠ 0 → ∀ w, acceptSeq x.high x.window (msgSeq m) = some w → ∃ t y,
        Answers (.synsaRead via) s t ∧ mfind t.dict.sessions (msgSession m) = some y ∧ y.high = w.1 ∧ y.window = w.2 ∧
        y.lastAt = u.time ∧ y.key = x.key ∧ y.level = x.level) ∧
      (tagHolds x.key m = true → msgSeq m ≠ 0 → acceptSeq x.high x.window (msgSeq m) = none →
        x.cache.find? (fun e => e.1 == msgSeq m) = none → ∃ t, Answers (.synsaRead via) s t ∧
          reg t Reg.synReplays = (reg u Reg.synReplays + 1) % 2 ^ 64 ∧ bit (reg t Reg.odCause) 2 = true) ∧
      (tagHolds x.key m = false → ∃ t, Answers (.synsaRead via) s t ∧
        reg t Reg.synAuthFailures = (reg u Reg.synAuthFailures + 1) % 2 ^ 64 ∧ bit (reg t Reg.odCause) 1 = true)) ∧
    (∀ via place peer m u x w, takeMessage s via (discoverOp 3) = some (place, peer, m, u) → placeOn u place = true →
      flag u Reg.synKeySet = true → mfind u.dict.sessions (msgSession m) = some x → tagHolds x.key m = true → msgSeq m ≠ 0 →
      acceptSeq x.high x.window (msgSeq m) = some w → ∃ t, Answers (.sessionClose via) s t ∧
        mfind t.dict.sessions (msgSession m) = none) ∧
    (∀ i x, mfind s.dict.sessions i = some x → x.lastAt + reg s Reg.synSessionIdleS * 1000000000 ≤ s.time →
      ∃ t, Answers (.sessionIdleTimeout i) s t ∧ mfind t.dict.sessions i = none) ∧
    (∀ h x, mfind s.dict.transfers h = some x → x.lastAt + reg s Reg.odDomainIdleMs * 1000000 ≤ s.time →
      Answers (.domainIdleTimeout h) s { s with dict.transfers := mdel s.dict.transfers h }) ∧
    (∀ i x a, mfind s.dict.sessions i = some x → mget [] s.evt.gather i ≠ [] → mfind s.evt.gatherAt i = some a →
      s.fw.running = true → s.pwr.inReset = false → (a + 10000000 ≤ s.time ∨ 32 ≤ (mget [] s.evt.gather i).length) →
      mget 0 s.evt.evSeq i + 1 < 2 ^ 64 → ∃ t, Answers (.synsaEventSend i) s t ∧
        mget [] t.evt.gather i = (mget [] s.evt.gather i).drop 32 ∧ mget 0 t.evt.evSeq i = mget 0 s.evt.evSeq i + 1 ∧
        (16 ≤ x.transport → ∃ b, t.sent = .synsa (x.transport - 16) x.peer
          (tagged x.key (synsaMessage 8 0 0 i (mget 0 s.evt.evSeq i + 1) b)) :: s.sent)) ∧
    (s.fw.running = true → s.pwr.inReset = false → bit (reg s Reg.synEnable) 2 = true → s.dict.announcedAt + 1000000000 ≤ s.time →
      ∃ t, Answers .announceSend s t ∧ t.dict.announcedAt = s.time ∧ ∀ b < 8, channelUp s b = true →
        (bundle t b).mgOut = (bundle s b).mgOut ++ [synsaMessage 9 0 0 0 0 (identityBody s 4 b)]) ∧
    (∀ b p peer m u, takeMessage s (.channel b) (discoverOp 4) = some (p, peer, m, u) → placeOn u p = true →
      (msgBody m).length = 96 → msgSession m = 0 →
      Answers (.announceReceive b) s { u with dict.neighbours := mput u.dict.neighbours p (msgBody m, u.time) })

/-- Relaying (R425, R426): a request for another device goes on with one hop less and is remembered; one that cannot go on is counted and
answered; a response goes back where the request came from; and a request is forgotten after 100 ms. That an entry is kept 100 ms also
after its response, and that the origin takes a hop, is the model's reading (notes/assumptions/56). -/
def Obligations.RelayForwardsAndReturns : Prop :=
  ∀ (s : State),
    (∀ via place peer m h u, takeMessage s via (fun m => msgType m == 10 && !msgIsResponse m) = some (place, peer, m, u) →
      place < 8 → placeOn u place = true → Quiet u → OdTidy u → msgSession m = 0 → h = (msgBody m).take 16 → 16 ≤ (msgBody m).length →
      isOwn u (rhTarget h) = false → rhTarget h ≠ 0xFFFFF →
      (∀ b, relayExit u false h = some b → b < 8 → channelUp u b = true → 2 ≤ rhHop h → u.dict.relays.length < 256 →
        ∃ t, Answers (.synsaRelay via) s t ∧
          t.dict.relays = u.dict.relays ++ [{ relayId := rhId h, origin := rhOrigin h, arrival := place, at0 := u.time }] ∧
          (bundle t b).mgOut = (bundle u b).mgOut ++ [synsaMessage 10 0 0 0 (msgSeq m)
            (relayHeader (rhId h) (rhOrigin h) (rhTarget h) (rhHop h - 1) (rhExit h) 0 ++ (msgBody m).drop 16)] ∧
          reg t Reg.synRelayForwarded = (reg u Reg.synRelayForwarded + 1) % 2 ^ 64) ∧
      ((relayExit u false h = none ∨ rhHop h ≤ 1 ∨ 256 ≤ u.dict.relays.length) → ∃ t, Answers (.synsaRelay via) s t ∧
        t.dict.relays = u.dict.relays ∧ reg t Reg.synRelayDropped = (reg u Reg.synRelayDropped + 1) % 2 ^ 64 ∧
        bit (reg t Reg.odCause) 4 = true)) ∧
    (∀ b p peer m u e, takeMessage s (.channel b) (fun m => msgType m == 10 && msgIsResponse m) = some (p, peer, m, u) →
      placeOn u p = true → 16 ≤ (msgBody m).length →
      u.dict.relays.find? (fun e => e.relayId == rhId (msgBody m) && e.origin == rhOrigin (msgBody m)) = some e → e.arrival < 8 →
      Answers (.relayResponse b) s (channelSend u e.arrival m)) ∧
    Answers .relayEntryExpire s { s with dict.relays := s.dict.relays.filter (fun e => decide (s.time < e.at0 + 100000000)) }

/-- Counted writes (R399, R400, R417, R463). A permitted write of `ft_device_id`, `fw_rollback_floor` or the device key that changes the
value takes one count and begins to burn; a floor below the stored one or above the running image's is refused; a device key beyond its
places is turned away as exhausted; the end of a burn puts the value in effect, reports it and adds a record to the log. A write of the
device key closes every session. -/
def Obligations.CountedWritesBurn : Prop :=
  ∀ (s : State) (c : Client) (v : Nat) (b : List Byte), OdTidy s →
    (Permitted s c Reg.ftDeviceId v → writable Reg.ftDeviceId v ≠ reg s Reg.ftDeviceId → writable Reg.ftDeviceId v ≠ 0 →
      writable Reg.ftDeviceId v ≠ 0xFFFFF → mget 0 s.dict.fuseCounts Reg.ftDeviceId < cwPlaces Reg.ftDeviceId →
      ∀ i, i = .ftDeviceIdWrite c v ∨ i = .countedWrite c Reg.ftDeviceId v → ∃ t x, Does i s c t ∧ x.entry = Reg.ftDeviceId ∧
        x.value = beBytes 4 (writable Reg.ftDeviceId v) ∧ x.count = mget 0 s.dict.fuseCounts Reg.ftDeviceId + 1 ∧ x.at0 = s.time ∧
        t = { s with
          dict.fuseCounts := mset 0 s.dict.fuseCounts Reg.ftDeviceId (mget 0 s.dict.fuseCounts Reg.ftDeviceId + 1),
          dict.burns := s.dict.burns ++ [x] }) ∧
    (Permitted s c Reg.fwRollbackFloor v → reg s Reg.fwRollbackFloor < v → v ≤ byteAt (blk s Reg.fwRunningHeader) 9 →
      mget 0 s.dict.fuseCounts Reg.fwRollbackFloor < cwPlaces Reg.fwRollbackFloor →
      ∀ i, i = .fwRollbackFloorWrite c v ∨ i = .countedWrite c Reg.fwRollbackFloor v → ∃ t x, Does i s c t ∧
        x.entry = Reg.fwRollbackFloor ∧ x.value = [byte v] ∧ t = { s with
          dict.fuseCounts := mset 0 s.dict.fuseCounts Reg.fwRollbackFloor (mget 0 s.dict.fuseCounts Reg.fwRollbackFloor + 1),
          dict.burns := s.dict.burns ++ [x] }) ∧
    (Permitted s c Reg.fwRollbackFloor v → (v < reg s Reg.fwRollbackFloor ∨
        (reg s Reg.fwRollbackFloor < v ∧ byteAt (blk s Reg.fwRunningHeader) 9 < v)) →
      TurnedAway (.fwRollbackFloorWrite c v) s c Reg.fwRollbackFloor .refused) ∧
    (domainChecks s c Reg.synDeviceKey = none → b.length = 32 → b ≠ s.dict.deviceKey →
      mget 0 s.dict.fuseCounts Reg.synDeviceKey < cwPlaces Reg.synDeviceKey → ∃ t x, Answers (.synDeviceKeyWrite c b) s t ∧
        x.entry = Reg.synDeviceKey ∧ x.value = b ∧ t.dict.burns = s.dict.burns ++ [x] ∧ t.dict.sessions = [] ∧
        t.dict.deviceKey = s.dict.deviceKey ∧
        mget 0 t.dict.fuseCounts Reg.synDeviceKey = mget 0 s.dict.fuseCounts Reg.synDeviceKey + 1) ∧
    (domainChecks s c Reg.synDeviceKey = none → b.length = 32 → b ≠ s.dict.deviceKey →
      cwPlaces Reg.synDeviceKey ≤ mget 0 s.dict.fuseCounts Reg.synDeviceKey → s.dict.closeDue = false →
      TurnedAway (.synDeviceKeyWrite c b) s c Reg.synDeviceKey .exhausted) ∧
    (∀ x, s.dict.burns.find? (fun y => y.entry == Reg.fwRollbackFloor) = some x →
      ∃ t, Answers (.countedWriteComplete Reg.fwRollbackFloor) s t ∧ reg t Reg.fwRollbackFloor = beNat x.value ∧
        bit (reg t Reg.fwCause) 6 = true ∧ bit (reg t Reg.odCause) 3 = true ∧ t.dict.cwLog = s.dict.cwLog ++ [cwRecord x 0] ∧
        t.dict.burns = s.dict.burns.filter (fun y => y.entry != Reg.fwRollbackFloor)) ∧
    (∀ x, s.dict.burns.find? (fun y => y.entry == Reg.synDeviceKey) = some x →
      ∃ t, Answers (.countedWriteComplete Reg.synDeviceKey) s t ∧ t.dict.deviceKey = x.value ∧ reg t Reg.synKeySet = 1 ∧
        bit (reg t Reg.odCause) 3 = true ∧ t.dict.cwLog = s.dict.cwLog ++ [cwRecord x 0])

/-- The settings store, the mailbox doorbell and the record of failures (R396–R398, R403, R405). A save begins where no erase runs, copies
the live persistent entries in steps, and at its end replaces the store or, where flash fails or is too small, leaves it; an erase empties
it. A doorbell takes the message of its length, discards one that is none, and is refused while one is served. A read of
`od_access_status` answers the caller's record and clears it. The results of a save and an erase, and the discarded message, are the
model's reading (notes/assumptions/39, 54, 58). -/
def Obligations.StoreDoorbellAndRecord : Prop :=
  ∀ (s : State) (c : Client) (n r : Nat), OdTidy s →
    (MayStart s c Reg.odSave → jobRunning s Reg.odSettingsErase = false → Answers (.odSave (.start c) n r) s (answeredWord
      (jobBegin { s with dict.savePos := 0, dict.saveCopy := [], dict.saveBlocks := [] } Reg.odSave) c Reg.odSave)) ∧
    (MayStart s c Reg.odSave → jobRunning s Reg.odSettingsErase = true → TurnedAway (.odSave (.start c) n r) s c Reg.odSave .busy) ∧
    (MayStart s c Reg.odSettingsErase → jobRunning s Reg.odSave = false → Answers (.odSettingsErase (.start c)) s
      (answeredWord (jobBegin s Reg.odSettingsErase) c Reg.odSettingsErase)) ∧
    (jobRunning s Reg.odSave = true → s.dict.savePos < n → n ≤ 0x600000 → ∃ t, Answers (.odSave .step n r) s t ∧
      t.dict.savePos = n ∧ t.dict.saveCopy = s.dict.saveCopy ++
        (livePersistent s).filter (fun e => decide (s.dict.savePos ≤ e.1) && decide (e.1 < n)) ∧ t.dict.store = s.dict.store ∧ t.od = s.od) ∧
    (jobRunning s Reg.odSave = true → 0x600000 ≤ s.dict.savePos →
      (∃ t, Answers (.odSave .step n 0) s t ∧ t.dict.store = s.dict.saveCopy ∧ t.dict.storeBlocks = s.dict.saveBlocks ∧
        t.dict.storeEmpty = false ∧ JobCompleted t Reg.odSave 0 ∧ bit (reg t Reg.odCause) 0 = true) ∧
      ((r = 1 ∨ r = 2) → ∃ t, Answers (.odSave .step n r) s t ∧ t.dict.store = s.dict.store ∧ JobCompleted t Reg.odSave r ∧
        bit (reg t Reg.odCause) 0 = true)) ∧
    (jobRunning s Reg.odSettingsErase = true → ∃ t, Answers (.odSettingsErase .step) s t ∧ t.dict.store = [] ∧
      t.dict.storeBlocks = [] ∧ t.dict.storeEmpty = true ∧ reg t Reg.fwSettingsSchema = 0 ∧ JobCompleted t Reg.odSettingsErase 0) ∧
    (∀ fn m, fnOf c = some fn → Permitted s c Reg.mbDoorbell n → mailboxUp s fn = true →
      m = padTo ((mailbox s fn).request.take n) n →
      ((mailbox s fn).state ≠ 1 → mailboxTakes m = true →
        Does (.mbDoorbell c n) s c (setMailbox s fn { mailbox s fn with state := 1, len := n })) ∧
      ((mailbox s fn).state ≠ 1 → mailboxTakes m = false →
        Does (.mbDoorbell c n) s c (setMailbox s fn { mailbox s fn with state := 0, len := 0 })) ∧
      ((mailbox s fn).state = 1 → TurnedAway (.mbDoorbell c n) s c Reg.mbDoorbell .refused)) ∧
    (fnExists s n = true → fnInFlr s n = false → readable s (fnClient n) Reg.odAccessStatus (fun _ => false) = none →
      Answers (.odAccessStatusRead n 8) s (emit (setReg s (callerKey n Reg.odAccessStatus) 0)
        (.status n 0 (leBytes 8 (reg s (callerKey n Reg.odAccessStatus))))))

/-! ### The host (ch. 17) -/

/-- Rings (R435–R438, R441): a ring is enabled from its entries, and its entries refuse writes while it is; a doorbell moves the producer
count of an enabled ring, and one that would overfill it is counted; a ring's interrupt sends its message; and a punt queue is bound to a
ring that its function is granted. -/
def Obligations.RingsAndDoorbells : Prop :=
  ∀ (s : State) (c : Client) (fn r v : Nat) (inj : Bool), OdTidy s → r < 8 → fn ≤ 63 →
    (fnExists s fn = true → fnInFlr s fn = false → ringOn s fn inj r = true → v < 2 ^ 32 →
      ∀ i, i = (if inj then .injectDoorbell fn r v else .puntDoorbell fn r v) →
      ((v + 2 ^ 32 - fnReg s fn (ringConsumed inj r)) % 2 ^ 32 ≤ fnReg s fn (ringSize inj r) →
        Answers i s (setRing s fn inj r { ringOf s fn inj r with prod := v })) ∧
      (fnReg s fn (ringSize inj r) < (v + 2 ^ 32 - fnReg s fn (ringConsumed inj r)) % 2 ^ 32 →
        Answers i s (count1 s Reg.hostDoorbellErrors))) ∧
    (fnOf c = some fn →
      (∀ w, Permitted s c (ringCtrl inj r) v → w = (if inj then setBits v 3 0 0 else v) → (fn = 0 ∨ bits w 29 22 ≤ 15) →
        bits w 21 12 ≠ 0 → bits w 3 0 ≤ 6 → bit w 31 = true → ringOn s fn inj r = false → fnReg s fn (ringBase inj r) % 4096 = 0 →
        ringSizes.contains (fnReg s fn (ringSize inj r)) = true → ringGranted s fn inj r = true →
        Does (.ringConfigWrite c (ringCtrl inj r) v) s c
          (setFnReg (setRing (setFnReg s fn (ringCtrl inj r) w) fn inj r {}) fn (ringConsumed inj r) 0)) ∧
      (∀ k, k = ringBase inj r ∨ k = ringSize inj r → Permitted s c k v →
        (ringOn s fn inj r = true → TurnedAway (.ringConfigWrite c k v) s c k .refused) ∧
        (ringOn s fn inj r = false → Does (.ringConfigWrite c k v) s c (setFnReg s fn k v)))) ∧
    (fnExists s fn = true → bit (fnReg s fn (ringCtrl inj r)) 30 = true → (ringOf s fn inj r).frames ≠ 0 →
      bits (fnReg s fn (ringCtrl inj r)) 21 12 ≤ (ringOf s fn inj r).frames → msixOpen s fn = true →
      (msixOf s fn).funcMask = false → mget false (msixOf s fn).vecMask (bits (fnReg s fn (ringCtrl inj r)) 29 22) = false →
      Answers (.ringInterrupt fn inj r) s (emit (setRing s fn inj r { ringOf s fn inj r with frames := 0, firstAt := none })
        (.msix fn (bits (fnReg s fn (ringCtrl inj r)) 29 22)))) ∧
    (Permitted s c Reg.hostPuntBind v → qType s (reg s Reg.hostPuntBindSelect) = 2 →
      (bit v 31 = false ∨ ringGranted s (bits v 29 24) false (bits v 2 0) = true) → Does (.hostPuntBindWrite c v) s c
        { s with host.bind := mset 0 s.host.bind (reg s Reg.hostPuntBindSelect) (writable Reg.hostPuntBind v) }) ∧
    (Permitted s c Reg.hostPuntBind v → qType s (reg s Reg.hostPuntBindSelect) ≠ 2 →
      TurnedAway (.hostPuntBindWrite c v) s c Reg.hostPuntBind .refused)

/-- Punt and inject (R439, R440, R442, R443): a punt reserves its descriptors, issues its completions in slot order and counts its
departure; the consumer count follows; an inject frame is refused, or read under free tags, and its answers fill it; a stale answer is
counted; a frame that was read whole becomes a packet. -/
def Obligations.PuntAndInject : Prop :=
  ∀ (s : State) (i fn r : Nat), OdTidy s →
    (∀ o p w, mfind s.host.punts i = none → mfind s.outs i = some o → pkt? s o.ref.pkt = some p → nodeKind o.root = 4 → p.ended = true →
      w = mget 0 s.host.bind o.queue → bit w 31 = true → fn = bits w 29 24 → r = bits w 2 0 → fnExists s fn = true →
      ringOn s fn false r = true → ∀ size addrs, size = 256 * 2 ^ bits (fnReg s fn (ringCtrl false r)) 3 0 →
      addrs.length = ceilDiv (p.len.getD 0) size → addrs.length ≤ ringHeld s fn false r →
      Answers (.puntDma i addrs 0) s { setRing s fn false r { ringOf s fn false r with
          resv := ((ringOf s fn false r).resv + addrs.length) % 2 ^ 32 } with
        host.punts := mput s.host.punts i {
          fn := fn, ring := r, gen := fnGen s fn, slot := (ringOf s fn false r).resv, size := size, root := nodeIdx o.root,
          addrs := addrs } }) ∧
    (∀ x, mfind s.host.punts i = some x → fnGen s x.fn = x.gen →
      (∀ o p, mfind s.outs i = some o → pkt? s o.ref.pkt = some p → puntCount x ≤ x.done → x.done + 1 = 2 * puntCount x →
        puntFirst s i x = true → ∃ t, Answers (.puntDma i [] 1) s t ∧ mfind t.outs i = none ∧ t.led.dHost = s.led.dHost + 1) ∧
      (mfind s.outs i = none → ∃ t, Answers (.puntDma i [] 1) s t ∧ mfind t.host.punts i = none ∧
        fnReg t x.fn (ringConsumed false x.ring) = (x.slot + puntCount x) % 2 ^ 32 ∧
        (ringOf t x.fn false x.ring).frames = (ringOf s x.fn false x.ring).frames + 1)) ∧
    (∀ descs ds, r < 8 → fn ≤ 63 → fnExists s fn = true → fnInFlr s fn = false → ringOn s fn true r = true → s.pwr.flushing = false →
      frameDescs (descs.map leNat) = some ds → ds.length ≤ ringHeld s fn true r →
      ((routeGranted s fn (ds.headD 0) = false ∨ injectMalformed s ds = true) → ∃ t, Answers (.injectFetch fn r descs) s t ∧
        t.host.nextInject = s.host.nextInject + 1 ∧ reg t Reg.hostInjectRefused = (reg s Reg.hostInjectRefused + 1) % 2 ^ 64 ∧
        t.pkts = s.pkts) ∧
      (∀ cs u n taken, routeGranted s fn (ds.headD 0) = true → injectMalformed s ds = false →
        (frameReads ds).length ≤ (freeTags s).length → n = ds.foldl (fun t d => t + ijLen d) 0 →
        taken = { setRing s fn true r { ringOf s fn true r with resv := ((ringOf s fn true r).resv + ds.length) % 2 ^ 32 } with
          host.nextInject := s.host.nextInject + 1 } →
        takeUnits (cellsFor n) taken 28 [] = .got cs u → ∃ t, Answers (.injectFetch fn r descs) s t ∧
          mfind t.host.injects s.host.nextInject = some {
            fn := fn, ring := r, gen := fnGen s fn, slot := (ringOf s fn true r).resv, count := ds.length, desc := ds.headD 0,
            wb := ijWb (ds.headD 0), cells := cs, data := List.replicate n 0, need := n } ∧
          t.sent.length = u.sent.length + (frameReads ds).length)) ∧
    (∀ t0 j d, mfind s.host.tags i = some t0 → t0.stale = false → fnGen s t0.fn = t0.gen →
      mfind s.host.injects t0.inject = some j → j.fail = none →
      (d.length = t0.len → Answers (.hostReadCompletion i true d) s { s with
        host.tags := mdel s.host.tags i,
        host.injects := mput s.host.injects t0.inject { j with data := splice j.data t0.off d, need := j.need - t0.len } }) ∧
      (∃ t, Answers (.hostCompletionTimeout i) s t ∧ mfind t.host.tags i = none ∧
        mfind t.host.injects t0.inject = some { j with fail := some 3, cells := [], data := [], need := 0 })) ∧
    (∀ d, (∀ t0, mfind s.host.tags i = some t0 → t0.stale = true ∨ fnGen s t0.fn ≠ t0.gen) →
      ∃ t, Answers (.hostReadCompletion i true d) s t ∧
        reg t Reg.hostStaleCompletions = (reg s Reg.hostStaleCompletions + 1) % 2 ^ 64 ∧ bit (reg t Reg.hostCause) 3 = true) ∧
    (∀ j, mfind s.host.injects i = some j → j.need = 0 → j.fail = none → injectFirst s i j = true → s.pwr.flushing = false →
      ∃ t, Answers (.injectBuild i) s t ∧ mfind t.host.injects i = none ∧ t.led.aInject = s.led.aInject + 1 ∧
        t.nextPkt = s.nextPkt + 1 ∧ pkt? t s.nextPkt = some (injectPacket s j) ∧
        fnReg t j.fn (ringConsumed true j.ring) = (j.slot + j.count) % 2 ^ 32)

/-- Functions (R430, R434, R443–R445, R447, R477): grants are stored or refused; a VF is held in its reset until it completes and its
generation rises; VFs come and go; a reset of the host link takes the link down; and an export writes its pairs and its trailer. -/
def Obligations.FunctionsGrantsAndExports : Prop :=
  ∀ (s : State) (c : Client) (v n : Nat) (b : List Byte), OdTidy s →
    (domainChecks s c (Reg.vfOdGrant v) = none → b.length ≤ 256 → b.length % 8 = 0 → (∀ x ∈ chunks 8 32 b, grantBad x = false) →
      Does (.vfOdGrantWrite c v b) s c (setBlk s (Reg.vfOdGrant v) b)) ∧
    (domainChecks s c (Reg.vfOdGrant v) = none → b.length ≤ 256 → (b.length % 8 ≠ 0 ∨ ∃ x ∈ chunks 8 32 b, grantBad x = true) →
      TurnedAway (.vfOdGrantWrite c v b) s c (Reg.vfOdGrant v) .refused) ∧
    (1 ≤ v → v ≤ reg s Reg.hostNumVfs → v ≤ 63 → jobRunning s (Reg.vfReset v) = false → fnInFlr s v = false →
      ∃ t, Answers (.vfFlr v false) s t ∧ fnInFlr t v = true ∧
        ((∀ x ∈ s.host.punts, x.2.fn ≠ v) → (∀ x ∈ s.host.injects, x.2.fn ≠ v) → fnGen t v = (fnGen s v + 1) % 256 ∧
          ∀ r < 8, ringOn t v false r = false ∧ ringOn t v true r = false)) ∧
    (1 ≤ v → v ≤ reg s Reg.hostNumVfs → v ≤ 63 → jobRunning s (Reg.vfReset v) = false → fnInFlr s v = true →
      ∃ t, Answers (.vfFlr v true) s t ∧ fnInFlr t v = false) ∧
    (MayStart s c (Reg.vfReset v) → fnInFlr s v = true → TurnedAway (.vfReset v (.start c)) s c (Reg.vfReset v) .busy) ∧
    (MayStart s c (Reg.vfReset v) → fnInFlr s v = false → ∃ t, Answers (.vfReset v (.start c)) s t ∧ fnInFlr t v = true ∧
      jobRunning t (Reg.vfReset v) = true) ∧
    (jobRunning s (Reg.vfReset v) = true → ∃ t, Answers (.vfReset v .step) s t ∧ fnInFlr t v = false) ∧
    (reg s Reg.hostNumVfs = 0 → 1 ≤ n → n ≤ 63 → 2 ≤ reg s Reg.pwrStartupPhase → reg s Reg.pwrStartupPhase ≤ 4 →
      Answers (.vfEnableSet n) s (setReg s Reg.hostNumVfs n)) ∧
    (reg s Reg.hostNumVfs ≠ 0 → ∃ t, Answers .vfEnableClear s t ∧ reg t Reg.hostNumVfs = 0) ∧
    (∃ t, Answers .pfFlr s t ∧ reg t Reg.hostNumVfs = 0 ∧ mget {} t.host.rings (ringKey 0 false 0) = {}) ∧
    (∃ t, Answers .pcieHotReset s t ∧ reg t Reg.hostNumVfs = 0 ∧ reg t Reg.hostLink = 0) ∧
    (∀ rate width x, 1 ≤ rate → rate ≤ 6 → (width = 1 ∨ width = 2 ∨ width = 4 ∨ width = 8) →
      (rate = 6 → bit (reg s Reg.idStraps) 2 = false) → x = rate * 256 + width * 16 + 2 + b2n (rate == 6) → reg s Reg.hostLink ≠ x →
      ∃ t, Answers (.pcieLinkChange true rate width) s t ∧ reg t Reg.hostLink = x ∧ bit (reg t Reg.hostCause) 0 = true ∧
        Noted [Reg.hostLink, Reg.hostCause] s t) ∧
    (reg s Reg.hostLink ≠ 0 → ∃ t, Answers (.pcieLinkChange false 0 0) s t ∧ reg t Reg.hostLink = 0) ∧
    (mfind s.host.exports v = none → fnExists s v = true → fnInFlr s v = false → fnReg s v Reg.ctrExportEnable = 1 →
      timeNs s % (1000 * fnReg s v Reg.ctrExportPeriodUs) = 0 → Answers (.counterExport v 0) s
        { s with host.exports := mput s.host.exports v {
            gen := fnGen s v, base := (exportWindow s v).1, count := (exportWindow s v).2, pos := 0,
            addr := fnReg s v Reg.ctrExportAddr, at0 := timeNs s } }) ∧
    (∀ e, mfind s.host.exports v = some e → fnGen s v = e.gen →
      (e.pos < e.count → ∃ t, Answers (.counterExport v 1) s t ∧ mfind t.host.exports v = some { e with pos := e.pos + 1 } ∧
        .hostWrite v (e.addr + 16 * e.pos)
          (beBytes 8 (pairOf s (e.base + e.pos)).1 ++ beBytes 8 (pairOf s (e.base + e.pos)).2) ∈ t.sent) ∧
      (e.count ≤ e.pos → v ≤ 63 → ∃ t, Answers (.counterExport v 1) s t ∧ mfind t.host.exports v = none ∧
        fnReg t v Reg.ctrExportSeq = (fnReg s v Reg.ctrExportSeq + 1) % 2 ^ 64 ∧
        .hostWrite v (e.addr + 16 * e.count)
          (beBytes 8 ((fnReg s v Reg.ctrExportSeq + 1) % 2 ^ 64) ++ beBytes 8 e.at0) ∈ t.sent))

/-! ### Firmware (ch. 18) -/

/-- Images (R452–R454, R458–R461). A transfer stages an image unless it is busy; the check of a staged image sets valid or not by its
header, body and signature; an install begins with the staged image, programs a sector a step, and ends with the region good, failed or
cancelled; a poll of a neighbour and a seek of recovery begin a fetch where the header qualifies; a fetch that completes sound is staged,
and one of recovery installs itself. Which bundle recovery seeks next is the model's choice (notes/assumptions/48). -/
def Obligations.ImagesStagedAndInstalled : Prop :=
  ∀ (s : State) (c : Client) (b h : List Byte) (n : Nat), OdTidy s →
    (domainChecks s c Reg.fwStaged = none → stagedBusy s = false → s.fw.fetch = none → 385 ≤ b.length → b.length ≤ 15728640 →
      Does (.fwStagedWrite c b) s c (setReg (setBlk s Reg.fwStaged b) Reg.fwStagedValid 1)) ∧
    (domainChecks s c Reg.fwStaged = none → stagedBusy s = true → TurnedAway (.fwStagedWrite c b) s c Reg.fwStaged .busy) ∧
    (s.fw.started = true → reg s Reg.fwStagedValid = 1 → Answers .fwStagedVerify s
      (setReg s Reg.fwStagedValid (if imageSound (blk s Reg.fwStaged) then 2 else 3))) ∧
    (MayStart s c Reg.fwInstall → ∀ ok,
      (blk s Reg.fwStaged ≠ [] → Answers (.fwInstall (.start c) ok) s (answeredWord
        { setReg (jobBegin s Reg.fwInstall) Reg.fwRegionState 2 with fw.pos := 0 } c Reg.fwInstall)) ∧
      (blk s Reg.fwStaged = [] → Answers (.fwInstall (.start c) ok) s
        (answeredWord (jobEnd (jobBegin s Reg.fwInstall) Reg.fwInstall 2) c Reg.fwInstall))) ∧
    (jobRunning s Reg.fwInstall = true →
      (∃ t, Answers (.fwInstall .step false) s t ∧ JobCompleted t Reg.fwInstall 1 ∧ reg t Reg.fwRegionState = 1 ∧
        bit (reg t Reg.fwCause) 7 = true) ∧
      ((job s Reg.fwInstall).cancel = false → s.fw.pos + 65536 < (blk s Reg.fwStaged).length →
        ∃ t, Answers (.fwInstall .step true) s t ∧ t.fw.pos = s.fw.pos + 65536 ∧
          (job t Reg.fwInstall).progress = (job s Reg.fwInstall).progress + 64 ∧ jobRunning t Reg.fwInstall = true ∧
          t.fw.image = some ((blk s Reg.fwStaged).take (s.fw.pos + 65536))) ∧
      ((job s Reg.fwInstall).cancel = false → s.fw.pos ≤ (blk s Reg.fwStaged).length →
        (blk s Reg.fwStaged).length ≤ s.fw.pos + 65536 → s.fw.autoBoot = false →
        ∃ t, Answers (.fwInstall .step true) s t ∧ JobCompleted t Reg.fwInstall 0 ∧ reg t Reg.fwRegionState = 0 ∧
          bit (reg t Reg.fwCause) 3 = true ∧ t.fw.image = some (blk s Reg.fwStaged)) ∧
      ((job s Reg.fwInstall).cancel = true → ∃ t, Answers (.fwInstall .step true) s t ∧ (job t Reg.fwInstall).state = 3 ∧
        reg t Reg.fwRegionState = 1)) ∧
    (s.fw.running = true → flag s Reg.fwRelayEnable = true → n < 8 →
      (mfind s.fw.polled n).getD s.fw.startedAt + reg s Reg.fwRelayPollS * 1000000000 ≤ s.time → ∀ valid,
      (s.fw.fetch = none → stagedBusy s = false → relayQualifies s valid h = true → Answers (.relayPoll n valid h) s
        { s with fw.polled := mput s.fw.polled n s.time, fw.fetch := some { bundle := n, header := h, recovery := false } }) ∧
      (relayQualifies s valid h = false → Answers (.relayPoll n valid h) s { s with fw.polled := mput s.fw.polled n s.time })) ∧
    (reg s Reg.fwState = 1 → s.fw.loader = true → s.fw.bootDue = false → s.fw.fetch = none → jobRunning s Reg.fwInstall = false →
      seekTurn s = some n → s.fw.seekNext = 0 → s.fw.seekAt + 1000000000 ≤ s.time →
      (magicOk h = true → headerFit s h = 0 → Answers (.recoverySeek n h) s { s with
        fw.seekAt := s.time, fw.seekNext := seekAfter s n, fw.fetch := some { bundle := n, header := h, recovery := true } }) ∧
      (magicOk h = false → Answers (.recoverySeek n h) s { s with fw.seekAt := s.time, fw.seekNext := seekAfter s n })) ∧
    (∀ f, s.fw.fetch = some f →
      (imageSound b = false → Answers (.imageFetchComplete b) s { s with fw.fetch := none }) ∧
      (stagedBusy s = false → f.recovery = true → ∃ t, Answers (.imageFetchComplete b) s t ∧ t.fw.fetch = none ∧ (imageSound b = true →
        blk t Reg.fwStaged = b ∧ reg t Reg.fwStagedValid = 2 ∧ t.fw.autoBoot = true ∧ jobRunning t Reg.fwInstall = true)) ∧
      (stagedBusy s = false → f.recovery = false → ∃ t, Answers (.imageFetchComplete b) s t ∧ t.fw.fetch = none ∧ (imageSound b = true →
        blk t Reg.fwStaged = b ∧ reg t Reg.fwStagedValid = 2 ∧
        reg t Reg.fwRelayFetches = (reg s Reg.fwRelayFetches + 1) % 2 ^ 32 ∧ bit (reg t Reg.fwCause) 4 = true)))

/-- Boots and management restarts (R455–R457, R464, R483). The loader's check of the image records its cause and code, and loads the body
or enters recovery by it; the firmware starts, and serves once the settings are applied; MGMT_RESTART_L, `fw_restart` and the watchdog
each begin a management restart that ends sessions and transfers and asks for a boot. When RESTARTED is set and what a restart ends is the
model's reading (notes/assumptions/47, 48). -/
def Obligations.BootsAndRestarts : Prop :=
  ∀ (s : State) (c : Client) (readOk : Bool) (image img : List Byte) (code : Nat), OdTidy s →
    (s.fw.bootDue = true → s.fw.pinLow = false → s.fw.loader = true → s.pwr.inReset = false → img = s.fw.image.getD image →
      code = bootCheck s readOk img → ∃ t, Answers (.loaderBoot readOk image) s t ∧ t.fw.bootDue = false ∧
        reg t Reg.fwLastBoot = s.fw.bootCause * 2 ^ 24 + code * 2 ^ 16 ∧
        (code = 0 → t.fw.loaded = true ∧ reg t Reg.idFwVersion = imgVersion img ∧ blk t Reg.fwRunningHeader = img.take 320) ∧
        (code ≠ 0 → reg t Reg.fwState = 1 ∧ bit (reg t Reg.fwCause) 0 = true ∧ reg t Reg.idFwVersion = 0 ∧
          blk t Reg.fwRunningHeader = [])) ∧
    (s.pwr.inReset = false → s.fw.halted = false →
      (s.fw.loaded = true → ∃ t, Answers (.firmwareStart false) s t ∧ t.fw.started = true ∧ t.fw.loaded = false ∧
        t.fw.startedAt = s.time ∧ (s.fw.restarted = true → bit (reg t Reg.fwCause) 1 = true)) ∧
      (s.fw.started = true → s.fw.running = false → reg s Reg.pwrStartupPhase = 3 → s.fw.appliesEnded = [] →
        ∃ t, Answers (.firmwareStart true) s t ∧ t.fw.running = true ∧ reg t Reg.pwrStartupPhase = 4 ∧
          bit (reg t Reg.pwrCause) 6 = true)) ∧
    (s.fw.pinLow = false → s.fw.loader = true → s.pwr.inReset = false → s.fw.pinAt + 1000 ≤ s.time →
      ∃ t, Answers .mgmtRestartLFall s t ∧ MgmtRestarted t 3 ∧ t.fw.pinLow = true) ∧
    (s.fw.pinLow = true → Answers .mgmtRestartLRise s { s with fw.pinLow := false, fw.pinAt := s.time }) ∧
    (Permitted s c Reg.fwRestart 1 → ∃ t, Answers (.fwRestart c 1) s t ∧ MgmtRestarted t 4) ∧
    (Permitted s c Reg.fwRestart 0 → Quiet s → Does (.fwRestart c 0) s c s) ∧
    (s.fw.loader = true → (s.fw.started = true ∨ s.fw.halted = true) → s.fw.pinLow = false → s.pwr.inReset = false →
      ∃ t, Answers .fwWatchdogExpiry s t ∧ MgmtRestarted t 5)

/-! ### Power, resets and start-up (ch. 19) -/

/-- Resets and start-up (R400, R468, R470, R477, R481, R483). A power-on and a pin reset leave every entry but fuses at its default, with
the kind of reset and its count, keep the settings store and the counts of counted writes, and mark writes in progress as torn; the loss
of power leaves the store; fuse sense logs the torn writes; the loader's check halts, or begins a boot; and the settings reload leads to
phase 2. That a torn write is found at the fuse sense after any reset is the model's reading of R400 (notes/assumptions/42); the state a
reset leaves is that of notes/assumptions/60, and the straps are an operand (9). -/
def Obligations.ResetsAndStartup : Prop :=
  ∀ (s : State) (n : Nat), OdTidy s →
    (∃ t, Answers (.powerOnReset true n) s t ∧ Restarted s t 1 n) ∧
    (s.pwr.off = false → s.pwr.jtag = none → ∃ t, Answers (.pinReset n) s t ∧ Restarted s t 2 n) ∧
    (∃ t, Answers .powerLoss s t ∧ t.pwr = { inReset := true, off := true } ∧ t.pkts = [] ∧ t.mem = {} ∧
      t.dict.store = s.dict.store ∧ t.dict.torn = s.dict.torn ++ s.dict.burns) ∧
    (s.pwr.sensed = false → s.pwr.inReset = false → ∃ t, Answers .fuseSenseComplete s t ∧ t.pwr.sensed = true ∧ t.dict.torn = [] ∧
      t.dict.cwLog = s.dict.cwLog ++ s.dict.torn.map (fun b => cwRecord b 1) ∧
      (s.dict.torn ≠ [] → bit (reg t Reg.odCause) 3 = true)) ∧
    (s.pwr.sensed = true → s.pwr.inReset = false → s.fw.loader = false → s.fw.halted = false → ∀ d2d,
      Answers (.loaderSectorCheck false n d2d) s { s with fw.halted := true } ∧
      (∃ t, Answers (.loaderSectorCheck true n true) s t ∧ t.fw.loader = true ∧ t.fw.bootDue = true ∧
        reg t Reg.pwrStartupPhase = 1 ∧ reg t Reg.intD2dLanesRepaired = n % 65536) ∧
      (∃ t, Answers (.loaderSectorCheck true n false) s t ∧ t.fw.loader = true ∧ t.fw.bootDue = s.fw.bootDue ∧
        bit (reg t Reg.intCause) 4 = true)) ∧
    (s.fw.started = true → s.fw.running = false → s.pwr.inReset = false → reg s Reg.pwrStartupPhase = 1 →
      ∃ t, Answers .settingsReload s t ∧ reg t Reg.pwrStartupPhase = 2)

/-- Retention, the data-path reset and the island reset (R471–R473, R478, R479). Each job begins where its rule permits and answers its
status word, and is busy or refused where it does not; the last step of an entry sets RETENTION and of an exit ACTIVE, with the change
reported; a data-path reset ends after 20 us; an island reset puts the island back to its written mode and floor, reports it and counts.
What a data-path and an island reset leave of jobs and frames in progress is the model's reading (notes/assumptions/43, 44). -/
def Obligations.RetentionAndPartialResets : Prop :=
  ∀ (s : State) (c : Client), OdTidy s →
    (MayStart s c Reg.pwrRetentionEnter → entryBusy s = false → reg s Reg.pwrState ≠ 2 → Answers (.retentionEnter (.start c)) s
      (answeredWord (setReg { jobBegin s Reg.pwrRetentionEnter with
        pwr.entering := 1, pwr.leaving := 0, pwr.since := s.time, pwr.flushing := true } Reg.pwrState 1) c Reg.pwrRetentionEnter)) ∧
    (MayStart s c Reg.pwrRetentionEnter → entryBusy s = true →
      TurnedAway (.retentionEnter (.start c)) s c Reg.pwrRetentionEnter .busy) ∧
    (s.pwr.entering = 6 → railSettled s 0 = true → ∃ t, Answers (.retentionEnter .step) s t ∧ reg t Reg.pwrState = 2 ∧
      t.pwr.entering = 0 ∧ bit (reg t Reg.pwrCause) 0 = true ∧
      (jobRunning s Reg.pwrRetentionEnter = true → JobCompleted t Reg.pwrRetentionEnter 0)) ∧
    (MayStart s c Reg.pwrRetentionExit → thermalHold s = true →
      TurnedAway (.retentionExit (.start c)) s c Reg.pwrRetentionExit .refused) ∧
    (MayStart s c Reg.pwrRetentionExit → thermalHold s = false → s.pwr.entering = 0 → s.pwr.leaving = 0 → reg s Reg.pwrState = 2 →
      ∃ t, Answers (.retentionExit (.start c)) s t ∧ reg t Reg.pwrState = 3 ∧ t.pwr.leaving = 1 ∧
        jobRunning t Reg.pwrRetentionExit = true) ∧
    (s.pwr.leaving ≠ 0 → railSettled s 0 = true → ∃ t, Answers (.retentionExit .step) s t ∧ reg t Reg.pwrState = 0 ∧
      t.pwr.leaving = 0 ∧ t.pwr.flushing = false ∧ t.pwr.dark = false ∧ bit (reg t Reg.pwrCause) 0 = true) ∧
    (MayStart s c Reg.pwrDatapathReset →
      (resetBusy s = false → Answers (.datapathReset (.start c)) s (answeredWord (jobBegin { s with
        pwr.dpReset := true, pwr.since := s.time, pwr.flushing := true } Reg.pwrDatapathReset) c Reg.pwrDatapathReset)) ∧
      (resetBusy s = true → TurnedAway (.datapathReset (.start c)) s c Reg.pwrDatapathReset .busy)) ∧
    (s.pwr.dpReset = true → s.pwr.since + 20000 ≤ s.time → ∃ t, Answers (.datapathReset .step) s t ∧ t.pwr.dpReset = false) ∧
    (MayStart s c Reg.pwrIslandReset → resetBusy s = false →
      (scalable.contains (reg s Reg.pwrIslandResetArg) = true → Answers (.islandReset (.start c)) s (answeredWord (jobBegin { s with
        pwr.islReset := some (reg s Reg.pwrIslandResetArg), pwr.since := s.time } Reg.pwrIslandReset) c Reg.pwrIslandReset)) ∧
      (scalable.contains (reg s Reg.pwrIslandResetArg) = false →
        TurnedAway (.islandReset (.start c)) s c Reg.pwrIslandReset .refused)) ∧
    (∀ n, s.pwr.islReset = some n → ∃ t, Answers (.islandReset .step) s t ∧ t.pwr.islReset = none ∧
      isl t n = { pinned := flag s (Reg.islandMode n), floor := reg s (Reg.islandFloorStep n) } ∧ bit (reg t Reg.pwrCause) 4 = true ∧
      reg t (Reg.pwrResetCount 5) = (reg s (Reg.pwrResetCount 5) + 1) % 2 ^ 32)

/-- Voltages, temperatures, power and clocks (R469, R474–R476, R485): a command to a regulator moves at most 25 mV, and three without an
answer set the cause; the sensors are read; the estimate is some 16-bit value (open, notes/assumptions/7); the loss of a clock is
reported. That a command without an answer leaves `pwr_vdd_mv` is the model's reading (notes/assumptions/41). -/
def Obligations.VoltagesTemperaturesClocks : Prop :=
  ∀ (s : State) (n : Nat) (ss ds : List Nat), OdTidy s →
    (n < 2 → s.pwr.sensed = true → s.pwr.inReset = false → timeNs s % 100000000 ≠ 0 → railSettled s n = false →
      (∀ a, mfind s.pwr.avsAt n = some a → a + 50000 ≤ s.time) → ∀ v, v = avsNext (reg s (Reg.pwrVddMv n)) (mget 750 s.pwr.target n) →
      (∃ t, Answers (.avsEvaluate n true) s t ∧ reg t (Reg.pwrVddMv n) = v ∧ t.sent = .avs n v :: s.sent ∧ mget 0 t.pwr.nacks n = 0 ∧
        v ≤ reg s (Reg.pwrVddMv n) + 25 ∧ reg s (Reg.pwrVddMv n) ≤ v + 25) ∧
      (2 ≤ mget 0 s.pwr.nacks n → ∃ t, Answers (.avsEvaluate n false) s t ∧ reg t (Reg.pwrVddMv n) = reg s (Reg.pwrVddMv n) ∧
        mget false t.pwr.avsDead n = true ∧ bit (reg t Reg.pwrCause) 3 = true)) ∧
    (timeNs s % 100000 = 0 → s.pwr.inReset = false → ss.length = 64 → ds.length = 2 →
      toSigned 32 ((hottest ss).1 % 2 ^ 32) < 16 * (reg s Reg.pwrTempWarnC : Int) →
      toSigned 32 ((hottest ss).1 % 2 ^ 32) < 16 * (reg s Reg.pwrTempCritC : Int) → ∃ t, Answers (.tempRead ss ds) s t ∧
        (∀ i < 64, reg t (Reg.tempSensor i) = natAt ss i % 2 ^ 32) ∧ (∀ i < 2, reg t (Reg.tempDiode i) = natAt ds i % 2 ^ 32) ∧
        reg t Reg.tempMax = (hottest ss).1 % 2 ^ 32 ∧ reg t Reg.tempMaxSensor = (hottest ss).2) ∧
    (timeNs s % 100000 = 0 → s.pwr.inReset = false → ss.length = 64 → ds.length = 2 → s.pwr.warned = false →
      16 * (reg s Reg.pwrTempWarnC : Int) ≤ toSigned 32 ((hottest ss).1 % 2 ^ 32) →
      toSigned 32 ((hottest ss).1 % 2 ^ 32) < 16 * (reg s Reg.pwrTempCritC : Int) → ∃ t, Answers (.tempRead ss ds) s t ∧
        t.pwr.warned = true ∧ bit (reg t Reg.pwrCause) 1 = true) ∧
    (timeNs s % 10000000 = 0 → s.pwr.inReset = false → ∃ t, Answers .powerEstimateUpdate s t ∧ reg t Reg.pwrEstimateW < 2 ^ 16 ∧
      t = { s with od := t.od, freeCtr := s.freeCtr + 1 } ∧ OnlyEntries s t [Reg.pwrEstimateW]) ∧
    (n ≤ 13 → s.pwr.inReset = false → ∃ t, Answers (.refclkLoss n) s t ∧ bit (reg t Reg.pwrCause) 5 = true ∧
      (n = 0 → t.fl.timeLocked = false))

/-! ### Integrity (ch. 20) and board signals (ch. 21) -/

/-- Scrubbing, management RAM and fault injection (R490, R491, R496, R498). A sweep starts at a multiple of its period, and one whose
class is still being swept is counted late; a patrol read takes a place in order and writes back a corrected word, counted; the reads due
in a stopped island are made as one batch; a corrected word of management RAM is counted and an uncorrectable one halts the cores; an
armed fault fires at its word, with the flips asked for, and disarms. The index of a word is the model's numbering (notes/assumptions/22);
corners of injection follow notes/assumptions/36. -/
def Obligations.ScrubsAndInjectedFaults : Prop :=
  ∀ (s : State) (c : Client) (cls unit idx v : Nat), OdTidy s →
    (scrubPeriod s cls ≠ 0 → timeNs s % scrubPeriod s cls = 0 → (reg s Reg.pwrState = 0 ∨ cls = 0xB) →
      (mfind s.integ.sweeps cls = none → Answers (.patrolScrubSweepStart cls) s
        { s with integ.sweeps := mput s.integ.sweeps cls 0 }) ∧
      (∀ p, mfind s.integ.sweeps cls = some p → ∃ t, Answers (.patrolScrubSweepStart cls) s t ∧
        reg t Reg.intScrubLate = (reg s Reg.intScrubLate + 1) % 2 ^ 64 ∧ bit (reg t Reg.intCause) 5 = true ∧
        t.integ.sweeps = s.integ.sweeps)) ∧
    (∀ p, mfind s.integ.sweeps cls = some p → unit < 256 → idx < 2 ^ 40 → p ≤ unit * 2 ^ 40 + idx → reg s Reg.pwrState = 0 →
      scrubCounts s cls unit = false → cls ≠ 3 → cls < 12 →
      (flipsOf s cls unit idx = 0 → Answers (.patrolScrubRead cls unit idx 0 false) s
        { s with integ.sweeps := mput s.integ.sweeps cls (unit * 2 ^ 40 + idx + 1) }) ∧
      (flipsOf s cls unit idx ≤ 1 → ∃ t, Answers (.patrolScrubRead cls unit idx 1 false) s t ∧ flipsOf t cls unit idx = 0 ∧
        reg t (Reg.intCorrected cls) = (reg s (Reg.intCorrected cls) + 1) % 2 ^ 64 ∧ bit (reg t Reg.intCause) 0 = true)) ∧
    (∀ reads, mget 0 s.integ.due unit = reads.length → reads ≠ [] → (isl s unit).stopped = false → reg s Reg.pwrState = 0 →
      (∀ r ∈ reads, (r.1 = 0 ∨ r.1 = 1 ∨ r.1 = 4) ∧ r.2.2 = 0 ∧ flipsOf s r.1 unit r.2.1 = 0) →
      Answers (.patrolScrubBatch unit reads) s { s with integ.due := mset 0 s.integ.due unit 0 }) ∧
    (∃ t, Answers (.mgmtRamError idx 1) s t ∧ reg t (Reg.intCorrected 0xB) = (reg s (Reg.intCorrected 0xB) + 1) % 2 ^ 64 ∧
      t.fw = s.fw) ∧
    (∃ t, Answers (.mgmtRamError idx 2) s t ∧ t.fw.halted = true ∧ t.fw.running = false ∧ bit (reg t Reg.intCause) 7 = true) ∧
    (Permitted s c Reg.intInject v → bits v 63 60 ≤ 3 → bits v 59 56 ≤ 0xB → Does (.intInjectWrite c v) s c
      (setReg s Reg.intInject v)) ∧
    (Permitted s c Reg.intInject v → 4 < bits v 63 60 → TurnedAway (.intInjectWrite c v) s c Reg.intInject .refused) ∧
    (∀ i d, 1 ≤ bits (reg s Reg.intInject) 63 60 → bits (reg s Reg.intInject) 63 60 ≤ 3 → bits (reg s Reg.intInject) 59 56 = cls →
      bits (reg s Reg.intInject) 55 48 = unit → cls ≠ 0xA → (bits (reg s Reg.intInject) 39 0 = 0xFFFFFFFFFF ∨
        bits (reg s Reg.intInject) 39 0 = idx) → ∃ t, Answers (.injectFire idx i d) s t ∧ reg t Reg.intInject = 0 ∧
        flipsOf t cls unit idx = bits (reg s Reg.intInject) 63 60 ∧ bit (reg t Reg.intCause) 6 = true ∧
        reg t Reg.intInjectFired = (reg s Reg.intInjectFired + 1) % 2 ^ 32)

/-- Pulse per second, GPIO, the serial masters and JTAG (R522–R525). An edge latches TIME within 2 ns unless one came less than 1 us
before; a pulse rises at the whole second while TIME is locked; a GPIO write drives the pins; a master's list runs to its end and stands
with its answers; EXTEST, CLAMP and HIGHZ hold the device in reset, leaving them resets it, and the other instructions leave a running
device alone. The 2 ns of a stamp and what SAMPLE leaves are the model's reading (notes/assumptions/49). -/
def Obligations.BoardSignals : Prop :=
  ∀ (s : State) (c : Client) (n v : Nat) (ans : List (Nat × List Byte)), OdTidy s →
    (s.pwr.inReset = false → n ≤ 4 → (∀ a, s.io.ppsInAt = some a → a + 1000 ≤ s.time) → Answers (.ppsInEdge n) s
      (setReg { s with io.ppsInAt := some s.time } Reg.ioPpsInTs ((timeNs s + n + 2 ^ 64 - 2) % 2 ^ 64))) ∧
    (∀ a, s.pwr.inReset = false → n ≤ 4 → s.io.ppsInAt = some a → s.time < a + 1000 →
      Answers (.ppsInEdge n) s { s with io.ppsInAt := some s.time }) ∧
    (timeNs s % 1000000000 = 0 → s.fl.timeLocked = true → s.pwr.inReset = false → s.io.ppsFall = none →
      Answers .ppsOutPulse s (emit { s with io.ppsFall := some (s.time + 1000000) } (.pps true))) ∧
    (∀ k out, k = (if out then Reg.ioGpioOut else Reg.ioGpioDir) → Permitted s c k v → ∃ t, Does (.gpioWrite c out v) s c t ∧
      reg t k = v ∧ OnlyEntries s t [k] ∧ t.io.gpio = reg t Reg.ioGpioDir * 2 ^ 32 +
        Nat.land (reg t Reg.ioGpioDir) (reg t Reg.ioGpioOut)) ∧
    (∀ l, mget false s.io.i2cRun n = true → l = (ioRun i2cSize (ioRecords (mget [] s.io.i2c n)) ans false).flatten →
      Answers (.ioI2cXfer n ans) s (emit { s with
        io.i2c := mset [] s.io.i2c n l, io.i2cRun := mset false s.io.i2cRun n false } (.i2c n l))) ∧
    (∀ l, mget false s.io.mdioRun n = true → l = (ioRun mdioSize (ioRecords (mget [] s.io.mdio n)) ans false).flatten →
      Answers (.ioMdioXfer n ans) s (emit { s with
        io.mdio := mset [] s.io.mdio n l, io.mdioRun := mset false s.io.mdioRun n false } (.mdio n l))) ∧
    (s.pwr.off = false → ∀ i j, (i, j) ∈ [(Instr.jtagExtest, 0), (.jtagExtestPulse, 1), (.jtagExtestTrain, 2), (.jtagClamp, 3),
      (.jtagHighz, 4)] → ∃ t, Answers i s t ∧ t.pwr = { inReset := true, jtag := some j } ∧ t.pkts = [] ∧
        t.dict.store = s.dict.store) ∧
    (s.pwr.jtag = none → Answers (.jtagBypass n) s (emit s (.jtag [0])) ∧
      Answers (.jtagIdcode n) s (emit s (.jtag (leBytes 4 idcode))) ∧ Answers (.jtagSamplePreload n) s s ∧
      Answers (.jtagTestExit n) s s) ∧
    (∀ j, s.pwr.jtag = some j → ∃ t, Answers (.jtagTestExit n) s t ∧ Restarted s t 2 n)

/-! ### The state after reset, and what every step keeps -/

/-- The state after reset (R396, R400, R477, R483): nothing waits, every entry stands at its default but the kind of reset and its count
(`pwr_last_reset` 1 and `pwr_reset_count` 1), no packet is in the device, the memories list nothing, and the forms below hold. That
State.reset is the instant RESET_L rises, and the zeros of entries without a default, are the model's choice (notes/assumptions/3, 60). -/
def Obligations.ResetState : Prop :=
  State.reset.pending = [] ∧ State.reset.pkts = [] ∧ State.reset.outs = [] ∧ State.reset.fw.running = false ∧
  reg State.reset Reg.pwrLastReset = 1 ∧ reg State.reset (Reg.pwrResetCount 1) = 1 ∧ reg State.reset Reg.pwrStartupPhase = 0 ∧
  (∀ k, k ≠ Reg.pwrLastReset → k ≠ Reg.pwrResetCount 1 → reg State.reset k = odDefault k) ∧
  OdTidy State.reset ∧ MemoriesTidy State.reset ∧ CountedTidy State.reset

/-- What a command may change: no command but a reset moves the time since reset or what TIME adds to it, and each part of the block
changes only by the commands of Safety.lean's list for it; every other command leaves all of that part as it was. -/
def Obligations.PartsChangeOnlyByTheirCommands : Prop :=
  ∀ (c : Instr) (s t : State), Answers c s t → isReset c = false →
    t.time = s.time ∧ t.timeOffset = s.timeOffset ∧
    (touchesLookups c = false → t.lkp = s.lkp) ∧ (touchesAse c = false → t.ase = s.ase) ∧
    (touchesClassification c = false → t.cls = s.cls) ∧ (touchesClocks c = false → t.clk = s.clk) ∧
    (touchesLanes c = false → t.lanes = s.lanes) ∧ (touchesHost c = false → t.host = s.host) ∧
    (touchesFirmware c = false → t.fw = s.fw) ∧ (touchesPower c = false → t.pwr = s.pwr) ∧ (touchesBoard c = false → t.io = s.io)

/-- From every state with the canonical forms and the accounts in order, a step leaves them so (R399, R400; the canonical forms are the
model's, notes/assumptions/1). -/
def Obligations.StepKeepsTidy : Prop :=
  ∀ s t : State, OdTidy s → MemoriesTidy s → CountedTidy s → Machine.step s = .next t →
    OdTidy t ∧ MemoriesTidy t ∧ CountedTidy t

/-- A step takes one command from the queue and adds none; no step lowers a count of counted writes (R399); and the device key changes
only at the end of a counted write of it (R417). -/
def Obligations.StepKeepsCounts : Prop :=
  ∀ s t : State, OdTidy s → CountedTidy s → Machine.step s = .next t →
    t.pending = s.pending.tail ∧ (∀ k, mget 0 s.dict.fuseCounts k ≤ mget 0 t.dict.fuseCounts k) ∧
    (t.dict.deviceKey ≠ s.dict.deviceKey → ∃ b ∈ s.dict.burns, b.entry = Reg.synDeviceKey ∧ t.dict.deviceKey = b.value)
end

