-- ==== Sys2Proof/Laws/SMap.lean ====
section
/-! SUPPORT. What reading and writing a sparse table do (notes/assumptions/1). -/

namespace Sys2Proof.Machine

variable {α : Type}

/-- Nothing at or below `k` is left of a table cut above `k`. -/
theorem mget_filter_above (d : α) (m : SMap α) (k : Nat) : mget d (m.filter (fun p => k < p.1)) k = d := by
  induction m with
  | nil => rfl
  | cons p r ih => by_cases h : k < p.1 <;> simp [List.filter, h, mget, ih]

/-- A read after a write of the same index gives the value written. -/
@[simp] theorem mget_mset_self [DecidableEq α] (d : α) (m : SMap α) (k : Nat) (v : α) : mget d (mset d m k v) k = v := by
  induction m with
  | nil => by_cases h : v = d <;> simp [mset, mget, h]
  | cons p r ih =>
    by_cases h : k < p.1
    · by_cases hv : v = d <;> simp [mset, mget, h, hv]
    · by_cases he : k = p.1
      · by_cases hv : v = d <;> simp [mset, mget, he, hv, mget_filter_above]
      · simp [mset, mget, h, he, ih]

/-- Above `k` a table cut above `k` reads as before. -/
theorem mget_filter_of_lt (d : α) (m : SMap α) (k j : Nat) (h : k < j) : mget d (m.filter (fun p => k < p.1)) j = mget d m j := by
  induction m with
  | nil => rfl
  | cons p r ih =>
    by_cases hp : k < p.1
    · simp [List.filter, hp, mget, ih]
    · have h1 : ¬ j < p.1 := by omega
      have h2 : ¬ j = p.1 := by omega
      simp [List.filter, hp, mget, ih, h1, h2]

/-- Up to `k` nothing is left of a table cut above `k`. -/
theorem mget_filter_of_le (d : α) (m : SMap α) (k j : Nat) (h : j ≤ k) : mget d (m.filter (fun p => k < p.1)) j = d := by
  induction m with
  | nil => rfl
  | cons p r ih =>
    by_cases hp : k < p.1
    · have : j < p.1 := by omega
      simp [List.filter, hp, mget, this]
    · simp [List.filter, hp, ih]

/-- A write leaves every other index as it was, whatever an unlisted index reads as there. -/
theorem mget_default_ne [DecidableEq α] (d e : α) : ∀ (m : SMap α) (k j : Nat) (v : α), j ≠ k →
    mget e (mset d m k v) j = mget e m j
  | [], k, j, v, hj => by
    by_cases h : v = d
    · simp [mset, h]
    · simp only [mset, h, if_false, mget]
      split
      · rfl
      · simp [hj]
  | p :: r, k, j, v, hj => by
    simp only [mset]
    by_cases h : k < p.1
    · by_cases hv : v = d
      · simp [h, hv]
      · simp only [h, hv, if_true, if_false, mget]
        by_cases h2 : j < k
        · have : j < p.1 := by omega
          simp [h2, this]
        · simp [h2, hj]
    · by_cases he : k = p.1
      · subst he
        by_cases hv : v = d
        · simp only [hv, Nat.lt_irrefl, if_true, if_false, mget]
          by_cases h2 : j < p.1
          · simp [h2, mget_filter_of_le e r p.1 j (by omega)]
          · simp [h2, hj, mget_filter_of_lt e r p.1 j (by omega)]
        · simp [hv, mget, hj]
      · simp only [h, he, if_false, mget, mget_default_ne d e r k j v hj]

/-- A write leaves every other index as it was. -/
theorem mget_mset_ne [DecidableEq α] (d : α) (m : SMap α) (k j : Nat) (v : α) (hj : j ≠ k) :
    mget d (mset d m k v) j = mget d m j := mget_default_ne d d m k j v hj

/-- Cutting a rising table leaves it rising. -/
theorem risingFrom_filter (f : Nat × α → Bool) : ∀ (m : SMap α) (lo lo' : Nat), risingFrom lo m = true → lo' ≤ lo →
    risingFrom lo' (m.filter f) = true
  | [], _, _, _, _ => rfl
  | p :: r, lo, lo', h, hl => by
    simp only [risingFrom, Bool.and_eq_true, decide_eq_true_eq] at h
    by_cases hf : f p = true
    · simp only [List.filter, hf, risingFrom, Bool.and_eq_true, decide_eq_true_eq]
      exact ⟨by omega, risingFrom_filter f r _ _ h.2 (Nat.le_refl _)⟩
    · simp only [List.filter, hf]
      exact risingFrom_filter f r _ _ h.2 (by omega)

/-- A write leaves a rising table rising. -/
theorem risingFrom_mset [DecidableEq α] (d : α) : ∀ (m : SMap α) (lo k : Nat) (v : α), risingFrom lo m = true → lo ≤ k →
    risingFrom lo (mset d m k v) = true
  | [], _, k, v, _, hk => by by_cases h : v = d <;> simp [mset, h, risingFrom, hk]
  | p :: r, lo, k, v, h, hk => by
    have h0 := h
    simp only [risingFrom, Bool.and_eq_true, decide_eq_true_eq] at h
    simp only [mset]
    by_cases h1 : k < p.1
    · by_cases hv : v = d
      · simpa [h1, hv] using h0
      · simp only [h1, hv, if_true, if_false, risingFrom, Bool.and_eq_true, decide_eq_true_eq]
        exact ⟨hk, by omega, h.2⟩
    · by_cases he : k = p.1
      · by_cases hv : v = d
        · simp only [he, hv, Nat.lt_irrefl, if_true, if_false]
          exact risingFrom_filter _ r _ _ h.2 (by omega)
        · simp only [he, hv, Nat.lt_irrefl, if_true, if_false, risingFrom, Bool.and_eq_true, decide_eq_true_eq]
          exact ⟨by omega, h.2⟩
      · simp only [h1, he, if_false, risingFrom, Bool.and_eq_true, decide_eq_true_eq]
        exact ⟨h.1, risingFrom_mset d r _ k v h.2 (by omega)⟩

/-- Every entry of a written table was in it before, or is the entry written. -/
theorem mem_mset [DecidableEq α] (d : α) : ∀ (m : SMap α) (k : Nat) (v : α) (p : Nat × α), p ∈ mset d m k v →
    p ∈ m ∨ (p = (k, v) ∧ v ≠ d)
  | [], k, v, p, h => by
    by_cases hv : v = d
    · simp [mset, hv] at h
    · simp only [mset, hv, if_false, List.mem_singleton] at h
      exact .inr ⟨h, hv⟩
  | q :: r, k, v, p, h => by
    simp only [mset] at h
    split at h
    · split at h
      · exact .inl h
      · rename_i hv
        rcases List.mem_cons.1 h with h | h
        · exact .inr ⟨h, hv⟩
        · exact .inl h
    · split at h
      · split at h
        · exact .inl (List.mem_cons.2 (.inr (List.mem_filter.1 h).1))
        · rename_i hv
          rcases List.mem_cons.1 h with h | h
          · exact .inr ⟨h, hv⟩
          · exact .inl (List.mem_cons.2 (.inr h))
      · rcases List.mem_cons.1 h with h | h
        · exact .inl (List.mem_cons.2 (.inl h))
        · rcases mem_mset d r k v p h with h | h
          · exact .inl (List.mem_cons.2 (.inr h))
          · exact .inr h

/-- A write keeps the canonical form. -/
theorem mwf_mset [DecidableEq α] (d : α) (m : SMap α) (k : Nat) (v : α) (h : mwf d m = true) :
    mwf d (mset d m k v) = true := by
  simp only [mwf, Bool.and_eq_true, List.all_eq_true, decide_eq_true_eq] at h ⊢
  refine ⟨risingFrom_mset d m 0 k v h.1 (Nat.zero_le _), fun p hp => ?_⟩
  rcases mem_mset d m k v p hp with hp | ⟨rfl, hv⟩
  · exact h.2 p hp
  · exact hv

/-- Removing an index from a rising table leaves it rising. -/
theorem risingFrom_mdel (m : SMap α) (lo k : Nat) (h : risingFrom lo m = true) : risingFrom lo (mdel m k) = true :=
  risingFrom_filter _ m lo lo h (Nat.le_refl _)

/-- An entry just listed is found. -/
@[simp] theorem mfind_mput_self (m : SMap α) (k : Nat) (v : α) : mfind (mput m k v) k = some v := by
  induction m with
  | nil => simp [mput, mfind]
  | cons p r ih =>
    by_cases h : k < p.1
    · simp [mput, mfind, h]
    · by_cases he : k = p.1
      · simp [mput, mfind, he]
      · simp [mput, mfind, h, he, ih]

/-- Listing an entry leaves every other as it was. -/
theorem mfind_mput_ne (m : SMap α) (k j : Nat) (v : α) (hj : j ≠ k) : mfind (mput m k v) j = mfind m j := by
  induction m with
  | nil =>
    simp only [mput, mfind]
    split
    · rfl
    · simp [hj]
  | cons p r ih =>
    simp only [mput]
    split
    · simp only [mfind]
      split
      · have : j < p.1 := by omega
        simp [this]
      · simp
    · split
      · subst_vars
        simp [mfind, hj]
      · simp only [mfind, ih]

/-- An index removed is not found. -/
@[simp] theorem mfind_mdel_self (m : SMap α) (k : Nat) : mfind (mdel m k) k = none := by
  induction m with
  | nil => rfl
  | cons p r ih =>
    unfold mdel at ih ⊢
    by_cases h : p.1 = k
    · simpa [List.filter, h] using ih
    · simp only [List.filter, ne_eq, h, not_false_eq_true, decide_true, mfind, Ne.symm h, if_false]
      split
      · rfl
      · simpa using ih

end Sys2Proof.Machine
end

