-- ==== Sys2Proof/Laws/Memory.lean ====
section
/-! SUPPORT. What the operations of the two memories do, and that each keeps the canonical form. -/

namespace Sys2Proof.Machine

/-- Two tables with one list of pairs read alike where the unlisted value is the same. -/
theorem mget_congr {α : Type} {d d' : α} (m : SMap α) (k : Nat) (h : d = d') : mget d m k = mget d' m k := by rw [h]

/-- A byte read after it was written is the byte written. -/
@[simp] theorem Memory.get_set_self (d : Nat → Byte) (m : List Host.Cell) (a : Nat) (v : Byte) :
    Memory.get d (Memory.set d m a v) a = v := mget_mset_self _ _ _ _

/-- The canonical form has rising addresses. -/
theorem Memory.wf_rising {d : Nat → Byte} {m : List Host.Cell} (h : Memory.wf d m = true) : risingFrom 0 m = true := by
  simp only [Memory.wf, Bool.and_eq_true] at h
  exact h.1

/-- A write leaves every other byte alone. -/
theorem Memory.get_set_ne (d : Nat → Byte) (m : List Host.Cell) (a b : Nat) (v : Byte) (hb : b ≠ a) : Memory.get d (Memory.set d m a v) b = Memory.get d m b :=
  mget_default_ne (d a) (d b) m a b v hb

/-- A write keeps the canonical form. -/
theorem Memory.wf_set (d : Nat → Byte) (m : List Host.Cell) (a : Nat) (v : Byte) (h : Memory.wf d m = true) :
    Memory.wf d (Memory.set d m a v) = true := by
  simp only [Memory.wf, Bool.and_eq_true, List.all_eq_true, decide_eq_true_eq] at h ⊢
  refine ⟨risingFrom_mset (d a) m 0 a v h.1 (Nat.zero_le _), fun p hp => ?_⟩
  rcases mem_mset (d a) m a v p hp with hp | ⟨rfl, hv⟩
  · exact h.2 p hp
  · exact hv

/-- A write of several bytes keeps the canonical form. -/
theorem Memory.wf_write (d : Nat → Byte) (b : List Byte) : ∀ (m : List Host.Cell) (a : Nat), Memory.wf d m = true →
    Memory.wf d (Memory.write d m a b) = true := by
  induction b with
  | nil => exact fun _ _ h => h
  | cons x r ih => exact fun m a h => ih _ _ (Memory.wf_set d m a x h)

/-- Bytes outside those written read as before. -/
theorem Memory.get_write_ne (d : Nat → Byte) (l : List Byte) : ∀ (m : List Host.Cell) (a b : Nat), Memory.wf d m = true →
    (b < a ∨ a + l.length ≤ b) → Memory.get d (Memory.write d m a l) b = Memory.get d m b := by
  induction l with
  | nil => exact fun _ _ _ _ _ => rfl
  | cons x r ih =>
    intro m a b h hb
    simp only [List.length_cons] at hb
    simp only [Memory.write]
    rw [ih _ _ _ (Memory.wf_set d m a x h) (by omega), Memory.get_set_ne d m a b x (by omega)]

/-- Bytes written read back. -/
theorem Memory.read_write (d : Nat → Byte) (l : List Byte) : ∀ (m : List Host.Cell) (a : Nat), Memory.wf d m = true →
    Memory.read d (Memory.write d m a l) a l.length = l := by
  induction l with
  | nil => exact fun _ _ _ => rfl
  | cons x r ih =>
    intro m a h
    simp only [Memory.write, List.length_cons, Memory.read]
    rw [ih _ _ (Memory.wf_set d m a x h), Memory.get_write_ne d r _ (a + 1) a (Memory.wf_set d m a x h) (by omega),
      Memory.get_set_self]

/-- Both memories are canonical at reset. -/
theorem reset_memories_wf : Memory.wf potUnlisted State.reset.mem.pot = true ∧
    Memory.wf crockUnlisted State.reset.mem.crock = true := ⟨rfl, rfl⟩

end Sys2Proof.Machine
end

