-- ==== Sys2Proof/Laws/State.lean ====
section
/-! SUPPORT. One lemma per field for every named one-field update of the state: what it leaves alone. -/

namespace Sys2Proof.Machine

/-! `setJob` writes `dict` alone. -/
@[simp] theorem setJob_od (s : State) (k : Nat) (j : Job) : (setJob s k j).od = s.od := rfl
@[simp] theorem setJob_blocks (s : State) (k : Nat) (j : Job) : (setJob s k j).blocks = s.blocks := rfl
@[simp] theorem setJob_pending (s : State) (k : Nat) (j : Job) : (setJob s k j).pending = s.pending := rfl
@[simp] theorem setJob_time (s : State) (k : Nat) (j : Job) : (setJob s k j).time = s.time := rfl
@[simp] theorem setJob_timeOffset (s : State) (k : Nat) (j : Job) : (setJob s k j).timeOffset = s.timeOffset := rfl
@[simp] theorem setJob_freeCtr (s : State) (k : Nat) (j : Job) : (setJob s k j).freeCtr = s.freeCtr := rfl
@[simp] theorem setJob_sent (s : State) (k : Nat) (j : Job) : (setJob s k j).sent = s.sent := rfl
@[simp] theorem setJob_evt (s : State) (k : Nat) (j : Job) : (setJob s k j).evt = s.evt := rfl
@[simp] theorem setJob_led (s : State) (k : Nat) (j : Job) : (setJob s k j).led = s.led := rfl
@[simp] theorem setJob_obs (s : State) (k : Nat) (j : Job) : (setJob s k j).obs = s.obs := rfl
@[simp] theorem setJob_pkts (s : State) (k : Nat) (j : Job) : (setJob s k j).pkts = s.pkts := rfl
@[simp] theorem setJob_nextPkt (s : State) (k : Nat) (j : Job) : (setJob s k j).nextPkt = s.nextPkt := rfl
@[simp] theorem setJob_outs (s : State) (k : Nat) (j : Job) : (setJob s k j).outs = s.outs := rfl
@[simp] theorem setJob_nextOut (s : State) (k : Nat) (j : Job) : (setJob s k j).nextOut = s.nextOut := rfl
@[simp] theorem setJob_ports (s : State) (k : Nat) (j : Job) : (setJob s k j).ports = s.ports := rfl
@[simp] theorem setJob_lanes (s : State) (k : Nat) (j : Job) : (setJob s k j).lanes = s.lanes := rfl
@[simp] theorem setJob_lmacs (s : State) (k : Nat) (j : Job) : (setJob s k j).lmacs = s.lmacs := rfl
@[simp] theorem setJob_mem (s : State) (k : Nat) (j : Job) : (setJob s k j).mem = s.mem := rfl
@[simp] theorem setJob_qm (s : State) (k : Nat) (j : Job) : (setJob s k j).qm = s.qm := rfl
@[simp] theorem setJob_pwr (s : State) (k : Nat) (j : Job) : (setJob s k j).pwr = s.pwr := rfl
@[simp] theorem setJob_host (s : State) (k : Nat) (j : Job) : (setJob s k j).host = s.host := rfl
@[simp] theorem setJob_fl (s : State) (k : Nat) (j : Job) : (setJob s k j).fl = s.fl := rfl
@[simp] theorem setJob_ft (s : State) (k : Nat) (j : Job) : (setJob s k j).ft = s.ft := rfl
@[simp] theorem setJob_hbm (s : State) (k : Nat) (j : Job) : (setJob s k j).hbm = s.hbm := rfl
@[simp] theorem setJob_integ (s : State) (k : Nat) (j : Job) : (setJob s k j).integ = s.integ := rfl
@[simp] theorem setJob_ase (s : State) (k : Nat) (j : Job) : (setJob s k j).ase = s.ase := rfl
@[simp] theorem setJob_cls (s : State) (k : Nat) (j : Job) : (setJob s k j).cls = s.cls := rfl
@[simp] theorem setJob_lkp (s : State) (k : Nat) (j : Job) : (setJob s k j).lkp = s.lkp := rfl
@[simp] theorem setJob_mtr (s : State) (k : Nat) (j : Job) : (setJob s k j).mtr = s.mtr := rfl
@[simp] theorem setJob_fw (s : State) (k : Nat) (j : Job) : (setJob s k j).fw = s.fw := rfl
@[simp] theorem setJob_clk (s : State) (k : Nat) (j : Job) : (setJob s k j).clk = s.clk := rfl
@[simp] theorem setJob_io (s : State) (k : Nat) (j : Job) : (setJob s k j).io = s.io := rfl
@[simp] theorem reg_setJob (s : State) (k : Nat) (j : Job) (entry : Nat) : reg (setJob s k j) entry = reg s entry := rfl

/-! `setBank` writes `ase` alone. -/
@[simp] theorem setBank_od (s : State) (k : Nat) (b : AseBank) : (setBank s k b).od = s.od := rfl
@[simp] theorem setBank_blocks (s : State) (k : Nat) (b : AseBank) : (setBank s k b).blocks = s.blocks := rfl
@[simp] theorem setBank_pending (s : State) (k : Nat) (b : AseBank) : (setBank s k b).pending = s.pending := rfl
@[simp] theorem setBank_time (s : State) (k : Nat) (b : AseBank) : (setBank s k b).time = s.time := rfl
@[simp] theorem setBank_timeOffset (s : State) (k : Nat) (b : AseBank) : (setBank s k b).timeOffset = s.timeOffset := rfl
@[simp] theorem setBank_freeCtr (s : State) (k : Nat) (b : AseBank) : (setBank s k b).freeCtr = s.freeCtr := rfl
@[simp] theorem setBank_sent (s : State) (k : Nat) (b : AseBank) : (setBank s k b).sent = s.sent := rfl
@[simp] theorem setBank_evt (s : State) (k : Nat) (b : AseBank) : (setBank s k b).evt = s.evt := rfl
@[simp] theorem setBank_led (s : State) (k : Nat) (b : AseBank) : (setBank s k b).led = s.led := rfl
@[simp] theorem setBank_obs (s : State) (k : Nat) (b : AseBank) : (setBank s k b).obs = s.obs := rfl
@[simp] theorem setBank_pkts (s : State) (k : Nat) (b : AseBank) : (setBank s k b).pkts = s.pkts := rfl
@[simp] theorem setBank_nextPkt (s : State) (k : Nat) (b : AseBank) : (setBank s k b).nextPkt = s.nextPkt := rfl
@[simp] theorem setBank_outs (s : State) (k : Nat) (b : AseBank) : (setBank s k b).outs = s.outs := rfl
@[simp] theorem setBank_nextOut (s : State) (k : Nat) (b : AseBank) : (setBank s k b).nextOut = s.nextOut := rfl
@[simp] theorem setBank_ports (s : State) (k : Nat) (b : AseBank) : (setBank s k b).ports = s.ports := rfl
@[simp] theorem setBank_lanes (s : State) (k : Nat) (b : AseBank) : (setBank s k b).lanes = s.lanes := rfl
@[simp] theorem setBank_lmacs (s : State) (k : Nat) (b : AseBank) : (setBank s k b).lmacs = s.lmacs := rfl
@[simp] theorem setBank_mem (s : State) (k : Nat) (b : AseBank) : (setBank s k b).mem = s.mem := rfl
@[simp] theorem setBank_qm (s : State) (k : Nat) (b : AseBank) : (setBank s k b).qm = s.qm := rfl
@[simp] theorem setBank_pwr (s : State) (k : Nat) (b : AseBank) : (setBank s k b).pwr = s.pwr := rfl
@[simp] theorem setBank_host (s : State) (k : Nat) (b : AseBank) : (setBank s k b).host = s.host := rfl
@[simp] theorem setBank_fl (s : State) (k : Nat) (b : AseBank) : (setBank s k b).fl = s.fl := rfl
@[simp] theorem setBank_ft (s : State) (k : Nat) (b : AseBank) : (setBank s k b).ft = s.ft := rfl
@[simp] theorem setBank_hbm (s : State) (k : Nat) (b : AseBank) : (setBank s k b).hbm = s.hbm := rfl
@[simp] theorem setBank_integ (s : State) (k : Nat) (b : AseBank) : (setBank s k b).integ = s.integ := rfl
@[simp] theorem setBank_dict (s : State) (k : Nat) (b : AseBank) : (setBank s k b).dict = s.dict := rfl
@[simp] theorem setBank_cls (s : State) (k : Nat) (b : AseBank) : (setBank s k b).cls = s.cls := rfl
@[simp] theorem setBank_lkp (s : State) (k : Nat) (b : AseBank) : (setBank s k b).lkp = s.lkp := rfl
@[simp] theorem setBank_mtr (s : State) (k : Nat) (b : AseBank) : (setBank s k b).mtr = s.mtr := rfl
@[simp] theorem setBank_fw (s : State) (k : Nat) (b : AseBank) : (setBank s k b).fw = s.fw := rfl
@[simp] theorem setBank_clk (s : State) (k : Nat) (b : AseBank) : (setBank s k b).clk = s.clk := rfl
@[simp] theorem setBank_io (s : State) (k : Nat) (b : AseBank) : (setBank s k b).io = s.io := rfl
@[simp] theorem reg_setBank (s : State) (k : Nat) (b : AseBank) (entry : Nat) : reg (setBank s k b) entry = reg s entry := rfl

/-! `setMailbox` writes `dict` alone. -/
@[simp] theorem setMailbox_od (s : State) (fn : Nat) (m : Mailbox) : (setMailbox s fn m).od = s.od := rfl
@[simp] theorem setMailbox_blocks (s : State) (fn : Nat) (m : Mailbox) : (setMailbox s fn m).blocks = s.blocks := rfl
@[simp] theorem setMailbox_pending (s : State) (fn : Nat) (m : Mailbox) : (setMailbox s fn m).pending = s.pending := rfl
@[simp] theorem setMailbox_time (s : State) (fn : Nat) (m : Mailbox) : (setMailbox s fn m).time = s.time := rfl
@[simp] theorem setMailbox_timeOffset (s : State) (fn : Nat) (m : Mailbox) : (setMailbox s fn m).timeOffset = s.timeOffset := rfl
@[simp] theorem setMailbox_freeCtr (s : State) (fn : Nat) (m : Mailbox) : (setMailbox s fn m).freeCtr = s.freeCtr := rfl
@[simp] theorem setMailbox_sent (s : State) (fn : Nat) (m : Mailbox) : (setMailbox s fn m).sent = s.sent := rfl
@[simp] theorem setMailbox_evt (s : State) (fn : Nat) (m : Mailbox) : (setMailbox s fn m).evt = s.evt := rfl
@[simp] theorem setMailbox_led (s : State) (fn : Nat) (m : Mailbox) : (setMailbox s fn m).led = s.led := rfl
@[simp] theorem setMailbox_obs (s : State) (fn : Nat) (m : Mailbox) : (setMailbox s fn m).obs = s.obs := rfl
@[simp] theorem setMailbox_pkts (s : State) (fn : Nat) (m : Mailbox) : (setMailbox s fn m).pkts = s.pkts := rfl
@[simp] theorem setMailbox_nextPkt (s : State) (fn : Nat) (m : Mailbox) : (setMailbox s fn m).nextPkt = s.nextPkt := rfl
@[simp] theorem setMailbox_outs (s : State) (fn : Nat) (m : Mailbox) : (setMailbox s fn m).outs = s.outs := rfl
@[simp] theorem setMailbox_nextOut (s : State) (fn : Nat) (m : Mailbox) : (setMailbox s fn m).nextOut = s.nextOut := rfl
@[simp] theorem setMailbox_ports (s : State) (fn : Nat) (m : Mailbox) : (setMailbox s fn m).ports = s.ports := rfl
@[simp] theorem setMailbox_lanes (s : State) (fn : Nat) (m : Mailbox) : (setMailbox s fn m).lanes = s.lanes := rfl
@[simp] theorem setMailbox_lmacs (s : State) (fn : Nat) (m : Mailbox) : (setMailbox s fn m).lmacs = s.lmacs := rfl
@[simp] theorem setMailbox_mem (s : State) (fn : Nat) (m : Mailbox) : (setMailbox s fn m).mem = s.mem := rfl
@[simp] theorem setMailbox_qm (s : State) (fn : Nat) (m : Mailbox) : (setMailbox s fn m).qm = s.qm := rfl
@[simp] theorem setMailbox_pwr (s : State) (fn : Nat) (m : Mailbox) : (setMailbox s fn m).pwr = s.pwr := rfl
@[simp] theorem setMailbox_host (s : State) (fn : Nat) (m : Mailbox) : (setMailbox s fn m).host = s.host := rfl
@[simp] theorem setMailbox_fl (s : State) (fn : Nat) (m : Mailbox) : (setMailbox s fn m).fl = s.fl := rfl
@[simp] theorem setMailbox_ft (s : State) (fn : Nat) (m : Mailbox) : (setMailbox s fn m).ft = s.ft := rfl
@[simp] theorem setMailbox_hbm (s : State) (fn : Nat) (m : Mailbox) : (setMailbox s fn m).hbm = s.hbm := rfl
@[simp] theorem setMailbox_integ (s : State) (fn : Nat) (m : Mailbox) : (setMailbox s fn m).integ = s.integ := rfl
@[simp] theorem setMailbox_ase (s : State) (fn : Nat) (m : Mailbox) : (setMailbox s fn m).ase = s.ase := rfl
@[simp] theorem setMailbox_cls (s : State) (fn : Nat) (m : Mailbox) : (setMailbox s fn m).cls = s.cls := rfl
@[simp] theorem setMailbox_lkp (s : State) (fn : Nat) (m : Mailbox) : (setMailbox s fn m).lkp = s.lkp := rfl
@[simp] theorem setMailbox_mtr (s : State) (fn : Nat) (m : Mailbox) : (setMailbox s fn m).mtr = s.mtr := rfl
@[simp] theorem setMailbox_fw (s : State) (fn : Nat) (m : Mailbox) : (setMailbox s fn m).fw = s.fw := rfl
@[simp] theorem setMailbox_clk (s : State) (fn : Nat) (m : Mailbox) : (setMailbox s fn m).clk = s.clk := rfl
@[simp] theorem setMailbox_io (s : State) (fn : Nat) (m : Mailbox) : (setMailbox s fn m).io = s.io := rfl
@[simp] theorem reg_setMailbox (s : State) (fn : Nat) (m : Mailbox) (entry : Nat) : reg (setMailbox s fn m) entry = reg s entry := rfl

/-! `setPc` writes `hbm` alone. -/
@[simp] theorem setPc_od (s : State) (k : Nat) (x : HbmPc) : (setPc s k x).od = s.od := rfl
@[simp] theorem setPc_blocks (s : State) (k : Nat) (x : HbmPc) : (setPc s k x).blocks = s.blocks := rfl
@[simp] theorem setPc_pending (s : State) (k : Nat) (x : HbmPc) : (setPc s k x).pending = s.pending := rfl
@[simp] theorem setPc_time (s : State) (k : Nat) (x : HbmPc) : (setPc s k x).time = s.time := rfl
@[simp] theorem setPc_timeOffset (s : State) (k : Nat) (x : HbmPc) : (setPc s k x).timeOffset = s.timeOffset := rfl
@[simp] theorem setPc_freeCtr (s : State) (k : Nat) (x : HbmPc) : (setPc s k x).freeCtr = s.freeCtr := rfl
@[simp] theorem setPc_sent (s : State) (k : Nat) (x : HbmPc) : (setPc s k x).sent = s.sent := rfl
@[simp] theorem setPc_evt (s : State) (k : Nat) (x : HbmPc) : (setPc s k x).evt = s.evt := rfl
@[simp] theorem setPc_led (s : State) (k : Nat) (x : HbmPc) : (setPc s k x).led = s.led := rfl
@[simp] theorem setPc_obs (s : State) (k : Nat) (x : HbmPc) : (setPc s k x).obs = s.obs := rfl
@[simp] theorem setPc_pkts (s : State) (k : Nat) (x : HbmPc) : (setPc s k x).pkts = s.pkts := rfl
@[simp] theorem setPc_nextPkt (s : State) (k : Nat) (x : HbmPc) : (setPc s k x).nextPkt = s.nextPkt := rfl
@[simp] theorem setPc_outs (s : State) (k : Nat) (x : HbmPc) : (setPc s k x).outs = s.outs := rfl
@[simp] theorem setPc_nextOut (s : State) (k : Nat) (x : HbmPc) : (setPc s k x).nextOut = s.nextOut := rfl
@[simp] theorem setPc_ports (s : State) (k : Nat) (x : HbmPc) : (setPc s k x).ports = s.ports := rfl
@[simp] theorem setPc_lanes (s : State) (k : Nat) (x : HbmPc) : (setPc s k x).lanes = s.lanes := rfl
@[simp] theorem setPc_lmacs (s : State) (k : Nat) (x : HbmPc) : (setPc s k x).lmacs = s.lmacs := rfl
@[simp] theorem setPc_mem (s : State) (k : Nat) (x : HbmPc) : (setPc s k x).mem = s.mem := rfl
@[simp] theorem setPc_qm (s : State) (k : Nat) (x : HbmPc) : (setPc s k x).qm = s.qm := rfl
@[simp] theorem setPc_pwr (s : State) (k : Nat) (x : HbmPc) : (setPc s k x).pwr = s.pwr := rfl
@[simp] theorem setPc_host (s : State) (k : Nat) (x : HbmPc) : (setPc s k x).host = s.host := rfl
@[simp] theorem setPc_fl (s : State) (k : Nat) (x : HbmPc) : (setPc s k x).fl = s.fl := rfl
@[simp] theorem setPc_ft (s : State) (k : Nat) (x : HbmPc) : (setPc s k x).ft = s.ft := rfl
@[simp] theorem setPc_integ (s : State) (k : Nat) (x : HbmPc) : (setPc s k x).integ = s.integ := rfl
@[simp] theorem setPc_ase (s : State) (k : Nat) (x : HbmPc) : (setPc s k x).ase = s.ase := rfl
@[simp] theorem setPc_dict (s : State) (k : Nat) (x : HbmPc) : (setPc s k x).dict = s.dict := rfl
@[simp] theorem setPc_cls (s : State) (k : Nat) (x : HbmPc) : (setPc s k x).cls = s.cls := rfl
@[simp] theorem setPc_lkp (s : State) (k : Nat) (x : HbmPc) : (setPc s k x).lkp = s.lkp := rfl
@[simp] theorem setPc_mtr (s : State) (k : Nat) (x : HbmPc) : (setPc s k x).mtr = s.mtr := rfl
@[simp] theorem setPc_fw (s : State) (k : Nat) (x : HbmPc) : (setPc s k x).fw = s.fw := rfl
@[simp] theorem setPc_clk (s : State) (k : Nat) (x : HbmPc) : (setPc s k x).clk = s.clk := rfl
@[simp] theorem setPc_io (s : State) (k : Nat) (x : HbmPc) : (setPc s k x).io = s.io := rfl
@[simp] theorem reg_setPc (s : State) (k : Nat) (x : HbmPc) (entry : Nat) : reg (setPc s k x) entry = reg s entry := rfl

/-! `setRing` writes `host` alone. -/
@[simp] theorem setRing_od (s : State) (fn : Nat) (inj : Bool) (r : Nat) (x : Ring) : (setRing s fn inj r x).od = s.od := rfl
@[simp] theorem setRing_blocks (s : State) (fn : Nat) (inj : Bool) (r : Nat) (x : Ring) : (setRing s fn inj r x).blocks = s.blocks := rfl
@[simp] theorem setRing_pending (s : State) (fn : Nat) (inj : Bool) (r : Nat) (x : Ring) : (setRing s fn inj r x).pending = s.pending := rfl
@[simp] theorem setRing_time (s : State) (fn : Nat) (inj : Bool) (r : Nat) (x : Ring) : (setRing s fn inj r x).time = s.time := rfl
@[simp] theorem setRing_timeOffset (s : State) (fn : Nat) (inj : Bool) (r : Nat) (x : Ring) : (setRing s fn inj r x).timeOffset = s.timeOffset := rfl
@[simp] theorem setRing_freeCtr (s : State) (fn : Nat) (inj : Bool) (r : Nat) (x : Ring) : (setRing s fn inj r x).freeCtr = s.freeCtr := rfl
@[simp] theorem setRing_sent (s : State) (fn : Nat) (inj : Bool) (r : Nat) (x : Ring) : (setRing s fn inj r x).sent = s.sent := rfl
@[simp] theorem setRing_evt (s : State) (fn : Nat) (inj : Bool) (r : Nat) (x : Ring) : (setRing s fn inj r x).evt = s.evt := rfl
@[simp] theorem setRing_led (s : State) (fn : Nat) (inj : Bool) (r : Nat) (x : Ring) : (setRing s fn inj r x).led = s.led := rfl
@[simp] theorem setRing_obs (s : State) (fn : Nat) (inj : Bool) (r : Nat) (x : Ring) : (setRing s fn inj r x).obs = s.obs := rfl
@[simp] theorem setRing_pkts (s : State) (fn : Nat) (inj : Bool) (r : Nat) (x : Ring) : (setRing s fn inj r x).pkts = s.pkts := rfl
@[simp] theorem setRing_nextPkt (s : State) (fn : Nat) (inj : Bool) (r : Nat) (x : Ring) : (setRing s fn inj r x).nextPkt = s.nextPkt := rfl
@[simp] theorem setRing_outs (s : State) (fn : Nat) (inj : Bool) (r : Nat) (x : Ring) : (setRing s fn inj r x).outs = s.outs := rfl
@[simp] theorem setRing_nextOut (s : State) (fn : Nat) (inj : Bool) (r : Nat) (x : Ring) : (setRing s fn inj r x).nextOut = s.nextOut := rfl
@[simp] theorem setRing_ports (s : State) (fn : Nat) (inj : Bool) (r : Nat) (x : Ring) : (setRing s fn inj r x).ports = s.ports := rfl
@[simp] theorem setRing_lanes (s : State) (fn : Nat) (inj : Bool) (r : Nat) (x : Ring) : (setRing s fn inj r x).lanes = s.lanes := rfl
@[simp] theorem setRing_lmacs (s : State) (fn : Nat) (inj : Bool) (r : Nat) (x : Ring) : (setRing s fn inj r x).lmacs = s.lmacs := rfl
@[simp] theorem setRing_mem (s : State) (fn : Nat) (inj : Bool) (r : Nat) (x : Ring) : (setRing s fn inj r x).mem = s.mem := rfl
@[simp] theorem setRing_qm (s : State) (fn : Nat) (inj : Bool) (r : Nat) (x : Ring) : (setRing s fn inj r x).qm = s.qm := rfl
@[simp] theorem setRing_pwr (s : State) (fn : Nat) (inj : Bool) (r : Nat) (x : Ring) : (setRing s fn inj r x).pwr = s.pwr := rfl
@[simp] theorem setRing_fl (s : State) (fn : Nat) (inj : Bool) (r : Nat) (x : Ring) : (setRing s fn inj r x).fl = s.fl := rfl
@[simp] theorem setRing_ft (s : State) (fn : Nat) (inj : Bool) (r : Nat) (x : Ring) : (setRing s fn inj r x).ft = s.ft := rfl
@[simp] theorem setRing_hbm (s : State) (fn : Nat) (inj : Bool) (r : Nat) (x : Ring) : (setRing s fn inj r x).hbm = s.hbm := rfl
@[simp] theorem setRing_integ (s : State) (fn : Nat) (inj : Bool) (r : Nat) (x : Ring) : (setRing s fn inj r x).integ = s.integ := rfl
@[simp] theorem setRing_ase (s : State) (fn : Nat) (inj : Bool) (r : Nat) (x : Ring) : (setRing s fn inj r x).ase = s.ase := rfl
@[simp] theorem setRing_dict (s : State) (fn : Nat) (inj : Bool) (r : Nat) (x : Ring) : (setRing s fn inj r x).dict = s.dict := rfl
@[simp] theorem setRing_cls (s : State) (fn : Nat) (inj : Bool) (r : Nat) (x : Ring) : (setRing s fn inj r x).cls = s.cls := rfl
@[simp] theorem setRing_lkp (s : State) (fn : Nat) (inj : Bool) (r : Nat) (x : Ring) : (setRing s fn inj r x).lkp = s.lkp := rfl
@[simp] theorem setRing_mtr (s : State) (fn : Nat) (inj : Bool) (r : Nat) (x : Ring) : (setRing s fn inj r x).mtr = s.mtr := rfl
@[simp] theorem setRing_fw (s : State) (fn : Nat) (inj : Bool) (r : Nat) (x : Ring) : (setRing s fn inj r x).fw = s.fw := rfl
@[simp] theorem setRing_clk (s : State) (fn : Nat) (inj : Bool) (r : Nat) (x : Ring) : (setRing s fn inj r x).clk = s.clk := rfl
@[simp] theorem setRing_io (s : State) (fn : Nat) (inj : Bool) (r : Nat) (x : Ring) : (setRing s fn inj r x).io = s.io := rfl
@[simp] theorem reg_setRing (s : State) (fn : Nat) (inj : Bool) (r : Nat) (x : Ring) (entry : Nat) : reg (setRing s fn inj r x) entry = reg s entry := rfl

/-! `setIsl` writes `clk` alone. -/
@[simp] theorem setIsl_od (s : State) (n : Nat) (i : Isl) : (setIsl s n i).od = s.od := rfl
@[simp] theorem setIsl_blocks (s : State) (n : Nat) (i : Isl) : (setIsl s n i).blocks = s.blocks := rfl
@[simp] theorem setIsl_pending (s : State) (n : Nat) (i : Isl) : (setIsl s n i).pending = s.pending := rfl
@[simp] theorem setIsl_time (s : State) (n : Nat) (i : Isl) : (setIsl s n i).time = s.time := rfl
@[simp] theorem setIsl_timeOffset (s : State) (n : Nat) (i : Isl) : (setIsl s n i).timeOffset = s.timeOffset := rfl
@[simp] theorem setIsl_freeCtr (s : State) (n : Nat) (i : Isl) : (setIsl s n i).freeCtr = s.freeCtr := rfl
@[simp] theorem setIsl_sent (s : State) (n : Nat) (i : Isl) : (setIsl s n i).sent = s.sent := rfl
@[simp] theorem setIsl_evt (s : State) (n : Nat) (i : Isl) : (setIsl s n i).evt = s.evt := rfl
@[simp] theorem setIsl_led (s : State) (n : Nat) (i : Isl) : (setIsl s n i).led = s.led := rfl
@[simp] theorem setIsl_obs (s : State) (n : Nat) (i : Isl) : (setIsl s n i).obs = s.obs := rfl
@[simp] theorem setIsl_pkts (s : State) (n : Nat) (i : Isl) : (setIsl s n i).pkts = s.pkts := rfl
@[simp] theorem setIsl_nextPkt (s : State) (n : Nat) (i : Isl) : (setIsl s n i).nextPkt = s.nextPkt := rfl
@[simp] theorem setIsl_outs (s : State) (n : Nat) (i : Isl) : (setIsl s n i).outs = s.outs := rfl
@[simp] theorem setIsl_nextOut (s : State) (n : Nat) (i : Isl) : (setIsl s n i).nextOut = s.nextOut := rfl
@[simp] theorem setIsl_ports (s : State) (n : Nat) (i : Isl) : (setIsl s n i).ports = s.ports := rfl
@[simp] theorem setIsl_lanes (s : State) (n : Nat) (i : Isl) : (setIsl s n i).lanes = s.lanes := rfl
@[simp] theorem setIsl_lmacs (s : State) (n : Nat) (i : Isl) : (setIsl s n i).lmacs = s.lmacs := rfl
@[simp] theorem setIsl_mem (s : State) (n : Nat) (i : Isl) : (setIsl s n i).mem = s.mem := rfl
@[simp] theorem setIsl_qm (s : State) (n : Nat) (i : Isl) : (setIsl s n i).qm = s.qm := rfl
@[simp] theorem setIsl_pwr (s : State) (n : Nat) (i : Isl) : (setIsl s n i).pwr = s.pwr := rfl
@[simp] theorem setIsl_host (s : State) (n : Nat) (i : Isl) : (setIsl s n i).host = s.host := rfl
@[simp] theorem setIsl_fl (s : State) (n : Nat) (i : Isl) : (setIsl s n i).fl = s.fl := rfl
@[simp] theorem setIsl_ft (s : State) (n : Nat) (i : Isl) : (setIsl s n i).ft = s.ft := rfl
@[simp] theorem setIsl_hbm (s : State) (n : Nat) (i : Isl) : (setIsl s n i).hbm = s.hbm := rfl
@[simp] theorem setIsl_integ (s : State) (n : Nat) (i : Isl) : (setIsl s n i).integ = s.integ := rfl
@[simp] theorem setIsl_ase (s : State) (n : Nat) (i : Isl) : (setIsl s n i).ase = s.ase := rfl
@[simp] theorem setIsl_dict (s : State) (n : Nat) (i : Isl) : (setIsl s n i).dict = s.dict := rfl
@[simp] theorem setIsl_cls (s : State) (n : Nat) (i : Isl) : (setIsl s n i).cls = s.cls := rfl
@[simp] theorem setIsl_lkp (s : State) (n : Nat) (i : Isl) : (setIsl s n i).lkp = s.lkp := rfl
@[simp] theorem setIsl_mtr (s : State) (n : Nat) (i : Isl) : (setIsl s n i).mtr = s.mtr := rfl
@[simp] theorem setIsl_fw (s : State) (n : Nat) (i : Isl) : (setIsl s n i).fw = s.fw := rfl
@[simp] theorem setIsl_io (s : State) (n : Nat) (i : Isl) : (setIsl s n i).io = s.io := rfl
@[simp] theorem reg_setIsl (s : State) (n : Nat) (i : Isl) (entry : Nat) : reg (setIsl s n i) entry = reg s entry := rfl

/-! `setRebuilds` writes `lkp` alone. -/
@[simp] theorem setRebuilds_od (s : State) (stripe : Nat) (l : List Rebuild) : (setRebuilds s stripe l).od = s.od := rfl
@[simp] theorem setRebuilds_blocks (s : State) (stripe : Nat) (l : List Rebuild) : (setRebuilds s stripe l).blocks = s.blocks := rfl
@[simp] theorem setRebuilds_pending (s : State) (stripe : Nat) (l : List Rebuild) : (setRebuilds s stripe l).pending = s.pending := rfl
@[simp] theorem setRebuilds_time (s : State) (stripe : Nat) (l : List Rebuild) : (setRebuilds s stripe l).time = s.time := rfl
@[simp] theorem setRebuilds_timeOffset (s : State) (stripe : Nat) (l : List Rebuild) : (setRebuilds s stripe l).timeOffset = s.timeOffset := rfl
@[simp] theorem setRebuilds_freeCtr (s : State) (stripe : Nat) (l : List Rebuild) : (setRebuilds s stripe l).freeCtr = s.freeCtr := rfl
@[simp] theorem setRebuilds_sent (s : State) (stripe : Nat) (l : List Rebuild) : (setRebuilds s stripe l).sent = s.sent := rfl
@[simp] theorem setRebuilds_evt (s : State) (stripe : Nat) (l : List Rebuild) : (setRebuilds s stripe l).evt = s.evt := rfl
@[simp] theorem setRebuilds_led (s : State) (stripe : Nat) (l : List Rebuild) : (setRebuilds s stripe l).led = s.led := rfl
@[simp] theorem setRebuilds_obs (s : State) (stripe : Nat) (l : List Rebuild) : (setRebuilds s stripe l).obs = s.obs := rfl
@[simp] theorem setRebuilds_pkts (s : State) (stripe : Nat) (l : List Rebuild) : (setRebuilds s stripe l).pkts = s.pkts := rfl
@[simp] theorem setRebuilds_nextPkt (s : State) (stripe : Nat) (l : List Rebuild) : (setRebuilds s stripe l).nextPkt = s.nextPkt := rfl
@[simp] theorem setRebuilds_outs (s : State) (stripe : Nat) (l : List Rebuild) : (setRebuilds s stripe l).outs = s.outs := rfl
@[simp] theorem setRebuilds_nextOut (s : State) (stripe : Nat) (l : List Rebuild) : (setRebuilds s stripe l).nextOut = s.nextOut := rfl
@[simp] theorem setRebuilds_ports (s : State) (stripe : Nat) (l : List Rebuild) : (setRebuilds s stripe l).ports = s.ports := rfl
@[simp] theorem setRebuilds_lanes (s : State) (stripe : Nat) (l : List Rebuild) : (setRebuilds s stripe l).lanes = s.lanes := rfl
@[simp] theorem setRebuilds_lmacs (s : State) (stripe : Nat) (l : List Rebuild) : (setRebuilds s stripe l).lmacs = s.lmacs := rfl
@[simp] theorem setRebuilds_mem (s : State) (stripe : Nat) (l : List Rebuild) : (setRebuilds s stripe l).mem = s.mem := rfl
@[simp] theorem setRebuilds_qm (s : State) (stripe : Nat) (l : List Rebuild) : (setRebuilds s stripe l).qm = s.qm := rfl
@[simp] theorem setRebuilds_pwr (s : State) (stripe : Nat) (l : List Rebuild) : (setRebuilds s stripe l).pwr = s.pwr := rfl
@[simp] theorem setRebuilds_host (s : State) (stripe : Nat) (l : List Rebuild) : (setRebuilds s stripe l).host = s.host := rfl
@[simp] theorem setRebuilds_fl (s : State) (stripe : Nat) (l : List Rebuild) : (setRebuilds s stripe l).fl = s.fl := rfl
@[simp] theorem setRebuilds_ft (s : State) (stripe : Nat) (l : List Rebuild) : (setRebuilds s stripe l).ft = s.ft := rfl
@[simp] theorem setRebuilds_hbm (s : State) (stripe : Nat) (l : List Rebuild) : (setRebuilds s stripe l).hbm = s.hbm := rfl
@[simp] theorem setRebuilds_integ (s : State) (stripe : Nat) (l : List Rebuild) : (setRebuilds s stripe l).integ = s.integ := rfl
@[simp] theorem setRebuilds_ase (s : State) (stripe : Nat) (l : List Rebuild) : (setRebuilds s stripe l).ase = s.ase := rfl
@[simp] theorem setRebuilds_dict (s : State) (stripe : Nat) (l : List Rebuild) : (setRebuilds s stripe l).dict = s.dict := rfl
@[simp] theorem setRebuilds_cls (s : State) (stripe : Nat) (l : List Rebuild) : (setRebuilds s stripe l).cls = s.cls := rfl
@[simp] theorem setRebuilds_mtr (s : State) (stripe : Nat) (l : List Rebuild) : (setRebuilds s stripe l).mtr = s.mtr := rfl
@[simp] theorem setRebuilds_fw (s : State) (stripe : Nat) (l : List Rebuild) : (setRebuilds s stripe l).fw = s.fw := rfl
@[simp] theorem setRebuilds_clk (s : State) (stripe : Nat) (l : List Rebuild) : (setRebuilds s stripe l).clk = s.clk := rfl
@[simp] theorem setRebuilds_io (s : State) (stripe : Nat) (l : List Rebuild) : (setRebuilds s stripe l).io = s.io := rfl
@[simp] theorem reg_setRebuilds (s : State) (stripe : Nat) (l : List Rebuild) (entry : Nat) : reg (setRebuilds s stripe l) entry = reg s entry := rfl

/-! `setReg` writes `od` alone. -/
@[simp] theorem setReg_blocks (s : State) (k v : Nat) : (setReg s k v).blocks = s.blocks := rfl
@[simp] theorem setReg_pending (s : State) (k v : Nat) : (setReg s k v).pending = s.pending := rfl
@[simp] theorem setReg_time (s : State) (k v : Nat) : (setReg s k v).time = s.time := rfl
@[simp] theorem setReg_timeOffset (s : State) (k v : Nat) : (setReg s k v).timeOffset = s.timeOffset := rfl
@[simp] theorem setReg_freeCtr (s : State) (k v : Nat) : (setReg s k v).freeCtr = s.freeCtr := rfl
@[simp] theorem setReg_sent (s : State) (k v : Nat) : (setReg s k v).sent = s.sent := rfl
@[simp] theorem setReg_evt (s : State) (k v : Nat) : (setReg s k v).evt = s.evt := rfl
@[simp] theorem setReg_led (s : State) (k v : Nat) : (setReg s k v).led = s.led := rfl
@[simp] theorem setReg_obs (s : State) (k v : Nat) : (setReg s k v).obs = s.obs := rfl
@[simp] theorem setReg_pkts (s : State) (k v : Nat) : (setReg s k v).pkts = s.pkts := rfl
@[simp] theorem setReg_nextPkt (s : State) (k v : Nat) : (setReg s k v).nextPkt = s.nextPkt := rfl
@[simp] theorem setReg_outs (s : State) (k v : Nat) : (setReg s k v).outs = s.outs := rfl
@[simp] theorem setReg_nextOut (s : State) (k v : Nat) : (setReg s k v).nextOut = s.nextOut := rfl
@[simp] theorem setReg_ports (s : State) (k v : Nat) : (setReg s k v).ports = s.ports := rfl
@[simp] theorem setReg_lanes (s : State) (k v : Nat) : (setReg s k v).lanes = s.lanes := rfl
@[simp] theorem setReg_lmacs (s : State) (k v : Nat) : (setReg s k v).lmacs = s.lmacs := rfl
@[simp] theorem setReg_mem (s : State) (k v : Nat) : (setReg s k v).mem = s.mem := rfl
@[simp] theorem setReg_qm (s : State) (k v : Nat) : (setReg s k v).qm = s.qm := rfl
@[simp] theorem setReg_pwr (s : State) (k v : Nat) : (setReg s k v).pwr = s.pwr := rfl
@[simp] theorem setReg_host (s : State) (k v : Nat) : (setReg s k v).host = s.host := rfl
@[simp] theorem setReg_fl (s : State) (k v : Nat) : (setReg s k v).fl = s.fl := rfl
@[simp] theorem setReg_ft (s : State) (k v : Nat) : (setReg s k v).ft = s.ft := rfl
@[simp] theorem setReg_hbm (s : State) (k v : Nat) : (setReg s k v).hbm = s.hbm := rfl
@[simp] theorem setReg_integ (s : State) (k v : Nat) : (setReg s k v).integ = s.integ := rfl
@[simp] theorem setReg_ase (s : State) (k v : Nat) : (setReg s k v).ase = s.ase := rfl
@[simp] theorem setReg_dict (s : State) (k v : Nat) : (setReg s k v).dict = s.dict := rfl
@[simp] theorem setReg_cls (s : State) (k v : Nat) : (setReg s k v).cls = s.cls := rfl
@[simp] theorem setReg_lkp (s : State) (k v : Nat) : (setReg s k v).lkp = s.lkp := rfl
@[simp] theorem setReg_mtr (s : State) (k v : Nat) : (setReg s k v).mtr = s.mtr := rfl
@[simp] theorem setReg_fw (s : State) (k v : Nat) : (setReg s k v).fw = s.fw := rfl
@[simp] theorem setReg_clk (s : State) (k v : Nat) : (setReg s k v).clk = s.clk := rfl
@[simp] theorem setReg_io (s : State) (k v : Nat) : (setReg s k v).io = s.io := rfl

/-! `setBlk` writes `blocks` alone. -/
@[simp] theorem setBlk_od (s : State) (k : Nat) (b : List Byte) : (setBlk s k b).od = s.od := rfl
@[simp] theorem setBlk_pending (s : State) (k : Nat) (b : List Byte) : (setBlk s k b).pending = s.pending := rfl
@[simp] theorem setBlk_time (s : State) (k : Nat) (b : List Byte) : (setBlk s k b).time = s.time := rfl
@[simp] theorem setBlk_timeOffset (s : State) (k : Nat) (b : List Byte) : (setBlk s k b).timeOffset = s.timeOffset := rfl
@[simp] theorem setBlk_freeCtr (s : State) (k : Nat) (b : List Byte) : (setBlk s k b).freeCtr = s.freeCtr := rfl
@[simp] theorem setBlk_sent (s : State) (k : Nat) (b : List Byte) : (setBlk s k b).sent = s.sent := rfl
@[simp] theorem setBlk_evt (s : State) (k : Nat) (b : List Byte) : (setBlk s k b).evt = s.evt := rfl
@[simp] theorem setBlk_led (s : State) (k : Nat) (b : List Byte) : (setBlk s k b).led = s.led := rfl
@[simp] theorem setBlk_obs (s : State) (k : Nat) (b : List Byte) : (setBlk s k b).obs = s.obs := rfl
@[simp] theorem setBlk_pkts (s : State) (k : Nat) (b : List Byte) : (setBlk s k b).pkts = s.pkts := rfl
@[simp] theorem setBlk_nextPkt (s : State) (k : Nat) (b : List Byte) : (setBlk s k b).nextPkt = s.nextPkt := rfl
@[simp] theorem setBlk_outs (s : State) (k : Nat) (b : List Byte) : (setBlk s k b).outs = s.outs := rfl
@[simp] theorem setBlk_nextOut (s : State) (k : Nat) (b : List Byte) : (setBlk s k b).nextOut = s.nextOut := rfl
@[simp] theorem setBlk_ports (s : State) (k : Nat) (b : List Byte) : (setBlk s k b).ports = s.ports := rfl
@[simp] theorem setBlk_lanes (s : State) (k : Nat) (b : List Byte) : (setBlk s k b).lanes = s.lanes := rfl
@[simp] theorem setBlk_lmacs (s : State) (k : Nat) (b : List Byte) : (setBlk s k b).lmacs = s.lmacs := rfl
@[simp] theorem setBlk_mem (s : State) (k : Nat) (b : List Byte) : (setBlk s k b).mem = s.mem := rfl
@[simp] theorem setBlk_qm (s : State) (k : Nat) (b : List Byte) : (setBlk s k b).qm = s.qm := rfl
@[simp] theorem setBlk_pwr (s : State) (k : Nat) (b : List Byte) : (setBlk s k b).pwr = s.pwr := rfl
@[simp] theorem setBlk_host (s : State) (k : Nat) (b : List Byte) : (setBlk s k b).host = s.host := rfl
@[simp] theorem setBlk_fl (s : State) (k : Nat) (b : List Byte) : (setBlk s k b).fl = s.fl := rfl
@[simp] theorem setBlk_ft (s : State) (k : Nat) (b : List Byte) : (setBlk s k b).ft = s.ft := rfl
@[simp] theorem setBlk_hbm (s : State) (k : Nat) (b : List Byte) : (setBlk s k b).hbm = s.hbm := rfl
@[simp] theorem setBlk_integ (s : State) (k : Nat) (b : List Byte) : (setBlk s k b).integ = s.integ := rfl
@[simp] theorem setBlk_ase (s : State) (k : Nat) (b : List Byte) : (setBlk s k b).ase = s.ase := rfl
@[simp] theorem setBlk_dict (s : State) (k : Nat) (b : List Byte) : (setBlk s k b).dict = s.dict := rfl
@[simp] theorem setBlk_cls (s : State) (k : Nat) (b : List Byte) : (setBlk s k b).cls = s.cls := rfl
@[simp] theorem setBlk_lkp (s : State) (k : Nat) (b : List Byte) : (setBlk s k b).lkp = s.lkp := rfl
@[simp] theorem setBlk_mtr (s : State) (k : Nat) (b : List Byte) : (setBlk s k b).mtr = s.mtr := rfl
@[simp] theorem setBlk_fw (s : State) (k : Nat) (b : List Byte) : (setBlk s k b).fw = s.fw := rfl
@[simp] theorem setBlk_clk (s : State) (k : Nat) (b : List Byte) : (setBlk s k b).clk = s.clk := rfl
@[simp] theorem setBlk_io (s : State) (k : Nat) (b : List Byte) : (setBlk s k b).io = s.io := rfl
@[simp] theorem reg_setBlk (s : State) (k : Nat) (b : List Byte) (entry : Nat) : reg (setBlk s k b) entry = reg s entry := rfl

/-! `emit` writes `sent` alone. -/
@[simp] theorem emit_od (s : State) (e : Emission) : (emit s e).od = s.od := rfl
@[simp] theorem emit_blocks (s : State) (e : Emission) : (emit s e).blocks = s.blocks := rfl
@[simp] theorem emit_pending (s : State) (e : Emission) : (emit s e).pending = s.pending := rfl
@[simp] theorem emit_time (s : State) (e : Emission) : (emit s e).time = s.time := rfl
@[simp] theorem emit_timeOffset (s : State) (e : Emission) : (emit s e).timeOffset = s.timeOffset := rfl
@[simp] theorem emit_freeCtr (s : State) (e : Emission) : (emit s e).freeCtr = s.freeCtr := rfl
@[simp] theorem emit_evt (s : State) (e : Emission) : (emit s e).evt = s.evt := rfl
@[simp] theorem emit_led (s : State) (e : Emission) : (emit s e).led = s.led := rfl
@[simp] theorem emit_obs (s : State) (e : Emission) : (emit s e).obs = s.obs := rfl
@[simp] theorem emit_pkts (s : State) (e : Emission) : (emit s e).pkts = s.pkts := rfl
@[simp] theorem emit_nextPkt (s : State) (e : Emission) : (emit s e).nextPkt = s.nextPkt := rfl
@[simp] theorem emit_outs (s : State) (e : Emission) : (emit s e).outs = s.outs := rfl
@[simp] theorem emit_nextOut (s : State) (e : Emission) : (emit s e).nextOut = s.nextOut := rfl
@[simp] theorem emit_ports (s : State) (e : Emission) : (emit s e).ports = s.ports := rfl
@[simp] theorem emit_lanes (s : State) (e : Emission) : (emit s e).lanes = s.lanes := rfl
@[simp] theorem emit_lmacs (s : State) (e : Emission) : (emit s e).lmacs = s.lmacs := rfl
@[simp] theorem emit_mem (s : State) (e : Emission) : (emit s e).mem = s.mem := rfl
@[simp] theorem emit_qm (s : State) (e : Emission) : (emit s e).qm = s.qm := rfl
@[simp] theorem emit_pwr (s : State) (e : Emission) : (emit s e).pwr = s.pwr := rfl
@[simp] theorem emit_host (s : State) (e : Emission) : (emit s e).host = s.host := rfl
@[simp] theorem emit_fl (s : State) (e : Emission) : (emit s e).fl = s.fl := rfl
@[simp] theorem emit_ft (s : State) (e : Emission) : (emit s e).ft = s.ft := rfl
@[simp] theorem emit_hbm (s : State) (e : Emission) : (emit s e).hbm = s.hbm := rfl
@[simp] theorem emit_integ (s : State) (e : Emission) : (emit s e).integ = s.integ := rfl
@[simp] theorem emit_ase (s : State) (e : Emission) : (emit s e).ase = s.ase := rfl
@[simp] theorem emit_dict (s : State) (e : Emission) : (emit s e).dict = s.dict := rfl
@[simp] theorem emit_cls (s : State) (e : Emission) : (emit s e).cls = s.cls := rfl
@[simp] theorem emit_lkp (s : State) (e : Emission) : (emit s e).lkp = s.lkp := rfl
@[simp] theorem emit_mtr (s : State) (e : Emission) : (emit s e).mtr = s.mtr := rfl
@[simp] theorem emit_fw (s : State) (e : Emission) : (emit s e).fw = s.fw := rfl
@[simp] theorem emit_clk (s : State) (e : Emission) : (emit s e).clk = s.clk := rfl
@[simp] theorem emit_io (s : State) (e : Emission) : (emit s e).io = s.io := rfl
@[simp] theorem reg_emit (s : State) (e : Emission) (entry : Nat) : reg (emit s e) entry = reg s entry := rfl

/-! `setPort` writes `ports` alone. -/
@[simp] theorem setPort_od (s : State) (p : Nat) (x : Port) : (setPort s p x).od = s.od := rfl
@[simp] theorem setPort_blocks (s : State) (p : Nat) (x : Port) : (setPort s p x).blocks = s.blocks := rfl
@[simp] theorem setPort_pending (s : State) (p : Nat) (x : Port) : (setPort s p x).pending = s.pending := rfl
@[simp] theorem setPort_time (s : State) (p : Nat) (x : Port) : (setPort s p x).time = s.time := rfl
@[simp] theorem setPort_timeOffset (s : State) (p : Nat) (x : Port) : (setPort s p x).timeOffset = s.timeOffset := rfl
@[simp] theorem setPort_freeCtr (s : State) (p : Nat) (x : Port) : (setPort s p x).freeCtr = s.freeCtr := rfl
@[simp] theorem setPort_sent (s : State) (p : Nat) (x : Port) : (setPort s p x).sent = s.sent := rfl
@[simp] theorem setPort_evt (s : State) (p : Nat) (x : Port) : (setPort s p x).evt = s.evt := rfl
@[simp] theorem setPort_led (s : State) (p : Nat) (x : Port) : (setPort s p x).led = s.led := rfl
@[simp] theorem setPort_obs (s : State) (p : Nat) (x : Port) : (setPort s p x).obs = s.obs := rfl
@[simp] theorem setPort_pkts (s : State) (p : Nat) (x : Port) : (setPort s p x).pkts = s.pkts := rfl
@[simp] theorem setPort_nextPkt (s : State) (p : Nat) (x : Port) : (setPort s p x).nextPkt = s.nextPkt := rfl
@[simp] theorem setPort_outs (s : State) (p : Nat) (x : Port) : (setPort s p x).outs = s.outs := rfl
@[simp] theorem setPort_nextOut (s : State) (p : Nat) (x : Port) : (setPort s p x).nextOut = s.nextOut := rfl
@[simp] theorem setPort_lanes (s : State) (p : Nat) (x : Port) : (setPort s p x).lanes = s.lanes := rfl
@[simp] theorem setPort_lmacs (s : State) (p : Nat) (x : Port) : (setPort s p x).lmacs = s.lmacs := rfl
@[simp] theorem setPort_mem (s : State) (p : Nat) (x : Port) : (setPort s p x).mem = s.mem := rfl
@[simp] theorem setPort_qm (s : State) (p : Nat) (x : Port) : (setPort s p x).qm = s.qm := rfl
@[simp] theorem setPort_pwr (s : State) (p : Nat) (x : Port) : (setPort s p x).pwr = s.pwr := rfl
@[simp] theorem setPort_host (s : State) (p : Nat) (x : Port) : (setPort s p x).host = s.host := rfl
@[simp] theorem setPort_fl (s : State) (p : Nat) (x : Port) : (setPort s p x).fl = s.fl := rfl
@[simp] theorem setPort_ft (s : State) (p : Nat) (x : Port) : (setPort s p x).ft = s.ft := rfl
@[simp] theorem setPort_hbm (s : State) (p : Nat) (x : Port) : (setPort s p x).hbm = s.hbm := rfl
@[simp] theorem setPort_integ (s : State) (p : Nat) (x : Port) : (setPort s p x).integ = s.integ := rfl
@[simp] theorem setPort_ase (s : State) (p : Nat) (x : Port) : (setPort s p x).ase = s.ase := rfl
@[simp] theorem setPort_dict (s : State) (p : Nat) (x : Port) : (setPort s p x).dict = s.dict := rfl
@[simp] theorem setPort_cls (s : State) (p : Nat) (x : Port) : (setPort s p x).cls = s.cls := rfl
@[simp] theorem setPort_lkp (s : State) (p : Nat) (x : Port) : (setPort s p x).lkp = s.lkp := rfl
@[simp] theorem setPort_mtr (s : State) (p : Nat) (x : Port) : (setPort s p x).mtr = s.mtr := rfl
@[simp] theorem setPort_fw (s : State) (p : Nat) (x : Port) : (setPort s p x).fw = s.fw := rfl
@[simp] theorem setPort_clk (s : State) (p : Nat) (x : Port) : (setPort s p x).clk = s.clk := rfl
@[simp] theorem setPort_io (s : State) (p : Nat) (x : Port) : (setPort s p x).io = s.io := rfl
@[simp] theorem reg_setPort (s : State) (p : Nat) (x : Port) (entry : Nat) : reg (setPort s p x) entry = reg s entry := rfl

/-! `setPkt` writes `pkts` alone. -/
@[simp] theorem setPkt_od (s : State) (i : Nat) (p : Pkt) : (setPkt s i p).od = s.od := rfl
@[simp] theorem setPkt_blocks (s : State) (i : Nat) (p : Pkt) : (setPkt s i p).blocks = s.blocks := rfl
@[simp] theorem setPkt_pending (s : State) (i : Nat) (p : Pkt) : (setPkt s i p).pending = s.pending := rfl
@[simp] theorem setPkt_time (s : State) (i : Nat) (p : Pkt) : (setPkt s i p).time = s.time := rfl
@[simp] theorem setPkt_timeOffset (s : State) (i : Nat) (p : Pkt) : (setPkt s i p).timeOffset = s.timeOffset := rfl
@[simp] theorem setPkt_freeCtr (s : State) (i : Nat) (p : Pkt) : (setPkt s i p).freeCtr = s.freeCtr := rfl
@[simp] theorem setPkt_sent (s : State) (i : Nat) (p : Pkt) : (setPkt s i p).sent = s.sent := rfl
@[simp] theorem setPkt_evt (s : State) (i : Nat) (p : Pkt) : (setPkt s i p).evt = s.evt := rfl
@[simp] theorem setPkt_led (s : State) (i : Nat) (p : Pkt) : (setPkt s i p).led = s.led := rfl
@[simp] theorem setPkt_obs (s : State) (i : Nat) (p : Pkt) : (setPkt s i p).obs = s.obs := rfl
@[simp] theorem setPkt_nextPkt (s : State) (i : Nat) (p : Pkt) : (setPkt s i p).nextPkt = s.nextPkt := rfl
@[simp] theorem setPkt_outs (s : State) (i : Nat) (p : Pkt) : (setPkt s i p).outs = s.outs := rfl
@[simp] theorem setPkt_nextOut (s : State) (i : Nat) (p : Pkt) : (setPkt s i p).nextOut = s.nextOut := rfl
@[simp] theorem setPkt_ports (s : State) (i : Nat) (p : Pkt) : (setPkt s i p).ports = s.ports := rfl
@[simp] theorem setPkt_lanes (s : State) (i : Nat) (p : Pkt) : (setPkt s i p).lanes = s.lanes := rfl
@[simp] theorem setPkt_lmacs (s : State) (i : Nat) (p : Pkt) : (setPkt s i p).lmacs = s.lmacs := rfl
@[simp] theorem setPkt_mem (s : State) (i : Nat) (p : Pkt) : (setPkt s i p).mem = s.mem := rfl
@[simp] theorem setPkt_qm (s : State) (i : Nat) (p : Pkt) : (setPkt s i p).qm = s.qm := rfl
@[simp] theorem setPkt_pwr (s : State) (i : Nat) (p : Pkt) : (setPkt s i p).pwr = s.pwr := rfl
@[simp] theorem setPkt_host (s : State) (i : Nat) (p : Pkt) : (setPkt s i p).host = s.host := rfl
@[simp] theorem setPkt_fl (s : State) (i : Nat) (p : Pkt) : (setPkt s i p).fl = s.fl := rfl
@[simp] theorem setPkt_ft (s : State) (i : Nat) (p : Pkt) : (setPkt s i p).ft = s.ft := rfl
@[simp] theorem setPkt_hbm (s : State) (i : Nat) (p : Pkt) : (setPkt s i p).hbm = s.hbm := rfl
@[simp] theorem setPkt_integ (s : State) (i : Nat) (p : Pkt) : (setPkt s i p).integ = s.integ := rfl
@[simp] theorem setPkt_ase (s : State) (i : Nat) (p : Pkt) : (setPkt s i p).ase = s.ase := rfl
@[simp] theorem setPkt_dict (s : State) (i : Nat) (p : Pkt) : (setPkt s i p).dict = s.dict := rfl
@[simp] theorem setPkt_cls (s : State) (i : Nat) (p : Pkt) : (setPkt s i p).cls = s.cls := rfl
@[simp] theorem setPkt_lkp (s : State) (i : Nat) (p : Pkt) : (setPkt s i p).lkp = s.lkp := rfl
@[simp] theorem setPkt_mtr (s : State) (i : Nat) (p : Pkt) : (setPkt s i p).mtr = s.mtr := rfl
@[simp] theorem setPkt_fw (s : State) (i : Nat) (p : Pkt) : (setPkt s i p).fw = s.fw := rfl
@[simp] theorem setPkt_clk (s : State) (i : Nat) (p : Pkt) : (setPkt s i p).clk = s.clk := rfl
@[simp] theorem setPkt_io (s : State) (i : Nat) (p : Pkt) : (setPkt s i p).io = s.io := rfl
@[simp] theorem reg_setPkt (s : State) (i : Nat) (p : Pkt) (entry : Nat) : reg (setPkt s i p) entry = reg s entry := rfl

/-! `delPkt` writes `pkts` alone. -/
@[simp] theorem delPkt_od (s : State) (i : Nat) : (delPkt s i).od = s.od := rfl
@[simp] theorem delPkt_blocks (s : State) (i : Nat) : (delPkt s i).blocks = s.blocks := rfl
@[simp] theorem delPkt_pending (s : State) (i : Nat) : (delPkt s i).pending = s.pending := rfl
@[simp] theorem delPkt_time (s : State) (i : Nat) : (delPkt s i).time = s.time := rfl
@[simp] theorem delPkt_timeOffset (s : State) (i : Nat) : (delPkt s i).timeOffset = s.timeOffset := rfl
@[simp] theorem delPkt_freeCtr (s : State) (i : Nat) : (delPkt s i).freeCtr = s.freeCtr := rfl
@[simp] theorem delPkt_sent (s : State) (i : Nat) : (delPkt s i).sent = s.sent := rfl
@[simp] theorem delPkt_evt (s : State) (i : Nat) : (delPkt s i).evt = s.evt := rfl
@[simp] theorem delPkt_led (s : State) (i : Nat) : (delPkt s i).led = s.led := rfl
@[simp] theorem delPkt_obs (s : State) (i : Nat) : (delPkt s i).obs = s.obs := rfl
@[simp] theorem delPkt_nextPkt (s : State) (i : Nat) : (delPkt s i).nextPkt = s.nextPkt := rfl
@[simp] theorem delPkt_outs (s : State) (i : Nat) : (delPkt s i).outs = s.outs := rfl
@[simp] theorem delPkt_nextOut (s : State) (i : Nat) : (delPkt s i).nextOut = s.nextOut := rfl
@[simp] theorem delPkt_ports (s : State) (i : Nat) : (delPkt s i).ports = s.ports := rfl
@[simp] theorem delPkt_lanes (s : State) (i : Nat) : (delPkt s i).lanes = s.lanes := rfl
@[simp] theorem delPkt_lmacs (s : State) (i : Nat) : (delPkt s i).lmacs = s.lmacs := rfl
@[simp] theorem delPkt_mem (s : State) (i : Nat) : (delPkt s i).mem = s.mem := rfl
@[simp] theorem delPkt_qm (s : State) (i : Nat) : (delPkt s i).qm = s.qm := rfl
@[simp] theorem delPkt_pwr (s : State) (i : Nat) : (delPkt s i).pwr = s.pwr := rfl
@[simp] theorem delPkt_host (s : State) (i : Nat) : (delPkt s i).host = s.host := rfl
@[simp] theorem delPkt_fl (s : State) (i : Nat) : (delPkt s i).fl = s.fl := rfl
@[simp] theorem delPkt_ft (s : State) (i : Nat) : (delPkt s i).ft = s.ft := rfl
@[simp] theorem delPkt_hbm (s : State) (i : Nat) : (delPkt s i).hbm = s.hbm := rfl
@[simp] theorem delPkt_integ (s : State) (i : Nat) : (delPkt s i).integ = s.integ := rfl
@[simp] theorem delPkt_ase (s : State) (i : Nat) : (delPkt s i).ase = s.ase := rfl
@[simp] theorem delPkt_dict (s : State) (i : Nat) : (delPkt s i).dict = s.dict := rfl
@[simp] theorem delPkt_cls (s : State) (i : Nat) : (delPkt s i).cls = s.cls := rfl
@[simp] theorem delPkt_lkp (s : State) (i : Nat) : (delPkt s i).lkp = s.lkp := rfl
@[simp] theorem delPkt_mtr (s : State) (i : Nat) : (delPkt s i).mtr = s.mtr := rfl
@[simp] theorem delPkt_fw (s : State) (i : Nat) : (delPkt s i).fw = s.fw := rfl
@[simp] theorem delPkt_clk (s : State) (i : Nat) : (delPkt s i).clk = s.clk := rfl
@[simp] theorem delPkt_io (s : State) (i : Nat) : (delPkt s i).io = s.io := rfl
@[simp] theorem reg_delPkt (s : State) (i : Nat) (entry : Nat) : reg (delPkt s i) entry = reg s entry := rfl

/-! `setMsix` writes `evt` alone. -/
@[simp] theorem setMsix_od (s : State) (fn : Nat) (m : MsiX) : (setMsix s fn m).od = s.od := rfl
@[simp] theorem setMsix_blocks (s : State) (fn : Nat) (m : MsiX) : (setMsix s fn m).blocks = s.blocks := rfl
@[simp] theorem setMsix_pending (s : State) (fn : Nat) (m : MsiX) : (setMsix s fn m).pending = s.pending := rfl
@[simp] theorem setMsix_time (s : State) (fn : Nat) (m : MsiX) : (setMsix s fn m).time = s.time := rfl
@[simp] theorem setMsix_timeOffset (s : State) (fn : Nat) (m : MsiX) : (setMsix s fn m).timeOffset = s.timeOffset := rfl
@[simp] theorem setMsix_freeCtr (s : State) (fn : Nat) (m : MsiX) : (setMsix s fn m).freeCtr = s.freeCtr := rfl
@[simp] theorem setMsix_sent (s : State) (fn : Nat) (m : MsiX) : (setMsix s fn m).sent = s.sent := rfl
@[simp] theorem setMsix_led (s : State) (fn : Nat) (m : MsiX) : (setMsix s fn m).led = s.led := rfl
@[simp] theorem setMsix_obs (s : State) (fn : Nat) (m : MsiX) : (setMsix s fn m).obs = s.obs := rfl
@[simp] theorem setMsix_pkts (s : State) (fn : Nat) (m : MsiX) : (setMsix s fn m).pkts = s.pkts := rfl
@[simp] theorem setMsix_nextPkt (s : State) (fn : Nat) (m : MsiX) : (setMsix s fn m).nextPkt = s.nextPkt := rfl
@[simp] theorem setMsix_outs (s : State) (fn : Nat) (m : MsiX) : (setMsix s fn m).outs = s.outs := rfl
@[simp] theorem setMsix_nextOut (s : State) (fn : Nat) (m : MsiX) : (setMsix s fn m).nextOut = s.nextOut := rfl
@[simp] theorem setMsix_ports (s : State) (fn : Nat) (m : MsiX) : (setMsix s fn m).ports = s.ports := rfl
@[simp] theorem setMsix_lanes (s : State) (fn : Nat) (m : MsiX) : (setMsix s fn m).lanes = s.lanes := rfl
@[simp] theorem setMsix_lmacs (s : State) (fn : Nat) (m : MsiX) : (setMsix s fn m).lmacs = s.lmacs := rfl
@[simp] theorem setMsix_mem (s : State) (fn : Nat) (m : MsiX) : (setMsix s fn m).mem = s.mem := rfl
@[simp] theorem setMsix_qm (s : State) (fn : Nat) (m : MsiX) : (setMsix s fn m).qm = s.qm := rfl
@[simp] theorem setMsix_pwr (s : State) (fn : Nat) (m : MsiX) : (setMsix s fn m).pwr = s.pwr := rfl
@[simp] theorem setMsix_host (s : State) (fn : Nat) (m : MsiX) : (setMsix s fn m).host = s.host := rfl
@[simp] theorem setMsix_fl (s : State) (fn : Nat) (m : MsiX) : (setMsix s fn m).fl = s.fl := rfl
@[simp] theorem setMsix_ft (s : State) (fn : Nat) (m : MsiX) : (setMsix s fn m).ft = s.ft := rfl
@[simp] theorem setMsix_hbm (s : State) (fn : Nat) (m : MsiX) : (setMsix s fn m).hbm = s.hbm := rfl
@[simp] theorem setMsix_integ (s : State) (fn : Nat) (m : MsiX) : (setMsix s fn m).integ = s.integ := rfl
@[simp] theorem setMsix_ase (s : State) (fn : Nat) (m : MsiX) : (setMsix s fn m).ase = s.ase := rfl
@[simp] theorem setMsix_dict (s : State) (fn : Nat) (m : MsiX) : (setMsix s fn m).dict = s.dict := rfl
@[simp] theorem setMsix_cls (s : State) (fn : Nat) (m : MsiX) : (setMsix s fn m).cls = s.cls := rfl
@[simp] theorem setMsix_lkp (s : State) (fn : Nat) (m : MsiX) : (setMsix s fn m).lkp = s.lkp := rfl
@[simp] theorem setMsix_mtr (s : State) (fn : Nat) (m : MsiX) : (setMsix s fn m).mtr = s.mtr := rfl
@[simp] theorem setMsix_fw (s : State) (fn : Nat) (m : MsiX) : (setMsix s fn m).fw = s.fw := rfl
@[simp] theorem setMsix_clk (s : State) (fn : Nat) (m : MsiX) : (setMsix s fn m).clk = s.clk := rfl
@[simp] theorem setMsix_io (s : State) (fn : Nat) (m : MsiX) : (setMsix s fn m).io = s.io := rfl
@[simp] theorem reg_setMsix (s : State) (fn : Nat) (m : MsiX) (entry : Nat) : reg (setMsix s fn m) entry = reg s entry := rfl

/-! `setFlips` writes `integ` alone. -/
@[simp] theorem setFlips_od (s : State) (cls unit idx n : Nat) : (setFlips s cls unit idx n).od = s.od := rfl
@[simp] theorem setFlips_blocks (s : State) (cls unit idx n : Nat) : (setFlips s cls unit idx n).blocks = s.blocks := rfl
@[simp] theorem setFlips_pending (s : State) (cls unit idx n : Nat) : (setFlips s cls unit idx n).pending = s.pending := rfl
@[simp] theorem setFlips_time (s : State) (cls unit idx n : Nat) : (setFlips s cls unit idx n).time = s.time := rfl
@[simp] theorem setFlips_timeOffset (s : State) (cls unit idx n : Nat) : (setFlips s cls unit idx n).timeOffset = s.timeOffset := rfl
@[simp] theorem setFlips_freeCtr (s : State) (cls unit idx n : Nat) : (setFlips s cls unit idx n).freeCtr = s.freeCtr := rfl
@[simp] theorem setFlips_sent (s : State) (cls unit idx n : Nat) : (setFlips s cls unit idx n).sent = s.sent := rfl
@[simp] theorem setFlips_evt (s : State) (cls unit idx n : Nat) : (setFlips s cls unit idx n).evt = s.evt := rfl
@[simp] theorem setFlips_led (s : State) (cls unit idx n : Nat) : (setFlips s cls unit idx n).led = s.led := rfl
@[simp] theorem setFlips_obs (s : State) (cls unit idx n : Nat) : (setFlips s cls unit idx n).obs = s.obs := rfl
@[simp] theorem setFlips_pkts (s : State) (cls unit idx n : Nat) : (setFlips s cls unit idx n).pkts = s.pkts := rfl
@[simp] theorem setFlips_nextPkt (s : State) (cls unit idx n : Nat) : (setFlips s cls unit idx n).nextPkt = s.nextPkt := rfl
@[simp] theorem setFlips_outs (s : State) (cls unit idx n : Nat) : (setFlips s cls unit idx n).outs = s.outs := rfl
@[simp] theorem setFlips_nextOut (s : State) (cls unit idx n : Nat) : (setFlips s cls unit idx n).nextOut = s.nextOut := rfl
@[simp] theorem setFlips_ports (s : State) (cls unit idx n : Nat) : (setFlips s cls unit idx n).ports = s.ports := rfl
@[simp] theorem setFlips_lanes (s : State) (cls unit idx n : Nat) : (setFlips s cls unit idx n).lanes = s.lanes := rfl
@[simp] theorem setFlips_lmacs (s : State) (cls unit idx n : Nat) : (setFlips s cls unit idx n).lmacs = s.lmacs := rfl
@[simp] theorem setFlips_mem (s : State) (cls unit idx n : Nat) : (setFlips s cls unit idx n).mem = s.mem := rfl
@[simp] theorem setFlips_qm (s : State) (cls unit idx n : Nat) : (setFlips s cls unit idx n).qm = s.qm := rfl
@[simp] theorem setFlips_pwr (s : State) (cls unit idx n : Nat) : (setFlips s cls unit idx n).pwr = s.pwr := rfl
@[simp] theorem setFlips_host (s : State) (cls unit idx n : Nat) : (setFlips s cls unit idx n).host = s.host := rfl
@[simp] theorem setFlips_fl (s : State) (cls unit idx n : Nat) : (setFlips s cls unit idx n).fl = s.fl := rfl
@[simp] theorem setFlips_ft (s : State) (cls unit idx n : Nat) : (setFlips s cls unit idx n).ft = s.ft := rfl
@[simp] theorem setFlips_hbm (s : State) (cls unit idx n : Nat) : (setFlips s cls unit idx n).hbm = s.hbm := rfl
@[simp] theorem setFlips_ase (s : State) (cls unit idx n : Nat) : (setFlips s cls unit idx n).ase = s.ase := rfl
@[simp] theorem setFlips_dict (s : State) (cls unit idx n : Nat) : (setFlips s cls unit idx n).dict = s.dict := rfl
@[simp] theorem setFlips_cls (s : State) (cls unit idx n : Nat) : (setFlips s cls unit idx n).cls = s.cls := rfl
@[simp] theorem setFlips_lkp (s : State) (cls unit idx n : Nat) : (setFlips s cls unit idx n).lkp = s.lkp := rfl
@[simp] theorem setFlips_mtr (s : State) (cls unit idx n : Nat) : (setFlips s cls unit idx n).mtr = s.mtr := rfl
@[simp] theorem setFlips_fw (s : State) (cls unit idx n : Nat) : (setFlips s cls unit idx n).fw = s.fw := rfl
@[simp] theorem setFlips_clk (s : State) (cls unit idx n : Nat) : (setFlips s cls unit idx n).clk = s.clk := rfl
@[simp] theorem setFlips_io (s : State) (cls unit idx n : Nat) : (setFlips s cls unit idx n).io = s.io := rfl
@[simp] theorem reg_setFlips (s : State) (cls unit idx n : Nat) (entry : Nat) : reg (setFlips s cls unit idx n) entry = reg s entry := rfl

/-! `setCtx` writes `ft` alone. -/
@[simp] theorem setCtx_od (s : State) (src : Nat) (c : RxCtx) : (setCtx s src c).od = s.od := rfl
@[simp] theorem setCtx_blocks (s : State) (src : Nat) (c : RxCtx) : (setCtx s src c).blocks = s.blocks := rfl
@[simp] theorem setCtx_pending (s : State) (src : Nat) (c : RxCtx) : (setCtx s src c).pending = s.pending := rfl
@[simp] theorem setCtx_time (s : State) (src : Nat) (c : RxCtx) : (setCtx s src c).time = s.time := rfl
@[simp] theorem setCtx_timeOffset (s : State) (src : Nat) (c : RxCtx) : (setCtx s src c).timeOffset = s.timeOffset := rfl
@[simp] theorem setCtx_freeCtr (s : State) (src : Nat) (c : RxCtx) : (setCtx s src c).freeCtr = s.freeCtr := rfl
@[simp] theorem setCtx_sent (s : State) (src : Nat) (c : RxCtx) : (setCtx s src c).sent = s.sent := rfl
@[simp] theorem setCtx_evt (s : State) (src : Nat) (c : RxCtx) : (setCtx s src c).evt = s.evt := rfl
@[simp] theorem setCtx_led (s : State) (src : Nat) (c : RxCtx) : (setCtx s src c).led = s.led := rfl
@[simp] theorem setCtx_obs (s : State) (src : Nat) (c : RxCtx) : (setCtx s src c).obs = s.obs := rfl
@[simp] theorem setCtx_pkts (s : State) (src : Nat) (c : RxCtx) : (setCtx s src c).pkts = s.pkts := rfl
@[simp] theorem setCtx_nextPkt (s : State) (src : Nat) (c : RxCtx) : (setCtx s src c).nextPkt = s.nextPkt := rfl
@[simp] theorem setCtx_outs (s : State) (src : Nat) (c : RxCtx) : (setCtx s src c).outs = s.outs := rfl
@[simp] theorem setCtx_nextOut (s : State) (src : Nat) (c : RxCtx) : (setCtx s src c).nextOut = s.nextOut := rfl
@[simp] theorem setCtx_ports (s : State) (src : Nat) (c : RxCtx) : (setCtx s src c).ports = s.ports := rfl
@[simp] theorem setCtx_lanes (s : State) (src : Nat) (c : RxCtx) : (setCtx s src c).lanes = s.lanes := rfl
@[simp] theorem setCtx_lmacs (s : State) (src : Nat) (c : RxCtx) : (setCtx s src c).lmacs = s.lmacs := rfl
@[simp] theorem setCtx_mem (s : State) (src : Nat) (c : RxCtx) : (setCtx s src c).mem = s.mem := rfl
@[simp] theorem setCtx_qm (s : State) (src : Nat) (c : RxCtx) : (setCtx s src c).qm = s.qm := rfl
@[simp] theorem setCtx_pwr (s : State) (src : Nat) (c : RxCtx) : (setCtx s src c).pwr = s.pwr := rfl
@[simp] theorem setCtx_host (s : State) (src : Nat) (c : RxCtx) : (setCtx s src c).host = s.host := rfl
@[simp] theorem setCtx_fl (s : State) (src : Nat) (c : RxCtx) : (setCtx s src c).fl = s.fl := rfl
@[simp] theorem setCtx_hbm (s : State) (src : Nat) (c : RxCtx) : (setCtx s src c).hbm = s.hbm := rfl
@[simp] theorem setCtx_integ (s : State) (src : Nat) (c : RxCtx) : (setCtx s src c).integ = s.integ := rfl
@[simp] theorem setCtx_ase (s : State) (src : Nat) (c : RxCtx) : (setCtx s src c).ase = s.ase := rfl
@[simp] theorem setCtx_dict (s : State) (src : Nat) (c : RxCtx) : (setCtx s src c).dict = s.dict := rfl
@[simp] theorem setCtx_cls (s : State) (src : Nat) (c : RxCtx) : (setCtx s src c).cls = s.cls := rfl
@[simp] theorem setCtx_lkp (s : State) (src : Nat) (c : RxCtx) : (setCtx s src c).lkp = s.lkp := rfl
@[simp] theorem setCtx_mtr (s : State) (src : Nat) (c : RxCtx) : (setCtx s src c).mtr = s.mtr := rfl
@[simp] theorem setCtx_fw (s : State) (src : Nat) (c : RxCtx) : (setCtx s src c).fw = s.fw := rfl
@[simp] theorem setCtx_clk (s : State) (src : Nat) (c : RxCtx) : (setCtx s src c).clk = s.clk := rfl
@[simp] theorem setCtx_io (s : State) (src : Nat) (c : RxCtx) : (setCtx s src c).io = s.io := rfl
@[simp] theorem reg_setCtx (s : State) (src : Nat) (c : RxCtx) (entry : Nat) : reg (setCtx s src c) entry = reg s entry := rfl

/-! `setVoq` writes `qm` alone. -/
@[simp] theorem setVoq_od (s : State) (q : Nat) (v : Voq) : (setVoq s q v).od = s.od := rfl
@[simp] theorem setVoq_blocks (s : State) (q : Nat) (v : Voq) : (setVoq s q v).blocks = s.blocks := rfl
@[simp] theorem setVoq_pending (s : State) (q : Nat) (v : Voq) : (setVoq s q v).pending = s.pending := rfl
@[simp] theorem setVoq_time (s : State) (q : Nat) (v : Voq) : (setVoq s q v).time = s.time := rfl
@[simp] theorem setVoq_timeOffset (s : State) (q : Nat) (v : Voq) : (setVoq s q v).timeOffset = s.timeOffset := rfl
@[simp] theorem setVoq_freeCtr (s : State) (q : Nat) (v : Voq) : (setVoq s q v).freeCtr = s.freeCtr := rfl
@[simp] theorem setVoq_sent (s : State) (q : Nat) (v : Voq) : (setVoq s q v).sent = s.sent := rfl
@[simp] theorem setVoq_evt (s : State) (q : Nat) (v : Voq) : (setVoq s q v).evt = s.evt := rfl
@[simp] theorem setVoq_led (s : State) (q : Nat) (v : Voq) : (setVoq s q v).led = s.led := rfl
@[simp] theorem setVoq_obs (s : State) (q : Nat) (v : Voq) : (setVoq s q v).obs = s.obs := rfl
@[simp] theorem setVoq_pkts (s : State) (q : Nat) (v : Voq) : (setVoq s q v).pkts = s.pkts := rfl
@[simp] theorem setVoq_nextPkt (s : State) (q : Nat) (v : Voq) : (setVoq s q v).nextPkt = s.nextPkt := rfl
@[simp] theorem setVoq_outs (s : State) (q : Nat) (v : Voq) : (setVoq s q v).outs = s.outs := rfl
@[simp] theorem setVoq_nextOut (s : State) (q : Nat) (v : Voq) : (setVoq s q v).nextOut = s.nextOut := rfl
@[simp] theorem setVoq_ports (s : State) (q : Nat) (v : Voq) : (setVoq s q v).ports = s.ports := rfl
@[simp] theorem setVoq_lanes (s : State) (q : Nat) (v : Voq) : (setVoq s q v).lanes = s.lanes := rfl
@[simp] theorem setVoq_lmacs (s : State) (q : Nat) (v : Voq) : (setVoq s q v).lmacs = s.lmacs := rfl
@[simp] theorem setVoq_mem (s : State) (q : Nat) (v : Voq) : (setVoq s q v).mem = s.mem := rfl
@[simp] theorem setVoq_pwr (s : State) (q : Nat) (v : Voq) : (setVoq s q v).pwr = s.pwr := rfl
@[simp] theorem setVoq_host (s : State) (q : Nat) (v : Voq) : (setVoq s q v).host = s.host := rfl
@[simp] theorem setVoq_fl (s : State) (q : Nat) (v : Voq) : (setVoq s q v).fl = s.fl := rfl
@[simp] theorem setVoq_ft (s : State) (q : Nat) (v : Voq) : (setVoq s q v).ft = s.ft := rfl
@[simp] theorem setVoq_hbm (s : State) (q : Nat) (v : Voq) : (setVoq s q v).hbm = s.hbm := rfl
@[simp] theorem setVoq_integ (s : State) (q : Nat) (v : Voq) : (setVoq s q v).integ = s.integ := rfl
@[simp] theorem setVoq_ase (s : State) (q : Nat) (v : Voq) : (setVoq s q v).ase = s.ase := rfl
@[simp] theorem setVoq_dict (s : State) (q : Nat) (v : Voq) : (setVoq s q v).dict = s.dict := rfl
@[simp] theorem setVoq_cls (s : State) (q : Nat) (v : Voq) : (setVoq s q v).cls = s.cls := rfl
@[simp] theorem setVoq_lkp (s : State) (q : Nat) (v : Voq) : (setVoq s q v).lkp = s.lkp := rfl
@[simp] theorem setVoq_mtr (s : State) (q : Nat) (v : Voq) : (setVoq s q v).mtr = s.mtr := rfl
@[simp] theorem setVoq_fw (s : State) (q : Nat) (v : Voq) : (setVoq s q v).fw = s.fw := rfl
@[simp] theorem setVoq_clk (s : State) (q : Nat) (v : Voq) : (setVoq s q v).clk = s.clk := rfl
@[simp] theorem setVoq_io (s : State) (q : Nat) (v : Voq) : (setVoq s q v).io = s.io := rfl
@[simp] theorem reg_setVoq (s : State) (q : Nat) (v : Voq) (entry : Nat) : reg (setVoq s q v) entry = reg s entry := rfl

/-! `setNode` writes `qm` alone. -/
@[simp] theorem setNode_od (s : State) (k : Nat) (x : Node) : (setNode s k x).od = s.od := rfl
@[simp] theorem setNode_blocks (s : State) (k : Nat) (x : Node) : (setNode s k x).blocks = s.blocks := rfl
@[simp] theorem setNode_pending (s : State) (k : Nat) (x : Node) : (setNode s k x).pending = s.pending := rfl
@[simp] theorem setNode_time (s : State) (k : Nat) (x : Node) : (setNode s k x).time = s.time := rfl
@[simp] theorem setNode_timeOffset (s : State) (k : Nat) (x : Node) : (setNode s k x).timeOffset = s.timeOffset := rfl
@[simp] theorem setNode_freeCtr (s : State) (k : Nat) (x : Node) : (setNode s k x).freeCtr = s.freeCtr := rfl
@[simp] theorem setNode_sent (s : State) (k : Nat) (x : Node) : (setNode s k x).sent = s.sent := rfl
@[simp] theorem setNode_evt (s : State) (k : Nat) (x : Node) : (setNode s k x).evt = s.evt := rfl
@[simp] theorem setNode_led (s : State) (k : Nat) (x : Node) : (setNode s k x).led = s.led := rfl
@[simp] theorem setNode_obs (s : State) (k : Nat) (x : Node) : (setNode s k x).obs = s.obs := rfl
@[simp] theorem setNode_pkts (s : State) (k : Nat) (x : Node) : (setNode s k x).pkts = s.pkts := rfl
@[simp] theorem setNode_nextPkt (s : State) (k : Nat) (x : Node) : (setNode s k x).nextPkt = s.nextPkt := rfl
@[simp] theorem setNode_outs (s : State) (k : Nat) (x : Node) : (setNode s k x).outs = s.outs := rfl
@[simp] theorem setNode_nextOut (s : State) (k : Nat) (x : Node) : (setNode s k x).nextOut = s.nextOut := rfl
@[simp] theorem setNode_ports (s : State) (k : Nat) (x : Node) : (setNode s k x).ports = s.ports := rfl
@[simp] theorem setNode_lanes (s : State) (k : Nat) (x : Node) : (setNode s k x).lanes = s.lanes := rfl
@[simp] theorem setNode_lmacs (s : State) (k : Nat) (x : Node) : (setNode s k x).lmacs = s.lmacs := rfl
@[simp] theorem setNode_mem (s : State) (k : Nat) (x : Node) : (setNode s k x).mem = s.mem := rfl
@[simp] theorem setNode_pwr (s : State) (k : Nat) (x : Node) : (setNode s k x).pwr = s.pwr := rfl
@[simp] theorem setNode_host (s : State) (k : Nat) (x : Node) : (setNode s k x).host = s.host := rfl
@[simp] theorem setNode_fl (s : State) (k : Nat) (x : Node) : (setNode s k x).fl = s.fl := rfl
@[simp] theorem setNode_ft (s : State) (k : Nat) (x : Node) : (setNode s k x).ft = s.ft := rfl
@[simp] theorem setNode_hbm (s : State) (k : Nat) (x : Node) : (setNode s k x).hbm = s.hbm := rfl
@[simp] theorem setNode_integ (s : State) (k : Nat) (x : Node) : (setNode s k x).integ = s.integ := rfl
@[simp] theorem setNode_ase (s : State) (k : Nat) (x : Node) : (setNode s k x).ase = s.ase := rfl
@[simp] theorem setNode_dict (s : State) (k : Nat) (x : Node) : (setNode s k x).dict = s.dict := rfl
@[simp] theorem setNode_cls (s : State) (k : Nat) (x : Node) : (setNode s k x).cls = s.cls := rfl
@[simp] theorem setNode_lkp (s : State) (k : Nat) (x : Node) : (setNode s k x).lkp = s.lkp := rfl
@[simp] theorem setNode_mtr (s : State) (k : Nat) (x : Node) : (setNode s k x).mtr = s.mtr := rfl
@[simp] theorem setNode_fw (s : State) (k : Nat) (x : Node) : (setNode s k x).fw = s.fw := rfl
@[simp] theorem setNode_clk (s : State) (k : Nat) (x : Node) : (setNode s k x).clk = s.clk := rfl
@[simp] theorem setNode_io (s : State) (k : Nat) (x : Node) : (setNode s k x).io = s.io := rfl
@[simp] theorem reg_setNode (s : State) (k : Nat) (x : Node) (entry : Nat) : reg (setNode s k x) entry = reg s entry := rfl

/-! `setQueue` writes `qm` alone. -/
@[simp] theorem setQueue_od (s : State) (q : Nat) (x : Queue) : (setQueue s q x).od = s.od := rfl
@[simp] theorem setQueue_blocks (s : State) (q : Nat) (x : Queue) : (setQueue s q x).blocks = s.blocks := rfl
@[simp] theorem setQueue_pending (s : State) (q : Nat) (x : Queue) : (setQueue s q x).pending = s.pending := rfl
@[simp] theorem setQueue_time (s : State) (q : Nat) (x : Queue) : (setQueue s q x).time = s.time := rfl
@[simp] theorem setQueue_timeOffset (s : State) (q : Nat) (x : Queue) : (setQueue s q x).timeOffset = s.timeOffset := rfl
@[simp] theorem setQueue_freeCtr (s : State) (q : Nat) (x : Queue) : (setQueue s q x).freeCtr = s.freeCtr := rfl
@[simp] theorem setQueue_sent (s : State) (q : Nat) (x : Queue) : (setQueue s q x).sent = s.sent := rfl
@[simp] theorem setQueue_evt (s : State) (q : Nat) (x : Queue) : (setQueue s q x).evt = s.evt := rfl
@[simp] theorem setQueue_led (s : State) (q : Nat) (x : Queue) : (setQueue s q x).led = s.led := rfl
@[simp] theorem setQueue_obs (s : State) (q : Nat) (x : Queue) : (setQueue s q x).obs = s.obs := rfl
@[simp] theorem setQueue_pkts (s : State) (q : Nat) (x : Queue) : (setQueue s q x).pkts = s.pkts := rfl
@[simp] theorem setQueue_nextPkt (s : State) (q : Nat) (x : Queue) : (setQueue s q x).nextPkt = s.nextPkt := rfl
@[simp] theorem setQueue_outs (s : State) (q : Nat) (x : Queue) : (setQueue s q x).outs = s.outs := rfl
@[simp] theorem setQueue_nextOut (s : State) (q : Nat) (x : Queue) : (setQueue s q x).nextOut = s.nextOut := rfl
@[simp] theorem setQueue_ports (s : State) (q : Nat) (x : Queue) : (setQueue s q x).ports = s.ports := rfl
@[simp] theorem setQueue_lanes (s : State) (q : Nat) (x : Queue) : (setQueue s q x).lanes = s.lanes := rfl
@[simp] theorem setQueue_lmacs (s : State) (q : Nat) (x : Queue) : (setQueue s q x).lmacs = s.lmacs := rfl
@[simp] theorem setQueue_mem (s : State) (q : Nat) (x : Queue) : (setQueue s q x).mem = s.mem := rfl
@[simp] theorem setQueue_pwr (s : State) (q : Nat) (x : Queue) : (setQueue s q x).pwr = s.pwr := rfl
@[simp] theorem setQueue_host (s : State) (q : Nat) (x : Queue) : (setQueue s q x).host = s.host := rfl
@[simp] theorem setQueue_fl (s : State) (q : Nat) (x : Queue) : (setQueue s q x).fl = s.fl := rfl
@[simp] theorem setQueue_ft (s : State) (q : Nat) (x : Queue) : (setQueue s q x).ft = s.ft := rfl
@[simp] theorem setQueue_hbm (s : State) (q : Nat) (x : Queue) : (setQueue s q x).hbm = s.hbm := rfl
@[simp] theorem setQueue_integ (s : State) (q : Nat) (x : Queue) : (setQueue s q x).integ = s.integ := rfl
@[simp] theorem setQueue_ase (s : State) (q : Nat) (x : Queue) : (setQueue s q x).ase = s.ase := rfl
@[simp] theorem setQueue_dict (s : State) (q : Nat) (x : Queue) : (setQueue s q x).dict = s.dict := rfl
@[simp] theorem setQueue_cls (s : State) (q : Nat) (x : Queue) : (setQueue s q x).cls = s.cls := rfl
@[simp] theorem setQueue_lkp (s : State) (q : Nat) (x : Queue) : (setQueue s q x).lkp = s.lkp := rfl
@[simp] theorem setQueue_mtr (s : State) (q : Nat) (x : Queue) : (setQueue s q x).mtr = s.mtr := rfl
@[simp] theorem setQueue_fw (s : State) (q : Nat) (x : Queue) : (setQueue s q x).fw = s.fw := rfl
@[simp] theorem setQueue_clk (s : State) (q : Nat) (x : Queue) : (setQueue s q x).clk = s.clk := rfl
@[simp] theorem setQueue_io (s : State) (q : Nat) (x : Queue) : (setQueue s q x).io = s.io := rfl
@[simp] theorem reg_setQueue (s : State) (q : Nat) (x : Queue) (entry : Nat) : reg (setQueue s q x) entry = reg s entry := rfl

/-! `setTargets` writes `pwr` alone. -/
@[simp] theorem setTargets_od (s : State) : (setTargets s).od = s.od := rfl
@[simp] theorem setTargets_blocks (s : State) : (setTargets s).blocks = s.blocks := rfl
@[simp] theorem setTargets_pending (s : State) : (setTargets s).pending = s.pending := rfl
@[simp] theorem setTargets_time (s : State) : (setTargets s).time = s.time := rfl
@[simp] theorem setTargets_timeOffset (s : State) : (setTargets s).timeOffset = s.timeOffset := rfl
@[simp] theorem setTargets_freeCtr (s : State) : (setTargets s).freeCtr = s.freeCtr := rfl
@[simp] theorem setTargets_sent (s : State) : (setTargets s).sent = s.sent := rfl
@[simp] theorem setTargets_evt (s : State) : (setTargets s).evt = s.evt := rfl
@[simp] theorem setTargets_led (s : State) : (setTargets s).led = s.led := rfl
@[simp] theorem setTargets_obs (s : State) : (setTargets s).obs = s.obs := rfl
@[simp] theorem setTargets_pkts (s : State) : (setTargets s).pkts = s.pkts := rfl
@[simp] theorem setTargets_nextPkt (s : State) : (setTargets s).nextPkt = s.nextPkt := rfl
@[simp] theorem setTargets_outs (s : State) : (setTargets s).outs = s.outs := rfl
@[simp] theorem setTargets_nextOut (s : State) : (setTargets s).nextOut = s.nextOut := rfl
@[simp] theorem setTargets_ports (s : State) : (setTargets s).ports = s.ports := rfl
@[simp] theorem setTargets_lanes (s : State) : (setTargets s).lanes = s.lanes := rfl
@[simp] theorem setTargets_lmacs (s : State) : (setTargets s).lmacs = s.lmacs := rfl
@[simp] theorem setTargets_mem (s : State) : (setTargets s).mem = s.mem := rfl
@[simp] theorem setTargets_qm (s : State) : (setTargets s).qm = s.qm := rfl
@[simp] theorem setTargets_host (s : State) : (setTargets s).host = s.host := rfl
@[simp] theorem setTargets_fl (s : State) : (setTargets s).fl = s.fl := rfl
@[simp] theorem setTargets_ft (s : State) : (setTargets s).ft = s.ft := rfl
@[simp] theorem setTargets_hbm (s : State) : (setTargets s).hbm = s.hbm := rfl
@[simp] theorem setTargets_integ (s : State) : (setTargets s).integ = s.integ := rfl
@[simp] theorem setTargets_ase (s : State) : (setTargets s).ase = s.ase := rfl
@[simp] theorem setTargets_dict (s : State) : (setTargets s).dict = s.dict := rfl
@[simp] theorem setTargets_cls (s : State) : (setTargets s).cls = s.cls := rfl
@[simp] theorem setTargets_lkp (s : State) : (setTargets s).lkp = s.lkp := rfl
@[simp] theorem setTargets_mtr (s : State) : (setTargets s).mtr = s.mtr := rfl
@[simp] theorem setTargets_fw (s : State) : (setTargets s).fw = s.fw := rfl
@[simp] theorem setTargets_clk (s : State) : (setTargets s).clk = s.clk := rfl
@[simp] theorem setTargets_io (s : State) : (setTargets s).io = s.io := rfl
@[simp] theorem reg_setTargets (s : State) (entry : Nat) : reg (setTargets s) entry = reg s entry := rfl

/-! `setGrant` writes `ft` alone. -/
@[simp] theorem setGrant_od (s : State) (k : Nat) (g : Grant) : (setGrant s k g).od = s.od := rfl
@[simp] theorem setGrant_blocks (s : State) (k : Nat) (g : Grant) : (setGrant s k g).blocks = s.blocks := rfl
@[simp] theorem setGrant_pending (s : State) (k : Nat) (g : Grant) : (setGrant s k g).pending = s.pending := rfl
@[simp] theorem setGrant_time (s : State) (k : Nat) (g : Grant) : (setGrant s k g).time = s.time := rfl
@[simp] theorem setGrant_timeOffset (s : State) (k : Nat) (g : Grant) : (setGrant s k g).timeOffset = s.timeOffset := rfl
@[simp] theorem setGrant_freeCtr (s : State) (k : Nat) (g : Grant) : (setGrant s k g).freeCtr = s.freeCtr := rfl
@[simp] theorem setGrant_sent (s : State) (k : Nat) (g : Grant) : (setGrant s k g).sent = s.sent := rfl
@[simp] theorem setGrant_evt (s : State) (k : Nat) (g : Grant) : (setGrant s k g).evt = s.evt := rfl
@[simp] theorem setGrant_led (s : State) (k : Nat) (g : Grant) : (setGrant s k g).led = s.led := rfl
@[simp] theorem setGrant_obs (s : State) (k : Nat) (g : Grant) : (setGrant s k g).obs = s.obs := rfl
@[simp] theorem setGrant_pkts (s : State) (k : Nat) (g : Grant) : (setGrant s k g).pkts = s.pkts := rfl
@[simp] theorem setGrant_nextPkt (s : State) (k : Nat) (g : Grant) : (setGrant s k g).nextPkt = s.nextPkt := rfl
@[simp] theorem setGrant_outs (s : State) (k : Nat) (g : Grant) : (setGrant s k g).outs = s.outs := rfl
@[simp] theorem setGrant_nextOut (s : State) (k : Nat) (g : Grant) : (setGrant s k g).nextOut = s.nextOut := rfl
@[simp] theorem setGrant_ports (s : State) (k : Nat) (g : Grant) : (setGrant s k g).ports = s.ports := rfl
@[simp] theorem setGrant_lanes (s : State) (k : Nat) (g : Grant) : (setGrant s k g).lanes = s.lanes := rfl
@[simp] theorem setGrant_lmacs (s : State) (k : Nat) (g : Grant) : (setGrant s k g).lmacs = s.lmacs := rfl
@[simp] theorem setGrant_mem (s : State) (k : Nat) (g : Grant) : (setGrant s k g).mem = s.mem := rfl
@[simp] theorem setGrant_qm (s : State) (k : Nat) (g : Grant) : (setGrant s k g).qm = s.qm := rfl
@[simp] theorem setGrant_pwr (s : State) (k : Nat) (g : Grant) : (setGrant s k g).pwr = s.pwr := rfl
@[simp] theorem setGrant_host (s : State) (k : Nat) (g : Grant) : (setGrant s k g).host = s.host := rfl
@[simp] theorem setGrant_fl (s : State) (k : Nat) (g : Grant) : (setGrant s k g).fl = s.fl := rfl
@[simp] theorem setGrant_hbm (s : State) (k : Nat) (g : Grant) : (setGrant s k g).hbm = s.hbm := rfl
@[simp] theorem setGrant_integ (s : State) (k : Nat) (g : Grant) : (setGrant s k g).integ = s.integ := rfl
@[simp] theorem setGrant_ase (s : State) (k : Nat) (g : Grant) : (setGrant s k g).ase = s.ase := rfl
@[simp] theorem setGrant_dict (s : State) (k : Nat) (g : Grant) : (setGrant s k g).dict = s.dict := rfl
@[simp] theorem setGrant_cls (s : State) (k : Nat) (g : Grant) : (setGrant s k g).cls = s.cls := rfl
@[simp] theorem setGrant_lkp (s : State) (k : Nat) (g : Grant) : (setGrant s k g).lkp = s.lkp := rfl
@[simp] theorem setGrant_mtr (s : State) (k : Nat) (g : Grant) : (setGrant s k g).mtr = s.mtr := rfl
@[simp] theorem setGrant_fw (s : State) (k : Nat) (g : Grant) : (setGrant s k g).fw = s.fw := rfl
@[simp] theorem setGrant_clk (s : State) (k : Nat) (g : Grant) : (setGrant s k g).clk = s.clk := rfl
@[simp] theorem setGrant_io (s : State) (k : Nat) (g : Grant) : (setGrant s k g).io = s.io := rfl
@[simp] theorem reg_setGrant (s : State) (k : Nat) (g : Grant) (entry : Nat) : reg (setGrant s k g) entry = reg s entry := rfl

/-! `setBundle` writes `fl` alone. -/
@[simp] theorem setBundle_od (s : State) (b : Nat) (x : FBundle) : (setBundle s b x).od = s.od := rfl
@[simp] theorem setBundle_blocks (s : State) (b : Nat) (x : FBundle) : (setBundle s b x).blocks = s.blocks := rfl
@[simp] theorem setBundle_pending (s : State) (b : Nat) (x : FBundle) : (setBundle s b x).pending = s.pending := rfl
@[simp] theorem setBundle_time (s : State) (b : Nat) (x : FBundle) : (setBundle s b x).time = s.time := rfl
@[simp] theorem setBundle_timeOffset (s : State) (b : Nat) (x : FBundle) : (setBundle s b x).timeOffset = s.timeOffset := rfl
@[simp] theorem setBundle_freeCtr (s : State) (b : Nat) (x : FBundle) : (setBundle s b x).freeCtr = s.freeCtr := rfl
@[simp] theorem setBundle_sent (s : State) (b : Nat) (x : FBundle) : (setBundle s b x).sent = s.sent := rfl
@[simp] theorem setBundle_evt (s : State) (b : Nat) (x : FBundle) : (setBundle s b x).evt = s.evt := rfl
@[simp] theorem setBundle_led (s : State) (b : Nat) (x : FBundle) : (setBundle s b x).led = s.led := rfl
@[simp] theorem setBundle_obs (s : State) (b : Nat) (x : FBundle) : (setBundle s b x).obs = s.obs := rfl
@[simp] theorem setBundle_pkts (s : State) (b : Nat) (x : FBundle) : (setBundle s b x).pkts = s.pkts := rfl
@[simp] theorem setBundle_nextPkt (s : State) (b : Nat) (x : FBundle) : (setBundle s b x).nextPkt = s.nextPkt := rfl
@[simp] theorem setBundle_outs (s : State) (b : Nat) (x : FBundle) : (setBundle s b x).outs = s.outs := rfl
@[simp] theorem setBundle_nextOut (s : State) (b : Nat) (x : FBundle) : (setBundle s b x).nextOut = s.nextOut := rfl
@[simp] theorem setBundle_ports (s : State) (b : Nat) (x : FBundle) : (setBundle s b x).ports = s.ports := rfl
@[simp] theorem setBundle_lanes (s : State) (b : Nat) (x : FBundle) : (setBundle s b x).lanes = s.lanes := rfl
@[simp] theorem setBundle_lmacs (s : State) (b : Nat) (x : FBundle) : (setBundle s b x).lmacs = s.lmacs := rfl
@[simp] theorem setBundle_mem (s : State) (b : Nat) (x : FBundle) : (setBundle s b x).mem = s.mem := rfl
@[simp] theorem setBundle_qm (s : State) (b : Nat) (x : FBundle) : (setBundle s b x).qm = s.qm := rfl
@[simp] theorem setBundle_pwr (s : State) (b : Nat) (x : FBundle) : (setBundle s b x).pwr = s.pwr := rfl
@[simp] theorem setBundle_host (s : State) (b : Nat) (x : FBundle) : (setBundle s b x).host = s.host := rfl
@[simp] theorem setBundle_ft (s : State) (b : Nat) (x : FBundle) : (setBundle s b x).ft = s.ft := rfl
@[simp] theorem setBundle_hbm (s : State) (b : Nat) (x : FBundle) : (setBundle s b x).hbm = s.hbm := rfl
@[simp] theorem setBundle_integ (s : State) (b : Nat) (x : FBundle) : (setBundle s b x).integ = s.integ := rfl
@[simp] theorem setBundle_ase (s : State) (b : Nat) (x : FBundle) : (setBundle s b x).ase = s.ase := rfl
@[simp] theorem setBundle_dict (s : State) (b : Nat) (x : FBundle) : (setBundle s b x).dict = s.dict := rfl
@[simp] theorem setBundle_cls (s : State) (b : Nat) (x : FBundle) : (setBundle s b x).cls = s.cls := rfl
@[simp] theorem setBundle_lkp (s : State) (b : Nat) (x : FBundle) : (setBundle s b x).lkp = s.lkp := rfl
@[simp] theorem setBundle_mtr (s : State) (b : Nat) (x : FBundle) : (setBundle s b x).mtr = s.mtr := rfl
@[simp] theorem setBundle_fw (s : State) (b : Nat) (x : FBundle) : (setBundle s b x).fw = s.fw := rfl
@[simp] theorem setBundle_clk (s : State) (b : Nat) (x : FBundle) : (setBundle s b x).clk = s.clk := rfl
@[simp] theorem setBundle_io (s : State) (b : Nat) (x : FBundle) : (setBundle s b x).io = s.io := rfl
@[simp] theorem reg_setBundle (s : State) (b : Nat) (x : FBundle) (entry : Nat) : reg (setBundle s b x) entry = reg s entry := rfl

/-! `setFlane` writes `fl` alone. -/
@[simp] theorem setFlane_od (s : State) (l : Nat) (x : FLane) : (setFlane s l x).od = s.od := rfl
@[simp] theorem setFlane_blocks (s : State) (l : Nat) (x : FLane) : (setFlane s l x).blocks = s.blocks := rfl
@[simp] theorem setFlane_pending (s : State) (l : Nat) (x : FLane) : (setFlane s l x).pending = s.pending := rfl
@[simp] theorem setFlane_time (s : State) (l : Nat) (x : FLane) : (setFlane s l x).time = s.time := rfl
@[simp] theorem setFlane_timeOffset (s : State) (l : Nat) (x : FLane) : (setFlane s l x).timeOffset = s.timeOffset := rfl
@[simp] theorem setFlane_freeCtr (s : State) (l : Nat) (x : FLane) : (setFlane s l x).freeCtr = s.freeCtr := rfl
@[simp] theorem setFlane_sent (s : State) (l : Nat) (x : FLane) : (setFlane s l x).sent = s.sent := rfl
@[simp] theorem setFlane_evt (s : State) (l : Nat) (x : FLane) : (setFlane s l x).evt = s.evt := rfl
@[simp] theorem setFlane_led (s : State) (l : Nat) (x : FLane) : (setFlane s l x).led = s.led := rfl
@[simp] theorem setFlane_obs (s : State) (l : Nat) (x : FLane) : (setFlane s l x).obs = s.obs := rfl
@[simp] theorem setFlane_pkts (s : State) (l : Nat) (x : FLane) : (setFlane s l x).pkts = s.pkts := rfl
@[simp] theorem setFlane_nextPkt (s : State) (l : Nat) (x : FLane) : (setFlane s l x).nextPkt = s.nextPkt := rfl
@[simp] theorem setFlane_outs (s : State) (l : Nat) (x : FLane) : (setFlane s l x).outs = s.outs := rfl
@[simp] theorem setFlane_nextOut (s : State) (l : Nat) (x : FLane) : (setFlane s l x).nextOut = s.nextOut := rfl
@[simp] theorem setFlane_ports (s : State) (l : Nat) (x : FLane) : (setFlane s l x).ports = s.ports := rfl
@[simp] theorem setFlane_lanes (s : State) (l : Nat) (x : FLane) : (setFlane s l x).lanes = s.lanes := rfl
@[simp] theorem setFlane_lmacs (s : State) (l : Nat) (x : FLane) : (setFlane s l x).lmacs = s.lmacs := rfl
@[simp] theorem setFlane_mem (s : State) (l : Nat) (x : FLane) : (setFlane s l x).mem = s.mem := rfl
@[simp] theorem setFlane_qm (s : State) (l : Nat) (x : FLane) : (setFlane s l x).qm = s.qm := rfl
@[simp] theorem setFlane_pwr (s : State) (l : Nat) (x : FLane) : (setFlane s l x).pwr = s.pwr := rfl
@[simp] theorem setFlane_host (s : State) (l : Nat) (x : FLane) : (setFlane s l x).host = s.host := rfl
@[simp] theorem setFlane_ft (s : State) (l : Nat) (x : FLane) : (setFlane s l x).ft = s.ft := rfl
@[simp] theorem setFlane_hbm (s : State) (l : Nat) (x : FLane) : (setFlane s l x).hbm = s.hbm := rfl
@[simp] theorem setFlane_integ (s : State) (l : Nat) (x : FLane) : (setFlane s l x).integ = s.integ := rfl
@[simp] theorem setFlane_ase (s : State) (l : Nat) (x : FLane) : (setFlane s l x).ase = s.ase := rfl
@[simp] theorem setFlane_dict (s : State) (l : Nat) (x : FLane) : (setFlane s l x).dict = s.dict := rfl
@[simp] theorem setFlane_cls (s : State) (l : Nat) (x : FLane) : (setFlane s l x).cls = s.cls := rfl
@[simp] theorem setFlane_lkp (s : State) (l : Nat) (x : FLane) : (setFlane s l x).lkp = s.lkp := rfl
@[simp] theorem setFlane_mtr (s : State) (l : Nat) (x : FLane) : (setFlane s l x).mtr = s.mtr := rfl
@[simp] theorem setFlane_fw (s : State) (l : Nat) (x : FLane) : (setFlane s l x).fw = s.fw := rfl
@[simp] theorem setFlane_clk (s : State) (l : Nat) (x : FLane) : (setFlane s l x).clk = s.clk := rfl
@[simp] theorem setFlane_io (s : State) (l : Nat) (x : FLane) : (setFlane s l x).io = s.io := rfl
@[simp] theorem reg_setFlane (s : State) (l : Nat) (x : FLane) (entry : Nat) : reg (setFlane s l x) entry = reg s entry := rfl

/-! `setDestRec` writes `ft` alone. -/
@[simp] theorem setDestRec_od (s : State) (d : Nat) (x : DestRec) : (setDestRec s d x).od = s.od := rfl
@[simp] theorem setDestRec_blocks (s : State) (d : Nat) (x : DestRec) : (setDestRec s d x).blocks = s.blocks := rfl
@[simp] theorem setDestRec_pending (s : State) (d : Nat) (x : DestRec) : (setDestRec s d x).pending = s.pending := rfl
@[simp] theorem setDestRec_time (s : State) (d : Nat) (x : DestRec) : (setDestRec s d x).time = s.time := rfl
@[simp] theorem setDestRec_timeOffset (s : State) (d : Nat) (x : DestRec) : (setDestRec s d x).timeOffset = s.timeOffset := rfl
@[simp] theorem setDestRec_freeCtr (s : State) (d : Nat) (x : DestRec) : (setDestRec s d x).freeCtr = s.freeCtr := rfl
@[simp] theorem setDestRec_sent (s : State) (d : Nat) (x : DestRec) : (setDestRec s d x).sent = s.sent := rfl
@[simp] theorem setDestRec_evt (s : State) (d : Nat) (x : DestRec) : (setDestRec s d x).evt = s.evt := rfl
@[simp] theorem setDestRec_led (s : State) (d : Nat) (x : DestRec) : (setDestRec s d x).led = s.led := rfl
@[simp] theorem setDestRec_obs (s : State) (d : Nat) (x : DestRec) : (setDestRec s d x).obs = s.obs := rfl
@[simp] theorem setDestRec_pkts (s : State) (d : Nat) (x : DestRec) : (setDestRec s d x).pkts = s.pkts := rfl
@[simp] theorem setDestRec_nextPkt (s : State) (d : Nat) (x : DestRec) : (setDestRec s d x).nextPkt = s.nextPkt := rfl
@[simp] theorem setDestRec_outs (s : State) (d : Nat) (x : DestRec) : (setDestRec s d x).outs = s.outs := rfl
@[simp] theorem setDestRec_nextOut (s : State) (d : Nat) (x : DestRec) : (setDestRec s d x).nextOut = s.nextOut := rfl
@[simp] theorem setDestRec_ports (s : State) (d : Nat) (x : DestRec) : (setDestRec s d x).ports = s.ports := rfl
@[simp] theorem setDestRec_lanes (s : State) (d : Nat) (x : DestRec) : (setDestRec s d x).lanes = s.lanes := rfl
@[simp] theorem setDestRec_lmacs (s : State) (d : Nat) (x : DestRec) : (setDestRec s d x).lmacs = s.lmacs := rfl
@[simp] theorem setDestRec_mem (s : State) (d : Nat) (x : DestRec) : (setDestRec s d x).mem = s.mem := rfl
@[simp] theorem setDestRec_qm (s : State) (d : Nat) (x : DestRec) : (setDestRec s d x).qm = s.qm := rfl
@[simp] theorem setDestRec_pwr (s : State) (d : Nat) (x : DestRec) : (setDestRec s d x).pwr = s.pwr := rfl
@[simp] theorem setDestRec_host (s : State) (d : Nat) (x : DestRec) : (setDestRec s d x).host = s.host := rfl
@[simp] theorem setDestRec_fl (s : State) (d : Nat) (x : DestRec) : (setDestRec s d x).fl = s.fl := rfl
@[simp] theorem setDestRec_hbm (s : State) (d : Nat) (x : DestRec) : (setDestRec s d x).hbm = s.hbm := rfl
@[simp] theorem setDestRec_integ (s : State) (d : Nat) (x : DestRec) : (setDestRec s d x).integ = s.integ := rfl
@[simp] theorem setDestRec_ase (s : State) (d : Nat) (x : DestRec) : (setDestRec s d x).ase = s.ase := rfl
@[simp] theorem setDestRec_dict (s : State) (d : Nat) (x : DestRec) : (setDestRec s d x).dict = s.dict := rfl
@[simp] theorem setDestRec_cls (s : State) (d : Nat) (x : DestRec) : (setDestRec s d x).cls = s.cls := rfl
@[simp] theorem setDestRec_lkp (s : State) (d : Nat) (x : DestRec) : (setDestRec s d x).lkp = s.lkp := rfl
@[simp] theorem setDestRec_mtr (s : State) (d : Nat) (x : DestRec) : (setDestRec s d x).mtr = s.mtr := rfl
@[simp] theorem setDestRec_fw (s : State) (d : Nat) (x : DestRec) : (setDestRec s d x).fw = s.fw := rfl
@[simp] theorem setDestRec_clk (s : State) (d : Nat) (x : DestRec) : (setDestRec s d x).clk = s.clk := rfl
@[simp] theorem setDestRec_io (s : State) (d : Nat) (x : DestRec) : (setDestRec s d x).io = s.io := rfl
@[simp] theorem reg_setDestRec (s : State) (d : Nat) (x : DestRec) (entry : Nat) : reg (setDestRec s d x) entry = reg s entry := rfl

end Sys2Proof.Machine
end

