-- ==== Sys2Proof/Laws/Ops.lean ====
section
/-! SUPPORT. What the named operations every command shares do. -/

namespace Sys2Proof.Machine

/-- An entry reads as what was stored in it. -/
@[simp] theorem reg_setReg_self (s : State) (k v : Nat) : reg (setReg s k v) k = v := mget_mset_self _ _ _ _

/-- Storing one entry leaves every other as it was. -/
theorem reg_setReg_ne (s : State) (k j v : Nat) (hj : j ≠ k) : reg (setReg s k v) j = reg s j :=
  mget_default_ne (odDefault k) (odDefault j) s.od k j v hj

/-- Storing one entry writes that entry alone. -/
theorem setReg_onlyEntries (s : State) (k v : Nat) : OnlyEntries s (setReg s k v) [k] :=
  fun j hj => reg_setReg_ne s k j v (by simpa using hj)

/-- A write keeps the canonical form under per-index defaults. -/
theorem canonical_mset {α : Type} [DecidableEq α] (d : Nat → α) (m : SMap α) (k : Nat) (v : α) (h : Canonical d m) :
    Canonical d (mset (d k) m k v) := by
  refine ⟨risingFrom_mset (d k) m 0 k v h.1 (Nat.zero_le _), fun p hp => ?_⟩
  rcases mem_mset (d k) m k v p hp with hp | ⟨rfl, hv⟩
  · exact h.2 p hp
  · exact hv

/-- A part of a canonical table is canonical. -/
theorem canonical_filter {α : Type} [DecidableEq α] (d : Nat → α) (m : SMap α) (f : Nat × α → Bool) (h : Canonical d m) :
    Canonical d (m.filter f) :=
  ⟨risingFrom_filter f m 0 0 h.1 (Nat.le_refl _), fun p hp => h.2 p (List.mem_filter.1 hp).1⟩

/-- Storing an entry keeps the dictionary tidy. -/
theorem odTidy_setReg (s : State) (k v : Nat) (h : OdTidy s) : OdTidy (setReg s k v) := canonical_mset odDefault s.od k v h

/-- The bytes of an entry read as what was stored in it. -/
@[simp] theorem blk_setBlk_self (s : State) (k : Nat) (b : List Byte) : blk (setBlk s k b) k = b := mget_mset_self _ _ _ _

/-- A port's record reads as what replaced it. -/
@[simp] theorem port_setPort_self (s : State) (p : Nat) (x : Port) : port (setPort s p x) p = x := mget_mset_self _ _ _ _

/-- A packet reads as what replaced it. -/
@[simp] theorem pkt_setPkt_self (s : State) (i : Nat) (p : Pkt) : pkt? (setPkt s i p) i = some p := mfind_mput_self _ _ _

/-- A forgotten packet is gone. -/
@[simp] theorem pkt_delPkt_self (s : State) (i : Nat) : pkt? (delPkt s i) i = none := mfind_mdel_self _ _

/-- A job's status word reads as what replaced it. -/
@[simp] theorem job_setJob_self (s : State) (k : Nat) (j : Job) : job (setJob s k j) k = j := mget_mset_self _ _ _ _

/-- An output is the newest. -/
@[simp] theorem emit_sent (s : State) (e : Emission) : (emit s e).sent = e :: s.sent := rfl

/-- A cause bit that is already set stays, and nothing else happens (R380). -/
theorem raise_standing (s : State) (c : CauseReg) (b : Nat) (h : bit (reg s c.key) b = true) : raise s c b = s := by
  simp [raise, h]

/-- A cause bit newly set without its enable is set, and no source pulses (R380). -/
theorem raise_disabled (s : State) (c : CauseReg) (b : Nat) (h : bit (reg s c.key) b = false)
    (he : bit (reg (setReg s c.key (setBit (reg s c.key) b)) c.enableKey) b = false) :
    raise s c b = setReg s c.key (setBit (reg s c.key) b) := by
  simp [raise, h, he]

/-- A write of a client that a check turns away changes nothing but the record of the failure and answers its status (R394). -/
theorem writeRow_failed (s : State) (c : Client) (k v : Nat) (rule : State → Applied) (st : Status)
    (h : writeChecks s c k v = some st) :
    writeRow s c k v rule = emit (noteFailure s c k st) (.status (callerOf c) st.code []) := by
  simp [writeRow, checkedWrite, h, conclude]

/-- A write that passes every check leaves what its rule leaves, and answers OK (R394). -/
theorem writeRow_done (s t : State) (c : Client) (k v : Nat) (rule : State → Applied) (h : writeChecks s c k v = none)
    (hr : inRange k v = true) (hd : rule s = .done t) :
    writeRow s c k v rule = emit t (.status (callerOf c) 0 []) := by
  simp [writeRow, checkedWrite, h, hr, hd, conclude]

/-- A write outside the stated range is refused (R394). -/
theorem writeRow_outOfRange (s : State) (c : Client) (k v : Nat) (rule : State → Applied) (h : writeChecks s c k v = none)
    (hr : inRange k v = false) :
    writeRow s c k v rule = emit (noteFailure s c k .refused) (.status (callerOf c) 1 []) := by
  simp [writeRow, checkedWrite, h, hr, conclude, Status.code]

/-- A write its chapter's rule turns away changes nothing but the record of the failure (R394). -/
theorem writeRow_ruleFailed (s : State) (c : Client) (k v : Nat) (rule : State → Applied) (st : Status)
    (h : writeChecks s c k v = none) (hr : inRange k v = true) (hd : rule s = .fail st) :
    writeRow s c k v rule = emit (noteFailure s c k st) (.status (callerOf c) st.code []) := by
  simp [writeRow, checkedWrite, h, hr, hd, conclude]

/-- A committed value that passes every check leaves what its rule leaves, and answers OK (R406). -/
theorem commitRow_done (s t : State) (c : Client) (k : Nat) (rule : State → Applied) (h : domainChecks s c k = none)
    (hd : rule s = .done t) : commitRow s c k rule = emit t (.status (callerOf c) 0 []) := by
  simp [commitRow, h, hd, conclude]

/-- A committed value that a check turns away changes nothing but the record of the failure (R394). -/
theorem commitRow_failed (s : State) (c : Client) (k : Nat) (rule : State → Applied) (st : Status)
    (h : domainChecks s c k = some st) :
    commitRow s c k rule = emit (noteFailure s c k st) (.status (callerOf c) st.code []) := by
  simp [commitRow, h, conclude]

/-- A read that passes its checks answers the value and leaves what the read leaves. -/
theorem readRow_done (s : State) (c : Client) (k v : Nat) (after : State → State) (h : readChecks s c k = none) :
    readRow s c k v after = emit (after s) (.status (callerOf c) 0 (valueBytes k v)) := by
  simp [readRow, h]

/-- A read that a check turns away changes nothing but the record of the failure. -/
theorem readRow_failed (s : State) (c : Client) (k v : Nat) (after : State → State) (st : Status)
    (h : readChecks s c k = some st) :
    readRow s c k v after = emit (noteFailure s c k st) (.status (callerOf c) st.code []) := by
  simp [readRow, h]

/-- A permitted write leaves what its rule leaves, and answers OK. -/
theorem permitted_does {s t : State} {c : Client} {k v : Nat} {rule : State → Applied} (h : Permitted s c k v)
    (hr : rule s = .done t) : writeRow s c k v rule = emit t (okTo c) := writeRow_done s t c k v rule h.1 h.2 hr

/-- A permitted write that only stores. -/
theorem permitted_stores {s : State} {c : Client} {k v : Nat} (h : Permitted s c k v) :
    writeRow s c k v (storeRule k v) = emit (setReg s k (writable k v)) (okTo c) := permitted_does h rfl

/-- A start that passes its checks leaves what its rule leaves. -/
theorem mayStart_rule {s : State} {c : Client} {k : Nat} (h : MayStart s c k) (rule : State → Applied) :
    jobStart s c k rule = rule s := by
  unfold MayStart at h
  unfold jobStart at h ⊢
  cases hk : odFind k with
  | none => simp [hk] at h
  | some r =>
    simp only [hk] at h ⊢
    repeat' (split at h <;> first | (cases h; done) | skip)
    all_goals simp_all
    all_goals (cases rule s <;> simp_all [Applied.bind, Nat.not_lt.2] <;> grind)

/-- The start of a job by its rule: the status word goes out. -/
theorem mayStart_does {s t : State} {c : Client} {k : Nat} {rule : State → Applied} (h : MayStart s c k) (hr : rule s = .done t) :
    concludeJob s c k (jobStart s c k rule) = answeredWord t c k := by
  rw [mayStart_rule h, hr]
  rfl

/-- The start of a job whose rule begins the run. -/
theorem mayStartWith_does {s t : State} {c : Client} {k : Nat} {rule : State → Applied} (h : MayStart s c k) (hr : rule s = .done t) :
    concludeJob s c k (jobStartWith s c k rule) = answeredWord (jobBegin t k) c k := by
  simp only [jobStartWith]
  exact mayStart_does h (by simp [hr, Applied.bind])

end Sys2Proof.Machine
end

