-- ==== Sys2Proof/Laws/Noted.lean ====
section
/-! SUPPORT. What raising a cause, pulsing a source, counting an event and a discard's records leave alone: one lemma for each of the
operations, all of the form `Noted ks s t` (Safety). -/

namespace Sys2Proof

open Machine

theorem Noted.refl (ks : List Nat) (s : State) : Noted ks s s := ⟨rfl, id, fun _ _ _ => rfl⟩

theorem Noted.trans {ks : List Nat} {s t u : State} (h : Noted ks s t) (g : Noted ks t u) : Noted ks s u :=
  ⟨by rw [g.1, h.1], fun ho => g.2.1 (h.2.1 ho), fun k a b => (g.2.2 k a b).trans (h.2.2 k a b)⟩

theorem Noted.mono {ks js : List Nat} {s t : State} (h : Noted ks s t) (hs : ∀ k ∈ ks, k ∈ js ∨ sideEntry k = true) :
    Noted js s t := by
  refine ⟨h.1, h.2.1, fun k a b => h.2.2 k a (fun hk => ?_)⟩
  rcases hs k hk with hk | hk
  · exact b hk
  · rw [hk] at a; exact absurd a (by simp)

/-- Nothing but the side. -/
theorem Noted.side {ks : List Nat} {s t : State} (h : Noted [] s t) : Noted ks s t := h.mono (by simp)

theorem noted_setReg (ks : List Nat) (s : State) (k v : Nat) (hk : k ∈ ks ∨ sideEntry k = true) : Noted ks s (setReg s k v) := by
  refine ⟨rfl, odTidy_setReg s k v, fun j hj hn => reg_setReg_ne s k j v ?_⟩
  rintro rfl
  rcases hk with hk | hk
  · exact hn hk
  · rw [hk] at hj; exact absurd hj (by simp)

/-- An update of the event system, the records or the outputs. -/
theorem noted_evt (ks : List Nat) (s : State) (e : EvtState) (o : ObsState) (x : List Emission) :
    Noted ks s { s with evt := e, obs := o, sent := x } := ⟨rfl, id, fun _ _ _ => rfl⟩

theorem noted_emit (ks : List Nat) (s : State) (e : Emission) : Noted ks s (emit s e) := noted_evt ks s s.evt s.obs _

theorem noted_count1 (ks : List Nat) (s : State) (k : Nat) (hk : k ∈ ks ∨ sideEntry k = true) : Noted ks s (count1 s k) :=
  noted_setReg ks s k _ hk

theorem noted_foldl {α : Type} (ks : List Nat) (g : State → α → State) (h : ∀ s x, Noted ks s (g s x)) :
    ∀ (l : List α) (s : State), Noted ks s (l.foldl g s)
  | [], s => Noted.refl ks s
  | x :: r, s => (h s x).trans (noted_foldl ks g h r (g s x))

theorem noted_setMsix (ks : List Nat) (s : State) (fn : Nat) (m : MsiX) : Noted ks s (setMsix s fn m) :=
  noted_evt ks s { s.evt with msix := _ } s.obs s.sent

theorem noted_sendMsix (ks : List Nat) (s : State) (fn v : Nat) : Noted ks s (sendMsix s fn v) := by
  simp only [sendMsix]
  split
  · split
    · exact noted_setMsix ks s _ _
    · exact noted_emit ks s _
  · exact Noted.refl ks s

theorem noted_riseMessages (ks : List Nat) (s0 s : State) (l : List (Nat × Nat)) : Noted ks s (riseMessages s0 s l) := by
  refine noted_foldl ks _ (fun s x => ?_) l s
  split
  · exact noted_sendMsix ks s _ _
  · exact Noted.refl ks s

theorem noted_ensPut (ks : List Nat) (s : State) (n : Nat) (b : List Byte) : Noted ks s (ensPut s n b).2 := by
  simp only [ensPut]
  split
  · split
    · exact noted_evt ks s s.evt _ s.sent
    · exact noted_count1 ks s _ (.inr (by decide))
  · exact Noted.refl ks s

theorem noted_fwEnqueue (ks : List Nat) (s : State) (src : Nat) : Noted ks s (fwEnqueue s src) := by
  simp only [fwEnqueue]
  split
  · split
    · exact (noted_evt ks s _ s.obs s.sent).trans (noted_setReg ks _ _ _ (.inr (by decide)))
    · exact noted_evt ks s _ s.obs s.sent
  · exact noted_count1 ks s _ (.inr (by decide))

theorem noted_ite {ks : List Nat} {s t u : State} (c : Prop) [Decidable c] (ht : Noted ks s t) (hu : Noted ks s u) :
    Noted ks s (if c then t else u) := by
  split
  · exact ht
  · exact hu

theorem noted_ensIf {ks : List Nat} {s u : State} (c : Prop) [Decidable c] (n : Nat) (b : List Byte) (h : Noted ks s u) :
    Noted ks s (if c then ensPut u n b else (false, u)).2 := by
  split
  · exact h.trans (noted_ensPut ks u n b)
  · exact h

theorem noted_pulseBare (ks : List Nat) (s : State) (src : Nat) : Noted ks s (pulseBare s src).2 := by
  have h : Noted ks s (riseMessages s { count1 s Reg.evtPulses with
      evt.sticky := mset false (count1 s Reg.evtPulses).evt.sticky src true,
      evt.pulsedAt := mput (count1 s Reg.evtPulses).evt.pulsedAt src (count1 s Reg.evtPulses).time } (vectorsOf
      { count1 s Reg.evtPulses with
      evt.sticky := mset false (count1 s Reg.evtPulses).evt.sticky src true,
      evt.pulsedAt := mput (count1 s Reg.evtPulses).evt.pulsedAt src (count1 s Reg.evtPulses).time } src)) :=
    ((noted_count1 ks s _ (.inr (by decide))).trans
      (noted_evt ks _ _ (count1 s Reg.evtPulses).obs (count1 s Reg.evtPulses).sent)).trans (noted_riseMessages ks s _ _)
  exact noted_ensIf _ _ _ (noted_ite _ (h.trans (noted_fwEnqueue ks _ src)) h)

theorem noted_ensignDropped (ks : List Nat) (s : State) : Noted ks s (ensignDropped s) := by
  simp only [ensignDropped]
  split
  · exact Noted.refl ks s
  · split
    · exact (noted_setReg ks s _ _ (.inr (by decide))).trans (noted_pulseBare ks _ _)
    · exact noted_setReg ks s _ _ (.inr (by decide))

/-- A record for Ensign touches the side alone. -/
theorem noted_ensRecord (ks : List Nat) (s : State) (n : Nat) (b : List Byte) : Noted ks s (ensRecord s n b) := by
  simp only [ensRecord]
  split
  · exact (noted_ensPut ks s n b).trans (noted_ensignDropped ks _)
  · exact noted_ensPut ks s n b

theorem noted_pulseOne (ks : List Nat) (s : State) (src : Nat) : Noted ks s (pulseOne s src) := by
  simp only [pulseOne]
  split
  · exact (noted_pulseBare ks s src).trans (noted_ensignDropped ks _)
  · exact noted_pulseBare ks s src

/-- A pulse of a source touches the side alone (R380, R383). -/
theorem noted_pulse (ks : List Nat) (s : State) (src : Nat) : Noted ks s (pulse s src) := by
  simp only [pulse]
  split
  · exact (noted_pulseOne ks s src).trans (noted_pulseOne ks _ _)
  · exact noted_pulseOne ks s src

theorem noted_pulseCause (ks : List Nat) (s : State) (c : CauseReg) (b : Nat) : Noted ks s (pulseCause s c b) := by
  simp only [pulseCause]
  split
  · exact noted_pulse ks s _
  · exact Noted.refl ks s

/-- Raising a cause touches its cause register and the side (R380). -/
theorem noted_raise (ks : List Nat) (s : State) (c : CauseReg) (b : Nat) (hk : c.key ∈ ks ∨ sideEntry c.key = true) :
    Noted ks s (raise s c b) := by
  simp only [raise]
  split
  · exact Noted.refl ks s
  · split
    · exact (noted_setReg ks s _ _ hk).trans (noted_pulseCause ks _ _ _)
    · exact noted_setReg ks s _ _ hk

theorem side_perfCounter (n : Nat) : sideEntry (Reg.perfCounter n) = true := by
  simp only [Reg.perfCounter, keyIf, key]
  split
  · rename_i h
    simp only [decide_eq_true_eq] at h
    have h1 : 0x510000 ≤ (0x5100 + n / 256) * 256 + n % 256 := by omega
    have h2 : (0x5100 + n / 256) * 256 + n % 256 < 0x511000 := by omega
    simp [sideEntry, h1, h2]
  · rfl

theorem noted_perfCarry (ks : List Nat) : ∀ (f : Nat) (s : State) (n : Nat), Noted ks s (perfCarry f s n)
  | 0, s, _ => Noted.refl ks s
  | f + 1, s, n => by
    simp only [perfCarry]
    split
    · have h := noted_setReg ks s (Reg.perfCounter n) ((reg s (Reg.perfCounter n) + 1) % 2 ^ 32) (.inr (side_perfCounter n))
      split
      · exact h
      · split
        · exact h.trans (noted_perfCarry ks f _ _)
        · exact (h.trans (noted_evt ks _ _ _ _)).trans (noted_raise ks _ .obs 2 (.inr (by decide)))
    · exact Noted.refl ks s

theorem noted_perfAdd (ks : List Nat) (s : State) (n a : Nat) : Noted ks s (perfAdd s n a) := by
  have h := noted_setReg ks s (Reg.perfCounter n) ((reg s (Reg.perfCounter n) + a) % 2 ^ 32) (.inr (side_perfCounter n))
  simp only [perfAdd]
  split
  · exact h
  · split
    · exact h.trans (noted_perfCarry ks _ _ _)
    · exact (h.trans (noted_evt ks _ _ _ _)).trans (noted_raise ks _ .obs 2 (.inr (by decide)))

/-- An event that reaches the performance counters touches the side alone (R363, R364). -/
theorem noted_perfEvent (ks : List Nat) (s : State) (code inst n : Nat) : Noted ks s (perfEvent s code inst n) := by
  refine noted_foldl ks _ (fun s x => ?_) _ s
  split
  · split
    · exact noted_perfAdd ks s _ _
    · split
      · exact noted_perfAdd ks s _ _
      · exact Noted.refl ks s
  · exact Noted.refl ks s

/-- Nanoseconds at a condition touch the side alone (R364). -/
theorem noted_perfHeld (ks : List Nat) (s : State) (code inst n : Nat) : Noted ks s (perfHeld s code inst n) := by
  exact noted_foldl ks _ (fun s x => noted_ite _ (noted_perfAdd ks s _ _) (Noted.refl ks s)) _ s

/-- A postcard touches the side alone (R375). -/
theorem noted_postcard (ks : List Nat) (s : State) (r : Nat) (c : Card) : Noted ks s (postcard s r c) := by
  simp only [postcard, postcardRefill]
  split
  · exact noted_ite _ ((noted_evt ks s s.evt _ s.sent).trans (noted_ensRecord ks _ _ _))
      ((noted_evt ks s s.evt _ s.sent).trans (noted_count1 ks _ _ (.inr (by decide))))
  · exact Noted.refl ks s

/-- What the parts of the state outside the side are after a `Noted` change. -/
theorem Noted.frame {ks : List Nat} {s t : State} (h : Noted ks s t) :
    t.blocks = s.blocks ∧ t.pending = s.pending ∧ t.time = s.time ∧ t.timeOffset = s.timeOffset ∧ t.led = s.led ∧ t.pkts = s.pkts ∧
    t.outs = s.outs ∧ t.ports = s.ports ∧ t.lanes = s.lanes ∧ t.lmacs = s.lmacs ∧ t.mem = s.mem ∧ t.qm = s.qm ∧ t.pwr = s.pwr ∧
    t.host = s.host ∧ t.fl = s.fl ∧ t.ft = s.ft ∧ t.hbm = s.hbm ∧ t.integ = s.integ ∧ t.ase = s.ase ∧ t.dict = s.dict ∧
    t.cls = s.cls ∧ t.lkp = s.lkp ∧ t.mtr = s.mtr ∧ t.fw = s.fw ∧ t.clk = s.clk ∧ t.io = s.io := by
  rw [h.1]
  simp

end Sys2Proof
end

