-- ==== Sys2Proof/WellFormed.lean ====
section
/-! DEFINITION. Well-formed commands: every operand lies in the range the spec gives its kind (port instances, lanes, bundles,
queues, entries, functions). `exec` is total on all commands; these are the ones that name something of the block. -/

namespace Sys2Proof

/-- A VF is numbered 1 to 63 and a session by 32 bits (R393, R418). -/
def Client.wf : Client → Bool
  | .pf => true
  | .vf v => decide (1 ≤ v) && decide (v ≤ 63)
  | .session i => decide (i < 2 ^ 32)
  | .firmware => true

/-- A turn of a job. -/
def JobOp.wf : JobOp → Bool
  | .start c => c.wf
  | .step => true

/-- How a message arrives: a function of the device, an out-of-band port, a bundle (R422). -/
def Via.wf : Via → Bool
  | .mailbox fn => decide (fn ≤ 63)
  | .udp oob dst dport _ _ _ => decide (oob < 2) && (dst.length == 4 || dst.length == 16) && decide (dport < 2 ^ 16)
  | .channel b => decide (b < 8)

/-- A write's form: a BAR0 access of 4 or 8 bytes within 128 MiB, or a value for an entry (R402). -/
def WriteForm.wf : WriteForm → Bool
  | .map fn off b => decide (fn ≤ 63) && decide (off + b.length ≤ 2 ^ 27) && (b.length == 4 || b.length == 8)
  | .entry c k v => c.wf && decide (k < 2 ^ 24) && decide (v < 2 ^ 64)

/-- Well-formed commands. -/
def Instr.wf : Instr → Bool
  | .registerWrite how => how.wf
  | .crossing island occupied _ => decide (island < 121) && decide (occupied < 17)
  | .governorInterval island _ _ => decide (island < 121)
  | .islandModeWrite client island _ value => client.wf && decide (island < 121) && decide (value < 2 ^ 64)
  | .pinAllScalableWrite client value => client.wf && decide (value < 2 ^ 64)
  | .timeConfigWrite value => decide (value < 2 ^ 64)
  | .portModeWrite client port value => client.wf && decide (port < 1024) && decide (value < 2 ^ 64)
  | .portFecWrite client port value => client.wf && decide (port < 1024) && decide (value < 2 ^ 64)
  | .portAdminUpWrite client port value => client.wf && decide (port < 1024) && decide (value < 2 ^ 64)
  | .linkUp port => decide (port < 1024)
  | .linkDown port => decide (port < 1024)
  | .lineLaneSignalChange lane _ _ _ _ _ => decide (lane < 256)
  | .rxFrameStart port _ frac _ => decide (port < 1024) && decide (frac < 2 ^ 16)
  | .rxFrameEnd port _ => decide (port < 1024)
  | .pauseTimeExpiry port state => decide (port < 1024) && decide (state < 9)
  | .lmacDrainResume lmac => decide (lmac < 32)
  | .pauseResend port state => decide (port < 1024) && decide (state < 9)
  | .eggTimerFire port state => decide (port < 1024) && decide (state < 9)
  | .eggHoldEnd port state => decide (port < 1024) && decide (state < 9)
  | .txFrameStart port frac => decide (port < 1024) && decide (frac < 2 ^ 16)
  | .txFrameEnd port => decide (port < 1024)
  | .portTsFifoRead client port => client.wf && decide (port < 1024)
  | .portStatsReadClear client port counter => client.wf && decide (port < 1024) && decide (counter < 16)
  | .flexeCalSwitch client port => client.wf && decide (port < 1024)
  | .flexeCalSwitchAck port => decide (port < 1024)
  | .flexeCalSwitchTimeout port => decide (port < 1024)
  | .lanePrbsModeWrite client lane value => client.wf && decide (lane < 256) && decide (value < 2 ^ 64)
  | .prbsLockLost fabric lane _ => decide (lane < if fabric then 320 else 256)
  | .lanePrbsErrorsRead client lane _ => client.wf && decide (lane < 256)
  | .laneLoopbackWrite client lane value => client.wf && decide (lane < 256) && decide (value < 2 ^ 64)
  | .ingressPass _ => true
  | .counterUpdatePost counter => decide (counter < 1048576)
  | .egressRun _ => true
  | .clsEpochSwap client => client.wf
  | .epochRetired => true
  | .clsStagePlanWrite client slot _ => client.wf && decide (slot < 2)
  | .clsDirectTableWrite client slot _ => client.wf && decide (slot < 2)
  | .clsRewriteProfilesWrite client slot _ => client.wf && decide (slot < 2)
  | .clsCompatBucketsWrite client value => client.wf && decide (value < 2 ^ 64)
  | .learnNoticesRead client => client.wf
  | .lkpLoadWrite client _ => client.wf
  | .lkpApply turn => turn.wf
  | .routeAdd => true
  | .routeDelete => true
  | .routeReplace => true
  | .exactAdd => true
  | .exactDelete => true
  | .exactReplace => true
  | .adjacencyWrite => true
  | .groupWrite => true
  | .memberWrite => true
  | .actionProfileWrite => true
  | .compatibilitySlotWrite => true
  | .lpmSubtreeSwitch stripe => decide (stripe < 8)
  | .lpmSubtreeFree stripe => decide (stripe < 8)
  | .lkpApplyEnd => true
  | .lkpPivotMove turn => turn.wf
  | .pivotOldCopiesRemove => true
  | .lkpDumpRead client => client.wf
  | .aseLoadWrite client _ => client.wf
  | .aseApply turn => turn.wf
  | .aseInsert => true
  | .aseDelete => true
  | .aseReplace => true
  | .aseMembership => true
  | .aseRegionCreate => true
  | .aseRegionDelete => true
  | .aseActionProfileWrite => true
  | .aseCopyStep bank => decide (bank < 8)
  | .aseWriteStep bank => decide (bank < 8)
  | .aseSweepStart bank => decide (bank < 8)
  | .aseScrubRead bank _ => decide (bank < 8)
  | .aseTempRead bank reading => decide (bank < 8) && decide (reading < 2 ^ 32)
  | .aseUpdateBudgetWrite client value => client.wf && decide (value < 2 ^ 64)
  | .aseScrubBudgetWrite client value => client.wf && decide (value < 2 ^ 64)
  | .aseDumpRead client => client.wf
  | .meterCorrection meter => decide (meter < 2 ^ 18)
  | .mtrConfigWrite client _ => client.wf
  | .mtrLoadWrite client _ => client.wf
  | .mtrApply turn => turn.wf
  | .ctrPktsRead client => client.wf
  | .ctrClear client value => client.wf && decide (value < 2 ^ 64)
  | .ctrSweep turn => turn.wf
  | .enqueueArrival _ => true
  | .skimmerRebuildDone pool => decide (pool < 32)
  | .lastByteStored _ => true
  | .dequeue kind index => decide (kind < 6) && decide (index < 524288)
  | .unspillPrefetch queue => decide (queue < 2 ^ 19)
  | .poolDescWrite client pool value => client.wf && decide (pool < 32) && decide (value < 2 ^ 64)
  | .admProfileWrite client profile _ => client.wf && decide (profile < 256)
  | .poolSizeWrite client pool _ value => client.wf && decide (pool < 32) && decide (value < 2 ^ 64)
  | .fcThresholdWrite client profile _ value => client.wf && decide (profile < 16) && decide (value < 2 ^ 64)
  | .poolWatermarkRead client pool => client.wf && decide (pool < 32)
  | .hbmRequest stack port page burst count _ => decide (stack < 4) && decide (port < 5) && decide (page < 50331648) && decide (burst < 64) && decide (count < 65)
  | .hbmRequestComplete stack channel => decide (stack < 4) && decide (channel < 64)
  | .refreshDue stack channel => decide (stack < 4) && decide (channel < 64)
  | .refreshPayback stack channel => decide (stack < 4) && decide (channel < 64)
  | .hbmTempRead stack readout => decide (stack < 4) && decide (readout < 2 ^ 32)
  | .hbmRateWindow => true
  | .hbmRateChange => true
  | .hbmRatePinWrite client value => client.wf && decide (value < 2 ^ 64)
  | .hbmIdleEnter => true
  | .hbmCapture turn pass => turn.wf && decide (pass < 2 ^ 36)
  | .hbmInit stack turn _ => decide (stack < 4) && turn.wf
  | .hbmOffline client stack => client.wf && decide (stack < 4)
  | .hbmDrained stack => decide (stack < 4)
  | .hbmPatrolScrub stack _ => decide (stack < 4)
  | .hbmScrubBatch stack => decide (stack < 4)
  | .hbmRefreshOwedMaxRead client stack => client.wf && decide (stack < 4)
  | .shaperRefill kind index => decide (kind < 6) && decide (index < 524288)
  | .shaperCorrection _ => true
  | .mcFanout qms => decide (qms < 16)
  | .voqIdleRelease queue => decide (queue < 2 ^ 19)
  | .qmLoadWrite client _ => client.wf
  | .qmApply turn => turn.wf
  | .nodeWrite => true
  | .queueWrite => true
  | .classMapWrite => true
  | .mcGroupWrite => true
  | .targetWrite => true
  | .schConfigWrite client _ => client.wf
  | .fecCodewordDecode lane outcome => decide (lane < 320) && decide (outcome < 3)
  | .buntingFrameReceive lane offset _ _ => decide (lane < 320) && decide (offset < 2 ^ 14)
  | .buntingFrameSend bundle _ => decide (bundle < 8)
  | .containerFrameReceive bundle => decide (bundle < 8)
  | .losClear lane => decide (lane < 320)
  | .pmSecond => true
  | .laneSetPropose bundle => decide (bundle < 8)
  | .laneSetAccept bundle => decide (bundle < 8)
  | .laneSetReject bundle => decide (bundle < 8)
  | .laneSetCommit bundle => decide (bundle < 8)
  | .laneSetRequest bundle => decide (bundle < 8)
  | .laneSetEffect bundle _ => decide (bundle < 8)
  | .laneSetTimeout bundle _ => decide (bundle < 8)
  | .laneQuiet bundle => decide (bundle < 8)
  | .laneWake lane => decide (lane < 320)
  | .laneAutoRemove lane => decide (lane < 320)
  | .shedGovernor bundle => decide (bundle < 8)
  | .fbLaneSetChange client bundle => client.wf && decide (bundle < 8)
  | .mgmtChannelPacket bundle => decide (bundle < 8)
  | .fabricPrbsLoopbackWrite client lane _ value => client.wf && decide (lane < 320) && decide (value < 2 ^ 64)
  | .flPrbsErrorsRead client lane _ => client.wf && decide (lane < 320)
  | .idlePennantReceive bundle => decide (bundle < 8)
  | .dataPennantReceive bundle => decide (bundle < 8)
  | .multicastPennantReceive bundle => decide (bundle < 8)
  | .beaconReceive bundle => decide (bundle < 8)
  | .sequenceStartReceive bundle => decide (bundle < 8)
  | .creditRequestPennantReceive bundle => decide (bundle < 8)
  | .creditGrantPennantReceive bundle => decide (bundle < 8)
  | .creditRequestEntry => true
  | .creditGrantEntry => true
  | .creditReturnEntry => true
  | .creditBusyEntry => true
  | .probeEntry => true
  | .probeAnswerEntry => true
  | .beaconSend => true
  | .beaconMissCheck => true
  | .probeSend dest => decide (dest < 2 ^ 20)
  | .probeUnanswered dest => decide (dest < 2 ^ 20)
  | .creditPennantSend dest => decide (dest < 2 ^ 20)
  | .grantIssue port => decide (port < 1024)
  | .creditReturnTimer queue => decide (queue < 2 ^ 19)
  | .creditRequestTimeout queue => decide (queue < 2 ^ 19)
  | .pennantSend queue => decide (queue < 2 ^ 19)
  | .reorderTimeout src => decide (src < 2 ^ 20)
  | .reassemblyTimeout src _ => decide (src < 2 ^ 20)
  | .ftDeviceIdWrite client value => client.wf && decide (value < 2 ^ 64)
  | .ledgerEpochBoundary => true
  | .perfSelectWrite client counter value => client.wf && decide (counter < 4096) && decide (value < 2 ^ 64)
  | .perfCounterWrite client counter value => client.wf && decide (counter < 4096) && decide (value < 2 ^ 64)
  | .perfCounterWrap counter => decide (counter < 4096)
  | .bwWindowEnd port => decide (port < 1024)
  | .bwWindowKWrite client port value => client.wf && decide (port < 1024) && decide (value < 2 ^ 64)
  | .qwmValueRead client => client.wf
  | .histSample monitor => decide (monitor < 64)
  | .histClear client monitor value => client.wf && decide (monitor < 64) && decide (value < 2 ^ 64)
  | .sojClear client port value => client.wf && decide (port < 1024) && decide (value < 2 ^ 64)
  | .ensignSnapshot => true
  | .ensignMessageSend => true
  | .ensignTemplateSend => true
  | .ensEnableWrite client value => client.wf && decide (value < 2 ^ 64)
  | .mirrorSessionWrite client session _ => client.wf && decide (session < 16)
  | .fwEventTake => true
  | .causeEnableWrite client entry value => client.wf && decide (entry < 2 ^ 24) && decide (value < 2 ^ 64)
  | .causeClear client entry value => client.wf && decide (entry < 2 ^ 24) && decide (value < 2 ^ 64)
  | .evtStickyClear client source value => client.wf && decide (source < 1024) && decide (value < 2 ^ 64)
  | .evtGroupStickyClear client group value => client.wf && decide (group < 64) && decide (value < 2 ^ 64)
  | .evtMaskWrite client source value => client.wf && decide (source < 1024) && decide (value < 2 ^ 64)
  | .evtGroupMaskWrite client group value => client.wf && decide (group < 64) && decide (value < 2 ^ 64)
  | .evtRouteWrite client source value => client.wf && decide (source < 1024) && decide (value < 2 ^ 64)
  | .evtTestRaise client value => client.wf && decide (value < 2 ^ 64)
  | .evtFwQueueHighRead client => client.wf
  | .odAccessStatusRead fn width => decide (fn < 64) && decide (width < 9)
  | .mbDoorbell client value => client.wf && decide (value < 2 ^ 64)
  | .synsaRead via => via.wf
  | .synsaWrite via => via.wf
  | .domainBegin via => via.wf
  | .domainSegment via => via.wf
  | .domainEnd via => via.wf
  | .jobStart via => via.wf
  | .jobStatus via => via.wf
  | .synsaEventSend session => decide (session < 2 ^ 32)
  | .discoverProbe via => via.wf
  | .sessionOpen via => via.wf
  | .sessionClose via => via.wf
  | .announceSend => true
  | .announceReceive bundle => decide (bundle < 8)
  | .synsaRelay via => via.wf
  | .relayResponse bundle => decide (bundle < 8)
  | .relayEntryExpire => true
  | .sessionIdleTimeout session => decide (session < 2 ^ 32)
  | .domainIdleTimeout handle => decide (handle < 2 ^ 16)
  | .odSave turn upTo result => turn.wf && decide (upTo < 2 ^ 24) && decide (result < 3)
  | .odSettingsErase turn => turn.wf
  | .countedWrite client entry value => client.wf && decide (entry < 2 ^ 24) && decide (value < 2 ^ 64)
  | .countedWriteComplete entry => decide (entry < 2 ^ 24)
  | .synDeviceKeyWrite client _ => client.wf
  | .puntDma _ _ _ => true
  | .puntDoorbell fn ring value => decide (fn < 64) && decide (ring < 8) && decide (value < 2 ^ 64)
  | .injectDoorbell fn ring value => decide (fn < 64) && decide (ring < 8) && decide (value < 2 ^ 64)
  | .injectFetch fn ring _ => decide (fn < 64) && decide (ring < 8)
  | .injectBuild _ => true
  | .hostReadCompletion tag _ _ => decide (tag < 768)
  | .ringInterrupt fn _ ring => decide (fn < 64) && decide (ring < 8)
  | .ringConfigWrite client entry value => client.wf && decide (entry < 2 ^ 24) && decide (value < 2 ^ 64)
  | .hostPuntBindWrite client value => client.wf && decide (value < 2 ^ 64)
  | .vfOdGrantWrite client vf _ => client.wf && decide (1 ≤ vf) && decide (vf ≤ 63)
  | .vfFlr vf _ => decide (1 ≤ vf) && decide (vf ≤ 63)
  | .vfReset vf turn => decide (1 ≤ vf) && decide (vf ≤ 63) && turn.wf
  | .vfEnableClear => true
  | .pfFlr => true
  | .pcieHotReset => true
  | .pcieLinkChange _ rate width => decide (rate < 7) && decide (width < 9)
  | .counterExport fn _ => decide (fn < 64)
  | .fwStagedWrite client _ => client.wf
  | .fwStagedVerify => true
  | .fwInstall turn _ => turn.wf
  | .loaderBoot _ _ => true
  | .recoverySeek bundle _ => decide (bundle < 8)
  | .relayPoll bundle valid _ => decide (bundle < 8) && decide (valid < 4)
  | .imageFetchComplete _ => true
  | .fwRollbackFloorWrite client value => client.wf && decide (value < 2 ^ 64)
  | .mgmtRestartLFall => true
  | .mgmtRestartLRise => true
  | .fwRestart client value => client.wf && decide (value < 2 ^ 64)
  | .fwWatchdogExpiry => true
  | .firmwareStart _ => true
  | .powerOnReset _ straps => decide (straps < 2 ^ 32)
  | .pinReset straps => decide (straps < 2 ^ 32)
  | .fuseSenseComplete => true
  | .loaderSectorCheck _ repaired _ => decide (repaired < 2 ^ 16)
  | .settingsReload => true
  | .avsEvaluate rail _ => decide (rail < 2)
  | .retentionEnter turn => turn.wf
  | .retentionExit turn => turn.wf
  | .datapathReset turn => turn.wf
  | .islandReset turn => turn.wf
  | .tempRead _ _ => true
  | .powerEstimateUpdate => true
  | .refclkLoss clock => decide (clock < 14)
  | .patrolScrubRead cls unit index found _ => decide (cls < 12) && decide (unit < 256) && decide (index < 2 ^ 40) && decide (found < 4)
  | .patrolScrubSweepStart cls => decide (cls < 12)
  | .patrolScrubBatch unit _ => decide (unit < 256)
  | .mgmtRamError index flips => decide (index < 2 ^ 40) && decide (flips < 4)
  | .intInjectWrite client value => client.wf && decide (value < 2 ^ 64)
  | .injectFire _ _ _ => true
  | .ppsInEdge off => decide (off < 5)
  | .ppsOutPulse => true
  | .gpioWrite client _ value => client.wf && decide (value < 2 ^ 64)
  | .ioI2cXfer master _ => decide (master < 2)
  | .ioMdioXfer master _ => decide (master < 2)
  | .jtagExtest => true
  | .jtagExtestPulse => true
  | .jtagExtestTrain => true
  | .jtagClamp => true
  | .jtagHighz => true
  | .jtagBypass straps => decide (straps < 2 ^ 32)
  | .jtagIdcode straps => decide (straps < 2 ^ 32)
  | .jtagSamplePreload straps => decide (straps < 2 ^ 32)
  | .jtagTestExit straps => decide (straps < 2 ^ 32)
  | .powerLoss => true
  | .timePllLock => true
  | .fabricLaneSignalChange lane _ => decide (lane < 320)
  | .prbsCheckerLock fabric lane => decide (lane < if fabric then 320 else 256)
  | .flexeGroupFault port => decide (port < 1024)
  | .msixControlWrite fn field vector _ => decide (fn < 64) && decide (field < 3) && decide (vector < 256)
  | .vfEnableSet count => decide (count ≤ 63)
  | .hostCompletionTimeout tag => decide (tag < 768)
  | .creditBusyHoldoffEnd queue => decide (queue < 2 ^ 19)

end Sys2Proof
end

