-- ==== Sys2Proof/Tests/Slice0.lean ====
section
/-! SUPPORT. The package's own tests: ill-formed commands are refused by `Instr.wf`, and for the clauses of the statements a state and
operands that meet their hypotheses together, with what the command does there. Expected results are worked out from the rules cited. -/

namespace Sys2Proof.Tests

set_option Elab.async false

open Machine

/-- The command answers a next state with a property. -/
abbrev holds (c : Instr) (s : State) (p : State → Prop) [∀ t, Decidable (p t)] : Prop :=
  (match exec c s with
    | .next t => decide (p t)
    | _ => false) = true

/-- The command leaves exactly this state. -/
abbrev leaves (c : Instr) (s t : State) : Prop :=
  (match exec c s with
    | .next u => decide (u = t)
    | _ => false) = true

/-- A start of a job entry passes its checks. -/
abbrev may (s : State) (c : Client) (k : Nat) : Prop :=
  (match jobStart s c k .done with
    | .done _ => true
    | .fail _ => false) = true

/-- Entries with values. -/
def withRegs (s : State) (l : List (Nat × Nat)) : State := l.foldl (fun s x => setReg s x.1 x.2) s

/-- A block that has started up, with nothing configured. -/
def up : State := {
  od := [(Reg.pwrStartupPhase, 4)]
  fw := { running := true, started := true, loader := true }
  pwr := { sensed := true } }

/-- The same with entries written. -/
def upWith (l : List (Nat × Nat)) : State := withRegs up l

theorem holds_sound {c : Instr} {s : State} {p : State → Prop} [∀ t, Decidable (p t)] (h : holds c s p) :
    ∃ t, Answers c s t ∧ p t := by
  unfold holds at h
  unfold Answers
  split at h
  · rename_i t e
    exact ⟨t, e, by simpa using h⟩
  · simp at h

theorem leaves_sound {c : Instr} {s t : State} (h : leaves c s t) : Answers c s t := by
  unfold leaves at h
  unfold Answers
  split at h
  · rename_i u e
    rw [e]
    exact congrArg _ (by simpa using h)
  · simp at h

theorem may_sound {s : State} {c : Client} {k : Nat} (h : may s c k) : MayStart s c k := by
  unfold may at h
  unfold MayStart
  split at h
  · rename_i u e
    suffices u = s by rw [e, this]
    unfold jobStart at e
    split at e
    · cases e
    · repeat' (split at e <;> first | (cases e; done) | skip)
      cases e
      rfl
  · simp at h

/-- Port 0, up at 25 Gb/s on lane 0. -/
def port0 : State := { upWith [(Reg.portMode 0, 2), (Reg.portAdminUp 0, 1), (Reg.portLinkUp 0, 1), (Reg.portRole 0, 1), (Reg.laneSignal 0, 1),
    (Reg.portCauseEnable 0, 0xFF)] with
  ports := [(0, { mode := 2, blockLock := true })]
  lanes := [(0, { fecLock := true })] }

/-- The first bytes of a frame. -/
def window0 : List Byte := List.replicate 12 0xAA ++ [8, 0] ++ List.replicate 46 0x55

/-- A frame of 64 bytes with its FCS. -/
def frame64 : List Byte := withFcs window0

/-- A reference to a packet, with its descriptor and charge. -/
def refTo (i desc charge : Nat) : Ref := {
  pkt := i, kind := .main, charge := charge, enqAt := 0, cut := false, marked := false, vlan := none, cls := 0, desc := desc,
  origin := .line 0, src := 0 }

/-- An Out of a root. -/
def outAt (r : Ref) (root queue : Nat) : Out := { ref := r, queue := queue, root := root, lf := 0, lfKnown := true, path := [] }

/-! ### The machine -/

theorem test_step_runs_front : (match step { up with pending := [.jtagTestExit 0, .announceSend] } with
    | .next t => decide (t = { up with pending := [.announceSend] })
    | _ => false) = true := by decide +kernel

theorem test_idle_step : (match step up with
    | .next t => decide (t = { up with time := 1 })
    | _ => false) = true := by decide +kernel

theorem test_power_on_needs_its_rails : (match exec (.powerOnReset false 0) up with
    | .fault f => decide (f = .outsideRatings)
    | _ => false) = true := by decide +kernel

/-! ### Clock islands (ch. 2) -/

theorem test_islandMode : Permitted up .pf (Reg.islandMode 40) 1 ∧
    leaves (.islandModeWrite .pf 40 false 1) up (emit (setReg up (Reg.islandMode 40) 1) (okTo .pf)) := by decide +kernel

theorem test_islandFloor : Permitted up .pf (Reg.islandFloorStep 105) 16 ∧
    leaves (.islandModeWrite .pf 105 true 16) up (emit (setReg up (Reg.islandFloorStep 105) 16) (okTo .pf)) := by decide +kernel

theorem test_pinAll : OdTidy up ∧ Permitted up .pf Reg.pinAllScalable 1 ∧
    holds (.pinAllScalableWrite .pf 1) up (fun t => reg t (Reg.islandMode 32) = 1 ∧ reg t (Reg.islandMode 105) = 1 ∧
      reg t (Reg.islandMode 31) = 0) := by decide +kernel

theorem test_timeConfig : leaves (.timeConfigWrite 7) up { up with clk.timeDue := [(3, 7)] } := by decide +kernel

/-- A stopped island. -/
def stopped40 : State := setIsl up 40 { stopped := true, floor := 6 }

theorem test_crossing_wakes : OdTidy stopped40 ∧ reg stopped40 Reg.pwrState ≠ 2 ∧ stopped40.pwr.islReset ≠ some 40 ∧
    holds (.crossing 40 7 true) stopped40 (fun t => (isl t 40).stopped = false ∧ (isl t 40).step = 6 ∧
      reg t (Reg.islandWakeCount 40) = 1 ∧ reg t Reg.clockFaultIsland = 40) := by decide +kernel

theorem test_crossing_half_full : holds (.crossing 40 8 false) stopped40 (fun t => (isl t 40).step = 16) := by decide +kernel

/-- A running island at step 8. -/
def running40 : State := setIsl (upWith [(Reg.islandFloorStep 40, 4)]) 40 { stopped := false, step := 8 }

theorem test_governor_up : 40 ∈ scalable ∧ reg running40 Reg.pwrState = 0 ∧ timeNs running40 % 1000 = 0 ∧
    running40.pwr.islReset ≠ some 40 ∧ 4 ≤ reg running40 (Reg.islandFloorStep 40) ∧ flag running40 (Reg.islandMode 40) = false ∧
    holds (.governorInterval 40 1000 1000) running40 (fun t => (isl t 40).step = 11) := by decide +kernel

theorem test_governor_down : holds (.governorInterval 40 100 1000) running40 (fun t => (isl t 40).step = 7) := by decide +kernel

/-- The island is pinned. -/
def pinned40 : State := upWith [(Reg.islandMode 40, 1), (Reg.islandFloorStep 40, 4)]

theorem test_governor_pinned : flag pinned40 (Reg.islandMode 40) = true ∧ 4 ≤ reg pinned40 (Reg.islandFloorStep 40) ∧
    4 ≤ (isl pinned40 40).step ∧ (isl pinned40 40).step ≤ 16 ∧
    holds (.governorInterval 40 0 1000) pinned40 (fun t => (isl t 40).step = 16 ∧ (isl t 40).stopped = false) := by decide +kernel

/-! ### Line ports (ch. 3) -/

/-- The same administratively down. -/
def port0Down : State := setReg (setReg port0 (Reg.portAdminUp 0) 0) (Reg.portLinkUp 0) 0

theorem test_portMode_held : OdTidy port0 ∧ Permitted port0 .pf (Reg.portMode 0) 4 ∧
    fecPermitted 4 (reg port0 (Reg.portFec 0)) = true ∧ firstLane 0 % modeLanes 4 = 0 ∧
    (∀ q ∈ nativeSlots (lmacOf 0), q ≠ 0 → ∀ l ∈ lanesInUse port0 q, l ∉ laneRange 0 4) ∧ reg port0 (Reg.portAdminUp 0) ≠ 0 ∧
    leaves (.portModeWrite .pf 0 4) port0 (emit (setReg port0 (Reg.portMode 0) 4) (okTo .pf)) := by decide +kernel

theorem test_portMode_applied : Permitted port0Down .pf (Reg.portMode 0) 0x10 ∧ reg port0Down (Reg.portAdminUp 0) = 0 ∧
    reg port0Down (Reg.portLinkUp 0) = 0 ∧ bits (reg port0Down (Reg.portFlexeGroup 0)) 31 30 ≠ 1 ∧
    leaves (.portModeWrite .pf 0 0x10) port0Down (emit (setReg (setPort (setReg port0Down (Reg.portMode 0) 0x10) 0 {
      mode := 0x10, fec := 0, blockLock := false }) (Reg.portRole 0) 1) (okTo .pf)) := by decide +kernel

/-- Its FEC is RS(544,514). -/
def port0Fec : State := setReg port0 (Reg.portFec 0) 3

theorem test_portMode_refused : Permitted port0Fec .pf (Reg.portMode 0) 1 ∧ fecPermitted 1 (reg port0Fec (Reg.portFec 0)) = false ∧
    leaves (.portModeWrite .pf 0 1) port0Fec
      (emit (noteFailure port0Fec .pf (Reg.portMode 0) .refused) (.status 0 1 [])) := by decide +kernel

theorem test_portFec : Permitted port0 .pf (Reg.portFec 0) 2 ∧ fecPermitted (reg port0 (Reg.portMode 0)) 2 = true ∧
    leaves (.portFecWrite .pf 0 2) port0 (emit (setReg port0 (Reg.portFec 0) 2) (okTo .pf)) := by decide +kernel

theorem test_portFec_refused : Permitted port0 .pf (Reg.portFec 0) 3 ∧ fecPermitted (reg port0 (Reg.portMode 0)) 3 = false ∧
    leaves (.portFecWrite .pf 0 3) port0 (emit (noteFailure port0 .pf (Reg.portFec 0) .refused) (.status 0 1 [])) := by
  decide +kernel

/-- A mode written while the port was up. -/
def port0Held : State := setReg port0 (Reg.portMode 0) 4

theorem test_portAdminUp_down : Permitted port0Held .pf (Reg.portAdminUp 0) 0 ∧
    bits (reg port0Held (Reg.portFlexeGroup 0)) 31 30 ≠ 1 ∧ holds (.portAdminUpWrite .pf 0 0) port0Held (fun t =>
      reg t (Reg.portAdminUp 0) = 0 ∧ reg t (Reg.portLinkUp 0) = 0 ∧ (port t 0).mode = 4 ∧ (port t 0).condSince = none) := by
  decide +kernel

theorem test_portAdminUp_up : Permitted port0Down .pf (Reg.portAdminUp 0) 1 ∧
    linkCond (setReg (setPort port0Down 0 { port port0Down 0 with parked := false }) (Reg.portAdminUp 0) 1) 0 = true ∧
    holds (.portAdminUpWrite .pf 0 1) port0Down (fun t => (port t 0).condSince = some 0 ∧ reg t (Reg.portLinkUp 0) = 0) := by
  decide +kernel

/-- Its conditions have held since TIME 0. -/
def port0Waits : State := { setPort (setReg port0 (Reg.portLinkUp 0) 0) 0 { port port0 0 with condSince := some 0 } with
  time := 2000000000 }

theorem test_linkUp : OdTidy port0Waits ∧ linkUp port0Waits 0 = false ∧ linkCond port0Waits 0 = true ∧
    0 + reg port0Waits (Reg.portLinkUpHoldMs 0) * 1000000 ≤ port0Waits.time ∧
    holds (.linkUp 0) port0Waits (fun t => reg t (Reg.portLinkUp 0) = 1 ∧ bit (reg t (Reg.portCause 0)) 1 = true ∧
      srcSticky t 128 = true) := by decide +kernel

theorem test_linkDown : linkUp port0 0 = true ∧ reg port0 (Reg.portRole 0) = 1 ∧ (port port0 0).rx = none ∧
    holds (.linkDown 0) port0 (fun t => reg t (Reg.portLinkUp 0) = 0 ∧ bit (reg t (Reg.portCause 0)) 0 = true ∧
      t.ports = mset {} (mset {} port0.ports 0 { mode := 2, blockLock := false }) 0 { mode := 2, blockLock := false }) := by
  decide +kernel

theorem test_laneSignal : laneOwner up 255 = none ∧ holds (.lineLaneSignalChange 255 true true false false false) up
    (fun t => reg t (Reg.laneSignal 255) = 1 ∧ (mget {} t.lanes 255).fecLock = true) := by decide +kernel

theorem test_rxStart : canReceive port0 0 = true ∧ port0.pwr.flushing = false ∧
    bufferTaken port0 (lmacOf 0) + maxFrame port0 0 ≤ 524288 ∧ earlyReason false [] window0 = 0 ∧
    HasCell port0 (rxPool port0 0) ∧ holds (.rxFrameStart 0 window0 0 false) port0 (fun t => t.led.aLine = 1 ∧ t.led.oRx = 1 ∧ t.nextPkt = 1 ∧
      ((port t 0).rx).map (·.admitted) = some true ∧ (pkt? t 0).map (·.win) = some window0 ∧
      (pkt? t 0).map (·.cells) = some [0] ∧ potRead t 0 60 = window0) := by decide +kernel

/-- Port 1 of the same LMAC holds the whole receive buffer. -/
def bufferFull : State := setPort port0 1 { mode := 2, rx := some {
  pkt := 9, admitted := true, reason := 0, maxFrame := 524288, filterOn := false, filter := [], win := [] } }

theorem test_rxStart_noRoom : canReceive bufferFull 0 = true ∧ 524288 < bufferTaken bufferFull (lmacOf 0) + maxFrame bufferFull 0 ∧
    holds (.rxFrameStart 0 window0 0 false) bufferFull (fun t => ((port t 0).rx).map (·.admitted) = some false ∧
      ((port t 0).rx).map (·.reason) = some 6 ∧ t.pkts = [] ∧ bit (reg t (Reg.portCause 0)) 6 = true) := by decide +kernel

/-- Its reception at port 0. -/
def rx64 : Rx := { pkt := 0, admitted := true, reason := 0, maxFrame := 1518, filterOn := false, filter := [], win := frame64 }

/-- Port 0 receives it as packet 0. -/
def receiving : State := setPkt (setPort { port0 with nextPkt := 1, led.oRx := 1 } 0 { port port0 0 with rx := some rx64 }) 0
  { origin := .line 0, stage := .held, win := window0, data := window0, maxFrame := 1518 }

theorem test_rxEnd : rx64.win = frame64.take rx64.win.length ∧ rx64.win.length = min 128 frame64.length ∧
    fcsGood frame64 = true ∧ 64 ≤ frame64.length ∧
    holds (.rxFrameEnd 0 frame64) receiving (fun t => (port t 0).rx = none ∧ (pkt? t 0).map (·.len) = some (some 60) ∧
      (pkt? t 0).map (·.data) = some window0 ∧ (pkt? t 0).map (·.bad) = some (some 0) ∧ reg t (key 0x2000 0x40) = 1) := by
  decide +kernel

/-- Packet 0 has crossed with 128 bytes in cell 0, and 296 bytes have come. -/
def growing : State := { setPkt port0 0 { origin := .line 0, stage := .window, data := List.replicate 296 0x5A, cells := [0] } with
  mem.usedCells := [(0, 1)] }

theorem test_landBytes : (let t := landBytes growing 0 128
    (pkt? t 0).map (·.cells) = some [0, 1] ∧ potRead t 250 10 = List.replicate 10 0x5A) := by decide +kernel

/-- The same, not admitted. -/
def notAdmitted : State := setPort port0 0 { port port0 0 with rx := some { rx64 with admitted := false, reason := 6 } }

theorem test_rxEnd_notAdmitted : holds (.rxFrameEnd 0 frame64) notAdmitted (fun t => (port t 0).rx = none ∧ t.pkts = [] ∧
    t.led = notAdmitted.led) := by decide +kernel

/-- A pause state of the link runs until TIME 5000. -/
def pausedPort : State := { setPort port0 0 { port port0 0 with pause := [(8, { ends := 5000, since := 0 })] } with time := 5000 }

theorem test_pauseTimeExpiry : leaves (.pauseTimeExpiry 0 8) pausedPort
    (setPort pausedPort 0 { port pausedPort 0 with pause := [] }) := by decide +kernel

/-- XOFF of priority 7 went out at TIME 0. -/
def xoffPort : State := { setPort port0 0 { port port0 0 with xoff := [(7, 0)] } with time := 1000000 }

theorem test_pauseResend : quantaNs xoffPort 0 (reg xoffPort (Reg.portPauseQuanta 0)) ≤ 2 * (xoffPort.time - 0) ∧
    linkUp xoffPort 0 = true ∧ holds (.pauseResend 0 7) xoffPort (fun t => mfind (port t 0).xoff 7 = some 1000000 ∧
      reg t (key 0x2000 0x4D) = 1) := by decide +kernel

/-- The egg timer of a state has run out. -/
def eggPort : State := { setPort (withRegs port0 [(Reg.portEggEnable 0, 1), (Reg.portEggTimeMs 0, 1)]) 0 { port port0 0 with
  pause := [(0, { ends := 2000001, since := 0 })] } with time := 2000000 }

theorem test_eggTimer : timeNs eggPort % 1000 = 0 ∧ flag eggPort (Reg.portEggEnable 0) = true ∧
    reg eggPort (Reg.portEggTimeMs 0) * 1000 ≤ ticksSince eggPort 0 ∧ holds (.eggTimerFire 0 0) eggPort (fun t =>
      mfind (port t 0).pause 0 = none ∧ mfind (port t 0).eggHold 0 = some 2000000 ∧ reg t (Reg.portEggState 0) = 1 ∧
      bit (reg t (Reg.portCause 0)) 2 = true ∧ reg t (key 0x2000 0x4F) = 1) := by decide +kernel

/-- A state held off by the egg timer since TIME 0. -/
def eggHeld : State := { setPort (withRegs port0 [(Reg.portEggHoldMs 0, 1), (Reg.portEggState 0, 1)]) 0 { port port0 0 with
  eggHold := [(0, 0)] } with time := 1000000 }

theorem test_eggHoldEnd : timeNs eggHeld % 1000 = 0 ∧ reg eggHeld (Reg.portEggHoldMs 0) * 1000 ≤ ticksSince eggHeld 0 ∧
    leaves (.eggHoldEnd 0 0) eggHeld (setReg (setPort eggHeld 0 { port eggHeld 0 with eggHold := [] }) (Reg.portEggState 0) 0) := by
  decide +kernel

theorem test_lmacDrain_empty : leaves (.lmacDrainResume 31) { up with lmacs := [(31, { held := [], paused := true })] }
    { up with lmacs := [] } := by decide +kernel

/-- Packet 0 waits in LMAC 0, and its pool has no headroom; or it has. -/
def drains (room : Nat) : State := { setPkt (upWith [(Reg.poolHeadroom (rxPool up 0), room)]) 0
  { origin := .line 0, stage := .held, win := window0, data := window0, maxFrame := 1518 } with
  nextPkt := 1, lmacs := [(0, { held := [0], paused := true })] }

theorem test_lmacDrain_noRoom : mayCross (drains 5) 0 1518 = false ∧ leaves (.lmacDrainResume 0) (drains 5) (drains 5) := by
  decide +kernel

theorem test_lmacDrain : mayCross (drains 6) 0 1518 = true ∧ HasCell (drains 6) (rxPool (drains 6) 0) ∧ holds (.lmacDrainResume 0) (drains 6) (fun t => t.lmacs = [] ∧
    (pkt? t 0).map (·.stage) = some .window ∧ (pkt? t 0).map (·.hrCells) = some 6) := by decide +kernel

/-- Packet 0 whole, its reference out at port 0 as Out 0. -/
def sending (bad : Option Nat) (p : Port) : State := { setPkt port0 0 {
    origin := .line 0, stage := .stored, win := window0, data := window0, len := some 60, ended := true, bad := bad, refs := 1,
    maxFrame := 1518 } with
  nextPkt := 1
  outs := [(0, { outAt (refTo 0 0 0) (nodeKey 0 0) 0 with egressDone := true })]
  ports := [(0, p)] }

/-- The port with the Out waiting, and with the Out in transmission. -/
def waitsOut : State := sending (some 0) { mode := 2, blockLock := true, dq := [0] }
def sendsOut (bad : Nat) : State := sending (some bad) { mode := 2, blockLock := true, tx := some { out := 0, startAt := 0, cut := false } }

theorem test_txStart : linkUp waitsOut 0 = true ∧ farLooped waitsOut 0 = false ∧ startHeld waitsOut 0 0 = false ∧
    leaves (.txFrameStart 0 0) waitsOut (setPort waitsOut 0 { mode := 2, blockLock := true, tx := some {
      out := 0, startAt := 0, cut := false } }) := by decide +kernel

theorem test_txEnd : holds (.txFrameEnd 0) (sendsOut 0) (fun t => (port t 0).tx = none ∧ .frame 0 frame64 true ∈ t.sent ∧
    t.led.dLine = 1 ∧ reg t (key 0x2000 0x42) = 1 ∧ reg t (key 0x2000 0x43) = 64) := by decide +kernel

theorem test_txEnd_bad : holds (.txFrameEnd 0) (sendsOut 1) (fun t => (port t 0).tx = none ∧
    .frame 0 (withBadFcs window0) false ∈ t.sent ∧ reg t (key 0x2000 0x4E) = 1) := by decide +kernel

/-- A time stamp waits. -/
def stamped : State := setPort port0 0 { port port0 0 with ts := [List.replicate 16 7] }

theorem test_tsFifo : MayReadValue stamped .pf (Reg.portTsFifo 0) ∧ leaves (.portTsFifoRead .pf 0) stamped
    (emit (setPort stamped 0 { port stamped 0 with ts := [] }) (.status 0 0 (List.replicate 16 7))) := by decide +kernel

/-- A main statistics counter of the last port stands at 5. -/
def counted : State := upWith [(key 0x23FF 0x4F, 5)]

theorem test_statsReadClear : readChecks counted .pf (key (0x2000 + 1023) (0x40 + 15)) = none ∧
    leaves (.portStatsReadClear .pf 1023 15) counted (emit (setReg counted (key 0x23FF 0x4F) 0) (.status 0 0 (beBytes 8 5))) := by
  decide +kernel

/-- A PRBS checker in lock. -/
def prbsLocked : State := { upWith [(Reg.lanePrbsErrors 0, 3)] with lanes := [(0, { prbsLock := true })] }

theorem test_prbsErrors_locked : readChecks (countSat prbsLocked 32 (Reg.lanePrbsErrors 0) 4) .pf (Reg.lanePrbsErrors 0) = none ∧
    holds (.lanePrbsErrorsRead .pf 0 4) prbsLocked (fun t => reg t (Reg.lanePrbsErrors 0) = 0 ∧
      t.sent = [.status 0 0 (beBytes 4 7)]) := by decide +kernel

theorem test_prbsErrors_unlocked : readChecks (upWith [(Reg.lanePrbsErrors 0, 3)]) .pf (Reg.lanePrbsErrors 0) = none ∧
    holds (.lanePrbsErrorsRead .pf 0 4) (upWith [(Reg.lanePrbsErrors 0, 3)]) (fun t => reg t (Reg.lanePrbsErrors 0) = 0 ∧
      t.sent = [.status 0 0 (beBytes 4 3)]) := by decide +kernel

/-- A FlexE PHY in slot 0. -/
def phy0 : State := setPort (upWith [(Reg.portRole 0, 2), (Reg.portMode 0, 7)]) 0 { mode := 7 }

theorem test_calSwitch : may phy0 .pf (Reg.portFlexeCalSwitch 0) ∧ reg phy0 (Reg.portRole 0) = 2 ∧
    holds (.flexeCalSwitch .pf 0) phy0 (fun t => (port t 0).calSwitch = some 0 ∧ jobRunning t (Reg.portFlexeCalSwitch 0) = true ∧
      .flexeOverhead 0 1 ∈ t.sent) := by decide +kernel

/-- Its switch is under way at TIME 0; TIME is `t`. -/
def switching (t : Nat) : State := { jobBegin (setPort phy0 0 { mode := 7, calSwitch := some 0 }) (Reg.portFlexeCalSwitch 0) with time := t }

theorem test_calSwitchAck : jobRunning (switching 1) (Reg.portFlexeCalSwitch 0) = true ∧
    holds (.flexeCalSwitchAck 0) (switching 1) (fun t => (port t 0).calB = true ∧ (port t 0).calSwitch = none ∧
      JobCompleted t (Reg.portFlexeCalSwitch 0) 0) := by decide +kernel

theorem test_calSwitchTimeout : 0 + 100000000 < (switching 100000001).time ∧
    holds (.flexeCalSwitchTimeout 0) (switching 100000001) (fun t => (port t 0).calB = false ∧ (port t 0).calSwitch = none ∧
      (job t (Reg.portFlexeCalSwitch 0)).state = 2) := by decide +kernel

theorem test_groupFault : holds (.flexeGroupFault 0) phy0 (fun t => bit (reg t (Reg.portCause 0)) 7 = true) := by decide +kernel

theorem test_lanePrbsMode : Permitted up .pf (Reg.lanePrbsMode 255) 0 ∧ prbsSuits (laneRate up 255) 0 = true ∧
    laneOwner up 255 = none ∧ leaves (.lanePrbsModeWrite .pf 255 0) up (emit (emit up (.lanePattern 255 0)) (okTo .pf)) := by
  decide +kernel

theorem test_laneLoopback : Permitted up .pf (Reg.laneLoopback 255) 2 ∧
    leaves (.laneLoopbackWrite .pf 255 2) up (emit (setReg up (Reg.laneLoopback 255) 2) (okTo .pf)) := by decide +kernel


/-! ### Parser and classification (ch. 4, 5) -/

/-- Packet 0 at the PIPE with its first 128 bytes: an Ethernet header and padding; the plan enables no stage. -/
def passing : State := setPkt port0 0 {
  origin := .line 0, win := window0 ++ List.replicate 68 0x55, data := window0 ++ List.replicate 68 0x55, maxFrame := 1518 }

theorem test_ingressPass : (pkt? passing 0).map (·.stage) = some .window ∧ (pkt? passing 0).map (·.win.length) = some 128 ∧
    (pkt? passing 0).map (·.pass) = some 0 ∧ holds (.ingressPass 0) passing (fun t => (pkt? t 0).map (·.stage) = some .ready ∧
      (pkt? t 0).map (·.win) = (pkt? passing 0).map (·.win) ∧ (pkt? t 0).map (fun k => (bits k.desc 255 253, bits k.desc 252 247)) =
        some (7, 9)) := by decide +kernel

/-- Its reference out at port 0, the egress half not run. -/
def leaving : State := { setPkt port0 0 {
    origin := .line 0, stage := .stored, win := window0, data := window0, len := some 60, ended := true, bad := some 0, refs := 1,
    maxFrame := 1518 } with
  nextPkt := 1
  outs := [(0, outAt (refTo 0 0 0) (nodeKey 0 0) 0)] }

theorem test_egressRun : holds (.egressRun 0) leaving (fun t => (mfind t.outs 0).map (·.egressDone) = some true ∧
    (mfind t.outs 0).map (·.ref) = some (refTo 0 0 0)) := by decide +kernel

theorem test_epochSwap : may up .pf Reg.clsEpochSwap ∧ retiring up = false ∧ holds (.clsEpochSwap .pf) up (fun t =>
    reg t Reg.clsEpochCurrent = 1 ∧ reg t Reg.clsEpochState = 1 ∧ jobRunning t Reg.clsEpochSwap = true) := by decide +kernel

/-- Slot 0 retires since TIME 5. -/
def retires : State := { upWith [(Reg.clsEpochCurrent, 1), (Reg.clsEpochState, 1)] with cls.swapAt := 5, time := 25 }

theorem test_epochSwap_busy : may retires .pf Reg.clsEpochSwap ∧ retiring retires = true ∧ leaves (.clsEpochSwap .pf) retires
    (emit (noteFailure retires .pf Reg.clsEpochSwap .busy) (.status 0 3 [])) := by decide +kernel

theorem test_epochRetired : inflight (jobBegin retires Reg.clsEpochSwap) 0 = 0 ∧
    holds .epochRetired (jobBegin retires Reg.clsEpochSwap) (fun t => reg t Reg.clsEpochState = 0 ∧ reg t Reg.clsLastRetireNs = 20 ∧
      bit (reg t Reg.clsCause) 0 = true ∧ JobCompleted t Reg.clsEpochSwap 0) := by decide +kernel

theorem test_stagePlan_current : domainChecks up .pf (Reg.clsStagePlan 0) = none ∧ 0 = epochNow up ∧
    leaves (.clsStagePlanWrite .pf 0 []) up (emit (noteFailure up .pf (Reg.clsStagePlan 0) .refused) (.status 0 1 [])) := by
  decide +kernel

/-- Entry 0: code 0x05 with group 7, then nothing. -/
def direct0 : List Byte := beBytes 8 (action 5 7) ++ beBytes 8 0

theorem test_directTable : domainChecks up .pf (Reg.clsDirectTable 1) = none ∧ 1 ≠ epochNow up ∧ retiring up = false ∧
    bankLength direct0 32768 = true ∧ (∀ w ∈ entriesOf direct0, codeOk (w / 2 ^ 64) = true ∧ codeOk (w % 2 ^ 64) = true) ∧
    leaves (.clsDirectTableWrite .pf 1 direct0) up
      (emit { up with cls.direct := [(32768, action 5 7 * 2 ^ 64)] } (okTo .pf)) := by decide +kernel

theorem test_rewriteProfiles : domainChecks up .pf (Reg.clsRewriteProfiles 1) = none ∧ bankLength (beBytes 16 (2 ^ 127)) 256 = true ∧
    (∀ w ∈ entriesOf (beBytes 16 (2 ^ 127)), rewriteOk w = true) ∧
    leaves (.clsRewriteProfilesWrite .pf 1 (beBytes 16 (2 ^ 127))) up
      (emit { up with cls.rewrite := [(256, 2 ^ 127)] } (okTo .pf)) := by decide +kernel

theorem test_compatBuckets : Permitted up .pf Reg.clsCompatBuckets (2 ^ 19) ∧ compatEnabled up = false ∧ emEmpty up = true ∧
    leaves (.clsCompatBucketsWrite .pf (2 ^ 19)) up (emit (setReg up Reg.clsCompatBuckets (2 ^ 19)) (okTo .pf)) := by decide +kernel

/-- Two learning notices wait. -/
def noticed : State := { up with cls.notices := [List.replicate 16 1, List.replicate 16 2] }

theorem test_learnNotices : MayReadValue noticed .pf Reg.learnNotices ∧ leaves (.learnNoticesRead .pf) noticed
    (emit up (.status 0 0 (List.replicate 16 1 ++ List.replicate 16 2))) := by decide +kernel

/-! A stage plan with no stage enabled: every byte 0. -/

theorem slice_zeros (n o m : Nat) : slice (List.replicate n 0) o m = List.replicate (min m (n - o)) 0 := by
  simp [slice, List.take_replicate]

theorem beNat_zeros (n : Nat) : beNat (List.replicate n 0) = 0 := by
  induction n with
  | zero => rfl
  | succ n ih => simpa [beNat, List.replicate_succ] using ih

theorem beAt_zeros (n o m : Nat) : beAt (List.replicate n 0) o m = 0 := by rw [beAt, slice_zeros, beNat_zeros]

theorem slice_slice_zeros (n a b o m : Nat) : beAt (slice (List.replicate n 0) a b) o m = 0 := by
  rw [slice_zeros, beAt_zeros]

theorem zeroBytes_zeros (n o m : Nat) : zeroBytes (List.replicate n 0) o m = true := by
  rw [zeroBytes, slice_zeros]
  simp

theorem pad_zeros (n m : Nat) : padTo (List.replicate n 0) m = List.replicate (min m n + (m - n)) 0 := by
  rw [padTo, List.take_replicate, List.length_replicate, List.replicate_append_replicate]

theorem zeroPlan (l : Nat) (h : l = 20928) : planOk up (List.replicate l 0) = true := by
  have st : ∀ i, stageOf (List.replicate l 0) i = 0 := by
    intro i
    rw [stageOf, slice_zeros, pad_zeros, beAt_zeros]
  have pr : ∀ n, profileRec (List.replicate l 0) n = List.replicate 64 0 := by
    intro n
    rw [profileRec, slice_zeros, pad_zeros]
    congr 1
    omega
  have te : ∀ n j, testOf (List.replicate l 0) n j = 0 := by
    intro n j
    rw [testOf, slice_zeros, pad_zeros, beAt_zeros]
  have p0 : profileOk (List.replicate 64 0) = true := by decide +kernel
  have t0 : testOk 0 false = true := by decide
  have ds : (List.range 12).map (stageOf (List.replicate l 0)) = List.replicate 12 0 :=
    (List.map_congr_left (fun i _ => st i)).trans (by decide)
  have hl : ((List.replicate l (0 : Byte)).length == 20928) = true := by
    rw [List.length_replicate, h]
    decide
  have e : (List.replicate 12 0).filter stEnable = [] := by decide
  simp only [planOk, ds, hl, zeroBytes_zeros, te, pr, p0, t0, beAt_zeros, e, List.all_nil]
  decide +kernel

theorem test_stagePlan : domainChecks up .pf (Reg.clsStagePlan 1) = none ∧ 1 ≠ epochNow up ∧ retiring up = false ∧
    planOk up (List.replicate 20928 0) = true := ⟨by decide +kernel, by decide +kernel, by decide +kernel, zeroPlan _ rfl⟩


/-! ### Load jobs and lookup tables (ch. 6) -/

theorem test_lkpLoad : domainChecks up .pf Reg.lkpLoad = none ∧ jobRunning up Reg.lkpApply = false ∧
    leaves (.lkpLoadWrite .pf (List.replicate 128 1)) up (emit { up with dict.loads := [(Reg.lkpLoad,
      [List.replicate 64 1, List.replicate 64 1])] } (okTo .pf)) := by decide +kernel

theorem test_aseLoad : domainChecks up .pf Reg.aseLoad = none ∧ jobRunning up Reg.aseApply = false ∧
    leaves (.aseLoadWrite .pf (List.replicate 128 1)) up (emit { up with dict.loads := [(Reg.aseLoad,
      [List.replicate 128 1])] } (okTo .pf)) := by decide +kernel

theorem test_mtrLoad : domainChecks up .pf Reg.mtrLoad = none ∧ jobRunning up Reg.mtrApply = false ∧
    leaves (.mtrLoadWrite .pf (List.replicate 32 1)) up (emit { up with dict.loads := [(Reg.mtrLoad,
      [List.replicate 32 1])] } (okTo .pf)) := by decide +kernel

theorem test_qmLoad : domainChecks up .pf Reg.qmLoad = none ∧ jobRunning up Reg.qmApply = false ∧
    leaves (.qmLoadWrite .pf (List.replicate 32 1)) up (emit { up with dict.loads := [(Reg.qmLoad,
      [List.replicate 32 1])] } (okTo .pf)) := by decide +kernel

/-- A load job with its records, and its job running. -/
def loaded (j : LoadJob) (l : List (List Byte)) : State := { up with dict.loads := [(j.load, l)] }
def applying (j : LoadJob) (l : List (List Byte)) : State := jobBegin (loaded j l) j.job

theorem test_lkpLoad_busy : domainChecks (applying lkpJob []) .pf Reg.lkpLoad = none ∧
    jobRunning (applying lkpJob []) Reg.lkpApply = true ∧ leaves (.lkpLoadWrite .pf [0]) (applying lkpJob [])
      (emit (noteFailure (applying lkpJob []) .pf Reg.lkpLoad .busy) (.status 0 3 [])) := by decide +kernel

theorem test_lkpApply : may (loaded lkpJob [[]]) .pf Reg.lkpApply ∧ (loadOf (loaded lkpJob [[]]) lkpJob).isSome = true ∧
    jobRunning (loaded lkpJob [[]]) Reg.lkpPivotMove = false ∧ holds (.lkpApply (.start .pf)) (loaded lkpJob [[]]) (fun t =>
      jobRunning t Reg.lkpApply = true ∧ reg t Reg.lkpApplyErrorIndex = 0xFFFFFFFF) := by decide +kernel

theorem test_aseApply : may (loaded aseJob [[]]) .pf Reg.aseApply ∧ (loadOf (loaded aseJob [[]]) aseJob).isSome = true ∧
    holds (.aseApply (.start .pf)) (loaded aseJob [[]]) (fun t => jobRunning t Reg.aseApply = true) := by decide +kernel

theorem test_mtrApply : may (loaded mtrJob [[]]) .pf Reg.mtrApply ∧ (loadOf (loaded mtrJob [[]]) mtrJob).isSome = true ∧
    holds (.mtrApply (.start .pf)) (loaded mtrJob [[]]) (fun t => jobRunning t Reg.mtrApply = true) := by decide +kernel

theorem test_qmApply : may (loaded qmJob [[]]) .pf Reg.qmApply ∧ (loadOf (loaded qmJob [[]]) qmJob).isSome = true ∧
    holds (.qmApply (.start .pf)) (loaded qmJob [[]]) (fun t => jobRunning t Reg.qmApply = true) := by decide +kernel

/-- A pivot move runs. -/
def moving : State := jobBegin { loaded lkpJob [[]] with lkp.moveArg := 5 } Reg.lkpPivotMove

theorem test_lkpApply_busy : may moving .pf Reg.lkpApply ∧ jobRunning moving Reg.lkpPivotMove = true ∧
    leaves (.lkpApply (.start .pf)) moving (emit (noteFailure moving .pf Reg.lkpApply .busy) (.status 0 3 [])) := by decide +kernel

/-- A route record: 10.0.0.0/8 of VRF 1 with next hop 3. -/
def routeRec (op : Nat) : List Byte := padTo ([byte op, 0, 0, 0] ++ beBytes 2 1 ++ [4, 8] ++ beBytes 16 0x0A000000 ++
  (if op = 2 then [] else beBytes 4 (2 ^ 31 + 3 * 1024))) 64

/-- The state with the route held. -/
def routed (op : Nat) : State := (List.range 8).foldl (fun s k => { s with
  lkp.want := mput s.lkp.want (copyKey k (recRoute (routeRec op))) { res := 7, ext := 0, word := 0 } }) (applying lkpJob [routeRec op])

theorem test_routeAdd : (let s := applying lkpJob [routeRec 1]; nextRecord s lkpJob = some (routeRec 1) ∧ mayTake s = true ∧
    (applyRoute s (routeRec 1)).1 = 0 ∧ stripesOf s (recRoute (routeRec 1)) = List.range 8 ∧ holds .routeAdd s (fun t =>
      RecordTaken lkpJob s t ∧ (List.range 8).all (fun k => (mfind t.lkp.want (copyKey k (recRoute (routeRec 1)))).map
        (fun x => x.res) == some (2 ^ 31 + 3 * 1024)) = true)) := by decide +kernel

theorem test_routeReplace : (let s := routed 3; nextRecord s lkpJob = some (routeRec 3) ∧ mayTake s = true ∧
    (applyRoute s (routeRec 3)).1 = 0 ∧ holds .routeReplace s (fun t =>
      RecordTaken lkpJob s t ∧ (List.range 8).all (fun k => (mfind t.lkp.want (copyKey k (recRoute (routeRec 3)))).map
        (fun x => x.res) == some (2 ^ 31 + 3 * 1024)) = true)) := by decide +kernel

theorem test_routeDelete : (let s := routed 2; nextRecord s lkpJob = some (routeRec 2) ∧ mayTake s = true ∧
    (applyRoute s (routeRec 2)).1 = 0 ∧ holds .routeDelete s (fun t => RecordTaken lkpJob s t ∧ t.lkp.want = [])) := by
  decide +kernel

/-- An exact record of type 3: key 5. -/
def exactRec (op : Nat) : List Byte := padTo ([byte op, 0, 0, 0, 3, 0, 0, 0] ++ beBytes 40 (5 * 2 ^ 292) ++
  (if op = 5 then [] else beBytes 11 (2 ^ 85))) 64

/-- The key's hash, and a state that holds it in its first bucket. -/
def exactHash : Nat := emHash 3 5
def matched (op : Nat) : State := { applying lkpJob [exactRec op] with
  lkp.em := [(emPlace (emHome exactHash) (emB1 up exactHash) 0, { ty := 3, key := 5, res := 1 })] }

theorem test_exactAdd : (let s := applying lkpJob [exactRec 4]; nextRecord s lkpJob = some (exactRec 4) ∧ mayTake s = true ∧
    (applyExact s (exactRec 4)).1 = 0 ∧ emFree s.lkp.em (emHome exactHash) (emB1 s exactHash) (emWide 3) = some 0 ∧
    holds .exactAdd s (fun t => RecordTaken lkpJob s t ∧
      t.lkp.em = [(emPlace (emHome exactHash) (emB1 s exactHash) 0, { ty := 3, key := 5, res := 2 ^ 85 })])) := by decide +kernel

theorem test_exactReplace : (let s := matched 6; nextRecord s lkpJob = some (exactRec 6) ∧ mayTake s = true ∧
    (applyExact s (exactRec 6)).1 = 0 ∧ emFind s 3 5 = some (emB1 s exactHash, 0) ∧ holds .exactReplace s (fun t =>
      RecordTaken lkpJob s t ∧
      t.lkp.em = [(emPlace (emHome exactHash) (emB1 s exactHash) 0, { ty := 3, key := 5, res := 2 ^ 85 })])) := by decide +kernel

theorem test_exactDelete : (let s := matched 5; nextRecord s lkpJob = some (exactRec 5) ∧ mayTake s = true ∧
    (applyExact s (exactRec 5)).1 = 0 ∧ emFind s 3 5 = some (emB1 s exactHash, 0) ∧ holds .exactDelete s (fun t =>
      RecordTaken lkpJob s t ∧ t.lkp.em = [])) := by decide +kernel

/-- Records of the other tables. -/
def adjRec : List Byte := lkpRecord 7 (beBytes 4 1048575 ++ beBytes 16 (2 ^ 127))
def groupRec : List Byte := lkpRecord 8 (beBytes 4 65535 ++ beBytes 8 (2 ^ 63 + 2 ^ 30))
def memberRec : List Byte := lkpRecord 9 (beBytes 4 1048575 ++ [1, 0, 0, 0] ++ beBytes 4 9)
def profileRow : List Byte := lkpRecord 10 (beBytes 2 255 ++ [0, 0] ++ beBytes 16 (action 5 7))
def compatRec : List Byte := lkpRecord 11 (beBytes 4 1023 ++ [3, 0, 0, 0, 0, 0, 0, 0] ++ beBytes 24 (2 ^ 191))

theorem test_adjacencyWrite : (let s := applying lkpJob [adjRec]; nextRecord s lkpJob = some adjRec ∧ mayTake s = true ∧
    (applyAdj s adjRec).1 = 0 ∧ holds .adjacencyWrite s (fun t => RecordTaken lkpJob s t ∧ t.lkp.adj = [(1048575, 2 ^ 127)])) := by
  decide +kernel

theorem test_groupWrite : (let s := applying lkpJob [groupRec]; nextRecord s lkpJob = some groupRec ∧
    (applyGroup s groupRec).1 = 0 ∧ holds .groupWrite s (fun t => RecordTaken lkpJob s t ∧
      t.lkp.groups = [(65535, 2 ^ 63 + 2 ^ 30)])) := by decide +kernel

theorem test_memberWrite : (let s := applying lkpJob [memberRec]; nextRecord s lkpJob = some memberRec ∧
    (applyMembers s memberRec).1 = 0 ∧ holds .memberWrite s (fun t => RecordTaken lkpJob s t ∧ t.lkp.members = [(1048575, 9)])) := by
  decide +kernel

theorem test_actionProfileWrite : (let s := applying lkpJob [profileRow]; nextRecord s lkpJob = some profileRow ∧
    (applyProfile s profileRow).1 = 0 ∧ holds .actionProfileWrite s (fun t => RecordTaken lkpJob s t ∧
      t.lkp.profiles = [(255, action 5 7)])) := by decide +kernel

/-- With 1024 compatibility buckets. -/
def compatRun : State := setReg (applying lkpJob [compatRec]) Reg.clsCompatBuckets 1024

theorem test_compatSlotWrite : nextRecord compatRun lkpJob = some compatRec ∧ (applyCompat compatRun compatRec).1 = 0 ∧
    holds .compatibilitySlotWrite compatRun (fun t => RecordTaken lkpJob compatRun t ∧ t.lkp.compat = [(4095, 2 ^ 191)]) := by
  decide +kernel

/-- A rebuild in stripe 2 that brings a route, and one that takes it away. -/
def rebuilds (v : Option Route) (done : Option Nat) : State := { up with
  time := 1000, lkp.rebuilds := [(2, [{ key := 9, val := v, at0 := done }])] }

theorem test_subtreeSwitch : (let r : Route := { res := 7, ext := 0, word := 4 }; holds (.lpmSubtreeSwitch 2) (rebuilds (some r) none)
    (fun t => t.lkp.routes = [(copyKey 2 9, r)] ∧ rebuildsOf t 2 = [{ key := 9, val := some r, at0 := some 1000 }] ∧
      reg t (Reg.lkpRebuilds 2) = 1) ∧
    holds (.lpmSubtreeSwitch 2) { rebuilds none none with lkp.routes := [(copyKey 2 9, r)] } (fun t => t.lkp.routes = [])) := by
  decide +kernel

theorem test_subtreeFree : leaves (.lpmSubtreeFree 2) (rebuilds none (some 0)) { rebuilds none (some 0) with lkp.rebuilds := [] } := by
  decide +kernel

theorem test_lkpApplyEnd : (let s := applying lkpJob []; (job s Reg.lkpApply).cancel = false ∧ nextRecord s lkpJob = none ∧
    allVisible s = true ∧ holds .lkpApplyEnd s (fun t => JobCompleted t Reg.lkpApply 0 ∧ bit (reg t Reg.lkpCause) 0 = true)) := by
  decide +kernel

theorem test_lkpApply_step : (let s := applying lkpJob [adjRec]; (applyLkp s adjRec).1 = 0 ∧
    holds (.lkpApply .step) s (fun t => RecordTaken lkpJob s t)) := by decide +kernel

theorem test_aseApply_step : (let s := applying aseJob []; nextRecord s aseJob = none ∧ s.ase.busy = false ∧
    holds (.aseApply .step) s (fun t => JobCompleted t Reg.aseApply 0)) := by decide +kernel

theorem test_mtrApply_step : (let s := applying mtrJob []; nextRecord s mtrJob = none ∧
    holds (.mtrApply .step) s (fun t => JobCompleted t Reg.mtrApply 0)) := by decide +kernel

theorem test_pivotStart : may (loaded lkpJob [[]]) .pf Reg.lkpPivotMove ∧ holds (.lkpPivotMove (.start .pf)) (loaded lkpJob [[]])
    (fun t => jobRunning t Reg.lkpPivotMove = true ∧ t.lkp.moveArg = 0) := by decide +kernel

/-- A route that entry 5 places moves to stripe 7. -/
def movesRoute : State := { moving with lkp.moveArg := 7 * 65536 + 5 }

theorem test_pivotStep : (job movesRoute Reg.lkpPivotMove).phase = 0 ∧ unitsUsed movesRoute 7 +
    (placedBy movesRoute 5 (pivotEntry movesRoute 5)).foldl (fun n x => n + routeUnits x.1 x.2) 0 ≤ stripeUnits ∧
    holds (.lkpPivotMove .step) movesRoute (fun t => pivotEntry t 5 = 7 ∧ t.lkp.moveFrom = some 5 ∧
      (job t Reg.lkpPivotMove).phase = 1) := by decide +kernel

/-- 1 us after the write. -/
def moved : State := { movesRoute with lkp.moveFrom := some 5, lkp.pivot := [(5, 7)], time := 1000 }

theorem test_pivotRemove : (job moved Reg.lkpPivotMove).at0 + 1000 ≤ moved.time ∧ holds .pivotOldCopiesRemove moved (fun t =>
    JobCompleted t Reg.lkpPivotMove 0 ∧ t.lkp.moveFrom = none ∧ bit (reg t Reg.lkpCause) 5 = true) := by decide +kernel

/-- The dump of the adjacencies. -/
def dumps : State := { upWith [(Reg.lkpDumpSelect, 4 * 2 ^ 28)] with lkp.adj := [(3, 2 ^ 127)] }

theorem test_lkpDump : MayReadValue dumps .pf Reg.lkpDump ∧ leaves (.lkpDumpRead .pf) dumps
    (emit dumps (.status 0 0 (lkpRecord 7 (beBytes 4 3 ++ beBytes 16 (2 ^ 127))))) := by decide +kernel


/-! ### Associative search (ch. 7) -/

/-- A bank 0 with region 5 of 4 narrow places and one rule, 9, in row 0. -/
def bank0 : AseBank := {
  rows := [(0, aseRow 1 3 false 5 0 7)], shadow := [(0, aseRow 1 3 false 5 0 7)], assoc := [(0, aseRecord 9 0 0 0 0)],
  regions := [{ num := 5, base := 0, limit := 4, wide := false }] }

/-- A record of bank 0, padded. -/
def aseRec (op : Nat) (body : List Byte) : List Byte := padTo ([byte op, 1] ++ body) 128

/-- The apply job has this record next. -/
def aseRun (r : List Byte) : State := setBank (applying aseJob [r]) 0 bank0

/-- An insert's body, and a replacement's. -/
def insertBody (id region prio key care : Nat) : List Byte := beBytes 2 id ++ [byte region, 0] ++ beBytes 2 prio ++
  List.replicate 20 0 ++ beBytes 20 key ++ List.replicate 20 0 ++ beBytes 20 care

/-- A record's hypotheses. -/
abbrev aseTakes (r : List Byte) : Prop :=
  stepsQueued (aseRun r) = false ∧ (aseRun r).ase.busy = false ∧ nextRecord (aseRun r) aseJob = some r ∧ byteAt r 1 = 2 ^ 0 ∧
    aseCheck (aseRun r) 0 r = 0

theorem test_aseRegionCreate : (let r := aseRec 5 [0, 0, 6, 1, 0, 2]; aseTakes r ∧ holds .aseRegionCreate (aseRun r) (fun t =>
    RecordTaken aseJob (aseRun r) t ∧
      (bank t 0).regions = bank0.regions ++ [{ num := 6, base := 4, limit := 6, wide := true }])) := by decide +kernel

/-- The same with an empty last region. -/
def aseRunTwo (r : List Byte) : State := setBank (aseRun r) 0 { bank0 with
  regions := bank0.regions ++ [{ num := 6, base := 4, limit := 6, wide := true }] }

theorem test_aseRegionDelete : (let r := aseRec 6 [0, 0, 6]; nextRecord (aseRunTwo r) aseJob = some r ∧ aseCheck (aseRunTwo r) 0 r = 0 ∧
    holds .aseRegionDelete (aseRunTwo r) (fun t => RecordTaken aseJob (aseRunTwo r) t ∧ (bank t 0).regions = bank0.regions)) := by
  decide +kernel

theorem test_aseActionProfile : (let r := aseRec 7 ([3, 0, 0, 0, 0, 0] ++ beBytes 16 (action 5 7)); aseTakes r ∧
    holds .aseActionProfileWrite (aseRun r) (fun t => RecordTaken aseJob (aseRun r) t ∧ t.ase.profiles = [(3, action 5 7)])) := by
  decide +kernel

theorem test_aseInsert : (let r := aseRec 1 (insertBody 10 5 2 8 12); aseTakes r ∧ freeRow bank0 { num := 5, base := 0, limit := 4, wide := false } = some 1 ∧
    holds .aseInsert (aseRun r) (fun t => t.ase.busy = true ∧
      (bank t 0).steps = [.write 1 [aseRow 8 12 false 5 0 2] (aseRecord 10 0 0 0 0)])) := by decide +kernel

theorem test_aseDelete : (let r := aseRec 2 (beBytes 2 9); aseTakes r ∧ ruleRow bank0 9 = some 0 ∧
    holds .aseDelete (aseRun r) (fun t => t.ase.busy = true ∧ (bank t 0).steps = [.write 0 [0] 0])) := by decide +kernel

theorem test_aseReplace : (let r := aseRec 3 (insertBody 9 5 2 1 3); aseTakes r ∧ ruleRow bank0 9 = some 0 ∧
    holds .aseReplace (aseRun r) (fun t => t.ase.busy = true ∧
      (bank t 0).steps = [.write 0 [aseRow 1 3 false 5 0 2] (aseRecord 9 0 0 0 0)])) := by decide +kernel

theorem test_aseMembership : (let r := aseRec 4 (beBytes 2 9 ++ [0, 2]); aseTakes r ∧ ruleRow bank0 9 = some 0 ∧
    holds .aseMembership (aseRun r) (fun t => t.ase.busy = true ∧
      (bank t 0).steps = [.write 0 [aseRow 1 3 false 5 2 7] (aseRecord 9 0 0 0 0)])) := by decide +kernel

/-- Steps queued in bank 7. -/
def stepping (l : List AseStep) : State := setBank up 7 { bank0 with rows := [(1, 77)], steps := l }

theorem test_aseCopyStep : holds (.aseCopyStep 7) (stepping [.copy 1]) (fun t => mget 0 (bank t 7).rows 3 = 77 ∧
    reg t (Reg.aseShiftPlaces 7) = 1 ∧ reg t (Reg.aseUpdateSlots 7) = 1) := by decide +kernel

theorem test_aseWriteStep : holds (.aseWriteStep 7) (stepping [.write 32767 [5] 6]) (fun t => mget 0 (bank t 7).rows 32767 = 5 ∧
    mget 0 (bank t 7).shadow 32767 = 5 ∧ mget 0 (bank t 7).assoc 32767 = 6 ∧ (bank t 7).steps = [] ∧
    reg t (Reg.aseUpdateSlots 7) = 1) := by decide +kernel

theorem test_aseSweepStart : timeNs up % 8000000 = 0 ∧ (bank up 7).scrub = none ∧
    leaves (.aseSweepStart 7) up { up with ase.banks := [(7, { scrub := some 0 })] } := by decide +kernel

/-- Sweeping at a row. -/
def sweeping (row : Nat) : State := setBank up 7 { bank0 with scrub := some row }

theorem test_aseScrubRead : 5 % 2 ^ 352 ≠ mget 0 (bank (sweeping 0) 7).shadow 0 ∧
    holds (.aseScrubRead 7 (some 5)) (sweeping 0) (fun t => mget 0 (bank t 7).rows 0 = aseRow 1 3 false 5 0 7 ∧
      reg t (Reg.aseLastRepairRow 7) = 0 ∧ reg t (Reg.aseScrubRepairs 7) = 1 ∧ bit (reg t (Reg.aseCause 7)) 2 = true ∧
      (bank t 7).scrub = some 1) := by decide +kernel

theorem test_aseScrubRead_end : holds (.aseScrubRead 7 none) (sweeping 32767) (fun t => (bank t 7).scrub = none ∧
    reg t (Reg.aseScrubSweeps 7) = 1 ∧ reg t (Reg.aseScrubRepairs 7) = 0) := by decide +kernel

theorem test_aseTempRead : timeNs up % 100000 = 0 ∧ holds (.aseTempRead 7 1520) up (fun t => reg t (Reg.aseTemp 7) = 1520 ∧
    reg t (Reg.aseThrottleLevel 7) = 1 ∧ bit (reg t (Reg.aseCause 7)) 4 = true) := by decide +kernel

theorem test_aseBudgets : Permitted up .pf Reg.aseUpdateBudget 4 ∧ Permitted up .pf Reg.aseScrubBudget 32 ∧
    leaves (.aseUpdateBudgetWrite .pf 4) up (emit (setReg up Reg.aseUpdateBudget 4) (okTo .pf)) ∧
    leaves (.aseScrubBudgetWrite .pf 32) up (emit (setReg up Reg.aseScrubBudget 32) (okTo .pf)) := by decide +kernel

theorem test_aseDump : MayReadValue (aseRun []) .pf Reg.aseDump ∧ leaves (.aseDumpRead .pf) (aseRun [])
    (emit (aseRun []) (.status 0 0 (aseRec 5 [0, 0, 5, 0, 0, 4] ++ aseRec 1 (insertBody 9 5 7 1 3)))) := by decide +kernel

/-! ### Meters and counters (ch. 8) -/

/-- Updates and corrections under way. -/
def metering : State := { setReg up Reg.ctrSelect 1048575 with
  mtr.posts := [(1048575, 64)], mtr.pkts := [(1048575, 2 ^ 64 - 1)], mtr.bytes := [(1048575, 10)]
  mtr.meters := [(262143, 2 ^ 383 + 100 * 2 ^ 232 + 50 * 2 ^ 208)]
  mtr.due := [{ meter := 262143, amount := 7, drew1 := true, drew2 := false }] }

theorem test_counterUpdate : leaves (.counterUpdatePost 1048575) metering { metering with
    mtr.posts := [], mtr.pkts := [], mtr.bytes := [(1048575, 74)] } := by decide +kernel

theorem test_ctrPkts : readChecks metering .pf Reg.ctrPkts = none ∧ leaves (.ctrPktsRead .pf) metering
    (emit { metering with mtr.latch := 10 } (.status 0 0 (List.replicate 8 0xFF))) := by decide +kernel

theorem test_ctrClear : Permitted metering .pf Reg.ctrClear 1 ∧ leaves (.ctrClear .pf 1) metering
    (emit { metering with mtr.pkts := [], mtr.bytes := [] } (okTo .pf)) := by decide +kernel

/-- The last two counters are to be swept. -/
def toSweep : State := setReg (setReg metering Reg.ctrSweepBase 1048574) Reg.ctrSweepCount 2

theorem test_ctrSweep_start : may toSweep .pf Reg.ctrSweep ∧ holds (.ctrSweep (.start .pf)) toSweep (fun t =>
    t.mtr.sweepBase = 1048574 ∧ t.mtr.sweepCount = 2 ∧ t.mtr.sweepClear = false ∧ jobRunning t Reg.ctrSweep = true) := by
  decide +kernel

/-- The sweep runs. -/
def sweeps : State := jobBegin { toSweep with mtr.sweepBase := 1048574, mtr.sweepCount := 2 } Reg.ctrSweep

theorem test_ctrSweep_step : holds (.ctrSweep .step) sweeps (fun t => JobCompleted t Reg.ctrSweep 0 ∧
    bit (reg t Reg.mcCause) 3 = true ∧ t.mtr = sweeps.mtr ∧
    blk t Reg.ctrSweepData = List.replicate 16 0 ++ List.replicate 8 0xFF ++ beBytes 8 10) := by decide +kernel

theorem test_meterCorrection : holds (.meterCorrection 262143) metering (fun t => t.mtr.due = [] ∧ reg t Reg.mtrCorrections = 1 ∧
    mTok1 (meterOf t 262143) = tokens 7 ∧ mTok2 (meterOf t 262143) = 0) := by decide +kernel

/-- A configuration: on, 1 Mb/s, bursts of 100 and 50 bytes. -/
def meterConfig : Nat := 2 ^ 191 + 0x10C7 * 2 ^ 104 + 100 * 2 ^ 40 + 50 * 2 ^ 16

theorem test_mtrConfig : domainChecks metering .pf Reg.mtrConfig = none ∧ meterConfigCode (beNat (beBytes 24 meterConfig)) = 0 ∧
    holds (.mtrConfigWrite .pf (beBytes 24 meterConfig)) metering (fun t =>
      meterOf t 0 = withState (meterConfig * 2 ^ 192) (tokens 100) (tokens 50) 0) := by decide +kernel

/-- The record of the last meter. -/
def meterRec : List Byte := beBytes 4 262143 ++ beBytes 4 0 ++ beBytes 24 meterConfig

theorem test_mtrApply_record : (let s := applying mtrJob [meterRec]; nextRecord s mtrJob = some meterRec ∧ (applyMtr s meterRec).1 = 0 ∧
    holds (.mtrApply .step) s (fun t => RecordTaken mtrJob s t ∧
      meterOf t 262143 = withState (meterConfig * 2 ^ 192) (tokens 100) (tokens 50) 0)) := by decide +kernel


/-! ### Packet memory (ch. 9) -/

theorem test_poolDesc : Permitted up .pf (Reg.poolDesc 26) 0 ∧ poolDescRefused up 26 0 = false ∧
    leaves (.poolDescWrite .pf 26 0) up (emit (setReg up (Reg.poolDesc 26) 0) (okTo .pf)) := by decide +kernel

/-- Pool 28 shrinks to two cells. -/
def smallSkim : Nat := 0xA000170000000002

theorem test_poolDesc_skimmer : Permitted up .pf (Reg.poolDesc 28) smallSkim ∧ poolDescRefused up 28 smallSkim = false ∧
    holds (.poolDescWrite .pf 28 smallSkim) up (fun t => skimCount t 28 = 2 ∧ skimHead t 28 = 376832 ∧ skimTail t 28 = 376833 ∧
      linkWord t 376832 = 376833 * 256 ∧ linkWord t 376833 = 0xFFFFFFFF) := by decide +kernel

/-- A cell of pool 27 is in use. -/
def cellInUse : State := { up with mem.usedCells := [(360448, 1)] }

theorem test_poolDesc_refused : Permitted cellInUse .pf (Reg.poolDesc 27) 0x8000160000004000 ∧ 0 < poolUsed cellInUse 27 ∧
    leaves (.poolDescWrite .pf 27 0x8000160000004000) cellInUse
      (emit (noteFailure cellInUse .pf (Reg.poolDesc 27) .refused) (.status 0 1 [])) := by decide +kernel

theorem test_admProfile : (let b := beBytes 16 defaultAdmProfile; domainChecks up .pf (Reg.admProfile 255) = none ∧
    alphaOk (apSAlpha (beNat b)) = true ∧ alphaOk (apCAlpha (beNat b)) = true ∧ poolServes up (apSPool (beNat b)) 0 = true ∧
    poolServes up (apCPool (beNat b)) 1 = true ∧ breaksR222 up (setBlk up (Reg.admProfile 255) b) = false ∧
    (∀ x < 8, bits (reg up (Reg.voqTemplate x)) 31 24 ≠ 255) ∧
    leaves (.admProfileWrite .pf 255 b) up (emit (setBlk up (Reg.admProfile 255) b) (okTo .pf))) := by decide +kernel

theorem test_poolSize : Permitted up .pf (Reg.poolHeadroom 0) 1 ∧ breaksR222 up (setReg up (Reg.poolHeadroom 0) 1) = false ∧
    leaves (.poolSizeWrite .pf 0 true 1) up (emit (setReg up (Reg.poolHeadroom 0) 1) (okTo .pf)) ∧
    Permitted up .pf (Reg.poolSharedSize 0) 0x58000 ∧ breaksR222 up (setReg up (Reg.poolSharedSize 0) 0x58000) = true ∧
    leaves (.poolSizeWrite .pf 0 false 0x58000) up
      (emit (noteFailure up .pf (Reg.poolSharedSize 0) .refused) (.status 0 1 [])) := by decide +kernel

theorem test_fcThreshold : Permitted up .pf (Reg.fcXonCells 15) 0 ∧ 0 < reg up (Reg.fcXoffCells 15) ∧
    holds (.fcThresholdWrite .pf 15 true 0) up (fun t => reg t (Reg.fcXonCells 15) = 0) ∧
    Permitted up .pf (Reg.fcXoffCells 15) 0 ∧ 0 ≤ reg up (Reg.fcXonCells 15) ∧
    leaves (.fcThresholdWrite .pf 15 false 0) up
      (emit (noteFailure up .pf (Reg.fcXoffCells 15) .refused) (.status 0 1 [])) := by decide +kernel

/-- A watermark stands. -/
def marked : State := setReg up (Reg.poolWatermark 31) 9

theorem test_poolWatermark : readChecks marked .pf (Reg.poolWatermark 31) = none ∧ leaves (.poolWatermarkRead .pf 31) marked
    (emit up (.status 0 0 (beBytes 4 9))) := by decide +kernel

/-- Pool 28 is two cells and is being rebuilt; one cell is in use. -/
def rebuilding : State := { upWith [(Reg.poolDesc 28, smallSkim)] with mem.rebuilding := [(28, 1)], mem.usedCells := [(376832, 1)] }

theorem test_skimmerRebuild : mget 0 rebuilding.mem.rebuilding 28 ≠ 0 ∧ holds (.skimmerRebuildDone 28) rebuilding (fun t =>
    mget 0 t.mem.rebuilding 28 = 0 ∧ skimCount t 28 = 1 ∧ skimHead t 28 = 376833 ∧ linkWord t 376833 = 0xFFFFFFFF ∧
      t.mem.usedCells = rebuilding.mem.usedCells) := by decide +kernel

/-- Packet 0 has two cells and all its 60 bytes; its reference waits in queue 0. -/
def filling : State := { storeFrom (setPkt up 0 {
    origin := .line 0, stage := .stored, data := window0, len := some 60, bad := some 0, refs := 1, cells := [0, 1], maxFrame := 1518 }) [0, 1] 0 window0 with
  nextPkt := 1, mem.usedCells := [(0, 1), (1, 1)]
  qm.queues := [(0, { refs := [refTo 0 0 2], qs := 2 })] }

theorem test_lastByte : holds (.lastByteStored 0) filling (fun t => (pkt? t 0).map (·.ended) = some true ∧
    (pkt? t 0).map (·.cells) = some [0] ∧ (pkt? t 0).map (·.desc) = some (60 * 2 ^ 185) ∧ t.mem.usedCells = [(0, 1)] ∧
    (queue t 0).qs = 1 ∧ (pkt? t 0).map (pktBytes t) = some window0) := by decide +kernel

/-- A record of 64 bytes stands at the start of page 5. -/
def spilledRec : Rec := { ref := refTo 7 (32 * 2 ^ 185) 0, page := 5, off := 0, bytes := 64, packed := true }
def spilledOut : State := crockWrite { up with
  nextPkt := 8
  qm.queues := [(0, { spilled := true, backlog := [spilledRec], pages := [5], opened := 1, packOff := 64, qc := 1 })]
  mem.usedPages := [(5, 1)] } (5 * 2048 + 64) (beBytes 32 (32 * 2 ^ 185) ++ List.replicate 32 0xAB)

theorem test_unspill : prefetchOpen spilledOut 0 = true ∧
    linkFault spilledOut 0 (pagesOf (queue spilledOut 0) 0 63) = none ∧
    pagesOwned spilledOut 0 (pagesOf (queue spilledOut 0) 0 63) = true ∧ linksFree spilledOut (qmsOf 0) ≠ 0 ∧
    (match takeUnits (cellsFor 32) spilledOut 27 [] with
      | .got cs u => cs == [360448] && u.nextPkt == 8 && decide (u.qm = spilledOut.qm)
      | _ => false) = true ∧
    holds (.unspillPrefetch 0) spilledOut (fun t => (queue t 0).backlog = [] ∧
      (queue t 0).staged.map (fun r => (r.pkt, r.desc)) = [(8, 32 * 2 ^ 185)] ∧ (pkt? t 8).map (·.cells) = some [360448] ∧
      (pkt? t 8).map (pktBytes t) = some (List.replicate 32 0xAB) ∧ (queue t 0).pages = [] ∧ t.mem.usedPages = []) := by
  decide +kernel


/-! ### Queues and scheduling (ch. 11) -/

/-- Queue 0 is an egress queue of port 0 by way of node 0 of kinds 1 and 2; class 0 of port 0 maps to it. -/
def tree : List (Nat × Node) := [
  (nodeKey 0 0, { word := 2 ^ 127 + 64 * 2 ^ 17 }),
  (nodeKey 1 0, { word := 2 ^ 127 + 2 ^ 105 + 64 * 2 ^ 17 }),
  (nodeKey 2 0, { word := 2 ^ 127 + 2 ^ 105 + 64 * 2 ^ 17 }),
  (nodeKey 3 0, { word := 2 ^ 127 + 2 ^ 105 + 64 * 2 ^ 17, qword := 2 ^ 62 })]

/-- Packet 0 of port 0, whole, with a descriptor, at the T-die. -/
def arrives (desc : Nat) : State := { setPkt port0 0 {
    origin := .line 0, stage := .ready, win := window0, data := window0, len := some 60, ended := true, bad := some 0,
    desc := desc, maxFrame := 1518 } with
  nextPkt := 1, led.oRx := 1, qm.nodes := tree, qm.classMap := [(0, 2 ^ 31)] }

/-- What its supply of cells starts from. -/
def placedState (s : State) : State := (pkt? s 0).elim s (fun p =>
  placeRef (setPkt (leaveArrival s p) 0 { p with refs := 1, stage := .stored }) 0 { queue := some 0, kind := .main, cls := 0 })

theorem test_enqueueArrival : (let s := arrives 0; classQueue s 0 0 = some 0 ∧ qType s 0 = 1 ∧ (queue s 0).faulted = false ∧
    (queue s 0).spilled = false ∧ apSpill (qProfile s 0) = false ∧ qAqm s 0 = 0 ∧ admission s 0 0 1 = none ∧ linksFree s (qmsOf 0) ≠ 0 ∧
    (pkt? s 0).any (fun p => match takeUpTo (setPkt (placedState s) 0 {
        p with refs := 1, stage := .stored, hrPool := 32, hrCells := 0, est := 1 }) p 1 with
      | .got _ _ => true
      | _ => false) = true ∧
    holds (.enqueueArrival 0) s (fun t => (queue t 0).refs.map (fun r => (r.pkt, r.charge, r.desc)) = [(0, 1, 0)] ∧
      (queue t 0).qs = 1 ∧ (pkt? t 0).map (·.cells) = some [0] ∧ t.led.oRx = 0 ∧ t.led.oQueue = 1)) := by decide +kernel

/-- The same with its bytes in cell 7 already. -/
def arrivesLanded (desc : Nat) : State := (pkt? (arrives desc) 0).elim up (fun p =>
  { setPkt (arrives desc) 0 { p with cells := [7] } with mem.usedCells := [(7, 1)] })

theorem test_enqueueArrival_landed : holds (.enqueueArrival 0) (arrivesLanded 0) (fun t => (queue t 0).qs = 1 ∧
    (pkt? t 0).map (·.cells) = some [7] ∧ t.mem.usedCells = [(7, 1)]) ∧
    holds (.enqueueArrival 0) (arrivesLanded (2 ^ 204)) (fun t => pkt? t 0 = none ∧ t.mem.usedCells = []) := by decide +kernel

theorem test_enqueueArrival_noQueue : (let s := arrives (2 ^ 204); classQueue s 1 0 = none ∧
    holds (.enqueueArrival 0) s (fun t => pkt? t 0 = none ∧ bit (reg t Reg.qmCause) 4 = true ∧ t.qm.queues = [] ∧
      reg t (Reg.dropTotal 63) = 1)) := by decide +kernel

theorem test_enqueueArrival_multicast : holds (.enqueueArrival 0) (arrives (2 * 2 ^ 253)) (fun t => t.qm.fanout = [(0, [0])] ∧
    (pkt? t 0).map (·.stage) = some .fanout ∧ t.led.oQueue = 1) := by decide +kernel

/-- Packet 0 of port 0 waits for QMS 0's fan-out engine, for group 3; the group's one target is port 0 itself, pruned. -/
def fanning (group : Nat) : State := { setPkt port0 0 {
    origin := .line 0, stage := .fanout, win := window0, data := window0, len := some 60, ended := true, bad := some 0,
    desc := 2 * 2 ^ 253 + 3 * 2 ^ 169, maxFrame := 1518 } with
  nextPkt := 1, led.oQueue := 1, qm.fanout := [(0, [0])], qm.groups := [(3, group)], qm.targets := [(9, 2 ^ 31)] }

theorem test_mcFanout : (let g := 2 ^ 63 + 9 * 2 ^ 44 + 2 ^ 32; mgValid g = true ∧ mgCount g = 1 ∧ mgBase g = 9 ∧
    (pkt? (fanning g) 0).map (fun p => mcTarget (fanning g) p (2 ^ 31)) = some none ∧ holds (.mcFanout 0) (fanning g) (fun t =>
      t.qm.fanout = [] ∧ pkt? t 0 = none ∧ t.led.dFanout = 1 ∧ t.led.aCopy = 0 ∧ reg t Reg.mcPruned = 1)) := by decide +kernel

theorem test_mcFanout_invalid : holds (.mcFanout 0) (fanning 1) (fun t => t.qm.fanout = [] ∧ pkt? t 0 = none ∧
    reg t Reg.mcEmptyGroup = 1 ∧ t.led.dFanout = 0) := by decide +kernel

/-- Packet 0 stored in cell 0 and queued in queue 0. -/
def queued : State := { setPkt port0 0 {
    origin := .line 0, stage := .stored, len := some 60, ended := true, bad := some 0, refs := 1, cells := [0], maxFrame := 1518 } with
  nextPkt := 1, mem.usedCells := [(0, 1)], qm.nodes := tree
  qm.queues := [(0, { refs := [refTo 0 0 1], qs := 1 })] }

theorem test_dequeue : (selectPath 5 queued (nodeKey 0 0)).map (·.1) = some [nodeKey 3 0, nodeKey 2 0, nodeKey 1 0, nodeKey 0 0] ∧
    [nodeKey 3 0, nodeKey 2 0, nodeKey 1 0, nodeKey 0 0].any (nodeFaulted queued) = false ∧
    holds (.dequeue 0 0) queued (fun t => (queue t 0).refs = [] ∧ (queue t 0).qs = 0 ∧ (mfind t.outs 0).map (·.lf) = some 64 ∧
      (port t 0).dq = [0]) := by decide +kernel

theorem test_dequeue_none : selectPath 5 port0 (nodeKey 5 15) = none ∧ boundVoqs port0 = [] ∧ leaves (.dequeue 5 15) port0 port0 := by
  decide +kernel

/-- A host root whose turn it is: punt queue 1 holds packet 0. -/
def hostQueued : State := { queued with
  qm.nodes := [(nodeKey 3 1, { word := 2 ^ 127 + 2 ^ 105 + 64 * 2 ^ 17, qword := 2 * 2 ^ 62 }), (nodeKey 4 0, { word := 2 ^ 127 })]
  qm.queues := [(1, { refs := [refTo 0 0 1], qs := 1 })] }

theorem test_dequeue_host : hostTurn hostQueued = some 0 ∧ holds (.dequeue 4 0) hostQueued (fun t => (queue t 1).refs = [] ∧
    t.host.rootTurn = 0 ∧ (mfind t.outs 0).map (·.queue) = some 1) := by decide +kernel

/-- Queue 0's shaper is to change to a rate of 0x10C7 and a burst of 100. -/
def shaping : State := { up with
  qm.nodes := [(nodeKey 3 0, { word := 2 ^ 105 + 0x10C7 * 2 ^ 42 + 100 * 2 ^ 17, shRate := 0, tok := -5 })] }

theorem test_shaperRefill : refillInstant shaping (nodeKey 3 0) = true ∧ holds (.shaperRefill 3 0) shaping (fun t =>
    (node t (nodeKey 3 0)).shRate = 0x10C7 ∧ (node t (nodeKey 3 0)).tok = 100 * 2 ^ 32) ∧
    refillInstant up (nodeKey 3 0) = true ∧ holds (.shaperRefill 3 0) up (fun t =>
      (node t (nodeKey 3 0)).shRate = 0 ∧ (node t (nodeKey 3 0)).tok = 0) := by decide +kernel

/-- A correction is due for packet 0, charged 1518 and of 64. -/
def toCorrect : State := { queued with
  qm.nodes := [(nodeKey 3 0, { shRate := 1, shBurst := 2000, tok := -(1518 * 2 ^ 32) })]
  qm.due := [{ pkt := 0, lf := 1518, path := [nodeKey 3 0], voq := none }] }

theorem test_shaperCorrection : (node toCorrect (nodeKey 3 0)).shRate ≠ 0 ∧ holds (.shaperCorrection 0) toCorrect (fun t =>
    t.qm.due = [] ∧ (node t (nodeKey 3 0)).tok = -(64 * 2 ^ 32)) := by decide +kernel

/-- VOQ 5, bound, has been idle since TIME 0. -/
def idleVoq : State := { up with
  time := 10 ^ 12
  qm.nodes := [(nodeKey 3 5, { qword := 3 * 2 ^ 62 + 2 ^ 46 + 7 * 2 ^ 26 })]
  qm.voqs := [(5, { idleSince := some 0 })] }

theorem test_voqIdleRelease : voqBound (qWord idleVoq 5) = true ∧ qType idleVoq 5 = 3 ∧ voqIdle idleVoq 5 = true ∧
    timeNs idleVoq % 1000 = 0 ∧ reg idleVoq Reg.voqIdleMs * 1000 ≤ idleVoq.time / 1000 - 0 / 1000 ∧
    holds (.voqIdleRelease 5) idleVoq (fun t => t.qm.voqs = [] ∧ qWord t 5 = 3 * 2 ^ 62 ∧ reg t Reg.voqReleases = 1) := by
  decide +kernel

/-- Queue records. -/
def qmRec (l : List Byte) : List Byte := padTo l 32
def nodeRec : List Byte := qmRec ([1, 0, 0, 0] ++ beBytes 4 (2 ^ 29) ++ beBytes 16 (2 ^ 127 + 2 ^ 105 + 64 * 2 ^ 17))
def queueRec : List Byte := qmRec ([2, 0, 0, 0] ++ beBytes 4 524287 ++ beBytes 16 (2 ^ 105 + 65535 * 2 ^ 86 + 64 * 2 ^ 17) ++ beBytes 8 (2 ^ 62))
def mapRec : List Byte := qmRec ([3, 0, 0, 0] ++ beBytes 2 0 ++ [0, 0] ++ beBytes 4 (2 ^ 31))
def mcGroupRec : List Byte := qmRec ([4, 0, 0, 0] ++ beBytes 4 65535 ++ beBytes 8 (2 ^ 63))
def targetRec : List Byte := qmRec ([5, 0, 0, 0] ++ beBytes 4 262143 ++ [1, 0, 0, 0] ++ beBytes 4 (2 ^ 31))

theorem test_nodeWrite : (let s := applying qmJob [nodeRec]; nextRecord s qmJob = some nodeRec ∧ (applyQm s nodeRec).1 = 0 ∧
    holds .nodeWrite s (fun t => RecordTaken qmJob s t ∧ (node t (nodeKey 1 0)).word = 2 ^ 127 + 2 ^ 105 + 64 * 2 ^ 17)) := by
  decide +kernel

theorem test_queueWrite : (let s := applying qmJob [queueRec]; nextRecord s qmJob = some queueRec ∧ (applyQm s queueRec).1 = 0 ∧
    holds .queueWrite s (fun t => RecordTaken qmJob s t ∧ qWord t 524287 = 2 ^ 62)) := by decide +kernel

/-- With the tree in place. -/
def treeRun (r : List Byte) : State := { applying qmJob [r] with qm.nodes := tree }

theorem test_classMapWrite : nextRecord (treeRun mapRec) qmJob = some mapRec ∧ (applyQm (treeRun mapRec) mapRec).1 = 0 ∧
    holds .classMapWrite (treeRun mapRec) (fun t => RecordTaken qmJob (treeRun mapRec) t ∧ t.qm.classMap = [(0, 2 ^ 31)]) := by
  decide +kernel

theorem test_mcGroupWrite : (let s := applying qmJob [mcGroupRec]; (applyQm s mcGroupRec).1 = 0 ∧
    holds .mcGroupWrite s (fun t => RecordTaken qmJob s t ∧ t.qm.groups = [(65535, 2 ^ 63)]) ∧
    holds (.qmApply .step) s (fun t => RecordTaken qmJob s t)) := by decide +kernel

theorem test_targetWrite : (let s := applying qmJob [targetRec]; (applyQm s targetRec).1 = 0 ∧
    holds .targetWrite s (fun t => RecordTaken qmJob s t ∧ t.qm.targets = [(262143, 2 ^ 31)])) := by decide +kernel

/-- Group node 0 of port 0 is selected; a port is selected. -/
def selects (k : Nat) : State := upWith [(Reg.schSelect, k * 2 ^ 29)]

theorem test_schConfig : (let b := beBytes 16 (2 ^ 127 + 2 ^ 105 + 64 * 2 ^ 17); domainChecks (selects 1) .pf Reg.schConfig = none ∧
    (writeWords (selects 1) (selectedNode (selects 1)) (beAt b 0 16) none).1 = 0 ∧
    holds (.schConfigWrite .pf b) (selects 1) (fun t => (node t (nodeKey 1 0)).word = 2 ^ 127 + 2 ^ 105 + 64 * 2 ^ 17) ∧
    nodeKind (selectedNode (selects 0)) ≠ 3 ∧ leaves (.schConfigWrite .pf (List.replicate 24 0)) (selects 0)
      (emit (noteFailure (selects 0) .pf Reg.schConfig .refused) (.status 0 1 []))) := by decide +kernel


/-! ### The Crock memory controller (ch. 10) -/

/-- All stacksAt in a state; 1 is READY, 4 IDLE. -/
def stacksAt (x : Nat) : State := upWith ((List.range 4).map (fun k => (Reg.hbmStackState k, x)))

/-- A read request of port 0 for page 3 of stack 3, waiting as the oldest of its pseudo channel. -/
def req0 : HbmReq := { id := 0, prt := 0, page := 3, burst := 0, count := 1, write := false, at0 := 0 }

/-- It is waiting, with `n` refreshes owed; or nothing is. -/
def waiting (l : List HbmReq) (n : Nat) : State := { stacksAt 1 with
  time := 10 ^ 6, hbm.nextReq := 1, hbm.pcs := [(192, { reqs := l, current := if l.isEmpty then none else some 0, owed := n })] }

theorem test_hbmRequest : requestTaken (stacksAt 1) 3 4 50331647 63 1 = true ∧
    holds (.hbmRequest 3 4 50331647 63 1 true) (stacksAt 1) (fun t => (pcOf t 255).reqs = [{
      id := 0, prt := 4, page := 50331647, burst := 63, count := 1, write := true, at0 := 0 }]) ∧
    requestTaken (stacksAt 4) 3 0 3 0 1 = true ∧
    holds (.hbmRequest 3 0 3 0 1 false) (stacksAt 4) (fun t => (pcOf t 192).reqs = [req0] ∧ stackState t 3 = 1) := by decide +kernel

theorem test_hbmRequestComplete : reg (waiting [req0] 0) (Reg.hbmPortTargetNs 0) < 10 ^ 6 - 0 ∧
    holds (.hbmRequestComplete 3 0) (waiting [req0] 0) (fun t => (pcOf t 192).reqs = [] ∧ t.hbm.moved = 32 ∧
      reg t (Reg.hbmDeadlineMiss 0) = 1 ∧ bit (reg t (Reg.hbmCause 3)) 2 = true) := by decide +kernel

theorem test_refreshDue : (pcOf (waiting [] 0) 192).nextDue ≤ (waiting [] 0).time ∧ unspillBurst (pcOf (waiting [] 0) 192) = false ∧
    holds (.refreshDue 3 0) (waiting [] 0) (fun t => (pcOf t 192).owed = 0 ∧
      (pcOf t 192).nextDue = 0 + refreshInterval (waiting [] 0) 3) ∧
    unspillBurst (pcOf (waiting [req0] 5) 192) = true ∧
    holds (.refreshDue 3 0) (waiting [req0] 5) (fun t => (pcOf t 192).owed = 6) ∧
    holds (.refreshDue 3 0) (waiting [req0] 6) (fun t => (pcOf t 192).owed = 6 ∧ reg t (Reg.hbmRefreshSplits 3) = 1 ∧
      bit (reg t (Reg.hbmCause 3)) 3 = true) := by decide +kernel

theorem test_refreshPayback : leaves (.refreshPayback 3 0) (waiting [] 6) (waiting [] 5) := by decide +kernel

theorem test_hbmTempRead : (16 * reg up Reg.hbmHotC : Int) ≤ toSigned 32 1600 ∧ holds (.hbmTempRead 3 1600) up (fun t =>
    reg t (Reg.hbmTemp 3) = 1600 ∧ mget false t.hbm.hot 3 = true ∧ bit (reg t (Reg.hbmCause 3)) 7 = true) := by decide +kernel

theorem test_owedMax : (let s := upWith [(Reg.hbmRefreshOwedMax 3, 6)]; readChecks s .pf (Reg.hbmRefreshOwedMax 3) = none ∧
    leaves (.hbmRefreshOwedMaxRead .pf 3) s (emit up (.status 0 0 (valueBytes (Reg.hbmRefreshOwedMax 3) 6)))) := by decide +kernel

theorem test_patrolScrub : (let s := waiting [] 0; mget 0 s.hbm.scrubAt 3 + reg s Reg.hbmScrubPageNs ≤ s.time ∧
    leaves (.hbmPatrolScrub 3 []) s (setReg { s with hbm.scrubAt := [(3, 10 ^ 6)] } (Reg.hbmScrubPosition 3) 1)) := by decide +kernel

theorem test_scrubBatch : (let s := { stacksAt 4 with hbm.scrubDue := [(3, 64)] }; reg s (Reg.hbmScrubPosition 3) + 64 < 12582912 ∧
    holds (.hbmScrubBatch 3) s (fun t => t.hbm.scrubDue = [] ∧ reg t (Reg.hbmScrubPosition 3) = 64 ∧ stackState t 3 = 4)) := by
  decide +kernel

/-- A window ends after `n` bytes were moved at rate `r`. -/
def windowEnds (n r below : Nat) : State := { setReg (stacksAt 1) Reg.hbmRate r with
  time := 100000, hbm.moved := n, hbm.below := below }

theorem test_rateWindow : timeNs (windowEnds 0 1 9) % 100000 = 0 ∧ reg (windowEnds 0 1 9) Reg.hbmRatePin = 0xFF ∧
    100 * (0 * 80000) < 50 * rateCapacity (1 - 1) ∧ holds .hbmRateWindow (windowEnds 0 1 9) (fun t => t.hbm.moved = 0 ∧
      t.hbm.windowAt = 100000 ∧ t.hbm.change = some 0) ∧
    75 * rateCapacity 1 < 100 * (500000000 * 80000) ∧ holds .hbmRateWindow (windowEnds 500000000 1 0) (fun t =>
      t.hbm.change = some 2) := by decide +kernel

theorem test_rateChange : holds .hbmRateChange { stacksAt 1 with hbm.change := some 1 } (fun t => t.hbm.change = none ∧
    reg t Reg.hbmRate = 1 ∧ reg t Reg.hbmRateChanges = 1 ∧ bit (reg t (Reg.hbmCause 3)) 4 = true) := by decide +kernel

theorem test_ratePin : Permitted (stacksAt 1) .pf Reg.hbmRatePin 0 ∧ reg (stacksAt 1) Reg.hbmRate ≠ 0 ∧
    holds (.hbmRatePinWrite .pf 0) (stacksAt 1) (fun t => reg t Reg.hbmRatePin = 0 ∧ t.hbm.change = some 0) ∧
    (let s := { stacksAt 1 with hbm.change := some 1 }; Permitted s .pf Reg.hbmRatePin 2 ∧
      leaves (.hbmRatePinWrite .pf 2) s (emit (noteFailure s .pf Reg.hbmRatePin .busy) (.status 0 3 []))) := by decide +kernel

theorem test_ratesHeld : (let s := jobBegin (windowEnds 0 1 9) Reg.hbmCapture
    timeNs s % 100000 = 0 ∧ s.hbm.windowAt < s.time ∧ jobRunning s Reg.hbmCapture = true ∧ s.hbm.change = none ∧
    leaves .hbmRateWindow s { s with hbm.moved := 0, hbm.windowAt := 100000 } ∧
    Permitted s .pf Reg.hbmRatePin 2 ∧ reg s Reg.hbmRate ≠ 2 ∧
    leaves (.hbmRatePinWrite .pf 2) s (emit (noteFailure s .pf Reg.hbmRatePin .busy) (.status 0 3 []))) := by decide +kernel

theorem test_idleEnter : (let s := { setReg (stacksAt 1) Reg.hbmIdleEnable 1 with time := 10 ^ 9 }; flag s Reg.hbmIdleEnable = true ∧
    s.hbm.lastUse + reg s Reg.hbmIdleUs * 1000 ≤ s.time ∧ holds .hbmIdleEnter s (fun t => stackState t 3 = 4 ∧
      bit (reg t (Reg.hbmCause 3)) 6 = true)) := by decide +kernel

/-- Stack 3 is captured, from delay 5 to 5. -/
def captures : State := upWith [(Reg.hbmCaptureArg, 3 * 2 ^ 30 + 5 * 2 ^ 15 + 5 * 2 ^ 7 + 8)]

theorem test_capture : may captures .pf Reg.hbmCapture ∧ stackParked captures (capStack captures) = true ∧
    leaves (.hbmCapture (.start .pf) 0) captures
      (answeredWord (setBlk (jobBegin captures Reg.hbmCapture) Reg.hbmCaptureResult []) .pf Reg.hbmCapture) ∧
    (let s := jobBegin captures Reg.hbmCapture; capStop s < capStart s + (job s Reg.hbmCapture).phase * capStep s + capStep s) := by
  decide +kernel

theorem test_hbmInit : may up .pf (Reg.hbmInit 3) ∧ stackParked up 3 = true ∧
    leaves (.hbmInit 3 (.start .pf) true) up (answeredWord (jobBegin up (Reg.hbmInit 3)) .pf (Reg.hbmInit 3)) ∧
    (let s := jobBegin up (Reg.hbmInit 3); holds (.hbmInit 3 .step true) s (fun t => stackState t 3 = 1 ∧
      JobCompleted t (Reg.hbmInit 3) 0 ∧ bit (reg t (Reg.hbmCause 3)) 5 = true) ∧
      holds (.hbmInit 3 .step false) s (fun t => stackState t 3 = 6 ∧ JobCompleted t (Reg.hbmInit 3) 2)) := by decide +kernel

theorem test_hbmOffline : may (stacksAt 1) .pf (Reg.hbmOffline 3) ∧ holds (.hbmOffline .pf 3) (stacksAt 1) (fun t => stackState t 3 = 2 ∧
    jobRunning t (Reg.hbmOffline 3) = true) ∧ may up .pf (Reg.hbmOffline 3) ∧ stackState up 3 ≠ 1 ∧ stackState up 3 ≠ 4 ∧
    leaves (.hbmOffline .pf 3) up (emit (noteFailure up .pf (Reg.hbmOffline 3) .refused) (.status 0 1 [])) := by decide +kernel

theorem test_hbmDrained : (let s := jobBegin (stacksAt 2) (Reg.hbmOffline 3); stackInUse s 3 = false ∧
    holds (.hbmDrained 3) s (fun t => stackState t 3 = 3 ∧ JobCompleted t (Reg.hbmOffline 3) 0)) := by decide +kernel


/-! ### Bunting (ch. 12) -/

/-- Lane 319 of bundle 7. -/
def laneIs (x : FLane) : State := { up with fl.lanes := [(319, x)] }

theorem test_fecCodeword : holds (.fecCodewordDecode 319 1) (laneIs { cwRun := 7 }) (fun t =>
      reg t (Reg.flFecCorrected 319) = 1 ∧ (flane t 319).cwLock = true) ∧
    holds (.fecCodewordDecode 319 2) (laneIs { cwLock := true, locked := true, cwRun := 7 }) (fun t =>
      reg t (Reg.flFecUncorrected 319) = 1 ∧ bit (reg t (Reg.flCause 319)) 6 = true ∧ (flane t 319).cwLock = false ∧
      (flane t 319).locked = false) := by decide +kernel

/-- A frame of the lane: its number is 3. -/
def frameHead : List Byte := [39, 3, 0, 0, 0, 0, 0, 0, 0, 0, 0]
def bunting (n : Nat) : List Byte := beBytes 4 fawWord ++ frameHead ++ [byte (crc8 frameHead)] ++ List.replicate n 0

theorem bunting_length (n : Nat) : (bunting n).length = 16 + n := by
  simp only [bunting, List.length_append, List.length_replicate]
  have : (beBytes 4 fawWord).length = 4 ∧ frameHead.length = 11 := by decide
  simp only [this.1, this.2, List.length_cons, List.length_nil]

/-- Two hits were made at offset 16383. -/
def hunting : State := laneIs { cwLock := true, cands := [{ off := 16383, hits := 2, next := 3 }] }

theorem test_frameHunt : (flane hunting 319).cwLock = true ∧ laneTest hunting 319 = false ∧ (bunting 16368).length = 16384 ∧
    (flane hunting 319).locked = false ∧
    (flane hunting 319).cands.find? (fun c => c.off = 16383) = some { off := 16383, hits := 2, next := 3 } ∧
    beAt (bunting 16368) 0 4 = fawWord ∧ crc8 (slice (bunting 16368) 4 11) = byteAt (bunting 16368) 15 ∧
    byteAt (bunting 16368) 5 = 3 := by
  refine ⟨by decide +kernel, by decide +kernel, bunting_length _, ?_⟩
  decide +kernel

/-- The lane is in frame lock at offset 0. -/
def framed : State := laneIs { cwLock := true, locked := true }

theorem test_framed : (flane framed 319).cwLock = true ∧ laneTest framed 319 = false ∧ (bunting 16368).length = 16384 ∧
    (flane framed 319).off < 16384 ∧ (flane framed 319).locked = true ∧ beAt (bunting 16368) 0 4 = fawWord := by
  refine ⟨by decide +kernel, by decide +kernel, bunting_length _, ?_⟩
  decide +kernel

/-- Bundle 7's receive set is the lane, and it holds a container frame's bytes. -/
def contains (n : Nat) : State := setReg (setReg (laneIs { locked := true, acc := List.replicate n 0 })
  (Reg.flRxLaneId 319) 39) (Reg.fbRxLaneSet 7) (2 ^ 39)

theorem test_container : (idsOf (reg (contains 16320) (Reg.fbRxLaneSet 7))).filterMap (laneOfId (contains 16320) 7) = [319] ∧
    (∀ x ∈ [319], 16320 ≤ (flane (contains 16320) x).acc.length) := by
  refine ⟨by decide +kernel, fun x hx => ?_⟩
  have : x = 319 := by simpa using hx
  subst this
  exact Nat.le_of_eq (List.length_replicate (n := 16320)).symm

theorem test_laneSignal_fabric : holds (.fabricLaneSignalChange 319 false) (laneIs { signal := true }) (fun t =>
    (flane t 319).signal = false ∧ bit (reg t (Reg.flDefects 319)) 0 = true ∧ bit (reg t (Reg.flCause 319)) 0 = true) := by
  decide +kernel

theorem test_losClear : (let s := { setReg (laneIs { signal := true }) (Reg.flDefects 319) 1 with time := 1000000 };
    (flane s 319).signalAt + 1000000 ≤ s.time ∧ bit (reg s (Reg.flDefects 319)) 0 = true ∧
    holds (.losClear 319) s (fun t => reg t (Reg.flDefects 319) = 0)) := by decide +kernel

/-- A management packet of two bytes with its CRC, and one with a wrong CRC. -/
def goodPacket : List Byte := [0, 2, 7, 8] ++ beBytes 4 (crc32 [0, 2, 7, 8])
def raw (p : List Byte) : State := setBundle up 7 { mgRaw := [p] }

theorem test_mgmtChannelPacket : crc32 (goodPacket.take (beAt goodPacket 0 2 + 2)) = beAt goodPacket (beAt goodPacket 0 2 + 2) 4 ∧
    holds (.mgmtChannelPacket 7) (raw goodPacket) (fun t => (bundle t 7).mgHeld = [[7, 8]] ∧ (bundle t 7).mgRaw = [] ∧
      reg t (Reg.fbMgmtRxPackets 7) = 1) ∧
    crc32 (([0, 2, 7, 8, 0, 0, 0, 0] : List Byte).take 4) ≠ beAt [0, 2, 7, 8, 0, 0, 0, 0] 4 4 ∧
    holds (.mgmtChannelPacket 7) (raw [0, 2, 7, 8, 0, 0, 0, 0]) (fun t => (bundle t 7).mgHeld = [] ∧
      bit (reg t (Reg.fbCause 7)) 13 = true) := by decide +kernel

theorem test_timePllLock : leaves .timePllLock up { up with fl.timeLocked := true } := by decide +kernel

theorem test_pmSecond : timeNs up % 1000000000 = 0 := by decide +kernel

theorem test_prbsCheckerLock : (let s := upWith [(Reg.flPrbsMode 319, 1), (Reg.lanePrbsMode 255, 1)];
    leaves (.prbsCheckerLock true 319) s { s with fl.lanes := [(319, { prbsLock := true })] } ∧
    leaves (.prbsCheckerLock false 255) s { s with lanes := [(255, { prbsLock := true })] }) := by decide +kernel

theorem test_prbsLockLost : holds (.prbsLockLost true 319 5) (laneIs { prbsLock := true }) (fun t => (flane t 319).prbsLock = false ∧
      bit (reg t (Reg.flCause 319)) 7 = true ∧ reg t (Reg.flPrbsErrors 319) = 5) ∧
    holds (.prbsLockLost false 255 (2 ^ 32)) { up with lanes := [(255, { prbsLock := true })] } (fun t =>
      (mget {} t.lanes 255).prbsLock = false ∧ bit (reg t (Reg.laneCause 255)) 2 = true ∧
      reg t (Reg.lanePrbsErrors 255) = 2 ^ 32 - 1) := by decide +kernel

theorem test_flPrbsErrors : (let s := upWith [(Reg.flPrbsErrors 319, 9)]; readChecks s .pf (Reg.flPrbsErrors 319) = none ∧
    leaves (.flPrbsErrorsRead .pf 319 4) s (emit up (.status 0 0 (beBytes 4 9)))) := by decide +kernel

theorem test_prbsLoopback : Permitted up .pf (Reg.flLoopback 319) 2 ∧ bit (reg up (Reg.fbTxLaneSet (bundleOf 319))) (319 % 40) = false ∧
    (∀ i ∈ idsOf (reg up (Reg.fbRxLaneSet (bundleOf 319))), laneOfId up (bundleOf 319) i ≠ some 319) ∧
    holds (.fabricPrbsLoopbackWrite .pf 319 true 2) up (fun t => reg t (Reg.flLoopback 319) = 2 ∧ (flane t 319).locked = false) ∧
    Permitted up .pf (Reg.flPrbsMode 319) 1 ∧ holds (.fabricPrbsLoopbackWrite .pf 319 false 1) up (fun t =>
      reg t (Reg.flPrbsMode 319) = 1 ∧ .lanePattern 575 1 ∈ t.sent) := by decide +kernel

/-- Bundle 7 is asked to send on lane 0 of its own, which is enabled. -/
def asksSet : State := upWith [(Reg.fbLaneSetArg 7, 1), (Reg.flEnable 280, 1), (Reg.fbShedFloor 7, 1)]

theorem test_laneSetChange : may asksSet .pf (Reg.fbLaneSetChange 7) ∧ maskFit asksSet 7 1 = true ∧ mayChange asksSet 7 = true ∧
    leaves (.fbLaneSetChange .pf 7) asksSet (answeredWord (beginChange (jobBegin asksSet (Reg.fbLaneSetChange 7)) 7 1 true)
      .pf (Reg.fbLaneSetChange 7)) ∧
    (let s := beginChange asksSet 7 1 false; may s .pf (Reg.fbLaneSetChange 7) ∧ mayChange s 7 = false ∧
      leaves (.fbLaneSetChange .pf 7) s (emit (noteFailure s .pf (Reg.fbLaneSetChange 7) .busy) (.status 0 3 []))) := by
  decide +kernel

theorem test_laneSetChange_unfit : (let s := setReg asksSet (Reg.flEnable 280) 0; maskFit s 7 1 = false ∧
    holds (.fbLaneSetChange .pf 7) s (fun t => JobCompleted t (Reg.fbLaneSetChange 7) 3)) := by decide +kernel

theorem test_shedGovernor : timeNs asksSet % 1000000 = 0 ∧ holds (.shedGovernor 7) (setBundle asksSet 7 { used := 5, sent := 6 })
    (fun t => (bundle t 7).used = 0 ∧ (bundle t 7).sent = 0 ∧ (bundle t 7).txChange = none) := by decide +kernel

/-- A lane-set message of a type waits at bundle 7, with a change of its mask under way. -/
def msg (ty arg : Nat) : LsMsg := { ty := ty, tag := 2, arg := arg, mask := 2 ^ 39, count := 1 }
def messaged (ty arg : Nat) (x : FBundle) : State := setBundle (withRegs (laneIs { locked := true })
  [(Reg.flRxLaneId 319, 39), (Reg.flEnable 319, 1), (Reg.fbShedFloor 7, 1)]) 7 { x with msgs := [msg ty arg] }

/-- The transmitter has proposed it; the receiver has accepted it. -/
def proposed : LsChange := { mask := 2 ^ 39, tag := 2, step := 1, job := true }

theorem test_laneSetPropose : rejectReason (messaged 1 0 {}) 7 (msg 1 0) = 0 ∧ holds (.laneSetPropose 7) (messaged 1 0 {}) (fun t =>
      bundle t 7 = { rxChange := some { mask := 2 ^ 39, tag := 2, step := 2 }, slotR := some (msg 2 0) }) ∧
    (let x : FBundle := { rxChange := some { mask := 1 } }; rejectReason (messaged 1 0 x) 7 (msg 1 0) = 2 ∧
      holds (.laneSetPropose 7) (messaged 1 0 x) (fun t => bundle t 7 = { x with slotR := some (msg 3 2) })) := by decide +kernel

theorem test_laneSetAccept : holds (.laneSetAccept 7) (messaged 2 0 { txChange := some proposed, txMf := 10 }) (fun t =>
    bundle t 7 = { txMf := 10, txChange := some { proposed with step := 2, effect := some 13 } }) := by decide +kernel

theorem test_laneSetReject : (let s := jobBegin (messaged 3 1 { txChange := some proposed }) (Reg.fbLaneSetChange 7);
    holds (.laneSetReject 7) s (fun t => (bundle t 7).txChange = none ∧ reg t (Reg.fbLsRefused 7) = 1 ∧
      bit (reg t (Reg.fbCause 7)) 10 = true ∧ JobCompleted t (Reg.fbLaneSetChange 7) 1)) := by decide +kernel

theorem test_laneSetCommit : holds (.laneSetCommit 7) (messaged 4 2 { rxChange := some { proposed with step := 2 }, rxMf := 20 })
    (fun t => bundle t 7 = { rxMf := 20, rxChange := some { proposed with step := 2, effect := some 22 } }) := by decide +kernel

theorem test_laneSetRequest : maskFit (messaged 5 0 {}) 7 (2 ^ 39) = true ∧ holds (.laneSetRequest 7) (messaged 5 0 {}) (fun t =>
    bundle t 7 = { txChange := some { mask := 2 ^ 39 } }) := by decide +kernel

theorem test_laneSetEffect : (let c := { proposed with step := 2, effect := some 13, job := false };
    let s := setBundle up 7 { txChange := some c, rxChange := some c, txMf := 13, rxMf := 13 };
    holds (.laneSetEffect 7 true) s (fun t => reg t (Reg.fbTxLaneSet 7) = 2 ^ 39 ∧ (bundle t 7).txChange = none ∧
      (bundle t 7).quietAt = some 13 ∧ reg t (Reg.fbLsChanges 7) = 1 ∧ bit (reg t (Reg.fbCause 7)) 9 = true) ∧
    holds (.laneSetEffect 7 false) s (fun t => reg t (Reg.fbRxLaneSet 7) = 2 ^ 39 ∧ (bundle t 7).rxChange = none)) := by
  decide +kernel

theorem test_laneSetTimeout : (let s := setBundle up 7 { txChange := some proposed, rxChange := some proposed, txMf := 4, rxMf := 4 };
    holds (.laneSetTimeout 7 true) s (fun t => (bundle t 7).txChange = none ∧ reg t (Reg.fbLsTimeouts 7) = 1 ∧
      bit (reg t (Reg.fbCause 7)) 11 = true) ∧
    leaves (.laneSetTimeout 7 false) s (setBundle s 7 { bundle s 7 with rxChange := none })) := by decide +kernel

theorem test_laneQuiet : (let s := { setReg (setReg up (Reg.fbTxLaneSet 7) (2 ^ 39)) (Reg.fbQuietEnable 7) 1 with
      fl.lanes := [(280, { on := true }), (319, { on := true })], fl.bundles := [(7, { quietAt := some 13, txMf := 14 })] };
    holds (.laneQuiet 7) s (fun t => (bundle t 7).quietAt = none ∧ (flane t 280).on = false ∧ (flane t 319).on = true)) := by
  decide +kernel

theorem test_laneWake : (let s := upWith [(Reg.flEnable 319, 1)]; laneTest s 319 = false ∧
    leaves (.laneWake 319) s { s with fl.lanes := [(319, { on := true })] }) := by decide +kernel

theorem test_laneAutoRemove : (let s := { withRegs (laneIs { defectAt := some 0 }) [(Reg.fbAutoRemove 7, 1), (Reg.flRxLaneId 319, 39),
      (Reg.fbRxLaneSet 7, 2 ^ 39 + 1), (Reg.fbShedFloor 7, 1)] with time := 1000000 };
    bit (reg s (Reg.fbRxLaneSet 7)) (reg s (Reg.flRxLaneId 319)) = true ∧
    reg s (Reg.fbShedFloor 7) + 1 ≤ popCount 40 (reg s (Reg.fbRxLaneSet 7)) ∧
    leaves (.laneAutoRemove 319) s (setBundle s 7 { slotR := some { ty := 5, tag := 0, arg := 0, mask := 1, count := 1 } })) := by
  decide +kernel

/-- Lane 319 sends. -/
def sendsFrames : State := setReg (laneIs { on := true }) (Reg.flEnable 319) 1

theorem test_frameSend : sendsFrames.pwr.dark = false ∧ 319 ∈ bundleLanes 7 ∧ (flane sendsFrames 319).on = true ∧
    flag sendsFrames (Reg.flEnable 319) = true ∧ laneTest sendsFrames 319 = false := by decide +kernel


/-! ### Fabric transport (ch. 13) -/

/-- Device 7; a pennant stands at bundle 7, whose sixth bundle leads to device 5. -/
def fabric : State := setDestRec { upWith [(Reg.ftDeviceId, 7), (Reg.fbTxLaneSet 6, 1)] with ft.dest := [(5, 2)] } 5
  { dist := [0xFFFF, 0xFFFF, 0xFFFF, 0xFFFF, 0xFFFF, 0xFFFF, 1, 2], startOwed := false }
def receives (s : State) (p : List Byte) : State := setBundle s 7 { places := [p] }
/-- The same with the pennant taken. -/
def received (s : State) : State := setBundle s 7 {}

/-- A single-segment pennant of 60 bytes of source 9 for a device, with sequence 6. -/
def single (dst : Nat) : List Byte := pennant 1 9 dst 3 5 6 60 0 0 (List.replicate 60 1)

theorem test_idlePennant : (let s := receives fabric idlePennant; headerOk idlePennant = true ∧ pnType idlePennant = 0 ∧
      leaves (.idlePennantReceive 7) s (received fabric)) ∧
    (let s := receives fabric (List.replicate 256 0); headerOk (List.replicate 256 0) = false ∧
      leaves (.idlePennantReceive 7) s (raise (count1 (received fabric) (Reg.ftHdrErrors 7)) .ft 3)) := by decide +kernel

theorem test_dataPennant : (let p := single 7; let s := receives fabric p; headerOk p = true ∧ namesDevice (ownId s) = true ∧
    pnType p = 1 ∧ pnDst p = ownId s ∧ pnSrc p = 9 ∧ pnPort p = 3 ∧ pnClass p = 5 ∧ pnSeq p = 6 ∧ (rxCtx s 9).state = 0 ∧ heldPennants s = 0 ∧
    holds (.dataPennantReceive 7) s (fun t => rxCtx t 9 = { state := 1, held := [{ seq := 6, at0 := 0, bytes := p }] })) := by
  decide +kernel

theorem test_dataPennant_open : (let p := single 7; let s := setCtx (receives fabric p) 9 { state := 2, e := 6 };
    seqAhead (rxCtx s 9).e (pnSeq p) = 0 ∧ holds (.dataPennantReceive 7) s (fun t => rxCtx t 9 = { state := 2, e := 7 } ∧
      t.led.aFabric = 1)) := by decide +kernel

theorem test_dataPennant_relay : (let p := single 5; let s := receives fabric p; pnDst p ≠ ownId s ∧ destState s 5 ≠ 0 ∧
    bestDist s 5 < natAt (destRec s 5).dist 7 ∧ (routeSet s 5).filter (· ≠ 7) = [6] ∧
    (spray (received fabric) 5 (some 7) (dataClass p) bufferRoom).map (·.1) = some 6 ∧
    holds (.dataPennantReceive 7) s (fun t => (bundle t 6).relay = [p] ∧ (bundle t 7).places = [])) := by decide +kernel

theorem test_multicastPennant : (let p := pennant 6 9 65535 0 0 0 10 0 0 [1]; let s := { receives fabric p with
      ft.mcMap := [(65535, 0x41)] };
    pnType p = 6 ∧ headerOk p = true ∧ bit (fabricMap s 65535) 8 = false ∧ holds (.multicastPennantReceive 7) s (fun t =>
      (bundle t 0).relay = [p] ∧ (bundle t 6).relay = [p] ∧ (bundle t 7).relay = [])) := by decide +kernel

theorem test_beaconReceive_own : (let p := pennant 9 7 0 0 0 3 8 0 0 [0, 1]; let s := receives fabric p; pnType p = 9 ∧
    headerOk p = true ∧ pnSrc p = ownId s ∧ holds (.beaconReceive 7) s (fun t => reg t Reg.ftOwnBeacons = 1 ∧
      bit (reg t Reg.ftCause) 7 = true)) := by decide +kernel

theorem test_beaconReceive : (let p := pennant 9 5 0 0 0 3 8 0 0 [0, 0]; let s := receives fabric p;
    headerOk p = true ∧ pnSrc p = 5 ∧ (destRec s 5).dist.length = 8 ∧ holds (.beaconReceive 7) s (fun t =>
      natAt (destRec t 5).dist 7 = 1 ∧ (destRec t 5).heard = 128 ∧ (bundle t 6).ctrl.length = 1)) := by decide +kernel

theorem test_sequenceStart : (let p := pennant 10 9 7 0 0 (2 ^ 24 - 1) 1 0 0 [1]; let s := receives fabric p; headerOk p = true ∧
    pnType p = 10 ∧ pnDst p = ownId s ∧ byteAt p 16 = 1 ∧
    leaves (.sequenceStartReceive 7) s (setCtx (received fabric) 9 { state := 2, e := 2 ^ 24 - 1 })) := by decide +kernel

/-- A pennant of two credit entries, of kinds 1 and 2. -/
def credits (ty : Nat) : List Byte := pennant ty 9 7 0 0 0 32 0 0 (beBytes 16 (creditEntry 3 5 1 6 0 0) ++ beBytes 16 (creditEntry 3 5 2 6 0 0))

theorem test_creditPennants : (let s := receives fabric (credits 7); headerOk (credits 7) = true ∧ pnType (credits 7) = 7 ∧
      pnDst (credits 7) = ownId s ∧
      leaves (.creditRequestPennantReceive 7) s { received fabric with ft.inbox := [(9, creditEntry 3 5 1 6 0 0)] }) ∧
    (let s := receives fabric (credits 8); headerOk (credits 8) = true ∧ pnType (credits 8) = 8 ∧
      leaves (.creditGrantPennantReceive 7) s { received fabric with ft.inbox := [(9, creditEntry 3 5 2 6 0 0)] }) := by decide +kernel

theorem test_reorderTimeout : (let s := setCtx { fabric with time := 100000000 } 9 { state := 1, held := [{ seq := 6, at0 := 0, bytes := single 7 }] };
      (rxCtx s 9).since + reg s Reg.ftReorderTimeoutNs ≤ s.time ∧ holds (.reorderTimeout 9) s (fun t =>
        (rxCtx t 9).state = 2 ∧ (rxCtx t 9).e = 7 ∧ (rxCtx t 9).held = [])) ∧
    (let s := setCtx { fabric with time := 100000000 } 9 { state := 2, e := 4, held := [{ seq := 6, at0 := 0, bytes := single 7 }] };
      holds (.reorderTimeout 9) s (fun t => reg t Reg.ftSeqGaps = 1 ∧ bit (reg t Reg.ftCause) 5 = true ∧ (rxCtx t 9).e = 7)) := by
  decide +kernel

theorem test_reassemblyTimeout : (let a : Assembly := { pkt := none, form := [], lastAt := 0 };
    let s := { fabric with time := 10 ^ 12, ft.asm := [(9, a), (groupKey 9 65535, a)] };
    a.lastAt + reg s Reg.ftReassemblyTimeoutUs * 1000 ≤ s.time ∧
    holds (.reassemblyTimeout 9 none) s (fun t => t.ft.asm = [(groupKey 9 65535, a)]) ∧
    holds (.reassemblyTimeout 9 (some 65535)) s (fun t => t.ft.asm = [(9, a)])) := by decide +kernel

/-- A credit entry of device 5 waits; VOQ 8 is bound to port 3 and class 5 of device 5, has asked for 9 units and has 100 bytes. -/
def entryWaits (e : Nat) : State := { fabric with
  ft.inbox := [(5, e)]
  qm.nodes := [(nodeKey 3 8, { qword := 3 * 2 ^ 62 + 2 ^ 46 + 5 * 2 ^ 26 + 3 * 2 ^ 16 + 5 * 2 ^ 13 })]
  qm.voqs := [(8, { b := 100, r := 9 })] }

theorem test_creditRequestEntry : (let e := creditEntry 3 5 1 6 0 0; bits e 114 112 = 1 ∧
    holds .creditRequestEntry (entryWaits e) (fun t => t.ft.inbox = [] ∧ t.ft.grants = [(grantKey 5 3 5, { p := 6 })])) := by
  decide +kernel

theorem test_creditGrantEntry : (let e := creditEntry 3 5 2 6 0 0; bits e 114 112 = 2 ∧ answeredVoq (entryWaits e) 5 e = some 8 ∧
      holds .creditGrantEntry (entryWaits e) (fun t => t.ft.inbox = [] ∧ (mget {} t.qm.voqs 8).b = 24676 ∧ (mget {} t.qm.voqs 8).r = 3)) ∧
    (let e := creditEntry 3 4 2 6 0 0; answeredVoq (entryWaits e) 5 e = none ∧ holds .creditGrantEntry (entryWaits e) (fun t =>
      reg t Reg.voqStrayGrants = 1 ∧ bit (reg t Reg.qmCause) 7 = true ∧
      mget [] t.ft.gather 5 = [{ since := 0, ty := 7, entries := [creditEntry 3 4 3 0 24576 0] }])) := by decide +kernel

theorem test_creditReturnEntry : (let e := creditEntry 3 5 3 0 4000 0; bits e 114 112 = 3 ∧ holds .creditReturnEntry
    { entryWaits e with ft.grants := [(grantKey 5 3 5, { o := 4096 })] } (fun t => t.ft.grants = [(grantKey 5 3 5, { o := 96 })])) := by
  decide +kernel

theorem test_creditBusyEntry : (let e := creditEntry 3 5 4 6 0 0; bits e 114 112 = 4 ∧ answeredVoq (entryWaits e) 5 e = some 8 ∧
    holds .creditBusyEntry (entryWaits e) (fun t => (mget {} t.qm.voqs 8).busyUntil = some 1000 ∧ (mget {} t.qm.voqs 8).r = 3)) := by
  decide +kernel

theorem test_probes : (let e := creditEntry 0 0 5 0 0 77; bits e 114 112 = 5 ∧ leaves .probeEntry (entryWaits e)
      (gatherEntry { entryWaits e with ft.inbox := [] } 5 8 (creditEntry 0 0 6 0 0 77))) ∧
    (let e := creditEntry 0 0 6 0 0 (2 ^ 32 - 1); bits e 114 112 = 6 ∧ destState (entryWaits e) 5 ≠ 0 ∧
      holds .probeAnswerEntry (entryWaits e) (fun t => t.ft.inbox = [] ∧ (destRec t 5).rtt = 1 ∧ destState t 5 = 2)) ∧
    (let e := creditEntry 0 0 6 0 0 1; holds .probeAnswerEntry (entryWaits e) (fun t =>
      (destRec t 5).rtt = 2 ^ 32 - 1 ∧ destState t 5 = 3)) := by decide +kernel

theorem test_creditTimers : (let s := { entryWaits 0 with time := 10 ^ 9, qm.voqs := [(8, { b := 5000, creditSince := some 0, busyUntil := some 7 })] };
    holds (.creditBusyHoldoffEnd 8) s (fun t => (mget {} t.qm.voqs 8).busyUntil = none) ∧
    0 + reg s Reg.ftReturnNs ≤ s.time ∧ holdsRef (queue s 8) = false ∧
    holds (.creditReturnTimer 8) s (fun t => (mget {} t.qm.voqs 8).b = 0 ∧
      mget [] t.ft.gather 5 = [{ since := s.time, ty := 7, entries := [creditEntry 3 5 3 0 5000 0] }])) ∧
    (let s := { entryWaits 0 with time := 10 ^ 12 }; (mget {} s.qm.voqs 8).answerAt + reg s Reg.ftRequestTimeoutUs * 1000 ≤ s.time ∧
      holds (.creditRequestTimeout 8) s (fun t => reg t Reg.ftRequestTimeouts = 1 ∧ bit (reg t Reg.ftCause) 6 = true)) := by
  decide +kernel

/-- Device 5 waits for two units of port 0. -/
def asksGrant : State := { port0 with ft.grants := [(grantKey 5 0 5, { p := 2 })] }

theorem test_grantIssue : (grantTurn asksGrant 0).find? (grantable asksGrant) = some (grantKey 5 0 5) ∧
    4096 * 8 * 100 ≤ grantTokens asksGrant 0 ∧ portSpeed asksGrant 0 = 25 ∧ holds (.grantIssue 0) asksGrant (fun t =>
      mget grantCap t.ft.tokens 0 = grantTokens asksGrant 0 - 3276800 ∧ t.ft.grants = [(grantKey 5 0 5, { p := 1, o := 4096 })] ∧
      mget [] t.ft.gather 5 = [{ since := 0, ty := 8, entries := [creditEntry 0 5 2 1 0 0] }]) := by decide +kernel

theorem test_beaconSend : (let s := setReg { fabric with ft.beacons := 2 ^ 24 - 1 } (Reg.fbPathDefects 3) 1; timeNs s % 100000 = 0 ∧
    flag s Reg.ftBeaconEnable = true ∧ namesDevice (ownId s) = true ∧ holds .beaconSend s (fun t => t.ft.beacons = 0 ∧
      (bundle t 7).ctrl = [beacon s 7 (2 ^ 24 - 1) 0 7] ∧ (bundle t 0).ctrl.length = 1 ∧ (bundle t 3).ctrl = [])) := by decide +kernel

theorem test_beaconMissCheck : (let s := setDestRec fabric 5 { destRec fabric 5 with miss := [0, 0, 0, 0, 0, 0, 2, 2], heard := 128 };
    (mkeys s.ft.recs).Nodup ∧ 5 ∈ mkeys s.ft.recs ∧ (destRec s 5).miss.length = 8 ∧ holds .beaconMissCheck s (fun t =>
      (destRec t 5).heard = 0 ∧ natAt (destRec t 5).dist 6 = 0xFFFF ∧ natAt (destRec t 5).dist 7 = 2)) := by decide +kernel

theorem test_probeSend : (let s := { fabric with ft.dest := [(5, 1)] }; (destRec s 5).probeAt = none ∧
      leaves (.probeSend 5) s (probeDest s 5)) ∧
    (let s := { fabric with ft.dest := [(5, 3)] }; leaves (.probeSend 5) s (probeDest s 5)) := by decide +kernel

theorem test_probeUnanswered : (let s := setDestRec { fabric with time := 10 ^ 9 } 5 { destRec fabric 5 with probeAt := some 0, silent := 3 };
    destReachable s 5 = true ∧ 0 + reg s Reg.ftHorizonNs < s.time ∧ holds (.probeUnanswered 5) s (fun t => destState t 5 = 3 ∧
      bit (reg t Reg.ftCause) 2 = true)) := by decide +kernel

/-- Credit entries wait for device 5: a request and a probe. -/
def gathered : State := { fabric with
  time := 77
  ft.gather := [(5, [{ since := 0, ty := 7, entries := [creditEntry 3 5 1 6 0 0, creditEntry 0 0 5 0 0 0] }])] }

theorem test_creditPennantSend : gathered.pwr.flushing = false ∧ (routeSet gathered 5).isEmpty = false ∧
    (spray { gathered with ft.gather := mset [] gathered.ft.gather 5 [] } 5 none none bufferRoom).map (·.1) = some 6 ∧
    holds (.creditPennantSend 5) gathered (fun t => mget [] t.ft.gather 5 = [] ∧ (bundle t 6).credit = [pennant 7 7 5 0 0 0 32 0 0
      (beBytes 16 (creditEntry 3 5 1 6 0 0) ++ beBytes 16 (creditEntry 0 0 5 0 0 (timeNs gathered)))]) := by decide +kernel

/-- Packet 0, of 60 bytes, has been dequeued from VOQ 8 for port 3 and class 5 of device 5. -/
def voqDesc : Nat := 5 * 2 ^ 214 + 3 * 2 ^ 204 + 5 * 2 ^ 201 + 60 * 2 ^ 185
def dequeued : State := { setPkt { fabric with od := (setReg fabric (Reg.portMode 0) 2).od } 0 {
    origin := .line 0, stage := .stored, data := window0, len := some 60, ended := true, bad := some 0, refs := 1, maxFrame := 1518,
    desc := voqDesc } with
  nextPkt := 1
  led.oOut := 1
  outs := [(0, outAt { refTo 0 voqDesc 1 with cls := 5 } (nodeKey 5 0) 8)] }

theorem test_pennantSend : Sound dequeued ∧ (fabxLine dequeued 8).map (·.1) = [0] ∧
    (mfind dequeued.outs 0).map (·.ref.kind) = some .main ∧ dDestDevice voqDesc = 5 ∧
    (pkt? dequeued 0).map formWhole = some true ∧ mget 8 dequeued.ft.busy 5 = 8 ∧ (destRec dequeued 5).startOwed = false ∧
    (fabxLine dequeued 8).all (fun x => (pkt? dequeued 0).any (fun p => decide ((fabricForm dequeued x.2 p false).length = 104))) = true ∧
    (spray dequeued 5 none (some 5) bufferRoom).map (·.1) = some 6 ∧
    holds (.pennantSend 8) dequeued (fun t => (bundle t 6).own.map (fun p => [pnType p, pnDst p, pnPort p, pnClass p, pnLen p, p.length])
        = [[1, 5, 3, 5, 104, 256]] ∧ (bundle t 6).own.all headerOk = true ∧ mget 0 t.ft.pairSeq 5 = 1 ∧ mfind t.outs 0 = none ∧
      t.led.dFabric = 1) := by decide +kernel


/-! ### Observability (ch. 14) -/

/-- An epoch has ended in which a frame arrived that nothing accounts for. -/
def epochEnds (incomplete : Bool) : State := { up with
  time := 10 ^ 12, led := { aLine := 1, oQueue := 3, oStart := 3, incomplete := incomplete } }

theorem test_ledger : Sound (epochEnds false) ∧ timeNs (epochEnds false) % 1000000 = 0 ∧ (epochEnds false).led.imbalance = 1 ∧
    holds .ledgerEpochBoundary (epochEnds false) (fun t => t.led.aLine = 0 ∧ t.led.oQueue = 3 ∧ t.led.oStart = 3 ∧
      t.led.history = [ledgerRecord (epochEnds false).led 999999] ∧ reg t Reg.ledgerMismatches = 1 ∧
      reg t Reg.ledgerLastMismatch = 999999 ∧ bit (reg t Reg.obsCause) 0 = true) ∧
    holds .ledgerEpochBoundary (epochEnds true) (fun t => t = { epochEnds true with led := t.led }) := by decide +kernel

/-- Selector 4094 counts event 3 of instance 0 and carries into 4095. -/
def chained : Nat := 2 ^ 31 + 2 ^ 30 + 3 * 2 ^ 18
def counting : State := upWith [(Reg.perfSelect 4094, chained), (Reg.perfSelect 4095, 2 ^ 31), (Reg.perfCounter 4094, 2 ^ 32 - 1),
  (Reg.perfCounter 4095, 2 ^ 32 - 2)]

theorem test_perfSelect : Permitted up .pf (Reg.perfSelect 4094) chained ∧ bits chained 17 0 < perfInstances (bits chained 27 18) ∧
    (perfModes (bits chained 27 18)).contains (bits chained 29 28) = true ∧
    leaves (.perfSelectWrite .pf 4094 chained) up (emit (setReg up (Reg.perfSelect 4094) chained) (okTo .pf)) ∧
    Permitted up .pf (Reg.perfSelect 4095) (0x7F * 2 ^ 18) ∧ perfInstances (bits (0x7F * 2 ^ 18) 27 18) = 0 ∧
    leaves (.perfSelectWrite .pf 4095 (0x7F * 2 ^ 18)) up
      (emit (noteFailure up .pf (Reg.perfSelect 4095) .refused) (.status 0 1 [])) := by decide +kernel

theorem test_perfCounter : (let s := { up with obs.perfOverflow := [(4095, true)] }; Permitted s .pf (Reg.perfCounter 4095) 5 ∧
      leaves (.perfCounterWrite .pf 4095 5) s (emit (setReg up (Reg.perfCounter 4095) 5) (okTo .pf))) ∧
    holds (.perfCounterWrap 4094) counting (fun t => reg t (Reg.perfCounter 4094) = 0 ∧ reg t (Reg.perfCounter 4095) = 2 ^ 32 - 1 ∧
      t.obs.perfOverflow = []) ∧
    (let s := setReg counting (Reg.perfSelect 4094) (2 ^ 31); holds (.perfCounterWrap 4094) s (fun t =>
      reg t (Reg.perfCounter 4094) = 0 ∧ t.obs.perfOverflow = [(4094, true)] ∧ bit (reg t Reg.obsCause) 2 = true)) := by decide +kernel

theorem test_bwWindow : (let s := { upWith [(Reg.fbRxOctets 1023, 5), (Reg.fbTxOctets 1023, 70)] with
      time := 4096 * 10 ^ 9, obs.bwRx := [(1023, 2 ^ 40 - 1)], obs.bwTx := [(1023, 20)] };
    atMultiple s (2 ^ reg s (Reg.bwWindowK 1023) * 1000) = true ∧ mget 0 s.obs.bwSkip 1023 = 0 ∧ holds (.bwWindowEnd 1023) s (fun t =>
      reg t (Reg.bwRxBytes 1023) = 6 ∧ reg t (Reg.bwTxBytes 1023) = 50 ∧ reg t (Reg.bwSeq 1023) = 1 ∧
      mget 0 t.obs.bwRx 1023 = 5)) ∧
    Permitted up .pf (Reg.bwWindowK 1023) 7 ∧ leaves (.bwWindowKWrite .pf 1023 7) up
      (emit { setReg up (Reg.bwWindowK 1023) 7 with obs.bwSkip := [(1023, 1)] } (okTo .pf)) := by decide +kernel

theorem test_qwm : (let s := { upWith [(Reg.qwmSelect, 524287)] with qm.queues := [(524287, { qs := 3, qc := 2, watermark := 40 })] };
    readChecks s .pf Reg.qwmValue = none ∧ leaves (.qwmValueRead .pf) s
      (emit { s with qm.queues := [(524287, { qs := 3, qc := 2, watermark := 19 })] } (.status 0 0 (beBytes 4 40)))) := by decide +kernel

/-- Monitor 63 watches queue 9, of depth 5, each 128 ns. -/
def watches : State := { upWith [(Reg.histMonitor 63, 2 ^ 63 + 9 * 2 ^ 44 + 2 ^ 20)] with qm.queues := [(9, { qs := 5 })] }

theorem test_hist : bit (reg watches (Reg.histMonitor 63)) 63 = true ∧
    atMultiple watches (bits (reg watches (Reg.histMonitor 63)) 39 20 * 128) = true ∧ histBin 5 0 = 3 ∧
    holds (.histSample 63) watches (fun t => t.obs.histBins = [(63, [0, 0, 0, 1] ++ List.replicate 12 0)]) ∧
    (let s := { watches with obs.histBins := [(63, [1])] }; Permitted s .pf (Reg.histClear 63) 1 ∧
      leaves (.histClear .pf 63 1) s (emit watches (okTo .pf))) := by decide +kernel

theorem test_sojClear : (let s := { upWith [(Reg.sojNegative 1023, 8)] with obs.sojBins := [(1023, [1])] };
    Permitted s .pf (Reg.sojClear 1023) 1 ∧ leaves (.sojClear .pf 1023 1) s (emit up (okTo .pf))) := by decide +kernel

/-- Ensign is enabled towards queue 0, and lists queue 9 for snapshots. -/
def ensign : State := { setBlk (withRegs port0 [(Reg.ensEnable, 1), (Reg.ensPen, 1), (Reg.ensMtu, 1500), (Reg.ensSnapshotUs, 100)]) Reg.ensSnapshotList
  [0, 0, 0, 9] with qm.nodes := tree }

theorem test_ensignSnapshot : flag ensign Reg.ensEnable = true ∧ atMultiple ensign (reg ensign Reg.ensSnapshotUs * 1000) = true ∧
    holds .ensignSnapshot ensign (fun t => t.obs.ensRecords = [(258, 0, snapshotRecord ensign 9)]) := by decide +kernel

theorem test_ensignMessage : (let s := { ensign with time := 10 ^ 12, obs.ensRecords := [(258, 0, [1]), (256, 5, [2])] };
    max 1 (recordsFit s.obs.ensRecords none (ipfixRoom s - 16)) = 2 ∧ 0 + reg s Reg.ensFlushUs * 1000 ≤ s.time ∧
    holds .ensignMessageSend s (fun t => t.obs.ensSeq = 2 ∧ t.led.aEnsign = 1 ∧ reg t Reg.ensRecordsSent = 2 ∧ t.obs.ensRecords = [])) := by
  decide +kernel

theorem test_ensignTemplate : (let s := { ensign with time := 9, obs.tmplDue := true }; holds .ensignTemplateSend s (fun t =>
    t.obs.tmplDue = false ∧ t.obs.tmplAt = 9 ∧ t.led.aEnsign = 1)) := by decide +kernel

theorem test_ensEnable : (let s := setReg ensign Reg.ensEnable 0; Permitted s .pf Reg.ensEnable 1 ∧ reg s Reg.ensPen ≠ 0 ∧
      qType s (reg s Reg.ensDest) = 1 ∧
      leaves (.ensEnableWrite .pf 1) s (emit { setReg s Reg.ensEnable 1 with obs.tmplDue := true } (okTo .pf))) ∧
    (let s := withRegs ensign [(Reg.ensEnable, 0), (Reg.ensPen, 0)]; Permitted s .pf Reg.ensEnable 1 ∧
      leaves (.ensEnableWrite .pf 1) s (emit (noteFailure s .pf Reg.ensEnable .refused) (.status 0 1 []))) := by decide +kernel

theorem test_mirrorSession : (let b := beBytes 16 (2 * 2 ^ 125 + 5 * 2 ^ 56 + 77); domainChecks up .pf (Reg.mirrorSession 15) = none ∧
      bits (beNat b) 72 64 ≠ 1 ∧ msKind (beNat b) = 2 ∧ msDevice (beNat b) = 0 ∧ msPort (beNat b) = 0 ∧ msClass (beNat b) = 0 ∧
      leaves (.mirrorSessionWrite .pf 15 b) up (emit (setBlk up (Reg.mirrorSession 15) (beBytes 16 (2 * 2 ^ 125 + 5 * 2 ^ 56))) (okTo .pf))) ∧
    (let b := beBytes 16 (2 ^ 125 + 2 ^ 106); msKind (beNat b) = 1 ∧ msQueue (beNat b) = 1 ∧
      leaves (.mirrorSessionWrite .pf 15 b) up (emit (noteFailure up .pf (Reg.mirrorSession 15) .refused) (.status 0 1 []))) := by
  decide +kernel


/-! ### Events (ch. 15) -/

theorem test_causeEnable : (let s := upWith [(Reg.laneCause 255, 1), (Reg.laneCauseEnable 255, 0)]; let r := CauseReg.lane 255;
    causeOfEntry .pf r.enableKey = some (r, true) ∧ Permitted s .pf r.enableKey 1 ∧ writable r.enableKey 1 = 1 ∧
    bit (reg s r.key) 0 = true ∧ bit (reg s r.enableKey) 0 = false ∧ r.source s 0 = some 383 ∧
    holds (.causeEnableWrite .pf r.enableKey 1) s (fun t => reg t r.enableKey = 1 ∧ srcSticky t 383 = true)) := by
  decide +kernel

theorem test_causeClear : (let s := upWith [(Reg.flCause 319, 3)]; let r := CauseReg.fl 319; causeOfEntry .pf r.key = some (r, false) ∧
    Permitted s .pf r.key 1 ∧ leaves (.causeClear .pf r.key 1) s (emit (setReg s r.key 2) (okTo .pf))) := by decide +kernel

theorem test_testRaise : (let s := upWith [(Reg.evtTestCauseEnable, 0xFFFF)]; Permitted s .pf Reg.evtTestRaise 1023 ∧
    bit (reg s Reg.evtTestCauseEnable) (1023 - 1008) = true ∧ holds (.evtTestRaise .pf 1023) s (fun t =>
      reg t Reg.evtTestCause = 0x8000 ∧ srcSticky t 1023 = true)) := by decide +kernel

/-- Source 1023 and source 959 are set; the latter was pulsed in this nanosecond. -/
def setSources : State := { up with evt.sticky := [(959, true), (1023, true)], evt.pulsedAt := [(959, 0)] }

theorem test_evtSticky : Permitted setSources .pf (Reg.evtSticky 1023) 1 ∧ reservedSource 1023 = false ∧
    mfind setSources.evt.pulsedAt 1023 ≠ some setSources.time ∧ leaves (.evtStickyClear .pf 1023 1) setSources
      (emit { setSources with evt.sticky := [(959, true)] } (okTo .pf)) ∧
    Permitted setSources .pf (Reg.evtSticky 959) 1 ∧ reservedSource 959 = false ∧
    leaves (.evtStickyClear .pf 959 1) setSources (emit setSources (okTo .pf)) ∧
    Permitted setSources .pf (Reg.evtSticky 960) 1 ∧ reservedSource 960 = true ∧
    leaves (.evtStickyClear .pf 960 1) setSources (emit (noteFailure setSources .pf (Reg.evtSticky 960) .refused) (.status 0 1 [])) := by
  decide +kernel

theorem test_evtGroupSticky : Permitted setSources .pf (Reg.evtGroupSticky 63) 0x8000 ∧ reservedSource (16 * 63) = false ∧
    holds (.evtGroupStickyClear .pf 63 0x8000) setSources (fun t => t.evt.sticky = [(959, true)]) := by decide +kernel

theorem test_evtMasks : Permitted up .pf (Reg.evtMask 1023) 0 ∧ reservedSource 1023 = false ∧
    holds (.evtMaskWrite .pf 1023 0) setSources (fun t => reg t (Reg.evtMask 1023) = 0) ∧
    Permitted up .pf (Reg.evtGroupMask 63) 0x5555 ∧ holds (.evtGroupMaskWrite .pf 63 0x5555) setSources (fun t =>
      (List.range 16).all (fun i => reg t (Reg.evtMask (1008 + i)) == b2n (bit 0x5555 i)) = true) := by decide +kernel

theorem test_evtRoute : Permitted up .firmware (Reg.evtRoute 1023) 0xFFFFFFFF ∧ bits 0xFFFFFFFF 21 16 ≠ 0 ∧ 3 ≤ levelOf up .firmware ∧
    holds (.evtRouteWrite .firmware 1023 0xFFFFFFFF) up (fun t => reg t (Reg.evtRoute 1023) = 0xFFFFFE00) ∧
    Permitted up .pf (Reg.evtRoute 959) 0x200 ∧ bit 0x200 22 = false ∧ bit 0x200 11 = bit (srcRoute up 959) 11 ∧
    holds (.evtRouteWrite .pf 959 0x200) up (fun t => reg t (Reg.evtRoute 959) = 0x200) := by
  decide +kernel

theorem test_evtRoute_level : Permitted up .pf (Reg.evtRoute 1023) (2 ^ 11) ∧ bit (2 ^ 11) 11 ≠ bit (srcRoute up 1023) 11 ∧
    levelOf up .pf < 3 ∧ leaves (.evtRouteWrite .pf 1023 (2 ^ 11)) up (emit (noteFailure up .pf (Reg.evtRoute 1023) .level)
      (.status 0 Status.level.code [])) := by decide +kernel

/-- Two entries wait for the firmware. -/
def fwWaits : State := { upWith [(Reg.evtFwQueueHigh, 9)] with
  evt.fwQueue := [{ source := 5, ns := 1 }, { source := 6, ns := 2 }] }

theorem test_fwQueue : readChecks fwWaits .pf Reg.evtFwQueueHigh = none ∧ leaves (.evtFwQueueHighRead .pf) fwWaits
      (emit { up with evt := fwWaits.evt } (.status 0 0 (valueBytes Reg.evtFwQueueHigh 9))) ∧
    holds .fwEventTake fwWaits (fun t => t.evt.fwQueue = [{ source := 6, ns := 2 }]) := by decide +kernel

theorem test_msix : (let s := setReg setSources Reg.hostNumVfs 63; mget false s.host.inFlr 63 = false ∧
    holds (.msixControlWrite 63 0 15 true) s (fun t => (msixOf t 63).enable = true) ∧
    holds (.msixControlWrite 63 1 15 true) s (fun t => (msixOf t 63).funcMask = true) ∧
    holds (.msixControlWrite 63 2 15 true) s (fun t => mget false (msixOf t 63).vecMask 15 = true) ∧
    holds (.msixControlWrite 0 2 255 true) s (fun t => mget false (msixOf t 0).vecMask 255 = true)) := by decide +kernel


/-! ### The object dictionary (ch. 16) -/

theorem test_registerWrite : (let k := Reg.flEnable 319; let u := setReg up k 1; Permitted up .pf k 1 ∧
      (match entryWrite .pf k 1 up with
        | .done t => decide (t = u)
        | .fail _ => false) = true ∧ leaves (.registerWrite (.entry .pf k 1)) up (emit u (okTo .pf))) ∧
    (let k := Reg.ftReorderTimeoutNs; let v := reg up Reg.ftReassemblyTimeoutUs * 1000; Permitted up .pf k v ∧
      leaves (.registerWrite (.entry .pf k v)) up (emit (noteFailure up .pf k .refused) (.status 0 1 []))) ∧
    (let k := Reg.pwrStartupPhase; writeChecks up .pf k 0 = some .readOnly ∧ leaves (.registerWrite (.entry .pf k 0)) up
      (emit (noteFailure up .pf k .readOnly) (.status 0 Status.readOnly.code []))) ∧
    (let k := key 0x7FFF 0; odFind k = none ∧ leaves (.registerWrite (.entry .pf k 0)) up
      (emit (noteFailure up .pf k .noEntry) (.status 0 Status.noEntry.code []))) ∧
    (let k := Reg.bwWindowK 1023; writeChecks up .pf k 255 = none ∧ inRange k 255 = false ∧
      leaves (.registerWrite (.entry .pf k 255)) up (emit (noteFailure up .pf k .refused) (.status 0 1 []))) := by decide +kernel

theorem test_registerWrite_map : (let off := 8 * Reg.flEnable 319; off + 4 < 0x8000000 ∧ 0x8FA000 ≤ off ∧
      leaves (.registerWrite (.map 0 off [1, 0, 0, 0])) up (setReg up (Reg.flEnable 319) 1)) ∧
    (let off := 8 * Reg.flEnable 319 + 4; leaves (.registerWrite (.map 0 off [1, 0, 0, 0])) up
      (noteFailure up .pf (Reg.flEnable 319) .type)) ∧
    (let s := setReg up Reg.hostNumVfs 63; fnExists s 63 = true ∧ fnInFlr s 63 = false ∧
      0x8F8000 ≤ 0x8F8FF8 ∧ 0x8F8FF8 < 0x8F9000 ∧ 0x8F8FF8 % 8 = 0 ∧
      holds (.registerWrite (.map 63 0x8F8FF8 [1, 2, 3, 4, 5, 6, 7, 8])) s (fun t => slice (mailbox t 63).request 4087 9 =
        [0, 1, 2, 3, 4, 5, 6, 7, 8] ∧ (mailbox t 63).state = 0)) := by decide +kernel

/-- An entry reference. -/
def entryRef (k : Nat) : List Byte := beBytes 2 (idxOf k) ++ [byte (subOf k), 0]
/-- A message stands in the PF's mailbox. -/
def mailed (s : State) (ty : Nat) (b : List Byte) : State :=
  let m := synsaMessage ty 0 0 0 9 b
  setMailbox s 0 { request := m, state := 1, len := m.length }
/-- The answer stands there. -/
def answered (t : State) (ty st : Nat) (b : List Byte) : Bool :=
  let a := synsaMessage ty 128 st 0 9 b
  (mailbox t 0).state == 2 && (mailbox t 0).len == a.length && (mailbox t 0).response.take a.length == a && bit (reg t Reg.odCause) 5

theorem test_mailbox_read : (let k := Reg.fcXonCells 15; let b := [1] ++ entryRef k; let s := mailed up 1 b;
    Asked s 0 1 (synsaMessage 1 0 0 0 9 b) ∧ refKey b 1 = k ∧ readable s .pf k (fun t => t == .domain || t == .job) = none ∧
    holds (.synsaRead (.mailbox 0)) s (fun t => answered t 1 0
      ([1, 0, byte (((odFind k).map (fun r => r.ty.code)).getD 0), 0, 4] ++ beBytes 4 (reg up k)) = true)) := by decide +kernel

theorem test_mailbox_write : (let k := Reg.laneCauseEnable 255; let b := [1] ++ (entryRef k).take 3 ++ [0] ++ [0, 4, 0, 0, 0, 5];
      b.length = 11 ∧ holds (.synsaWrite (.mailbox 0)) (mailed up 2 b) (fun t => answered t 2 0 [1, 0] = true ∧
        reg t (Reg.laneCauseEnable 255) = 5)) ∧
    (let k := Reg.laneCauseEnable 255; let b := [1] ++ entryRef k ++ [0, 1, 5]; Asked (mailed up 2 b) 0 2 (synsaMessage 2 0 0 0 9 b) ∧
      holds (.synsaWrite (.mailbox 0)) (mailed up 2 b) (fun t => answered t 2 0 [1, byte Status.type.code] = true)) := by
  decide +kernel

theorem test_mailbox_domainBegin : (let k := Reg.ensSnapshotList; let b := entryRef k ++ [0, 0, 0, 0, 0, 0, 0, 4]; b.length = 12 ∧
      Asked (mailed up 3 b) 0 3 (synsaMessage 3 0 0 0 9 b) ∧ beginRefusal (mailed up 3 b) .pf k 0 4 = none ∧
      beginRefusal (mailed up 3 b) .pf k 1 4 = none) ∧
    (let k := Reg.fcXonCells 15; let b := entryRef k ++ [1, 0, 0, 0, 0, 0, 0, 0]; beginRefusal (mailed up 3 b) .pf k 1 0 = some .type ∧
      holds (.domainBegin (.mailbox 0)) (mailed up 3 b) (fun t => answered t 3 Status.type.code [] = true)) := by decide +kernel

/-- The PF writes, or reads, the list of Ensign's snapshots under handle 65535. -/
def transfers (x : Transfer) : State := { up with dict.transfers := [(65535, x)] }
def writes : Transfer := { client := .pf, entry := Reg.ensSnapshotList, write := true, total := 8, buf := [0, 0, 0, 1], pos := 4 }
def reads : Transfer := { client := .pf, entry := Reg.ensSnapshotList, write := false, total := 4, buf := [0, 0, 0, 1] }

theorem test_mailbox_segment : holds (.domainSegment (.mailbox 0)) (mailed (transfers writes) 4 [255, 255, 0, 4, 0, 0, 0, 4, 0, 0, 0, 2])
      (fun t => answered t 4 0 [255, 255, 0, 4, 0, 0, 0, 4] = true ∧
        mfind t.dict.transfers 65535 = some { writes with buf := [0, 0, 0, 1, 0, 0, 0, 2], pos := 8 }) ∧
    holds (.domainSegment (.mailbox 0)) (mailed (transfers reads) 4 [255, 255, 15, 228, 0, 0, 0, 0]) (fun t =>
      answered t 4 0 [255, 255, 0, 4, 0, 0, 0, 0, 0, 0, 0, 1] = true ∧ mfind t.dict.transfers 65535 = some { reads with pos := 4 }) ∧
    holds (.domainSegment (.mailbox 0)) (mailed (transfers reads) 4 [255, 255, 0, 4, 0, 0, 0, 1]) (fun t =>
      answered t 4 9 [] = true) := by decide +kernel

theorem test_mailbox_end : holds (.domainEnd (.mailbox 0)) (mailed (transfers writes) 5 [255, 255, 1, 0]) (fun t =>
      answered t 5 0 [255, 255, 0, 0] = true ∧ t.dict.transfers = []) ∧
    (let x := { writes with buf := [0, 0, 0, 1, 0, 0, 0, 2], pos := 8 };
      holds (.domainEnd (.mailbox 0)) (mailed (transfers x) 5 [255, 255, 0, 0]) (fun t => answered t 5 0 [255, 255, 0, 0] = true ∧
        blk t Reg.ensSnapshotList = [0, 0, 0, 1, 0, 0, 0, 2])) ∧
    holds (.domainEnd (.mailbox 0)) (mailed (transfers writes) 5 [255, 255, 0, 0]) (fun t => answered t 5 1 [] = true ∧
      t.dict.transfers.length = 1) := by decide +kernel

theorem test_mailbox_jobs : holds (.jobStart (.mailbox 0)) (mailed up 6 (entryRef Reg.odSave)) (fun t =>
      answered t 6 0 (beBytes 8 (2 ^ 61 + 2 ^ 32)) = true ∧ jobRunning t Reg.odSave = true) ∧
    holds (.jobStatus (.mailbox 0)) (mailed up 7 (entryRef Reg.odSave ++ [0, 0, 0, 0])) (fun t =>
      answered t 7 0 (beBytes 8 0) = true) ∧
    holds (.jobStatus (.mailbox 0)) (mailed (jobBegin up Reg.odSave) 7 (entryRef Reg.odSave ++ [1, 0, 0, 0])) (fun t =>
      answered t 7 0 (beBytes 8 (2 ^ 61 + 2 ^ 60 + 2 ^ 32)) = true ∧ (job t Reg.odSave).cancel = true) := by decide +kernel

theorem test_mailbox_probe : (let s := mailed (setReg up Reg.synDiscoverOpen 1) 9 [1, 0, 0, 0];
      mailboxMessage s 0 (discoverOp 1) = some (synsaMessage 9 0 0 0 9 [1, 0, 0, 0]) ∧ holds (.discoverProbe (.mailbox 0)) s (fun t =>
        answered t 9 0 (identityBody s 1 0xFF) = true)) ∧
    (let s := mailed (setReg up Reg.synDiscoverOpen 0) 9 [1, 0, 0, 0]; holds (.discoverProbe (.mailbox 0)) s (fun t =>
      (mailbox t 0).state = 0 ∧ (mailbox t 0).len = 0)) := by decide +kernel

/-! ### Sessions -/

theorem test_acceptSeq : acceptSeq 63 1 0 = some (63, 2 ^ 63 + 1) ∧ acceptSeq 64 1 0 = none ∧ acceptSeq 63 (2 ^ 63) 0 = none ∧
    acceptSeq 5 1 6 = some (6, 3) := by decide +kernel

/-- Session 5, of level 2, is open over the OOB port; keys are set. -/
def session5 : Session := { level := 2, transport := 16, peer := [9], label := [], key := [7], high := 4, window := 1 }
def synsa (s : State) : State := { withRegs s [(Reg.synKeySet, 1), (Reg.synEnable, 7), (Reg.synOobIpv4 0, 0x0A00000100)] with
  dict.sessions := [(5, session5)] }
/-- A datagram to port 0. -/
def datagram (m : List Byte) : Via := .udp 0 [10, 0, 0, 1] (reg up Reg.synUdpPort) [9] true m
def readMsg (seq : Nat) : List Byte := synsaMessage 1 0 0 5 seq ([1] ++ entryRef (Reg.fcXonCells 15))

theorem test_session_read : (let s := synsa up; let m := tagged [7] (readMsg 6); takeMessage s (datagram m)
      (fun m => msgType m == 1 && !msgIsResponse m) = some (16, [9], m, s) ∧ placeOn s 16 = true ∧ flag s Reg.synKeySet = true ∧
      mfind s.dict.sessions (msgSession m) = some session5 ∧ tagHolds [7] m = true ∧ msgSeq m = 6 ∧
      holds (.synsaRead (datagram m)) s (fun t => (mfind t.dict.sessions 5).map (fun y => [y.high, y.window, y.level]) = some [6, 5, 2])) ∧
    (let m := tagged [7] (readMsg 4); tagHolds [7] m = true ∧ acceptSeq 4 1 4 = none ∧
      session5.cache.find? (fun e => e.1 == 4) = none) ∧
    (let s := synsa up; let m := readMsg 6; tagHolds [7] m = false ∧
      holds (.synsaRead (datagram m)) s (fun t => reg t Reg.synAuthFailures = 1 ∧ bit (reg t Reg.odCause) 1 = true)) := by
  decide +kernel

theorem test_session_open : (let s := synsa up; let m := tagged (levelKey s 3) (synsaMessage 9 0 0 0 1 ([2, 3] ++ List.replicate 34 5));
    takeMessage s (datagram m) (discoverOp 2) = some (16, [9], m, s) ∧ byteAt (msgBody m) 1 = 3 ∧ (msgBody m).length = 36 ∧
    tagHolds (levelKey s 3) m = true ∧ msgSession m = 0 ∧ msgSeq m = 1 ∧ s.dict.sessions.length < 32) := by decide +kernel

theorem test_session_close : (let s := synsa up; let m := tagged [7] (synsaMessage 9 0 0 5 6 [3, 0, 0, 0]);
    takeMessage s (datagram m) (discoverOp 3) = some (16, [9], m, s) ∧ msgSession m = 5 ∧
    tagHolds [7] m = true ∧ acceptSeq 4 1 (msgSeq m) = some (6, 5)) := by decide +kernel

theorem test_session_ends : (let s := { synsa up with time := 10 ^ 15 }; session5.lastAt + reg s Reg.synSessionIdleS * 1000000000 ≤ s.time ∧
      holds (.sessionIdleTimeout 5) s (fun t => t.dict.sessions = [])) ∧
    (let s := { transfers reads with time := 10 ^ 15 }; reads.lastAt + reg s Reg.odDomainIdleMs * 1000000 ≤ s.time ∧
      leaves (.domainIdleTimeout 65535) s { up with time := 10 ^ 15 }) := by decide +kernel

theorem test_synsaEvent : (let s := { synsa up with time := 10000000, evt.gather := [(5, [{ source := 1023, ns := 8 }])], evt.gatherAt := [(5, 0)] };
    holds (.synsaEventSend 5) s (fun t => mget [] t.evt.gather 5 = [] ∧ mget 0 t.evt.evSeq 5 = 1 ∧ t.sent = [.synsa 0 [9]
      (tagged [7] (synsaMessage 8 0 0 5 1 ([3, 255, 63, 0, 0, 0, 0, 0, 0, 0, 0, 8])))])) := by decide +kernel

/-- Bundle 7 has a lane to ride on. -/
def channels : State := { setReg (synsa up) (Reg.fbTxLaneSet 7) 1 with time := 10 ^ 9 }

theorem test_announce : bit (reg channels Reg.synEnable) 2 = true ∧ channelUp channels 7 = true ∧ holds .announceSend channels (fun t =>
      t.dict.announcedAt = 10 ^ 9 ∧ (bundle t 7).mgOut = [synsaMessage 9 0 0 0 0 (identityBody channels 4 7)]) ∧
    (let m := synsaMessage 9 0 0 0 0 (identityBody channels 4 7); let s := setBundle channels 7 { mgHeld := [m] };
      takeMessage s (.channel 7) (discoverOp 4) = some (7, [], m, setBundle channels 7 {}) ∧ (msgBody m).length = 96 ∧
      leaves (.announceReceive 7) s { setBundle channels 7 {} with dict.neighbours := [(7, (identityBody channels 4 7, 10 ^ 9))] }) := by
  decide +kernel

/-! ### Relay -/

/-- A request for device 5, which bundle 6 leads to, or for one that nothing leads to, has come over bundle 7. -/
def relayRequest (target hop : Nat) : List Byte := synsaMessage 10 0 0 0 3 (relayHeader 77 9 target hop 0 0 ++ [1, 2])
def relaying (m : List Byte) : State := setBundle (setDestRec { withRegs (synsa up) [(Reg.fbTxLaneSet 6, 1), (Reg.fbTxLaneSet 7, 1)] with
    ft.dest := [(5, 2)] } 5 { dist := [0xFFFF, 0xFFFF, 0xFFFF, 0xFFFF, 0xFFFF, 0xFFFF, 1, 2] }) 7 { mgHeld := [m] }

theorem test_relay : (let m := relayRequest 5 2; let s := relaying m; let u := setBundle s 7 {}; let h := (msgBody m).take 16;
      takeMessage s (.channel 7) (fun m => msgType m == 10 && !msgIsResponse m) = some (7, [], m, u) ∧ placeOn u 7 = true ∧
      isOwn u (rhTarget h) = false ∧ relayExit u false h = some 6 ∧ channelUp u 6 = true ∧ rhHop h = 2 ∧
      holds (.synsaRelay (.channel 7)) s (fun t => t.dict.relays = [{ relayId := 77, origin := 9, arrival := 7, at0 := 0 }] ∧
        (bundle t 6).mgOut = [relayRequest 5 1] ∧ reg t Reg.synRelayForwarded = 1)) ∧
    (let m := relayRequest 5 1; let s := relaying m; holds (.synsaRelay (.channel 7)) s (fun t => t.dict.relays = [] ∧
      reg t Reg.synRelayDropped = 1 ∧ bit (reg t Reg.odCause) 4 = true ∧
      (bundle t 7).mgOut = [synsaMessage 10 128 Status.unreachable.code 0 3 (relayHeader 77 9 5 1 0 1)])) ∧
    (let m := relayRequest 4 9; relayExit (setBundle (relaying m) 7 {}) false ((msgBody m).take 16) = none) := by decide +kernel

theorem test_relayResponse : (let m := synsaMessage 10 128 0 0 3 (relayHeader 77 9 5 1 0 1); let e := { relayId := 77, origin := 9, arrival := 6, at0 := 0 };
    let s := { relaying m with dict.relays := [e] }; let u := { setBundle s 7 {} with dict.relays := [e] };
    takeMessage s (.channel 7) (fun m => msgType m == 10 && msgIsResponse m) = some (7, [], m, u) ∧
    leaves (.relayResponse 7) s (channelSend u 6 m) ∧
    leaves .relayEntryExpire { s with time := 100000000 } { s with time := 100000000, dict.relays := [] }) := by decide +kernel

/-! ### Counted writes and the store -/

theorem test_deviceIdWrite : (let k := Reg.ftDeviceId; Permitted up .pf k 7 ∧ writable k 7 = 7 ∧ reg up k = 0 ∧
    mget 0 up.dict.fuseCounts k < cwPlaces k ∧
    (let t := { up with dict.fuseCounts := [(k, 1)], dict.burns := [{ entry := k, value := [0, 0, 0, 7], client := 1, count := 1, sec := 0, at0 := 0 }] };
      leaves (.ftDeviceIdWrite .pf 7) up (emit t (okTo .pf)) ∧ leaves (.countedWrite .pf k 7) up (emit t (okTo .pf)))) := by
  decide +kernel

/-- The image that runs has security version 3. -/
def runs3 : State := setBlk up Reg.fwRunningHeader (List.replicate 9 0 ++ [3])

theorem test_rollbackFloorWrite : (let k := Reg.fwRollbackFloor; let c := Client.firmware; Permitted runs3 c k 3 ∧ reg runs3 k = 0 ∧
    byteAt (blk runs3 Reg.fwRunningHeader) 9 = 3 ∧ mget 0 runs3.dict.fuseCounts k < cwPlaces k ∧
    holds (.fwRollbackFloorWrite c 3) runs3 (fun t => t.dict.fuseCounts = [(k, 1)] ∧ t.dict.burns.map (·.value) = [[3]]) ∧
    holds (.countedWrite c k 3) runs3 (fun t => t.dict.fuseCounts = [(k, 1)] ∧ t.dict.burns.map (·.value) = [[3]]) ∧
    Permitted runs3 c k 4 ∧ leaves (.fwRollbackFloorWrite c 4) runs3 (emit runs3 (.status (callerOf c) 1 []))) := by decide +kernel

theorem test_deviceKeyWrite : (let k := Reg.synDeviceKey; let b := List.replicate 32 7; let c := Client.firmware; domainChecks up c k = none ∧
    b ≠ up.dict.deviceKey ∧ mget 0 up.dict.fuseCounts k < cwPlaces k ∧ holds (.synDeviceKeyWrite c b) (synsa up) (fun t =>
      t.dict.burns.map (fun x => (x.entry, x.value)) = [(k, b)] ∧ t.dict.sessions = [] ∧ t.dict.deviceKey = [] ∧
      mget 0 t.dict.fuseCounts k = 1) ∧
    (let s := { up with dict.fuseCounts := [(k, cwPlaces k)] }; domainChecks s c k = none ∧
      leaves (.synDeviceKeyWrite c b) s (emit s (.status (callerOf c) Status.exhausted.code [])))) := by decide +kernel

/-- A write of an entry burns. -/
def burning (k : Nat) (v : List Byte) : State := { up with
  dict.fuseCounts := [(k, 1)]
  dict.burns := [{ entry := k, value := v, client := 4, count := 1, sec := 0, at0 := 0 }] }

theorem test_countedWriteComplete : (let k := Reg.fwRollbackFloor; holds (.countedWriteComplete k) (burning k [3]) (fun t =>
      reg t k = 3 ∧ bit (reg t Reg.fwCause) 6 = true ∧ bit (reg t Reg.odCause) 3 = true ∧ t.dict.burns = [] ∧
      t.dict.cwLog = (burning k [3]).dict.burns.map (fun x => cwRecord x 0))) ∧
    (let k := Reg.synDeviceKey; holds (.countedWriteComplete k) (burning k [3]) (fun t => t.dict.deviceKey = [3] ∧
      reg t Reg.synKeySet = 1 ∧ bit (reg t Reg.odCause) 3 = true ∧ t.dict.cwLog.length = 1)) := by decide +kernel

/-- `od_save` runs and has taken every entry. -/
def saved (pos : Nat) : State := { jobBegin (setReg up (Reg.bwWindowK 1023) 7) Reg.odSave with dict.savePos := pos }

theorem test_odSave : may up .pf Reg.odSave ∧ jobRunning up Reg.odSettingsErase = false ∧
    holds (.odSave (.start .pf) 0 0) up (fun t => jobRunning t Reg.odSave = true ∧ t.dict.savePos = 0) ∧
    (let s := jobBegin up Reg.odSettingsErase; may s .pf Reg.odSave ∧ leaves (.odSave (.start .pf) 0 0) s
      (emit (noteFailure s .pf Reg.odSave .busy) (.status 0 3 []))) ∧
    holds (.odSave .step 0x600000 0) (saved 0x5FFFFF) (fun t => t.dict.savePos = 0x600000 ∧ t.dict.saveCopy = []) ∧
    holds (.odSave .step 0x600000 0) (saved 0) (fun t => t.dict.saveCopy = [(Reg.bwWindowK 1023, 7)]) ∧
    (let s := { saved 0x600000 with dict.saveCopy := [(Reg.bwWindowK 1023, 7)] };
      holds (.odSave .step 0 0) s (fun t => t.dict.store = [(Reg.bwWindowK 1023, 7)] ∧ t.dict.storeEmpty = false ∧
        JobCompleted t Reg.odSave 0 ∧ bit (reg t Reg.odCause) 0 = true) ∧
      holds (.odSave .step 0 2) s (fun t => t.dict.store = [] ∧ JobCompleted t Reg.odSave 2 ∧ bit (reg t Reg.odCause) 0 = true)) := by
  decide +kernel

theorem test_odSettingsErase : may up .pf Reg.odSettingsErase ∧
    holds (.odSettingsErase (.start .pf)) up (fun t => jobRunning t Reg.odSettingsErase = true) ∧
    (let s := { jobBegin up Reg.odSettingsErase with dict.store := [(1, 1)], dict.storeEmpty := false };
      holds (.odSettingsErase .step) s (fun t => t.dict.store = [] ∧ t.dict.storeEmpty = true ∧ JobCompleted t Reg.odSettingsErase 0)) := by
  decide +kernel

theorem test_mbDoorbell : (let m := synsaMessage 1 0 0 0 9 ([1] ++ entryRef Reg.odSave); let s := setMailbox up 0 { request := m };
      fnOf .pf = some 0 ∧ Permitted s .pf Reg.mbDoorbell m.length ∧ mailboxUp s 0 = true ∧ mailboxTakes m = true ∧
      leaves (.mbDoorbell .pf m.length) s (emit (setMailbox s 0 { request := m, state := 1, len := m.length }) (okTo .pf)) ∧
      (let u := setMailbox s 0 { request := m, state := 1, len := 25 }; leaves (.mbDoorbell .pf m.length) u
        (emit (noteFailure u .pf Reg.mbDoorbell .refused) (.status 0 1 [])))) ∧
    (let s := setMailbox up 0 { request := [1, 10] }; mailboxTakes (padTo ([1, 10].take 4096) 4096) = false ∧
      Permitted s .pf Reg.mbDoorbell 4096 ∧ leaves (.mbDoorbell .pf 4096) s (emit s (okTo .pf))) := by decide +kernel

theorem test_odAccessStatus : (let k := callerKey 63 Reg.odAccessStatus; let s := withRegs up [(Reg.hostNumVfs, 63), (k, 0x0102)];
    fnExists s 63 = true ∧ readable s (fnClient 63) Reg.odAccessStatus (fun _ => false) = none ∧
    leaves (.odAccessStatusRead 63 8) s (emit (setReg up Reg.hostNumVfs 63) (.status 63 0 [2, 1, 0, 0, 0, 0, 0, 0]))) := by decide +kernel


/-! ### The host (ch. 17) -/

/-- VF 63 exists; its inject and punt rings 7 are enabled, of 64 slots; 5 were consumed. -/
def ringed : State := withRegs { up with
    host.rings := [(63 * 16 + 7, { prod := 8, resv := 6 }), (63 * 16 + 15, { prod := 8, resv := 6 })] }
  [(Reg.hostNumVfs, 63), (callerKey 63 (ringSize true 7), 64), (callerKey 63 (ringSize false 7), 64), (callerKey 63 (ringCtrl true 7), 2 ^ 31),
    (callerKey 63 (ringCtrl false 7), 2 ^ 31), (callerKey 63 (ringConsumed true 7), 5), (callerKey 63 (ringConsumed false 7), 5)]

theorem test_doorbell : fnExists ringed 63 = true ∧ fnInFlr ringed 63 = false ∧ ringOn ringed 63 true 7 = true ∧ ringOn ringed 63 false 7 = true ∧
    leaves (.injectDoorbell 63 7 69) ringed (setRing ringed 63 true 7 { prod := 69, resv := 6 }) ∧
    leaves (.puntDoorbell 63 7 69) ringed (setRing ringed 63 false 7 { prod := 69, resv := 6 }) ∧
    leaves (.injectDoorbell 63 7 4) ringed (count1 ringed Reg.hostDoorbellErrors) ∧
    leaves (.puntDoorbell 63 7 70) ringed (count1 ringed Reg.hostDoorbellErrors) := by decide +kernel

/-- A control word: enabled, vector 15, one frame to a message, buffers of 16 KiB. -/
def ctrlWord : Nat := 2 ^ 31 + 15 * 2 ^ 22 + 2 ^ 12 + 6
def toEnable : State := withRegs up [(Reg.hostNumVfs, 63), (Reg.vfRingGrant 63, 0xFFFF), (callerKey 63 (ringSize true 7), 65536),
  (callerKey 63 (ringSize false 7), 65536)]

theorem test_ringCtrl : Permitted toEnable (.vf 63) (ringCtrl false 7) ctrlWord ∧ bits ctrlWord 29 22 = 15 ∧ bits ctrlWord 3 0 = 6 ∧
    ringOn toEnable 63 false 7 = false ∧ ringSizes.contains 65536 = true ∧ ringGranted toEnable 63 false 7 = true ∧
    holds (.ringConfigWrite (.vf 63) (ringCtrl false 7) ctrlWord) toEnable (fun t => fnReg t 63 (ringCtrl false 7) = ctrlWord ∧
      fnReg t 63 (ringConsumed false 7) = 0) ∧
    Permitted toEnable (.vf 63) (ringCtrl true 7) ctrlWord ∧ ringGranted toEnable 63 true 7 = true ∧
    holds (.ringConfigWrite (.vf 63) (ringCtrl true 7) ctrlWord) toEnable (fun t => fnReg t 63 (ringCtrl true 7) = ctrlWord - 6) := by
  decide +kernel

theorem test_ringBase : Permitted ringed (.vf 63) (ringBase true 7) 4096 ∧ ringOn ringed 63 true 7 = true ∧
    holds (.ringConfigWrite (.vf 63) (ringBase true 7) 4096) ringed (fun t => fnReg t 63 (ringBase true 7) = 0) ∧
    leaves (.ringConfigWrite .pf (ringBase true 7) 4096) ringed (emit (setFnReg ringed 0 (ringBase true 7) 4096) (okTo .pf)) ∧
    Permitted ringed .pf (ringSize false 7) 64 ∧ ringOn ringed 0 false 7 = false ∧
    leaves (.ringConfigWrite .pf (ringSize false 7) 64) ringed (emit (setFnReg ringed 0 (ringSize false 7) 64) (okTo .pf)) := by
  decide +kernel

theorem test_ringInterrupt : (let s := { setFnReg ringed 63 (ringCtrl false 7) (3 * 2 ^ 30 + 15 * 2 ^ 22 + 4 * 2 ^ 12) with
      evt.msix := [(63, { enable := true })] };
    let x : Ring := { prod := 8, resv := 6, frames := 4, firstAt := some 0 }; let s := setRing s 63 false 7 x; msixOpen s 63 = true ∧
    leaves (.ringInterrupt 63 false 7) s (emit (setRing s 63 false 7 { prod := 8, resv := 6 }) (.msix 63 15))) := by decide +kernel

/-- Queue 9 is a punt queue, and is selected. -/
def puntQueue : State := { upWith [(Reg.hostPuntBindSelect, 9)] with qm.nodes := [(nodeKey 3 9, { qword := 2 * 2 ^ 62 })] }

theorem test_puntBind : Permitted puntQueue .pf Reg.hostPuntBind (2 ^ 31 + 7) ∧ qType puntQueue 9 = 2 ∧ ringGranted puntQueue 0 false 7 = true ∧
    leaves (.hostPuntBindWrite .pf (2 ^ 31 + 7)) puntQueue (emit { puntQueue with host.bind := [(9, 2 ^ 31 + 7)] } (okTo .pf)) ∧
    Permitted up .pf Reg.hostPuntBind 7 ∧ leaves (.hostPuntBindWrite .pf 7) up
      (emit (noteFailure up .pf Reg.hostPuntBind .refused) (.status 0 1 [])) := by decide +kernel

/-- Packet 0, of 300 bytes, has been dequeued from punt queue 9, bound to ring 7 of VF 63. -/
def punting : State := { setPkt ringed 0 {
    origin := .line 0, stage := .stored, data := List.replicate 300 1, len := some 300, ended := true, bad := some 0, refs := 1, maxFrame := 1518 } with
  nextPkt := 1
  led.oOut := 1
  outs := [(0, outAt (refTo 0 0 1) (nodeKey 4 0) 9)]
  host.bind := [(9, 2 ^ 31 + 63 * 2 ^ 24 + 7)] }
/-- Its DMA. -/
def puntOf (n : Nat) : PuntCtx := { fn := 63, ring := 7, gen := 0, slot := 6, size := 256, root := 0, addrs := [4096, 8192], done := n }

theorem test_puntDma_start : (mfind punting.outs 0).map (fun o => nodeKind o.root) = some 4 ∧ ringOn punting 63 false 7 = true ∧
    ceilDiv 300 256 = 2 ∧ ringHeld punting 63 false 7 = 2 ∧
    leaves (.puntDma 0 [4096, 8192] 0) punting { setRing punting 63 false 7 { prod := 8, resv := 8 } with host.punts := [(0, puntOf 0)] } := by
  decide +kernel

theorem test_puntDma_done : (let s := { punting with host.punts := [(0, puntOf 3)] }; fnGen s 63 = 0 ∧ puntCount (puntOf 3) = 2 ∧
      puntFirst s 0 (puntOf 3) = true ∧ holds (.puntDma 0 [] 1) s (fun t => t.outs = [] ∧ t.led.dHost = 1 ∧ t.pkts = [])) ∧
    (let s := { punting with outs := [], host.punts := [(0, puntOf 4)] }; holds (.puntDma 0 [] 1) s (fun t => t.host.punts = [] ∧
      fnReg t 63 (ringConsumed false 7) = 8 ∧ (ringOf t 63 false 7).frames = 1)) := by decide +kernel

/-- A descriptor of 60 bytes for a route, first and last of its frame, asking for a status. -/
def ijDesc (route : Nat) : List Byte := leBytes 32 (2 ^ 127 + 5 * 2 ^ 96 + route * 2 ^ 80 + 3 * 2 ^ 78 + 60 * 2 ^ 64 + 4090)

theorem test_injectFetch_refused : (let ds := [leNat (ijDesc 2)]; frameDescs [leNat (ijDesc 2)] = some ds ∧ ringHeld ringed 63 true 7 = 2 ∧
      routeGranted ringed 63 (ds.headD 0) = false ∧ holds (.injectFetch 63 7 [ijDesc 2]) ringed (fun t => t.host.nextInject = 1 ∧
        reg t Reg.hostInjectRefused = 1 ∧ t.pkts = [])) ∧
    (let s := setReg ringed (Reg.vfInjectPorts 63) (2 ^ 31); let ds := [leNat (ijDesc 3)]; routeGranted s 63 (ds.headD 0) = true ∧
      injectMalformed s ds = true ∧ holds (.injectFetch 63 7 [ijDesc 3]) s (fun t => reg t Reg.hostInjectRefused = 1)) := by decide +kernel

theorem test_injectFetch : (let s := setReg ringed (Reg.vfInjectPorts 63) (2 ^ 31); let d := leNat (ijDesc 2); routeGranted s 63 d = true ∧
    injectMalformed s [d] = false ∧ frameReads [d] = [(4090, 0, 6), (4096, 6, 54)] ∧
    (match takeUnits (cellsFor 60) { setRing s 63 true 7 { prod := 8, resv := 7 } with host.nextInject := 1 } 28 [] with
      | .got _ _ => true
      | _ => false) = true ∧
    holds (.injectFetch 63 7 [ijDesc 2]) s (fun t => (mfind t.host.injects 0).map (fun j => [j.fn, j.ring, j.slot, j.count, j.need, j.cells.length])
      = some [63, 7, 6, 1, 60, 1] ∧ t.host.tags.map (fun x => (x.1, x.2.off, x.2.len)) = [(0, 0, 6), (1, 6, 54)] ∧
      t.sent = [.hostRead 63 1 4096 54, .hostRead 63 0 4090 6])) := by decide +kernel

/-- An inject frame of VF 63 of which 6 bytes are to come under tag 767. -/
def injecting (need : Nat) (fail : Option Nat) : Inject := {
  fn := 63, ring := 7, gen := 0, slot := 6, count := 1, desc := leNat (ijDesc 2), wb := true, data := List.replicate 60 1, need := need,
  fail := fail }
def reading (stale : Bool) : State := { ringed with
  host.injects := [(0, injecting 6 none)]
  host.tags := [(767, { inject := 0, fn := 63, gen := 0, off := 54, len := 6, stale := stale })] }

theorem test_hostReads : leaves (.hostReadCompletion 767 true [9, 9, 9, 9, 9, 9]) (reading false) { ringed with
      host.injects := [(0, { injecting 0 none with data := List.replicate 54 1 ++ [9, 9, 9, 9, 9, 9] })] } ∧
    holds (.hostCompletionTimeout 767) (reading false) (fun t => t.host.tags = [] ∧
      mfind t.host.injects 0 = some { injecting 0 (some 3) with data := [] }) ∧
    holds (.hostReadCompletion 767 true []) (reading true) (fun t => reg t Reg.hostStaleCompletions = 1 ∧
      bit (reg t Reg.hostCause) 3 = true) ∧
    holds (.hostReadCompletion 767 true []) up (fun t => reg t Reg.hostStaleCompletions = 1) := by decide +kernel

theorem test_injectBuild : (let j := injecting 0 none; let s := { ringed with host.injects := [(0, j)] }; injectFirst s 0 j = true ∧
    holds (.injectBuild 0) s (fun t => t.host.injects = [] ∧ t.led.aInject = 1 ∧ t.nextPkt = 1 ∧ pkt? t 0 = some (injectPacket s j) ∧ windowOf (injectPacket s j) = List.replicate 60 1 ∧
      fnReg t 63 (ringConsumed true 7) = 7)) := by decide +kernel

theorem test_vfOdGrant : (let b : List Byte := [0x20, 0, 0x23, 0xFF, 0, 255, 2, 0]; domainChecks up .pf (Reg.vfOdGrant 63) = none ∧
      grantBad b = false ∧ leaves (.vfOdGrantWrite .pf 63 b) up (emit (setBlk up (Reg.vfOdGrant 63) b) (okTo .pf))) ∧
    (let b : List Byte := [0x10, 0, 0x23, 0xFF, 0, 255, 2, 0]; grantBad b = true ∧
      leaves (.vfOdGrantWrite .pf 63 b) up (emit (noteFailure up .pf (Reg.vfOdGrant 63) .refused) (.status 0 1 []))) ∧
    leaves (.vfOdGrantWrite .pf 63 [1]) up (emit (noteFailure up .pf (Reg.vfOdGrant 63) .refused) (.status 0 1 [])) := by decide +kernel

theorem test_vfFlr : jobRunning ringed (Reg.vfReset 63) = false ∧ holds (.vfFlr 63 false) ringed (fun t => fnInFlr t 63 = true ∧
      fnGen t 63 = 1 ∧ ringOn t 63 false 7 = false ∧ ringOn t 63 true 7 = false) ∧
    (let s := { ringed with host.inFlr := [(63, true)] }; holds (.vfFlr 63 true) s (fun t => fnInFlr t 63 = false ∧ t.host.rings = [])) := by
  decide +kernel

theorem test_vfReset : may ringed .pf (Reg.vfReset 63) ∧ holds (.vfReset 63 (.start .pf)) ringed (fun t => fnInFlr t 63 = true ∧
      jobRunning t (Reg.vfReset 63) = true) ∧
    (let s := { ringed with host.inFlr := [(63, true)] }; may s .pf (Reg.vfReset 63) ∧ leaves (.vfReset 63 (.start .pf)) s
      (emit (noteFailure s .pf (Reg.vfReset 63) .busy) (.status 0 3 []))) ∧
    (let s := jobBegin { ringed with host.inFlr := [(63, true)] } (Reg.vfReset 63);
      holds (.vfReset 63 .step) s (fun t => fnInFlr t 63 = false)) := by decide +kernel

theorem test_vfEnable : leaves (.vfEnableSet 63) up (setReg up Reg.hostNumVfs 63) ∧ reg ringed Reg.hostNumVfs ≠ 0 := by
  decide +kernel

theorem test_pcieLink : bit (reg up Reg.idStraps) 2 = false ∧ reg up Reg.hostLink ≠ 0x683 ∧ holds (.pcieLinkChange true 6 8) up (fun t =>
      reg t Reg.hostLink = 0x683 ∧ bit (reg t Reg.hostCause) 0 = true) ∧
    reg (setReg up Reg.hostLink 0x683) Reg.hostLink ≠ 0 := by decide +kernel

/-- VF 63 exports its one counter pair. -/
def exporting : State := withRegs ringed [(Reg.vfCtrWindow 63, 2 ^ 32 + 9), (callerKey 63 Reg.ctrExportEnable, 1),
  (callerKey 63 Reg.ctrExportAddr, 4096)]
def exportOf (n : Nat) : Export := { gen := 0, base := 9, count := 1, pos := n, addr := 4096, at0 := 0 }

theorem test_counterExport : timeNs exporting % (1000 * fnReg exporting 63 Reg.ctrExportPeriodUs) = 0 ∧
    leaves (.counterExport 63 0) exporting { exporting with host.exports := [(63, exportOf 0)] } ∧
    (let s := { exporting with host.exports := [(63, exportOf 0)] }; holds (.counterExport 63 1) s (fun t =>
      t.host.exports = [(63, exportOf 1)] ∧ t.sent = [.hostWrite 63 4096 (List.replicate 16 0)])) ∧
    (let s := { exporting with host.exports := [(63, exportOf 1)] }; holds (.counterExport 63 1) s (fun t => t.host.exports = [] ∧
      fnReg t 63 Reg.ctrExportSeq = 1 ∧ .hostWrite 63 4112 (beBytes 8 1 ++ beBytes 8 0) ∈ t.sent)) := by decide +kernel


/-! ### Firmware (ch. 18) -/

/-- A header of an image for this hardware type and revision, of security version 255 and version 0x01020304. -/
def header : List Byte := [0x4B, 0x46, 0x57, 0x31, 0, 1] ++ beBytes 2 (reg up Reg.idHwType) ++ [0, 255, 0, 0] ++ [1, 2, 3, 4] ++ [0, 0, 0, 0] ++
  [0, 0, 0, 1] ++ List.replicate 296 0
/-- An image of it with one byte of payload. -/
def image : List Byte := header ++ List.replicate 65 0

theorem test_fwStagedWrite : domainChecks up .pf Reg.fwStaged = none ∧ stagedBusy up = false ∧ up.fw.fetch = none ∧ image.length = 385 ∧
    leaves (.fwStagedWrite .pf image) up (emit (setReg (setBlk up Reg.fwStaged image) Reg.fwStagedValid 1) (okTo .pf)) ∧
    (let s := jobBegin up Reg.fwInstall; domainChecks s .pf Reg.fwStaged = none ∧ stagedBusy s = true ∧
      leaves (.fwStagedWrite .pf image) s (emit (noteFailure s .pf Reg.fwStaged .busy) (.status 0 3 []))) := by decide +kernel

theorem test_fwStagedVerify : (let s := setReg (setBlk up Reg.fwStaged [1]) Reg.fwStagedValid 1; s.fw.started = true ∧
    imageSound (blk s Reg.fwStaged) = false ∧ leaves .fwStagedVerify s (setReg s Reg.fwStagedValid 3)) := by decide +kernel

/-- An image is staged. -/
def staged : State := setBlk up Reg.fwStaged image

theorem test_fwInstall_start : may staged .pf Reg.fwInstall ∧ blk staged Reg.fwStaged ≠ [] ∧ leaves (.fwInstall (.start .pf) true) staged
      (answeredWord { setReg (jobBegin staged Reg.fwInstall) Reg.fwRegionState 2 with fw.pos := 0 } .pf Reg.fwInstall) ∧
    may up .pf Reg.fwInstall ∧ holds (.fwInstall (.start .pf) true) up (fun t => JobCompleted t Reg.fwInstall 2) := by decide +kernel

/-- An install runs. -/
def installing : State := setReg (jobBegin staged Reg.fwInstall) Reg.fwRegionState 2

theorem test_fwInstall_step : holds (.fwInstall .step false) installing (fun t => JobCompleted t Reg.fwInstall 1 ∧
      reg t Reg.fwRegionState = 1 ∧ bit (reg t Reg.fwCause) 7 = true) ∧
    (job installing Reg.fwInstall).cancel = false ∧ holds (.fwInstall .step true) installing (fun t => JobCompleted t Reg.fwInstall 0 ∧
      reg t Reg.fwRegionState = 0 ∧ bit (reg t Reg.fwCause) 3 = true ∧ t.fw.image = some image) ∧
    (let s := setJob installing Reg.fwInstall { job installing Reg.fwInstall with cancel := true };
      holds (.fwInstall .step true) s (fun t => (job t Reg.fwInstall).state = 3 ∧ reg t Reg.fwRegionState = 1)) := by decide +kernel

/-- A second sector is to come: the staged image is 65,537 bytes long. -/
def installingLong : State := { installing with blocks := [(Reg.fwStaged, List.replicate 65537 0)] }

theorem test_fwInstall_sector : jobRunning installingLong Reg.fwInstall = true ∧ (job installingLong Reg.fwInstall).cancel = false ∧
    installingLong.fw.pos + 65536 < (blk installingLong Reg.fwStaged).length := by
  refine ⟨by decide +kernel, by decide +kernel, ?_⟩
  have h : blk installingLong Reg.fwStaged = List.replicate 65537 0 := rfl
  rw [h, List.length_replicate]
  decide

/-- The firmware polls its neighbours. -/
def polling : State := { setReg up Reg.fwRelayEnable 1 with time := 10 ^ 15 }

theorem test_relayPoll : (mfind polling.fw.polled 7).getD polling.fw.startedAt + reg polling Reg.fwRelayPollS * 1000000000 ≤ polling.time ∧
    stagedBusy polling = false ∧ relayQualifies polling 2 header = true ∧ leaves (.relayPoll 7 2 header) polling { polling with
      fw.polled := [(7, 10 ^ 15)], fw.fetch := some { bundle := 7, header := header, recovery := false } } ∧
    relayQualifies polling 1 header = false ∧ leaves (.relayPoll 7 1 header) polling { polling with fw.polled := [(7, 10 ^ 15)] } := by
  decide +kernel

/-- The device is in recovery and seeks an image. -/
def seeking : State := { setReg up Reg.fwState 1 with time := 10 ^ 15, fw.running := false, fw.started := false }

theorem test_recoverySeek : seekTurn seeking = some 0 ∧ seeking.fw.seekNext = 0 ∧ seeking.fw.seekAt + 1000000000 ≤ seeking.time ∧
    magicOk header = true ∧ headerFit seeking header = 0 ∧ leaves (.recoverySeek 0 header) seeking { seeking with
      fw.seekAt := 10 ^ 15, fw.seekNext := 1, fw.fetch := some { bundle := 0, header := header, recovery := true } } ∧
    magicOk [] = false ∧ leaves (.recoverySeek 0 []) seeking { seeking with fw.seekAt := 10 ^ 15, fw.seekNext := 1 } := by decide +kernel

theorem test_imageFetch : (let s := { up with fw.fetch := some { bundle := 0, header := header, recovery := true } };
    imageSound [1] = false ∧ stagedBusy s = false ∧ leaves (.imageFetchComplete [1]) s up) ∧
    (let s := { up with fw.fetch := some { bundle := 0, header := header, recovery := false } }; stagedBusy s = false) := by decide +kernel

/-- A boot is due; the region reads a good image, but for its signature. -/
def booting : State := { setReg up Reg.fwState 1 with fw := { loader := true, bootDue := true, bootCause := 2 } }

theorem test_loaderBoot : booting.pwr.inReset = false ∧ bootCheck booting false image = 8 ∧ bootCheck booting true [] = 1 ∧
    holds (.loaderBoot true []) { booting with fw.bootCause := 4 } (fun t => t.fw.bootDue = false ∧
      reg t Reg.fwLastBoot = 4 * 2 ^ 24 + 2 ^ 16 ∧ reg t Reg.fwState = 1 ∧ bit (reg t Reg.fwCause) 0 = true ∧ reg t Reg.idFwVersion = 0 ∧
      blk t Reg.fwRunningHeader = []) := by decide +kernel

theorem test_firmwareStart : (let s := { up with time := 5, fw := { loader := true, loaded := true, restarted := true } };
      holds (.firmwareStart false) s (fun t => t.fw.started = true ∧ t.fw.loaded = false ∧ t.fw.startedAt = 5 ∧
        bit (reg t Reg.fwCause) 1 = true)) ∧
    (let s := { setReg up Reg.pwrStartupPhase 3 with fw := { loader := true, started := true } }; s.fw.appliesEnded = [] ∧
      holds (.firmwareStart true) s (fun t => t.fw.running = true ∧ reg t Reg.pwrStartupPhase = 4 ∧ bit (reg t Reg.pwrCause) 6 = true)) := by
  decide +kernel

/-- What a management restart leaves. -/
abbrev restarted (t : State) (cause : Nat) : Prop := t.fw.bootDue = true ∧ t.fw.bootCause = cause ∧ t.fw.running = false ∧
  t.fw.restarted = true ∧ t.dict.sessions = [] ∧ t.dict.transfers = []

theorem test_mgmtRestarts : (let s := { transfers reads with time := 1000 }; s.fw.pinAt + 1000 ≤ s.time ∧
      holds .mgmtRestartLFall s (fun t => restarted t 3 ∧ t.fw.pinLow = true)) ∧
    (let s := { up with time := 7, fw.pinLow := true }; leaves .mgmtRestartLRise s { s with fw.pinLow := false, fw.pinAt := 7 }) ∧
    Permitted up .pf Reg.fwRestart 1 ∧ holds (.fwRestart .pf 1) (transfers reads) (fun t => restarted t 4) ∧
    Permitted up .pf Reg.fwRestart 0 ∧ leaves (.fwRestart .pf 0) up (emit up (okTo .pf)) ∧
    holds .fwWatchdogExpiry (transfers reads) (fun t => restarted t 5) := by decide +kernel

/-! ### Power, resets and start-up (ch. 19) -/

/-- A fuse of the unit is set, a link lies in the settings, and a counted write burns. -/
def before : State := { burning Reg.ftDeviceId [0, 0, 0, 7] with
  od := (withRegs up [(Reg.ftDeviceId, 5), (Reg.flEnable 319, 1)]).od
  dict.store := [(Reg.flEnable 319, 1)] }

theorem test_resets : reg before Reg.ftDeviceId = 5 ∧ isFuse Reg.ftDeviceId = true ∧
    holds (.powerOnReset true 0x104) before (fun t => reg t Reg.pwrLastReset = 1 ∧ reg t (Reg.pwrResetCount 1) = 1 ∧ reg t Reg.idStraps = 4 ∧
      reg t Reg.ftDeviceId = 5 ∧ reg t (Reg.flEnable 319) = odDefault (Reg.flEnable 319) ∧ t.dict.torn = before.dict.burns ∧
      t.dict.burns = [] ∧ t.dict.store = before.dict.store) ∧
    before.pwr.off = false ∧ before.pwr.jtag = none ∧ holds (.pinReset 4) before (fun t => reg t Reg.pwrLastReset = 2 ∧ t.fw.bootCause = 2) ∧
    holds .powerLoss before (fun t => t.pwr = { inReset := true, off := true } ∧ t.dict.torn = before.dict.burns) := by decide +kernel

/-- Right after the reset, with a torn write. -/
def risen : State := { State.reset with dict.torn := before.dict.burns }

theorem test_startUp : risen.pwr.sensed = false ∧ risen.pwr.inReset = false ∧ holds .fuseSenseComplete risen (fun t => t.pwr.sensed = true ∧
      t.dict.torn = [] ∧ t.dict.cwLog = risen.dict.torn.map (fun b => cwRecord b 1) ∧ bit (reg t Reg.odCause) 3 = true) ∧
    (let s := { State.reset with pwr.sensed := true }; s.fw.loader = false ∧
      leaves (.loaderSectorCheck false 3 true) s { s with fw.halted := true } ∧
      holds (.loaderSectorCheck true 3 true) s (fun t => t.fw.loader = true ∧ t.fw.bootDue = true ∧ reg t Reg.pwrStartupPhase = 1 ∧
        reg t Reg.intD2dLanesRepaired = 3) ∧
      holds (.loaderSectorCheck true 3 false) s (fun t => t.fw.loader = true ∧ t.fw.bootDue = false ∧ bit (reg t Reg.intCause) 4 = true)) ∧
    (let s := { setReg State.reset Reg.pwrStartupPhase 1 with pwr.sensed := true, fw := { loader := true, started := true } };
      s.pwr.inReset = false ∧ s.fw.running = false ∧ reg s Reg.pwrStartupPhase = 1) := by decide +kernel

theorem test_retentionEnter : may up .pf Reg.pwrRetentionEnter ∧ entryBusy up = false ∧ reg up Reg.pwrState ≠ 2 ∧
    leaves (.retentionEnter (.start .pf)) up (answeredWord (setReg { jobBegin up Reg.pwrRetentionEnter with
      pwr.entering := 1, pwr.flushing := true } Reg.pwrState 1) .pf Reg.pwrRetentionEnter) ∧
    (let s := { up with pwr.dpReset := true }; may s .pf Reg.pwrRetentionEnter ∧ entryBusy s = true ∧
      leaves (.retentionEnter (.start .pf)) s (emit (noteFailure s .pf Reg.pwrRetentionEnter .busy) (.status 0 3 []))) ∧
    (let s := { setReg (jobBegin up Reg.pwrRetentionEnter) Reg.pwrState 1 with pwr.entering := 6, pwr.avsDead := [(0, true)] };
      railSettled s 0 = true ∧ holds (.retentionEnter .step) s (fun t => reg t Reg.pwrState = 2 ∧ t.pwr.entering = 0 ∧
        bit (reg t Reg.pwrCause) 0 = true ∧ JobCompleted t Reg.pwrRetentionEnter 0)) := by decide +kernel

theorem test_retentionExit : (let s := setReg up Reg.tempMax (16 * reg up Reg.pwrTempWarnC); may s .pf Reg.pwrRetentionExit ∧
      thermalHold s = true ∧ leaves (.retentionExit (.start .pf)) s
        (emit (noteFailure s .pf Reg.pwrRetentionExit .refused) (.status 0 1 []))) ∧
    (let s := setReg up Reg.pwrState 2; may s .pf Reg.pwrRetentionExit ∧ thermalHold s = false ∧
      holds (.retentionExit (.start .pf)) s (fun t => reg t Reg.pwrState = 3 ∧ t.pwr.leaving = 1 ∧ jobRunning t Reg.pwrRetentionExit = true)) ∧
    railSettled { setReg up Reg.pwrState 3 with pwr.leaving := 1, pwr.dark := true, pwr.avsDead := [(0, true)] } 0 = true := by decide +kernel

theorem test_datapathReset : may up .pf Reg.pwrDatapathReset ∧ resetBusy up = false ∧ leaves (.datapathReset (.start .pf)) up (answeredWord
      (jobBegin { up with pwr.dpReset := true, pwr.flushing := true } Reg.pwrDatapathReset) .pf Reg.pwrDatapathReset) ∧
    (let s := { up with pwr.leaving := 1 }; may s .pf Reg.pwrDatapathReset ∧ resetBusy s = true ∧ leaves (.datapathReset (.start .pf)) s
      (emit (noteFailure s .pf Reg.pwrDatapathReset .busy) (.status 0 3 []))) ∧
    (let s := { up with pwr.dpReset := true, time := 20000 }; s.pwr.since + 20000 ≤ s.time) := by decide +kernel

theorem test_islandReset : (let s := setReg up Reg.pwrIslandResetArg 105; may s .pf Reg.pwrIslandReset ∧ scalable.contains 105 = true ∧
      leaves (.islandReset (.start .pf)) s (answeredWord (jobBegin { s with pwr.islReset := some 105 } Reg.pwrIslandReset)
        .pf Reg.pwrIslandReset)) ∧
    (let s := setReg up Reg.pwrIslandResetArg 64; may s .pf Reg.pwrIslandReset ∧ scalable.contains 64 = false ∧
      leaves (.islandReset (.start .pf)) s (emit (noteFailure s .pf Reg.pwrIslandReset .refused) (.status 0 1 []))) ∧
    (let s := { setIsl up 105 { stopped := true } with pwr.islReset := some 105 }; holds (.islandReset .step) s (fun t =>
      t.pwr.islReset = none ∧ isl t 105 = { pinned := flag s (Reg.islandMode 105), floor := reg s (Reg.islandFloorStep 105) } ∧
      bit (reg t Reg.pwrCause) 4 = true ∧ reg t (Reg.pwrResetCount 5) = 1)) := by decide +kernel

/-- The target of VDD_T lies below its voltage; two commands went unanswered. -/
def moving25 : State := { upWith [(Reg.pwrVddMv 1, 780)] with time := 50001, pwr.target := [(1, 700)], pwr.nacks := [(1, 2)], pwr.avsAt := [(1, 1)] }

theorem test_avs : timeNs moving25 % 100000000 ≠ 0 ∧ railSettled moving25 1 = false ∧ avsNext 780 700 = 755 ∧
    holds (.avsEvaluate 1 true) moving25 (fun t => reg t (Reg.pwrVddMv 1) = 755 ∧ t.sent = [.avs 1 755] ∧ mget 0 t.pwr.nacks 1 = 0) ∧
    holds (.avsEvaluate 1 false) moving25 (fun t => reg t (Reg.pwrVddMv 1) = 780 ∧ mget false t.pwr.avsDead 1 = true ∧
      bit (reg t Reg.pwrCause) 3 = true) := by decide +kernel

/-- Sensor 63 reads x, the others −1/16 °C. -/
def sensors (x : Nat) : List Nat := List.replicate 63 (2 ^ 32 - 1) ++ [x]

theorem test_tempRead : (sensors 160).length = 64 ∧ hottest (sensors 160) = (160, 63) ∧ (160 : Int) < 16 * (reg up Reg.pwrTempWarnC : Int) ∧
    (160 : Int) < 16 * (reg up Reg.pwrTempCritC : Int) ∧ timeNs up % 100000 = 0 ∧ holds (.tempRead (sensors 160) [1, 2]) up (fun t =>
      reg t Reg.tempMax = 160 ∧ reg t Reg.tempMaxSensor = 63 ∧ reg t (Reg.tempSensor 0) = 2 ^ 32 - 1 ∧ reg t (Reg.tempDiode 1) = 2) ∧
    (let x := 16 * reg up Reg.pwrTempWarnC; hottest (sensors x) = (x, 63) ∧ x < 16 * reg up Reg.pwrTempCritC ∧ up.pwr.warned = false ∧
      holds (.tempRead (sensors x) [1, 2]) up (fun t => t.pwr.warned = true ∧ bit (reg t Reg.pwrCause) 1 = true)) := by decide +kernel

theorem test_clocks : timeNs up % 10000000 = 0 ∧ up.pwr.inReset = false ∧
    holds (.refclkLoss 0) { up with fl.timeLocked := true } (fun t => bit (reg t Reg.pwrCause) 5 = true ∧ t.fl.timeLocked = false) ∧
    holds (.refclkLoss 13) up (fun t => bit (reg t Reg.pwrCause) 5 = true) := by decide +kernel

/-! ### Integrity (ch. 20) and board signals (ch. 21) -/

theorem test_sweepStart : scrubPeriod up 8 ≠ 0 ∧ timeNs up % scrubPeriod up 8 = 0 ∧ leaves (.patrolScrubSweepStart 8) up
      { up with integ.sweeps := [(8, 0)] } ∧
    (let s := { up with integ.sweeps := [(8, 5)] }; holds (.patrolScrubSweepStart 8) s (fun t => reg t Reg.intScrubLate = 1 ∧
      bit (reg t Reg.intCause) 5 = true ∧ t.integ.sweeps = s.integ.sweeps)) ∧
    scrubPeriod up 11 ≠ 0 ∧ leaves (.patrolScrubSweepStart 11) (setReg up Reg.pwrState 2)
      { setReg up Reg.pwrState 2 with integ.sweeps := [(11, 0)] } := by decide +kernel

theorem test_scrubRead : (let k := 255 * 2 ^ 40 + (2 ^ 40 - 1); let s := { up with integ.sweeps := [(8, k)] }; reg s Reg.pwrState = 0 ∧
    scrubCounts s 8 255 = false ∧ flipsOf s 8 255 (2 ^ 40 - 1) = 0 ∧
    leaves (.patrolScrubRead 8 255 (2 ^ 40 - 1) 0 false) s { s with integ.sweeps := [(8, k + 1)] } ∧
    holds (.patrolScrubRead 8 255 (2 ^ 40 - 1) 1 false) s (fun t => flipsOf t 8 255 (2 ^ 40 - 1) = 0 ∧ reg t (Reg.intCorrected 8) = 1 ∧
      bit (reg t Reg.intCause) 0 = true)) := by decide +kernel

theorem test_patrolBatch : (let s := { up with integ.due := [(66, 2)] }; let reads := [(0, 5, 0), (4, 6, 0)]; mget 0 s.integ.due 66 = reads.length ∧
    (isl s 66).stopped = false ∧ (∀ r ∈ reads, (r.1 = 0 ∨ r.1 = 1 ∨ r.1 = 4) ∧ r.2.2 = 0 ∧ flipsOf s r.1 66 r.2.1 = 0) ∧
    leaves (.patrolScrubBatch 66 reads) s up) := by decide +kernel

theorem test_mgmtRam : holds (.mgmtRamError 9 1) up (fun t => reg t (Reg.intCorrected 0xB) = 1 ∧ t.fw = up.fw) ∧
    holds (.mgmtRamError 9 2) up (fun t => t.fw.halted = true ∧ t.fw.running = false ∧ bit (reg t Reg.intCause) 7 = true) := by decide +kernel

/-- One flipped bit is armed for word 77 of the multicast tables. -/
def armed : Nat := 2 ^ 60 + 8 * 2 ^ 56 + 90 * 2 ^ 48 + 77

theorem test_inject : Permitted up .firmware Reg.intInject armed ∧ bits armed 63 60 = 1 ∧ bits armed 59 56 = 8 ∧
    leaves (.intInjectWrite .firmware armed) up (emit (setReg up Reg.intInject armed) (okTo .firmware)) ∧
    (let v := 5 * 2 ^ 60; Permitted up .firmware Reg.intInject v ∧ leaves (.intInjectWrite .firmware v) up
      (emit (noteFailure up .firmware Reg.intInject .refused) (.status (callerOf .firmware) 1 []))) ∧
    holds (.injectFire 77 0 false) (setReg up Reg.intInject armed) (fun t => reg t Reg.intInject = 0 ∧ flipsOf t 8 90 77 = 1 ∧
      bit (reg t Reg.intCause) 6 = true ∧ reg t Reg.intInjectFired = 1) := by decide +kernel

theorem test_pps : leaves (.ppsInEdge 0) up (setReg { up with io.ppsInAt := some 0 } Reg.ioPpsInTs (2 ^ 64 - 2)) ∧
    (let s := { up with time := 999, io.ppsInAt := some 0 }; leaves (.ppsInEdge 4) s { s with io.ppsInAt := some 999 }) ∧
    (let s := { up with fl.timeLocked := true }; timeNs s % 1000000000 = 0 ∧ leaves .ppsOutPulse s
      (emit { s with io.ppsFall := some 1000000 } (.pps true))) := by decide +kernel

theorem test_gpio : Permitted up .pf Reg.ioGpioDir (2 ^ 32 - 1) ∧ holds (.gpioWrite .pf false (2 ^ 32 - 1)) (setReg up Reg.ioGpioOut 5)
      (fun t => reg t Reg.ioGpioDir = 2 ^ 32 - 1 ∧ t.io.gpio = (2 ^ 32 - 1) * 2 ^ 32 + 5) ∧
    Permitted up .pf Reg.ioGpioOut 5 ∧ holds (.gpioWrite .pf true 7) (setReg up Reg.ioGpioDir 1) (fun t => reg t Reg.ioGpioOut = 7 ∧
      t.io.gpio = 2 ^ 32 + 1) := by decide +kernel

theorem test_serial : (let s := { up with io.i2c := [(7, [2, 80, 2, 0, 0, 0, 0, 0, 1, 80, 1, 0, 9, 0, 0, 0])], io.i2cRun := [(7, true)] };
      holds (.ioI2cXfer 7 [(0, [0xAB, 0xCD]), (2, [])]) s (fun t => t.io.i2cRun = [] ∧
        t.io.i2c = [(7, [2, 80, 2, 0, 0xAB, 0xCD, 0, 0, 1, 80, 1, 2, 9, 0, 0, 0])])) ∧
    (let s := { up with io.mdio := [(1, [2, 1, 3, 0, 0, 0, 0, 0])], io.mdioRun := [(1, true)] };
      holds (.ioMdioXfer 1 [(0, [0xAB, 0xCD])]) s (fun t => t.io.mdioRun = [] ∧ t.io.mdio = [(1, [2, 1, 3, 0, 0xAB, 0xCD, 0, 0])])) := by
  decide +kernel

theorem test_jtag : before.pwr.off = false ∧ holds .jtagHighz before (fun t => t.pwr = { inReset := true, jtag := some 4 } ∧ t.pkts = [] ∧
      t.dict.store = before.dict.store) ∧
    leaves (.jtagBypass 0) up (emit up (.jtag [0])) ∧ leaves (.jtagSamplePreload 0) up up ∧ leaves (.jtagTestExit 0) up up ∧
    (let s := { before with pwr := { inReset := true, jtag := some 0 } }; holds (.jtagTestExit 5) s (fun t => reg t Reg.idStraps = 5 ∧
      t.fw.bootCause = 2 ∧ reg t Reg.pwrLastReset = 2)) := by decide +kernel


/-! ### Well-formed commands -/

/-- Clients, messages and forms of writes that name nothing of the block. -/
theorem test_wf_parts : ([.vf 0, .vf 64, .session (2 ^ 32)] : List Client).all (fun c => !c.wf) = true ∧
    ([.mailbox 64, .udp 2 [1, 2, 3, 4] 0 [] true [], .udp 0 [1] 0 [] true [], .udp 0 [1, 2, 3, 4] 65536 [] true [], .channel 8] : List Via).all
      (fun v => !v.wf) = true ∧
    ([.map 64 0 [1, 2, 3, 4], .map 0 (2 ^ 27 - 3) [1, 2, 3, 4], .map 0 0 [1], .entry (.vf 0) 0 0, .entry .pf (2 ^ 24) 0, .entry .pf 0 (2 ^ 64)] :
      List WriteForm).all (fun w => !w.wf) = true ∧ (JobOp.start (.vf 0)).wf = false := by decide +kernel

/-- Commands with operands at the ends of their ranges are well-formed. -/
theorem test_wf_taken_0 : ([
    .registerWrite (.entry .pf 0 0), .crossing 120 16 true, .governorInterval 120 0 0,
    .islandModeWrite (.vf 63) 120 true 18446744073709551615, .pinAllScalableWrite (.vf 63) 18446744073709551615,
    .timeConfigWrite 18446744073709551615, .portModeWrite (.vf 63) 1023 18446744073709551615,
    .portFecWrite (.vf 63) 1023 18446744073709551615, .portAdminUpWrite (.vf 63) 1023 18446744073709551615, .linkUp 1023,
    .linkDown 1023, .lineLaneSignalChange 255 true true true true true, .rxFrameStart 1023 [] 65535 true, .rxFrameEnd 1023 [],
    .pauseTimeExpiry 1023 8, .lmacDrainResume 31, .pauseResend 1023 8, .eggTimerFire 1023 8, .eggHoldEnd 1023 8,
    .txFrameStart 1023 65535, .txFrameEnd 1023, .portTsFifoRead (.vf 63) 1023, .portStatsReadClear (.vf 63) 1023 15,
    .flexeCalSwitch (.vf 63) 1023, .flexeCalSwitchAck 1023, .flexeCalSwitchTimeout 1023,
    .lanePrbsModeWrite (.vf 63) 255 18446744073709551615, .prbsLockLost true 319 0, .lanePrbsErrorsRead (.vf 63) 255 0,
    .laneLoopbackWrite (.vf 63) 255 18446744073709551615, .counterUpdatePost 1048575, .clsEpochSwap (.vf 63),
    .clsStagePlanWrite (.vf 63) 1 [], .clsDirectTableWrite (.vf 63) 1 [], .clsRewriteProfilesWrite (.vf 63) 1 [],
    .clsCompatBucketsWrite (.vf 63) 18446744073709551615, .learnNoticesRead (.vf 63), .lkpLoadWrite (.vf 63) [], .lkpApply (.start .pf),
    .lpmSubtreeSwitch 7, .lpmSubtreeFree 7, .lkpPivotMove (.start .pf), .lkpDumpRead (.vf 63), .aseLoadWrite (.vf 63) [],
    .aseApply (.start .pf), .aseCopyStep 7, .aseWriteStep 7, .aseSweepStart 7, .aseScrubRead 7 none, .aseTempRead 7 4294967295,
    .aseUpdateBudgetWrite (.vf 63) 18446744073709551615, .aseScrubBudgetWrite (.vf 63) 18446744073709551615, .aseDumpRead (.vf 63),
    .meterCorrection 262143, .mtrConfigWrite (.vf 63) [], .mtrLoadWrite (.vf 63) [], .mtrApply (.start .pf), .ctrPktsRead (.vf 63),
    .ctrClear (.vf 63) 18446744073709551615, .ctrSweep (.start .pf)] : List Instr).all (fun i => i.wf) = true := by decide +kernel

/-- Commands with operands at the ends of their ranges are well-formed. -/
theorem test_wf_taken_1 : ([
    .skimmerRebuildDone 31, .dequeue 5 524287, .unspillPrefetch 524287, .poolDescWrite (.vf 63) 31 18446744073709551615,
    .admProfileWrite (.vf 63) 255 [], .poolSizeWrite (.vf 63) 31 true 18446744073709551615,
    .fcThresholdWrite (.vf 63) 15 true 18446744073709551615, .poolWatermarkRead (.vf 63) 31, .hbmRequest 3 4 50331647 63 64 true,
    .hbmRequestComplete 3 63, .refreshDue 3 63, .refreshPayback 3 63, .hbmTempRead 3 4294967295,
    .hbmRatePinWrite (.vf 63) 18446744073709551615, .hbmCapture (.start .pf) 68719476735, .hbmInit 3 (.start .pf) true,
    .hbmOffline (.vf 63) 3, .hbmDrained 3, .hbmPatrolScrub 3 [], .hbmScrubBatch 3, .hbmRefreshOwedMaxRead (.vf 63) 3,
    .shaperRefill 5 524287, .mcFanout 15, .voqIdleRelease 524287, .qmLoadWrite (.vf 63) [], .qmApply (.start .pf),
    .schConfigWrite (.vf 63) [], .fecCodewordDecode 319 2, .buntingFrameReceive 319 16383 0 [], .buntingFrameSend 7 0,
    .containerFrameReceive 7, .losClear 319, .laneSetPropose 7, .laneSetAccept 7, .laneSetReject 7, .laneSetCommit 7, .laneSetRequest 7,
    .laneSetEffect 7 true, .laneSetTimeout 7 true, .laneQuiet 7, .laneWake 319, .laneAutoRemove 319, .shedGovernor 7,
    .fbLaneSetChange (.vf 63) 7, .mgmtChannelPacket 7, .fabricPrbsLoopbackWrite (.vf 63) 319 true 18446744073709551615,
    .flPrbsErrorsRead (.vf 63) 319 0, .idlePennantReceive 7, .dataPennantReceive 7, .multicastPennantReceive 7, .beaconReceive 7,
    .sequenceStartReceive 7, .creditRequestPennantReceive 7, .creditGrantPennantReceive 7, .probeSend 1048575, .probeUnanswered 1048575,
    .creditPennantSend 1048575, .grantIssue 1023, .creditReturnTimer 524287, .creditRequestTimeout 524287] : List Instr).all (fun i => i.wf) = true := by decide +kernel

/-- Commands with operands at the ends of their ranges are well-formed. -/
theorem test_wf_taken_2 : ([
    .pennantSend 524287, .reorderTimeout 1048575, .reassemblyTimeout 1048575 none, .ftDeviceIdWrite (.vf 63) 18446744073709551615,
    .perfSelectWrite (.vf 63) 4095 18446744073709551615, .perfCounterWrite (.vf 63) 4095 18446744073709551615, .perfCounterWrap 4095,
    .bwWindowEnd 1023, .bwWindowKWrite (.vf 63) 1023 18446744073709551615, .qwmValueRead (.vf 63), .histSample 63,
    .histClear (.vf 63) 63 18446744073709551615, .sojClear (.vf 63) 1023 18446744073709551615,
    .ensEnableWrite (.vf 63) 18446744073709551615, .mirrorSessionWrite (.vf 63) 15 [],
    .causeEnableWrite (.vf 63) 16777215 18446744073709551615, .causeClear (.vf 63) 16777215 18446744073709551615,
    .evtStickyClear (.vf 63) 1023 18446744073709551615, .evtGroupStickyClear (.vf 63) 63 18446744073709551615,
    .evtMaskWrite (.vf 63) 1023 18446744073709551615, .evtGroupMaskWrite (.vf 63) 63 18446744073709551615,
    .evtRouteWrite (.vf 63) 1023 18446744073709551615, .evtTestRaise (.vf 63) 18446744073709551615, .evtFwQueueHighRead (.vf 63),
    .odAccessStatusRead 63 8, .mbDoorbell (.vf 63) 18446744073709551615, .synsaRead (.mailbox 63), .synsaWrite (.mailbox 63),
    .domainBegin (.mailbox 63), .domainSegment (.mailbox 63), .domainEnd (.mailbox 63), .jobStart (.mailbox 63),
    .jobStatus (.mailbox 63), .synsaEventSend 4294967295, .discoverProbe (.mailbox 63), .sessionOpen (.mailbox 63),
    .sessionClose (.mailbox 63), .announceReceive 7, .synsaRelay (.mailbox 63), .relayResponse 7, .sessionIdleTimeout 4294967295,
    .domainIdleTimeout 65535, .odSave (.start .pf) 16777215 2, .odSettingsErase (.start .pf),
    .countedWrite (.vf 63) 16777215 18446744073709551615, .countedWriteComplete 16777215, .synDeviceKeyWrite (.vf 63) [],
    .puntDoorbell 63 7 18446744073709551615, .injectDoorbell 63 7 18446744073709551615, .injectFetch 63 7 [],
    .hostReadCompletion 767 true [], .ringInterrupt 63 true 7, .ringConfigWrite (.vf 63) 16777215 18446744073709551615,
    .hostPuntBindWrite (.vf 63) 18446744073709551615, .vfOdGrantWrite (.vf 63) 63 [], .vfFlr 63 true, .vfReset 63 (.start .pf),
    .pcieLinkChange true 6 8, .counterExport 63 0, .fwStagedWrite (.vf 63) []] : List Instr).all (fun i => i.wf) = true := by decide +kernel

/-- Commands with operands at the ends of their ranges are well-formed. -/
theorem test_wf_taken_3 : ([
    .fwInstall (.start .pf) true, .recoverySeek 7 [], .relayPoll 7 3 [], .fwRollbackFloorWrite (.vf 63) 18446744073709551615,
    .fwRestart (.vf 63) 18446744073709551615, .powerOnReset true 4294967295, .pinReset 4294967295, .loaderSectorCheck true 65535 true,
    .avsEvaluate 1 true, .retentionEnter (.start .pf), .retentionExit (.start .pf), .datapathReset (.start .pf),
    .islandReset (.start .pf), .refclkLoss 13, .patrolScrubRead 11 255 1099511627775 3 true, .patrolScrubSweepStart 11,
    .patrolScrubBatch 255 [], .mgmtRamError 1099511627775 3, .intInjectWrite (.vf 63) 18446744073709551615, .ppsInEdge 4,
    .gpioWrite (.vf 63) true 18446744073709551615, .ioI2cXfer 1 [], .ioMdioXfer 1 [], .jtagBypass 4294967295, .jtagIdcode 4294967295,
    .jtagSamplePreload 4294967295, .jtagTestExit 4294967295, .fabricLaneSignalChange 319 true, .prbsCheckerLock true 319,
    .flexeGroupFault 1023, .msixControlWrite 63 2 255 true, .vfEnableSet 63, .hostCompletionTimeout 767, .creditBusyHoldoffEnd 524287] : List Instr).all (fun i => i.wf) = true := by decide +kernel

/-- Each has one operand out of its range. -/
theorem test_wf_refused_0 : ([
    .registerWrite (.map 64 0 [0, 0, 0, 0]), .crossing 121 16 true, .crossing 120 17 true, .governorInterval 121 0 0,
    .islandModeWrite (.vf 64) 120 true 18446744073709551615, .islandModeWrite (.vf 63) 121 true 18446744073709551615,
    .islandModeWrite (.vf 63) 120 true 18446744073709551616, .pinAllScalableWrite (.vf 64) 18446744073709551615,
    .pinAllScalableWrite (.vf 63) 18446744073709551616, .timeConfigWrite 18446744073709551616,
    .portModeWrite (.vf 64) 1023 18446744073709551615, .portModeWrite (.vf 63) 1024 18446744073709551615,
    .portModeWrite (.vf 63) 1023 18446744073709551616, .portFecWrite (.vf 64) 1023 18446744073709551615,
    .portFecWrite (.vf 63) 1024 18446744073709551615, .portFecWrite (.vf 63) 1023 18446744073709551616,
    .portAdminUpWrite (.vf 64) 1023 18446744073709551615, .portAdminUpWrite (.vf 63) 1024 18446744073709551615,
    .portAdminUpWrite (.vf 63) 1023 18446744073709551616, .linkUp 1024, .linkDown 1024,
    .lineLaneSignalChange 256 true true true true true, .rxFrameStart 1024 [] 65535 true, .rxFrameStart 1023 [] 65536 true,
    .rxFrameEnd 1024 [], .pauseTimeExpiry 1024 8, .pauseTimeExpiry 1023 9, .lmacDrainResume 32, .pauseResend 1024 8,
    .pauseResend 1023 9, .eggTimerFire 1024 8, .eggTimerFire 1023 9, .eggHoldEnd 1024 8, .eggHoldEnd 1023 9, .txFrameStart 1024 65535,
    .txFrameStart 1023 65536, .txFrameEnd 1024, .portTsFifoRead (.vf 64) 1023, .portTsFifoRead (.vf 63) 1024,
    .portStatsReadClear (.vf 64) 1023 15, .portStatsReadClear (.vf 63) 1024 15, .portStatsReadClear (.vf 63) 1023 16,
    .flexeCalSwitch (.vf 64) 1023, .flexeCalSwitch (.vf 63) 1024, .flexeCalSwitchAck 1024, .flexeCalSwitchTimeout 1024,
    .lanePrbsModeWrite (.vf 64) 255 18446744073709551615, .lanePrbsModeWrite (.vf 63) 256 18446744073709551615,
    .lanePrbsModeWrite (.vf 63) 255 18446744073709551616, .prbsLockLost true 320 0, .prbsLockLost false 256 0,
    .lanePrbsErrorsRead (.vf 64) 255 0, .lanePrbsErrorsRead (.vf 63) 256 0, .laneLoopbackWrite (.vf 64) 255 18446744073709551615,
    .laneLoopbackWrite (.vf 63) 256 18446744073709551615, .laneLoopbackWrite (.vf 63) 255 18446744073709551616,
    .counterUpdatePost 1048576, .clsEpochSwap (.vf 64), .clsStagePlanWrite (.vf 64) 1 [], .clsStagePlanWrite (.vf 63) 2 []] : List Instr).all (fun i => !i.wf) = true := by decide +kernel

/-- Each has one operand out of its range. -/
theorem test_wf_refused_1 : ([
    .clsDirectTableWrite (.vf 64) 1 [], .clsDirectTableWrite (.vf 63) 2 [], .clsRewriteProfilesWrite (.vf 64) 1 [],
    .clsRewriteProfilesWrite (.vf 63) 2 [], .clsCompatBucketsWrite (.vf 64) 18446744073709551615,
    .clsCompatBucketsWrite (.vf 63) 18446744073709551616, .learnNoticesRead (.vf 64), .lkpLoadWrite (.vf 64) [],
    .lkpApply (.start (.vf 0)), .lpmSubtreeSwitch 8, .lpmSubtreeFree 8, .lkpPivotMove (.start (.vf 0)), .lkpDumpRead (.vf 64),
    .aseLoadWrite (.vf 64) [], .aseApply (.start (.vf 0)), .aseCopyStep 8, .aseWriteStep 8, .aseSweepStart 8, .aseScrubRead 8 none,
    .aseTempRead 8 4294967295, .aseTempRead 7 4294967296, .aseUpdateBudgetWrite (.vf 64) 18446744073709551615,
    .aseUpdateBudgetWrite (.vf 63) 18446744073709551616, .aseScrubBudgetWrite (.vf 64) 18446744073709551615,
    .aseScrubBudgetWrite (.vf 63) 18446744073709551616, .aseDumpRead (.vf 64), .meterCorrection 262144, .mtrConfigWrite (.vf 64) [],
    .mtrLoadWrite (.vf 64) [], .mtrApply (.start (.vf 0)), .ctrPktsRead (.vf 64), .ctrClear (.vf 64) 18446744073709551615,
    .ctrClear (.vf 63) 18446744073709551616, .ctrSweep (.start (.vf 0)), .skimmerRebuildDone 32, .dequeue 6 524287, .dequeue 5 524288,
    .unspillPrefetch 524288, .poolDescWrite (.vf 64) 31 18446744073709551615, .poolDescWrite (.vf 63) 32 18446744073709551615,
    .poolDescWrite (.vf 63) 31 18446744073709551616, .admProfileWrite (.vf 64) 255 [], .admProfileWrite (.vf 63) 256 [],
    .poolSizeWrite (.vf 64) 31 true 18446744073709551615, .poolSizeWrite (.vf 63) 32 true 18446744073709551615,
    .poolSizeWrite (.vf 63) 31 true 18446744073709551616, .fcThresholdWrite (.vf 64) 15 true 18446744073709551615,
    .fcThresholdWrite (.vf 63) 16 true 18446744073709551615, .fcThresholdWrite (.vf 63) 15 true 18446744073709551616,
    .poolWatermarkRead (.vf 64) 31, .poolWatermarkRead (.vf 63) 32, .hbmRequest 4 4 50331647 63 64 true,
    .hbmRequest 3 5 50331647 63 64 true, .hbmRequest 3 4 50331648 63 64 true, .hbmRequest 3 4 50331647 64 64 true,
    .hbmRequest 3 4 50331647 63 65 true, .hbmRequestComplete 4 63, .hbmRequestComplete 3 64, .refreshDue 4 63, .refreshDue 3 64] : List Instr).all (fun i => !i.wf) = true := by decide +kernel

/-- Each has one operand out of its range. -/
theorem test_wf_refused_2 : ([
    .refreshPayback 4 63, .refreshPayback 3 64, .hbmTempRead 4 4294967295, .hbmTempRead 3 4294967296,
    .hbmRatePinWrite (.vf 64) 18446744073709551615, .hbmRatePinWrite (.vf 63) 18446744073709551616,
    .hbmCapture (.start (.vf 0)) 68719476735, .hbmCapture (.start .pf) 68719476736, .hbmInit 4 (.start .pf) true,
    .hbmInit 3 (.start (.vf 0)) true, .hbmOffline (.vf 64) 3, .hbmOffline (.vf 63) 4, .hbmDrained 4, .hbmPatrolScrub 4 [],
    .hbmScrubBatch 4, .hbmRefreshOwedMaxRead (.vf 64) 3, .hbmRefreshOwedMaxRead (.vf 63) 4, .shaperRefill 6 524287,
    .shaperRefill 5 524288, .mcFanout 16, .voqIdleRelease 524288, .qmLoadWrite (.vf 64) [], .qmApply (.start (.vf 0)),
    .schConfigWrite (.vf 64) [], .fecCodewordDecode 320 2, .fecCodewordDecode 319 3, .buntingFrameReceive 320 16383 0 [],
    .buntingFrameReceive 319 16384 0 [], .buntingFrameSend 8 0, .containerFrameReceive 8, .losClear 320, .laneSetPropose 8,
    .laneSetAccept 8, .laneSetReject 8, .laneSetCommit 8, .laneSetRequest 8, .laneSetEffect 8 true, .laneSetTimeout 8 true,
    .laneQuiet 8, .laneWake 320, .laneAutoRemove 320, .shedGovernor 8, .fbLaneSetChange (.vf 64) 7, .fbLaneSetChange (.vf 63) 8,
    .mgmtChannelPacket 8, .fabricPrbsLoopbackWrite (.vf 64) 319 true 18446744073709551615,
    .fabricPrbsLoopbackWrite (.vf 63) 320 true 18446744073709551615, .fabricPrbsLoopbackWrite (.vf 63) 319 true 18446744073709551616,
    .flPrbsErrorsRead (.vf 64) 319 0, .flPrbsErrorsRead (.vf 63) 320 0, .idlePennantReceive 8, .dataPennantReceive 8,
    .multicastPennantReceive 8, .beaconReceive 8, .sequenceStartReceive 8, .creditRequestPennantReceive 8, .creditGrantPennantReceive 8,
    .probeSend 1048576, .probeUnanswered 1048576, .creditPennantSend 1048576] : List Instr).all (fun i => !i.wf) = true := by decide +kernel

/-- Each has one operand out of its range. -/
theorem test_wf_refused_3 : ([
    .grantIssue 1024, .creditReturnTimer 524288, .creditRequestTimeout 524288, .pennantSend 524288, .reorderTimeout 1048576,
    .reassemblyTimeout 1048576 none, .ftDeviceIdWrite (.vf 64) 18446744073709551615, .ftDeviceIdWrite (.vf 63) 18446744073709551616,
    .perfSelectWrite (.vf 64) 4095 18446744073709551615, .perfSelectWrite (.vf 63) 4096 18446744073709551615,
    .perfSelectWrite (.vf 63) 4095 18446744073709551616, .perfCounterWrite (.vf 64) 4095 18446744073709551615,
    .perfCounterWrite (.vf 63) 4096 18446744073709551615, .perfCounterWrite (.vf 63) 4095 18446744073709551616, .perfCounterWrap 4096,
    .bwWindowEnd 1024, .bwWindowKWrite (.vf 64) 1023 18446744073709551615, .bwWindowKWrite (.vf 63) 1024 18446744073709551615,
    .bwWindowKWrite (.vf 63) 1023 18446744073709551616, .qwmValueRead (.vf 64), .histSample 64,
    .histClear (.vf 64) 63 18446744073709551615, .histClear (.vf 63) 64 18446744073709551615,
    .histClear (.vf 63) 63 18446744073709551616, .sojClear (.vf 64) 1023 18446744073709551615,
    .sojClear (.vf 63) 1024 18446744073709551615, .sojClear (.vf 63) 1023 18446744073709551616,
    .ensEnableWrite (.vf 64) 18446744073709551615, .ensEnableWrite (.vf 63) 18446744073709551616, .mirrorSessionWrite (.vf 64) 15 [],
    .mirrorSessionWrite (.vf 63) 16 [], .causeEnableWrite (.vf 64) 16777215 18446744073709551615,
    .causeEnableWrite (.vf 63) 16777216 18446744073709551615, .causeEnableWrite (.vf 63) 16777215 18446744073709551616,
    .causeClear (.vf 64) 16777215 18446744073709551615, .causeClear (.vf 63) 16777216 18446744073709551615,
    .causeClear (.vf 63) 16777215 18446744073709551616, .evtStickyClear (.vf 64) 1023 18446744073709551615,
    .evtStickyClear (.vf 63) 1024 18446744073709551615, .evtStickyClear (.vf 63) 1023 18446744073709551616,
    .evtGroupStickyClear (.vf 64) 63 18446744073709551615, .evtGroupStickyClear (.vf 63) 64 18446744073709551615,
    .evtGroupStickyClear (.vf 63) 63 18446744073709551616, .evtMaskWrite (.vf 64) 1023 18446744073709551615,
    .evtMaskWrite (.vf 63) 1024 18446744073709551615, .evtMaskWrite (.vf 63) 1023 18446744073709551616,
    .evtGroupMaskWrite (.vf 64) 63 18446744073709551615, .evtGroupMaskWrite (.vf 63) 64 18446744073709551615,
    .evtGroupMaskWrite (.vf 63) 63 18446744073709551616, .evtRouteWrite (.vf 64) 1023 18446744073709551615,
    .evtRouteWrite (.vf 63) 1024 18446744073709551615, .evtRouteWrite (.vf 63) 1023 18446744073709551616,
    .evtTestRaise (.vf 64) 18446744073709551615, .evtTestRaise (.vf 63) 18446744073709551616, .evtFwQueueHighRead (.vf 64),
    .odAccessStatusRead 64 8, .odAccessStatusRead 63 9, .mbDoorbell (.vf 64) 18446744073709551615,
    .mbDoorbell (.vf 63) 18446744073709551616, .synsaRead (.channel 8)] : List Instr).all (fun i => !i.wf) = true := by decide +kernel

/-- Each has one operand out of its range. -/
theorem test_wf_refused_4 : ([
    .synsaWrite (.channel 8), .domainBegin (.channel 8), .domainSegment (.channel 8), .domainEnd (.channel 8), .jobStart (.channel 8),
    .jobStatus (.channel 8), .synsaEventSend 4294967296, .discoverProbe (.channel 8), .sessionOpen (.channel 8),
    .sessionClose (.channel 8), .announceReceive 8, .synsaRelay (.channel 8), .relayResponse 8, .sessionIdleTimeout 4294967296,
    .domainIdleTimeout 65536, .odSave (.start (.vf 0)) 16777215 2, .odSave (.start .pf) 16777216 2, .odSave (.start .pf) 16777215 3,
    .odSettingsErase (.start (.vf 0)), .countedWrite (.vf 64) 16777215 18446744073709551615,
    .countedWrite (.vf 63) 16777216 18446744073709551615, .countedWrite (.vf 63) 16777215 18446744073709551616,
    .countedWriteComplete 16777216, .synDeviceKeyWrite (.vf 64) [], .puntDoorbell 64 7 18446744073709551615,
    .puntDoorbell 63 8 18446744073709551615, .puntDoorbell 63 7 18446744073709551616, .injectDoorbell 64 7 18446744073709551615,
    .injectDoorbell 63 8 18446744073709551615, .injectDoorbell 63 7 18446744073709551616, .injectFetch 64 7 [], .injectFetch 63 8 [],
    .hostReadCompletion 768 true [], .ringInterrupt 64 true 7, .ringInterrupt 63 true 8,
    .ringConfigWrite (.vf 64) 16777215 18446744073709551615, .ringConfigWrite (.vf 63) 16777216 18446744073709551615,
    .ringConfigWrite (.vf 63) 16777215 18446744073709551616, .hostPuntBindWrite (.vf 64) 18446744073709551615,
    .hostPuntBindWrite (.vf 63) 18446744073709551616, .vfOdGrantWrite (.vf 64) 63 [], .vfOdGrantWrite (.vf 63) 0 [],
    .vfOdGrantWrite (.vf 63) 64 [], .vfFlr 0 true, .vfFlr 64 true, .vfReset 0 (.start .pf), .vfReset 64 (.start .pf),
    .vfReset 63 (.start (.vf 0)), .pcieLinkChange true 7 8, .pcieLinkChange true 6 9, .counterExport 64 0, .fwStagedWrite (.vf 64) [],
    .fwInstall (.start (.vf 0)) true, .recoverySeek 8 [], .relayPoll 8 3 [], .relayPoll 7 4 [],
    .fwRollbackFloorWrite (.vf 64) 18446744073709551615, .fwRollbackFloorWrite (.vf 63) 18446744073709551616,
    .fwRestart (.vf 64) 18446744073709551615, .fwRestart (.vf 63) 18446744073709551616] : List Instr).all (fun i => !i.wf) = true := by decide +kernel

/-- Each has one operand out of its range. -/
theorem test_wf_refused_5 : ([
    .powerOnReset true 4294967296, .pinReset 4294967296, .loaderSectorCheck true 65536 true, .avsEvaluate 2 true,
    .retentionEnter (.start (.vf 0)), .retentionExit (.start (.vf 0)), .datapathReset (.start (.vf 0)), .islandReset (.start (.vf 0)),
    .refclkLoss 14, .patrolScrubRead 12 255 1099511627775 3 true, .patrolScrubRead 11 256 1099511627775 3 true,
    .patrolScrubRead 11 255 1099511627776 3 true, .patrolScrubRead 11 255 1099511627775 4 true, .patrolScrubSweepStart 12,
    .patrolScrubBatch 256 [], .mgmtRamError 1099511627776 3, .mgmtRamError 1099511627775 4,
    .intInjectWrite (.vf 64) 18446744073709551615, .intInjectWrite (.vf 63) 18446744073709551616, .ppsInEdge 5,
    .gpioWrite (.vf 64) true 18446744073709551615, .gpioWrite (.vf 63) true 18446744073709551616, .ioI2cXfer 2 [], .ioMdioXfer 2 [],
    .jtagBypass 4294967296, .jtagIdcode 4294967296, .jtagSamplePreload 4294967296, .jtagTestExit 4294967296,
    .fabricLaneSignalChange 320 true, .prbsCheckerLock true 320, .prbsCheckerLock false 256, .flexeGroupFault 1024,
    .msixControlWrite 64 2 255 true, .msixControlWrite 63 3 255 true, .msixControlWrite 63 2 256 true, .vfEnableSet 64,
    .hostCompletionTimeout 768, .creditBusyHoldoffEnd 524288] : List Instr).all (fun i => !i.wf) = true := by decide +kernel


/-! ### The spec's worked examples, and the vectors of the standards it names -/

/-- "123456789". -/
def digits : List Byte := ascii "123456789"

/-- The check values that the CRC catalogues give. -/
theorem test_crcs : crc32 digits = 0xCBF43926 ∧ crc32c digits = 0xE3069283 ∧ crc16 digits = 0x29B1 ∧ crc8 digits = 0xF4 := by decide +kernel

/-- FIPS 180-4's example, RFC 4231's test case 1 and RFC 5869's. -/
theorem test_sha256 : beNat (sha256 (ascii "abc")) = 0xBA7816BF8F01CFEA414140DE5DAE2223B00361A396177A9CB410FF61F20015AD := by decide +kernel

theorem test_hmac256 : beNat (hmac256 (List.replicate 20 0x0B) (ascii "Hi There")) =
    0xB0344C61D8DB38535CA8AFCEAF0BF12B881DC200C9833DA726E9376C2E32CFF7 := by decide +kernel

theorem test_hkdf256 : beNat (hkdf256 (beBytes 13 0x000102030405060708090A0B0C) (List.replicate 22 0x0B)
    (beBytes 10 0xF0F1F2F3F4F5F6F7F8F9)) = 0x3CB25F25FAACD57A90434F64D0362F2A2D2D0A90CF1A5A4C5DB02D56ECC4C5BF := by decide +kernel

/-- The cut-through threshold of ch. 3's example. -/
theorem test_example_threshold : startThreshold 1522 10 400 = 1484 := by decide

/-- The IXP frame of ch. 4: one C-tag, IPv4, TCP to port 179. -/
def ixp : List Byte := List.replicate 12 2 ++ [0x81, 0, 0, 0x64, 8, 0, 0x45, 0, 0, 59, 0, 0, 0, 0, 64, 6] ++ beBytes 2 0xF6B9 ++
  [192, 0, 2, 1, 192, 0, 2, 2] ++ beBytes 2 50123 ++ beBytes 2 179 ++ List.replicate 8 0 ++ [0x50, 0x18] ++ List.replicate 25 0

theorem test_example_ixp : (let hv := (sieveOf up ixp).parse 0 0;
    ([hvValidLen, hvVlanCount, hvTagKinds, hvEthertype, hvL3Type, hvL3Off, hvL3Len, hvL3Proto, hvL4Type, hvL4Off, hvL4Src, hvL4Dst,
      hvTcpFlags, hvDepth, hvParseError] : List Fld).map (fget hv) =
      [0x4D, 1, 0xFC, 0x0800, 1, 0x12, 0x3B, 6, 2, 0x26, 0xC3CB, 0xB3, 0x18, 0, 0] ∧
    fget hv hvTagTci / 2 ^ 48 = 0x64 ∧ fget hv hvL3Dst % 2 ^ 32 = 0xC0000202) := by decide +kernel

/-- The window of the MPLS core packet of ch. 4. -/
def mplsCore : List Byte := List.replicate 12 2 ++ [0x88, 0x47] ++ beBytes 4 0x05DC1040 ++ beBytes 4 0x10140 ++
  [0x60, 0, 0, 0] ++ beBytes 2 1234 ++ [17, 64] ++ List.replicate 32 1 ++ beBytes 2 33000 ++ beBytes 2 53 ++ beBytes 2 1234 ++ List.replicate 64 0

theorem test_example_mpls : (let hv := (sieveOf up mplsCore).parse 0 0;
    ([hvValidLen, hvMplsCount, hvMplsTop, hvMplsSecond, hvMplsBottom, hvL3Type, hvL3Off, hvL3Len, hvL4Off, hvL4Src, hvL4Dst, hvParseError,
      hvInnerL3Type] : List Fld).map (fget hv) =
      [0x80, 2, 0x05DC1040, 0x10140, 0x10140, 2, 0x16, 0x04FA, 0x3E, 0x80E8, 0x35, 0, 0]) := by decide +kernel

/-- The window of the VXLAN frame of ch. 4. -/
def vxlanFrame : List Byte := List.replicate 12 2 ++ [0x86, 0xDD, 0x60, 0, 0, 0] ++ beBytes 2 1460 ++ [17, 64] ++ List.replicate 32 1 ++
  beBytes 2 9999 ++ beBytes 2 4789 ++ beBytes 2 1460 ++ [0, 0] ++ [8, 0, 0, 0] ++ beBytes 4 (5000 * 256) ++
  List.replicate 12 2 ++ [8, 0, 0x45, 0] ++ beBytes 2 1430 ++ [0, 0, 0, 0, 64, 6, 0, 0] ++ List.replicate 8 3 ++
  beBytes 2 7 ++ beBytes 2 8 ++ List.replicate 8 0 ++ [0x80, 0x10] ++ List.replicate 50 0

theorem test_example_vxlan : (let hv := (sieveOf (setReg up Reg.parserIpv4CsumCheck 0) vxlanFrame).parse 0 0;
    ([hvEthertype, hvL3Type, hvL3Off, hvL4Type, hvL4Off, hvL4Dst, hvTunnelType, hvTunOff, hvVni, hvInnerL2, hvInnerL2Off, hvInnerEthertype,
      hvInnerL3Type, hvInnerL3Off, hvInnerL4Type, hvInnerL4Off, hvDepth, hvDepthLayer, hvParseError] : List Fld).map (fget hv) =
      [0x86DD, 2, 0x0E, 1, 0x36, 0x12B5, 1, 0x3E, 5000, 1, 0x46, 0x0800, 1, 0x54, 2, 0x68, 1, 9, 0]) := by decide +kernel

/-- The meter of ch. 8: 10 Gb/s, 1,000 B of tokens, an update after 100 ns for 720 B. -/
theorem test_example_meter : (let m := withState (2 ^ 383 + 0x140000000 * 2 ^ 296 + 2000 * 2 ^ 232) (1000 * 2 ^ 32) 0 0;
    let r := refillMeter m 100; r.1 = 1125 * 2 ^ 32 ∧ (decideColour m 720 0 r.1 r.2).colour = 0 ∧
    (decideColour m 720 0 r.1 r.2).t1 = 405 * 2 ^ 32) := by decide +kernel

/-- The guarantee of ch. 9's example is refused, and fits once the shared size is lowered. -/
theorem test_example_guarantee : 256 + 352256 + 8192 = 360448 + 256 ∧ reg up (Reg.poolHeadroom 0) = 8192 ∧
    reg up (Reg.poolSharedSize 0) = 352256 ∧ poolSum up 0 = 360448 := by decide +kernel

/-- Ch. 11's shaper: period 8,192 ns, offset 2,944 ns, the next refill at 1,002,368 ns. -/
theorem test_example_shaper : refillPeriod 3 = some 8192 ∧ refillInstant { up with time := 1002368 } (nodeKey 3 70000) = true ∧
    refillInstant { up with time := 1002360 } (nodeKey 3 70000) = false := by decide +kernel

/-- Ch. 11's AQM profile at depth 1,200: p is 3,277. -/
theorem test_example_aqm : (let a := 400 * 2 ^ 96 + 2000 * 2 ^ 64 + 6000 * 2 ^ 32 + 6554 * 2 ^ 16 + 1; aqmDecide a 1200 1 3276 = .mark ∧
    aqmDecide a 1200 1 3277 = .pass ∧ aqmDecide a 1200 0 3276 = .drop ∧ aqmDecide a 2000 1 65535 = .mark ∧ aqmDecide a 2000 0 65535 = .drop ∧
    aqmDecide a 6000 1 0 = .drop) := by decide +kernel

/-- Ch. 12's parity. -/
theorem test_example_bip : bip8 [0x3A, 0xC5, 0x0F, 0x81, 0, 0] = 0x71 ∧ Nat.xor (bip8 [0x3A, 0xC5, 0x0B, 0x81, 0, 0]) 0x71 = 4 := by decide

/-- The scrambler's first bytes, as R292 gives them. -/
theorem test_scrambler : (scramble scramblerStart (List.replicate 6 0)).map (·.toNat) = [0x00, 0x00, 0x3E, 0x00, 0x0F, 0xFC] := by decide +kernel

/-- Two packets of L bytes leave VOQ 8 back to back. -/
def backToBack (a b : Nat) : State :=
  let p := fun (n : Nat) => ({ origin := .line 0, stage := .stored, data := List.replicate n 1, len := some n, ended := true, bad := some 0, refs := 1,
                               maxFrame := 1518 } : Pkt)
  { setPkt (setPkt fabric 0 (p a)) 1 (p b) with
    outs := [(0, outAt (refTo 0 0 1) (nodeKey 5 0) 8), (1, outAt (refTo 1 0 1) (nodeKey 5 0) 8)] }

theorem test_example_packing : (let s := backToBack 150 400; (cutNext s (fabxLine s 8)).map (fun c => [c.ty, c.segs, c.body.length]) = some [1, 0, 194]) ∧
    (let s := backToBack 100 400; (cutNext s (fabxLine s 8)).map (fun c => ([c.ty, c.segs, c.body.length, byteAt (c.body.drop 148) 0], c.open'))
      = some ([5, 1, 240, 0x40 + 88 / 4], some (1, 88))) := by decide +kernel

/-! ### The object dictionary -/

/-- Every row of the table is found by its own first and last entries. -/
theorem test_odTable : odRows.all (fun r => odFind (key r.idx r.sub) == some r &&
    odFind (key (r.idx + r.cnt - 1) (r.sub + r.subCnt - 1)) == some r) = true := by decide +kernel

/-- Every default lies in its entry's range. -/
theorem test_odDefaults : odRows.all (fun r => odDefault (key r.idx r.sub) == 0 || decide (odDefault (key r.idx r.sub) ≤ r.hi) || r.hi == 0) = true := by
  decide +kernel

theorem test_reset : State.reset.pending = [] ∧ reg State.reset Reg.pwrLastReset = 1 ∧ reg State.reset (Reg.pwrResetCount 1) = 1 ∧
    reg State.reset Reg.pwrStartupPhase = 0 ∧ OdTidy State.reset ∧ MemoriesTidy State.reset := by decide +kernel

/-- A command that no part's list names. -/
theorem test_partsKept : holds .timePllLock up (fun t => t.time = up.time ∧ t.lkp = up.lkp ∧ t.pwr = up.pwr) ∧
    isReset .timePllLock = false ∧ touchesLookups .timePllLock = false ∧ touchesAse .timePllLock = false ∧
    touchesClassification .timePllLock = false ∧ touchesClocks .timePllLock = false ∧ touchesLanes .timePllLock = false ∧
    touchesHost .timePllLock = false ∧ touchesFirmware .timePllLock = false ∧ touchesPower .timePllLock = false ∧
    touchesBoard .timePllLock = false := by decide +kernel

end Sys2Proof.Tests
end

section
/-! SUPPORT. An idle step (notes/assumptions/5): what a nanosecond of TIME leaves as it was, and the statement about it. -/

namespace Sys2Proof.Machine

/-- The time since reset, the queue, the packets, the packet memories, the queues of the T-die and the dictionary's engine are as they
were: what a nanosecond does beside moving the time leaves these alone. -/
structure StoresAlike (s t : State) : Prop where
  time : t.time = s.time
  pending : t.pending = s.pending
  mem : t.mem = s.mem
  pkts : t.pkts = s.pkts
  outs : t.outs = s.outs
  qm : t.qm = s.qm
  dict : t.dict = s.dict

theorem StoresAlike.refl (s : State) : StoresAlike s s := ⟨rfl, rfl, rfl, rfl, rfl, rfl, rfl⟩

theorem StoresAlike.trans {s t u : State} (h : StoresAlike s t) (g : StoresAlike t u) : StoresAlike s u :=
  ⟨g.time.trans h.time, g.pending.trans h.pending, g.mem.trans h.mem, g.pkts.trans h.pkts, g.outs.trans h.outs, g.qm.trans h.qm,
    g.dict.trans h.dict⟩

theorem storesAlike_of_noted {ks : List Nat} {s t : State} (h : Noted ks s t) : StoresAlike s t := by
  rw [h.1]
  exact ⟨rfl, rfl, rfl, rfl, rfl, rfl, rfl⟩

theorem storesAlike_foldl {α : Type} {f : State → α → State} (h : ∀ s x, StoresAlike s (f s x)) (l : List α) (s : State) :
    StoresAlike s (l.foldl f s) :=
  List.foldlRecOn l f (motive := StoresAlike s) (StoresAlike.refl s) fun t ht x _ => ht.trans (h t x)

/-- A value that takes effect in TIME marks bins and epochs (R28, R310, R361). -/
theorem timeStepped_storesAlike (s : State) (v : Nat) : StoresAlike s (timeStepped s v) := by
  unfold timeStepped
  constructor <;> rfl

/-- What waits to take effect in TIME. -/
theorem withTimeDue_storesAlike (s : State) (l : List (Nat × Nat)) : StoresAlike s { s with clk.timeDue := l } := by
  constructor <;> rfl

theorem timeArrivals_storesAlike (s : State) : StoresAlike s (timeArrivals s) := by
  unfold timeArrivals
  refine storesAlike_foldl (fun t d => ?_) _ s
  split
  · exact (withTimeDue_storesAlike t _).trans (timeStepped_storesAlike _ _)
  · exact .refl t

/-- The fall of PTP_1PPS_OUT puts out an emission (R522). -/
theorem ppsFalls_storesAlike (s : State) : StoresAlike s (ppsFalls s) := by
  unfold ppsFalls
  split
  · split
    · exact ⟨rfl, rfl, rfl, rfl, rfl, rfl, rfl⟩
    · exact .refl s
  · exact .refl s

/-- A throttled bank counts (R178). -/
theorem throttleTick_storesAlike (s : State) (k : Nat) : StoresAlike s (throttleTick s k) := by
  unfold throttleTick
  split
  · exact .refl s
  · exact storesAlike_of_noted (noted_count1 [Reg.aseThrottleNs k] s _ (.inl (by simp)))

/-- A nanosecond moves the time by one, and the stores not at all. -/
theorem tick_storesAlike (s : State) : StoresAlike { s with time := s.time + 1 } (tick s) := by
  simp only [tick]
  split
  · exact .refl _
  · exact (timeArrivals_storesAlike _).trans <| (ppsFalls_storesAlike _).trans <|
      (storesAlike_foldl throttleTick_storesAlike _ _).trans (storesAlike_of_noted (noted_perfEvent [] _ 0x70 0 0))

/-- With no command waiting a step is a nanosecond (notes/assumptions/5). -/
theorem step_idle {s : State} (h : s.pending = []) : step s = .next (tick s) := by simp [step, h]

end Sys2Proof.Machine

/-- Settles O2: the step is `tick`, whose parts all leave the stores alone. -/
theorem Sys2Proof.idleStepIsANanosecond : Obligations.IdleStepIsANanosecond := by
  intro s hp
  obtain ⟨htime, hpending, hmem, hpkts, houts, hqm, hdict⟩ := Sys2Proof.Machine.tick_storesAlike s
  exact ⟨_, Sys2Proof.Machine.step_idle hp, htime, hpending.trans hp, hmem, hpkts, houts, hqm, hdict⟩
end

section
/-! SUPPORT. Clock islands (ch. 2): what a crossing and a governor interval do to an island's record, and the statements of the chapter. -/

namespace Sys2Proof.Machine

/-! ### Islands and the entries beside them -/

/-- An island's record reads as what replaced it. -/
@[simp] theorem isl_setIsl_self (s : State) (n : Nat) (i : Isl) : isl (setIsl s n i) n = i := mget_mset_self _ _ _ _

/-- A change on the side leaves the clocks as they were. -/
theorem clk_of_noted {ks : List Nat} {s t : State} (h : Noted ks s t) : t.clk = s.clk := by rw [h.1]

/-- A change on the side leaves every island's record as it was. -/
theorem isl_of_noted {ks : List Nat} {s t : State} (h : Noted ks s t) (n : Nat) : isl t n = isl s n := by
  rw [isl, clk_of_noted h, isl]

/-- Of `s` and `t` only the clocks, the entries of `ks` and the side differ. -/
abbrev NotedClk (ks : List Nat) (s t : State) : Prop := Noted ks s { t with clk := s.clk }

/-- A change on the side is one whatever the clocks are. -/
theorem noted_withClk {ks : List Nat} {s t : State} (h : Noted ks s t) (c : ClkState) :
    Noted ks { s with clk := c } { t with clk := c } :=
  ⟨by rw [h.1], h.2.1, h.2.2⟩

/-- A change on the side leaves the clocks alone. -/
theorem notedClk_of_noted {ks : List Nat} {s t : State} (h : Noted ks s t) : NotedClk ks s t := noted_withClk h s.clk

theorem notedClk_trans {ks : List Nat} {s t u : State} (h : NotedClk ks s t) (g : NotedClk ks t u) : NotedClk ks s u :=
  h.trans (noted_withClk g s.clk)

theorem notedClk_setIsl (ks : List Nat) (s : State) (n : Nat) (i : Isl) : NotedClk ks s (setIsl s n i) := Noted.refl ks s

theorem mem_scalable_iff (n : Nat) : n ∈ scalable ↔ 32 ≤ n ∧ n < 64 ∨ 66 ≤ n ∧ n < 106 := by
  simp only [scalable, rangeFrom, List.mem_append, List.mem_map, List.mem_range]
  constructor
  · rintro (⟨a, ha, rfl⟩ | ⟨a, ha, rfl⟩) <;> omega
  · rintro (h | h)
    · exact .inl ⟨n - 32, by omega, by omega⟩
    · exact .inr ⟨n - 66, by omega, by omega⟩

/-- The entries of an island are none that events move on the side. -/
theorem side_island (idx n : Nat) (h : 0x1320 ≤ idx ∧ idx ≤ 0x1328) (hn : n < 121) : sideEntry (key idx n) = false := by
  have hlow : key idx n < 0x140000 := by simp only [key]; omega
  have hhigh : 0x131000 < key idx n := by simp only [key]; omega
  simp only [sideEntry, Bool.or_eq_false_iff, Bool.and_eq_false_iff, beq_eq_false_iff_ne, decide_eq_false_iff_not,
    Reg.obsCause, Reg.evtPulses, Reg.evtFwQueueHigh, Reg.evtFwQueueLost, Reg.ensRecordsDropped, Reg.ensPostcardsSuppressed]
  simp only [key] at *
  omega

theorem key_island (idx n : Nat) (h : n < 121) : keyIf (decide (n < 121)) (key idx n) = key idx n := by simp [keyIf, h]

theorem side_islandMode {n : Nat} (h : n < 121) : sideEntry (Reg.islandMode n) = false := by
  rw [Reg.islandMode, key_island _ n h]
  exact side_island _ n (by omega) h

theorem side_islandFloorStep {n : Nat} (h : n < 121) : sideEntry (Reg.islandFloorStep n) = false := by
  rw [Reg.islandFloorStep, key_island _ n h]
  exact side_island _ n (by omega) h

theorem side_islandWakeCount {n : Nat} (h : n < 121) : sideEntry (Reg.islandWakeCount n) = false := by
  rw [Reg.islandWakeCount, key_island _ n h]
  exact side_island _ n (by omega) h

theorem islandWakeCount_ne_clockFaultIsland {n : Nat} (h : n < 121) : Reg.islandWakeCount n ≠ Reg.clockFaultIsland := by
  rw [Reg.islandWakeCount, key_island _ n h]
  simp only [Reg.clockFaultIsland, key]
  omega

/-! ### Crossings (R31, R33, R51) -/

/-- The start of an island's clock writes that island's record, and counts on the side (R33). -/
theorem islStart_spec (ks : List Nat) (s : State) (n k : Nat) : NotedClk ks s (islStart s n k) ∧
    isl (islStart s n k) n = { isl s n with stopped := false, step := k, idle := 0 } := by
  have h := noted_perfHeld ks (setIsl s n { isl s n with stopped := false, step := k, idle := 0 }) 0x11 n (s.time - (isl s n).stoppedAt)
  exact ⟨notedClk_trans (notedClk_setIsl ks s n _) (notedClk_of_noted h), (isl_of_noted h n).trans (isl_setIsl_self _ _ _)⟩

/-- A crossing that finds the island running changes nothing (R33). -/
theorem islWake_running {s : State} {n : Nat} (h : (isl s n).stopped = false) : islWake s n = s := by simp [islWake, h]

/-- A crossing that finds the island stopped starts it at its floor and counts the wake (R33). -/
theorem islWake_stopped {s : State} {n : Nat} (h : (isl s n).stopped = true) :
    islWake s n = count1 (islStart s n (isl s n).floor) (Reg.islandWakeCount n) := by simp [islWake, h]

/-- What a crossing leaves of the island it enters: it runs, at its floor where it was stopped, and the wake is counted (R33). -/
theorem islWake_spec (s : State) (n : Nat) (hn : n < 121) : NotedClk [Reg.islandWakeCount n] s (islWake s n) ∧
    (isl (islWake s n) n).stopped = false ∧
    (isl (islWake s n) n).step = (if (isl s n).stopped then (isl s n).floor else (isl s n).step) ∧
    reg (islWake s n) (Reg.islandWakeCount n) = if (isl s n).stopped then (reg s (Reg.islandWakeCount n) + 1) % 2 ^ 64
      else reg s (Reg.islandWakeCount n) := by
  cases h : (isl s n).stopped with
  | false => simp [islWake_running h, h, Noted.refl]
  | true =>
    obtain ⟨hs, hi⟩ := islStart_spec [] s n (isl s n).floor
    have hc := noted_count1 [Reg.islandWakeCount n] (islStart s n (isl s n).floor) (Reg.islandWakeCount n) (.inl (by simp))
    have hr : reg (islStart s n (isl s n).floor) (Reg.islandWakeCount n) = reg s (Reg.islandWakeCount n) :=
      hs.2.2 _ (side_islandWakeCount hn) (by simp)
    rw [islWake_stopped h, isl_of_noted hc n, hi]
    exact ⟨notedClk_trans (Noted.side hs) (notedClk_of_noted hc), rfl, rfl, by simp [count1, countBy, hr]⟩

/-- What an entering item makes of a scalable island (R31, R33). -/
def crossed (s : State) (n occ : Nat) : State :=
  if 8 ≤ occ then setIsl (islWake s n) n { isl (islWake s n) n with step := 16 } else islWake s n

theorem crossed_spec (s : State) (n occ : Nat) (hn : n < 121) : NotedClk [Reg.islandWakeCount n] s (crossed s n occ) ∧
    (isl (crossed s n occ) n).stopped = false ∧
    (8 ≤ occ → (isl (crossed s n occ) n).step = 16) ∧
    (occ < 8 → (isl (crossed s n occ) n).step = if (isl s n).stopped then (isl s n).floor else (isl s n).step) ∧
    reg (crossed s n occ) (Reg.islandWakeCount n) = if (isl s n).stopped then (reg s (Reg.islandWakeCount n) + 1) % 2 ^ 64
      else reg s (Reg.islandWakeCount n) := by
  obtain ⟨hs, hrun, hstep, hcount⟩ := islWake_spec s n hn
  by_cases ho : 8 ≤ occ
  · have hlt : ¬ occ < 8 := by omega
    simp only [crossed, ho, hlt, if_true]
    exact ⟨notedClk_trans hs (notedClk_setIsl _ _ n _), by simpa using hrun, by simp, by simp, hcount⟩
  · simp only [crossed, ho, if_false]
    exact ⟨hs, hrun, by simp, fun _ => hstep, hcount⟩

/-- A late generator: the island's number is latched, and its source pulses (R51). -/
def lateLatched (s : State) (n : Nat) (late : Bool) : State := if late then pulse (setReg s Reg.clockFaultIsland n) 8 else s

theorem lateLatched_spec (s : State) (n : Nat) (late : Bool) : Noted [Reg.clockFaultIsland] s (lateLatched s n late) ∧
    (late = true → reg (lateLatched s n late) Reg.clockFaultIsland = n) := by
  cases late with
  | false => simp [lateLatched, Noted.refl]
  | true =>
    have hp := noted_pulse [] (setReg s Reg.clockFaultIsland n) 8
    have hl : reg (lateLatched s n true) Reg.clockFaultIsland = n :=
      (hp.2.2 _ (by decide) (by simp)).trans (reg_setReg_self _ _ _)
    exact ⟨(noted_setReg _ s _ n (.inl (by simp))).trans hp.side, fun _ => hl⟩

/-- What a crossing that can take place comes to. -/
theorem exec_crossing {s : State} {n occ : Nat} (late : Bool) (hn : n ≤ 119) (ho : occ ≤ 16) (hp : reg s Reg.pwrState ≠ 2)
    (hr : s.pwr.islReset ≠ some n) :
    Answers (.crossing n occ late) s (lateLatched (if n ∈ scalable then crossed s n occ else s) n late) := by
  simp [Answers, exec, execCrossing, hn, ho, hp, hr, lateLatched, crossed]

/-- A permitted write of `pin_all_scalable` stores the value for each scalable island (R50). -/
theorem exec_pinAllScalable {s : State} {c : Client} {v : Nat} (h : Permitted s c Reg.pinAllScalable v) :
    Does (.pinAllScalableWrite c v) s c (scalable.foldl (fun s n => setReg s (Reg.islandMode n) v) s) :=
  congrArg Host.Outcome.next (permitted_does h rfl)

/-- One value stored in several entries: the dictionary alone differs, every one of them reads it, and no other entry changes. -/
theorem foldl_setReg_spec (f : Nat → Nat) (v : Nat) : ∀ (l : List Nat) (s : State),
    l.foldl (fun s n => setReg s (f n) v) s = { s with od := (l.foldl (fun s n => setReg s (f n) v) s).od } ∧
    (∀ m ∈ l, reg (l.foldl (fun s n => setReg s (f n) v) s) (f m) = v) ∧
    OnlyEntries s (l.foldl (fun s n => setReg s (f n) v) s) (l.map f)
  | [], s => ⟨rfl, by simp, fun _ _ => rfl⟩
  | n :: r, s => by
    obtain ⟨hod, hv, ho⟩ := foldl_setReg_spec f v r (setReg s (f n) v)
    refine ⟨hod, fun m hm => ?_, fun k hk => ?_⟩
    · by_cases hr : f m ∈ r.map f
      · obtain ⟨a, ha, he⟩ := List.mem_map.1 hr
        exact he ▸ hv a ha
      · rcases List.mem_cons.1 hm with rfl | hm
        · exact (ho _ hr).trans (reg_setReg_self _ _ _)
        · exact absurd (List.mem_map_of_mem hm) hr
    · simp only [List.map_cons, List.mem_cons, not_or] at hk
      exact (ho k hk.2).trans (reg_setReg_ne s _ k v hk.1)

/-! ### The governor (R30, R31, R34) -/

/-- Whole cycles at a condition touch the side alone (R363). -/
theorem noted_perfCycles (ks : List Nat) (s : State) (code inst n : Nat) : Noted ks s (perfCycles s code inst n) :=
  noted_foldl ks _ (fun s _ => noted_ite _ (noted_perfAdd ks s _ _) (Noted.refl ks s)) _ s

/-- A step on its way to a target: up at once, down by one (R31). -/
def stepTowards (k target : Nat) : Nat := if k < target then target else if target < k then k - 1 else k

theorem stepTowards_bounds {k target : Nat} (hk : 4 ≤ k) (hk' : k ≤ 16) (ht : 4 ≤ target) (ht' : target ≤ 16) :
    4 ≤ stepTowards k target ∧ stepTowards k target ≤ 16 := by
  simp only [stepTowards]
  split
  · exact ⟨ht, ht'⟩
  · split <;> omega

theorem targetStep_bounds (k floor busy tot : Nat) (hf : 4 ≤ floor) :
    4 ≤ targetStep k floor busy tot ∧ targetStep k floor busy tot ≤ 16 := by
  simp only [targetStep]
  omega

/-- A clock that stops keeps its step. -/
theorem step_islStop (s : State) (n : Nat) : (isl (islStop s n) n).step = (isl s n).step := by
  simp only [islStop]
  split
  · rfl
  · simp

/-- The governor in proportional mode takes the step towards its target (R31). -/
theorem step_governed (s : State) (n busy tot : Nat) : (isl (governed s n busy tot) n).step =
    stepTowards (isl s n).step (targetStep (isl s n).step (isl s n).floor busy tot) := by
  unfold governed
  extract_lets i t k idle s'
  have hk : (isl s' n).step = k := by simp [s']
  by_cases hc : (flag s' (Reg.islandStopEnable n) && k == i.floor && decide (8 ≤ idle)) = true
  · rw [if_pos hc, step_islStop]
    exact hk
  · rw [if_neg hc]
    exact hk

/-- The record of an island as its governor finds it at an interval: the written mode and floor are in use (R50). -/
def governorFinds (s : State) (n ppm : Nat) : Isl :=
  { isl s n with pinned := flag s (Reg.islandMode n), floor := reg s (Reg.islandFloorStep n), ppm := ppm }

/-- What the governor does with the record it finds (R31, R34, R51). -/
def governorActs (s : State) (n busy tot : Nat) (i : Isl) : State :=
  let s := setIsl s n i
  if i.pinned then
    let s := if i.stopped then islStart s n 16 else s
    setIsl s n { isl s n with step := 16, idle := 0 }
  else if i.stopped then s
  else
    let s := if i.step < i.floor then setIsl (pulse s 9) n { i with step := i.floor } else s
    if tot = 0 then s else governed s n busy tot

/-- Events on the side change nothing of what the governor of a scalable island finds. -/
theorem governorFinds_of_noted {s t : State} (h : Noted [] s t) {n : Nat} (hn : n < 121) (ppm : Nat) :
    governorFinds t n ppm = governorFinds s n ppm := by
  have hm : reg t (Reg.islandMode n) = reg s (Reg.islandMode n) := h.2.2 _ (side_islandMode hn) (by simp)
  have hf : reg t (Reg.islandFloorStep n) = reg s (Reg.islandFloorStep n) := h.2.2 _ (side_islandFloorStep hn) (by simp)
  simp [governorFinds, flag, isl_of_noted h n, hm, hf]

/-- An interval counts its busy cycles, and then the governor acts on what it finds. -/
theorem governorInterval_eq (s : State) {n : Nat} (hn : n < 121) (busy tot : Nat) : governorInterval s n busy tot =
    governorActs (perfCycles s 0x10 n busy) n busy tot (governorFinds s n (if tot = 0 then 0 else 1000000 * busy / tot)) := by
  rw [← governorFinds_of_noted (noted_perfCycles [] s 0x10 n busy) hn]
  rfl

/-- A pinned island runs at step 16 after an interval (R34). -/
theorem governorActs_pinned (s : State) (n busy tot : Nat) {i : Isl} (h : i.pinned = true) :
    (isl (governorActs s n busy tot i) n).step = 16 ∧ (isl (governorActs s n busy tot i) n).stopped = false := by
  cases hs : i.stopped with
  | true => simp [governorActs, h, hs, (islStart_spec [] _ n 16).2]
  | false => simp [governorActs, h, hs]

/-- A stopped island that is not pinned keeps its step. -/
theorem governorActs_stopped (s : State) (n busy tot : Nat) {i : Isl} (h : i.pinned = false) (hs : i.stopped = true) :
    (isl (governorActs s n busy tot i) n).step = i.step := by
  simp [governorActs, h, hs]

/-- A running island that is not pinned takes the step towards its target, from its floor where it was below it (R31). -/
theorem governorActs_running (s : State) (n busy : Nat) {tot : Nat} {i : Isl} (ht : 0 < tot) (h : i.pinned = false)
    (hs : i.stopped = false) : (isl (governorActs s n busy tot i) n).step =
      stepTowards (max i.step i.floor) (targetStep (max i.step i.floor) i.floor busy tot) := by
  by_cases hf : i.step < i.floor
  · simp [governorActs, h, hs, hf, Nat.ne_of_gt ht, step_governed, Nat.max_eq_right (Nat.le_of_lt hf)]
  · simp [governorActs, h, hs, hf, Nat.ne_of_gt ht, step_governed, Nat.max_eq_left (Nat.le_of_not_lt hf)]

/-- What a governor interval that can take place comes to. -/
theorem exec_governorInterval {s : State} {n busy tot : Nat} (hn : n ∈ scalable) (hp : reg s Reg.pwrState = 0)
    (ht : timeNs s % 1000 = 0) (hb : busy ≤ tot) (hr : s.pwr.islReset ≠ some n) :
    Answers (.governorInterval n busy tot) s (governorInterval s n busy tot) := by
  simp [Answers, exec, execGovernorInterval, hn, hp, ht, hb, hr]

end Sys2Proof.Machine
end

section
/-! SUPPORT. The statements about the clock islands. -/

namespace Sys2Proof

open Machine

/-- Settles O4: the writes store by their rules, and a crossing is the wake, the half-full step and the latch one after the other. -/
theorem islandSettingsAndCrossings : Obligations.IslandSettingsAndCrossings := by
  refine ⟨fun s c n v => ⟨fun h => congrArg Host.Outcome.next (permitted_stores h),
    fun h => congrArg Host.Outcome.next (permitted_stores h),
    fun _ h => ⟨_, exec_pinAllScalable h, foldl_setReg_spec Reg.islandMode v scalable s⟩, rfl⟩,
    fun s n occ late _ hn ho hp hr => ⟨_, exec_crossing late hn ho hp hr, ?_⟩⟩
  have hn' : n < 121 := by omega
  by_cases hsc : n ∈ scalable
  · obtain ⟨hs, hrun, hfull, hstep, hcount⟩ := crossed_spec s n occ hn'
    obtain ⟨hl, hlatch⟩ := lateLatched_spec (crossed s n occ) n late
    simp only [hsc, if_true, true_implies, not_true, false_implies, true_and]
    rw [isl_of_noted hl n, hl.2.2 _ (side_islandWakeCount hn') (by simpa using islandWakeCount_ne_clockFaultIsland hn')]
    exact ⟨notedClk_trans (hs.mono (by simp)) (notedClk_of_noted (hl.mono (by simp))), ⟨hrun, hfull, hstep, hcount⟩, hlatch⟩
  · obtain ⟨hl, hlatch⟩ := lateLatched_spec s n late
    simp only [hsc, if_false, false_implies, not_false_eq_true, true_implies, true_and]
    exact ⟨notedClk_of_noted (hl.mono (by simp)), clk_of_noted hl, hlatch⟩

/-- Settles O5: the island is pinned, stopped, or takes one step towards its target. -/
theorem governorStepsTowardsTarget : Obligations.GovernorStepsTowardsTarget := by
  intro s n busy tot hn hp ht hb htot hr hf hf' hk hk'
  have hn' : n < 121 := by
    have := (mem_scalable_iff n).1 hn
    omega
  refine ⟨_, exec_governorInterval hn hp ht hb hr, ?_⟩
  rw [governorInterval_eq s hn']
  cases hm : flag s (Reg.islandMode n) with
  | true => simp [governorActs_pinned, governorFinds, hm]
  | false =>
    cases hs : (isl s n).stopped with
    | true => simp [governorActs_stopped, governorFinds, hm, hs, hk, hk']
    | false =>
      rw [governorActs_running _ n busy (i := governorFinds s n _) htot hm hs]
      have hmax : 4 ≤ max (isl s n).step (reg s (Reg.islandFloorStep n)) ∧ max (isl s n).step (reg s (Reg.islandFloorStep n)) ≤ 16 := by
        omega
      have htgt := targetStep_bounds (max (isl s n).step (reg s (Reg.islandFloorStep n))) _ busy tot hf
      obtain ⟨hlo, hhi⟩ := stepTowards_bounds hmax.1 hmax.2 htgt.1 htgt.2
      refine ⟨hlo, hhi, by simp, fun _ _ hfl => ?_⟩
      simp only [governorFinds, Nat.max_eq_left hfl]
      rfl

end Sys2Proof
end

section
/-! SUPPORT. The parts of the block whose changes are accounted for, and what reading a part of a composed state comes to: the frame
lemmas of the chapters below all state `part p (f s) = part p s`, under `p ≠ q` for the parts `q` that `f` may write. -/

namespace Sys2Proof.Machine

/-- The parts of the block whose changes are accounted for. -/
inductive Part where
  | time | timeOffset | lkp | ase | cls | clk | lanes | host | fw | pwr | io
deriving DecidableEq

/-- What a part holds. -/
abbrev Part.Held : Part → Type
  | .time => Nat
  | .timeOffset => Nat
  | .lkp => LkpState
  | .ase => AseState
  | .cls => ClsState
  | .clk => ClkState
  | .lanes => SMap Lane
  | .host => HostState
  | .fw => FwState
  | .pwr => PwrState
  | .io => IoState

/-- One of eleven values, by the part it stands for. -/
def Part.pick (time timeOffset : Nat) (lkp : LkpState) (ase : AseState) (cls : ClsState) (clk : ClkState) (lanes : SMap Lane)
    (host : HostState) (fw : FwState) (pwr : PwrState) (io : IoState) : (p : Part) → p.Held
  | .time => time
  | .timeOffset => timeOffset
  | .lkp => lkp
  | .ase => ase
  | .cls => cls
  | .clk => clk
  | .lanes => lanes
  | .host => host
  | .fw => fw
  | .pwr => pwr
  | .io => io

/-- A part of a state. -/
def part (p : Part) (s : State) : p.Held :=
  p.pick s.time s.timeOffset s.lkp s.ase s.cls s.clk s.lanes s.host s.fw s.pwr s.io

/-- The state a command leaves; a stop leaves the one before. -/
def after (s : State) : Host.Outcome State Fault Refusal → State
  | .next t => t
  | _ => s

variable {p : Part} {α β : Type}

/-! ### Reading a part of an updated state -/

@[simp] theorem part_mk (od blocks pending time timeOffset freeCtr sent evt led obs pkts nextPkt outs nextOut ports lanes lmacs mem qm pwr
    host fl ft hbm integ ase dict cls lkp mtr fw clk io) :
    part p (State.mk od blocks pending time timeOffset freeCtr sent evt led obs pkts nextPkt outs nextOut ports lanes lmacs mem qm pwr
      host fl ft hbm integ ase dict cls lkp mtr fw clk io) = p.pick time timeOffset lkp ase cls clk lanes host fw pwr io := (rfl)

@[simp] theorem pick_self (s : State) :
    p.pick s.time s.timeOffset s.lkp s.ase s.cls s.clk s.lanes s.host s.fw s.pwr s.io = part p s := (rfl)

section
variable (s : State)

@[simp] theorem pick_lkp (h : p ≠ .lkp) (x : LkpState) :
    p.pick s.time s.timeOffset x s.ase s.cls s.clk s.lanes s.host s.fw s.pwr s.io = part p s := by cases p <;> simp_all [Part.pick, part]
@[simp] theorem pick_ase (h : p ≠ .ase) (x : AseState) :
    p.pick s.time s.timeOffset s.lkp x s.cls s.clk s.lanes s.host s.fw s.pwr s.io = part p s := by cases p <;> simp_all [Part.pick, part]
@[simp] theorem pick_cls (h : p ≠ .cls) (x : ClsState) :
    p.pick s.time s.timeOffset s.lkp s.ase x s.clk s.lanes s.host s.fw s.pwr s.io = part p s := by cases p <;> simp_all [Part.pick, part]
@[simp] theorem pick_clk (h : p ≠ .clk) (x : ClkState) :
    p.pick s.time s.timeOffset s.lkp s.ase s.cls x s.lanes s.host s.fw s.pwr s.io = part p s := by cases p <;> simp_all [Part.pick, part]
@[simp] theorem pick_lanes (h : p ≠ .lanes) (x : SMap Lane) :
    p.pick s.time s.timeOffset s.lkp s.ase s.cls s.clk x s.host s.fw s.pwr s.io = part p s := by cases p <;> simp_all [Part.pick, part]
@[simp] theorem pick_host (h : p ≠ .host) (x : HostState) :
    p.pick s.time s.timeOffset s.lkp s.ase s.cls s.clk s.lanes x s.fw s.pwr s.io = part p s := by cases p <;> simp_all [Part.pick, part]
@[simp] theorem pick_fw (h : p ≠ .fw) (x : FwState) :
    p.pick s.time s.timeOffset s.lkp s.ase s.cls s.clk s.lanes s.host x s.pwr s.io = part p s := by cases p <;> simp_all [Part.pick, part]
@[simp] theorem pick_pwr (h : p ≠ .pwr) (x : PwrState) :
    p.pick s.time s.timeOffset s.lkp s.ase s.cls s.clk s.lanes s.host s.fw x s.io = part p s := by cases p <;> simp_all [Part.pick, part]
@[simp] theorem pick_io (h : p ≠ .io) (x : IoState) :
    p.pick s.time s.timeOffset s.lkp s.ase s.cls s.clk s.lanes s.host s.fw s.pwr x = part p s := by cases p <;> simp_all [Part.pick, part]

end

/-! ### Reading a part of a branch or a fold -/

@[simp] theorem part_ite (c : Prop) [Decidable c] (s t : State) : part p (if c then s else t) = if c then part p s else part p t :=
  apply_ite (part p) c s t

@[simp] theorem snd_ite (c : Prop) [Decidable c] (x y : α × β) : (if c then x else y).2 = if c then x.2 else y.2 :=
  apply_ite Prod.snd c x y

@[simp] theorem getD_done (s t : State) : (Applied.done t).getD s = t := (rfl)
@[simp] theorem getD_fail (s : State) (st : Status) : (Applied.fail st).getD s = s := (rfl)

@[simp] theorem getD_ite (c : Prop) [Decidable c] (a b : Applied) (s : State) :
    (if c then a else b).getD s = if c then a.getD s else b.getD s := apply_ite (Applied.getD · s) c a b

@[simp] theorem after_next (s t : State) : after s (.next t) = t := (rfl)

@[simp] theorem after_ite (c : Prop) [Decidable c] (s : State) (x y : Host.Outcome State Fault Refusal) :
    after s (if c then x else y) = if c then after s x else after s y := apply_ite (after s) c x y

@[simp] theorem part_foldl {f : State → α → State} (h : ∀ s x, part p (f s x) = part p s) (l : List α) (s : State) :
    part p (l.foldl f s) = part p s :=
  List.foldlRecOn l f (motive := fun t => part p t = part p s) rfl fun t ht x _ => (h t x).trans ht

@[simp] theorem part_foldl_snd {f : β × State → α → β × State} (h : ∀ r x, part p (f r x).2 = part p r.2) (l : List α) (r : β × State) :
    part p (l.foldl f r).2 = part p r.2 :=
  List.foldlRecOn l f (motive := fun t => part p t.2 = part p r.2) rfl fun t ht x _ => (h t x).trans ht

/-- A rule chosen by a condition, at a state. -/
theorem rule_ite (c : Prop) [Decidable c] (f g : State → Applied) (s : State) : (if c then f else g) s = if c then f s else g s :=
  apply_ite (· s) c f g

theorem some_of_ite {c : Prop} [Decidable c] {a b : Option α} {x : α} (h : (if c then a else b) = some x) : a = some x ∨ b = some x := by
  split at h
  · exact .inl h
  · exact .inr h

theorem some_of_orElse {a : Option α} {f : Unit → Option α} {x : α} (h : a.orElse f = some x) : a = some x ∨ f () = some x := by
  cases a with
  | none => exact .inr h
  | some y => exact .inl h

/-! ### The side -/

theorem part_of_noted {ks : List Nat} {s t : State} (h : Noted ks s t) : part p t = part p s := by
  rw [h.1, part_mk, pick_self]

end Sys2Proof.Machine
end

section
/-! SUPPORT. Frame lemmas: the parts that the operations every command shares leave alone. -/

namespace Sys2Proof.Machine

variable {π : Part} {α β : Type}

@[simp] theorem part_setReg (s : State) (k v : Nat) : part π (setReg s k v) = part π s := by simp [setReg]
@[simp] theorem part_setBlk (s : State) (k : Nat) (b : List Byte) : part π (setBlk s k b) = part π s := by simp [setBlk]
@[simp] theorem part_countBy (s : State) (w k n : Nat) : part π (countBy s w k n) = part π s := by simp [countBy]
@[simp] theorem part_count1 (s : State) (k : Nat) : part π (count1 s k) = part π s := by simp [count1]
@[simp] theorem part_count32 (s : State) (k : Nat) : part π (count32 s k) = part π s := by simp [count32]
@[simp] theorem part_countSat (s : State) (w k n : Nat) : part π (countSat s w k n) = part π s := by simp [countSat]
@[simp] theorem part_emit (s : State) (e : Emission) : part π (emit s e) = part π s := by simp [emit]
@[simp] theorem part_freeBits (s : State) (w : Nat) : part π (freeBits s w).2 = part π s := by simp [freeBits]

@[simp] theorem part_startupMark (hpwr : π ≠ .pwr) (s : State) (n : Nat) : part π (startupMark s n) = part π s := by
  simp [startupMark, hpwr]

@[simp] theorem part_setPort (s : State) (p : Nat) (x : Port) : part π (setPort s p x) = part π s := by simp [setPort]
@[simp] theorem part_setPkt (s : State) (i : Nat) (p : Pkt) : part π (setPkt s i p) = part π s := by simp [setPkt]
@[simp] theorem part_delPkt (s : State) (i : Nat) : part π (delPkt s i) = part π s := by simp [delPkt]
@[simp] theorem part_setMsix (s : State) (fn : Nat) (m : MsiX) : part π (setMsix s fn m) = part π s := by simp [setMsix]

@[simp] theorem part_sendMsix (s : State) (fn v : Nat) :
    part π (sendMsix s fn v) = part π s := part_of_noted (noted_sendMsix [] s fn v)

@[simp] theorem part_riseMessages (s0 s : State) (vs : List (Nat × Nat)) :
    part π (riseMessages s0 s vs) = part π s := part_of_noted (noted_riseMessages [] s0 s vs)

@[simp] theorem part_ensRecord (s : State) (tmpl : Nat) (body : List Byte) :
    part π (ensRecord s tmpl body) = part π s := part_of_noted (noted_ensRecord [] s tmpl body)

@[simp] theorem part_pulse (s : State) (src : Nat) :
    part π (pulse s src) = part π s := part_of_noted (noted_pulse [] s src)

@[simp] theorem part_pulseCause (s : State) (c : CauseReg) (b : Nat) :
    part π (pulseCause s c b) = part π s := part_of_noted (noted_pulseCause [] s c b)

@[simp] theorem part_raise (s : State) (c : CauseReg) (b : Nat) :
    part π (raise s c b) = part π s := part_of_noted (noted_raise [c.key] s c b (.inl (by simp)))

@[simp] theorem part_clearCause (s : State) (c : CauseReg) (v : Nat) : part π (clearCause s c v) = part π s := by simp [clearCause]

@[simp] theorem part_writeCauseEnable (s : State) (c : CauseReg) (v : Nat) : part π (writeCauseEnable s c v) = part π s := by
  simp [writeCauseEnable]

@[simp] theorem part_setFlips (s : State) (cls unit idx n : Nat) : part π (setFlips s cls unit idx n) = part π s := by simp [setFlips]

@[simp] theorem part_latchError (s : State) (cls kind unit idx : Nat) : part π (latchError s cls kind unit idx) = part π s := by
  simp [latchError]

@[simp] theorem part_wordCorrected (s : State) (cls unit idx : Nat) : part π (wordCorrected s cls unit idx) = part π s := by
  simp [wordCorrected]

@[simp] theorem part_wordLost (s : State) (cls unit idx : Nat) (poisoned : Bool) :
    part π (wordLost s cls unit idx poisoned) = part π s := by simp [wordLost]

@[simp] theorem part_checkWord (s : State) (cls unit idx : Nat) : part π (checkWord s cls unit idx).2 = part π s := by simp [checkWord]

@[simp] theorem part_checkWords (s : State) (cls : Nat) (l : List (Nat × Nat)) : part π (checkWords s cls l).2 = part π s := by
  simp [checkWords]

@[simp] theorem part_injectFired (s : State) : part π (injectFired s) = part π s := by simp [injectFired]
@[simp] theorem part_residueMismatch (s : State) : part π (residueMismatch s) = part π s := by simp [residueMismatch]

@[simp] theorem part_wordsWritten (s : State) (cls unit : Nat) (idxs : List Nat) :
    part π (wordsWritten s cls unit idxs) = part π s := by
  simp only [wordsWritten]
  split <;> simp

@[simp] theorem part_perfAdd (s : State) (n amount : Nat) :
    part π (perfAdd s n amount) = part π s := part_of_noted (noted_perfAdd [] s n amount)

@[simp] theorem part_perfEvent (s : State) (code inst bytes : Nat) :
    part π (perfEvent s code inst bytes) = part π s := part_of_noted (noted_perfEvent [] s code inst bytes)

@[simp] theorem part_perfHeld (s : State) (code inst ns : Nat) :
    part π (perfHeld s code inst ns) = part π s := part_of_noted (noted_perfHeld [] s code inst ns)

@[simp] theorem part_postcard (s : State) (reason : Nat) (c : Card) :
    part π (postcard s reason c) = part π s := part_of_noted (noted_postcard [] s reason c)

@[simp] theorem part_discard (s : State) (reason : Nat) (at? : Option Nat) (c : Card) :
    part π (discard s reason at? c) = part π s := by
  simp only [discard]
  repeat' split
  all_goals simp

end Sys2Proof.Machine
end

section
/-! SUPPORT. Frame lemmas: the parts that the checks and notes of an access to the dictionary (ch. 16) leave alone. -/

namespace Sys2Proof.Machine

variable {π : Part} {α β : Type}

@[simp] theorem part_noteFailure (s : State) (c : Client) (k : Nat) (st : Status) :
    part π (noteFailure s c k st) = part π s := by
  simp only [noteFailure]
  split <;> simp

@[simp] theorem part_conclude (s : State) (c : Client) (k : Nat) (a : Applied) :
    part π (conclude s c k a) = part π (a.getD s) := by
  cases a <;> simp [conclude]

@[simp] theorem part_checkedWrite (s : State) (c : Client) (k v : Nat) (rule : State → Applied)
    (h : part π ((rule s).getD s) = part π s) :
    part π ((checkedWrite s c k v rule).getD s) = part π s := by
  simp only [checkedWrite]
  split
  · rfl
  · simp [h]

@[simp] theorem part_writeRow (s : State) (c : Client) (k v : Nat) (rule : State → Applied) (h : part π ((rule s).getD s) = part π s) :
    part π (writeRow s c k v rule) = part π s := by simp [writeRow, h]

@[simp] theorem part_domainRead (s : State) (c : Client) (k : Nat) (b : List Byte) (after : State → State)
    (h : part π (after s) = part π s) :
    part π (domainRead s c k b after) = part π s := by
  simp only [domainRead]
  split <;> simp [h]

@[simp] theorem part_commitRow (s : State) (c : Client) (k : Nat) (rule : State → Applied) (h : part π ((rule s).getD s) = part π s) :
    part π (commitRow s c k rule) = part π s := by
  simp only [commitRow]
  split <;> simp [h]

@[simp] theorem part_readRow (s : State) (c : Client) (k v : Nat) (after : State → State) (h : part π (after s) = part π s) :
    part π (readRow s c k v after) = part π s := by
  simp only [readRow]
  split <;> simp [h]

@[simp] theorem part_storeRule (k v : Nat) (s : State) : part π ((storeRule k v s).getD s) = part π s := by simp [storeRule]

@[simp] theorem part_bind {a : Applied} {f : State → Applied} {s : State} (ha : part π (a.getD s) = part π s)
    (hf : ∀ t, part π ((f t).getD t) = part π t) : part π ((a.bind f).getD s) = part π s := by
  cases a with
  | fail st => rfl
  | done t =>
    have ht := hf t
    simp only [Applied.bind, getD_done] at ha ⊢
    cases hu : f t with
    | fail st => rfl
    | done u =>
      simp only [hu, getD_done] at ht ⊢
      exact ht.trans ha

@[simp] theorem part_setJob (s : State) (k : Nat) (j : Job) : part π (setJob s k j) = part π s := by simp [setJob]
@[simp] theorem part_jobBegin (s : State) (k : Nat) : part π (jobBegin s k) = part π s := by simp [jobBegin]
@[simp] theorem part_jobEnd (s : State) (k result : Nat) : part π (jobEnd s k result) = part π s := by simp [jobEnd]
@[simp] theorem part_jobCancelled (s : State) (k result : Nat) : part π (jobCancelled s k result) = part π s := by simp [jobCancelled]
@[simp] theorem part_jobProgress (s : State) (k n : Nat) : part π (jobProgress s k n) = part π s := by simp [jobProgress]
@[simp] theorem part_jobPhase (s : State) (k n : Nat) : part π (jobPhase s k n) = part π s := by simp [jobPhase]

@[simp] theorem part_jobStart (s : State) (c : Client) (k : Nat) (rule : State → Applied) (h : part π ((rule s).getD s) = part π s) :
    part π ((jobStart s c k rule).getD s) = part π s := by
  simp only [jobStart]
  split
  · rfl
  · simp [h]

@[simp] theorem part_jobStartWith (s : State) (c : Client) (k : Nat) (rule : State → Applied) (h : part π ((rule s).getD s) = part π s) :
    part π ((jobStartWith s c k rule).getD s) = part π s := by simp [jobStartWith, h]

@[simp] theorem part_concludeJob (s : State) (c : Client) (k : Nat) (a : Applied) :
    part π (concludeJob s c k a) = part π (a.getD s) := by
  cases a <;> simp [concludeJob]

end Sys2Proof.Machine
end

section
/-! SUPPORT. Frame lemmas: the parts that loads and the jobs that apply them (R153, R154) leave alone. -/

namespace Sys2Proof.Machine

variable {π : Part} {α β : Type}

@[simp] theorem part_commitLoad (j : LoadJob) (b : List Byte) (s : State) : part π ((commitLoad j b s).getD s) = part π s := by
  simp [commitLoad]

@[simp] theorem part_startLoadJob (j : LoadJob) (s : State) : part π ((startLoadJob j s).getD s) = part π s := by simp [startLoadJob]

@[simp] theorem part_endLoadJob (s : State) (j : LoadJob) (cancelled : Bool) : part π (endLoadJob s j cancelled) = part π s := by
  simp [endLoadJob]

@[simp] theorem part_recordDone (s : State) (j : LoadJob) (code : Nat) : part π (recordDone s j code) = part π s := by simp [recordDone]

@[simp] theorem part_takeRecord (s : State) (j : LoadJob) (apply : State → List Byte → Nat × State)
    (h : ∀ s r, part π (apply s r).2 = part π s) :
    part π (takeRecord s j apply) = part π s := by
  simp only [takeRecord]
  split <;> simp [h]

@[simp] theorem part_takeOp (s : State) (j : LoadJob) (ops : List Nat) (apply : State → List Byte → Nat × State)
    (h : ∀ s r, part π (apply s r).2 = part π s) :
    part π (takeOp s j ops apply) = part π s := by
  simp only [takeOp]
  split <;> simp [h]

@[simp] theorem part_endIfReady (s : State) (j : LoadJob) (cancelled : Bool) : part π (endIfReady s j cancelled) = part π s := by
  simp [endIfReady]

@[simp] theorem part_loadJobTurn (s : State) (j : LoadJob) (op : JobOp) (apply : State → List Byte → Nat × State)
    (h : ∀ s r, part π (apply s r).2 = part π s) :
    part π (loadJobTurn s j op apply) = part π s := by
  simp only [loadJobTurn]
  split
  · simp
  · repeat' split
    all_goals simp [h]

end Sys2Proof.Machine
end

section
/-! SUPPORT. Frame lemmas: the parts that the functions of the lookup tables (ch. 6) leave alone. -/

namespace Sys2Proof.Machine

variable {π : Part} {α β : Type}

@[simp] theorem part_lkpWritten (s : State) (stripe t i : Nat) : part π (lkpWritten s stripe t i) = part π s := by simp [lkpWritten]
@[simp] theorem part_lkpRead (s : State) (stripe t i : Nat) : part π (lkpRead s stripe t i).2 = part π s := by simp [lkpRead]
@[simp] theorem part_unitsHigh (s0 s : State) (stripe : Nat) : part π (unitsHigh s0 s stripe) = part π s := by simp [unitsHigh]

@[simp] theorem part_setRebuilds (hlkp : π ≠ .lkp) (s : State) (stripe : Nat) (l : List Rebuild) :
    part π (setRebuilds s stripe l) = part π s := by simp [setRebuilds, hlkp]

@[simp] theorem part_changeCopy (hlkp : π ≠ .lkp) (s : State) (stripe rk : Nat) (v : Option Route) :
    part π (changeCopy s stripe rk v) = part π s := by simp [changeCopy, hlkp]

@[simp] theorem part_execLpmSubtreeSwitch (hlkp : π ≠ .lkp) (stripe : Nat) (s : State) :
    part π (after s (execLpmSubtreeSwitch stripe s)) = part π s := by
  simp only [execLpmSubtreeSwitch]
  repeat' split
  all_goals simp [hlkp]

@[simp] theorem part_execLpmSubtreeFree (hlkp : π ≠ .lkp) (stripe : Nat) (s : State) :
    part π (after s (execLpmSubtreeFree stripe s)) = part π s := by
  simp only [execLpmSubtreeFree]
  repeat' split
  all_goals simp [hlkp]

@[simp] theorem part_emPut (hlkp : π ≠ .lkp) (s : State) (stripe b x : Nat) (e : EmEntry) : part π (emPut s stripe b x e) = part π s := by
  simp [emPut, hlkp]

@[simp] theorem part_exactAdd (hlkp : π ≠ .lkp) (s : State) (ty key res : Nat) :
    part π (exactAdd s ty key res).2 = part π s := by
  simp only [exactAdd]
  repeat' split
  all_goals simp [hlkp]

@[simp] theorem part_compatFind (s : State) (tmpl key : Nat) :
    part π (compatFind s tmpl key).2 = part π s := by
  rw [compatFind]
  split <;> simp

@[simp] theorem part_readAdj (s : State) (i : Nat) : part π (readAdj s i).s = part π s := by
  simp [readAdj]

@[simp] theorem part_resolveNh (s : State) (n hash : Nat) : part π (resolveNh s n hash).s = part π s := by
  simp only [resolveNh]
  repeat' split
  all_goals simp

@[simp] theorem part_slotHit (s : State) (nh : Option Nat) (hash : Nat) (acts : List Nat) :
    part π (slotHit s nh hash acts).2 = part π s := by
  cases nh with
  | none => rfl
  | some n => simp [slotHit]

@[simp] theorem part_servedBy (s : State) (stripe : Nat) : part π (servedBy s stripe) = part π s := by simp [servedBy]
@[simp] theorem part_nullLookup (s : State) (pipe : Nat) : part π (nullLookup s pipe) = part π s := by simp [nullLookup]

@[simp] theorem part_lookupLpm (s : State) (fam vrf addr hash : Nat) :
    part π (lookupLpm s fam vrf addr hash).2 = part π s := by
  rw [lookupLpm]
  split <;> simp

@[simp] theorem part_lookupExact (s : State) (ty key hash : Nat) :
    part π (lookupExact s ty key hash).2 = part π s := by
  simp only [lookupExact]
  repeat' split
  all_goals simp

@[simp] theorem part_lookupAdj (s : State) (pipe n hash : Nat) : part π (lookupAdj s pipe n hash).2 = part π s := by simp [lookupAdj]

@[simp] theorem part_lookupCompat (s : State) (tmpl key hash : Nat) :
    part π (lookupCompat s tmpl key hash).2 = part π s := by
  rw [lookupCompat]
  split <;> simp

@[simp] theorem part_applyRoute (hlkp : π ≠ .lkp) (s : State) (r : List Byte) : part π (applyRoute s r).2 = part π s := by
  simp [applyRoute, hlkp]

@[simp] theorem part_applyExact (hlkp : π ≠ .lkp) (s : State) (r : List Byte) :
    part π (applyExact s r).2 = part π s := by
  simp only [applyExact]
  repeat' split
  all_goals simp [hlkp]

@[simp] theorem part_applyAdj (hlkp : π ≠ .lkp) (s : State) (r : List Byte) : part π (applyAdj s r).2 = part π s := by
  simp [applyAdj, hlkp]

@[simp] theorem part_applyGroup (hlkp : π ≠ .lkp) (s : State) (r : List Byte) : part π (applyGroup s r).2 = part π s := by
  simp [applyGroup, hlkp]

@[simp] theorem part_applyMembers (hlkp : π ≠ .lkp) (s : State) (r : List Byte) : part π (applyMembers s r).2 = part π s := by
  simp [applyMembers, hlkp]

@[simp] theorem part_applyProfile (hlkp : π ≠ .lkp) (s : State) (r : List Byte) : part π (applyProfile s r).2 = part π s := by
  simp [applyProfile, hlkp]

@[simp] theorem part_applyCompat (hlkp : π ≠ .lkp) (s : State) (r : List Byte) : part π (applyCompat s r).2 = part π s := by
  simp [applyCompat, hlkp]

@[simp] theorem part_applyLkp (hlkp : π ≠ .lkp) (s : State) (r : List Byte) :
    part π (applyLkp s r).2 = part π s := by
  rw [applyLkp]
  split <;> simp [hlkp]

@[simp] theorem part_lkpTake (hlkp : π ≠ .lkp) (s : State) :
    part π (lkpTake s) = part π s := by
  simp only [lkpTake]
  repeat' split
  all_goals simp [hlkp]

@[simp] theorem part_lkpTakeOp (hlkp : π ≠ .lkp) (s : State) (op : Nat) : part π (lkpTakeOp s op) = part π s := by simp [lkpTakeOp, hlkp]

@[simp] theorem part_execLkpLoadWrite (client : Client) (records : List Byte) (s : State) :
    part π (after s (execLkpLoadWrite client records s)) = part π s := by simp [execLkpLoadWrite]

@[simp] theorem part_startLkpApply (s : State) : part π ((startLkpApply s).getD s) = part π s := by simp [startLkpApply]

@[simp] theorem part_execLkpApply (hlkp : π ≠ .lkp) (turn : JobOp) (s : State) :
    part π (after s (execLkpApply turn s)) = part π s := by
  simp only [execLkpApply]
  repeat' split
  all_goals simp [hlkp]

@[simp] theorem part_execRouteAdd (hlkp : π ≠ .lkp) (s : State) : part π (after s (execRouteAdd s)) = part π s := by
  simp [execRouteAdd, hlkp]

@[simp] theorem part_execRouteDelete (hlkp : π ≠ .lkp) (s : State) : part π (after s (execRouteDelete s)) = part π s := by
  simp [execRouteDelete, hlkp]

@[simp] theorem part_execRouteReplace (hlkp : π ≠ .lkp) (s : State) : part π (after s (execRouteReplace s)) = part π s := by
  simp [execRouteReplace, hlkp]

@[simp] theorem part_execExactAdd (hlkp : π ≠ .lkp) (s : State) : part π (after s (execExactAdd s)) = part π s := by
  simp [execExactAdd, hlkp]

@[simp] theorem part_execExactDelete (hlkp : π ≠ .lkp) (s : State) : part π (after s (execExactDelete s)) = part π s := by
  simp [execExactDelete, hlkp]

@[simp] theorem part_execExactReplace (hlkp : π ≠ .lkp) (s : State) : part π (after s (execExactReplace s)) = part π s := by
  simp [execExactReplace, hlkp]

@[simp] theorem part_execAdjacencyWrite (hlkp : π ≠ .lkp) (s : State) : part π (after s (execAdjacencyWrite s)) = part π s := by
  simp [execAdjacencyWrite, hlkp]

@[simp] theorem part_execGroupWrite (hlkp : π ≠ .lkp) (s : State) : part π (after s (execGroupWrite s)) = part π s := by
  simp [execGroupWrite, hlkp]

@[simp] theorem part_execMemberWrite (hlkp : π ≠ .lkp) (s : State) : part π (after s (execMemberWrite s)) = part π s := by
  simp [execMemberWrite, hlkp]

@[simp] theorem part_execActionProfileWrite (hlkp : π ≠ .lkp) (s : State) : part π (after s (execActionProfileWrite s)) = part π s := by
  simp [execActionProfileWrite, hlkp]

@[simp] theorem part_execCompatibilitySlotWrite (hlkp : π ≠ .lkp) (s : State) :
    part π (after s (execCompatibilitySlotWrite s)) = part π s := by simp [execCompatibilitySlotWrite, hlkp]

@[simp] theorem part_execLkpApplyEnd (s : State) : part π (after s (execLkpApplyEnd s)) = part π s := by simp [execLkpApplyEnd]

@[simp] theorem part_startPivotMove (hlkp : π ≠ .lkp) (s : State) : part π ((startPivotMove s).getD s) = part π s := by
  simp [startPivotMove, hlkp]

@[simp] theorem part_pivotEnd (hlkp : π ≠ .lkp) (s : State) (result : Nat) : part π (pivotEnd s result) = part π s := by
  simp [pivotEnd, hlkp]

@[simp] theorem part_pivotStep (hlkp : π ≠ .lkp) (s : State) : part π (pivotStep s) = part π s := by simp -proj [pivotStep, hlkp]

@[simp] theorem part_execLkpPivotMove (hlkp : π ≠ .lkp) (turn : JobOp) (s : State) :
    part π (after s (execLkpPivotMove turn s)) = part π s := by
  simp only [execLkpPivotMove]
  split <;> simp [hlkp]

@[simp] theorem part_execPivotOldCopiesRemove (hlkp : π ≠ .lkp) (s : State) :
    part π (after s (execPivotOldCopiesRemove s)) = part π s := by
  rw [execPivotOldCopiesRemove]
  split <;> simp [hlkp]

@[simp] theorem part_execLkpDumpRead (client : Client) (s : State) : part π (after s (execLkpDumpRead client s)) = part π s := by
  simp [execLkpDumpRead]

@[simp] theorem part_lkpWrite (k v : Nat) (s : State) : part π ((lkpWrite k v s).getD s) = part π s := by simp [lkpWrite]

@[simp] theorem part_lkpCommit (k : Nat) (b : List Byte) (s : State) :
    part π ((lkpCommit k b s).getD s) = part π s := by
  rw [lkpCommit]
  split <;> simp

@[simp] theorem part_lkpStart (hlkp : π ≠ .lkp) (k : Nat) (s : State) :
    part π ((lkpStart k s).getD s) = part π s := by
  rw [lkpStart]
  split <;> simp [hlkp]

end Sys2Proof.Machine
end

section
/-! SUPPORT. Frame lemmas: the parts that the functions of the associative search engine (ch. 7) leave alone. -/

namespace Sys2Proof.Machine

variable {π : Part} {α β : Type}

@[simp] theorem part_setBank (hase : π ≠ .ase) (s : State) (k : Nat) (b : AseBank) : part π (setBank s k b) = part π s := by
  simp [setBank, hase]

@[simp] theorem part_aseSearch (s : State) (k r key e : Nat) :
    part π (aseSearch s k r key e).2 = part π s := by
  simp only [aseSearch]
  repeat' split
  all_goals simp

@[simp] theorem part_writeRows (hase : π ≠ .ase) (s : State) (k row : Nat) (l : List (Nat × Nat)) :
    part π (writeRows s k row l) = part π s := by
  induction l generalizing s row with
  | nil => rfl
  | cons x r ih => simp [writeRows, ih, hase]

@[simp] theorem part_settleGrowth (hase : π ≠ .ase) (s : State) (k : Nat) :
    part π (settleGrowth s k) = part π s := by
  rw [settleGrowth]
  split <;> simp [hase]

@[simp] theorem part_aseEnd (hase : π ≠ .ase) (s : State) (cancelled : Bool) : part π (aseEnd s cancelled) = part π s := by
  simp [aseEnd, hase]

@[simp] theorem part_aseRecordDone (hase : π ≠ .ase) (s : State) (code : Nat) : part π (aseRecordDone s code) = part π s := by
  simp [aseRecordDone, hase]

@[simp] theorem part_recordVisible (hase : π ≠ .ase) (s : State) : part π (recordVisible s) = part π s := by simp [recordVisible, hase]

@[simp] theorem part_execAseCopyStep (hase : π ≠ .ase) (bank : Nat) (s : State) :
    part π (after s (execAseCopyStep bank s)) = part π s := by
  rw [execAseCopyStep]
  split <;> simp [hase]

@[simp] theorem part_execAseWriteStep (hase : π ≠ .ase) (bank : Nat) (s : State) :
    part π (after s (execAseWriteStep bank s)) = part π s := by
  rw [execAseWriteStep]
  split <;> simp [hase]

@[simp] theorem part_aseEffect (hase : π ≠ .ase) (s : State) (k : Nat) (r : List Byte) :
    part π (aseEffect s k r) = part π s := by
  simp only [aseEffect]
  repeat' split
  all_goals simp [hase]

@[simp] theorem part_aseTake (hase : π ≠ .ase) (s : State) :
    part π (aseTake s) = part π s := by
  simp only [aseTake]
  repeat' split
  all_goals simp [hase]

@[simp] theorem part_aseTakeOp (hase : π ≠ .ase) (s : State) (op : Nat) : part π (aseTakeOp s op) = part π s := by simp [aseTakeOp, hase]

@[simp] theorem part_execAseLoadWrite (client : Client) (records : List Byte) (s : State) :
    part π (after s (execAseLoadWrite client records s)) = part π s := by simp [execAseLoadWrite]

@[simp] theorem part_startAseApply (hase : π ≠ .ase) (s : State) : part π ((startAseApply s).getD s) = part π s := by
  simp [startAseApply, hase]

@[simp] theorem part_execAseApply (hase : π ≠ .ase) (turn : JobOp) (s : State) :
    part π (after s (execAseApply turn s)) = part π s := by
  simp only [execAseApply]
  repeat' split
  all_goals simp [hase]

@[simp] theorem part_execAseInsert (hase : π ≠ .ase) (s : State) : part π (after s (execAseInsert s)) = part π s := by
  simp [execAseInsert, hase]

@[simp] theorem part_execAseDelete (hase : π ≠ .ase) (s : State) : part π (after s (execAseDelete s)) = part π s := by
  simp [execAseDelete, hase]

@[simp] theorem part_execAseReplace (hase : π ≠ .ase) (s : State) : part π (after s (execAseReplace s)) = part π s := by
  simp [execAseReplace, hase]

@[simp] theorem part_execAseMembership (hase : π ≠ .ase) (s : State) : part π (after s (execAseMembership s)) = part π s := by
  simp [execAseMembership, hase]

@[simp] theorem part_execAseRegionCreate (hase : π ≠ .ase) (s : State) : part π (after s (execAseRegionCreate s)) = part π s := by
  simp [execAseRegionCreate, hase]

@[simp] theorem part_execAseRegionDelete (hase : π ≠ .ase) (s : State) : part π (after s (execAseRegionDelete s)) = part π s := by
  simp [execAseRegionDelete, hase]

@[simp] theorem part_execAseActionProfileWrite (hase : π ≠ .ase) (s : State) :
    part π (after s (execAseActionProfileWrite s)) = part π s := by simp [execAseActionProfileWrite, hase]

@[simp] theorem part_execAseSweepStart (hase : π ≠ .ase) (bank : Nat) (s : State) :
    part π (after s (execAseSweepStart bank s)) = part π s := by
  simp only [execAseSweepStart]
  repeat' split
  all_goals simp [hase]

@[simp] theorem part_scrubWord (s : State) (cls unit idx : Nat) : part π (scrubWord s cls unit idx).2 = part π s := by simp [scrubWord]

@[simp] theorem part_aseScrubNext (hase : π ≠ .ase) (s : State) (k row : Nat) : part π (aseScrubNext s k row) = part π s := by
  simp [aseScrubNext, hase]

@[simp] theorem part_execAseScrubRead (hase : π ≠ .ase) (bank : Nat) (found : Option Nat) (s : State) :
    part π (after s (execAseScrubRead bank found s)) = part π s := by
  rw [execAseScrubRead]
  split <;> simp [hase]

@[simp] theorem part_execAseTempRead (bank reading : Nat) (s : State) : part π (after s (execAseTempRead bank reading s)) = part π s := by
  simp [execAseTempRead]

@[simp] theorem part_execAseUpdateBudgetWrite (client : Client) (value : Nat) (s : State) :
    part π (after s (execAseUpdateBudgetWrite client value s)) = part π s := by simp [execAseUpdateBudgetWrite]

@[simp] theorem part_execAseScrubBudgetWrite (client : Client) (value : Nat) (s : State) :
    part π (after s (execAseScrubBudgetWrite client value s)) = part π s := by simp [execAseScrubBudgetWrite]

@[simp] theorem part_execAseDumpRead (client : Client) (s : State) : part π (after s (execAseDumpRead client s)) = part π s := by
  simp [execAseDumpRead]

@[simp] theorem part_aseCommit (k : Nat) (b : List Byte) (s : State) :
    part π ((aseCommit k b s).getD s) = part π s := by
  rw [aseCommit]
  split <;> simp

end Sys2Proof.Machine
end

section
/-! SUPPORT. Frame lemmas: the parts that the functions of packet memory and its pools (ch. 9) leave alone. -/

namespace Sys2Proof.Machine

variable {π : Part} {α β : Type}

@[simp] theorem part_setUsed (s : State) (m u v : Nat) : part π (setUsed s m u v) = part π s := by simp [setUsed]
@[simp] theorem part_setQuar (s : State) (m u : Nat) : part π (setQuar s m u) = part π s := by simp [setQuar]
@[simp] theorem part_poolLowCheck (s : State) (n : Nat) : part π (poolLowCheck s n) = part π s := by simp [poolLowCheck]
@[simp] theorem part_afterAlloc (s : State) (n : Nat) : part π (afterAlloc s n) = part π s := by simp [afterAlloc]
@[simp] theorem part_ptrFault (s : State) (wh n p : Nat) : part π (ptrFault s wh n p) = part π s := by simp [ptrFault]

@[simp] theorem part_quarantinePtr (s : State) (m p : Nat) :
    part π (quarantinePtr s m p) = part π s := by
  simp only [quarantinePtr]
  repeat' split
  all_goals simp

/-- The state an attempt to take a unit leaves; one that finds none leaves the state before. -/
def Alloc.stateD : Alloc → State → State
  | .unit _ t, _ => t
  | .empty, s => s
  | .fault t, _ => t

@[simp] theorem stateD_unit (u : Nat) (s t : State) : (Alloc.unit u t).stateD s = t := (rfl)
@[simp] theorem stateD_empty (s : State) : Alloc.empty.stateD s = s := (rfl)
@[simp] theorem stateD_fault (s t : State) : (Alloc.fault t).stateD s = t := (rfl)

/-- The state an attempt to take several units leaves. -/
def Take.state : Take → State
  | .got _ s => s
  | .short s => s
  | .fault s => s

@[simp] theorem state_got (l : List Nat) (s : State) : (Take.got l s).state = s := (rfl)
@[simp] theorem state_short (s : State) : (Take.short s).state = s := (rfl)
@[simp] theorem state_fault (s : State) : (Take.fault s).state = s := (rfl)

@[simp] theorem part_ladleAlloc (s : State) (n : Nat) : part π ((ladleAlloc s n).stateD s) = part π s := by
  simp only [ladleAlloc]
  repeat' split
  all_goals simp

@[simp] theorem part_setSkim (s : State) (n h t c : Nat) : part π (setSkim s n h t c) = part π s := by simp [setSkim]
@[simp] theorem part_potWrite (s : State) (a : Nat) (b : List Byte) : part π (potWrite s a b) = part π s := by simp [potWrite]
@[simp] theorem part_crockWrite (s : State) (a : Nat) (b : List Byte) : part π (crockWrite s a b) = part π s := by simp [crockWrite]
@[simp] theorem part_setLinkWord (s : State) (c w : Nat) : part π (setLinkWord s c w) = part π s := by simp [setLinkWord]

@[simp] theorem part_skimAlloc (s : State) (n : Nat) : part π ((skimAlloc s n).stateD s) = part π s := by
  simp only [skimAlloc]
  repeat' split
  all_goals simp

@[simp] theorem part_storeAlloc (s : State) (n : Nat) : part π ((storeAlloc s n).stateD s) = part π s := by
  rw [storeAlloc]
  split <;> simp

@[simp] theorem part_leakUnits (s : State) (m : Nat) (l : List Nat) :
    part π (leakUnits s m l) = part π s := by
  refine part_foldl (fun s u => ?_) l s
  split <;> simp

@[simp] theorem part_readBitmap (s : State) (m u : Nat) : part π (readBitmap s m u) = part π s := by simp [readBitmap]

@[simp] theorem part_allocUnit (s : State) (n : Nat) : part π ((allocUnit s n).stateD s) = part π s := by
  have h := part_storeAlloc (π := π) s n
  simp only [allocUnit]
  split
  · exact h
  · split
    · rename_i u _ _
      have hr := part_storeAlloc (π := π) (readBitmap s (plMemory s n) u) n
      cases hb : storeAlloc (readBitmap s (plMemory s n) u) n <;> simp_all
    · exact h

/-- What an attempt to take a unit leaves, by what it came to. -/
theorem part_of_allocUnit {s : State} {n : Nat} {x : Alloc} (h : allocUnit s n = x) : part π (x.stateD s) = part π s :=
  h ▸ part_allocUnit s n

@[simp] theorem part_threadCells (s : State) (l : List Nat) : part π (threadCells s l) = part π s := by
  induction l generalizing s with
  | nil => rfl
  | cons c r ih =>
    cases r with
    | nil => simp [threadCells]
    | cons d r => simp [threadCells, ih]

@[simp] theorem part_skimRebuild (s : State) (n : Nat) : part π (skimRebuild s n) = part π s := by simp [skimRebuild]

@[simp] theorem part_freeUnit (s : State) (m u : Nat) :
    part π (freeUnit s m u) = part π s := by
  rw [freeUnit]
  split <;> simp

@[simp] theorem part_freeUnits (s : State) (m : Nat) (l : List Nat) : part π (freeUnits s m l) = part π s := by simp [freeUnits]

@[simp] theorem part_takeUnits (k : Nat) (s : State) (n : Nat) (acc : List Nat) :
    part π (takeUnits k s n acc).state = part π s := by
  induction k generalizing s acc with
  | zero => rfl
  | succ k ih =>
    have h := part_allocUnit (π := π) s n
    simp only [takeUnits]
    split <;> simp_all

/-- What taking units leaves, by what it came to. -/
theorem part_of_takeUnits {k : Nat} {s : State} {n : Nat} {acc : List Nat} {x : Take} (h : takeUnits k s n acc = x) :
    part π x.state = part π s := h ▸ part_takeUnits k s n acc

@[simp] theorem part_setNode (s : State) (k : Nat) (x : Node) : part π (setNode s k x) = part π s := by simp [setNode]
@[simp] theorem part_setQueue (s : State) (q : Nat) (x : Queue) : part π (setQueue s q x) = part π s := by simp [setQueue]
@[simp] theorem part_chargeQueue (s : State) (set q n : Nat) : part π (chargeQueue s set q n) = part π s := by simp [chargeQueue]
@[simp] theorem part_unchargeQueue (s : State) (set q n : Nat) : part π (unchargeQueue s set q n) = part π s := by simp [unchargeQueue]

@[simp] theorem part_writeCells (s : State) (l : List Nat) (b : List Byte) : part π (writeCells s l b) = part π s := by
  induction l generalizing s b with
  | nil => rfl
  | cons c r ih => simp [writeCells, ih]

@[simp] theorem part_storeFrom (s : State) (cells : List Nat) (a : Nat) (b : List Byte) :
    part π (storeFrom s cells a b) = part π s := by
  rw [storeFrom]
  split <;> simp

@[simp] theorem part_walkLinks (s : State) (l : List Nat) : part π (walkLinks s l).2 = part π s := by
  induction l generalizing s with
  | nil => rfl
  | cons c r ih =>
    cases r with
    | nil => rfl
    | cons d r => simp [walkLinks, ih]

@[simp] theorem part_readPot (s : State) (i : Nat) (p : Pkt) (a b : Nat) : part π (readPot s i p a b).2 = part π s := by simp [readPot]

end Sys2Proof.Machine
end

section
/-! SUPPORT. Frame lemmas: the parts that the operations the ports share (ch. 3) leave alone. -/

namespace Sys2Proof.Machine

variable {π : Part} {α β : Type}

@[simp] theorem part_fbCount (s : State) (p sub n : Nat) : part π (fbCount s p sub n) = part π s := by simp [fbCount]
@[simp] theorem part_mainCount (s : State) (p sub n : Nat) : part π (mainCount s p sub n) = part π s := by simp [mainCount]
@[simp] theorem part_fbRxSize (s : State) (p l : Nat) : part π (fbRxSize s p l) = part π s := by simp [fbRxSize]
@[simp] theorem part_fbTxSize (s : State) (p : Nat) (f : List Byte) : part π (fbTxSize s p f) = part π s := by simp [fbTxSize]
@[simp] theorem part_sendControl (s : State) (p : Nat) (f : List Byte) : part π (sendControl s p f) = part π s := by simp [sendControl]

@[simp] theorem part_queueControl (s : State) (p : Nat) (pfc : Bool) (vec time : Nat) :
    part π (queueControl s p pfc vec time) = part π s := by
  simp only [queueControl]
  repeat' split
  all_goals simp

@[simp] theorem part_sendXoff (s : State) (p i : Nat) (on : Bool) : part π (sendXoff s p i on) = part π s := by simp [sendXoff]
@[simp] theorem part_thresholdStep (s : State) (p i n : Nat) : part π (thresholdStep s p i n) = part π s := by simp [thresholdStep]
@[simp] theorem part_fcCheck (s : State) (p : Nat) : part π (fcCheck s p) = part π s := by simp [fcCheck]

@[simp] theorem part_fcCheckOf (s : State) (p : Pkt) :
    part π (fcCheckOf s p) = part π s := by
  rw [fcCheckOf]
  split <;> simp

end Sys2Proof.Machine
end

section
/-! SUPPORT. Frame lemmas: the parts that the queues' operations (ch. 11) leave alone. -/

namespace Sys2Proof.Machine

variable {π : Part} {α β : Type}

@[simp] theorem part_faultNode (s : State) (k : Nat) : part π (faultNode s k) = part π s := by simp [faultNode]
@[simp] theorem part_readState (s : State) (k : Nat) : part π (readState s k) = part π s := by simp [readState]
@[simp] theorem part_linkWritten (s : State) (q link : Nat) : part π (linkWritten s q link) = part π s := by simp [linkWritten]

@[simp] theorem part_leaveArrival (s : State) (p : Pkt) :
    part π (leaveArrival s p) = part π s := by
  rw [leaveArrival]
  split <;> simp

@[simp] theorem part_queueHeld (s : State) : part π (queueHeld s) = part π s := by simp [queueHeld]
@[simp] theorem part_queueLeft (s : State) : part π (queueLeft s) = part π s := by simp [queueLeft]
@[simp] theorem part_copyMade (s : State) : part π (copyMade s) = part π s := by simp [copyMade]
@[simp] theorem part_setGrant (s : State) (k : Nat) (g : Grant) : part π (setGrant s k g) = part π s := by simp [setGrant]

@[simp] theorem part_creditBack (s : State) (i : Nat) :
    part π (creditBack s i) = part π s := by
  rw [creditBack]
  split <;> simp

@[simp] theorem part_dueKnown (s : State) (i : Nat) (p : Pkt) : part π (dueKnown s i p) = part π s := by simp [dueKnown]

@[simp] theorem part_freePkt (s : State) (i : Nat) :
    part π (freePkt s i) = part π s := by
  rw [freePkt]
  split <;> simp

@[simp] theorem part_countLost (s : State) (i : Nat) (p : Pkt) : part π (countLost s i p) = part π s := by simp [countLost]

@[simp] theorem part_readCount (s : State) (p : Pkt) :
    part π (readCount s p).2 = part π s := by
  rw [readCount]
  split <;> simp

@[simp] theorem part_releaseRef (s : State) (i : Nat) :
    part π (releaseRef s i) = part π s := by
  rw [releaseRef]
  split <;> simp

@[simp] theorem part_discardArrival (s : State) (i reason : Nat) :
    part π (discardArrival s i reason) = part π s := by
  rw [discardArrival]
  split <;> simp

@[simp] theorem part_discardHeld (s : State) (q : Nat) (r : Ref) (reason : Nat) :
    part π (discardHeld s q r reason) = part π s := by
  rw [discardHeld]
  split <;> simp

@[simp] theorem part_setPageHeader (s : State) (g h : Nat) : part π (setPageHeader s g h) = part π s := by simp [setPageHeader]

@[simp] theorem part_openPage (s : State) (q g : Nat) :
    part π (openPage s q g) = part π s := by
  rw [openPage]
  split <;> simp

@[simp] theorem part_writeStream (f : Nat) (s : State) (x : Queue) (pos : Nat) (b : List Byte) :
    part π (writeStream f s x pos b) = part π s := by
  induction f generalizing s pos b with
  | zero => rfl
  | succ f ih => simp [writeStream, ih]

@[simp] theorem part_noteStart (s : State) (x : Queue) (pos : Nat) : part π (noteStart s x pos) = part π s := by simp [noteStart]

@[simp] theorem part_packNext (s : State) (q : Nat) : part π ((packNext s q).getD s) = part π s := by
  simp only [packNext]
  repeat' split
  all_goals simp

@[simp] theorem part_packAll (f : Nat) (s : State) (q : Nat) : part π (packAll f s q) = part π s := by
  induction f generalizing s with
  | zero => rfl
  | succ f ih =>
    have h := part_packNext (π := π) s q
    simp only [packAll]
    split <;> simp_all

@[simp] theorem part_spillExit (s : State) (q : Nat) : part π (spillExit s q) = part π s := by simp [spillExit]
@[simp] theorem part_chainBreak (s : State) (q reason : Nat) : part π (chainBreak s q reason) = part π s := by simp [chainBreak]

@[simp] theorem part_stackWord (s : State) (prt page word : Nat) (lost : Bool) : part π (stackWord s prt page word lost) = part π s := by
  simp [stackWord]

@[simp] theorem part_readCrockWords (s : State) (prt : Nat) (l : List (Nat × Nat)) : part π (readCrockWords s prt l).2 = part π s := by
  simp [readCrockWords]

@[simp] theorem part_freeReadPages (s : State) (q pos : Nat) : part π (freeReadPages s q pos) = part π s := by simp [freeReadPages]

@[simp] theorem part_stageOne (s : State) (q : Nat) : part π ((stageOne s q).getD s) = part π s := by
  simp only [stageOne]
  split
  · rfl
  · iterate 7
      split
      · simp
    split
    · rename_i h
      simpa using part_of_takeUnits h
    · rfl
    · rename_i h
      simpa using part_of_takeUnits h

@[simp] theorem part_bindVoq (s : State) (q dev prt cls : Nat) :
    part π (bindVoq s q dev prt cls) = part π s := by
  rw [bindVoq]
  split <;> simp

@[simp] theorem part_takeVoq (s : State) (qms dev prt cls : Nat) :
    part π (takeVoq s qms dev prt cls).2 = part π s := by
  simp only [takeVoq]
  repeat' split
  all_goals simp

@[simp] theorem part_chooseSet (s : State) (q n : Nat) :
    part π (chooseSet s q n).1 = part π s := by
  simp only [chooseSet]
  repeat' split
  all_goals simp

/-- The state a decision leaves. -/
def Decision.state : Decision → State
  | .refuse s _ => s
  | .take s _ _ _ => s

@[simp] theorem state_refuse (s : State) (reason : Nat) : (Decision.refuse s reason).state = s := (rfl)
@[simp] theorem state_take (s : State) (set n : Nat) (marked : Bool) : (Decision.take s set n marked).state = s := (rfl)

@[simp] theorem part_residueHit (s : State) : part π (decideSet.residueHit s) = part π s := by
  simp [decideSet.residueHit]

@[simp] theorem part_decideSet (s : State) (q : Nat) (p : Pkt) (crock : Bool) : part π (decideSet s q p crock).state = part π s := by
  simp only [decideSet]
  repeat' split
  all_goals simp

/-- What a decision leaves, by what it came to. -/
theorem part_of_decideSet {s : State} {q : Nat} {p : Pkt} {crock : Bool} {x : Decision} (h : decideSet s q p crock = x) :
    part π x.state = part π s := h ▸ part_decideSet s q p crock

@[simp] theorem part_refuseCopy (s : State) (i : Nat) (p : Pkt) (q : Nat) (kind : RefKind) (reason : Nat) :
    part π (refuseCopy s i p q kind reason) = part π s := by simp [refuseCopy]

@[simp] theorem part_refuseMain (s : State) (i : Nat) (p : Pkt) (q reason : Nat) : part π (refuseMain s i p q reason) = part π s := by
  simp [refuseMain]

@[simp] theorem part_refuseRef (s : State) (i : Nat) (p : Pkt) (q : Nat) (kind : RefKind) (reason : Nat) :
    part π (refuseRef s i p q kind reason) = part π s := by
  simp only [refuseRef]
  split <;> simp

@[simp] theorem part_linkRef (s : State) (i : Nat) (p : Pkt) (q set n : Nat) (marked : Bool) (t : Target) :
    part π (linkRef s i p q set n marked t) = part π s := by simp [linkRef]

@[simp] theorem part_openPages (n : Nat) (s : State) (q : Nat) : part π (openPages n s q).1 = part π s := by
  induction n generalizing s with
  | zero => rfl
  | succ n ih =>
    have h := part_allocUnit (π := π) s (chargePool s 1 q)
    simp only [openPages]
    split <;> simp_all

@[simp] theorem part_placeRef (s : State) (i : Nat) (t : Target) :
    part π (placeRef s i t) = part π s := by
  cases ht : t.queue with
  | none =>
    simp only [placeRef, ht]
    split
    · simp_all
    · repeat' split
      all_goals simp
    · rfl
  | some q =>
    simp only [placeRef, ht]
    split
    · split
      · simp
      · split
        · rename_i h
          have hs := part_of_decideSet (π := π) h
          simp_all
        · rename_i h
          have hs := part_of_decideSet (π := π) h
          repeat' split
          all_goals simp_all
    · simp_all
    · simp

@[simp] theorem part_unplace (s : State) (i reason : Nat) :
    part π (unplace s i reason) = part π s := by
  refine part_foldl (fun s x => part_foldl (fun s r => ?_) _ s) _ s
  simp only
  split <;> simp

@[simp] theorem part_takeMixed (k : Nat) (s : State) (n : Nat) (acc : List Nat) :
    part π (takeMixed k s n acc).state = part π s := by
  induction k generalizing s acc with
  | zero => rfl
  | succ k ih =>
    simp only [takeMixed]
    split
    all_goals
      rename_i heq
      split at heq
      all_goals
        have h := part_of_allocUnit (π := π) heq
        simp_all

@[simp] theorem part_takeFor (s : State) (p : Pkt) (n : Nat) : part π (takeFor s p n).state = part π s := by
  rw [takeFor]
  split <;> simp

@[simp] theorem part_takeUpTo (s : State) (p : Pkt) (n : Nat) : part π (takeUpTo s p n).state = part π s := by
  have h := part_takeFor (π := π) s p (n - p.cells.length)
  simp only [takeUpTo]
  split
  · simp
  · split <;> simp_all

theorem part_of_takeUpTo {s : State} {p : Pkt} {n : Nat} {x : Take} (h : takeUpTo s p n = x) : part π x.state = part π s :=
  h ▸ part_takeUpTo s p n

@[simp] theorem part_supplyCells (s : State) (i : Nat) :
    part π (supplyCells s i) = part π s := by
  simp only [supplyCells]
  split
  · rfl
  · split
    · split
      all_goals
        rename_i h
        have hs := part_of_takeUpTo (π := π) h
        simp_all
    · simp

@[simp] theorem part_packFor (s : State) (i : Nat) : part π (packFor s i) = part π s := by simp [packFor]

@[simp] theorem part_placeAll (s : State) (i : Nat) (ts : List Target) :
    part π (placeAll s i ts) = part π s := by
  rw [placeAll]
  split <;> simp

end Sys2Proof.Machine
end

section
/-! SUPPORT. Frame lemmas: the parts that the scheduling tree's operations (ch. 11) leave alone. -/

namespace Sys2Proof.Machine

variable {π : Part} {α β : Type}

@[simp] theorem part_endRound (s : State) (k : Nat) (cs : List Nat) : part π (endRound s k cs) = part π s := by simp [endRound]

/-- Where a choice of a child comes to one, it leaves the part alone. -/
theorem part_of_drrLoop (f : Nat) (s : State) (k : Nat) (ws : List Nat) (bs : List (Nat × Nat)) (x : Nat × State)
    (hx : drrLoop f s k ws bs = some x) : part π x.2 = part π s := by
  induction f generalizing s with
  | zero => simp [drrLoop] at hx
  | succ f ih =>
    simp only [drrLoop] at hx
    split at hx
    · cases hx
    · split at hx
      · exact (ih _ hx).trans (by simp)
      · rcases some_of_ite hx with hx | hx
        · cases hx
          simp
        · exact (ih _ hx).trans (by simp)

/-- Where a selection comes to a path, it leaves the part alone. -/
theorem part_of_selectPath (f : Nat) (s : State) (k : Nat) (x : List Nat × State) (hx : selectPath f s k = some x) :
    part π x.2 = part π s := by
  induction f generalizing s k x with
  | zero => simp [selectPath] at hx
  | succ f ih =>
    simp only [selectPath] at hx
    split at hx
    · split at hx <;> cases hx
      rfl
    · split at hx
      · cases hx
      · split at hx
        · obtain ⟨r, hr, rfl⟩ := Option.map_eq_some_iff.mp hx
          exact ih _ _ r hr
        · split at hx
          · cases hx
          · split at hx
            · rename_i hd
              obtain ⟨r, hr, rfl⟩ := Option.map_eq_some_iff.mp hx
              exact (ih _ _ r hr).trans (part_of_drrLoop _ _ _ _ _ _ hd)
            · cases hx

@[simp] theorem part_chargeShaper (s : State) (k lf : Nat) : part π (chargeShaper s k lf) = part π s := by simp [chargeShaper]

@[simp] theorem part_chargePath (s : State) (path : List Nat) (lf : Nat) : part π (chargePath s path lf) = part π s := by
  simp [chargePath]

@[simp] theorem part_refillShaper (s : State) (k period : Nat) : part π (refillShaper s k period) = part π s := by simp [refillShaper]

@[simp] theorem part_popHead (s : State) (q : Nat) :
    part π (popHead s q) = part π s := by
  rw [popHead]
  split <;> simp

@[simp] theorem part_sendOut (s : State) (o : Out) : part π (sendOut s o) = part π s := by simp [sendOut]

@[simp] theorem part_leakRef (s : State) (q : Nat) (r : Ref) :
    part π (leakRef s q r) = part π s := by
  rw [leakRef]
  split <;> simp

@[simp] theorem part_readHead (s : State) (q : Nat) (r : Ref) : part π (readHead s q r).2 = part π s := by simp [readHead]

@[simp] theorem part_dequeuePath (s : State) (root : Nat) (path : List Nat) :
    part π (dequeuePath s root path) = part π s := by
  simp only [dequeuePath]
  repeat' split
  all_goals simp

@[simp] theorem part_dequeueRoot (s : State) (root : Nat) :
    part π (dequeueRoot s root) = part π s := by
  simp only [dequeueRoot]
  split
  · rename_i h
    simp [part_of_selectPath _ _ _ _ h]
  · rfl

end Sys2Proof.Machine
end

section
/-! SUPPORT. Frame lemmas: the parts that the arrival of a descriptor and its references (R255, R256) leave alone. -/

namespace Sys2Proof.Machine

variable {π : Part} {α β : Type}

@[simp] theorem part_voqTarget (s : State) (qms dev prt cls : Nat) (kind : RefKind) (desc : Option Nat) :
    part π (voqTarget s qms dev prt cls kind desc).2 = part π s := by
  have h := part_takeVoq (π := π) s qms dev prt cls
  simp only [voqTarget]
  split
  · rfl
  · split <;> simp_all

@[simp] theorem part_loseMirror (s : State) (n prt : Nat) (p : Pkt) : part π (loseMirror s n prt p) = part π s := by simp [loseMirror]

/-- A copy that finds cells leaves the part alone. -/
theorem part_of_copyPacket {s : State} {p : Pkt} {data : List Byte} {len desc : Nat} {whole : Bool} {src : Option (Nat × Nat)}
    {x : Nat × State} (hx : copyPacket s p data len desc whole src = some x) : part π x.2 = part π s := by
  have h := part_takeUnits (π := π) (cellsFor len) s 31 []
  simp only [copyPacket] at hx
  split at hx
  · cases hx
    simp_all
  · cases hx

@[simp] theorem part_ingressMirror (s : State) (i : Nat) (p : Pkt) :
    part π (ingressMirror s i p).2 = part π s := by
  simp only [ingressMirror]
  split
  · rfl
  · split
    · simp
    · split
      · simp
      · split
        all_goals
          split
          · simp
          · split
            · rename_i h
              simp [part_of_copyPacket h]
            · simp

@[simp] theorem part_copiesMade (s : State) (n : Nat) : part π (copiesMade s n) = part π s := by simp [copiesMade]

@[simp] theorem part_mainTarget (s : State) (p : Pkt) :
    part π (mainTarget s p).2 = part π s := by
  simp only [mainTarget]
  repeat' split
  all_goals simp

@[simp] theorem part_enqueueUnicast (s : State) (i : Nat) (p : Pkt) : part π (enqueueUnicast s i p) = part π s := by simp [enqueueUnicast]

@[simp] theorem part_enqueueMulticast (s : State) (i : Nat) (p : Pkt) : part π (enqueueMulticast s i p) = part π s := by
  simp [enqueueMulticast]

@[simp] theorem part_enqueueArrival (s : State) (i : Nat) :
    part π (enqueueArrival s i) = part π s := by
  rw [enqueueArrival]
  split <;> simp

@[simp] theorem part_fanOut (s : State) (n : Nat) :
    part π (fanOut s n) = part π s := by
  simp only [fanOut]
  repeat' split
  all_goals simp

@[simp] theorem part_correctCharges (s : State) (i n : Nat) : part π (correctCharges s i n) = part π s := by simp [correctCharges]
@[simp] theorem part_purge (s : State) (i reason : Nat) : part π (purge s i reason) = part π s := by simp [purge]
@[simp] theorem part_fillCopies (s : State) (i : Nat) (data : List Byte) : part π (fillCopies s i data) = part π s := by simp [fillCopies]

@[simp] theorem part_lastByteStored (s : State) (i : Nat) :
    part π (lastByteStored s i) = part π s := by
  simp only [lastByteStored]
  repeat' split
  all_goals simp

end Sys2Proof.Machine
end

section
/-! SUPPORT. Frame lemmas: the parts that the packet-memory commands (ch. 9) leave alone. -/

namespace Sys2Proof.Machine

variable {π : Part} {α β : Type}

@[simp] theorem part_gatherEntry (s : State) (d ty e : Nat) : part π (gatherEntry s d ty e) = part π s := by simp [gatherEntry]
@[simp] theorem part_requestUnits (s : State) (q : Nat) : part π (requestUnits s q) = part π s := by simp [requestUnits]
@[simp] theorem part_touchVoqs (s : State) : part π (touchVoqs s) = part π s := by simp [touchVoqs]
@[simp] theorem part_wPoolDesc (n v : Nat) (s : State) : part π ((wPoolDesc n v s).getD s) = part π s := by simp [wPoolDesc]
@[simp] theorem part_wPoolSize (k v : Nat) (s : State) : part π ((wPoolSize k v s).getD s) = part π s := by simp [wPoolSize]

@[simp] theorem part_wAdmProfile (n : Nat) (b : List Byte) (s : State) : part π ((wAdmProfile n b s).getD s) = part π s := by
  simp [wAdmProfile]

@[simp] theorem part_wFcThreshold (f : Nat) (xon : Bool) (v : Nat) (s : State) : part π ((wFcThreshold f xon v s).getD s) = part π s := by
  simp [wFcThreshold]

@[simp] theorem part_wPortMap (b : List Byte) (s : State) : part π ((wPortMap b s).getD s) = part π s := by simp [wPortMap]

@[simp] theorem part_pmWrite (k v : Nat) (s : State) :
    part π ((pmWrite k v s).getD s) = part π s := by
  generalize hr : pmWrite k v = r
  rw [pmWrite] at hr
  split at hr <;> subst hr <;> simp

@[simp] theorem part_pmCommit (k : Nat) (b : List Byte) (s : State) :
    part π ((pmCommit k b s).getD s) = part π s := by
  generalize hr : pmCommit k b = r
  rw [pmCommit] at hr
  split at hr <;> subst hr <;> simp

@[simp] theorem part_execSkimmerRebuildDone (pool : Nat) (s : State) : part π (after s (execSkimmerRebuildDone pool s)) = part π s := by
  simp [execSkimmerRebuildDone]

@[simp] theorem part_execLastByteStored (pkt : Nat) (s : State) : part π (after s (execLastByteStored pkt s)) = part π s := by
  simp [execLastByteStored]

@[simp] theorem part_execDequeue (hhost : π ≠ .host) (kind index : Nat) (s : State) :
    part π (after s (execDequeue kind index s)) = part π s := by simp [execDequeue, hhost]

@[simp] theorem part_execUnspillPrefetch (queue : Nat) (s : State) :
    part π (after s (execUnspillPrefetch queue s)) = part π s := by
  have h := part_stageOne (π := π) s queue
  simp only [execUnspillPrefetch]
  split
  · split <;> simp_all
  · rfl

@[simp] theorem part_execPoolDescWrite (client : Client) (pool value : Nat) (s : State) :
    part π (after s (execPoolDescWrite client pool value s)) = part π s := by simp [execPoolDescWrite]

@[simp] theorem part_execAdmProfileWrite (client : Client) (profile : Nat) (value : List Byte) (s : State) :
    part π (after s (execAdmProfileWrite client profile value s)) = part π s := by simp [execAdmProfileWrite]

@[simp] theorem part_execPoolSizeWrite (client : Client) (pool : Nat) (headroom : Bool) (value : Nat) (s : State) :
    part π (after s (execPoolSizeWrite client pool headroom value s)) = part π s := by simp [execPoolSizeWrite]

@[simp] theorem part_execFcThresholdWrite (client : Client) (profile : Nat) (xon : Bool) (value : Nat) (s : State) :
    part π (after s (execFcThresholdWrite client profile xon value s)) = part π s := by simp [execFcThresholdWrite]

@[simp] theorem part_execPoolWatermarkRead (client : Client) (pool : Nat) (s : State) :
    part π (after s (execPoolWatermarkRead client pool s)) = part π s := by simp [execPoolWatermarkRead]

end Sys2Proof.Machine
end

section
/-! SUPPORT. Frame lemmas: the parts that the queue and scheduling commands (ch. 11) leave alone. -/

namespace Sys2Proof.Machine

variable {π : Part} {α β : Type}

@[simp] theorem part_putWords (s : State) (k w qw : Nat) : part π (putWords s k w qw) = part π s := by simp [putWords]

@[simp] theorem part_writeWords (s : State) (k w : Nat) (qw? : Option Nat) : part π (writeWords s k w qw?).2 = part π s := by
  simp [writeWords]

@[simp] theorem part_writeClassMap (s : State) (p c w : Nat) : part π (writeClassMap s p c w).2 = part π s := by simp [writeClassMap]
@[simp] theorem part_writeGroup (s : State) (g w : Nat) : part π (writeGroup s g w).2 = part π s := by simp [writeGroup]

@[simp] theorem part_writeTargets (s : State) (first n : Nat) (ws : List Nat) : part π (writeTargets s first n ws).2 = part π s := by
  simp [writeTargets]

@[simp] theorem part_applyQm (s : State) (r : List Byte) :
    part π (applyQm s r).2 = part π s := by
  simp only [applyQm]
  repeat' split
  all_goals simp

@[simp] theorem part_wSchConfig (b : List Byte) (s : State) : part π ((wSchConfig b s).getD s) = part π s := by simp [wSchConfig]
@[simp] theorem part_wVoqTemplate (c v : Nat) (s : State) : part π ((wVoqTemplate c v s).getD s) = part π s := by simp [wVoqTemplate]

@[simp] theorem part_wAqmProfile (n : Nat) (b : List Byte) (s : State) : part π ((wAqmProfile n b s).getD s) = part π s := by
  simp [wAqmProfile]

@[simp] theorem part_wClassMaps (b : List Byte) (s : State) : part π ((wClassMaps b s).getD s) = part π s := by simp [wClassMaps]

@[simp] theorem part_qmWrite (k v : Nat) (s : State) :
    part π ((qmWrite k v s).getD s) = part π s := by
  generalize hr : qmWrite k v = r
  rw [qmWrite] at hr
  split at hr <;> subst hr <;> simp

@[simp] theorem part_qmCommit (k : Nat) (b : List Byte) (s : State) :
    part π ((qmCommit k b s).getD s) = part π s := by
  generalize hr : qmCommit k b = r
  rw [qmCommit] at hr
  split at hr <;> subst hr <;> simp

@[simp] theorem part_execEnqueueArrival (pkt : Nat) (s : State) : part π (after s (execEnqueueArrival pkt s)) = part π s := by
  simp [execEnqueueArrival]

@[simp] theorem part_execMcFanout (qms : Nat) (s : State) : part π (after s (execMcFanout qms s)) = part π s := by simp [execMcFanout]
@[simp] theorem part_refillResidue (s : State) : part π (refillResidue s) = part π s := by simp [refillResidue]

@[simp] theorem part_execShaperRefill (kind index : Nat) (s : State) : part π (after s (execShaperRefill kind index s)) = part π s := by
  simp [execShaperRefill]

@[simp] theorem part_correctShaper (s : State) (k lfEst lf : Nat) : part π (correctShaper s k lfEst lf) = part π s := by
  simp [correctShaper]

@[simp] theorem part_correctDue (s : State) (d : ShaperDue) (lf l : Nat) :
    part π (correctDue s d lf l) = part π s := by
  rw [correctDue]
  split <;> simp

@[simp] theorem part_execShaperCorrection (pkt : Nat) (s : State) :
    part π (after s (execShaperCorrection pkt s)) = part π s := by
  simp only [execShaperCorrection]
  split
  · rfl
  · split
    · simp
    · simp only [after_next, part_touchVoqs]
      refine (part_foldl (fun t d => ?_) _ _).trans (by simp)
      split <;> simp

@[simp] theorem part_releaseVoq (s : State) (q : Nat) : part π (releaseVoq s q) = part π s := by simp [releaseVoq]

@[simp] theorem part_execVoqIdleRelease (queue : Nat) (s : State) :
    part π (after s (execVoqIdleRelease queue s)) = part π s := by
  rw [execVoqIdleRelease]
  split <;> simp

@[simp] theorem part_execQmLoadWrite (client : Client) (records : List Byte) (s : State) :
    part π (after s (execQmLoadWrite client records s)) = part π s := by simp [execQmLoadWrite]

@[simp] theorem part_execQmApply (turn : JobOp) (s : State) : part π (after s (execQmApply turn s)) = part π s := by simp [execQmApply]
@[simp] theorem part_execNodeWrite (s : State) : part π (after s (execNodeWrite s)) = part π s := by simp [execNodeWrite]
@[simp] theorem part_execQueueWrite (s : State) : part π (after s (execQueueWrite s)) = part π s := by simp [execQueueWrite]
@[simp] theorem part_execClassMapWrite (s : State) : part π (after s (execClassMapWrite s)) = part π s := by simp [execClassMapWrite]
@[simp] theorem part_execMcGroupWrite (s : State) : part π (after s (execMcGroupWrite s)) = part π s := by simp [execMcGroupWrite]
@[simp] theorem part_execTargetWrite (s : State) : part π (after s (execTargetWrite s)) = part π s := by simp [execTargetWrite]

@[simp] theorem part_execSchConfigWrite (client : Client) (value : List Byte) (s : State) :
    part π (after s (execSchConfigWrite client value s)) = part π s := by simp [execSchConfigWrite]

end Sys2Proof.Machine
end

section
/-! SUPPORT. Frame lemmas: the parts that the functions of the Crock memory controller (ch. 10) leave alone. -/

namespace Sys2Proof.Machine

variable {π : Part} {α β : Type}

@[simp] theorem part_setStack (s : State) (k v : Nat) : part π (setStack s k v) = part π s := by simp [setStack]
@[simp] theorem part_setPc (s : State) (k : Nat) (x : HbmPc) : part π (setPc s k x) = part π s := by simp [setPc]
@[simp] theorem part_startRefresh (s : State) (k : Nat) : part π (startRefresh s k) = part π s := by simp [startRefresh]
@[simp] theorem part_selfRefresh (s : State) (k : Nat) : part π (selfRefresh s k) = part π s := by simp [selfRefresh]
@[simp] theorem part_loadDelays (s : State) (k : Nat) : part π (loadDelays s k) = part π s := by simp [loadDelays]

@[simp] theorem part_startNext (s : State) (k : Nat) :
    part π (startNext s k) = part π s := by
  simp only [startNext]
  repeat' split
  all_goals simp

@[simp] theorem part_wakeStacks (s : State) : part π (wakeStacks s) = part π s := by simp [wakeStacks]

@[simp] theorem part_execHbmRequest (stack port page burst count : Nat) (write : Bool) (s : State) :
    part π (after s (execHbmRequest stack port page burst count write s)) = part π s := by simp [execHbmRequest]

@[simp] theorem part_execHbmRequestComplete (stack channel : Nat) (s : State) :
    part π (after s (execHbmRequestComplete stack channel s)) = part π s := by
  simp only [execHbmRequestComplete]
  repeat' split
  all_goals simp

@[simp] theorem part_noteOwed (s : State) (stack n : Nat) : part π (noteOwed s stack n) = part π s := by simp [noteOwed]

@[simp] theorem part_execRefreshDue (stack channel : Nat) (s : State) : part π (after s (execRefreshDue stack channel s)) = part π s := by
  simp [execRefreshDue]

@[simp] theorem part_execRefreshPayback (stack channel : Nat) (s : State) :
    part π (after s (execRefreshPayback stack channel s)) = part π s := by simp [execRefreshPayback]

@[simp] theorem part_execHbmTempRead (stack readout : Nat) (s : State) :
    part π (after s (execHbmTempRead stack readout s)) = part π s := by simp [execHbmTempRead]

@[simp] theorem part_beginRate (s : State) (r : Nat) : part π (beginRate s r) = part π s := by simp [beginRate]
@[simp] theorem part_governRate (s : State) (d : Nat) : part π (governRate s d) = part π s := by simp [governRate]
@[simp] theorem part_execHbmRateWindow (s : State) : part π (after s (execHbmRateWindow s)) = part π s := by simp [execHbmRateWindow]

@[simp] theorem part_execHbmRateChange (s : State) :
    part π (after s (execHbmRateChange s)) = part π s := by
  rw [execHbmRateChange]
  split <;> simp

@[simp] theorem part_wHbmRatePin (v : Nat) (s : State) : part π ((wHbmRatePin v s).getD s) = part π s := by simp [wHbmRatePin]

@[simp] theorem part_execHbmRatePinWrite (client : Client) (value : Nat) (s : State) :
    part π (after s (execHbmRatePinWrite client value s)) = part π s := by simp [execHbmRatePinWrite]

@[simp] theorem part_execHbmIdleEnter (s : State) : part π (after s (execHbmIdleEnter s)) = part π s := by simp [execHbmIdleEnter]
@[simp] theorem part_wCaptureArg (v : Nat) (s : State) : part π ((wCaptureArg v s).getD s) = part π s := by simp [wCaptureArg]
@[simp] theorem part_sweepDelays (s : State) (v : Nat) : part π (sweepDelays s v) = part π s := by simp [sweepDelays]
@[simp] theorem part_restoreDelays (s : State) : part π (restoreDelays s) = part π s := by simp [restoreDelays]
@[simp] theorem part_captureEnd (s : State) (cancelled : Bool) : part π (captureEnd s cancelled) = part π s := by simp [captureEnd]
@[simp] theorem part_startCapture (s : State) : part π ((startCapture s).getD s) = part π s := by simp [startCapture]
@[simp] theorem part_captureStep (s : State) (pass : Nat) : part π (captureStep s pass) = part π s := by simp [captureStep]

@[simp] theorem part_execHbmCapture (turn : JobOp) (pass : Nat) (s : State) :
    part π (after s (execHbmCapture turn pass s)) = part π s := by
  simp only [execHbmCapture]
  split <;> simp

@[simp] theorem part_startHbmInit (k : Nat) (s : State) : part π ((startHbmInit k s).getD s) = part π s := by simp [startHbmInit]

@[simp] theorem part_stacksInitialised (hpwr : π ≠ .pwr) (s : State) : part π (stacksInitialised s) = part π s := by
  simp [stacksInitialised, hpwr]

@[simp] theorem part_hbmInitEnd (hpwr : π ≠ .pwr) (s : State) (k : Nat) (pass : Bool) : part π (hbmInitEnd s k pass) = part π s := by
  simp [hbmInitEnd, hpwr]

@[simp] theorem part_execHbmInit (hpwr : π ≠ .pwr) (stack : Nat) (turn : JobOp) (pass : Bool) (s : State) :
    part π (after s (execHbmInit stack turn pass s)) = part π s := by
  simp only [execHbmInit]
  split <;> simp [hpwr]

@[simp] theorem part_startHbmOffline (k : Nat) (s : State) : part π ((startHbmOffline k s).getD s) = part π s := by simp [startHbmOffline]

@[simp] theorem part_execHbmOffline (client : Client) (stack : Nat) (s : State) :
    part π (after s (execHbmOffline client stack s)) = part π s := by simp [execHbmOffline]

@[simp] theorem part_drained (s : State) (k : Nat) : part π (drained s k) = part π s := by simp [drained]

@[simp] theorem part_execHbmDrained (stack : Nat) (s : State) : part π (after s (execHbmDrained stack s)) = part π s := by
  simp [execHbmDrained]

@[simp] theorem part_scrubPage (s : State) (k p : Nat) : part π (scrubPage s k p) = part π s := by simp [scrubPage]
@[simp] theorem part_disturb (s : State) (k p : Nat) (l : List (Nat × Nat)) : part π (disturb s k p l) = part π s := by simp [disturb]
@[simp] theorem part_scrubNext (s : State) (k : Nat) : part π (scrubNext s k) = part π s := by simp [scrubNext]

@[simp] theorem part_execHbmPatrolScrub (stack : Nat) (upsets : List (Nat × Nat)) (s : State) :
    part π (after s (execHbmPatrolScrub stack upsets s)) = part π s := by simp [execHbmPatrolScrub]

@[simp] theorem part_execHbmScrubBatch (stack : Nat) (s : State) : part π (after s (execHbmScrubBatch stack s)) = part π s := by
  simp [execHbmScrubBatch]

@[simp] theorem part_execHbmRefreshOwedMaxRead (client : Client) (stack : Nat) (s : State) :
    part π (after s (execHbmRefreshOwedMaxRead client stack s)) = part π s := by simp [execHbmRefreshOwedMaxRead]

@[simp] theorem part_storeBlock (k n : Nat) (b : List Byte) (s : State) : part π ((storeBlock k n b s).getD s) = part π s := by
  simp [storeBlock]

@[simp] theorem part_hbmWrite (k v : Nat) (s : State) :
    part π ((hbmWrite k v s).getD s) = part π s := by
  generalize hr : hbmWrite k v = r
  rw [hbmWrite] at hr
  split at hr <;> subst hr <;> simp

@[simp] theorem part_hbmCommit (k : Nat) (b : List Byte) (s : State) :
    part π ((hbmCommit k b s).getD s) = part π s := by
  generalize hr : hbmCommit k b = r
  rw [hbmCommit] at hr
  split at hr <;> subst hr <;> simp

@[simp] theorem part_hbmStart (k : Nat) (s : State) :
    part π ((hbmStart k s).getD s) = part π s := by
  rw [hbmStart]
  split <;> simp

end Sys2Proof.Machine
end

section
/-! SUPPORT. Frame lemmas: the parts that meters and flow counters (ch. 8) leave alone. -/

namespace Sys2Proof.Machine

variable {π : Part} {α β : Type}

@[simp] theorem part_setMeter (s : State) (i m : Nat) (t : List Nat) : part π (setMeter s i m t) = part π s := by simp [setMeter]
@[simp] theorem part_installMeter (s : State) (i c : Nat) : part π (installMeter s i c) = part π s := by simp [installMeter]
@[simp] theorem part_mcFault (s : State) (c : Bool) (i : Nat) : part π (mcFault s c i) = part π s := by simp [mcFault]

/-- The state a metering leaves. -/
def Metered.state : Metered → State
  | .disabled s => s
  | .fault s => s
  | .coloured _ _ s => s

@[simp] theorem state_disabled (s : State) : (Metered.disabled s).state = s := (rfl)
@[simp] theorem state_meterFault (s : State) : (Metered.fault s).state = s := (rfl)
@[simp] theorem state_coloured (c : Nat) (draw : MeterDraw) (s : State) : (Metered.coloured c draw s).state = s := (rfl)

@[simp] theorem part_meterPacket (s : State) (i e pre : Nat) : part π (meterPacket s i e pre).state = part π s := by
  simp only [meterPacket]
  repeat' split
  all_goals simp

/-- What a metering leaves, by what it comes to. -/
theorem part_of_meterPacket {s : State} {i e pre : Nat} {x : Metered} (h : meterPacket s i e pre = x) : part π x.state = part π s :=
  h ▸ part_meterPacket s i e pre

@[simp] theorem part_correctionsDue (s : State) (ds : List MeterDraw) (len : Option Nat) :
    part π (correctionsDue s ds len) = part π s := by simp [correctionsDue]

@[simp] theorem part_applyCorrection (s : State) (d : MeterDue) : part π (applyCorrection s d) = part π s := by simp [applyCorrection]

@[simp] theorem part_execMeterCorrection (meter : Nat) (s : State) :
    part π (after s (execMeterCorrection meter s)) = part π s := by
  rw [execMeterCorrection]
  split <;> simp

@[simp] theorem part_setPair (s : State) (i p b : Nat) : part π (setPair s i p b) = part π s := by simp [setPair]
@[simp] theorem part_postCounters (s : State) (l : List Nat) (n : Nat) : part π (postCounters s l n) = part π s := by simp [postCounters]
@[simp] theorem part_updatePair (s : State) (i n : Nat) : part π (updatePair s i n) = part π s := by simp [updatePair]

@[simp] theorem part_execCounterUpdatePost (counter : Nat) (s : State) :
    part π (after s (execCounterUpdatePost counter s)) = part π s := by
  rw [execCounterUpdatePost]
  split <;> simp

@[simp] theorem part_execCtrPktsRead (client : Client) (s : State) : part π (after s (execCtrPktsRead client s)) = part π s := by
  simp [execCtrPktsRead]

@[simp] theorem part_wCtrClear (v : Nat) (s : State) : part π ((wCtrClear v s).getD s) = part π s := by simp [wCtrClear]

@[simp] theorem part_execCtrClear (client : Client) (value : Nat) (s : State) :
    part π (after s (execCtrClear client value s)) = part π s := by simp [execCtrClear]

@[simp] theorem part_startSweep (s : State) : part π ((startSweep s).getD s) = part π s := by simp [startSweep]
@[simp] theorem part_sweepPair (s : State) (i : Nat) : part π (sweepPair s i) = part π s := by simp [sweepPair]
@[simp] theorem part_sweepStep (s : State) : part π (sweepStep s) = part π s := by simp [sweepStep]

@[simp] theorem part_execCtrSweep (turn : JobOp) (s : State) :
    part π (after s (execCtrSweep turn s)) = part π s := by
  simp only [execCtrSweep]
  split <;> simp

@[simp] theorem part_wMtrConfig (b : List Byte) (s : State) : part π ((wMtrConfig b s).getD s) = part π s := by simp [wMtrConfig]

@[simp] theorem part_execMtrConfigWrite (client : Client) (value : List Byte) (s : State) :
    part π (after s (execMtrConfigWrite client value s)) = part π s := by simp [execMtrConfigWrite]

@[simp] theorem part_applyMtr (s : State) (r : List Byte) : part π (applyMtr s r).2 = part π s := by simp [applyMtr]

@[simp] theorem part_execMtrLoadWrite (client : Client) (records : List Byte) (s : State) :
    part π (after s (execMtrLoadWrite client records s)) = part π s := by simp [execMtrLoadWrite]

@[simp] theorem part_execMtrApply (turn : JobOp) (s : State) : part π (after s (execMtrApply turn s)) = part π s := by simp [execMtrApply]

@[simp] theorem part_mcWrite (k v : Nat) (s : State) :
    part π ((mcWrite k v s).getD s) = part π s := by
  simp only [mcWrite]
  repeat' split
  all_goals simp

@[simp] theorem part_mcCommit (k : Nat) (b : List Byte) (s : State) :
    part π ((mcCommit k b s).getD s) = part π s := by
  simp only [mcCommit]
  repeat' split
  all_goals simp

@[simp] theorem part_mcStart (k : Nat) (s : State) :
    part π ((mcStart k s).getD s) = part π s := by
  rw [mcStart]
  split <;> simp

end Sys2Proof.Machine
end

section
/-! SUPPORT. Frame lemmas: the parts that the line ports' functions (ch. 3) leave alone. -/

namespace Sys2Proof.Machine

variable {π : Part} {α β : Type}

@[simp] theorem part_setRole (s : State) (p : Nat) : part π (setRole s p) = part π s := by simp [setRole]
@[simp] theorem part_rxCounted (s : State) (p l : Nat) : part π (rxCounted s p l) = part π s := by simp [rxCounted]
@[simp] theorem part_rxErrorCount (s : State) (p r : Nat) : part π (rxErrorCount s p r) = part π s := by simp [rxErrorCount]

@[simp] theorem part_macDiscard (s : State) (i r : Nat) (data : List Byte) :
    part π (macDiscard s i r data) = part π s := by
  simp only [macDiscard]
  repeat' split
  all_goals simp

@[simp] theorem part_landBytes (s : State) (i a : Nat) :
    part π (landBytes s i a) = part π s := by
  simp only [landBytes]
  split
  · rfl
  · split
    all_goals
      rename_i h
      have hs := part_of_takeUpTo (π := π) h
      simp_all

@[simp] theorem part_rxDiscard (s : State) (p r : Nat) (data : List Byte) : part π (rxDiscard s p r data) = part π s := by
  simp [rxDiscard]

@[simp] theorem part_rxLost (s : State) (p : Nat) :
    part π (rxLost s p) = part π s := by
  rw [rxLost]
  split <;> simp

@[simp] theorem part_dropOut (s : State) (o reason : Nat) :
    part π (dropOut s o reason) = part π s := by
  rw [dropOut]
  split <;> simp

@[simp] theorem part_linkFails (s : State) (p : Nat) (lane : Bool) :
    part π (linkFails s p lane) = part π s := by
  simp only [linkFails]
  repeat' split
  all_goals simp

@[simp] theorem part_touchLink (s : State) (p : Nat) : part π (touchLink s p) = part π s := by simp [touchLink]
@[simp] theorem part_touchLinks (s : State) (p : Nat) : part π (touchLinks s p) = part π s := by simp [touchLinks]
@[simp] theorem part_applyMode (s : State) (p : Nat) : part π (applyMode s p) = part π s := by simp [applyMode]
@[simp] theorem part_wPortMode (p v : Nat) (s : State) : part π ((wPortMode p v s).getD s) = part π s := by simp [wPortMode]
@[simp] theorem part_wPortFec (p v : Nat) (s : State) : part π ((wPortFec p v s).getD s) = part π s := by simp [wPortFec]
@[simp] theorem part_wPortAdminUp (p v : Nat) (s : State) : part π ((wPortAdminUp p v s).getD s) = part π s := by simp [wPortAdminUp]

@[simp] theorem part_execPortModeWrite (client : Client) (port value : Nat) (s : State) :
    part π (after s (execPortModeWrite client port value s)) = part π s := by simp [execPortModeWrite]

@[simp] theorem part_execPortFecWrite (client : Client) (port value : Nat) (s : State) :
    part π (after s (execPortFecWrite client port value s)) = part π s := by simp [execPortFecWrite]

@[simp] theorem part_execPortAdminUpWrite (client : Client) (port value : Nat) (s : State) :
    part π (after s (execPortAdminUpWrite client port value s)) = part π s := by simp [execPortAdminUpWrite]

@[simp] theorem part_execLinkUp (port : Nat) (s : State) :
    part π (after s (execLinkUp port s)) = part π s := by
  rw [execLinkUp]
  split <;> simp

@[simp] theorem part_execLinkDown (port : Nat) (s : State) : part π (after s (execLinkDown port s)) = part π s := by simp [execLinkDown]

@[simp] theorem part_execLineLaneSignalChange (hlanes : π ≠ .lanes) (lane : Nat) (signal fecLock blockLock localFault remoteFault : Bool)
    (s : State) :
    part π (after s (execLineLaneSignalChange lane signal fecLock blockLock localFault remoteFault s)) = part π s := by
  simp only [execLineLaneSignalChange]
  repeat' split
  all_goals simp [hlanes]

@[simp] theorem part_crosses (s : State) (i : Nat) :
    part π (crosses s i) = part π s := by
  rw [crosses]
  split <;> simp

@[simp] theorem part_execRxFrameStart (hase : π ≠ .ase) (port : Nat) (window : List Byte) (frac : Nat) (holding : Bool) (s : State) :
    part π (after s (execRxFrameStart port window frac holding s)) = part π s := by simp [execRxFrameStart, hase]

@[simp] theorem part_obeyPause (s : State) (p i n : Nat) : part π (obeyPause s p i n) = part π s := by simp [obeyPause]

@[simp] theorem part_consumeControl (s : State) (p : Nat) (rx : Rx) (f : List Byte) : part π (consumeControl s p rx f) = part π s := by
  simp [consumeControl]

@[simp] theorem part_goodCounted (s : State) (p : Nat) (f : List Byte) : part π (goodCounted s p f) = part π s := by simp [goodCounted]

@[simp] theorem part_rxAccepted (s : State) (p i : Nat) (f : List Byte) :
    part π (rxAccepted s p i f) = part π s := by
  rw [rxAccepted]
  split <;> simp

@[simp] theorem part_rxEnds (s : State) (p : Nat) (rx : Rx) (f : List Byte) : part π (rxEnds s p rx f) = part π s := by simp [rxEnds]

@[simp] theorem part_execRxFrameEnd (port : Nat) (frame : List Byte) (s : State) :
    part π (after s (execRxFrameEnd port frame s)) = part π s := by
  rw [execRxFrameEnd]
  split <;> simp

@[simp] theorem part_drainHeld (f : Nat) (s : State) (n : Nat) : part π (drainHeld f s n) = part π s := by
  induction f generalizing s with
  | zero => rfl
  | succ f ih =>
    simp only [drainHeld]
    split
    · simp
    · split
      · simp [ih]
      · split <;> simp [ih]

@[simp] theorem part_execLmacDrainResume (hase : π ≠ .ase) (lmac : Nat) (s : State) :
    part π (after s (execLmacDrainResume lmac s)) = part π s := by simp [execLmacDrainResume, hase]

@[simp] theorem part_execPauseTimeExpiry (port state : Nat) (s : State) :
    part π (after s (execPauseTimeExpiry port state s)) = part π s := by
  rw [execPauseTimeExpiry]
  split <;> simp

@[simp] theorem part_execPauseResend (port state : Nat) (s : State) :
    part π (after s (execPauseResend port state s)) = part π s := by
  rw [execPauseResend]
  split <;> simp

@[simp] theorem part_execEggTimerFire (port state : Nat) (s : State) :
    part π (after s (execEggTimerFire port state s)) = part π s := by
  rw [execEggTimerFire]
  split <;> simp

@[simp] theorem part_execEggHoldEnd (port state : Nat) (s : State) :
    part π (after s (execEggHoldEnd port state s)) = part π s := by
  rw [execEggHoldEnd]
  split <;> simp

@[simp] theorem part_execPortTsFifoRead (client : Client) (port : Nat) (s : State) :
    part π (after s (execPortTsFifoRead client port s)) = part π s := by simp [execPortTsFifoRead]

@[simp] theorem part_execPortStatsReadClear (client : Client) (port counter : Nat) (s : State) :
    part π (after s (execPortStatsReadClear client port counter s)) = part π s := by simp [execPortStatsReadClear]

@[simp] theorem part_holdClients (s : State) (l : List Nat) (on : Bool) : part π (holdClients s l on) = part π s := by simp [holdClients]
@[simp] theorem part_startCalSwitch (p : Nat) (s : State) : part π ((startCalSwitch p s).getD s) = part π s := by simp [startCalSwitch]
@[simp] theorem part_calSwitchEnd (s : State) (p result : Nat) : part π (calSwitchEnd s p result) = part π s := by simp [calSwitchEnd]

@[simp] theorem part_execFlexeCalSwitch (client : Client) (port : Nat) (s : State) :
    part π (after s (execFlexeCalSwitch client port s)) = part π s := by simp [execFlexeCalSwitch]

@[simp] theorem part_execFlexeCalSwitchAck (port : Nat) (s : State) :
    part π (after s (execFlexeCalSwitchAck port s)) = part π s := by
  rw [execFlexeCalSwitchAck]
  split <;> simp

@[simp] theorem part_execFlexeCalSwitchTimeout (port : Nat) (s : State) :
    part π (after s (execFlexeCalSwitchTimeout port s)) = part π s := by
  rw [execFlexeCalSwitchTimeout]
  split <;> simp

@[simp] theorem part_execFlexeGroupFault (port : Nat) (s : State) : part π (after s (execFlexeGroupFault port s)) = part π s := by
  simp [execFlexeGroupFault]

@[simp] theorem part_wFlexeGroup (p v : Nat) (s : State) : part π ((wFlexeGroup p v s).getD s) = part π s := by simp [wFlexeGroup]

@[simp] theorem part_wFlexeCalendar (p : Nat) (b : List Byte) (s : State) : part π ((wFlexeCalendar p b s).getD s) = part π s := by
  simp [wFlexeCalendar]

@[simp] theorem part_wLanePrbs (hlanes : π ≠ .lanes) (l v : Nat) (s : State) :
    part π ((wLanePrbs l v s).getD s) = part π s := by
  simp only [wLanePrbs]
  repeat' split
  all_goals simp [hlanes]

@[simp] theorem part_wLaneLoopback (l v : Nat) (s : State) : part π ((wLaneLoopback l v s).getD s) = part π s := by simp [wLaneLoopback]

@[simp] theorem part_execLanePrbsModeWrite (hlanes : π ≠ .lanes) (client : Client) (lane value : Nat) (s : State) :
    part π (after s (execLanePrbsModeWrite client lane value s)) = part π s := by simp [execLanePrbsModeWrite, hlanes]

@[simp] theorem part_execLaneLoopbackWrite (client : Client) (lane value : Nat) (s : State) :
    part π (after s (execLaneLoopbackWrite client lane value s)) = part π s := by simp [execLaneLoopbackWrite]

@[simp] theorem part_execLanePrbsErrorsRead (client : Client) (lane errors : Nat) (s : State) :
    part π (after s (execLanePrbsErrorsRead client lane errors s)) = part π s := by simp [execLanePrbsErrorsRead]

@[simp] theorem part_lineWrite (hlanes : π ≠ .lanes) (k v : Nat) (s : State) :
    part π ((lineWrite k v s).getD s) = part π s := by
  generalize hr : lineWrite k v = r
  simp only [lineWrite] at hr
  split at hr <;> split at hr <;> subst hr
  all_goals simp [hlanes]

end Sys2Proof.Machine
end

section
/-! SUPPORT. Frame lemmas: the parts that the functions of reachability (R334 to R339) leave alone. -/

namespace Sys2Proof.Machine

variable {π : Part} {α β : Type}

@[simp] theorem part_setBundle (s : State) (b : Nat) (x : FBundle) : part π (setBundle s b x) = part π s := by simp [setBundle]
@[simp] theorem part_setFlane (s : State) (l : Nat) (x : FLane) : part π (setFlane s l x) = part π s := by simp [setFlane]
@[simp] theorem part_setDestRec (s : State) (d : Nat) (x : DestRec) : part π (setDestRec s d x) = part π s := by simp [setDestRec]
@[simp] theorem part_probeDest (s : State) (d : Nat) : part π (probeDest s d) = part π s := by simp [probeDest]
@[simp] theorem part_flushQueue (s : State) (q reason : Nat) : part π (flushQueue s q reason) = part π s := by simp [flushQueue]
@[simp] theorem part_dropWaiting (s : State) (d : Nat) : part π (dropWaiting s d) = part π s := by simp [dropWaiting]
@[simp] theorem part_enterDest (s : State) (d st : Nat) : part π (enterDest s d st) = part π s := by simp [enterDest]
@[simp] theorem part_routeChanged (s : State) (d : Nat) : part π (routeChanged s d) = part π s := by simp [routeChanged]
@[simp] theorem part_bundleDown (s : State) (b : Nat) : part π (bundleDown s b) = part π s := by simp [bundleDown]

end Sys2Proof.Machine
end

section
/-! SUPPORT. Frame lemmas: the parts that the bunting frames received (ch. 12) leave alone. -/

namespace Sys2Proof.Machine

variable {π : Part} {α β : Type}

@[simp] theorem part_touchPath (s : State) (b : Nat) : part π (touchPath s b) = part π s := by simp [touchPath]

@[simp] theorem part_sectionDefect (s : State) (l k : Nat) (on : Bool) : part π (sectionDefect s l k on) = part π s := by
  simp [sectionDefect]

@[simp] theorem part_runStep (s : State) (l k : Nat) (bad : Bool) (run : Nat) : part π (runStep s l k bad run).2 = part π s := by
  simp [runStep]

@[simp] theorem part_loseFrame (s : State) (l : Nat) : part π (loseFrame s l) = part π s := by simp [loseFrame]

@[simp] theorem part_execFecCodewordDecode (lane outcome : Nat) (s : State) :
    part π (after s (execFecCodewordDecode lane outcome s)) = part π s := by simp [execFecCodewordDecode]

@[simp] theorem part_interpret (s : State) (b mf : Nat) (w : Option Nat) : part π (interpret s b mf w).2 = part π s := by simp [interpret]
@[simp] theorem part_setBurgee (s : State) (b v : Nat) : part π (setBurgee s b v) = part π s := by simp [setBurgee]

@[simp] theorem part_bundleFrame (s : State) (b : Nat) :
    part π (bundleFrame s b) = part π s := by
  unfold bundleFrame
  extract_lets set lanes active good w s1 mfOf mf b1 s2 ptr r s3 keep restart s4 b2 s5 s6 m b3 x s7
  clear_value w m
  have h1 : part π s1 = part π s := by
    simp only [s1]
    split
    · refine part_foldl (fun t l => ?_) _ s
      split <;> simp
    · rfl
  have h2 : part π s2 = part π s1 := by simp [s2]
  have h3 : part π s3 = part π s2 := by simp [s3, r]
  have h4 : part π s4 = part π s3 := by simp [s4]
  have h5 : part π s5 = part π s4 := by simp [s5]
  have h6 : part π s6 = part π s5 := by
    simp only [s6]
    split <;> simp
  have h7 : part π s7 = part π s6 := by
    simp only [s7]
    split <;> simp
  simp [h7, h6, h5, h4, h3, h2, h1]

@[simp] theorem part_slotDone (s : State) (l mf : Nat) :
    part π (slotDone s l mf) = part π s := by
  simp only [slotDone]
  repeat' split
  all_goals simp

@[simp] theorem part_validFrame (s : State) (l : Nat) (f : List Byte) : part π (validFrame s l f) = part π s := by simp [validFrame]

@[simp] theorem part_framedFrame (s : State) (l skew : Nat) (f : List Byte) : part π (framedFrame s l skew f) = part π s := by
  simp [framedFrame]

@[simp] theorem part_gatherFrame (s : State) (l : Nat) : part π (gatherFrame s l) = part π s := by simp [gatherFrame]

@[simp] theorem part_execBuntingFrameReceive (lane offset skew : Nat) (frame : List Byte) (s : State) :
    part π (after s (execBuntingFrameReceive lane offset skew frame s)) = part π s := by simp [execBuntingFrameReceive]

@[simp] theorem part_pathOverhead (s : State) (b : Nat) (po : Nat) :
    part π (pathOverhead s b po) = part π s := by
  rw [pathOverhead]
  split <;> simp

@[simp] theorem part_containerFrame (s : State) (b n : Nat) (c : List Byte) : part π (containerFrame s b n c) = part π s := by
  simp [containerFrame]

@[simp] theorem part_execContainerFrameReceive (bundle : Nat) (s : State) :
    part π (after s (execContainerFrameReceive bundle s)) = part π s := by
  rw [execContainerFrameReceive]
  split
  · rfl
  · rw [after_next, part_containerFrame]
    exact part_foldl (fun t l => by simp) _ _

@[simp] theorem part_execFabricLaneSignalChange (lane : Nat) (signal : Bool) (s : State) :
    part π (after s (execFabricLaneSignalChange lane signal s)) = part π s := by simp [execFabricLaneSignalChange]

@[simp] theorem part_execLosClear (lane : Nat) (s : State) : part π (after s (execLosClear lane s)) = part π s := by simp [execLosClear]
@[simp] theorem part_execPmSecond (s : State) : part π (after s (execPmSecond s)) = part π s := by simp [execPmSecond]
@[simp] theorem part_wFlTest (k v : Nat) (s : State) : part π ((wFlTest k v s).getD s) = part π s := by simp [wFlTest]

@[simp] theorem part_execFabricPrbsLoopbackWrite (client : Client) (lane : Nat) (loopback : Bool) (value : Nat) (s : State) :
    part π (after s (execFabricPrbsLoopbackWrite client lane loopback value s)) = part π s := by simp [execFabricPrbsLoopbackWrite]

@[simp] theorem part_execFlPrbsErrorsRead (client : Client) (lane errors : Nat) (s : State) :
    part π (after s (execFlPrbsErrorsRead client lane errors s)) = part π s := by simp [execFlPrbsErrorsRead]

@[simp] theorem part_execPrbsCheckerLock (hlanes : π ≠ .lanes) (fabric : Bool) (lane : Nat) (s : State) :
    part π (after s (execPrbsCheckerLock fabric lane s)) = part π s := by simp [execPrbsCheckerLock, hlanes]

@[simp] theorem part_execPrbsLockLost (hlanes : π ≠ .lanes) (fabric : Bool) (lane errors : Nat) (s : State) :
    part π (after s (execPrbsLockLost fabric lane errors s)) = part π s := by simp [execPrbsLockLost, hlanes]

end Sys2Proof.Machine
end

section
/-! SUPPORT. Frame lemmas: the parts that lane sets and the bunting frames sent (R289 to R299, R311 to R317) leave alone. -/

namespace Sys2Proof.Machine

variable {π : Part} {α β : Type}

@[simp] theorem part_beginChange (s : State) (b mask : Nat) (job : Bool) : part π (beginChange s b mask job) = part π s := by
  simp [beginChange]

@[simp] theorem part_changeEnds (s : State) (b result : Nat) :
    part π (changeEnds s b result) = part π s := by
  rw [changeEnds]
  split <;> simp

@[simp] theorem part_startLaneSetChange (s : State) (b : Nat) : part π ((startLaneSetChange s b).getD s) = part π s := by
  simp [startLaneSetChange]

@[simp] theorem part_execFbLaneSetChange (client : Client) (bundle : Nat) (s : State) :
    part π (after s (execFbLaneSetChange client bundle s)) = part π s := by simp [execFbLaneSetChange]

@[simp] theorem part_execShedGovernor (bundle : Nat) (s : State) : part π (after s (execShedGovernor bundle s)) = part π s := by
  simp [execShedGovernor]

/-- A lane-set message that is taken leaves the part alone. -/
theorem part_of_takeMsg {s : State} {b ty : Nat} {x : LsMsg × State} (h : takeMsg s b ty = some x) : part π x.2 = part π s := by
  simp only [takeMsg] at h
  split at h
  · split at h <;> cases h
    simp
  · cases h

@[simp] theorem part_execLaneSetPropose (bundle : Nat) (s : State) :
    part π (after s (execLaneSetPropose bundle s)) = part π s := by
  simp only [execLaneSetPropose]
  split
  · rfl
  · rename_i h
    have hs := part_of_takeMsg (π := π) h
    repeat' split
    all_goals simp_all

@[simp] theorem part_execLaneSetAccept (bundle : Nat) (s : State) :
    part π (after s (execLaneSetAccept bundle s)) = part π s := by
  simp only [execLaneSetAccept]
  split
  · rfl
  · rename_i h
    have hs := part_of_takeMsg (π := π) h
    repeat' split
    all_goals simp_all

@[simp] theorem part_execLaneSetReject (bundle : Nat) (s : State) :
    part π (after s (execLaneSetReject bundle s)) = part π s := by
  simp only [execLaneSetReject]
  split
  · rfl
  · rename_i h
    have hs := part_of_takeMsg (π := π) h
    repeat' split
    all_goals simp_all

@[simp] theorem part_execLaneSetCommit (bundle : Nat) (s : State) :
    part π (after s (execLaneSetCommit bundle s)) = part π s := by
  simp only [execLaneSetCommit]
  split
  · rfl
  · rename_i h
    have hs := part_of_takeMsg (π := π) h
    repeat' split
    all_goals simp_all

@[simp] theorem part_execLaneSetRequest (bundle : Nat) (s : State) :
    part π (after s (execLaneSetRequest bundle s)) = part π s := by
  simp only [execLaneSetRequest]
  split
  · rfl
  · rename_i h
    have hs := part_of_takeMsg (π := π) h
    repeat' split
    all_goals simp_all

@[simp] theorem part_execLaneSetEffect (bundle : Nat) (transmit : Bool) (s : State) :
    part π (after s (execLaneSetEffect bundle transmit s)) = part π s := by
  simp only [execLaneSetEffect]
  repeat' split
  all_goals simp

@[simp] theorem part_execLaneSetTimeout (bundle : Nat) (transmit : Bool) (s : State) :
    part π (after s (execLaneSetTimeout bundle transmit s)) = part π s := by
  simp only [execLaneSetTimeout]
  repeat' split
  all_goals simp

@[simp] theorem part_execLaneQuiet (bundle : Nat) (s : State) :
    part π (after s (execLaneQuiet bundle s)) = part π s := by
  simp only [execLaneQuiet]
  split
  · rfl
  · split
    · rfl
    · split
      · refine (part_foldl (fun t i => ?_) _ _).trans (by simp)
        split <;> simp
      · simp

@[simp] theorem part_execLaneWake (lane : Nat) (s : State) : part π (after s (execLaneWake lane s)) = part π s := by simp [execLaneWake]

@[simp] theorem part_execLaneAutoRemove (lane : Nat) (s : State) :
    part π (after s (execLaneAutoRemove lane s)) = part π s := by
  rw [execLaneAutoRemove]
  split <;> simp

@[simp] theorem part_fillPlaces (n : Nat) (s : State) (b : Nat) : part π (fillPlaces n s b).2 = part π s := by
  induction n generalizing s with
  | zero => rfl
  | succ n ih => simp [fillPlaces, ih]

@[simp] theorem part_buildContainer (s : State) (b : Nat) : part π (buildContainer s b) = part π s := by simp [buildContainer]

@[simp] theorem part_sendUnits (k : Nat) (s : State) (b : Nat) : part π (sendUnits k s b).2 = part π s := by
  induction k generalizing s with
  | zero => rfl
  | succ k ih => simp [sendUnits, ih]

@[simp] theorem part_startMultiframe (s : State) (b : Nat) :
    part π (startMultiframe s b) = part π s := by
  simp only [startMultiframe]
  repeat' split
  all_goals simp

@[simp] theorem part_sendChunk (s : State) (b : Nat) :
    part π (sendChunk s b).2 = part π s := by
  simp only [sendChunk]
  repeat' split
  all_goals simp

@[simp] theorem part_laneFrame (s : State) (b l ptr just ls : Nat) (chunk neg body : List Byte) :
    part π (laneFrame s b l ptr just ls chunk neg body) = part π s := by simp [laneFrame]

@[simp] theorem part_execBuntingFrameSend (bundle : Nat) (lead : Int) (s : State) :
    part π (after s (execBuntingFrameSend bundle lead s)) = part π s := by
  unfold execBuntingFrameSend
  split
  · rfl
  · extract_lets s1 ft s2 x set lanes chunkLane c s3 next chunkOf locked ls y s4 free act v s5 z s6 n r
    have h1 : part π s1 = part π s := by
      simp only [s1]
      split <;> simp
    have h2 : part π s2 = part π s1 := by simp [s2]
    have h3 : part π s3 = part π s2 := by simp [s3, c]
    have hnext : ∀ t, part π (next t) = part π t := fun t => by simp [next]
    split
    · rw [after_next, hnext]
      refine (part_foldl (fun t l => part_laneFrame ..) _ _).trans ?_
      simp [s4, h3, h2, h1]
    · have h5 : part π s5 = part π s3 := by
        simp only [s5]
        split <;> simp
      have h6 : part π s6 = part π s5 := by simp [s6]
      rw [after_next, hnext]
      refine (part_foldl (fun t l => part_laneFrame ..) _ _).trans ?_
      simp [r, h6, h5, h3, h2, h1]

@[simp] theorem part_execMgmtChannelPacket (bundle : Nat) (s : State) :
    part π (after s (execMgmtChannelPacket bundle s)) = part π s := by
  rw [execMgmtChannelPacket]
  split <;> simp

@[simp] theorem part_execTimePllLock (s : State) : part π (after s (execTimePllLock s)) = part π s := by simp [execTimePllLock]
@[simp] theorem part_flWrite (k v : Nat) (s : State) : part π ((flWrite k v s).getD s) = part π s := by simp [flWrite]

end Sys2Proof.Machine
end

section
/-! SUPPORT. Frame lemmas: the parts that the pennants received (ch. 13) leave alone. -/

namespace Sys2Proof.Machine

variable {π : Part} {α β : Type}

@[simp] theorem part_takePlace (s : State) (b : Nat) (tys : List Nat) :
    part π (takePlace s b tys).2 = part π s := by
  simp only [takePlace]
  split
  · rfl
  · repeat' split
    all_goals simp

/-- What looking at the next place leaves, by what it came to. -/
theorem part_of_takePlace {s : State} {b : Nat} {tys : List Nat} {x : Option (List Byte) × State} (h : takePlace s b tys = x) :
    part π x.2 = part π s := h ▸ part_takePlace s b tys

/-- A spray that finds a bundle leaves the part alone. -/
theorem part_of_sprayLoop {f : Nat} {s : State} {ok : Nat → Bool} {x : Nat × State} (h : sprayLoop f s ok = some x) :
    part π x.2 = part π s := by
  induction f generalizing s with
  | zero => simp [sprayLoop] at h
  | succ f ih =>
    simp only [sprayLoop] at h
    split at h
    · cases h
      simp
    · exact (ih h).trans (by simp)

theorem part_of_spray {s : State} {d : Nat} {from' cls : Option Nat} {room : FBundle → Bool} {x : Nat × State}
    (h : spray s d from' cls room = some x) : part π x.2 = part π s := part_of_sprayLoop h

@[simp] theorem part_relay (s : State) (a : Nat) (p : List Byte) :
    part π (relay s a p) = part π s := by
  simp only [relay]
  split
  · simp
  · split
    · rename_i h
      rcases some_of_orElse h with h | h <;> split <;> simp [part_of_spray h]
    · split <;> simp

@[simp] theorem part_dropAssembly (s : State) (k reason : Nat) :
    part π (dropAssembly s k reason) = part π s := by
  simp only [dropAssembly]
  repeat' split
  all_goals simp

@[simp] theorem part_orphan (s : State) : part π (orphan s) = part π s := by simp [orphan]

@[simp] theorem part_finishForm (s : State) (k : Nat) :
    part π (finishForm s k) = part π s := by
  simp only [finishForm]
  repeat' split
  all_goals simp

@[simp] theorem part_beginForm (s : State) (k src seq : Nat) (mc : Bool) (form : List Byte) :
    part π (beginForm s k src seq mc form) = part π s := by simp [beginForm]

@[simp] theorem part_growForm (s : State) (k seq : Nat) (a : Assembly) (b : List Byte) :
    part π (growForm s k seq a b) = part π s := by
  rw [growForm]
  split <;> simp

@[simp] theorem part_segment (s : State) (k src seq : Nat) (mc : Bool) (pos : Nat) (b : List Byte) :
    part π (segment s k src seq mc pos b) = part π s := by
  simp only [segment]
  repeat' split
  all_goals simp

@[simp] theorem part_deliver (s : State) (src : Nat) (p : List Byte) :
    part π (deliver s src p) = part π s := by
  rw [deliver]
  split <;> simp

@[simp] theorem part_setCtx (s : State) (src : Nat) (c : RxCtx) : part π (setCtx s src c) = part π s := by simp [setCtx]

@[simp] theorem part_holdPennant (s : State) (src : Nat) (h : HeldPennant) : part π (holdPennant s src h) = part π s := by
  simp [holdPennant]

@[simp] theorem part_drainHeldPennants (f : Nat) (s : State) (src : Nat) :
    part π (drainHeldPennants f s src) = part π s := by
  induction f generalizing s with
  | zero => rfl
  | succ f ih =>
    simp only [drainHeldPennants]
    split <;> simp [ih]

@[simp] theorem part_declareLost (s : State) (src e : Nat) : part π (declareLost s src e) = part π s := by simp [declareLost]

@[simp] theorem part_judge (f : Nat) (s : State) (src : Nat) (h : HeldPennant) : part π (judge f s src h) = part π s := by
  induction f generalizing s with
  | zero => rfl
  | succ f ih => simp [judge, ih]

@[simp] theorem part_openCtx (s : State) (src e : Nat) : part π (openCtx s src e) = part π s := by simp [openCtx]

@[simp] theorem part_pairArrival (s : State) (src : Nat) (p : List Byte) : part π (pairArrival s src p) = part π s := by
  simp [pairArrival]

@[simp] theorem part_execDataPennantReceive (bundle : Nat) (s : State) :
    part π (after s (execDataPennantReceive bundle s)) = part π s := by
  simp only [execDataPennantReceive]
  split
  all_goals
    rename_i h
    have hs := part_of_takePlace (π := π) h
    repeat' split
    all_goals simp_all

@[simp] theorem part_execSequenceStartReceive (bundle : Nat) (s : State) :
    part π (after s (execSequenceStartReceive bundle s)) = part π s := by
  simp only [execSequenceStartReceive]
  split
  all_goals
    rename_i h
    have hs := part_of_takePlace (π := π) h
    repeat' split
    all_goals simp_all

@[simp] theorem part_execIdlePennantReceive (bundle : Nat) (s : State) :
    part π (after s (execIdlePennantReceive bundle s)) = part π s := by simp [execIdlePennantReceive]

@[simp] theorem part_execReorderTimeout (src : Nat) (s : State) :
    part π (after s (execReorderTimeout src s)) = part π s := by
  rw [execReorderTimeout]
  split <;> simp

@[simp] theorem part_execReassemblyTimeout (src : Nat) (group : Option Nat) (s : State) :
    part π (after s (execReassemblyTimeout src group s)) = part π s := by
  simp only [execReassemblyTimeout]
  split <;> simp

@[simp] theorem part_execMulticastPennantReceive (bundle : Nat) (s : State) :
    part π (after s (execMulticastPennantReceive bundle s)) = part π s := by
  simp only [execMulticastPennantReceive]
  split
  all_goals
    rename_i h
    have hs := part_of_takePlace (π := π) h
    repeat' split
    all_goals simp_all

@[simp] theorem part_sendControlPennant (s : State) (b : Nat) (p : List Byte) : part π (sendControlPennant s b p) = part π s := by
  simp [sendControlPennant]

@[simp] theorem part_execBeaconReceive (bundle : Nat) (s : State) :
    part π (after s (execBeaconReceive bundle s)) = part π s := by
  unfold execBeaconReceive
  split
  all_goals
    rename_i h
    have hs := part_of_takePlace (π := π) h
  · exact hs
  · extract_lets o r d s1 s2 y s3
    have h2 : part π s2 = part π s := by simpa [s2, s1] using hs
    split
    · simpa using hs
    · split
      · exact hs
      · split
        · refine (part_foldl (fun t b => ?_) _ _).trans (by simpa [s3] using h2)
          split <;> simp
        · exact h2

@[simp] theorem part_execBeaconSend (s : State) : part π (after s (execBeaconSend s)) = part π s := by simp [execBeaconSend]
@[simp] theorem part_missCheck (s : State) (d : Nat) : part π (missCheck s d) = part π s := by simp [missCheck]

@[simp] theorem part_execBeaconMissCheck (s : State) : part π (after s (execBeaconMissCheck s)) = part π s := by
  simp [execBeaconMissCheck]

@[simp] theorem part_execProbeSend (dest : Nat) (s : State) : part π (after s (execProbeSend dest s)) = part π s := by
  simp [execProbeSend]

@[simp] theorem part_execProbeUnanswered (dest : Nat) (s : State) :
    part π (after s (execProbeUnanswered dest s)) = part π s := by
  rw [execProbeUnanswered]
  split <;> simp

@[simp] theorem part_takeEntries (s : State) (p : List Byte) (kinds : List Nat) : part π (takeEntries s p kinds) = part π s := by
  simp [takeEntries]

@[simp] theorem part_execCreditRequestPennantReceive (bundle : Nat) (s : State) :
    part π (after s (execCreditRequestPennantReceive bundle s)) = part π s := by
  simp only [execCreditRequestPennantReceive]
  split
  all_goals
    rename_i h
    have hs := part_of_takePlace (π := π) h
    repeat' split
    all_goals simp_all

@[simp] theorem part_execCreditGrantPennantReceive (bundle : Nat) (s : State) :
    part π (after s (execCreditGrantPennantReceive bundle s)) = part π s := by
  simp only [execCreditGrantPennantReceive]
  split
  all_goals
    rename_i h
    have hs := part_of_takePlace (π := π) h
    repeat' split
    all_goals simp_all

/-- A credit entry that is taken leaves the part alone. -/
theorem part_of_takeEntry {s : State} {kind : Nat} {x : Nat × Nat × State} (h : takeEntry s kind = some x) :
    part π x.2.2 = part π s := by
  simp only [takeEntry] at h
  split at h
  · cases h
  · split at h <;> cases h
    simp

@[simp] theorem part_returnBytes (f : Nat) (s : State) (d prt cls n : Nat) :
    part π (returnBytes f s d prt cls n) = part π s := by
  induction f generalizing s n with
  | zero => rfl
  | succ f ih => simp [returnBytes, ih]

@[simp] theorem part_execCreditRequestEntry (s : State) :
    part π (after s (execCreditRequestEntry s)) = part π s := by
  simp only [execCreditRequestEntry]
  split
  · rfl
  · rename_i h
    have hs := part_of_takeEntry (π := π) h
    repeat' split
    all_goals simp_all

@[simp] theorem part_setVoq (s : State) (q : Nat) (v : Voq) : part π (setVoq s q v) = part π s := by simp [setVoq]

@[simp] theorem part_execCreditGrantEntry (s : State) :
    part π (after s (execCreditGrantEntry s)) = part π s := by
  simp only [execCreditGrantEntry]
  split
  · rfl
  · rename_i h
    have hs := part_of_takeEntry (π := π) h
    repeat' split
    all_goals simp_all

@[simp] theorem part_execCreditReturnEntry (s : State) :
    part π (after s (execCreditReturnEntry s)) = part π s := by
  simp only [execCreditReturnEntry]
  split
  · rfl
  · rename_i h
    have hs := part_of_takeEntry (π := π) h
    simp_all

@[simp] theorem part_execCreditBusyEntry (s : State) :
    part π (after s (execCreditBusyEntry s)) = part π s := by
  simp only [execCreditBusyEntry]
  split
  · rfl
  · rename_i h
    have hs := part_of_takeEntry (π := π) h
    repeat' split
    all_goals simp_all

@[simp] theorem part_execProbeEntry (s : State) :
    part π (after s (execProbeEntry s)) = part π s := by
  simp only [execProbeEntry]
  split
  · rfl
  · rename_i h
    have hs := part_of_takeEntry (π := π) h
    simp_all

@[simp] theorem part_execProbeAnswerEntry (s : State) :
    part π (after s (execProbeAnswerEntry s)) = part π s := by
  simp only [execProbeAnswerEntry]
  split
  · rfl
  · rename_i h
    have hs := part_of_takeEntry (π := π) h
    repeat' split
    all_goals simp_all

@[simp] theorem part_execCreditBusyHoldoffEnd (queue : Nat) (s : State) :
    part π (after s (execCreditBusyHoldoffEnd queue s)) = part π s := by
  rw [execCreditBusyHoldoffEnd]
  split <;> simp

@[simp] theorem part_execCreditReturnTimer (queue : Nat) (s : State) :
    part π (after s (execCreditReturnTimer queue s)) = part π s := by
  rw [execCreditReturnTimer]
  split <;> simp

@[simp] theorem part_execCreditRequestTimeout (queue : Nat) (s : State) :
    part π (after s (execCreditRequestTimeout queue s)) = part π s := by simp [execCreditRequestTimeout]

@[simp] theorem part_execGrantIssue (port : Nat) (s : State) :
    part π (after s (execGrantIssue port s)) = part π s := by
  rw [execGrantIssue]
  split <;> simp

end Sys2Proof.Machine
end

section
/-! SUPPORT. Frame lemmas: the parts that the Sieve's functions (ch. 4) leave alone. -/

namespace Sys2Proof.Machine

variable {π : Part} {α β : Type}

@[simp] theorem part_parseCounted (s : State) (hv : Nat) : part π (parseCounted s hv) = part π s := by simp [parseCounted]

end Sys2Proof.Machine
end

section
/-! SUPPORT. Frame lemmas: the parts that the samplers (R370, R374) leave alone. -/

namespace Sys2Proof.Machine

variable {π : Part} {α β : Type}

@[simp] theorem part_samplerTakes (s : State) (n : Nat) : part π (samplerTakes s n).2 = part π s := by simp [samplerTakes]

@[simp] theorem part_sampleCandidate (s : State) (sel : Nat) (tx : Bool) (inPort egress cls size : Nat) (data : List Byte) :
    part π (sampleCandidate s sel tx inPort egress cls size data) = part π s := by simp [sampleCandidate]

@[simp] theorem part_sojourn (s : State) (p out ts : Nat) : part π (sojourn s p out ts) = part π s := by simp [sojourn]

end Sys2Proof.Machine
end

section
/-! SUPPORT. Frame lemmas: the parts that a pass and the writes of the classification stores (ch. 5) leave alone. -/

namespace Sys2Proof.Machine

variable {π : Part} {α β : Type}

@[simp] theorem part_inSlot (e : Nat) (rule : State → Applied) (s : State) (h : part π ((rule s).getD s) = part π s) :
    part π ((inSlot e rule s).getD s) = part π s := by
  simp only [inSlot]
  split
  · rfl
  · exact h

@[simp] theorem part_clsWritten (s : State) (t e : Nat) (l : List Nat) : part π (clsWritten s t e l) = part π s := by simp [clsWritten]

@[simp] theorem part_wStagePlan (e : Nat) (b : List Byte) (s : State) : part π ((wStagePlan e b s).getD s) = part π s := by
  simp [wStagePlan]

@[simp] theorem part_wDirectTable (hcls : π ≠ .cls) (e : Nat) (b : List Byte) (s : State) :
    part π ((wDirectTable e b s).getD s) = part π s := by simp [wDirectTable, hcls]

@[simp] theorem part_wRewriteProfiles (hcls : π ≠ .cls) (e : Nat) (b : List Byte) (s : State) :
    part π ((wRewriteProfiles e b s).getD s) = part π s := by simp [wRewriteProfiles, hcls]

@[simp] theorem part_wCompatBuckets (v : Nat) (s : State) : part π ((wCompatBuckets v s).getD s) = part π s := by simp [wCompatBuckets]
@[simp] theorem part_startSwap (hcls : π ≠ .cls) (s : State) : part π ((startSwap s).getD s) = part π s := by simp [startSwap, hcls]

@[simp] theorem part_execClsEpochSwap (hcls : π ≠ .cls) (client : Client) (s : State) :
    part π (after s (execClsEpochSwap client s)) = part π s := by simp [execClsEpochSwap, hcls]

@[simp] theorem part_execEpochRetired (s : State) : part π (after s (execEpochRetired s)) = part π s := by simp [execEpochRetired]

@[simp] theorem part_execClsStagePlanWrite (client : Client) (slot : Nat) (value : List Byte) (s : State) :
    part π (after s (execClsStagePlanWrite client slot value s)) = part π s := by simp [execClsStagePlanWrite]

@[simp] theorem part_execClsDirectTableWrite (hcls : π ≠ .cls) (client : Client) (slot : Nat) (value : List Byte) (s : State) :
    part π (after s (execClsDirectTableWrite client slot value s)) = part π s := by simp [execClsDirectTableWrite, hcls]

@[simp] theorem part_execClsRewriteProfilesWrite (hcls : π ≠ .cls) (client : Client) (slot : Nat) (value : List Byte) (s : State) :
    part π (after s (execClsRewriteProfilesWrite client slot value s)) = part π s := by simp [execClsRewriteProfilesWrite, hcls]

@[simp] theorem part_execClsCompatBucketsWrite (client : Client) (value : Nat) (s : State) :
    part π (after s (execClsCompatBucketsWrite client value s)) = part π s := by simp [execClsCompatBucketsWrite]

@[simp] theorem part_execLearnNoticesRead (hcls : π ≠ .cls) (client : Client) (s : State) :
    part π (after s (execLearnNoticesRead client s)) = part π s := by simp [execLearnNoticesRead, hcls]

@[simp] theorem part_passPut (x : Pass) (f : Fld) (v : Nat) : part π (Pass.put x f v).s = part π x.s := by simp [Pass.put]
@[simp] theorem part_passDrop (x : Pass) (i reason : Nat) : part π (Pass.drop x i reason).s = part π x.s := by simp [Pass.drop]
@[simp] theorem part_passPunt (x : Pass) (i trap : Nat) : part π (Pass.punt x i trap).s = part π x.s := by simp [Pass.punt]

@[simp] theorem part_learn (hcls : π ≠ .cls) (s : State) (pipe fid sa port kind stored : Nat) :
    part π (learn s pipe fid sa port kind stored) = part π s := by simp -proj [learn, hcls]

@[simp] theorem part_passNotice (hcls : π ≠ .cls) (x : Pass) (kind stored : Nat) : part π (Pass.notice x kind stored).s = part π x.s := by
  simp [Pass.notice, hcls]

@[simp] theorem part_passSourceCheck (hcls : π ≠ .cls) (x : Pass) (i o : Nat) (miss : Bool) :
    part π (Pass.sourceCheck x i o miss).s = part π x.s := by
  simp only [Pass.sourceCheck]
  repeat' split
  all_goals simp [hcls]

@[simp] theorem part_passTtl (x : Pass) (i o : Nat) :
    part π (Pass.ttl x i o).s = part π x.s := by
  simp only [Pass.ttl]
  repeat' split
  all_goals simp

@[simp] theorem part_passNextHop (x : Pass) (i : Nat) (nh : Option Resolved) :
    part π (Pass.nextHop x i nh).s = part π x.s := by
  simp only [Pass.nextHop]
  repeat' split
  all_goals simp

@[simp] theorem part_passAct (hcls : π ≠ .cls) (x : Pass) (i a : Nat) (nh : Option Resolved) (miss : Bool) :
    part π (Pass.act x i a nh miss).s = part π x.s := by
  simp only [Pass.act]
  repeat' split
  all_goals simp [hcls]

theorem part_foldl_pass {f : Pass → α → Pass} (h : ∀ x a, part π (f x a).s = part π x.s) (l : List α) (x : Pass) :
    part π (l.foldl f x).s = part π x.s :=
  List.foldlRecOn l f (motive := fun y => part π y.s = part π x.s) rfl fun y hy a _ => (h y a).trans hy

@[simp] theorem part_passActs (hcls : π ≠ .cls) (x : Pass) (i : Nat) (l : List Nat) (nh : Option Resolved) (miss : Bool) :
    part π (Pass.acts x i l nh miss).s = part π x.s :=
  part_foldl_pass (fun x a => by simp [hcls]) l x

@[simp] theorem part_passCount (x : Pass) :
    part π (Pass.count x).s = part π x.s := by
  simp only [Pass.count]
  repeat' split
  all_goals simp

@[simp] theorem part_passDirect (x : Pass) (b : List Byte) (e d pipe : Nat) (src : Sources) :
    part π (Pass.direct x b e d pipe src).2.s = part π x.s := by
  rw [Pass.direct]
  split <;> simp

@[simp] theorem part_passMeter (hcls : π ≠ .cls) (x : Pass) (i d : Nat) (true' : Bool) :
    part π (Pass.meter x i d true').s = part π x.s := by
  simp only [Pass.meter]
  split
  · rfl
  · split
    all_goals
      rename_i h
      have hs := part_of_meterPacket (π := π) h
    · simp_all
    · simp_all
    · split <;> simp_all

@[simp] theorem part_passPlanLost (x : Pass) (e i d pipe : Nat) : part π (Pass.planLost x e i d pipe).2.s = part π x.s := by
  simp [Pass.planLost]

@[simp] theorem part_passStage (hcls : π ≠ .cls) (x : Pass) (b : List Byte) (e i pipe : Nat) (true' : Bool) :
    part π (Pass.stage x b e i pipe true').s = part π x.s := by
  simp only [Pass.stage]
  repeat' split
  all_goals simp [hcls]

@[simp] theorem part_lkpLookup (x : Pass) (b : List Byte) (d pipe : Nat) : part π (lkpLookup x b d pipe).2 = part π x.s := by
  simp [lkpLookup]

@[simp] theorem part_slotLookup (x : Pass) (b : List Byte) (e res pipe : Nat) :
    part π (slotLookup x b e res pipe).2.s = part π x.s := by
  simp only [slotLookup]
  repeat' split
  all_goals simp

@[simp] theorem part_aseLookup (x : Pass) (b : List Byte) (e pipe : Nat) :
    part π (aseLookup x b e pipe).2.s = part π x.s := by
  simp only [aseLookup]
  repeat' split
  all_goals simp

@[simp] theorem part_passRun (hcls : π ≠ .cls) (x : Pass) (b : List Byte) (e pipe : Nat) (true' : Bool) :
    part π (Pass.run x b e pipe true').s = part π x.s := by
  unfold Pass.run
  extract_lets stages x0 ra rb rc found x1
  have hstage : ∀ (y : Pass) i, part π (if y.ended then y else y.stage b e i pipe true').s = part π y.s := fun y i => by
    split <;> simp [hcls]
  have h0 : part π x0.s = part π x.s := part_foldl_pass hstage _ x
  have h1 : part π x1.s = part π x0.s := by
    refine (part_foldl_pass (fun y a => ?_) found _).trans (by simp [rc, rb, ra])
    split <;> simp [hcls]
  exact (part_foldl_pass hstage _ x1).trans (h1.trans h0)

@[simp] theorem part_passEnds (x : Pass) (i : Nat) (p : Pkt) (d : Nat) : part π (passEnds x i p d) = part π x.s := by simp [passEnds]
@[simp] theorem part_malformedEnds (x : Pass) (i : Nat) (p : Pkt) : part π (malformedEnds x i p) = part π x.s := by simp [malformedEnds]
@[simp] theorem part_passOutcome (x : Pass) (i : Nat) (p : Pkt) : part π (passOutcome x i p) = part π x.s := by simp [passOutcome]

@[simp] theorem part_runPass (hcls : π ≠ .cls) (s : State) (i : Nat) (p : Pkt) : part π (runPass s i p) = part π s := by
  simp [runPass, hcls]

@[simp] theorem part_firstPassSampled (s : State) (i : Nat) (p : Pkt) : part π (firstPassSampled s i p) = part π s := by
  simp [firstPassSampled]

@[simp] theorem part_execIngressPass (hcls : π ≠ .cls) (pkt : Nat) (s : State) :
    part π (after s (execIngressPass pkt s)) = part π s := by
  rw [execIngressPass]
  split <;> simp [hcls]

@[simp] theorem part_clsWrite (k v : Nat) (s : State) :
    part π ((clsWrite k v s).getD s) = part π s := by
  simp only [clsWrite]
  repeat' split
  all_goals simp

@[simp] theorem part_parserWrite (k v : Nat) (s : State) : part π ((parserWrite k v s).getD s) = part π s := by simp [parserWrite]

@[simp] theorem part_clsCommit (hcls : π ≠ .cls) (k : Nat) (b : List Byte) (s : State) :
    part π ((clsCommit k b s).getD s) = part π s := by
  simp only [clsCommit]
  repeat' split
  all_goals simp [hcls]

end Sys2Proof.Machine
end

section
/-! SUPPORT. Frame lemmas: the parts that the functions of the egress half (R127, R128) leave alone. -/

namespace Sys2Proof.Machine

variable {π : Part} {α β : Type}

@[simp] theorem part_passEgressStage (hcls : π ≠ .cls) (x : Pass) (b : List Byte) (e i prt d : Nat) :
    part π (Pass.egressStage x b e i prt d).s = part π x.s := by
  simp only [Pass.egressStage]
  repeat' split
  all_goals simp [hcls]

@[simp] theorem part_passEgressStages (hcls : π ≠ .cls) (x : Pass) (b : List Byte) (e prt d : Nat) :
    part π (Pass.egressStages x b e prt d).s = part π x.s := by
  refine part_foldl_pass (fun x i => ?_) _ x
  split <;> simp [hcls]

@[simp] theorem part_egressMirror (s : State) (o : Out) (p : Pkt) (n prt d : Nat) (hdr : List Byte) (skip : Nat) :
    part π (egressMirror s o p n prt d hdr skip) = part π s := by
  simp only [egressMirror]
  split
  · rfl
  · split
    · simp
    · split
      · simp
      · rename_i h
        have hs := part_of_copyPacket (π := π) h
        repeat' split
        all_goals simp_all

@[simp] theorem part_egressPunt (s : State) (i : Nat) (o : Out) (d trap : Nat) :
    part π (egressPunt s i o d trap) = part π s := by
  rw [egressPunt]
  split <;> simp

@[simp] theorem part_ptpAction (s : State) (prt hv want : Nat) : part π (ptpAction s prt hv want).2 = part π s := by simp [ptpAction]

@[simp] theorem part_egressRun (hcls : π ≠ .cls) (s : State) (i : Nat) (o : Out) (p : Pkt) : part π (egressRun s i o p) = part π s := by
  simp [egressRun, hcls]

@[simp] theorem part_execEgressRun (hcls : π ≠ .cls) (out : Nat) (s : State) :
    part π (after s (execEgressRun out s)) = part π s := by
  simp only [execEgressRun]
  repeat' split
  all_goals simp [hcls]

end Sys2Proof.Machine
end

section
/-! SUPPORT. Frame lemmas: the parts that the transmit MAC's functions (R67 to R69) leave alone. -/

namespace Sys2Proof.Machine

variable {π : Part} {α β : Type}

@[simp] theorem part_execTxFrameStart (port frac : Nat) (s : State) :
    part π (after s (execTxFrameStart port frac s)) = part π s := by
  simp only [execTxFrameStart]
  repeat' split
  all_goals simp

@[simp] theorem part_captureStamp (s : State) (prt : Nat) (e : List Byte) : part π (captureStamp s prt e) = part π s := by
  simp [captureStamp]

@[simp] theorem part_applyPtp (s : State) (prt : Nat) (t : Tx) (o : Out) (f : List Byte) :
    part π (applyPtp s prt t o f).2 = part π s := by simp [applyPtp]

@[simp] theorem part_macFree (s : State) (prt i : Nat) : part π (macFree s prt i) = part π s := by simp [macFree]

@[simp] theorem part_txAborted (s : State) (prt i : Nat) (o : Out) (p : Pkt) (body : List Byte) (reason : Nat) :
    part π (txAborted s prt i o p body reason) = part π s := by simp [txAborted]

@[simp] theorem part_txSent (s : State) (prt i : Nat) (t : Tx) (o : Out) (body : List Byte) :
    part π (txSent s prt i t o body) = part π s := by simp [txSent]

@[simp] theorem part_txEnds (s : State) (prt : Nat) (t : Tx) (o : Out) (p : Pkt) : part π (txEnds s prt t o p) = part π s := by
  simp [txEnds]

@[simp] theorem part_execTxFrameEnd (port : Nat) (s : State) :
    part π (after s (execTxFrameEnd port s)) = part π s := by
  simp only [execTxFrameEnd]
  repeat' split
  all_goals simp

end Sys2Proof.Machine
end

section
/-! SUPPORT. Frame lemmas: the parts that the pennants sent (ch. 13) leave alone. -/

namespace Sys2Proof.Machine

variable {π : Part} {α β : Type}

@[simp] theorem part_execCreditPennantSend (dest : Nat) (s : State) :
    part π (after s (execCreditPennantSend dest s)) = part π s := by
  simp only [execCreditPennantSend]
  split
  · rfl
  · split
    · rfl
    · split
      · simp
      · split
        · rfl
        · rename_i h
          have hs := part_of_spray (π := π) h
          simp_all

@[simp] theorem part_endOut (s : State) (i : Nat) :
    part π (endOut s i) = part π s := by
  simp only [endOut]
  repeat' split
  all_goals simp

@[simp] theorem part_afterCut (s : State) (c : Cut) :
    part π (afterCut s c) = part π s := by
  rw [afterCut]
  split <;> simp

/-- A sequence start that may go leaves the part alone. -/
theorem part_of_sendStart {s t : State} {d : Nat} (h : sendStart s d = some t) : part π t = part π s := by
  simp only [sendStart] at h
  split at h
  · cases h
    rfl
  · split at h <;> cases h
    rw [part_setDestRec]
    exact part_foldl (fun t b => by simp) _ s

@[simp] theorem part_sendUnicast (s : State) (q : Nat) (o : Out) (line : List (Nat × Out)) :
    part π (sendUnicast s q o line) = part π s := by
  simp only [sendUnicast]
  split
  · simp
  · split
    · rfl
    · split
      · rfl
      · split
        · rfl
        · split
          · rfl
          · rename_i h1 _ _ _ h2
            have hs := part_of_sendStart (π := π) h1
            have ht := part_of_spray (π := π) h2
            simp_all

@[simp] theorem part_sendMulticast (s : State) (i : Nat) (o : Out) :
    part π (sendMulticast s i o) = part π s := by
  rw [sendMulticast]
  split <;> simp

@[simp] theorem part_execPennantSend (queue : Nat) (s : State) :
    part π (after s (execPennantSend queue s)) = part π s := by
  rw [execPennantSend]
  split <;> simp

@[simp] theorem part_ftWrite (k v : Nat) (s : State) :
    part π ((ftWrite k v s).getD s) = part π s := by
  rw [ftWrite]
  split <;> simp

@[simp] theorem part_ftCommit (k : Nat) (b : List Byte) (s : State) : part π ((ftCommit k b s).getD s) = part π s := by simp [ftCommit]

end Sys2Proof.Machine
end

section
/-! SUPPORT. Frame lemmas: the parts that the functions of observability (ch. 14) leave alone. -/

namespace Sys2Proof.Machine

variable {π : Part} {α β : Type}

@[simp] theorem part_ledgerResidue (s : State) : part π (ledgerResidue s) = part π s := by simp [ledgerResidue]

@[simp] theorem part_execLedgerEpochBoundary (s : State) : part π (after s (execLedgerEpochBoundary s)) = part π s := by
  simp [execLedgerEpochBoundary]

@[simp] theorem part_wPerfSelect (n v : Nat) (s : State) : part π ((wPerfSelect n v s).getD s) = part π s := by simp [wPerfSelect]
@[simp] theorem part_wPerfCounter (n v : Nat) (s : State) : part π ((wPerfCounter n v s).getD s) = part π s := by simp [wPerfCounter]

@[simp] theorem part_execPerfSelectWrite (client : Client) (counter value : Nat) (s : State) :
    part π (after s (execPerfSelectWrite client counter value s)) = part π s := by simp [execPerfSelectWrite]

@[simp] theorem part_execPerfCounterWrite (client : Client) (counter value : Nat) (s : State) :
    part π (after s (execPerfCounterWrite client counter value s)) = part π s := by simp [execPerfCounterWrite]

@[simp] theorem part_execPerfCounterWrap (counter : Nat) (s : State) : part π (after s (execPerfCounterWrap counter s)) = part π s := by
  simp [execPerfCounterWrap]

@[simp] theorem part_execBwWindowEnd (port : Nat) (s : State) : part π (after s (execBwWindowEnd port s)) = part π s := by
  simp [execBwWindowEnd]

@[simp] theorem part_wBwWindowK (p v : Nat) (s : State) : part π ((wBwWindowK p v s).getD s) = part π s := by simp [wBwWindowK]

@[simp] theorem part_execBwWindowKWrite (client : Client) (port value : Nat) (s : State) :
    part π (after s (execBwWindowKWrite client port value s)) = part π s := by simp [execBwWindowKWrite]

@[simp] theorem part_execQwmValueRead (client : Client) (s : State) : part π (after s (execQwmValueRead client s)) = part π s := by
  simp [execQwmValueRead]

@[simp] theorem part_execHistSample (monitor : Nat) (s : State) : part π (after s (execHistSample monitor s)) = part π s := by
  simp [execHistSample]

@[simp] theorem part_wHistClear (m v : Nat) (s : State) : part π ((wHistClear m v s).getD s) = part π s := by simp [wHistClear]
@[simp] theorem part_wHistMonitor (m v : Nat) (s : State) : part π ((wHistMonitor m v s).getD s) = part π s := by simp [wHistMonitor]

@[simp] theorem part_execHistClear (client : Client) (monitor value : Nat) (s : State) :
    part π (after s (execHistClear client monitor value s)) = part π s := by simp [execHistClear]

@[simp] theorem part_wSojClear (p v : Nat) (s : State) : part π ((wSojClear p v s).getD s) = part π s := by simp [wSojClear]

@[simp] theorem part_execSojClear (client : Client) (port value : Nat) (s : State) :
    part π (after s (execSojClear client port value s)) = part π s := by simp [execSojClear]

@[simp] theorem part_wMirrorSession (n : Nat) (b : List Byte) (s : State) : part π ((wMirrorSession n b s).getD s) = part π s := by
  simp [wMirrorSession]

@[simp] theorem part_execMirrorSessionWrite (client : Client) (session : Nat) (value : List Byte) (s : State) :
    part π (after s (execMirrorSessionWrite client session value s)) = part π s := by simp [execMirrorSessionWrite]

@[simp] theorem part_placeOwn (s : State) (origin : Origin) (q : Nat) (desc : Nat) (data : List Byte) :
    part π (placeOwn s origin q desc data) = part π s := by
  rw [placeOwn]
  split <;> simp

@[simp] theorem part_sendEnsign (s : State) (sets : List Byte) : part π (sendEnsign s sets) = part π s := by simp [sendEnsign]

@[simp] theorem part_execEnsignMessageSend (s : State) :
    part π (after s (execEnsignMessageSend s)) = part π s := by
  rw [execEnsignMessageSend]
  split <;> simp

@[simp] theorem part_execEnsignTemplateSend (s : State) : part π (after s (execEnsignTemplateSend s)) = part π s := by
  simp [execEnsignTemplateSend]

@[simp] theorem part_execEnsignSnapshot (s : State) : part π (after s (execEnsignSnapshot s)) = part π s := by simp [execEnsignSnapshot]
@[simp] theorem part_wEnsEnable (v : Nat) (s : State) : part π ((wEnsEnable v s).getD s) = part π s := by simp [wEnsEnable]

@[simp] theorem part_execEnsEnableWrite (client : Client) (value : Nat) (s : State) :
    part π (after s (execEnsEnableWrite client value s)) = part π s := by simp [execEnsEnableWrite]

@[simp] theorem part_ensWritten (s : State) (a : Applied) : part π ((ensWritten a).getD s) = part π (a.getD s) := by
  cases a <;> simp [ensWritten, Applied.bind]

@[simp] theorem part_obsWrite (k v : Nat) (s : State) :
    part π ((obsWrite k v s).getD s) = part π s := by
  generalize hr : obsWrite k v s = r
  simp only [obsWrite] at hr
  repeat' split at hr
  all_goals
    subst hr
    simp

@[simp] theorem part_obsCommit (k : Nat) (b : List Byte) (s : State) :
    part π ((obsCommit k b s).getD s) = part π s := by
  generalize hr : obsCommit k b s = r
  simp only [obsCommit] at hr
  repeat' split at hr
  all_goals
    subst hr
    simp

end Sys2Proof.Machine
end

section
/-! SUPPORT. Frame lemmas: the parts that the event system's commands and entries (R379 to R389) leave alone. -/

namespace Sys2Proof.Machine

variable {π : Part} {α β : Type}

@[simp] theorem part_wCause (c : Client) (k v : Nat) (s : State) :
    part π ((wCause c k v s).getD s) = part π s := by
  rw [wCause]
  split <;> simp

@[simp] theorem part_execCauseEnableWrite (client : Client) (entry value : Nat) (s : State) :
    part π (after s (execCauseEnableWrite client entry value s)) = part π s := by
  rw [execCauseEnableWrite]
  split <;> simp

@[simp] theorem part_execCauseClear (client : Client) (entry value : Nat) (s : State) :
    part π (after s (execCauseClear client entry value s)) = part π s := by
  rw [execCauseClear]
  split <;> simp

@[simp] theorem part_clearSticky (s : State) (src : Nat) : part π (clearSticky s src) = part π s := by simp [clearSticky]
@[simp] theorem part_wSticky (src v : Nat) (s : State) : part π ((wSticky src v s).getD s) = part π s := by simp [wSticky]

@[simp] theorem part_wGroupSticky (c : Client) (g v : Nat) (s : State) : part π ((wGroupSticky c g v s).getD s) = part π s := by
  simp [wGroupSticky]

@[simp] theorem part_setMasks (s : State) (l : List (Nat × Nat)) : part π (setMasks s l) = part π s := by simp [setMasks]
@[simp] theorem part_wMask (src v : Nat) (s : State) : part π ((wMask src v s).getD s) = part π s := by simp [wMask]
@[simp] theorem part_wGroupMask (g v : Nat) (s : State) : part π ((wGroupMask g v s).getD s) = part π s := by simp [wGroupMask]
@[simp] theorem part_wRoute (c : Client) (src v : Nat) (s : State) : part π ((wRoute c src v s).getD s) = part π s := by simp [wRoute]
@[simp] theorem part_wTestRaise (v : Nat) (s : State) : part π ((wTestRaise v s).getD s) = part π s := by simp [wTestRaise]

@[simp] theorem part_execEvtStickyClear (client : Client) (source value : Nat) (s : State) :
    part π (after s (execEvtStickyClear client source value s)) = part π s := by simp [execEvtStickyClear]

@[simp] theorem part_execEvtGroupStickyClear (client : Client) (group value : Nat) (s : State) :
    part π (after s (execEvtGroupStickyClear client group value s)) = part π s := by simp [execEvtGroupStickyClear]

@[simp] theorem part_execEvtMaskWrite (client : Client) (source value : Nat) (s : State) :
    part π (after s (execEvtMaskWrite client source value s)) = part π s := by simp [execEvtMaskWrite]

@[simp] theorem part_execEvtGroupMaskWrite (client : Client) (group value : Nat) (s : State) :
    part π (after s (execEvtGroupMaskWrite client group value s)) = part π s := by simp [execEvtGroupMaskWrite]

@[simp] theorem part_execEvtRouteWrite (client : Client) (source value : Nat) (s : State) :
    part π (after s (execEvtRouteWrite client source value s)) = part π s := by simp [execEvtRouteWrite]

@[simp] theorem part_execEvtTestRaise (client : Client) (value : Nat) (s : State) :
    part π (after s (execEvtTestRaise client value s)) = part π s := by simp [execEvtTestRaise]

@[simp] theorem part_execEvtFwQueueHighRead (client : Client) (s : State) :
    part π (after s (execEvtFwQueueHighRead client s)) = part π s := by simp [execEvtFwQueueHighRead]

@[simp] theorem part_gatherEvent (s : State) (e : FwEvent) (i : Nat) : part π (gatherEvent s e i) = part π s := by simp [gatherEvent]

@[simp] theorem part_execFwEventTake (s : State) :
    part π (after s (execFwEventTake s)) = part π s := by
  rw [execFwEventTake]
  split <;> simp

@[simp] theorem part_releaseVector (s : State) (fn v : Nat) : part π (releaseVector s fn v) = part π s := by simp [releaseVector]

@[simp] theorem part_execMsixControlWrite (fn field vector : Nat) (on : Bool) (s : State) :
    part π (after s (execMsixControlWrite fn field vector on s)) = part π s := by simp [execMsixControlWrite]

@[simp] theorem part_evtWrite (c : Client) (k v : Nat) (s : State) :
    part π ((evtWrite c k v s).getD s) = part π s := by
  simp only [evtWrite]
  repeat' split
  all_goals simp

end Sys2Proof.Machine
end

section
/-! SUPPORT. Frame lemmas: the parts that the host side's functions (ch. 17) leave alone. -/

namespace Sys2Proof.Machine

variable {π : Part} {α β : Type}

@[simp] theorem part_setFnReg (s : State) (fn k v : Nat) : part π (setFnReg s fn k v) = part π s := by simp [setFnReg]
@[simp] theorem part_fnCause (s : State) (fn pfBit vfBit : Nat) : part π (fnCause s fn pfBit vfBit) = part π s := by simp [fnCause]

@[simp] theorem part_setRing (hhost : π ≠ .host) (s : State) (fn : Nat) (inj : Bool) (r : Nat) (x : Ring) :
    part π (setRing s fn inj r x) = part π s := by simp [setRing, hhost]

@[simp] theorem part_hostWrite (s : State) (fn a : Nat) (b : List Byte) : part π (hostWrite s fn a b) = part π s := by simp [hostWrite]

@[simp] theorem part_ringFinish (hhost : π ≠ .host) (s : State) (fn : Nat) (inj : Bool) (r count : Nat) :
    part π (ringFinish s fn inj r count) = part π s := by simp [ringFinish, hhost]

@[simp] theorem part_doorbell (hhost : π ≠ .host) (s : State) (fn : Nat) (inj : Bool) (r v : Nat) :
    part π (doorbell s fn inj r v) = part π s := by simp [doorbell, hhost]

@[simp] theorem part_execPuntDoorbell (hhost : π ≠ .host) (fn ring value : Nat) (s : State) :
    part π (after s (execPuntDoorbell fn ring value s)) = part π s := by simp [execPuntDoorbell, hhost]

@[simp] theorem part_execInjectDoorbell (hhost : π ≠ .host) (fn ring value : Nat) (s : State) :
    part π (after s (execInjectDoorbell fn ring value s)) = part π s := by simp [execInjectDoorbell, hhost]

@[simp] theorem part_wRingCtrl (hhost : π ≠ .host) (fn : Nat) (inj : Bool) (r v : Nat) (s : State) :
    part π ((wRingCtrl fn inj r v s).getD s) = part π s := by simp [wRingCtrl, hhost]

@[simp] theorem part_wRing (hhost : π ≠ .host) (fn k v : Nat) (s : State) :
    part π ((wRing fn k v s).getD s) = part π s := by
  unfold wRing
  extract_lets r inj
  split
  · simp [hhost]
  · split <;> simp

@[simp] theorem part_execRingConfigWrite (hhost : π ≠ .host) (client : Client) (entry value : Nat) (s : State) :
    part π (after s (execRingConfigWrite client entry value s)) = part π s := by
  rw [execRingConfigWrite]
  split <;> simp [hhost]

@[simp] theorem part_ringMessage (s : State) (fn v : Nat) : part π (ringMessage s fn v) = part π s := by simp [ringMessage]

@[simp] theorem part_execRingInterrupt (hhost : π ≠ .host) (fn : Nat) (inj : Bool) (ring : Nat) (s : State) :
    part π (after s (execRingInterrupt fn inj ring s)) = part π s := by simp [execRingInterrupt, hhost]

@[simp] theorem part_wPuntBind (hhost : π ≠ .host) (v : Nat) (s : State) : part π ((wPuntBind v s).getD s) = part π s := by
  simp [wPuntBind, hhost]

@[simp] theorem part_execHostPuntBindWrite (hhost : π ≠ .host) (client : Client) (value : Nat) (s : State) :
    part π (after s (execHostPuntBindWrite client value s)) = part π s := by simp [execHostPuntBindWrite, hhost]

@[simp] theorem part_ringFull (s : State) (o fn : Nat) : part π (ringFull s o fn) = part π s := by simp [ringFull]
@[simp] theorem part_dropPunt (hhost : π ≠ .host) (s : State) (i : Nat) : part π (dropPunt s i) = part π s := by simp [dropPunt, hhost]
@[simp] theorem part_puntDone (s : State) (i : Nat) (o : Out) : part π (puntDone s i o) = part π s := by simp [puntDone]

@[simp] theorem part_puntData (hhost : π ≠ .host) (s : State) (i : Nat) (c : PuntCtx) (p : Pkt) (n : Nat) :
    part π (puntData s i c p n) = part π s := by simp [puntData, hhost]

@[simp] theorem part_puntWrite (hhost : π ≠ .host) (s : State) (i : Nat) :
    part π (puntWrite s i) = part π s := by
  simp only [puntWrite]
  repeat' split
  all_goals simp [hhost]

@[simp] theorem part_puntStart (hhost : π ≠ .host) (s : State) (i : Nat) (o : Out) (p : Pkt) (addrs : List Nat) :
    part π (puntStart s i o p addrs) = part π s := by simp [puntStart, hhost]

@[simp] theorem part_execPuntDma (hhost : π ≠ .host) (out : Nat) (addrs : List Nat) (writes : Nat) (s : State) :
    part π (after s (execPuntDma out addrs writes s)) = part π s := by
  simp only [execPuntDma]
  repeat' split
  all_goals simp [hhost]

@[simp] theorem part_injectFinish (hhost : π ≠ .host) (s : State) (i : Nat) (j : Inject) : part π (injectFinish s i j) = part π s := by
  simp [injectFinish, hhost]

@[simp] theorem part_injectRefused (hhost : π ≠ .host) (s : State) (i : Nat) (j : Inject) : part π (injectRefused s i j) = part π s := by
  simp [injectRefused, hhost]

@[simp] theorem part_issueReads (hhost : π ≠ .host) (s : State) (i : Nat) (j : Inject) (l : List (Nat × Nat × Nat)) :
    part π (issueReads s i j l) = part π s := by simp [issueReads, hhost]

@[simp] theorem part_injectFetch (hhost : π ≠ .host) (s : State) (fn r : Nat) (l : List Nat) :
    part π (injectFetch s fn r l) = part π s := by
  simp only [injectFetch]
  split
  · rfl
  · split
    · rfl
    · split
      · simp [hhost]
      · split
        · simp [hhost]
        · split
          · rfl
          · split
            · rename_i h
              have hs := part_of_takeUnits (π := π) h
              simp_all
            · rfl

@[simp] theorem part_execInjectFetch (hhost : π ≠ .host) (fn ring : Nat) (descs : List (List Byte)) (s : State) :
    part π (after s (execInjectFetch fn ring descs s)) = part π s := by simp [execInjectFetch, hhost]

@[simp] theorem part_injectFailed (hhost : π ≠ .host) (s : State) (i : Nat) (j : Inject) : part π (injectFailed s i j) = part π s := by
  simp [injectFailed, hhost]

@[simp] theorem part_staleCompletion (s : State) : part π (staleCompletion s) = part π s := by simp [staleCompletion]

@[simp] theorem part_execHostReadCompletion (hhost : π ≠ .host) (tag : Nat) (ok : Bool) (data : List Byte) (s : State) :
    part π (after s (execHostReadCompletion tag ok data s)) = part π s := by
  simp only [execHostReadCompletion]
  repeat' split
  all_goals simp [hhost]

@[simp] theorem part_execHostCompletionTimeout (hhost : π ≠ .host) (tag : Nat) (s : State) :
    part π (after s (execHostCompletionTimeout tag s)) = part π s := by
  simp only [execHostCompletionTimeout]
  repeat' split
  all_goals simp [hhost]

@[simp] theorem part_injectBuild (hhost : π ≠ .host) (s : State) (i : Nat) (j : Inject) : part π (injectBuild s i j) = part π s := by
  simp [injectBuild, hhost]

@[simp] theorem part_execInjectBuild (hhost : π ≠ .host) (inject : Nat) (s : State) :
    part π (after s (execInjectBuild inject s)) = part π s := by
  rw [execInjectBuild]
  split <;> simp [hhost]

@[simp] theorem part_wOdGrant (v : Nat) (b : List Byte) (s : State) : part π ((wOdGrant v b s).getD s) = part π s := by simp [wOdGrant]

@[simp] theorem part_execVfOdGrantWrite (client : Client) (vf : Nat) (value : List Byte) (s : State) :
    part π (after s (execVfOdGrantWrite client vf value s)) = part π s := by simp [execVfOdGrantWrite]

@[simp] theorem part_wDirtyRegions (v : Nat) (b : List Byte) (s : State) : part π ((wDirtyRegions v b s).getD s) = part π s := by
  simp [wDirtyRegions]

@[simp] theorem part_overrideOff (hlanes : π ≠ .lanes) (k : Nat) (s : State) : part π ((overrideOff k s).getD s) = part π s := by
  simp [overrideOff, hlanes]

@[simp] theorem part_overridesOff (hclk : π ≠ .clk) (hlanes : π ≠ .lanes) (s : State) : part π (overridesOff s) = part π s := by
  simp [overridesOff, hclk, hlanes]

@[simp] theorem part_fnStop (hhost : π ≠ .host) (s : State) (fn : Nat) : part π (fnStop s fn) = part π s := by simp [fnStop, hhost]

@[simp] theorem part_fnDefaults (hhost : π ≠ .host) (s : State) (fn : Nat) : part π (fnDefaults s fn) = part π s := by
  simp [fnDefaults, hhost]

@[simp] theorem part_vfResetDone (hhost : π ≠ .host) (s : State) (v : Nat) : part π (vfResetDone s v) = part π s := by
  simp [vfResetDone, hhost]

@[simp] theorem part_vfResetBegin (hhost : π ≠ .host) (s : State) (v : Nat) : part π (vfResetBegin s v) = part π s := by
  simp [vfResetBegin, hhost]

@[simp] theorem part_execVfFlr (hclk : π ≠ .clk) (hlanes : π ≠ .lanes) (hhost : π ≠ .host) (vf : Nat) (complete : Bool) (s : State) :
    part π (after s (execVfFlr vf complete s)) = part π s := by simp [execVfFlr, hclk, hlanes, hhost]

@[simp] theorem part_execVfReset (hclk : π ≠ .clk) (hlanes : π ≠ .lanes) (hhost : π ≠ .host) (vf : Nat) (turn : JobOp) (s : State) :
    part π (after s (execVfReset vf turn s)) = part π s := by
  simp only [execVfReset]
  split <;> simp [hclk, hlanes, hhost]

@[simp] theorem part_resetVfs (hhost : π ≠ .host) (s : State) : part π (resetVfs s) = part π s := by simp [resetVfs, hhost]

@[simp] theorem part_execVfEnableClear (hclk : π ≠ .clk) (hlanes : π ≠ .lanes) (hhost : π ≠ .host) (s : State) :
    part π (after s (execVfEnableClear s)) = part π s := by simp [execVfEnableClear, hclk, hlanes, hhost]

@[simp] theorem part_execVfEnableSet (count : Nat) (s : State) : part π (after s (execVfEnableSet count s)) = part π s := by
  simp [execVfEnableSet]

@[simp] theorem part_resetFunctions (hclk : π ≠ .clk) (hlanes : π ≠ .lanes) (hhost : π ≠ .host) (s : State) (kind : Nat) :
    part π (resetFunctions s kind) = part π s := by simp [resetFunctions, hclk, hlanes, hhost]

@[simp] theorem part_execPfFlr (hclk : π ≠ .clk) (hlanes : π ≠ .lanes) (hhost : π ≠ .host) (s : State) :
    part π (after s (execPfFlr s)) = part π s := by simp [execPfFlr, hclk, hlanes, hhost]

@[simp] theorem part_setHostLink (s : State) (v : Nat) : part π (setHostLink s v) = part π s := by simp [setHostLink]

@[simp] theorem part_execPcieHotReset (hclk : π ≠ .clk) (hlanes : π ≠ .lanes) (hhost : π ≠ .host) (s : State) :
    part π (after s (execPcieHotReset s)) = part π s := by simp [execPcieHotReset, hclk, hlanes, hhost]

@[simp] theorem part_execPcieLinkChange (hclk : π ≠ .clk) (hlanes : π ≠ .lanes) (hhost : π ≠ .host) (up : Bool) (rate width : Nat)
    (s : State) :
    part π (after s (execPcieLinkChange up rate width s)) = part π s := by simp [execPcieLinkChange, hclk, hlanes, hhost]

@[simp] theorem part_exportBegin (hhost : π ≠ .host) (s : State) (fn : Nat) : part π (exportBegin s fn) = part π s := by
  simp [exportBegin, hhost]

@[simp] theorem part_exportStep (hhost : π ≠ .host) (s : State) (fn : Nat) :
    part π (exportStep s fn) = part π s := by
  rw [exportStep]
  split <;> simp [hhost]

@[simp] theorem part_execCounterExport (hhost : π ≠ .host) (fn writes : Nat) (s : State) :
    part π (after s (execCounterExport fn writes s)) = part π s := by simp [execCounterExport, hhost]

@[simp] theorem part_wWindow (k v n limit : Nat) (s : State) : part π ((wWindow k v n limit s).getD s) = part π s := by simp [wWindow]

@[simp] theorem part_hostEntryWrite (hhost : π ≠ .host) (c : Client) (k v : Nat) (s : State) :
    part π ((hostEntryWrite c k v s).getD s) = part π s := by
  simp only [hostEntryWrite]
  repeat' split
  all_goals simp [hhost]

@[simp] theorem part_hostCommit (k : Nat) (b : List Byte) (s : State) :
    part π ((hostCommit k b s).getD s) = part π s := by
  rw [hostCommit]
  split <;> simp

end Sys2Proof.Machine
end

section
/-! SUPPORT. Frame lemmas: the parts that the clock islands' functions (ch. 2) leave alone. -/

namespace Sys2Proof.Machine

variable {π : Part} {α β : Type}

@[simp] theorem part_setIsl (hclk : π ≠ .clk) (s : State) (n : Nat) (i : Isl) : part π (setIsl s n i) = part π s := by simp [setIsl, hclk]
@[simp] theorem part_perfCycles (s : State) (code inst n : Nat) : part π (perfCycles s code inst n) = part π s := by simp [perfCycles]

@[simp] theorem part_islStart (hclk : π ≠ .clk) (s : State) (n step : Nat) : part π (islStart s n step) = part π s := by
  simp [islStart, hclk]

@[simp] theorem part_islStop (hclk : π ≠ .clk) (s : State) (n : Nat) : part π (islStop s n) = part π s := by simp [islStop, hclk]

@[simp] theorem part_governed (hclk : π ≠ .clk) (s : State) (n busy total : Nat) : part π (governed s n busy total) = part π s := by
  simp [governed, hclk]

@[simp] theorem part_governorInterval (hclk : π ≠ .clk) (s : State) (n busy total : Nat) :
    part π (governorInterval s n busy total) = part π s := by simp [governorInterval, hclk]

@[simp] theorem part_execGovernorInterval (hclk : π ≠ .clk) (island busy total : Nat) (s : State) :
    part π (after s (execGovernorInterval island busy total s)) = part π s := by simp [execGovernorInterval, hclk]

@[simp] theorem part_islWake (hclk : π ≠ .clk) (s : State) (n : Nat) : part π (islWake s n) = part π s := by simp [islWake, hclk]

@[simp] theorem part_execCrossing (hclk : π ≠ .clk) (island occupied : Nat) (late : Bool) (s : State) :
    part π (after s (execCrossing island occupied late s)) = part π s := by simp [execCrossing, hclk]

@[simp] theorem part_execIslandModeWrite (client : Client) (island : Nat) (floor : Bool) (value : Nat) (s : State) :
    part π (after s (execIslandModeWrite client island floor value s)) = part π s := by simp [execIslandModeWrite]

@[simp] theorem part_wPinAll (v : Nat) (s : State) : part π ((wPinAll v s).getD s) = part π s := by simp [wPinAll]

@[simp] theorem part_execPinAllScalableWrite (client : Client) (value : Nat) (s : State) :
    part π (after s (execPinAllScalableWrite client value s)) = part π s := by simp [execPinAllScalableWrite]

@[simp] theorem part_execTimeConfigWrite (hclk : π ≠ .clk) (value : Nat) (s : State) :
    part π (after s (execTimeConfigWrite value s)) = part π s := by simp [execTimeConfigWrite, hclk]

@[simp] theorem part_islWrite (k v : Nat) (s : State) :
    part π ((islWrite k v s).getD s) = part π s := by
  rw [islWrite]
  split <;> simp

end Sys2Proof.Machine
end

section
/-! SUPPORT. Frame lemmas: the parts that power, resets and start-up (ch. 19) leave alone. -/

namespace Sys2Proof.Machine

variable {π : Part} {α β : Type}

@[simp] theorem part_regionBroken (s : State) : part π (regionBroken s) = part π s := by simp [regionBroken]
@[simp] theorem part_setTargets (hpwr : π ≠ .pwr) (s : State) : part π (setTargets s) = part π s := by simp [setTargets, hpwr]

@[simp] theorem part_avsCommand (hpwr : π ≠ .pwr) (s : State) (rail : Nat) (ack : Bool) :
    part π (avsCommand s rail ack) = part π s := by
  simp only [avsCommand]
  repeat' split
  all_goals simp [hpwr]

@[simp] theorem part_execAvsEvaluate (hpwr : π ≠ .pwr) (rail : Nat) (ack : Bool) (s : State) :
    part π (after s (execAvsEvaluate rail ack s)) = part π s := by simp [execAvsEvaluate, hpwr]

@[simp] theorem part_execFuseSenseComplete (hpwr : π ≠ .pwr) (s : State) : part π (after s (execFuseSenseComplete s)) = part π s := by
  simp [execFuseSenseComplete, hpwr]

@[simp] theorem part_execLoaderSectorCheck (hfw : π ≠ .fw) (hpwr : π ≠ .pwr) (sectorOk : Bool) (repaired : Nat) (d2dOk : Bool)
    (s : State) :
    part π (after s (execLoaderSectorCheck sectorOk repaired d2dOk s)) = part π s := by simp [execLoaderSectorCheck, hfw, hpwr]

@[simp] theorem part_gpioDrive (hio : π ≠ .io) (s : State) : part π (gpioDrive s) = part π s := by simp [gpioDrive, hio]
@[simp] theorem part_loadStore (s : State) : part π (loadStore s) = part π s := by simp [loadStore]

@[simp] theorem part_applyStore (hclk : π ≠ .clk) (hio : π ≠ .io) (s : State) : part π (applyStore s) = part π s := by
  simp [applyStore, hclk, hio]

@[simp] theorem part_bringUp (hpwr : π ≠ .pwr) (s : State) : part π (bringUp s) = part π s := by simp [bringUp, hpwr]

@[simp] theorem part_execSettingsReload (hclk : π ≠ .clk) (hpwr : π ≠ .pwr) (hio : π ≠ .io) (s : State) :
    part π (after s (execSettingsReload s)) = part π s := by simp [execSettingsReload, hclk, hpwr, hio]

@[simp] theorem part_flushTx (s : State) (p : Nat) :
    part π (flushTx s p) = part π s := by
  simp only [flushTx]
  repeat' split
  all_goals simp

@[simp] theorem part_unbindVoq (s : State) (q : Nat) : part π (unbindVoq s q) = part π s := by simp [unbindVoq]
@[simp] theorem part_flushPackets (s : State) : part π (flushPackets s) = part π s := by simp [flushPackets]
@[simp] theorem part_rebuildStores (s : State) : part π (rebuildStores s) = part π s := by simp [rebuildStores]
@[simp] theorem part_clearFaults (s : State) : part π (clearFaults s) = part π s := by simp [clearFaults]
@[simp] theorem part_fabricSessionsOver (s : State) : part π (fabricSessionsOver s) = part π s := by simp [fabricSessionsOver]
@[simp] theorem part_dpBegin (hpwr : π ≠ .pwr) (s : State) : part π (dpBegin s) = part π s := by simp [dpBegin, hpwr]

@[simp] theorem part_dpEnd (hclk : π ≠ .clk) (hlanes : π ≠ .lanes) (hpwr : π ≠ .pwr) (s : State) : part π (dpEnd s) = part π s := by
  simp [dpEnd, hclk, hlanes, hpwr]

@[simp] theorem part_execDatapathReset (hclk : π ≠ .clk) (hlanes : π ≠ .lanes) (hpwr : π ≠ .pwr) (turn : JobOp) (s : State) :
    part π (after s (execDatapathReset turn s)) = part π s := by
  simp only [execDatapathReset]
  split <;> simp [hclk, hlanes, hpwr]

@[simp] theorem part_startIslReset (hpwr : π ≠ .pwr) (s : State) : part π ((startIslReset s).getD s) = part π s := by
  simp [startIslReset, hpwr]

@[simp] theorem part_islResetEnd (hclk : π ≠ .clk) (hpwr : π ≠ .pwr) (s : State) :
    part π (islResetEnd s) = part π s := by
  rw [islResetEnd]
  split <;> simp [hclk, hpwr]

@[simp] theorem part_execIslandReset (hclk : π ≠ .clk) (hpwr : π ≠ .pwr) (turn : JobOp) (s : State) :
    part π (after s (execIslandReset turn s)) = part π s := by
  simp only [execIslandReset]
  split <;> simp [hclk, hpwr]

@[simp] theorem part_endRangeWork (s : State) : part π (endRangeWork s) = part π s := by simp [endRangeWork]
@[simp] theorem part_entryBegin (hpwr : π ≠ .pwr) (s : State) : part π (entryBegin s) = part π s := by simp [entryBegin, hpwr]
@[simp] theorem part_fabricDark (s : State) : part π (fabricDark s) = part π s := by simp [fabricDark]
@[simp] theorem part_goDark (hpwr : π ≠ .pwr) (s : State) : part π (goDark s) = part π s := by simp [goDark, hpwr]
@[simp] theorem part_stacksRest (s : State) : part π (stacksRest s) = part π s := by simp [stacksRest]

@[simp] theorem part_islandsRest (hclk : π ≠ .clk) (hpwr : π ≠ .pwr) (s : State) : part π (islandsRest s) = part π s := by
  simp [islandsRest, hclk, hpwr]

@[simp] theorem part_entryEnd (hpwr : π ≠ .pwr) (s : State) : part π (entryEnd s) = part π s := by simp [entryEnd, hpwr]

@[simp] theorem part_entryStep (hclk : π ≠ .clk) (hpwr : π ≠ .pwr) (s : State) :
    part π (entryStep s) = part π s := by
  rw [entryStep]
  split <;> simp [hclk, hpwr]

@[simp] theorem part_startEntry (hpwr : π ≠ .pwr) (s : State) : part π ((startEntry s).getD s) = part π s := by simp [startEntry, hpwr]

@[simp] theorem part_execRetentionEnter (hclk : π ≠ .clk) (hpwr : π ≠ .pwr) (turn : JobOp) (s : State) :
    part π (after s (execRetentionEnter turn s)) = part π s := by
  simp only [execRetentionEnter]
  split <;> simp [hclk, hpwr]

@[simp] theorem part_startExit (hpwr : π ≠ .pwr) (s : State) : part π ((startExit s).getD s) = part π s := by simp [startExit, hpwr]

@[simp] theorem part_exitEnd (hclk : π ≠ .clk) (hlanes : π ≠ .lanes) (hpwr : π ≠ .pwr) (s : State) : part π (exitEnd s) = part π s := by
  simp [exitEnd, hclk, hlanes, hpwr]

@[simp] theorem part_execRetentionExit (hclk : π ≠ .clk) (hlanes : π ≠ .lanes) (hpwr : π ≠ .pwr) (turn : JobOp) (s : State) :
    part π (after s (execRetentionExit turn s)) = part π s := by
  simp only [execRetentionExit]
  split <;> simp [hclk, hlanes, hpwr]

@[simp] theorem part_execPowerEstimateUpdate (s : State) : part π (after s (execPowerEstimateUpdate s)) = part π s := by
  simp [execPowerEstimateUpdate]

@[simp] theorem part_thermalEntry (hpwr : π ≠ .pwr) (s : State) : part π (thermalEntry s) = part π s := by simp [thermalEntry, hpwr]
@[simp] theorem part_tempActs (hpwr : π ≠ .pwr) (s : State) : part π (tempActs s) = part π s := by simp [tempActs, hpwr]

@[simp] theorem part_execTempRead (hpwr : π ≠ .pwr) (sensors diodes : List Nat) (s : State) :
    part π (after s (execTempRead sensors diodes s)) = part π s := by simp [execTempRead, hpwr]

@[simp] theorem part_lineSignalLost (s : State) (l : Nat) :
    part π (lineSignalLost s l) = part π s := by
  rw [lineSignalLost]
  split <;> simp

@[simp] theorem part_fabricSignalLost (s : State) (l : Nat) : part π (fabricSignalLost s l) = part π s := by simp [fabricSignalLost]
@[simp] theorem part_timeUnlocked (hio : π ≠ .io) (s : State) : part π (timeUnlocked s) = part π s := by simp [timeUnlocked, hio]

@[simp] theorem part_execRefclkLoss (hio : π ≠ .io) (clock : Nat) (s : State) : part π (after s (execRefclkLoss clock s)) = part π s := by
  simp [execRefclkLoss, hio]

@[simp] theorem part_pwrWrite (k v : Nat) (s : State) : part π ((pwrWrite k v s).getD s) = part π s := by simp [pwrWrite]

@[simp] theorem part_pwrStart (hpwr : π ≠ .pwr) (k : Nat) (s : State) : part π ((pwrStart k s).getD s) = part π s := by
  simp [pwrStart, hpwr]

end Sys2Proof.Machine
end

section
/-! SUPPORT. Frame lemmas: the parts that the counted writes (R399 to R401) leave alone. -/

namespace Sys2Proof.Machine

variable {π : Part} {α β : Type}

@[simp] theorem part_cwBegin (c : Client) (k : Nat) (b : List Byte) (s : State) : part π ((cwBegin c k b s).getD s) = part π s := by
  simp [cwBegin]

@[simp] theorem part_wDeviceId (c : Client) (v : Nat) (s : State) : part π ((wDeviceId c v s).getD s) = part π s := by simp [wDeviceId]

@[simp] theorem part_wRollbackFloor (c : Client) (v : Nat) (s : State) : part π ((wRollbackFloor c v s).getD s) = part π s := by
  simp [wRollbackFloor]

@[simp] theorem part_wDeviceKey (c : Client) (b : List Byte) (s : State) : part π ((wDeviceKey c b s).getD s) = part π s := by
  simp [wDeviceKey]

@[simp] theorem part_cwWrite (c : Client) (k v : Nat) (s : State) :
    part π ((cwWrite c k v s).getD s) = part π s := by
  simp only [cwWrite]
  repeat' split
  all_goals simp

@[simp] theorem part_execCountedWrite (client : Client) (entry value : Nat) (s : State) :
    part π (after s (execCountedWrite client entry value s)) = part π s := by simp [execCountedWrite]

@[simp] theorem part_execFtDeviceIdWrite (client : Client) (value : Nat) (s : State) :
    part π (after s (execFtDeviceIdWrite client value s)) = part π s := by simp [execFtDeviceIdWrite]

@[simp] theorem part_execFwRollbackFloorWrite (client : Client) (value : Nat) (s : State) :
    part π (after s (execFwRollbackFloorWrite client value s)) = part π s := by simp [execFwRollbackFloorWrite]

@[simp] theorem part_cwEffect (hclk : π ≠ .clk) (hlanes : π ≠ .lanes) (hpwr : π ≠ .pwr) (s : State) (b : Burn) :
    part π (cwEffect s b) = part π s := by simp [cwEffect, hclk, hlanes, hpwr]

@[simp] theorem part_execCountedWriteComplete (hclk : π ≠ .clk) (hlanes : π ≠ .lanes) (hpwr : π ≠ .pwr) (entry : Nat) (s : State) :
    part π (after s (execCountedWriteComplete entry s)) = part π s := by
  rw [execCountedWriteComplete]
  split <;> simp [hclk, hlanes, hpwr]

@[simp] theorem part_closeSessions (s : State) : part π (closeSessions s) = part π s := by simp [closeSessions]
@[simp] theorem part_keyResponse (s : State) : part π (keyResponse s) = part π s := by simp [keyResponse]

@[simp] theorem part_execSynDeviceKeyWrite (client : Client) (value : List Byte) (s : State) :
    part π (after s (execSynDeviceKeyWrite client value s)) = part π s := by simp [execSynDeviceKeyWrite]

end Sys2Proof.Machine
end

section
/-! SUPPORT. Frame lemmas: the parts that the functions of firmware and its images (ch. 18) leave alone. -/

namespace Sys2Proof.Machine

variable {π : Part} {α β : Type}

@[simp] theorem part_appliesBack (hfw : π ≠ .fw) (s : State) :
    part π (appliesBack s) = part π s := by
  refine (part_foldl (fun t i => ?_) _ _).trans (by simp [hfw])
  split <;> simp

theorem pick_fw_io (hfw : π ≠ .fw) (hio : π ≠ .io) (s : State) (x : FwState) (y : IoState) :
    π.pick s.time s.timeOffset s.lkp s.ase s.cls s.clk s.lanes s.host x s.pwr y = part π s := by
  cases π <;> simp_all [Part.pick, part]

@[simp] theorem part_mgmtRestart (hclk : π ≠ .clk) (hlanes : π ≠ .lanes) (hfw : π ≠ .fw) (hio : π ≠ .io) (s : State) (cause : Nat) :
    part π (mgmtRestart s cause) = part π s := by
  unfold mgmtRestart
  extract_lets s1 s2 d l i s3 s4
  have h2 : part π s2 = part π s := by simp [s2, s1]
  have h3 : part π s3 = part π s2 := by rw [part_mk, pick_fw_io hfw hio]
  simp [s4, h3, h2, hclk, hlanes]

@[simp] theorem part_afterResponse (hclk : π ≠ .clk) (hlanes : π ≠ .lanes) (hfw : π ≠ .fw) (hio : π ≠ .io) (s : State) :
    part π (afterResponse s) = part π s := by simp [afterResponse, hclk, hlanes, hfw, hio]

@[simp] theorem part_wFwRestart (hfw : π ≠ .fw) (v : Nat) (s : State) : part π ((wFwRestart v s).getD s) = part π s := by
  simp [wFwRestart, hfw]

@[simp] theorem part_execFwRestart (hclk : π ≠ .clk) (hlanes : π ≠ .lanes) (hfw : π ≠ .fw) (hio : π ≠ .io) (client : Client) (value : Nat)
    (s : State) :
    part π (after s (execFwRestart client value s)) = part π s := by simp [execFwRestart, hclk, hlanes, hfw, hio]

@[simp] theorem part_execMgmtRestartLFall (hclk : π ≠ .clk) (hlanes : π ≠ .lanes) (hfw : π ≠ .fw) (hio : π ≠ .io) (s : State) :
    part π (after s (execMgmtRestartLFall s)) = part π s := by simp [execMgmtRestartLFall, hclk, hlanes, hfw, hio]

@[simp] theorem part_execMgmtRestartLRise (hfw : π ≠ .fw) (s : State) : part π (after s (execMgmtRestartLRise s)) = part π s := by
  simp [execMgmtRestartLRise, hfw]

@[simp] theorem part_execFwWatchdogExpiry (hclk : π ≠ .clk) (hlanes : π ≠ .lanes) (hfw : π ≠ .fw) (hio : π ≠ .io) (s : State) :
    part π (after s (execFwWatchdogExpiry s)) = part π s := by simp [execFwWatchdogExpiry, hclk, hlanes, hfw, hio]

@[simp] theorem part_enterRecovery (hfw : π ≠ .fw) (s : State) :
    part π (enterRecovery s) = part π s := by
  rw [enterRecovery]
  split <;> simp [hfw]

@[simp] theorem part_execLoaderBoot (hfw : π ≠ .fw) (hpwr : π ≠ .pwr) (readOk : Bool) (image : List Byte) (s : State) :
    part π (after s (execLoaderBoot readOk image s)) = part π s := by
  simp only [execLoaderBoot]
  repeat' split
  all_goals simp [hfw, hpwr]

@[simp] theorem part_eraseStore (s : State) : part π (eraseStore s) = part π s := by simp [eraseStore]
@[simp] theorem part_firmwareStarts (hfw : π ≠ .fw) (s : State) : part π (firmwareStarts s) = part π s := by simp [firmwareStarts, hfw]

@[simp] theorem part_execFirmwareStart (hfw : π ≠ .fw) (hpwr : π ≠ .pwr) (ready : Bool) (s : State) :
    part π (after s (execFirmwareStart ready s)) = part π s := by simp [execFirmwareStart, hfw, hpwr]

@[simp] theorem part_wStaged (b : List Byte) (s : State) : part π ((wStaged b s).getD s) = part π s := by simp [wStaged]

@[simp] theorem part_execFwStagedWrite (client : Client) (value : List Byte) (s : State) :
    part π (after s (execFwStagedWrite client value s)) = part π s := by simp [execFwStagedWrite]

@[simp] theorem part_execFwStagedVerify (s : State) : part π (after s (execFwStagedVerify s)) = part π s := by simp [execFwStagedVerify]
@[simp] theorem part_beginInstall (hfw : π ≠ .fw) (s : State) : part π (beginInstall s) = part π s := by simp [beginInstall, hfw]
@[simp] theorem part_installBroken (s : State) : part π (installBroken s) = part π s := by simp [installBroken]

@[simp] theorem part_installSector (hclk : π ≠ .clk) (hlanes : π ≠ .lanes) (hfw : π ≠ .fw) (hio : π ≠ .io) (s : State) (ok : Bool) :
    part π (installSector s ok) = part π s := by simp [installSector, hclk, hlanes, hfw, hio]

@[simp] theorem part_execFwInstall (hclk : π ≠ .clk) (hlanes : π ≠ .lanes) (hfw : π ≠ .fw) (hio : π ≠ .io) (turn : JobOp) (ok : Bool)
    (s : State) :
    part π (after s (execFwInstall turn ok s)) = part π s := by
  simp only [execFwInstall]
  split <;> simp [hclk, hlanes, hfw, hio]

@[simp] theorem part_execRelayPoll (hfw : π ≠ .fw) (bundle valid : Nat) (header : List Byte) (s : State) :
    part π (after s (execRelayPoll bundle valid header s)) = part π s := by simp [execRelayPoll, hfw]

@[simp] theorem part_execRecoverySeek (hfw : π ≠ .fw) (bundle : Nat) (header : List Byte) (s : State) :
    part π (after s (execRecoverySeek bundle header s)) = part π s := by simp [execRecoverySeek, hfw]

@[simp] theorem part_stageFetched (s : State) (img : List Byte) : part π (stageFetched s img) = part π s := by simp [stageFetched]

@[simp] theorem part_execImageFetchComplete (hfw : π ≠ .fw) (image : List Byte) (s : State) :
    part π (after s (execImageFetchComplete image s)) = part π s := by
  rw [execImageFetchComplete]
  split <;> simp [hfw]

@[simp] theorem part_fwWrite (hfw : π ≠ .fw) (k v : Nat) (s : State) :
    part π ((fwWrite k v s).getD s) = part π s := by
  rw [fwWrite]
  split <;> simp [hfw]

end Sys2Proof.Machine
end

section
/-! SUPPORT. Frame lemmas: the parts that the board signals (ch. 21) leave alone. -/

namespace Sys2Proof.Machine

variable {π : Part} {α β : Type}

@[simp] theorem part_execPpsInEdge (hio : π ≠ .io) (off : Nat) (s : State) : part π (after s (execPpsInEdge off s)) = part π s := by
  simp [execPpsInEdge, hio]

@[simp] theorem part_execPpsOutPulse (hio : π ≠ .io) (s : State) : part π (after s (execPpsOutPulse s)) = part π s := by
  simp [execPpsOutPulse, hio]

@[simp] theorem part_wGpio (hio : π ≠ .io) (k v : Nat) (s : State) : part π ((wGpio k v s).getD s) = part π s := by simp [wGpio, hio]

@[simp] theorem part_execGpioWrite (hio : π ≠ .io) (client : Client) (out : Bool) (value : Nat) (s : State) :
    part π (after s (execGpioWrite client out value s)) = part π s := by simp [execGpioWrite, hio]

@[simp] theorem part_gpioIn (s : State) : part π (gpioIn s).2 = part π s := by simp [gpioIn]

@[simp] theorem part_wI2c (hio : π ≠ .io) (m : Nat) (b : List Byte) (s : State) : part π ((wI2c m b s).getD s) = part π s := by
  simp [wI2c, hio]

@[simp] theorem part_wMdio (hio : π ≠ .io) (m : Nat) (b : List Byte) (s : State) : part π ((wMdio m b s).getD s) = part π s := by
  simp [wMdio, hio]

@[simp] theorem part_execIoI2cXfer (hio : π ≠ .io) (master : Nat) (answers : List (Nat × List Byte)) (s : State) :
    part π (after s (execIoI2cXfer master answers s)) = part π s := by simp [execIoI2cXfer, hio]

@[simp] theorem part_execIoMdioXfer (hio : π ≠ .io) (master : Nat) (answers : List (Nat × List Byte)) (s : State) :
    part π (after s (execIoMdioXfer master answers s)) = part π s := by simp [execIoMdioXfer, hio]

@[simp] theorem part_boardWrite (hio : π ≠ .io) (k v : Nat) (s : State) :
    part π ((boardWrite k v s).getD s) = part π s := by
  rw [boardWrite]
  split <;> simp [hio]

@[simp] theorem part_boardCommit (hio : π ≠ .io) (k : Nat) (b : List Byte) (s : State) :
    part π ((boardCommit k b s).getD s) = part π s := by
  rw [boardCommit]
  split <;> simp [hio]

end Sys2Proof.Machine
end

section
/-! SUPPORT. Frame lemmas: the parts that scrub, management RAM and fault injection (ch. 20) leave alone. -/

namespace Sys2Proof.Machine

variable {π : Part} {α β : Type}

@[simp] theorem part_wIntInject (v : Nat) (s : State) : part π ((wIntInject v s).getD s) = part π s := by simp [wIntInject]

@[simp] theorem part_execIntInjectWrite (client : Client) (value : Nat) (s : State) :
    part π (after s (execIntInjectWrite client value s)) = part π s := by simp [execIntInjectWrite]

@[simp] theorem part_flitFault (s : State) (i : Nat) (p : Pkt) (data : Bool) (unit idx n : Nat) :
    part π (flitFault s i p data unit idx n) = part π s := by simp [flitFault]

@[simp] theorem part_execInjectFire (index pkt : Nat) (data : Bool) (s : State) :
    part π (after s (execInjectFire index pkt data s)) = part π s := by
  simp only [execInjectFire]
  repeat' split
  all_goals simp

@[simp] theorem part_execMgmtRamError (hfw : π ≠ .fw) (index flips : Nat) (s : State) :
    part π (after s (execMgmtRamError index flips s)) = part π s := by simp [execMgmtRamError, hfw]

@[simp] theorem part_execPatrolScrubSweepStart (cls : Nat) (s : State) :
    part π (after s (execPatrolScrubSweepStart cls s)) = part π s := by simp [execPatrolScrubSweepStart]

@[simp] theorem part_scrubLost (s : State) (cls unit idx : Nat) : part π (scrubLost s cls unit idx) = part π s := by simp [scrubLost]

@[simp] theorem part_patrolWord (s : State) (cls unit idx found : Nat) : part π (patrolWord s cls unit idx found) = part π s := by
  simp [patrolWord]

@[simp] theorem part_sweepEnd (s : State) (cls : Nat) : part π (sweepEnd s cls) = part π s := by simp [sweepEnd]

@[simp] theorem part_execPatrolScrubRead (cls unit index found : Nat) (last : Bool) (s : State) :
    part π (after s (execPatrolScrubRead cls unit index found last s)) = part π s := by
  rw [execPatrolScrubRead]
  split <;> simp

@[simp] theorem part_execPatrolScrubBatch (unit : Nat) (reads : List (Nat × Nat × Nat)) (s : State) :
    part π (after s (execPatrolScrubBatch unit reads s)) = part π s := by simp [execPatrolScrubBatch]

@[simp] theorem part_intWrite (k v : Nat) (s : State) :
    part π ((intWrite k v s).getD s) = part π s := by
  rw [intWrite]
  split <;> simp

end Sys2Proof.Machine
end

section
/-! SUPPORT. Frame lemmas: the parts that the rules of the dictionary as a whole (ch. 16) leave alone. -/

namespace Sys2Proof.Machine

variable {π : Part} {α β : Type}

@[simp] theorem part_setMailbox (s : State) (fn : Nat) (m : Mailbox) : part π (setMailbox s fn m) = part π s := by simp [setMailbox]

@[simp] theorem part_wDoorbell (c : Client) (v : Nat) (s : State) :
    part π ((wDoorbell c v s).getD s) = part π s := by
  rw [wDoorbell]
  split <;> simp

@[simp] theorem part_dictWrite (c : Client) (k v : Nat) (s : State) :
    part π ((dictWrite c k v s).getD s) = part π s := by
  simp only [dictWrite]
  repeat' split
  all_goals simp

@[simp] theorem part_entryWrite (hlanes : π ≠ .lanes) (hhost : π ≠ .host) (hfw : π ≠ .fw) (hio : π ≠ .io) (c : Client) (k v : Nat)
    (s : State) :
    part π ((entryWrite c k v s).getD s) = part π s := by simp [entryWrite, rule_ite, hlanes, hhost, hfw, hio]

@[simp] theorem part_stringWrite (k n : Nat) (v : List Byte) (s : State) : part π ((stringWrite k n v s).getD s) = part π s := by
  simp [stringWrite]

@[simp] theorem part_typedWrite (hlanes : π ≠ .lanes) (hhost : π ≠ .host) (hfw : π ≠ .fw) (hio : π ≠ .io) (s : State) (c : Client)
    (k : Nat) (v : List Byte) :
    part π ((typedWrite s c k v).getD s) = part π s := by
  simp only [typedWrite]
  repeat' split
  all_goals simp [hlanes, hhost, hfw, hio]

@[simp] theorem part_readLeaves (s : State) (c : Client) (k : Nat) :
    part π (readLeaves s c k) = part π s := by
  simp only [readLeaves]
  repeat' split
  all_goals simp

@[simp] theorem part_readEntry (s : State) (c : Client) (k : Nat) :
    part π (readEntry s c k).2 = part π s := by
  rw [readEntry]
  split <;> simp

@[simp] theorem part_readBytes (s : State) (c : Client) (k : Nat) :
    part π (readBytes s c k).2 = part π s := by
  simp only [readBytes]
  repeat' split
  all_goals simp

@[simp] theorem part_domainCommit (hcls : π ≠ .cls) (hio : π ≠ .io) (c : Client) (k : Nat) (b : List Byte) (s : State) :
    part π ((domainCommit c k b s).getD s) = part π s := by simp [domainCommit, rule_ite, hcls, hio]

@[simp] theorem part_readCommitted (hcls : π ≠ .cls) (s : State) (k pos total : Nat) :
    part π (readCommitted s k pos total) = part π s := by simp [readCommitted, hcls]

@[simp] theorem part_startSave (s : State) : part π ((startSave s).getD s) = part π s := by simp [startSave]
@[simp] theorem part_startErase (s : State) : part π ((startErase s).getD s) = part π s := by simp [startErase]

@[simp] theorem part_thenBegin (k : Nat) (rule : State → Applied) (s : State) (h : part π ((rule s).getD s) = part π s) :
    part π ((thenBegin k rule s).getD s) = part π s := by
  simp only [thenBegin]
  cases hr : rule s <;> simp_all [Applied.bind]

@[simp] theorem part_jobRule (hlkp : π ≠ .lkp) (hase : π ≠ .ase) (hcls : π ≠ .cls) (hhost : π ≠ .host) (hfw : π ≠ .fw) (hpwr : π ≠ .pwr)
    (k : Nat) (s : State) :
    part π ((jobRule k s).getD s) = part π s := by simp [jobRule, rule_ite, hlkp, hase, hcls, hhost, hfw, hpwr]

@[simp] theorem part_saveTake (s : State) (upTo : Nat) : part π (saveTake s upTo) = part π s := by simp [saveTake]
@[simp] theorem part_saveEnd (s : State) (result : Nat) : part π (saveEnd s result) = part π s := by simp [saveEnd]

@[simp] theorem part_execOdSave (turn : JobOp) (upTo result : Nat) (s : State) :
    part π (after s (execOdSave turn upTo result s)) = part π s := by
  simp only [execOdSave]
  split <;> simp

@[simp] theorem part_execOdSettingsErase (turn : JobOp) (s : State) :
    part π (after s (execOdSettingsErase turn s)) = part π s := by
  simp only [execOdSettingsErase]
  split <;> simp

@[simp] theorem part_posted (s : State) (c : Client) (k : Nat) (a : Applied) : part π (posted s c k a) = part π (a.getD s) := by
  cases a <;> simp [posted]

@[simp] theorem part_mapWrite (hlanes : π ≠ .lanes) (hhost : π ≠ .host) (hfw : π ≠ .fw) (hio : π ≠ .io) (s : State) (c : Client)
    (off : Nat) (b : List Byte) :
    part π ((mapWrite s c off b).getD s) = part π s := by
  rw [mapWrite]
  split <;> simp [hlanes, hhost, hfw, hio]

@[simp] theorem part_windowWrite (s : State) (fn off : Nat) (b : List Byte) : part π (windowWrite s fn off b) = part π s := by
  simp [windowWrite]

@[simp] theorem part_barWrite (hlanes : π ≠ .lanes) (hhost : π ≠ .host) (hfw : π ≠ .fw) (hio : π ≠ .io) (s : State) (fn off : Nat)
    (b : List Byte) :
    part π (barWrite s fn off b) = part π s := by simp [barWrite, hlanes, hhost, hfw, hio]

@[simp] theorem part_barRead (s : State) (fn off n : Nat) :
    part π (barRead s fn off n).2 = part π s := by
  simp only [barRead]
  repeat' split
  all_goals simp

@[simp] theorem part_execRegisterWrite (hclk : π ≠ .clk) (hlanes : π ≠ .lanes) (hhost : π ≠ .host) (hfw : π ≠ .fw) (hio : π ≠ .io)
    (how : WriteForm) (s : State) :
    part π (after s (execRegisterWrite how s)) = part π s := by
  simp only [execRegisterWrite]
  split <;> simp [hclk, hlanes, hhost, hfw, hio]

@[simp] theorem part_execOdAccessStatusRead (fn width : Nat) (s : State) :
    part π (after s (execOdAccessStatusRead fn width s)) = part π s := by simp [execOdAccessStatusRead]

@[simp] theorem part_execMbDoorbell (client : Client) (value : Nat) (s : State) :
    part π (after s (execMbDoorbell client value s)) = part π s := by simp [execMbDoorbell]

end Sys2Proof.Machine
end

section
/-! SUPPORT. Frame lemmas: the parts that the Synsa protocol's functions (R415 to R426) leave alone. -/

namespace Sys2Proof.Machine

variable {π : Part} {α β : Type}

@[simp] theorem part_failed (s : State) (c : Client) (k : Nat) (st : Status) : part π (failed s c k st).2 = part π s := by simp [failed]
@[simp] theorem part_badBody (s : State) (st : Status) : part π (badBody s st).2 = part π s := by simp [badBody]

@[simp] theorem part_readItem (s : State) (c : Client) (k : Nat) :
    part π (readItem s c k).2 = part π s := by
  rw [readItem]
  split <;> simp

@[simp] theorem part_readBody (s : State) (x : Ctx) (b : List Byte) : part π (readBody s x b).2 = part π s := by simp [readBody]

@[simp] theorem part_writeBody (hlanes : π ≠ .lanes) (hhost : π ≠ .host) (hfw : π ≠ .fw) (hio : π ≠ .io) (s : State) (x : Ctx)
    (b : List Byte) :
    part π (writeBody s x b).2 = part π s := by
  simp only [writeBody]
  split
  · simp
  · split
    · simp
    · refine part_foldl_snd (fun r i => ?_) _ _
      have ht := part_typedWrite hlanes hhost hfw hio r.2 x.client i.1 i.2
      split <;> simp_all

@[simp] theorem part_freshNumber (s : State) (w tries : Nat) (taken : Nat → Bool) :
    part π (freshNumber s w tries taken).2 = part π s := by simp [freshNumber]

@[simp] theorem part_domainBeginBody (s : State) (x : Ctx) (b : List Byte) :
    part π (domainBeginBody s x b).2 = part π s := by
  simp only [domainBeginBody]
  repeat' split
  all_goals simp

@[simp] theorem part_domainSegmentBody (s : State) (x : Ctx) (b : List Byte) :
    part π (domainSegmentBody s x b).2 = part π s := by
  simp only [domainSegmentBody]
  repeat' split
  all_goals simp

@[simp] theorem part_dropTransfer (s : State) (h : Nat) : part π (dropTransfer s h) = part π s := by simp [dropTransfer]

@[simp] theorem part_domainEndBody (hcls : π ≠ .cls) (hio : π ≠ .io) (s : State) (x : Ctx) (b : List Byte) :
    part π (domainEndBody s x b).2 = part π s := by
  simp only [domainEndBody]
  split
  · simp
  · split
    · simp
    · rename_i t _
      have hc := part_domainCommit hcls hio x.client t.entry t.buf (dropTransfer s (beAt b 0 2))
      repeat' split
      all_goals simp_all

@[simp] theorem part_jobStartBody (hlkp : π ≠ .lkp) (hase : π ≠ .ase) (hcls : π ≠ .cls) (hhost : π ≠ .host) (hfw : π ≠ .fw)
    (hpwr : π ≠ .pwr) (s : State) (x : Ctx) (b : List Byte) :
    part π (jobStartBody s x b).2 = part π s := by
  have hj := fun c k => part_jobStart s c k (jobRule k) (part_jobRule hlkp hase hcls hhost hfw hpwr k s)
  simp only [jobStartBody]
  split
  · simp
  · have := hj x.client (refKey b 0)
    split <;> simp_all

@[simp] theorem part_jobStatusBody (s : State) (x : Ctx) (b : List Byte) :
    part π (jobStatusBody s x b).2 = part π s := by
  simp only [jobStatusBody]
  repeat' split
  all_goals simp

@[simp] theorem part_authFailed (s : State) : part π (authFailed s) = part π s := by simp [authFailed]
@[simp] theorem part_replayed (s : State) : part π (replayed s) = part π s := by simp [replayed]

@[simp] theorem part_runRequest (s : State) (x : Ctx) (f : Handler) (m : List Byte) (mk : Reply → List Byte)
    (hf : ∀ s x b, part π (f s x b).2 = part π s) :
    part π (runRequest s x f m mk).2 = part π s := by
  have h := hf s x (msgBody m)
  simp only [runRequest]
  split
  · exact h
  · split
    · rfl
    · exact h

@[simp] theorem part_cacheResponse (s : State) (id seq : Nat) (r : List Byte) :
    part π (cacheResponse s id seq r) = part π s := by
  rw [cacheResponse]
  split <;> simp

@[simp] theorem part_serveSession (s : State) (place : Nat) (peer : List Byte) (limit : Nat) (f : Handler) (m : List Byte)
    (hf : ∀ s x b, part π (f s x b).2 = part π s) :
    part π (serveSession s place peer limit f m).2 = part π s := by
  simp only [serveSession]
  split
  · rfl
  · split
    · simp
    · split
      · rfl
      · split
        · split <;> simp
        · split <;> simp [hf]

@[simp] theorem part_sessionGone (s : State) (id : Nat) : part π (sessionGone s id) = part π s := by simp [sessionGone]

@[simp] theorem part_closeBody (s : State) (x : Ctx) (b : List Byte) : part π (closeBody s x b).2 = part π s := by
  simp [closeBody]

@[simp] theorem part_serveProbe (s : State) (leaves : Nat) (m : List Byte) : part π (serveProbe s leaves m).2 = part π s := by
  simp [serveProbe]

@[simp] theorem part_serveOpen (s : State) (place : Nat) (peer : List Byte) (m : List Byte) :
    part π (serveOpen s place peer m).2 = part π s := by simp [serveOpen]

@[simp] theorem part_channelSend (s : State) (b : Nat) (m : List Byte) : part π (channelSend s b m) = part π s := by simp [channelSend]
@[simp] theorem part_sendAt (s : State) (place : Nat) (peer m : List Byte) : part π (sendAt s place peer m) = part π s := by simp [sendAt]

@[simp] theorem part_answerAt (r : Option (List Byte) × State) (place : Nat) (peer : List Byte) :
    part π (answerAt r place peer) = part π r.2 := by
  simp only [answerAt]
  split <;> simp

/-- The handler of a message leaves alone every part that the message may not change. -/
theorem part_of_bodyHandler (hlkp : π ≠ .lkp) (hase : π ≠ .ase) (hcls : π ≠ .cls) (hlanes : π ≠ .lanes) (hhost : π ≠ .host)
    (hfw : π ≠ .fw) (hpwr : π ≠ .pwr) (hio : π ≠ .io)
    {t : Nat} {f : Handler} (h : bodyHandler t = some f) (s : State) (x : Ctx) (b : List Byte) : part π (f s x b).2 = part π s := by
  simp only [bodyHandler] at h
  repeat' split at h
  all_goals cases h
  · simp
  · simp [hlanes, hhost, hfw, hio]
  · simp
  · simp
  · simp [hcls, hio]
  · simp [hlkp, hase, hcls, hhost, hfw, hpwr]
  · simp

@[simp] theorem part_serveInner (hlkp : π ≠ .lkp) (hase : π ≠ .ase) (hcls : π ≠ .cls) (hlanes : π ≠ .lanes) (hhost : π ≠ .host)
    (hfw : π ≠ .fw) (hpwr : π ≠ .pwr) (hio : π ≠ .io) (s : State) (place : Nat) (peer : List Byte) (limit : Nat) (channel : Bool)
    (m : List Byte) :
    part π (serveInner s place peer limit channel m).2 = part π s := by
  simp only [serveInner]
  split
  · rfl
  · split
    · split <;> simp
    · split
      · rfl
      · rename_i h
        have hf := part_of_bodyHandler hlkp hase hcls hlanes hhost hfw hpwr hio h
        split
        · simp [hf]
        · split <;> simp [hf]

@[simp] theorem part_relayDropped (s : State) : part π (relayDropped s) = part π s := by simp [relayDropped]

/-- A relay message that goes on leaves the part alone. -/
theorem part_of_relayForward {s t : State} {h inner : List Byte} {seq : Nat} {e : RelayEntry}
    (hx : relayForward s h inner seq e = some t) :
    part π t = part π s := by
  simp only [relayForward] at hx
  split at hx
  · cases hx
  · split at hx <;> cases hx
    simp

@[simp] theorem part_relayBody (hlkp : π ≠ .lkp) (hase : π ≠ .ase) (hcls : π ≠ .cls) (hlanes : π ≠ .lanes) (hhost : π ≠ .host)
    (hfw : π ≠ .fw) (hpwr : π ≠ .pwr) (hio : π ≠ .io) (s : State) (x : Ctx) (b : List Byte) :
    part π (relayBody s x b).2 = part π s := by
  unfold relayBody
  extract_lets inner i h s1 r e
  have h1 : part π s1 = part π s := by simp [s1, i]
  split
  · simp
  · split
    · simp
    · split
      · simp [r, h1, hlkp, hase, hcls, hlanes, hhost, hfw, hpwr, hio]
      · split
        · rename_i hx
          simp [part_of_relayForward hx, h1]
        · simp [h1]

@[simp] theorem part_relayTransit (hlkp : π ≠ .lkp) (hase : π ≠ .ase) (hcls : π ≠ .cls) (hlanes : π ≠ .lanes) (hhost : π ≠ .host)
    (hfw : π ≠ .fw) (hpwr : π ≠ .pwr) (hio : π ≠ .io) (s : State) (b : Nat) (m : List Byte) :
    part π (relayTransit s b m) = part π s := by
  simp only [relayTransit]
  split
  · rfl
  · split
    · split <;> simp [hlkp, hase, hcls, hlanes, hhost, hfw, hpwr, hio]
    · split
      · rename_i hx
        exact part_of_relayForward hx
      · simp

/-- A channel message that is taken leaves the part alone. -/
theorem part_of_channelHead {s : State} {b : Nat} {x : List Byte × State} (h : channelHead s b = some x) : part π x.2 = part π s := by
  simp only [channelHead] at h
  split at h
  · split at h <;> cases h
    simp
  · cases h

/-- A message that is taken leaves the part alone. -/
theorem part_of_takeMessage {s : State} {via : Via} {kind : List Byte → Bool} {x : Nat × List Byte × List Byte × State}
    (h : takeMessage s via kind = some x) : part π x.2.2.2 = part π s := by
  simp only [takeMessage] at h
  split at h
  · cases h
  · split at h <;> cases h
    rfl
  · split at h
    · rename_i hx
      split at h <;> cases h
      exact part_of_channelHead hx
    · cases h

@[simp] theorem part_mailboxRespond (s : State) (fn : Nat) (r : List Byte) : part π (mailboxRespond s fn r) = part π s := by
  simp [mailboxRespond]

@[simp] theorem part_serveMailbox (hclk : π ≠ .clk) (hlanes : π ≠ .lanes) (hfw : π ≠ .fw) (hio : π ≠ .io) (s : State) (fn : Nat)
    (kind : List Byte → Bool) (f : Handler) (hf : ∀ s x b, part π (f s x b).2 = part π s) :
    part π (serveMailbox s fn kind f) = part π s := by
  simp only [serveMailbox]
  split
  · rfl
  · split <;> simp [hf, hclk, hlanes, hfw, hio]

@[simp] theorem part_serveBody (hclk : π ≠ .clk) (hlanes : π ≠ .lanes) (hfw : π ≠ .fw) (hio : π ≠ .io) (s : State) (via : Via) (ty : Nat)
    (f : Handler) (hf : ∀ s x b, part π (f s x b).2 = part π s) :
    part π (serveBody s via ty f) = part π s := by
  simp only [serveBody]
  split
  · simp [hf, hclk, hlanes, hfw, hio]
  · split
    · rfl
    · rename_i h
      have hs := part_of_takeMessage (π := π) h
      split <;> simp_all

@[simp] theorem part_execSynsaRead (hclk : π ≠ .clk) (hlanes : π ≠ .lanes) (hfw : π ≠ .fw) (hio : π ≠ .io) (via : Via) (s : State) :
    part π (after s (execSynsaRead via s)) = part π s := by simp [execSynsaRead, hclk, hlanes, hfw, hio]

@[simp] theorem part_execSynsaWrite (hclk : π ≠ .clk) (hlanes : π ≠ .lanes) (hhost : π ≠ .host) (hfw : π ≠ .fw) (hio : π ≠ .io)
    (via : Via) (s : State) :
    part π (after s (execSynsaWrite via s)) = part π s := by simp [execSynsaWrite, hclk, hlanes, hhost, hfw, hio]

@[simp] theorem part_execDomainBegin (hclk : π ≠ .clk) (hlanes : π ≠ .lanes) (hfw : π ≠ .fw) (hio : π ≠ .io) (via : Via) (s : State) :
    part π (after s (execDomainBegin via s)) = part π s := by simp [execDomainBegin, hclk, hlanes, hfw, hio]

@[simp] theorem part_execDomainSegment (hclk : π ≠ .clk) (hlanes : π ≠ .lanes) (hfw : π ≠ .fw) (hio : π ≠ .io) (via : Via) (s : State) :
    part π (after s (execDomainSegment via s)) = part π s := by simp [execDomainSegment, hclk, hlanes, hfw, hio]

@[simp] theorem part_execDomainEnd (hcls : π ≠ .cls) (hclk : π ≠ .clk) (hlanes : π ≠ .lanes) (hfw : π ≠ .fw) (hio : π ≠ .io) (via : Via)
    (s : State) :
    part π (after s (execDomainEnd via s)) = part π s := by simp [execDomainEnd, hcls, hclk, hlanes, hfw, hio]

@[simp] theorem part_execJobStart (hlkp : π ≠ .lkp) (hase : π ≠ .ase) (hcls : π ≠ .cls) (hclk : π ≠ .clk) (hlanes : π ≠ .lanes)
    (hhost : π ≠ .host) (hfw : π ≠ .fw) (hpwr : π ≠ .pwr) (hio : π ≠ .io) (via : Via) (s : State) :
    part π (after s (execJobStart via s)) = part π s := by simp [execJobStart, hlkp, hase, hcls, hclk, hlanes, hhost, hfw, hpwr, hio]

@[simp] theorem part_execJobStatus (hclk : π ≠ .clk) (hlanes : π ≠ .lanes) (hfw : π ≠ .fw) (hio : π ≠ .io) (via : Via) (s : State) :
    part π (after s (execJobStatus via s)) = part π s := by simp [execJobStatus, hclk, hlanes, hfw, hio]

@[simp] theorem part_probeBody (s : State) (x : Ctx) (b : List Byte) : part π (probeBody s x b).2 = part π s := by
  simp [probeBody]

@[simp] theorem part_execDiscoverProbe (hclk : π ≠ .clk) (hlanes : π ≠ .lanes) (hfw : π ≠ .fw) (hio : π ≠ .io) (via : Via) (s : State) :
    part π (after s (execDiscoverProbe via s)) = part π s := by
  simp only [execDiscoverProbe]
  split
  · simp [hclk, hlanes, hfw, hio]
  · split
    · rfl
    · rename_i h
      have hs := part_of_takeMessage (π := π) h
      split <;> simp_all

@[simp] theorem part_execSessionOpen (via : Via) (s : State) :
    part π (after s (execSessionOpen via s)) = part π s := by
  simp only [execSessionOpen]
  split
  · rfl
  · rename_i h
    have hs := part_of_takeMessage (π := π) h
    repeat' split
    all_goals simp_all

@[simp] theorem part_execSessionClose (via : Via) (s : State) :
    part π (after s (execSessionClose via s)) = part π s := by
  simp only [execSessionClose]
  split
  · rfl
  · rename_i h
    have hs := part_of_takeMessage (π := π) h
    repeat' split
    all_goals simp_all

@[simp] theorem part_execSessionIdleTimeout (session : Nat) (s : State) :
    part π (after s (execSessionIdleTimeout session s)) = part π s := by
  rw [execSessionIdleTimeout]
  split <;> simp

@[simp] theorem part_execDomainIdleTimeout (handle : Nat) (s : State) :
    part π (after s (execDomainIdleTimeout handle s)) = part π s := by
  rw [execDomainIdleTimeout]
  split <;> simp

@[simp] theorem part_execSynsaEventSend (session : Nat) (s : State) :
    part π (after s (execSynsaEventSend session s)) = part π s := by
  rw [execSynsaEventSend]
  split <;> simp

@[simp] theorem part_execAnnounceSend (s : State) : part π (after s (execAnnounceSend s)) = part π s := by simp [execAnnounceSend]

@[simp] theorem part_execAnnounceReceive (bundle : Nat) (s : State) :
    part π (after s (execAnnounceReceive bundle s)) = part π s := by
  simp only [execAnnounceReceive]
  split
  · rfl
  · rename_i h
    have hs := part_of_takeMessage (π := π) h
    repeat' split
    all_goals simp_all

@[simp] theorem part_execSynsaRelay (hlkp : π ≠ .lkp) (hase : π ≠ .ase) (hcls : π ≠ .cls) (hclk : π ≠ .clk) (hlanes : π ≠ .lanes)
    (hhost : π ≠ .host) (hfw : π ≠ .fw) (hpwr : π ≠ .pwr) (hio : π ≠ .io) (via : Via) (s : State) :
    part π (after s (execSynsaRelay via s)) = part π s := by
  simp only [execSynsaRelay]
  split
  · rfl
  · rename_i h
    have hs := part_of_takeMessage (π := π) h
    repeat' split
    all_goals simp_all

@[simp] theorem part_relayAnswer (s : State) (e : RelayEntry) (m : List Byte) :
    part π (relayAnswer s e m) = part π s := by
  rw [relayAnswer]
  split <;> simp

@[simp] theorem part_execRelayResponse (bundle : Nat) (s : State) :
    part π (after s (execRelayResponse bundle s)) = part π s := by
  simp only [execRelayResponse]
  split
  · rfl
  · rename_i h
    have hs := part_of_takeMessage (π := π) h
    repeat' split
    all_goals simp_all

@[simp] theorem part_execRelayEntryExpire (s : State) : part π (after s (execRelayEntryExpire s)) = part π s := by
  simp [execRelayEntryExpire]

end Sys2Proof.Machine
end

section
/-! SUPPORT. What each command may change, and the statement that follows. -/

namespace Sys2Proof.Machine

/-- The commands that may change a part: the resets move the time, and Safety.lean lists the commands of each other part. -/
def Part.touchedBy : Part → Instr → Bool
  | .time => isReset
  | .timeOffset => isReset
  | .lkp => touchesLookups
  | .ase => touchesAse
  | .cls => touchesClassification
  | .clk => touchesClocks
  | .lanes => touchesLanes
  | .host => touchesHost
  | .fw => touchesFirmware
  | .pwr => touchesPower
  | .io => touchesBoard

/-- A part that a command does not touch is not a part that it does. -/
theorem ne_of_touchedBy {p q : Part} {c : Instr} (hp : p.touchedBy c = false) (hq : q.touchedBy c = true) : p ≠ q := by
  rintro rfl
  exact Bool.false_ne_true (hp.symm.trans hq)

/-- A command that is no reset changes only the parts that it touches: each by the frame lemma of its own. -/
theorem part_exec {p : Part} (c : Instr) (s : State) (hr : isReset c = false) (hp : p.touchedBy c = false) :
    part p (after s (exec c s)) = part p s := by
  have hne : ∀ q : Part, q.touchedBy c = true → p ≠ q := fun q => ne_of_touchedBy hp
  clear hp
  cases c with
  | powerOnReset | pinReset | powerLoss | jtagExtest | jtagExtestPulse | jtagExtestTrain | jtagClamp | jtagHighz
  | jtagBypass | jtagIdcode | jtagSamplePreload | jtagTestExit => nomatch hr
  | _ => simp (disch := exact hne _ rfl) [exec]

end Sys2Proof.Machine
end

section
open Sys2Proof.Machine

/-- Settles O58: each command by the frame lemma of its own, read at each of the eleven parts. -/
theorem Sys2Proof.partsChangeOnlyByTheirCommands : Obligations.PartsChangeOnlyByTheirCommands := by
  unfold Obligations.PartsChangeOnlyByTheirCommands
  intro c s t ht hr
  have key : ∀ p : Part, p.touchedBy c = false → part p t = part p s := fun p hp => by
    have h := part_exec c s hr hp
    rwa [ht, after_next] at h
  exact ⟨key .time hr, key .timeOffset hr, key .lkp, key .ase, key .cls, key .clk, key .lanes, key .host, key .fw, key .pwr, key .io⟩

end

section
/-! SUPPORT. Line ports (ch. 3): the entries of a port, and what a write of its mode or FEC comes to (R53–R56). -/

namespace Sys2Proof.Machine

/-! ### Entries -/

/-- The key of an entry whose parameter lies in range. -/
theorem keyIf_lt {n m : Nat} (h : n < m) (k : Nat) : keyIf (decide (n < m)) k = k := by simp [keyIf, h]

/-- Two entries of one index are apart by their subindexes. -/
theorem key_ne_of_sub (idx : Nat) {a b : Nat} (h : a ≠ b) : key idx a ≠ key idx b := by
  simp only [key]
  omega

/-- The entries of ports, lanes and bundles are none that events move on the side. -/
theorem side_portLane {idx sub : Nat} (hi : 0x2000 ≤ idx) (hi' : idx < 0x2800) (hs : sub < 256) : sideEntry (key idx sub) = false := by
  simp only [sideEntry, Bool.or_eq_false_iff, Bool.and_eq_false_iff, beq_eq_false_iff_ne, decide_eq_false_iff_not,
    Reg.obsCause, Reg.evtPulses, Reg.evtFwQueueHigh, Reg.evtFwQueueLost, Reg.ensRecordsDropped, Reg.ensPostcardsSuppressed]
  simp only [key]
  omega

/-- Storing an entry of a port leaves its other entries as they were. -/
theorem reg_setReg_sub (s : State) (idx v : Nat) {a b : Nat} (h : a ≠ b) :
    reg (setReg s (key idx b) v) (key idx a) = reg s (key idx a) :=
  reg_setReg_ne s _ _ v (key_ne_of_sub idx h)

/-! ### Mode and FEC (R53–R56) -/

/-- A port whose link is down, whose wait has not begun and whose conditions do not hold stays as it is (R57). -/
theorem touchLink_idle {s : State} {p : Nat} (hc : linkCond s p = false) (hl : linkUp s p = false) (hw : (port s p).condSince = none) :
    touchLink s p = s := by
  simp [touchLink, hc, hl, hw]

/-- The link conditions fail while the port is administratively down (R57). -/
theorem linkCond_down {s : State} {p : Nat} (h : reg s (Reg.portAdminUp p) = 0) : linkCond s p = false := by
  simp [linkCond, flag, h]

/-- A native port that is in no FlexE group has role 1 with a mode and role 0 without one (R52). -/
theorem roleOf_native {s : State} {p : Nat} (hn : p % 32 < 8) (hg : bits (reg s (Reg.portFlexeGroup p)) 31 30 ≠ 1) :
    roleOf s p = if (port s p).mode = 0 then 0 else 1 := by
  simp [roleOf, hn, hg]

/-- A port's record with a mode and a FEC in effect: another mode starts without its PCS lock, and the wait of R57 is over (R56). -/
def withMode (x : Port) (m f : Nat) : Port :=
  { x with mode := m, fec := f, blockLock := x.blockLock && m == x.mode, condSince := none }

/-- Mode and FEC as written take effect at a native port that is down (R56). -/
theorem applyMode_down {s : State} {p : Nat} (hp : p < 1024) (hn : p % 32 < 8) (ha : reg s (Reg.portAdminUp p) = 0)
    (hl : reg s (Reg.portLinkUp p) = 0) (hg : bits (reg s (Reg.portFlexeGroup p)) 31 30 ≠ 1) :
    applyMode s p = setReg (setPort s p (withMode (port s p) (reg s (Reg.portMode p)) (reg s (Reg.portFec p)))) (Reg.portRole p)
      (if reg s (Reg.portMode p) = 0 then 0 else 1) := by
  have hrole : setRole (setPort s p (withMode (port s p) (reg s (Reg.portMode p)) (reg s (Reg.portFec p)))) p =
      setReg (setPort s p (withMode (port s p) (reg s (Reg.portMode p)) (reg s (Reg.portFec p)))) (Reg.portRole p)
        (if reg s (Reg.portMode p) = 0 then 0 else 1) := by
    rw [setRole, roleOf_native hn (by simpa using hg)]
    simp [withMode]
  have hidle : ∀ (x : Port) (r : Nat), r ≠ 2 → x.condSince = none →
      touchLinks (setReg (setPort s p x) (Reg.portRole p) r) p = setReg (setPort s p x) (Reg.portRole p) r := by
    intro x r hr hx
    simp only [Reg.portRole, Reg.portAdminUp, Reg.portLinkUp, keyIf_lt hp] at ha hl ⊢
    rw [touchLinks, touchLink_idle]
    · simp [Reg.portRole, keyIf_lt hp, hr]
    · exact linkCond_down (by simp [Reg.portAdminUp, keyIf_lt hp, reg_setReg_sub, ha])
    · simp [linkUp, flag, Reg.portLinkUp, keyIf_lt hp, reg_setReg_sub, hl]
    · simpa [port, setReg] using congrArg Port.condSince (port_setPort_self s p x) |>.trans hx
  exact (congrArg (touchLinks · p) hrole).trans (hidle _ _ (by split <;> decide) rfl)

/-- The lanes a mode takes at a slot are free: none is in use by another slot of the LMAC (R54). -/
def LanesFree (s : State) (p v : Nat) : Prop :=
  v = 0 ∨ (firstLane p % modeLanes v = 0 ∧ ∀ q ∈ nativeSlots (lmacOf p), q ≠ p → ∀ l ∈ lanesInUse s q, l ∉ laneRange p v)

/-- A write of `port_mode` that R53 and R54 permit stores the mode; at a port that is down it takes effect at once (R56). -/
theorem wPortMode_permitted {s : State} {p v : Nat} (hn : p % 32 < 8) (hv : v ≤ 0x10)
    (hf : fecPermitted v (reg s (Reg.portFec p)) = true) (hl : LanesFree s p v) :
    wPortMode p v s = .done (if flag (setReg s (Reg.portMode p) v) (Reg.portAdminUp p) then setReg s (Reg.portMode p) v
      else applyMode (setReg s (Reg.portMode p) v) p) := by
  have hfree : ¬ (v ≠ 0 ∧ (firstLane p % modeLanes v ≠ 0 ∨
      (nativeSlots (lmacOf p)).any (fun q => q != p && (lanesInUse s q).any (laneRange p v).contains) = true)) := by
    rintro ⟨h0, h⟩
    obtain ⟨hfirst, hq⟩ := hl.resolve_left h0
    rcases h with h | h
    · exact h hfirst
    · simp only [List.any_eq_true, Bool.and_eq_true, bne_iff_ne, List.contains_iff_mem] at h
      obtain ⟨q, hq1, hq2, l, hl1, hl2⟩ := h
      exact hq q hq1 hq2 l hl1 hl2
  have hslot : ¬ (8 ≤ p % 32 ∨ 0x10 < v) := by omega
  simp only [wPortMode, hslot, hf, hfree, if_false, Bool.not_true, Bool.false_eq_true]

/-- A mode that does not permit the FEC written is refused (R53). -/
theorem wPortMode_fec {s : State} {p v : Nat} (hf : fecPermitted v (reg s (Reg.portFec p)) = false) :
    wPortMode p v s = .fail .refused := by
  simp [wPortMode, hf]

/-- A FEC that the mode permits is stored; while the port is up it is held (R53, R56). -/
theorem wPortFec_up {s : State} {p v : Nat} (hp : p < 1024) (hv : v ≤ 3) (hf : fecPermitted (reg s (Reg.portMode p)) v = true)
    (ha : reg s (Reg.portAdminUp p) ≠ 0) : wPortFec p v s = .done (setReg s (Reg.portFec p) v) := by
  simp only [Reg.portAdminUp, keyIf_lt hp] at ha
  have hv' : ¬ 3 < v := by omega
  simp [wPortFec, hv', hf, flag, Reg.portAdminUp, Reg.portFec, keyIf_lt hp, reg_setReg_sub, ha]

/-- A FEC that the mode does not permit is refused (R53). -/
theorem wPortFec_refused {s : State} {p v : Nat} (hf : fecPermitted (reg s (Reg.portMode p)) v = false) :
    wPortFec p v s = .fail .refused := by
  simp [wPortFec, hf]

/-- A permitted write that its chapter's rule refuses is turned away. -/
theorem permitted_refused {s : State} {c : Client} {k v : Nat} {rule : State → Applied} {st : Status} (h : Permitted s c k v)
    (hr : rule s = .fail st) : writeRow s c k v rule = emit (noteFailure s c k st) (.status (callerOf c) st.code []) :=
  writeRow_ruleFailed s c k v rule st h.1 h.2 hr

end Sys2Proof.Machine

namespace Sys2Proof

open Machine

/-- Settles O6: a permitted value is stored, and applied to a port that is down, which has no link for it to touch; a FEC outside its
mode is refused by the rule. -/
theorem portModeAndFecWrites : Obligations.PortModeAndFecWrites := by
  refine fun s c p v _ hp hn => ⟨fun h hv hf hl => ⟨fun ha => ?_, fun ha hlink hg => ?_⟩,
    fun h hf => congrArg Host.Outcome.next (permitted_refused h (wPortMode_fec hf)),
    fun h hv hf ha => congrArg Host.Outcome.next (permitted_does h (wPortFec_up hp hv hf ha)),
    fun h hf => congrArg Host.Outcome.next (permitted_refused h (wPortFec_refused hf))⟩
  · have hflag : flag (setReg s (Reg.portMode p) v) (Reg.portAdminUp p) = true := by
      simp only [Reg.portAdminUp, keyIf_lt hp] at ha
      simp [flag, Reg.portMode, Reg.portAdminUp, keyIf_lt hp, reg_setReg_sub, ha]
    exact congrArg Host.Outcome.next (permitted_does h ((wPortMode_permitted hn hv hf hl).trans (by rw [if_pos hflag])))
  · have hkept : ∀ n, n ≠ 1 → reg (setReg s (Reg.portMode p) v) (key (0x2000 + p) n) = reg s (key (0x2000 + p) n) := fun n h => by
      rw [Reg.portMode, keyIf_lt hp, reg_setReg_sub _ _ _ h]
    have happly := applyMode_down (s := setReg s (Reg.portMode p) v) hp hn
    simp only [Reg.portAdminUp, Reg.portLinkUp, Reg.portFlexeGroup, Reg.portFec, keyIf_lt hp] at *
    rw [reg_setReg_self, hkept 4 (by decide), hkept 2 (by decide), hkept 3 (by decide), hkept 0x20 (by decide)] at happly
    refine congrArg Host.Outcome.next (permitted_does h ((wPortMode_permitted hn hv ?_ hl).trans ?_))
    · simpa [Reg.portFec, keyIf_lt hp] using hf
    · simp only [flag, Reg.portAdminUp, keyIf_lt hp, hkept 2 (by decide), ha, bne_self_eq_false, Bool.false_eq_true, if_false]
      rw [happly ha hlink hg]
      rfl

end Sys2Proof
end

section
/-! SUPPORT. What the stores, the counters and the records beside the packets leave as they were: the packets themselves, the ports, the
ledger, the receive buffers, the fabric lanes' records and the modes of their tests. -/

namespace Sys2Proof.Machine

variable {α β : Type}

/-! ### The modes of the fabric lanes' tests (R319) -/

/-- Whether an entry is `fl_prbs_mode` or `fl_loopback` of a fabric lane. -/
def isLaneTest (k : Nat) : Bool := decide (0x250000 ≤ k) && decide (k < 0x264000) && (k % 256 == 0x0E || k % 256 == 0x10)

/-- What the test modes of the fabric lanes read. -/
def laneTests (od : SMap Nat) (k : Nat) : Nat := if isLaneTest k then mget (odDefault k) od k else 0

/-- Events move no test mode on the side. -/
theorem notTest_of_side {k : Nat} (h : sideEntry k = true) : isLaneTest k = false := by
  simp only [sideEntry, Bool.or_eq_true, Bool.and_eq_true, beq_iff_eq, decide_eq_true_eq, Reg.obsCause, Reg.evtPulses, Reg.evtFwQueueHigh,
    Reg.evtFwQueueLost, Reg.ensRecordsDropped, Reg.ensPostcardsSuppressed] at h
  simp only [key] at h
  simp only [isLaneTest, Bool.and_eq_false_iff, decide_eq_false_iff_not]
  omega

/-- An entry that lies outside the fabric lanes, or under another subindex, is no test mode. -/
theorem notTest_key {idx sub : Nat} (hs : sub < 256) (h : idx < 0x2500 ∨ 0x2640 ≤ idx ∨ (sub ≠ 0x0E ∧ sub ≠ 0x10)) :
    isLaneTest (key idx sub) = false := by
  simp only [isLaneTest, Bool.and_eq_false_iff, Bool.or_eq_false_iff, decide_eq_false_iff_not, beq_eq_false_iff_ne]
  simp only [key]
  omega

theorem notTest_keyIf {b : Bool} {idx sub : Nat}
    (h : b = true → sub < 256 ∧ (idx < 0x2500 ∨ 0x2640 ≤ idx ∨ (sub ≠ 0x0E ∧ sub ≠ 0x10))) :
    isLaneTest (keyIf b (key idx sub)) = false := by
  cases b with
  | false => rfl
  | true => exact notTest_key (h rfl).1 (h rfl).2

/-- No cause register is a test mode. -/
@[simp] theorem notTest_cause (c : CauseReg) : isLaneTest c.key = false := by
  cases c with
  | vf v =>
    simp only [isLaneTest, Bool.and_eq_false_iff, decide_eq_false_iff_not]
    simp only [CauseReg.key, callerKey, Reg.vfCause, key]
    omega
  | port p => exact notTest_keyIf (by simp)
  | lane l => exact notTest_keyIf (by simp)
  | ase k => exact notTest_keyIf (by simp; omega)
  | hbm k => exact notTest_keyIf (by simp; omega)
  | fl l => exact notTest_keyIf (by simp)
  | fb b => exact notTest_keyIf (by simp)
  | _ => decide

@[simp] theorem notTest_dropTotal (r : Nat) : isLaneTest (Reg.dropTotal r) = false := notTest_keyIf (by simp; omega)
@[simp] theorem notTest_dropPort (p r : Nat) : isLaneTest (Reg.dropPort p r) = false := notTest_keyIf (by simp; omega)
@[simp] theorem notTest_dropUnattributed (r : Nat) : isLaneTest (Reg.dropUnattributed r) = false := notTest_keyIf (by simp; omega)
@[simp] theorem notTest_poolLeaked (n : Nat) : isLaneTest (Reg.poolLeaked n) = false := notTest_keyIf (by simp; omega)
@[simp] theorem notTest_poolWatermark (n : Nat) : isLaneTest (Reg.poolWatermark n) = false := notTest_keyIf (by simp; omega)
@[simp] theorem notTest_poolRebuilds (n : Nat) : isLaneTest (Reg.poolRebuilds n) = false := notTest_keyIf (by simp; omega)
@[simp] theorem notTest_intCorrected (c : Nat) : isLaneTest (Reg.intCorrected c) = false := notTest_keyIf (by simp; omega)
@[simp] theorem notTest_intUncorrectable (c : Nat) : isLaneTest (Reg.intUncorrectable c) = false := notTest_keyIf (by simp; omega)
@[simp] theorem notTest_flRxLaneId (l : Nat) : isLaneTest (Reg.flRxLaneId l) = false := notTest_keyIf (by simp)
@[simp] theorem notTest_flDefects (l : Nat) : isLaneTest (Reg.flDefects l) = false := notTest_keyIf (by simp)
@[simp] theorem notTest_fbPathDefects (b : Nat) : isLaneTest (Reg.fbPathDefects b) = false := notTest_keyIf (by simp)
@[simp] theorem notTest_pmPtrFaults : isLaneTest Reg.pmPtrFaults = false := by decide
@[simp] theorem notTest_pmLastPtrFault : isLaneTest Reg.pmLastPtrFault = false := by decide
@[simp] theorem notTest_pmRefcountUnderflows : isLaneTest Reg.pmRefcountUnderflows = false := by decide
@[simp] theorem notTest_intLastError : isLaneTest Reg.intLastError = false := by decide
@[simp] theorem notTest_intInject : isLaneTest Reg.intInject = false := by decide
@[simp] theorem notTest_intInjectFired : isLaneTest Reg.intInjectFired = false := by decide
@[simp] theorem notTest_spillExits : isLaneTest Reg.spillExits = false := by decide
@[simp] theorem notTest_ftDestReachable : isLaneTest Reg.ftDestReachable = false := by decide

/-- Storing any other entry leaves the test modes as they were. -/
@[simp] theorem laneTests_mset {k : Nat} (h : isLaneTest k = false) (od : SMap Nat) (v : Nat) :
    laneTests (mset (odDefault k) od k v) = laneTests od := by
  funext j
  simp only [laneTests]
  split
  · rename_i hj
    exact mget_default_ne _ _ od k j v (by rintro rfl; simp [h] at hj)
  · rfl

/-! ### The cargo of a state -/

/-- What the stores, the counters and the records beside the packets never touch. -/
structure Cargo where
  pkts : SMap Pkt
  nextPkt : Nat
  ports : SMap Port
  led : Ledger
  lmacs : SMap Lmac
  flanes : SMap FLane
  tests : Nat → Nat

/-- The packets, ports, ledger, receive buffers, fabric lanes and their test modes of a state. -/
def cargo (s : State) : Cargo := ⟨s.pkts, s.nextPkt, s.ports, s.led, s.lmacs, s.fl.lanes, laneTests s.od⟩

@[simp] theorem cargo_mk (od blocks pending time timeOffset freeCtr sent evt led obs pkts nextPkt outs nextOut ports lanes lmacs mem qm pwr
    host fl ft hbm integ ase dict cls lkp mtr fw clk io) :
    cargo (State.mk od blocks pending time timeOffset freeCtr sent evt led obs pkts nextPkt outs nextOut ports lanes lmacs mem qm pwr
      host fl ft hbm integ ase dict cls lkp mtr fw clk io) = ⟨pkts, nextPkt, ports, led, lmacs, fl.lanes, laneTests od⟩ := (rfl)

@[simp] theorem cargo_self (s : State) :
    Cargo.mk s.pkts s.nextPkt s.ports s.led s.lmacs s.fl.lanes (laneTests s.od) = cargo s := (rfl)

theorem cargo_parts {s t : State} (h : cargo t = cargo s) : t.pkts = s.pkts ∧ t.nextPkt = s.nextPkt ∧ t.ports = s.ports ∧
    t.led = s.led ∧ t.lmacs = s.lmacs ∧ t.fl.lanes = s.fl.lanes ∧ laneTests t.od = laneTests s.od :=
  ⟨congrArg Cargo.pkts h, congrArg Cargo.nextPkt h, congrArg Cargo.ports h, congrArg Cargo.led h, congrArg Cargo.lmacs h,
    congrArg Cargo.flanes h, congrArg Cargo.tests h⟩

@[simp] theorem cargo_ite (c : Prop) [Decidable c] (s t : State) : cargo (if c then s else t) = if c then cargo s else cargo t :=
  apply_ite cargo c s t

theorem cargo_foldl_mem {f : State → α → State} {l : List α} (h : ∀ x ∈ l, ∀ s, cargo (f s x) = cargo s) (s : State) :
    cargo (l.foldl f s) = cargo s :=
  List.foldlRecOn l f (motive := fun t => cargo t = cargo s) rfl fun t ht x hx => (h x hx t).trans ht

@[simp] theorem cargo_foldl {f : State → α → State} (h : ∀ s x, cargo (f s x) = cargo s) (l : List α) (s : State) :
    cargo (l.foldl f s) = cargo s := cargo_foldl_mem (fun x _ s => h s x) s

/-- What events bring on the side leaves the cargo as it was. -/
theorem cargo_of_noted {ks : List Nat} {s t : State} (h : Noted ks s t) (hk : ∀ k ∈ ks, isLaneTest k = false) : cargo t = cargo s := by
  obtain ⟨heq, -, hreg⟩ := h
  have htests : laneTests t.od = laneTests s.od := by
    funext k
    by_cases hj : isLaneTest k = true
    · have hs : sideEntry k = false := by
        by_contra hs
        rw [notTest_of_side (by simpa using hs)] at hj
        cases hj
      have := hreg k hs (fun hmem => by simp [hk k hmem] at hj)
      simpa only [laneTests, hj, if_true, reg] using this
    · simp [laneTests, hj]
  rw [heq, cargo_mk, htests, cargo_self]

/-! ### Shared operations -/

@[simp] theorem cargo_setReg {k : Nat} (h : isLaneTest k = false) (s : State) (v : Nat) : cargo (setReg s k v) = cargo s := by
  simp [setReg, h]

@[simp] theorem cargo_countBy {k : Nat} (h : isLaneTest k = false) (s : State) (w n : Nat) : cargo (countBy s w k n) = cargo s := by
  simp [countBy, h]

@[simp] theorem cargo_count1 {k : Nat} (h : isLaneTest k = false) (s : State) : cargo (count1 s k) = cargo s := by simp [count1, h]
@[simp] theorem cargo_count32 {k : Nat} (h : isLaneTest k = false) (s : State) : cargo (count32 s k) = cargo s := by simp [count32, h]
@[simp] theorem cargo_emit (s : State) (e : Emission) : cargo (emit s e) = cargo s := by simp [emit]
@[simp] theorem cargo_freeBits (s : State) (w : Nat) : cargo (freeBits s w).2 = cargo s := by simp [freeBits]

@[simp] theorem cargo_raise (s : State) (c : CauseReg) (b : Nat) : cargo (raise s c b) = cargo s :=
  cargo_of_noted (noted_raise [c.key] s c b (.inl (by simp))) (by simp)

@[simp] theorem cargo_perfEvent (s : State) (code inst n : Nat) : cargo (perfEvent s code inst n) = cargo s :=
  cargo_of_noted (noted_perfEvent [] s code inst n) (by simp)

@[simp] theorem cargo_postcard (s : State) (r : Nat) (c : Card) : cargo (postcard s r c) = cargo s :=
  cargo_of_noted (noted_postcard [] s r c) (by simp)

/-! ### Protected words (ch. 20) -/

@[simp] theorem cargo_setFlips (s : State) (cls unit idx n : Nat) : cargo (setFlips s cls unit idx n) = cargo s := by simp [setFlips]
@[simp] theorem cargo_latchError (s : State) (cls kind unit idx : Nat) : cargo (latchError s cls kind unit idx) = cargo s := by
  simp [latchError]

@[simp] theorem cargo_wordCorrected (s : State) (cls unit idx : Nat) : cargo (wordCorrected s cls unit idx) = cargo s := by
  simp [wordCorrected]

@[simp] theorem cargo_wordLost (s : State) (cls unit idx : Nat) (poisoned : Bool) : cargo (wordLost s cls unit idx poisoned) = cargo s := by
  simp [wordLost]

@[simp] theorem cargo_checkWord (s : State) (cls unit idx : Nat) : cargo (checkWord s cls unit idx).2 = cargo s := by simp [checkWord]
@[simp] theorem cargo_injectFired (s : State) : cargo (injectFired s) = cargo s := by simp [injectFired]

@[simp] theorem cargo_wordsWritten (s : State) (cls unit : Nat) (idxs : List Nat) : cargo (wordsWritten s cls unit idxs) = cargo s := by
  simp only [wordsWritten]
  split <;> simp

/-! ### Packet memory and its pools (ch. 9) -/

@[simp] theorem cargo_setUsed (s : State) (m u v : Nat) : cargo (setUsed s m u v) = cargo s := by simp [setUsed]
@[simp] theorem cargo_setQuar (s : State) (m u : Nat) : cargo (setQuar s m u) = cargo s := by simp [setQuar]
@[simp] theorem cargo_poolLowCheck (s : State) (n : Nat) : cargo (poolLowCheck s n) = cargo s := by simp [poolLowCheck]
@[simp] theorem cargo_afterAlloc (s : State) (n : Nat) : cargo (afterAlloc s n) = cargo s := by simp [afterAlloc]
@[simp] theorem cargo_ptrFault (s : State) (wh n p : Nat) : cargo (ptrFault s wh n p) = cargo s := by simp [ptrFault]

@[simp] theorem cargo_quarantinePtr (s : State) (m p : Nat) : cargo (quarantinePtr s m p) = cargo s := by
  simp only [quarantinePtr]
  repeat' split
  all_goals simp

@[simp] theorem cargo_ladleAlloc (s : State) (n : Nat) : cargo ((ladleAlloc s n).stateD s) = cargo s := by
  simp only [ladleAlloc]
  repeat' split
  all_goals simp

@[simp] theorem cargo_setSkim (s : State) (n h t c : Nat) : cargo (setSkim s n h t c) = cargo s := by simp [setSkim]
@[simp] theorem cargo_potWrite (s : State) (a : Nat) (b : List Byte) : cargo (potWrite s a b) = cargo s := by simp [potWrite]
@[simp] theorem cargo_setLinkWord (s : State) (c w : Nat) : cargo (setLinkWord s c w) = cargo s := by simp [setLinkWord]

@[simp] theorem cargo_skimAlloc (s : State) (n : Nat) : cargo ((skimAlloc s n).stateD s) = cargo s := by
  simp only [skimAlloc]
  repeat' split
  all_goals simp

@[simp] theorem cargo_storeAlloc (s : State) (n : Nat) : cargo ((storeAlloc s n).stateD s) = cargo s := by
  rw [storeAlloc]
  split <;> simp

@[simp] theorem cargo_leakUnits (s : State) (m : Nat) (l : List Nat) : cargo (leakUnits s m l) = cargo s := by
  refine cargo_foldl (fun s u => ?_) l s
  split <;> simp

@[simp] theorem cargo_readBitmap (s : State) (m u : Nat) : cargo (readBitmap s m u) = cargo s := by simp [readBitmap]

/-- Taking a unit touches no packet, whatever it comes to. -/
theorem cargo_of_allocUnit {s : State} {n : Nat} {x : Alloc} (h : allocUnit s n = x) : cargo (x.stateD s) = cargo s := by
  subst h
  have hs := cargo_storeAlloc s n
  rw [allocUnit]
  split
  · exact hs
  · split
    · rename_i u _ _
      have hr := cargo_storeAlloc (readBitmap s (plMemory s n) u) n
      cases hb : storeAlloc (readBitmap s (plMemory s n) u) n <;> simp_all
    · exact hs

@[simp] theorem cargo_freeUnit (s : State) (m u : Nat) : cargo (freeUnit s m u) = cargo s := by
  rw [freeUnit]
  split <;> simp

@[simp] theorem cargo_freeUnits (s : State) (m : Nat) (l : List Nat) : cargo (freeUnits s m l) = cargo s := by simp [freeUnits]

@[simp] theorem cargo_writeCells (s : State) (l : List Nat) (b : List Byte) : cargo (writeCells s l b) = cargo s := by
  induction l generalizing s b with
  | nil => rfl
  | cons c r ih => simp [writeCells, ih]

@[simp] theorem cargo_storeFrom (s : State) (cells : List Nat) (a : Nat) (b : List Byte) : cargo (storeFrom s cells a b) = cargo s := by
  rw [storeFrom]
  split <;> simp

/-! ### Counters of ports, queues, meters and credit -/

/-- A statistics counter of a port. -/
theorem cargo_mainCount (s : State) (p n : Nat) {sub : Nat} (h : 0x40 ≤ sub) (h' : sub < 256) : cargo (mainCount s p sub n) = cargo s := by
  simp [mainCount, notTest_key h' (by omega : 0x2000 + p < 0x2500 ∨ 0x2640 ≤ 0x2000 + p ∨ (sub ≠ 0x0E ∧ sub ≠ 0x10))]

theorem cargo_fbCount (s : State) (p n : Nat) {sub : Nat} (h : 0x40 ≤ sub) (h' : sub < 256) : cargo (fbCount s p sub n) = cargo s := by
  simp [fbCount, notTest_key h' (by omega : 0x2000 + p < 0x2500 ∨ 0x2640 ≤ 0x2000 + p ∨ (sub ≠ 0x0E ∧ sub ≠ 0x10))]

theorem sizeBin_le (l : Nat) : sizeBin l ≤ 9 := by
  simp only [sizeBin]
  repeat' split
  all_goals omega

theorem addrClass_le (f : List Byte) : addrClass f ≤ 2 := by
  simp only [addrClass]
  repeat' split
  all_goals omega

theorem cargo_fbRxSize (s : State) (p l : Nat) : cargo (fbRxSize s p l) = cargo s := by
  have hb := sizeBin_le l
  simp only [fbRxSize, cargo_perfEvent, cargo_ite]
  rw [cargo_fbCount _ p 1 (sub := 0x85 + sizeBin l) (by omega) (by omega), cargo_fbCount _ p 1 (by decide) (by decide),
    cargo_fbCount _ p l (by decide) (by decide), ite_self]

theorem cargo_fbTxSize (s : State) (p : Nat) (f : List Byte) : cargo (fbTxSize s p f) = cargo s := by
  have hb := sizeBin_le f.length
  have ha := addrClass_le f
  simp only [fbTxSize, cargo_perfEvent, cargo_ite]
  rw [cargo_fbCount _ p 1 (sub := 0xA5 + sizeBin f.length) (by omega) (by omega),
    cargo_fbCount _ p 1 (sub := 0xA2 + addrClass f) (by omega) (by omega), cargo_fbCount _ p 1 (by decide) (by decide),
    cargo_fbCount _ p f.length (by decide) (by decide), ite_self]

/-- A pause or PFC frame that leaves is counted at its port (R73). -/
@[simp] theorem cargo_sendControl (s : State) (p : Nat) (f : List Byte) : cargo (sendControl s p f) = cargo s := by
  have hfold : ∀ s : State, cargo ((bitList 8 (beAt f 16 2)).foldl (fun s i => fbCount s p (0xB0 + i) 1) s) = cargo s :=
    cargo_foldl_mem fun i hi s => by
      have : i < 8 := by
        simp only [bitList, List.mem_filter, List.mem_range] at hi
        exact hi.1
      exact cargo_fbCount s p 1 (by omega) (by omega)
  simp only [sendControl, cargo_emit, cargo_ite, hfold]
  rw [cargo_fbCount _ p 1 (by decide) (by decide), cargo_mainCount _ p 1 (by decide) (by decide), cargo_fbTxSize, ite_self]

@[simp] theorem cargo_setQueue (s : State) (q : Nat) (x : Queue) : cargo (setQueue s q x) = cargo s := by simp [setQueue]
@[simp] theorem cargo_setGrant (s : State) (k : Nat) (g : Grant) : cargo (setGrant s k g) = cargo s := by simp [setGrant]
@[simp] theorem cargo_dueKnown (s : State) (i : Nat) (p : Pkt) : cargo (dueKnown s i p) = cargo s := by simp [dueKnown]
@[simp] theorem cargo_spillExit (s : State) (q : Nat) : cargo (spillExit s q) = cargo s := by simp [spillExit]

@[simp] theorem cargo_readCount (s : State) (p : Pkt) : cargo (readCount s p).2 = cargo s := by
  rw [readCount]
  split <;> simp

@[simp] theorem cargo_correctionsDue (s : State) (ds : List MeterDraw) (len : Option Nat) : cargo (correctionsDue s ds len) = cargo s := by
  simp [correctionsDue]

@[simp] theorem cargo_postCounters (s : State) (l : List Nat) (n : Nat) : cargo (postCounters s l n) = cargo s := by simp [postCounters]
@[simp] theorem cargo_gatherEntry (s : State) (d ty e : Nat) : cargo (gatherEntry s d ty e) = cargo s := by simp [gatherEntry]
@[simp] theorem cargo_requestUnits (s : State) (q : Nat) : cargo (requestUnits s q) = cargo s := by simp [requestUnits]
@[simp] theorem cargo_touchVoqs (s : State) : cargo (touchVoqs s) = cargo s := by simp [touchVoqs]

end Sys2Proof.Machine
end

section
/-! SUPPORT. What the release of packets, cells and references leaves as it was, with the discards, counts and flow-control frames that
go with it (R215, R224, R355): packets may leave and receive no new verdict, frames in reception stay, and so do the fabric lanes. -/

namespace Sys2Proof.Machine

variable {α : Type}

/-! ### Tables from which entries leave -/

theorem mget_eq_getD_mfind (d : α) (m : SMap α) (k : Nat) : mget d m k = (mfind m k).getD d := by
  induction m with
  | nil => rfl
  | cons x r ih =>
    simp only [mget, mfind]
    split
    · rfl
    · split
      · rfl
      · exact ih

theorem mget_mput_self (d : α) (m : SMap α) (k : Nat) (v : α) : mget d (mput m k v) k = v := by
  rw [mget_eq_getD_mfind, mfind_mput_self]
  rfl

theorem mem_mkeys_of_mfind {m : SMap α} {i : Nat} {v : α} (h : mfind m i = some v) : i ∈ mkeys m := by
  induction m with
  | nil => cases h
  | cons p r ih =>
    simp only [mfind] at h
    simp only [mkeys, List.map_cons, List.mem_cons] at ih ⊢
    split at h
    · cases h
    · split at h
      · exact .inl ‹_›
      · exact .inr (ih h)

/-- An entry stays where another index is removed. -/
theorem mfind_mdel_of_ne {m : SMap α} {i j : Nat} {v : α} (h : mfind m i = some v) (hj : i ≠ j) : mfind (mdel m j) i = some v := by
  induction m with
  | nil => cases h
  | cons p r ih =>
    simp only [mfind] at h
    unfold mdel at ih ⊢
    split at h
    · cases h
    · rename_i hlt
      split at h
      · rename_i heq
        have hp : p.1 ≠ j := fun hp => hj (heq.trans hp)
        simpa [List.filter, hp, mfind, heq] using h
      · rename_i hne
        by_cases hp : p.1 = j
        · simpa [List.filter, hp] using ih h
        · simpa [List.filter, hp, mfind, hlt, hne] using ih h

theorem mem_mkeys_mdel {m : SMap α} {i j : Nat} : i ∈ mkeys (mdel m j) ↔ i ∈ mkeys m ∧ i ≠ j := by
  simp only [mkeys, mdel, List.mem_map, List.mem_filter, decide_eq_true_eq]
  constructor
  · rintro ⟨p, ⟨hp, hj⟩, rfl⟩
    exact ⟨⟨p, hp, rfl⟩, hj⟩
  · rintro ⟨⟨p, hp, rfl⟩, hj⟩
    exact ⟨p, ⟨hp, hj⟩, rfl⟩

theorem mem_mkeys_mput {m : SMap α} {i j : Nat} {v : α} (h : i ∈ mkeys (mput m j v)) : i = j ∨ i ∈ mkeys m := by
  induction m with
  | nil => simpa [mput, mkeys] using h
  | cons p r ih =>
    simp only [mkeys] at ih h ⊢
    simp only [mput] at h
    split at h
    · simpa using h
    · split at h
      · simp only [List.map_cons, List.mem_cons] at h ⊢
        exact h.imp_right .inr
      · simp only [List.map_cons, List.mem_cons] at h ⊢
        rcases h with h | h
        · exact .inr (.inl h)
        · exact (ih h).imp_right .inr

/-! ### What a release keeps -/

/-- The packet `i` carries the verdict `b` of its MAC, or is not held at all. -/
def MarkedOrGone (s : State) (i : Nat) (b : Option Nat) : Prop := i ∉ mkeys s.pkts ∨ ∃ k, pkt? s i = some k ∧ k.bad = b

/-- What a change of packets leaves as it was: the count of arrivals, the next packet's number, an empty receive buffer, the frames in
reception, and the fabric lanes with their test modes. -/
structure Steady (s t : State) : Prop where
  aLine : t.led.aLine = s.led.aLine
  nextPkt : t.nextPkt = s.nextPkt
  emptyHeld : ∀ n, (mget {} s.lmacs n).held = [] → (mget {} t.lmacs n).held = []
  rx : ∀ p, (port t p).rx = (port s p).rx
  flanes : t.fl.lanes = s.fl.lanes
  tests : laneTests t.od = laneTests s.od

/-- What a release leaves as it was: no packet appears, and none receives another verdict. -/
structure Kept (s t : State) : Prop extends Steady s t where
  marks : ∀ i b, MarkedOrGone s i b → MarkedOrGone t i b

theorem Steady.refl (s : State) : Steady s s := ⟨rfl, rfl, fun _ => id, fun _ => rfl, rfl, rfl⟩

theorem Steady.trans {s t u : State} (h : Steady s t) (g : Steady t u) : Steady s u :=
  ⟨g.aLine.trans h.aLine, g.nextPkt.trans h.nextPkt, fun n hn => g.emptyHeld n (h.emptyHeld n hn), fun p => (g.rx p).trans (h.rx p),
    g.flanes.trans h.flanes, g.tests.trans h.tests⟩

theorem Kept.refl (s : State) : Kept s s := ⟨.refl s, fun _ _ => id⟩

theorem Kept.trans {s t u : State} (h : Kept s t) (g : Kept t u) : Kept s u :=
  ⟨h.toSteady.trans g.toSteady, fun i b hm => g.marks i b (h.marks i b hm)⟩

theorem pkt_of_cargo {s t : State} (h : cargo t = cargo s) (i : Nat) : pkt? t i = pkt? s i := by
  rw [pkt?, (cargo_parts h).1, pkt?]

theorem port_of_cargo {s t : State} (h : cargo t = cargo s) (p : Nat) : port t p = port s p := by
  rw [port, (cargo_parts h).2.2.1, port]

theorem kept_of_cargo {s t : State} (h : cargo t = cargo s) : Kept s t := by
  obtain ⟨hpkts, hnext, -, hled, hlmacs, hlanes, htests⟩ := cargo_parts h
  refine ⟨⟨by rw [hled], hnext, fun n => by rw [hlmacs]; exact id, fun p => by rw [port_of_cargo h p], hlanes, htests⟩, fun i b hm => ?_⟩
  simpa only [MarkedOrGone, pkt_of_cargo h, hpkts] using hm

/-- What only the cargo's owner touches afterwards. -/
theorem Kept.cargo {s t u : State} (h : Kept s t) (g : cargo u = cargo t) : Kept s u := h.trans (kept_of_cargo g)

theorem kept_ite {s t u : State} (c : Prop) [Decidable c] (ht : Kept s t) (hu : Kept s u) : Kept s (if c then t else u) := by
  split
  · exact ht
  · exact hu

theorem kept_foldl {f : State → α → State} (h : ∀ s x, Kept s (f s x)) (l : List α) (s : State) : Kept s (l.foldl f s) :=
  List.foldlRecOn l f (motive := Kept s) (Kept.refl s) fun t ht x _ => ht.trans (h t x)

/-- An update of the ledger that counts no arrival. -/
theorem kept_withLed (s : State) (l : Ledger) (h : l.aLine = s.led.aLine) : Kept s { s with led := l } :=
  ⟨⟨h, rfl, fun _ => id, fun _ => rfl, rfl, rfl⟩, fun _ _ => id⟩

theorem port_setPort_ne (s : State) {p q : Nat} (x : Port) (h : q ≠ p) : port (setPort s p x) q = port s q := mget_mset_ne _ _ _ _ _ h

/-- An update of a port that leaves its reception alone. -/
theorem kept_setPort (s : State) (p : Nat) (x : Port) (h : x.rx = (port s p).rx) : Kept s (setPort s p x) := by
  refine ⟨⟨rfl, rfl, fun _ => id, fun q => ?_, rfl, rfl⟩, fun _ _ => id⟩
  by_cases hq : q = p
  · rw [hq, port_setPort_self, h]
  · rw [port_setPort_ne s x hq]

/-- A change of the packets alone. -/
theorem steady_withPkts (s : State) (m : SMap Pkt) : Steady s { s with pkts := m } :=
  ⟨rfl, rfl, fun _ => id, fun _ => rfl, rfl, rfl⟩

/-- An update of a packet that leaves its verdict alone. -/
theorem kept_setPkt {s : State} {i : Nat} {k : Pkt} (k' : Pkt) (h : pkt? s i = some k) (hb : k'.bad = k.bad) : Kept s (setPkt s i k') := by
  refine ⟨steady_withPkts s _, fun j b hm => ?_⟩
  by_cases hj : j = i
  · subst hj
    rcases hm with hm | ⟨k0, hk0, hb0⟩
    · exact absurd (mem_mkeys_of_mfind h) hm
    · rw [h] at hk0
      cases hk0
      exact .inr ⟨k', pkt_setPkt_self s j k', hb.trans hb0⟩
  · rcases hm with hm | ⟨k0, hk0, hb0⟩
    · exact .inl fun hmem => (mem_mkeys_mput hmem).elim hj hm
    · exact .inr ⟨k0, (mfind_mput_ne s.pkts i j k' hj).trans hk0, hb0⟩

/-- A packet that is forgotten. -/
theorem kept_delPkt (s : State) (i : Nat) : Kept s (delPkt s i) := by
  refine ⟨steady_withPkts s _, fun j b hm => ?_⟩
  by_cases hj : j = i
  · exact .inl fun hmem => (mem_mkeys_mdel.1 hmem).2 hj
  · rcases hm with hm | ⟨k, hk, hb⟩
    · exact .inl fun hmem => hm (mem_mkeys_mdel.1 hmem).1
    · exact .inr ⟨k, mfind_mdel_of_ne hk hj, hb⟩

/-! ### Flow control (R71, R224) -/

theorem kept_queueControl (s : State) (p : Nat) (pfc : Bool) (vec time : Nat) : Kept s (queueControl s p pfc vec time) := by
  have h := kept_of_cargo (cargo_freeBits s 48)
  simp only [queueControl]
  split
  · exact h
  · split
    · exact h.trans (kept_setPort _ p _ rfl)
    · exact h.cargo (cargo_sendControl _ p _)

theorem kept_sendXoff (s : State) (p i : Nat) (on : Bool) : Kept s (sendXoff s p i on) :=
  (kept_setPort s p { port s p with xoff := if on then mput (port s p).xoff i s.time else mdel (port s p).xoff i } rfl).trans
    (kept_queueControl _ p _ _ _)

theorem kept_thresholdStep (s : State) (p i n : Nat) : Kept s (thresholdStep s p i n) := by
  exact kept_ite _ (kept_sendXoff s p i true) (kept_ite _ (kept_sendXoff s p i false) (.refl s))

theorem kept_fcCheck (s : State) (p : Nat) : Kept s (fcCheck s p) :=
  kept_ite _ (kept_foldl (fun s c => kept_thresholdStep s p c _) _ s) (kept_ite _ (kept_thresholdStep s p 8 _) (.refl s))

/-- The thresholds of a packet's port are looked at (R224). -/
theorem kept_fcCheckOf (s : State) (p : Pkt) : Kept s (fcCheckOf s p) := by
  rw [fcCheckOf]
  split
  · exact kept_fcCheck s _
  · exact .refl s

/-- The thresholds look at ports alone. -/
theorem pkts_queueControl (s : State) (p : Nat) (pfc : Bool) (vec time : Nat) : (queueControl s p pfc vec time).pkts = s.pkts := by
  simp only [queueControl]
  split
  · rfl
  · split
    · rfl
    · exact (cargo_parts (cargo_sendControl _ p _)).1

theorem pkts_fcCheckOf (s : State) (p : Pkt) : (fcCheckOf s p).pkts = s.pkts := by
  have hstep : ∀ (s : State) (q i n : Nat), (thresholdStep s q i n).pkts = s.pkts := by
    intro s q i n
    simp only [thresholdStep]
    split
    · exact pkts_queueControl _ q _ _ _
    · split
      · exact pkts_queueControl _ q _ _ _
      · rfl
  rw [fcCheckOf]
  split
  · simp only [fcCheck]
    split
    · exact List.foldlRecOn _ _ (motive := fun t : State => t.pkts = s.pkts) rfl fun t ht c _ => (hstep t _ c _).trans ht
    · split
      · exact hstep s _ 8 _
      · rfl
  · rfl

/-! ### Discards (R355) -/

/-- Of `s` and `t` only the ledger differs in the cargo, and its count of line arrivals is the same. -/
def OnlyLedger (s t : State) : Prop := ∃ l : Ledger, l.aLine = s.led.aLine ∧ cargo t = { cargo s with led := l }

theorem onlyLedger_of_cargo {s t : State} (h : cargo t = cargo s) : OnlyLedger s t := ⟨s.led, rfl, h⟩

theorem OnlyLedger.trans {s t u : State} (h : OnlyLedger s t) (g : OnlyLedger t u) : OnlyLedger s u := by
  obtain ⟨l, hl, ht⟩ := h
  obtain ⟨m, hm, hu⟩ := g
  have hled : t.led = l := congrArg Cargo.led ht
  exact ⟨m, by rw [hm, hled, hl], by rw [hu, ht]⟩

theorem onlyLedger_withLed (s : State) (l : Ledger) (h : l.aLine = s.led.aLine) : OnlyLedger s { s with led := l } := ⟨l, h, rfl⟩

theorem OnlyLedger.pkts {s t : State} (h : OnlyLedger s t) : t.pkts = s.pkts := by
  obtain ⟨_, -, h⟩ := h
  exact congrArg Cargo.pkts h

theorem OnlyLedger.ports {s t : State} (h : OnlyLedger s t) : t.ports = s.ports := by
  obtain ⟨_, -, h⟩ := h
  exact congrArg Cargo.ports h

theorem OnlyLedger.kept {s t : State} (h : OnlyLedger s t) : Kept s t := by
  obtain ⟨l, hl, h⟩ := h
  exact (kept_withLed s l hl).cargo h

/-- The counts of a discard (R355). -/
def dropCounted (s : State) (r : Nat) (at? : Option Nat) : State := match at? with
  | some p => count1 (count1 s (Reg.dropTotal r)) (Reg.dropPort p r)
  | none => count1 (count1 s (Reg.dropTotal r)) (Reg.dropUnattributed r)

/-- The ledger's entry of a discard (R359). -/
def dropEntered (s : State) (r : Nat) : State :=
  if r = 8 then { s with led.c := s.led.c + 1 } else { s with led.x := mset 0 s.led.x r (mget 0 s.led.x r + 1) }

/-- A discard is its counts, its entry in the ledger, its event and its postcard. -/
theorem discard_eq (s : State) (r : Nat) (at? : Option Nat) (c : Card) : discard s r at? c =
    if r = 0 ∨ (46 ≤ r ∧ r ≤ 62) then s
    else postcard (perfEvent (dropEntered (dropCounted s r at?) r) 3
      (match at? with | some p => p * 64 + r | none => 2 ^ 16 + r) 0) r c := by
  cases at? <;> rfl

theorem onlyLedger_discard (s : State) (r : Nat) (at? : Option Nat) (c : Card) : OnlyLedger s (discard s r at? c) := by
  have hcount : cargo (dropCounted s r at?) = cargo s := by cases at? <;> simp [dropCounted]
  have henter : ∀ u, OnlyLedger u (dropEntered u r) := fun u => by
    rw [dropEntered]
    split
    · exact onlyLedger_withLed u _ rfl
    · exact onlyLedger_withLed u _ rfl
  rw [discard_eq]
  split
  · exact onlyLedger_of_cargo rfl
  · exact ((onlyLedger_of_cargo hcount).trans (henter _)).trans (onlyLedger_of_cargo (by simp))

theorem onlyLedger_leaveArrival (s : State) (p : Pkt) : OnlyLedger s (leaveArrival s p) := by
  rw [leaveArrival]
  split <;> exact onlyLedger_withLed s _ rfl

theorem onlyLedger_queueLeft (s : State) : OnlyLedger s (queueLeft s) := onlyLedger_withLed s _ rfl

/-! ### Releases (R215, R356) -/

theorem kept_creditBack (s : State) (i : Nat) : Kept s (creditBack s i) := by
  rw [creditBack]
  split
  · rename_i p hp
    exact kept_ite _ ((kept_of_cargo (cargo_setGrant s _ _)).trans (kept_setPkt { p with credited := false } hp rfl)) (.refl s)
  · exact .refl s

/-- A packet that is freed is gone, and its cells go back (R215). -/
theorem kept_freePkt (s : State) (i : Nat) : Kept s (freePkt s i) := by
  rw [freePkt]
  split
  · rename_i p _
    exact ((kept_of_cargo ((cargo_freeUnits _ 0 p.cells).trans (cargo_dueKnown s i p))).trans (kept_delPkt _ i)).trans (kept_fcCheckOf _ p)
  · exact .refl s

theorem pkt_freePkt_self (s : State) (i : Nat) : pkt? (freePkt s i) i = none := by
  rw [freePkt]
  split
  · rw [pkt?, pkts_fcCheckOf]
    exact pkt_delPkt_self _ i
  · assumption

/-- A release of a reference (R215). -/
theorem kept_releaseRef (s : State) (i : Nat) : Kept s (releaseRef s i) := by
  have hunder : Kept s (raise (count1 s Reg.pmRefcountUnderflows) .pm 3) := kept_of_cargo (by simp)
  rw [releaseRef]
  split
  · rename_i p hp
    have hc := kept_of_cargo (cargo_readCount s p)
    have hp' : pkt? (readCount s p).2 i = some p := (pkt_of_cargo (cargo_readCount s p) i).trans hp
    refine kept_ite _ hc (kept_ite _ ?_ (kept_ite _ ?_ (kept_ite _ ?_ ?_)))
    · exact (hc.trans (kept_setPkt { p with leaked := true } hp' rfl)).cargo (cargo_leakUnits _ 0 p.cells)
    · exact hc.cargo (by simp)
    · exact (hc.trans (kept_setPkt { p with refs := 0 } hp' rfl)).trans (kept_freePkt _ i)
    · exact hc.trans (kept_setPkt { p with refs := p.refs - 1 } hp' rfl)
  · exact hunder

theorem kept_discardHeld (s : State) (q : Nat) (r : Ref) (reason : Nat) : Kept s (discardHeld s q r reason) := by
  rw [discardHeld]
  split
  · exact (((onlyLedger_discard s reason _ _).trans (onlyLedger_queueLeft _)).kept.trans (kept_creditBack _ _)).trans (kept_releaseRef _ _)
  · exact (onlyLedger_queueLeft s).kept

/-- A packet that never reaches a queue (R356). -/
theorem kept_discardArrival (s : State) (i r : Nat) : Kept s (discardArrival s i r) := by
  rw [discardArrival]
  split
  · exact (((onlyLedger_discard s r _ _).trans (onlyLedger_leaveArrival _ _)).kept.trans (kept_creditBack _ i)).trans (kept_freePkt _ i)
  · exact .refl s

theorem pkt_discardArrival_self (s : State) (i r : Nat) : pkt? (discardArrival s i r) i = none := by
  rw [discardArrival]
  split
  · exact pkt_freePkt_self _ i
  · assumption

/-- The waiting references of a packet are discarded (R223). -/
theorem kept_purge (s : State) (i r : Nat) : Kept s (purge s i r) := by
  refine kept_foldl (fun s x => ?_) _ s
  exact kept_ite _ (.refl s) (((kept_of_cargo (cargo_setQueue s x.1 _)).trans
    (kept_foldl (fun s y => kept_discardHeld s x.1 y r) _ _)).cargo (cargo_spillExit _ x.1))

end Sys2Proof.Machine
end

section
/-! SUPPORT. Pause states, resends and the egg timer (R70–R72). -/

namespace Sys2Proof.Machine

/-- A bit reads as set once it is set. -/
@[simp] theorem bit_setBit_self (v i : Nat) : bit (setBit v i) i = true := by
  simp only [setBit]
  split
  · assumption
  · rename_i h
    have h0 : v / 2 ^ i % 2 = 0 := by
      simp only [bit, beq_iff_eq] at h
      omega
    have h1 : (v + 2 ^ i) / 2 ^ i = v / 2 ^ i + 1 := Nat.add_div_right v (Nat.two_pow_pos i)
    simp only [bit, h1, beq_iff_eq]
    omega

/-- A cause raised stands, whatever its pulse brings on the side (R380). -/
theorem bit_raise_self (s : State) (c : CauseReg) (b : Nat) (h : sideEntry c.key = false) : bit (reg (raise s c b) c.key) b = true := by
  simp only [raise]
  split
  · assumption
  · split
    · rw [(noted_pulseCause [] _ c b).2.2 _ h (by simp), reg_setReg_self, bit_setBit_self]
    · rw [reg_setReg_self, bit_setBit_self]

/-- A cause raised leaves the entries beside its register as they were. -/
theorem reg_raise_of_ne (s : State) (c : CauseReg) (b : Nat) {k : Nat} (hs : sideEntry k = false) (hk : k ≠ c.key) :
    reg (raise s c b) k = reg s k := (noted_raise [c.key] s c b (.inl (by simp))).2.2 k hs (by simpa using hk)

/-! ### Pause frames (R71) -/

theorem xoff_queueControl (s : State) (p : Nat) (pfc : Bool) (vec time : Nat) :
    (port (queueControl s p pfc vec time) p).xoff = (port s p).xoff := by
  simp only [queueControl]
  split
  · rfl
  · split
    · rw [port_setPort_self]
      rfl
    · rw [port_of_cargo (cargo_sendControl _ p _)]
      rfl

/-- An XOFF sent is on from now (R71). -/
theorem xoff_sendXoff (s : State) (p i : Nat) : mfind (port (sendXoff s p i true) p).xoff i = some s.time := by
  simp [sendXoff, xoff_queueControl]

/-- A control frame leaves at once where the link is up and no frame is in progress (R71). -/
theorem queueControl_now {s : State} {p : Nat} (hl : linkUp s p = true) (ht : (port s p).tx = none) (pfc : Bool) (vec time : Nat) :
    queueControl s p pfc vec time = sendControl (freeBits s 48).2 p (pauseFrame (freeBits s 48).1 pfc vec time) := by
  have hl' : linkUp (freeBits s 48).2 p = true := hl
  have ht' : (port (freeBits s 48).2 p).tx = none := ht
  simp [queueControl, hl', ht']

/-- An XOFF sent now is the newest output, with the quanta of the port (R71). -/
theorem head_sendXoff {s : State} {p : Nat} (i : Nat) (hl : linkUp s p = true) (ht : (port s p).tx = none) :
    ∃ sa, (sendXoff s p i true).sent.head? =
      some (.frame p (pauseFrame sa (i != 8) (if i = 8 then 0 else 2 ^ i) (reg s (Reg.portPauseQuanta p))) true) := by
  have hl' : linkUp (setPort s p { port s p with xoff := mput (port s p).xoff i s.time }) p = true := hl
  have hnow := queueControl_now hl' (by rw [port_setPort_self]; exact ht) (i != 8) (if i = 8 then 0 else 2 ^ i)
    (reg s (Reg.portPauseQuanta p))
  exact ⟨(freeBits s 48).1, congrArg (fun t : State => t.sent.head?) hnow⟩

/-! ### The egg timer (R72) -/

/-- A state that the egg timer ends is held off from now on (R72). -/
def eggHeldOff (s : State) (p i : Nat) : State :=
  let x := port s p
  let s := setPort s p { x with pause := mdel x.pause i, eggHold := mput x.eggHold i s.time }
  setReg s (Reg.portEggState p) (setBit (reg s (Reg.portEggState p)) i)

/-- What the egg timer does when it fires: the state is held off, and the firing is counted and raised (R72). -/
theorem exec_eggTimerFire {s : State} {p i : Nat} {x : Pause} (hx : mfind (port s p).pause i = some x) (hend : s.time < x.ends)
    (ht : timeNs s % 1000 = 0) (hon : flag s (Reg.portEggEnable p) = true) (hlast : reg s (Reg.portEggTimeMs p) * 1000 ≤ ticksSince s x.since) :
    Answers (.eggTimerFire p i) s (raise (mainCount (eggHeldOff s p i) p 0x4F 1) (.port p) 2) := by
  simp [Answers, exec, execEggTimerFire, hx, hend, ht, hon, hlast, eggHeldOff]

end Sys2Proof.Machine

namespace Sys2Proof

open Machine

/-- Settles O9: each timer's condition is the one its command looks for, and what a firing counts and raises touches neither the port nor
its egg state. -/
theorem pauseTimers : Obligations.PauseTimers := by
  refine fun s p i _ hp => ⟨fun x hx hend => ?_, fun x hx hq => ⟨sendXoff s p i true, ?_, xoff_sendXoff s p i, fun hl ht => head_sendXoff i hl ht⟩,
    fun x hx hend ht hon hlast => ⟨_, exec_eggTimerFire hx hend ht hon hlast, ?_⟩, fun x hx ht hlast => ?_⟩
  · simp [Answers, exec, execPauseTimeExpiry, hx, hend]
  · simp [Answers, exec, execPauseResend, hx, hq]
  · have hport : port (raise (mainCount (eggHeldOff s p i) p 0x4F 1) (.port p) 2) p =
        { port s p with pause := mdel (port s p).pause i, eggHold := mput (port s p).eggHold i s.time } := by
      rw [port_of_cargo ((cargo_raise _ _ 2).trans (cargo_mainCount _ p 1 (by decide) (by decide)))]
      exact port_setPort_self s p _
    have hcause : (CauseReg.port p).key = key (0x2000 + p) 0x1E := keyIf_lt hp _
    have hside : ∀ n < 256, sideEntry (key (0x2000 + p) n) = false := fun n hn => side_portLane (by omega) (by omega) hn
    have hreg : ∀ n < 256, n ≠ 0x1E → reg (raise (mainCount (eggHeldOff s p i) p 0x4F 1) (.port p) 2) (key (0x2000 + p) n) =
        reg (mainCount (eggHeldOff s p i) p 0x4F 1) (key (0x2000 + p) n) := fun n hn h =>
      reg_raise_of_ne _ (.port p) 2 (hside n hn) (hcause ▸ key_ne_of_sub _ h)
    have hegg : Reg.portEggState p = key (0x2000 + p) 0x18 := keyIf_lt hp _
    have hbit := bit_raise_self (mainCount (eggHeldOff s p i) p 0x4F 1) (.port p) 2 (hcause ▸ hside 0x1E (by decide))
    rw [hport]
    refine ⟨mfind_mdel_self _ i, mfind_mput_self _ i _, ?_, hbit, ?_⟩
    · rw [hegg, hreg 0x18 (by decide) (by decide), mainCount, countBy, reg_setReg_sub _ _ _ (by decide), eggHeldOff, hegg, reg_setReg_self]
      rfl
    · rw [hreg 0x4F (by decide) (by decide), mainCount, countBy, reg_setReg_self, eggHeldOff, hegg, reg_setReg_sub _ _ _ (by decide)]
      rfl
  · simp [Answers, exec, execEggHoldEnd, hx, ht, hlast]

end Sys2Proof
end

section
/-! SUPPORT. Performance seconds (R308–R310), and the loss of a fabric lane's frame lock (R305, R307, R319): what it does to the lane, and
that the path defects and destinations that follow leave every lane as it was. -/

namespace Sys2Proof.Machine

variable {α : Type}

/-! ### Lanes and bundles -/

/-- A fabric lane's record reads as what replaced it. -/
@[simp] theorem flane_setFlane_self (s : State) (l : Nat) (x : FLane) : flane (setFlane s l x) l = x := mget_mset_self _ _ _ _

@[simp] theorem cargo_setBundle (s : State) (b : Nat) (x : FBundle) : cargo (setBundle s b x) = cargo s := by simp [setBundle]

theorem Kept.flane {s t : State} (h : Kept s t) (l : Nat) : flane t l = flane s l := by
  rw [Machine.flane, h.flanes, Machine.flane]

/-- A test mode reads as it did before a release. -/
theorem Kept.reg {s t : State} (h : Kept s t) {k : Nat} (hk : isLaneTest k = true) : reg t k = reg s k := by
  simpa [laneTests, hk, Machine.reg] using congrFun h.tests k

/-! ### A performance second (R308–R310) -/

/-- A table whose first `n` indexes are each written once, from what they read. -/
theorem mget_foldl_range [DecidableEq α] (d : α) (g : Nat → α → α) (m : SMap α) (l : Nat) : ∀ n : Nat,
    mget d ((List.range n).foldl (fun m i => mset d m i (g i (mget d m i))) m) l = if l < n then g l (mget d m l) else mget d m l
  | 0 => by simp
  | n + 1 => by
    rw [List.range_succ, List.foldl_append, List.foldl_cons, List.foldl_nil]
    by_cases h : l = n
    · subst h
      simp [mget_foldl_range d g m l l]
    · have hlt : l < n + 1 ↔ l < n := by omega
      rw [mget_mset_ne _ _ _ _ _ h, mget_foldl_range d g m l n]
      simp only [hlt]

/-- One end at the start of the second `sec`: the second before is classified, with a defect where there is one, and bins close. -/
def classified (sec : Nat) (x : PmEnd) (defect severe : Bool) : PmEnd :=
  ((if defect then x.mark severe else x).second (sec - 1)).close sec

/-- Both ends of a lane at the start of a second. -/
def laneClassified (s : State) (sec l : Nat) (x : FLane) : FLane :=
  { x with near := classified sec x.near (reg s (Reg.flDefects l) != 0) (bit (reg s (Reg.flDefects l)) 2),
           far := classified sec x.far x.rdi x.rdi }

/-- Both ends of a bundle at the start of a second; a 15-minute bin that closes sets its cause (R310). -/
def bundleClassified (sec : Nat) (s : State) (b : Nat) : State :=
  let x := bundle s b
  let d := reg s (Reg.fbPathDefects b)
  let lof := (idsOf (reg s (Reg.fbRxLaneSet b))).any (fun i => (laneOfId s b i).isNone)
  let s := setBundle s b { x with near := classified sec x.near (d != 0) (bits d 2 1 != 0 || lof), far := classified sec x.far x.rdi x.rdi }
  if sec % 900 = 0 then raise s (.fb b) 12 else s

/-- The lanes of a state at the start of a second. -/
def lanesClassified (s : State) (sec : Nat) : State :=
  { s with fl.lanes := (List.range 320).foldl (fun m l => mset {} m l (laneClassified s sec l (mget {} m l))) s.fl.lanes }

/-- What a performance second comes to at a whole TIME second: first the lanes, then the bundles. -/
theorem exec_pmSecond {s : State} (h : timeNs s % 1000000000 = 0) : Answers .pmSecond s
    ((List.range 8).foldl (bundleClassified (timeNs s / 1000000000)) (lanesClassified s (timeNs s / 1000000000))) := by
  simp only [Answers, exec, execPmSecond, h, ne_eq, not_true, if_false]
  rfl

theorem cargo_bundleClassified (sec : Nat) (s : State) (b : Nat) : cargo (bundleClassified sec s b) = cargo s := by
  simp [bundleClassified]

theorem flane_lanesClassified (s : State) (sec : Nat) {l : Nat} (hl : l < 320) :
    flane (lanesClassified s sec) l = laneClassified s sec l (flane s l) := by
  simp only [flane, lanesClassified]
  rw [mget_foldl_range, if_pos hl]

theorem flane_pmSecond (s : State) {l : Nat} (hl : l < 320) :
    flane ((List.range 8).foldl (bundleClassified (timeNs s / 1000000000)) (lanesClassified s (timeNs s / 1000000000))) l =
      laneClassified s (timeNs s / 1000000000) l (flane s l) := by
  rw [(kept_of_cargo (cargo_foldl (cargo_bundleClassified _) (List.range 8) _)).flane l, flane_lanesClassified s _ hl]

/-- The cause of a bundle. -/
theorem side_fbCause {b : Nat} (hb : b < 8) : sideEntry (CauseReg.fb b).key = false := by
  rw [CauseReg.key, Reg.fbCause, keyIf_lt hb]
  exact side_portLane (by omega) (by omega) (by decide)

/-- A second that closes a 15-minute bin sets the bundle's cause, and one of another bundle leaves it set. -/
theorem fbCause_bundleClassified {sec b x : Nat} (hb : b < 8) (hx : x < 8) (h : sec % 900 = 0) (s : State)
    (hs : x = b ∨ bit (reg s (Reg.fbCause b)) 12 = true) : bit (reg (bundleClassified sec s x) (Reg.fbCause b)) 12 = true := by
  simp only [bundleClassified, h, if_true]
  by_cases hxb : x = b
  · subst hxb
    exact bit_raise_self _ (.fb x) 12 (side_fbCause hb)
  · have hne : Reg.fbCause b ≠ (CauseReg.fb x).key := by
      simp only [CauseReg.key, Reg.fbCause, keyIf_lt hb, keyIf_lt hx, key]
      omega
    rw [reg_raise_of_ne _ (.fb x) 12 (k := Reg.fbCause b) (side_fbCause hb) hne]
    exact hs.resolve_left hxb

theorem fbCause_bundlesClassified {sec b : Nat} (hb : b < 8) (h : sec % 900 = 0) : ∀ (l : List Nat) (s : State), (∀ x ∈ l, x < 8) →
    b ∈ l ∨ bit (reg s (Reg.fbCause b)) 12 = true → bit (reg (l.foldl (bundleClassified sec) s) (Reg.fbCause b)) 12 = true
  | [], _, _, hs => by simpa using hs
  | x :: r, s, hl, hs => by
    refine fbCause_bundlesClassified hb h r _ (fun y hy => hl y (List.mem_cons_of_mem _ hy)) ?_
    rcases hs with hs | hs
    · rcases List.mem_cons.1 hs with hs | hs
      · exact .inr (fbCause_bundleClassified hb (hl x (by simp)) h s (.inl hs.symm))
      · exact .inl hs
    · exact .inr (fbCause_bundleClassified hb (hl x (by simp)) h s (.inr hs))

/-! ### Destinations and path defects (R307, R335–R338) -/

theorem kept_flushQueue (s : State) (q r : Nat) : Kept s (flushQueue s q r) := by
  have hwait := kept_foldl (fun s (x : Ref) => kept_discardHeld s q x r)
  have hpacked := kept_foldl (fun s (x : Rec) => ((onlyLedger_discard s r
    (if qType s q = 1 then queuePort s q else match x.ref.origin with | .line p => some p | _ => none)
    { inPort := dInPort x.ref.desc, cls := dClass x.ref.desc }).trans (onlyLedger_queueLeft _)).kept)
  exact (((kept_of_cargo (cargo_setQueue s q _)).trans (hwait _ _)).trans (hpacked _ _)).cargo (cargo_freeUnits _ 1 _)

theorem kept_dropWaiting (s : State) (d : Nat) : Kept s (dropWaiting s d) :=
  kept_foldl (fun s q => (kept_flushQueue s q 31).cargo (by simp)) _ s

/-- The device's records of a destination and its grants. -/
theorem cargo_withFt (s : State) (f : FtState) : cargo { s with ft := f } = cargo s := by simp

theorem cargo_probeDest (s : State) (d : Nat) : cargo (probeDest s d) = cargo s := by simp [probeDest, setDestRec]

/-- What follows a destination's new state leaves the lanes alone (R336, R338). -/
theorem kept_enterDest (s : State) (d st : Nat) : Kept s (enterDest s d st) := by
  have hraise : ∀ (s : State) (c : Prop) [Decidable c] (b : Nat), Kept s (if c then raise s .ft b else s) := fun s c _ b =>
    kept_ite c (kept_of_cargo (cargo_raise s .ft b)) (.refl s)
  have hlost : ∀ (s : State) (c : Prop) [Decidable c], Kept s (if c then dropWaiting (raise s .ft 2) d else s) := fun s c _ =>
    kept_ite c ((kept_of_cargo (cargo_raise s .ft 2)).trans (kept_dropWaiting _ d)) (.refl s)
  have hprobe : ∀ (s : State) (c : Prop) [Decidable c], Kept s (if c then probeDest s d else s) := fun s c _ =>
    kept_ite c (kept_of_cargo (cargo_probeDest s d)) (.refl s)
  have hstate : Kept s { s with ft.dest := mset 0 s.ft.dest d st } := kept_of_cargo (cargo_withFt s _)
  simp only [enterDest]
  refine Kept.cargo ((((hstate.trans (kept_ite _ ?_ (.refl _))).trans (hraise _ _ _)).trans (hlost _ _)).trans (hprobe _ _))
    (cargo_setReg notTest_ftDestReachable _ _)
  exact ((kept_of_cargo (cargo_raise _ .ft 1)).trans (kept_dropWaiting _ d)).cargo (by simp [setDestRec])

theorem kept_routeChanged (s : State) (d : Nat) : Kept s (routeChanged s d) :=
  kept_ite _ (kept_ite _ (.refl s) ((kept_enterDest s d 0).cargo (cargo_touchVoqs _))) (kept_ite _ (kept_enterDest s d 1) (.refl s))

theorem kept_bundleDown (s : State) (b : Nat) : Kept s (bundleDown s b) :=
  kept_foldl (fun s d => kept_ite _ (.refl s) ((kept_of_cargo (by simp [setDestRec])).trans (kept_routeChanged _ d))) _ s

/-- A look at a bundle's path defects leaves the lanes alone (R307). -/
theorem kept_touchPath (s : State) (b : Nat) : Kept s (touchPath s b) := by
  simp only [touchPath]
  refine kept_ite _ ?_ ?_
  · refine Kept.trans (kept_of_cargo ?_) (kept_bundleDown _ b)
    simp
  · exact kept_of_cargo (by simp)

/-! ### Frame lock (R305, R319) -/

/-- A defect that is entered or left is stored with its lane's record; what follows touches no lane (R307). -/
theorem sectionDefect_cases (s : State) (l k : Nat) (on : Bool) : sectionDefect s l k on = s ∨
    ∃ v x, x.locked = (flane s l).locked ∧ Kept (setFlane (setReg s (Reg.flDefects l) v) l x) (sectionDefect s l k on) := by
  simp only [sectionDefect]
  split
  · exact .inl rfl
  · refine .inr ⟨_, _, ?_, Kept.trans (kept_ite _ (kept_of_cargo (cargo_raise _ (.fl l) k)) (.refl _)) (kept_touchPath _ _)⟩
    rfl

/-- Under a section defect a lane's frame lock and the test modes stay (R307). -/
theorem sectionDefect_keeps (s : State) (l k : Nat) (on : Bool) :
    (flane (sectionDefect s l k on) l).locked = (flane s l).locked ∧ laneTests (sectionDefect s l k on).od = laneTests s.od := by
  rcases sectionDefect_cases s l k on with h | ⟨v, x, hx, h⟩
  · rw [h]
    exact ⟨rfl, rfl⟩
  · rw [h.flane, flane_setFlane_self, h.tests]
    exact ⟨hx, laneTests_mset (notTest_flDefects l) s.od v⟩

/-- The lane's record and lane ID as a loss of its frame lock leaves them (R305). -/
def lockCleared (s : State) (l : Nat) : State :=
  setReg (setFlane s l { flane s l with locked := false, misses := 0, cands := [], bip := none, slots := [], word := none, units := [], acc := [] })
    (Reg.flRxLaneId l) 0xFF

theorem locked_lockCleared (s : State) (l : Nat) : (flane (lockCleared s l) l).locked = false :=
  congrArg FLane.locked (flane_setFlane_self s l _)

theorem tests_lockCleared (s : State) (l : Nat) : laneTests (lockCleared s l).od = laneTests s.od :=
  laneTests_mset (notTest_flRxLaneId l) s.od 0xFF

/-- A management packet that the lane was carrying is broken off (R318). -/
def mgmtBroken (s : State) (b l : Nat) : State :=
  if (bundle s b).mgLane = some l then setBundle s b { bundle s b with mgBusy := false, mgIn := [] } else s

theorem cargo_mgmtBroken (s : State) (b l : Nat) : cargo (mgmtBroken s b l) = cargo s := by simp [mgmtBroken]

/-- A lane whose frame lock is lost is out of lock, and the test modes stay (R305). -/
theorem loseFrame_keeps (s : State) (l : Nat) :
    (flane (loseFrame s l) l).locked = false ∧ laneTests (loseFrame s l).od = laneTests s.od := by
  have hmg := kept_of_cargo (cargo_mgmtBroken (lockCleared s l) (bundleOf l) l)
  have h := sectionDefect_keeps (mgmtBroken (lockCleared s l) (bundleOf l) l) l 2 true
  rwa [hmg.flane, hmg.tests, locked_lockCleared, tests_lockCleared] at h

/-! ### Tests of lanes (R77, R319, R320) -/

/-- The entry that a test of a fabric lane writes. -/
def testEntry (lb : Bool) (l : Nat) : Nat := if lb then Reg.flLoopback l else Reg.flPrbsMode l

theorem testEntry_eq {l : Nat} (hl : l < 320) (lb : Bool) : testEntry lb l = key (0x2500 + l) (if lb then 0x10 else 0x0E) := by
  cases lb <;> exact keyIf_lt hl _

theorem isLaneTest_testEntry {l : Nat} (hl : l < 320) (lb : Bool) : isLaneTest (testEntry lb l) = true := by
  rw [testEntry_eq hl]
  simp only [isLaneTest, Bool.and_eq_true, Bool.or_eq_true, decide_eq_true_eq, beq_iff_eq]
  cases lb <;> simp only [key, if_true, Bool.false_eq_true, if_false] <;> omega

/-- The lane and the subindex that the entry of a test names. -/
theorem idxOf_testEntry {l : Nat} (hl : l < 320) (lb : Bool) : idxOf (testEntry lb l) = 0x2500 + l ∧
    subOf (testEntry lb l) = if lb then 0x10 else 0x0E := by
  rw [testEntry_eq hl]
  simp only [idxOf, subOf, key]
  cases lb <;> simp only [if_true, Bool.false_eq_true, if_false] <;> omega

/-- A lane that belongs to no committed set (R319). -/
def Uncommitted (s : State) (l : Nat) : Prop :=
  bit (reg s (Reg.fbTxLaneSet (bundleOf l))) (l % 40) = false ∧
  ∀ i ∈ idsOf (reg s (Reg.fbRxLaneSet (bundleOf l))), laneOfId s (bundleOf l) i ≠ some l

/-- A test mode stored at a fabric lane: a new pattern starts without the checker's lock (R77, R319). -/
def testStored (s : State) (l v : Nat) (lb : Bool) : State :=
  let u := setReg s (testEntry lb l) v
  if lb then u else emit (setFlane u l { flane u l with prbsLock := false }) (.lanePattern (256 + l) v)

theorem reg_testStored (s : State) (l v : Nat) (lb : Bool) : reg (testStored s l v lb) (testEntry lb l) = v := by
  cases lb <;> exact reg_setReg_self s _ v

theorem laneTest_testStored {s : State} {l v : Nat} (lb : Bool) (hv : v ≠ 0) : laneTest (testStored s l v lb) l = true := by
  have h := reg_testStored s l v lb
  cases lb <;> simp only [testEntry, if_true, Bool.false_eq_true, if_false] at h <;> simp [laneTest, flag, h, hv]

/-- A test that begins at a lane of no committed set is stored, and the lane's frame lock is lost (R319). -/
theorem wFlTest_begins {s : State} {l v : Nat} (hl : l < 320) (lb : Bool) (hv : 0 < v) (hv' : v ≤ 2) (hc : Uncommitted s l)
    (hlb : lb = true → reg s (testEntry lb l) = 0 ∨ reg s (testEntry lb l) = v) :
    wFlTest (testEntry lb l) v s = .done (loseFrame (testStored s l v lb) l) := by
  obtain ⟨htx, hrx⟩ := hc
  obtain ⟨hidx, hsub⟩ := idxOf_testEntry hl lb
  have hany : (idsOf (reg s (Reg.fbRxLaneSet (bundleOf l)))).any (fun i => laneOfId s (bundleOf l) i == some l) = false := by
    simpa [List.any_eq_false] using hrx
  have hv2 : ¬ 2 < v := by omega
  have hold : ¬ (subOf (testEntry lb l) = 0x10 ∧ reg s (testEntry lb l) ≠ 0 ∧ v ≠ 0 ∧ v ≠ reg s (testEntry lb l)) := by
    rintro ⟨h1, h2, -, h4⟩
    cases lb with
    | false => simp [hsub] at h1
    | true => exact (hlb rfl).elim h2 (fun h => h4 h.symm)
  have htest := laneTest_testStored (s := s) (l := l) lb (Nat.ne_of_gt hv)
  simp only [wFlTest, hidx, Nat.add_sub_cancel_left, htx, hany, Bool.or_self, Bool.false_eq_true, or_false, hv2, if_false, hold]
  cases lb with
  | false =>
    simp only [hsub]
    exact congrArg Applied.done (if_pos htest)
  | true =>
    simp only [hsub]
    exact congrArg Applied.done (if_pos htest)

/-- A checker that loses lock: its errors are added to the lane's entry up to the limit, and the cause that is raised stands beside them
(R77). -/
theorem raise_after_countSat {s u : State} {c : CauseReg} {idx sc se : Nat} (b e : Nat) (hi : 0x2000 ≤ idx) (hi' : idx < 0x2800)
    (hc : c.key = key idx sc) (hsc : sc < 256) (hse : se < 256) (hne : se ≠ sc) (hu : u.od = (countSat s 32 (key idx se) e).od) :
    bit (reg (raise u c b) (key idx sc)) b = true ∧ reg (raise u c b) (key idx se) = min (reg s (key idx se) + e) (2 ^ 32 - 1) := by
  refine ⟨hc ▸ bit_raise_self u c b (hc ▸ side_portLane hi hi' hsc), ?_⟩
  rw [reg_raise_of_ne u c b (side_portLane hi hi' hse) (hc ▸ key_ne_of_sub idx hne), reg, hu]
  exact reg_setReg_self s _ _

/-- The fabric lane's checker without its lock, its errors counted (R319). -/
def fabricLockLost (s : State) (l e : Nat) : State :=
  setFlane (countSat s 32 (Reg.flPrbsErrors l) e) l { flane s l with prbsLock := false }

/-- The line lane's checker without its lock, its errors counted (R77). -/
def lineLockLost (s : State) (l e : Nat) : State :=
  { countSat s 32 (Reg.lanePrbsErrors l) e with lanes := mset {} s.lanes l { mget {} s.lanes l with prbsLock := false } }

theorem exec_prbsLockLost_fabric {s : State} {l : Nat} (e : Nat) (h : (flane s l).prbsLock = true) :
    Answers (.prbsLockLost true l e) s (raise (fabricLockLost s l e) (.fl l) 7) := by
  simp only [Answers, exec, execPrbsLockLost, h, if_true]
  rfl

theorem exec_prbsLockLost_line {s : State} {l : Nat} (e : Nat) (h : (mget {} s.lanes l).prbsLock = true) :
    Answers (.prbsLockLost false l e) s (raise (lineLockLost s l e) (.lane l) 2) := by
  simp only [Answers, exec, execPrbsLockLost, h, if_true, Bool.false_eq_true, if_false]
  rfl

theorem prbsLock_fabricLockLost (s : State) (l e : Nat) : (flane (raise (fabricLockLost s l e) (.fl l) 7) l).prbsLock = false := by
  rw [(kept_of_cargo (cargo_raise _ (.fl l) 7)).flane, fabricLockLost, flane_setFlane_self]

theorem prbsLock_lineLockLost (s : State) (l e : Nat) : (mget {} (raise (lineLockLost s l e) (.lane l) 2).lanes l).prbsLock = false := by
  have hlanes : (raise (lineLockLost s l e) (.lane l) 2).lanes = (lineLockLost s l e).lanes := part_raise (π := .lanes) _ (.lane l) 2
  rw [hlanes, lineLockLost, mget_mset_self]

end Sys2Proof.Machine

namespace Sys2Proof

open Machine

/-- Settles O31: the lanes are classified before the bundles, each from its own record; a checker that loses lock counts before its cause
is raised; and a test that begins ends the lane's frame lock, which touches no test mode. -/
theorem pmSecondAndLaneTests : Obligations.PmSecondAndLaneTests := by
  refine ⟨fun s l _ ht hl => ⟨_, exec_pmSecond ht, ?_⟩, fun s c l v e _ => ⟨fun h => ?_, fun h => ?_, fun hl h => ?_, fun hl h => ?_,
    fun h hr => ?_, fun lb k hl hk hperm hv hv' htx hrx hlb => ?_⟩⟩
  · rw [flane_pmSecond s hl]
    refine ⟨?_, rfl, fun hsec b hb => fbCause_bundlesClassified hb hsec _ _ (fun x hx => List.mem_range.1 hx) (.inl (List.mem_range.2 hb))⟩
    by_cases hd : reg s (Reg.flDefects l) = 0 <;> simp [laneClassified, classified, hd]
  · simp [Answers, exec, execPrbsCheckerLock, h]
  · simp [Answers, exec, execPrbsCheckerLock, h]
  · have herrors : Reg.flPrbsErrors l = key (0x2500 + l) 0xF := keyIf_lt hl _
    have hcause : Reg.flCause l = key (0x2500 + l) 0x13 := keyIf_lt hl _
    refine ⟨_, exec_prbsLockLost_fabric e h, prbsLock_fabricLockLost s l e, ?_⟩
    rw [herrors, hcause]
    exact raise_after_countSat 7 e (by omega) (by omega) hcause (by decide) (by decide) (by decide) (herrors ▸ rfl)
  · have herrors : Reg.lanePrbsErrors l = key (0x2400 + l) 7 := keyIf_lt hl _
    have hcause : Reg.laneCause l = key (0x2400 + l) 9 := keyIf_lt hl _
    refine ⟨_, exec_prbsLockLost_line e h, prbsLock_lineLockLost s l e, ?_⟩
    rw [herrors, hcause]
    exact raise_after_countSat 2 e (by omega) (by omega) hcause (by decide) (by decide) (by decide) (herrors ▸ rfl)
  · simp [Answers, exec, execFlPrbsErrorsRead, h, readRow_done _ _ _ _ _ hr]
  · subst hk
    obtain ⟨hlock, htests⟩ := loseFrame_keeps (testStored s l v lb) l
    have hk := isLaneTest_testEntry hl lb
    refine ⟨_, congrArg Host.Outcome.next (permitted_does hperm (wFlTest_begins hl lb hv hv' ⟨htx, hrx⟩ hlb)), ?_, hlock⟩
    have hreg : reg (loseFrame (testStored s l v lb) l) (testEntry lb l) = reg (testStored s l v lb) (testEntry lb l) := by
      simpa [laneTests, hk, reg] using congrFun htests (testEntry lb l)
    exact hreg.trans (reg_testStored s l v lb)

end Sys2Proof
end

section
/-! SUPPORT. The supply of cells (R208–R210, R218): what it depends on, what taking several comes to, and what becomes of a packet whose
bytes land in cells. -/

namespace Sys2Proof.Machine

/-! ### Whether a store can supply a unit -/

theorem gapFrom_congr {s t : State} (h : ∀ m u, unitServes t m u = unitServes s m u) (m : Nat) (ks : List Nat) (e : Nat) :
    ∀ f c : Nat, gapFrom t m ks e f c = gapFrom s m ks e f c
  | 0, _ => rfl
  | f + 1, c => by simp only [gapFrom, h, gapFrom_congr h m ks e f]

/-- Whether an allocation came to a unit. -/
def Alloc.isUnit : Alloc → Bool
  | .unit _ _ => true
  | _ => false

/-- Whether the store of a pool can supply a unit looks at the entries and at the packet memories alone. -/
theorem isUnit_storeAlloc_congr {s t : State} (hod : t.od = s.od) (hmem : t.mem = s.mem) (n : Nat) :
    (storeAlloc t n).isUnit = (storeAlloc s n).isUnit := by
  have hreg : ∀ k, reg t k = reg s k := fun k => by rw [reg, hod, reg]
  have hused : ∀ m, usedOf t m = usedOf s m := fun m => by rw [usedOf, hmem, usedOf]
  have hquar : ∀ m, quarOf t m = quarOf s m := fun m => by rw [quarOf, hmem, quarOf]
  have hserves : ∀ m u, unitServes t m u = unitServes s m u := fun m u => by simp only [unitServes, hreg]
  have hdesc : poolDesc t n = poolDesc s n := by simp only [poolDesc, hreg]
  have hbase : plBase t n = plBase s n := by rw [plBase, hdesc, plBase]
  have hsize : plSize t n = plSize s n := by rw [plSize, hdesc, plSize]
  have hkind : plMemory t n = plMemory s n := by rw [plMemory, hdesc, plMemory]
  have hon : plEnable t n = plEnable s n := by rw [plEnable, hdesc, plEnable]
  have hnext : ladleNext t n = ladleNext s n := by
    simp only [ladleNext, ladleFrom, hused, hquar, hbase, hsize, hkind, hmem, gapFrom_congr hserves]
  have hcount : skimCount t n = skimCount s n := by simp only [skimCount, hmem, hsize]
  have hword : linkWord t (skimHead t n) = linkWord s (skimHead s n) := by simp only [linkWord, potRead, skimHead, hmem, hbase]
  have hlink : skimLinkOk t n = skimLinkOk s n := by
    unfold skimLinkOk
    rw [hword]
    simp only [hcount, inPool, hbase, hsize, unitUsed, unitQuar, hused, hquar]
  simp only [storeAlloc]
  split
  · simp only [skimAlloc, hon, hmem, hcount, hlink]
    repeat' split
    all_goals simp_all [Alloc.isUnit]
  · simp only [ladleAlloc, hon, hmem, hkind, hnext]
    repeat' split
    all_goals simp_all [Alloc.isUnit]

/-- A pool has a cell where no word of the bitmap is lost and its store supplies one. -/
theorem hasCell_iff (s : State) (n : Nat) : HasCell s n ↔ (badWords s 4).isEmpty = true ∧ (storeAlloc s n).isUnit = true := by
  refine and_congr_right fun hb => ?_
  rw [allocUnit, if_pos hb]
  cases storeAlloc s n <;> rfl

/-- Whether a pool has a cell looks at the entries, the packet memories and the marked words alone. -/
theorem hasCell_congr {s t : State} {n : Nat} (h : HasCell s n) (hod : t.od = s.od) (hmem : t.mem = s.mem) (hint : t.integ = s.integ) :
    HasCell t n := by
  have hbad : badWords t 4 = badWords s 4 := by rw [badWords, hint, badWords]
  rw [hasCell_iff] at h ⊢
  rwa [hbad, isUnit_storeAlloc_congr hod hmem]

theorem unit_of_hasCell {s : State} {n : Nat} (h : HasCell s n) : ∃ u t, allocUnit s n = .unit u t := by
  obtain ⟨-, h⟩ := h
  cases ha : allocUnit s n with
  | unit u t => exact ⟨u, t, rfl⟩
  | empty => simp [ha] at h
  | fault t => simp [ha] at h

/-! ### Taking several units -/

/-- What was taken is `k` units, where anything was. -/
def Take.Supplies (k : Nat) : Take → Prop
  | .got l _ => l.length = k
  | _ => True

theorem takeUnits_spec : ∀ (k : Nat) (s : State) (n : Nat) (acc : List Nat),
    (takeUnits k s n acc).Supplies (acc.length + k) ∧ cargo (takeUnits k s n acc).state = cargo s
  | 0, s, n, acc => ⟨by simp [takeUnits, Take.Supplies], rfl⟩
  | k + 1, s, n, acc => by
    have hlen : ∀ u, acc.length + (k + 1) = (u :: acc).length + k := fun u => by rw [List.length_cons]; omega
    rw [takeUnits]
    cases ha : allocUnit s n with
    | unit u t =>
      obtain ⟨hl, hc⟩ := takeUnits_spec k t n (u :: acc)
      exact ⟨hlen u ▸ hl, hc.trans (cargo_of_allocUnit ha)⟩
    | empty => exact ⟨trivial, cargo_freeUnits s _ acc⟩
    | fault t => exact ⟨trivial, (cargo_freeUnits t _ acc).trans (cargo_of_allocUnit ha)⟩

/-- A unit of a pool, or of pool 30 where that pool has none (R207, R349). -/
def allocMixed (s : State) (n : Nat) : Alloc := match allocUnit s n with
  | .empty => allocUnit s 30
  | x => x

theorem cargo_of_allocMixed {s : State} {n : Nat} {x : Alloc} (h : allocMixed s n = x) : cargo (x.stateD s) = cargo s := by
  rw [allocMixed] at h
  cases ha : allocUnit s n <;> rw [ha] at h
  · exact cargo_of_allocUnit (ha.trans h)
  · exact cargo_of_allocUnit h
  · exact cargo_of_allocUnit (ha.trans h)

theorem takeMixed_succ (k : Nat) (s : State) (n : Nat) (acc : List Nat) : takeMixed (k + 1) s n acc = match allocMixed s n with
    | .unit u s' => takeMixed k s' n (u :: acc)
    | .empty => .short (freeUnits s 0 acc)
    | .fault s' => .fault (freeUnits s' 0 acc) := (rfl)

theorem takeMixed_spec : ∀ (k : Nat) (s : State) (n : Nat) (acc : List Nat),
    (takeMixed k s n acc).Supplies (acc.length + k) ∧ cargo (takeMixed k s n acc).state = cargo s
  | 0, s, n, acc => ⟨by simp [takeMixed, Take.Supplies], rfl⟩
  | k + 1, s, n, acc => by
    have hlen : ∀ u, acc.length + (k + 1) = (u :: acc).length + k := fun u => by rw [List.length_cons]; omega
    rw [takeMixed_succ]
    cases ha : allocMixed s n with
    | unit u t =>
      obtain ⟨hl, hc⟩ := takeMixed_spec k t n (u :: acc)
      exact ⟨hlen u ▸ hl, hc.trans (cargo_of_allocMixed ha)⟩
    | empty => exact ⟨trivial, cargo_freeUnits s _ acc⟩
    | fault t => exact ⟨trivial, (cargo_freeUnits t _ acc).trans (cargo_of_allocMixed ha)⟩

/-- Taking a packet's cells takes as many as were asked for, or ends without any (R220). -/
theorem takeFor_spec (s : State) (p : Pkt) (n : Nat) : (takeFor s p n).Supplies n ∧ cargo (takeFor s p n).state = cargo s := by
  have hmixed := takeMixed_spec n s (sourcePool s p) []
  have hunits := takeUnits_spec n s (sourcePool s p) []
  rw [List.length_nil, Nat.zero_add] at hmixed hunits
  rw [takeFor]
  split
  · exact hmixed
  · exact hunits

/-- A packet whose pool has a cell gets it. -/
theorem takeFor_one {s : State} {p : Pkt} (h : HasCell s (sourcePool s p)) : ∃ u t, takeFor s p 1 = .got [u] t := by
  obtain ⟨u, t, ha⟩ := unit_of_hasCell h
  refine ⟨u, t, ?_⟩
  rw [takeFor]
  split
  · rw [takeMixed_succ, allocMixed, ha]
    rfl
  · rw [takeUnits, ha]
    rfl

/-- A packet that holds the cells it needs takes none. -/
theorem takeUpTo_enough {s : State} {p : Pkt} {n : Nat} (h : n = p.cells.length) : takeUpTo s p n = .got p.cells s := by
  subst h
  simp only [takeUpTo, Nat.le_refl, if_true, List.take_length, List.drop_length]
  rfl

/-- A packet keeps the cells it has and gets as many more as it needs, or the taking ends without any. -/
theorem takeUpTo_more {s : State} {p : Pkt} {n : Nat} (h : p.cells.length < n) :
    (∃ cs t, takeUpTo s p n = .got (p.cells ++ cs) t ∧ p.cells.length + cs.length = n ∧ cargo t = cargo s) ∨
    (∃ t, cargo t = cargo s ∧ (takeUpTo s p n = .short t ∨ takeUpTo s p n = .fault t)) := by
  obtain ⟨hl, hc⟩ := takeFor_spec s p (n - p.cells.length)
  rw [takeUpTo, if_neg (by omega)]
  cases ht : takeFor s p (n - p.cells.length) with
  | got cs t =>
    rw [ht] at hl hc
    have hcs : cs.length = n - p.cells.length := hl
    exact .inl ⟨cs, t, rfl, by omega, hc⟩
  | short t => exact .inr ⟨t, by rwa [ht] at hc, .inl rfl⟩
  | fault t => exact .inr ⟨t, by rwa [ht] at hc, .inr rfl⟩

/-! ### A packet discarded by its MAC (R62, R68) -/

theorem cargo_setPkt {s t : State} (h : cargo t = cargo s) (i : Nat) (k : Pkt) : cargo (setPkt t i k) = cargo (setPkt s i k) := by
  obtain ⟨hpkts, hnext, hports, hled, hlmacs, hlanes, htests⟩ := cargo_parts h
  simp only [setPkt, cargo_mk, hpkts, hnext, hports, hled, hlmacs, hlanes, htests]

theorem steady_withLmacs (s : State) (m : SMap Lmac) (h : ∀ n, (mget {} s.lmacs n).held = [] → (mget {} m n).held = []) :
    Steady s { s with lmacs := m } := ⟨rfl, rfl, h, fun _ => rfl, rfl, rfl⟩

/-- A table whose values are all changed alike. -/
theorem mget_map {α : Type} (d : α) (f : α → α) (hd : f d = d) (m : SMap α) (k : Nat) :
    mget d (m.map (fun x => (x.1, f x.2))) k = f (mget d m k) := by
  induction m with
  | nil => exact hd.symm
  | cons p r ih =>
    simp only [List.map_cons, mget]
    split
    · exact hd.symm
    · split
      · rfl
      · exact ih

/-- A packet that leaves the receive buffers leaves an empty one empty. -/
theorem kept_unheld (s : State) (i : Nat) :
    Kept s { s with lmacs := s.lmacs.map (fun x => (x.1, { x.2 with held := x.2.held.filter (· ≠ i) })) } := by
  refine ⟨steady_withLmacs s _ fun n hn => ?_, fun _ _ => id⟩
  rw [mget_map {} (fun x : Lmac => { x with held := x.held.filter (· ≠ i) }) rfl s.lmacs n]
  simp [hn]

/-- The packet of a frame that its MAC discards: its verdict, and the bytes that came. -/
def discardedPkt (p : Pkt) (r : Nat) (data : List Byte) : Pkt :=
  { p with bad := some r, data := if p.cells.isEmpty then data else data.take (256 * p.cells.length), draws := [], posts := [] }

theorem kept_withQm (s : State) (q : QmState) : Kept s { s with qm := q } := kept_of_cargo rfl

/-- The packet carries its verdict before anything else of the discard happens, and nothing of it changes the verdict. -/
theorem macDiscard_kept {s : State} {i : Nat} {p : Pkt} (h : pkt? s i = some p) (r : Nat) (data : List Byte) :
    Kept (setPkt s i (discardedPkt p r data)) (macDiscard s i r data) := by
  have hset : Kept (setPkt s i (discardedPkt p r data))
      (setPkt (writeCells (correctionsDue s p.draws none) p.cells (discardedPkt p r data).data) i (discardedPkt p r data)) :=
    kept_of_cargo (cargo_setPkt (by simp) i _)
  rw [macDiscard, h]
  dsimp only
  rw [discardedPkt] at hset
  split
  case h_1 =>
    have hpurge := fun l => (hset.trans (kept_purge _ i r)).trans (kept_foldl (fun s j => kept_purge s j r) l _)
    refine Kept.cargo ?_ (cargo_touchVoqs _)
    split
    · rename_i hq
      exact (hpurge _).trans (kept_ite _ (.refl _) (kept_setPkt _ hq rfl))
    · exact hpurge _
  case h_2 =>
    exact (((hset.trans (kept_withQm _ _)).trans (onlyLedger_queueLeft _).kept).trans (onlyLedger_discard _ r _ _).kept).trans (kept_freePkt _ i)
  case h_3 => exact (hset.trans (kept_unheld _ i)).trans (kept_discardArrival _ i r)

theorem steady_macDiscard (s : State) (i r : Nat) (data : List Byte) : Steady s (macDiscard s i r data) := by
  cases h : pkt? s i with
  | none => rw [macDiscard, h]; exact .refl s
  | some p => exact (steady_withPkts s _).trans (macDiscard_kept h r data).toSteady

/-- A packet that its MAC discards carries the verdict, or is gone. -/
theorem marked_macDiscard {s : State} {i : Nat} {p : Pkt} (h : pkt? s i = some p) (r : Nat) (data : List Byte) :
    MarkedOrGone (macDiscard s i r data) i (some r) :=
  (macDiscard_kept h r data).marks i (some r) (.inr ⟨_, pkt_setPkt_self s i _, rfl⟩)

/-- A packet whose window is at the PIPE is gone. -/
theorem pkt_macDiscard_of_window {s : State} {i : Nat} {p : Pkt} (h : pkt? s i = some p) (hs : p.stage = .window) (r : Nat)
    (data : List Byte) : pkt? (macDiscard s i r data) i = none := by
  simp only [macDiscard, h, hs]
  exact pkt_discardArrival_self _ i r

/-! ### The bytes of an arriving packet land (R218) -/

/-- The cells a packet needs for the bytes that have come. -/
def cellsWanted (p : Pkt) : Nat := max p.cells.length (cellsFor p.data.length)

/-- The bytes land in the cells the packet has and as many more as they take, or the packet is discarded for want of a cell. -/
theorem landBytes_cases {s : State} {i : Nat} {p : Pkt} (h : pkt? s i = some p) (a : Nat) :
    (∃ cs, p.cells <+: cs ∧ cellsWanted p = cs.length ∧ cargo (landBytes s i a) = cargo (setPkt s i { p with cells := cs })) ∨
    (∃ t r, (r = 28 ∨ r = 29) ∧ cargo t = cargo s ∧ landBytes s i a = macDiscard t i r p.data) := by
  simp only [landBytes, h]
  rw [← cellsWanted]
  by_cases hn : cellsWanted p = p.cells.length
  · rw [takeUpTo_enough hn]
    exact .inl ⟨p.cells, List.prefix_refl _, hn, cargo_setPkt (cargo_storeFrom _ _ _ _) i _⟩
  · have hlt : p.cells.length < cellsWanted p := Nat.lt_of_le_of_ne (Nat.le_max_left _ _) (Ne.symm hn)
    obtain ⟨cs, t, ht, hl, hc⟩ | ⟨t, hc, ht | ht⟩ := takeUpTo_more hlt
    · rw [ht]
      exact .inl ⟨p.cells ++ cs, List.prefix_append _ _, by rw [List.length_append, hl], cargo_setPkt ((cargo_storeFrom _ _ _ _).trans hc) i _⟩
    · exact .inr ⟨t, 28, .inl rfl, hc, by rw [ht]⟩
    · exact .inr ⟨t, 29, .inr rfl, hc, by rw [ht]⟩

/-- Bytes for which the packet has cells land there. -/
theorem landBytes_enough {s : State} {i : Nat} {p : Pkt} (h : pkt? s i = some p) (hn : cellsFor p.data.length ≤ p.cells.length) (a : Nat) :
    cargo (landBytes s i a) = cargo (setPkt s i p) := by
  simp only [landBytes, h, Nat.max_eq_left hn, takeUpTo_enough rfl]
  exact cargo_setPkt (cargo_storeFrom _ _ _ _) i p

/-- The first bytes of a packet whose pool has a cell land there. -/
theorem landBytes_first {s : State} {i : Nat} {p : Pkt} (h : pkt? s i = some p) (hcells : p.cells = []) (hlen : p.data.length ≤ 256)
    (hpool : HasCell s (sourcePool s p)) (a : Nat) : ∃ cs, cargo (landBytes s i a) = cargo (setPkt s i { p with cells := cs }) := by
  have hone : cellsFor p.data.length = 0 ∨ cellsFor p.data.length = 1 := by
    rw [cellsFor, ceilDiv]
    omega
  obtain hnone | hone := hone
  · exact ⟨p.cells, landBytes_enough h (by rw [hnone]; exact Nat.zero_le _) a⟩
  · obtain ⟨u, t, ht⟩ := takeFor_one hpool
    have htake : takeUpTo s p 1 = .got [u] t := by simp [takeUpTo, hcells, ht]
    have hland : landBytes s i a = setPkt (storeFrom t [u] a p.data) i { p with cells := [u] } := by simp [landBytes, h, hone, hcells, htake]
    have hc : cargo t = cargo s := by
      have hspec := (takeFor_spec s p 1).2
      rwa [ht] at hspec
    exact ⟨[u], hland ▸ cargo_setPkt ((cargo_storeFrom _ _ _ _).trans hc) i _⟩

theorem steady_landBytes (s : State) (i a : Nat) : Steady s (landBytes s i a) := by
  cases h : pkt? s i with
  | none => rw [landBytes, h]; exact .refl s
  | some p =>
    obtain ⟨cs, -, -, hc⟩ | ⟨t, r, -, hc, hd⟩ := landBytes_cases h a
    · exact (steady_withPkts s _).trans (kept_of_cargo hc).toSteady
    · rw [hd]
      exact (kept_of_cargo hc).toSteady.trans (steady_macDiscard t i r _)

/-! ### A packet crosses to its PIPE (R218) -/

/-- The packet at the PIPE's window, the most cells it may take charged to the headroom of its port's pool. -/
def crossing (s : State) (p : Pkt) : Pkt :=
  { p with stage := .window, hrPool := rxPool s p.inPort, hrCells := ceilDiv (p.len.getD p.maxFrame) 256 }

theorem crosses_eq {s : State} {i : Nat} {p : Pkt} (h : pkt? s i = some p) : crosses s i = landBytes (setPkt s i (crossing s p)) i 0 := by
  simp only [crosses, h, crossing]

theorem steady_crosses (s : State) (i : Nat) : Steady s (crosses s i) := by
  cases h : pkt? s i with
  | none => rw [crosses, h]; exact .refl s
  | some p =>
    rw [crosses_eq h]
    exact (steady_withPkts s _).trans (steady_landBytes _ i 0)

/-- A packet that crosses is at the window with cells for its bytes, or it is gone. -/
theorem pkt_crosses {s : State} {i : Nat} {p k : Pkt} (h : pkt? s i = some p) (hk : pkt? (crosses s i) i = some k) :
    k = { crossing s p with cells := k.cells } ∧ cellsFor p.data.length ≤ k.cells.length := by
  rw [crosses_eq h] at hk
  have hself := pkt_setPkt_self s i (crossing s p)
  obtain ⟨cs, -, hl, hc⟩ | ⟨t, r, -, hc, hd⟩ := landBytes_cases hself 0
  · rw [pkt_of_cargo hc, pkt_setPkt_self] at hk
    cases hk
    exact ⟨rfl, hl ▸ Nat.le_max_right _ _⟩
  · rw [hd, pkt_macDiscard_of_window ((pkt_of_cargo hc i).trans hself) rfl] at hk
    cases hk

/-- A packet without cells whose pool has one crosses and stays, and the ledger counts nothing. -/
theorem crosses_first {s : State} {i : Nat} {p : Pkt} (h : pkt? s i = some p) (hcells : p.cells = []) (hlen : p.data.length ≤ 256)
    (hpool : HasCell s (sourcePool s p)) : (pkt? (crosses s i) i).isSome = true ∧ (crosses s i).led = s.led := by
  have hpool' : HasCell (setPkt s i (crossing s p)) (sourcePool (setPkt s i (crossing s p)) (crossing s p)) :=
    hasCell_congr hpool rfl rfl rfl
  obtain ⟨cs, hc⟩ := landBytes_first (pkt_setPkt_self s i (crossing s p)) hcells hlen hpool' 0
  rw [crosses_eq h]
  refine ⟨by rw [pkt_of_cargo hc, pkt_setPkt_self]; rfl, ?_⟩
  obtain ⟨-, -, -, hled, -, -, -⟩ := cargo_parts hc
  exact hled

end Sys2Proof.Machine
end

section
/-! SUPPORT. What the commands of the receive MAC come to (R62, R63, R218, R528), branch by branch. -/

namespace Sys2Proof.Machine

/-! ### The first byte of a frame (R63, R65) -/

/-- A frame is counted in at the port, whose PIPE holds back its LMACs or does not (R179, R359). -/
def rxCameIn (s : State) (p : Nat) (holding : Bool) : State :=
  { s with ase.hold := mset false s.ase.hold (pipeOf p) holding, led.aLine := s.led.aLine + 1, led.oRx := s.led.oRx + 1 }

/-- The reception of an admitted frame whose first bytes are `v`. -/
def rxBegun (s : State) (p : Nat) (v : List Byte) : Rx :=
  { pkt := s.nextPkt, admitted := true, maxFrame := maxFrame s p, win := v,
    reason := earlyReason (flag s (Reg.portDaFilterOn p)) (filterEntries s p) v,
    filterOn := flag s (Reg.portDaFilterOn p), filter := filterEntries s p }

/-- The frame is in reception as `rx` says. -/
def rxIs (s : State) (p : Nat) (rx : Rx) : State := setPort s p { port s p with rx := some rx }

/-- The packet of a frame whose first bytes are `v`. -/
def pktBegun (s : State) (p frac : Nat) (v : List Byte) : Pkt :=
  { origin := .line p, inPort := p, stage := .held, win := v.take 128, data := v, maxFrame := maxFrame s p,
    tsFrac := rxStamp s p frac, rxAt := s.time }

/-- An admitted frame stands as a packet. -/
def rxAdmitted (s : State) (p frac : Nat) (v : List Byte) (holding : Bool) : State :=
  { setPkt (rxIs (rxCameIn s p holding) p (rxBegun s p v)) s.nextPkt (pktBegun s p frac v) with nextPkt := s.nextPkt + 1 }

/-- The packet waits in the receive buffer behind the others (R528). -/
def rxWaits (s : State) (p i : Nat) : State :=
  { s with lmacs := mput s.lmacs (lmacOf p) { held := (mget {} s.lmacs (lmacOf p)).held ++ [i], paused := true } }

/-- The reason of a frame without room (R63). -/
def fullReason (s : State) (p : Nat) : Nat := if bankThrottled s p && pipeHolding s p then 22 else 6

/-- The discard of a frame without room, with its counts and its cause (R63). -/
def rxFull (s : State) (p : Nat) : State :=
  raise (mainCount (fbCount (rxDiscard s p (fullReason s p) []) p 0x95 1) p (if fullReason s p = 6 then 0x49 else 0x4A) 1) (.port p) 6

theorem onlyLedger_rxDiscard (s : State) (p r : Nat) (f : List Byte) : OnlyLedger s (rxDiscard s p r f) :=
  (onlyLedger_withLed s { s.led with oRx := s.led.oRx - 1 } rfl).trans (onlyLedger_discard _ r _ _)

theorem onlyLedger_rxFull (s : State) (p : Nat) : OnlyLedger s (rxFull s p) := by
  refine (onlyLedger_rxDiscard s p (fullReason s p) []).trans (onlyLedger_of_cargo ?_)
  rw [rxFull, cargo_raise, cargo_mainCount _ p 1 (by split <;> decide) (by split <;> decide), cargo_fbCount _ p 1 (by decide) (by decide)]

theorem execRxFrameStart_eq {s : State} {p frac : Nat} {w v : List Byte} {holding : Bool} (hr : canReceive s p = true)
    (hf : s.pwr.flushing = false) (hv : v = w.take (max 128 (maxFrame s p))) : execRxFrameStart p w frac holding s =
      if 524288 < bufferTaken s (lmacOf p) + maxFrame s p then
        .next (rxIs (rxFull (rxCameIn s p holding) p) p
          { rxBegun s p v with admitted := false, reason := fullReason (rxCameIn s p holding) p })
      else if (rxBegun s p v).reason ≠ 0 then .next (rxIs (rxCameIn s p holding) p (rxBegun s p v))
      else if (mget {} s.lmacs (lmacOf p)).held.isEmpty && mayCross (rxAdmitted s p frac v holding) p (maxFrame s p) then
        .next (crosses (rxAdmitted s p frac v holding) s.nextPkt)
      else .next (rxWaits (rxAdmitted s p frac v holding) p s.nextPkt) := by
  subst hv
  rw [execRxFrameStart, if_pos hr]
  exact if_neg (by rw [hf]; decide)

/-- What stands once a frame is admitted: it is counted and in reception, and a packet of its own, if one is there, holds its bytes. -/
structure Admitted (s : State) (p frac : Nat) (v : List Byte) (t : State) : Prop where
  aLine : t.led.aLine = s.led.aLine + 1
  rx : (port t p).rx = some (rxBegun s p v)
  nextPkt : t.nextPkt = s.nextPkt + 1
  pkt : ∀ k, pkt? t s.nextPkt = some k → k.origin = .line p ∧ k.inPort = p ∧ k.win = v.take 128 ∧ k.data = v ∧ k.maxFrame = maxFrame s p ∧
    k.len = none

theorem rx_rxIs (s : State) (p : Nat) (rx : Rx) : (port (rxIs s p rx) p).rx = some rx := congrArg Port.rx (port_setPort_self s p _)

theorem rx_rxAdmitted (s : State) (p frac : Nat) (v : List Byte) (holding : Bool) :
    (port (rxAdmitted s p frac v holding) p).rx = some (rxBegun s p v) := rx_rxIs (rxCameIn s p holding) p _

theorem pkt_rxAdmitted (s : State) (p frac : Nat) (v : List Byte) (holding : Bool) :
    pkt? (rxAdmitted s p frac v holding) s.nextPkt = some (pktBegun s p frac v) := pkt_setPkt_self _ _ _

theorem pkt_rxWaits (s : State) (p i j : Nat) : pkt? (rxWaits s p i) j = pkt? s j := rfl

theorem admitted_waits (s : State) (p frac : Nat) (v : List Byte) (holding : Bool) :
    Admitted s p frac v (rxWaits (rxAdmitted s p frac v holding) p s.nextPkt) := by
  refine ⟨rfl, rx_rxAdmitted s p frac v holding, rfl, fun k hk => ?_⟩
  cases (pkt_rxAdmitted s p frac v holding).symm.trans hk
  exact ⟨rfl, rfl, rfl, rfl, rfl, rfl⟩

theorem admitted_crosses (s : State) (p frac : Nat) (v : List Byte) (holding : Bool) :
    Admitted s p frac v (crosses (rxAdmitted s p frac v holding) s.nextPkt) := by
  have h := steady_crosses (rxAdmitted s p frac v holding) s.nextPkt
  refine ⟨h.aLine, (h.rx p).trans (rx_rxAdmitted s p frac v holding), h.nextPkt, fun k hk => ?_⟩
  obtain ⟨hk, -⟩ := pkt_crosses (pkt_rxAdmitted s p frac v holding) hk
  rw [hk]
  exact ⟨rfl, rfl, rfl, rfl, rfl, rfl⟩

/-- A frame that passes the checks of R65 and R66 and has room is admitted (R63); where a cell is at hand for its bytes, or others wait
before it, its packet stands. -/
theorem rxFrameStart_admits {s : State} {p : Nat} {w v : List Byte} {holding : Bool} (frac : Nat) (hr : canReceive s p = true)
    (hf : s.pwr.flushing = false) (hv : v = w.take (max 128 (maxFrame s p))) (hroom : bufferTaken s (lmacOf p) + maxFrame s p ≤ 524288)
    (hpass : (rxBegun s p v).reason = 0) : ∃ t, Answers (.rxFrameStart p w frac holding) s t ∧ Admitted s p frac v t ∧
      (HasCell s (rxPool s p) ∧ v.length ≤ 256 ∨ (mget {} s.lmacs (lmacOf p)).held ≠ [] →
        t.led.oRx = s.led.oRx + 1 ∧ (pkt? t s.nextPkt).isSome = true) := by
  have heq : exec (.rxFrameStart p w frac holding) s = _ := execRxFrameStart_eq (frac := frac) (holding := holding) hr hf hv
  rw [if_neg (Nat.not_lt.2 hroom), if_neg (not_not.2 hpass)] at heq
  split at heq
  · rename_i hcross
    refine ⟨_, heq, admitted_crosses s p frac v holding, fun hcell => ?_⟩
    obtain ⟨hcell, hlen⟩ | hheld := hcell
    · have hpool : HasCell (rxAdmitted s p frac v holding) (rxPool s p) := hasCell_congr hcell rfl rfl rfl
      obtain ⟨hk, hled⟩ := crosses_first (pkt_rxAdmitted s p frac v holding) rfl hlen hpool
      exact ⟨congrArg Ledger.oRx hled, hk⟩
    · simp [List.isEmpty_iff, hheld] at hcross
  · refine ⟨_, heq, admitted_waits s p frac v holding, fun _ => ⟨rfl, ?_⟩⟩
    rw [pkt_rxWaits, pkt_rxAdmitted]
    rfl

/-- A frame that is consumed or filtered is in reception without a packet (R65, R66). -/
theorem rxFrameStart_passes_by {s : State} {p : Nat} {w v : List Byte} {holding : Bool} (frac : Nat) (hr : canReceive s p = true)
    (hf : s.pwr.flushing = false) (hv : v = w.take (max 128 (maxFrame s p))) (hroom : bufferTaken s (lmacOf p) + maxFrame s p ≤ 524288)
    (hpass : (rxBegun s p v).reason ≠ 0) :
    Answers (.rxFrameStart p w frac holding) s (rxIs (rxCameIn s p holding) p (rxBegun s p v)) := by
  have heq : exec (.rxFrameStart p w frac holding) s = _ := execRxFrameStart_eq (frac := frac) (holding := holding) hr hf hv
  rwa [if_neg (Nat.not_lt.2 hroom), if_pos hpass] at heq

/-- A frame without room is discarded, and no packet is touched (R63). -/
theorem rxFrameStart_full {s : State} {p : Nat} {w : List Byte} {holding : Bool} (frac : Nat) (hr : canReceive s p = true)
    (hf : s.pwr.flushing = false) (hroom : 524288 < bufferTaken s (lmacOf p) + maxFrame s p) :
    ∃ t rx, Answers (.rxFrameStart p w frac holding) s t ∧ (port t p).rx = some rx ∧ rx.admitted = false ∧
      (rx.reason = 6 ∨ rx.reason = 22) ∧ t.pkts = s.pkts := by
  have heq : exec (.rxFrameStart p w frac holding) s = _ := execRxFrameStart_eq (frac := frac) (holding := holding) hr hf rfl
  rw [if_pos hroom] at heq
  refine ⟨_, _, heq, rx_rxIs _ p _, rfl, ?_, ?_⟩
  · show fullReason _ p = 6 ∨ fullReason _ p = 22
    rw [fullReason]
    split
    · exact .inr rfl
    · exact .inl rfl
  · exact (onlyLedger_rxFull (rxCameIn s p holding) p).pkts

/-! ### The end of a frame (R62) -/

theorem lengthReason_accepts {l m : Nat} (hmin : 64 ≤ l) (hmax : l ≤ m) : lengthReason l m true = 0 := by
  rw [lengthReason, if_neg (by omega), if_pos hmax]
  rfl

theorem cargo_goodCounted (s : State) (p : Nat) (f : List Byte) : cargo (goodCounted s p f) = cargo s := by
  have hclass : cargo (fbCount s p (0x82 + addrClass f) 1) = cargo s := by
    have := addrClass_le f
    exact cargo_fbCount s p 1 (by omega) (by omega)
  rw [goodCounted]
  split
  · exact (cargo_fbCount _ p 1 (by decide) (by decide)).trans hclass
  · exact hclass

/-- The packet of an accepted frame: its bytes without the FCS. -/
def acceptedPkt (k : Pkt) (f : List Byte) : Pkt :=
  { k with len := some (f.length - 4), data := f.take (f.length - 4), bad := some 0, draws := [], posts := [],
           hrCells := if k.hrPool = 32 then 0 else ceilDiv (f.length - 4) 256 }

theorem length_acceptedPkt (k : Pkt) (f : List Byte) : (acceptedPkt k f).data.length = f.length - 4 := by
  rw [acceptedPkt, List.length_take]
  omega

/-- An accepted frame's packet has its bytes; unless it is held, they land in cells. -/
theorem rxAccepted_eq {s : State} {p i : Nat} {f : List Byte} {k : Pkt} (h : pkt? s i = some k) :
    ∃ t, cargo t = cargo s ∧ rxAccepted s p i f =
      if k.stage = .held then setPkt t i (acceptedPkt k f) else landBytes (setPkt t i (acceptedPkt k f)) i k.data.length := by
  have hc : cargo (mainCount (mainCount s p 0x40 1) p 0x41 f.length) = cargo s :=
    (cargo_mainCount _ p _ (by decide) (by decide)).trans (cargo_mainCount s p 1 (by decide) (by decide))
  have hk : pkt? (mainCount (mainCount s p 0x40 1) p 0x41 f.length) i = some k := (pkt_of_cargo hc i).trans h
  refine ⟨_, ((cargo_postCounters _ k.posts f.length).trans (cargo_correctionsDue _ k.draws (some f.length))).trans hc, ?_⟩
  simp only [rxAccepted, hk, acceptedPkt]

/-- A good frame of an admissible length comes to the acceptance of its packet. -/
theorem rxEnds_accepts {s : State} {p : Nat} {rx : Rx} {f : List Byte} (hpass : rx.reason = 0) (hmin : 64 ≤ f.length)
    (hmax : f.length ≤ rx.maxFrame) (hfcs : fcsGood f = true) : ∃ t, cargo t = cargo s ∧ rxEnds s p rx f = rxAccepted t p rx.pkt f := by
  refine ⟨goodCounted (rxCounted s p f.length) p f, (cargo_goodCounted _ p f).trans (cargo_fbRxSize s p _), ?_⟩
  simp [rxEnds, hfcs, lengthReason_accepts hmin hmax, hpass]

/-- An accepted packet whose bytes need no further cell stands. -/
theorem pkt_rxAccepted {s : State} {p i : Nat} {f : List Byte} {k : Pkt} (h : pkt? s i = some k)
    (hcells : k.stage = .held ∨ cellsFor (f.length - 4) ≤ k.cells.length) : pkt? (rxAccepted s p i f) i = some (acceptedPkt k f) := by
  obtain ⟨t, -, heq⟩ := rxAccepted_eq (p := p) (f := f) h
  rw [heq]
  split
  · exact pkt_setPkt_self t i _
  · have hn : cellsFor (acceptedPkt k f).data.length ≤ (acceptedPkt k f).cells.length := by
      rw [length_acceptedPkt]
      exact hcells.resolve_left ‹_›
    rw [pkt_of_cargo (landBytes_enough (pkt_setPkt_self t i _) hn _), pkt_setPkt_self]

/-- An accepted packet that stands without a verdict against it has cells for its bytes. -/
theorem cells_rxAccepted {s : State} {p i : Nat} {f : List Byte} {k k' : Pkt} (h : pkt? s i = some k) (hheld : k.stage ≠ .held)
    (hk' : pkt? (rxAccepted s p i f) i = some k') (hgood : k'.bad = some 0) :
    k' = { acceptedPkt k f with cells := k'.cells } ∧ k.cells <+: k'.cells ∧ cellsFor (f.length - 4) ≤ k'.cells.length := by
  obtain ⟨t, -, heq⟩ := rxAccepted_eq (p := p) (f := f) h
  rw [heq, if_neg hheld] at hk'
  have hself := pkt_setPkt_self t i (acceptedPkt k f)
  obtain ⟨cs, hpre, hl, hc⟩ | ⟨u, r, hr, hc, hd⟩ := landBytes_cases hself k.data.length
  · rw [pkt_of_cargo hc, pkt_setPkt_self] at hk'
    cases hk'
    exact ⟨rfl, hpre, length_acceptedPkt k f ▸ hl ▸ Nat.le_max_right _ _⟩
  · rw [hd] at hk'
    obtain hgone | ⟨k₀, hk₀, hbad⟩ := marked_macDiscard ((pkt_of_cargo hc i).trans hself) r (acceptedPkt k f).data
    · exact absurd (mem_mkeys_of_mfind hk') hgone
    · cases hk'.symm.trans hk₀
      cases hgood.symm.trans hbad
      omega

theorem steady_rxAccepted (s : State) (p i : Nat) (f : List Byte) {k : Pkt} (h : pkt? s i = some k) : Steady s (rxAccepted s p i f) := by
  obtain ⟨t, hc, heq⟩ := rxAccepted_eq (p := p) (f := f) h
  have hset := (kept_of_cargo hc).toSteady.trans (steady_withPkts t (mput t.pkts i (acceptedPkt k f)))
  rw [heq]
  split
  · exact hset
  · exact hset.trans (steady_landBytes _ i _)

/-- The port's MAC is free. -/
def rxFree (s : State) (p : Nat) : State := setPort s p { port s p with rx := none }

theorem rx_rxFree (s : State) (p : Nat) : (port (rxFree s p) p).rx = none := congrArg Port.rx (port_setPort_self s p _)

/-- The end of a frame frees the MAC, and goes by whether it was admitted. -/
theorem exec_rxFrameEnd {s : State} {p : Nat} {rx : Rx} {f : List Byte} (h : (port s p).rx = some rx) (hwin : rx.win = f.take rx.win.length)
    (hlen : min 128 f.length ≤ rx.win.length) : Answers (.rxFrameEnd p f) s
      (if rx.admitted then rxEnds (rxFree s p) p rx f else rxCounted (rxFree s p) p f.length) := by
  show execRxFrameEnd p f s = _
  simp only [execRxFrameEnd, h]
  rw [if_pos ⟨hwin, hlen⟩]
  cases rx.admitted <;> rfl

/-! ### The drain of a receive buffer (R528) -/

/-- The PIPE of the LMAC holds back no longer. -/
def lmacResumed (s : State) (n : Nat) : State := { s with ase.hold := mset false s.ase.hold (n / 2) false }

/-- The LMAC's receive buffer holds what follows its first frame. -/
def headTaken (s : State) (n : Nat) (rest : List Nat) : State :=
  { s with lmacs := mput s.lmacs n { held := rest, paused := true } }

/-- The LMAC is no longer paused. -/
def lmacIdle (s : State) (n : Nat) : State := { s with lmacs := mset {} s.lmacs n {} }

theorem exec_lmacDrainResume (s : State) (n : Nat) :
    Answers (.lmacDrainResume n) s (drainHeld ((mget {} s.lmacs n).held.length + 1) (lmacResumed s n) n) := rfl

theorem drainHeld_empty {s : State} {n : Nat} (h : (mget {} s.lmacs n).held = []) (f : Nat) : drainHeld (f + 1) s n = lmacIdle s n := by
  rw [drainHeld, h]
  rfl

theorem drainHeld_cons {s : State} {n i : Nat} {r : List Nat} {k : Pkt} (h : (mget {} s.lmacs n).held = i :: r)
    (hk : pkt? s i = some k) (f : Nat) : drainHeld (f + 1) s n =
      if mayCross s k.inPort k.maxFrame then drainHeld f (crosses (headTaken s n r) i) n else s := by
  simp only [drainHeld, h, hk, headTaken]

/-- The only frame of a buffer crosses, and the buffer is idle. -/
theorem drainHeld_single {s : State} {n i : Nat} {k : Pkt} (h : (mget {} s.lmacs n).held = [i]) (hk : pkt? s i = some k)
    (hcross : mayCross s k.inPort k.maxFrame = true) : drainHeld 2 s n = lmacIdle (crosses (headTaken s n []) i) n := by
  have htaken : (mget {} (headTaken s n []).lmacs n).held = [] := congrArg Lmac.held (mget_mput_self _ _ _ _)
  rw [drainHeld_cons h hk, if_pos hcross]
  exact drainHeld_empty ((steady_crosses _ i).emptyHeld n htaken) 0

end Sys2Proof.Machine

namespace Sys2Proof
open Machine

/-- The clause of the first byte (R63). -/
theorem rxFrameStart_admits_or_passes_by {s : State} {p : Nat} {w v : List Byte} {holding : Bool} (frac : Nat) (hr : canReceive s p = true)
    (hf : s.pwr.flushing = false) (hv : v = w.take (max 128 (maxFrame s p))) (hroom : bufferTaken s (lmacOf p) + maxFrame s p ≤ 524288) :
    ∃ t, Answers (.rxFrameStart p w frac holding) s t ∧ t.led.aLine = s.led.aLine + 1 ∧ (port t p).rx = some (rxBegun s p v) ∧
      ((rxBegun s p v).reason = 0 → t.nextPkt = s.nextPkt + 1 ∧ ∀ k, pkt? t s.nextPkt = some k → k.origin = .line p ∧ k.inPort = p ∧
        k.win = v.take 128 ∧ k.data = v ∧ k.maxFrame = maxFrame s p ∧ k.len = none) ∧
      (HasCell s (rxPool s p) ∧ v.length ≤ 256 ∨ (mget {} s.lmacs (lmacOf p)).held ≠ [] ∨ (rxBegun s p v).reason ≠ 0 →
        t.led.oRx = s.led.oRx + 1 ∧ ((rxBegun s p v).reason = 0 → (pkt? t s.nextPkt).isSome = true)) := by
  by_cases hpass : (rxBegun s p v).reason = 0
  · obtain ⟨t, ht, ⟨haLine, hrx, hnext, hpkt⟩, hstands⟩ := rxFrameStart_admits frac hr hf hv hroom hpass
    refine ⟨t, ht, haLine, hrx, fun _ => ⟨hnext, hpkt⟩, fun hcell => ?_⟩
    obtain ⟨hled, hk⟩ := hstands (hcell.imp_right fun h => h.resolve_right (not_not.2 hpass))
    exact ⟨hled, fun _ => hk⟩
  · exact ⟨_, rxFrameStart_passes_by frac hr hf hv hroom hpass, rfl, rx_rxIs _ p _, fun h => absurd h hpass, fun _ =>
      ⟨rfl, fun h => absurd h hpass⟩⟩

/-- The clause of an accepted frame (R62). -/
theorem rxFrameEnd_accepts {s : State} {p : Nat} {f : List Byte} {rx : Rx} {k : Pkt} (h : (port s p).rx = some rx)
    (hwin : rx.win = f.take rx.win.length) (hlen : min 128 f.length ≤ rx.win.length) (hin : rx.admitted = true) (hpass : rx.reason = 0)
    (hmin : 64 ≤ f.length) (hmax : f.length ≤ rx.maxFrame) (hfcs : fcsGood f = true) (hk : pkt? s rx.pkt = some k) :
    ∃ t, Answers (.rxFrameEnd p f) s t ∧ (port t p).rx = none ∧
      (k.stage = .held ∨ cellsFor (f.length - 4) ≤ k.cells.length → pkt? t rx.pkt = some (acceptedPkt k f)) ∧
      (∀ k', k.stage ≠ .held → pkt? t rx.pkt = some k' → k'.bad = some 0 →
        k' = { acceptedPkt k f with cells := k'.cells } ∧ k.cells <+: k'.cells ∧ cellsFor (f.length - 4) ≤ k'.cells.length) := by
  obtain ⟨u, hc, hends⟩ := rxEnds_accepts (s := rxFree s p) (p := p) hpass hmin hmax hfcs
  have hku : pkt? u rx.pkt = some k := (pkt_of_cargo hc _).trans hk
  have hend := exec_rxFrameEnd h hwin hlen
  rw [if_pos hin, hends] at hend
  refine ⟨_, hend, ?_, pkt_rxAccepted hku, fun k' hheld hk' hgood => cells_rxAccepted hku hheld hk' hgood⟩
  rw [(steady_rxAccepted u p rx.pkt f hku).rx p, port_of_cargo hc, rx_rxFree]

/-- The clause of a frame that was not admitted (R63). -/
theorem rxFrameEnd_counts {s : State} {p : Nat} {f : List Byte} {rx : Rx} (h : (port s p).rx = some rx)
    (hwin : rx.win = f.take rx.win.length) (hlen : min 128 f.length ≤ rx.win.length) (hout : rx.admitted = false) :
    ∃ t, Answers (.rxFrameEnd p f) s t ∧ (port t p).rx = none ∧ t.pkts = s.pkts ∧ t.led = s.led := by
  have hend := exec_rxFrameEnd h hwin hlen
  have hc : cargo (rxCounted (rxFree s p) p f.length) = cargo (rxFree s p) := cargo_fbRxSize _ p _
  rw [if_neg (by rw [hout]; decide)] at hend
  obtain ⟨hpkts, -, -, hled, -, -, -⟩ := cargo_parts hc
  exact ⟨_, hend, by rw [port_of_cargo hc, rx_rxFree], hpkts, hled⟩

/-- The clause of a single frame that may cross (R528). -/
theorem lmacDrainResume_single {s : State} {n i : Nat} {k : Pkt} (h : (mget {} s.lmacs n).held = [i]) (hk : pkt? s i = some k)
    (hcross : mayCross (lmacResumed s n) k.inPort k.maxFrame = true) :
    ∃ t, Answers (.lmacDrainResume n) s t ∧ (mget {} t.lmacs n).held = [] ∧
      (k.cells = [] → k.data.length ≤ 256 → HasCell s (sourcePool s k) → (pkt? t i).isSome = true) ∧
      (∀ k', pkt? t i = some k' → cellsFor k.data.length ≤ k'.cells.length ∧ k' = { crossing s k with cells := k'.cells }) := by
  have hdrain := exec_lmacDrainResume s n
  rw [h, List.length_singleton, drainHeld_single (s := lmacResumed s n) h hk hcross] at hdrain
  refine ⟨_, hdrain, congrArg Lmac.held (mget_mset_self _ _ _ _), fun hcells hlen hpool => ?_, fun k' hk' => ?_⟩
  · have hpool' : HasCell (headTaken (lmacResumed s n) n []) (sourcePool s k) := hasCell_congr hpool rfl rfl rfl
    exact (crosses_first (s := headTaken (lmacResumed s n) n []) hk hcells hlen hpool').1
  · exact (pkt_crosses (s := headTaken (lmacResumed s n) n []) hk hk').symm

/-- Settles O8: the reception of a frame goes by whether there is room, the end of a frame by whether it was admitted, and a packet whose
bytes land keeps all but its cells, or is discarded with another verdict. -/
theorem receiveMac : Obligations.ReceiveMac := by
  unfold Obligations.ReceiveMac
  refine ⟨fun s p frac w v holding hr hf hv => ⟨rxFrameStart_admits_or_passes_by frac hr hf hv, rxFrameStart_full frac hr hf⟩,
    fun s p f rx h hwin hlen => ⟨fun k hin hpass hmin hmax hfcs hk hdraws hposts => ?_, rxFrameEnd_counts h hwin hlen⟩,
    fun s n => ⟨fun h => ?_, fun i r k h hk hcross => ?_, fun i k => lmacDrainResume_single⟩⟩
  · obtain ⟨t, ht, hfree, hstands⟩ := rxFrameEnd_accepts h hwin hlen hin hpass hmin hmax hfcs hk
    refine ⟨t, ht, hfree, fun d hd => ?_⟩
    have hd' : d = acceptedPkt k f := by rw [hd, acceptedPkt, hdraws, hposts]
    rw [hd']
    exact hstands
  · have hdrain := exec_lmacDrainResume s n
    rwa [drainHeld_empty (s := lmacResumed s n) h] at hdrain
  · have hdrain := exec_lmacDrainResume s n
    rwa [drainHeld_cons (s := lmacResumed s n) h hk, if_neg (by rw [lmacResumed, hcross]; decide)] at hdrain

end Sys2Proof
end

section
/-! SUPPORT. Writes of protected words while nothing is wrong in the arrays, and the rules a chapter adds to a commit or to the start of a
job (R394, R410, R489). -/

namespace Sys2Proof.Machine

/-- With no fault armed no word of a write is corrupted (R498). -/
theorem armedWord_of_disarmed {s : State} (h : reg s Reg.intInject = 0) (cls unit : Nat) (idxs : List Nat) :
    armedWord s cls unit idxs = none := by
  have hkind : ¬ 1 ≤ bits (reg s Reg.intInject) 63 60 := by rw [h]; decide
  exact if_neg fun hf => hkind hf.1

/-- A write of protected words leaves sound arrays as they are (R489). -/
theorem wordsWritten_of_sound {s : State} (h : Sound s) (cls unit : Nat) (idxs : List Nat) : wordsWritten s cls unit idxs = s := by
  obtain ⟨hbad, hinject⟩ := h
  simp [wordsWritten, hbad, armedWord_of_disarmed hinject]

/-- A committed value its chapter's rule turns away changes nothing but the record of the failure (R394). -/
theorem commitRow_ruleFailed (s : State) (c : Client) (k : Nat) (rule : State → Applied) (st : Status)
    (h : domainChecks s c k = none) (hd : rule s = .fail st) :
    commitRow s c k rule = emit (noteFailure s c k st) (.status (callerOf c) st.code []) := by
  simp [commitRow, h, hd, conclude]

/-- A start its chapter's rule turns away changes nothing but the record of the failure (R410). -/
theorem mayStartWith_turnedAway {s : State} {c : Client} {k : Nat} {rule : State → Applied} {st : Status} (h : MayStart s c k)
    (hr : rule s = .fail st) :
    concludeJob s c k (jobStartWith s c k rule) = emit (noteFailure s c k st) (.status (callerOf c) st.code []) := by
  rw [jobStartWith, mayStart_rule h, hr]
  rfl

/-- A read of a whole value that passes its checks answers its bytes and leaves what the read leaves (R407). -/
theorem domainRead_done {s : State} {c : Client} {k : Nat} (h : MayReadValue s c k) (b : List Byte) (after : State → State) :
    domainRead s c k b after = emit (after s) (.status (callerOf c) 0 b) := by
  obtain ⟨hread, hopen⟩ := h
  simp [domainRead, hread, hopen]

/-- The end of a job writes no entry. -/
@[simp] theorem reg_jobEnd (s : State) (k result entry : Nat) : reg (jobEnd s k result) entry = reg s entry := by
  rw [jobEnd]
  split <;> rfl

/-- A running job that ends has completed with its result (R409). -/
theorem jobCompleted_jobEnd {s : State} {k : Nat} (h : jobRunning s k = true) (result : Nat) :
    JobCompleted (jobEnd s k result) k result := by
  rw [jobEnd, if_pos h, JobCompleted, job_setJob_self]
  exact ⟨rfl, rfl⟩

/-- Raising a cause leaves jobs as they are (R380). -/
theorem job_raise (s : State) (c : CauseReg) (b k : Nat) : job (raise s c b) k = job s k := by
  have hraise := (noted_raise [c.key] s c b (.inl (by simp))).1
  have hdict : (raise s c b).dict = s.dict := by rw [hraise]
  rw [job, hdict, job]

end Sys2Proof.Machine
end

section
/-! SUPPORT. The epoch swap and the stores of classification (ch. 5, R119–R131). -/

namespace Sys2Proof.Machine

/-! ### The swap and the retirement of a slot (R124) -/

/-- The other slot is current from now on, and the one that was retires (R124). -/
def epochSwapped (s : State) : State :=
  { setReg (setReg s Reg.clsEpochCurrent (1 - epochNow s)) Reg.clsEpochState 1 with cls.swapAt := s.time }

/-- A swap with no slot retiring and no transfer open begins (R124). -/
theorem startSwap_begins {s : State} (hr : retiring s = false) (ht : s.dict.transfers = []) : startSwap s = .done (epochSwapped s) := by
  simp [startSwap, hr, ht, epochSwapped]

/-- A swap is busy while a slot is retiring (R124). -/
theorem startSwap_busy {s : State} (hr : retiring s = true) : startSwap s = .fail .busy := by
  simp [startSwap, hr]

/-- After a swap the other slot is current (R124). -/
theorem current_epochSwapped (s : State) : reg (epochSwapped s) Reg.clsEpochCurrent = 1 - reg s Reg.clsEpochCurrent :=
  (reg_setReg_ne _ Reg.clsEpochState Reg.clsEpochCurrent 1 (by decide)).trans (reg_setReg_self s _ _)

/-- After a swap a slot is retiring (R124). -/
theorem state_epochSwapped (s : State) : reg (epochSwapped s) Reg.clsEpochState = 1 := reg_setReg_self _ Reg.clsEpochState 1

/-- A swap writes the two entries of the epoch alone. -/
theorem epochSwapped_onlyEntries (s : State) : OnlyEntries s (epochSwapped s) [Reg.clsEpochCurrent, Reg.clsEpochState] := by
  intro k hk
  simp only [List.mem_cons, List.not_mem_nil, or_false, not_or] at hk
  obtain ⟨hcurrent, hstate⟩ := hk
  exact (reg_setReg_ne _ Reg.clsEpochState k 1 hstate).trans (reg_setReg_ne s Reg.clsEpochCurrent k _ hcurrent)

/-- The retiring slot is inactive again, and the time it took is kept (R124). -/
def slotRetired (s : State) : State :=
  setReg (setReg s Reg.clsEpochState 0) Reg.clsLastRetireNs ((s.time - s.cls.swapAt) % 2 ^ 32)

/-- The state after a slot has retired: the swap job, if it runs, has ended, and the cause is raised (R124). -/
def epochEnded (s : State) : State := raise (jobEnd (slotRetired s) Reg.clsEpochSwap 0) .cls 0

/-- A retiring slot that no packet bears any more is retired (R124). -/
theorem exec_epochRetired {s : State} (hr : retiring s = true) (he : inflight s (1 - epochNow s) = 0) :
    Answers .epochRetired s (epochEnded s) := by
  have hjob : (if jobRunning (slotRetired s) Reg.clsEpochSwap then jobEnd (slotRetired s) Reg.clsEpochSwap 0 else slotRetired s) =
      jobEnd (slotRetired s) Reg.clsEpochSwap 0 := by
    rw [jobEnd]
    split <;> rfl
  rw [epochEnded, ← hjob]
  exact if_pos ⟨hr, he⟩

/-- The cause of the retirement and the side apart, an entry holds what the retirement stored (R124). -/
theorem reg_epochEnded (s : State) {k : Nat} (hs : sideEntry k = false) (hk : k ≠ Reg.clsCause) :
    reg (epochEnded s) k = reg (slotRetired s) k := by
  rw [epochEnded, reg_raise_of_ne _ .cls 0 hs hk, reg_jobEnd]

/-- The swap job that runs completes when the slot is retired (R124). -/
theorem jobCompleted_epochEnded {s : State} (h : jobRunning s Reg.clsEpochSwap = true) :
    JobCompleted (epochEnded s) Reg.clsEpochSwap 0 := by
  have hend := jobCompleted_jobEnd (s := slotRetired s) h 0
  rwa [JobCompleted, ← job_raise _ .cls 0] at hend

/-! ### The stores of the slots (R122, R131, R529) -/

/-- A rule of the inactive slot applies where no slot is retiring (R122). -/
theorem inSlot_inactive {s : State} {e : Nat} (he : e ≠ epochNow s) (hr : retiring s = false) (rule : State → Applied) :
    inSlot e rule s = rule s := by
  simp [inSlot, slotStatus, he, hr]

/-- A commit into the current slot is refused, whatever the store (R122). -/
theorem commitRow_currentSlot {s : State} {c : Client} {k e : Nat} (h : domainChecks s c k = none) (he : e = epochNow s)
    (rule : State → Applied) :
    commitRow s c k (inSlot e rule) = emit (noteFailure s c k .refused) (.status (callerOf c) Status.refused.code []) :=
  commitRow_ruleFailed s c k _ .refused h (by simp [inSlot, slotStatus, he])

/-- Sound arrays stay sound whatever the stores of classification hold. -/
theorem sound_setCls {s : State} (h : Sound s) (x : ClsState) : Sound { s with cls := x } := h

/-- The words of a store are written in every PIPE, and sound arrays stay as they are (R105, R489). -/
theorem clsWritten_of_sound {s : State} (h : Sound s) (t e : Nat) (l : List Nat) : clsWritten s t e l = s :=
  List.foldl_fixed' (fun _ => wordsWritten_of_sound h _ _ _) _

/-- A stage plan that is in order replaces the plan of the inactive slot (R529). -/
theorem wStagePlan_stores {s : State} {e : Nat} {b : List Byte} (h : Sound s) (he : e ≠ epochNow s) (hr : retiring s = false)
    (hb : planOk s b = true) : wStagePlan e b s = .done (setBlk s (Reg.clsStagePlan e) b) := by
  have hplan : Sound (setBlk s (Reg.clsStagePlan e) b) := h
  rw [wStagePlan, inSlot_inactive he hr, if_pos hb]
  simp only [clsWritten_of_sound hplan]

/-- Entries without a reserved code replace those of the direct table from entry 0 (R110, R131). -/
theorem wDirectTable_stores {s : State} {e : Nat} {b : List Byte} (h : Sound s) (he : e ≠ epochNow s) (hr : retiring s = false)
    (hb : bankLength b 32768 = true) (hw : ∀ w ∈ entriesOf b, codeOk (w / 2 ^ 64) = true ∧ codeOk (w % 2 ^ 64) = true) :
    wDirectTable e b s = .done { s with cls.direct := putEntries s.cls.direct (32768 * e) ((entriesOf b).map entryNamed) } := by
  have hall : (entriesOf b).all (fun w => codeOk (w / 2 ^ 64) && codeOk (w % 2 ^ 64)) = true := by
    simpa only [List.all_eq_true, Bool.and_eq_true] using hw
  rw [wDirectTable, inSlot_inactive he hr]
  simp only [hb, hall, Bool.and_self, if_true]
  rw [clsWritten_of_sound (sound_setCls h _)]

/-- Profiles without a reserved value replace the rewrite profiles from entry 0 (R129, R131). -/
theorem wRewriteProfiles_stores {s : State} {e : Nat} {b : List Byte} (h : Sound s) (he : e ≠ epochNow s) (hr : retiring s = false)
    (hb : bankLength b 256 = true) (hw : ∀ w ∈ entriesOf b, rewriteOk w = true) :
    wRewriteProfiles e b s = .done { s with cls.rewrite := putEntries s.cls.rewrite (256 * e) (entriesOf b) } := by
  rw [wRewriteProfiles, inSlot_inactive he hr]
  simp only [hb, List.all_eq_true.2 hw, Bool.and_self, if_true]
  rw [clsWritten_of_sound (sound_setCls h _)]

/-- A power of two from 2^10 to 2^19 is a bucket count the compatibility region may take, while nothing depends on it (R119, R131). -/
theorem wCompatBuckets_stores {s : State} {v : Nat} (hv : ∃ n, 10 ≤ n ∧ n ≤ 19 ∧ v = 2 ^ n) (hc : compatEnabled s = false)
    (hm : emEmpty s = true) : wCompatBuckets v s = .done (setReg s Reg.clsCompatBuckets v) := by
  obtain ⟨n, hlo, hhi, rfl⟩ := hv
  have hany : (rangeFrom 10 10).any (fun k => 2 ^ n == 2 ^ k) = true :=
    List.any_eq_true.2 ⟨n, List.mem_map.2 ⟨n - 10, List.mem_range.2 (by omega), by omega⟩, beq_self_eq_true _⟩
  rw [wCompatBuckets, hany, hc, hm]
  rfl

end Sys2Proof.Machine

namespace Sys2Proof

open Machine

/-- The clause of a swap that begins (R124). -/
theorem clsEpochSwap_begins {s : State} {c : Client} (h : MayStart s c Reg.clsEpochSwap) (hr : retiring s = false)
    (ht : s.dict.transfers = []) :
    Answers (.clsEpochSwap c) s (answeredWord (jobBegin (epochSwapped s) Reg.clsEpochSwap) c Reg.clsEpochSwap) :=
  congrArg Host.Outcome.next (mayStartWith_does h (startSwap_begins hr ht))

/-- The clause of a slot that is retired (R124). -/
theorem epochRetired_ends {s : State} (hr : retiring s = true) (he : inflight s (1 - epochNow s) = 0) :
    ∃ t, Answers .epochRetired s t ∧ reg t Reg.clsEpochState = 0 ∧ reg t Reg.clsLastRetireNs = (s.time - s.cls.swapAt) % 2 ^ 32 ∧
      bit (reg t Reg.clsCause) 0 = true ∧ (jobRunning s Reg.clsEpochSwap = true → JobCompleted t Reg.clsEpochSwap 0) := by
  refine ⟨epochEnded s, exec_epochRetired hr he, ?_, ?_, bit_raise_self _ .cls 0 (by decide), jobCompleted_epochEnded⟩
  · rw [reg_epochEnded s (by decide) (by decide), slotRetired, reg_setReg_ne _ _ _ _ (by decide), reg_setReg_self]
  · rw [reg_epochEnded s (by decide) (by decide), slotRetired, reg_setReg_self]

/-- Settles O13: a start and a commit go by their chapter's rule once the checks are passed, and the rule of a store applies in the inactive
slot alone. -/
theorem epochsAndClassificationWrites : Obligations.EpochsAndClassificationWrites := by
  unfold Obligations.EpochsAndClassificationWrites
  refine ⟨fun s c _ => ⟨fun h hr ht => ?_, fun h hr => ?_, epochRetired_ends⟩,
    fun s c e v b hs => ⟨fun h he hr hb => ?_, fun h he => ?_, fun h he hr hb hw => ?_, fun h he hr hb hw => ?_, fun h hv hc hm => ?_,
      fun h => ?_⟩⟩
  · exact ⟨epochSwapped s, clsEpochSwap_begins h hr ht, rfl, current_epochSwapped s, state_epochSwapped s, epochSwapped_onlyEntries s⟩
  · exact congrArg Host.Outcome.next (mayStartWith_turnedAway h (startSwap_busy hr))
  · exact congrArg Host.Outcome.next (commitRow_done s _ c _ _ h (wStagePlan_stores hs he hr hb))
  · exact congrArg Host.Outcome.next (commitRow_currentSlot h he _)
  · exact congrArg Host.Outcome.next (commitRow_done s _ c _ _ h (wDirectTable_stores hs he hr hb hw))
  · exact congrArg Host.Outcome.next (commitRow_done s _ c _ _ h (wRewriteProfiles_stores hs he hr hb hw))
  · exact congrArg Host.Outcome.next (permitted_does h (wCompatBuckets_stores hv hc hm))
  · exact congrArg Host.Outcome.next (domainRead_done h _ _)

end Sys2Proof
end

section
/-! SUPPORT. What the jobs that apply loads stand on while a record is applied: the dictionary's engine and the counts of applied records
(R154). The lemmas below say that the operations of a record leave them as they were. -/

namespace Sys2Proof.Machine

variable {α : Type}

/-! ### The standing of the load jobs -/

/-- Whether an entry counts the records that a load job has applied (R154). -/
def isDoneCount (k : Nat) : Bool := k == Reg.lkpApplyDone || k == Reg.aseApplyDone || k == Reg.mtrApplyDone || k == Reg.qmApplyDone

/-- What the counts of applied records read. -/
def doneCounts (od : SMap Nat) (k : Nat) : Nat := if isDoneCount k then mget (odDefault k) od k else 0

/-- What only the jobs themselves move while they apply records. -/
structure Standing where
  dict : DictState
  done : Nat → Nat

/-- The dictionary's engine and the counts of applied records of a state. -/
def standing (s : State) : Standing := ⟨s.dict, doneCounts s.od⟩

/-- States of one standing have one engine. -/
theorem dict_of_standing {s t : State} (h : standing t = standing s) : t.dict = s.dict := congrArg Standing.dict h

/-- States of one standing have counted as many records. -/
theorem done_of_standing {s t : State} (h : standing t = standing s) {k : Nat} (hk : isDoneCount k = true) : reg t k = reg s k := by
  have hdone := congrFun (congrArg Standing.done h) k
  simpa only [standing, doneCounts, hk, if_true, reg] using hdone

/-- Storing another entry moves no count of applied records. -/
theorem doneCounts_mset {k : Nat} (h : isDoneCount k = false) (od : SMap Nat) (v : Nat) :
    doneCounts (mset (odDefault k) od k v) = doneCounts od := by
  funext j
  by_cases hj : j = k
  · subst hj
    simp [doneCounts, h]
  · simp only [doneCounts, mget_default_ne (odDefault k) (odDefault j) od k j v hj]

/-- Events move no count of applied records on the side. -/
theorem sideEntry_of_isDoneCount {k : Nat} (h : isDoneCount k = true) : sideEntry k = false := by
  simp only [isDoneCount, Bool.or_eq_true, beq_iff_eq] at h
  rcases h with ((rfl | rfl) | rfl) | rfl <;> decide

@[simp] theorem standing_mk (od blocks pending time timeOffset freeCtr sent evt led obs pkts nextPkt outs nextOut ports lanes lmacs mem qm
    pwr host fl ft hbm integ ase dict cls lkp mtr fw clk io) :
    standing (State.mk od blocks pending time timeOffset freeCtr sent evt led obs pkts nextPkt outs nextOut ports lanes lmacs mem qm pwr
      host fl ft hbm integ ase dict cls lkp mtr fw clk io) = ⟨dict, doneCounts od⟩ := (rfl)

@[simp] theorem standing_self (s : State) : Standing.mk s.dict (doneCounts s.od) = standing s := (rfl)

@[simp] theorem standing_ite (c : Prop) [Decidable c] (s t : State) :
    standing (if c then s else t) = if c then standing s else standing t := apply_ite standing c s t

@[simp] theorem standing_foldl {f : State → α → State} (h : ∀ s x, standing (f s x) = standing s) (l : List α) (s : State) :
    standing (l.foldl f s) = standing s :=
  List.foldlRecOn l f (motive := fun t => standing t = standing s) rfl fun t ht x _ => (h t x).trans ht

/-- What events bring on the side leaves the standing as it was. -/
theorem standing_of_noted {ks : List Nat} {s t : State} (h : Noted ks s t) (hk : ∀ k ∈ ks, isDoneCount k = false) :
    standing t = standing s := by
  obtain ⟨heq, -, hreg⟩ := h
  have hdone : doneCounts t.od = doneCounts s.od := by
    funext k
    by_cases hj : isDoneCount k = true
    · have hread := hreg k (sideEntry_of_isDoneCount hj) fun hmem => by simp [hk k hmem] at hj
      simpa only [doneCounts, hj, if_true, reg] using hread
    · simp [doneCounts, hj]
  rw [heq, standing_mk, hdone, standing_self]

/-! ### Shared operations -/

@[simp] theorem standing_setReg {k : Nat} (h : isDoneCount k = false) (s : State) (v : Nat) : standing (setReg s k v) = standing s := by
  rw [setReg, standing_mk, doneCounts_mset h, standing_self]

@[simp] theorem standing_countBy {k : Nat} (h : isDoneCount k = false) (s : State) (w n : Nat) :
    standing (countBy s w k n) = standing s := standing_setReg h s _

@[simp] theorem standing_count1 {k : Nat} (h : isDoneCount k = false) (s : State) : standing (count1 s k) = standing s :=
  standing_countBy h s 64 1

@[simp] theorem standing_raise {c : CauseReg} (h : isDoneCount c.key = false) (s : State) (b : Nat) : standing (raise s c b) = standing s :=
  standing_of_noted (noted_raise [c.key] s c b (.inl (by simp))) (by simpa using h)

@[simp] theorem standing_setFlips (s : State) (cls unit idx n : Nat) : standing (setFlips s cls unit idx n) = standing s := (rfl)

@[simp] theorem standing_latchError (s : State) (cls kind unit idx : Nat) : standing (latchError s cls kind unit idx) = standing s :=
  standing_setReg (by decide) s _

/-- An armed fault that fires is no record (R498). -/
@[simp] theorem standing_injectFired (s : State) : standing (injectFired s) = standing s :=
  (standing_raise (by decide) _ 6).trans ((standing_countBy (by decide) _ 32 1).trans (standing_setReg (by decide) s 0))

@[simp] theorem standing_wordsWritten (s : State) (cls unit : Nat) (idxs : List Nat) :
    standing (wordsWritten s cls unit idxs) = standing s := by
  simp only [wordsWritten]
  split <;> simp

/-! ### One record taken (R154) -/

/-- A job's status word is part of the dictionary's engine. -/
theorem job_of_dict {s t : State} (h : t.dict = s.dict) (k : Nat) : job t k = job s k := by rw [job, h, job]

@[simp] theorem job_jobPhase (s : State) (k n : Nat) : job (jobPhase s k n) k = { job s k with phase := n } := job_setJob_self s k _

@[simp] theorem job_jobProgress (s : State) (k n : Nat) :
    job (jobProgress s k n) k = { job s k with progress := (job s k).progress + n } := job_setJob_self s k _

/-- A record whose result is 0 moves its job one record further and counts as applied (R154). -/
theorem recordDone_applied (s : State) (j : LoadJob) : RecordTaken j s (recordDone s j 0) := by
  have hjob : job (recordDone s j 0) j.job =
      { job s j.job with phase := (job s j.job).phase + 1, progress := (job s j.job).progress + 1 } := by
    change job (jobProgress (jobPhase s j.job _) j.job 1) j.job = _
    simp
  exact ⟨by rw [hjob], by rw [hjob], reg_setReg_self _ _ _⟩

/-- The same of a record that has been applied meanwhile, and left the standing as it was. -/
theorem recordTaken_of_standing {j : LoadJob} {s u : State} (hj : isDoneCount j.done = true) (hu : standing u = standing s) :
    RecordTaken j s (recordDone u j 0) := by
  have hjob : job u j.job = job s j.job := job_of_dict (dict_of_standing hu) j.job
  have h := recordDone_applied u j
  rwa [RecordTaken, hjob, done_of_standing hu hj] at h

end Sys2Proof.Machine
end

section
/-! SUPPORT. Loads, the start of the jobs that apply them, and their end (R153, R154). -/

namespace Sys2Proof.Machine

/-! ### Loads (R153) -/

/-- Whole records, not too many of them, replace a load that no running job holds (R153). -/
theorem commitLoad_replaces {j : LoadJob} {s : State} {b : List Byte} (hjob : jobRunning s j.job = false) (hb : b ≠ [])
    (hwhole : b.length % j.size = 0) (hlen : b.length ≤ 65536 * j.size) :
    commitLoad j b s = .done { s with dict.loads := mput s.dict.loads j.load (chunks j.size (b.length / j.size) b) } := by
  simp [commitLoad, hjob, hb, hwhole, Nat.not_lt.2 hlen]

/-- A running job holds its load (R394). -/
theorem commitLoad_busy {j : LoadJob} {s : State} (hjob : jobRunning s j.job = true) (b : List Byte) :
    commitLoad j b s = .fail .busy := if_pos hjob

/-! ### Starts (R154) -/

/-- The reports of a load job as a start leaves them (R154). -/
def reportsCleared (j : LoadJob) (s : State) : State := setReg (setReg (setReg s j.done 0) j.errIndex 0xFFFFFFFF) j.errCode 0

/-- With a completed load, and no transfer open, a start clears the reports (R154). -/
theorem startLoadJob_clears {j : LoadJob} {s : State} (hload : (loadOf s j).isSome = true) (ht : s.dict.transfers = []) :
    startLoadJob j s = .done (reportsCleared j s) := by
  have hsome : (loadOf s j).isNone = false := by simpa using hload
  simp [startLoadJob, hsome, ht, reportsCleared]

/-- While no pivot move runs, a start of `lkp_apply` is that of any load job (R143). -/
theorem startLkpApply_clears {s : State} (hload : (loadOf s lkpJob).isSome = true) (ht : s.dict.transfers = [])
    (hmove : jobRunning s Reg.lkpPivotMove = false) : startLkpApply s = .done (reportsCleared lkpJob s) := by
  rw [startLkpApply, hmove]
  exact startLoadJob_clears hload ht

/-- A pivot move turns a start of `lkp_apply` away (R143). -/
theorem startLkpApply_busy {s : State} (hmove : jobRunning s Reg.lkpPivotMove = true) : startLkpApply s = .fail .busy := if_pos hmove

/-- A start of `ase_apply` also forgets the banks that the last run named (R181). -/
theorem startAseApply_clears {s : State} (hload : (loadOf s aseJob).isSome = true) (ht : s.dict.transfers = []) :
    startAseApply s = .done { reportsCleared aseJob s with ase.named := 0 } := by
  rw [startAseApply, startLoadJob_clears hload ht]
  rfl

end Sys2Proof.Machine

namespace Sys2Proof

open Machine

/-- Settles O14: a commit and a start go by the rule that every load job shares once the checks are passed. -/
theorem loadsAndApplyStarts : Obligations.LoadsAndApplyStarts := by
  unfold Obligations.LoadsAndApplyStarts
  refine ⟨fun s c b hb => ⟨fun h hjob hw hl => ?_, fun h hjob hw hl => ?_, fun h hjob hw hl => ?_, fun h hjob hw hl => ?_,
      fun h hjob => ?_⟩,
    fun s c ht => ⟨fun h hl hm => ?_, fun h hl => ?_, fun h hl => ?_, fun h hl => ?_, fun h hm => ?_⟩⟩
  · exact congrArg Host.Outcome.next (commitRow_done s _ c _ _ h (commitLoad_replaces (j := lkpJob) hjob hb hw hl))
  · exact congrArg Host.Outcome.next (commitRow_done s _ c _ _ h (commitLoad_replaces (j := aseJob) hjob hb hw hl))
  · exact congrArg Host.Outcome.next (commitRow_done s _ c _ _ h (commitLoad_replaces (j := mtrJob) hjob hb hw hl))
  · exact congrArg Host.Outcome.next (commitRow_done s _ c _ _ h (commitLoad_replaces (j := qmJob) hjob hb hw hl))
  · exact congrArg Host.Outcome.next (commitRow_ruleFailed s c _ _ _ h (commitLoad_busy (j := lkpJob) hjob b))
  · exact congrArg Host.Outcome.next (mayStartWith_does h (startLkpApply_clears hl ht hm))
  · exact congrArg Host.Outcome.next (mayStartWith_does h (startAseApply_clears hl ht))
  · exact congrArg Host.Outcome.next (mayStartWith_does (k := Reg.mtrApply) h (startLoadJob_clears hl ht))
  · exact congrArg Host.Outcome.next (mayStartWith_does (k := Reg.qmApply) h (startLoadJob_clears hl ht))
  · exact congrArg Host.Outcome.next (mayStartWith_turnedAway h (startLkpApply_busy hm))

end Sys2Proof
end

section
/-! SUPPORT. Route records (R137, R140, R141): a record whose result has no action of its own may still hold bytes in the action's place,
and its copies do not take them. -/

namespace Sys2Proof.Machine

/-- A record that adds 10.0.0.0/8 of VRF 1 with next hop 3. Its result leaves the extended bit clear, so the route carries no action of its
own (R140), and the eight bytes of that action, which no rule reserves, hold 1. -/
def strayActionRoute : List Byte :=
  padTo ([1, 0, 0, 0] ++ beBytes 2 1 ++ [4, 8] ++ beBytes 16 0x0A000000 ++ beBytes 4 (2 ^ 31 + 3 * 2 ^ 10) ++ beBytes 8 1) 64

/-- The block as at reset but for `lkp_apply`, which runs with that record as its load. -/
def addsStrayActionRoute : State :=
  { State.reset with dict.jobs := [(Reg.lkpApply, { state := 1 })], dict.loads := [(Reg.lkpLoad, [strayActionRoute])] }

/-- The record is taken, and the copy in stripe 0 holds no action. -/
theorem copy_addsStrayActionRoute : (mfind (lkpTakeOp addsStrayActionRoute 1).lkp.want
    (copyKey 0 (recRoute strayActionRoute))).map (fun x => x.ext) = some 0 := by decide +kernel

/-- The premises of a route record hold of it. -/
theorem addsStrayActionRoute_mayAdd : OdTidy addsStrayActionRoute ∧ nextRecord addsStrayActionRoute lkpJob = some strayActionRoute ∧
    mayTake addsStrayActionRoute = true ∧ (applyRoute addsStrayActionRoute strayActionRoute).1 = 0 := by decide +kernel

end Sys2Proof.Machine

namespace Sys2Proof

open Machine

/-- Refutes O15: a copy takes the action of the record only with the result's extended bit set (`newRoute`, R140), and a record with the
bit clear may hold any bytes there (`routeCode`), so the copy's action, 0, is not the record's, 1. -/
theorem not_routeRecords : ¬ Obligations.RouteRecords := by
  unfold Obligations.RouteRecords
  intro h
  obtain ⟨htidy, hnext, hmay, hcode⟩ := addsStrayActionRoute_mayAdd
  obtain ⟨hadd, -, -⟩ := h addsStrayActionRoute strayActionRoute htidy hnext hmay hcode
  obtain ⟨t, ht, -, hcopies⟩ := hadd (by decide)
  obtain ⟨x, hx, -, hext⟩ := hcopies 0 (by decide +kernel)
  have htaken : lkpTakeOp addsStrayActionRoute 1 = t := Host.Outcome.next.inj ht
  have hzero : x.ext = 0 := by simpa [htaken, hx] using copy_addsStrayActionRoute
  have hone : beAt strayActionRoute 28 8 = 1 := by decide
  exact absurd (hext.symm.trans hzero) (by rw [hone]; decide)

end Sys2Proof
end

section
/-! SUPPORT. The records of `lkp_load` (R153): the standing of the jobs that they leave alone, and what each leaves in its table. -/

namespace Sys2Proof.Machine

/-! ### The standing of the jobs -/

@[simp] theorem standing_lkpWritten (s : State) (stripe t i : Nat) : standing (lkpWritten s stripe t i) = standing s := by simp [lkpWritten]

@[simp] theorem standing_unitsHigh (s0 s : State) (stripe : Nat) : standing (unitsHigh s0 s stripe) = standing s := by
  simp +decide [unitsHigh]

@[simp] theorem standing_changeCopy (s : State) (stripe rk : Nat) (v : Option Route) :
    standing (changeCopy s stripe rk v) = standing s := (rfl)

@[simp] theorem standing_emPut (s : State) (stripe b x : Nat) (e : EmEntry) : standing (emPut s stripe b x e) = standing s := by
  simp [emPut]

@[simp] theorem standing_exactAdd (s : State) (ty key res : Nat) : standing (exactAdd s ty key res).2 = standing s := by
  simp only [exactAdd]
  repeat' split
  all_goals simp +decide

@[simp] theorem standing_applyRoute (s : State) (r : List Byte) : standing (applyRoute s r).2 = standing s := by simp [applyRoute]

@[simp] theorem standing_applyExact (s : State) (r : List Byte) : standing (applyExact s r).2 = standing s := by
  simp only [applyExact]
  repeat' split
  all_goals simp +decide

@[simp] theorem standing_applyAdj (s : State) (r : List Byte) : standing (applyAdj s r).2 = standing s := by simp [applyAdj]
@[simp] theorem standing_applyGroup (s : State) (r : List Byte) : standing (applyGroup s r).2 = standing s := by simp [applyGroup]
@[simp] theorem standing_applyMembers (s : State) (r : List Byte) : standing (applyMembers s r).2 = standing s := by simp [applyMembers]
@[simp] theorem standing_applyProfile (s : State) (r : List Byte) : standing (applyProfile s r).2 = standing s := by simp [applyProfile]
@[simp] theorem standing_applyCompat (s : State) (r : List Byte) : standing (applyCompat s r).2 = standing s := by simp [applyCompat]

@[simp] theorem standing_applyLkp (s : State) (r : List Byte) : standing (applyLkp s r).2 = standing s := by
  rw [applyLkp]
  split <;> simp

/-! ### The tables -/

/-- Words written leave the tables as they hold them. -/
@[simp] theorem lkp_lkpWritten (s : State) (stripe t i : Nat) : (lkpWritten s stripe t i).lkp = s.lkp :=
  part_lkpWritten (π := .lkp) s stripe t i

/-- A record's result leaves the tables as the record has. -/
@[simp] theorem lkp_recordDone (s : State) (j : LoadJob) (code : Nat) : (recordDone s j code).lkp = s.lkp :=
  part_recordDone (π := .lkp) s j code

/-- An entry installed at a place is found there (R146). -/
theorem mfind_emPut (s : State) (stripe b x : Nat) (e : EmEntry) :
    mfind (emPut s stripe b x e).lkp.em (emPlace stripe b x) = some e := by
  simp [emPut]

/-- A rule that begins with a check applies a record just when the check finds nothing and what follows applies it (R153). -/
theorem code_eq_zero_iff {c : Prop} [Decidable c] {n : Nat} (hn : n ≠ 0) (s : State) (x : Nat × State) :
    (if c then (n, s) else x).1 = 0 ↔ ¬ c ∧ x.1 = 0 := by
  by_cases hc : c <;> simp [hc, hn]

/-! ### Exact-match records (R146, R153) -/

/-- An add that is applied, with a free place in the key's first bucket, is installed there (R146). -/
theorem exactAdd_firstBucket {s : State} {ty key res x : Nat} (h : (exactAdd s ty key res).1 = 0)
    (hfree : emFree s.lkp.em (emHome (emHash ty key)) (emB1 s (emHash ty key)) (emWide ty) = some x) :
    (exactAdd s ty key res).2 = emPut s (emHome (emHash ty key)) (emB1 s (emHash ty key)) x { ty := ty, key := key, res := res } := by
  simp only [exactAdd] at h
  rw [code_eq_zero_iff (by decide)] at h
  obtain ⟨hnew, -⟩ := h
  simp only [exactAdd, hnew, hfree]
  rfl

/-- An exact record that is applied is whole (R153). -/
theorem exactCode_of_applied {s : State} {r : List Byte} (h : (applyExact s r).1 = 0) : exactCode r = 0 := by
  by_contra hcode
  simp [applyExact, hcode] at h

/-- An add goes by the rule of exact adds (R146). -/
theorem applyExact_add {s : State} {r : List Byte} (h : (applyExact s r).1 = 0) (hop : byteAt r 0 = 4) :
    applyExact s r = exactAdd s (byteAt r 4) (recKey r) (beAt r 48 11) := by
  have hrule : (exactAdd s (byteAt r 4) (recKey r) (beAt r 48 11)).1 ≠ 2 := fun hfull => by
    simp [applyExact, exactCode_of_applied h, hop, hfull] at h
  simp [applyExact, exactCode_of_applied h, hop, hrule]

/-- A replace writes the result where the key stands (R153). -/
theorem applyExact_replace {s : State} {r : List Byte} {p : Nat × Nat} (h : (applyExact s r).1 = 0) (hop : byteAt r 0 = 6)
    (hp : emFind s (byteAt r 4) (recKey r) = some p) :
    (applyExact s r).2 = emPut s (emHome (emHash (byteAt r 4) (recKey r))) p.1 p.2
      { ty := byteAt r 4, key := recKey r, res := beAt r 48 11 } := by
  simp [applyExact, exactCode_of_applied h, hop, hp]

/-- A delete empties the place where the key stands (R153). -/
theorem applyExact_delete {s : State} {r : List Byte} {p : Nat × Nat} (h : (applyExact s r).1 = 0) (hop : byteAt r 0 = 5)
    (hp : emFind s (byteAt r 4) (recKey r) = some p) :
    (applyExact s r).2 = { s with lkp.em := mdel s.lkp.em (emPlace (emHome (emHash (byteAt r 4) (recKey r))) p.1 p.2) } := by
  simp [applyExact, exactCode_of_applied h, hop, hp]

/-! ### Next-hop and profile records (R140, R147–R149) -/

theorem mget_adj_applyAdj {s : State} {r : List Byte} (h : (applyAdj s r).1 = 0) :
    mget 0 (applyAdj s r).2.lkp.adj (beAt r 4 4) = if bit (beAt r 8 16) 127 then beAt r 8 16 else 0 := by
  simp only [applyAdj, code_eq_zero_iff, ne_eq, OfNat.ofNat_ne_zero, not_false_eq_true] at h
  obtain ⟨hwhole, hindex, -⟩ := h
  simp only [applyAdj, if_neg hwhole, if_neg hindex, lkp_lkpWritten, mget_mset_self]

theorem mget_groups_applyGroup {s : State} {r : List Byte} (h : (applyGroup s r).1 = 0) :
    mget 0 (applyGroup s r).2.lkp.groups (beAt r 4 4) = if bit (beAt r 8 8) 63 then beAt r 8 8 else 0 := by
  simp only [applyGroup, code_eq_zero_iff, ne_eq, OfNat.ofNat_ne_zero, not_false_eq_true] at h
  obtain ⟨hwhole, hindex, hmembers, -⟩ := h
  simp only [applyGroup, if_neg hwhole, if_neg hindex, if_neg hmembers, lkp_lkpWritten, mget_mset_self]

theorem mget_members_applyMembers {s : State} {r : List Byte} (h : (applyMembers s r).1 = 0) (hone : byteAt r 8 = 1) :
    mget 0 (applyMembers s r).2.lkp.members (beAt r 4 4) = beAt r 12 4 := by
  simp only [applyMembers, code_eq_zero_iff, ne_eq, OfNat.ofNat_ne_zero, not_false_eq_true] at h
  obtain ⟨hwhole, hcount, hindex, hvalues, -⟩ := h
  simp only [applyMembers, if_neg hwhole, if_neg hcount, if_neg hindex, if_neg hvalues]
  simp [hone, rangeFrom, List.range_succ]

theorem mget_profiles_applyProfile {s : State} {r : List Byte} (h : (applyProfile s r).1 = 0) :
    mget 0 (applyProfile s r).2.lkp.profiles (beAt r 4 2) = beAt r 8 16 := by
  simp only [applyProfile, code_eq_zero_iff, ne_eq, OfNat.ofNat_ne_zero, not_false_eq_true] at h
  obtain ⟨hwhole, hindex, -⟩ := h
  simp only [applyProfile, if_neg hwhole, if_neg hindex, mget_mset_self]

theorem mget_compat_applyCompat {s : State} {r : List Byte} (h : (applyCompat s r).1 = 0) :
    mget 0 (applyCompat s r).2.lkp.compat (beAt r 4 4 * 4 + byteAt r 8) = if bit (beAt r 16 24) 191 then beAt r 16 24 else 0 := by
  simp only [applyCompat, code_eq_zero_iff, ne_eq, OfNat.ofNat_ne_zero, not_false_eq_true] at h
  obtain ⟨hwhole, hindex, -⟩ := h
  simp only [applyCompat, if_neg hwhole, if_neg hindex, lkp_lkpWritten, mget_mset_self]

/-! ### A record taken by its command (R153, R154) -/

/-- The next record, taken with result 0: the state it leaves, and then the count. -/
theorem lkpTake_applies {s : State} {r : List Byte} (hr : nextRecord s lkpJob = some r) (hm : mayTake s = true)
    (hc : (applyLkp s r).1 = 0) : lkpTake s = recordDone (applyLkp s r).2 lkpJob 0 := by
  simp [lkpTake, hr, hm, hc]

/-- A record of `lkp_load` that is applied counts as applied (R154). -/
theorem recordTaken_lkpTake {s : State} {r : List Byte} (hr : nextRecord s lkpJob = some r) (hm : mayTake s = true)
    (hc : (applyLkp s r).1 = 0) : RecordTaken lkpJob s (lkpTake s) := by
  rw [lkpTake_applies hr hm hc]
  exact recordTaken_of_standing (by decide) (standing_applyLkp s r)

/-- The command of an op takes a record of that op. -/
theorem lkpTakeOp_eq {s : State} {r : List Byte} {op : Nat} (hr : nextRecord s lkpJob = some r) (hop : byteAt r 0 = op) :
    lkpTakeOp s op = lkpTake s := by
  simp [lkpTakeOp, nextOp, hr, hop]

/-- The command of an op applies the next record, when it is of that op: the record counts, and its tables stand. -/
theorem lkpTakeOp_answers {c : Instr} {s : State} {r : List Byte} {op : Nat} {x : Nat × State} {P : State → Prop}
    (hr : nextRecord s lkpJob = some r) (hm : mayTake s = true) (hop : byteAt r 0 = op)
    (hexec : exec c s = .next (lkpTakeOp s op)) (hx : applyLkp s r = x) (hc : x.1 = 0) (hP : ∀ t, t.lkp = x.2.lkp → P t) :
    ∃ t, Answers c s t ∧ RecordTaken lkpJob s t ∧ P t := by
  subst hx
  rw [lkpTakeOp_eq hr hop] at hexec
  exact ⟨lkpTake s, hexec, recordTaken_lkpTake hr hm hc, hP _ (by rw [lkpTake_applies hr hm hc, lkp_recordDone])⟩

end Sys2Proof.Machine

namespace Sys2Proof

open Machine

/-- Settles O16: a record that is applied goes by the rule of its op, and its count moves nothing of the tables. -/
theorem exactAndTableRecords : Obligations.ExactAndTableRecords := by
  unfold Obligations.ExactAndTableRecords
  refine ⟨fun s r _ hr hm hc => ⟨fun hop => ?_, fun p hp => ⟨fun hop => ?_, fun hop => ?_⟩⟩,
    fun s r _ hr hm => ⟨fun hop hc => ?_, fun hop hc => ?_, fun hop hone hc => ?_, fun hop hc => ?_, fun hop hc => ?_⟩⟩
  · refine lkpTakeOp_answers hr hm hop rfl (x := applyExact s r) (by simp [applyLkp, hop]) hc fun t ht x hfree => ?_
    have hadd := applyExact_add hc hop
    rw [hadd] at hc ht
    rw [ht, exactAdd_firstBucket hc hfree, mfind_emPut]
  · refine lkpTakeOp_answers hr hm hop rfl (x := applyExact s r) (by simp [applyLkp, hop]) hc fun t ht => ?_
    rw [ht, applyExact_replace hc hop hp, mfind_emPut]
  · refine lkpTakeOp_answers hr hm hop rfl (x := applyExact s r) (by simp [applyLkp, hop]) hc fun t ht => ?_
    rw [ht, applyExact_delete hc hop hp]
    exact mfind_mdel_self _ _
  · exact lkpTakeOp_answers hr hm hop rfl (x := applyAdj s r) (by simp [applyLkp, hop]) hc fun _ ht => ht ▸ mget_adj_applyAdj hc
  · exact lkpTakeOp_answers hr hm hop rfl (x := applyGroup s r) (by simp [applyLkp, hop]) hc fun _ ht => ht ▸ mget_groups_applyGroup hc
  · exact lkpTakeOp_answers hr hm hop rfl (x := applyMembers s r) (by simp [applyLkp, hop]) hc fun _ ht =>
      ht ▸ mget_members_applyMembers hc hone
  · exact lkpTakeOp_answers hr hm hop rfl (x := applyProfile s r) (by simp [applyLkp, hop]) hc fun _ ht =>
      ht ▸ mget_profiles_applyProfile hc
  · exact lkpTakeOp_answers hr hm hop rfl (x := applyCompat s r) (by simp [applyLkp, hop]) hc fun _ ht =>
      ht ▸ mget_compat_applyCompat hc

end Sys2Proof
end

section
/-! SUPPORT. Rebuilds of a stripe's subtrees (R141), and the steps and the end of the jobs that apply loads (R154). -/

namespace Sys2Proof.Machine

/-! ### Rebuilds (R141) -/

/-- The oldest rebuild of a stripe is switched in: it waits for the old subtree to be freed, and lookups see its change (R141). -/
def switchedIn (s : State) (k : Nat) (x : Rebuild) (rest : List Rebuild) : State :=
  { setRebuilds s k ({ x with at0 := some s.time } :: rest) with
    lkp.routes := match x.val with
      | some v => mput s.lkp.routes (copyKey k x.key) v
      | none => mdel s.lkp.routes (copyKey k x.key) }

/-- The words of a stripe are written, and sound arrays stay as they are (R489). -/
theorem lkpWritten_of_sound {s : State} (h : Sound s) (stripe t i : Nat) : lkpWritten s stripe t i = s := wordsWritten_of_sound h _ _ _

/-- With no rebuild of the stripe switched in, the oldest is (R141). -/
theorem exec_lpmSubtreeSwitch {s : State} {k : Nat} {x : Rebuild} {rest : List Rebuild} (hs : Sound s)
    (hl : rebuildsOf s k = x :: rest) (hx : x.at0 = none) :
    Answers (.lpmSubtreeSwitch k) s (count1 (switchedIn s k x rest) (Reg.lkpRebuilds k)) := by
  obtain ⟨rk, val, at0⟩ := x
  obtain rfl : at0 = none := hx
  rw [Answers]
  cases val with
  | some v =>
    have hsound : Sound (switchedIn s k { key := rk, val := some v } rest) := hs
    rw [← lkpWritten_of_sound hsound k 1 v.word]
    change execLpmSubtreeSwitch k s = _
    rw [execLpmSubtreeSwitch, hl]
    rfl
  | none =>
    change execLpmSubtreeSwitch k s = _
    rw [execLpmSubtreeSwitch, hl]
    rfl

/-- After a switch the stripe's rebuilds are as they were, the oldest switched in now (R141). -/
theorem rebuildsOf_switchedIn (s : State) (k : Nat) (x : Rebuild) (rest : List Rebuild) :
    rebuildsOf (switchedIn s k x rest) k = { x with at0 := some s.time } :: rest := mget_mset_self [] _ k _

/-- A switch counts among the stripe's rebuilds (R141). -/
theorem reg_count1_switchedIn (s : State) (k : Nat) (x : Rebuild) (rest : List Rebuild) (e : Nat) :
    reg (count1 (switchedIn s k x rest) e) e = (reg s e + 1) % 2 ^ 64 := reg_setReg_self _ e _

/-- 1 us after its switch the oldest rebuild is gone (R141). -/
theorem exec_lpmSubtreeFree {s : State} {k a : Nat} {x : Rebuild} {rest : List Rebuild} (hl : rebuildsOf s k = x :: rest)
    (hx : x.at0 = some a) (ha : a + 1000 ≤ s.time) : Answers (.lpmSubtreeFree k) s (setRebuilds s k rest) := by
  change execLpmSubtreeFree k s = _
  simp [execLpmSubtreeFree, hl, hx, ha]

/-! ### The end of a load job (R154) -/

/-- A load job that is not cancelled ends as every job does, and APPLY_DONE is raised (R154). -/
theorem jobCompleted_endLoadJob {s : State} {j : LoadJob} (h : jobRunning s j.job = true) :
    JobCompleted (endLoadJob s j false) j.job (reg s j.errCode) := by
  have hend := jobCompleted_jobEnd h (reg s j.errCode)
  rwa [JobCompleted, ← job_raise _ j.cause j.causeBit] at hend

/-- What follows a change of the dictionary's engine is noted of the state before, but for the engine. -/
theorem noted_withDict {ks : List Nat} {s t u : State} (hu : u = { s with dict := u.dict }) (h : Noted ks u t) :
    Noted ks s { t with dict := s.dict } := by
  obtain ⟨heq, htidy, hreg⟩ := h
  rw [hu] at heq htidy hreg
  exact ⟨by rw [heq], htidy, hreg⟩

/-- The end of a job changes the dictionary's engine alone (R409). -/
theorem jobEnd_eq (s : State) (k result : Nat) : jobEnd s k result = { s with dict := (jobEnd s k result).dict } := by
  rw [jobEnd]
  split <;> rfl

/-- The end of a load job changes its cause register, the side, and the dictionary's engine (R154). -/
theorem noted_endLoadJob (s : State) (j : LoadJob) : Noted [j.cause.key] s { endLoadJob s j false with dict := s.dict } :=
  noted_withDict (jobEnd_eq s j.job (reg s j.errCode)) (noted_raise [j.cause.key] _ j.cause j.causeBit (.inl (by simp)))

/-- Causes raised one after another leave jobs as they are (R380). -/
theorem job_foldl_raise {α : Type} (f : α → CauseReg) (b : Nat) (l : List α) (s : State) (k : Nat) :
    job (l.foldl (fun s x => raise s (f x) b) s) k = job s k :=
  List.foldlRecOn l _ (motive := fun t => job t k = job s k) rfl fun t ht x _ => (job_raise t (f x) b k).trans ht

/-- The end of `ase_apply` (R181): APPLY_DONE in the banks that its records named leaves the job as it has ended. -/
theorem jobCompleted_aseEnd {s : State} (h : jobRunning s Reg.aseApply = true) :
    JobCompleted (aseEnd s false) Reg.aseApply (reg s Reg.aseApplyErrorCode) := by
  have hend := jobCompleted_jobEnd h (reg s Reg.aseApplyErrorCode)
  have hjob : job (aseEnd s false) Reg.aseApply = job (jobEnd s Reg.aseApply (reg s Reg.aseApplyErrorCode)) Reg.aseApply :=
    job_foldl_raise CauseReg.ase 0 _ _ _
  rwa [JobCompleted, ← hjob] at hend

/-! ### The steps of a load job (R154) -/

/-- A step of a running load job that is not cancelled takes its next record (R154). -/
theorem loadJobTurn_takes {s : State} {j : LoadJob} {r : List Byte} (hrun : jobRunning s j.job = true)
    (hcancel : (job s j.job).cancel = false) (hr : nextRecord s j = some r) (apply : State → List Byte → Nat × State) :
    loadJobTurn s j .step apply = takeRecord s j apply := by
  simp [loadJobTurn, hrun, hcancel, hr]

/-- With no record left it ends, once every record it applied is visible (R154). -/
theorem loadJobTurn_ends {s : State} {j : LoadJob} (hrun : jobRunning s j.job = true) (hcancel : (job s j.job).cancel = false)
    (hr : nextRecord s j = none) (hready : j.ready s = true) (apply : State → List Byte → Nat × State) :
    loadJobTurn s j .step apply = endLoadJob s j false := by
  simp [loadJobTurn, hrun, hcancel, hr, endIfReady, hready]

/-- A record whose rule leaves the standing as it was, and whose result is 0, counts as applied (R154). -/
theorem recordTaken_takeRecord {s : State} {j : LoadJob} {r : List Byte} {apply : State → List Byte → Nat × State}
    (hj : isDoneCount j.done = true) (hr : nextRecord s j = some r) (hc : (apply s r).1 = 0)
    (hstanding : standing (apply s r).2 = standing s) : RecordTaken j s (takeRecord s j apply) := by
  simp only [takeRecord, hr, hc, if_true]
  exact recordTaken_of_standing hj hstanding

/-! ### The records of `qm_load` (R283) -/

@[simp] theorem standing_setNode (s : State) (k : Nat) (x : Node) : standing (setNode s k x) = standing s := (rfl)

@[simp] theorem standing_writeWords (s : State) (k w : Nat) (qw : Option Nat) : standing (writeWords s k w qw).2 = standing s := by
  simp +decide [writeWords, putWords]

@[simp] theorem standing_applyQm (s : State) (r : List Byte) : standing (applyQm s r).2 = standing s := by
  simp only [applyQm]
  repeat' split
  all_goals simp [writeClassMap, writeGroup, writeTargets]

end Sys2Proof.Machine

namespace Sys2Proof

open Machine

/-- The clause of the end of `lkp_apply` (R154). -/
theorem lkpApplyEnd_completes {s : State} (hrun : jobRunning s Reg.lkpApply = true) (hcancel : (job s Reg.lkpApply).cancel = false)
    (hr : nextRecord s lkpJob = none) (hvisible : allVisible s = true) :
    ∃ t, Answers .lkpApplyEnd s t ∧ JobCompleted t Reg.lkpApply (reg s Reg.lkpApplyErrorCode) ∧ bit (reg t Reg.lkpCause) 0 = true ∧
      Noted [Reg.lkpCause] s { t with dict := s.dict } := by
  have hready : lkpJob.ready s = true := hvisible
  refine ⟨endLoadJob s lkpJob false, ?_, jobCompleted_endLoadJob (j := lkpJob) hrun, bit_raise_self _ .lkp 0 (by decide),
    noted_endLoadJob s lkpJob⟩
  change execLkpApplyEnd s = _
  simp [execLkpApplyEnd, hrun, hcancel, hr, endIfReady, hready]

/-- The clause of a step of `lkp_apply` with a record left (R154). -/
theorem lkpApply_step_takes {s : State} {r : List Byte} (hrun : jobRunning s Reg.lkpApply = true)
    (hcancel : (job s Reg.lkpApply).cancel = false) (hr : nextRecord s lkpJob = some r) (hm : mayTake s = true)
    (hc : (applyLkp s r).1 = 0) : ∃ t, Answers (.lkpApply .step) s t ∧ RecordTaken lkpJob s t := by
  refine ⟨lkpTake s, ?_, recordTaken_lkpTake hr hm hc⟩
  change execLkpApply .step s = _
  simp [execLkpApply, hrun, hcancel, hr]

/-- The clause of a step of `ase_apply` with none left (R154, R181). -/
theorem aseApply_step_ends {s : State} (hrun : jobRunning s Reg.aseApply = true) (hcancel : (job s Reg.aseApply).cancel = false)
    (hr : nextRecord s aseJob = none) (hbusy : s.ase.busy = false) :
    ∃ t, Answers (.aseApply .step) s t ∧ JobCompleted t Reg.aseApply (reg s Reg.aseApplyErrorCode) := by
  refine ⟨aseEnd s false, ?_, jobCompleted_aseEnd hrun⟩
  change execAseApply .step s = _
  simp [execAseApply, hrun, hcancel, hr, hbusy]

/-- Settles O17: a switch and a free act on the oldest rebuild of a stripe, and a step takes the next record or ends the job. -/
theorem applyJobsRunAndEnd : Obligations.ApplyJobsRunAndEnd := by
  unfold Obligations.ApplyJobsRunAndEnd
  refine ⟨fun s k _ hs => ⟨fun x rest v hl hx hv => ?_, fun x rest hl hx hv => ?_, fun x rest a hl hx ha => ?_,
      lkpApplyEnd_completes⟩,
    fun s r _ => ⟨fun hrun hcancel hr hc => ?_, lkpApply_step_takes, aseApply_step_ends, fun hrun hcancel hr => ?_⟩⟩
  · refine ⟨_, exec_lpmSubtreeSwitch hs hl hx, ?_, rebuildsOf_switchedIn s k x rest, reg_count1_switchedIn s k x rest _⟩
    simp only [count1, countBy, setReg_lkp, switchedIn, hv, mfind_mput_self]
  · refine ⟨_, exec_lpmSubtreeSwitch hs hl hx, ?_⟩
    simp only [count1, countBy, setReg_lkp, switchedIn, hv, mfind_mdel_self]
  · exact exec_lpmSubtreeFree hl hx ha
  · exact ⟨takeRecord s qmJob applyQm, congrArg Host.Outcome.next (loadJobTurn_takes (j := qmJob) hrun hcancel hr applyQm),
      recordTaken_takeRecord (by decide) hr hc (standing_applyQm s r)⟩
  · exact ⟨endLoadJob s mtrJob false, congrArg Host.Outcome.next (loadJobTurn_ends (j := mtrJob) hrun hcancel hr rfl applyMtr),
      jobCompleted_endLoadJob (j := mtrJob) hrun⟩

end Sys2Proof
end

section
/-! SUPPORT. The scrubber and the thermometer of a bank of the associative search (R174–R178). -/

namespace Sys2Proof.Machine

/-! ### The banks and their entries -/

/-- A bank reads as what replaced it. -/
@[simp] theorem bank_setBank_self (s : State) (k : Nat) (b : AseBank) : bank (setBank s k b) k = b := mget_mset_self _ _ _ _

/-- A count leaves every bank as it was. -/
theorem bank_count1 (s : State) (e k : Nat) : bank (count1 s e) k = bank s k := rfl

/-- A change on the side leaves every bank as it was. -/
theorem bank_of_noted {ks : List Nat} {s t : State} (h : Noted ks s t) (k : Nat) : bank t k = bank s k := by
  have hase : t.ase = s.ase := by rw [h.1]
  rw [bank, hase, bank]

/-- The entry of a bank at an index, as the registers of the bank are keyed. -/
abbrev bankEntry (i k : Nat) : Nat := keyIf (decide (k < 8)) (key i k)

/-- Two entries of a bank are apart by their indexes. -/
theorem bankEntry_ne {i j k : Nat} (hk : k < 8) (h : i ≠ j) : bankEntry i k ≠ bankEntry j k := by
  simp only [bankEntry, keyIf_lt hk, key]
  omega

/-- The entries of a bank are none that events move on the side. -/
theorem side_bankEntry {i k : Nat} (hk : k < 8) (hi : 0x3310 ≤ i ∧ i ≤ 0x3341) : sideEntry (bankEntry i k) = false := by
  simp only [bankEntry, keyIf_lt hk, sideEntry, Bool.or_eq_false_iff, Bool.and_eq_false_iff, beq_eq_false_iff_ne,
    decide_eq_false_iff_not, Reg.obsCause, Reg.evtPulses, Reg.evtFwQueueHigh, Reg.evtFwQueueLost, Reg.ensRecordsDropped, Reg.ensPostcardsSuppressed]
  simp only [key]
  omega

/-! ### Sound words at a patrol read (R488, R490) -/

/-- A word of sound arrays is as it was written. -/
theorem flipsOf_of_sound {s : State} (h : Sound s) (cls unit idx : Nat) : flipsOf s cls unit idx = 0 := by
  obtain ⟨hbad, -⟩ := h
  rw [flipsOf, hbad]
  rfl

/-- A patrol read of a word of sound arrays loses nothing and writes nothing back. -/
theorem scrubWord_of_sound {s : State} (h : Sound s) (cls unit idx : Nat) : scrubWord s cls unit idx = (false, s) := by
  have hflips := flipsOf_of_sound h cls unit idx
  rw [scrubWord, if_pos hflips]
  exact if_pos hflips

/-! ### The scrub read of a row (R174) -/

/-- The row of a bank as an upset has left it. -/
def rowUpset (s : State) (k row found : Nat) : State :=
  setBank s k { bank s k with rows := mset 0 (bank s k).rows row (found % 2 ^ 352) }

/-- The row of a bank rewritten from its shadow in an update slot, the repair counted and the row latched (R174). -/
def rowRewritten (s : State) (k row : Nat) : State :=
  let s := setBank s k { bank s k with rows := mset 0 (bank s k).rows row (mget 0 (bank s k).shadow row) }
  setReg (count1 (count1 s (Reg.aseUpdateSlots k)) (Reg.aseScrubRepairs k)) (Reg.aseLastRepairRow k) row

/-- The rewritten row, with SCRUB_REPAIR raised (R174). -/
def rowRepaired (s : State) (k row : Nat) : State := raise (rowRewritten s k row) (.ase k) 2

/-- A scrub read that finds a row changed repairs it, and the sweep goes on to the next row (R174). -/
theorem exec_aseScrubRead_repairs {s : State} {k row found : Nat} (hrow : (bank s k).scrub = some row) (hs : Sound s)
    (hne : found % 2 ^ 352 ≠ mget 0 (bank s k).shadow row) :
    Answers (.aseScrubRead k (some found)) s (aseScrubNext (rowRepaired (rowUpset s k row found) k row) k row) := by
  have hsound : Sound (rowUpset s k row found) := hs
  have hread := scrubWord_of_sound hsound 6 (56 + k)
  change execAseScrubRead k (some found) s = _
  simp only [rowUpset] at hread ⊢
  rw [execAseScrubRead]
  split
  next hidle => simp [hidle] at hrow
  next row' hrow' =>
    obtain rfl : row' = row := Option.some.inj (hrow'.symm.trans hrow)
    simp only [Option.getD_some, hread, Bool.false_eq_true, if_false, if_pos hne]
    rfl

/-- A rewrite reads back as the row's shadow. -/
theorem row_rowRewritten (s : State) (k row : Nat) :
    mget 0 (bank (rowRewritten s k row) k).rows row = mget 0 (bank s k).shadow row := by
  have hbank : bank (rowRewritten s k row) k =
      { bank s k with rows := mset 0 (bank s k).rows row (mget 0 (bank s k).shadow row) } := bank_setBank_self s k _
  rw [hbank, mget_mset_self]

/-- A rewrite counts among the bank's repairs (R174). -/
theorem scrubRepairs_rowRewritten (s : State) {k : Nat} (row : Nat) (hk : k < 8) :
    reg (rowRewritten s k row) (Reg.aseScrubRepairs k) = (reg s (Reg.aseScrubRepairs k) + 1) % 2 ^ 64 := by
  rw [rowRewritten, reg_setReg_ne _ (Reg.aseLastRepairRow k) (Reg.aseScrubRepairs k) _ (bankEntry_ne hk (by decide)), count1, countBy,
    reg_setReg_self, count1, countBy, reg_setReg_ne _ (Reg.aseUpdateSlots k) (Reg.aseScrubRepairs k) _ (bankEntry_ne hk (by decide)),
    reg_setBank]

/-- A rewrite latches its row (R174). -/
theorem lastRepairRow_rowRewritten (s : State) (k row : Nat) : reg (rowRewritten s k row) (Reg.aseLastRepairRow k) = row :=
  reg_setReg_self _ _ _

/-- The cause of a repair leaves the row as it was rewritten. -/
theorem bank_rowRepaired (s : State) (k row : Nat) : bank (rowRepaired s k row) k = bank (rowRewritten s k row) k :=
  bank_of_noted (noted_raise [Reg.aseCause k] _ (.ase k) 2 (.inl (List.mem_singleton_self _))) k

/-- The cause of a repair leaves the other entries of the bank as the rewrite stored them. -/
theorem reg_rowRepaired (s : State) {i k : Nat} (row : Nat) (hk : k < 8) (hi : 0x3310 ≤ i ∧ i < 0x3340) :
    reg (rowRepaired s k row) (bankEntry i k) = reg (rowRewritten s k row) (bankEntry i k) :=
  reg_raise_of_ne _ (.ase k) 2 (side_bankEntry hk (by omega)) (bankEntry_ne hk (by omega))

/-- The next row of a sweep leaves the rows of its bank as they are. -/
theorem rows_aseScrubNext (s : State) (k row : Nat) : (bank (aseScrubNext s k row) k).rows = (bank s k).rows := by
  rw [aseScrubNext]
  split
  · rw [bank_setBank_self]
  · rw [bank_count1, bank_setBank_self]

/-- Short of the last row a sweep goes on to the row above (R174). -/
theorem scrub_aseScrubNext (s : State) (k : Nat) {row : Nat} (h : row < 32767) :
    (bank (aseScrubNext s k row) k).scrub = some (row + 1) := by
  rw [aseScrubNext, if_pos h, bank_setBank_self]

/-- The next row of a sweep moves no entry but the count of sweeps. -/
theorem reg_aseScrubNext (s : State) {i k : Nat} (row : Nat) (hk : k < 8) (hi : i ≠ 0x3320) :
    reg (aseScrubNext s k row) (bankEntry i k) = reg s (bankEntry i k) := by
  rw [aseScrubNext]
  split
  · rfl
  · exact reg_setReg_ne _ _ _ _ (bankEntry_ne hk hi)

/-! ### The thermometer (R177, R178) -/

/-- A reading stored, and the throttle level the table gives for it (R177). -/
def readingStored (s : State) (k v : Nat) : State :=
  setReg (setReg s (Reg.aseTemp k) (v % 2 ^ 32)) (Reg.aseThrottleLevel k)
    (throttleAfter (reg s (Reg.aseThrottleLevel k)) (toSigned 32 v))

/-- The reading stored, and THROTTLE raised as the level leaves 0 (R178). -/
def readingTaken (s : State) (k v : Nat) : State :=
  if reg s (Reg.aseThrottleLevel k) = 0 ∧ throttleAfter (reg s (Reg.aseThrottleLevel k)) (toSigned 32 v) ≠ 0 then
    raise (readingStored s k v) (.ase k) 4
  else readingStored s k v

/-- A reading at a multiple of 100 us is taken (R177). -/
theorem exec_aseTempRead {s : State} {k : Nat} (v : Nat) (hk : k < 8) (ht : timeNs s % 100000 = 0) :
    Answers (.aseTempRead k v) s (readingTaken s k v) := by
  change execAseTempRead k v s = _
  exact if_pos ⟨hk, ht⟩

/-- Beyond what is stored a reading moves the bank's cause register and the side. -/
theorem noted_readingTaken (s : State) (k v : Nat) : Noted [Reg.aseCause k] (readingStored s k v) (readingTaken s k v) :=
  noted_ite _ (noted_raise _ _ (.ase k) 4 (.inl (List.mem_singleton_self _))) (Noted.refl _ _)

/-- The cause of a reading leaves the other entries of the bank as they were stored. -/
theorem reg_readingTaken (s : State) {i k : Nat} (v : Nat) (hk : k < 8) (hi : 0x3310 ≤ i ∧ i < 0x3340) :
    reg (readingTaken s k v) (bankEntry i k) = reg (readingStored s k v) (bankEntry i k) :=
  (noted_readingTaken s k v).2.2 _ (side_bankEntry hk (by omega)) (mt List.mem_singleton.1 (bankEntry_ne hk (by omega)))

/-- A reading stores its temperature (R177). -/
theorem temp_readingStored (s : State) {k : Nat} (v : Nat) (hk : k < 8) : reg (readingStored s k v) (Reg.aseTemp k) = v % 2 ^ 32 := by
  rw [readingStored, reg_setReg_ne _ (Reg.aseThrottleLevel k) (Reg.aseTemp k) _ (bankEntry_ne hk (by decide)), reg_setReg_self]

/-- A reading stores its throttle level (R177). -/
theorem throttleLevel_readingStored (s : State) (k v : Nat) : reg (readingStored s k v) (Reg.aseThrottleLevel k) =
    throttleAfter (reg s (Reg.aseThrottleLevel k)) (toSigned 32 v) := reg_setReg_self _ _ _

/-- A reading is stored in its two entries. -/
theorem noted_readingStored (s : State) (k v : Nat) : Noted [Reg.aseTemp k, Reg.aseThrottleLevel k] s (readingStored s k v) :=
  (noted_setReg _ s (Reg.aseTemp k) _ (.inl (by simp))).trans (noted_setReg _ _ (Reg.aseThrottleLevel k) _ (.inl (by simp)))

end Sys2Proof.Machine

namespace Sys2Proof

open Machine

/-- The clause of a sweep that begins (R174). -/
theorem aseSweepStart_begins {s : State} {k : Nat} (hk : k < 8) (ht : timeNs s % 8000000 = 0) (hidle : (bank s k).scrub = none) :
    Answers (.aseSweepStart k) s (setBank s k { bank s k with scrub := some 0 }) := by
  change execAseSweepStart k s = _
  rw [execAseSweepStart, if_pos ⟨hk, ht⟩]
  simp only [hidle]

/-- The clause of a row that an upset has changed (R174). -/
theorem aseScrubRead_repairs {s : State} {k row found : Nat} (hk : k < 8) (hrow : (bank s k).scrub = some row) (hs : Sound s)
    (hne : found % 2 ^ 352 ≠ mget 0 (bank s k).shadow row) :
    ∃ t, Answers (.aseScrubRead k (some found)) s t ∧ mget 0 (bank t k).rows row = mget 0 (bank s k).shadow row ∧
      reg t (Reg.aseLastRepairRow k) = row ∧ reg t (Reg.aseScrubRepairs k) = (reg s (Reg.aseScrubRepairs k) + 1) % 2 ^ 64 ∧
      bit (reg t (Reg.aseCause k)) 2 = true ∧ (row < 32767 → (bank t k).scrub = some (row + 1)) := by
  refine ⟨_, exec_aseScrubRead_repairs hrow hs hne, ?_, ?_, ?_, ?_, scrub_aseScrubNext _ k⟩
  · rw [rows_aseScrubNext, bank_rowRepaired, row_rowRewritten, rowUpset, bank_setBank_self]
  · calc
      _ = reg (rowRepaired (rowUpset s k row found) k row) (Reg.aseLastRepairRow k) := reg_aseScrubNext _ row hk (by decide)
      _ = reg (rowRewritten (rowUpset s k row found) k row) (Reg.aseLastRepairRow k) := reg_rowRepaired _ row hk (by decide)
      _ = row := lastRepairRow_rowRewritten _ k row
  · calc
      _ = reg (rowRepaired (rowUpset s k row found) k row) (Reg.aseScrubRepairs k) := reg_aseScrubNext _ row hk (by decide)
      _ = reg (rowRewritten (rowUpset s k row found) k row) (Reg.aseScrubRepairs k) := reg_rowRepaired _ row hk (by decide)
      _ = (reg s (Reg.aseScrubRepairs k) + 1) % 2 ^ 64 := scrubRepairs_rowRewritten _ row hk
  · have hcause : reg _ (Reg.aseCause k) = _ := reg_aseScrubNext (rowRepaired (rowUpset s k row found) k row) row hk (by decide)
    rw [hcause]
    exact bit_raise_self _ (.ase k) 2 (side_bankEntry hk (by decide))

/-- The clause of a reading (R177, R178). -/
theorem aseTempRead_takes {s : State} {k : Nat} (v : Nat) (hk : k < 8) (ht : timeNs s % 100000 = 0) :
    ∃ t, Answers (.aseTempRead k v) s t ∧ reg t (Reg.aseTemp k) = v % 2 ^ 32 ∧
      reg t (Reg.aseThrottleLevel k) = throttleAfter (reg s (Reg.aseThrottleLevel k)) (toSigned 32 v) ∧
      Noted [Reg.aseTemp k, Reg.aseThrottleLevel k, Reg.aseCause k] s t := by
  refine ⟨readingTaken s k v, exec_aseTempRead v hk ht, ?_, ?_, ?_⟩
  · exact (reg_readingTaken s v hk (by decide)).trans (temp_readingStored s v hk)
  · exact (reg_readingTaken s v hk (by decide)).trans (throttleLevel_readingStored s k v)
  · exact ((noted_readingStored s k v).mono (by simp)).trans ((noted_readingTaken s k v).mono (by simp))

/-- Settles O20: an idle scrubber begins at row 0, a changed row is rewritten from the shadow before the sweep goes on, a reading is stored
with its level, and a budget is stored once the checks are passed. -/
theorem aseScrubAndTemperature : Obligations.AseScrubAndTemperature := by
  unfold Obligations.AseScrubAndTemperature
  refine fun s c k v _ hk => ⟨aseSweepStart_begins hk, fun row found => aseScrubRead_repairs hk, aseTempRead_takes v hk,
    fun h => ?_, fun h => ?_, fun h => ?_⟩
  · exact congrArg Host.Outcome.next (permitted_stores h)
  · exact congrArg Host.Outcome.next (permitted_stores h)
  · exact congrArg Host.Outcome.next (domainRead_done h _ _)

end Sys2Proof
end

section
/-! SUPPORT. Flow counters and meters (ch. 8): what an update, a correction, an installation and a sweep come to while nothing is wrong in
the arrays (R190, R191, R195–R197). -/

namespace Sys2Proof.Machine

/-! ### Sound words at a read (R488, R492) -/

/-- A read of a word of sound arrays loses nothing and counts nothing (R488). -/
theorem checkWord_of_sound {s : State} (h : Sound s) (cls unit idx : Nat) : checkWord s cls unit idx = (false, s) :=
  if_pos (flipsOf_of_sound h cls unit idx)

/-- With no fault armed no result of a unit is corrupted (R498). -/
theorem residueArmed_of_sound {s : State} (h : Sound s) (unit : Nat) : residueArmed s unit = false := by
  obtain ⟨-, hinject⟩ := h
  rw [residueArmed, hinject]
  rfl

/-! ### Flow counters (R195–R197) -/

/-- While the arrays are sound a pair is replaced, and nothing else (R196). -/
theorem setPair_of_sound {s : State} (h : Sound s) (i p b : Nat) : setPair s i p b =
    { s with mtr.pkts := mset 0 s.mtr.pkts i (p % 2 ^ 64), mtr.bytes := mset 0 s.mtr.bytes i (b % 2 ^ 64) } :=
  wordsWritten_of_sound (s := { s with
    mtr.pkts := mset 0 s.mtr.pkts i (p % 2 ^ 64), mtr.bytes := mset 0 s.mtr.bytes i (b % 2 ^ 64) }) h _ _ _

/-- While the arrays are sound an update adds a packet and its bytes to the pair (R195). -/
theorem updatePair_of_sound {s : State} (h : Sound s) (i n : Nat) :
    updatePair s i n = setPair s i ((pairOf s i).1 + 1) ((pairOf s i).2 + n) := by
  simp [updatePair, checkWord_of_sound h, residueArmed_of_sound h]

/-- A read of `ctr_bytes` answers the byte count latched, and leaves nothing behind (R196). -/
theorem readBytes_ctrBytes (s : State) (c : Client) : readBytes s c Reg.ctrBytes = (beBytes 8 s.mtr.latch, s) := by
  have hrow : (odFind Reg.ctrBytes).map (fun r => (r.ty, r.acc)) = some (.u64, .ro) := by decide +kernel
  obtain ⟨r, hfind, hkind⟩ := Option.map_eq_some_iff.1 hrow
  obtain ⟨hty, hacc⟩ := Prod.mk.inj hkind
  have hvalue : entryValue s c Reg.ctrBytes = s.mtr.latch := rfl
  have hleaves : readLeaves s c Reg.ctrBytes = s := by
    rw [readLeaves, if_neg (by decide), if_neg (by decide), if_neg (by decide)]
    simp [hfind, hacc]
  have hpin : Reg.ctrBytes ≠ Reg.ioGpioIn := by decide
  simp [readBytes, readEntry, hfind, hty, hacc, hpin, hvalue, hleaves, EType.size]

/-- A range of the store is taken by a start (R197). -/
theorem startSweep_takes {s : State} (hn : 0 < reg s Reg.ctrSweepCount)
    (hrange : reg s Reg.ctrSweepBase + reg s Reg.ctrSweepCount ≤ 1048576) :
    startSweep s = .done { setBlk s Reg.ctrSweepData [] with
      mtr.sweepBase := reg s Reg.ctrSweepBase, mtr.sweepCount := reg s Reg.ctrSweepCount,
      mtr.sweepClear := flag s Reg.ctrSweepClear } := by
  rw [startSweep]
  exact if_neg (by omega)

/-- The 16 bytes that a sweep reads of a pair (R197). -/
def pairBytes (s : State) (i : Nat) : List Byte := beBytes 8 (mget 0 s.mtr.pkts i) ++ beBytes 8 (mget 0 s.mtr.bytes i)

/-- A sweep that does not clear reads pairs in order, and moves nothing but the bytes it has read (R197). -/
theorem foldl_sweepPair (l : List Nat) {s : State} (h : s.mtr.sweepClear = false) :
    l.foldl sweepPair s = { s with blocks := (l.foldl sweepPair s).blocks } ∧
    blk (l.foldl sweepPair s) Reg.ctrSweepData = blk s Reg.ctrSweepData ++ l.flatMap (pairBytes s) := by
  induction l generalizing s with
  | nil => simp
  | cons i l ih =>
    have hpair : sweepPair s i = setBlk s Reg.ctrSweepData (blk s Reg.ctrSweepData ++ pairBytes s i) := by
      simp [sweepPair, h, pairOf, pairBytes]
    obtain ⟨hstate, hbytes⟩ := ih (s := sweepPair s i) (by rw [hpair]; exact h)
    rw [List.foldl_cons]
    refine ⟨hstate.trans (by rw [hpair]; rfl), hbytes.trans ?_⟩
    rw [hpair, blk_setBlk_self, List.append_assoc]
    rfl

/-- The state after a sweep has read every pair of its range. -/
def pairsSwept (s : State) : State := (rangeFrom s.mtr.sweepBase s.mtr.sweepCount).foldl sweepPair s

/-- Reading pairs without clearing them moves no job and no counter, and gives the bytes of each in order (R197). -/
theorem frame_pairsSwept {s : State} (h : s.mtr.sweepClear = false) : (pairsSwept s).dict = s.dict ∧ (pairsSwept s).mtr = s.mtr ∧
    blk (pairsSwept s) Reg.ctrSweepData =
      blk s Reg.ctrSweepData ++ (rangeFrom s.mtr.sweepBase s.mtr.sweepCount).flatMap (pairBytes s) := by
  obtain ⟨hstate, hbytes⟩ := foldl_sweepPair (rangeFrom s.mtr.sweepBase s.mtr.sweepCount) h
  refine ⟨?_, ?_, hbytes⟩ <;> rw [pairsSwept, hstate]

/-- The state after the last step of a sweep: the job has ended, and SWEEP_DONE is raised (R197). -/
def sweepEnded (s : State) : State :=
  raise (jobEnd (jobProgress (pairsSwept s) Reg.ctrSweep s.mtr.sweepCount) Reg.ctrSweep 0) .mc 3

/-- The first step of a sweep of up to 256 pairs is its last (R197). -/
theorem sweepStep_ends {s : State} (hrun : jobRunning s Reg.ctrSweep = true) (hcancel : (job s Reg.ctrSweep).cancel = false)
    (hfirst : (job s Reg.ctrSweep).progress = 0) (hcount : s.mtr.sweepCount ≤ 256) (h : s.mtr.sweepClear = false) :
    sweepStep s = sweepEnded s := by
  obtain ⟨-, hmtr, -⟩ := frame_pairsSwept h
  have hall : s.mtr.sweepCount = (jobProgress (pairsSwept s) Reg.ctrSweep s.mtr.sweepCount).mtr.sweepCount :=
    congrArg MtrState.sweepCount hmtr.symm
  simp only [sweepStep, hrun, hcancel, hfirst, Nat.add_zero, Nat.zero_add, Nat.sub_zero, Nat.min_eq_right hcount, Bool.not_true,
    Bool.false_eq_true, if_false]
  exact if_pos hall

/-- The job of a sweep that has ended has completed (R197, R409). -/
theorem jobCompleted_sweepEnded {s : State} (hrun : jobRunning s Reg.ctrSweep = true) (h : s.mtr.sweepClear = false) :
    JobCompleted (sweepEnded s) Reg.ctrSweep 0 := by
  obtain ⟨hdict, -, -⟩ := frame_pairsSwept h
  have hruns : jobRunning (jobProgress (pairsSwept s) Reg.ctrSweep s.mtr.sweepCount) Reg.ctrSweep = true := by
    rwa [jobRunning, job_jobProgress, job_of_dict hdict]
  have hend := jobCompleted_jobEnd hruns 0
  rwa [JobCompleted, ← job_raise _ .mc 3] at hend

/-- Beside its cause a sweep that ends leaves the counters and what was read as the reading of the pairs left them (R197). -/
theorem frame_sweepEnded (s : State) : (sweepEnded s).mtr = (pairsSwept s).mtr ∧ (sweepEnded s).blocks = (pairsSwept s).blocks := by
  have hraise := (noted_raise [Reg.mcCause] (jobEnd (jobProgress (pairsSwept s) Reg.ctrSweep s.mtr.sweepCount) Reg.ctrSweep 0) .mc 3
    (.inl (List.mem_singleton_self _))).1
  rw [sweepEnded, hraise, jobEnd_eq]
  exact ⟨rfl, rfl⟩

/-! ### Meters (R190, R191, R200) -/

/-- While the arrays are sound a meter is stored, and nothing else. -/
theorem setMeter_of_sound {s : State} (h : Sound s) (i m : Nat) (t : List Nat) :
    setMeter s i m t = { s with mtr.meters := mset 0 s.mtr.meters i m } :=
  wordsWritten_of_sound (s := { s with mtr.meters := mset 0 s.mtr.meters i m }) h _ _ _

/-- A meter reads as it was stored. -/
theorem meterOf_setMeter_self {s : State} (h : Sound s) (i m : Nat) (t : List Nat) : meterOf (setMeter s i m t) i = m := by
  rw [setMeter_of_sound h, meterOf, mget_mset_self]

/-- Counting writes no meter. -/
theorem mtr_count1 (s : State) (k : Nat) : (count1 s k).mtr = s.mtr := rfl

/-- A meter's state half once a packet's difference is given back to the buckets it drew (R190). -/
def correctedMeter (m : Nat) (d : MeterDue) : Nat :=
  withState m (if d.drew1 then correctBucket (mTok1 m) (mBurst1 m) d.amount else mTok1 m)
    (if d.drew2 then correctBucket (mTok2 m) (mBurst2 m) d.amount else mTok2 m) (mLast m)

/-- While the arrays are sound a correction corrects its meter, and is counted (R190). -/
theorem applyCorrection_of_sound {s : State} (h : Sound s) (d : MeterDue) :
    applyCorrection s d = count1 (setMeter s d.meter (correctedMeter (meterOf s d.meter) d) [1]) Reg.mtrCorrections := by
  rw [applyCorrection, residueArmed_of_sound h]
  rfl

/-- A meter just configured: its buckets are full, and its last update is now (R191). -/
def freshMeter (s : State) (c : Nat) : Nat :=
  withState (c * 2 ^ 192) (tokens (mBurst1 (c * 2 ^ 192))) (tokens (mBurst2 (c * 2 ^ 192))) (timeNs s)

/-- While the arrays are sound a configuration is installed as one action (R191). -/
theorem installMeter_of_sound {s : State} (h : Sound s) (i c : Nat) :
    installMeter s i c = { s with mtr.meters := mset 0 s.mtr.meters i (freshMeter s c) } := setMeter_of_sound h i _ _

/-- The meter that a configuration was installed in (R191). -/
theorem meterOf_installMeter_self {s : State} (h : Sound s) (i c : Nat) : meterOf (installMeter s i c) i = freshMeter s c :=
  meterOf_setMeter_self h i _ _

/-- A configuration in order is installed in the selected meter (R191, R192). -/
theorem wMtrConfig_installs {s : State} {b : List Byte} (hb : b.length = 24) (hc : meterConfigCode (beNat b) = 0) :
    wMtrConfig b s = .done (installMeter s (reg s Reg.mtrSelect) (beNat b)) := by
  simp [wMtrConfig, hb, hc]

/-- A record that is applied installs its configuration (R200). -/
theorem applyMtr_installs {s : State} {r : List Byte} (h : (applyMtr s r).1 = 0) :
    (applyMtr s r).2 = installMeter s (beAt r 0 4) (beAt r 8 24) := by
  simp only [applyMtr] at h ⊢
  rw [code_eq_zero_iff (by decide)] at h
  obtain ⟨hwhole, hcode⟩ := h
  have hconfig : meterConfigCode (beAt r 8 24) = 0 := by
    by_contra hbad
    simp [hbad] at hcode
  rw [if_neg hwhole, if_neg (not_not.2 hconfig)]

@[simp] theorem standing_installMeter (s : State) (i c : Nat) : standing (installMeter s i c) = standing s := by
  simp [installMeter, setMeter]

/-- A record that counts as applied leaves the meters as its rule has (R154). -/
theorem mtr_takeRecord {s : State} {j : LoadJob} {r : List Byte} {apply : State → List Byte → Nat × State}
    (hr : nextRecord s j = some r) (hc : (apply s r).1 = 0) : (takeRecord s j apply).mtr = (apply s r).2.mtr := by
  simp only [takeRecord, hr, hc, if_true]
  rfl

end Sys2Proof.Machine

namespace Sys2Proof

open Machine

/-- The clause of an update posted to a counter (R195). -/
theorem counterUpdatePost_adds {s : State} {i : Nat} {x : Nat × Nat} (h : Sound s)
    (hx : s.mtr.posts.find? (fun x => x.1 == i) = some x) :
    Answers (.counterUpdatePost i) s { s with
      mtr.posts := s.mtr.posts.erase x
      mtr.pkts := mset 0 s.mtr.pkts x.1 (((pairOf s x.1).1 + 1) % 2 ^ 64)
      mtr.bytes := mset 0 s.mtr.bytes x.1 (((pairOf s x.1).2 + x.2) % 2 ^ 64) } := by
  have htaken : Sound { s with mtr.posts := s.mtr.posts.erase x } := h
  change execCounterUpdatePost i s = _
  simp only [execCounterUpdatePost, hx]
  rw [updatePair_of_sound htaken, setPair_of_sound htaken]
  rfl

/-- The clause of a clear (R196). -/
theorem ctrClear_zeroes {s : State} {c : Client} (h : Sound s) (hp : Permitted s c Reg.ctrClear 1) :
    Does (.ctrClear c 1) s c { s with
      mtr.pkts := mset 0 s.mtr.pkts (reg s Reg.ctrSelect) 0, mtr.bytes := mset 0 s.mtr.bytes (reg s Reg.ctrSelect) 0 } :=
  congrArg Host.Outcome.next (permitted_does hp (congrArg Applied.done (setPair_of_sound h (ctrSelected s) 0 0)))

/-- The clause of the step of a sweep (R197). -/
theorem ctrSweep_step_sweeps {s : State} (hrun : jobRunning s Reg.ctrSweep = true) (hcancel : (job s Reg.ctrSweep).cancel = false)
    (hfirst : (job s Reg.ctrSweep).progress = 0) (hcount : s.mtr.sweepCount ≤ 256) (hclear : s.mtr.sweepClear = false)
    (hdata : blk s Reg.ctrSweepData = []) :
    ∃ t, Answers (.ctrSweep .step) s t ∧ JobCompleted t Reg.ctrSweep 0 ∧ bit (reg t Reg.mcCause) 3 = true ∧ t.mtr = s.mtr ∧
      blk t Reg.ctrSweepData = (rangeFrom s.mtr.sweepBase s.mtr.sweepCount).flatMap (pairBytes s) := by
  obtain ⟨-, hkept, hbytes⟩ := frame_pairsSwept hclear
  obtain ⟨hmtr, hblocks⟩ := frame_sweepEnded s
  refine ⟨sweepEnded s, congrArg Host.Outcome.next (sweepStep_ends hrun hcancel hfirst hcount hclear),
    jobCompleted_sweepEnded hrun hclear, bit_raise_self _ .mc 3 (by decide), hmtr.trans hkept, ?_⟩
  rw [blk, hblocks]
  exact hbytes.trans (by rw [hdata, List.nil_append])

/-- The clause of a correction that falls due (R190). -/
theorem meterCorrection_corrects {s : State} {i : Nat} {d : MeterDue} (h : Sound s)
    (hd : s.mtr.due.find? (fun d => d.meter == i) = some d) :
    ∃ t, Answers (.meterCorrection i) s t ∧ t.mtr.due = s.mtr.due.erase d ∧
      reg t Reg.mtrCorrections = (reg s Reg.mtrCorrections + 1) % 2 ^ 64 ∧ meterOf t i = correctedMeter (meterOf s i) d := by
  obtain rfl : d.meter = i := by simpa using List.find?_some hd
  have htaken : Sound { s with mtr.due := s.mtr.due.erase d } := h
  refine ⟨applyCorrection { s with mtr.due := s.mtr.due.erase d } d, ?_, ?_⟩
  · change execMeterCorrection d.meter s = _
    simp only [execMeterCorrection, hd]
  · rw [applyCorrection_of_sound htaken, meterOf, mtr_count1, setMeter_of_sound htaken]
    exact ⟨rfl, reg_setReg_self _ _ _, mget_mset_self _ _ _ _⟩

/-- The clause of a configuration (R191). -/
theorem mtrConfigWrite_installs {s : State} {c : Client} {b : List Byte} (h : Sound s) (hk : domainChecks s c Reg.mtrConfig = none)
    (hb : b.length = 24) (hc : meterConfigCode (beNat b) = 0) :
    ∃ t, Does (.mtrConfigWrite c b) s c t ∧ meterOf t (reg s Reg.mtrSelect) = freshMeter s (beNat b) ∧
      t = { s with mtr.meters := t.mtr.meters } := by
  refine ⟨installMeter s (reg s Reg.mtrSelect) (beNat b),
    congrArg Host.Outcome.next (commitRow_done s _ c _ _ hk (wMtrConfig_installs hb hc)), meterOf_installMeter_self h _ _, ?_⟩
  rw [installMeter_of_sound h]

/-- The clause of a record of `mtr_load` (R200). -/
theorem mtrApply_step_installs {s : State} {r : List Byte} (h : Sound s) (hrun : jobRunning s Reg.mtrApply = true)
    (hcancel : (job s Reg.mtrApply).cancel = false) (hr : nextRecord s mtrJob = some r) (hc : (applyMtr s r).1 = 0) :
    ∃ t, Answers (.mtrApply .step) s t ∧ RecordTaken mtrJob s t ∧ meterOf t (beAt r 0 4) = freshMeter s (beAt r 8 24) := by
  have hrule := applyMtr_installs hc
  refine ⟨takeRecord s mtrJob applyMtr, congrArg Host.Outcome.next (loadJobTurn_takes (j := mtrJob) hrun hcancel hr applyMtr),
    recordTaken_takeRecord (by decide) hr hc (by rw [hrule, standing_installMeter]), ?_⟩
  rw [meterOf, mtr_takeRecord hr hc, hrule]
  exact meterOf_installMeter_self h _ _

/-- Settles O21: while the arrays are sound a pair and a meter are stored as they are given, and a sweep's reading of its pairs moves
nothing but the bytes read. -/
theorem countersAndMeters : Obligations.CountersAndMeters := by
  unfold Obligations.CountersAndMeters
  refine ⟨fun s c i _ hs => ⟨fun x => counterUpdatePost_adds hs, fun h => ?_, readBytes_ctrBytes s c, ctrClear_zeroes hs,
      fun h hn hrange => ?_, ctrSweep_step_sweeps⟩,
    fun s c i b _ hs => ⟨fun d => meterCorrection_corrects hs, mtrConfigWrite_installs hs, fun r => mtrApply_step_installs hs⟩⟩
  · exact congrArg Host.Outcome.next (readRow_done s c _ _ _ h)
  · exact congrArg Host.Outcome.next (mayStartWith_does h (startSweep_takes hn hrange))

end Sys2Proof
end

section
/-! SUPPORT. Flow control and the entries of the dictionary (R71, R224): a pause or PFC frame moves the counters and the cause of its port
(R73) and the side, and no entry of a lower subindex. -/

namespace Sys2Proof.Machine

/-- The entry lies below the counters and the cause of every port (R73), and no event moves it on the side. -/
def BelowCounters (k : Nat) : Prop := k % 256 < 0x1E ∧ sideEntry k = false

theorem BelowCounters.ne_key {k sub : Nat} (h : BelowCounters k) (idx : Nat) (hlow : 0x1E ≤ sub) (hhigh : sub < 256) : k ≠ key idx sub := by
  have hsub := h.1
  simp only [key]
  omega

/-- The cause register of a port is no such entry: it has subindex 0x1E, or is key 0, which counts as the side. -/
theorem BelowCounters.ne_portCause {k : Nat} (h : BelowCounters k) (p : Nat) : k ≠ (CauseReg.port p).key := by
  have hcause : (CauseReg.port p).key = keyIf (decide (p < 1024)) (key (0x2000 + p) 0x1E) := rfl
  rw [hcause, keyIf]
  split
  · exact h.ne_key _ (by decide) (by decide)
  · rintro rfl
    exact absurd h.2 (by decide)

section
variable {k : Nat} (hk : BelowCounters k)
include hk

theorem reg_mainCount_below (s : State) (p n : Nat) {sub : Nat} (hlow : 0x1E ≤ sub) (hhigh : sub < 256) :
    reg (mainCount s p sub n) k = reg s k :=
  reg_setReg_ne s _ k _ (hk.ne_key _ hlow hhigh)

theorem reg_fbCount_below (s : State) (p n : Nat) {sub : Nat} (hlow : 0x1E ≤ sub) (hhigh : sub < 256) :
    reg (fbCount s p sub n) k = reg s k := by
  have hcount : reg (countBy s 40 (key (0x2000 + p) sub) n) k = reg s k := reg_setReg_ne s _ k _ (hk.ne_key _ hlow hhigh)
  simp only [fbCount]
  split
  · exact (reg_raise_of_ne _ (.port p) 3 hk.2 (hk.ne_portCause p)).trans hcount
  · exact hcount

theorem reg_fbTxSize_below (s : State) (p : Nat) (f : List Byte) : reg (fbTxSize s p f) k = reg s k := by
  have hbin := sizeBin_le f.length
  have hclass := addrClass_le f
  have hcounts : reg (fbCount (fbCount (fbCount s p 0xA0 f.length) p 0xA1 1) p (0xA2 + addrClass f) 1) k = reg s k := by
    rw [reg_fbCount_below hk _ p 1 (by omega) (by omega), reg_fbCount_below hk _ p 1 (by decide) (by decide),
      reg_fbCount_below hk _ p f.length (by decide) (by decide)]
  rw [fbTxSize, (noted_perfEvent [] _ 2 p f.length).2.2 k hk.2 List.not_mem_nil]
  split
  · exact (reg_fbCount_below hk _ p 1 (by omega) (by omega)).trans hcounts
  · exact hcounts

/-- A pause or PFC frame is counted at its port alone (R73). -/
theorem reg_sendControl_below (s : State) (p : Nat) (f : List Byte) : reg (sendControl s p f) k = reg s k := by
  have hsent : reg (mainCount (fbTxSize s p f) p 0x4D 1) k = reg s k :=
    (reg_mainCount_below hk _ p 1 (by decide) (by decide)).trans (reg_fbTxSize_below hk s p f)
  simp only [sendControl]
  split
  · exact (reg_fbCount_below hk _ p 1 (by decide) (by decide)).trans hsent
  · refine List.foldlRecOn (bitList 8 (beAt f 16 2)) _ (motive := fun t : State => reg t k = reg s k) hsent fun t ht i hi => ?_
    have hpriority : i < 8 := List.mem_range.1 (List.mem_filter.1 hi).1
    exact (reg_fbCount_below hk t p 1 (by omega) (by omega)).trans ht

theorem reg_queueControl_below (s : State) (p : Nat) (pfc : Bool) (vec time : Nat) : reg (queueControl s p pfc vec time) k = reg s k := by
  simp only [queueControl]
  split
  · rfl
  · split
    · rfl
    · exact reg_sendControl_below hk _ p _

theorem reg_thresholdStep_below (s : State) (p i n : Nat) : reg (thresholdStep s p i n) k = reg s k := by
  have hxoff : ∀ on, reg (sendXoff s p i on) k = reg s k := fun on => reg_queueControl_below hk _ p _ _ _
  simp only [thresholdStep]
  split
  · exact hxoff true
  · split
    · exact hxoff false
    · rfl

/-- A look at a port's thresholds (R224). -/
theorem reg_fcCheck_below (s : State) (p : Nat) : reg (fcCheck s p) k = reg s k := by
  simp only [fcCheck]
  split
  · exact List.foldlRecOn _ _ (motive := fun t : State => reg t k = reg s k) rfl
      fun t ht c _ => (reg_thresholdStep_below hk t p c _).trans ht
  · split
    · exact reg_thresholdStep_below hk s p 8 _
    · rfl

theorem reg_fcChecks_below (l : List Nat) (s : State) : reg (l.foldl fcCheck s) k = reg s k :=
  List.foldlRecOn l fcCheck (motive := fun t : State => reg t k = reg s k) rfl fun t ht p _ => (reg_fcCheck_below hk t p).trans ht

end

end Sys2Proof.Machine
end

section
/-! SUPPORT. The settings of the pools (ch. 9): what the rule of each write comes to (R207, R219, R222, R224). -/

namespace Sys2Proof.Machine

/-! ### Descriptors (R207) -/

/-- A descriptor that R207 permits is stored in a pool that no Skimmer list threads. -/
theorem wPoolDesc_stores {s : State} {n v : Nat} (h : poolDescRefused s n v = false) (hn : n < 28) :
    wPoolDesc n v s = .done (setReg s (Reg.poolDesc n) (writable (Reg.poolDesc n) v)) := by
  have hplain : ¬ 28 ≤ n := by omega
  simp [wPoolDesc, h, hplain]

/-- A descriptor that R207 permits threads a Skimmer pool's list anew (R209). -/
theorem wPoolDesc_rebuilds {s : State} {n v : Nat} (h : poolDescRefused s n v = false) (hn : 28 ≤ n) :
    wPoolDesc n v s = .done (skimRebuild (setReg s (Reg.poolDesc n) (writable (Reg.poolDesc n) v)) n) := by
  simp [wPoolDesc, h, hn]

/-- A pool in use keeps its descriptor, and no pool is enabled without a unit (R207). -/
theorem poolDescRefused_of_used_or_empty {s : State} {n v : Nat} (h : 0 < poolUsed s n ∨ (bit v 63 = true ∧ bits v 25 0 = 0)) :
    poolDescRefused s n v = true := by
  rcases h with hused | ⟨henabled, hempty⟩
  · simp [poolDescRefused, hused]
  · simp [poolDescRefused, henabled, hempty]

theorem wPoolDesc_refused {s : State} {n v : Nat} (h : poolDescRefused s n v = true) : wPoolDesc n v s = .fail .refused := if_pos h

/-! ### Sizes and admission profiles (R219, R222) -/

theorem wPoolSize_stores {s : State} {k v : Nat} (h : breaksR222 s (setReg s k v) = false) : wPoolSize k v s = .done (setReg s k v) := by
  simp [wPoolSize, h]

theorem wPoolSize_refused {s : State} {k v : Nat} (h : breaksR222 s (setReg s k v) = true) : wPoolSize k v s = .fail .refused := if_pos h

/-- A profile that the VOQ template of a class names may hold no guarantee (R279). -/
theorem template_keeps_noGuarantee {s : State} {n a : Nat}
    (h : (∀ x < 8, bits (reg s (Reg.voqTemplate x)) 31 24 ≠ n) ∨ (apSGuar a = 0 ∧ apCGuar a = 0)) :
    ((List.range 8).any (fun c => bits (reg s (Reg.voqTemplate c)) 31 24 == n) && (apSGuar a != 0 || apCGuar a != 0)) = false := by
  rcases h with hunnamed | ⟨hcells, hpages⟩
  · have hnone : (List.range 8).any (fun c => bits (reg s (Reg.voqTemplate c)) 31 24 == n) = false := by simpa using hunnamed
    rw [hnone, Bool.false_and]
  · simp [hcells, hpages]

/-- A profile is stored whose exponents and pools R219 permits, that keeps the sum of R222, and that no template's VOQs hold against R279. -/
theorem wAdmProfile_stores {s : State} {n : Nat} {b : List Byte} (hb : b.length = 16) (hs : alphaOk (apSAlpha (beNat b)) = true)
    (hc : alphaOk (apCAlpha (beNat b)) = true) (hsp : poolServes s (apSPool (beNat b)) 0 = true)
    (hcp : poolServes s (apCPool (beNat b)) 1 = true) (hsum : breaksR222 s (setBlk s (Reg.admProfile n) b) = false)
    (ht : (∀ x < 8, bits (reg s (Reg.voqTemplate x)) 31 24 ≠ n) ∨ (apSGuar (beNat b) = 0 ∧ apCGuar (beNat b) = 0)) :
    wAdmProfile n b s = .done (setBlk s (Reg.admProfile n) b) := by
  have hsixteen : ¬ b.length ≠ 16 := not_not.2 hb
  simp only [wAdmProfile, hsixteen, hs, hc, hsp, hcp, hsum, template_keeps_noGuarantee ht, if_false, Bool.not_true, Bool.or_self,
    Bool.false_eq_true]

/-! ### Thresholds (R224) -/

/-- The thresholds of a flow-control profile lie below the counters of ports. -/
theorem belowCounters_fcXon {n : Nat} (h : n < 16) : BelowCounters (Reg.fcXonCells n) := by
  revert n
  simp only [BelowCounters]
  decide

/-- The two thresholds of a profile are entries of their own. -/
theorem fcXon_ne_fcXoff {n : Nat} (h : n < 16) : Reg.fcXonCells n ≠ Reg.fcXoffCells n := by
  rw [Reg.fcXonCells, Reg.fcXoffCells, keyIf_lt h, keyIf_lt h, key, key]
  omega

/-- An XON threshold as a write leaves it: the ports of the profile look at it at once. -/
def xonStored (s : State) (n v : Nat) : State :=
  ((mkeys (setReg s (Reg.fcXonCells n) v).ports).filter (fun p => fcProfile (setReg s (Reg.fcXonCells n) v) p == n)).foldl fcCheck
    (setReg s (Reg.fcXonCells n) v)

/-- An XON threshold below XOFF is taken. -/
theorem wFcThreshold_xon {s : State} {n v : Nat} (hn : n < 16) (hv : v < reg s (Reg.fcXoffCells n)) :
    wFcThreshold n true v s = .done (xonStored s n v) := by
  have hbelow : ¬ reg (setReg s (Reg.fcXonCells n) v) (Reg.fcXoffCells n) ≤ reg (setReg s (Reg.fcXonCells n) v) (Reg.fcXonCells n) := by
    rw [reg_setReg_ne _ _ _ v (fcXon_ne_fcXoff hn).symm, reg_setReg_self]
    omega
  exact if_neg hbelow

/-- The XON threshold reads as it was written, whatever frames the ports send for it. -/
theorem reg_xonStored {s : State} {n : Nat} (hn : n < 16) (v : Nat) : reg (xonStored s n v) (Reg.fcXonCells n) = v :=
  (reg_fcChecks_below (belowCounters_fcXon hn) _ _).trans (reg_setReg_self s _ v)

/-- An XOFF threshold that does not exceed XON is refused. -/
theorem wFcThreshold_xoff_refused {s : State} {n v : Nat} (hn : n < 16) (hv : v ≤ reg s (Reg.fcXonCells n)) :
    wFcThreshold n false v s = .fail .refused := by
  have hover : reg (setReg s (Reg.fcXoffCells n) v) (Reg.fcXoffCells n) ≤ reg (setReg s (Reg.fcXoffCells n) v) (Reg.fcXonCells n) := by
    rw [reg_setReg_self, reg_setReg_ne _ _ _ v (fcXon_ne_fcXoff hn)]
    exact hv
  exact if_pos hover

end Sys2Proof.Machine

namespace Sys2Proof

open Machine

/-- Settles O22: each write is taken or refused by the chapter's rule for its entry, and the frames that a threshold makes the
ports send leave the threshold as it was written. -/
theorem poolSettings : Obligations.PoolSettings := by
  unfold Obligations.PoolSettings
  refine fun s c n v b f _ => ⟨fun h hok => ⟨fun hn => ?_, fun hn => ?_⟩, fun h hbad => ?_, fun h hb hs hc hsp hcp hsum ht => ?_,
    fun k hk h => ?_, fun hn h hv => ?_, fun hn h hv => ?_, fun h => ?_⟩
  · exact congrArg Host.Outcome.next (permitted_does h (wPoolDesc_stores hok hn))
  · exact congrArg Host.Outcome.next (permitted_does h (wPoolDesc_rebuilds hok hn))
  · exact congrArg Host.Outcome.next (permitted_refused h (wPoolDesc_refused (poolDescRefused_of_used_or_empty hbad)))
  · exact congrArg Host.Outcome.next (commitRow_done s _ c _ _ h (wAdmProfile_stores hb hs hc hsp hcp hsum ht))
  · subst hk
    exact ⟨fun hsum => congrArg Host.Outcome.next (permitted_does h (wPoolSize_stores hsum)),
      fun hsum => congrArg Host.Outcome.next (permitted_refused h (wPoolSize_refused hsum))⟩
  · exact ⟨xonStored s n v, congrArg Host.Outcome.next (permitted_does h (wFcThreshold_xon hn hv)), reg_xonStored hn v⟩
  · exact congrArg Host.Outcome.next (permitted_refused h (wFcThreshold_xoff_refused hn hv))
  · exact congrArg Host.Outcome.next (readRow_done s c _ _ _ h)

end Sys2Proof
end

section
/-! SUPPORT. The Crock memory controller (ch. 10): its entries, the states of its stacks, and what leaves the requests of its pseudo
channels waiting as they are. -/

namespace Sys2Proof.Machine

/-! ### Entries -/

/-- Two entries are apart by their indexes. -/
theorem key_ne_of_idx {i j a b : Nat} (h : i ≠ j) (ha : a < 256) (hb : b < 256) : key i a ≠ key j b := by
  simp only [key]
  omega

/-- The entry of a stack at an index, as the registers of the stacks are keyed. -/
abbrev stackEntry (i k : Nat) : Nat := keyIf (decide (k < 4)) (key i k)

/-- Two entries of stacks are apart by index or by stack. -/
theorem stackEntry_ne {i j k l : Nat} (hk : k < 4) (hi : 0 < i) (h : i ≠ j ∨ k ≠ l) : stackEntry i k ≠ stackEntry j l := by
  rw [stackEntry, keyIf_lt hk]
  by_cases hl : l < 4
  · rw [stackEntry, keyIf_lt hl, key, key]
    omega
  · simp only [stackEntry, keyIf, hl, decide_false, Bool.false_eq_true, if_false, key]
    omega

/-- The entries of the Crock are none that events move on the side. -/
theorem side_crock {i sub : Nat} (hi : 0x4100 ≤ i ∧ i ≤ 0x4171) (hs : sub < 256) : sideEntry (key i sub) = false := by
  simp only [sideEntry, Bool.or_eq_false_iff, Bool.and_eq_false_iff, beq_eq_false_iff_ne, decide_eq_false_iff_not,
    Reg.obsCause, Reg.evtPulses, Reg.evtFwQueueHigh, Reg.evtFwQueueLost, Reg.ensRecordsDropped, Reg.ensPostcardsSuppressed]
  simp only [key]
  omega

theorem side_stackEntry {i k : Nat} (hk : k < 4) (hi : 0x4100 ≤ i ∧ i ≤ 0x4171) : sideEntry (stackEntry i k) = false := by
  rw [stackEntry, keyIf_lt hk]
  exact side_crock hi (by omega)

/-- Raising a cause of any stack leaves every entry of a stack but the causes as it was. -/
theorem reg_raise_hbm (s : State) (l b : Nat) {i k : Nat} (hk : k < 4) (hi : 0x4100 ≤ i ∧ i ≤ 0x4171) (h : i ≠ 0x4170 ∨ k ≠ l) :
    reg (raise s (.hbm l) b) (stackEntry i k) = reg s (stackEntry i k) :=
  reg_raise_of_ne s (.hbm l) b (side_stackEntry hk hi) (stackEntry_ne hk (by omega) h)

/-- A cause raised at a stack stands. -/
theorem bit_raise_hbm (s : State) {k : Nat} (hk : k < 4) (b : Nat) : bit (reg (raise s (.hbm k) b) (Reg.hbmCause k)) b = true :=
  bit_raise_self s (.hbm k) b (side_stackEntry hk (by decide))

theorem noted_raise_hbm (s : State) (k b : Nat) : Noted [Reg.hbmCause k] s (raise s (.hbm k) b) :=
  noted_raise _ s (.hbm k) b (.inl (List.mem_singleton_self _))

/-! ### A fold that comes to one of its elements -/

/-- What a step over `k` brings about from `I`, and every step keeps, holds once `k` is among those folded over. -/
theorem foldl_reaches {f : State → Nat → State} {I Q : State → Prop} {k : Nat} (hI : ∀ s x, x ≠ k → I s → I (f s x))
    (hQ : ∀ s, I s → Q (f s k)) (hkeep : ∀ s x, Q s → Q (f s x)) {l : List Nat} (hk : k ∈ l) {s : State} (h : I s) :
    Q (l.foldl f s) := by
  induction l generalizing s with
  | nil => simp at hk
  | cons x xs ih =>
    by_cases hx : x = k
    · subst hx
      exact List.foldlRecOn xs f (motive := Q) (hQ s h) fun t ht y _ => hkeep t y ht
    · exact ih ((List.mem_cons.1 hk).resolve_left (Ne.symm hx)) (hI s x hx h)

/-! ### States of stacks (R250) -/

theorem setStack_same {s : State} {k v : Nat} (h : stackState s k = v) : setStack s k v = s := if_pos h

theorem setStack_moves {s : State} {k v : Nat} (h : stackState s k ≠ v) :
    setStack s k v = raise (setReg s (Reg.hbmStackState k) v) (.hbm k) 6 := if_neg h

/-- A change of state touches the stack's state and cause, and the side (R250). -/
theorem noted_setStack (s : State) (k v : Nat) : Noted [Reg.hbmStackState k, Reg.hbmCause k] s (setStack s k v) :=
  noted_ite _ (Noted.refl _ s) ((noted_setReg _ s _ v (.inl (by simp))).trans (noted_raise _ _ (.hbm k) 6 (.inl (by simp [CauseReg.key]))))

theorem stackState_setStack_self (s : State) {k : Nat} (hk : k < 4) (v : Nat) : stackState (setStack s k v) k = v := by
  by_cases h : stackState s k = v
  · rwa [setStack_same h]
  · rw [setStack_moves h]
    exact (reg_raise_hbm _ k 6 (i := 0x4101) hk (by decide) (.inl (by decide))).trans (reg_setReg_self s _ v)

/-- A change of state leaves every other entry of the stacks as it was (R250). -/
theorem reg_setStack_of_ne (s : State) {i k l : Nat} (v : Nat) (hk : k < 4) (hi : 0x4100 ≤ i ∧ i ≤ 0x4171)
    (h : k ≠ l ∨ (i ≠ 0x4101 ∧ i ≠ 0x4170)) : reg (setStack s l v) (stackEntry i k) = reg s (stackEntry i k) := by
  have hstate : stackEntry i k ≠ Reg.hbmStackState l := stackEntry_ne hk (by omega) (by omega)
  have hcause : stackEntry i k ≠ Reg.hbmCause l := stackEntry_ne hk (by omega) (by omega)
  exact (noted_setStack s l v).2.2 _ (side_stackEntry hk hi) (by simp [hstate, hcause])

/-- A stack that changes state raises STATE (R250). -/
theorem bit_setStack {s : State} {k v : Nat} (hk : k < 4) (h : stackState s k ≠ v) :
    bit (reg (setStack s k v) (Reg.hbmCause k)) 6 = true := by
  rw [setStack_moves h]
  exact bit_raise_hbm _ hk 6

/-! ### The waiting requests -/

/-- Between `s` and `t` the entries of `ks`, the side and the pseudo channels may differ; the same requests wait at each channel, and the
rest of the controllers, TIME and the dictionary's engine are as they were. -/
structure QueuesKept (ks : List Nat) (s t : State) : Prop where
  reg : ∀ e, sideEntry e = false → e ∉ ks → reg t e = reg s e
  reqs : ∀ j, (pcOf t j).reqs = (pcOf s j).reqs
  hbm : t.hbm = { s.hbm with pcs := t.hbm.pcs }
  time : t.time = s.time
  dict : t.dict = s.dict

/-- A change on the side and of entries leaves the controllers as they were. -/
theorem hbm_of_noted {ks : List Nat} {s t : State} (h : Noted ks s t) : t.hbm = s.hbm := by rw [h.1]

theorem pcOf_of_hbm {s t : State} (h : t.hbm = s.hbm) (j : Nat) : pcOf t j = pcOf s j := by rw [pcOf, h, pcOf]

theorem queuesKept_of_noted {ks : List Nat} {s t : State} (h : Noted ks s t) : QueuesKept ks s t := by
  have hhbm := hbm_of_noted h
  exact ⟨h.2.2, fun j => by rw [pcOf_of_hbm hhbm], by rw [hhbm], by rw [h.1], by rw [h.1]⟩

namespace QueuesKept

variable {ks : List Nat} {s t u : State}

theorem refl (ks : List Nat) (s : State) : QueuesKept ks s s := ⟨fun _ _ _ => rfl, fun _ => rfl, rfl, rfl, rfl⟩

theorem trans (h : QueuesKept ks s t) (g : QueuesKept ks t u) : QueuesKept ks s u :=
  ⟨fun e hs he => (g.reg e hs he).trans (h.reg e hs he), fun j => (g.reqs j).trans (h.reqs j),
    g.hbm.trans (by rw [h.hbm]), g.time.trans h.time, g.dict.trans h.dict⟩

theorem foldl {α : Type} {f : State → α → State} (h : ∀ s x, QueuesKept ks s (f s x)) (l : List α) (s : State) :
    QueuesKept ks s (l.foldl f s) :=
  List.foldlRecOn l f (motive := QueuesKept ks s) (refl ks s) fun t ht x _ => ht.trans (h t x)

end QueuesKept

theorem pcOf_setPc_self (s : State) (k : Nat) (x : HbmPc) : pcOf (setPc s k x) k = x := mget_mset_self _ _ _ _

theorem pcOf_setPc_ne (s : State) {j k : Nat} (x : HbmPc) (h : j ≠ k) : pcOf (setPc s k x) j = pcOf s j := mget_mset_ne _ _ _ _ _ h

/-- A pseudo channel replaced by one at which the same requests wait. -/
theorem queuesKept_setPc (ks : List Nat) {s : State} {k : Nat} {x : HbmPc} (h : x.reqs = (pcOf s k).reqs) :
    QueuesKept ks s (setPc s k x) := by
  refine ⟨fun _ _ _ => rfl, fun j => ?_, rfl, rfl, rfl⟩
  by_cases hj : j = k
  · rw [hj, pcOf_setPc_self, h]
  · rw [pcOf_setPc_ne s x hj]

theorem queuesKept_startRefresh (ks : List Nat) (s : State) (k : Nat) : QueuesKept ks s (startRefresh s k) := by
  rw [startRefresh]
  refine QueuesKept.foldl (fun t c => ?_) _ s
  exact queuesKept_setPc ks rfl

/-- The start of service takes no request out of the queue (R236). -/
theorem queuesKept_startNext (ks : List Nat) (s : State) (k : Nat) : QueuesKept ks s (startNext s k) := by
  simp only [startNext]
  split
  · split
    · exact queuesKept_setPc ks rfl
    · exact QueuesKept.refl ks s
  · exact QueuesKept.refl ks s

/-- The start of service writes no entry. -/
theorem reg_startNext (s : State) (k e : Nat) : reg (startNext s k) e = reg s e := by
  simp only [startNext]
  split
  · split <;> rfl
  · rfl

/-- Nor do refreshes that start anew, or end. -/
theorem reg_startRefresh (s : State) (k e : Nat) : reg (startRefresh s k) e = reg s e := by
  rw [startRefresh]
  exact List.foldlRecOn _ _ (motive := fun t : State => reg t e = reg s e) rfl fun _ ht _ _ => ht

theorem reg_selfRefresh (s : State) (k e : Nat) : reg (selfRefresh s k) e = reg s e := by
  rw [selfRefresh]
  exact List.foldlRecOn _ _ (motive := fun t : State => reg t e = reg s e) rfl fun _ ht _ _ => ht

/-- The states and causes of the stacks. -/
def stackEntries : List Nat := (List.range 4).flatMap (fun k => [Reg.hbmStackState k, Reg.hbmCause k])

theorem mem_stackEntries (k : Nat) : ∀ e ∈ [Reg.hbmStackState k, Reg.hbmCause k], e ∈ stackEntries ∨ sideEntry e = true := by
  by_cases hk : k < 4
  · intro e he
    exact .inl (List.mem_flatMap.2 ⟨k, List.mem_range.2 hk, he⟩)
  · have hzero : sideEntry 0 = true := rfl
    simp [Reg.hbmStackState, Reg.hbmCause, keyIf, hk, hzero]

/-- A change of state leaves the requests waiting. -/
theorem queuesKept_setStack (s : State) (k v : Nat) : QueuesKept stackEntries s (setStack s k v) :=
  queuesKept_of_noted ((noted_setStack s k v).mono (mem_stackEntries k))

end Sys2Proof.Machine
end

section
/-! SUPPORT. Requests, refreshes, temperatures and scrub of the Crock (R234–R239, R242, R249). -/

namespace Sys2Proof.Machine

/-! ### A request accepted (R234, R242) -/

theorem queuesKept_wakeStacks (s : State) : QueuesKept stackEntries s (wakeStacks s) := by
  rw [wakeStacks]
  refine QueuesKept.foldl (fun t k => ?_) _ s
  exact (queuesKept_setStack t k 1).trans (queuesKept_startRefresh _ _ k)

/-- The first request makes an IDLE stack READY (R242). -/
theorem stackState_wakeStacks {s : State} {k : Nat} (hk : k < 4) (h : stackState s k = 4) : stackState (wakeStacks s) k = 1 := by
  have hidle : k ∈ (List.range 4).filter (fun k => stackState s k == 4) := by simp [hk, h]
  rw [wakeStacks]
  refine foldl_reaches (I := fun _ => True) (Q := fun t => stackState t k = 1) (fun _ _ _ _ => trivial) (fun t _ => ?_)
    (fun t x ht => ?_) hidle trivial
  · exact (reg_startRefresh _ k _).trans (stackState_setStack_self t hk 1)
  · refine (reg_startRefresh _ x _).trans ?_
    by_cases hx : x = k
    · subst hx
      exact stackState_setStack_self t hk 1
    · exact (reg_setStack_of_ne t 1 hk (i := 0x4101) (by decide) (.inl (Ne.symm hx))).trans ht

/-- The Crock as a request finds it: awake, and its use noted but for scrub's port (R242). -/
def woken (s : State) (k prt : Nat) : State :=
  let s := if stackState s k = 4 then wakeStacks s else s
  if prt = 3 then s else { s with hbm.lastUse := s.time }

theorem frame_woken (s : State) (k prt : Nat) : (woken s k prt).time = s.time ∧ (woken s k prt).hbm.nextReq = s.hbm.nextReq ∧
    ∀ j, (pcOf (woken s k prt) j).reqs = (pcOf s j).reqs := by
  have hkept : QueuesKept stackEntries s (if stackState s k = 4 then wakeStacks s else s) := by
    split
    · exact queuesKept_wakeStacks s
    · exact QueuesKept.refl _ s
  have hnext := congrArg HbmState.nextReq hkept.hbm
  simp only [woken]
  split
  · exact ⟨hkept.time, hnext, hkept.reqs⟩
  · exact ⟨hkept.time, hnext, hkept.reqs⟩

theorem stackState_woken {s : State} {k : Nat} (prt : Nat) (hk : k < 4) (h : stackState s k = 4) : stackState (woken s k prt) k = 1 := by
  have hwoken := stackState_wakeStacks hk h
  simp only [woken, if_pos h]
  split
  · exact hwoken
  · exact hwoken

/-- A request joins the queue of a pseudo channel, which may take up its next one. -/
def requestJoined (s : State) (j : Nat) (r : HbmReq) : State :=
  startNext (setPc { s with hbm.nextReq := s.hbm.nextReq + 1 } j { pcOf s j with reqs := (pcOf s j).reqs ++ [r] }) j

theorem reqs_requestJoined (s : State) (j : Nat) (r : HbmReq) : (pcOf (requestJoined s j r) j).reqs = (pcOf s j).reqs ++ [r] :=
  ((queuesKept_startNext [] _ j).reqs j).trans (congrArg HbmPc.reqs (pcOf_setPc_self _ j _))

theorem reg_requestJoined (s : State) (j : Nat) (r : HbmReq) (e : Nat) : reg (requestJoined s j r) e = reg s e := reg_startNext _ j e

/-- A request that is accepted waits at its pseudo channel (R234). -/
theorem exec_hbmRequest {s : State} {k prt page burst count : Nat} (w : Bool) (h : requestTaken s k prt page burst count = true) :
    Answers (.hbmRequest k prt page burst count w) s (requestJoined (woken s k prt) (64 * k + page / 4 % 64) {
      id := s.hbm.nextReq, prt := prt, page := page, burst := burst, count := count, write := w, at0 := s.time }) := by
  obtain ⟨htime, hnext, -⟩ := frame_woken s k prt
  rw [← htime, ← hnext]
  exact if_pos h

/-! ### Words read (R247, R488) -/

/-- The counts, latches and causes of corrected and lost words of the Crock. -/
def eccEntries : List Nat := [Reg.intCorrected 9, Reg.intUncorrectable 9, Reg.intLastError, Reg.intCause] ++
  (List.range 4).flatMap (fun k => [Reg.hbmEccUncorrectable k, Reg.hbmEccCorrected k, Reg.hbmLastEcc k, Reg.hbmCause k])

theorem noted_wordCorrected_crock (s : State) (unit idx : Nat) : Noted eccEntries s (wordCorrected s 9 unit idx) :=
  (noted_count1 eccEntries s _ (.inl (by decide))).trans ((noted_setReg _ _ Reg.intLastError _ (.inl (by decide))).trans
    (noted_raise _ _ .int 0 (.inl (by decide))))

theorem noted_wordLost_crock (s : State) (unit idx : Nat) (poisoned : Bool) : Noted eccEntries s (wordLost s 9 unit idx poisoned) :=
  (noted_count1 eccEntries s _ (.inl (by decide))).trans ((noted_setReg _ _ Reg.intLastError _ (.inl (by decide))).trans
    (noted_raise _ _ .int _ (.inl (by decide))))

/-- The outcome of three flips under SECDED is an open value (R498). -/
theorem queuesKept_freeBits (ks : List Nat) (s : State) (w : Nat) : QueuesKept ks s (freeBits s w).2 :=
  ⟨fun _ _ _ => rfl, fun _ => rfl, rfl, rfl, rfl⟩

theorem queuesKept_checkWord (s : State) (unit idx : Nat) : QueuesKept eccEntries s (checkWord s 9 unit idx).2 := by
  have hcorrected := fun t => queuesKept_of_noted (noted_wordCorrected_crock t unit idx)
  have hlost := fun t poisoned => queuesKept_of_noted (noted_wordLost_crock t unit idx poisoned)
  have hfree := queuesKept_freeBits eccEntries s 1
  simp only [checkWord]
  split
  · exact QueuesKept.refl _ s
  · split
    · exact hlost s true
    · split
      · exact hcorrected s
      · split
        · split
          · exact hfree.trans (hlost _ false)
          · exact hfree.trans (hcorrected _)
        · exact hlost s false

/-- The counts of a stack's words are among those of the Crock. -/
theorem mem_eccEntries {k : Nat} (hk : k < 4) {e : Nat}
    (he : e ∈ [Reg.hbmEccUncorrectable k, Reg.hbmEccCorrected k, Reg.hbmLastEcc k, Reg.hbmCause k]) : e ∈ eccEntries :=
  List.mem_append_right _ (List.mem_flatMap.2 ⟨k, List.mem_range.2 hk, he⟩)

theorem noted_stackWord (s : State) (prt page word : Nat) (lost : Bool) : Noted eccEntries s (stackWord s prt page word lost) := by
  have hmem := fun e => mem_eccEntries (Nat.mod_lt page (show 0 < 4 by decide)) (e := e)
  have hcount : (if lost then Reg.hbmEccUncorrectable (page % 4) else Reg.hbmEccCorrected (page % 4)) ∈ eccEntries := by
    cases lost with
    | false => exact hmem _ (by simp)
    | true => exact hmem _ (by simp)
  have hlatch : Reg.hbmLastEcc (page % 4) ∈ eccEntries := hmem _ (by simp)
  have hcause : (CauseReg.hbm (page % 4)).key ∈ eccEntries := hmem _ (by simp [CauseReg.key])
  exact (noted_count1 eccEntries s _ (.inl hcount)).trans
    ((noted_setReg eccEntries _ _ _ (.inl hlatch)).trans (noted_raise eccEntries _ _ _ (.inl hcause)))

/-- Words read leave the queues as they are (R247). -/
theorem queuesKept_readCrockWords (s : State) (prt : Nat) (l : List (Nat × Nat)) :
    QueuesKept eccEntries s (readCrockWords s prt l).2 := by
  rw [readCrockWords]
  refine List.foldlRecOn l _ (motive := fun r : Bool × State => QueuesKept eccEntries s r.2) (QueuesKept.refl _ s) fun r hr w _ => ?_
  simp only
  split
  · exact hr
  · exact hr.trans ((queuesKept_checkWord _ _ _).trans (queuesKept_of_noted (noted_stackWord _ prt _ _ _)))

/-- No entry of the ports' requests is among them. -/
theorem port_not_mem_eccEntries {p : Nat} (hp : p < 5) : Reg.hbmPortTargetNs p ∉ eccEntries ∧ Reg.hbmDeadlineMiss p ∉ eccEntries := by
  revert p
  decide

theorem side_hbmPort {p : Nat} (hp : p < 5) : sideEntry (Reg.hbmPortTargetNs p) = false ∧ sideEntry (Reg.hbmDeadlineMiss p) = false := by
  revert p
  decide

/-! ### A request completed (R235) -/

/-- The request `i` leaves the queue of its pseudo channel, and its bytes count as moved. -/
def requestLeft (s : State) (j i : Nat) (r : HbmReq) : State :=
  let s := setPc s j { pcOf s j with reqs := (pcOf s j).reqs.filter (fun x => x.id != i), current := none }
  { s with hbm.moved := s.hbm.moved + 32 * r.count }

/-- Its bursts count as events, and the words of a read are checked (R247). -/
def requestServed (s : State) (k j i : Nat) (r : HbmReq) : State :=
  let s := (List.range r.count).foldl (fun s _ => perfEvent s 0x51 k 32) (requestLeft s j i r)
  if r.write then s else (readCrockWords s r.prt ((rangeFrom (4 * r.burst) (4 * r.count)).map (fun w => (r.page, w)))).2

/-- A late one is counted (R235). -/
def lateCounted (s : State) (k : Nat) (r : HbmReq) : State :=
  if reg s (Reg.hbmPortTargetNs r.prt) < s.time - r.at0 then raise (count1 s (Reg.hbmDeadlineMiss r.prt)) (.hbm k) 2 else s

theorem exec_hbmRequestComplete {s : State} {k c i : Nat} {r : HbmReq} (hcur : (pcOf s (64 * k + c)).current = some i)
    (hr : (pcOf s (64 * k + c)).reqs.find? (fun r => r.id == i) = some r) :
    Answers (.hbmRequestComplete k c) s (startNext (lateCounted (requestServed s k (64 * k + c) i r) k r) (64 * k + c)) := by
  change execHbmRequestComplete k c s = _
  simp only [execHbmRequestComplete, hcur, hr]
  rfl

theorem queuesKept_requestServed (s : State) (k j i : Nat) (r : HbmReq) :
    QueuesKept eccEntries (requestLeft s j i r) (requestServed s k j i r) := by
  have hevents : QueuesKept eccEntries (requestLeft s j i r)
      ((List.range r.count).foldl (fun s _ => perfEvent s 0x51 k 32) (requestLeft s j i r)) :=
    queuesKept_of_noted (noted_foldl _ _ (fun s _ => noted_perfEvent _ s 0x51 k 32) _ _)
  simp only [requestServed]
  split
  · exact hevents
  · exact hevents.trans (queuesKept_readCrockWords _ _ _)

theorem queuesKept_lateCounted (s : State) (k : Nat) (r : HbmReq) :
    QueuesKept [Reg.hbmDeadlineMiss r.prt, Reg.hbmCause k] s (lateCounted s k r) := by
  refine queuesKept_of_noted (noted_ite _ ?_ (Noted.refl _ s))
  exact (noted_count1 _ s _ (.inl (by simp))).trans (noted_raise _ _ (.hbm k) 2 (.inl (by simp [CauseReg.key])))

/-- The request leaves, and its bytes have moved. -/
theorem queue_completed (s : State) (k j i : Nat) (r : HbmReq) :
    (pcOf (startNext (lateCounted (requestServed s k j i r) k r) j) j).reqs = (pcOf s j).reqs.filter (fun x => x.id != i) ∧
    (startNext (lateCounted (requestServed s k j i r) k r) j).hbm.moved = s.hbm.moved + 32 * r.count := by
  have hserved := queuesKept_requestServed s k j i r
  have hlate := queuesKept_lateCounted (requestServed s k j i r) k r
  have hnext := queuesKept_startNext [] (lateCounted (requestServed s k j i r) k r) j
  constructor
  · rw [hnext.reqs, hlate.reqs, hserved.reqs]
    exact congrArg HbmPc.reqs (pcOf_setPc_self s j _)
  · rw [hnext.hbm, hlate.hbm, hserved.hbm]
    rfl

/-- A request beyond its port's target counts as a miss, and DEADLINE is raised (R235). -/
theorem miss_lateCounted {s : State} {k : Nat} {r : HbmReq} (hk : k < 4) (hp : r.prt < 5)
    (h : reg s (Reg.hbmPortTargetNs r.prt) < s.time - r.at0) :
    reg (lateCounted s k r) (Reg.hbmDeadlineMiss r.prt) = (reg s (Reg.hbmDeadlineMiss r.prt) + 1) % 2 ^ 64 ∧
    bit (reg (lateCounted s k r) (Reg.hbmCause k)) 2 = true := by
  have hne : Reg.hbmDeadlineMiss r.prt ≠ (CauseReg.hbm k).key := by
    rw [Reg.hbmDeadlineMiss, CauseReg.key, Reg.hbmCause, keyIf_lt hp, keyIf_lt hk]
    exact key_ne_of_idx (by decide) (by omega) (by omega)
  rw [lateCounted, if_pos h, reg_raise_of_ne _ _ 2 (side_hbmPort hp).2 hne]
  exact ⟨reg_setReg_self s _ _, bit_raise_hbm _ hk 2⟩

/-- What the ports' entries and TIME are when a request has been served. -/
theorem port_requestServed (s : State) (k j i : Nat) {r : HbmReq} (hp : r.prt < 5) :
    reg (requestServed s k j i r) (Reg.hbmPortTargetNs r.prt) = reg s (Reg.hbmPortTargetNs r.prt) ∧
    reg (requestServed s k j i r) (Reg.hbmDeadlineMiss r.prt) = reg s (Reg.hbmDeadlineMiss r.prt) ∧
    (requestServed s k j i r).time = s.time := by
  have h := queuesKept_requestServed s k j i r
  obtain ⟨htarget, hmiss⟩ := port_not_mem_eccEntries hp
  obtain ⟨hside, hside'⟩ := side_hbmPort hp
  exact ⟨h.reg _ hside htarget, h.reg _ hside' hmiss, h.time⟩

/-! ### Refresh (R238, R239) -/

theorem reg_noteOwed (s : State) {i k n : Nat} (hk : k < 4) (hi : 0 < i) (h : i ≠ 0x4153) :
    reg (noteOwed s k n) (stackEntry i k) = reg s (stackEntry i k) := by
  rw [noteOwed]
  split
  · exact reg_setReg_ne s _ _ n (stackEntry_ne hk hi (.inl h))
  · rfl

theorem refreshInterval_noteOwed (s : State) (k n : Nat) : refreshInterval (noteOwed s k n) k = refreshInterval s k := by
  have hhot : Reg.hbmTRefiHotNs ≠ Reg.hbmRefreshOwedMax k :=
    stackEntry_ne (i := 0x4112) (k := 0) (by decide) (by decide) (.inl (by decide))
  have hcold : Reg.hbmTRefiNs ≠ Reg.hbmRefreshOwedMax k :=
    stackEntry_ne (i := 0x4111) (k := 0) (by decide) (by decide) (.inl (by decide))
  rw [noteOwed]
  split
  · simp only [refreshInterval, setReg_hbm, reg_setReg_ne _ _ _ n hhot, reg_setReg_ne _ _ _ n hcold]
  · rfl

/-- A refresh that fell due leaves `n` owed, and the next one is an interval away (R238). -/
def refreshTaken (s : State) (k c n : Nat) : State :=
  let p := pcOf s (64 * k + c)
  setPc (noteOwed s k (p.owed + 1)) (64 * k + c) { p with owed := n, nextDue := p.nextDue + refreshInterval s k }

section
variable {s : State} {k c : Nat} (hk : k < 4) (hc : c < 64) (hx : stackState s k = 1 ∨ stackState s k = 2 ∨ stackState s k = 3)
  (hdue : (pcOf s (64 * k + c)).nextDue ≤ s.time)
include hk hc hx hdue

/-- Outside an unspill burst a refresh is issued; what was owed before stays owed with it (R239). -/
theorem refreshDue_issued (h : unspillBurst (pcOf s (64 * k + c)) = false) : Answers (.refreshDue k c) s
    (refreshTaken s k c (if (pcOf s (64 * k + c)).owed = 0 then 0 else (pcOf s (64 * k + c)).owed + 1)) := by
  change execRefreshDue k c s = _
  simp only [execRefreshDue, and_self, hk, hc, hx, hdue, h, if_true, Bool.false_eq_true, if_false, refreshInterval_noteOwed]
  rfl

/-- In one it is postponed up to six (R239). -/
theorem refreshDue_postponed (h : unspillBurst (pcOf s (64 * k + c)) = true) (howed : (pcOf s (64 * k + c)).owed < 6) :
    Answers (.refreshDue k c) s (refreshTaken s k c ((pcOf s (64 * k + c)).owed + 1)) := by
  have hseven : (pcOf s (64 * k + c)).owed + 1 < 7 := by omega
  change execRefreshDue k c s = _
  simp only [execRefreshDue, and_self, hk, hc, hx, hdue, h, hseven, if_true, refreshInterval_noteOwed]
  rfl

/-- The seventh splits the burst (R239). -/
theorem refreshDue_splits (h : unspillBurst (pcOf s (64 * k + c)) = true) (howed : 6 ≤ (pcOf s (64 * k + c)).owed) :
    Answers (.refreshDue k c) s
      (raise (count1 (refreshTaken s k c (pcOf s (64 * k + c)).owed) (Reg.hbmRefreshSplits k)) (.hbm k) 3) := by
  have hseven : ¬ (pcOf s (64 * k + c)).owed + 1 < 7 := by omega
  change execRefreshDue k c s = _
  simp only [execRefreshDue, and_self, hk, hc, hx, hdue, h, hseven, if_true, if_false, refreshInterval_noteOwed]
  rfl

end

theorem pcOf_refreshTaken (s : State) (k c n : Nat) : pcOf (refreshTaken s k c n) (64 * k + c) =
    { pcOf s (64 * k + c) with
      owed := n, nextDue := (pcOf s (64 * k + c)).nextDue + refreshInterval s k } := pcOf_setPc_self _ _ _

/-- The count and the cause of a split burst leave the pseudo channel as it is. -/
theorem pcOf_split (s : State) (k j : Nat) : pcOf (raise (count1 s (Reg.hbmRefreshSplits k)) (.hbm k) 3) j = pcOf s j :=
  pcOf_of_hbm (hbm_of_noted (noted_raise_hbm (count1 s (Reg.hbmRefreshSplits k)) k 3)) j

theorem splits_refreshTaken (s : State) {k : Nat} (hk : k < 4) (c n : Nat) :
    reg (raise (count1 (refreshTaken s k c n) (Reg.hbmRefreshSplits k)) (.hbm k) 3) (Reg.hbmRefreshSplits k) =
      (reg s (Reg.hbmRefreshSplits k) + 1) % 2 ^ 64 := by
  have hbefore : reg (refreshTaken s k c n) (Reg.hbmRefreshSplits k) = reg s (Reg.hbmRefreshSplits k) :=
    reg_noteOwed s (i := 0x4152) hk (by decide) (by decide)
  rw [← hbefore]
  exact (reg_raise_hbm _ k 3 (i := 0x4152) hk (by decide) (.inl (by decide))).trans (reg_setReg_self _ _ _)

/-! ### Temperature (R238, R252) -/

/-- A readout stored, and whether it makes the stack hot. -/
def readoutStored (s : State) (k n : Nat) : State :=
  { setReg s (Reg.hbmTemp k) (n % 2 ^ 32) with
    hbm.hot := mset false s.hbm.hot k (decide ((16 * reg s Reg.hbmHotC : Int) ≤ toSigned 32 n)) }

/-- A hot stack raises HOT (R252). -/
theorem exec_hbmTempRead (s : State) {k : Nat} (n : Nat) (hk : k < 4) : Answers (.hbmTempRead k n) s
    (if (16 * reg s Reg.hbmHotC : Int) ≤ toSigned 32 n then raise (readoutStored s k n) (.hbm k) 7 else readoutStored s k n) := by
  have hne : Reg.hbmHotC ≠ Reg.hbmTemp k := stackEntry_ne (i := 0x4113) (k := 0) (by decide) (by decide) (.inl (by decide))
  change execHbmTempRead k n s = _
  simp only [execHbmTempRead, hk, if_true, setReg_hbm, reg_setReg_ne s _ _ (n % 2 ^ 32) hne, decide_eq_true_eq]
  rfl

/-! ### Patrol scrub (R249) -/

/-- Where no word is wrong a scrubbed page only moves the position on. -/
theorem scrubNext_of_clean {s : State} {k : Nat} (h : s.integ.bad = []) (hp : reg s (Reg.hbmScrubPosition k) + 1 < 12582912) :
    scrubNext s k = setReg s (Reg.hbmScrubPosition k) (reg s (Reg.hbmScrubPosition k) + 1) := by
  have hpage : scrubPage s k (reg s (Reg.hbmScrubPosition k)) = s := by simp [scrubPage, badWords, h]
  simp only [scrubNext, hpage, hp, if_true]

/-- Several pages in turn. -/
theorem foldl_scrubNext_of_clean {s : State} {k : Nat} (h : s.integ.bad = []) (n : Nat)
    (hp : reg s (Reg.hbmScrubPosition k) + n < 12582912) :
    Noted [Reg.hbmScrubPosition k] s ((List.range n).foldl (fun s _ => scrubNext s k) s) ∧
    reg ((List.range n).foldl (fun s _ => scrubNext s k) s) (Reg.hbmScrubPosition k) = reg s (Reg.hbmScrubPosition k) + n := by
  induction n with
  | zero => exact ⟨Noted.refl _ s, rfl⟩
  | succ n ih =>
    obtain ⟨hnoted, hpos⟩ := ih (by omega)
    have hclean : ((List.range n).foldl (fun s _ => scrubNext s k) s).integ.bad = [] := by rw [hnoted.1]; exact h
    rw [List.range_succ, List.foldl_append, List.foldl_cons, List.foldl_nil, scrubNext_of_clean hclean (by omega), hpos]
    exact ⟨hnoted.trans (noted_setReg _ _ _ _ (.inl (List.mem_singleton_self _))), reg_setReg_self _ _ _⟩

end Sys2Proof.Machine

namespace Sys2Proof

open Machine

/-- The clause of a request accepted (R234, R242). -/
theorem hbmRequest_joins {s : State} {k prt page burst count : Nat} (w : Bool) (hk : k < 4)
    (h : requestTaken s k prt page burst count = true) : ∃ t, Answers (.hbmRequest k prt page burst count w) s t ∧
      (pcOf t (64 * k + page / 4 % 64)).reqs = (pcOf s (64 * k + page / 4 % 64)).reqs ++ [{
        id := s.hbm.nextReq, prt := prt, page := page, burst := burst, count := count, write := w, at0 := s.time }] ∧
      (stackState s k = 4 → stackState t k = 1) := by
  obtain ⟨-, -, hreqs⟩ := frame_woken s k prt
  refine ⟨_, exec_hbmRequest w h, ?_, fun hidle => ?_⟩
  · rw [reqs_requestJoined, hreqs]
  · exact (reg_requestJoined _ _ _ _).trans (stackState_woken prt hk hidle)

/-- The clause of a request completed (R235). -/
theorem hbmRequestComplete_leaves {s : State} {k c i : Nat} {r : HbmReq} (hk : k < 4) (hcur : (pcOf s (64 * k + c)).current = some i)
    (hr : (pcOf s (64 * k + c)).reqs.find? (fun r => r.id == i) = some r) (hp : r.prt < 5) :
    ∃ t, Answers (.hbmRequestComplete k c) s t ∧
      (pcOf t (64 * k + c)).reqs = (pcOf s (64 * k + c)).reqs.filter (fun x => x.id != i) ∧
      t.hbm.moved = s.hbm.moved + 32 * r.count ∧
      (reg s (Reg.hbmPortTargetNs r.prt) < s.time - r.at0 →
        reg t (Reg.hbmDeadlineMiss r.prt) = (reg s (Reg.hbmDeadlineMiss r.prt) + 1) % 2 ^ 64 ∧
        bit (reg t (Reg.hbmCause k)) 2 = true) := by
  obtain ⟨hreqs, hmoved⟩ := queue_completed s k (64 * k + c) i r
  obtain ⟨htarget, hmiss, htime⟩ := port_requestServed s k (64 * k + c) i hp
  refine ⟨_, exec_hbmRequestComplete hcur hr, hreqs, hmoved, fun hlate => ?_⟩
  rw [← htarget, ← htime] at hlate
  rw [← hmiss, reg_startNext, reg_startNext]
  exact miss_lateCounted hk hp hlate

/-- The clause of a refresh that falls due (R238, R239). -/
theorem refreshDue_taken {s : State} {k c : Nat} (hk : k < 4) (hc : c < 64)
    (hx : stackState s k = 1 ∨ stackState s k = 2 ∨ stackState s k = 3) (hdue : (pcOf s (64 * k + c)).nextDue ≤ s.time) :
    ∃ t, Answers (.refreshDue k c) s t ∧
      (pcOf t (64 * k + c)).nextDue = (pcOf s (64 * k + c)).nextDue + refreshInterval s k ∧
      (unspillBurst (pcOf s (64 * k + c)) = false → (pcOf s (64 * k + c)).owed = 0 → (pcOf t (64 * k + c)).owed = 0) ∧
      (unspillBurst (pcOf s (64 * k + c)) = true → (pcOf s (64 * k + c)).owed < 6 →
        (pcOf t (64 * k + c)).owed = (pcOf s (64 * k + c)).owed + 1) ∧
      (unspillBurst (pcOf s (64 * k + c)) = true → 6 ≤ (pcOf s (64 * k + c)).owed →
        (pcOf t (64 * k + c)).owed = (pcOf s (64 * k + c)).owed ∧
        reg t (Reg.hbmRefreshSplits k) = (reg s (Reg.hbmRefreshSplits k) + 1) % 2 ^ 64 ∧ bit (reg t (Reg.hbmCause k)) 3 = true) := by
  by_cases hburst : unspillBurst (pcOf s (64 * k + c)) = true
  · by_cases howed : (pcOf s (64 * k + c)).owed < 6
    · refine ⟨_, refreshDue_postponed hk hc hx hdue hburst howed, ?_⟩
      rw [pcOf_refreshTaken]
      exact ⟨rfl, by simp [hburst], fun _ _ => rfl, fun _ h => absurd howed (Nat.not_lt.2 h)⟩
    · refine ⟨_, refreshDue_splits hk hc hx hdue hburst (Nat.not_lt.1 howed), ?_⟩
      rw [pcOf_split, pcOf_refreshTaken]
      exact ⟨rfl, by simp [hburst], fun _ h => absurd h howed,
        fun _ _ => ⟨rfl, splits_refreshTaken s hk c _, bit_raise_hbm _ hk 3⟩⟩
  · have hnone := Bool.eq_false_iff.2 hburst
    refine ⟨_, refreshDue_issued hk hc hx hdue hnone, ?_⟩
    rw [pcOf_refreshTaken]
    exact ⟨rfl, fun _ h => if_pos h, fun h => absurd h hburst, fun h => absurd h hburst⟩

/-- The clause of a temperature read (R238, R252). -/
theorem hbmTempRead_stores (s : State) {k : Nat} (n : Nat) (hk : k < 4) :
    ∃ t, Answers (.hbmTempRead k n) s t ∧ reg t (Reg.hbmTemp k) = n % 2 ^ 32 ∧
      mget false t.hbm.hot k = decide ((16 * reg s Reg.hbmHotC : Int) ≤ toSigned 32 n) ∧
      ((16 * reg s Reg.hbmHotC : Int) ≤ toSigned 32 n → bit (reg t (Reg.hbmCause k)) 7 = true) := by
  have htemp : reg (readoutStored s k n) (Reg.hbmTemp k) = n % 2 ^ 32 := reg_setReg_self s _ _
  have hhot : mget false (readoutStored s k n).hbm.hot k = decide ((16 * reg s Reg.hbmHotC : Int) ≤ toSigned 32 n) :=
    mget_mset_self _ _ _ _
  refine ⟨_, exec_hbmTempRead s n hk, ?_⟩
  split
  · rw [hbm_of_noted (noted_raise_hbm _ k 7)]
    exact ⟨(reg_raise_hbm _ k 7 (i := 0x4160) hk (by decide) (.inl (by decide))).trans htemp, hhot, fun _ => bit_raise_hbm _ hk 7⟩
  · rename_i hcool
    exact ⟨htemp, hhot, fun h => absurd h hcool⟩

/-- The clause of a page scrubbed (R249). -/
theorem hbmPatrolScrub_movesOn {s : State} {k : Nat} (hk : k < 4) (hs : Sound s) (hx : stackState s k = 1 ∨ stackState s k = 2)
    (hdue : mget 0 s.hbm.scrubAt k + reg s Reg.hbmScrubPageNs ≤ s.time) (hp : reg s (Reg.hbmScrubPosition k) + 1 < 12582912) :
    Answers (.hbmPatrolScrub k []) s (setReg { s with hbm.scrubAt := mset 0 s.hbm.scrubAt k s.time } (Reg.hbmScrubPosition k)
      (reg s (Reg.hbmScrubPosition k) + 1)) := by
  obtain ⟨hbad, -⟩ := hs
  have hawake : ¬ stackState s k = 4 := by omega
  have hscrubs : stackState s k = 1 ∨ stackState s k = 2 ∨ stackState s k = 4 := hx.imp_right .inl
  have hnext := scrubNext_of_clean (s := { s with hbm.scrubAt := mset 0 s.hbm.scrubAt k s.time }) (k := k) hbad hp
  change execHbmPatrolScrub k [] s = _
  exact (if_pos ⟨hk, hscrubs, hdue⟩).trans ((if_neg hawake).trans (congrArg Host.Outcome.next hnext))

/-- The clause of the due pages of an IDLE stack (R249). -/
theorem hbmScrubBatch_takes {s : State} {k : Nat} (hk : k < 4) (hs : Sound s) (hidle : stackState s k = 4)
    (hdue : 64 ≤ mget 0 s.hbm.scrubDue k) (hp : reg s (Reg.hbmScrubPosition k) + mget 0 s.hbm.scrubDue k < 12582912) :
    ∃ t, Answers (.hbmScrubBatch k) s t ∧ mget 0 t.hbm.scrubDue k = 0 ∧
      reg t (Reg.hbmScrubPosition k) = reg s (Reg.hbmScrubPosition k) + mget 0 s.hbm.scrubDue k ∧ stackState t k = 4 := by
  obtain ⟨hbad, -⟩ := hs
  obtain ⟨hnoted, hpos⟩ := foldl_scrubNext_of_clean hbad (mget 0 s.hbm.scrubDue k) hp
  have hsome : 0 < mget 0 s.hbm.scrubDue k := by omega
  have hstate : Reg.hbmStackState k ≠ Reg.hbmScrubPosition k := stackEntry_ne hk (by decide) (.inl (by decide))
  refine ⟨_, if_pos ⟨hk, hsome, .inl ⟨hidle, hdue⟩⟩, mget_mset_self _ _ _ _, ?_, ?_⟩
  · simp only [hidle, if_true]
    exact (reg_raise_hbm _ k 6 (i := 0x4144) hk (by decide) (.inl (by decide))).trans hpos
  · simp only [hidle, if_true]
    exact (reg_raise_hbm _ k 6 (i := 0x4101) hk (by decide) (.inl (by decide))).trans
      ((hnoted.2.2 _ (side_stackEntry hk (by decide)) (fun h => hstate (List.mem_singleton.1 h))).trans hidle)

/-- Settles O28: a request joins the queue of a Crock that has been woken, and leaves it with its bytes counted and its words read; a
refresh goes by the burst of its pseudo channel and what is owed; and pages without a wrong word only move the scrubber's position on. -/
theorem hbmRequestsAndRefresh : Obligations.HbmRequestsAndRefresh := by
  unfold Obligations.HbmRequestsAndRefresh
  refine fun s cl k c n _ hk => ⟨fun prt page burst count w h => hbmRequest_joins w hk h,
    fun i r hcur hr hp => hbmRequestComplete_leaves hk hcur hr hp, fun hc hx hdue => refreshDue_taken hk hc hx hdue,
    fun howed hburst => ?_, hbmTempRead_stores s n hk, fun h => ?_, fun hs hx hdue hp => hbmPatrolScrub_movesOn hk hs hx hdue hp,
    fun hs hidle hdue hp => hbmScrubBatch_takes hk hs hidle hdue hp⟩
  · exact if_pos ⟨howed, hburst⟩
  · exact congrArg Host.Outcome.next (readRow_done s cl _ _ _ h)

end Sys2Proof
end

section
/-! SUPPORT. Data rates of the Crock, its idle entry, captures, and the states of its stacks (R240–R245, R250, R251). -/

namespace Sys2Proof.Machine

/-! ### Rate windows (R240, R243) -/

theorem change_beginRate (s : State) (r : Nat) :
    (beginRate s r).hbm.change = if reg s Reg.hbmRate = r then s.hbm.change else some r := by
  rw [beginRate]
  split <;> rfl

/-- A change that begins leaves the bytes of the window and its instant. -/
theorem window_beginRate (s : State) (r : Nat) :
    (beginRate s r).hbm.moved = s.hbm.moved ∧ (beginRate s r).hbm.windowAt = s.hbm.windowAt := by
  rw [beginRate]
  split <;> exact ⟨rfl, rfl⟩

/-- A demand above 75% of the rate's capacity raises it (R240). -/
theorem governRate_rises {s : State} {d : Nat} (h : 75 * rateCapacity (reg s Reg.hbmRate) < 100 * d) :
    governRate s d = beginRate { s with hbm.below := 0 } (max (reg s Reg.hbmRate) (rateFor d)) := if_pos h

/-- A rate has no less capacity than the one below it. -/
theorem rateCapacity_pred_le (r : Nat) : rateCapacity (r - 1) ≤ rateCapacity r := by
  match r with
  | 0 => exact Nat.le_refl _
  | 1 => decide
  | 2 => decide
  | n + 3 => exact Nat.le_refl _

/-- The tenth window below half of the capacity of the rate below lowers it (R240). -/
theorem governRate_falls {s : State} {d : Nat} (hr : 0 < reg s Reg.hbmRate)
    (h : 100 * d < 50 * rateCapacity (reg s Reg.hbmRate - 1)) (hn : 9 ≤ s.hbm.below) :
    governRate s d = beginRate { s with hbm.below := 0 } (reg s Reg.hbmRate - 1) := by
  have hpred := rateCapacity_pred_le (reg s Reg.hbmRate)
  have hlow : ¬ 75 * rateCapacity (reg s Reg.hbmRate) < 100 * d := by omega
  have hten : 10 ≤ s.hbm.below + 1 := by omega
  simp only [governRate, hlow, hr, h, hten, and_self, if_true, if_false]

/-- The judgement of a window leaves its bytes and its instant (R240). -/
theorem window_governRate (s : State) (d : Nat) :
    (governRate s d).hbm.moved = s.hbm.moved ∧ (governRate s d).hbm.windowAt = s.hbm.windowAt := by
  simp only [governRate]
  split
  · exact window_beginRate _ _
  · split
    · split
      · exact window_beginRate _ _
      · exact ⟨rfl, rfl⟩
    · exact ⟨rfl, rfl⟩

/-- The state at the start of a new window. -/
def windowBegun (s : State) : State := { s with hbm.moved := 0, hbm.windowAt := s.time }

section
variable {s : State} (ht : timeNs s % 100000 = 0) (hw : s.hbm.windowAt < s.time)
include ht hw

theorem hbmRateWindow_governs (hpin : reg s Reg.hbmRatePin = 0xFF) (hc : s.hbm.change = none)
    (hj : jobRunning s Reg.hbmCapture = false) :
    Answers .hbmRateWindow s (governRate (windowBegun s) (s.hbm.moved * 80000)) := by
  change execHbmRateWindow s = _
  exact (if_pos ⟨ht, hw⟩).trans (if_pos ⟨hpin, hc, hj⟩)

/-- While a capture or another change runs a window changes nothing (R243). -/
theorem hbmRateWindow_held (h : jobRunning s Reg.hbmCapture = true ∨ s.hbm.change ≠ none) :
    Answers .hbmRateWindow s (windowBegun s) := by
  have hheld : ¬ (reg s Reg.hbmRatePin = 0xFF ∧ s.hbm.change = none ∧ jobRunning s Reg.hbmCapture = false) := by
    rintro ⟨-, hchange, hidle⟩
    rcases h with h | h
    · simp [hidle] at h
    · exact h hchange
  change execHbmRateWindow s = _
  exact (if_pos ⟨ht, hw⟩).trans (if_neg hheld)

end

/-! ### Rate changes (R241) -/

theorem reg_foldl_loadDelays (l : List Nat) (s : State) (e : Nat) : reg (l.foldl loadDelays s) e = reg s e :=
  List.foldlRecOn l _ (motive := fun t : State => reg t e = reg s e) rfl fun _ ht _ _ => ht

theorem change_foldl_loadDelays (l : List Nat) (s : State) : (l.foldl loadDelays s).hbm.change = s.hbm.change :=
  List.foldlRecOn l _ (motive := fun t : State => t.hbm.change = s.hbm.change) rfl fun _ ht _ _ => ht

/-- The stacks in service at a new rate, with its delays, and the change counted (R241). -/
def rateChanged (s : State) (r : Nat) : State :=
  let s := (serviceStacks s).foldl selfRefresh s
  count1 ((List.range 4).foldl loadDelays (setReg { s with hbm.change := none } Reg.hbmRate r)) Reg.hbmRateChanges

/-- RATE_CHANGED raised in the stacks in service (R241). -/
def rateReported (s : State) : State := (serviceStacks s).foldl (fun s k => raise s (.hbm k) 4) s

/-- Service resumes at every pseudo channel (R241). -/
def serviceResumed (s : State) : State := (mkeys s.hbm.pcs).foldl startNext s

theorem exec_hbmRateChange {s : State} {r : Nat} (hc : s.hbm.change = some r) (hp : ∀ p ∈ s.hbm.pcs, p.2.current = none) :
    Answers .hbmRateChange s (serviceResumed (rateReported (rateChanged s r))) := by
  have hquiet : ¬ s.hbm.pcs.any (fun p => p.2.current.isSome) = true := by
    simp only [List.any_eq_true, not_exists, not_and]
    exact fun p hmem => by simp [hp p hmem]
  change execHbmRateChange s = _
  simp only [execHbmRateChange, hc]
  exact if_neg hquiet

theorem reg_rateChanged_of_ne (s : State) (r : Nat) {e : Nat} (hrate : e ≠ Reg.hbmRate) (hcount : e ≠ Reg.hbmRateChanges) :
    reg (rateChanged s r) e = reg s e := by
  rw [rateChanged, count1, countBy, reg_setReg_ne _ _ _ _ hcount, reg_foldl_loadDelays, reg_setReg_ne _ _ _ _ hrate]
  exact List.foldlRecOn _ _ (motive := fun t : State => reg t e = reg s e) rfl fun t ht k _ => (reg_selfRefresh t k e).trans ht

theorem rate_rateChanged (s : State) (r : Nat) : reg (rateChanged s r) Reg.hbmRate = r := by
  rw [rateChanged, count1, countBy, reg_setReg_ne _ Reg.hbmRateChanges Reg.hbmRate _ (by decide), reg_foldl_loadDelays, reg_setReg_self]

theorem rateChanges_rateChanged (s : State) (r : Nat) :
    reg (rateChanged s r) Reg.hbmRateChanges = (reg s Reg.hbmRateChanges + 1) % 2 ^ 64 := by
  rw [rateChanged, count1, countBy, reg_setReg_self, reg_foldl_loadDelays, reg_setReg_ne _ Reg.hbmRate Reg.hbmRateChanges _ (by decide)]
  exact congrArg (fun n => (n + 1) % 2 ^ 64)
    (List.foldlRecOn _ _ (motive := fun t : State => reg t Reg.hbmRateChanges = reg s Reg.hbmRateChanges) rfl
      fun t ht k _ => (reg_selfRefresh t k _).trans ht)

theorem change_rateChanged (s : State) (r : Nat) : (rateChanged s r).hbm.change = none := change_foldl_loadDelays _ _

/-- A report touches the causes of the stacks and the side. -/
theorem queuesKept_rateReported (s : State) : QueuesKept stackEntries s (rateReported s) :=
  queuesKept_of_noted (noted_foldl _ _ (fun s k => (noted_raise_hbm s k 4).mono fun e he =>
    mem_stackEntries k e (List.mem_cons_of_mem _ he)) _ s)

theorem queuesKept_serviceResumed (s : State) : QueuesKept [] s (serviceResumed s) := by
  rw [serviceResumed]
  refine QueuesKept.foldl (fun t j => ?_) _ s
  exact queuesKept_startNext [] t j

/-- Every stack in service reports a change (R241). -/
theorem bit_rateReported {s : State} {k : Nat} (hk : k < 4) (h : inService s k = true) :
    bit (reg (rateReported s) (Reg.hbmCause k)) 4 = true := by
  have hmem : k ∈ serviceStacks s := List.mem_filter.2 ⟨List.mem_range.2 hk, h⟩
  refine foldl_reaches (f := fun t x => raise t (.hbm x) 4) (I := fun _ => True)
    (Q := fun t => bit (reg t (Reg.hbmCause k)) 4 = true) (fun _ _ _ _ => trivial)
    (fun t _ => bit_raise_hbm t hk 4) (fun t x ht => ?_) hmem trivial
  by_cases hx : x = k
  · rw [hx]
    exact bit_raise_hbm t hk 4
  · have hother : reg (raise t (.hbm x) 4) (Reg.hbmCause k) = reg t (Reg.hbmCause k) :=
      reg_raise_hbm t x 4 hk (by decide) (.inr (Ne.symm hx))
    rwa [hother]

/-! ### The pinned rate (R240, R243) -/

theorem wHbmRatePin_begins {s : State} {v : Nat} (hv : v ≤ 2) (hc : s.hbm.change = none) (hj : jobRunning s Reg.hbmCapture = false) :
    wHbmRatePin v s = .done (beginRate (setReg s Reg.hbmRatePin v) v) := by
  have hfixed : v ≠ 0xFF := by omega
  have hrate : ¬ 2 < v := by omega
  simp [wHbmRatePin, hfixed, hrate, hc, hj]

/-- A pin that would change the rate is busy while another change, or a capture, runs (R243). -/
theorem wHbmRatePin_busy {s : State} {v : Nat} (hv : v ≤ 2)
    (h : s.hbm.change ≠ none ∨ (reg s Reg.hbmRate ≠ v ∧ jobRunning s Reg.hbmCapture = true)) : wHbmRatePin v s = .fail .busy := by
  have hfixed : v ≠ 0xFF := by omega
  have hrate : ¬ 2 < v := by omega
  have hheld : (s.hbm.change.isSome || (jobRunning s Reg.hbmCapture && reg s Reg.hbmRate != v)) = true := by
    rcases h with h | ⟨hne, hj⟩
    · simp [Option.isSome_iff_ne_none.2 h]
    · simp [hj, hne]
  exact (if_neg hfixed).trans ((if_neg hrate).trans (if_pos hheld))

/-! ### Idle (R242) -/

/-- Every READY stack refreshes itself, and is IDLE. -/
def idleEntered (s : State) : State :=
  ((List.range 4).filter (fun k => stackState s k == 1)).foldl (fun s k => setStack (selfRefresh s k) k 4) s

theorem idle_idleEntered {s : State} {k : Nat} (hk : k < 4) (h : stackState s k = 1) :
    stackState (idleEntered s) k = 4 ∧ bit (reg (idleEntered s) (Reg.hbmCause k)) 6 = true := by
  have hmem : k ∈ (List.range 4).filter (fun k => stackState s k == 1) := by simp [hk, h]
  have hself : ∀ t x, stackState (selfRefresh t x) k = stackState t k := fun t x => reg_selfRefresh t x _
  have hother : ∀ t x, x ≠ k → stackState (setStack (selfRefresh t x) x 4) k = stackState t k := fun t x hx =>
    (reg_setStack_of_ne _ 4 (i := 0x4101) hk (by decide) (.inl (Ne.symm hx))).trans (hself t x)
  have hcause : ∀ t x, x ≠ k → reg (setStack (selfRefresh t x) x 4) (Reg.hbmCause k) = reg t (Reg.hbmCause k) := fun t x hx =>
    (reg_setStack_of_ne _ 4 (i := 0x4170) hk (by decide) (.inl (Ne.symm hx))).trans (reg_selfRefresh t x _)
  rw [idleEntered]
  refine foldl_reaches (I := fun t => stackState t k = 1) (Q := fun t => stackState t k = 4 ∧ bit (reg t (Reg.hbmCause k)) 6 = true)
    (fun t x hx ht => (hother t x hx).trans ht) (fun t ht => ?_) (fun t x ht => ?_) hmem h
  · exact ⟨stackState_setStack_self _ hk 4, bit_setStack hk (by rw [hself, ht]; decide)⟩
  · obtain ⟨hidle, hbit⟩ := ht
    by_cases hx : x = k
    · subst hx
      rw [setStack_same ((hself t x).trans hidle), reg_selfRefresh]
      exact ⟨(hself t x).trans hidle, hbit⟩
    · rw [hother t x hx, hcause t x hx]
      exact ⟨hidle, hbit⟩

/-! ### Captures (R245) -/

theorem startCapture_begins {s : State} (hp : stackParked s (capStack s) = true) (hc : s.hbm.change = none) :
    startCapture s = .done (setBlk (jobBegin s Reg.hbmCapture) Reg.hbmCaptureResult []) := by
  simp [startCapture, hp, hc]

/-- The sample of a capture at the delay `x`: the delays swept, the pins that passed taken down, and the job a step further (R245). -/
def sampleTaken (s : State) (x pass : Nat) : State :=
  let u := setBlk (sweepDelays s x) Reg.hbmCaptureResult (blk s Reg.hbmCaptureResult ++ byte x :: beBytes 5 (pass % 2 ^ 36))
  jobProgress (jobPhase u Reg.hbmCapture ((job s Reg.hbmCapture).phase + 1)) Reg.hbmCapture 1

/-- The last sample of a capture ends it (R245). -/
theorem captureStep_ends {s : State} {x : Nat} (pass : Nat) (hj : jobRunning s Reg.hbmCapture = true)
    (hx : x = capStart s + (job s Reg.hbmCapture).phase * capStep s) (hlast : capStop s < x + capStep s) :
    captureStep s pass = captureEnd (sampleTaken s x pass) false := by
  subst hx
  exact (if_pos hj).trans (if_pos hlast)

theorem job_sampleTaken (s : State) (x pass : Nat) : (job (sampleTaken s x pass) Reg.hbmCapture).state = (job s Reg.hbmCapture).state := by
  simp only [sampleTaken, job_jobProgress, job_jobPhase]
  rfl

/-- A capture that ends has completed, with its samples as they were, and JOB_DONE is raised on its stack (R245). -/
theorem captureEnd_completes {s : State} (hj : jobRunning s Reg.hbmCapture = true) :
    JobCompleted (captureEnd s false) Reg.hbmCapture 0 ∧ (captureEnd s false).blocks = s.blocks ∧
    bit (reg (captureEnd s false) (Reg.hbmCause (capStack s))) 5 = true := by
  have hstack : capStack s < 4 := Nat.mod_lt _ (by decide)
  have hruns : jobRunning (restoreDelays s) Reg.hbmCapture = true := hj
  have hend := jobCompleted_jobEnd hruns 0
  refine ⟨?_, ?_, bit_raise_hbm _ hstack 5⟩
  · rwa [JobCompleted, ← job_raise _ (.hbm (capStack s)) 5] at hend
  · calc
      (captureEnd s false).blocks = (jobEnd (restoreDelays s) Reg.hbmCapture 0).blocks :=
        (noted_raise_hbm (jobEnd (restoreDelays s) Reg.hbmCapture 0) (capStack s) 5).frame.1
      _ = s.blocks := by rw [jobEnd_eq]; rfl

/-! ### Initialisation (R251) -/

theorem startHbmInit_begins {s : State} {k : Nat} (hp : stackParked s k = true) (hc : s.hbm.change = none)
    (hj : jobRunning s Reg.hbmCapture = false) : startHbmInit k s = .done (jobBegin s (Reg.hbmInit k)) := by
  simp [startHbmInit, hp, hc, hj]

/-- A stack whose initialisation has passed is READY, and else in FAULT (R251). -/
def initConcluded (s : State) (k : Nat) (pass : Bool) : State :=
  let s := loadDelays s k
  if pass then startRefresh (setStack { s with hbm.lastUse := s.time } k 1) k else setStack s k 6

theorem hbmInitEnd_running {s : State} {k : Nat} (pass : Bool) (h : jobRunning s (Reg.hbmInit k) = true) : hbmInitEnd s k pass =
    stacksInitialised (raise (jobEnd (initConcluded s k pass) (Reg.hbmInit k) (if pass then 0 else 2)) (.hbm k) 5) := if_pos h

theorem stackState_initConcluded (s : State) {k : Nat} (hk : k < 4) (pass : Bool) :
    stackState (initConcluded s k pass) k = if pass then 1 else 6 := by
  cases pass with
  | false =>
    simp only [initConcluded, Bool.false_eq_true, if_false]
    exact stackState_setStack_self _ hk 6
  | true =>
    simp only [initConcluded, if_true]
    exact (reg_startRefresh _ k _).trans (stackState_setStack_self _ hk 1)

theorem dict_setStack (s : State) (k v : Nat) : (setStack s k v).dict = s.dict := (queuesKept_setStack s k v).dict

theorem dict_initConcluded (s : State) (k : Nat) (pass : Bool) : (initConcluded s k pass).dict = s.dict := by
  cases pass with
  | false =>
    simp only [initConcluded, Bool.false_eq_true, if_false]
    exact dict_setStack _ k 6
  | true =>
    simp only [initConcluded, if_true]
    exact (queuesKept_startRefresh [] _ k).dict.trans (dict_setStack _ k 1)

/-- The mark of start-up moves its phase alone of the entries, and no job (R483). -/
theorem frame_stacksInitialised (s : State) : (stacksInitialised s).dict = s.dict ∧
    ∀ e, e ≠ Reg.pwrStartupPhase → reg (stacksInitialised s) e = reg s e := by
  rw [stacksInitialised]
  split
  · exact ⟨rfl, fun e he => reg_setReg_ne s _ e 3 he⟩
  · exact ⟨rfl, fun _ _ => rfl⟩

theorem stackEntry_ne_startupPhase {i k : Nat} (hk : k < 4) (hi : 0x4100 ≤ i ∧ i ≤ 0x4171) :
    stackEntry i k ≠ Reg.pwrStartupPhase := by
  rw [stackEntry, keyIf_lt hk, Reg.pwrStartupPhase]
  exact key_ne_of_idx (by omega) (by omega) (by decide)

/-! ### Offline (R250, R251) -/

theorem startHbmOffline_drains {s : State} {k : Nat} (h : stackState s k = 1) : startHbmOffline k s = .done (setStack s k 2) := if_pos h

theorem startHbmOffline_refused {s : State} {k : Nat} (h : stackState s k ≠ 1) (h' : stackState s k ≠ 4) :
    startHbmOffline k s = .fail .refused := (if_neg h).trans (if_neg h')

/-- A stack with no page in use parks, and the job that drained it ends (R250). -/
def parked (s : State) (k : Nat) : State :=
  if jobRunning (setStack s k 3) (Reg.hbmOffline k) then raise (jobEnd (setStack s k 3) (Reg.hbmOffline k) 0) (.hbm k) 5 else setStack s k 3

theorem drained_parks {s : State} {k : Nat} (hk : k < 4) (h : stackState s k = 2) (hu : stackInUse s k = false) :
    drained s k = parked s k := if_pos ⟨hk, h, hu⟩

theorem stackState_parked (s : State) {k : Nat} (hk : k < 4) : stackState (parked s k) k = 3 := by
  have hstate := stackState_setStack_self s hk 3
  rw [parked]
  split
  · exact (reg_raise_hbm _ k 5 (i := 0x4101) hk (by decide) (.inl (by decide))).trans ((reg_jobEnd _ _ 0 _).trans hstate)
  · exact hstate

theorem jobCompleted_parked {s : State} {k : Nat} (h : jobRunning s (Reg.hbmOffline k) = true) :
    JobCompleted (parked s k) (Reg.hbmOffline k) 0 := by
  have hruns : jobRunning (setStack s k 3) (Reg.hbmOffline k) = true := by rwa [jobRunning, job_of_dict (dict_setStack s k 3)]
  have hend := jobCompleted_jobEnd hruns 0
  rw [parked, if_pos hruns]
  rwa [JobCompleted, ← job_raise _ (.hbm k) 5] at hend

end Sys2Proof.Machine

namespace Sys2Proof

open Machine

/-- The clause of a window that is judged (R240). -/
theorem hbmRateWindow_judges {s : State} (ht : timeNs s % 100000 = 0) (hw : s.hbm.windowAt < s.time)
    (hpin : reg s Reg.hbmRatePin = 0xFF) (hc : s.hbm.change = none) (hj : jobRunning s Reg.hbmCapture = false) :
    ∃ t, Answers .hbmRateWindow s t ∧ t.hbm.moved = 0 ∧ t.hbm.windowAt = s.time ∧
      (75 * rateCapacity (reg s Reg.hbmRate) < 100 * (s.hbm.moved * 80000) →
        t.hbm.change = if rateFor (s.hbm.moved * 80000) ≤ reg s Reg.hbmRate then none
          else some (rateFor (s.hbm.moved * 80000))) ∧
      (0 < reg s Reg.hbmRate → 100 * (s.hbm.moved * 80000) < 50 * rateCapacity (reg s Reg.hbmRate - 1) → 9 ≤ s.hbm.below →
        t.hbm.change = some (reg s Reg.hbmRate - 1)) := by
  obtain ⟨hmoved, hat⟩ := window_governRate (windowBegun s) (s.hbm.moved * 80000)
  have hrate : reg (windowBegun s) Reg.hbmRate = reg s Reg.hbmRate := rfl
  refine ⟨_, hbmRateWindow_governs ht hw hpin hc hj, hmoved, hat, fun hhigh => ?_, fun hr hlow hn => ?_⟩
  · rw [governRate_rises (s := windowBegun s) hhigh, change_beginRate, hrate]
    by_cases hle : rateFor (s.hbm.moved * 80000) ≤ reg s Reg.hbmRate
    · rw [Nat.max_eq_left hle, if_pos hle]
      exact (if_pos rfl).trans hc
    · rw [Nat.max_eq_right (Nat.le_of_not_le hle), if_neg hle]
      exact if_neg fun h => hle (Nat.le_of_eq h.symm)
  · rw [governRate_falls (s := windowBegun s) hr hlow hn, change_beginRate, hrate]
    exact if_neg fun h => Nat.ne_of_gt (Nat.sub_lt hr Nat.one_pos) h

/-- The clause of a rate change (R241). -/
theorem hbmRateChange_changes {s : State} {k r : Nat} (hk : k < 4) (hc : s.hbm.change = some r)
    (hp : ∀ p ∈ s.hbm.pcs, p.2.current = none) : ∃ t, Answers .hbmRateChange s t ∧ t.hbm.change = none ∧ reg t Reg.hbmRate = r ∧
      reg t Reg.hbmRateChanges = (reg s Reg.hbmRateChanges + 1) % 2 ^ 64 ∧
      (inService s k = true → bit (reg t (Reg.hbmCause k)) 4 = true) := by
  have hreported := queuesKept_rateReported (rateChanged s r)
  have hresumed := queuesKept_serviceResumed (rateReported (rateChanged s r))
  have hreg : ∀ e, sideEntry e = false → e ∉ stackEntries →
      reg (serviceResumed (rateReported (rateChanged s r))) e = reg (rateChanged s r) e := fun e hs he =>
    (hresumed.reg e hs List.not_mem_nil).trans (hreported.reg e hs he)
  refine ⟨_, exec_hbmRateChange hc hp, ?_, ?_, ?_, fun hserves => ?_⟩
  · rw [hresumed.hbm, hreported.hbm]
    exact change_rateChanged s r
  · rw [hreg _ (by decide) (by decide)]
    exact rate_rateChanged s r
  · rw [hreg _ (by decide) (by decide)]
    exact rateChanges_rateChanged s r
  · have hstate : stackState (rateChanged s r) k = stackState s k :=
      reg_rateChanged_of_ne s r (stackEntry_ne (i := 0x4101) (j := 0x4104) (l := 0) hk (by decide) (.inl (by decide)))
        (stackEntry_ne (i := 0x4101) (j := 0x4106) (l := 0) hk (by decide) (.inl (by decide)))
    rw [hresumed.reg (Reg.hbmCause k) (side_stackEntry hk (by decide)) List.not_mem_nil]
    exact bit_rateReported hk (by rwa [inService, hstate])

/-- The clause of a rate that is pinned (R240). -/
theorem hbmRatePin_begins {s : State} {c : Client} {v : Nat} (h : Permitted s c Reg.hbmRatePin v) (hv : v ≤ 2)
    (hc : s.hbm.change = none) (hj : jobRunning s Reg.hbmCapture = false) :
    ∃ t, Does (.hbmRatePinWrite c v) s c t ∧ reg t Reg.hbmRatePin = v ∧
      t.hbm.change = if reg s Reg.hbmRate = v then none else some v := by
  have hrate : reg (setReg s Reg.hbmRatePin v) Reg.hbmRate = reg s Reg.hbmRate := reg_setReg_ne s _ _ v (by decide)
  have hpin : reg (beginRate (setReg s Reg.hbmRatePin v) v) Reg.hbmRatePin = v := by
    rw [beginRate]
    split <;> exact reg_setReg_self s _ v
  refine ⟨_, congrArg Host.Outcome.next (permitted_does h (wHbmRatePin_begins hv hc hj)), hpin, ?_⟩
  rw [change_beginRate, hrate, setReg_hbm, hc]

/-- The clause of the end of an initialisation (R251). -/
theorem hbmInit_ends {s : State} {k : Nat} (hk : k < 4) (pass : Bool) (h : jobRunning s (Reg.hbmInit k) = true) :
    ∃ t, Answers (.hbmInit k .step pass) s t ∧ stackState t k = (if pass then 1 else 6) ∧
      JobCompleted t (Reg.hbmInit k) (if pass then 0 else 2) ∧ bit (reg t (Reg.hbmCause k)) 5 = true := by
  obtain ⟨hdict, hreg⟩ := frame_stacksInitialised
    (raise (jobEnd (initConcluded s k pass) (Reg.hbmInit k) (if pass then 0 else 2)) (.hbm k) 5)
  have hruns : jobRunning (initConcluded s k pass) (Reg.hbmInit k) = true := by rwa [jobRunning, job_of_dict (dict_initConcluded s k pass)]
  have hend := jobCompleted_jobEnd hruns (if pass then 0 else 2)
  refine ⟨_, congrArg Host.Outcome.next (hbmInitEnd_running pass h), ?_, ?_, ?_⟩
  · rw [← stackState_initConcluded s hk pass]
    exact (hreg _ (stackEntry_ne_startupPhase (i := 0x4101) hk (by decide))).trans
      ((reg_raise_hbm _ k 5 (i := 0x4101) hk (by decide) (.inl (by decide))).trans (reg_jobEnd _ _ _ _))
  · rwa [JobCompleted, job_of_dict hdict, job_raise]
  · rw [hreg (Reg.hbmCause k) (stackEntry_ne_startupPhase hk (by decide))]
    exact bit_raise_hbm _ hk 5

/-- The clause of the last sample of a capture (R245). -/
theorem hbmCapture_completes {s : State} {x : Nat} (v : Nat) (hj : jobRunning s Reg.hbmCapture = true)
    (hx : x = capStart s + (job s Reg.hbmCapture).phase * capStep s) (hlast : capStop s < x + capStep s) :
    ∃ t, Answers (.hbmCapture .step v) s t ∧ JobCompleted t Reg.hbmCapture 0 ∧
      blk t Reg.hbmCaptureResult = blk s Reg.hbmCaptureResult ++ byte x :: beBytes 5 (v % 2 ^ 36) ∧
      bit (reg t (Reg.hbmCause (capStack s))) 5 = true := by
  have hruns : jobRunning (sampleTaken s x v) Reg.hbmCapture = true := by rwa [jobRunning, job_sampleTaken]
  obtain ⟨hdone, hblocks, hbit⟩ := captureEnd_completes hruns
  refine ⟨_, congrArg Host.Outcome.next (captureStep_ends v hj hx hlast), hdone, ?_, hbit⟩
  rw [blk, hblocks]
  exact blk_setBlk_self _ _ _

/-- The clause of an idle Crock (R242). -/
theorem hbmIdleEnter_idles {s : State} {k : Nat} (hk : k < 4) (hen : flag s Reg.hbmIdleEnable = true) (hpages : s.mem.usedPages = [])
    (hquiet : s.hbm.lastUse + reg s Reg.hbmIdleUs * 1000 ≤ s.time) (hc : s.hbm.change = none)
    (hreqs : ∀ p ∈ s.hbm.pcs, p.2.reqs = []) (h : stackState s k = 1) :
    ∃ t, Answers .hbmIdleEnter s t ∧ stackState t k = 4 ∧ bit (reg t (Reg.hbmCause k)) 6 = true := by
  have hall : s.hbm.pcs.all (fun p => p.2.reqs.isEmpty) = true :=
    List.all_eq_true.2 fun p hp => List.isEmpty_iff.2 (hreqs p hp)
  exact ⟨idleEntered s, if_pos ⟨hen, hpages, hquiet, hc, hall⟩, idle_idleEntered hk h⟩

/-- Settles O29: a window is judged from a new one's start, a change of rate is reported in the stacks in service after it is counted,
and what ends a job of the Crock raises its cause beside a stack whose state it has set. -/
theorem hbmRatesAndStates : Obligations.HbmRatesAndStates := by
  unfold Obligations.HbmRatesAndStates
  refine fun s c k v _ hk => ⟨hbmRateWindow_judges, fun r => hbmRateChange_changes hk, hbmRatePin_begins, fun h hv hc => ?_,
    fun h hv hne hj => ?_, hbmRateWindow_held, hbmIdleEnter_idles hk, fun h hp hc => ?_, fun x => hbmCapture_completes v,
    fun h hp hc hj => ?_, fun pass => hbmInit_ends hk pass, fun h hready => ?_, fun h hready hidle => ?_, fun h hu => ?_⟩
  · exact congrArg Host.Outcome.next (permitted_refused h (wHbmRatePin_busy hv (.inl hc)))
  · exact congrArg Host.Outcome.next (permitted_refused h (wHbmRatePin_busy hv (.inr ⟨hne, hj⟩)))
  · exact congrArg Host.Outcome.next (mayStart_does h (startCapture_begins hp hc))
  · exact congrArg Host.Outcome.next (mayStart_does h (startHbmInit_begins hp hc hj))
  · exact congrArg Host.Outcome.next (mayStartWith_does h (startHbmOffline_drains hready))
  · exact congrArg Host.Outcome.next (mayStartWith_turnedAway h (startHbmOffline_refused hready hidle))
  · exact ⟨_, congrArg Host.Outcome.next (drained_parks hk h hu), stackState_parked s hk, jobCompleted_parked⟩

end Sys2Proof
end

section
/-! SUPPORT. What packet memory, flow control and the settlement of credit leave of the queues (ch. 11): the queues and their fan-out lines,
the references on their way out, the ledger's counts of copies, and the registers in which the queues report. -/

namespace Sys2Proof.Machine

variable {α : Type}

/-! ### The reports of the queues -/

/-- Whether an entry lies where the queues count and report: from `mc_pruned` to `qm_cause`, at subindex 0. -/
def isQueueReport (k : Nat) : Bool := decide (0x423000 ≤ k) && decide (k ≤ 0x426000) && k % 256 == 0

/-- What the queues' counts and causes read. -/
def queueReports (od : SMap Nat) (k : Nat) : Nat := if isQueueReport k then mget (odDefault k) od k else 0

/-- An entry of another index, or of a subindex, is no report of the queues. -/
theorem notReport_key {idx sub : Nat} (hs : sub < 256) (h : idx < 0x4230 ∨ 0x4260 < idx ∨ 0 < sub) :
    isQueueReport (key idx sub) = false := by
  simp only [isQueueReport, Bool.and_eq_false_iff, decide_eq_false_iff_not, beq_eq_false_iff_ne]
  simp only [key]
  omega

theorem notReport_keyIf {b : Bool} {idx sub : Nat} (h : b = true → sub < 256 ∧ (idx < 0x4230 ∨ 0x4260 < idx ∨ 0 < sub)) :
    isQueueReport (keyIf b (key idx sub)) = false := by
  cases b with
  | false => rfl
  | true => exact notReport_key (h rfl).1 (h rfl).2

/-- Events move no report of the queues on the side. -/
theorem side_of_isQueueReport {k : Nat} (h : isQueueReport k = true) : sideEntry k = false := by
  simp only [isQueueReport, Bool.and_eq_true, decide_eq_true_eq, beq_iff_eq] at h
  simp only [sideEntry, Bool.or_eq_false_iff, Bool.and_eq_false_iff, beq_eq_false_iff_ne, decide_eq_false_iff_not, Reg.obsCause,
    Reg.evtPulses, Reg.evtFwQueueHigh, Reg.evtFwQueueLost, Reg.ensRecordsDropped, Reg.ensPostcardsSuppressed]
  simp only [key]
  omega

@[simp] theorem notReport_portCause (p : Nat) : isQueueReport (Reg.portCause p) = false := notReport_keyIf (by simp)
@[simp] theorem notReport_dropTotal (r : Nat) : isQueueReport (Reg.dropTotal r) = false := notReport_keyIf (by simp; omega)
@[simp] theorem notReport_dropPort (p r : Nat) : isQueueReport (Reg.dropPort p r) = false := notReport_keyIf (by simp; omega)
@[simp] theorem notReport_dropUnattributed (r : Nat) : isQueueReport (Reg.dropUnattributed r) = false := notReport_keyIf (by simp; omega)
@[simp] theorem notReport_poolLeaked (n : Nat) : isQueueReport (Reg.poolLeaked n) = false := notReport_keyIf (by simp; omega)
@[simp] theorem notReport_poolWatermark (n : Nat) : isQueueReport (Reg.poolWatermark n) = false := notReport_keyIf (by simp; omega)
@[simp] theorem notReport_poolRebuilds (n : Nat) : isQueueReport (Reg.poolRebuilds n) = false := notReport_keyIf (by simp; omega)
@[simp] theorem notReport_intCorrected (c : Nat) : isQueueReport (Reg.intCorrected c) = false := notReport_keyIf (by simp; omega)
@[simp] theorem notReport_intUncorrectable (c : Nat) : isQueueReport (Reg.intUncorrectable c) = false := notReport_keyIf (by simp; omega)
@[simp] theorem notReport_pmCause : isQueueReport (CauseReg.key .pm) = false := by decide
@[simp] theorem notReport_intCause : isQueueReport (CauseReg.key .int) = false := by decide
@[simp] theorem notReport_causeOfPort (p : Nat) : isQueueReport (CauseReg.key (.port p)) = false := notReport_portCause p

/-- Storing any other entry leaves the reports as they were. -/
theorem queueReports_mset {k : Nat} (h : isQueueReport k = false) (od : SMap Nat) (v : Nat) :
    queueReports (mset (odDefault k) od k v) = queueReports od := by
  funext j
  simp only [queueReports]
  split
  · rename_i hj
    exact mget_default_ne _ _ od k j v (by rintro rfl; simp [h] at hj)
  · rfl

/-! ### The lines of a state -/

/-- What only arrivals, fan-out and dequeues move. -/
structure Lines where
  queues : SMap Queue
  fanout : SMap (List Nat)
  outs : SMap Out
  nextOut : Nat
  copies : Nat
  fannedOut : Nat
  reports : Nat → Nat

/-- The queues and fan-out lines of a state, the references on their way out, the counts of copies, and what the queues report. -/
def lines (s : State) : Lines := ⟨s.qm.queues, s.qm.fanout, s.outs, s.nextOut, s.led.aCopy, s.led.dFanout, queueReports s.od⟩

theorem queues_of_lines {s t : State} (h : lines t = lines s) : t.qm.queues = s.qm.queues := congrArg Lines.queues h
theorem fanout_of_lines {s t : State} (h : lines t = lines s) : t.qm.fanout = s.qm.fanout := congrArg Lines.fanout h
theorem outs_of_lines {s t : State} (h : lines t = lines s) : t.outs = s.outs := congrArg Lines.outs h
theorem nextOut_of_lines {s t : State} (h : lines t = lines s) : t.nextOut = s.nextOut := congrArg Lines.nextOut h
theorem copies_of_lines {s t : State} (h : lines t = lines s) : t.led.aCopy = s.led.aCopy := congrArg Lines.copies h
theorem fannedOut_of_lines {s t : State} (h : lines t = lines s) : t.led.dFanout = s.led.dFanout := congrArg Lines.fannedOut h

theorem queue_of_lines {s t : State} (h : lines t = lines s) (q : Nat) : queue t q = queue s q := by
  rw [queue, queues_of_lines h, queue]

theorem report_of_lines {s t : State} (h : lines t = lines s) {k : Nat} (hk : isQueueReport k = true) : reg t k = reg s k := by
  have hreport := congrFun (congrArg Lines.reports h) k
  simpa only [lines, queueReports, hk, if_true, reg] using hreport

@[simp] theorem lines_mk (od blocks pending time timeOffset freeCtr sent evt led obs pkts nextPkt outs nextOut ports lanes lmacs mem qm pwr
    host fl ft hbm integ ase dict cls lkp mtr fw clk io) :
    lines (State.mk od blocks pending time timeOffset freeCtr sent evt led obs pkts nextPkt outs nextOut ports lanes lmacs mem qm pwr
      host fl ft hbm integ ase dict cls lkp mtr fw clk io) =
      ⟨qm.queues, qm.fanout, outs, nextOut, led.aCopy, led.dFanout, queueReports od⟩ := (rfl)

@[simp] theorem lines_self (s : State) :
    Lines.mk s.qm.queues s.qm.fanout s.outs s.nextOut s.led.aCopy s.led.dFanout (queueReports s.od) = lines s := (rfl)

@[simp] theorem lines_ite (c : Prop) [Decidable c] (s t : State) : lines (if c then s else t) = if c then lines s else lines t :=
  apply_ite lines c s t

theorem lines_foldl_mem {f : State → α → State} {l : List α} (h : ∀ x ∈ l, ∀ s, lines (f s x) = lines s) (s : State) :
    lines (l.foldl f s) = lines s :=
  List.foldlRecOn l f (motive := fun t => lines t = lines s) rfl fun t ht x hx => (h x hx t).trans ht

@[simp] theorem lines_foldl {f : State → α → State} (h : ∀ s x, lines (f s x) = lines s) (l : List α) (s : State) :
    lines (l.foldl f s) = lines s := lines_foldl_mem (fun x _ s => h s x) s

/-- What events bring on the side leaves the lines as they were. -/
theorem lines_of_noted {ks : List Nat} {s t : State} (h : Noted ks s t) (hk : ∀ k ∈ ks, isQueueReport k = false) :
    lines t = lines s := by
  obtain ⟨heq, -, hreg⟩ := h
  have hreports : queueReports t.od = queueReports s.od := by
    funext k
    by_cases hj : isQueueReport k = true
    · have hread := hreg k (side_of_isQueueReport hj) fun hmem => by simp [hk k hmem] at hj
      simpa only [queueReports, hj, if_true, reg] using hread
    · simp [queueReports, hj]
  rw [heq, lines_mk, hreports, lines_self]

/-! ### Shared operations -/

@[simp] theorem lines_setReg {k : Nat} (h : isQueueReport k = false) (s : State) (v : Nat) : lines (setReg s k v) = lines s := by
  rw [setReg, lines_mk, queueReports_mset h, lines_self]

@[simp] theorem lines_countBy {k : Nat} (h : isQueueReport k = false) (s : State) (w n : Nat) : lines (countBy s w k n) = lines s :=
  lines_setReg h s _

@[simp] theorem lines_count1 {k : Nat} (h : isQueueReport k = false) (s : State) : lines (count1 s k) = lines s := lines_setReg h s _
@[simp] theorem lines_count32 {k : Nat} (h : isQueueReport k = false) (s : State) : lines (count32 s k) = lines s := lines_setReg h s _
@[simp] theorem lines_emit (s : State) (e : Emission) : lines (emit s e) = lines s := (rfl)
@[simp] theorem lines_freeBits (s : State) (w : Nat) : lines (freeBits s w).2 = lines s := (rfl)
@[simp] theorem lines_setPort (s : State) (p : Nat) (x : Port) : lines (setPort s p x) = lines s := (rfl)
@[simp] theorem lines_setPkt (s : State) (i : Nat) (p : Pkt) : lines (setPkt s i p) = lines s := (rfl)
@[simp] theorem lines_delPkt (s : State) (i : Nat) : lines (delPkt s i) = lines s := (rfl)

@[simp] theorem lines_raise {c : CauseReg} (h : isQueueReport c.key = false) (s : State) (b : Nat) : lines (raise s c b) = lines s :=
  lines_of_noted (noted_raise [c.key] s c b (.inl (by simp))) (by simpa using h)

@[simp] theorem lines_perfEvent (s : State) (code inst n : Nat) : lines (perfEvent s code inst n) = lines s :=
  lines_of_noted (noted_perfEvent [] s code inst n) (by simp)

@[simp] theorem lines_postcard (s : State) (r : Nat) (c : Card) : lines (postcard s r c) = lines s :=
  lines_of_noted (noted_postcard [] s r c) (by simp)

/-- A discard moves the ledger's counts of discards, and none of copies (R355, R359). -/
@[simp] theorem lines_discard (s : State) (r : Nat) (at? : Option Nat) (c : Card) : lines (discard s r at? c) = lines s := by
  have hcount : ∀ s, lines (dropCounted s r at?) = lines s := fun s => by cases at? <;> simp [dropCounted]
  have henter : ∀ s, lines (dropEntered s r) = lines s := fun s => by
    rw [dropEntered]
    split <;> rfl
  simp [discard_eq, hcount, henter]

/-! ### Protected words (ch. 20) -/

@[simp] theorem lines_setFlips (s : State) (cls unit idx n : Nat) : lines (setFlips s cls unit idx n) = lines s := (rfl)

@[simp] theorem lines_latchError (s : State) (cls kind unit idx : Nat) : lines (latchError s cls kind unit idx) = lines s :=
  lines_setReg (by decide) s _

@[simp] theorem lines_wordCorrected (s : State) (cls unit idx : Nat) : lines (wordCorrected s cls unit idx) = lines s := by
  simp [wordCorrected]

@[simp] theorem lines_wordLost (s : State) (cls unit idx : Nat) (poisoned : Bool) : lines (wordLost s cls unit idx poisoned) = lines s := by
  simp [wordLost]

@[simp] theorem lines_checkWord (s : State) (cls unit idx : Nat) : lines (checkWord s cls unit idx).2 = lines s := by simp [checkWord]
@[simp] theorem lines_injectFired (s : State) : lines (injectFired s) = lines s := by simp +decide [injectFired]

@[simp] theorem lines_wordsWritten (s : State) (cls unit : Nat) (idxs : List Nat) : lines (wordsWritten s cls unit idxs) = lines s := by
  simp only [wordsWritten]
  split <;> simp

/-! ### Packet memory and its pools (ch. 9) -/

@[simp] theorem lines_setUsed (s : State) (m u v : Nat) : lines (setUsed s m u v) = lines s := by simp [setUsed]
@[simp] theorem lines_setQuar (s : State) (m u : Nat) : lines (setQuar s m u) = lines s := by simp [setQuar]
@[simp] theorem lines_poolLowCheck (s : State) (n : Nat) : lines (poolLowCheck s n) = lines s := by simp [poolLowCheck]
@[simp] theorem lines_afterAlloc (s : State) (n : Nat) : lines (afterAlloc s n) = lines s := by simp [afterAlloc]
@[simp] theorem lines_ptrFault (s : State) (wh n p : Nat) : lines (ptrFault s wh n p) = lines s := by simp +decide [ptrFault]

@[simp] theorem lines_quarantinePtr (s : State) (m p : Nat) : lines (quarantinePtr s m p) = lines s := by
  simp only [quarantinePtr]
  split
  · split <;> simp
  · rfl

@[simp] theorem lines_setSkim (s : State) (n h t c : Nat) : lines (setSkim s n h t c) = lines s := (rfl)
@[simp] theorem lines_potWrite (s : State) (a : Nat) (b : List Byte) : lines (potWrite s a b) = lines s := by simp [potWrite]
@[simp] theorem lines_setLinkWord (s : State) (c w : Nat) : lines (setLinkWord s c w) = lines s := lines_potWrite s _ _

@[simp] theorem lines_ladleAlloc (s : State) (n : Nat) : lines ((ladleAlloc s n).stateD s) = lines s := by
  simp only [ladleAlloc]
  repeat' split
  all_goals simp

@[simp] theorem lines_skimAlloc (s : State) (n : Nat) : lines ((skimAlloc s n).stateD s) = lines s := by
  simp only [skimAlloc]
  repeat' split
  all_goals simp

@[simp] theorem lines_storeAlloc (s : State) (n : Nat) : lines ((storeAlloc s n).stateD s) = lines s := by
  rw [storeAlloc]
  split <;> simp

@[simp] theorem lines_leakUnits (s : State) (m : Nat) (l : List Nat) : lines (leakUnits s m l) = lines s := by
  refine lines_foldl (fun s u => ?_) l s
  split <;> simp

@[simp] theorem lines_readBitmap (s : State) (m u : Nat) : lines (readBitmap s m u) = lines s := by simp [readBitmap]

/-- Taking a unit moves nothing of the queues, whatever it comes to. -/
theorem lines_of_allocUnit {s : State} {n : Nat} {x : Alloc} (h : allocUnit s n = x) : lines (x.stateD s) = lines s := by
  subst h
  have hs := lines_storeAlloc s n
  rw [allocUnit]
  split
  · exact hs
  · split
    · rename_i u _ _
      have hr := lines_storeAlloc (readBitmap s (plMemory s n) u) n
      cases hb : storeAlloc (readBitmap s (plMemory s n) u) n <;> simp_all
    · exact hs

@[simp] theorem lines_freeUnit (s : State) (m u : Nat) : lines (freeUnit s m u) = lines s := by
  rw [freeUnit]
  split <;> simp

@[simp] theorem lines_freeUnits (s : State) (m : Nat) (l : List Nat) : lines (freeUnits s m l) = lines s := by simp [freeUnits]

@[simp] theorem lines_writeCells (s : State) (l : List Nat) (b : List Byte) : lines (writeCells s l b) = lines s := by
  induction l generalizing s b with
  | nil => rfl
  | cons c r ih => simp [writeCells, ih]

theorem lines_takeUnits (k : Nat) (s : State) (n : Nat) (acc : List Nat) : lines (takeUnits k s n acc).state = lines s := by
  induction k generalizing s acc with
  | zero => rfl
  | succ k ih =>
    rw [takeUnits]
    cases ha : allocUnit s n with
    | unit u t => exact (ih t _).trans (lines_of_allocUnit ha)
    | empty => exact lines_freeUnits s _ acc
    | fault t => exact (lines_freeUnits t _ acc).trans (lines_of_allocUnit ha)

theorem lines_of_allocMixed {s : State} {n : Nat} {x : Alloc} (h : allocMixed s n = x) : lines (x.stateD s) = lines s := by
  rw [allocMixed] at h
  cases ha : allocUnit s n <;> rw [ha] at h
  · exact lines_of_allocUnit (ha.trans h)
  · exact lines_of_allocUnit h
  · exact lines_of_allocUnit (ha.trans h)

theorem lines_takeMixed (k : Nat) (s : State) (n : Nat) (acc : List Nat) : lines (takeMixed k s n acc).state = lines s := by
  induction k generalizing s acc with
  | zero => rfl
  | succ k ih =>
    rw [takeMixed_succ]
    cases ha : allocMixed s n with
    | unit u t => exact (ih t _).trans (lines_of_allocMixed ha)
    | empty => exact lines_freeUnits s _ acc
    | fault t => exact (lines_freeUnits t _ acc).trans (lines_of_allocMixed ha)

theorem lines_takeFor (s : State) (p : Pkt) (n : Nat) : lines (takeFor s p n).state = lines s := by
  rw [takeFor]
  split
  · exact lines_takeMixed n s _ []
  · exact lines_takeUnits n s _ []

/-- A packet's supply of cells moves nothing of the queues (R208, R220). -/
theorem lines_takeUpTo (s : State) (p : Pkt) (n : Nat) : lines (takeUpTo s p n).state = lines s := by
  have hfor := lines_takeFor s p (n - p.cells.length)
  rw [takeUpTo]
  split
  · exact lines_freeUnits s 0 _
  · cases ht : takeFor s p (n - p.cells.length) <;> rwa [ht] at hfor

/-! ### Flow control (R71, R224) -/

theorem lines_mainCount (s : State) (p n : Nat) {sub : Nat} (h : 0 < sub) (h' : sub < 256) : lines (mainCount s p sub n) = lines s :=
  lines_countBy (notReport_key h' (.inr (.inr h))) s 64 n

theorem lines_fbCount (s : State) (p n : Nat) {sub : Nat} (h : 0 < sub) (h' : sub < 256) : lines (fbCount s p sub n) = lines s := by
  simp [fbCount, notReport_key h' (.inr (.inr h))]

theorem lines_fbTxSize (s : State) (p : Nat) (f : List Byte) : lines (fbTxSize s p f) = lines s := by
  have hb := sizeBin_le f.length
  have ha := addrClass_le f
  simp only [fbTxSize, lines_perfEvent, lines_ite]
  rw [lines_fbCount _ p 1 (sub := 0xA5 + sizeBin f.length) (by omega) (by omega),
    lines_fbCount _ p 1 (sub := 0xA2 + addrClass f) (by omega) (by omega), lines_fbCount _ p 1 (by decide) (by decide),
    lines_fbCount _ p f.length (by decide) (by decide), ite_self]

@[simp] theorem lines_sendControl (s : State) (p : Nat) (f : List Byte) : lines (sendControl s p f) = lines s := by
  have hfold : ∀ s : State, lines ((bitList 8 (beAt f 16 2)).foldl (fun s i => fbCount s p (0xB0 + i) 1) s) = lines s :=
    lines_foldl_mem fun i hi s => by
      have hpriority : i < 8 := List.mem_range.1 (List.mem_filter.1 hi).1
      exact lines_fbCount s p 1 (by omega) (by omega)
  simp only [sendControl, lines_emit, lines_ite, hfold]
  rw [lines_fbCount _ p 1 (by decide) (by decide), lines_mainCount _ p 1 (by decide) (by decide), lines_fbTxSize, ite_self]

@[simp] theorem lines_queueControl (s : State) (p : Nat) (pfc : Bool) (vec time : Nat) :
    lines (queueControl s p pfc vec time) = lines s := by
  simp only [queueControl]
  split
  · rfl
  · split <;> simp

@[simp] theorem lines_sendXoff (s : State) (p i : Nat) (on : Bool) : lines (sendXoff s p i on) = lines s := by simp [sendXoff]
@[simp] theorem lines_thresholdStep (s : State) (p i n : Nat) : lines (thresholdStep s p i n) = lines s := by simp [thresholdStep]
@[simp] theorem lines_fcCheck (s : State) (p : Nat) : lines (fcCheck s p) = lines s := by simp [fcCheck]

@[simp] theorem lines_fcCheckOf (s : State) (p : Pkt) : lines (fcCheckOf s p) = lines s := by
  rw [fcCheckOf]
  split <;> simp

/-! ### Packets that leave (R215, R346) -/

@[simp] theorem lines_creditBack (s : State) (i : Nat) : lines (creditBack s i) = lines s := by
  rw [creditBack]
  split
  · exact (lines_ite _ _ s).trans (ite_self _)
  · rfl

@[simp] theorem lines_leaveArrival (s : State) (p : Pkt) : lines (leaveArrival s p) = lines s := by
  rw [leaveArrival]
  split <;> rfl

@[simp] theorem lines_dueKnown (s : State) (i : Nat) (p : Pkt) : lines (dueKnown s i p) = lines s := (rfl)

@[simp] theorem lines_freePkt (s : State) (i : Nat) : lines (freePkt s i) = lines s := by
  rw [freePkt]
  split <;> simp

end Sys2Proof.Machine
end

section
/-! SUPPORT. What follows a change of the bound VOQs (R280, R345): their records and the entries gathered for the fabric, and nothing
else. -/

namespace Sys2Proof.Machine

/-- A request writes the VOQ's record and the entries that wait for its destination (R345). -/
theorem requestUnits_eq (s : State) (q : Nat) :
    requestUnits s q = { s with qm.voqs := (requestUnits s q).qm.voqs, ft := (requestUnits s q).ft } := by
  simp only [requestUnits]
  split <;> rfl

/-- The timers and requests of the VOQs write their records and the entries that wait for destinations. -/
theorem touchVoqs_eq (s : State) : touchVoqs s = { s with qm.voqs := (touchVoqs s).qm.voqs, ft := (touchVoqs s).ft } := by
  refine List.foldlRecOn (boundVoqs s) _
    (motive := fun t : State => t = { s with qm.voqs := t.qm.voqs, ft := t.ft }) rfl fun t ht q _ => ?_
  rw [requestUnits_eq, ht]

@[simp] theorem lines_touchVoqs (s : State) : lines (touchVoqs s) = lines s := by rw [touchVoqs_eq, lines_mk, lines_self]

@[simp] theorem node_touchVoqs (s : State) (k : Nat) : node (touchVoqs s) k = node s k := by
  rw [touchVoqs_eq]
  rfl

@[simp] theorem due_touchVoqs (s : State) : (touchVoqs s).qm.due = s.qm.due := by rw [touchVoqs_eq]

/-- With no VOQ bound there is nothing to follow. -/
theorem touchVoqs_unbound {s : State} (h : boundVoqs s = []) : touchVoqs s = s := by
  rw [touchVoqs, h]
  rfl

end Sys2Proof.Machine
end

section
/-! SUPPORT. The records of `qm_load` and `sch_config` (R256, R262, R275, R283): what each leaves in the tables of the queues. -/

namespace Sys2Proof.Machine

/-! ### The words of a node (R262) -/

/-- A node reads as what replaced it. -/
@[simp] theorem node_setNode_self (s : State) (k : Nat) (x : Node) : node (setNode s k x) k = x := mget_mset_self _ _ _ _

/-- Raising a cause moves nothing of the queues' tables (R380). -/
@[simp] theorem qm_raise (s : State) (c : CauseReg) (b : Nat) : (raise s c b).qm = s.qm := by
  rw [(noted_raise [c.key] s c b (.inl (by simp))).1]

/-- Words put in place stand, whether or not the node moves with them (R270). -/
theorem words_putWords (s : State) (k w qw : Nat) :
    (node (putWords s k w qw) k).word = w ∧ (node (putWords s k w qw) k).qword = qw := by
  simp only [putWords]
  split <;> rw [node_setNode_self] <;> exact ⟨rfl, rfl⟩

/-- The queue word that a write leaves: the binding of a VOQ is the device's own (R262). -/
def queueWord (s : State) (k : Nat) : Option Nat → Nat
  | none => (node s k).qword
  | some x => setBits x 46 13 (bits (node s k).qword 46 13)

/-- Words that are taken leave the tables as they are put in place, whatever is reported (R262, R279). -/
theorem qm_writeWords {s : State} {k w : Nat} {qw? : Option Nat} (h : (writeWords s k w qw?).1 = 0) :
    (writeWords s k w qw?).2.qm =
      (putWords s k (setBits (setBits w 126 124 (nodeKind k)) 126 124 0) (queueWord s k qw?)).qm := by
  have hraise : ∀ (c : Prop) [Decidable c] (t : State), (if c then raise t .qm 2 else t).qm = t.qm := fun c _ t => by
    split
    · exact qm_raise t .qm 2
    · rfl
  cases qw? <;>
  · simp only [writeWords, code_eq_zero_iff, ne_eq, resRefused, resMalformed, resRange, OfNat.ofNat_ne_zero, not_false_eq_true] at h
    obtain ⟨hsound, hbits, hweight, hparent, hshaper, htype, hbound, hplace, hmap, -⟩ := h
    simp only [writeWords, if_neg hsound, if_neg hbits, if_neg hweight, if_neg hparent, if_neg hshaper, if_neg htype, if_neg hbound,
      if_neg hplace, if_neg hmap]
    exact hraise _ _

/-! ### The rules of the records (R283) -/

section
variable {s : State} {r : List Byte} (h : (applyQm s r).1 = 0)
include h

/-- A record that is applied has no reserved bit set in its head (R283). -/
theorem head_of_applied : ¬ (!zeroBytes r 1 3) = true := by
  rw [applyQm, code_eq_zero_iff (by decide)] at h
  exact h.1

theorem applyQm_node (hop : byteAt r 0 = 1) : applyQm s r = writeWords s (refNode (beAt r 4 4)) (beAt r 8 16) none := by
  have hhead := head_of_applied h
  simp only [applyQm, if_neg hhead, hop, code_eq_zero_iff, ne_eq, resMalformed, OfNat.ofNat_ne_zero, not_false_eq_true] at h ⊢
  obtain ⟨htail, hwords⟩ := h
  rw [if_neg htail]
  by_cases href : refCheck (beAt r 4 4) = 0
  · exact if_neg (not_not.2 href)
  · rw [if_pos href] at hwords
    exact absurd hwords href

theorem applyQm_queue (hop : byteAt r 0 = 2) :
    applyQm s r = writeWords s (nodeKey 3 (beAt r 4 4)) (beAt r 8 16) (some (beAt r 24 8)) := by
  have hhead := head_of_applied h
  simp only [applyQm, if_neg hhead, hop, code_eq_zero_iff, ne_eq, resRange, OfNat.ofNat_ne_zero, not_false_eq_true] at h ⊢
  exact if_neg h.1

theorem applyQm_classMap (hop : byteAt r 0 = 3) : (applyQm s r).2 =
    { s with qm.classMap := mset 0 s.qm.classMap (beAt r 4 2 * 8 + byteAt r 6) (beAt r 8 4) } := by
  have hhead := head_of_applied h
  simp only [applyQm, if_neg hhead, hop, writeClassMap, code_eq_zero_iff, ne_eq, resMalformed, resRange, resRefused,
    OfNat.ofNat_ne_zero, not_false_eq_true] at h ⊢
  obtain ⟨htail, hword, hrange, hqueue, -⟩ := h
  rw [if_neg htail, if_neg hword, if_neg hrange, if_neg hqueue]

theorem applyQm_group (hop : byteAt r 0 = 4) :
    (applyQm s r).2 = { s with qm.groups := mset 0 s.qm.groups (beAt r 4 4) (beAt r 8 8) } := by
  have hhead := head_of_applied h
  simp only [applyQm, if_neg hhead, hop, writeGroup, code_eq_zero_iff, ne_eq, resMalformed, resRange, OfNat.ofNat_ne_zero,
    not_false_eq_true] at h ⊢
  obtain ⟨htail, hword, hrange, -⟩ := h
  rw [if_neg htail, if_neg hword, if_neg hrange]

/-- A record of one target stores its word (R275). -/
theorem applyQm_target (hop : byteAt r 0 = 5) (hone : byteAt r 8 = 1) :
    (applyQm s r).2 = { s with qm.targets := mset 0 s.qm.targets (beAt r 4 4) (beAt r 12 4) } := by
  have hhead := head_of_applied h
  simp only [applyQm, if_neg hhead, hop, hone, writeTargets, code_eq_zero_iff, ne_eq, resMalformed, resRange, OfNat.ofNat_ne_zero,
    not_false_eq_true] at h ⊢
  obtain ⟨htail, hword, hrange, -⟩ := h
  rw [if_neg htail, if_neg hword, if_neg hrange]
  rfl

end

/-! ### A record taken by its command (R154, R283) -/

/-- The record is taken, and the tables of the queues are as its rule leaves them. -/
theorem qm_takeRecord {s : State} {j : LoadJob} {r : List Byte} {apply : State → List Byte → Nat × State}
    (hr : nextRecord s j = some r) (hc : (apply s r).1 = 0) : (takeRecord s j apply).qm = (apply s r).2.qm := by
  simp only [takeRecord, hr, hc, if_true]
  rfl

/-- The command of an op applies the next record, when it is of that op: the record counts, and its tables stand. -/
theorem qmRecord_answers {c : Instr} {s : State} {r : List Byte} {op : Nat} {P : State → Prop} (hr : nextRecord s qmJob = some r)
    (hop : byteAt r 0 = op) (hexec : exec c s = .next (takeOp s qmJob [op] applyQm)) (hc : (applyQm s r).1 = 0)
    (hP : ∀ t, t.qm = (applyQm s r).2.qm → P t) : ∃ t, Answers c s t ∧ RecordTaken qmJob s t ∧ P t := by
  have htake : takeOp s qmJob [op] applyQm = takeRecord s qmJob applyQm := by simp [takeOp, nextOp, hr, hop]
  rw [htake] at hexec
  exact ⟨_, hexec, recordTaken_takeRecord (by decide) hr hc (standing_applyQm s r), hP _ (qm_takeRecord hr hc)⟩

/-- The words of a node as they are in the tables. -/
theorem words_of_applied {s t : State} {k w : Nat} {qw? : Option Nat} (h : (writeWords s k w qw?).1 = 0)
    (ht : t.qm = (writeWords s k w qw?).2.qm) :
    (node t k).word = setBits (setBits w 126 124 (nodeKind k)) 126 124 0 ∧ (node t k).qword = queueWord s k qw? := by
  rw [node, ht, qm_writeWords h]
  exact words_putWords s k _ _

/-! ### `sch_config` (R270) -/

/-- Words that may stand at the selected node are taken. -/
theorem wSchConfig_takes {s : State} {b : List Byte} (hb : b.length = 16) (h : (writeWords s (selectedNode s) (beAt b 0 16) none).1 = 0) :
    wSchConfig b s = .done (writeWords s (selectedNode s) (beAt b 0 16) none).2 := by
  simp [wSchConfig, hb, h]

/-- A queue word is refused where the selected node is no queue. -/
theorem wSchConfig_refused {s : State} {b : List Byte} (hb : b.length = 24) (h : nodeKind (selectedNode s) ≠ 3) :
    wSchConfig b s = .fail .refused := by
  simp [wSchConfig, hb, h]

end Sys2Proof.Machine

namespace Sys2Proof

open Machine

/-- Settles O27: a record that is applied goes by the rule of its op, whose words stand in their table, and `sch_config` by the rule that
writes a node's words. -/
theorem queueRecords : Obligations.QueueRecords := by
  unfold Obligations.QueueRecords
  refine fun s c r b _ => ⟨fun hr hc => ⟨fun hop => ?_, fun hop => ?_, fun hop => ?_, fun hop => ?_, fun hop hone => ?_⟩,
    fun h hb hc => ?_, fun h hb hk => ?_⟩
  · have hrule := applyQm_node hc hop
    rw [hrule] at hc
    exact qmRecord_answers hr hop rfl (hrule ▸ hc) fun t ht => (words_of_applied hc (hrule ▸ ht)).1
  · have hrule := applyQm_queue hc hop
    rw [hrule] at hc
    exact qmRecord_answers hr hop rfl (hrule ▸ hc) fun t ht => (words_of_applied hc (hrule ▸ ht)).2
  · refine qmRecord_answers hr hop rfl hc fun t ht => ?_
    rw [ht, applyQm_classMap hc hop]
    exact mget_mset_self _ _ _ _
  · refine qmRecord_answers hr hop rfl hc fun t ht => ?_
    rw [ht, applyQm_group hc hop]
    exact mget_mset_self _ _ _ _
  · refine qmRecord_answers hr hop rfl hc fun t ht => ?_
    rw [ht, applyQm_target hc hop hone]
    exact mget_mset_self _ _ _ _
  · have hdone := commitRow_done s _ c Reg.schConfig (wSchConfig b) h (wSchConfig_takes hb hc)
    exact ⟨_, congrArg Host.Outcome.next hdone, (words_of_applied hc rfl).1⟩
  · exact congrArg Host.Outcome.next (commitRow_ruleFailed s c _ _ _ h (wSchConfig_refused hb hk))

end Sys2Proof
end

section
/-! SUPPORT. Shapers and idle VOQs (R267, R269, R280). -/

namespace Sys2Proof.Machine

/-! ### Refills (R267) -/

/-- A shaper whose written rate is 0 goes off, with its tokens as they were (R267). -/
theorem refillShaper_off {s : State} {k : Nat} (period : Nat) (h : snRate (node s k).word = 0) :
    (node (refillShaper s k period) k).shRate = 0 ∧ (node (refillShaper s k period) k).tok = (node s k).tok := by
  simp only [refillShaper, h, if_true, node_setNode_self, and_self]

/-- A shaper takes its written values and its tokens, all of them when it was off (R267). -/
theorem refillShaper_on {s : State} {k : Nat} (period : Nat) (h : snRate (node s k).word ≠ 0) :
    node (refillShaper s k period) k = { node s k with
      shRate := snRate (node s k).word, shBurst := snBurst (node s k).word, shOvh := snOvh (node s k).word,
      tok := if (node s k).shRate = 0 then ((snBurst (node s k).word * 2 ^ 32 : Nat) : Int)
        else min ((node s k).tok + (snRate (node s k).word * period : Nat)) ((snBurst (node s k).word * 2 ^ 32 : Nat) : Int) } := by
  simp only [refillShaper, h, if_false, node_setNode_self, beq_iff_eq]

/-- At its instant a shaper is refilled while the arrays are sound (R267, R282). -/
theorem shaperRefill_refills {s : State} {kind index : Nat} (h : Sound s) (hi : index < kindCount kind)
    (hr : refillInstant s (nodeKey kind index) = true) :
    Answers (.shaperRefill kind index) s (refillShaper s (nodeKey kind index) ((refillPeriod kind).getD 0)) := by
  change execShaperRefill kind index s = _
  simp [execShaperRefill, hi, hr, residueArmed_of_sound h]

/-! ### Corrections (R269) -/

/-- The difference of a charge comes back to a shaper that is on, no more of it than the burst either way (R269). -/
theorem tok_correctShaper {s : State} {k : Nat} (lfEst lf : Nat) (h : (node s k).shRate ≠ 0) :
    (node (correctShaper s k lfEst lf) k).tok = min ((node s k).tok + max (-(((node s k).shBurst * 2 ^ 32 : Nat) : Int))
      (min (((lfEst : Int) - lf) * 2 ^ 32) (((node s k).shBurst * 2 ^ 32 : Nat) : Int))) (((node s k).shBurst * 2 ^ 32 : Nat) : Int) := by
  simp only [correctShaper, h, if_false, node_setNode_self]

theorem due_correctShaper (s : State) (k lfEst lf : Nat) : (correctShaper s k lfEst lf).qm.due = s.qm.due := by
  simp only [correctShaper]
  split <;> rfl

/-- The one correction that is due is made once its packet is whole (R269). -/
theorem shaperCorrection_corrects {s : State} {i k : Nat} {p : Pkt} {d : ShaperDue} (h : Sound s) (hp : pkt? s i = some p)
    (hended : p.ended = true) (hdue : s.qm.due = [d]) (hi : d.pkt = i) (hknown : d.known = none) (hpath : d.path = [k])
    (hvoq : d.voq = none) :
    Answers (.shaperCorrection i) s (touchVoqs (correctShaper { s with qm.due := [] } k d.lf (chargedLen p))) := by
  have hlen : dueLen s d = some (chargedLen p, p.len.getD 0) := by simp [dueLen, hknown, hi, hp, hended]
  have harmed : residueArmed { s with qm.due := [] } 4 = false := residueArmed_of_sound (s := { s with qm.due := [] }) h 4
  change execShaperCorrection i s = _
  simp [execShaperCorrection, hdue, hi, hlen, harmed, correctDue, hpath, hvoq]

/-! ### Release (R280) -/

/-- An idle VOQ is released at a tick of TIME's microseconds (R280). -/
theorem voqIdleRelease_releases {s : State} {q a : Nat} (ha : (mget {} s.qm.voqs q).idleSince = some a)
    (hbound : voqBound (qWord s q) = true) (htype : qType s q = 3) (hidle : voqIdle s q = true) (htick : timeNs s % 1000 = 0)
    (hms : reg s Reg.voqIdleMs * 1000 ≤ s.time / 1000 - a / 1000) : Answers (.voqIdleRelease q) s (releaseVoq s q) := by
  change execVoqIdleRelease q s = _
  rw [execVoqIdleRelease, ha]
  exact if_pos ⟨hbound, htype, hidle, htick, hms⟩

/-- A released VOQ has no record, and its queue word names no triple (R280). -/
theorem releaseVoq_frees (s : State) (q : Nat) : mfind (releaseVoq s q).qm.voqs q = none ∧
    qWord (releaseVoq s q) q = setBits (qWord s q) 46 13 0 ∧
    reg (releaseVoq s q) Reg.voqReleases = (reg s Reg.voqReleases + 1) % 2 ^ 64 := by
  refine ⟨mfind_mdel_self _ _, ?_, reg_setReg_self _ _ _⟩
  exact congrArg Node.qword (node_setNode_self s (nodeKey 3 q) { node s (nodeKey 3 q) with qword := setBits (qWord s q) 46 13 0 })

end Sys2Proof.Machine

namespace Sys2Proof

open Machine

/-- Settles O26: a refill and a correction write the record of a node alone, and what follows a change of the bound VOQs leaves it. -/
theorem shapersAndVoqRelease : Obligations.ShapersAndVoqRelease := by
  unfold Obligations.ShapersAndVoqRelease
  refine fun s kind index q _ hs => ⟨fun hi hr => ⟨_, shaperRefill_refills hs hi hr, ?_⟩,
    fun i p d k hp hended hdue hi hknown hpath hvoq hrate =>
      ⟨_, shaperCorrection_corrects hs hp hended hdue hi hknown hpath hvoq, ?_, ?_⟩,
    fun a ha hbound htype hidle htick hms => ⟨_, voqIdleRelease_releases ha hbound htype hidle htick hms, releaseVoq_frees s q⟩⟩
  · rintro x rfl
    exact ⟨refillShaper_off _, refillShaper_on _⟩
  · rw [due_touchVoqs, due_correctShaper]
  · rw [node_touchVoqs]
    exact tok_correctShaper (s := { s with qm.due := [] }) d.lf (chargedLen p) hrate

end Sys2Proof
end

section
/-! SUPPORT. Fan-out (R275, R276) and dequeues (R265, R266) while the arrays are sound. -/

namespace Sys2Proof.Machine

/-! ### Fan-out (R276) -/

/-- The oldest descriptor has left its fan-out line. -/
def fanoutTaken (s : State) (n : Nat) (rest : List Nat) : State := queueLeft { s with qm.fanout := mset [] s.qm.fanout n rest }

/-- Whether a target is pruned looks at its word and the packet's port alone (R276). -/
theorem pruned_congr {s : State} (t : State) {p : Pkt} {w : Nat} (h : mcTarget s p w = none) : mcTarget t p w = none := by
  simp only [mcTarget] at h ⊢
  split at h
  · exact if_pos ‹_›
  · cases h

theorem length_rangeFrom (a n : Nat) : (rangeFrom a n).length = n := by simp [rangeFrom]

section
variable {s : State} {n i g : Nat} {rest : List Nat} {p : Pkt} (hline : mget [] s.qm.fanout n = i :: rest) (hp : pkt? s i = some p)
  (hg : mget 0 s.qm.groups (dMcGroup p.desc) = g)
include hline hp hg

/-- A descriptor of a group that is not valid is discarded and counted (R276). -/
theorem fanOut_invalid (hgroup : mgValid g = false) {u : State} (hu : u = count1 (fanoutTaken s n rest) Reg.mcEmptyGroup) :
    fanOut s n = freePkt (creditBack (discard u 63 (arrivalPort p) (pktCard u p none)) i) i := by
  subst hu
  have hp' : pkt? { s with qm.fanout := mset [] s.qm.fanout n rest } i = some p := hp
  simp only [fanOut, hline, hp', queueLeft, hg, hgroup, Bool.not_false, Bool.true_or, if_true]
  rfl

/-- Where every target is pruned and no other copy is asked for, the pruned targets are counted and the packet goes (R276). -/
theorem fanOut_pruned (hgroup : mgValid g = true) (hcount : 0 < mgCount g) (hfabric : mgFabric g = false) (hmirror : dMirror p.desc = 0)
    (hhost : dHostCopy p.desc = false)
    (hpruned : ∀ x ∈ rangeFrom (mgBase g) (mgCount g), mcTarget s p (mget 0 s.qm.targets x) = none) :
    fanOut s n = freePkt (countBy { fanoutTaken s n rest with led.dFanout := s.led.dFanout + 1 } 64 Reg.mcPruned (mgCount g)) i := by
  have hp' : pkt? { s with qm.fanout := mset [] s.qm.fanout n rest } i = some p := hp
  have htargets : ∀ t : State,
      ((rangeFrom (mgBase g) (mgCount g)).map (fun x => mget 0 s.qm.targets x)).filterMap (mcTarget t p) = [] := fun t => by
    rw [List.filterMap_eq_nil_iff]
    intro w hw
    obtain ⟨x, hx, rfl⟩ := List.mem_map.1 hw
    exact pruned_congr t (hpruned x hx)
  have hsome : (mgCount g == 0) = false := by simpa using Nat.ne_of_gt hcount
  simp only [fanOut, hline, hp', queueLeft, hg, hgroup, hfabric, hsome, htargets, ingressMirror, hmirror, hostTarget, hhost,
    List.length_map, length_rangeFrom, Bool.not_true, Bool.false_and, Bool.or_false, Bool.false_eq_true, if_true, if_false]
  rfl

end

/-! ### Sound state of queues and nodes (R492) -/

/-- Sound arrays hold no bad word of any class. -/
theorem badWords_of_sound {s : State} (h : Sound s) (cls : Nat) : badWords s cls = [] := by
  obtain ⟨hbad, -⟩ := h
  rw [badWords, hbad]
  rfl

/-- A read of the state of a queue or node of sound arrays leaves everything as it was. -/
theorem readState_of_sound {s : State} (h : Sound s) (k : Nat) : readState s k = s := by
  simp [readState, badWords_of_sound h]

theorem foldl_readState_of_sound {s : State} (h : Sound s) (path : List Nat) : path.foldl readState s = s := by
  induction path with
  | nil => rfl
  | cons k path ih => rw [List.foldl_cons, readState_of_sound h, ih]

/-! ### Dequeues (R265, R266) -/

@[simp] theorem lines_setNode (s : State) (k : Nat) (x : Node) : lines (setNode s k x) = lines s := (rfl)

@[simp] theorem lines_chargePath (s : State) (path : List Nat) (lf : Nat) : lines (chargePath s path lf) = lines s := by
  simp [chargePath, chargeShaper]

/-- The head of a queue taken out, its path charged, a VOQ's balance taken down, and a correction due where the length is an estimate
(R265, R269, R345). -/
def headCharged (s : State) (q : Nat) (path : List Nat) (r : Ref) (p : Pkt) : State :=
  let s := perfEvent (chargePath (popHead s q) path (chargedLen p)) 0x41 (qmsOf q) (judgedLen p)
  let s := if qType s q = 3 && voqDevice (qWord s q) != 0xFFFFF then
      { s with qm.voqs := mset {} s.qm.voqs q { mget {} s.qm.voqs q with b := (mget {} s.qm.voqs q).b - creditCharge p } }
    else s
  if p.len.isNone then
    { s with qm.due := s.qm.due ++ [{ pkt := r.pkt, lf := chargedLen p, path := path, voq := if qType s q = 3 then some q else none }] }
  else s

/-- What goes out for a dequeued reference (R266). -/
def outOf (q root : Nat) (path : List Nat) (r : Ref) (p : Pkt) : Out :=
  { ref := r, queue := q, root := root, lf := chargedLen p, lfKnown := p.len.isSome, path := path }

/-- Of the queues only the head has moved. -/
theorem lines_headCharged (s : State) (q : Nat) (path : List Nat) (r : Ref) (p : Pkt) :
    lines (headCharged s q path r p) = lines (popHead s q) := by
  simp [headCharged]

theorem queue_setQueue_self (s : State) (q : Nat) (x : Queue) : queue (setQueue s q x) q = x := mget_mset_self _ _ _ _

/-- The head of a Stockpot part leaves with its charge (R217). -/
theorem queue_popHead {s : State} {q : Nat} {r : Ref} {rest : List Ref} (h : (queue s q).refs = r :: rest) :
    queue (popHead s q) q = { queue s q with refs := rest, qs := (queue s q).qs - r.charge } := by
  simp only [popHead, h, queue_setQueue_self]

/-- The head of a queue and its packet are read whole while the arrays are sound, and go out for the root (R265, R266). -/
theorem dequeuePath_sends {s : State} {q root : Nat} {path : List Nat} {r : Ref} {p : Pkt} (h : Sound s)
    (hq : path.head? = some (nodeKey 3 q)) (hidx : nodeIdx (nodeKey 3 q) = q) (hr : headRef (queue s q) = some r)
    (hp : pkt? s r.pkt = some p) (hage : ageLimit s q p = 0 ∨ s.time - r.enqAt ≤ ageLimit s q p * 1000) :
    dequeuePath s root path = spillExit (creditBack (sendOut (headCharged s q path r p) (outOf q root path r p)) r.pkt) q := by
  have hread : readHead s q r = (false, s) := by simp [readHead, badWords_of_sound h]
  have hyoung : (ageLimit s q p != 0 && decide (ageLimit s q p * 1000 < s.time - r.enqAt)) = false := by
    rcases hage with hage | hage
    · simp [hage]
    · have : ¬ ageLimit s q p * 1000 < s.time - r.enqAt := by omega
      simp [this]
  simp only [dequeuePath, hq, hidx, hr, hread, hp, hyoung, residueArmed_of_sound h]
  rfl

/-- A reference that goes out is the newest of those on their way out (R263, R359). -/
theorem sendOut_lists (s : State) (o : Out) : (sendOut s o).outs = mput s.outs s.nextOut o ∧ (sendOut s o).nextOut = s.nextOut + 1 ∧
    (sendOut s o).qm = s.qm := by
  simp only [sendOut]
  split <;> exact ⟨rfl, rfl, rfl⟩

/-- A queue whose backlog ends keeps its Stockpot part, and nothing goes out with it (R225). -/
theorem spillExit_keeps (s : State) (q : Nat) : (queue (spillExit s q) q).refs = (queue s q).refs ∧
    (queue (spillExit s q) q).qs = (queue s q).qs ∧ (spillExit s q).outs = s.outs ∧ (spillExit s q).nextOut = s.nextOut := by
  have houts : (freeUnits s 1 (queue s q).pages).outs = s.outs := outs_of_lines (lines_freeUnits s 1 _)
  have hnext : (freeUnits s 1 (queue s q).pages).nextOut = s.nextOut := nextOut_of_lines (lines_freeUnits s 1 _)
  simp only [spillExit]
  split
  · have hqueue : ∀ (t : State) (x : Queue) (k : Nat), queue (count1 (setQueue t q x) k) q = x := fun t x _ => queue_setQueue_self t q x
    rw [hqueue]
    exact ⟨rfl, rfl, houts, hnext⟩
  · exact ⟨rfl, rfl, rfl, rfl⟩

/-- The path that a root's selection reaches is dequeued, where nothing on it is faulted (R265, R493). -/
theorem dequeueRoot_selects {s u : State} {root : Nat} {path : List Nat} (hs : Sound s) (hu : Sound u)
    (hsel : selectPath 5 s root = some (path, u)) (hfault : path.any (nodeFaulted s) = false) :
    dequeueRoot s root = dequeuePath u root path := by
  simp [dequeueRoot, hsel, foldl_readState_of_sound hs, foldl_readState_of_sound hu, hfault]

/-- A port or a fabric root asks for itself, and a host root in its turn, which passes on with it (R438). -/
theorem exec_dequeue {s : State} {kind index : Nat}
    (h : (kind = 0 ∧ index < 1024) ∨ (kind = 4 ∧ hostTurn s = some index) ∨ (kind = 5 ∧ index < 16)) :
    Answers (.dequeue kind index) s
      (touchVoqs (dequeueRoot (if kind = 4 then { s with host.rootTurn := index } else s) (nodeKey kind index))) := by
  change execDequeue kind index s = _
  rcases h with ⟨rfl, hi⟩ | ⟨rfl, hturn⟩ | ⟨rfl, hi⟩
  · simp [execDequeue, hi]
  · simp [execDequeue, hturn]
  · simp [execDequeue, hi]

end Sys2Proof.Machine

namespace Sys2Proof

open Machine

section
variable {s : State} {n i g : Nat} {rest : List Nat} {p : Pkt} (hline : mget [] s.qm.fanout n = i :: rest) (hp : pkt? s i = some p)
  (hg : mget 0 s.qm.groups (dMcGroup p.desc) = g)
include hline hp hg

/-- The clause of a group whose targets are all pruned (R276): the packet is freed, which leaves the lines and the counts as they are. -/
theorem mcFanout_prunes (hgroup : mgValid g = true) (hcount : 0 < mgCount g) (hfabric : mgFabric g = false) (hmirror : dMirror p.desc = 0)
    (hhost : dHostCopy p.desc = false)
    (hpruned : ∀ x ∈ rangeFrom (mgBase g) (mgCount g), mcTarget s p (mget 0 s.qm.targets x) = none) :
    ∃ t, Answers (.mcFanout n) s t ∧ mget [] t.qm.fanout n = rest ∧ pkt? t i = none ∧ t.led.dFanout = s.led.dFanout + 1 ∧
      t.led.aCopy = s.led.aCopy ∧ reg t Reg.mcPruned = (reg s Reg.mcPruned + mgCount g) % 2 ^ 64 := by
  refine ⟨touchVoqs (fanOut s n), rfl, ?_⟩
  rw [fanOut_pruned hline hp hg hgroup hcount hfabric hmirror hhost hpruned]
  generalize hu : countBy { fanoutTaken s n rest with led.dFanout := s.led.dFanout + 1 } 64 Reg.mcPruned (mgCount g) = u
  have hlines : lines (touchVoqs (freePkt u i)) = lines u := by simp
  refine ⟨?_, (pkt_of_cargo (cargo_touchVoqs _) i).trans (pkt_freePkt_self u i), ?_, ?_, ?_⟩
  · rw [fanout_of_lines hlines, ← hu]
    exact mget_mset_self _ _ _ _
  · rw [fannedOut_of_lines hlines, ← hu]
    rfl
  · rw [copies_of_lines hlines, ← hu]
    rfl
  · rw [report_of_lines hlines (by decide), ← hu]
    exact reg_setReg_self _ _ _

/-- The clause of a group that is not valid (R276). -/
theorem mcFanout_discards (hgroup : mgValid g = false) : ∃ t, Answers (.mcFanout n) s t ∧ mget [] t.qm.fanout n = rest ∧
    pkt? t i = none ∧ reg t Reg.mcEmptyGroup = (reg s Reg.mcEmptyGroup + 1) % 2 ^ 64 := by
  refine ⟨touchVoqs (fanOut s n), rfl, ?_⟩
  rw [fanOut_invalid hline hp hg hgroup rfl]
  generalize hu : count1 (fanoutTaken s n rest) Reg.mcEmptyGroup = u
  have hlines : lines (touchVoqs (freePkt (creditBack (discard u 63 (arrivalPort p) (pktCard u p none)) i) i)) = lines u := by simp
  refine ⟨?_, (pkt_of_cargo (cargo_touchVoqs _) i).trans (pkt_freePkt_self _ i), ?_⟩
  · rw [fanout_of_lines hlines, ← hu]
    exact mget_mset_self _ _ _ _
  · rw [report_of_lines hlines (by decide), ← hu]
    exact reg_setReg_self _ _ _

end

/-- The clause of a dequeue that reaches a queue (R265, R266): what follows the head's way out leaves it on its way. -/
theorem dequeuePath_leaves {u : State} {q root : Nat} {path : List Nat} {r : Ref} {p : Pkt} (hu : Sound u)
    (hq : path.head? = some (nodeKey 3 q)) (hidx : nodeIdx (nodeKey 3 q) = q) (hr : headRef (queue u q) = some r)
    (hp : pkt? u r.pkt = some p) (hage : ageLimit u q p = 0 ∨ u.time - r.enqAt ≤ ageLimit u q p * 1000) {t : State}
    (ht : t = touchVoqs (dequeuePath u root path)) : t.nextOut = u.nextOut + 1 ∧
      mfind t.outs u.nextOut = some { ref := r, queue := q, root := root, lf := chargedLen p, lfKnown := p.len.isSome, path := path } ∧
      (∀ rest, (queue u q).refs = r :: rest → (queue t q).refs = rest ∧ (queue t q).qs = (queue u q).qs - r.charge) := by
  subst ht
  rw [dequeuePath_sends hu hq hidx hr hp hage]
  have hcharged := lines_headCharged u q path r p
  obtain ⟨houts, hnext, hqm⟩ := sendOut_lists (headCharged u q path r p) (outOf q root path r p)
  generalize sendOut (headCharged u q path r p) (outOf q root path r p) = w at houts hnext hqm ⊢
  have hback := lines_creditBack w r.pkt
  obtain ⟨hrefs, hqs, houts', hnext'⟩ := spillExit_keeps (creditBack w r.pkt) q
  have htouch := lines_touchVoqs (spillExit (creditBack w r.pkt) q)
  have hpop : (popHead u q).outs = u.outs ∧ (popHead u q).nextOut = u.nextOut := by
    rw [popHead]
    split <;> exact ⟨rfl, rfl⟩
  have hnumber : (headCharged u q path r p).nextOut = u.nextOut := (nextOut_of_lines hcharged).trans hpop.2
  have hqueue : queue (creditBack w r.pkt) q = queue (popHead u q) q :=
    (queue_of_lines hback q).trans ((by rw [queue, hqm, queue] : queue w q = queue (headCharged u q path r p) q).trans
      (queue_of_lines hcharged q))
  refine ⟨?_, ?_, fun rest hrest => ?_⟩
  · rw [nextOut_of_lines htouch, hnext', nextOut_of_lines hback, hnext, hnumber]
  · rw [outs_of_lines htouch, houts', outs_of_lines hback, houts, hnumber]
    exact mfind_mput_self _ _ _
  · rw [queue_of_lines htouch, hrefs, hqs, hqueue, queue_popHead hrest]
    exact ⟨rfl, rfl⟩

/-- Settles O25: fan-out by the two branches that copy nothing, and a dequeue by the path that the selection reaches. -/
theorem fanOutAndDequeue : Obligations.FanOutAndDequeue := by
  unfold Obligations.FanOutAndDequeue
  refine ⟨fun s n i rest p _ _ hline hp _ _ => ⟨mcFanout_prunes hline hp rfl, mcFanout_discards hline hp rfl⟩,
    fun s kind index hasks s0 hs0 => ?_⟩
  have hexec := exec_dequeue hasks
  rw [← hs0] at hexec
  refine ⟨fun path u q r p hs hu hsel hq hidx hfault hr hp hage => ⟨_, hexec, ?_⟩, fun hsel hunbound => ?_⟩
  · exact dequeuePath_leaves hu hq hidx hr hp hage (by rw [dequeueRoot_selects hs hu hsel hfault])
  · have hstays : dequeueRoot s0 (nodeKey kind index) = s0 := by rw [dequeueRoot, hsel]
    rwa [hstays, touchVoqs_unbound hunbound] at hexec

end Sys2Proof
end

section
/-! SUPPORT. The arrival of a descriptor at the queues (R255–R257): a reference that joins its queue, one that finds none, and the supply
of cells after it. -/

namespace Sys2Proof.Machine

/-! ### The packet on its way to the queues -/

/-- A packet that reaches the queues with its one reference: it waits for its descriptor no more (R215, R359). -/
def arriving (s : State) (i : Nat) (p : Pkt) : State := setPkt (leaveArrival s p) i { p with refs := 1, stage := .stored }

/-- The ledger alone knows that the packet has left those not yet enqueued (R359). -/
theorem leaveArrival_eq (s : State) (p : Pkt) : leaveArrival s p = { s with led := (leaveArrival s p).led } := by
  rw [leaveArrival]
  split <;> rfl

theorem arriving_eq (s : State) (i : Nat) (p : Pkt) : arriving s i p =
    { s with led := (leaveArrival s p).led, pkts := mput s.pkts i { p with refs := 1, stage := .stored } } := by
  rw [arriving, setPkt, leaveArrival_eq]

theorem sound_arriving {s : State} (h : Sound s) (i : Nat) (p : Pkt) : Sound (arriving s i p) := by
  rw [arriving_eq]
  exact h

theorem oQueue_leaveArrival (s : State) (p : Pkt) : (leaveArrival s p).led.oQueue = s.led.oQueue := by
  rw [leaveArrival]
  split <;> rfl

/-- The target of the packet's own reference, where a queue was chosen for it or none (R256). -/
def mainTo (p : Pkt) (q? : Option Nat) : Target := { queue := q?, kind := .main, cls := dClass p.desc }

/-- A descriptor for a local port asks for its class's queue alone, where no copy is asked for (R255, R256). -/
theorem enqueueArrival_local {s : State} {i : Nat} {p : Pkt} (hp : pkt? s i = some p) (hstage : p.stage = .ready) (hrefs : p.refs = 0)
    (hmirror : dMirror p.desc = 0) (hhost : dHostCopy p.desc = false) (hkind : dKind p.desc = 0) :
    enqueueArrival s i = packFor (supplyCells (placeRef (arriving s i p) i
      (mainTo p (classQueue s (dDestPort p.desc) (dClass p.desc)))) i) i := by
  have hp' : pkt? (leaveArrival s p) i = some p := by
    rw [leaveArrival_eq]
    exact hp
  have hclass : classQueue (leaveArrival s p) (dDestPort p.desc) (dClass p.desc) = classQueue s (dDestPort p.desc) (dClass p.desc) := by
    rw [leaveArrival_eq]
    rfl
  have hcopies : copiesMade (leaveArrival s p) 0 = leaveArrival s p := rfl
  simp [enqueueArrival, hp, hstage, hkind, enqueueUnicast, mainTarget, ingressMirror, hmirror, hostTarget, hhost, hcopies, placeAll, hp',
    hrefs, hclass, arriving, mainTo]

/-! ### Records of a packet in the backlogs (R226) -/

/-- No backlog holds a record of the packet. -/
def Unrecorded (s : State) (i : Nat) : Prop := ∀ x ∈ s.qm.queues, ∀ r ∈ x.2.backlog, r.ref.pkt ≠ i

theorem Unrecorded.congr {s t : State} {i : Nat} (h : Unrecorded s i) (hq : t.qm.queues = s.qm.queues) : Unrecorded t i := by
  rwa [Unrecorded, hq]

/-- What a table reads as at an index is listed there, or is the unlisted value. -/
theorem mem_of_mget_ne {α : Type} {d : α} {m : SMap α} {k : Nat} (h : mget d m k ≠ d) : (k, mget d m k) ∈ m := by
  induction m with
  | nil => exact absurd rfl h
  | cons x r ih =>
    simp only [mget] at h ⊢
    split at h
    · exact absurd rfl h
    · split at h
      · rename_i hlt heq
        rw [if_neg hlt, if_pos heq, heq]
        exact List.mem_cons_self
      · rename_i hlt hne
        rw [if_neg hlt, if_neg hne]
        exact List.mem_cons_of_mem _ (ih h)

/-- Nothing is packed for a packet without a record. -/
theorem packFor_unrecorded {s : State} {i : Nat} (h : Unrecorded s i) : packFor s i = s := by
  have hnone : s.qm.queues.filter (fun x => x.2.backlog.any (fun r => r.ref.pkt = i)) = [] := by
    rw [List.filter_eq_nil_iff]
    intro x hx
    simpa using h x hx
  rw [packFor, hnone]
  rfl

/-- A queue whose backlog stays as it was holds no new record. -/
theorem Unrecorded.setQueue {s : State} {i q : Nat} (h : Unrecorded s i) {x : Queue} (hx : x.backlog = (queue s q).backlog) :
    Unrecorded (setQueue s q x) i := by
  intro y hy
  have hmem : y ∈ mset {} s.qm.queues q x := hy
  rcases mem_mset {} s.qm.queues q x y hmem with hy | ⟨rfl, -⟩
  · exact h y hy
  · rw [hx]
    by_cases hempty : queue s q = {}
    · rw [hempty]
      simp
    · exact h _ (mem_of_mget_ne hempty)

/-! ### A reference that joins its queue (R257) -/

/-- A queue with a further charge in its Stockpot set, and its watermark (R217). -/
def chargedQueue (x : Queue) (n : Nat) : Queue := { x with qs := x.qs + n, watermark := max x.watermark (x.qs + n + 8 * x.qc) }

theorem chargeQueue_eq (s : State) (q n : Nat) : chargeQueue s 0 q n = setQueue s q (chargedQueue (queue s q) n) := by
  simp only [chargeQueue, chargedQueue, if_true]
  split
  · rw [Nat.max_eq_right (Nat.le_of_lt ‹_›)]
  · rw [Nat.max_eq_left (Nat.not_lt.1 ‹_›)]

/-- The reference of a target that takes a link in the Stockpot part of its queue (R258). -/
def linkedRef (s : State) (i : Nat) (p : Pkt) (q n : Nat) (t : Target) : Ref :=
  { pkt := i, kind := t.kind, charge := n, enqAt := s.time, cut := cutMark s q p, marked := false, vlan := t.vlan, cls := t.cls,
    desc := t.desc.getD p.desc, origin := p.origin, src := p.src, link := freeLink s (qmsOf q) }

/-- The reference is written and stands at the end of its queue (R257). -/
theorem linkRef_appends {s : State} (hs : Sound s) (i : Nat) (p : Pkt) (q n : Nat) (t : Target) :
    linkRef s i p q 0 n false t = setQueue (perfEvent (queueHeld s) 0x40 (qmsOf q) (judgedLen p)) q
      { queue s q with refs := (queue s q).refs ++ [linkedRef s i p q n t] } := by
  have hword : linkWritten s q (freeLink s (qmsOf q)) = s := wordsWritten_of_sound hs _ _ _
  simp only [linkRef, if_true, hword]
  rfl

/-- The steps of R257 let the reference in: the queue is not faulted and keeps to the Stockpot, no AQM profile judges the packet, its
charge is admitted, and its QMS has a link. -/
structure Admits (s : State) (q n : Nat) : Prop where
  sound : (queue s q).faulted = false
  inside : (queue s q).spilled = false
  stays : apSpill (qProfile s q) = false
  unjudged : qAqm s q = 0
  admitted : admission s 0 q n = none
  linked : linksFree s (qmsOf q) ≠ 0

/-- Admission looks at neither the packets nor the ledger (R220). -/
theorem Admits.arriving {s : State} {q n : Nat} (h : Admits s q n) (i : Nat) (p : Pkt) : Admits (arriving s i p) q n := by
  rw [arriving_eq]
  exact ⟨h.sound, h.inside, h.stays, h.unjudged, h.admitted, h.linked⟩

section
variable {s : State} {i q n : Nat} {p : Pkt} {t : Target} (hs : Sound s) (hp : pkt? s i = some p) (ht : t.queue = some q)
  (hn : n = cellsFor (judgedLen p)) (h : Admits s q n)
include hs hp ht hn h

/-- A reference that is let in joins its queue with its charge (R257). -/
theorem placeRef_links : placeRef s i t = linkRef (chargeQueue s 0 q n) i p q 0 n false t := by
  subst hn
  obtain ⟨hsound, hinside, hstays, haqm, hadmitted, hlinked⟩ := h
  have hchoose : chooseSet s q (cellsFor (judgedLen p)) = (s, false) := by simp [chooseSet, hinside, hstays]
  have hdecide : decideSet s q p false = .take (chargeQueue s 0 q (cellsFor (judgedLen p))) 0 (cellsFor (judgedLen p)) false := by
    simp [decideSet, haqm, b2n, residueArmed_of_sound hs, hadmitted, hlinked]
  simp [placeRef, ht, readState_of_sound hs, hp, hsound, hchoose, hdecide]

/-- What has become of the queues when a reference has joined one (R257). -/
theorem placeRef_joins : ∃ r : Ref, r.pkt = i ∧ r.kind = t.kind ∧ r.charge = n ∧ r.desc = t.desc.getD p.desc ∧
    (queue (placeRef s i t) q).refs = (queue s q).refs ++ [r] ∧ (queue (placeRef s i t) q).qs = (queue s q).qs + n ∧
    pkt? (placeRef s i t) i = some p ∧ (Unrecorded s i → Unrecorded (placeRef s i t) i) := by
  have hsound : Sound (chargeQueue s 0 q n) := hs
  have hqueue : queue (chargeQueue s 0 q n) q = chargedQueue (queue s q) n := by rw [chargeQueue_eq, queue_setQueue_self]
  have hevent := (noted_perfEvent [] (queueHeld (chargeQueue s 0 q n)) 0x40 (qmsOf q) (judgedLen p)).1
  rw [placeRef_links hs hp ht hn h, linkRef_appends hsound, queue_setQueue_self, hqueue]
  refine ⟨_, rfl, rfl, rfl, rfl, rfl, rfl, ?_, fun hu => ?_⟩
  · rw [hevent]
    exact hp
  · have hcharged : Unrecorded (chargeQueue s 0 q n) i := by
      rw [chargeQueue_eq]
      exact hu.setQueue rfl
    rw [hevent]
    exact Unrecorded.setQueue hcharged (congrArg Queue.backlog hqueue).symm

end

/-! ### The supply of cells (R208, R218, R220) -/

/-- The packet when its cells are supplied: its headroom charge has ended (R218). -/
def suppliedPkt (p : Pkt) : Pkt := { p with hrPool := 32, hrCells := 0, stage := .stored, est := cellsFor (judgedLen p) }

/-- A packet in a Stockpot part that gets the cells it needs leaves the queues as they are (R220). -/
theorem lines_supplyCells {s w : State} {i : Nat} {p : Pkt} {cs : List Nat} (hp : pkt? s i = some p) (hin : inStockpot s i = true)
    (hcells : takeUpTo (setPkt s i (suppliedPkt p)) p (cellsFor (judgedLen p)) = .got cs w) : lines (supplyCells s i) = lines s := by
  have hin' : inStockpot (setPkt s i (suppliedPkt p)) i = true := hin
  have htake : takeUpTo (setPkt s i (suppliedPkt p)) (suppliedPkt p) (cellsFor (judgedLen (suppliedPkt p))) = .got cs w := hcells
  have hw : lines w = lines s := by
    have htaken := lines_takeUpTo (setPkt s i (suppliedPkt p)) p (cellsFor (judgedLen p))
    rwa [hcells] at htaken
  rw [suppliedPkt] at hin' htake
  simp only [supplyCells, hp, hin', htake, if_true]
  simp [hw]

/-- A packet that has left needs no cells. -/
theorem supplyCells_gone {s : State} {i : Nat} (h : pkt? s i = none) : supplyCells s i = s := by simp [supplyCells, h]

/-- A packet at the end of a queue stands in its Stockpot part. -/
theorem inStockpot_of_appended {s : State} {i q : Nat} {l : List Ref} {r : Ref} (h : (queue s q).refs = l ++ [r]) (hr : r.pkt = i) :
    inStockpot s i = true := by
  have hmem : (q, queue s q) ∈ s.qm.queues := mem_of_mget_ne fun hempty => by
    have hnone : (queue s q).refs = [] := congrArg Queue.refs hempty
    simp [h] at hnone
  rw [inStockpot, List.any_eq_true]
  exact ⟨_, hmem, by simp [h, hr]⟩

/-! ### A reference that finds no queue (R215, R256) -/

/-- The counts and records of a discard leave the protected words alone (R355). -/
theorem integ_discard (s : State) (r : Nat) (at? : Option Nat) (c : Card) : (discard s r at? c).integ = s.integ := by
  have hcount : (dropCounted s r at?).integ = s.integ := by cases at? <;> rfl
  have henter : ∀ u, (dropEntered u r).integ = u.integ := fun u => by
    rw [dropEntered]
    split <;> rfl
  have hcard : ∀ u, (postcard u r c).integ = u.integ := fun u => by rw [(noted_postcard [] u r c).1]
  have hevent : ∀ u inst, (perfEvent u 3 inst 0).integ = u.integ := fun u inst => by rw [(noted_perfEvent [] u 3 inst 0).1]
  rw [discard_eq]
  split
  · rfl
  · rw [hcard, hevent, henter, hcount]

/-- A packet that came under no grant has no credit to give back (R346). -/
theorem creditBack_uncredited {s : State} {i : Nat} {p : Pkt} (hp : pkt? s i = some p) (h : p.credited = false) : creditBack s i = s := by
  simp [creditBack, hp, h]

/-- The last reference of a packet goes, and the packet with it, where no count is lost (R215). -/
theorem releaseRef_last {s : State} {i : Nat} {p : Pkt} (hp : pkt? s i = some p) (hbad : s.integ.bad = []) (hleaked : p.leaked = false)
    (hrefs : p.refs = 1) : releaseRef s i = freePkt (setPkt s i { p with refs := 0 }) i := by
  have hcount : readCount s p = (false, s) := by
    have hnone : badWords s 1 = [] := by
      rw [badWords, hbad]
      rfl
    rw [readCount]
    split
    · simp [hnone]
    · rfl
  simp [releaseRef, hp, hcount, hleaked, hrefs]

/-- NO_QUEUE is counted and raised (R256). -/
def noQueue (s : State) : State := raise (count1 s Reg.qmNoQueue) .qm 4

/-- The only reference of a packet, without a queue, is discarded and the packet goes (R256). -/
theorem placeRef_noQueue {s : State} {i : Nat} {p p0 : Pkt} (hs : Sound s) (hp : pkt? s i = some p) (hcredited : p.credited = false)
    (hleaked : p.leaked = false) (hrefs : p.refs = 1) : placeRef s i (mainTo p0 none) =
      freePkt (setPkt (discard (noQueue s) 63 (arrivalPort p) (pktCard (noQueue s) p none)) i { p with refs := 0 }) i := by
  have hraise := (noted_raise [Reg.qmCause] (count1 s Reg.qmNoQueue) .qm 4 (.inl (List.mem_singleton_self _))).1
  have hpkts : (discard (noQueue s) 63 (arrivalPort p) (pktCard (noQueue s) p none)).pkts = s.pkts := by
    rw [(onlyLedger_discard _ _ _ _).pkts, noQueue, hraise]
    rfl
  have hinteg : (discard (noQueue s) 63 (arrivalPort p) (pktCard (noQueue s) p none)).integ = s.integ := by
    rw [integ_discard, noQueue, hraise]
    rfl
  have hp' : pkt? (discard (noQueue s) 63 (arrivalPort p) (pktCard (noQueue s) p none)) i = some p :=
    (congrArg (mfind · i) hpkts).trans hp
  have hbad : (discard (noQueue s) 63 (arrivalPort p) (pktCard (noQueue s) p none)).integ.bad = [] := by
    rw [hinteg]
    exact hs.1
  have hplace : placeRef s i (mainTo p0 none) =
      releaseRef (creditBack (discard (noQueue s) 63 (arrivalPort p) (pktCard (noQueue s) p none)) i) i := by
    simp only [placeRef, mainTo, hp, if_true]
    rfl
  rw [hplace, creditBack_uncredited hp' hcredited, releaseRef_last hp' hbad hleaked hrefs]

/-! ### Multicast (R276) -/

theorem enqueueArrival_multicast {s : State} {i : Nat} {p : Pkt} (hp : pkt? s i = some p) (hstage : p.stage = .ready)
    (hkind : dKind p.desc = 2) : enqueueArrival s i = enqueueMulticast s i p := by
  simp [enqueueArrival, hp, hstage, hkind]

end Sys2Proof.Machine

namespace Sys2Proof

open Machine

section
variable {s : State} {i : Nat} {p : Pkt} (hs : Sound s) (hp : pkt? s i = some p) (hstage : p.stage = .ready) (hrefs : p.refs = 0)
  (hmirror : dMirror p.desc = 0) (hhost : dHostCopy p.desc = false) (hrecords : Unrecorded s i) (hkind : dKind p.desc = 0)
include hs hp hstage hrefs hmirror hhost hrecords hkind

/-- The clause of a unicast descriptor that its queue admits (R255–R257): the supply of cells moves nothing of the queue it has joined. -/
theorem enqueueArrival_joins {q a : Nat} (hclass : classQueue s (dDestPort p.desc) (dClass p.desc) = some q)
    (ha : a = cellsFor (judgedLen p)) (h : Admits s q a)
    (hcells : ∃ cs w, takeUpTo (setPkt (placeRef (arriving s i p) i (mainTo p (some q))) i
      { p with refs := 1, stage := .stored, hrPool := 32, hrCells := 0, est := a }) p a = .got cs w) :
    ∃ t r, Answers (.enqueueArrival i) s t ∧ (queue t q).refs = (queue s q).refs ++ [r] ∧ r.pkt = i ∧ r.kind = .main ∧
      r.charge = a ∧ r.desc = p.desc ∧ (queue t q).qs = (queue s q).qs + a := by
  have hqueue : queue (arriving s i p) q = queue s q := by
    rw [arriving_eq]
    rfl
  have hrecords' : Unrecorded (arriving s i p) i := hrecords.congr (by rw [arriving_eq])
  obtain ⟨r, hpkt, hmain, hcharge, hdesc, hplaced, hqs, hp', hunrecorded⟩ := placeRef_joins (sound_arriving hs i p)
    (pkt_setPkt_self _ i _) (t := mainTo p (some q)) rfl ha (h.arriving i p)
  obtain ⟨cs, w, htake⟩ := hcells
  subst ha
  have hsupplied := lines_supplyCells hp' (inStockpot_of_appended hplaced hpkt) htake
  have hpacked := packFor_unrecorded ((hunrecorded hrecords').congr (queues_of_lines hsupplied))
  have hexec : Answers (.enqueueArrival i) s (touchVoqs (enqueueArrival s i)) := rfl
  rw [enqueueArrival_local hp hstage hrefs hmirror hhost hkind, hclass, hpacked] at hexec
  have hlines := (lines_touchVoqs _).trans hsupplied
  refine ⟨_, r, hexec, ?_, hpkt, hmain, hcharge, hdesc, ?_⟩
  · rw [queue_of_lines hlines, hplaced, hqueue]
  · rw [queue_of_lines hlines, hqs, hqueue]

/-- The clause of a unicast descriptor whose class-map entry is not valid (R256). -/
theorem enqueueArrival_discards (hcredited : p.credited = false) (hleaked : p.leaked = false)
    (hclass : classQueue s (dDestPort p.desc) (dClass p.desc) = none) :
    ∃ t, Answers (.enqueueArrival i) s t ∧ pkt? t i = none ∧ bit (reg t Reg.qmCause) 4 = true ∧ t.qm.queues = s.qm.queues := by
  have hplaced := placeRef_noQueue (p0 := p) (sound_arriving hs i p) (pkt_setPkt_self _ i { p with refs := 1, stage := .stored })
    hcredited hleaked rfl
  have hlines : lines (placeRef (arriving s i p) i (mainTo p none)) = lines (noQueue (arriving s i p)) := by
    rw [hplaced]
    simp
  have hgone : pkt? (placeRef (arriving s i p) i (mainTo p none)) i = none := by
    rw [hplaced]
    exact pkt_freePkt_self _ i
  have hqueues : (noQueue (arriving s i p)).qm.queues = s.qm.queues := by
    rw [noQueue, qm_raise, arriving_eq]
    rfl
  have hpacked := packFor_unrecorded (hrecords.congr ((queues_of_lines hlines).trans hqueues))
  have hexec : Answers (.enqueueArrival i) s (touchVoqs (enqueueArrival s i)) := rfl
  rw [enqueueArrival_local hp hstage hrefs hmirror hhost hkind, hclass, supplyCells_gone hgone, hpacked] at hexec
  have htouched := (lines_touchVoqs _).trans hlines
  refine ⟨_, hexec, (pkt_of_cargo (cargo_touchVoqs _) i).trans hgone, ?_, (queues_of_lines htouched).trans hqueues⟩
  rw [report_of_lines htouched (by decide)]
  exact bit_raise_self _ .qm 4 (by decide)

end

/-- The clause of a multicast descriptor (R255, R276). -/
theorem enqueueArrival_fansOut {s : State} {i : Nat} {p : Pkt} (hp : pkt? s i = some p) (hstage : p.stage = .ready)
    (hkind : dKind p.desc = 2) : ∃ t, Answers (.enqueueArrival i) s t ∧
      mget [] t.qm.fanout (p.inPort / 64) = mget [] s.qm.fanout (p.inPort / 64) ++ [i] ∧
      (pkt? t i).map (·.stage) = some .fanout ∧ t.led.oQueue = s.led.oQueue + 1 := by
  have hline := fanout_of_lines (lines_leaveArrival s p)
  have hcargo := cargo_touchVoqs (enqueueMulticast s i p)
  obtain ⟨-, -, -, hled, -, -, -⟩ := cargo_parts hcargo
  refine ⟨touchVoqs (enqueueArrival s i), rfl, ?_, ?_, ?_⟩
  · rw [enqueueArrival_multicast hp hstage hkind, fanout_of_lines (lines_touchVoqs _), ← hline]
    exact mget_mset_self _ _ _ _
  · rw [enqueueArrival_multicast hp hstage hkind, pkt_of_cargo hcargo, enqueueMulticast, pkt_setPkt_self]
    rfl
  · rw [enqueueArrival_multicast hp hstage hkind, hled, ← oQueue_leaveArrival s p]
    rfl

/-- Settles O24: a descriptor goes the way of its kind, and what follows the place it takes leaves the queues as they are. -/
theorem arrivalJoinsItsQueue : Obligations.ArrivalJoinsItsQueue := by
  unfold Obligations.ArrivalJoinsItsQueue
  intro s i p _ hs hp hstage hcredited hrefs hleaked _ hmirror hhost _ hrecords
  refine ⟨fun q a hkind hclass _ ha hfault hspilled hspill haqm hadm hlinks hcells => ?_, fun hkind hclass => ?_, fun hkind => ?_⟩
  · exact enqueueArrival_joins hs hp hstage hrefs hmirror hhost hrecords hkind hclass ha
      ⟨hfault, hspilled, hspill, haqm, hadm, hlinks⟩ (hcells _ rfl)
  · exact enqueueArrival_discards hs hp hstage hrefs hmirror hhost hrecords hkind hcredited hleaked hclass
  · exact enqueueArrival_fansOut hp hstage hkind

end Sys2Proof
end

section
/-! SUPPORT. What packet memory, flow control, the discards and the state of destinations leave of the bunting links (ch. 12): the records
of lanes and bundles, and their entries. A bundle that enters a path defect empties its distances (R335), and nothing of what follows
reaches the links. -/

namespace Sys2Proof.Machine

variable {α : Type}

/-! ### The entries of lanes and bundles -/

/-- Whether an entry is one of a fabric lane or of a bundle. -/
def isBuntingEntry (k : Nat) : Bool := decide (0x250000 ≤ k) && decide (k < 0x270800) && decide (k % 256 < 0x40)

/-- What the entries of lanes and bundles read. -/
def buntingEntries (od : SMap Nat) (k : Nat) : Nat := if isBuntingEntry k then mget (odDefault k) od k else 0

/-- An entry of another index, or above the subindexes of lanes and bundles. -/
theorem notBunting_key {idx sub : Nat} (hs : sub < 256) (h : idx < 0x2500 ∨ 0x2708 ≤ idx ∨ 0x40 ≤ sub) :
    isBuntingEntry (key idx sub) = false := by
  simp only [isBuntingEntry, Bool.and_eq_false_iff, decide_eq_false_iff_not]
  simp only [key]
  omega

theorem notBunting_keyIf {b : Bool} {idx sub : Nat} (h : b = true → sub < 256 ∧ (idx < 0x2500 ∨ 0x2708 ≤ idx ∨ 0x40 ≤ sub)) :
    isBuntingEntry (keyIf b (key idx sub)) = false := by
  cases b with
  | false => rfl
  | true => exact notBunting_key (h rfl).1 (h rfl).2

/-- Events move no entry of a lane or a bundle on the side. -/
theorem side_of_isBuntingEntry {k : Nat} (h : isBuntingEntry k = true) : sideEntry k = false := by
  simp only [isBuntingEntry, Bool.and_eq_true, decide_eq_true_eq] at h
  simp only [sideEntry, Bool.or_eq_false_iff, Bool.and_eq_false_iff, beq_eq_false_iff_ne, decide_eq_false_iff_not, Reg.obsCause,
    Reg.evtPulses, Reg.evtFwQueueHigh, Reg.evtFwQueueLost, Reg.ensRecordsDropped, Reg.ensPostcardsSuppressed]
  simp only [key]
  omega

@[simp] theorem notBunting_portCause (p : Nat) : isBuntingEntry (CauseReg.key (.port p)) = false := notBunting_keyIf (by simp; omega)
@[simp] theorem notBunting_dropTotal (r : Nat) : isBuntingEntry (Reg.dropTotal r) = false := notBunting_keyIf (by simp; omega)
@[simp] theorem notBunting_dropPort (p r : Nat) : isBuntingEntry (Reg.dropPort p r) = false := notBunting_keyIf (by simp; omega)
@[simp] theorem notBunting_dropUnattributed (r : Nat) : isBuntingEntry (Reg.dropUnattributed r) = false :=
  notBunting_keyIf (by simp; omega)
@[simp] theorem notBunting_poolLeaked (n : Nat) : isBuntingEntry (Reg.poolLeaked n) = false := notBunting_keyIf (by simp; omega)
@[simp] theorem notBunting_intCorrected (c : Nat) : isBuntingEntry (Reg.intCorrected c) = false := notBunting_keyIf (by simp; omega)
@[simp] theorem notBunting_intUncorrectable (c : Nat) : isBuntingEntry (Reg.intUncorrectable c) = false :=
  notBunting_keyIf (by simp; omega)
@[simp] theorem notBunting_pmCause : isBuntingEntry (CauseReg.key .pm) = false := by decide
@[simp] theorem notBunting_intCause : isBuntingEntry (CauseReg.key .int) = false := by decide
@[simp] theorem notBunting_ftCause : isBuntingEntry (CauseReg.key .ft) = false := by decide

/-- Storing any other entry leaves those of lanes and bundles as they were. -/
theorem buntingEntries_mset {k : Nat} (h : isBuntingEntry k = false) (od : SMap Nat) (v : Nat) :
    buntingEntries (mset (odDefault k) od k v) = buntingEntries od := by
  funext j
  simp only [buntingEntries]
  split
  · rename_i hj
    exact mget_default_ne _ _ od k j v (by rintro rfl; simp [h] at hj)
  · rfl

/-! ### The links of a state -/

/-- The records of lanes and bundles, and what their entries read. -/
structure Bunting where
  fl : FlState
  entries : Nat → Nat

/-- The bunting links of a state. -/
def bunting (s : State) : Bunting := ⟨s.fl, buntingEntries s.od⟩

theorem fl_of_bunting {s t : State} (h : bunting t = bunting s) : t.fl = s.fl := congrArg Bunting.fl h

theorem bundle_of_bunting {s t : State} (h : bunting t = bunting s) (b : Nat) : bundle t b = bundle s b := by
  rw [bundle, fl_of_bunting h, bundle]

theorem flane_of_bunting {s t : State} (h : bunting t = bunting s) (l : Nat) : flane t l = flane s l := by
  rw [flane, fl_of_bunting h, flane]

theorem reg_of_bunting {s t : State} (h : bunting t = bunting s) {k : Nat} (hk : isBuntingEntry k = true) : reg t k = reg s k := by
  have hentry := congrFun (congrArg Bunting.entries h) k
  simpa only [bunting, buntingEntries, hk, if_true, reg] using hentry

@[simp] theorem bunting_mk (od blocks pending time timeOffset freeCtr sent evt led obs pkts nextPkt outs nextOut ports lanes lmacs mem qm pwr
    host fl ft hbm integ ase dict cls lkp mtr fw clk io) :
    bunting (State.mk od blocks pending time timeOffset freeCtr sent evt led obs pkts nextPkt outs nextOut ports lanes lmacs mem qm pwr
      host fl ft hbm integ ase dict cls lkp mtr fw clk io) = ⟨fl, buntingEntries od⟩ := (rfl)

@[simp] theorem bunting_self (s : State) : Bunting.mk s.fl (buntingEntries s.od) = bunting s := (rfl)

@[simp] theorem bunting_ite (c : Prop) [Decidable c] (s t : State) : bunting (if c then s else t) = if c then bunting s else bunting t :=
  apply_ite bunting c s t

theorem bunting_foldl_mem {f : State → α → State} {l : List α} (h : ∀ x ∈ l, ∀ s, bunting (f s x) = bunting s) (s : State) :
    bunting (l.foldl f s) = bunting s :=
  List.foldlRecOn l f (motive := fun t => bunting t = bunting s) rfl fun t ht x hx => (h x hx t).trans ht

@[simp] theorem bunting_foldl {f : State → α → State} (h : ∀ s x, bunting (f s x) = bunting s) (l : List α) (s : State) :
    bunting (l.foldl f s) = bunting s := bunting_foldl_mem (fun x _ s => h s x) s

/-- What events bring on the side leaves the links as they were. -/
theorem bunting_of_noted {ks : List Nat} {s t : State} (h : Noted ks s t) (hk : ∀ k ∈ ks, isBuntingEntry k = false) :
    bunting t = bunting s := by
  obtain ⟨heq, -, hreg⟩ := h
  have hentries : buntingEntries t.od = buntingEntries s.od := by
    funext k
    by_cases hj : isBuntingEntry k = true
    · have hread := hreg k (side_of_isBuntingEntry hj) fun hmem => by simp [hk k hmem] at hj
      simpa only [buntingEntries, hj, if_true, reg] using hread
    · simp [buntingEntries, hj]
  rw [heq, bunting_mk, hentries, bunting_self]

/-! ### Shared operations -/

@[simp] theorem bunting_setReg {k : Nat} (h : isBuntingEntry k = false) (s : State) (v : Nat) : bunting (setReg s k v) = bunting s := by
  rw [setReg, bunting_mk, buntingEntries_mset h, bunting_self]

@[simp] theorem bunting_countBy {k : Nat} (h : isBuntingEntry k = false) (s : State) (w n : Nat) : bunting (countBy s w k n) = bunting s :=
  bunting_setReg h s _

@[simp] theorem bunting_count1 {k : Nat} (h : isBuntingEntry k = false) (s : State) : bunting (count1 s k) = bunting s := bunting_setReg h s _
@[simp] theorem bunting_count32 {k : Nat} (h : isBuntingEntry k = false) (s : State) : bunting (count32 s k) = bunting s :=
  bunting_setReg h s _
@[simp] theorem bunting_setPkt (s : State) (i : Nat) (p : Pkt) : bunting (setPkt s i p) = bunting s := (rfl)
@[simp] theorem bunting_delPkt (s : State) (i : Nat) : bunting (delPkt s i) = bunting s := (rfl)
@[simp] theorem bunting_setQueue (s : State) (q : Nat) (x : Queue) : bunting (setQueue s q x) = bunting s := (rfl)
@[simp] theorem bunting_setDestRec (s : State) (d : Nat) (x : DestRec) : bunting (setDestRec s d x) = bunting s := (rfl)

@[simp] theorem bunting_raise {c : CauseReg} (h : isBuntingEntry c.key = false) (s : State) (b : Nat) : bunting (raise s c b) = bunting s :=
  bunting_of_noted (noted_raise [c.key] s c b (.inl (by simp))) (by simpa using h)

@[simp] theorem bunting_perfEvent (s : State) (code inst n : Nat) : bunting (perfEvent s code inst n) = bunting s :=
  bunting_of_noted (noted_perfEvent [] s code inst n) (by simp)

@[simp] theorem bunting_postcard (s : State) (r : Nat) (c : Card) : bunting (postcard s r c) = bunting s :=
  bunting_of_noted (noted_postcard [] s r c) (by simp)

@[simp] theorem bunting_discard (s : State) (r : Nat) (at? : Option Nat) (c : Card) : bunting (discard s r at? c) = bunting s := by
  have hcount : ∀ s, bunting (dropCounted s r at?) = bunting s := fun s => by cases at? <;> simp [dropCounted]
  have henter : ∀ s, bunting (dropEntered s r) = bunting s := fun s => by
    rw [dropEntered]
    split <;> rfl
  simp [discard_eq, hcount, henter]

/-! ### Packet memory (ch. 9, ch. 20) -/

@[simp] theorem bunting_setFlips (s : State) (cls unit idx n : Nat) : bunting (setFlips s cls unit idx n) = bunting s := (rfl)

@[simp] theorem bunting_latchError (s : State) (cls kind unit idx : Nat) : bunting (latchError s cls kind unit idx) = bunting s :=
  bunting_setReg (by decide) s _

@[simp] theorem bunting_checkWord (s : State) (cls unit idx : Nat) : bunting (checkWord s cls unit idx).2 = bunting s := by
  have hcorrected : ∀ s, bunting (wordCorrected s cls unit idx) = bunting s := fun s => by simp [wordCorrected]
  have hlost : ∀ s p, bunting (wordLost s cls unit idx p) = bunting s := fun s p => by simp [wordLost]
  have hfree : bunting (freeBits s 1).2 = bunting s := rfl
  simp [checkWord, hcorrected, hlost, hfree]

@[simp] theorem bunting_wordsWritten (s : State) (cls unit : Nat) (idxs : List Nat) : bunting (wordsWritten s cls unit idxs) = bunting s := by
  simp only [wordsWritten]
  split <;> simp +decide [injectFired]

@[simp] theorem bunting_setUsed (s : State) (m u v : Nat) : bunting (setUsed s m u v) = bunting s := by simp [setUsed]
@[simp] theorem bunting_setQuar (s : State) (m u : Nat) : bunting (setQuar s m u) = bunting s := by simp [setQuar]
@[simp] theorem bunting_setSkim (s : State) (n h t c : Nat) : bunting (setSkim s n h t c) = bunting s := (rfl)
@[simp] theorem bunting_setLinkWord (s : State) (c w : Nat) : bunting (setLinkWord s c w) = bunting s := by simp [setLinkWord, potWrite]
@[simp] theorem bunting_ptrFault (s : State) (wh n p : Nat) : bunting (ptrFault s wh n p) = bunting s := by simp +decide [ptrFault]

@[simp] theorem bunting_quarantinePtr (s : State) (m p : Nat) : bunting (quarantinePtr s m p) = bunting s := by
  simp only [quarantinePtr]
  split
  · split <;> simp [poolLowCheck]
  · rfl

@[simp] theorem bunting_leakUnits (s : State) (m : Nat) (l : List Nat) : bunting (leakUnits s m l) = bunting s := by
  refine bunting_foldl (fun s u => ?_) l s
  split <;> simp

@[simp] theorem bunting_freeUnit (s : State) (m u : Nat) : bunting (freeUnit s m u) = bunting s := by
  have hbitmap : bunting (readBitmap s m u) = bunting s := by simp [readBitmap]
  rw [freeUnit]
  split <;> simp [hbitmap]

@[simp] theorem bunting_freeUnits (s : State) (m : Nat) (l : List Nat) : bunting (freeUnits s m l) = bunting s := by simp [freeUnits]

/-! ### Flow control (R71, R224) -/

theorem bunting_mainCount (s : State) (p n : Nat) {sub : Nat} (h : 0x40 ≤ sub) (h' : sub < 256) : bunting (mainCount s p sub n) = bunting s :=
  bunting_countBy (notBunting_key h' (.inr (.inr h))) s 64 n

theorem bunting_fbCount (s : State) (p n : Nat) {sub : Nat} (h : 0x40 ≤ sub) (h' : sub < 256) : bunting (fbCount s p sub n) = bunting s := by
  simp [fbCount, notBunting_key h' (.inr (.inr h))]

theorem bunting_fbTxSize (s : State) (p : Nat) (f : List Byte) : bunting (fbTxSize s p f) = bunting s := by
  have hb := sizeBin_le f.length
  have ha := addrClass_le f
  simp only [fbTxSize, bunting_perfEvent, bunting_ite]
  rw [bunting_fbCount _ p 1 (sub := 0xA5 + sizeBin f.length) (by omega) (by omega),
    bunting_fbCount _ p 1 (sub := 0xA2 + addrClass f) (by omega) (by omega), bunting_fbCount _ p 1 (by decide) (by decide),
    bunting_fbCount _ p f.length (by decide) (by decide), ite_self]

@[simp] theorem bunting_sendControl (s : State) (p : Nat) (f : List Byte) : bunting (sendControl s p f) = bunting s := by
  have hemit : ∀ s e, bunting (emit s e) = bunting s := fun _ _ => rfl
  have hfold : ∀ s : State, bunting ((bitList 8 (beAt f 16 2)).foldl (fun s i => fbCount s p (0xB0 + i) 1) s) = bunting s :=
    bunting_foldl_mem fun i hi s => by
      have hpriority : i < 8 := List.mem_range.1 (List.mem_filter.1 hi).1
      exact bunting_fbCount s p 1 (by omega) (by omega)
  simp only [sendControl, hemit, bunting_ite, hfold]
  rw [bunting_fbCount _ p 1 (by decide) (by decide), bunting_mainCount _ p 1 (by decide) (by decide), bunting_fbTxSize, ite_self]

theorem bunting_queueControl (s : State) (p : Nat) (pfc : Bool) (vec time : Nat) : bunting (queueControl s p pfc vec time) = bunting s := by
  simp only [queueControl]
  split
  · rfl
  · split
    · rfl
    · exact bunting_sendControl _ p _

@[simp] theorem bunting_sendXoff (s : State) (p i : Nat) (on : Bool) : bunting (sendXoff s p i on) = bunting s :=
  bunting_queueControl _ p _ _ _

@[simp] theorem bunting_fcCheckOf (s : State) (p : Pkt) : bunting (fcCheckOf s p) = bunting s := by
  rw [fcCheckOf]
  split <;> simp [fcCheck, thresholdStep]

/-! ### Packets and queues that are emptied (R215, R355) -/

@[simp] theorem bunting_freePkt (s : State) (i : Nat) : bunting (freePkt s i) = bunting s := by
  have hdue : ∀ p, bunting (dueKnown s i p) = bunting s := fun _ => rfl
  rw [freePkt]
  split <;> simp [hdue]

@[simp] theorem bunting_releaseRef (s : State) (i : Nat) : bunting (releaseRef s i) = bunting s := by
  have hread : ∀ p, bunting (readCount s p).2 = bunting s := fun p => by
    rw [readCount]
    split
    · split <;> simp
    · rfl
  rw [releaseRef]
  split
  · simp +decide [hread, countLost]
  · simp +decide

@[simp] theorem bunting_discardHeld (s : State) (q : Nat) (r : Ref) (reason : Nat) : bunting (discardHeld s q r reason) = bunting s := by
  have hleft : ∀ s, bunting (queueLeft s) = bunting s := fun _ => rfl
  have hcredit : ∀ s i, bunting (creditBack s i) = bunting s := fun s i => by
    rw [creditBack]
    split
    · split <;> rfl
    · rfl
  rw [discardHeld]
  split <;> simp [hleft, hcredit]

@[simp] theorem bunting_flushQueue (s : State) (q r : Nat) : bunting (flushQueue s q r) = bunting s := by
  have hleft : ∀ s, bunting (queueLeft s) = bunting s := fun _ => rfl
  simp [flushQueue, hleft]

/-! ### Destinations (R335–R338) -/

@[simp] theorem bunting_touchVoqs (s : State) : bunting (touchVoqs s) = bunting s := by rw [touchVoqs_eq, bunting_mk, bunting_self]

@[simp] theorem bunting_dropWaiting (s : State) (d : Nat) : bunting (dropWaiting s d) = bunting s := by
  simp [dropWaiting]

@[simp] theorem bunting_enterDest (s : State) (d st : Nat) : bunting (enterDest s d st) = bunting s := by
  have hprobe : ∀ s, bunting (probeDest s d) = bunting s := fun _ => rfl
  simp +decide [enterDest, hprobe]

/-- A bundle whose distances are gone keeps its links' records and entries (R335). -/
theorem bunting_bundleDown (s : State) (b : Nat) : bunting (bundleDown s b) = bunting s := by
  simp [bundleDown, routeChanged]

end Sys2Proof.Machine
end

section
/-! SUPPORT. Defects of bunting lanes and bundles (R307): what a defect that is entered or left, a look at a bundle's path and a loss of
frame lock do to the lanes' lock, to the bundles and to their entries. -/

namespace Sys2Proof.Machine

/-! ### Bits -/

/-- A bit that is set stays set when another is. -/
theorem bit_setBit_of_bit {v i : Nat} (j : Nat) (h : bit v i = true) : bit (setBit v j) i = true := by
  simp only [setBit]
  split
  · exact h
  · rename_i hj
    rcases Nat.lt_trichotomy i j with hlt | rfl | hlt
    · obtain ⟨d, rfl⟩ := Nat.exists_eq_add_of_lt hlt
      have hpow : 2 ^ (i + d + 1) = 2 ^ i * (2 * 2 ^ d) := by ring
      simp only [bit, beq_iff_eq] at h ⊢
      rw [hpow, Nat.add_mul_div_left _ _ (Nat.two_pow_pos i)]
      omega
    · exact absurd h hj
    · obtain ⟨d, rfl⟩ := Nat.exists_eq_add_of_lt hlt
      have hpow : 2 ^ (j + d + 1) = 2 ^ j * 2 * 2 ^ d := by ring
      have hsplit : ∀ w, w / 2 ^ (j + d + 1) = w / 2 ^ j / 2 / 2 ^ d := fun w => by simp only [Nat.div_div_eq_div_mul, hpow]
      have hhalf : (v + 2 ^ j) / 2 ^ j / 2 = v / 2 ^ j / 2 := by
        rw [Nat.add_div_right v (Nat.two_pow_pos j)]
        simp only [bit, beq_iff_eq] at hj
        omega
      simp only [bit, hsplit, hhalf] at h ⊢
      exact h

/-- A bit reads as clear once it is cleared. -/
@[simp] theorem bit_clearBit_self (v i : Nat) : bit (clearBit v i) i = false := by
  simp only [clearBit]
  split
  · rename_i h
    have hsub : (v - 2 ^ i) / 2 ^ i = v / 2 ^ i - 1 := by simpa using Nat.sub_mul_div v (2 ^ i) 1
    simp only [bit, beq_iff_eq] at h
    simp only [bit, hsub, beq_eq_false_iff_ne]
    omega
  · exact Bool.eq_false_iff.2 ‹_›

/-- A cause bit that stands in any register is not cleared by another cause (R380). -/
theorem bit_raise_of_bit {s : State} {k i : Nat} (c : CauseReg) (b : Nat) (hk : sideEntry k = false) (h : bit (reg s k) i = true) :
    bit (reg (raise s c b) k) i = true := by
  by_cases hc : k = c.key
  · have hset : bit (reg (setReg s c.key (setBit (reg s c.key) b)) k) i = true := by
      rw [hc, reg_setReg_self]
      exact bit_setBit_of_bit b (hc ▸ h)
    simp only [raise]
    split
    · exact h
    · split
      · rwa [(noted_pulseCause [] _ c b).2.2 k hk List.not_mem_nil]
      · exact hset
  · rwa [reg_raise_of_ne s c b hk hc]

/-! ### Lanes, bundles and their entries -/

theorem flane_setFlane_ne (s : State) {l m : Nat} (x : FLane) (h : m ≠ l) : flane (setFlane s l x) m = flane s m := mget_mset_ne _ _ _ _ _ h

theorem flane_setFlane (s : State) (l : Nat) (x : FLane) (m : Nat) : flane (setFlane s l x) m = if m = l then x else flane s m := by
  split
  · rename_i h
    rw [h, flane_setFlane_self]
  · exact flane_setFlane_ne s x ‹_›

@[simp] theorem flane_setBundle (s : State) (b : Nat) (x : FBundle) (l : Nat) : flane (setBundle s b x) l = flane s l := (rfl)
@[simp] theorem flane_setReg (s : State) (k v l : Nat) : flane (setReg s k v) l = flane s l := (rfl)

/-- A bundle's record reads as what replaced it. -/
@[simp] theorem bundle_setBundle_self (s : State) (b : Nat) (x : FBundle) : bundle (setBundle s b x) b = x := mget_mset_self _ _ _ _

@[simp] theorem bundle_count1 (s : State) (k b : Nat) : bundle (count1 s k) b = bundle s b := (rfl)

/-- What a lane's or a bundle's record is after a change beside the links. -/
theorem fl_of_noted {ks : List Nat} {s t : State} (h : Noted ks s t) : t.fl = s.fl := by rw [h.1]

@[simp] theorem flane_raise (s : State) (c : CauseReg) (b l : Nat) : flane (raise s c b) l = flane s l := by
  rw [flane, fl_of_noted (noted_raise [c.key] s c b (.inl (by simp))), flane]

@[simp] theorem bundle_raise (s : State) (c : CauseReg) (b a : Nat) : bundle (raise s c b) a = bundle s a := by
  rw [bundle, fl_of_noted (noted_raise [c.key] s c b (.inl (by simp))), bundle]

theorem bundleOf_lt {l : Nat} (h : l < 320) : bundleOf l < 8 := by
  simp only [bundleOf]
  omega

/-- An entry of a lane. -/
theorem isBuntingEntry_lane {l sub : Nat} (hl : l < 320) (hs : sub < 0x40) : isBuntingEntry (key (0x2500 + l) sub) = true := by
  simp only [isBuntingEntry, Bool.and_eq_true, decide_eq_true_eq]
  simp only [key]
  omega

/-- An entry of a bundle. -/
theorem isBuntingEntry_bundle {b sub : Nat} (hb : b < 8) (hs : sub < 0x40) : isBuntingEntry (key (0x2700 + b) sub) = true := by
  simp only [isBuntingEntry, Bool.and_eq_true, decide_eq_true_eq]
  simp only [key]
  omega

/-- No entry of a lane is one of a bundle. -/
theorem laneEntry_ne_bundleEntry {l b i j : Nat} (hl : l < 320) (hi : i < 256) : key (0x2500 + l) i ≠ key (0x2700 + b) j := by
  simp only [key]
  omega

/-! ### A look at a bundle's path (R307) -/

/-- The path defects as a look finds them: with no committed set there is no path to judge. -/
def pathFound (s : State) (b : Nat) : Nat := if reg s (Reg.fbRxLaneSet b) = 0 then 0 else pathDefects s b

/-- The path defects found are stored, and each that is entered sets its cause. -/
def pathCaused (s : State) (b : Nat) : State :=
  (bitList 8 (dropBits (pathFound s b) (Nat.land (pathFound s b) (reg s (Reg.fbPathDefects b))))).foldl (fun s k => raise s (.fb b) k)
    (setReg s (Reg.fbPathDefects b) (pathFound s b))

/-- The second of a bundle with a path defect is marked (R308). -/
def pathMarked (s : State) (b : Nat) : State :=
  if pathFound s b ≠ 0 then
    setBundle (pathCaused s b) b { bundle (pathCaused s b) b with
      near := (bundle (pathCaused s b) b).near.mark (bits (pathFound s b) 2 1 != 0) }
  else pathCaused s b

theorem touchPath_eq (s : State) (b : Nat) : touchPath s b =
    if reg s (Reg.fbPathDefects b) = 0 ∧ pathFound s b ≠ 0 then bundleDown (pathMarked s b) b else pathMarked s b := (rfl)

theorem bunting_touchPath (s : State) (b : Nat) : bunting (touchPath s b) = bunting (pathMarked s b) := by
  rw [touchPath_eq]
  split
  · exact bunting_bundleDown _ b
  · rfl

theorem noted_pathCaused (s : State) (b : Nat) : Noted [Reg.fbPathDefects b, Reg.fbCause b] s (pathCaused s b) :=
  (noted_setReg _ s _ _ (.inl (by simp))).trans (noted_foldl _ _ (fun s k => noted_raise _ s (.fb b) k (.inl (by simp [CauseReg.key]))) _ _)

theorem reg_pathMarked (s : State) (b k : Nat) : reg (pathMarked s b) k = reg (pathCaused s b) k := by
  rw [pathMarked]
  split <;> rfl

/-- A look at a path leaves the lanes as they were. -/
@[simp] theorem flane_touchPath (s : State) (b l : Nat) : flane (touchPath s b) l = flane s l := by
  rw [flane_of_bunting (bunting_touchPath s b), pathMarked]
  have hcaused : flane (pathCaused s b) l = flane s l := by rw [flane, fl_of_noted (noted_pathCaused s b), flane]
  split <;> exact hcaused

/-- A look at a path marks at most the bundle's second. -/
theorem bundle_touchPath (s : State) (b : Nat) : ∃ near, bundle (touchPath s b) b = { bundle s b with near := near } := by
  have hcaused : bundle (pathCaused s b) b = bundle s b := by rw [bundle, fl_of_noted (noted_pathCaused s b), bundle]
  rw [bundle_of_bunting (bunting_touchPath s b), pathMarked]
  split
  · exact ⟨_, by rw [bundle_setBundle_self, hcaused]⟩
  · exact ⟨_, hcaused⟩

/-- A look at a path moves the path defects and the cause of the bundle, and no other entry of lanes and bundles. -/
theorem reg_touchPath {s : State} {b k : Nat} (hk : isBuntingEntry k = true) (hne : k ∉ [Reg.fbPathDefects b, Reg.fbCause b]) :
    reg (touchPath s b) k = reg s k := by
  rw [reg_of_bunting (bunting_touchPath s b) hk, reg_pathMarked, (noted_pathCaused s b).2.2 k (side_of_isBuntingEntry hk) hne]

/-- The entries of the lanes stay under a look at a path. -/
theorem reg_touchPath_lane {l b sub : Nat} (s : State) (hl : l < 320) (hb : b < 8) (hs : sub < 0x40) :
    reg (touchPath s b) (key (0x2500 + l) sub) = reg s (key (0x2500 + l) sub) := by
  refine reg_touchPath (isBuntingEntry_lane hl hs) ?_
  simp only [Reg.fbPathDefects, Reg.fbCause, keyIf_lt hb, List.mem_cons, List.not_mem_nil, or_false, not_or]
  exact ⟨laneEntry_ne_bundleEntry hl (by omega), laneEntry_ne_bundleEntry hl (by omega)⟩

/-! ### Defects of a lane (R307) -/

/-- What the frame lock of a lane, its place in the stream and its signal are: what no defect and no bundle frame moves. -/
structure LaneLock where
  signal : Bool
  signalAt : Nat
  cwLock : Bool
  locked : Bool
  off : Nat
  misses : Nat
  bip : Option Nat

def FLane.lock (x : FLane) : LaneLock := ⟨x.signal, x.signalAt, x.cwLock, x.locked, x.off, x.misses, x.bip⟩

/-- The lock of each lane. -/
def locks (s : State) (l : Nat) : LaneLock := (flane s l).lock

/-- A lane's new record with the same lock. -/
theorem locks_setFlane {s : State} {l : Nat} {x : FLane} (h : x.lock = (flane s l).lock) : locks (setFlane s l x) = locks s := by
  funext m
  simp only [locks, flane_setFlane]
  split
  · rename_i hm
    rw [h, hm]
  · rfl

theorem locks_of_fl {s t : State} (h : t.fl = s.fl) : locks t = locks s := by
  funext l
  rw [locks, flane, h, locks, flane]

@[simp] theorem locks_setReg (s : State) (k v : Nat) : locks (setReg s k v) = locks s := locks_of_fl rfl
@[simp] theorem locks_countBy (s : State) (w k n : Nat) : locks (countBy s w k n) = locks s := locks_of_fl rfl
@[simp] theorem locks_count1 (s : State) (k : Nat) : locks (count1 s k) = locks s := locks_of_fl rfl
@[simp] theorem locks_setBundle (s : State) (b : Nat) (x : FBundle) : locks (setBundle s b x) = locks s := (rfl)
@[simp] theorem locks_raise (s : State) (c : CauseReg) (b : Nat) : locks (raise s c b) = locks s := by
  funext l
  simp [locks]
@[simp] theorem locks_touchPath (s : State) (b : Nat) : locks (touchPath s b) = locks s := by
  funext l
  simp [locks]

/-- The lane's defects with one entered or left. -/
def defectsWith (s : State) (l k : Nat) (on : Bool) : Nat :=
  if on then setBit (reg s (Reg.flDefects l)) k else clearBit (reg s (Reg.flDefects l)) k

/-- A defect that is entered or left is stored and marks the lane's record. -/
def defectStored (s : State) (l k : Nat) (on : Bool) : State :=
  setFlane (setReg s (Reg.flDefects l) (defectsWith s l k on)) l { flane s l with
    defectAt := if defectsWith s l k on = 0 then none else some ((flane s l).defectAt.getD s.time)
    near := if on then (flane s l).near.mark (k == 2) else (flane s l).near }

theorem sectionDefect_eq (s : State) (l k : Nat) (on : Bool) : sectionDefect s l k on =
    if bit (reg s (Reg.flDefects l)) k = on then s
    else touchPath (if on then raise (defectStored s l k on) (.fl l) k else defectStored s l k on) (bundleOf l) := (rfl)

/-- A defect leaves every lane's lock as it was. -/
@[simp] theorem locks_sectionDefect (s : State) (l k : Nat) (on : Bool) : locks (sectionDefect s l k on) = locks s := by
  have hstored : locks (defectStored s l k on) = locks s := (locks_setFlane (by rfl)).trans (locks_setReg s _ _)
  rw [sectionDefect_eq]
  split
  · rfl
  · rw [locks_touchPath]
    split
    · rw [locks_raise, hstored]
    · exact hstored

theorem reg_mgmtBroken (s : State) (b l k : Nat) : reg (mgmtBroken s b l) k = reg s k := by
  rw [mgmtBroken]
  split <;> rfl

section
variable {l : Nat} (hl : l < 320)
include hl

/-- A defect moves the defects and the cause of its lane, and no other entry of it. -/
theorem reg_sectionDefect (s : State) (k : Nat) (on : Bool) {sub : Nat} (hs : sub < 0x40) (hd : sub ≠ 6) (hc : sub ≠ 0x13) :
    reg (sectionDefect s l k on) (key (0x2500 + l) sub) = reg s (key (0x2500 + l) sub) := by
  have hstored : reg (defectStored s l k on) (key (0x2500 + l) sub) = reg s (key (0x2500 + l) sub) := by
    rw [defectStored, reg_setFlane, Reg.flDefects, keyIf_lt hl, reg_setReg_sub s _ _ hd]
  rw [sectionDefect_eq]
  split
  · rfl
  · rw [reg_touchPath_lane _ hl (bundleOf_lt hl) hs]
    split
    · rw [reg_raise_of_ne _ (.fl l) k (side_portLane (by omega) (by omega) (by omega)), hstored]
      rw [CauseReg.key, Reg.flCause, keyIf_lt hl]
      exact key_ne_of_sub _ hc
    · exact hstored

/-- A defect that is entered or left stands as such. -/
theorem defects_sectionDefect (s : State) (k : Nat) (on : Bool) : bit (reg (sectionDefect s l k on) (Reg.flDefects l)) k = on := by
  have hentry : Reg.flDefects l = key (0x2500 + l) 6 := keyIf_lt hl _
  have hstored : bit (reg (defectStored s l k on) (Reg.flDefects l)) k = on := by
    rw [defectStored, reg_setFlane, reg_setReg_self]
    cases on <;> simp [defectsWith]
  rw [sectionDefect_eq]
  split
  · assumption
  · rw [hentry, reg_touchPath_lane _ hl (bundleOf_lt hl) (by decide), ← hentry]
    split
    · rw [reg_raise_of_ne _ (.fl l) k (hentry ▸ side_portLane (by omega) (by omega) (by decide)), hstored]
      rw [CauseReg.key, Reg.flCause, keyIf_lt hl, hentry]
      exact key_ne_of_sub _ (by decide)
    · exact hstored

/-- A cause of the lane that stands is not cleared by a defect. -/
theorem cause_sectionDefect {s : State} {i : Nat} (k : Nat) (on : Bool) (h : bit (reg s (Reg.flCause l)) i = true) :
    bit (reg (sectionDefect s l k on) (Reg.flCause l)) i = true := by
  have hentry : Reg.flCause l = key (0x2500 + l) 0x13 := keyIf_lt hl _
  have hstored : bit (reg (defectStored s l k on) (Reg.flCause l)) i = true := by
    rwa [defectStored, reg_setFlane, hentry, Reg.flDefects, keyIf_lt hl, reg_setReg_sub s _ _ (by decide), ← hentry]
  rw [sectionDefect_eq]
  split
  · exact h
  · rw [hentry, reg_touchPath_lane _ hl (bundleOf_lt hl) (by decide), ← hentry]
    split
    · exact bit_raise_of_bit (.fl l) k (hentry ▸ side_portLane (by omega) (by omega) (by decide)) hstored
    · exact hstored

/-! ### Frame lock lost (R305) -/

omit hl in
/-- A loss of frame lock clears the lane's record, breaks a management packet off and enters the frame defect. -/
theorem loseFrame_eq (s : State) (l : Nat) : loseFrame s l = sectionDefect (mgmtBroken (lockCleared s l) (bundleOf l) l) l 2 true := (rfl)

/-- A loss of frame lock moves the lane's ID, its defects and its cause, and no other entry of it. -/
theorem reg_loseFrame (s : State) {sub : Nat} (hs : sub < 0x40) (hid : sub ≠ 5) (hd : sub ≠ 6) (hc : sub ≠ 0x13) :
    reg (loseFrame s l) (key (0x2500 + l) sub) = reg s (key (0x2500 + l) sub) := by
  rw [loseFrame_eq, reg_sectionDefect hl _ 2 true hs hd hc, reg_mgmtBroken, lockCleared, Reg.flRxLaneId, keyIf_lt hl, reg_setReg_sub _ _ _ hid,
    reg_setFlane]

/-- A cause of the lane that stands is not cleared by a loss of frame lock. -/
theorem cause_loseFrame {s : State} {i : Nat} (h : bit (reg s (Reg.flCause l)) i = true) :
    bit (reg (loseFrame s l) (Reg.flCause l)) i = true := by
  have hentry : Reg.flCause l = key (0x2500 + l) 0x13 := keyIf_lt hl _
  rw [loseFrame_eq]
  refine cause_sectionDefect hl 2 true ?_
  rwa [reg_mgmtBroken, lockCleared, hentry, Reg.flRxLaneId, keyIf_lt hl, reg_setReg_sub _ _ _ (by decide), reg_setFlane, ← hentry]

end

/-- A loss of frame lock leaves the codeword lock as it was. -/
theorem cwLock_loseFrame (s : State) (l : Nat) : (flane (loseFrame s l) l).cwLock = (flane s l).cwLock := by
  have hbroken : locks (mgmtBroken (lockCleared s l) (bundleOf l) l) = locks (lockCleared s l) := by
    rw [mgmtBroken]
    split <;> rfl
  have hlocks := congrFun ((locks_sectionDefect _ l 2 true).trans hbroken) l
  rw [← loseFrame_eq] at hlocks
  have hcleared : (flane (lockCleared s l) l).cwLock = (flane s l).cwLock := by
    rw [lockCleared, flane_setReg, flane_setFlane_self]
  exact (congrArg LaneLock.cwLock hlocks).trans hcleared

end Sys2Proof.Machine
end

section
/-! SUPPORT. Frames received (ch. 12): what the frames of a lane in lock, the bundle frames they complete and the containers leave of the
lanes and bundles (R287–R307, R318). -/

namespace Sys2Proof.Machine

variable {α : Type}

/-! ### Bundle frames (R297–R300, R343) -/

@[simp] theorem locks_ite (c : Prop) [Decidable c] (s t : State) : locks (if c then s else t) = if c then locks s else locks t :=
  apply_ite locks c s t

@[simp] theorem locks_foldl {f : State → α → State} (h : ∀ s x, locks (f s x) = locks s) (l : List α) (s : State) :
    locks (l.foldl f s) = locks s :=
  List.foldlRecOn l f (motive := fun t => locks t = locks s) rfl fun t ht x _ => (h t x).trans ht

@[simp] theorem locks_runStep (s : State) (l k : Nat) (bad : Bool) (run : Nat) : locks (runStep s l k bad run).2 = locks s := by
  simp [runStep]

@[simp] theorem locks_interpret (s : State) (b mf : Nat) (w : Option Nat) : locks (interpret s b mf w).2 = locks s := by
  simp [interpret]

@[simp] theorem locks_perfHeld (s : State) (code inst n : Nat) : locks (perfHeld s code inst n) = locks s :=
  locks_of_fl (fl_of_noted (noted_perfHeld [] s code inst n))

@[simp] theorem locks_setBurgee (s : State) (b v : Nat) : locks (setBurgee s b v) = locks s := by
  simp only [setBurgee]
  split
  · rfl
  · split
    · rw [locks_perfHeld, locks_countBy]
      rfl
    · rfl

/-- A bundle frame leaves every lane's lock as it was. -/
@[simp] theorem locks_bundleFrame (s : State) (b : Nat) : locks (bundleFrame s b) = locks s := by
  unfold bundleFrame
  extract_lets set lanes active good w s1 mfOf mf b1 s2 ptr r s3 keep restart s4 b2 s5 s6 m b3 x s7
  clear_value w m
  have h1 : locks s1 = locks s := by
    simp only [s1]
    split
    · refine locks_foldl (fun t l => ?_) _ s
      split
      · exact (locks_setFlane (by rfl)).trans (locks_runStep _ _ _ _ _)
      · rfl
    · rfl
  have h2 : locks s2 = locks s1 := by simp [s2]
  have h3 : locks s3 = locks s2 := by simp [s3, r]
  have h4 : locks s4 = locks s3 := locks_foldl (fun t l => locks_setFlane (by rfl)) _ _
  have h5 : locks s5 = locks s4 := by simp [s5]
  have h6 : locks s6 = locks s5 := by
    simp only [s6]
    split <;> simp
  have h7 : locks s7 = locks s6 := by
    simp only [s7]
    split
    · exact (locks_setFlane (by rfl)).trans (locks_setBundle _ _ _)
    · rfl
  rw [locks_touchPath, h7, h6, h5, h4, h3, h2, h1]

@[simp] theorem locks_slotDone (s : State) (l mf : Nat) : locks (slotDone s l mf) = locks s := by
  simp only [slotDone]
  repeat' split
  all_goals simp

/-- The fields of a valid frame leave the lane's lock as it was (R291–R294, R306). -/
@[simp] theorem locks_validFrame (s : State) (l : Nat) (f : List Byte) : locks (validFrame s l f) = locks s := by
  unfold validFrame
  extract_lets b id mf s1 dup r y s2 x e far rdi s3 s4 fr slots s5
  have h2 : locks s2 = locks s := by
    rw [show locks s2 = locks r.2 from locks_setFlane (by rfl)]
    simp [r, s1]
  have h4 : locks s4 = locks s2 := by simp [s4, s3]
  have hx : x.lock = (flane s4 l).lock := (congrFun h4 l).symm
  have h5 : locks s5 = locks s4 := locks_setFlane (by exact hx)
  rw [locks_slotDone, h5, h4, h2]

/-- A frame period that counts toward its bundle's leaves every lane's lock as it was. -/
@[simp] theorem locks_gatherFrame (s : State) (l : Nat) : locks (gatherFrame s l) = locks s := by simp [gatherFrame]

/-- A frame in lock with its alignment word: the lane stays in lock with no miss, and the frame's parity is what the next one must report
(R290, R293, R305). -/
theorem lock_framedFrame {s : State} {l : Nat} (skew : Nat) {f : List Byte} (h : beAt f 0 4 = fawWord) :
    locks (framedFrame s l skew f) l = { locks s l with misses := 0, bip := some (bip8 (f.drop 64)) } := by
  unfold framedFrame
  extract_lets x miss s1 r y s2 ok mf s3 z s4 s5 w lock
  have hmiss : miss = 0 := if_pos h
  have h1 : locks r.2 = locks s := by simp [r, s1]
  have h2 : locks s2 l = { locks s l with misses := 0 } := by
    rw [← h1, ← hmiss, locks, flane_setFlane_self]
    rfl
  have h3 : locks s3 = locks s2 := by simp [s3]
  have h4 : locks s4 = locks s3 := locks_setFlane (by rfl)
  have h5 : locks s5 = locks s4 := by simp [s5]
  rw [if_neg (by omega), locks, flane_setFlane_self]
  change { locks s5 l with bip := some (bip8 (f.drop 64)) } = _
  rw [h5, h4, h3, h2]

end Sys2Proof.Machine
end

section
/-! SUPPORT. Commands of the receiving side of ch. 12: codewords, the hunt, containers, signal and management packets. -/

namespace Sys2Proof.Machine

/-! ### Codewords (R287) -/

/-- The counts of a decoded codeword. -/
def codewordCounted (s : State) (l o : Nat) : State :=
  if o = 1 then count1 s (Reg.flFecCorrected l) else if o = 2 then raise (count1 s (Reg.flFecUncorrected l)) (.fl l) 6 else s

/-- The lane's run of codewords that contradict its codeword lock, and the turn of the lock at the eighth. -/
def codewordRun (s : State) (l : Nat) (good : Bool) : State :=
  if good != (flane s l).cwLock then
    if (flane s l).cwRun + 1 < 8 then setFlane s l { flane s l with cwRun := (flane s l).cwRun + 1 }
    else
      let t := sectionDefect (setFlane s l { flane s l with cwRun := 0, cwLock := good }) l 1 (!good)
      if good then sectionDefect t l 2 true else loseFrame t l
  else setFlane s l { flane s l with cwRun := 0 }

theorem exec_fecCodewordDecode {s : State} {l o : Nat} (hl : l < 320) (ho : o ≤ 2) (hdark : s.pwr.dark = false) :
    Answers (.fecCodewordDecode l o) s (codewordRun (codewordCounted s l o) l (o != 2)) := by
  have hgo : ¬ (320 ≤ l ∨ 2 < o ∨ s.pwr.dark = true) := by
    rw [hdark]
    simp
    omega
  simp only [Answers, exec, execFecCodewordDecode, if_neg hgo, codewordRun, apply_ite Host.Outcome.next]
  rfl

section
variable {l : Nat} (hl : l < 320)
include hl

/-- The run of codewords moves the lane's ID, its defects and its cause, and no other entry of it. -/
theorem reg_codewordRun (s : State) (good : Bool) {sub : Nat} (hs : sub < 0x40) (hid : sub ≠ 5) (hd : sub ≠ 6) (hc : sub ≠ 0x13) :
    reg (codewordRun s l good) (key (0x2500 + l) sub) = reg s (key (0x2500 + l) sub) := by
  simp only [codewordRun]
  split
  · split
    · rfl
    · split
      · rw [reg_sectionDefect hl _ 2 true hs hd hc, reg_sectionDefect hl _ 1 _ hs hd hc, reg_setFlane]
      · rw [reg_loseFrame hl _ hs hid hd hc, reg_sectionDefect hl _ 1 _ hs hd hc, reg_setFlane]
  · rfl

/-- A cause of the lane that stands is not cleared by the run of codewords. -/
theorem cause_codewordRun {s : State} {i : Nat} (good : Bool) (h : bit (reg s (Reg.flCause l)) i = true) :
    bit (reg (codewordRun s l good) (Reg.flCause l)) i = true := by
  simp only [codewordRun]
  split
  · split
    · exact h
    · split
      · exact cause_sectionDefect hl 2 true (cause_sectionDefect hl 1 _ h)
      · exact cause_loseFrame hl (cause_sectionDefect hl 1 _ h)
  · exact h

end

/-- The counts of a codeword leave the lane as it was. -/
theorem flane_codewordCounted (s : State) (l o : Nat) : flane (codewordCounted s l o) l = flane s l := by
  rw [codewordCounted]
  split
  · rfl
  · split
    · exact flane_raise _ _ _ _
    · rfl

/-- The eighth codeword in a row with an error turns the lock off, and the frame lock with it. -/
theorem codewordRun_off {s : State} {l : Nat} (hlock : (flane s l).cwLock = true) (hrun : (flane s l).cwRun = 7) :
    (flane (codewordRun s l false) l).cwLock = false ∧ (flane (codewordRun s l false) l).locked = false := by
  have hturn : codewordRun s l false =
      loseFrame (sectionDefect (setFlane s l { flane s l with cwRun := 0, cwLock := false }) l 1 true) l := by
    simp [codewordRun, hlock, hrun]
  have hkept := congrFun (locks_sectionDefect (setFlane s l { flane s l with cwRun := 0, cwLock := false }) l 1 true) l
  rw [hturn, cwLock_loseFrame]
  refine ⟨(congrArg LaneLock.cwLock hkept).trans ?_, (loseFrame_keeps _ l).1⟩
  rw [locks, flane_setFlane_self]
  rfl

/-- The eighth good codeword in a row turns the lock on. -/
theorem codewordRun_on {s : State} {l : Nat} (hlock : (flane s l).cwLock = false) (hrun : (flane s l).cwRun = 7) :
    (flane (codewordRun s l true) l).cwLock = true := by
  have hturn : codewordRun s l true =
      sectionDefect (sectionDefect (setFlane s l { flane s l with cwRun := 0, cwLock := true }) l 1 false) l 2 true := by
    simp [codewordRun, hlock, hrun]
  have hkept := congrFun ((locks_sectionDefect _ l 2 true).trans
    (locks_sectionDefect (setFlane s l { flane s l with cwRun := 0, cwLock := true }) l 1 false)) l
  rw [hturn]
  refine (congrArg LaneLock.cwLock hkept).trans ?_
  rw [locks, flane_setFlane_self]
  rfl

/-! ### The hunt (R305) -/

/-- A valid frame with the number that a candidate with two hits expects is its third hit. -/
theorem huntStep_third {cs : List Cand} {off : Nat} {f : List Byte} {c : Cand} (hfind : cs.find? (fun c => c.off = off) = some c)
    (hhits : c.hits = 2) (hfaw : beAt f 0 4 = fawWord) (hcrc : crc8 (slice f 4 11) = byteAt f 15) (hnext : byteAt f 5 = c.next) :
    huntStep cs off f = ([], true) := by
  simp [huntStep, hfind, hhits, hfaw, hcrc, hnext]

/-- The record of a lane that its third hit locks to a place of its stream. -/
def FLane.lockedAt (x : FLane) (off : Nat) (f : List Byte) : FLane :=
  { x with locked := true, off := off, cands := [], misses := 0, mf := byteAt f 5 % 64, bip := none, idRun := 0, skewRun := 0,
           ptrRun := 0, slots := [] }

/-- The lane as its third hit leaves it: in frame lock at the candidate's place, with the ID it carries. -/
def frameFound (s : State) (l off : Nat) (f : List Byte) : State :=
  setReg (setFlane s l ((flane s l).lockedAt off f)) (Reg.flRxLaneId l) (byteAt f 4)

/-- A lane that a frame may reach: in codeword lock and under no test, with a whole frame within its stream. -/
def MayFrame (s : State) (l off : Nat) (f : List Byte) : Prop :=
  l < 320 ∧ (flane s l).cwLock = true ∧ laneTest s l = false ∧ f.length = 16384 ∧ off < 16384

theorem exec_frameFound {s : State} {l off : Nat} {f : List Byte} (skew : Nat) (h : MayFrame s l off f) (hlocked : (flane s l).locked = false)
    (hhunt : huntStep (flane s l).cands off f = ([], true)) :
    Answers (.buntingFrameReceive l off skew f) s (sectionDefect (frameFound s l off f) l 2 false) := by
  obtain ⟨hl, hcw, htest, hlen, hoff⟩ := h
  simp [Answers, exec, execBuntingFrameReceive, hl, hcw, htest, hlen, hoff, hlocked, hhunt, frameFound, FLane.lockedAt]

/-- The lane in frame lock is at its place, with its ID, and without the frame defect. -/
theorem frameFound_spec {s : State} {l : Nat} (hl : l < 320) (off : Nat) (f : List Byte) :
    (flane (sectionDefect (frameFound s l off f) l 2 false) l).locked = true ∧
    (flane (sectionDefect (frameFound s l off f) l 2 false) l).off = off ∧
    reg (sectionDefect (frameFound s l off f) l 2 false) (Reg.flRxLaneId l) = byteAt f 4 ∧
    bit (reg (sectionDefect (frameFound s l off f) l 2 false) (Reg.flDefects l)) 2 = false := by
  have hlock := congrFun (locks_sectionDefect (frameFound s l off f) l 2 false) l
  have hlane := flane_setFlane_self s l ((flane s l).lockedAt off f)
  have hid : Reg.flRxLaneId l = key (0x2500 + l) 5 := keyIf_lt hl _
  refine ⟨(congrArg LaneLock.locked hlock).trans (congrArg FLane.locked hlane),
    (congrArg LaneLock.off hlock).trans (congrArg FLane.off hlane), ?_, defects_sectionDefect hl _ 2 false⟩
  rw [hid, reg_sectionDefect hl _ 2 false (by decide) (by decide) (by decide), frameFound, hid, reg_setReg_self]

/-! ### A frame in lock (R289–R300) -/

/-- A frame of a lane already counted toward its bundle's ends that bundle frame first. -/
def frameGathered (s : State) (l : Nat) : State :=
  if (bundle s (bundleOf l)).got.contains l then bundleFrame s (bundleOf l) else s

theorem exec_frameInLock {s : State} {l : Nat} {f : List Byte} (skew : Nat) (h : MayFrame s l (flane s l).off f)
    (hlocked : (flane s l).locked = true) : Answers (.buntingFrameReceive l (flane s l).off skew f) s
      (gatherFrame (framedFrame (frameGathered s l) l skew f) l) := by
  obtain ⟨hl, hcw, htest, hlen, hoff⟩ := h
  have hgo : ¬ (320 ≤ l ∨ (!(flane s l).cwLock) = true ∨ laneTest s l = true ∨ f.length ≠ 16384 ∨ 16384 ≤ (flane s l).off) := by
    simp [hcw, htest, hlen, hl, hoff]
  simp only [Answers, exec, execBuntingFrameReceive, if_neg hgo, hlocked, if_true, ne_eq, not_true_eq_false, if_false]
  rfl

theorem lock_frameInLock {s : State} {l : Nat} (skew : Nat) {f : List Byte} (h : beAt f 0 4 = fawWord) :
    locks (gatherFrame (framedFrame (frameGathered s l) l skew f) l) l =
      { locks s l with misses := 0, bip := some (bip8 (f.drop 64)) } := by
  have hgathered : locks (frameGathered s l) = locks s := by simp [frameGathered]
  rw [locks_gatherFrame, lock_framedFrame skew h, hgathered]

/-! ### Containers (R301–R304) -/

/-- Lanes that are each changed once, from what they read. -/
theorem flane_foldl {p : Nat → Nat} {g : Nat → FLane → FLane} {f : State → Nat → State} (hp : Function.Injective p)
    (h : ∀ s i m, flane (f s i) m = if m = p i then g i (flane s m) else flane s m) {i : Nat} :
    ∀ (l : List Nat) (s : State), l.Nodup →
      flane (l.foldl f s) (p i) = if i ∈ l then g i (flane s (p i)) else flane s (p i)
  | [], _, _ => by simp
  | j :: r, s, hl => by
    obtain ⟨hj, hr⟩ := List.nodup_cons.1 hl
    rw [List.foldl_cons, flane_foldl hp h r _ hr, h]
    by_cases hij : i = j
    · subst hij
      simp [hj]
    · simp [hij, hp.eq_iff]

/-- The bytes of a container frame leave the framed lanes. -/
def containerTaken (s : State) (b : Nat) : State :=
  ((bundleLanes b).filter (fun l => (flane s l).locked)).foldl
    (fun s l => setFlane s l { flane s l with acc := (flane s l).acc.drop 16320 }) s

theorem nodup_bundleLanes (b : Nat) : (bundleLanes b).Nodup :=
  List.Nodup.map (fun _ _ h => Nat.add_right_cancel h) List.nodup_range

theorem acc_containerTaken {s : State} {b l : Nat} (hl : l ∈ bundleLanes b) (hlocked : (flane s l).locked = true) :
    (flane (containerTaken s b) l).acc = (flane s l).acc.drop 16320 := by
  have hfold := flane_foldl (p := id) (g := fun _ x => { x with acc := x.acc.drop 16320 }) (i := l) Function.injective_id
    (f := fun s l => setFlane s l { flane s l with acc := (flane s l).acc.drop 16320 })
    (fun s i m => by
      rw [flane_setFlane]
      split
      · rename_i hm
        simp [hm]
      · simp_all) _ s ((nodup_bundleLanes b).filter (fun l => (flane s l).locked))
  have hmem : l ∈ (bundleLanes b).filter (fun l => (flane s l).locked) := List.mem_filter.2 ⟨hl, hlocked⟩
  rw [if_pos hmem] at hfold
  exact congrArg FLane.acc hfold

/-- The path overhead leaves the bundle's parity and the lanes as they were (R303, R304). -/
theorem pathOverhead_keeps (s : State) (b po : Nat) : (bundle (pathOverhead s b po) b).bip = (bundle s b).bip ∧
    ∀ l, flane (pathOverhead s b po) l = flane s l := by
  unfold pathOverhead
  extract_lets x rdi fe s1 s2 i now whole run la ca sa s3 s4 fr
  have h2 : s2.fl = s.fl := by
    simp only [s2]
    split
    · exact (fl_of_noted (noted_raise [CauseReg.key (.fb b)] s1 (.fb b) 8 (.inl (by simp)))).trans rfl
    · rfl
  have h3 : s3.fl = s.fl := by
    simp only [s3]
    split <;> exact h2
  have h4 : s4.fl = s.fl := by
    simp only [s4]
    split <;> exact h3
  refine ⟨by rw [bundle_setBundle_self], fun l => ?_⟩
  rw [flane_setBundle, flane, h4, flane]

/-- A container frame: its parity is what the next one must report, and the lanes are left alone (R302). -/
theorem containerFrame_keeps (s : State) (b n : Nat) (c : List Byte) : (bundle (containerFrame s b n c) b).bip = some (bip16 c) ∧
    ∀ l, flane (containerFrame s b n c) l = flane s l := by
  unfold containerFrame
  extract_lets x po e s1 s2 s3 s4 ps
  have h3 : (bundle s3 b).bip = some (bip16 c) ∧ ∀ l, flane s3 l = flane s l := by
    have hbip : (bundle s2 b).bip = some (bip16 c) := congrArg FBundle.bip (bundle_setBundle_self s1 b _)
    simp only [s3]
    split
    · obtain ⟨hb, hlanes⟩ := pathOverhead_keeps s2 b po
      exact ⟨hb.trans hbip, hlanes⟩
    · exact ⟨(congrArg FBundle.bip (bundle_count1 s2 _ b)).trans hbip, fun _ => rfl⟩
  have h4 : (bundle s4 b).bip = some (bip16 c) ∧ ∀ l, flane s4 l = flane s l := by
    obtain ⟨near, hnear⟩ := bundle_touchPath s3 b
    exact ⟨(congrArg FBundle.bip hnear).trans h3.1, fun l => (flane_touchPath s3 b l).trans (h3.2 l)⟩
  split
  · exact h4
  · refine ⟨?_, h4.2⟩
    rw [bundle_setBundle_self]
    exact h4.1

/-- The container's bytes of the lane that carries an ID, zeros where no lane does. -/
def containerBytes (s : State) (b i : Nat) : List Byte := match laneOfId s b i with
  | some l => (flane s l).acc.take 16320
  | none => List.replicate 16320 0

theorem exec_containerFrameReceive {s : State} {b : Nat} (hb : b < 8)
    (hne : (idsOf (reg s (Reg.fbRxLaneSet b))).filterMap (laneOfId s b) ≠ [])
    (hacc : ∀ x ∈ (idsOf (reg s (Reg.fbRxLaneSet b))).filterMap (laneOfId s b), 16320 ≤ (flane s x).acc.length) :
    Answers (.containerFrameReceive b) s (containerFrame (containerTaken s b) b (idsOf (reg s (Reg.fbRxLaneSet b))).length
      (interleave 16320 ((idsOf (reg s (Reg.fbRxLaneSet b))).map (containerBytes s b)))) := by
  have hany : ((idsOf (reg s (Reg.fbRxLaneSet b))).filterMap (laneOfId s b)).any
      (fun l => decide ((flane s l).acc.length < 16320)) = false := by
    simpa only [List.any_eq_false, decide_eq_true_eq, Nat.not_lt] using hacc
  have hgo : ¬ (8 ≤ b ∨ ((idsOf (reg s (Reg.fbRxLaneSet b))).filterMap (laneOfId s b)).isEmpty = true ∨
      ((idsOf (reg s (Reg.fbRxLaneSet b))).filterMap (laneOfId s b)).any (fun l => decide ((flane s l).acc.length < 16320)) = true) := by
    rw [hany, List.isEmpty_iff]
    simp [hne, hb]
  simp only [Answers, exec, execContainerFrameReceive, if_neg hgo]
  rfl

/-! ### The management channel (R318) -/

/-- A whole packet of the channel leaves its line. -/
def packetTaken (s : State) (b : Nat) (rest : List (List Byte)) : State := setBundle s b { bundle s b with mgRaw := rest }

/-- A packet with a good CRC is held for the firmware. -/
def packetHeld (s : State) (b : Nat) (p : List Byte) (rest : List (List Byte)) : State :=
  setBundle (count1 (packetTaken s b rest) (Reg.fbMgmtRxPackets b)) b { bundle (packetTaken s b rest) b with
    mgHeld := (bundle s b).mgHeld ++ [slice p 2 (beAt p 0 2)] }

section
variable {s : State} {b : Nat} {p : List Byte} {rest : List (List Byte)} (hraw : (bundle s b).mgRaw = p :: rest)
include hraw

theorem exec_mgmtPacket_good (hcrc : crc32 (p.take (beAt p 0 2 + 2)) = beAt p (beAt p 0 2 + 2) 4) (hroom : (bundle s b).mgHeld.length < 8) :
    Answers (.mgmtChannelPacket b) s (packetHeld s b p rest) := by
  have hfull : ¬ 8 ≤ (bundle s b).mgHeld.length := by omega
  simp only [Answers, exec, execMgmtChannelPacket, hraw, hcrc, if_true, if_neg hfull]
  rfl

theorem exec_mgmtPacket_bad (hcrc : crc32 (p.take (beAt p 0 2 + 2)) ≠ beAt p (beAt p 0 2 + 2) 4) :
    Answers (.mgmtChannelPacket b) s (raise (count1 (packetTaken s b rest) (Reg.fbMgmtRxCrcErrors b)) (.fb b) 13) := by
  simp only [Answers, exec, execMgmtChannelPacket, hraw, if_neg hcrc]
  rfl

end

end Sys2Proof.Machine

namespace Sys2Proof

open Machine

section
variable {s : State} {l b : Nat}

/-- The clause of decoded codewords (R287). -/
theorem codeword_decoded (hl : l < 320) {o : Nat} (ho : o ≤ 2) (hdark : s.pwr.dark = false) :
    ∃ t, Answers (.fecCodewordDecode l o) s t ∧
      (o = 1 → reg t (Reg.flFecCorrected l) = (reg s (Reg.flFecCorrected l) + 1) % 2 ^ 64) ∧
      (o = 2 → reg t (Reg.flFecUncorrected l) = (reg s (Reg.flFecUncorrected l) + 1) % 2 ^ 64 ∧ bit (reg t (Reg.flCause l)) 6 = true) ∧
      (o = 2 → (flane s l).cwLock = true → (flane s l).cwRun = 7 → (flane t l).cwLock = false ∧ (flane t l).locked = false) ∧
      (o ≤ 1 → (flane s l).cwLock = false → (flane s l).cwRun = 7 → (flane t l).cwLock = true) := by
  have hlane := flane_codewordCounted s l o
  have hcorrected : Reg.flFecCorrected l = key (0x2500 + l) 8 := keyIf_lt hl _
  have huncorrected : Reg.flFecUncorrected l = key (0x2500 + l) 9 := keyIf_lt hl _
  have hcause : (CauseReg.fl l).key = key (0x2500 + l) 0x13 := keyIf_lt hl _
  have hne : key (0x2500 + l) 9 ≠ (CauseReg.fl l).key := by
    rw [hcause]
    exact key_ne_of_sub _ (by decide)
  have hside : ∀ sub < 256, sideEntry (key (0x2500 + l) sub) = false := fun sub h => side_portLane (by omega) (by omega) h
  refine ⟨_, exec_fecCodewordDecode hl ho hdark, fun h => ?_, fun h => ⟨?_, cause_codewordRun hl _ ?_⟩, fun h hlock hrun => ?_,
    fun h hlock hrun => ?_⟩
  · rw [hcorrected, reg_codewordRun hl _ _ (by decide) (by decide) (by decide) (by decide), codewordCounted, if_pos h, count1, countBy,
      hcorrected, reg_setReg_self]
  · rw [huncorrected, reg_codewordRun hl _ _ (by decide) (by decide) (by decide) (by decide), codewordCounted, if_neg (by omega), if_pos h,
      reg_raise_of_ne _ (.fl l) 6 (hside 9 (by decide)) hne, count1, countBy, huncorrected, reg_setReg_self]
  · rw [codewordCounted, if_neg (by omega), if_pos h]
    exact bit_raise_self _ (.fl l) 6 (hcause ▸ hside 0x13 (by decide))
  · rw [h] at hlane ⊢
    exact codewordRun_off (hlane ▸ hlock) (hlane ▸ hrun)
  · have hgood : (o != 2) = true := by simp; omega
    rw [hgood]
    exact codewordRun_on (hlane ▸ hlock) (hlane ▸ hrun)

/-- The clause of a management packet (R318). -/
theorem mgmtPacket_checked (hb : b < 8) {p : List Byte} {r : List (List Byte)} (hraw : (bundle s b).mgRaw = p :: r) :
    (crc32 (p.take (beAt p 0 2 + 2)) = beAt p (beAt p 0 2 + 2) 4 → (bundle s b).mgHeld.length < 8 →
      ∃ t, Answers (.mgmtChannelPacket b) s t ∧ (bundle t b).mgHeld = (bundle s b).mgHeld ++ [slice p 2 (beAt p 0 2)] ∧
        (bundle t b).mgRaw = r ∧ reg t (Reg.fbMgmtRxPackets b) = (reg s (Reg.fbMgmtRxPackets b) + 1) % 2 ^ 64) ∧
    (crc32 (p.take (beAt p 0 2 + 2)) ≠ beAt p (beAt p 0 2 + 2) 4 → ∃ t, Answers (.mgmtChannelPacket b) s t ∧
      (bundle t b).mgHeld = (bundle s b).mgHeld ∧ bit (reg t (Reg.fbCause b)) 13 = true) := by
  refine ⟨fun hcrc hroom => ⟨_, exec_mgmtPacket_good hraw hcrc hroom, ?_, ?_, ?_⟩, fun hcrc => ⟨_, exec_mgmtPacket_bad hraw hcrc, ?_, ?_⟩⟩
  · rw [packetHeld, bundle_setBundle_self]
  · rw [packetHeld, bundle_setBundle_self, packetTaken, bundle_setBundle_self]
  · rw [packetHeld, reg_setBundle, count1, countBy, reg_setReg_self, packetTaken, reg_setBundle]
  · rw [bundle_raise, bundle_count1, packetTaken, bundle_setBundle_self]
  · exact bit_raise_self _ (.fb b) 13 (side_fbCause hb)

/-- The clause of a container frame (R302). -/
theorem container_received (hb : b < 8) {ids : List Nat} (hids : ids = idsOf (reg s (Reg.fbRxLaneSet b)))
    (hne : ids.filterMap (laneOfId s b) ≠ []) (hacc : ∀ x ∈ ids.filterMap (laneOfId s b), 16320 ≤ (flane s x).acc.length) :
    ∃ t, Answers (.containerFrameReceive b) s t ∧
      (bundle t b).bip = some (bip16 (interleave 16320 (ids.map (containerBytes s b)))) ∧
      ∀ x ∈ bundleLanes b, (flane s x).locked = true → (flane t x).acc = (flane s x).acc.drop 16320 := by
  subst hids
  obtain ⟨hbip, hlanes⟩ := containerFrame_keeps (containerTaken s b) b (idsOf (reg s (Reg.fbRxLaneSet b))).length
    (interleave 16320 ((idsOf (reg s (Reg.fbRxLaneSet b))).map (containerBytes s b)))
  refine ⟨_, exec_containerFrameReceive hb hne hacc, hbip, fun x hx hlocked => ?_⟩
  rw [hlanes]
  exact acc_containerTaken hx hlocked

/-- The clause of a signal that changes (R307). -/
theorem signal_changed (hl : l < 320) (sg : Bool) : ∃ t, Answers (.fabricLaneSignalChange l sg) s t ∧ (flane t l).signal = sg ∧
    (flane t l).signalAt = s.time ∧ (sg = false → bit (reg t (Reg.flDefects l)) 0 = true) := by
  have hlane := flane_setFlane_self s l { flane s l with signal := sg, signalAt := s.time }
  cases sg with
  | true =>
    refine ⟨setFlane s l { flane s l with signal := true, signalAt := s.time }, ?_, congrArg FLane.signal hlane,
      congrArg FLane.signalAt hlane, by simp⟩
    simp [Answers, exec, execFabricLaneSignalChange, hl]
  | false =>
    have hlock := congrFun (locks_sectionDefect (setFlane s l { flane s l with signal := false, signalAt := s.time }) l 0 true) l
    refine ⟨sectionDefect (setFlane s l { flane s l with signal := false, signalAt := s.time }) l 0 true, ?_,
      (congrArg LaneLock.signal hlock).trans (congrArg FLane.signal hlane),
      (congrArg LaneLock.signalAt hlock).trans (congrArg FLane.signalAt hlane), fun _ => defects_sectionDefect hl _ 0 true⟩
    simp [Answers, exec, execFabricLaneSignalChange, hl]

end

/-- Settles O30: a codeword counts before its run turns the lock; neither a defect nor a look at the path that follows reaches a lane's
lock, a count or a bundle's parity. -/
theorem fabricFramesReceived : Obligations.FabricFramesReceived := by
  unfold Obligations.FabricFramesReceived
  intro s l b _ hl hb
  refine ⟨fun o ho hdark => codeword_decoded hl ho hdark, fun off skew f c hcw htest hlen hoff hlocked hfind hhits hfaw hcrc hnext => ?_,
    fun skew f hcw htest hlen hoff hlocked hfaw => ?_, fun ids hids hne hacc => container_received hb hids hne hacc,
    fun sg => signal_changed hl sg, fun hsignal hsince hlos => ?_, fun p r hraw => mgmtPacket_checked hb hraw, fun hreset => ?_⟩
  · exact ⟨_, exec_frameFound skew ⟨hl, hcw, htest, hlen, hoff⟩ hlocked (huntStep_third hfind hhits hfaw hcrc hnext),
      frameFound_spec hl off f⟩
  · have hlock := lock_frameInLock (s := s) (l := l) skew hfaw
    exact ⟨_, exec_frameInLock skew ⟨hl, hcw, htest, hlen, hoff⟩ hlocked, (congrArg LaneLock.locked hlock).trans hlocked,
      congrArg LaneLock.misses hlock, congrArg LaneLock.bip hlock⟩
  · refine ⟨sectionDefect s l 0 false, ?_, defects_sectionDefect hl s 0 false⟩
    simp [Answers, exec, execLosClear, hsignal, hsince, hlos]
  · simp [Answers, exec, execTimePllLock, hreset]

end Sys2Proof
end

section
/-! SUPPORT. Lane-set changes (R311–R317): the messages that are taken, what a change reports, and how it ends. -/

namespace Sys2Proof.Machine

variable {s : State} {b : Nat}

/-! ### Reports of a change (R313, R314) -/

/-- A count of the bundle takes one, and a cause of it is raised. -/
def lsReported (s : State) (b k i : Nat) : State := raise (count1 s k) (.fb b) i

theorem reg_lsReported (s : State) (hb : b < 8) {sub : Nat} (i : Nat) (hs : sub < 0x40) (hc : sub ≠ 0x24) :
    reg (lsReported s b (key (0x2700 + b) sub) i) (key (0x2700 + b) sub) = (reg s (key (0x2700 + b) sub) + 1) % 2 ^ 64 := by
  have hne : key (0x2700 + b) sub ≠ (CauseReg.fb b).key := by
    rw [CauseReg.key, Reg.fbCause, keyIf_lt hb]
    exact key_ne_of_sub _ hc
  rw [lsReported, reg_raise_of_ne _ (.fb b) i (side_portLane (by omega) (by omega) (by omega)) hne, count1, countBy, reg_setReg_self]

theorem cause_lsReported (s : State) (hb : b < 8) (k i : Nat) : bit (reg (lsReported s b k i) (Reg.fbCause b)) i = true :=
  bit_raise_self _ (.fb b) i (side_fbCause hb)

@[simp] theorem bundle_lsReported (s : State) (b k i a : Nat) : bundle (lsReported s b k i) a = bundle s a := by simp [lsReported]

@[simp] theorem jobRunning_lsReported (s : State) (b k i j : Nat) : jobRunning (lsReported s b k i) j = jobRunning s j :=
  congrArg (fun x : Job => x.state == 1) (job_raise (count1 s k) (.fb b) i j)

@[simp] theorem bundle_jobEnd (s : State) (k r b : Nat) : bundle (jobEnd s k r) b = bundle s b := by
  rw [jobEnd]
  split <;> rfl

/-- A change that ends without effect is gone, its job ends with the result, and no entry moves (R314, R317). -/
theorem changeEnds_spec {c : LsChange} (h : (bundle s b).txChange = some c) (r : Nat) :
    (bundle (changeEnds s b r) b).txChange = none ∧ (∀ k, reg (changeEnds s b r) k = reg s k) ∧
    (c.job = true → jobRunning s (Reg.fbLaneSetChange b) = true → JobCompleted (changeEnds s b r) (Reg.fbLaneSetChange b) r) := by
  simp only [changeEnds, h]
  split
  · refine ⟨by simp, fun k => by simp, fun _ hrun => jobCompleted_jobEnd (by exact hrun) r⟩
  · refine ⟨by simp, fun k => rfl, fun hjob => absurd hjob ‹_›⟩

/-! ### Messages (R312–R315) -/

/-- The message at the front of the bundle's line is taken. -/
def msgTaken (s : State) (b : Nat) (rest : List LsMsg) : State := setBundle s b { bundle s b with msgs := rest }

@[simp] theorem bundle_msgTaken (s : State) (b : Nat) (rest : List LsMsg) :
    bundle (msgTaken s b rest) b = { bundle s b with msgs := rest } := bundle_setBundle_self s b _

/-- The checks of a proposal do not look at the messages that wait. -/
@[simp] theorem rejectReason_msgTaken (s : State) (b : Nat) (rest : List LsMsg) (m : LsMsg) :
    rejectReason (msgTaken s b rest) b m = rejectReason s b m := by
  simp only [rejectReason, bundle_msgTaken]
  rfl

section
variable {m : LsMsg} {rest : List LsMsg} (hmsgs : (bundle s b).msgs = m :: rest)
include hmsgs

/-- A message of the type asked for is taken from the front of the line. -/
theorem takeMsg_front : takeMsg s b m.ty = some (m, msgTaken s b rest) := by
  simp [takeMsg, hmsgs, msgTaken]

/-- An accepted proposal waits for its COMMIT, and its answer waits for the next receive slot (R313). -/
theorem exec_propose_accepted (hty : m.ty = 1) (hr : rejectReason s b m = 0) : Answers (.laneSetPropose b) s
    (setBundle (msgTaken s b rest) b { bundle s b with
      msgs := rest, rxChange := some { mask := m.mask, tag := m.tag, step := 2, at0 := (bundle s b).rxMf },
      slotR := some { m with ty := 2, arg := 0 } }) := by
  have htake := takeMsg_front hmsgs
  rw [hty] at htake
  simp [Answers, exec, execLaneSetPropose, htake, hr]

/-- A proposal that fails a check is answered with the reason (R314). -/
theorem exec_propose_rejected (hty : m.ty = 1) (hr : rejectReason s b m ≠ 0) : Answers (.laneSetPropose b) s
    (setBundle (msgTaken s b rest) b { bundle s b with
      msgs := rest, slotR := some { m with ty := 3, arg := rejectReason s b m } }) := by
  have htake := takeMsg_front hmsgs
  rw [hty] at htake
  simp [Answers, exec, execLaneSetPropose, htake, hr]

/-- An ACCEPT of the change proposed sets its effect multiframe (R313). -/
theorem exec_accept {x : LsChange} (hty : m.ty = 2) (hx : (bundle s b).txChange = some x) (hstep : x.step = 1) (htag : x.tag = m.tag)
    (hmask : x.mask = m.mask) : Answers (.laneSetAccept b) s
    (setBundle (msgTaken s b rest) b { bundle s b with
      msgs := rest, txChange := some { x with step := 2, effect := some ((bundle s b).txMf + 3) } }) := by
  have htake := takeMsg_front hmsgs
  rw [hty] at htake
  simp [Answers, exec, execLaneSetAccept, htake, hx, hstep, htag, hmask]

/-- A REJECT of the change proposed ends it (R314). -/
theorem exec_reject {x : LsChange} (hty : m.ty = 3) (hx : (bundle s b).txChange = some x) (hstep : x.step = 1) (htag : x.tag = m.tag) :
    Answers (.laneSetReject b) s (changeEnds (lsReported (msgTaken s b rest) b (Reg.fbLsRefused b) 10) b 1) := by
  have htake := takeMsg_front hmsgs
  rw [hty] at htake
  simp [Answers, exec, execLaneSetReject, htake, hx, hstep, htag, lsReported]

/-- A COMMIT of the change accepted tells its effect multiframe (R313). -/
theorem exec_commit {x : LsChange} (hty : m.ty = 4) (hx : (bundle s b).rxChange = some x) (htag : x.tag = m.tag) (hmask : x.mask = m.mask)
    (harg : m.arg = 1 ∨ m.arg = 2) : Answers (.laneSetCommit b) s
    (setBundle (msgTaken s b rest) b { bundle s b with
      msgs := rest, rxChange := some { x with effect := some ((bundle s b).rxMf + m.arg) } }) := by
  have htake := takeMsg_front hmsgs
  rw [hty] at htake
  simp [Answers, exec, execLaneSetCommit, htake, hx, htag, hmask, harg]

/-- A REQUEST that fits begins a change where none is under way (R315). -/
theorem exec_request (hty : m.ty = 5) (hfit : maskFit s b m.mask = true) (hx : (bundle s b).txChange = none) :
    Answers (.laneSetRequest b) s (beginChange (msgTaken s b rest) b m.mask false) := by
  have htake := takeMsg_front hmsgs
  rw [hty] at htake
  have hfit' : maskFit (msgTaken s b rest) b m.mask = true := hfit
  simp [Answers, exec, execLaneSetRequest, htake, hx, hfit']

end

/-! ### The job and the governor (R317) -/

section
variable {c : Client} (hstart : MayStart s c (Reg.fbLaneSetChange b))
include hstart

/-- A start whose mask fits begins a change where none runs. -/
theorem exec_laneSetChange_begins (hfit : maskFit s b (reg s (Reg.fbLaneSetArg b)) = true) (hmay : mayChange s b = true) :
    Answers (.fbLaneSetChange c b) s (answeredWord (beginChange (jobBegin s (Reg.fbLaneSetChange b)) b (reg s (Reg.fbLaneSetArg b)) true) c
      (Reg.fbLaneSetChange b)) :=
  congrArg Host.Outcome.next (mayStart_does hstart (by simp [startLaneSetChange, hfit, hmay]))

/-- A start whose mask fits is busy while a change runs. -/
theorem exec_laneSetChange_busy (hfit : maskFit s b (reg s (Reg.fbLaneSetArg b)) = true) (hmay : mayChange s b = false) :
    TurnedAway (.fbLaneSetChange c b) s c (Reg.fbLaneSetChange b) .busy := by
  have hrule : startLaneSetChange s b = .fail .busy := by simp [startLaneSetChange, hfit, hmay]
  simp only [TurnedAway, Answers, exec, execFbLaneSetChange, mayStart_rule hstart, hrule]
  rfl

/-- A start whose mask does not fit ends at once with result 3. -/
theorem exec_laneSetChange_unfit (hfit : maskFit s b (reg s (Reg.fbLaneSetArg b)) = false) : Answers (.fbLaneSetChange c b) s
    (answeredWord (jobEnd (jobBegin s (Reg.fbLaneSetChange b)) (Reg.fbLaneSetChange b) 3) c (Reg.fbLaneSetChange b)) :=
  congrArg Host.Outcome.next (mayStart_does hstart (by simp [startLaneSetChange, hfit]))

end

/-- The measures of a bundle as the governor's millisecond starts them anew (R317). -/
def measuredAnew (s : State) (b low : Nat) : State := setBundle s b { bundle s b with used := 0, sent := 0, lowRun := low }

theorem mayChange_measuredAnew (s : State) (b low : Nat) : mayChange (measuredAnew s b low) b = mayChange s b := by
  simp [mayChange, measuredAnew]

/-- The governor's millisecond begins a change only to another fitting set where none runs (R317). -/
theorem exec_shedGovernor (hb : b < 8) (ht : timeNs s % 1000000 = 0) : ∃ low, Answers (.shedGovernor b) s (measuredAnew s b low) ∨
    ∃ m, maskFit s b m = true ∧ m ≠ reg s (Reg.fbTxLaneSet b) ∧ mayChange s b = true ∧
      Answers (.shedGovernor b) s (beginChange (measuredAnew s b low) b m false) := by
  have hgo : ¬ (8 ≤ b ∨ timeNs s % 1000000 ≠ 0) := by omega
  simp only [Answers, exec]
  generalize hr : execShedGovernor b s = r
  rw [execShedGovernor, if_neg hgo] at hr
  extract_lets x n need low high runs on fit enabled want u mask at hr
  split at hr
  · rename_i h
    obtain ⟨-, hne, hmay, hfit⟩ := h
    exact ⟨_, .inr ⟨mask, hfit, hne, (mayChange_measuredAnew s b _).symm.trans hmay, hr.symm⟩⟩
  · exact ⟨_, .inl hr.symm⟩

/-! ### Effect and time-out (R313, R314) -/

/-- The change as it stands in a transmitter whose set has taken effect. -/
def txEffected (s : State) (b e mask : Nat) : State :=
  let u := setReg (lsReported s b (Reg.fbLsChanges b) 9) (Reg.fbTxLaneSet b) mask
  setBundle u b { bundle u b with txChange := none, sendT := none, quietAt := some e }

theorem exec_effect_transmit {x : LsChange} {e : Nat} (hx : (bundle s b).txChange = some x) (he : x.effect = some e)
    (hnow : e ≤ (bundle s b).txMf) : Answers (.laneSetEffect b true) s
      (if x.job then jobEnd (txEffected s b e x.mask) (Reg.fbLaneSetChange b) 0 else txEffected s b e x.mask) := by
  simp only [Answers, exec, execLaneSetEffect, if_true, hx, he, if_neg (Nat.not_lt.2 hnow)]
  rfl

/-- The change as it stands in a receiver whose set has taken effect, before its path is looked at. -/
def rxEffected (s : State) (b mask : Nat) : State :=
  let u := lsReported s b (Reg.fbLsChanges b) 9
  setBundle (setReg u (Reg.fbRxLaneSet b) mask) b { bundle u b with rxChange := none }

theorem exec_effect_receive {x : LsChange} {e : Nat} (hx : (bundle s b).rxChange = some x) (he : x.effect = some e)
    (hnow : e ≤ (bundle s b).rxMf) : Answers (.laneSetEffect b false) s (touchPath (rxEffected s b x.mask) b) := by
  simp only [Answers, exec, execLaneSetEffect, Bool.false_eq_true, if_false, hx, he, if_neg (Nat.not_lt.2 hnow)]
  rfl

/-- A transmitter's set that takes effect: it is the bundle's, the change is over, and it is counted (R313). -/
theorem txEffected_spec (s : State) (hb : b < 8) (e mask : Nat) :
    reg (txEffected s b e mask) (Reg.fbTxLaneSet b) = mask ∧ (bundle (txEffected s b e mask) b).txChange = none ∧
    (bundle (txEffected s b e mask) b).quietAt = some e ∧
    reg (txEffected s b e mask) (Reg.fbLsChanges b) = (reg s (Reg.fbLsChanges b) + 1) % 2 ^ 64 ∧
    bit (reg (txEffected s b e mask) (Reg.fbCause b)) 9 = true := by
  have hcause := cause_lsReported s hb (Reg.fbLsChanges b) 9
  simp only [txEffected, bundle_setBundle_self, reg_setBundle]
  simp only [Reg.fbTxLaneSet, Reg.fbLsChanges, Reg.fbCause, keyIf_lt hb] at hcause ⊢
  refine ⟨reg_setReg_self _ _ _, trivial, trivial, ?_, ?_⟩
  · rw [reg_setReg_sub _ _ _ (by decide), reg_lsReported s hb 9 (by decide) (by decide)]
  · rwa [reg_setReg_sub _ _ _ (by decide)]

/-- A receiver's set that takes effect: it is the bundle's, and the change is over (R313). -/
theorem rxEffected_spec (s : State) (hb : b < 8) (mask : Nat) : reg (touchPath (rxEffected s b mask) b) (Reg.fbRxLaneSet b) = mask ∧
    (bundle (touchPath (rxEffected s b mask) b) b).rxChange = none := by
  obtain ⟨near, hnear⟩ := bundle_touchPath (rxEffected s b mask) b
  have hset : Reg.fbRxLaneSet b = key (0x2700 + b) 1 := keyIf_lt hb _
  refine ⟨?_, ?_⟩
  · rw [hset, reg_touchPath (isBuntingEntry_bundle hb (by decide)), rxEffected, reg_setBundle, hset, reg_setReg_self]
    simp only [Reg.fbPathDefects, Reg.fbCause, keyIf_lt hb, List.mem_cons, List.not_mem_nil, or_false, not_or]
    exact ⟨key_ne_of_sub _ (by decide), key_ne_of_sub _ (by decide)⟩
  · rw [hnear, rxEffected, bundle_setBundle_self]

end Sys2Proof.Machine

namespace Sys2Proof

open Machine

section
variable {s : State} {b : Nat}

/-- The clause of the governor (R317). -/
theorem governor_proposes (hb : b < 8) (ht : timeNs s % 1000000 = 0) : ∃ t, Answers (.shedGovernor b) s t ∧ (bundle t b).used = 0 ∧
    (bundle t b).sent = 0 ∧ ((bundle t b).txChange = (bundle s b).txChange ∨ ∃ m, maskFit s b m = true ∧
      m ≠ reg s (Reg.fbTxLaneSet b) ∧ mayChange s b = true ∧ (bundle t b).txChange = some { mask := m }) := by
  obtain ⟨low, hexec | ⟨m, hfit, hne, hmay, hexec⟩⟩ := exec_shedGovernor hb ht
  · exact ⟨_, hexec, by simp [measuredAnew], by simp [measuredAnew], .inl (by simp [measuredAnew])⟩
  · exact ⟨_, hexec, by simp [beginChange, measuredAnew], by simp [beginChange, measuredAnew],
      .inr ⟨m, hfit, hne, hmay, by simp [beginChange]⟩⟩

/-- The clause of a REJECT (R314). -/
theorem proposal_rejected (hb : b < 8) {m : LsMsg} {rest : List LsMsg} (hmsgs : (bundle s b).msgs = m :: rest) {x : LsChange}
    (hty : m.ty = 3) (hx : (bundle s b).txChange = some x) (hstep : x.step = 1) (htag : x.tag = m.tag) :
    ∃ t, Answers (.laneSetReject b) s t ∧ (bundle t b).txChange = none ∧
      reg t (Reg.fbLsRefused b) = (reg s (Reg.fbLsRefused b) + 1) % 2 ^ 64 ∧ bit (reg t (Reg.fbCause b)) 10 = true ∧
      (x.job = true → jobRunning s (Reg.fbLaneSetChange b) = true → JobCompleted t (Reg.fbLaneSetChange b) 1) := by
  have hx' : (bundle (lsReported (msgTaken s b rest) b (Reg.fbLsRefused b) 10) b).txChange = some x := by simpa using hx
  obtain ⟨hgone, hreg, hjob⟩ := changeEnds_spec hx' 1
  have hcount : Reg.fbLsRefused b = key (0x2700 + b) 0x22 := keyIf_lt hb _
  refine ⟨_, exec_reject hmsgs hty hx hstep htag, hgone, ?_, ?_, fun hj hrun => hjob hj ?_⟩
  · rw [hreg, hcount, reg_lsReported _ hb 10 (by decide) (by decide)]
    rfl
  · rw [hreg]
    exact cause_lsReported _ hb _ 10
  · rw [jobRunning_lsReported]
    exact hrun

/-- The clause of a proposal that gets no answer (R314). -/
theorem proposal_timesOut (hb : b < 8) {x : LsChange} (hx : (bundle s b).txChange = some x) (hstep : x.step = 1)
    (hlate : x.at0 + 4 ≤ (bundle s b).txMf) : ∃ t, Answers (.laneSetTimeout b true) s t ∧ (bundle t b).txChange = none ∧
      reg t (Reg.fbLsTimeouts b) = (reg s (Reg.fbLsTimeouts b) + 1) % 2 ^ 64 ∧ bit (reg t (Reg.fbCause b)) 11 = true := by
  have hx' : (bundle (lsReported s b (Reg.fbLsTimeouts b) 11) b).txChange = some x := by simpa using hx
  obtain ⟨hgone, hreg, -⟩ := changeEnds_spec hx' 2
  have hcount : Reg.fbLsTimeouts b = key (0x2700 + b) 0x23 := keyIf_lt hb _
  refine ⟨changeEnds (lsReported s b (Reg.fbLsTimeouts b) 11) b 2, ?_, hgone, ?_, ?_⟩
  · simp only [Answers, exec, execLaneSetTimeout, hx, if_true, if_pos (And.intro hstep hlate)]
    rfl
  · rw [hreg, hcount, reg_lsReported _ hb 11 (by decide) (by decide)]
  · rw [hreg]
    exact cause_lsReported _ hb _ 11

/-- The clauses of the messages (R313–R315). -/
theorem message_taken (hb : b < 8) {m : LsMsg} {rest : List LsMsg} (hmsgs : (bundle s b).msgs = m :: rest) :
    (m.ty = 1 → rejectReason s b m = 0 → ∃ t, Answers (.laneSetPropose b) s t ∧ t = { s with fl := t.fl } ∧
      t.fl.lanes = s.fl.lanes ∧ bundle t b = { bundle s b with
        msgs := rest, rxChange := some { mask := m.mask, tag := m.tag, step := 2, at0 := (bundle s b).rxMf },
        slotR := some { m with ty := 2, arg := 0 } }) ∧
    (m.ty = 1 → rejectReason s b m ≠ 0 → ∃ t, Answers (.laneSetPropose b) s t ∧ bundle t b = { bundle s b with
      msgs := rest, slotR := some { m with ty := 3, arg := rejectReason s b m } }) ∧
    (∀ x, m.ty = 2 → (bundle s b).txChange = some x → x.step = 1 → x.tag = m.tag → x.mask = m.mask →
      ∃ t, Answers (.laneSetAccept b) s t ∧ bundle t b = { bundle s b with
        msgs := rest, txChange := some { x with step := 2, effect := some ((bundle s b).txMf + 3) } }) ∧
    (∀ x, m.ty = 3 → (bundle s b).txChange = some x → x.step = 1 → x.tag = m.tag → ∃ t, Answers (.laneSetReject b) s t ∧
      (bundle t b).txChange = none ∧ reg t (Reg.fbLsRefused b) = (reg s (Reg.fbLsRefused b) + 1) % 2 ^ 64 ∧
      bit (reg t (Reg.fbCause b)) 10 = true ∧ (x.job = true → jobRunning s (Reg.fbLaneSetChange b) = true →
        JobCompleted t (Reg.fbLaneSetChange b) 1)) ∧
    (∀ x, m.ty = 4 → (bundle s b).rxChange = some x → x.tag = m.tag → x.mask = m.mask → (m.arg = 1 ∨ m.arg = 2) →
      ∃ t, Answers (.laneSetCommit b) s t ∧ bundle t b = { bundle s b with
        msgs := rest, rxChange := some { x with effect := some ((bundle s b).rxMf + m.arg) } }) ∧
    (m.ty = 5 → maskFit s b m.mask = true → (bundle s b).txChange = none → ∃ t, Answers (.laneSetRequest b) s t ∧
      bundle t b = { bundle s b with msgs := rest, txChange := some { mask := m.mask } }) :=
  ⟨fun hty hr => ⟨_, exec_propose_accepted hmsgs hty hr, rfl, rfl, bundle_setBundle_self _ b _⟩,
    fun hty hr => ⟨_, exec_propose_rejected hmsgs hty hr, bundle_setBundle_self _ b _⟩,
    fun _ hty hx hstep htag hmask => ⟨_, exec_accept hmsgs hty hx hstep htag hmask, bundle_setBundle_self _ b _⟩,
    fun _ hty hx hstep htag => proposal_rejected hb hmsgs hty hx hstep htag,
    fun _ hty hx htag hmask harg => ⟨_, exec_commit hmsgs hty hx htag hmask harg, bundle_setBundle_self _ b _⟩,
    fun hty hfit hx => ⟨_, exec_request hmsgs hty hfit hx, by rw [beginChange, bundle_setBundle_self, bundle_msgTaken]⟩⟩

end

/-- Settles O32: each message finds its change by the step and tag it names; what a change reports moves neither the bundles nor the jobs,
and its end moves no entry. -/
theorem laneSetChanges : Obligations.LaneSetChanges := by
  unfold Obligations.LaneSetChanges
  intro s c b _ hb
  refine ⟨fun hstart hfit => ⟨exec_laneSetChange_begins hstart hfit, exec_laneSetChange_busy hstart hfit⟩,
    fun hstart hfit => exec_laneSetChange_unfit hstart hfit, governor_proposes hb, fun m rest hmsgs => message_taken hb hmsgs,
    fun x e hx he hnow => ⟨_, exec_effect_transmit hx he hnow, ?_⟩,
    fun x e hx he hnow => ⟨_, exec_effect_receive hx he hnow, rxEffected_spec s hb x.mask⟩,
    fun x hx hstep hlate => proposal_timesOut hb hx hstep hlate, fun x hx heffect hlate => ?_⟩
  · have heffected := txEffected_spec s hb e x.mask
    split
    · simpa only [reg_jobEnd, bundle_jobEnd] using heffected
    · exact heffected
  · simp [Answers, exec, execLaneSetTimeout, hx, heffect, hlate]

end Sys2Proof
end

section
/-! SUPPORT. Lanes that go quiet (R313) and frames sent (R289–R299): the number of the frame through its building, the lanes that send,
and what each puts out. -/

namespace Sys2Proof.Machine

/-! ### Lanes that go quiet (R313) -/

/-- The lanes of a bundle outside a mask go quiet. -/
def lanesQuieted (s : State) (b mask : Nat) : State :=
  (List.range 40).foldl (fun s i =>
    if bit mask i then s else setFlane s (40 * b + i) { flane s (40 * b + i) with on := false }) s

theorem on_lanesQuieted (s : State) (b mask : Nat) {i : Nat} (hi : i < 40) :
    (flane (lanesQuieted s b mask) (40 * b + i)).on = ((flane s (40 * b + i)).on && bit mask i) := by
  have hfold := flane_foldl (p := fun i => 40 * b + i) (g := fun i x => { x with on := x.on && bit mask i }) (i := i)
    (fun _ _ h => Nat.add_left_cancel h)
    (f := fun s i => if bit mask i then s else setFlane s (40 * b + i) { flane s (40 * b + i) with on := false })
    (fun s i m => by
      by_cases hbit : bit mask i = true <;> by_cases hm : m = 40 * b + i
      · simp [hbit]
      · simp [hbit]
      · simp [hbit, hm]
      · simp [hbit, hm, flane_setFlane]) (List.range 40) s List.nodup_range
  rw [if_pos (List.mem_range.2 hi)] at hfold
  exact congrArg FLane.on hfold

/-- Lanes that go quiet leave the bundles as they were. -/
theorem bundle_lanesQuieted (s : State) (b mask a : Nat) : bundle (lanesQuieted s b mask) a = bundle s a := by
  refine List.foldlRecOn (List.range 40) _ (motive := fun t => bundle t a = bundle s a) rfl fun t ht i _ => ?_
  split <;> exact ht

theorem exec_laneQuiet {s : State} {b e : Nat} (he : (bundle s b).quietAt = some e) (hpast : e < (bundle s b).txMf)
    (hon : flag s (Reg.fbQuietEnable b) = true) (hx : (bundle s b).txChange = none) :
    Answers (.laneQuiet b) s (lanesQuieted (setBundle s b { bundle s b with quietAt := none }) b (reg s (Reg.fbTxLaneSet b))) := by
  have hon' : flag (setBundle s b { bundle s b with quietAt := none }) (Reg.fbQuietEnable b) = true := hon
  have hkeep : Nat.lor (reg s (Reg.fbTxLaneSet b)) 0 = reg s (Reg.fbTxLaneSet b) := Nat.or_zero _
  simp only [Answers, exec, execLaneQuiet, he, if_neg (Nat.not_le.2 hpast), hx, reg_setBundle, Option.map_none, Option.getD_none, hkeep]
  exact if_pos hon'

/-! ### The frame's number (R289) -/

section
variable (s : State) (b : Nat)

/-- A change beside the links leaves the frame's number as it was. -/
theorem txFrame_of_fl {s t : State} (b : Nat) (h : t.fl = s.fl) : (bundle t b).txFrame = (bundle s b).txFrame := by
  rw [bundle, h, bundle]

theorem txFrame_nextPlace (x : FBundle) : (nextPlace x).2.1.txFrame = x.txFrame := by
  unfold nextPlace
  split
  · rfl
  · split
    · rfl
    · extract_lets own rel
      rcases own with _ | o <;> rcases rel with _ | r
      · rfl
      · rfl
      · rfl
      · exact (apply_ite (fun p : List Byte × FBundle × Nat => p.2.1.txFrame) _ _ _).trans (ite_self _)

theorem txFrame_fillPlaces (n : Nat) : (bundle (fillPlaces n s b).2 b).txFrame = (bundle s b).txFrame := by
  induction n generalizing s with
  | zero => rfl
  | succ n ih =>
    have hevent : ∀ t code, (bundle (perfEvent t code b 0) b).txFrame = (bundle t b).txFrame := fun t code =>
      txFrame_of_fl b (fl_of_noted (noted_perfEvent [] t code b 0))
    have hplace := txFrame_nextPlace (bundle s b)
    simp only [fillPlaces, ih]
    split
    · rw [hevent, bundle_setBundle_self, hplace]
    · split
      · rw [hevent, bundle_count1, bundle_setBundle_self, hplace]
      · rw [bundle_setBundle_self, hplace]

theorem txFrame_buildContainer : (bundle (buildContainer s b) b).txFrame = (bundle s b).txFrame := by
  simp only [buildContainer, bundle_setBundle_self, txFrame_fillPlaces]

theorem txFrame_sendUnits (n : Nat) : (bundle (sendUnits n s b).2 b).txFrame = (bundle s b).txFrame := by
  induction n generalizing s with
  | zero => rfl
  | succ n ih =>
    simp only [sendUnits, ih, bundle_setBundle_self]
    split
    · exact txFrame_buildContainer s b
    · rfl

theorem txFrame_sendChunk : (bundle (sendChunk s b).2 b).txFrame = (bundle s b).txFrame := by
  simp only [sendChunk]
  repeat' split
  all_goals simp

/-! ### The start of a multiframe (R313) -/

/-- The lanes of a change that waits wake, and no bundle changes with them. -/
def lanesWoken (mask : Nat) : State :=
  (idsOf mask).foldl (fun s i =>
    if laneTest s (40 * b + i) then s else setFlane s (40 * b + i) { flane s (40 * b + i) with on := true }) s

theorem lanesWoken_spec (mask : Nat) : (bundle (lanesWoken s b mask) b).txFrame = (bundle s b).txFrame ∧
    (lanesWoken s b mask).od = s.od ∧ ∀ l, (flane s l).on = true → (flane (lanesWoken s b mask) l).on = true := by
  refine List.foldlRecOn (idsOf mask) _ (motive := fun t => (bundle t b).txFrame = (bundle s b).txFrame ∧ t.od = s.od ∧
    ∀ l, (flane s l).on = true → (flane t l).on = true) ⟨rfl, rfl, fun _ => id⟩ fun t ht i _ => ?_
  obtain ⟨hframe, hod, hon⟩ := ht
  split
  · exact ⟨hframe, hod, hon⟩
  · refine ⟨hframe, hod, fun l hl => ?_⟩
    rw [flane_setFlane]
    split
    · rfl
    · exact hon l hl

/-- A multiframe that starts keeps the frame's number and the entries, and turns no lane off. -/
theorem startMultiframe_spec : (bundle (startMultiframe s b) b).txFrame = (bundle s b).txFrame ∧ (startMultiframe s b).od = s.od ∧
    ∀ l, (flane s l).on = true → (flane (startMultiframe s b) l).on = true := by
  have hset : ∀ y : FBundle, y.txFrame = (bundle s b).txFrame → (bundle (setBundle s b y) b).txFrame = (bundle s b).txFrame ∧
      (setBundle s b y).od = s.od ∧ ∀ l, (flane s l).on = true → (flane (setBundle s b y) l).on = true := fun y hy =>
    ⟨by rw [bundle_setBundle_self, hy], rfl, fun _ => id⟩
  unfold startMultiframe
  extract_lets x mf ready x1
  split
  · exact hset _ rfl
  · rename_i c _
    extract_lets msg
    split
    · split
      · exact hset _ rfl
      · obtain ⟨hframe, hod, hon⟩ := lanesWoken_spec (setBundle s b x1) b c.mask
        obtain ⟨hframe', hod', hon'⟩ := hset x1 rfl
        exact ⟨hframe.trans hframe', hod.trans hod', fun l hl => hon l (hon' l hl)⟩
    · split
      · exact hset _ rfl
      · split <;> exact hset _ rfl

end

/-! ### What the lanes put out (Table — Section overhead) -/

/-- A frame of the lane has gone out: its alignment word, the lane's number in its bundle, and the frame's number. -/
def FrameSent (s : State) (l n : Nat) : Prop :=
  ∃ f, Emission.laneFrame l f ∈ s.sent ∧ f.take 4 = beBytes 4 fawWord ∧ byteAt f 4 = l % 40 ∧ byteAt f 5 = n % 256

theorem frameSent_laneFrame (s : State) (b l ptr just ls : Nat) (chunk neg body : List Byte) :
    FrameSent (laneFrame s b l ptr just ls chunk neg body) l (bundle s b).txFrame := by
  refine ⟨_, List.mem_cons_self, rfl, ?_, rfl⟩
  have hlane : byteAt (beBytes 4 fawWord ++ [byte (l % 40)]) 4 = l % 40 % 256 := rfl
  exact hlane.trans (Nat.mod_eq_of_lt (by omega))

/-- The lanes of a list send their frames one after another. -/
def lanesFramed (s : State) (b ptr just ls : Nat) (chunk neg body : Nat → List Byte) (lanes : List Nat) : State :=
  lanes.foldl (fun s l => laneFrame s b l ptr just ls (chunk l) (neg l) (body l)) s

/-- Every lane of the list has sent its frame. -/
theorem frameSent_lanesFramed (b ptr just ls : Nat) (chunk neg body : Nat → List Byte) {x n : Nat} : ∀ (lanes : List Nat) (s : State),
    (bundle s b).txFrame = n → x ∈ lanes ∨ FrameSent s x n → FrameSent (lanesFramed s b ptr just ls chunk neg body lanes) x n
  | [], _, _, h => h.resolve_left List.not_mem_nil
  | l :: r, s, hn, h => by
    refine frameSent_lanesFramed b ptr just ls chunk neg body r _ hn ?_
    rcases h with h | ⟨f, hf, hbytes⟩
    · rcases List.mem_cons.1 h with rfl | h
      · exact .inr (hn ▸ frameSent_laneFrame s b x ptr just ls _ _ _)
      · exact .inl h
    · exact .inr ⟨f, List.mem_cons_of_mem _ hf, hbytes⟩

/-- The bundle goes on to the next frame. -/
def frameAdvanced (s : State) (b n : Nat) : State := setBundle s b { bundle s b with txFrame := (n + 1) % 64 }

/-- A lane that sends frames: on, enabled and under no test (R289, R319). -/
def LaneSends (s : State) (l : Nat) : Prop := (flane s l).on = true ∧ flag s (Reg.flEnable l) = true ∧ laneTest s l = false

/-- Where the lanes that send and the frame's number stand, once the multiframe has started where one does. -/
theorem multiframe_started (s : State) (b : Nat) :
    let t := if (bundle s b).txFrame = 0 then startMultiframe s b else s
    (bundle t b).txFrame = (bundle s b).txFrame ∧ ∀ l, LaneSends s l → LaneSends t l := by
  intro t
  have ht : (bundle t b).txFrame = (bundle s b).txFrame ∧ t.od = s.od ∧ ∀ l, (flane s l).on = true → (flane t l).on = true := by
    simp only [t]
    split
    · exact startMultiframe_spec s b
    · exact ⟨rfl, rfl, fun _ => id⟩
  obtain ⟨hframe, hod, hon⟩ := ht
  have hreg : ∀ k, reg t k = reg s k := fun k => by rw [reg, hod, reg]
  refine ⟨hframe, fun l ⟨hl, hen, htest⟩ => ⟨hon l hl, ?_, ?_⟩⟩
  · rwa [flag, hreg]
  · rwa [laneTest, flag, flag, hreg, hreg]

/-- The frames of a bundle: the lanes that send each put out a frame of the same number, and the bundle goes on to the next. -/
theorem exec_buntingFrameSend {s : State} {b : Nat} (lead : Int) (hb : b < 8) (hdark : s.pwr.dark = false) :
    ∃ u ptr just ls chunk neg body lanes,
      Answers (.buntingFrameSend b lead) s
        (frameAdvanced (lanesFramed u b ptr just ls chunk neg body lanes) b (bundle s b).txFrame) ∧
      (bundle u b).txFrame = (bundle s b).txFrame ∧ ∀ l ∈ bundleLanes b, LaneSends s l → l ∈ lanes := by
  have hgo : ¬ (8 ≤ b ∨ s.pwr.dark = true) := by
    rw [hdark]
    simp
    omega
  obtain ⟨hstart, hsends⟩ := multiframe_started s b
  simp only [Answers, exec]
  generalize hr : execBuntingFrameSend b lead s = r
  rw [execBuntingFrameSend, if_neg hgo] at hr
  extract_lets s1 ft s2 x set lanes chunkLane c s3 next chunkOf locked ls y s4 free act v s5 z s6 n units at hr
  have hx : x.txFrame = (bundle s b).txFrame := hstart
  have h3 : (bundle s3 b).txFrame = (bundle s b).txFrame := (txFrame_sendChunk s2 b).trans hx
  have hlanes : ∀ l ∈ bundleLanes b, LaneSends s l → l ∈ lanes := fun l hl hs => by
    obtain ⟨hon, hen, htest⟩ := hsends l hs
    refine List.mem_filter.2 ⟨hl, ?_⟩
    have hon' : (flane s2 l).on = true := hon
    have hen' : flag s2 (Reg.flEnable l) = true := hen
    have htest' : laneTest s2 l = false := htest
    simp [hon', hen', htest']
  simp only [next, hx] at hr
  split at hr
  · refine ⟨s4, 0xFFFF, 0xC0 + locked, ls, chunkOf, fun _ => List.replicate 32 0, fun _ => List.replicate 16320 0xFF, lanes, hr.symm, ?_,
      hlanes⟩
    rw [bundle_setBundle_self]
    exact h3
  · have h5 : (bundle s5 b).txFrame = (bundle s b).txFrame := by
      simp only [s5]
      split <;> exact h3
    have h6 : (bundle s6 b).txFrame = (bundle s b).txFrame := by
      rw [bundle_setBundle_self]
      exact h5
    exact ⟨units.2, _, _, ls, chunkOf, _, _, lanes, hr.symm, (txFrame_sendUnits s6 b n).trans h6, hlanes⟩

end Sys2Proof.Machine

namespace Sys2Proof

open Machine

/-- Settles O33: what goes quiet, wakes or is asked out is the lane's or the bundle's record alone; the building of a container and of the
channel's chunk keeps the number that each lane's frame carries. -/
theorem fabricLanesSend : Obligations.FabricLanesSend := by
  unfold Obligations.FabricLanesSend
  intro s l b _ hl hb
  refine ⟨fun e he hpast hon hx => ⟨_, exec_laneQuiet he hpast hon hx, ?_, fun i hi => on_lanesQuieted _ b _ hi⟩,
    fun hen htest hdark hphase => ?_, fun a m ha hauto hlong hset hfloor hm => ?_, fun lead hdark => ?_⟩
  · rw [bundle_lanesQuieted, bundle_setBundle_self]
  · simp [Answers, exec, execLaneWake, hl, hen, htest, hdark, hphase]
  · subst hm
    simp [Answers, exec, execLaneAutoRemove, ha, hl, hauto, hlong, hset, hfloor]
  · obtain ⟨u, ptr, just, ls, chunk, neg, body, lanes, hexec, hframe, hlanes⟩ := exec_buntingFrameSend lead hb hdark
    refine ⟨_, hexec, ?_, fun x hx hon hen htest => ?_⟩
    · rw [frameAdvanced, bundle_setBundle_self]
    · exact frameSent_lanesFramed b ptr just ls chunk neg body lanes u hframe (.inl (hlanes x hx ⟨hon, hen, htest⟩))

end Sys2Proof
end

section
/-! SUPPORT. What packet memory, flow control, the discards and the timers of VOQs leave of the fabric transport (ch. 13): the devices'
records and states, the sequences of pairs, the references on their way out with the count of those sent, and the chapter's causes. -/

namespace Sys2Proof.Machine

variable {α : Type}

/-! ### Entries beside `ft_cause` -/

theorem key_ne_ftCause {idx sub : Nat} (hs : sub < 256) (h : idx ≠ 0x2840 ∨ sub ≠ 0) : key idx sub ≠ Reg.ftCause := by
  simp only [Reg.ftCause, key]
  omega

theorem keyIf_ne_ftCause {b : Bool} {idx sub : Nat} (h : b = true → sub < 256 ∧ (idx ≠ 0x2840 ∨ sub ≠ 0)) :
    keyIf b (key idx sub) ≠ Reg.ftCause := by
  cases b with
  | false => exact show 0 ≠ Reg.ftCause by decide
  | true => exact key_ne_ftCause (h rfl).1 (h rfl).2

@[simp] theorem portCause_ne_ftCause (p : Nat) : CauseReg.key (.port p) ≠ Reg.ftCause := keyIf_ne_ftCause (by simp)
@[simp] theorem dropTotal_ne_ftCause (r : Nat) : Reg.dropTotal r ≠ Reg.ftCause := keyIf_ne_ftCause (by simp; omega)
@[simp] theorem dropPort_ne_ftCause (p r : Nat) : Reg.dropPort p r ≠ Reg.ftCause := keyIf_ne_ftCause (by simp; omega)
@[simp] theorem dropUnattributed_ne_ftCause (r : Nat) : Reg.dropUnattributed r ≠ Reg.ftCause := keyIf_ne_ftCause (by simp; omega)
@[simp] theorem poolLeaked_ne_ftCause (n : Nat) : Reg.poolLeaked n ≠ Reg.ftCause := keyIf_ne_ftCause (by simp; omega)
@[simp] theorem intCorrected_ne_ftCause (c : Nat) : Reg.intCorrected c ≠ Reg.ftCause := keyIf_ne_ftCause (by simp; omega)
@[simp] theorem intUncorrectable_ne_ftCause (c : Nat) : Reg.intUncorrectable c ≠ Reg.ftCause := keyIf_ne_ftCause (by simp; omega)
@[simp] theorem pmCause_ne_ftCause : CauseReg.key .pm ≠ Reg.ftCause := by decide
@[simp] theorem intCause_ne_ftCause : CauseReg.key .int ≠ Reg.ftCause := by decide

/-! ### The transport of a state -/

/-- What only pennants, beacons and probes move, and the states of destinations. -/
structure Transport where
  recs : SMap DestRec
  dest : SMap Nat
  pairSeq : SMap Nat
  outs : SMap Out
  sent : Nat
  cause : Nat

/-- The transport of a state. -/
def transport (s : State) : Transport := ⟨s.ft.recs, s.ft.dest, s.ft.pairSeq, s.outs, s.led.dFabric, reg s Reg.ftCause⟩

theorem recs_of_transport {s t : State} (h : transport t = transport s) : t.ft.recs = s.ft.recs := congrArg Transport.recs h
theorem dest_of_transport {s t : State} (h : transport t = transport s) : t.ft.dest = s.ft.dest := congrArg Transport.dest h
theorem pairSeq_of_transport {s t : State} (h : transport t = transport s) : t.ft.pairSeq = s.ft.pairSeq := congrArg Transport.pairSeq h
theorem outs_of_transport {s t : State} (h : transport t = transport s) : t.outs = s.outs := congrArg Transport.outs h
theorem sent_of_transport {s t : State} (h : transport t = transport s) : t.led.dFabric = s.led.dFabric := congrArg Transport.sent h
theorem cause_of_transport {s t : State} (h : transport t = transport s) : reg t Reg.ftCause = reg s Reg.ftCause :=
  congrArg Transport.cause h

theorem destRec_of_transport {s t : State} (h : transport t = transport s) (d : Nat) : destRec t d = destRec s d := by
  rw [destRec, recs_of_transport h, destRec]

theorem destState_of_transport {s t : State} (h : transport t = transport s) (d : Nat) : destState t d = destState s d := by
  rw [destState, dest_of_transport h, destState]

@[simp] theorem transport_mk (od blocks pending time timeOffset freeCtr sent evt led obs pkts nextPkt outs nextOut ports lanes lmacs mem qm
    pwr host fl ft hbm integ ase dict cls lkp mtr fw clk io) :
    transport (State.mk od blocks pending time timeOffset freeCtr sent evt led obs pkts nextPkt outs nextOut ports lanes lmacs mem qm pwr
      host fl ft hbm integ ase dict cls lkp mtr fw clk io) =
      ⟨ft.recs, ft.dest, ft.pairSeq, outs, led.dFabric, mget (odDefault Reg.ftCause) od Reg.ftCause⟩ := (rfl)

@[simp] theorem transport_self (s : State) : Transport.mk s.ft.recs s.ft.dest s.ft.pairSeq s.outs s.led.dFabric
    (mget (odDefault Reg.ftCause) s.od Reg.ftCause) = transport s := (rfl)

@[simp] theorem transport_ite (c : Prop) [Decidable c] (s t : State) :
    transport (if c then s else t) = if c then transport s else transport t := apply_ite transport c s t

theorem transport_foldl_mem {f : State → α → State} {l : List α} (h : ∀ x ∈ l, ∀ s, transport (f s x) = transport s) (s : State) :
    transport (l.foldl f s) = transport s :=
  List.foldlRecOn l f (motive := fun t => transport t = transport s) rfl fun t ht x hx => (h x hx t).trans ht

@[simp] theorem transport_foldl {f : State → α → State} (h : ∀ s x, transport (f s x) = transport s) (l : List α) (s : State) :
    transport (l.foldl f s) = transport s := transport_foldl_mem (fun x _ s => h s x) s

/-- What events bring on the side leaves the transport as it was. -/
theorem transport_of_noted {ks : List Nat} {s t : State} (h : Noted ks s t) (hk : Reg.ftCause ∉ ks) : transport t = transport s := by
  obtain ⟨heq, -, hreg⟩ := h
  have hcause : mget (odDefault Reg.ftCause) t.od Reg.ftCause = mget (odDefault Reg.ftCause) s.od Reg.ftCause :=
    hreg Reg.ftCause (by decide) hk
  rw [heq, transport_mk, hcause, transport_self]

/-! ### Shared operations -/

@[simp] theorem transport_setReg {k : Nat} (h : k ≠ Reg.ftCause) (s : State) (v : Nat) : transport (setReg s k v) = transport s := by
  rw [setReg, transport_mk, mget_default_ne _ _ s.od k _ v h.symm, transport_self]

@[simp] theorem transport_countBy {k : Nat} (h : k ≠ Reg.ftCause) (s : State) (w n : Nat) : transport (countBy s w k n) = transport s :=
  transport_setReg h s _

@[simp] theorem transport_count1 {k : Nat} (h : k ≠ Reg.ftCause) (s : State) : transport (count1 s k) = transport s := transport_setReg h s _
@[simp] theorem transport_count32 {k : Nat} (h : k ≠ Reg.ftCause) (s : State) : transport (count32 s k) = transport s :=
  transport_setReg h s _

@[simp] theorem transport_emit (s : State) (e : Emission) : transport (emit s e) = transport s := (rfl)
@[simp] theorem transport_freeBits (s : State) (w : Nat) : transport (freeBits s w).2 = transport s := (rfl)
@[simp] theorem transport_setPort (s : State) (p : Nat) (x : Port) : transport (setPort s p x) = transport s := (rfl)
@[simp] theorem transport_setPkt (s : State) (i : Nat) (p : Pkt) : transport (setPkt s i p) = transport s := (rfl)
@[simp] theorem transport_delPkt (s : State) (i : Nat) : transport (delPkt s i) = transport s := (rfl)
@[simp] theorem transport_setQueue (s : State) (q : Nat) (x : Queue) : transport (setQueue s q x) = transport s := (rfl)
@[simp] theorem transport_queueLeft (s : State) : transport (queueLeft s) = transport s := (rfl)

@[simp] theorem transport_raise {c : CauseReg} (h : c.key ≠ Reg.ftCause) (s : State) (b : Nat) : transport (raise s c b) = transport s :=
  transport_of_noted (noted_raise [c.key] s c b (.inl (by simp))) (by simpa using h.symm)

@[simp] theorem transport_perfEvent (s : State) (code inst n : Nat) : transport (perfEvent s code inst n) = transport s :=
  transport_of_noted (noted_perfEvent [] s code inst n) (by simp)

@[simp] theorem transport_postcard (s : State) (r : Nat) (c : Card) : transport (postcard s r c) = transport s :=
  transport_of_noted (noted_postcard [] s r c) (by simp)

/-- A discard moves the ledger's counts of discards, and none of references sent (R355, R359). -/
@[simp] theorem transport_discard (s : State) (r : Nat) (at? : Option Nat) (c : Card) : transport (discard s r at? c) = transport s := by
  have hcount : ∀ s, transport (dropCounted s r at?) = transport s := fun s => by cases at? <;> simp [dropCounted]
  have henter : ∀ s, transport (dropEntered s r) = transport s := fun s => by
    rw [dropEntered]
    split <;> rfl
  simp [discard_eq, hcount, henter]

/-! ### Packet memory (ch. 9, ch. 20) -/

@[simp] theorem transport_setFlips (s : State) (cls unit idx n : Nat) : transport (setFlips s cls unit idx n) = transport s := (rfl)

@[simp] theorem transport_latchError (s : State) (cls kind unit idx : Nat) : transport (latchError s cls kind unit idx) = transport s :=
  transport_setReg (by decide) s _

@[simp] theorem transport_checkWord (s : State) (cls unit idx : Nat) : transport (checkWord s cls unit idx).2 = transport s := by
  have hcorrected : ∀ s, transport (wordCorrected s cls unit idx) = transport s := fun s => by simp [wordCorrected]
  have hlost : ∀ s p, transport (wordLost s cls unit idx p) = transport s := fun s p => by simp [wordLost]
  simp [checkWord, hcorrected, hlost]

@[simp] theorem transport_wordsWritten (s : State) (cls unit : Nat) (idxs : List Nat) :
    transport (wordsWritten s cls unit idxs) = transport s := by
  simp only [wordsWritten]
  split <;> simp +decide [injectFired]

@[simp] theorem transport_setUsed (s : State) (m u v : Nat) : transport (setUsed s m u v) = transport s := by simp [setUsed]
@[simp] theorem transport_setQuar (s : State) (m u : Nat) : transport (setQuar s m u) = transport s := by simp [setQuar]
@[simp] theorem transport_setSkim (s : State) (n h t c : Nat) : transport (setSkim s n h t c) = transport s := (rfl)
@[simp] theorem transport_setLinkWord (s : State) (c w : Nat) : transport (setLinkWord s c w) = transport s := by
  simp [setLinkWord, potWrite]
@[simp] theorem transport_ptrFault (s : State) (wh n p : Nat) : transport (ptrFault s wh n p) = transport s := by simp +decide [ptrFault]

@[simp] theorem transport_quarantinePtr (s : State) (m p : Nat) : transport (quarantinePtr s m p) = transport s := by
  simp only [quarantinePtr]
  split
  · split <;> simp [poolLowCheck]
  · rfl

@[simp] theorem transport_leakUnits (s : State) (m : Nat) (l : List Nat) : transport (leakUnits s m l) = transport s := by
  refine transport_foldl (fun s u => ?_) l s
  split <;> simp

@[simp] theorem transport_freeUnit (s : State) (m u : Nat) : transport (freeUnit s m u) = transport s := by
  have hbitmap : transport (readBitmap s m u) = transport s := by simp [readBitmap]
  rw [freeUnit]
  split <;> simp [hbitmap]

@[simp] theorem transport_freeUnits (s : State) (m : Nat) (l : List Nat) : transport (freeUnits s m l) = transport s := by simp [freeUnits]

/-! ### Flow control (R71, R224) -/

theorem transport_mainCount (s : State) (p n : Nat) {sub : Nat} (h : 0 < sub) (h' : sub < 256) :
    transport (mainCount s p sub n) = transport s := transport_countBy (key_ne_ftCause h' (.inr (by omega))) s 64 n

theorem transport_fbCount (s : State) (p n : Nat) {sub : Nat} (h : 0 < sub) (h' : sub < 256) :
    transport (fbCount s p sub n) = transport s := by
  have hkey : key (0x2000 + p) sub ≠ Reg.ftCause := key_ne_ftCause h' (.inr (by omega))
  simp [fbCount, hkey]

theorem transport_fbTxSize (s : State) (p : Nat) (f : List Byte) : transport (fbTxSize s p f) = transport s := by
  have hb := sizeBin_le f.length
  have ha := addrClass_le f
  simp only [fbTxSize, transport_perfEvent, transport_ite]
  rw [transport_fbCount _ p 1 (sub := 0xA5 + sizeBin f.length) (by omega) (by omega),
    transport_fbCount _ p 1 (sub := 0xA2 + addrClass f) (by omega) (by omega), transport_fbCount _ p 1 (by decide) (by decide),
    transport_fbCount _ p f.length (by decide) (by decide), ite_self]

@[simp] theorem transport_sendControl (s : State) (p : Nat) (f : List Byte) : transport (sendControl s p f) = transport s := by
  have hfold : ∀ s : State, transport ((bitList 8 (beAt f 16 2)).foldl (fun s i => fbCount s p (0xB0 + i) 1) s) = transport s :=
    transport_foldl_mem fun i hi s => by
      have hpriority : i < 8 := List.mem_range.1 (List.mem_filter.1 hi).1
      exact transport_fbCount s p 1 (by omega) (by omega)
  simp only [sendControl, transport_emit, transport_ite, hfold]
  rw [transport_fbCount _ p 1 (by decide) (by decide), transport_mainCount _ p 1 (by decide) (by decide), transport_fbTxSize, ite_self]

@[simp] theorem transport_queueControl (s : State) (p : Nat) (pfc : Bool) (vec time : Nat) :
    transport (queueControl s p pfc vec time) = transport s := by
  simp only [queueControl]
  split
  · rfl
  · split <;> simp

@[simp] theorem transport_sendXoff (s : State) (p i : Nat) (on : Bool) : transport (sendXoff s p i on) = transport s := by simp [sendXoff]

@[simp] theorem transport_fcCheckOf (s : State) (p : Pkt) : transport (fcCheckOf s p) = transport s := by
  rw [fcCheckOf]
  split <;> simp [fcCheck, thresholdStep]

/-! ### Packets and queues that are emptied (R215, R345, R355) -/

@[simp] theorem transport_freePkt (s : State) (i : Nat) : transport (freePkt s i) = transport s := by
  have hdue : ∀ p, transport (dueKnown s i p) = transport s := fun _ => rfl
  rw [freePkt]
  split <;> simp [hdue]

@[simp] theorem transport_releaseRef (s : State) (i : Nat) : transport (releaseRef s i) = transport s := by
  have hread : ∀ p, transport (readCount s p).2 = transport s := fun p => by
    rw [readCount]
    split
    · split <;> simp
    · rfl
  rw [releaseRef]
  split
  · simp +decide [hread, countLost]
  · simp +decide

@[simp] theorem transport_discardHeld (s : State) (q : Nat) (r : Ref) (reason : Nat) :
    transport (discardHeld s q r reason) = transport s := by
  have hcredit : ∀ s i, transport (creditBack s i) = transport s := fun s i => by
    rw [creditBack]
    split
    · split <;> rfl
    · rfl
  rw [discardHeld]
  split <;> simp [hcredit]

/-- What waits for a lost destination goes, and the transport stays (R338). -/
@[simp] theorem transport_dropWaiting (s : State) (d : Nat) : transport (dropWaiting s d) = transport s := by
  have hflush : ∀ s q, transport (flushQueue s q 31) = transport s := fun s q => by simp [flushQueue]
  simp [dropWaiting, hflush]

@[simp] theorem transport_touchVoqs (s : State) : transport (touchVoqs s) = transport s := by
  have hrequest : ∀ s q, transport (requestUnits s q) = transport s := fun s q => by
    simp only [requestUnits]
    split <;> rfl
  simp [touchVoqs, hrequest]

end Sys2Proof.Machine
end

section
/-! SUPPORT. Beacons and their misses, probes without an answer, and the bundle a pennant takes (R333–R337, R340). -/

namespace Sys2Proof.Machine

variable {α β : Type} {s : State}

/-- A fold that comes to each index once, seen at index `b`: `g` is applied where the list holds `b`, under an invariant `I`. -/
theorem foldl_once {view : α → β} {I : α → Prop} {f : α → Nat → α} {g : β → β} {b : Nat} {l : List Nat} {s : α} (hl : l.Nodup) (hs : I s)
    (h : ∀ t, ∀ x ∈ l, I t → I (f t x) ∧ view (f t x) = if x = b then g (view t) else view t) :
    view (l.foldl f s) = if b ∈ l then g (view s) else view s := by
  induction l generalizing s with
  | nil => rfl
  | cons x r ih =>
    obtain ⟨hx, hr⟩ := List.nodup_cons.1 hl
    obtain ⟨hI, hview⟩ := h s x (List.mem_cons_self ..) hs
    rw [List.foldl_cons, ih hr hI fun t y hy => h t y (List.mem_cons_of_mem _ hy), hview]
    by_cases hb : x = b
    · subst hb
      simp [hx]
    · simp [hb, Ne.symm hb]

/-! ### Beacons (R333) -/

/-- Writing a bundle's record leaves the others' as they were. -/
theorem bundle_setBundle_ne (s : State) {a b : Nat} (x : FBundle) (h : a ≠ b) : bundle (setBundle s b x) a = bundle s a :=
  mget_mset_ne _ _ _ _ _ h

theorem bundle_withFt (s : State) (f : FtState) (b : Nat) : bundle { s with ft := f } b = bundle s b := (rfl)

/-- A bundle's record once a control pennant has joined its queue, or found it full. -/
def FBundle.controlled (x : FBundle) (p : List Byte) : FBundle := if x.ctrl.length < 64 then { x with ctrl := x.ctrl ++ [p] } else x

theorem bundle_sendControlPennant (s : State) (a b : Nat) (p : List Byte) :
    bundle (sendControlPennant s a p) b = if a = b then (bundle s b).controlled p else bundle s b := by
  simp only [sendControlPennant, FBundle.controlled]
  by_cases hab : a = b
  · subst hab
    split <;> simp
  · rw [if_neg hab]
    split
    · exact bundle_setBundle_ne s _ (Ne.symm hab)
    · rfl

theorem od_sendControlPennant (s : State) (b : Nat) (p : List Byte) : (sendControlPennant s b p).od = s.od := by
  simp only [sendControlPennant]
  split <;> rfl

/-- The device's own beacon goes out on a bundle without a path defect. -/
def beaconSent (n : Nat) (s : State) (b : Nat) : State :=
  if pathDown s b then s else sendControlPennant s b (beacon s (ownId s) n 0 b)

/-- A beacon is what the entries make it, whatever the bundles hold. -/
theorem beaconSent_spec {s t : State} (h : t.od = s.od) (n a b : Nat) : (beaconSent n t a).od = s.od ∧
    bundle (beaconSent n t a) b = if a = b then (if pathDown s b then bundle t b else (bundle t b).controlled (beacon s (ownId s) n 0 b))
      else bundle t b := by
  have hreg : ∀ k, reg t k = reg s k := fun k => by rw [reg, h, reg]
  have hdown : pathDown t a = pathDown s a := by rw [pathDown, hreg, pathDown]
  have hbeacon : beacon t (ownId t) n 0 a = beacon s (ownId s) n 0 a := by simp only [beacon, ownId, hreg]
  rw [beaconSent, hdown, hbeacon]
  refine ⟨?_, ?_⟩
  · split
    · exact h
    · exact (od_sendControlPennant t a _).trans h
  · by_cases hab : a = b
    · subst hab
      simp only [if_true]
      split
      · rfl
      · rw [bundle_sendControlPennant, if_pos rfl]
    · rw [if_neg hab]
      split
      · rfl
      · rw [bundle_sendControlPennant, if_neg hab]

/-- The beacons of an instant reach the queue of each bundle without a path defect. -/
theorem ctrl_beaconsSent (n : Nat) {b : Nat} (hb : b < 8) (hup : pathDown s b = false) (hroom : (bundle s b).ctrl.length < 64) :
    (bundle ((List.range 8).foldl (beaconSent n) s) b).ctrl = (bundle s b).ctrl ++ [beacon s (ownId s) n 0 b] := by
  have hfold := foldl_once (view := fun t => bundle t b) (I := fun t => t.od = s.od) (f := beaconSent n) (b := b) (l := List.range 8)
    (g := fun x => if pathDown s b then x else x.controlled (beacon s (ownId s) n 0 b)) (s := s) List.nodup_range rfl
    (fun t a _ ht => beaconSent_spec ht n a b)
  rw [hfold, if_pos (List.mem_range.2 hb), hup]
  simp [FBundle.controlled, hroom]

/-- At a beacon instant the device's beacons go out, with the next number (R333). -/
theorem exec_beaconSend (ht : timeNs s % 100000 = 0) (hon : flag s Reg.ftBeaconEnable = true) (hid : namesDevice (ownId s) = true) :
    Answers .beaconSend s { (List.range 8).foldl (beaconSent s.ft.beacons) s with
      ft.beacons := (s.ft.beacons + 1) % 2 ^ 24 } := by
  have hstep : beaconSent s.ft.beacons = fun t b =>
      if pathDown t b then t else sendControlPennant t b (beacon t (ownId t) s.ft.beacons 0 b) := rfl
  simp only [Answers, exec, execBeaconSend, ht, hon, hid, and_self, if_true, hstep]

theorem beaconSend_sends (ht : timeNs s % 100000 = 0) (hon : flag s Reg.ftBeaconEnable = true) (hid : namesDevice (ownId s) = true) :
    ∃ t, Answers .beaconSend s t ∧ t.ft.beacons = (s.ft.beacons + 1) % 2 ^ 24 ∧ ∀ b < 8, pathDown s b = false →
      (bundle s b).ctrl.length < 64 → (bundle t b).ctrl = (bundle s b).ctrl ++ [beacon s (ownId s) s.ft.beacons 0 b] := by
  refine ⟨_, exec_beaconSend ht hon hid, ?_, fun b hb hup hroom => ?_⟩
  · rfl
  · rw [bundle_withFt]
    exact ctrl_beaconsSent s.ft.beacons hb hup hroom

/-! ### Missed beacons (R335) -/

theorem natAt_eq_getD (l : List Nat) (i : Nat) : natAt l i = l[i]?.getD 0 := by rw [natAt, List.head?_drop]

theorem putAt_eq_set {l : List Nat} {i : Nat} (h : i < l.length) (v : Nat) : putAt l i v = l.set i v := by
  rw [List.set_eq_take_append_cons_drop, if_pos h, putAt, List.append_assoc, List.singleton_append]

theorem length_putAt {l : List Nat} {i : Nat} (h : i < l.length) (v : Nat) : (putAt l i v).length = l.length := by
  rw [putAt_eq_set h, List.length_set]

theorem natAt_putAt {l : List Nat} {i : Nat} (h : i < l.length) (v j : Nat) : natAt (putAt l i v) j = if i = j then v else natAt l j := by
  rw [natAt_eq_getD, putAt_eq_set h, List.getElem?_set, natAt_eq_getD]
  split
  · simp
  · rfl

/-- A bundle whose beacon was not heard: its third miss in a row loses the distance. -/
def missStep (heard : Nat) (x : List Nat × List Nat) (b : Nat) : List Nat × List Nat :=
  if natAt x.1 b = 0xFFFF ∨ bit heard b then x
  else if natAt x.2 b = 2 then (putAt x.1 b 0xFFFF, putAt x.2 b 0)
  else (x.1, putAt x.2 b (natAt x.2 b + 1))

/-- What a device was heard of: its distances, its misses in a row, and the bundles its beacons came over. -/
structure Hearing where
  dist : List Nat
  miss : List Nat
  heard : Nat

/-- The hearing of a device. -/
def hearing (s : State) (d : Nat) : Hearing := ⟨(destRec s d).dist, (destRec s d).miss, (destRec s d).heard⟩

/-- Distances and misses after a check. -/
def Hearing.counted (h : Hearing) : List Nat × List Nat := (List.range 8).foldl (missStep h.heard) (h.dist, h.miss)

/-- The hearing after a check: the next one begins. -/
def Hearing.checked (h : Hearing) : Hearing := ⟨h.counted.1, h.counted.2, 0⟩

/-- Distance and misses of one bundle after a check. -/
def missedAt (heard : Bool) (y : Nat × Nat) : Nat × Nat :=
  if y.1 = 0xFFFF ∨ heard then y else if y.2 = 2 then (0xFFFF, 0) else (y.1, y.2 + 1)

theorem missStep_spec {x : List Nat × List Nat} (hx : x.1.length = 8 ∧ x.2.length = 8) (heard : Nat) {a : Nat} (ha : a < 8) (b : Nat) :
    ((missStep heard x a).1.length = 8 ∧ (missStep heard x a).2.length = 8) ∧
    (natAt (missStep heard x a).1 b, natAt (missStep heard x a).2 b) =
      if a = b then missedAt (bit heard b) (natAt x.1 b, natAt x.2 b) else (natAt x.1 b, natAt x.2 b) := by
  obtain ⟨hdist, hmiss⟩ := hx
  simp only [missStep]
  by_cases hab : a = b
  · subst hab
    simp only [if_true, missedAt]
    split
    · exact ⟨⟨hdist, hmiss⟩, rfl⟩
    · split <;> simp [natAt_putAt, length_putAt, hdist, hmiss, ha]
  · simp only [hab, if_false]
    split
    · exact ⟨⟨hdist, hmiss⟩, rfl⟩
    · split <;> simp [natAt_putAt, length_putAt, hdist, hmiss, ha, hab]

/-- What a check makes of each bundle's distance. -/
theorem natAt_checked {h : Hearing} (hdist : h.dist.length = 8) (hmiss : h.miss.length = 8) {b : Nat} (hb : b < 8) :
    natAt h.checked.dist b = (missedAt (bit h.heard b) (natAt h.dist b, natAt h.miss b)).1 := by
  have hfold := foldl_once (view := fun x : List Nat × List Nat => (natAt x.1 b, natAt x.2 b))
    (I := fun x => x.1.length = 8 ∧ x.2.length = 8) (f := missStep h.heard)
    (g := missedAt (bit h.heard b)) (b := b) (l := List.range 8) (s := (h.dist, h.miss)) List.nodup_range ⟨hdist, hmiss⟩
    (fun x a ha hx => missStep_spec hx h.heard (List.mem_range.1 ha) b)
  rw [if_pos (List.mem_range.2 hb)] at hfold
  simpa only [Hearing.checked, Hearing.counted] using congrArg Prod.fst hfold

theorem hearing_of_recs {s t : State} (h : t.ft.recs = s.ft.recs) (d : Nat) : hearing t d = hearing s d := by
  simp only [hearing, destRec, h]

theorem hearing_of_transport {s t : State} (h : transport t = transport s) (d : Nat) : hearing t d = hearing s d :=
  hearing_of_recs (recs_of_transport h) d

theorem hearing_raise (s : State) (c : CauseReg) (b d : Nat) : hearing (raise s c b) d = hearing s d :=
  hearing_of_recs (by rw [(noted_raise [c.key] s c b (.inl (by simp))).1]) d

theorem hearing_setDestRec (s : State) (e : Nat) (x : DestRec) (d : Nat) :
    hearing (setDestRec s e x) d = if e = d then ⟨x.dist, x.miss, x.heard⟩ else hearing s d := by
  by_cases hed : e = d
  · subst hed
    simp [hearing, destRec, setDestRec]
  · simp [hearing, destRec, setDestRec, hed, mget_mset_ne _ _ _ _ _ (Ne.symm hed)]

/-- A record that keeps its distances, misses and bundles heard. -/
theorem hearing_setDestRec_same (s : State) (e d : Nat) {x : DestRec} (h : ⟨x.dist, x.miss, x.heard⟩ = hearing s e) :
    hearing (setDestRec s e x) d = hearing s d := by
  rw [hearing_setDestRec, h]
  split
  · subst_vars
    rfl
  · rfl

theorem hearing_probeDest (s : State) (e d : Nat) : hearing (probeDest s e) d = hearing s d :=
  hearing_setDestRec_same s e d rfl

/-- A destination's new state leaves what was heard of every device (R336). -/
theorem hearing_enterDest (s : State) (e st d : Nat) : hearing (enterDest s e st) d = hearing s d := by
  have hite : ∀ (c : Prop) [Decidable c] (t u : State), hearing (if c then t else u) d = if c then hearing t d else hearing u d :=
    fun c _ t u => apply_ite (hearing · d) c t u
  have hdrop : ∀ t, hearing (dropWaiting t e) d = hearing t d := fun t => hearing_of_transport (transport_dropWaiting t e) d
  have hlost : ∀ t : State, hearing (setDestRec t e { destRec t e with startOwed := true, silent := 0, probeAt := none }) d = hearing t d :=
    fun t => hearing_setDestRec_same t e d rfl
  have hreg : ∀ (t : State) k v, hearing (setReg t k v) d = hearing t d := fun _ _ _ => rfl
  have hgrants : ∀ (t : State) g, hearing { t with ft.grants := g } d = hearing t d := fun _ _ => rfl
  have hdest : ∀ (t : State) m, hearing { t with ft.dest := m } d = hearing t d := fun _ _ => rfl
  simp only [enterDest, hreg, hite, hearing_probeDest, hdrop, hearing_raise, hlost, hgrants, hdest, ite_self]

theorem hearing_routeChanged (s : State) (e d : Nat) : hearing (routeChanged s e) d = hearing s d := by
  simp only [routeChanged]
  split
  · split
    · rfl
    · exact (hearing_of_transport (transport_touchVoqs _) d).trans (hearing_enterDest s e 0 d)
  · split
    · exact hearing_enterDest s e 1 d
    · rfl

/-- A check of one device leaves the hearing of the others. -/
theorem hearing_missCheck (s : State) (e d : Nat) :
    hearing (missCheck s e) d = if e = d then (hearing s d).checked else hearing s d := by
  have hcheck : missCheck s e = routeChanged (setDestRec s e { destRec s e with
      dist := (hearing s e).checked.dist, miss := (hearing s e).checked.miss, heard := 0 }) e := by
    have hstep : missStep (destRec s e).heard = fun x b =>
        if natAt x.1 b = 0xFFFF ∨ bit (destRec s e).heard b then x
        else if natAt x.2 b = 2 then (putAt x.1 b 0xFFFF, putAt x.2 b 0)
        else (x.1, putAt x.2 b (natAt x.2 b + 1)) := rfl
    simp only [missCheck, Hearing.checked, Hearing.counted, hearing, hstep]
  rw [hcheck, hearing_routeChanged, hearing_setDestRec]
  split
  · subst_vars
    simp only [Hearing.checked]
  · rfl

/-- At a beacon instant the misses of every device known are counted (R335). -/
theorem exec_beaconMissCheck (ht : timeNs s % 100000 = 0) : Answers .beaconMissCheck s ((mkeys s.ft.recs).foldl missCheck s) := by
  simp [Answers, exec, execBeaconMissCheck, ht]

theorem hearing_missesChecked (hkeys : (mkeys s.ft.recs).Nodup) {d : Nat} (hd : d ∈ mkeys s.ft.recs) :
    hearing ((mkeys s.ft.recs).foldl missCheck s) d = (hearing s d).checked := by
  have hfold := foldl_once (view := fun t => hearing t d) (I := fun _ => True) (g := Hearing.checked) (b := d) (s := s) hkeys trivial
    (fun t e _ _ => ⟨trivial, hearing_missCheck t e d⟩)
  rwa [if_pos hd] at hfold

/-- The third miss in a row loses a bundle's distance, and a beacon heard keeps it (R335). -/
theorem beaconMissCheck_counts (ht : timeNs s % 100000 = 0) (hkeys : (mkeys s.ft.recs).Nodup) {d : Nat} (hd : d ∈ mkeys s.ft.recs)
    (hdist : (destRec s d).dist.length = 8) (hmiss : (destRec s d).miss.length = 8) :
    ∃ t, Answers .beaconMissCheck s t ∧ (destRec t d).heard = 0 ∧ ∀ b < 8,
      (natAt (destRec s d).dist b ≠ 0xFFFF → bit (destRec s d).heard b = false → natAt (destRec s d).miss b = 2 →
        natAt (destRec t d).dist b = 0xFFFF) ∧
      (bit (destRec s d).heard b = true → natAt (destRec t d).dist b = natAt (destRec s d).dist b) := by
  have hchecked := hearing_missesChecked hkeys hd
  have hafter : (destRec ((mkeys s.ft.recs).foldl missCheck s) d).dist = (hearing s d).checked.dist := congrArg Hearing.dist hchecked
  refine ⟨_, exec_beaconMissCheck ht, congrArg Hearing.heard hchecked, fun b hb => ?_⟩
  rw [hafter, natAt_checked (h := hearing s d) hdist hmiss hb]
  refine ⟨fun hnear hheard hthird => ?_, fun hheard => ?_⟩
  · simp [missedAt, hearing, hnear, hheard, hthird]
  · simp [missedAt, hearing, hheard]

/-! ### Probes without an answer (R336) -/

/-- A destination that becomes TOO_FAR: its state, its cause, and what waits for it (R336, R338). -/
theorem enterDest_tooFar {d : Nat} (h : destState s d ≠ 3) : ∃ v, enterDest s d 3 =
    setReg (dropWaiting (raise { s with ft.dest := mset 0 s.ft.dest d 3 } .ft 2) d) Reg.ftDestReachable v := by
  simp [enterDest, h]

theorem probeUnanswered_tooFar {d a : Nat} (hprobe : (destRec s d).probeAt = some a) (hreach : destReachable s d = true)
    (hsilent : 3 ≤ (destRec s d).silent) (hlate : a + reg s Reg.ftHorizonNs < s.time) : ∃ t, Answers (.probeUnanswered d) s t ∧
      destState t d = 3 ∧ bit (reg t Reg.ftCause) 2 = true := by
  have hstate : destState s d ≠ 3 := fun h => by simp [destReachable, h] at hreach
  obtain ⟨v, henter⟩ := enterDest_tooFar hstate
  have hdrop := transport_dropWaiting (raise { s with ft.dest := mset 0 s.ft.dest d 3 } .ft 2) d
  refine ⟨enterDest s d 3, by simp [Answers, exec, execProbeUnanswered, hprobe, hreach, hsilent, hlate], ?_, ?_⟩
  · rw [henter]
    refine (destState_of_transport hdrop d).trans ?_
    rw [destState, (noted_raise [Reg.ftCause] _ .ft 2 (.inl (List.mem_singleton_self _))).1]
    exact mget_mset_self _ _ _ _
  · rw [henter, reg_setReg_ne _ _ _ _ (by decide), cause_of_transport hdrop]
    exact bit_raise_self _ .ft 2 (by decide)

/-! ### The bundle a pennant takes (R340) -/

theorem sprayLoop_leaves {f : Nat} {ok : Nat → Bool} {b : Nat} {u : State} (h : sprayLoop f s ok = some (b, u)) :
    u = { s with ft.sprayAt := u.ft.sprayAt, ft.sprayLeft := u.ft.sprayLeft } := by
  induction f generalizing s with
  | zero => cases h
  | succ f ih =>
    simp only [sprayLoop] at h
    split at h
    · cases h
      rfl
    · have hu := ih h
      exact hu

/-- A spray moves its place and the deficits alone. -/
theorem spray_leaves {d : Nat} {from' cls : Option Nat} {room : FBundle → Bool} {b : Nat} {u : State}
    (h : spray s d from' cls room = some (b, u)) : u = { s with ft.sprayAt := u.ft.sprayAt, ft.sprayLeft := u.ft.sprayLeft } :=
  sprayLoop_leaves h

end Sys2Proof.Machine
end

section
/-! SUPPORT. Pennants that leave (R330, R340, R344): the gathered entries of credit, and the last pennant of a packet. -/

namespace Sys2Proof.Machine

variable {s u : State} {d b : Nat}

/-! ### Credit (R344) -/

/-- The entries of a pennant as they leave: a probe takes the time. -/
def entriesStamped (s : State) (es : List Nat) : List Nat :=
  es.map (fun e => if bits e 114 112 = 5 then setBits e 63 32 (timeNs s % 2 ^ 32) else e)

/-- The pennant of gathered entries. -/
def creditPennant (s : State) (d : Nat) (c : CreditOut) : List Byte :=
  pennant c.ty (ownId s) d 0 0 0 (16 * c.entries.length) 0 0 ((entriesStamped s c.entries).flatMap (beBytes 16))

/-- The oldest entries leave on the bundle the spray takes. -/
theorem exec_creditPennantSend {c : CreditOut} {r : List CreditOut} (hpwr : s.pwr.flushing = false)
    (hgather : mget [] s.ft.gather d = c :: r) (hroute : (routeSet s d).isEmpty = false) (hid : namesDevice (ownId s) = true)
    (hspray : spray { s with ft.gather := mset [] s.ft.gather d r } d none none bufferRoom = some (b, u)) :
    Answers (.creditPennantSend d) s (setBundle u b { bundle u b with credit := (bundle u b).credit ++ [creditPennant u d c] }) := by
  simp [Answers, exec, execCreditPennantSend, hpwr, hgather, hroute, hid, hspray, creditPennant, entriesStamped]

/-- The oldest entries leave in one pennant, and are gathered no more. -/
theorem creditPennantSend_leaves {c : CreditOut} {r : List CreditOut} (hpwr : s.pwr.flushing = false)
    (hgather : mget [] s.ft.gather d = c :: r) (hroute : (routeSet s d).isEmpty = false) (hid : namesDevice (ownId s) = true)
    (hspray : spray { s with ft.gather := mset [] s.ft.gather d r } d none none bufferRoom = some (b, u)) :
    ∃ t, Answers (.creditPennantSend d) s t ∧ mget [] t.ft.gather d = r ∧
      (bundle t b).credit = (bundle s b).credit ++ [creditPennant s d c] := by
  have hu := spray_leaves hspray
  refine ⟨_, exec_creditPennantSend hpwr hgather hroute hid hspray, ?_, ?_⟩
  · rw [hu]
    exact mget_mset_self _ _ _ _
  · rw [bundle_setBundle_self, hu]
    rfl

/-! ### The last pennant of a packet (R330, R340) -/

/-- Sound arrays lose no byte of a packet that was stored whole (R488). -/
theorem readPot_of_sound {p : Pkt} (hs : Sound s) (hp : p.poison = false) (i m n : Nat) : readPot s i p m n = (false, s) := by
  simp [readPot, hp, badWords_of_sound hs]

/-- The pennant that carries the rest of a packet and ends its reference (R330). -/
def lastCut (i off : Nat) (form : List Byte) : Cut :=
  { ty := if off = 0 then 1 else 4, segs := 0, body := form.drop off, ends := [i], open' := none }

theorem cutNext_last {i : Nat} {o : Out} {p : Pkt} (hs : Sound s) (hp : pkt? s o.ref.pkt = some p) (hpoison : p.poison = false)
    (hwhole : formWhole p = true) (hfit : (fabricForm s o p false).length ≤ mget 0 s.ft.sentOff i + 240) :
    cutNext s [(i, o)] = some (lastCut i (mget 0 s.ft.sentOff i) (fabricForm s o p false)) := by
  have hshort : ¬ 240 < (fabricForm s o p false).length - mget 0 s.ft.sentOff i := by omega
  simp [cutNext, hp, readPot_of_sound hs hpoison, hwhole, hshort, lastCut]

/-- A reference that has ended, before its packet is released (R359). -/
def outEnded (s : State) (i : Nat) : State :=
  { s with outs := mdel s.outs i, ft.sentOff := mdel s.ft.sentOff i, led.dFabric := s.led.dFabric + 1, led.oOut := s.led.oOut - 1 }

theorem endOut_of_sound {i : Nat} {o : Out} {p : Pkt} (hs : Sound s) (ho : mfind s.outs i = some o) (hp : pkt? s o.ref.pkt = some p)
    (hpoison : p.poison = false) : endOut s i = releaseRef (outEnded s i) o.ref.pkt := by
  simp [endOut, ho, hp, readPot_of_sound hs hpoison, outEnded]

/-- The pennant of a unicast cut. -/
def cutPennant (s : State) (desc : Nat) (c : Cut) : List Byte :=
  pennant c.ty (ownId s) (dDestDevice desc) (dDestPort desc) (dClass desc) (mget 0 s.ft.pairSeq (dDestDevice desc)) c.body.length c.segs 0
    c.body

/-- The last pennant of a packet stands in a transmit buffer, and its pair's sequence is one further (R329). -/
def lastSent (u : State) (b desc : Nat) (c : Cut) : State :=
  { setBundle u b { bundle u b with own := (bundle u b).own ++ [cutPennant u desc c] } with
    ft.pairSeq := mset 0 u.ft.pairSeq (dDestDevice desc) ((mget 0 u.ft.pairSeq (dDestDevice desc) + 1) % 2 ^ 24)
    ft.busy := mdel u.ft.busy (dDestDevice desc) }

/-- A reference that fits one pennant goes out on the bundle the spray takes, and ends. -/
theorem sendUnicast_last {q i : Nat} {o : Out} {line : List (Nat × Out)} {form : List Byte} {off : Nat}
    (hstate : destState s (dDestDevice o.ref.desc) = 1 ∨ destState s (dDestDevice o.ref.desc) = 2)
    (hbusy : mget q s.ft.busy (dDestDevice o.ref.desc) = q) (hcut : cutNext s line = some (lastCut i off form))
    (hstart : (destRec s (dDestDevice o.ref.desc)).startOwed = false)
    (hspray : spray s (dDestDevice o.ref.desc) none (some (dClass o.ref.desc)) bufferRoom = some (b, u)) :
    sendUnicast s q o line = endOut (lastSent u b o.ref.desc (lastCut i off form)) i := by
  have hreach : ¬ (destState s (dDestDevice o.ref.desc) = 0 ∨ destState s (dDestDevice o.ref.desc) = 3) := by omega
  have hsend : sendStart s (dDestDevice o.ref.desc) = some s := by simp [sendStart, hstart]
  simp only [sendUnicast, hreach, hbusy, hcut, hsend, hspray, ne_eq, not_true, if_false]
  rfl

/-- A packet whose rest fits one pennant leaves in it and is released. -/
theorem pennantSend_last {q i : Nat} {o : Out} {p : Pkt} (hs : Sound s) (hline : fabxLine s q = [(i, o)]) (ho : mfind s.outs i = some o)
    (hkind : o.ref.kind ≠ .fabricCopy) (hid : namesDevice (ownId s) = true) (hpwr : s.pwr.flushing = false)
    (hp : pkt? s o.ref.pkt = some p) (hpoison : p.poison = false) (hwhole : formWhole p = true)
    (hstate : destState s (dDestDevice o.ref.desc) = 1 ∨ destState s (dDestDevice o.ref.desc) = 2)
    (hbusy : mget q s.ft.busy (dDestDevice o.ref.desc) = q) (hstart : (destRec s (dDestDevice o.ref.desc)).startOwed = false)
    (hfit : (fabricForm s o p false).length ≤ mget 0 s.ft.sentOff i + 240)
    (hspray : spray s (dDestDevice o.ref.desc) none (some (dClass o.ref.desc)) bufferRoom = some (b, u)) :
    Answers (.pennantSend q) s (touchVoqs (releaseRef (outEnded (lastSent u b o.ref.desc
      (lastCut i (mget 0 s.ft.sentOff i) (fabricForm s o p false))) i) o.ref.pkt)) := by
  have hu := spray_leaves hspray
  have hlast : ∀ c, Sound (lastSent u b o.ref.desc c) ∧ mfind (lastSent u b o.ref.desc c).outs i = some o ∧
      pkt? (lastSent u b o.ref.desc c) o.ref.pkt = some p := fun c => by
    rw [hu]
    exact ⟨hs, ho, hp⟩
  obtain ⟨hs', ho', hp'⟩ := hlast (lastCut i (mget 0 s.ft.sentOff i) (fabricForm s o p false))
  simp only [Answers, exec, execPennantSend, hline, hid, hpwr, hkind, Bool.not_true, Bool.false_eq_true, or_self, if_false]
  rw [sendUnicast_last hstate hbusy (cutNext_last hs hp hpoison hwhole hfit) hstart hspray, endOut_of_sound hs' ho' hp' hpoison]

/-- What stands once the last pennant has left: the pennant in its buffer, the pair's sequence, and one reference less, sent (R329, R359). -/
theorem pennantLeft_spec (u : State) (b desc i j : Nat) (c : Cut) {t : State}
    (ht : t = touchVoqs (releaseRef (outEnded (lastSent u b desc c) i) j)) :
    (bundle t b).own = (bundle u b).own ++ [cutPennant u desc c] ∧
    mget 0 t.ft.pairSeq (dDestDevice desc) = (mget 0 u.ft.pairSeq (dDestDevice desc) + 1) % 2 ^ 24 ∧ mfind t.outs i = none ∧
    t.led.dFabric = u.led.dFabric + 1 := by
  have hfabric : bunting t = bunting (outEnded (lastSent u b desc c) i) := by rw [ht, bunting_touchVoqs, bunting_releaseRef]
  have htransport : transport t = transport (outEnded (lastSent u b desc c) i) := by rw [ht, transport_touchVoqs, transport_releaseRef]
  refine ⟨?_, ?_, ?_, ?_⟩
  · rw [bundle_of_bunting hfabric]
    exact congrArg FBundle.own (bundle_setBundle_self u b _)
  · rw [pairSeq_of_transport htransport]
    exact mget_mset_self _ _ _ _
  · rw [outs_of_transport htransport]
    exact mfind_mdel_self _ i
  · exact sent_of_transport htransport

end Sys2Proof.Machine

namespace Sys2Proof

open Machine

/-- Settles O36: a spray moves its own place alone, a check of misses touches each device once, and the release of a packet leaves the
pennant, the pair's sequence and the count of references sent. -/
theorem pennantsSent : Obligations.PennantsSent := by
  unfold Obligations.PennantsSent
  intro s d _
  refine ⟨beaconSend_sends, fun ht hkeys hd => beaconMissCheck_counts ht hkeys hd, fun hstate hprobe => ?_, fun a => probeUnanswered_tooFar,
    fun c r b u => creditPennantSend_leaves,
    fun q i o p b u n hs hline ho hkind hid hpwr hp hpoison hwhole hn hstate hbusy hstart hfit hspray => ?_⟩
  · rcases hstate with h | h <;> simp [Answers, exec, execProbeSend, h, hprobe]
  · subst hn
    obtain ⟨hown, hseq, hout, hsent⟩ := pennantLeft_spec u b o.ref.desc i o.ref.pkt
      (lastCut i (mget 0 s.ft.sentOff i) (fabricForm s o p false)) rfl
    have hu := spray_leaves hspray
    refine ⟨_, pennantSend_last hs hline ho hkind hid hpwr hp hpoison hwhole hstate hbusy hstart hfit hspray, hown.trans ?_,
      hseq.trans ?_, hout, hsent.trans ?_⟩
    · rw [hu]
      rfl
    · rw [hu]
    · rw [hu]

end Sys2Proof
end

section
/-! SUPPORT. What every step keeps (R399, R400, R411; notes/assumptions/1): the relation, and what keeps it where the state is composed. -/

namespace Sys2Proof.Machine

/-- From `u` to `s` the canonical forms and the accounts stay in order, no count of counted writes falls, the queue is as it was, and
the device key too, or it is the value of a write of it that was burning. -/
structure Keeps (u s : State) : Prop where
  odTidy : OdTidy u → OdTidy s
  memoriesTidy : MemoriesTidy u → MemoriesTidy s
  accounts : CountedTidy u → CountedTidy s ∧ ∀ k, mget 0 u.dict.fuseCounts k ≤ mget 0 s.dict.fuseCounts k
  pending_eq : s.pending = u.pending
  deviceKey : s.dict.deviceKey = u.dict.deviceKey ∨
    ∃ b ∈ u.dict.burns, b.entry = Reg.synDeviceKey ∧ s.dict.deviceKey = b.value

/-- A rule keeps what it leaves. -/
inductive KeepsApplied (u : State) : Applied → Prop
  | done {t : State} (h : Keeps u t) : KeepsApplied u (.done t)
  | fail {st : Status} : KeepsApplied u (.fail st)

/-- A command completes, and keeps what it leaves. -/
def KeepsOutcome (u : State) : Host.Outcome State Fault Refusal → Prop
  | .next t => Keeps u t
  | _ => False

/-- A store keeps what its answer leaves. -/
def KeepsAlloc (u : State) : Alloc → Prop
  | .unit _ t => Keeps u t
  | .empty => True
  | .fault t => Keeps u t

/-- Taking units keeps what it leaves. -/
def KeepsTake (u : State) : Take → Prop
  | .got _ t => Keeps u t
  | .short t => Keeps u t
  | .fault t => Keeps u t

/-- A metering keeps what it leaves. -/
def KeepsMetered (u : State) : Metered → Prop
  | .disabled t => Keeps u t
  | .fault t => Keeps u t
  | .coloured _ _ t => Keeps u t

/-- A decision keeps what it leaves. -/
def KeepsDecision (u : State) : Decision → Prop
  | .refuse t _ => Keeps u t
  | .take t _ _ _ => Keeps u t

variable {u s t : State} {α β γ : Type}

theorem Keeps.refl (s : State) : Keeps s s := ⟨id, id, fun h => ⟨h, fun _ => Nat.le_refl _⟩, rfl, .inl rfl⟩

/-- A further change that leaves the device key. -/
theorem Keeps.trans (h : Keeps u s) (g : Keeps s t) (k : t.dict.deviceKey = s.dict.deviceKey) : Keeps u t :=
  ⟨fun x => g.odTidy (h.odTidy x), fun x => g.memoriesTidy (h.memoriesTidy x),
    fun x => ⟨(g.accounts (h.accounts x).1).1, fun k => ((h.accounts x).2 k).trans ((g.accounts (h.accounts x).1).2 k)⟩,
    g.pending_eq.trans h.pending_eq, k ▸ h.deviceKey⟩

/-- A change of the dictionary's entries, the queue and the counts as they were. -/
theorem Keeps.ofForms (h : Keeps u s) (ho : OdTidy s → OdTidy t) (hm : MemoriesTidy s → MemoriesTidy t)
    (hd : (t.pending, t.dict.fuseCounts, t.dict.burns, t.dict.cwLog, t.dict.torn, t.dict.deviceKey) =
      (s.pending, s.dict.fuseCounts, s.dict.burns, s.dict.cwLog, s.dict.torn, s.dict.deviceKey)) : Keeps u t := by
  simp only [Prod.mk.injEq] at hd
  obtain ⟨hpending, hcounts, hburns, hlog, htorn, hkey⟩ := hd
  refine h.trans ⟨ho, hm, ?_, hpending, .inl hkey⟩ hkey
  rw [CountedTidy, CountedTidy, hcounts, hburns, hlog, htorn]
  exact fun x => ⟨x, fun _ => Nat.le_refl _⟩

/-- A change of other parts of the state. -/
theorem Keeps.same (h : Keeps u s)
    (e : (t.od, t.mem.pot, t.mem.crock, t.pending, t.dict.fuseCounts, t.dict.burns, t.dict.cwLog, t.dict.torn, t.dict.deviceKey) =
      (s.od, s.mem.pot, s.mem.crock, s.pending, s.dict.fuseCounts, s.dict.burns, s.dict.cwLog, s.dict.torn, s.dict.deviceKey)) :
    Keeps u t := by
  simp only [Prod.mk.injEq] at e
  obtain ⟨hod, hpot, hcrock, hdict⟩ := e
  refine h.ofForms ?_ ?_ (by simp only [hdict])
  · rw [OdTidy, OdTidy, hod]
    exact id
  · rw [MemoriesTidy, MemoriesTidy, hpot, hcrock]
    exact id

/-- What events bring on the side. -/
theorem Keeps.noted {ks : List Nat} (h : Keeps u s) (n : Noted ks s t) : Keeps u t :=
  h.ofForms n.2.1 (by rw [n.1]; exact id) (by rw [n.1])

theorem Keeps.setReg {k v : Nat} (h : Keeps u s) : Keeps u (setReg s k v) :=
  h.ofForms (odTidy_setReg s k v) id rfl

/-- A part of the dictionary is canonical where the whole is. -/
theorem Keeps.filterOd {p : Nat × Nat → Bool} (h : Keeps u s) : Keeps u { s with od := s.od.filter p } :=
  h.ofForms (canonical_filter odDefault s.od p) id rfl

/-! ### Branches, folds, and what a match names -/

theorem Keeps.ite {c : Prop} {_ : Decidable c} (hs : Keeps u s) (ht : Keeps u t) : Keeps u (if c then s else t) := by
  split
  · exact hs
  · exact ht

/-- A branch between values that hold a state. -/
theorem Keeps.iteOn {c : Prop} {_ : Decidable c} {x y : γ} (f : γ → State) (hx : Keeps u (f x)) (hy : Keeps u (f y)) :
    Keeps u (f (if c then x else y)) := by
  split
  · exact hx
  · exact hy

theorem Keeps.iteSnd {c : Prop} {_ : Decidable c} {x y : α × State} (hx : Keeps u x.2) (hy : Keeps u y.2) :
    Keeps u (if c then x else y).2 := Keeps.iteOn Prod.snd hx hy

theorem KeepsApplied.ite {c : Prop} {_ : Decidable c} {x y : Applied} (hx : KeepsApplied u x) (hy : KeepsApplied u y) :
    KeepsApplied u (if c then x else y) := by
  split
  · exact hx
  · exact hy

/-- A rule chosen by a condition. -/
theorem KeepsApplied.iteRule {c : Prop} {_ : Decidable c} {f g : State → Applied} (hf : KeepsApplied u (f s)) (hg : KeepsApplied u (g s)) :
    KeepsApplied u ((if c then f else g) s) := by
  split
  · exact hf
  · exact hg

theorem KeepsOutcome.ite {c : Prop} {_ : Decidable c} {x y : Host.Outcome State Fault Refusal} (hx : KeepsOutcome u x)
    (hy : KeepsOutcome u y) : KeepsOutcome u (if c then x else y) := by
  split
  · exact hx
  · exact hy

theorem KeepsAlloc.ite {c : Prop} {_ : Decidable c} {x y : Alloc} (hx : KeepsAlloc u x) (hy : KeepsAlloc u y) :
    KeepsAlloc u (if c then x else y) := by
  split
  · exact hx
  · exact hy

theorem KeepsMetered.ite {c : Prop} {_ : Decidable c} {x y : Metered} (hx : KeepsMetered u x) (hy : KeepsMetered u y) :
    KeepsMetered u (if c then x else y) := by
  split
  · exact hx
  · exact hy

theorem KeepsDecision.ite {c : Prop} {_ : Decidable c} {x y : Decision} (hx : KeepsDecision u x) (hy : KeepsDecision u y) :
    KeepsDecision u (if c then x else y) := by
  split
  · exact hx
  · exact hy

theorem Keeps.foldl {f : State → α → State} {l : List α} (h : Keeps u s) (hf : ∀ {s x}, Keeps u s → Keeps u (f s x)) :
    Keeps u (l.foldl f s) :=
  List.foldlRecOn l f (motive := fun t => Keeps u t) h fun _ ht _ _ => hf ht

/-- A fold over values that hold a state. -/
theorem Keeps.foldlOn {f : γ → α → γ} {r : γ} {l : List α} (g : γ → State) (h : Keeps u (g r))
    (hf : ∀ {r x}, Keeps u (g r) → Keeps u (g (f r x))) : Keeps u (g (l.foldl f r)) :=
  List.foldlRecOn l f (motive := fun t => Keeps u (g t)) h fun _ ht _ _ => hf ht

theorem Keeps.foldlSnd {f : β × State → α → β × State} {r : β × State} {l : List α} (h : Keeps u r.2)
    (hf : ∀ {r x}, Keeps u r.2 → Keeps u (f r x).2) : Keeps u (l.foldl f r).2 := Keeps.foldlOn Prod.snd h hf

theorem Keeps.ofSnd {x : α × State} {a : α} (h : Keeps u x.2) (e : x = (a, t)) : Keeps u t := by
  rw [e] at h
  exact h

theorem Keeps.applied (h : Keeps u s) : KeepsApplied u (.done s) := .done h

theorem KeepsApplied.of_eq {x : Applied} (h : KeepsApplied u x) (e : x = .done s) : Keeps u s := by
  subst e
  cases h with
  | done h => exact h

theorem KeepsAlloc.eq {x y : Alloc} (h : KeepsAlloc u x) (e : x = y) : KeepsAlloc u y := e ▸ h

theorem KeepsTake.eq {x y : Take} (h : KeepsTake u x) (e : x = y) : KeepsTake u y := e ▸ h

theorem KeepsMetered.eq {x y : Metered} (h : KeepsMetered u x) (e : x = y) : KeepsMetered u y := e ▸ h

theorem KeepsDecision.eq {x y : Decision} (h : KeepsDecision u x) (e : x = y) : KeepsDecision u y := e ▸ h

end Sys2Proof.Machine
end

section
/-! SUPPORT. What every step keeps: the functions of the model, each by the functions it calls. -/

namespace Sys2Proof.Machine

variable {u s t : State} {x : Pass} {α β γ : Type}

theorem Keeps.closeSessions (h : Keeps u s) : Keeps u (closeSessions s) := h.filterOd.same rfl

theorem Keeps.keyResponse (h : Keeps u s) : Keeps u (keyResponse s) := Keeps.ite h.closeSessions h

theorem Keeps.regionBroken (h : Keeps u s) : Keeps u (regionBroken s) := Keeps.ite h.setReg h

theorem Keeps.setBlk {k : Nat} {b : List Byte} (h : Keeps u s) : Keeps u (setBlk s k b) := h.same rfl

theorem Keeps.countBy {w k n : Nat} (h : Keeps u s) : Keeps u (countBy s w k n) := h.setReg

theorem Keeps.count32 {k : Nat} (h : Keeps u s) : Keeps u (count32 s k) := h.countBy

theorem Keeps.getD {a : Applied} (h : Keeps u s) (ha : KeepsApplied u a) : Keeps u (a.getD s) := by
  cases ha with
  | done ht => exact ht
  | fail => exact h

theorem Keeps.emit {e : Emission} (h : Keeps u s) : Keeps u (emit s e) := h.same rfl

theorem Keeps.setFlane {l : Nat} {x : FLane} (h : Keeps u s) : Keeps u (setFlane s l x) := h.same rfl

theorem Keeps.setBundle {b : Nat} {x : FBundle} (h : Keeps u s) : Keeps u (setBundle s b x) := h.same rfl

theorem Keeps.count1 {k : Nat} (h : Keeps u s) : Keeps u (count1 s k) := h.countBy

theorem Keeps.setMsix {fn : Nat} {m : MsiX} (h : Keeps u s) : Keeps u (setMsix s fn m) := h.same rfl

theorem Keeps.sendMsix {fn v : Nat} (h : Keeps u s) : Keeps u (sendMsix s fn v) := Keeps.ite (Keeps.ite h.setMsix h.emit) h

theorem Keeps.riseMessages {s0 : State} {vs : List (Nat × Nat)} (h : Keeps u s) : Keeps u (riseMessages s0 s vs) :=
  h.foldl (fun h1 => Keeps.ite h1.sendMsix h1)

theorem Keeps.fwEnqueue {src : Nat} (h : Keeps u s) : Keeps u (fwEnqueue s src) :=
  Keeps.ite (Keeps.ite (Keeps.setReg (h.same rfl)) (h.same rfl)) h.count1

theorem Keeps.ensPut {tmpl : Nat} {body : List Byte} (h : Keeps u s) : Keeps u (ensPut s tmpl body).2 :=
  Keeps.iteSnd (Keeps.iteSnd (h.same rfl) h.count1) h

theorem Keeps.pulseBare {src : Nat} (h : Keeps u s) : Keeps u (pulseBare s src).2 :=
  Keeps.iteSnd (Keeps.ensPut (Keeps.ite (Keeps.fwEnqueue (Keeps.riseMessages (h.count1.same rfl)))
    (Keeps.riseMessages (h.count1.same rfl)))) (Keeps.ite (Keeps.fwEnqueue (Keeps.riseMessages (h.count1.same rfl))) (Keeps.riseMessages
    (h.count1.same rfl)))

theorem Keeps.ensignDropped (h : Keeps u s) : Keeps u (ensignDropped s) := Keeps.ite h (Keeps.ite h.setReg.pulseBare h.setReg)

theorem Keeps.pulseOne {src : Nat} (h : Keeps u s) : Keeps u (pulseOne s src) := Keeps.ite h.pulseBare.ensignDropped h.pulseBare

theorem Keeps.pulse {src : Nat} (h : Keeps u s) : Keeps u (pulse s src) := Keeps.ite h.pulseOne.pulseOne h.pulseOne

theorem Keeps.pulseCause {c : CauseReg} {b : Nat} (h : Keeps u s) : Keeps u (pulseCause s c b) := by
  simp only [Machine.pulseCause]
  split
  · exact h.pulse
  · exact h

theorem Keeps.raise {c : CauseReg} {b : Nat} (h : Keeps u s) : Keeps u (raise s c b) :=
  Keeps.ite h (Keeps.ite h.setReg.pulseCause h.setReg)

theorem Keeps.gatherEntry {d ty e : Nat} (h : Keeps u s) : Keeps u (gatherEntry s d ty e) := h.same rfl

theorem Keeps.requestUnits {q : Nat} (h : Keeps u s) : Keeps u (requestUnits s q) := Keeps.ite h (Keeps.gatherEntry (h.same rfl))

theorem Keeps.touchVoqs (h : Keeps u s) : Keeps u (touchVoqs s) := h.foldl (fun h1 => Keeps.requestUnits (h1.same rfl))

theorem Keeps.setQueue {q : Nat} {x : Queue} (h : Keeps u s) : Keeps u (setQueue s q x) := h.same rfl

theorem Keeps.perfCarry {f n : Nat} (h : Keeps u s) : Keeps u (perfCarry f s n) := h.noted (noted_perfCarry [] f s n)

theorem Keeps.perfAdd {n amount : Nat} (h : Keeps u s) : Keeps u (perfAdd s n amount) :=
  Keeps.ite h.setReg (Keeps.ite h.setReg.perfCarry (Keeps.raise (h.setReg.same rfl)))

theorem Keeps.perfEvent {code inst bytes : Nat} (h : Keeps u s) : Keeps u (perfEvent s code inst bytes) :=
  h.foldl (fun h1 => Keeps.ite (Keeps.ite h1.perfAdd (Keeps.ite h1.perfAdd h1)) h1)

theorem Keeps.postcardRefill (h : Keeps u s) : Keeps u (postcardRefill s) := h.same rfl

theorem Keeps.ensRecord {tmpl : Nat} {body : List Byte} (h : Keeps u s) : Keeps u (ensRecord s tmpl body) :=
  Keeps.ite h.ensPut.ensignDropped h.ensPut

theorem Keeps.postcard {reason : Nat} {c : Card} (h : Keeps u s) : Keeps u (postcard s reason c) :=
  Keeps.ite (Keeps.ite (Keeps.ensRecord (h.same rfl)) h.postcardRefill.count1) h

theorem Keeps.discard {reason : Nat} {at? : Option Nat} {c : Card} (h : Keeps u s) : Keeps u (discard s reason at? c) := by
  refine Keeps.ite h (Keeps.postcard (Keeps.perfEvent ?_))
  have hc : Keeps u (match at? with
      | some p => Machine.count1 (Machine.count1 s (Reg.dropTotal reason)) (Reg.dropPort p reason)
      | none => Machine.count1 (Machine.count1 s (Reg.dropTotal reason)) (Reg.dropUnattributed reason)) := by
    split
    · exact h.count1.count1
    · exact h.count1.count1
  exact Keeps.ite (hc.same rfl) (hc.same rfl)

theorem Keeps.latchError {cls kind unit idx : Nat} (h : Keeps u s) : Keeps u (latchError s cls kind unit idx) := h.setReg

theorem Keeps.wordLost {cls unit idx : Nat} {poisoned : Bool} (h : Keeps u s) : Keeps u (wordLost s cls unit idx poisoned) :=
  h.count1.latchError.raise

theorem Keeps.wordCorrected {cls unit idx : Nat} (h : Keeps u s) : Keeps u (wordCorrected s cls unit idx) :=
  Keeps.raise (Keeps.ite h.count1.latchError.raise h.count1.latchError)

theorem Keeps.freeBits {w : Nat} (h : Keeps u s) : Keeps u (freeBits s w).2 := h.same rfl

theorem Keeps.checkWord {cls unit idx : Nat} (h : Keeps u s) : Keeps u (checkWord s cls unit idx).2 :=
  Keeps.iteSnd h (Keeps.iteSnd h.wordLost (Keeps.iteSnd h.wordCorrected
    (Keeps.iteSnd (Keeps.iteSnd h.freeBits.wordLost h.freeBits.wordCorrected) h.wordLost)))

theorem Keeps.readCount {p : Pkt} (h : Keeps u s) : Keeps u (readCount s p).2 := by
  simp only [Machine.readCount]
  split
  · exact Keeps.iteSnd h h.checkWord
  · exact h

theorem Keeps.leakUnits {m : Nat} {l : List Nat} (h : Keeps u s) : Keeps u (leakUnits s m l) := by
  simp only [Machine.leakUnits]
  refine Keeps.foldl h (fun h1 => ?_)
  split
  · exact h1.count32
  · exact h1

theorem Keeps.setPkt {i : Nat} {p : Pkt} (h : Keeps u s) : Keeps u (setPkt s i p) := h.same rfl

theorem Keeps.countLost {i : Nat} {p : Pkt} (h : Keeps u s) : Keeps u (countLost s i p) := h.setPkt.leakUnits

theorem Keeps.setPort {p : Nat} {x : Port} (h : Keeps u s) : Keeps u (setPort s p x) := h.same rfl

theorem Keeps.mainCount {p sub n : Nat} (h : Keeps u s) : Keeps u (mainCount s p sub n) := h.countBy

theorem Keeps.fbCount {p sub n : Nat} (h : Keeps u s) : Keeps u (fbCount s p sub n) := Keeps.ite h.countBy.raise h.countBy

theorem Keeps.fbTxSize {p : Nat} {f : List Byte} (h : Keeps u s) : Keeps u (fbTxSize s p f) :=
  Keeps.perfEvent (Keeps.ite h.fbCount.fbCount.fbCount.fbCount h.fbCount.fbCount.fbCount)

theorem Keeps.sendControl {p : Nat} {f : List Byte} (h : Keeps u s) : Keeps u (sendControl s p f) :=
  Keeps.emit (Keeps.ite h.fbTxSize.mainCount.fbCount (h.fbTxSize.mainCount.foldl (fun h1 => h1.fbCount)))

theorem Keeps.queueControl {p : Nat} {pfc : Bool} {vec time : Nat} (h : Keeps u s) : Keeps u (queueControl s p pfc vec time) := by
  simp only [Machine.queueControl]
  split
  · exact h.freeBits
  · split
    · exact h.freeBits.setPort
    · exact h.freeBits.sendControl

theorem Keeps.sendXoff {p i : Nat} {on : Bool} (h : Keeps u s) : Keeps u (sendXoff s p i on) := h.setPort.queueControl

theorem Keeps.thresholdStep {p i n : Nat} (h : Keeps u s) : Keeps u (thresholdStep s p i n) :=
  Keeps.ite h.sendXoff (Keeps.ite h.sendXoff h)

theorem Keeps.fcCheck {p : Nat} (h : Keeps u s) : Keeps u (fcCheck s p) :=
  Keeps.ite (h.foldl (fun h1 => h1.thresholdStep)) (Keeps.ite h.thresholdStep h)

theorem Keeps.fcCheckOf {p : Pkt} (h : Keeps u s) : Keeps u (fcCheckOf s p) := by
  simp only [Machine.fcCheckOf]
  split
  · exact h.fcCheck
  · exact h

theorem Keeps.delPkt {i : Nat} (h : Keeps u s) : Keeps u (delPkt s i) := h.same rfl

theorem Keeps.setUsed {m u' v : Nat} (h : Keeps u s) : Keeps u (setUsed s m u' v) := Keeps.ite (h.same rfl) (h.same rfl)

theorem Keeps.setFlips {cls unit idx n : Nat} (h : Keeps u s) : Keeps u (setFlips s cls unit idx n) := h.same rfl

theorem Keeps.setQuar {m u' : Nat} (h : Keeps u s) : Keeps u (setQuar s m u') := Keeps.ite (h.same rfl) (h.same rfl)

theorem Keeps.readBitmap {m u' : Nat} (h : Keeps u s) : Keeps u (readBitmap s m u') :=
  Keeps.ite h (Keeps.ite (Keeps.foldl (Keeps.setFlips (Keeps.checkWord (Keeps.ite (h.checkWord.setFlips.foldl (fun h1 =>
    h1.setUsed)).leakUnits h.checkWord))) (fun h2 => h2.setQuar))
    (Keeps.checkWord (Keeps.ite (h.checkWord.setFlips.foldl (fun h3 => h3.setUsed)).leakUnits h.checkWord)))

theorem Keeps.poolLowCheck {n : Nat} (h : Keeps u s) : Keeps u (poolLowCheck s n) := Keeps.ite h.raise h

theorem Keeps.quarantinePtr {m p : Nat} (h : Keeps u s) : Keeps u (quarantinePtr s m p) := by
  simp only [Machine.quarantinePtr]
  split
  · split
    · exact h.setQuar.poolLowCheck
    · exact h.setQuar
  · exact h

theorem Keeps.ptrFault {wh n p : Nat} (h : Keeps u s) : Keeps u (ptrFault s wh n p) := h.count1.setReg.raise

theorem Keeps.injectFired (h : Keeps u s) : Keeps u (injectFired s) := h.setReg.count32.raise

theorem Keeps.wordsWritten {cls unit : Nat} {idxs : List Nat} (h : Keeps u s) : Keeps u (wordsWritten s cls unit idxs) := by
  simp only [Machine.wordsWritten]
  split
  · exact Keeps.setFlips (Keeps.latchError (Keeps.injectFired (Keeps.ite h (h.foldl (fun h1 => h1.setFlips)))))
  · exact Keeps.ite h (h.foldl (fun h2 => h2.setFlips))

theorem Keeps.potWrite {a : Nat} {b : List Byte} (h : Keeps u s) : Keeps u (potWrite s a b) := by
  have hw : Keeps u { s with mem.pot := Memory.write potUnlisted s.mem.pot a b } :=
    h.ofForms id (fun m => ⟨Memory.wf_write _ b _ a m.1, m.2⟩) rfl
  exact Keeps.ite hw hw.wordsWritten

theorem Keeps.setLinkWord {c w : Nat} (h : Keeps u s) : Keeps u (setLinkWord s c w) := h.potWrite

theorem Keeps.setSkim {n h' t' c : Nat} (h : Keeps u s) : Keeps u (setSkim s n h' t' c) := h.same rfl

theorem Keeps.freeUnit {m u' : Nat} (h : Keeps u s) : Keeps u (freeUnit s m u') := by
  simp only [Machine.freeUnit]
  split
  · exact h.readBitmap.ptrFault.quarantinePtr
  · exact Keeps.ite (Keeps.ite h.readBitmap.setUsed.setQuar (Keeps.ite (Keeps.ite h.readBitmap.setUsed.setLinkWord.setSkim
      h.readBitmap.setUsed.setLinkWord.setLinkWord.setSkim) h.readBitmap.setUsed)) h.readBitmap.ptrFault.quarantinePtr

theorem Keeps.freeUnits {m : Nat} {l : List Nat} (h : Keeps u s) : Keeps u (freeUnits s m l) := h.foldl (fun h1 => h1.freeUnit)

theorem Keeps.dueKnown {i : Nat} {p : Pkt} (h : Keeps u s) : Keeps u (dueKnown s i p) := h.same rfl

theorem Keeps.freePkt {i : Nat} (h : Keeps u s) : Keeps u (freePkt s i) := by
  simp only [Machine.freePkt]
  split
  · exact h.dueKnown.freeUnits.delPkt.fcCheckOf
  · exact h

theorem Keeps.releaseRef {i : Nat} (h : Keeps u s) : Keeps u (releaseRef s i) := by
  simp only [Machine.releaseRef]
  split
  · exact Keeps.ite h.readCount (Keeps.ite h.readCount.countLost
      (Keeps.ite h.readCount.count1.raise (Keeps.ite h.readCount.setPkt.freePkt h.readCount.setPkt)))
  · exact h.count1.raise

theorem Keeps.setGrant {k : Nat} {g : Grant} (h : Keeps u s) : Keeps u (setGrant s k g) := h.same rfl

theorem Keeps.creditBack {i : Nat} (h : Keeps u s) : Keeps u (creditBack s i) := by
  simp only [Machine.creditBack]
  split
  · exact Keeps.ite h.setGrant.setPkt h
  · exact h

theorem Keeps.queueLeft (h : Keeps u s) : Keeps u (queueLeft s) := h.same rfl

theorem Keeps.discardHeld {q : Nat} {r : Ref} {reason : Nat} (h : Keeps u s) : Keeps u (discardHeld s q r reason) := by
  simp only [Machine.discardHeld]
  split
  · exact h.discard.queueLeft.creditBack.releaseRef
  · exact h.queueLeft

theorem Keeps.flushQueue {q reason : Nat} (h : Keeps u s) : Keeps u (flushQueue s q reason) :=
  ((h.setQueue.foldl (fun h1 => h1.discardHeld)).foldl (fun h2 => h2.discard.queueLeft)).freeUnits

theorem Keeps.dropWaiting {d : Nat} (h : Keeps u s) : Keeps u (dropWaiting s d) := h.foldl (fun h1 => h1.flushQueue.same rfl)

theorem Keeps.setDestRec {d : Nat} {x : DestRec} (h : Keeps u s) : Keeps u (setDestRec s d x) := h.same rfl

theorem Keeps.probeDest {d : Nat} (h : Keeps u s) : Keeps u (probeDest s d) := h.setDestRec.gatherEntry

theorem Keeps.enterDest {d st : Nat} (h : Keeps u s) : Keeps u (enterDest s d st) := by
  unfold Machine.enterDest
  extract_lets old _ s0 sa _ sb _ s1 s2 s3 s4
  have h0 : Keeps u s0 := h.same rfl
  have h1 : Keeps u s1 := Keeps.ite (Keeps.setDestRec (h0.raise.dropWaiting.same rfl)) h0
  have h2 : Keeps u s2 := Keeps.ite h1.raise h1
  have h3 : Keeps u s3 := Keeps.ite h2.raise.dropWaiting h2
  have h4 : Keeps u s4 := Keeps.ite h3.probeDest h3
  exact h4.setReg

theorem Keeps.routeChanged {d : Nat} (h : Keeps u s) : Keeps u (routeChanged s d) :=
  Keeps.ite (Keeps.ite h h.enterDest.touchVoqs) (Keeps.ite h.enterDest h)

theorem Keeps.bundleDown {b : Nat} (h : Keeps u s) : Keeps u (bundleDown s b) :=
  h.foldl (fun h1 => Keeps.ite h1 h1.setDestRec.routeChanged)

theorem Keeps.touchPath {b : Nat} (h : Keeps u s) : Keeps u (touchPath s b) :=
  Keeps.ite (Keeps.bundleDown (Keeps.ite (h.setReg.foldl (fun h1 => h1.raise)).setBundle (h.setReg.foldl (fun h2 => h2.raise))))
    (Keeps.ite (h.setReg.foldl (fun h3 => h3.raise)).setBundle (h.setReg.foldl (fun h4 => h4.raise)))

theorem Keeps.sectionDefect {l k : Nat} {on : Bool} (h : Keeps u s) : Keeps u (sectionDefect s l k on) :=
  Keeps.ite h (Keeps.touchPath (Keeps.ite h.setReg.setFlane.raise h.setReg.setFlane))

theorem Keeps.loseFrame {l : Nat} (h : Keeps u s) : Keeps u (loseFrame s l) :=
  Keeps.sectionDefect (Keeps.ite h.setFlane.setReg.setBundle h.setFlane.setReg)

theorem Keeps.wFlTest {k v : Nat} (h : Keeps u s) : KeepsApplied u (wFlTest k v s) :=
  KeepsApplied.ite .fail (KeepsApplied.ite .fail (Keeps.applied (Keeps.ite (Keeps.loseFrame (Keeps.ite h.setReg.setFlane.emit h.setReg))
    (Keeps.ite h.setReg.setFlane.emit h.setReg))))

theorem Keeps.fbRxSize {p l : Nat} (h : Keeps u s) : Keeps u (fbRxSize s p l) :=
  Keeps.perfEvent (Keeps.ite h.fbCount.fbCount.fbCount h.fbCount.fbCount)

theorem Keeps.rxCounted {p l : Nat} (h : Keeps u s) : Keeps u (rxCounted s p l) := h.fbRxSize

theorem Keeps.rxErrorCount {p r : Nat} (h : Keeps u s) : Keeps u (rxErrorCount s p r) :=
  Keeps.ite h.mainCount.fbCount (Keeps.ite h.mainCount.fbCount
    (Keeps.ite h.mainCount.fbCount (Keeps.ite h.mainCount.fbCount (Keeps.ite h.mainCount.fbCount h))))

theorem Keeps.correctionsDue {ds : List MeterDraw} {len : Option Nat} (h : Keeps u s) : Keeps u (correctionsDue s ds len) :=
  Keeps.ite h (h.same rfl)

theorem Keeps.writeCells {l : List Nat} {b : List Byte} (h : Keeps u s) : Keeps u (writeCells s l b) := by
  induction l generalizing s b with
  | nil => exact h
  | cons c r ih => exact ih h.potWrite

theorem Keeps.spillExit {q : Nat} (h : Keeps u s) : Keeps u (spillExit s q) := Keeps.ite h.freeUnits.setQueue.count1 h

theorem Keeps.purge {i reason : Nat} (h : Keeps u s) : Keeps u (purge s i reason) :=
  h.foldl (fun h1 => Keeps.ite h1 (h1.setQueue.foldl (fun h2 => h2.discardHeld)).spillExit)

theorem Keeps.leaveArrival {p : Pkt} (h : Keeps u s) : Keeps u (leaveArrival s p) := by
  simp only [Machine.leaveArrival]
  split
  · exact h.same rfl
  · exact h.same rfl
  · exact h.same rfl

theorem Keeps.discardArrival {i reason : Nat} (h : Keeps u s) : Keeps u (discardArrival s i reason) := by
  simp only [Machine.discardArrival]
  split
  · exact h.discard.leaveArrival.creditBack.freePkt
  · exact h

theorem Keeps.macDiscard {i r : Nat} {data : List Byte} (h : Keeps u s) : Keeps u (macDiscard s i r data) := by
  simp only [Machine.macDiscard]
  split
  · exact h
  · split
    · refine Keeps.touchVoqs ?_
      split
      · exact Keeps.ite (h.correctionsDue.writeCells.setPkt.purge.foldl (fun h1 => h1.purge))
          (h.correctionsDue.writeCells.setPkt.purge.foldl (fun h2 => h2.purge)).setPkt
      · exact h.correctionsDue.writeCells.setPkt.purge.foldl (fun h3 => h3.purge)
    · exact Keeps.freePkt (Keeps.discard (Keeps.queueLeft (h.correctionsDue.writeCells.same rfl)))
    · exact Keeps.discardArrival (h.correctionsDue.writeCells.same rfl)

theorem Keeps.rxDiscard {p r : Nat} {data : List Byte} (h : Keeps u s) : Keeps u (rxDiscard s p r data) := Keeps.discard (h.same rfl)

theorem Keeps.rxLost {p : Nat} (h : Keeps u s) : Keeps u (rxLost s p) := by
  simp only [Machine.rxLost]
  split
  · exact h
  · exact Keeps.ite h.setPort.rxCounted (Keeps.ite h.setPort.rxCounted.rxErrorCount.macDiscard h.setPort.rxCounted.rxErrorCount.rxDiscard)

theorem Keeps.dropOut {o reason : Nat} (h : Keeps u s) : Keeps u (dropOut s o reason) := by
  simp only [Machine.dropOut]
  split
  · exact h
  · exact Keeps.releaseRef (Keeps.discard (Keeps.ite (Keeps.setPort (h.same rfl)) (h.same rfl)))

theorem Keeps.linkFails {p : Nat} {lane : Bool} (h : Keeps u s) : Keeps u (linkFails s p lane) := by
  simp only [Machine.linkFails]
  split
  · split
    · exact Keeps.dropOut (Keeps.setPort (Keeps.rxLost (Keeps.ite h.setPort.setReg.raise h.setPort.setReg)))
    · exact Keeps.rxLost (Keeps.ite h.setPort.setReg.raise h.setPort.setReg)
  · exact Keeps.ite h.setPort.setReg.raise h.setPort.setReg

theorem Keeps.touchLink {p : Nat} (h : Keeps u s) : Keeps u (touchLink s p) := Keeps.ite h.setPort (Keeps.ite h.linkFails h)

theorem Keeps.touchLinks {p : Nat} (h : Keeps u s) : Keeps u (touchLinks s p) :=
  Keeps.ite (h.touchLink.foldl (fun h1 => h1.touchLink)) h.touchLink

theorem Keeps.wLanePrbs {l v : Nat} (h : Keeps u s) : KeepsApplied u (wLanePrbs l v s) := by
  simp only [Machine.wLanePrbs]
  split
  · exact .fail
  · refine Keeps.applied ?_
    split
    · exact Keeps.touchLinks (Keeps.emit (h.setReg.same rfl))
    · exact Keeps.emit (h.setReg.same rfl)

theorem Keeps.wLaneLoopback {l v : Nat} (h : Keeps u s) : KeepsApplied u (wLaneLoopback l v s) := KeepsApplied.ite .fail h.setReg.applied

theorem Keeps.overrideOff {k : Nat} (h : Keeps u s) : KeepsApplied u (overrideOff k s) :=
  KeepsApplied.ite h.wFlTest (KeepsApplied.ite h.wLanePrbs h.wLaneLoopback)

theorem Keeps.overridesOff (h : Keeps u s) : Keeps u (overridesOff s) :=
  Keeps.foldl (h.filterOd.same rfl) (fun h1 => h1.getD h1.overrideOff)

theorem Keeps.mgmtRestart {cause : Nat} (h : Keeps u s) : Keeps u (mgmtRestart s cause) :=
  Keeps.overridesOff (Keeps.count32 (Keeps.count32 (Keeps.setReg (h.regionBroken.closeSessions.setBlk.setReg.same rfl))))

theorem Keeps.afterResponse (h : Keeps u s) : Keeps u (afterResponse s) := Keeps.ite h.keyResponse.mgmtRestart h.keyResponse

theorem Keeps.setMailbox {fn : Nat} {m : Mailbox} (h : Keeps u s) : Keeps u (setMailbox s fn m) := h.same rfl

theorem Keeps.windowWrite {fn off : Nat} {b : List Byte} (h : Keeps u s) : Keeps u (windowWrite s fn off b) := by
  unfold Machine.windowWrite
  extract_lets x o
  exact Keeps.ite h.setMailbox h.setMailbox

theorem Keeps.noteFailure {c : Client} {k : Nat} {st : Status} (h : Keeps u s) : Keeps u (noteFailure s c k st) := by
  simp only [Machine.noteFailure]
  split
  · exact h
  · exact h
  · exact h.setReg

theorem Keeps.posted {c : Client} {k : Nat} {a : Applied} (h : Keeps u s) (ha : KeepsApplied u a) : Keeps u (posted s c k a) := by
  cases ha with
  | done ht => exact ht
  | fail => exact h.noteFailure

theorem Keeps.checkedWrite {c : Client} {k v : Nat} {rule : State → Applied} (h : Keeps u s)
    (hr : ∀ {s}, Keeps u s → KeepsApplied u (rule s)) : KeepsApplied u (checkedWrite s c k v rule) := by
  simp only [Machine.checkedWrite]
  split
  · exact .fail
  · exact KeepsApplied.ite (hr h) .fail

theorem Keeps.writeCauseEnable {c : CauseReg} {v : Nat} (h : Keeps u s) : Keeps u (writeCauseEnable s c v) :=
  h.setReg.foldl (fun h1 => h1.pulseCause)

theorem Keeps.clearCause {c : CauseReg} {v : Nat} (h : Keeps u s) : Keeps u (clearCause s c v) := h.setReg

theorem Keeps.wCause {c : Client} {k v : Nat} (h : Keeps u s) : KeepsApplied u (wCause c k v s) := by
  simp only [Machine.wCause]
  split
  · exact h.writeCauseEnable.applied
  · exact h.clearCause.applied
  · exact .fail

theorem Keeps.total_mset_succ (m : SMap Nat) (k : Nat) : total (mset 0 m k (mget 0 m k + 1)) = total m + 1 := by
  induction m with
  | nil => rfl
  | cons p r ih =>
    simp only [mget, mset]
    split
    · simp [total]
      omega
    · split
      · simp [total]
        omega
      · simp only [total, List.map_cons, List.sum_cons] at ih ⊢
        omega

theorem Keeps.cwBegin {c : Client} {k : Nat} {b : List Byte} (h : Keeps u s) : KeepsApplied u (cwBegin c k b s) := by
  unfold Machine.cwBegin
  extract_lets n sec y
  split
  · exact .fail
  · rename_i hn
    split
    · exact .fail
    · rename_i hb
      refine .done (h.trans ⟨id, id, fun hc => ?_, rfl, .inl rfl⟩ rfl)
      obtain ⟨hcanonical, hplaces, hnodup, htotal⟩ := hc
      have hcount : ∀ j, mget 0 (mset 0 s.dict.fuseCounts k (n + 1)) j = if j = k then n + 1 else mget 0 s.dict.fuseCounts j := by
        intro j
        split
        · rename_i hj
          rw [hj, mget_mset_self]
        · rename_i hj
          exact mget_mset_ne _ _ _ _ _ hj
      refine ⟨⟨canonical_mset _ _ _ _ hcanonical, fun j => ?_, ?_, ?_⟩, fun j => ?_⟩
      · rw [hcount j]
        split
        · rename_i hj
          rw [hj]
          exact Nat.lt_of_not_le hn
        · exact hplaces j
      · simp only [List.any_eq_true, beq_iff_eq, not_exists, not_and] at hb
        simp only [List.map_append, List.map_cons, List.map_nil]
        refine List.nodup_append.2 ⟨hnodup, List.nodup_singleton _, fun a ha c hc => ?_⟩
        obtain ⟨x, hx, rfl⟩ := List.mem_map.1 ha
        rw [List.mem_singleton.1 hc]
        exact hb x hx
      · change total (mset 0 s.dict.fuseCounts k (mget 0 s.dict.fuseCounts k + 1)) =
          s.dict.cwLog.length + (s.dict.burns ++ [y]).length + s.dict.torn.length
        rw [Keeps.total_mset_succ, htotal]
        simp only [List.length_append, List.length_singleton]
        omega
      · change _ ≤ mget 0 (mset 0 s.dict.fuseCounts k (n + 1)) j
        rw [hcount j]
        split
        · rename_i hj
          rw [hj]
          exact Nat.le_succ n
        · exact Nat.le_refl _

theorem Keeps.wDeviceId {c : Client} {v : Nat} (h : Keeps u s) : KeepsApplied u (wDeviceId c v s) :=
  KeepsApplied.ite h.applied (KeepsApplied.ite .fail h.cwBegin)

theorem Keeps.wRollbackFloor {c : Client} {v : Nat} (h : Keeps u s) : KeepsApplied u (wRollbackFloor c v s) :=
  KeepsApplied.ite h.applied (KeepsApplied.ite .fail h.cwBegin)

theorem Keeps.cwWrite {c : Client} {k v : Nat} (h : Keeps u s) : KeepsApplied u (cwWrite c k v s) :=
  KeepsApplied.iteRule h.wDeviceId (KeepsApplied.iteRule h.wRollbackFloor .fail)

theorem Keeps.wDoorbell {c : Client} {v : Nat} (h : Keeps u s) : KeepsApplied u (wDoorbell c v s) := by
  simp only [Machine.wDoorbell]
  split
  · exact .fail
  · exact KeepsApplied.ite .fail (KeepsApplied.ite .fail h.setMailbox.applied)

theorem Keeps.storeRule {k v : Nat} (h : Keeps u s) : KeepsApplied u (storeRule k v s) := h.setReg.applied

theorem Keeps.dictWrite {c : Client} {k v : Nat} (h : Keeps u s) : KeepsApplied u (dictWrite c k v s) := by
  simp only [Machine.dictWrite]
  split
  · exact h.wDoorbell
  · split
    · split
      · exact h.setReg.applied
      · exact .fail
    · exact KeepsApplied.ite .fail h.storeRule

theorem Keeps.wFwRestart {v : Nat} (h : Keeps u s) : KeepsApplied u (wFwRestart v s) := Keeps.applied (Keeps.ite (h.same rfl) h)

theorem Keeps.fwWrite {k v : Nat} (h : Keeps u s) : KeepsApplied u (fwWrite k v s) := KeepsApplied.iteRule h.wFwRestart h.storeRule

theorem Keeps.pwrWrite {k v : Nat} (h : Keeps u s) : KeepsApplied u (pwrWrite k v s) :=
  KeepsApplied.ite .fail (KeepsApplied.ite .fail (KeepsApplied.ite .fail h.storeRule))

theorem Keeps.wPinAll {v : Nat} (h : Keeps u s) : KeepsApplied u (wPinAll v s) := (h.foldl (fun h1 => h1.setReg)).applied

theorem Keeps.islWrite {k v : Nat} (h : Keeps u s) : KeepsApplied u (islWrite k v s) := KeepsApplied.iteRule h.wPinAll h.storeRule

theorem Keeps.gpioDrive (h : Keeps u s) : Keeps u (gpioDrive s) := Keeps.ite h (Keeps.emit (h.same rfl))

theorem Keeps.wGpio {k v : Nat} (h : Keeps u s) : KeepsApplied u (wGpio k v s) := h.setReg.gpioDrive.applied

theorem Keeps.boardWrite {k v : Nat} (h : Keeps u s) : KeepsApplied u (boardWrite k v s) := KeepsApplied.iteRule h.wGpio h.storeRule

theorem Keeps.clearSticky {src : Nat} (h : Keeps u s) : Keeps u (clearSticky s src) := Keeps.ite h (h.same rfl)

theorem Keeps.wSticky {src v : Nat} (h : Keeps u s) : KeepsApplied u (wSticky src v s) :=
  KeepsApplied.ite .fail (Keeps.applied (Keeps.ite h h.clearSticky))

theorem Keeps.setMasks {l : List (Nat × Nat)} (h : Keeps u s) : Keeps u (setMasks s l) := (h.foldl (fun h1 => h1.setReg)).riseMessages

theorem Keeps.wMask {src v : Nat} (h : Keeps u s) : KeepsApplied u (wMask src v s) := KeepsApplied.ite .fail h.setMasks.applied

theorem Keeps.wRoute {c : Client} {src v : Nat} (h : Keeps u s) : KeepsApplied u (wRoute c src v s) :=
  KeepsApplied.ite .fail (KeepsApplied.ite .fail h.setReg.riseMessages.applied)

theorem Keeps.wGroupSticky {c : Client} {g v : Nat} (h : Keeps u s) : KeepsApplied u (wGroupSticky c g v s) :=
  KeepsApplied.ite .fail (h.foldl (fun h1 => h1.clearSticky)).applied

theorem Keeps.wGroupMask {g v : Nat} (h : Keeps u s) : KeepsApplied u (wGroupMask g v s) := KeepsApplied.ite .fail h.setMasks.applied

theorem Keeps.wTestRaise {v : Nat} (h : Keeps u s) : KeepsApplied u (wTestRaise v s) := KeepsApplied.ite h.raise.applied .fail

theorem Keeps.evtWrite {c : Client} {k v : Nat} (h : Keeps u s) : KeepsApplied u (evtWrite c k v s) :=
  KeepsApplied.iteRule h.wSticky (KeepsApplied.iteRule h.wMask
    (KeepsApplied.iteRule h.wRoute (KeepsApplied.iteRule h.wGroupSticky
    (KeepsApplied.iteRule h.wGroupMask (KeepsApplied.iteRule h.wTestRaise h.storeRule)))))

theorem Keeps.wIntInject {v : Nat} (h : Keeps u s) : KeepsApplied u (wIntInject v s) := KeepsApplied.ite .fail h.setReg.applied

theorem Keeps.intWrite {k v : Nat} (h : Keeps u s) : KeepsApplied u (intWrite k v s) := KeepsApplied.iteRule h.wIntInject h.storeRule

theorem Keeps.wWindow {k v n limit : Nat} (h : Keeps u s) : KeepsApplied u (wWindow k v n limit s) := KeepsApplied.ite .fail h.storeRule

theorem Keeps.wPuntBind {v : Nat} (h : Keeps u s) : KeepsApplied u (wPuntBind v s) := KeepsApplied.ite .fail (Keeps.applied (h.same rfl))

theorem Keeps.setFnReg {fn k v : Nat} (h : Keeps u s) : Keeps u (setFnReg s fn k v) := h.setReg

theorem Keeps.setRing {fn : Nat} {inj : Bool} {r : Nat} {x : Ring} (h : Keeps u s) : Keeps u (setRing s fn inj r x) := h.same rfl

theorem Keeps.wRingCtrl {fn : Nat} {inj : Bool} {r v : Nat} (h : Keeps u s) : KeepsApplied u (wRingCtrl fn inj r v s) :=
  KeepsApplied.ite .fail (KeepsApplied.ite (KeepsApplied.ite .fail h.setFnReg.setRing.setFnReg.applied) h.setFnReg.applied)

theorem Keeps.wRing {fn k v : Nat} (h : Keeps u s) : KeepsApplied u (wRing fn k v s) := by
  unfold Machine.wRing
  generalize (idxOf k - 0x1630) % 8 = n
  split
  · exact h.wRingCtrl
  · exact KeepsApplied.ite .fail h.setFnReg.applied

theorem Keeps.hostEntryWrite {c : Client} {k v : Nat} (h : Keeps u s) : KeepsApplied u (hostEntryWrite c k v s) := by
  simp only [Machine.hostEntryWrite]
  split
  · exact h.wWindow
  · exact h.wWindow
  · exact h.wWindow
  · exact h.wPuntBind
  · split
    · split
      · exact .fail
      · exact KeepsApplied.ite h.wRing (KeepsApplied.ite .fail h.setFnReg.applied)
    · exact h.storeRule

theorem Keeps.setRole {p : Nat} (h : Keeps u s) : Keeps u (setRole s p) := h.setReg

theorem Keeps.applyMode {p : Nat} (h : Keeps u s) : Keeps u (applyMode s p) := h.setPort.setRole.touchLinks

theorem Keeps.wPortMode {p v : Nat} (h : Keeps u s) : KeepsApplied u (wPortMode p v s) :=
  KeepsApplied.ite .fail (KeepsApplied.ite .fail (KeepsApplied.ite .fail (Keeps.applied (Keeps.ite h.setReg h.setReg.applyMode))))

theorem Keeps.wPortAdminUp {p v : Nat} (h : Keeps u s) : KeepsApplied u (wPortAdminUp p v s) :=
  KeepsApplied.ite (Keeps.applied (Keeps.ite h.setPort.setReg.linkFails.applyMode h.setPort.setReg.linkFails))
    h.setPort.setReg.touchLink.applied

theorem Keeps.wPortFec {p v : Nat} (h : Keeps u s) : KeepsApplied u (wPortFec p v s) :=
  KeepsApplied.ite .fail (Keeps.applied (Keeps.ite h.setReg h.setReg.applyMode))

theorem Keeps.wFlexeGroup {p v : Nat} (h : Keeps u s) : KeepsApplied u (wFlexeGroup p v s) :=
  KeepsApplied.ite .fail (KeepsApplied.ite (KeepsApplied.ite h.setReg.setRole.applied .fail)
    (KeepsApplied.ite .fail (KeepsApplied.ite (KeepsApplied.ite .fail h.setReg.setRole.touchLinks.applied)
    (KeepsApplied.ite .fail h.setReg.setRole.touchLink.applied))))

theorem Keeps.lineWrite {k v : Nat} (h : Keeps u s) : KeepsApplied u (lineWrite k v s) := by
  suffices ∀ f, Machine.lineWrite k v = f → KeepsApplied u (f s) from this _ rfl
  intro f hf
  unfold Machine.lineWrite at hf
  extract_lets p l at hf
  clear_value p l
  split at hf
  · split at hf
    all_goals subst hf
    · exact h.wPortMode
    · exact h.wPortAdminUp
    · exact h.wPortFec
    · exact KeepsApplied.ite .fail h.setReg.applied
    · exact h.wFlexeGroup
    · exact h.storeRule
  · split at hf
    all_goals subst hf
    · exact h.wLanePrbs
    · exact h.wLaneLoopback
    · exact h.storeRule

theorem Keeps.flWrite {k v : Nat} (h : Keeps u s) : KeepsApplied u (flWrite k v s) :=
  KeepsApplied.ite (KeepsApplied.ite h.wFlTest (KeepsApplied.ite h.setReg.setFlane.applied h.storeRule))
    (KeepsApplied.ite (KeepsApplied.ite h.storeRule .fail) (KeepsApplied.ite (KeepsApplied.ite h.storeRule .fail) (KeepsApplied.ite
    h.setReg.touchPath.applied h.storeRule)))

theorem Keeps.ftWrite {k v : Nat} (h : Keeps u s) : KeepsApplied u (ftWrite k v s) := by
  simp only [Machine.ftWrite]
  split
  · exact (h.setReg.foldl (fun h1 => h1.routeChanged)).applied
  · exact KeepsApplied.ite .fail h.storeRule
  · exact KeepsApplied.ite .fail h.storeRule
  · exact KeepsApplied.ite h.storeRule .fail
  · exact KeepsApplied.ite .fail h.storeRule
  · exact KeepsApplied.ite .fail h.storeRule
  · exact h.storeRule

theorem Keeps.parserWrite {k v : Nat} (h : Keeps u s) : KeepsApplied u (parserWrite k v s) := KeepsApplied.ite .fail h.storeRule

theorem Keeps.inSlot {e : Nat} {rule : State → Applied} (h : Keeps u s) (hr : ∀ {s}, Keeps u s → KeepsApplied u (rule s)) :
    KeepsApplied u (inSlot e rule s) := by
  simp only [Machine.inSlot]
  split
  · exact .fail
  · exact hr h

theorem Keeps.wCompatBuckets {v : Nat} (h : Keeps u s) : KeepsApplied u (wCompatBuckets v s) := KeepsApplied.ite h.setReg.applied .fail

theorem Keeps.clsWrite {k v : Nat} (h : Keeps u s) : KeepsApplied u (clsWrite k v s) :=
  KeepsApplied.iteRule (h.inSlot (fun h1 => h1.storeRule)) (KeepsApplied.iteRule h.wCompatBuckets h.storeRule)

theorem Keeps.lkpWrite {k v : Nat} (h : Keeps u s) : KeepsApplied u (lkpWrite k v s) :=
  KeepsApplied.ite (KeepsApplied.ite h.storeRule .fail) (KeepsApplied.ite (KeepsApplied.ite h.storeRule .fail) h.storeRule)

theorem Keeps.setPair {i p b : Nat} (h : Keeps u s) : Keeps u (setPair s i p b) := Keeps.wordsWritten (h.same rfl)

theorem Keeps.wCtrClear {v : Nat} (h : Keeps u s) : KeepsApplied u (wCtrClear v s) := Keeps.applied (Keeps.ite h h.setPair)

theorem Keeps.mcWrite {k v : Nat} (h : Keeps u s) : KeepsApplied u (mcWrite k v s) :=
  KeepsApplied.iteRule h.wCtrClear (KeepsApplied.iteRule .fail h.storeRule)

theorem Keeps.threadCells {l : List Nat} (h : Keeps u s) : Keeps u (threadCells s l) := by
  induction l generalizing s with
  | nil => exact h
  | cons c r ih =>
    cases r with
    | nil => exact h.setLinkWord
    | cons d r => exact ih h.setLinkWord

theorem Keeps.skimRebuild {n : Nat} (h : Keeps u s) : Keeps u (skimRebuild s n) := h.threadCells.same rfl

theorem Keeps.wPoolDesc {n v : Nat} (h : Keeps u s) : KeepsApplied u (wPoolDesc n v s) :=
  KeepsApplied.ite .fail (Keeps.applied (Keeps.ite h.setReg.skimRebuild h.setReg))

theorem Keeps.wPoolSize {k v : Nat} (h : Keeps u s) : KeepsApplied u (wPoolSize k v s) := KeepsApplied.ite .fail h.setReg.applied

theorem Keeps.wFcThreshold {f : Nat} {xon : Bool} {v : Nat} (h : Keeps u s) : KeepsApplied u (wFcThreshold f xon v s) :=
  KeepsApplied.ite .fail (h.setReg.foldl (fun h1 => h1.fcCheck)).applied

theorem Keeps.pmWrite {k v : Nat} (h : Keeps u s) : KeepsApplied u (pmWrite k v s) := by
  suffices ∀ f, Machine.pmWrite k v = f → KeepsApplied u (f s) from this _ rfl
  intro f hf
  simp only [Machine.pmWrite] at hf
  split at hf
  all_goals subst hf
  · exact h.wPoolDesc
  · exact h.wPoolSize
  · exact h.wPoolSize
  · exact h.wFcThreshold
  · exact h.wFcThreshold
  · exact h.storeRule

theorem Keeps.beginRate {r : Nat} (h : Keeps u s) : Keeps u (beginRate s r) := Keeps.ite h (h.same rfl)

theorem Keeps.wHbmRatePin {v : Nat} (h : Keeps u s) : KeepsApplied u (wHbmRatePin v s) :=
  KeepsApplied.ite h.setReg.applied (KeepsApplied.ite .fail (KeepsApplied.ite .fail h.setReg.beginRate.applied))

theorem Keeps.wCaptureArg {v : Nat} (h : Keeps u s) : KeepsApplied u (wCaptureArg v s) := KeepsApplied.ite .fail h.setReg.applied

theorem Keeps.hbmWrite {k v : Nat} (h : Keeps u s) : KeepsApplied u (hbmWrite k v s) := by
  suffices ∀ f, Machine.hbmWrite k v = f → KeepsApplied u (f s) from this _ rfl
  intro f hf
  simp only [Machine.hbmWrite] at hf
  split at hf
  all_goals subst hf
  · exact h.wHbmRatePin
  · exact h.wCaptureArg
  · exact h.storeRule

theorem Keeps.wVoqTemplate {c v : Nat} (h : Keeps u s) : KeepsApplied u (wVoqTemplate c v s) := KeepsApplied.ite .fail h.setReg.applied

theorem Keeps.qmWrite {k v : Nat} (h : Keeps u s) : KeepsApplied u (qmWrite k v s) := by
  suffices ∀ f, Machine.qmWrite k v = f → KeepsApplied u (f s) from this _ rfl
  intro f hf
  simp only [Machine.qmWrite] at hf
  split at hf
  all_goals subst hf
  · exact KeepsApplied.ite h.setReg.applied .fail
  · exact h.wVoqTemplate
  · exact h.storeRule

theorem Keeps.wEnsEnable {v : Nat} (h : Keeps u s) : KeepsApplied u (wEnsEnable v s) :=
  KeepsApplied.ite .fail (Keeps.applied (h.setReg.same rfl))

theorem KeepsApplied.bind {a : Applied} {f : State → Applied} (ha : KeepsApplied u a) (hf : ∀ {t}, Keeps u t → KeepsApplied u (f t)) :
    KeepsApplied u (a.bind f) := by
  cases ha with
  | done h => exact hf h
  | fail => exact .fail

theorem KeepsApplied.ensWritten {a : Applied} (ha : KeepsApplied u a) : KeepsApplied u (ensWritten a) := ha.bind
    (fun h => Keeps.applied (h.same rfl))

theorem Keeps.wHistMonitor {m v : Nat} (h : Keeps u s) : KeepsApplied u (wHistMonitor m v s) :=
  KeepsApplied.ite .fail (Keeps.applied (h.setReg.same rfl))

theorem Keeps.wHistClear {m v : Nat} (h : Keeps u s) : KeepsApplied u (wHistClear m v s) := Keeps.applied (Keeps.ite h (h.same rfl))

theorem Keeps.wPerfCounter {n v : Nat} (h : Keeps u s) : KeepsApplied u (wPerfCounter n v s) := Keeps.applied (h.setReg.same rfl)

theorem Keeps.wPerfSelect {n v : Nat} (h : Keeps u s) : KeepsApplied u (wPerfSelect n v s) := KeepsApplied.ite .fail h.setReg.applied

theorem Keeps.wBwWindowK {p v : Nat} (h : Keeps u s) : KeepsApplied u (wBwWindowK p v s) := Keeps.applied (h.setReg.same rfl)

theorem Keeps.wSojClear {p v : Nat} (h : Keeps u s) : KeepsApplied u (wSojClear p v s) := Keeps.applied (Keeps.ite h (h.setReg.same rfl))

theorem Keeps.obsWrite {k v : Nat} (h : Keeps u s) : KeepsApplied u (obsWrite k v s) :=
  KeepsApplied.ite h.wEnsEnable (KeepsApplied.ite h.storeRule.ensWritten
    (KeepsApplied.ite (KeepsApplied.ite .fail h.setReg.applied)
    (KeepsApplied.ite h.wHistMonitor (KeepsApplied.ite h.wHistClear
    (KeepsApplied.ite h.wPerfCounter (KeepsApplied.ite h.wPerfSelect
    (KeepsApplied.ite h.wBwWindowK (KeepsApplied.ite h.wSojClear h.storeRule))))))))

theorem Keeps.entryWrite {c : Client} {k v : Nat} (h : Keeps u s) : KeepsApplied u (entryWrite c k v s) :=
  KeepsApplied.iteRule h.wCause (KeepsApplied.iteRule h.cwWrite
    (KeepsApplied.iteRule h.dictWrite (KeepsApplied.iteRule h.fwWrite
    (KeepsApplied.iteRule h.pwrWrite (KeepsApplied.iteRule h.islWrite
    (KeepsApplied.iteRule h.pwrWrite (KeepsApplied.iteRule h.boardWrite
    (KeepsApplied.iteRule h.evtWrite (KeepsApplied.iteRule h.intWrite
    (KeepsApplied.iteRule h.hostEntryWrite (KeepsApplied.iteRule h.storeRule
    (KeepsApplied.iteRule h.lineWrite (KeepsApplied.iteRule h.flWrite
    (KeepsApplied.iteRule h.ftWrite (KeepsApplied.iteRule h.parserWrite
    (KeepsApplied.iteRule h.clsWrite (KeepsApplied.iteRule h.lkpWrite
    (KeepsApplied.iteRule h.storeRule (KeepsApplied.iteRule h.mcWrite
    (KeepsApplied.iteRule h.pmWrite (KeepsApplied.iteRule h.hbmWrite
    (KeepsApplied.iteRule h.qmWrite (KeepsApplied.iteRule h.obsWrite h.storeRule)))))))))))))))))))))))

theorem Keeps.mapWrite {c : Client} {off : Nat} {b : List Byte} (h : Keeps u s) : KeepsApplied u (mapWrite s c off b) := by
  simp only [Machine.mapWrite]
  split
  · exact .fail
  · exact KeepsApplied.ite .fail (KeepsApplied.ite .fail (KeepsApplied.ite .fail (KeepsApplied.ite .fail (h.checkedWrite (fun h1 =>
      h1.entryWrite)))))

theorem Keeps.barWrite {fn off : Nat} {b : List Byte} (h : Keeps u s) : Keeps u (barWrite s fn off b) :=
  Keeps.ite h (Keeps.ite (Keeps.ite h.windowWrite h) (h.posted h.mapWrite))

theorem Keeps.conclude {c : Client} {k : Nat} {a : Applied} (h : Keeps u s) (ha : KeepsApplied u a) : Keeps u (conclude s c k a) := by
  cases ha with
  | done ht => exact ht.emit
  | fail => exact h.noteFailure.emit

theorem Keeps.writeRow {c : Client} {k v : Nat} {rule : State → Applied} (h : Keeps u s)
    (hr : ∀ {s}, Keeps u s → KeepsApplied u (rule s)) : Keeps u (writeRow s c k v rule) := h.conclude (h.checkedWrite hr)

theorem Keeps.execRegisterWrite {how : WriteForm} (h : Keeps u s) : KeepsOutcome u (execRegisterWrite how s) := by
  simp only [Machine.execRegisterWrite]
  split
  · exact h.barWrite.afterResponse
  · exact (h.writeRow (fun h1 => h1.entryWrite)).afterResponse

theorem Keeps.perfHeld {code inst ns : Nat} (h : Keeps u s) : Keeps u (perfHeld s code inst ns) :=
  h.foldl (fun h1 => Keeps.ite h1.perfAdd h1)

theorem Keeps.setIsl {n : Nat} {i : Isl} (h : Keeps u s) : Keeps u (setIsl s n i) := h.same rfl

theorem Keeps.islStart {n step : Nat} (h : Keeps u s) : Keeps u (islStart s n step) := h.setIsl.perfHeld

theorem Keeps.islWake {n : Nat} (h : Keeps u s) : Keeps u (islWake s n) := Keeps.ite h.islStart.count1 h

theorem Keeps.execCrossing {island occupied : Nat} {late : Bool} (h : Keeps u s) : KeepsOutcome u (execCrossing island occupied late s) :=
  KeepsOutcome.ite (Keeps.ite (Keeps.pulse (Keeps.setReg (Keeps.ite (Keeps.ite h.islWake.setIsl h.islWake) h)))
    (Keeps.ite (Keeps.ite h.islWake.setIsl h.islWake) h)) h

theorem Keeps.perfCycles {code inst n : Nat} (h : Keeps u s) : Keeps u (perfCycles s code inst n) :=
  h.foldl (fun h1 => Keeps.ite h1.perfAdd h1)

theorem Keeps.islStop {n : Nat} (h : Keeps u s) : Keeps u (islStop s n) := Keeps.ite h h.setIsl

theorem Keeps.governed {n busy total : Nat} (h : Keeps u s) : Keeps u (governed s n busy total) := Keeps.ite h.setIsl.islStop h.setIsl

theorem Keeps.governorInterval {n busy total : Nat} (h : Keeps u s) : Keeps u (governorInterval s n busy total) :=
  Keeps.ite (Keeps.setIsl (Keeps.ite h.perfCycles.setIsl.islStart h.perfCycles.setIsl))
    (Keeps.ite h.perfCycles.setIsl (Keeps.ite (Keeps.ite h.perfCycles.setIsl.pulse.setIsl h.perfCycles.setIsl)
    (Keeps.governed (Keeps.ite h.perfCycles.setIsl.pulse.setIsl h.perfCycles.setIsl))))

theorem Keeps.execGovernorInterval {island busy total : Nat} (h : Keeps u s) : KeepsOutcome u (execGovernorInterval island busy total s) :=
  KeepsOutcome.ite h.governorInterval h

theorem Keeps.execIslandModeWrite {client : Client} {island : Nat} {floor : Bool} {value : Nat} (h : Keeps u s) : KeepsOutcome u
    (execIslandModeWrite client island floor value s) :=
  h.writeRow (fun h1 => h1.storeRule)

theorem Keeps.execPinAllScalableWrite {client : Client} {value : Nat} (h : Keeps u s) : KeepsOutcome u
    (execPinAllScalableWrite client value s) :=
  h.writeRow (fun h1 => h1.wPinAll)

theorem Keeps.execTimeConfigWrite {value : Nat} (h : Keeps u s) : KeepsOutcome u (execTimeConfigWrite value s) := h.same rfl

theorem Keeps.execPortModeWrite {client : Client} {port value : Nat} (h : Keeps u s) : KeepsOutcome u
    (execPortModeWrite client port value s) :=
  h.writeRow (fun h1 => h1.wPortMode)

theorem Keeps.execPortFecWrite {client : Client} {port value : Nat} (h : Keeps u s) : KeepsOutcome u
    (execPortFecWrite client port value s) :=
  h.writeRow (fun h1 => h1.wPortFec)

theorem Keeps.execPortAdminUpWrite {client : Client} {port value : Nat} (h : Keeps u s) : KeepsOutcome u
    (execPortAdminUpWrite client port value s) :=
  h.writeRow (fun h1 => h1.wPortAdminUp)

theorem Keeps.execLinkUp {port : Nat} (h : Keeps u s) : KeepsOutcome u (execLinkUp port s) := by
  simp only [Machine.execLinkUp]
  split
  · exact h
  · exact KeepsOutcome.ite h.setReg.raise h

theorem Keeps.execLinkDown {port : Nat} (h : Keeps u s) : KeepsOutcome u (execLinkDown port s) := KeepsOutcome.ite h.setPort.touchLinks h

theorem Keeps.execLineLaneSignalChange {lane : Nat} {signal fecLock blockLock localFault remoteFault : Bool} (h : Keeps u s) :
    KeepsOutcome u (execLineLaneSignalChange lane signal fecLock blockLock localFault remoteFault s) := by
  simp only [Machine.execLineLaneSignalChange]
  split
  · split
    · exact Keeps.ite (Keeps.raise (h.setReg.same rfl)) (h.setReg.same rfl)
    · exact Keeps.touchLinks (Keeps.setPort (Keeps.ite (Keeps.raise (h.setReg.same rfl)) (h.setReg.same rfl)))
  · exact h

theorem Keeps.afterAlloc {n : Nat} (h : Keeps u s) : Keeps u (afterAlloc s n) := Keeps.poolLowCheck (Keeps.ite h.setReg h)

theorem Keeps.skimAlloc {n : Nat} (h : Keeps u s) : KeepsAlloc u (skimAlloc s n) :=
  KeepsAlloc.ite trivial (KeepsAlloc.ite h.setSkim.setUsed.afterAlloc (h.ptrFault.quarantinePtr.count32.raise.same rfl))

theorem Keeps.ladleAlloc {n : Nat} (h : Keeps u s) : KeepsAlloc u (ladleAlloc s n) := by
  simp only [Machine.ladleAlloc]
  split
  · split
    · exact trivial
    · exact KeepsAlloc.ite (Keeps.afterAlloc (h.setUsed.same rfl)) h.ptrFault.quarantinePtr
  · exact trivial

theorem Keeps.storeAlloc {n : Nat} (h : Keeps u s) : KeepsAlloc u (storeAlloc s n) := KeepsAlloc.ite h.skimAlloc h.ladleAlloc

theorem Keeps.allocUnit {n : Nat} (h : Keeps u s) : KeepsAlloc u (allocUnit s n) := by
  simp only [Machine.allocUnit]
  split
  · exact h.storeAlloc
  · split
    · exact h.readBitmap.storeAlloc
    · exact h.storeAlloc

theorem Keeps.takeMixed {k n : Nat} {acc : List Nat} (h : Keeps u s) : KeepsTake u (takeMixed k s n acc) := by
  induction k generalizing s acc with
  | zero => exact h
  | succ k ih =>
    unfold Machine.takeMixed
    extract_lets a
    have ha : KeepsAlloc u a := by
      unfold a
      split
      · exact h.allocUnit
      · exact h.allocUnit
    clear_value a
    cases a with
    | unit n t =>
      have ht : Keeps u t := ha
      exact ih ht
    | empty => exact h.freeUnits
    | fault t =>
      have ht : Keeps u t := ha
      exact ht.freeUnits

theorem Keeps.takeUnits {k n : Nat} {acc : List Nat} (h : Keeps u s) : KeepsTake u (takeUnits k s n acc) := by
  induction k generalizing s acc with
  | zero => exact h
  | succ k ih =>
    simp only [Machine.takeUnits]
    split
    · rename_i t e
      have ht : Keeps u t := h.allocUnit.eq e
      exact ih ht
    · exact h.freeUnits
    · rename_i t e
      have ht : Keeps u t := h.allocUnit.eq e
      exact ht.freeUnits

theorem Keeps.takeFor {p : Pkt} {n : Nat} (h : Keeps u s) : KeepsTake u (takeFor s p n) := by
  simp only [Machine.takeFor]
  split
  · exact h.takeMixed
  · exact h.takeUnits

theorem Keeps.takeUpTo {p : Pkt} {n : Nat} (h : Keeps u s) : KeepsTake u (takeUpTo s p n) := by
  simp only [Machine.takeUpTo]
  split
  · exact h.freeUnits
  · split
    · rename_i t e
      have ht : Keeps u t := h.takeFor.eq e
      exact ht
    · exact h.takeFor

theorem Keeps.storeFrom {cells : List Nat} {a : Nat} {b : List Byte} (h : Keeps u s) : Keeps u (storeFrom s cells a b) := by
  simp only [Machine.storeFrom]
  split
  · exact h
  · exact h.potWrite.writeCells

theorem Keeps.landBytes {i a : Nat} (h : Keeps u s) : Keeps u (landBytes s i a) := by
  simp only [Machine.landBytes]
  split
  · exact h
  · split
    · rename_i cs s e
      have h1 : Keeps u s := KeepsTake.eq h.takeUpTo e
      exact h1.storeFrom.setPkt
    · rename_i s e
      have h2 : Keeps u s := KeepsTake.eq h.takeUpTo e
      exact h2.macDiscard
    · rename_i s e
      have h3 : Keeps u s := KeepsTake.eq h.takeUpTo e
      exact h3.macDiscard

theorem Keeps.crosses {i : Nat} (h : Keeps u s) : Keeps u (crosses s i) := by
  simp only [Machine.crosses]
  split
  · exact h
  · exact h.setPkt.landBytes

theorem Keeps.execRxFrameStart {port : Nat} {window : List Byte} {frac : Nat} {holding : Bool} (h : Keeps u s) : KeepsOutcome u
    (execRxFrameStart port window frac holding s) :=
  KeepsOutcome.ite (KeepsOutcome.ite (Keeps.setPort (Keeps.rxDiscard (h.same rfl)))
    (KeepsOutcome.ite (Keeps.setPort (Keeps.raise (Keeps.mainCount (Keeps.fbCount (Keeps.rxDiscard (h.same rfl))))))
    (KeepsOutcome.ite (Keeps.setPort (h.same rfl)) (KeepsOutcome.ite (Keeps.crosses (h.same rfl)) (h.same rfl))))) h

theorem Keeps.goodCounted {p : Nat} {f : List Byte} (h : Keeps u s) : Keeps u (goodCounted s p f) := Keeps.ite h.fbCount.fbCount h.fbCount

theorem Keeps.obeyPause {p i n : Nat} (h : Keeps u s) : Keeps u (obeyPause s p i n) := Keeps.ite h (Keeps.ite h.setPort h.setPort)

theorem Keeps.consumeControl {p : Nat} {rx : Rx} {f : List Byte} (h : Keeps u s) : Keeps u (consumeControl s p rx f) :=
  Keeps.ite (Keeps.ite (Keeps.obeyPause (Keeps.ite h.mainCount.fbCount
    (Keeps.ite (h.mainCount.foldl (fun h1 => h1.fbCount)) h.mainCount)))
    (Keeps.ite (Keeps.foldl (Keeps.ite h.mainCount.fbCount (Keeps.ite (h.mainCount.foldl (fun h2 => h2.fbCount)) h.mainCount))
    (fun h3 => h3.obeyPause)) (Keeps.ite h.mainCount.fbCount (Keeps.ite (h.mainCount.foldl (fun h4 => h4.fbCount)) h.mainCount))))
    (Keeps.ite h.mainCount.fbCount (Keeps.ite (h.mainCount.foldl (fun h5 => h5.fbCount)) h.mainCount))

theorem Keeps.postCounters {l : List Nat} {n : Nat} (h : Keeps u s) : Keeps u (postCounters s l n) := Keeps.ite h (h.same rfl)

theorem Keeps.rxAccepted {p i : Nat} {f : List Byte} (h : Keeps u s) : Keeps u (rxAccepted s p i f) := by
  simp only [Machine.rxAccepted]
  split
  · exact h.mainCount.mainCount
  · exact Keeps.ite h.mainCount.mainCount.correctionsDue.postCounters.setPkt
      h.mainCount.mainCount.correctionsDue.postCounters.setPkt.landBytes

theorem Keeps.rxEnds {p : Nat} {rx : Rx} {f : List Byte} (h : Keeps u s) : Keeps u (rxEnds s p rx f) :=
  Keeps.ite (Keeps.ite h.rxCounted.rxErrorCount.macDiscard h.rxCounted.rxErrorCount.rxDiscard)
    (Keeps.ite h.rxCounted.goodCounted.consumeControl.rxDiscard
    (Keeps.ite h.rxCounted.goodCounted.fbCount.mainCount.rxDiscard h.rxCounted.goodCounted.rxAccepted))

theorem Keeps.execRxFrameEnd {port : Nat} {frame : List Byte} (h : Keeps u s) : KeepsOutcome u (execRxFrameEnd port frame s) := by
  simp only [Machine.execRxFrameEnd]
  split
  · exact h
  · exact KeepsOutcome.ite (KeepsOutcome.ite h.setPort.rxEnds h.setPort.rxCounted) h

theorem Keeps.execPauseTimeExpiry {port state : Nat} (h : Keeps u s) : KeepsOutcome u (execPauseTimeExpiry port state s) := by
  simp only [Machine.execPauseTimeExpiry]
  split
  · exact KeepsOutcome.ite h.setPort h
  · exact h

theorem Keeps.drainHeld {f n : Nat} (h : Keeps u s) : Keeps u (drainHeld f s n) := by
  induction f generalizing s with
  | zero => exact h
  | succ f ih =>
    simp only [Machine.drainHeld]
    split
    · exact h.same rfl
    · split
      · exact ih (h.same rfl)
      · exact Keeps.ite (ih (Keeps.crosses (h.same rfl))) h

theorem Keeps.execLmacDrainResume {lmac : Nat} (h : Keeps u s) : KeepsOutcome u (execLmacDrainResume lmac s) :=
  Keeps.drainHeld (h.same rfl)

theorem Keeps.execPauseResend {port state : Nat} (h : Keeps u s) : KeepsOutcome u (execPauseResend port state s) := by
  simp only [Machine.execPauseResend]
  split
  · exact KeepsOutcome.ite h.sendXoff h
  · exact h

theorem Keeps.execEggTimerFire {port state : Nat} (h : Keeps u s) : KeepsOutcome u (execEggTimerFire port state s) := by
  simp only [Machine.execEggTimerFire]
  split
  · exact KeepsOutcome.ite h.setPort.setReg.mainCount.raise h
  · exact h

theorem Keeps.execEggHoldEnd {port state : Nat} (h : Keeps u s) : KeepsOutcome u (execEggHoldEnd port state s) := by
  simp only [Machine.execEggHoldEnd]
  split
  · exact KeepsOutcome.ite h.setPort.setReg h
  · exact h

theorem Keeps.execTxFrameStart {port frac : Nat} (h : Keeps u s) : KeepsOutcome u (execTxFrameStart port frac s) := by
  simp only [Machine.execTxFrameStart]
  split
  · exact h
  · split
    · exact h.setPort
    · split
      · exact h
      · exact KeepsOutcome.ite h (KeepsOutcome.ite h.dropOut (KeepsOutcome.ite h.dropOut (KeepsOutcome.ite h h.setPort)))

theorem Keeps.walkLinks {l : List Nat} (h : Keeps u s) : Keeps u (walkLinks s l).2 := by
  induction l generalizing s with
  | nil => exact h
  | cons c r ih =>
    cases r with
    | nil => exact h
    | cons d r => exact Keeps.iteSnd h.checkWord (ih h.checkWord)

theorem Keeps.checkWords {cls : Nat} {l : List (Nat × Nat)} (h : Keeps u s) : Keeps u (checkWords s cls l).2 :=
  h.foldlSnd (fun h1 => h1.checkWord)

theorem Keeps.readPot {i : Nat} {p : Pkt} {a b : Nat} (h : Keeps u s) : Keeps u (readPot s i p a b).2 :=
  Keeps.iteSnd h.wordLost (Keeps.iteSnd (Keeps.iteSnd (Keeps.iteSnd h h.walkLinks) (Keeps.checkWords (Keeps.iteSnd h h.walkLinks)))
    (Keeps.leakUnits (Keeps.setPkt (Keeps.iteSnd h h.walkLinks))))

theorem Keeps.macFree {prt i : Nat} (h : Keeps u s) : Keeps u (macFree s prt i) := Keeps.foldl (h.same rfl) (fun h1 => h1.sendControl)

theorem Keeps.txAborted {prt i : Nat} {o : Out} {p : Pkt} {body : List Byte} {reason : Nat} (h : Keeps u s) : Keeps u
    (txAborted s prt i o p body reason) :=
  Keeps.releaseRef (Keeps.macFree (Keeps.discard (Keeps.ite h.fbTxSize.emit.mainCount.fbCount h.fbTxSize.emit)))

theorem Keeps.captureStamp {prt : Nat} {e : List Byte} (h : Keeps u s) : Keeps u (captureStamp s prt e) :=
  Keeps.ite h.count32.raise (Keeps.ite h.setPort.raise h.setPort)

theorem Keeps.applyPtp {prt : Nat} {t' : Tx} {o : Out} {f : List Byte} (h : Keeps u s) : Keeps u (applyPtp s prt t' o f).2 :=
  Keeps.iteSnd h.captureStamp (Keeps.iteSnd h (Keeps.iteSnd h h))

theorem Keeps.sojourn {p out ts : Nat} (h : Keeps u s) : Keeps u (sojourn s p out ts) := Keeps.ite h.count1 (h.same rfl)

theorem Keeps.samplerTakes {n : Nat} (h : Keeps u s) : Keeps u (samplerTakes s n).2 := by
  unfold Machine.samplerTakes
  extract_lets w m c _ r
  have hr : Keeps u r.2 := h.freeBits
  exact Keeps.iteSnd h (Keeps.iteSnd (Keeps.iteSnd (h.same rfl) (h.same rfl)) hr)

theorem Keeps.sampleCandidate {sel : Nat} {tx : Bool} {inPort egress cls size : Nat} {data : List Byte} (h : Keeps u s) : Keeps u
    (sampleCandidate s sel tx inPort egress cls size data) :=
  Keeps.ite h (Keeps.ite h.samplerTakes.count1.ensRecord h.samplerTakes)

theorem Keeps.txSent {prt i : Nat} {t' : Tx} {o : Out} {body : List Byte} (h : Keeps u s) : Keeps u (txSent s prt i t' o body) :=
  Keeps.releaseRef (Keeps.macFree (Keeps.sampleCandidate (Keeps.sojourn (Keeps.postCounters
    (h.applyPtp.fbTxSize.emit.mainCount.mainCount.same rfl)))))

theorem Keeps.txEnds {prt : Nat} {t' : Tx} {o : Out} {p : Pkt} (h : Keeps u s) : Keeps u (txEnds s prt t' o p) :=
  Keeps.ite (Keeps.txAborted (Keeps.iteSnd h.readPot h)) (Keeps.ite (Keeps.txAborted (Keeps.iteSnd h.readPot h)) (Keeps.ite
    (Keeps.txAborted (Keeps.iteSnd h.readPot h)) (Keeps.txSent (Keeps.iteSnd h.readPot h))))

theorem Keeps.execTxFrameEnd {port : Nat} (h : Keeps u s) : KeepsOutcome u (execTxFrameEnd port s) := by
  simp only [Machine.execTxFrameEnd]
  split
  · exact h
  · split
    · exact h
    · split
      · exact h
      · exact KeepsOutcome.ite h.txEnds (KeepsOutcome.ite h.txAborted h)

theorem Keeps.domainRead {c : Client} {k : Nat} {b : List Byte} {after : State → State} (h : Keeps u s)
    (ha : ∀ {s}, Keeps u s → Keeps u (after s)) : Keeps u (domainRead s c k b after) := by
  simp only [Machine.domainRead]
  split
  · exact h.noteFailure.emit
  · exact Keeps.ite h.noteFailure.emit (ha h).emit

theorem Keeps.execPortTsFifoRead {client : Client} {port : Nat} (h : Keeps u s) : KeepsOutcome u (execPortTsFifoRead client port s) :=
  h.domainRead (fun h1 => h1.setPort)

theorem Keeps.readRow {c : Client} {k v : Nat} {after : State → State} (h : Keeps u s) (ha : ∀ {s}, Keeps u s → Keeps u (after s)) :
    Keeps u (readRow s c k v after) := by
  simp only [Machine.readRow]
  split
  · exact h.noteFailure.emit
  · exact (ha h).emit

theorem Keeps.execPortStatsReadClear {client : Client} {port counter : Nat} (h : Keeps u s) : KeepsOutcome u
    (execPortStatsReadClear client port counter s) :=
  h.readRow (fun h1 => h1.setReg)

theorem Keeps.concludeJob {c : Client} {k : Nat} {a : Applied} (h : Keeps u s) (ha : KeepsApplied u a) :
    Keeps u (concludeJob s c k a) := by
  cases ha with
  | done ht => exact ht.emit
  | fail => exact h.noteFailure.emit

theorem Keeps.jobStart {c : Client} {k : Nat} {rule : State → Applied} (h : Keeps u s) (hr : ∀ {s}, Keeps u s → KeepsApplied u (rule s))
    : KeepsApplied u (jobStart s c k rule) := by
  simp only [Machine.jobStart]
  split
  · exact .fail
  · repeat' refine KeepsApplied.ite .fail ?_
    exact (hr h).bind (fun h1 => h1.applied)

theorem Keeps.setJob {k : Nat} {j : Job} (h : Keeps u s) : Keeps u (setJob s k j) := h.same rfl

theorem Keeps.jobBegin {k : Nat} (h : Keeps u s) : Keeps u (jobBegin s k) := h.setJob

theorem Keeps.jobStartWith {c : Client} {k : Nat} {rule : State → Applied} (h : Keeps u s)
    (hr : ∀ {s}, Keeps u s → KeepsApplied u (rule s)) : KeepsApplied u (jobStartWith s c k rule) :=
  h.jobStart (fun h1 => (hr h1).bind (fun h2 => h2.jobBegin.applied))

theorem Keeps.holdClients {l : List Nat} {on : Bool} (h : Keeps u s) : Keeps u (holdClients s l on) := h.foldl (fun h1 => h1.setPort)

theorem Keeps.startCalSwitch {p : Nat} (h : Keeps u s) : KeepsApplied u (startCalSwitch p s) :=
  KeepsApplied.ite .fail h.setPort.holdClients.emit.applied

theorem Keeps.execFlexeCalSwitch {client : Client} {port : Nat} (h : Keeps u s) : KeepsOutcome u (execFlexeCalSwitch client port s) :=
  h.concludeJob (h.jobStartWith (fun h1 => h1.startCalSwitch))

theorem Keeps.jobEnd {k result : Nat} (h : Keeps u s) : Keeps u (jobEnd s k result) := Keeps.ite h.setJob h

theorem Keeps.calSwitchEnd {p result : Nat} (h : Keeps u s) : Keeps u (calSwitchEnd s p result) := h.setPort.holdClients.jobEnd.raise

theorem Keeps.execFlexeCalSwitchAck {port : Nat} (h : Keeps u s) : KeepsOutcome u (execFlexeCalSwitchAck port s) := by
  simp only [Machine.execFlexeCalSwitchAck]
  split
  · exact h
  · exact h.setPort.calSwitchEnd

theorem Keeps.execFlexeCalSwitchTimeout {port : Nat} (h : Keeps u s) : KeepsOutcome u (execFlexeCalSwitchTimeout port s) := by
  simp only [Machine.execFlexeCalSwitchTimeout]
  split
  · exact h
  · exact KeepsOutcome.ite h.calSwitchEnd h

theorem Keeps.execLanePrbsModeWrite {client : Client} {lane value : Nat} (h : Keeps u s) : KeepsOutcome u
    (execLanePrbsModeWrite client lane value s) :=
  h.writeRow (fun h1 => h1.wLanePrbs)

theorem Keeps.countSat {w k n : Nat} (h : Keeps u s) : Keeps u (countSat s w k n) := h.setReg

theorem Keeps.execPrbsLockLost {fabric : Bool} {lane errors : Nat} (h : Keeps u s) : KeepsOutcome u
    (execPrbsLockLost fabric lane errors s) :=
  KeepsOutcome.ite (KeepsOutcome.ite h.countSat.setFlane.raise h) (KeepsOutcome.ite (Keeps.raise (h.countSat.same rfl)) h)

theorem Keeps.execLanePrbsErrorsRead {client : Client} {lane errors : Nat} (h : Keeps u s) : KeepsOutcome u
    (execLanePrbsErrorsRead client lane errors s) :=
  Keeps.readRow (Keeps.ite h.countSat h) (fun h1 => h1.setReg)

theorem Keeps.execLaneLoopbackWrite {client : Client} {lane value : Nat} (h : Keeps u s) : KeepsOutcome u
    (execLaneLoopbackWrite client lane value s) :=
  h.writeRow (fun h1 => h1.wLaneLoopback)

theorem Keeps.firstPassSampled {i : Nat} {p : Pkt} (h : Keeps u s) : Keeps u (firstPassSampled s i p) := Keeps.ite h.sampleCandidate h

theorem Keeps.parseCounted {hv : Nat} (h : Keeps u s) : Keeps u (parseCounted s hv) :=
  Keeps.ite (Keeps.raise (Keeps.count1 (Keeps.ite (Keeps.raise (Keeps.count1 (Keeps.ite h.count1 h))) (Keeps.ite h.count1 h))))
    (Keeps.ite (Keeps.raise (Keeps.count1 (Keeps.ite h.count1 h))) (Keeps.ite h.count1 h))

theorem Keeps.passEnds {i : Nat} {p : Pkt} {d : Nat} (h : Keeps u x.s) : Keeps u (passEnds x i p d) :=
  Keeps.ite h.correctionsDue.postCounters.setPkt h.setPkt

theorem Keeps.malformedEnds {i : Nat} {p : Pkt} (h : Keeps u x.s) : Keeps u (malformedEnds x i p) :=
  Keeps.ite (Keeps.ite h.passEnds h.raise.passEnds) h.passEnds

theorem Keeps.servedBy {stripe : Nat} (h : Keeps u s) : Keeps u (servedBy s stripe) := h.count1.perfEvent

theorem Keeps.nullLookup {pipe : Nat} (h : Keeps u s) : Keeps u (nullLookup s pipe) := h.servedBy

theorem Keeps.pass_planLost {e i d pipe : Nat} (h : Keeps u x.s) : Keeps u (Pass.planLost x e i d pipe).2.s := h.checkWords

theorem Keeps.pass_put {f : Fld} {v : Nat} (h : Keeps u x.s) : Keeps u (Pass.put x f v).s := h

theorem Keeps.pass_drop {i reason : Nat} (h : Keeps u x.s) : Keeps u (Pass.drop x i reason).s := h.pass_put.pass_put.pass_put

theorem Keeps.pass_punt {i trap : Nat} (h : Keeps u x.s) : Keeps u (Pass.punt x i trap).s := h.pass_put.pass_put.pass_put

theorem Keeps.pass_nextHop {i : Nat} {nh : Option Resolved} (h : Keeps u x.s) : Keeps u (Pass.nextHop x i nh).s := by
  unfold Machine.Pass.nextHop
  split
  · exact h
  · extract_lets a
    refine Keeps.iteOn Pass.s ?_ (Keeps.iteOn Pass.s h.pass_drop (Keeps.iteOn Pass.s h.pass_punt ?_))
    · exact h.count1.raise
    · exact h.pass_put.pass_put.pass_put.pass_put.pass_put.pass_put.pass_put

theorem Keeps.learn {pipe fid sa port kind stored : Nat} (h : Keeps u s) : Keeps u (learn s pipe fid sa port kind stored) := by
  unfold Machine.learn
  extract_lets ms key l tok _ s1 _ s2 l' _ s3 r first _ s4
  have h1 : Keeps u s1 := h.same rfl
  have h2 : Keeps u s2 := h1.same rfl
  have h3 : Keeps u s3 := Keeps.ite h2 (h2.same rfl)
  have h4 : Keeps u s4 := h3.same rfl
  exact Keeps.ite h.count1 (Keeps.ite h1.count1 (Keeps.ite h2.count1.raise (Keeps.ite h4.raise h4)))

theorem Keeps.pass_notice {kind stored : Nat} (h : Keeps u x.s) : Keeps u (Pass.notice x kind stored).s := h.learn

theorem Keeps.pass_sourceCheck {i o : Nat} {miss : Bool} (h : Keeps u x.s) : Keeps u (Pass.sourceCheck x i o miss).s :=
  Keeps.iteOn Pass.s h.pass_notice (Keeps.iteOn Pass.s h (Keeps.iteOn Pass.s h.pass_drop h.pass_notice))

theorem Keeps.pass_ttl {i o : Nat} (h : Keeps u x.s) : Keeps u (Pass.ttl x i o).s :=
  Keeps.iteOn Pass.s h (Keeps.iteOn Pass.s (Keeps.iteOn Pass.s h.pass_punt h.pass_drop) h.pass_put)

theorem Keeps.pass_act {i a : Nat} {nh : Option Resolved} {miss : Bool} (h : Keeps u x.s) : Keeps u (Pass.act x i a nh miss).s := by
  simp only [Machine.Pass.act]
  split
  · exact h
  · split
    · exact h.pass_drop
    · exact h.pass_punt
    · exact h.pass_nextHop
    · exact h.pass_put.pass_put
    · exact h.pass_put.pass_put
    · exact Keeps.iteOn Pass.s (Keeps.pass_put (Keeps.iteOn Pass.s h.pass_put h)) (Keeps.iteOn Pass.s h.pass_put h)
    · exact h.pass_put.pass_put
    · exact Keeps.iteOn Pass.s h.pass_put.pass_put h.pass_put.pass_put
    · exact h.pass_put
    · exact h.pass_put
    · exact h.pass_put.pass_put
    · exact h.pass_put.pass_put.pass_put
    · exact h.pass_put
    · exact h.pass_put.pass_put
    · exact h.pass_put
    · exact h.pass_sourceCheck
    · exact h.pass_ttl
    · exact Keeps.iteOn Pass.s h.pass_drop h
    · exact h

theorem Keeps.pass_direct {b : List Byte} {e d pipe : Nat} {src : Sources} (h : Keeps u x.s) :
    Keeps u (Pass.direct x b e d pipe src).2.s :=
  Keeps.iteOn (fun r : Option Nat × Pass => r.2.s) h h.checkWord

theorem Keeps.pass_acts {i : Nat} {l : List Nat} {nh : Option Resolved} {miss : Bool} (h : Keeps u x.s) : Keeps u
    (Pass.acts x i l nh miss).s :=
  h.foldlOn Pass.s (fun h1 => h1.pass_act)

theorem Keeps.residueMismatch (h : Keeps u s) : Keeps u (residueMismatch s) := h.injectFired.count1.raise

theorem Keeps.mcFault {c : Bool} {i : Nat} (h : Keeps u s) : Keeps u (mcFault s c i) :=
  Keeps.ite h.residueMismatch.setReg.count1.raise h.residueMismatch.setReg.count1.raise

theorem Keeps.setMeter {i m : Nat} {t' : List Nat} (h : Keeps u s) : Keeps u (setMeter s i m t') := Keeps.wordsWritten (h.same rfl)

theorem Keeps.meterPacket {i e pre : Nat} (h : Keeps u s) : KeepsMetered u (meterPacket s i e pre) :=
  KeepsMetered.ite h.residueMismatch (KeepsMetered.ite h.checkWord.count1.raise
    (KeepsMetered.ite h.checkWord.checkWord.mcFault h.checkWord.checkWord.setMeter.count1))

theorem Keeps.pass_meter {i d : Nat} {true' : Bool} (h : Keeps u x.s) : Keeps u (Pass.meter x i d true').s := by
  simp only [Machine.Pass.meter]
  split
  · exact h
  · split
    · rename_i s e
      have h1 : Keeps u s := KeepsMetered.eq h.pass_put.meterPacket e
      exact h1
    · rename_i s e
      have h2 : Keeps u s := KeepsMetered.eq h.pass_put.meterPacket e
      exact h2
    · rename_i c w s e
      have h3 : Keeps u s := KeepsMetered.eq h.pass_put.meterPacket e
      exact Keeps.iteOn Pass.s h3.pass_act h3

theorem Keeps.pass_posts {p : List Nat} (h : Keeps u x.s) : Keeps u ({ x with posts := p } : Pass).s := h

theorem Keeps.pass_count (h : Keeps u x.s) : Keeps u (Pass.count x).s := by
  unfold Machine.Pass.count
  extract_lets a y b
  have hy : Keeps u y.s := by
    unfold y
    refine Keeps.iteOn Pass.s ?_ h
    exact Keeps.pass_posts h.pass_put
  refine Keeps.iteOn Pass.s ?_ hy
  exact Keeps.pass_posts hy.pass_put

theorem Keeps.pass_stage {b : List Byte} {e i pipe : Nat} {true' : Bool} (h : Keeps u x.s) : Keeps u (Pass.stage x b e i pipe true').s := by
  simp only [Machine.Pass.stage]
  split
  · exact h.pass_planLost.pass_drop
  · split
    · exact h.pass_planLost
    · split
      · exact h.pass_planLost.pass_act
      · split
        · split
          · exact h.pass_planLost.pass_direct.pass_acts
          · exact h.pass_planLost.pass_direct.pass_act
        · exact Keeps.iteOn Pass.s h.pass_planLost.pass_meter (Keeps.iteOn Pass.s h.pass_planLost.pass_count h.pass_planLost)

theorem Keeps.lkpRead {stripe t' i : Nat} (h : Keeps u s) : Keeps u (lkpRead s stripe t' i).2 := h.checkWord

theorem Keeps.readAdj {i : Nat} (h : Keeps u s) : Keeps u (readAdj s i).s := h.lkpRead

theorem Keeps.resolveNh {n hash : Nat} (h : Keeps u s) : Keeps u (resolveNh s n hash).s :=
  Keeps.iteOn Resolved.s (Keeps.iteOn Resolved.s h.lkpRead (Keeps.iteOn Resolved.s h.lkpRead (Keeps.iteOn Resolved.s h.lkpRead.lkpRead
    h.lkpRead.lkpRead.readAdj))) h.readAdj

theorem Keeps.slotHit {nh : Option Nat} {hash : Nat} {acts : List Nat} (h : Keeps u s) : Keeps u (slotHit s nh hash acts).2 := by
  simp only [Machine.slotHit]
  split
  · exact h
  · exact Keeps.iteSnd h.resolveNh h.resolveNh

theorem Keeps.lookupExact {ty key hash : Nat} (h : Keeps u s) : Keeps u (lookupExact s ty key hash).2 := by
  simp only [Machine.lookupExact]
  split
  · exact h.servedBy
  · split
    · exact h.servedBy
    · exact Keeps.iteSnd h.servedBy.lkpRead h.servedBy.lkpRead.slotHit

theorem Keeps.lookupLpm {fam vrf addr hash : Nat} (h : Keeps u s) : Keeps u (lookupLpm s fam vrf addr hash).2 := by
  simp only [Machine.lookupLpm]
  split
  · exact h.servedBy
  · exact Keeps.iteSnd h.servedBy.lkpRead h.servedBy.lkpRead.slotHit

theorem Keeps.lookupAdj {pipe n hash : Nat} (h : Keeps u s) : Keeps u (lookupAdj s pipe n hash).2 :=
  Keeps.iteSnd (Keeps.iteSnd h.servedBy h.servedBy.slotHit) (Keeps.iteSnd h.servedBy h.servedBy.slotHit)

theorem Keeps.compatFind {tmpl key : Nat} (h : Keeps u s) : Keeps u (compatFind s tmpl key).2 := by
  simp only [Machine.compatFind]
  split
  · exact h
  · exact Keeps.iteSnd h.lkpRead h.lkpRead

theorem Keeps.lookupCompat {tmpl key hash : Nat} (h : Keeps u s) : Keeps u (lookupCompat s tmpl key hash).2 := by
  simp only [Machine.lookupCompat]
  split
  · exact h.servedBy.compatFind
  · exact Keeps.slotHit (Keeps.ite h.servedBy.compatFind.count1 h.servedBy.compatFind)

theorem Keeps.lkpLookup {b : List Byte} {d pipe : Nat} (h : Keeps u x.s) : Keeps u (lkpLookup x b d pipe).2 :=
  Keeps.iteSnd h.lookupExact (Keeps.iteSnd (Keeps.lookupLpm (Keeps.ite h.checkWord.setFlips h.checkWord))
    (Keeps.iteSnd h.lookupAdj h.lookupCompat))

theorem Keeps.slotLookup {b : List Byte} {e res pipe : Nat} (h : Keeps u x.s) : Keeps u (slotLookup x b e res pipe).2.s := by
  unfold Machine.slotLookup
  split
  · exact h.nullLookup
  · extract_lets q r _ y y1 y2
    have hq : Keeps u q.2.s := h.pass_planLost
    have hr : Keeps u r.2 := hq.lkpLookup
    have hy : Keeps u y2.s := by
      unfold y2
      refine Keeps.iteOn Pass.s ?_ ?_
      · exact hr
      · exact hr
    refine Keeps.iteOn (fun r : Option Found × Pass => r.2.s) hq ?_
    exact hy

theorem Keeps.aseSearch {k r key e : Nat} (h : Keeps u s) : Keeps u (aseSearch s k r key e).2 := by
  unfold Machine.aseSearch
  extract_lets b s1
  have h1 : Keeps u s1 := h.count1.perfEvent
  split
  · exact h1
  · extract_lets l
    split
    · exact h1
    · extract_lets a s2 q
      have h2 : Keeps u s2 := by
        unfold s2
        split
        · exact h1.setReg.count1.perfEvent.raise
        · exact h1
      have hq : Keeps u q.2 := h2.checkWord
      exact Keeps.iteSnd hq hq.count1

theorem Keeps.aseLookup {b : List Byte} {e pipe : Nat} (h : Keeps u x.s) : Keeps u (aseLookup x b e pipe).2.s := by
  unfold Machine.aseLookup
  split
  · exact h
  · extract_lets q x1 k r y
    have hq : Keeps u q.2.s := h.pass_planLost
    have hr : Keeps u r.2 := hq.aseSearch
    exact Keeps.iteOn (fun r : Option Found × Pass => r.2.s) hq hr

theorem Keeps.pass_run {b : List Byte} {e pipe : Nat} {true' : Bool} (h : Keeps u x.s) : Keeps u (Pass.run x b e pipe true').s :=
  ((h.foldlOn Pass.s (fun h1 => Keeps.iteOn Pass.s h1 h1.pass_stage)).slotLookup.slotLookup.aseLookup.foldlOn Pass.s
    (fun h2 => Keeps.iteOn Pass.s h2 h2.pass_acts)).foldlOn Pass.s (fun h3 => Keeps.iteOn Pass.s h3 h3.pass_stage)

theorem Keeps.passOutcome {i : Nat} {p : Pkt} (h : Keeps u x.s) : Keeps u (passOutcome x i p) :=
  Keeps.ite h.passEnds (Keeps.ite (Keeps.ite h.passEnds h.raise.passEnds)
    (Keeps.ite h.passEnds (Keeps.ite h.passEnds h.count1.raise.passEnds)))

theorem Keeps.runPass {i : Nat} {p : Pkt} (h : Keeps u s) : Keeps u (runPass s i p) :=
  Keeps.ite h.parseCounted.nullLookup.nullLookup.malformedEnds
    (Keeps.ite (Keeps.ite h.parseCounted.pass_run.count1.raise.passEnds h.parseCounted.pass_run.setPkt)
    h.parseCounted.pass_run.passOutcome)

theorem Keeps.execIngressPass {pkt : Nat} (h : Keeps u s) : KeepsOutcome u (execIngressPass pkt s) := by
  simp only [Machine.execIngressPass]
  split
  · exact h
  · exact KeepsOutcome.ite h.runPass.firstPassSampled h

theorem Keeps.updatePair {i n : Nat} (h : Keeps u s) : Keeps u (updatePair s i n) := Keeps.ite h.checkWord.mcFault h.checkWord.setPair

theorem Keeps.execCounterUpdatePost {counter : Nat} (h : Keeps u s) : KeepsOutcome u (execCounterUpdatePost counter s) := by
  simp only [Machine.execCounterUpdatePost]
  split
  · exact h
  · exact Keeps.updatePair (h.same rfl)

theorem Keeps.pass_egressStage {b : List Byte} {e i prt d : Nat} (h : Keeps u x.s) : Keeps u (Pass.egressStage x b e i prt d).s := by
  simp only [Machine.Pass.egressStage]
  split
  · exact h.pass_planLost.pass_drop
  · split
    · exact h.pass_planLost
    · split
      · exact h.pass_planLost.pass_act
      · split
        · split
          · exact h.pass_planLost.pass_direct.pass_acts
          · exact h.pass_planLost.pass_direct.pass_act
        · exact Keeps.iteOn Pass.s h.pass_planLost.pass_count h.pass_planLost

theorem Keeps.pass_egressStages {b : List Byte} {e prt d : Nat} (h : Keeps u x.s) : Keeps u (Pass.egressStages x b e prt d).s :=
  h.foldlOn Pass.s (fun h1 => Keeps.iteOn Pass.s h1 h1.pass_egressStage)

theorem Keeps.crockWrite {a : Nat} {b : List Byte} (h : Keeps u s) : Keeps u (crockWrite s a b) := by
  have hw : Keeps u { s with mem.crock := Memory.write crockUnlisted s.mem.crock a b } :=
    h.ofForms id (fun m => ⟨m.1, Memory.wf_write _ b _ a m.2⟩) rfl
  exact Keeps.ite hw hw.wordsWritten

theorem Keeps.writeStream {f pos : Nat} {x : Queue} {b : List Byte} (h : Keeps u s) : Keeps u (writeStream f s x pos b) := by
  induction f generalizing s pos b with
  | zero => exact h
  | succ f ih => exact Keeps.ite h (ih h.crockWrite)

theorem Keeps.setPageHeader {g h' : Nat} (h : Keeps u s) : Keeps u (setPageHeader s g h') := h.crockWrite

theorem Keeps.noteStart {x : Queue} {pos : Nat} (h : Keeps u s) : Keeps u (noteStart s x pos) := h.setPageHeader

theorem Keeps.of_packNext {q : Nat} (h : Keeps u s) (e : packNext s q = some t) : Keeps u t := by
  simp only [Machine.packNext] at e
  repeat' split at e
  all_goals cases e
  all_goals refine Keeps.releaseRef (Keeps.setQueue (Keeps.noteStart ?_))
  · exact h.writeStream.foldl (fun h1 => h1.setFlips)
  · exact h.writeStream

theorem Keeps.packAll {f q : Nat} (h : Keeps u s) : Keeps u (packAll f s q) := by
  induction f generalizing s with
  | zero => exact h
  | succ f ih =>
    simp only [Machine.packAll]
    split
    · rename_i e
      exact ih (h.of_packNext e)
    · exact h

theorem Keeps.packFor {i : Nat} (h : Keeps u s) : Keeps u (packFor s i) := h.foldl (fun h1 => h1.packAll)

theorem Keeps.setNode {k : Nat} {x : Node} (h : Keeps u s) : Keeps u (setNode s k x) := h.same rfl

theorem Keeps.faultNode {k : Nat} (h : Keeps u s) : Keeps u (faultNode s k) :=
  Keeps.raise (Keeps.count32 (Keeps.ite h.setQueue h.setNode))

theorem Keeps.readState {k : Nat} (h : Keeps u s) : Keeps u (readState s k) :=
  Keeps.ite h (Keeps.ite h.wordLost.faultNode (Keeps.ite (Keeps.setFlips (Keeps.ite (Keeps.ite (Keeps.setFlips (Keeps.ite h
    h.wordCorrected)) (Keeps.ite h h.wordCorrected)) (Keeps.wordCorrected (Keeps.ite (Keeps.setFlips (Keeps.ite h h.wordCorrected))
    (Keeps.ite h h.wordCorrected))))) (Keeps.ite (Keeps.ite (Keeps.setFlips (Keeps.ite h h.wordCorrected)) (Keeps.ite h h.wordCorrected))
    (Keeps.wordCorrected (Keeps.ite (Keeps.setFlips (Keeps.ite h h.wordCorrected)) (Keeps.ite h h.wordCorrected))))))

theorem Keeps.refuseMain {i : Nat} {p : Pkt} {q reason : Nat} (h : Keeps u s) : Keeps u (refuseMain s i p q reason) :=
  h.discard.creditBack.releaseRef

theorem Keeps.refuseCopy {i : Nat} {p : Pkt} {q : Nat} {kind : RefKind} {reason : Nat} (h : Keeps u s) : Keeps u
    (refuseCopy s i p q kind reason) :=
  h.discard.count1.setReg.raise.releaseRef

theorem Keeps.refuseRef {i : Nat} {p : Pkt} {q : Nat} {kind : RefKind} {reason : Nat} (h : Keeps u s) : Keeps u
    (refuseRef s i p q kind reason) := by
  simp only [Machine.refuseRef]
  split
  · exact h.perfEvent.refuseMain
  · exact h.perfEvent.refuseCopy

theorem Keeps.chooseSet {q n : Nat} (h : Keeps u s) : Keeps u (chooseSet s q n).1 :=
  Keeps.iteOn Prod.fst h
    (Keeps.iteOn Prod.fst (Keeps.iteOn Prod.fst h.setQueue.count1.perfEvent h.count1.raise) h)

theorem Keeps.residueHit (h : Keeps u s) : Keeps u (decideSet.residueHit s) := h.residueMismatch.count1.raise

theorem Keeps.chargeQueue {set q n : Nat} (h : Keeps u s) : Keeps u (chargeQueue s set q n) := h.setQueue

theorem Keeps.decideSet {q : Nat} {p : Pkt} {crock : Bool} (h : Keeps u s) : KeepsDecision u (decideSet s q p crock) := by
  unfold Machine.decideSet
  extract_lets prof r s1 out s2 set n
  have h1 : Keeps u s1 := Keeps.iteSnd h h.freeBits
  have h2 : Keeps u s2 := Keeps.ite h1.count1 h1
  refine KeepsDecision.ite h1.count1 (KeepsDecision.ite h2.residueHit ?_)
  split
  · exact h2
  · exact KeepsDecision.ite h2.count1.raise h2.chargeQueue

theorem Keeps.linkWritten {q link : Nat} (h : Keeps u s) : Keeps u (linkWritten s q link) := h.wordsWritten

theorem Keeps.queueHeld (h : Keeps u s) : Keeps u (queueHeld s) := h.same rfl

theorem Keeps.linkRef {i : Nat} {p : Pkt} {q set n : Nat} {marked : Bool} {t' : Target} (h : Keeps u s) : Keeps u
    (linkRef s i p q set n marked t') :=
  Keeps.ite (Keeps.setQueue (Keeps.perfEvent (Keeps.queueHeld (Keeps.ite h.linkWritten h))))
    (Keeps.setQueue (Keeps.perfEvent (Keeps.queueHeld (Keeps.ite h.linkWritten h))))

theorem Keeps.openPage {q g : Nat} (h : Keeps u s) : Keeps u (openPage s q g) := by
  simp only [Machine.openPage]
  refine Keeps.setQueue ?_
  split
  · exact h.crockWrite.setPageHeader
  · exact h.crockWrite

theorem Keeps.openPages {n q : Nat} (h : Keeps u s) : Keeps u (openPages n s q).1 := by
  induction n generalizing s with
  | zero => exact h
  | succ n ih =>
    simp only [Machine.openPages]
    split
    · rename_i t e
      have ht : Keeps u t := h.allocUnit.eq e
      exact ih ht.openPage
    · exact h
    · rename_i t e
      have ht : Keeps u t := h.allocUnit.eq e
      exact ht

theorem Keeps.unchargeQueue {set q n : Nat} (h : Keeps u s) : Keeps u (unchargeQueue s set q n) := h.setQueue

theorem Keeps.placeRef {i : Nat} {t : Target} (h : Keeps u s) : Keeps u (placeRef s i t) := by
  unfold Machine.placeRef
  extract_lets s1 s2
  have h1 : Keeps u s1 := by
    unfold s1
    split
    · exact h.readState
    · exact h
  have h2 : Keeps u s2 := h1.count1.raise
  clear_value s1 s2
  split
  · extract_lets c
    have hc : Keeps u c.1 := h1.chooseSet
    refine Keeps.ite h1.refuseRef ?_
    split
    · rename_i e
      have ht := hc.decideSet.eq e
      exact Keeps.refuseRef ht
    · rename_i e
      have ht := hc.decideSet.eq e
      extract_lets o
      have ho : Keeps u o.1 := Keeps.openPages ht
      refine Keeps.ite (Keeps.linkRef ht) (Keeps.ite ho.linkRef ?_)
      exact ho.unchargeQueue.refuseRef
  · refine Keeps.ite ?_ ?_
    · split
      · exact h2.refuseCopy
      · exact h2.discard.creditBack.releaseRef
    · exact h1.discard.creditBack.releaseRef
  · exact h1

theorem Keeps.egressPunt {i : Nat} {o : Out} {d trap : Nat} (h : Keeps u s) : Keeps u (egressPunt s i o d trap) := by
  simp only [Machine.egressPunt]
  split
  · exact h.raise.dropOut
  · exact Keeps.packFor (Keeps.placeRef (Keeps.setPort (h.same rfl)))

theorem Keeps.copyMade (h : Keeps u s) : Keeps u (copyMade s) := h.same rfl

theorem Keeps.of_copyPacket {p : Pkt} {data : List Byte} {len desc : Nat} {whole : Bool} {src : Option (Nat × Nat)} {x : Nat × State}
    (h : Keeps u s) (e : copyPacket s p data len desc whole src = some x) : Keeps u x.2 := by
  unfold Machine.copyPacket at e
  split at e
  · rename_i t ht
    have h1 : Keeps u t := h.takeUnits.eq ht
    cases e
    exact Keeps.writeCells (h1.same rfl)
  · cases e

theorem Keeps.bindVoq {q dev prt cls : Nat} (h : Keeps u s) : Keeps u (bindVoq s q dev prt cls) :=
  Keeps.ite (Keeps.raise (Keeps.count1 (h.same rfl))) (Keeps.count1 (h.same rfl))

theorem Keeps.takeVoq {qms dev prt cls : Nat} (h : Keeps u s) : Keeps u (takeVoq s qms dev prt cls).2 := by
  simp only [Machine.takeVoq]
  split
  · exact h
  · split
    · exact h.bindVoq
    · exact h.count1.raise

theorem Keeps.voqTarget {qms dev prt cls : Nat} {kind : RefKind} {desc : Option Nat} (h : Keeps u s) : Keeps u
    (voqTarget s qms dev prt cls kind desc).2 := by
  simp only [Machine.voqTarget]
  split
  · exact h
  · split
    · rename_i q s e
      have h1 := Keeps.ofSnd h.takeVoq e
      exact h1
    · rename_i s e
      have h2 := Keeps.ofSnd h.takeVoq e
      exact h2

theorem Keeps.unplace {i reason : Nat} (h : Keeps u s) : Keeps u (unplace s i reason) := by
  simp only [Machine.unplace]
  refine Keeps.foldl h (fun h1 => ?_)
  refine Keeps.foldl h1 (fun h2 => ?_)
  split
  · exact h2.setQueue.queueLeft.refuseRef
  · exact h2.setQueue

theorem Keeps.supplyCells {i : Nat} (h : Keeps u s) : Keeps u (supplyCells s i) := by
  simp only [Machine.supplyCells]
  split
  · exact h
  · split
    · split
      · rename_i cs s e
        have h1 : Keeps u s := KeepsTake.eq h.setPkt.takeUpTo e
        exact Keeps.fcCheckOf (Keeps.setPkt (Keeps.ite (Keeps.setFlips (Keeps.ite h1.writeCells h1)) (Keeps.ite h1.writeCells h1)))
      · rename_i s e
        have h2 : Keeps u s := KeepsTake.eq h.setPkt.takeUpTo e
        exact h2.unplace
      · rename_i s e
        have h3 : Keeps u s := KeepsTake.eq h.setPkt.takeUpTo e
        exact h3.unplace
    · exact h.setPkt

theorem Keeps.placeAll {i : Nat} {ts : List Target} (h : Keeps u s) : Keeps u (placeAll s i ts) := by
  simp only [Machine.placeAll]
  split
  · exact h
  · exact (h.setPkt.foldl (fun h1 => h1.placeRef)).supplyCells.packFor

theorem Keeps.egressMirror {o : Out} {p : Pkt} {n prt d : Nat} {hdr : List Byte} {skip : Nat} (h : Keeps u s) : Keeps u
    (egressMirror s o p n prt d hdr skip) := by
  simp only [Machine.egressMirror]
  split
  · exact h
  · split
    · exact h.copyMade.discard.count1.raise
    · split
      · exact h.copyMade.discard.count1.raise
      · rename_i j s e
        have h1 := h.copyMade.of_copyPacket e
        refine Keeps.placeAll ?_
        split
        · refine Keeps.voqTarget ?_
          split
          · exact Keeps.ite h1 h1.setPkt
          · exact h1
        · split
          · exact Keeps.ite h1 h1.setPkt
          · exact h1

theorem Keeps.ptpAction {prt hv want : Nat} (h : Keeps u s) : Keeps u (ptpAction s prt hv want).2 :=
  Keeps.iteSnd h (Keeps.iteSnd h.count1 h)

theorem Keeps.egressRun {i : Nat} {o : Out} {p : Pkt} (h : Keeps u s) : Keeps u (egressRun s i o p) :=
  Keeps.ite h.readPot.dropOut (Keeps.ite h.readPot.checkWord.dropOut
    (Keeps.ite h.readPot.checkWord.dropOut (Keeps.ite h.readPot.checkWord.pass_egressStages.dropOut
    (Keeps.ite h.readPot.checkWord.pass_egressStages.egressPunt
    (h.readPot.checkWord.pass_egressStages.egressMirror.ptpAction.same rfl)))))

theorem Keeps.execEgressRun {out : Nat} (h : Keeps u s) : KeepsOutcome u (execEgressRun out s) := by
  simp only [Machine.execEgressRun]
  split
  · exact h
  · split
    · exact h
    · exact KeepsOutcome.ite h.egressRun h

theorem Keeps.startSwap (h : Keeps u s) : KeepsApplied u (startSwap s) :=
  KeepsApplied.ite .fail (Keeps.applied (h.setReg.setReg.same rfl))

theorem Keeps.execClsEpochSwap {client : Client} (h : Keeps u s) : KeepsOutcome u (execClsEpochSwap client s) :=
  h.concludeJob (h.jobStartWith (fun h1 => h1.startSwap))

theorem Keeps.execEpochRetired (h : Keeps u s) : KeepsOutcome u (execEpochRetired s) :=
  KeepsOutcome.ite (Keeps.raise (Keeps.ite h.setReg.setReg.jobEnd h.setReg.setReg)) h

theorem Keeps.commitRow {c : Client} {k : Nat} {rule : State → Applied} (h : Keeps u s) (hr : ∀ {s}, Keeps u s → KeepsApplied u (rule s))
    : Keeps u (commitRow s c k rule) := by
  simp only [Machine.commitRow]
  split
  · exact h.conclude .fail
  · exact h.conclude (hr h)

theorem Keeps.clsWritten {t' e : Nat} {l : List Nat} (h : Keeps u s) : Keeps u (clsWritten s t' e l) :=
  h.foldl (fun h1 => h1.wordsWritten)

theorem Keeps.wStagePlan {e : Nat} {b : List Byte} (h : Keeps u s) : KeepsApplied u (wStagePlan e b s) :=
  h.inSlot (fun h1 => KeepsApplied.ite h1.setBlk.clsWritten.clsWritten.clsWritten.applied .fail)

theorem Keeps.execClsStagePlanWrite {client : Client} {slot : Nat} {value : List Byte} (h : Keeps u s) : KeepsOutcome u
    (execClsStagePlanWrite client slot value s) :=
  h.commitRow (fun h1 => h1.wStagePlan)

theorem Keeps.wDirectTable {e : Nat} {b : List Byte} (h : Keeps u s) : KeepsApplied u (wDirectTable e b s) :=
  h.inSlot (fun h1 => KeepsApplied.ite (Keeps.applied (Keeps.clsWritten (h1.same rfl))) .fail)

theorem Keeps.execClsDirectTableWrite {client : Client} {slot : Nat} {value : List Byte} (h : Keeps u s) : KeepsOutcome u
    (execClsDirectTableWrite client slot value s) :=
  h.commitRow (fun h1 => h1.wDirectTable)

theorem Keeps.wRewriteProfiles {e : Nat} {b : List Byte} (h : Keeps u s) : KeepsApplied u (wRewriteProfiles e b s) :=
  h.inSlot (fun h1 => KeepsApplied.ite (Keeps.applied (Keeps.clsWritten (h1.same rfl))) .fail)

theorem Keeps.execClsRewriteProfilesWrite {client : Client} {slot : Nat} {value : List Byte} (h : Keeps u s) : KeepsOutcome u
    (execClsRewriteProfilesWrite client slot value s) :=
  h.commitRow (fun h1 => h1.wRewriteProfiles)

theorem Keeps.execClsCompatBucketsWrite {client : Client} {value : Nat} (h : Keeps u s) : KeepsOutcome u
    (execClsCompatBucketsWrite client value s) :=
  h.writeRow (fun h1 => h1.wCompatBuckets)

theorem Keeps.execLearnNoticesRead {client : Client} (h : Keeps u s) : KeepsOutcome u (execLearnNoticesRead client s) :=
  h.domainRead (fun h1 => h1.same rfl)

theorem Keeps.commitLoad {j : LoadJob} {b : List Byte} (h : Keeps u s) : KeepsApplied u (commitLoad j b s) :=
  KeepsApplied.ite .fail (KeepsApplied.ite .fail (KeepsApplied.ite .fail (Keeps.applied (h.same rfl))))

theorem Keeps.execLkpLoadWrite {client : Client} {records : List Byte} (h : Keeps u s) : KeepsOutcome u
    (execLkpLoadWrite client records s) :=
  h.commitRow (fun h1 => h1.commitLoad)

theorem Keeps.startLoadJob {j : LoadJob} (h : Keeps u s) : KeepsApplied u (startLoadJob j s) :=
  KeepsApplied.ite .fail (KeepsApplied.ite .fail h.setReg.setReg.setReg.applied)

theorem Keeps.startLkpApply (h : Keeps u s) : KeepsApplied u (startLkpApply s) := KeepsApplied.ite .fail h.startLoadJob

theorem Keeps.jobCancelled {k result : Nat} (h : Keeps u s) : Keeps u (jobCancelled s k result) := Keeps.ite h.setJob h

theorem Keeps.endLoadJob {j : LoadJob} {cancelled : Bool} (h : Keeps u s) : Keeps u (endLoadJob s j cancelled) :=
  Keeps.raise (Keeps.ite h.jobCancelled h.jobEnd)

theorem Keeps.jobPhase {k n : Nat} (h : Keeps u s) : Keeps u (jobPhase s k n) := h.setJob

theorem Keeps.endIfReady {j : LoadJob} {cancelled : Bool} (h : Keeps u s) : Keeps u (endIfReady s j cancelled) :=
  Keeps.ite h.endLoadJob h.jobPhase

theorem Keeps.setRebuilds {stripe : Nat} {l : List Rebuild} (h : Keeps u s) : Keeps u (setRebuilds s stripe l) := h.same rfl

theorem Keeps.changeCopy {stripe rk : Nat} {v : Option Route} (h : Keeps u s) : Keeps u (changeCopy s stripe rk v) :=
  Keeps.setRebuilds (h.same rfl)

theorem Keeps.unitsHigh {s0 : State} {stripe : Nat} (h : Keeps u s) : Keeps u (unitsHigh s0 s stripe) := Keeps.ite h.raise h

theorem Keeps.applyRoute {r : List Byte} (h : Keeps u s) : Keeps u (applyRoute s r).2 :=
  Keeps.iteSnd h (Keeps.iteSnd h (Keeps.iteSnd h (Keeps.iteSnd h (Keeps.foldl (Keeps.foldl (h.same rfl) (fun h1 => h1.changeCopy)) (fun
    h2 => h2.unitsHigh)))))

theorem Keeps.lkpWritten {stripe t' i : Nat} (h : Keeps u s) : Keeps u (lkpWritten s stripe t' i) := h.wordsWritten

theorem Keeps.emPut {stripe b x : Nat} {e : EmEntry} (h : Keeps u s) : Keeps u (emPut s stripe b x e) := Keeps.lkpWritten (h.same rfl)

theorem Keeps.exactAdd {ty key res : Nat} (h : Keeps u s) : Keeps u (exactAdd s ty key res).2 := by
  simp only [Machine.exactAdd]
  split
  · exact h
  · split
    · exact h.emPut
    · split
      · exact h.emPut
      · split
        · split
          · exact Keeps.emPut (Keeps.countBy (Keeps.foldl (h.same rfl) (fun h1 => h1.lkpWritten)))
          · exact Keeps.countBy (Keeps.foldl (h.same rfl) (fun h2 => h2.lkpWritten))
        · exact h

theorem Keeps.applyExact {r : List Byte} (h : Keeps u s) : Keeps u (applyExact s r).2 := by
  simp only [Machine.applyExact]
  split
  · exact h
  · split
    · exact Keeps.iteSnd h.count1.raise h.exactAdd
    · split
      · exact h
      · exact Keeps.iteSnd h.emPut (h.same rfl)

theorem Keeps.applyAdj {r : List Byte} (h : Keeps u s) : Keeps u (applyAdj s r).2 :=
  Keeps.iteSnd h (Keeps.iteSnd h (Keeps.lkpWritten (h.same rfl)))

theorem Keeps.applyGroup {r : List Byte} (h : Keeps u s) : Keeps u (applyGroup s r).2 :=
  Keeps.iteSnd h (Keeps.iteSnd h (Keeps.iteSnd h (Keeps.lkpWritten (h.same rfl))))

theorem Keeps.applyMembers {r : List Byte} (h : Keeps u s) : Keeps u (applyMembers s r).2 :=
  Keeps.iteSnd h (Keeps.iteSnd h (Keeps.iteSnd h (Keeps.iteSnd h (h.foldl (fun h1 => Keeps.lkpWritten (h1.same rfl))))))

theorem Keeps.applyProfile {r : List Byte} (h : Keeps u s) : Keeps u (applyProfile s r).2 := Keeps.iteSnd h (Keeps.iteSnd h (h.same rfl))

theorem Keeps.applyCompat {r : List Byte} (h : Keeps u s) : Keeps u (applyCompat s r).2 :=
  Keeps.iteSnd h (Keeps.iteSnd h (Keeps.lkpWritten (h.same rfl)))

theorem Keeps.applyLkp {r : List Byte} (h : Keeps u s) : Keeps u (applyLkp s r).2 := by
  simp only [Machine.applyLkp]
  split
  · exact h.applyRoute
  · exact h.applyRoute
  · exact h.applyRoute
  · exact h.applyExact
  · exact h.applyExact
  · exact h.applyExact
  · exact h.applyAdj
  · exact h.applyGroup
  · exact h.applyMembers
  · exact h.applyProfile
  · exact h.applyCompat
  · exact h

theorem Keeps.jobProgress {k n : Nat} (h : Keeps u s) : Keeps u (jobProgress s k n) := h.setJob

theorem Keeps.recordDone {j : LoadJob} {code : Nat} (h : Keeps u s) : Keeps u (recordDone s j code) :=
  Keeps.ite h.jobPhase.jobProgress.setReg (Keeps.ite (Keeps.ite (Keeps.endLoadJob (Keeps.jobPhase (Keeps.ite
    h.jobPhase.jobProgress.setReg.setReg h.jobPhase.jobProgress)))
    (Keeps.jobPhase (Keeps.ite h.jobPhase.jobProgress.setReg.setReg h.jobPhase.jobProgress)))
    (Keeps.ite h.jobPhase.jobProgress.setReg.setReg h.jobPhase.jobProgress))

theorem Keeps.lkpTake (h : Keeps u s) : Keeps u (lkpTake s) := by
  simp only [Machine.lkpTake]
  split
  · split
    · exact h
    · exact Keeps.recordDone (Keeps.ite h.applyLkp h)
  · exact h

theorem Keeps.execLkpApply {turn : JobOp} (h : Keeps u s) : KeepsOutcome u (execLkpApply turn s) := by
  simp only [Machine.execLkpApply]
  split
  · exact h.concludeJob (h.jobStartWith (fun h1 => h1.startLkpApply))
  · split
    · exact h
    · split
      · exact h.endIfReady
      · split
        · exact h.lkpTake
        · exact h.endIfReady

theorem Keeps.lkpTakeOp {op : Nat} (h : Keeps u s) : Keeps u (lkpTakeOp s op) := Keeps.ite h.lkpTake h

theorem Keeps.execRouteAdd (h : Keeps u s) : KeepsOutcome u (execRouteAdd s) := h.lkpTakeOp

theorem Keeps.execRouteDelete (h : Keeps u s) : KeepsOutcome u (execRouteDelete s) := h.lkpTakeOp

theorem Keeps.execRouteReplace (h : Keeps u s) : KeepsOutcome u (execRouteReplace s) := h.lkpTakeOp

theorem Keeps.execExactAdd (h : Keeps u s) : KeepsOutcome u (execExactAdd s) := h.lkpTakeOp

theorem Keeps.execExactDelete (h : Keeps u s) : KeepsOutcome u (execExactDelete s) := h.lkpTakeOp

theorem Keeps.execExactReplace (h : Keeps u s) : KeepsOutcome u (execExactReplace s) := h.lkpTakeOp

theorem Keeps.execAdjacencyWrite (h : Keeps u s) : KeepsOutcome u (execAdjacencyWrite s) := h.lkpTakeOp

theorem Keeps.execGroupWrite (h : Keeps u s) : KeepsOutcome u (execGroupWrite s) := h.lkpTakeOp

theorem Keeps.execMemberWrite (h : Keeps u s) : KeepsOutcome u (execMemberWrite s) := h.lkpTakeOp

theorem Keeps.execActionProfileWrite (h : Keeps u s) : KeepsOutcome u (execActionProfileWrite s) := h.lkpTakeOp

theorem Keeps.execCompatibilitySlotWrite (h : Keeps u s) : KeepsOutcome u (execCompatibilitySlotWrite s) := h.lkpTakeOp

theorem Keeps.execLpmSubtreeSwitch {stripe : Nat} (h : Keeps u s) : KeepsOutcome u (execLpmSubtreeSwitch stripe s) := by
  simp only [Machine.execLpmSubtreeSwitch]
  split
  · exact h
  · refine Keeps.count1 ?_
    split
    · exact Keeps.lkpWritten (h.same rfl)
    · exact h.same rfl

theorem Keeps.execLpmSubtreeFree {stripe : Nat} (h : Keeps u s) : KeepsOutcome u (execLpmSubtreeFree stripe s) := by
  simp only [Machine.execLpmSubtreeFree]
  split
  · split
    · exact KeepsOutcome.ite h.setRebuilds h
    · exact h
  · exact h

theorem Keeps.execLkpApplyEnd (h : Keeps u s) : KeepsOutcome u (execLkpApplyEnd s) :=
  KeepsOutcome.ite (KeepsOutcome.ite h.endIfReady (KeepsOutcome.ite h.endIfReady h)) h

theorem Keeps.startPivotMove (h : Keeps u s) : KeepsApplied u (startPivotMove s) := KeepsApplied.ite .fail (Keeps.applied (h.same rfl))

theorem Keeps.pivotEnd {result : Nat} (h : Keeps u s) : Keeps u (pivotEnd s result) := Keeps.raise (Keeps.jobEnd (h.same rfl))

theorem Keeps.pivotMoved {p : SMap Nat} {o : Option Nat} (h : Keeps u s) : Keeps u { s with lkp.pivot := p, lkp.moveFrom := o } := h.same
    rfl

theorem Keeps.pivotStep (h : Keeps u s) : Keeps u (pivotStep s) := by
  unfold Machine.pivotStep
  refine Keeps.ite h (Keeps.ite h.jobCancelled.raise (Keeps.ite h.pivotEnd ?_))
  refine Keeps.setJob ?_
  refine Keeps.pivotMoved ?_
  refine Keeps.unitsHigh ?_
  exact Keeps.ite h (h.foldl (fun h1 => Keeps.lkpWritten (h1.same rfl)))

theorem Keeps.execLkpPivotMove {turn : JobOp} (h : Keeps u s) : KeepsOutcome u (execLkpPivotMove turn s) := by
  simp only [Machine.execLkpPivotMove]
  split
  · exact h.concludeJob (h.jobStartWith (fun h1 => h1.startPivotMove))
  · exact h.pivotStep

theorem Keeps.execPivotOldCopiesRemove (h : Keeps u s) : KeepsOutcome u (execPivotOldCopiesRemove s) := by
  unfold Machine.execPivotOldCopiesRemove
  extract_lets k i
  split
  · exact h
  · extract_lets l s1
    have h1 : Keeps u s1 := h.foldl (fun h1 => h1.same rfl)
    exact KeepsOutcome.ite h1.pivotEnd h

theorem Keeps.execLkpDumpRead {client : Client} (h : Keeps u s) : KeepsOutcome u (execLkpDumpRead client s) := h.domainRead (fun h1 => h1)

theorem Keeps.execAseLoadWrite {client : Client} {records : List Byte} (h : Keeps u s) : KeepsOutcome u
    (execAseLoadWrite client records s) :=
  h.commitRow (fun h1 => h1.commitLoad)

theorem Keeps.startAseApply (h : Keeps u s) : KeepsApplied u (startAseApply s) :=
  h.startLoadJob.bind (fun h1 => Keeps.applied (h1.same rfl))

theorem Keeps.aseEnd {cancelled : Bool} (h : Keeps u s) : Keeps u (aseEnd s cancelled) :=
  Keeps.foldl (Keeps.same (Keeps.ite h.jobCancelled h.jobEnd) rfl) (fun h1 => h1.raise)

theorem Keeps.aseRecordDone {code : Nat} (h : Keeps u s) : Keeps u (aseRecordDone s code) :=
  Keeps.ite h.jobPhase.jobProgress.setReg (Keeps.ite (Keeps.aseEnd (Keeps.ite h.jobPhase.jobProgress.setReg.setReg
    h.jobPhase.jobProgress)) (Keeps.ite h.jobPhase.jobProgress.setReg.setReg h.jobPhase.jobProgress))

theorem Keeps.recordVisible (h : Keeps u s) : Keeps u (recordVisible s) :=
  Keeps.ite (Keeps.ite (Keeps.aseRecordDone (h.same rfl)) (h.same rfl)) h

theorem Keeps.setBank {k : Nat} {b : AseBank} (h : Keeps u s) : Keeps u (setBank s k b) := h.same rfl

theorem Keeps.settleGrowth {k : Nat} (h : Keeps u s) : Keeps u (settleGrowth s k) := by
  simp only [Machine.settleGrowth]
  split
  · exact h.setBank
  · exact h

theorem Keeps.aseEffect {k : Nat} {r : List Byte} (h : Keeps u s) : Keeps u (aseEffect s k r) := by
  simp only [Machine.aseEffect]
  split
  · exact h.setBank.settleGrowth
  · exact h.setBank
  · exact h.setBank
  · exact h.same rfl
  · split
    · exact h
    · exact h.setBank

theorem Keeps.aseTake (h : Keeps u s) : Keeps u (aseTake s) := by
  simp only [Machine.aseTake]
  split
  · exact h
  · split
    · exact h
    · split
      · exact Keeps.aseRecordDone (Keeps.foldl (h.same rfl) (fun h1 => h1.raise))
      · exact Keeps.ite (Keeps.aseRecordDone (h.same rfl)) (Keeps.recordVisible (Keeps.foldl (h.same rfl) (fun h2 => h2.aseEffect)))

theorem Keeps.execAseApply {turn : JobOp} (h : Keeps u s) : KeepsOutcome u (execAseApply turn s) := by
  simp only [Machine.execAseApply]
  split
  · exact h.concludeJob (h.jobStartWith (fun h1 => h1.startAseApply))
  · split
    · exact h
    · split
      · exact h.aseEnd
      · split
        · exact h.aseTake
        · exact h.aseEnd

theorem Keeps.aseTakeOp {op : Nat} (h : Keeps u s) : Keeps u (aseTakeOp s op) := Keeps.ite h.aseTake h

theorem Keeps.execAseInsert (h : Keeps u s) : KeepsOutcome u (execAseInsert s) := h.aseTakeOp

theorem Keeps.execAseDelete (h : Keeps u s) : KeepsOutcome u (execAseDelete s) := h.aseTakeOp

theorem Keeps.execAseReplace (h : Keeps u s) : KeepsOutcome u (execAseReplace s) := h.aseTakeOp

theorem Keeps.execAseMembership (h : Keeps u s) : KeepsOutcome u (execAseMembership s) := h.aseTakeOp

theorem Keeps.execAseRegionCreate (h : Keeps u s) : KeepsOutcome u (execAseRegionCreate s) := h.aseTakeOp

theorem Keeps.execAseRegionDelete (h : Keeps u s) : KeepsOutcome u (execAseRegionDelete s) := h.aseTakeOp

theorem Keeps.execAseActionProfileWrite (h : Keeps u s) : KeepsOutcome u (execAseActionProfileWrite s) := h.aseTakeOp

theorem Keeps.writeRows {k row : Nat} {l : List (Nat × Nat)} (h : Keeps u s) : Keeps u (writeRows s k row l) := by
  induction l generalizing s row with
  | nil => exact h
  | cons x r ih => exact ih h.setBank.wordsWritten

theorem Keeps.execAseCopyStep {bank : Nat} (h : Keeps u s) : KeepsOutcome u (execAseCopyStep bank s) := by
  simp only [Machine.execAseCopyStep]
  split
  · exact h.setBank.writeRows.count1.count1.settleGrowth
  · exact h

theorem Keeps.execAseWriteStep {bank : Nat} (h : Keeps u s) : KeepsOutcome u (execAseWriteStep bank s) := by
  simp only [Machine.execAseWriteStep]
  split
  · exact h.setBank.writeRows.count1.recordVisible
  · exact h

theorem Keeps.execAseSweepStart {bank : Nat} (h : Keeps u s) : KeepsOutcome u (execAseSweepStart bank s) := by
  simp only [Machine.execAseSweepStart]
  split
  · split
    · exact h.setBank
    · exact h.setBank.count1.raise
  · exact h

theorem Keeps.scrubWord {cls unit idx : Nat} (h : Keeps u s) : Keeps u (scrubWord s cls unit idx).2 :=
  Keeps.iteSnd h.checkWord (Keeps.iteSnd h.checkWord.setFlips h.checkWord.setFlips)

theorem Keeps.aseScrubNext {k row : Nat} (h : Keeps u s) : Keeps u (aseScrubNext s k row) := Keeps.ite h.setBank h.setBank.count1

theorem Keeps.execAseScrubRead {bank : Nat} {found : Option Nat} (h : Keeps u s) : KeepsOutcome u (execAseScrubRead bank found s) := by
  simp only [Machine.execAseScrubRead]
  split
  · exact h
  · exact Keeps.aseScrubNext (Keeps.ite h.setBank.scrubWord.scrubWord.count1.raise
      (Keeps.ite h.setBank.scrubWord.scrubWord.setBank.count1.count1.setReg.raise h.setBank.scrubWord.scrubWord))

theorem Keeps.execAseTempRead {bank reading : Nat} (h : Keeps u s) : KeepsOutcome u (execAseTempRead bank reading s) :=
  KeepsOutcome.ite (Keeps.ite h.setReg.setReg.raise h.setReg.setReg) h

theorem Keeps.execAseUpdateBudgetWrite {client : Client} {value : Nat} (h : Keeps u s) : KeepsOutcome u
    (execAseUpdateBudgetWrite client value s) :=
  h.writeRow (fun h1 => h1.storeRule)

theorem Keeps.execAseScrubBudgetWrite {client : Client} {value : Nat} (h : Keeps u s) : KeepsOutcome u
    (execAseScrubBudgetWrite client value s) :=
  h.writeRow (fun h1 => h1.storeRule)

theorem Keeps.execAseDumpRead {client : Client} (h : Keeps u s) : KeepsOutcome u (execAseDumpRead client s) := h.domainRead (fun h1 => h1)

theorem Keeps.applyCorrection {d : MeterDue} (h : Keeps u s) : Keeps u (applyCorrection s d) := Keeps.ite h.mcFault h.setMeter.count1

theorem Keeps.execMeterCorrection {meter : Nat} (h : Keeps u s) : KeepsOutcome u (execMeterCorrection meter s) := by
  simp only [Machine.execMeterCorrection]
  split
  · exact h
  · exact Keeps.applyCorrection (h.same rfl)

theorem Keeps.installMeter {i c : Nat} (h : Keeps u s) : Keeps u (installMeter s i c) := h.setMeter

theorem Keeps.wMtrConfig {b : List Byte} (h : Keeps u s) : KeepsApplied u (wMtrConfig b s) :=
  KeepsApplied.ite .fail h.installMeter.applied

theorem Keeps.execMtrConfigWrite {client : Client} {value : List Byte} (h : Keeps u s) : KeepsOutcome u
    (execMtrConfigWrite client value s) :=
  h.commitRow (fun h1 => h1.wMtrConfig)

theorem Keeps.execMtrLoadWrite {client : Client} {records : List Byte} (h : Keeps u s) : KeepsOutcome u
    (execMtrLoadWrite client records s) :=
  h.commitRow (fun h1 => h1.commitLoad)

theorem Keeps.takeRecord {j : LoadJob} {apply : State → List Byte → Nat × State} (h : Keeps u s)
    (ha : ∀ {s r}, Keeps u s → Keeps u (apply s r).2) : Keeps u (takeRecord s j apply) := by
  simp only [Machine.takeRecord]
  split
  · exact h
  · exact Keeps.recordDone (Keeps.ite (ha h) h)

theorem Keeps.loadJobTurn {j : LoadJob} {op : JobOp} {apply : State → List Byte → Nat × State} (h : Keeps u s)
    (ha : ∀ {s r}, Keeps u s → Keeps u (apply s r).2) : Keeps u (loadJobTurn s j op apply) := by
  simp only [Machine.loadJobTurn]
  split
  · exact h.concludeJob (h.jobStartWith (fun h1 => h1.startLoadJob))
  · split
    · exact h
    · split
      · exact h.endIfReady
      · split
        · exact h.takeRecord ha
        · exact h.endIfReady

theorem Keeps.applyMtr {r : List Byte} (h : Keeps u s) : Keeps u (applyMtr s r).2 := Keeps.iteSnd h (Keeps.iteSnd h h.installMeter)

theorem Keeps.execMtrApply {turn : JobOp} (h : Keeps u s) : KeepsOutcome u (execMtrApply turn s) := h.loadJobTurn (fun h1 => h1.applyMtr)

theorem Keeps.execCtrPktsRead {client : Client} (h : Keeps u s) : KeepsOutcome u (execCtrPktsRead client s) :=
  h.readRow (fun h1 => h1.same rfl)

theorem Keeps.execCtrClear {client : Client} {value : Nat} (h : Keeps u s) : KeepsOutcome u (execCtrClear client value s) :=
  h.writeRow (fun h1 => h1.wCtrClear)

theorem Keeps.startSweep (h : Keeps u s) : KeepsApplied u (startSweep s) := KeepsApplied.ite .fail (Keeps.applied (h.same rfl))

theorem Keeps.sweepPair {i : Nat} (h : Keeps u s) : Keeps u (sweepPair s i) := Keeps.ite h.setBlk.setPair h.setBlk

theorem Keeps.sweepStep (h : Keeps u s) : Keeps u (sweepStep s) :=
  Keeps.ite h (Keeps.ite h.jobCancelled (Keeps.ite (h.foldl (fun h1 => h1.sweepPair)).jobProgress.jobEnd.raise
    (h.foldl (fun h2 => h2.sweepPair)).jobProgress))

theorem Keeps.execCtrSweep {turn : JobOp} (h : Keeps u s) : KeepsOutcome u (execCtrSweep turn s) := by
  simp only [Machine.execCtrSweep]
  split
  · exact h.concludeJob (h.jobStartWith (fun h1 => h1.startSweep))
  · exact h.sweepStep

theorem Keeps.enqueueMulticast {i : Nat} {p : Pkt} (h : Keeps u s) : Keeps u (enqueueMulticast s i p) :=
  Keeps.setPkt (h.leaveArrival.same rfl)

theorem Keeps.mainTarget {p : Pkt} (h : Keeps u s) : Keeps u (mainTarget s p).2 := by
  simp only [Machine.mainTarget]
  split
  · exact h
  · split
    · exact h.voqTarget
    · split
      · exact h
      · split
        · exact Keeps.iteSnd h h.raise
        · split
          · exact h
          · exact h.raise

theorem Keeps.loseMirror {n prt : Nat} {p : Pkt} (h : Keeps u s) : Keeps u (loseMirror s n prt p) := h.discard.count1.raise

theorem Keeps.ingressMirror {i : Nat} {p : Pkt} (h : Keeps u s) : Keeps u (ingressMirror s i p).2 := by
  unfold Machine.ingressMirror
  extract_lets n m s1 kind t len data whole
  have h1 : Keeps u s1 := h.copyMade
  refine Keeps.iteSnd h (Keeps.iteSnd h1.loseMirror (Keeps.iteSnd h1.voqTarget (Keeps.iteSnd h1 ?_)))
  split
  · rename_i e
    exact Keeps.placeAll (h1.of_copyPacket e)
  · exact h1.loseMirror

theorem Keeps.copiesMade {n : Nat} (h : Keeps u s) : Keeps u (copiesMade s n) := h.same rfl

theorem Keeps.enqueueUnicast {i : Nat} {p : Pkt} (h : Keeps u s) : Keeps u (enqueueUnicast s i p) :=
  h.leaveArrival.mainTarget.ingressMirror.copiesMade.placeAll

theorem Keeps.enqueueArrival {i : Nat} (h : Keeps u s) : Keeps u (enqueueArrival s i) := by
  simp only [Machine.enqueueArrival]
  split
  · exact h
  · exact Keeps.ite h (Keeps.ite (Keeps.ite h.discardArrival h) (Keeps.ite h.enqueueMulticast h.enqueueUnicast))

theorem Keeps.execEnqueueArrival {pkt : Nat} (h : Keeps u s) : KeepsOutcome u (execEnqueueArrival pkt s) := h.enqueueArrival.touchVoqs

theorem Keeps.execSkimmerRebuildDone {pool : Nat} (h : Keeps u s) : KeepsOutcome u (execSkimmerRebuildDone pool s) :=
  Keeps.ite h.skimRebuild h

theorem Keeps.fillCopies {i : Nat} {data : List Byte} (h : Keeps u s) : Keeps u (fillCopies s i data) :=
  h.foldl (fun h1 => h1.writeCells.freeUnits.setPkt.packFor)

theorem Keeps.correctCharges {i n : Nat} (h : Keeps u s) : Keeps u (correctCharges s i n) := h.foldl (fun h1 => h1.setQueue)

theorem Keeps.lastByteStored {i : Nat} (h : Keeps u s) : Keeps u (lastByteStored s i) := by
  simp only [Machine.lastByteStored]
  split
  · exact h
  · split
    · exact h
    · split
      · exact h
      · exact Keeps.ite h.residueMismatch.count1.raise.purge
          (Keeps.ite h.setPkt.correctCharges.fillCopies.packFor h.freeUnits.setPkt.correctCharges.fillCopies.packFor.fcCheckOf)

theorem Keeps.execLastByteStored {pkt : Nat} (h : Keeps u s) : KeepsOutcome u (execLastByteStored pkt s) := h.lastByteStored.touchVoqs

theorem Keeps.endRound {k : Nat} {cs : List Nat} (h : Keeps u s) : Keeps u (endRound s k cs) :=
  (h.foldl (fun h1 => Keeps.ite h1.setNode (Keeps.ite h1 h1.setNode))).setNode

theorem Keeps.of_drrLoop {f k : Nat} {ws : List Nat} {bs : List (Nat × Nat)} {x : Nat × State} (h : Keeps u s)
    (e : drrLoop f s k ws bs = some x) : Keeps u x.2 := by
  induction f generalizing s with
  | zero => cases e
  | succ f ih =>
    unfold Machine.drrLoop at e
    extract_lets n cur nx advance at e
    split at e
    · cases e
    · extract_lets _ s1 _ s3 at e
      have ha : ∀ {t}, Keeps u t → advance t = some x → Keeps u x.2 := fun ht e =>
        ih (Keeps.ite ht.setNode.endRound ht.setNode) e
      have h1 : Keeps u s3 := by
        unfold s3
        split
        · exact h
        · exact h.setNode.setNode
      clear_value s3 advance
      split at e
      · exact ha h e
      · split at e
        · cases e
          exact h1.setNode
        · exact ha h1 e

theorem Keeps.of_selectPath {f k : Nat} {x : List Nat × State} (h : Keeps u s) (e : selectPath f s k = some x) : Keeps u x.2 := by
  induction f generalizing s k x with
  | zero => cases e
  | succ f ih =>
    have hm : ∀ {c : Nat} {t : State}, Keeps u t → (Machine.selectPath f t c).map (fun r => (r.1 ++ [k], r.2)) = some x → Keeps u x.2 := by
      intro c t ht e
      obtain ⟨r, hr, rfl⟩ := Option.map_eq_some_iff.1 e
      exact ih (x := r) ht hr
    unfold Machine.selectPath at e
    split at e
    · split at e
      · cases e
        exact h
      · cases e
    · split at e
      · cases e
      · split at e
        · exact hm h e
        · extract_lets ws bs at e
          split at e
          · cases e
          · split at e
            · rename_i hd
              exact hm (h.of_drrLoop hd) e
            · cases e

theorem Keeps.leakRef {q : Nat} {r : Ref} (h : Keeps u s) : Keeps u (leakRef s q r) := by
  simp only [Machine.leakRef]
  split
  · exact h.queueLeft
  · exact Keeps.queueLeft (Keeps.creditBack (Keeps.ite h.discard h.discard.countLost))

theorem Keeps.popHead {q : Nat} (h : Keeps u s) : Keeps u (popHead s q) := by
  simp only [Machine.popHead]
  split
  · exact h.setQueue
  · exact h.setQueue

theorem Keeps.readHead {q : Nat} {r : Ref} (h : Keeps u s) : Keeps u (readHead s q r).2 := by
  unfold Machine.readHead
  extract_lets w d n s1 x l s2
  have h1 : Keeps u s1 := h.checkWords.checkWord
  have h2 : Keeps u s2 := h1.foldl (fun h1 => h1.popHead.leakRef)
  clear_value s1 s2 n d
  refine Keeps.iteSnd h (Keeps.iteSnd ?_ (Keeps.iteSnd ?_ h1))
  · exact h2.spillExit
  · exact h1.popHead.discardHeld.spillExit

theorem Keeps.chargeShaper {k lf : Nat} (h : Keeps u s) : Keeps u (chargeShaper s k lf) := Keeps.ite h h.setNode

theorem Keeps.chargePath {path : List Nat} {lf : Nat} (h : Keeps u s) : Keeps u (chargePath s path lf) :=
  (h.foldl (fun h1 => Keeps.ite h1.setNode h1)).foldl (fun h2 => h2.chargeShaper)

theorem Keeps.sendOut {o : Out} (h : Keeps u s) : Keeps u (sendOut s o) := Keeps.ite (Keeps.setPort (h.same rfl)) (h.same rfl)

theorem Keeps.dequeuePath {root : Nat} {path : List Nat} (h : Keeps u s) : Keeps u (dequeuePath s root path) := by
  unfold Machine.dequeuePath
  split
  · exact h
  · extract_lets q
    split
    · exact h
    · extract_lets x s1 s2 s3
      have h1 : Keeps u s1 := h.readHead
      have h2 : Keeps u s2 := h1.residueMismatch.count1.raise
      have h3 : Keeps u s3 := h1.popHead
      refine Keeps.ite h1 ?_
      split
      · exact h1.popHead.spillExit
      · extract_lets lim lf s4 s5 v _ s6 _ s7 s8
        have h5 : Keeps u s5 := h3.chargePath.perfEvent
        have h6 : Keeps u s6 := Keeps.ite (h5.same rfl) h5
        have h7 : Keeps u s7 := Keeps.ite (h6.same rfl) h6
        have h8 : Keeps u s8 := h7.sendOut
        refine Keeps.ite ?_ (Keeps.ite ?_ ?_)
        · exact h3.discardHeld.spillExit
        · exact h2.popHead.discardHeld.spillExit
        · exact h8.creditBack.spillExit

theorem Keeps.dequeueRoot {root : Nat} (h : Keeps u s) : Keeps u (dequeueRoot s root) := by
  simp only [Machine.dequeueRoot]
  split
  · rename_i path t e
    have h1 := h.of_selectPath e
    exact Keeps.ite (h.foldl (fun h2 => h2.readState)) (h1.foldl (fun h3 => h3.readState)).dequeuePath
  · exact h

theorem Keeps.execDequeue {kind index : Nat} (h : Keeps u s) : KeepsOutcome u (execDequeue kind index s) :=
  KeepsOutcome.ite (KeepsOutcome.ite (Keeps.touchVoqs (Keeps.dequeueRoot (h.same rfl))) h) (KeepsOutcome.ite h.dequeueRoot.touchVoqs h)

theorem Keeps.stackWord {prt page word : Nat} {lost : Bool} (h : Keeps u s) : Keeps u (stackWord s prt page word lost) :=
  h.count1.setReg.raise

theorem Keeps.readCrockWords {prt : Nat} {l : List (Nat × Nat)} (h : Keeps u s) : Keeps u (readCrockWords s prt l).2 :=
  h.foldlSnd (fun h1 => Keeps.iteSnd h1 h1.checkWord.stackWord)

theorem Keeps.chainBreak {q reason : Nat} (h : Keeps u s) : Keeps u (chainBreak s q reason) :=
  (h.foldl (fun h1 => Keeps.ite h1.discard.queueLeft h1.discardHeld)).countBy.setQueue.count1.raise.spillExit

theorem Keeps.freeReadPages {q pos : Nat} (h : Keeps u s) : Keeps u (freeReadPages s q pos) := h.freeUnits.setQueue

theorem Keeps.of_stageOne {q : Nat} (h : Keeps u s) (e : stageOne s q = some t) : Keeps u t := by
  unfold Machine.stageOne at e
  extract_lets x at e
  clear_value x
  split at e
  · cases e
  · extract_lets hd ds dt lost s1 raw desc len next s2 s3 at e
    have hhd : Keeps u hd.2 := h.readCrockWords
    have hds : Keeps u ds.2 := hhd.readCrockWords
    have hdt : Keeps u dt.2 := hds.readCrockWords
    split at e
    · cases e
    · have h1 : Keeps u s1 := hdt
      have h2 : Keeps u s2 := h1.discard.queueLeft
      have h3 : Keeps u s3 := h2.setQueue
      clear_value s3 s2 s1 dt ds hd
      split at e
      · cases e
        exact hhd.chainBreak
      · split at e
        · cases e
          exact hhd.ptrFault.chainBreak
        · split at e
          · cases e
            exact hhd.chainBreak
          · split at e
            · cases e
              exact hds.chainBreak
            · split at e
              · cases e
                exact h3.freeReadPages.spillExit
              · split at e
                · cases e
                · split at e
                  · rename_i ht
                    have hg := h1.takeUnits.eq ht
                    cases e
                    refine Keeps.freeReadPages (Keeps.setQueue (Keeps.linkWritten ?_))
                    exact Keeps.same (Keeps.writeCells hg) rfl
                  · cases e
                  · rename_i ht
                    have hg := h1.takeUnits.eq ht
                    cases e
                    exact Keeps.spillExit (Keeps.setQueue (Keeps.queueLeft (Keeps.discard hg)))

theorem Keeps.execUnspillPrefetch {queue : Nat} (h : Keeps u s) : KeepsOutcome u (execUnspillPrefetch queue s) := by
  simp only [Machine.execUnspillPrefetch]
  split
  · split
    · rename_i s e
      have h1 := h.of_stageOne e
      exact h1.touchVoqs
    · exact h
  · exact h

theorem Keeps.execPoolDescWrite {client : Client} {pool value : Nat} (h : Keeps u s) : KeepsOutcome u
    (execPoolDescWrite client pool value s) :=
  h.writeRow (fun h1 => h1.wPoolDesc)

theorem Keeps.wAdmProfile {n : Nat} {b : List Byte} (h : Keeps u s) : KeepsApplied u (wAdmProfile n b s) :=
  KeepsApplied.ite .fail (KeepsApplied.ite .fail h.setBlk.applied)

theorem Keeps.execAdmProfileWrite {client : Client} {profile : Nat} {value : List Byte} (h : Keeps u s) : KeepsOutcome u
    (execAdmProfileWrite client profile value s) :=
  h.commitRow (fun h1 => h1.wAdmProfile)

theorem Keeps.execPoolSizeWrite {client : Client} {pool : Nat} {headroom : Bool} {value : Nat} (h : Keeps u s) : KeepsOutcome u
    (execPoolSizeWrite client pool headroom value s) :=
  h.writeRow (fun h1 => h1.wPoolSize)

theorem Keeps.execFcThresholdWrite {client : Client} {profile : Nat} {xon : Bool} {value : Nat} (h : Keeps u s) : KeepsOutcome u
    (execFcThresholdWrite client profile xon value s) :=
  h.writeRow (fun h1 => h1.wFcThreshold)

theorem Keeps.execPoolWatermarkRead {client : Client} {pool : Nat} (h : Keeps u s) : KeepsOutcome u (execPoolWatermarkRead client pool s) :=
  h.readRow (fun h1 => h1.setReg)

theorem Keeps.setPc {k : Nat} {x : HbmPc} (h : Keeps u s) : Keeps u (setPc s k x) := h.same rfl

theorem Keeps.startRefresh {k : Nat} (h : Keeps u s) : Keeps u (startRefresh s k) := h.foldl (fun h1 => h1.setPc)

theorem Keeps.setStack {k v : Nat} (h : Keeps u s) : Keeps u (setStack s k v) := Keeps.ite h h.setReg.raise

theorem Keeps.wakeStacks (h : Keeps u s) : Keeps u (wakeStacks s) := h.foldl (fun h1 => h1.setStack.startRefresh)

theorem Keeps.startNext {k : Nat} (h : Keeps u s) : Keeps u (startNext s k) := by
  simp only [Machine.startNext]
  split
  · split
    · exact h.setPc
    · exact h
  · exact h

theorem Keeps.execHbmRequest {stack port page burst count : Nat} {write : Bool} (h : Keeps u s) :
    KeepsOutcome u (execHbmRequest stack port page burst count write s) := by
  unfold Machine.execHbmRequest
  extract_lets s1 _ s2 k i r _ s3
  have h1 : Keeps u s1 := Keeps.ite h.wakeStacks h
  have h2 : Keeps u s2 := Keeps.ite h1 (h1.same rfl)
  have h3 : Keeps u s3 := h2.same rfl
  exact KeepsOutcome.ite h3.setPc.startNext h

theorem Keeps.execHbmRequestComplete {stack channel : Nat} (h : Keeps u s) : KeepsOutcome u (execHbmRequestComplete stack channel s) := by
  simp only [Machine.execHbmRequestComplete]
  split
  · exact h
  · split
    · exact h
    · exact Keeps.startNext (Keeps.ite (Keeps.raise (Keeps.count1 (Keeps.ite (Keeps.foldl (h.same rfl) (fun h1 => h1.perfEvent))
        (Keeps.readCrockWords (Keeps.foldl (h.same rfl) (fun h2 => h2.perfEvent))))))
        (Keeps.ite (Keeps.foldl (h.same rfl) (fun h3 => h3.perfEvent))
        (Keeps.readCrockWords (Keeps.foldl (h.same rfl) (fun h4 => h4.perfEvent)))))

theorem Keeps.noteOwed {stack n : Nat} (h : Keeps u s) : Keeps u (noteOwed s stack n) := Keeps.ite h.setReg h

theorem Keeps.execRefreshDue {stack channel : Nat} (h : Keeps u s) : KeepsOutcome u (execRefreshDue stack channel s) :=
  KeepsOutcome.ite (KeepsOutcome.ite (KeepsOutcome.ite h.noteOwed.setPc h.noteOwed.setPc.count1.raise) h.noteOwed.setPc) h

theorem Keeps.execRefreshPayback {stack channel : Nat} (h : Keeps u s) : KeepsOutcome u (execRefreshPayback stack channel s) :=
  KeepsOutcome.ite h.setPc h

theorem Keeps.execHbmTempRead {stack readout : Nat} (h : Keeps u s) : KeepsOutcome u (execHbmTempRead stack readout s) :=
  KeepsOutcome.ite (Keeps.ite (Keeps.raise (h.setReg.same rfl)) (h.setReg.same rfl)) h

theorem Keeps.governRate {d : Nat} (h : Keeps u s) : Keeps u (governRate s d) :=
  Keeps.ite (Keeps.beginRate (h.same rfl)) (Keeps.ite (Keeps.ite (Keeps.beginRate (h.same rfl)) (h.same rfl)) (h.same rfl))

theorem Keeps.execHbmRateWindow (h : Keeps u s) : KeepsOutcome u (execHbmRateWindow s) :=
  KeepsOutcome.ite (KeepsOutcome.ite (Keeps.governRate (h.same rfl)) (h.same rfl)) h

theorem Keeps.selfRefresh {k : Nat} (h : Keeps u s) : Keeps u (selfRefresh s k) := h.foldl (fun h1 => h1.setPc)

theorem Keeps.loadDelays {k : Nat} (h : Keeps u s) : Keeps u (loadDelays s k) := h.same rfl

theorem Keeps.execHbmRateChange (h : Keeps u s) : KeepsOutcome u (execHbmRateChange s) := by
  simp only [Machine.execHbmRateChange]
  split
  · exact h
  · exact KeepsOutcome.ite h (Keeps.foldl (Keeps.foldl (Keeps.count1 (Keeps.foldl (Keeps.setReg ((h.foldl (fun h1 =>
      h1.selfRefresh)).same rfl)) (fun h2 => h2.loadDelays))) (fun h3 => h3.raise)) (fun h4 => h4.startNext))

theorem Keeps.execHbmRatePinWrite {client : Client} {value : Nat} (h : Keeps u s) : KeepsOutcome u (execHbmRatePinWrite client value s) :=
  h.writeRow (fun h1 => h1.wHbmRatePin)

theorem Keeps.execHbmIdleEnter (h : Keeps u s) : KeepsOutcome u (execHbmIdleEnter s) :=
  KeepsOutcome.ite (h.foldl (fun h1 => h1.selfRefresh.setStack)) h

theorem Keeps.startCapture (h : Keeps u s) : KeepsApplied u (startCapture s) :=
  KeepsApplied.ite h.jobBegin.jobEnd.raise.applied (KeepsApplied.ite h.jobBegin.jobEnd.raise.applied h.jobBegin.setBlk.applied)

theorem Keeps.sweepDelays {v : Nat} (h : Keeps u s) : Keeps u (sweepDelays s v) := h.same rfl

theorem Keeps.restoreDelays (h : Keeps u s) : Keeps u (restoreDelays s) := h.same rfl

theorem Keeps.captureEnd {cancelled : Bool} (h : Keeps u s) : Keeps u (captureEnd s cancelled) :=
  Keeps.raise (Keeps.ite h.restoreDelays.jobCancelled h.restoreDelays.jobEnd)

theorem Keeps.captureStep {pass : Nat} (h : Keeps u s) : Keeps u (captureStep s pass) :=
  Keeps.ite (Keeps.ite h.sweepDelays.setBlk.jobPhase.jobProgress.captureEnd
    (Keeps.ite h.sweepDelays.setBlk.jobPhase.jobProgress.captureEnd h.sweepDelays.setBlk.jobPhase.jobProgress)) h

theorem Keeps.execHbmCapture {turn : JobOp} {pass : Nat} (h : Keeps u s) : KeepsOutcome u (execHbmCapture turn pass s) := by
  simp only [Machine.execHbmCapture]
  split
  · exact h.concludeJob (h.jobStart (fun h1 => h1.startCapture))
  · exact h.captureStep

theorem Keeps.startHbmInit {k : Nat} (h : Keeps u s) : KeepsApplied u (startHbmInit k s) :=
  KeepsApplied.ite h.jobBegin.jobEnd.raise.applied h.jobBegin.applied

theorem Keeps.startupMark {n : Nat} (h : Keeps u s) : Keeps u (startupMark s n) := h.same rfl

theorem Keeps.stacksInitialised (h : Keeps u s) : Keeps u (stacksInitialised s) := Keeps.ite h.setReg.startupMark h

theorem Keeps.hbmInitEnd {k : Nat} {pass : Bool} (h : Keeps u s) : Keeps u (hbmInitEnd s k pass) :=
  Keeps.ite (Keeps.stacksInitialised (Keeps.raise (Keeps.jobEnd (Keeps.ite (Keeps.startRefresh (Keeps.setStack (h.same rfl)))
    h.loadDelays.setStack)))) h

theorem Keeps.execHbmInit {stack : Nat} {turn : JobOp} {pass : Bool} (h : Keeps u s) : KeepsOutcome u (execHbmInit stack turn pass s) := by
  simp only [Machine.execHbmInit]
  split
  · exact h.concludeJob (h.jobStart (fun h1 => h1.startHbmInit))
  · exact h.hbmInitEnd

theorem Keeps.startHbmOffline {k : Nat} (h : Keeps u s) : KeepsApplied u (startHbmOffline k s) :=
  KeepsApplied.ite h.setStack.applied (KeepsApplied.ite h.startRefresh.setStack.applied .fail)

theorem Keeps.execHbmOffline {client : Client} {stack : Nat} (h : Keeps u s) : KeepsOutcome u (execHbmOffline client stack s) :=
  h.concludeJob (h.jobStartWith (fun h1 => h1.startHbmOffline))

theorem Keeps.drained {k : Nat} (h : Keeps u s) : Keeps u (drained s k) := Keeps.ite (Keeps.ite h.setStack.jobEnd.raise h.setStack) h

theorem Keeps.execHbmDrained {stack : Nat} (h : Keeps u s) : KeepsOutcome u (execHbmDrained stack s) := h.drained

theorem Keeps.scrubPage {k p : Nat} (h : Keeps u s) : Keeps u (scrubPage s k p) :=
  h.foldl (fun h1 => Keeps.ite (Keeps.ite h1.readCrockWords h1.readCrockWords.setQuar) h1.readCrockWords.setFlips)

theorem Keeps.scrubNext {k : Nat} (h : Keeps u s) : Keeps u (scrubNext s k) := Keeps.ite h.scrubPage.setReg h.scrubPage.setReg.count1

theorem Keeps.disturb {k p : Nat} {l : List (Nat × Nat)} (h : Keeps u s) : Keeps u (disturb s k p l) :=
  h.foldl (fun h1 => Keeps.ite h1.setFlips h1)

theorem Keeps.execHbmPatrolScrub {stack : Nat} {upsets : List (Nat × Nat)} (h : Keeps u s) : KeepsOutcome u
    (execHbmPatrolScrub stack upsets s) :=
  KeepsOutcome.ite (KeepsOutcome.ite (h.same rfl) (Keeps.scrubNext (Keeps.disturb (h.same rfl)))) h

theorem Keeps.execHbmScrubBatch {stack : Nat} (h : Keeps u s) : KeepsOutcome u (execHbmScrubBatch stack s) :=
  KeepsOutcome.ite (Keeps.same (Keeps.ite (h.foldl (fun h1 => h1.scrubNext)).raise (h.foldl (fun h2 => h2.scrubNext))) rfl) h

theorem Keeps.execHbmRefreshOwedMaxRead {client : Client} {stack : Nat} (h : Keeps u s) : KeepsOutcome u
    (execHbmRefreshOwedMaxRead client stack s) :=
  h.readRow (fun h1 => h1.setReg)

theorem Keeps.refillResidue (h : Keeps u s) : Keeps u (refillResidue s) := h.residueMismatch.count1.raise

theorem Keeps.refillShaper {k period : Nat} (h : Keeps u s) : Keeps u (refillShaper s k period) := Keeps.ite h.setNode h.setNode

theorem Keeps.execShaperRefill {kind index : Nat} (h : Keeps u s) : KeepsOutcome u (execShaperRefill kind index s) :=
  KeepsOutcome.ite (KeepsOutcome.ite h.refillResidue h.refillShaper) h

theorem Keeps.correctShaper {k lfEst lf : Nat} (h : Keeps u s) : Keeps u (correctShaper s k lfEst lf) := Keeps.ite h h.setNode

theorem Keeps.correctDue {d : ShaperDue} {lf l : Nat} (h : Keeps u s) : Keeps u (correctDue s d lf l) := by
  simp only [Machine.correctDue]
  split
  · exact (h.foldl (fun h1 => h1.correctShaper)).same rfl
  · exact h.foldl (fun h2 => h2.correctShaper)

theorem Keeps.execShaperCorrection {pkt : Nat} (h : Keeps u s) : KeepsOutcome u (execShaperCorrection pkt s) := by
  simp only [Machine.execShaperCorrection]
  split
  · exact h
  · split
    · exact Keeps.refillResidue (h.same rfl)
    · refine Keeps.touchVoqs ?_
      refine Keeps.foldl (h.same rfl) (fun h1 => ?_)
      split
      · exact h1.correctDue
      · exact h1

theorem Keeps.fanOut {n : Nat} (h : Keeps u s) : Keeps u (fanOut s n) := by
  simp only [Machine.fanOut]
  split
  · exact h
  · split
    · exact Keeps.queueLeft (h.same rfl)
    · exact Keeps.ite (Keeps.freePkt (Keeps.creditBack (Keeps.discard (Keeps.count1 (Keeps.queueLeft (h.same rfl))))))
        (Keeps.ite (Keeps.freePkt (Keeps.copiesMade (Keeps.ingressMirror (Keeps.iteSnd (Keeps.voqTarget (Keeps.countBy (h.same rfl)))
        (Keeps.countBy (h.same rfl)))))) (Keeps.placeAll (Keeps.copiesMade (Keeps.ingressMirror (Keeps.iteSnd (Keeps.voqTarget
        (Keeps.countBy (h.same rfl))) (Keeps.countBy (h.same rfl)))))))

theorem Keeps.execMcFanout {qms : Nat} (h : Keeps u s) : KeepsOutcome u (execMcFanout qms s) := h.fanOut.touchVoqs

theorem Keeps.releaseVoq {q : Nat} (h : Keeps u s) : Keeps u (releaseVoq s q) := Keeps.count1 (h.same rfl)

theorem Keeps.execVoqIdleRelease {queue : Nat} (h : Keeps u s) : KeepsOutcome u (execVoqIdleRelease queue s) := by
  simp only [Machine.execVoqIdleRelease]
  split
  · exact h
  · exact KeepsOutcome.ite h.releaseVoq h

theorem Keeps.execQmLoadWrite {client : Client} {records : List Byte} (h : Keeps u s) : KeepsOutcome u (execQmLoadWrite client records s) :=
  h.commitRow (fun h1 => h1.commitLoad)

theorem Keeps.putWords {k w qw : Nat} (h : Keeps u s) : Keeps u (putWords s k w qw) := Keeps.ite h.setNode h.setNode

theorem Keeps.writeWords {k w : Nat} {qw? : Option Nat} (h : Keeps u s) : Keeps u (writeWords s k w qw?).2 := by
  unfold Machine.writeWords
  extract_lets n w' q old qw typeChanges t low m t'
  have ht : Keeps u t' := Keeps.ite h.putWords.raise h.putWords
  clear_value t'
  exact Keeps.iteSnd h (Keeps.iteSnd h (Keeps.iteSnd h (Keeps.iteSnd h (Keeps.iteSnd h (Keeps.iteSnd h (Keeps.iteSnd h
    (Keeps.iteSnd h (Keeps.iteSnd h ht))))))))

theorem Keeps.writeClassMap {p c w : Nat} (h : Keeps u s) : Keeps u (writeClassMap s p c w).2 :=
  Keeps.iteSnd h (Keeps.iteSnd h (Keeps.iteSnd h (h.same rfl)))

theorem Keeps.writeGroup {g w : Nat} (h : Keeps u s) : Keeps u (writeGroup s g w).2 := Keeps.iteSnd h (Keeps.iteSnd h (h.same rfl))

theorem Keeps.writeTargets {first n : Nat} {ws : List Nat} (h : Keeps u s) : Keeps u (writeTargets s first n ws).2 :=
  Keeps.iteSnd h (Keeps.iteSnd h (h.foldl (fun h1 => h1.same rfl)))

theorem Keeps.applyQm {r : List Byte} (h : Keeps u s) : Keeps u (applyQm s r).2 := by
  simp only [Machine.applyQm]
  split
  · exact h
  · split
    · exact Keeps.iteSnd h (Keeps.iteSnd h h.writeWords)
    · exact Keeps.iteSnd h h.writeWords
    · exact Keeps.iteSnd h h.writeClassMap
    · exact Keeps.iteSnd h h.writeGroup
    · exact Keeps.iteSnd h h.writeTargets
    · exact h

theorem Keeps.execQmApply {turn : JobOp} (h : Keeps u s) : KeepsOutcome u (execQmApply turn s) := h.loadJobTurn (fun h1 => h1.applyQm)

theorem Keeps.takeOp {j : LoadJob} {ops : List Nat} {apply : State → List Byte → Nat × State} (h : Keeps u s)
    (ha : ∀ {s r}, Keeps u s → Keeps u (apply s r).2) : Keeps u (takeOp s j ops apply) := by
  simp only [Machine.takeOp]
  split
  · exact Keeps.ite (h.takeRecord ha) h
  · exact h

theorem Keeps.execNodeWrite (h : Keeps u s) : KeepsOutcome u (execNodeWrite s) := h.takeOp (fun h1 => h1.applyQm)

theorem Keeps.execQueueWrite (h : Keeps u s) : KeepsOutcome u (execQueueWrite s) := h.takeOp (fun h1 => h1.applyQm)

theorem Keeps.execClassMapWrite (h : Keeps u s) : KeepsOutcome u (execClassMapWrite s) := h.takeOp (fun h1 => h1.applyQm)

theorem Keeps.execMcGroupWrite (h : Keeps u s) : KeepsOutcome u (execMcGroupWrite s) := h.takeOp (fun h1 => h1.applyQm)

theorem Keeps.execTargetWrite (h : Keeps u s) : KeepsOutcome u (execTargetWrite s) := h.takeOp (fun h1 => h1.applyQm)

theorem Keeps.wSchConfig {b : List Byte} (h : Keeps u s) : KeepsApplied u (wSchConfig b s) :=
  KeepsApplied.ite .fail (KeepsApplied.ite .fail (KeepsApplied.ite h.writeWords.applied .fail))

theorem Keeps.execSchConfigWrite {client : Client} {value : List Byte} (h : Keeps u s) : KeepsOutcome u
    (execSchConfigWrite client value s) :=
  h.commitRow (fun h1 => h1.wSchConfig)

theorem Keeps.execFecCodewordDecode {lane outcome : Nat} (h : Keeps u s) : KeepsOutcome u (execFecCodewordDecode lane outcome s) :=
  KeepsOutcome.ite h (KeepsOutcome.ite (KeepsOutcome.ite (Keeps.setFlane (Keeps.ite h.count1 (Keeps.ite h.count1.raise h)))
    (Keeps.ite (Keeps.sectionDefect (Keeps.sectionDefect (Keeps.setFlane (Keeps.ite h.count1 (Keeps.ite h.count1.raise h)))))
    (Keeps.loseFrame (Keeps.sectionDefect (Keeps.setFlane (Keeps.ite h.count1 (Keeps.ite h.count1.raise h)))))))
    (Keeps.setFlane (Keeps.ite h.count1 (Keeps.ite h.count1.raise h))))

theorem Keeps.runStep {l k : Nat} {bad : Bool} {run : Nat} (h : Keeps u s) : Keeps u (runStep s l k bad run).2 :=
  Keeps.iteSnd h (Keeps.iteSnd h h.sectionDefect)

theorem Keeps.interpret {b mf : Nat} {w : Option Nat} (h : Keeps u s) : Keeps u (interpret s b mf w).2 :=
  Keeps.iteSnd (Keeps.iteSnd h.setBundle (Keeps.iteSnd h.setBundle.count1.setReg.setReg
    (Keeps.iteSnd h.setBundle.count1.setReg.setReg (Keeps.iteSnd h.setBundle.count1.setReg.setReg (Keeps.iteSnd
    h.setBundle.count1.setReg.setReg (Keeps.iteSnd h.setBundle.count1.setReg.setReg
    (Keeps.iteSnd h.setBundle.count1.setReg.setReg h.setBundle.count1)))))))
    (Keeps.iteSnd (Keeps.iteSnd h.setBundle.setReg.setReg (Keeps.iteSnd h.setBundle.setReg.setReg (Keeps.iteSnd h.setBundle.count1
    h.setBundle))) (Keeps.iteSnd h.setBundle.setReg.setReg (Keeps.iteSnd h.setBundle.setReg.setReg (Keeps.iteSnd h.setBundle
    (Keeps.iteSnd h.setBundle (Keeps.iteSnd h.setBundle.count1.setReg.setReg h.setBundle.count1))))))

theorem Keeps.setBurgee {b v : Nat} (h : Keeps u s) : Keeps u (setBurgee s b v) :=
  Keeps.ite (h.same rfl) (Keeps.ite (Keeps.perfHeld (Keeps.countBy (h.same rfl))) h.setBundle)

theorem Keeps.bundleFrame {b : Nat} (h : Keeps u s) : Keeps u (bundleFrame s b) := by
  unfold Machine.bundleFrame
  extract_lets set lanes active good w s1 mfOf mf _ s2 ptr r s3 keep restart s4 _ s5 s6 m _ y s7
  have h1 : Keeps u s1 := by
    unfold s1
    clear_value w
    split
    · refine h.foldl (fun h1 => ?_)
      split
      · exact h1.runStep.setFlane
      · exact h1
    · exact h
  have h2 : Keeps u s2 := Keeps.ite h1.setBundle h1
  have h3 : Keeps u s3 := Keeps.iteSnd h2 h2.interpret
  have h4 : Keeps u s4 := h3.foldl (fun h1 => h1.setFlane)
  have h5 : Keeps u s5 := h4.setBundle
  have h6 : Keeps u s6 := by
    unfold s6
    clear_value w
    split
    · exact h5.setBurgee
    · exact h5
  have h7 : Keeps u s7 := by
    unfold s7
    clear_value m
    split
    · exact h6.setBundle.setFlane
    · exact h6
  exact h7.touchPath

theorem Keeps.gatherFrame {l : Nat} (h : Keeps u s) : Keeps u (gatherFrame s l) := Keeps.ite h.setBundle.bundleFrame h.setBundle

theorem Keeps.slotDone {l mf : Nat} (h : Keeps u s) : Keeps u (slotDone s l mf) := by
  simp only [Machine.slotDone]
  split
  · split
    · exact Keeps.ite h h.setBundle
    · exact h
  · split
    · split
      · exact Keeps.ite h h.setBundle
      · exact h
    · exact h

theorem Keeps.validFrame {l : Nat} {f : List Byte} (h : Keeps u s) : Keeps u (validFrame s l f) :=
  Keeps.slotDone (Keeps.setFlane (Keeps.ite h.setReg.runStep.setFlane.countBy.countBy.raise h.setReg.runStep.setFlane.countBy.countBy))

theorem Keeps.framedFrame {l skew : Nat} {f : List Byte} (h : Keeps u s) : Keeps u (framedFrame s l skew f) :=
  Keeps.ite h.loseFrame (Keeps.setFlane (Keeps.ite (Keeps.validFrame (Keeps.setFlane (Keeps.ite h.setReg.runStep.setFlane.count1
    (Keeps.ite h.setReg.runStep.setFlane.count1 h.setReg.runStep.setFlane))))
    (Keeps.setFlane (Keeps.ite h.setReg.runStep.setFlane.count1 (Keeps.ite h.setReg.runStep.setFlane.count1 h.setReg.runStep.setFlane)))))

theorem Keeps.execBuntingFrameReceive {lane offset skew : Nat} {frame : List Byte} (h : Keeps u s) : KeepsOutcome u
    (execBuntingFrameReceive lane offset skew frame s) :=
  KeepsOutcome.ite h (KeepsOutcome.ite (KeepsOutcome.ite h (Keeps.gatherFrame (Keeps.framedFrame (Keeps.ite h.bundleFrame h))))
    (KeepsOutcome.ite h.setFlane.setReg.sectionDefect h.setFlane))

theorem Keeps.startMultiframe {b : Nat} (h : Keeps u s) : Keeps u (startMultiframe s b) := by
  simp only [Machine.startMultiframe]
  split
  · exact h.setBundle
  · split
    · exact Keeps.ite h.setBundle (h.setBundle.foldl (fun h1 => Keeps.ite h1 h1.setFlane))
    · split
      · exact h.setBundle
      · split
        · exact h.setBundle
        · exact h.setBundle

theorem Keeps.sendChunk {b : Nat} (h : Keeps u s) : Keeps u (sendChunk s b).2 := by
  simp only [Machine.sendChunk]
  split
  · exact Keeps.setBundle (Keeps.ite h.count1 h)
  · split
    · exact Keeps.iteSnd (Keeps.setBundle (Keeps.ite h.count1 h)) (Keeps.setBundle (Keeps.ite h.count1 h))
    · exact Keeps.setBundle (Keeps.ite h.count1 h)

theorem Keeps.laneFrame {b l ptr just ls : Nat} {chunk neg body : List Byte} (h : Keeps u s) : Keeps u
    (laneFrame s b l ptr just ls chunk neg body) :=
  h.setFlane.emit

theorem Keeps.fillPlaces {n b : Nat} (h : Keeps u s) : Keeps u (fillPlaces n s b).2 := by
  induction n generalizing s with
  | zero => exact h
  | succ n ih => exact ih (Keeps.ite h.setBundle.perfEvent (Keeps.ite h.setBundle.count1.perfEvent h.setBundle))

theorem Keeps.buildContainer {b : Nat} (h : Keeps u s) : Keeps u (buildContainer s b) := h.setBundle.fillPlaces.setBundle

theorem Keeps.sendUnits {n b : Nat} (h : Keeps u s) : Keeps u (sendUnits n s b).2 := by
  induction n generalizing s with
  | zero => exact h
  | succ n ih => exact ih (Keeps.setBundle (Keeps.ite h.buildContainer h))

theorem Keeps.execBuntingFrameSend {bundle : Nat} {lead : Int} (h : Keeps u s) : KeepsOutcome u (execBuntingFrameSend bundle lead s) :=
  KeepsOutcome.ite h (KeepsOutcome.ite (Keeps.setBundle (Keeps.foldl (Keeps.setBundle (Keeps.sendChunk (Keeps.same (Keeps.ite
    h.startMultiframe h) rfl))) (fun h1 => h1.laneFrame))) (Keeps.setBundle (Keeps.foldl (Keeps.sendUnits (Keeps.setBundle (Keeps.ite
    (Keeps.count1 (Keeps.sendChunk (Keeps.same (Keeps.ite h.startMultiframe h) rfl)))
    (Keeps.sendChunk (Keeps.same (Keeps.ite h.startMultiframe h) rfl))))) (fun h2 => h2.laneFrame))))

theorem Keeps.pathOverhead {b po : Nat} (h : Keeps u s) : Keeps u (pathOverhead s b po) := by
  simp only [Machine.pathOverhead]
  refine Keeps.setBundle ?_
  split
  · exact Keeps.setReg (Keeps.ite (Keeps.setBlk (Keeps.ite h.countBy.raise h.countBy)) (Keeps.ite h.countBy.raise h.countBy))
  · exact Keeps.ite (Keeps.setBlk (Keeps.ite h.countBy.raise h.countBy)) (Keeps.ite h.countBy.raise h.countBy)

theorem Keeps.containerFrame {b n : Nat} {c : List Byte} (h : Keeps u s) : Keeps u (containerFrame s b n c) :=
  Keeps.ite (Keeps.touchPath (Keeps.ite h.countBy.setBundle.pathOverhead h.countBy.setBundle.count1))
    (Keeps.setBundle (Keeps.touchPath (Keeps.ite h.countBy.setBundle.pathOverhead h.countBy.setBundle.count1)))

theorem Keeps.execContainerFrameReceive {bundle : Nat} (h : Keeps u s) : KeepsOutcome u (execContainerFrameReceive bundle s) :=
  KeepsOutcome.ite h (h.foldl (fun h1 => h1.setFlane)).containerFrame

theorem Keeps.execLosClear {lane : Nat} (h : Keeps u s) : KeepsOutcome u (execLosClear lane s) := KeepsOutcome.ite h.sectionDefect h

theorem Keeps.execPmSecond (h : Keeps u s) : KeepsOutcome u (execPmSecond s) :=
  KeepsOutcome.ite h (Keeps.foldl (h.same rfl) (fun h1 => Keeps.ite h1.setBundle.raise h1.setBundle))

theorem Keeps.of_takeMsg {b ty : Nat} {x : LsMsg × State} (h : Keeps u s) (e : takeMsg s b ty = some x) : Keeps u x.2 := by
  simp only [Machine.takeMsg] at e
  repeat' split at e
  all_goals cases e
  exact h.setBundle

theorem Keeps.execLaneSetPropose {bundle : Nat} (h : Keeps u s) : KeepsOutcome u (execLaneSetPropose bundle s) := by
  unfold Machine.execLaneSetPropose
  split
  · exact h
  · rename_i e
    have h1 := h.of_takeMsg e
    extract_lets r
    refine KeepsOutcome.ite ?_ ?_
    · exact h1.setBundle
    · exact h1.setBundle

theorem Keeps.execLaneSetAccept {bundle : Nat} (h : Keeps u s) : KeepsOutcome u (execLaneSetAccept bundle s) := by
  simp only [Machine.execLaneSetAccept]
  split
  · exact h
  · rename_i m s e
    have h1 := h.of_takeMsg e
    split
    · exact KeepsOutcome.ite h1.setBundle h1
    · exact h1

theorem Keeps.changeEnds {b result : Nat} (h : Keeps u s) : Keeps u (changeEnds s b result) := by
  simp only [Machine.changeEnds]
  split
  · exact h
  · exact Keeps.ite h.setBundle.jobEnd h.setBundle

theorem Keeps.execLaneSetReject {bundle : Nat} (h : Keeps u s) : KeepsOutcome u (execLaneSetReject bundle s) := by
  simp only [Machine.execLaneSetReject]
  split
  · exact h
  · rename_i m s e
    have h1 := h.of_takeMsg e
    split
    · exact KeepsOutcome.ite h1.count1.raise.changeEnds h1
    · exact h1

theorem Keeps.execLaneSetCommit {bundle : Nat} (h : Keeps u s) : KeepsOutcome u (execLaneSetCommit bundle s) := by
  simp only [Machine.execLaneSetCommit]
  split
  · exact h
  · rename_i m s e
    have h1 := h.of_takeMsg e
    split
    · exact KeepsOutcome.ite h1.setBundle h1
    · exact h1

theorem Keeps.beginChange {b mask : Nat} {job : Bool} (h : Keeps u s) : Keeps u (beginChange s b mask job) := h.setBundle

theorem Keeps.execLaneSetRequest {bundle : Nat} (h : Keeps u s) : KeepsOutcome u (execLaneSetRequest bundle s) := by
  simp only [Machine.execLaneSetRequest]
  split
  · exact h
  · rename_i m s e
    have h1 := h.of_takeMsg e
    exact KeepsOutcome.ite h1.beginChange h1

theorem Keeps.execLaneSetEffect {bundle : Nat} {transmit : Bool} (h : Keeps u s) : KeepsOutcome u
    (execLaneSetEffect bundle transmit s) := by
  simp only [Machine.execLaneSetEffect]
  split
  · exact h
  · split
    · exact h
    · exact KeepsOutcome.ite h (KeepsOutcome.ite (Keeps.ite h.count1.raise.setReg.setBundle.jobEnd h.count1.raise.setReg.setBundle)
        h.count1.raise.setReg.setBundle.touchPath)

theorem Keeps.execLaneSetTimeout {bundle : Nat} {transmit : Bool} (h : Keeps u s) : KeepsOutcome u
    (execLaneSetTimeout bundle transmit s) := by
  simp only [Machine.execLaneSetTimeout]
  split
  · split
    · exact KeepsOutcome.ite h.count1.raise.changeEnds h
    · exact h
  · split
    · exact KeepsOutcome.ite h.setBundle h
    · exact h

theorem Keeps.execLaneQuiet {bundle : Nat} (h : Keeps u s) : KeepsOutcome u (execLaneQuiet bundle s) := by
  simp only [Machine.execLaneQuiet]
  split
  · exact h
  · exact KeepsOutcome.ite h (KeepsOutcome.ite (h.setBundle.foldl (fun h1 => Keeps.ite h1 h1.setFlane)) h.setBundle)

theorem Keeps.execLaneWake {lane : Nat} (h : Keeps u s) : KeepsOutcome u (execLaneWake lane s) := KeepsOutcome.ite h.setFlane h

theorem Keeps.execLaneAutoRemove {lane : Nat} (h : Keeps u s) : KeepsOutcome u (execLaneAutoRemove lane s) := by
  simp only [Machine.execLaneAutoRemove]
  split
  · exact h
  · exact KeepsOutcome.ite h.setBundle h

theorem Keeps.execShedGovernor {bundle : Nat} (h : Keeps u s) : KeepsOutcome u (execShedGovernor bundle s) :=
  KeepsOutcome.ite h (KeepsOutcome.ite h.setBundle.beginChange h.setBundle)

theorem Keeps.startLaneSetChange {b : Nat} (h : Keeps u s) : KeepsApplied u (startLaneSetChange s b) :=
  KeepsApplied.ite h.jobBegin.jobEnd.applied (KeepsApplied.ite h.jobBegin.beginChange.applied .fail)

theorem Keeps.execFbLaneSetChange {client : Client} {bundle : Nat} (h : Keeps u s) : KeepsOutcome u (execFbLaneSetChange client bundle s) :=
  h.concludeJob (h.jobStart (fun h1 => h1.startLaneSetChange))

theorem Keeps.execMgmtChannelPacket {bundle : Nat} (h : Keeps u s) : KeepsOutcome u (execMgmtChannelPacket bundle s) := by
  simp only [Machine.execMgmtChannelPacket]
  split
  · exact h
  · exact KeepsOutcome.ite (KeepsOutcome.ite h.setBundle.raise h.setBundle.count1.setBundle) h.setBundle.count1.raise

theorem Keeps.execFabricPrbsLoopbackWrite {client : Client} {lane : Nat} {loopback : Bool} {value : Nat} (h : Keeps u s) : KeepsOutcome u
    (execFabricPrbsLoopbackWrite client lane loopback value s) :=
  h.writeRow (fun h1 => h1.wFlTest)

theorem Keeps.execFlPrbsErrorsRead {client : Client} {lane errors : Nat} (h : Keeps u s) : KeepsOutcome u
    (execFlPrbsErrorsRead client lane errors s) :=
  Keeps.readRow (Keeps.ite h.countSat h) (fun h1 => h1.setReg)

theorem Keeps.takePlace {b : Nat} {tys : List Nat} (h : Keeps u s) : Keeps u (takePlace s b tys).2 := by
  simp only [Machine.takePlace]
  split
  · exact h
  · exact Keeps.iteSnd h.setBundle.count1.raise (Keeps.iteSnd h (Keeps.iteSnd h.setBundle.count1 h.setBundle))

theorem Keeps.execIdlePennantReceive {bundle : Nat} (h : Keeps u s) : KeepsOutcome u (execIdlePennantReceive bundle s) := h.takePlace

theorem Keeps.of_sprayLoop {f : Nat} {ok : Nat → Bool} {x : Nat × State} (h : Keeps u s) (e : sprayLoop f s ok = some x) :
    Keeps u x.2 := by
  induction f generalizing s with
  | zero => cases e
  | succ f ih =>
    unfold Machine.sprayLoop at e
    extract_lets b left _ n quantum at e
    clear_value n quantum
    split at e
    · cases e
      exact h.same rfl
    · refine ih ?_ e
      exact h.same rfl

theorem Keeps.of_spray {d : Nat} {from' cls : Option Nat} {room : FBundle → Bool} {x : Nat × State} (h : Keeps u s)
    (e : spray s d from' cls room = some x) : Keeps u x.2 := h.of_sprayLoop e

theorem Keeps.relay {a : Nat} {p : List Byte} (h : Keeps u s) : Keeps u (relay s a p) := by
  simp only [Machine.relay]
  split
  · exact h.count1.raise
  · split
    · rename_i e
      rcases some_of_orElse e with e | e
      · exact (h.of_spray e).setBundle
      · exact (h.of_spray e).setBundle
    · split
      · exact h.count1
      · exact h

theorem Keeps.setCtx {src : Nat} {c : RxCtx} (h : Keeps u s) : Keeps u (setCtx s src c) := h.same rfl

theorem Keeps.dropAssembly {k reason : Nat} (h : Keeps u s) : Keeps u (dropAssembly s k reason) := by
  simp only [Machine.dropAssembly]
  split
  · exact h
  · split
    · exact Keeps.macDiscard (h.same rfl)
    · exact h.same rfl

theorem Keeps.orphan (h : Keeps u s) : Keeps u (orphan s) := h.count1

theorem Keeps.beginForm {k src seq : Nat} {mc : Bool} {form : List Byte} (h : Keeps u s) : Keeps u (beginForm s k src seq mc form) := by
  unfold Machine.beginForm
  extract_lets d _ s1 m l pool i p free full _ s2 _ _ _
  have h1 : Keeps u s1 := h.same rfl
  have h2 : Keeps u s2 := Keeps.discardArrival (h1.same rfl)
  exact Keeps.ite (Keeps.ite h2 (h2.same rfl)) (Keeps.landBytes (h1.same rfl))

theorem Keeps.finishForm {k : Nat} (h : Keeps u s) : Keeps u (finishForm s k) := by
  simp only [Machine.finishForm]
  split
  · exact h
  · split
    · exact h.same rfl
    · split
      · exact h.same rfl
      · exact Keeps.ite (Keeps.macDiscard (h.same rfl)) (Keeps.ite (Keeps.macDiscard (h.same rfl)) (Keeps.landBytes (Keeps.setPkt (h.same
          rfl))))

theorem Keeps.growForm {k seq : Nat} {a : Assembly} {b : List Byte} (h : Keeps u s) : Keeps u (growForm s k seq a b) := by
  simp only [Machine.growForm]
  split
  · exact Keeps.landBytes (Keeps.setPkt (h.same rfl))
  · exact h.same rfl

theorem Keeps.segment {k src seq : Nat} {mc : Bool} {pos : Nat} {b : List Byte} (h : Keeps u s) : Keeps u
    (segment s k src seq mc pos b) := by
  simp only [Machine.segment]
  split
  · exact Keeps.ite h.dropAssembly.orphan (Keeps.ite h.dropAssembly.beginForm.finishForm h.dropAssembly.beginForm)
  · split
    · exact h.orphan
    · exact Keeps.ite h.growForm.finishForm h.growForm

theorem Keeps.deliver {src : Nat} {p : List Byte} (h : Keeps u s) : Keeps u (deliver s src p) := by
  simp only [Machine.deliver]
  split
  · exact h.foldl (fun h1 => h1.segment)
  · exact h.orphan

theorem Keeps.drainHeldPennants {f src : Nat} (h : Keeps u s) : Keeps u (drainHeldPennants f s src) := by
  induction f generalizing s with
  | zero => exact h
  | succ f ih =>
    simp only [Machine.drainHeldPennants]
    split
    · exact h
    · exact ih h.setCtx.deliver

theorem Keeps.holdPennant {src : Nat} {h' : HeldPennant} (h : Keeps u s) : Keeps u (holdPennant s src h') := Keeps.ite h.count1 h.setCtx

theorem Keeps.declareLost {src e : Nat} (h : Keeps u s) : Keeps u (declareLost s src e) :=
  h.count1.raise.dropAssembly.setCtx.drainHeldPennants

theorem Keeps.judge {f src : Nat} {p : HeldPennant} (h : Keeps u s) : Keeps u (judge f s src p) := by
  induction f generalizing s with
  | zero => exact h
  | succ f ih =>
    exact Keeps.ite h.setCtx.deliver.drainHeldPennants (Keeps.ite (Keeps.ite h.count1 h.holdPennant) (Keeps.ite h.count1 (ih
      h.declareLost)))

theorem Keeps.pairArrival {src : Nat} {p : List Byte} (h : Keeps u s) : Keeps u (pairArrival s src p) :=
  Keeps.ite h.judge (Keeps.ite h.holdPennant h.setCtx.holdPennant)

theorem Keeps.execDataPennantReceive {bundle : Nat} (h : Keeps u s) : KeepsOutcome u (execDataPennantReceive bundle s) := by
  simp only [Machine.execDataPennantReceive]
  split
  · rename_i s e
    have h1 := Keeps.ofSnd h.takePlace e
    exact h1
  · rename_i p s e
    have h2 := Keeps.ofSnd h.takePlace e
    exact KeepsOutcome.ite h2.relay (KeepsOutcome.ite h2.pairArrival.touchVoqs h2)

theorem Keeps.execMulticastPennantReceive {bundle : Nat} (h : Keeps u s) : KeepsOutcome u (execMulticastPennantReceive bundle s) := by
  simp only [Machine.execMulticastPennantReceive]
  split
  · rename_i s e
    have h1 := Keeps.ofSnd h.takePlace e
    exact h1
  · rename_i p s e
    have h2 := Keeps.ofSnd h.takePlace e
    split
    · refine Keeps.touchVoqs ?_
      refine Keeps.segment ?_
      split
      · exact Keeps.ite (h2.foldl (fun h3 => Keeps.ite h3 (Keeps.ite h3.setBundle h3.count1)))
          (h2.foldl (fun h4 => Keeps.ite h4 (Keeps.ite h4.setBundle h4.count1))).dropAssembly
      · exact h2.foldl (fun h5 => Keeps.ite h5 (Keeps.ite h5.setBundle h5.count1))
    · exact h2.foldl (fun h6 => Keeps.ite h6 (Keeps.ite h6.setBundle h6.count1))

theorem Keeps.sendControlPennant {b : Nat} {p : List Byte} (h : Keeps u s) : Keeps u (sendControlPennant s b p) := Keeps.ite h.setBundle h

theorem Keeps.execBeaconReceive {bundle : Nat} (h : Keeps u s) : KeepsOutcome u (execBeaconReceive bundle s) := by
  simp only [Machine.execBeaconReceive]
  split
  · rename_i s e
    have h1 := Keeps.ofSnd h.takePlace e
    exact h1
  · rename_i p s e
    have h2 := Keeps.ofSnd h.takePlace e
    exact KeepsOutcome.ite h2.count1.raise (KeepsOutcome.ite h2
      (KeepsOutcome.ite (h2.setDestRec.routeChanged.setDestRec.foldl (fun h3 => Keeps.ite h3 h3.sendControlPennant))
      h2.setDestRec.routeChanged))

theorem Keeps.openCtx {src e : Nat} (h : Keeps u s) : Keeps u (openCtx s src e) := h.setCtx.foldl (fun h1 => h1.judge)

theorem Keeps.execSequenceStartReceive {bundle : Nat} (h : Keeps u s) : KeepsOutcome u (execSequenceStartReceive bundle s) := by
  simp only [Machine.execSequenceStartReceive]
  split
  · rename_i s e
    have h1 := Keeps.ofSnd h.takePlace e
    exact h1
  · rename_i p s e
    have h2 := Keeps.ofSnd h.takePlace e
    exact KeepsOutcome.ite h2.relay (KeepsOutcome.ite h2 (KeepsOutcome.ite h2.openCtx (KeepsOutcome.ite h2 h2.declareLost)))

theorem Keeps.takeEntries {p : List Byte} {kinds : List Nat} (h : Keeps u s) : Keeps u (takeEntries s p kinds) := Keeps.ite (h.same rfl) h

theorem Keeps.execCreditRequestPennantReceive {bundle : Nat} (h : Keeps u s) : KeepsOutcome u
    (execCreditRequestPennantReceive bundle s) := by
  simp only [Machine.execCreditRequestPennantReceive]
  split
  · rename_i s e
    have h1 := Keeps.ofSnd h.takePlace e
    exact h1
  · rename_i p s e
    have h2 := Keeps.ofSnd h.takePlace e
    exact KeepsOutcome.ite h2.relay h2.takeEntries

theorem Keeps.execCreditGrantPennantReceive {bundle : Nat} (h : Keeps u s) : KeepsOutcome u (execCreditGrantPennantReceive bundle s) := by
  simp only [Machine.execCreditGrantPennantReceive]
  split
  · rename_i s e
    have h1 := Keeps.ofSnd h.takePlace e
    exact h1
  · rename_i p s e
    have h2 := Keeps.ofSnd h.takePlace e
    exact KeepsOutcome.ite h2.relay h2.takeEntries

theorem Keeps.of_takeEntry {kind : Nat} {x : Nat × Nat × State} (h : Keeps u s) (e : takeEntry s kind = some x) : Keeps u x.2.2 := by
  simp only [Machine.takeEntry] at e
  repeat' split at e
  all_goals cases e
  exact h.same rfl

theorem Keeps.execCreditRequestEntry (h : Keeps u s) : KeepsOutcome u (execCreditRequestEntry s) := by
  simp only [Machine.execCreditRequestEntry]
  split
  · exact h
  · rename_i src e s e
    have h1 := h.of_takeEntry e
    exact KeepsOutcome.ite h1.setGrant h1.gatherEntry

theorem Keeps.setVoq {q : Nat} {v : Voq} (h : Keeps u s) : Keeps u (setVoq s q v) := h.same rfl

theorem Keeps.returnBytes {f d prt cls n : Nat} (h : Keeps u s) : Keeps u (returnBytes f s d prt cls n) := by
  induction f generalizing s n with
  | zero => exact h
  | succ f ih => exact Keeps.ite h (ih h.gatherEntry)

theorem Keeps.execCreditGrantEntry (h : Keeps u s) : KeepsOutcome u (execCreditGrantEntry s) := by
  simp only [Machine.execCreditGrantEntry]
  split
  · exact h
  · rename_i src e s e
    have h1 := h.of_takeEntry e
    split
    · exact h1.setVoq.touchVoqs
    · exact h1.count1.raise.returnBytes

theorem Keeps.execCreditReturnEntry (h : Keeps u s) : KeepsOutcome u (execCreditReturnEntry s) := by
  simp only [Machine.execCreditReturnEntry]
  split
  · exact h
  · rename_i src e s e
    have h1 := h.of_takeEntry e
    exact h1.setGrant

theorem Keeps.execCreditBusyEntry (h : Keeps u s) : KeepsOutcome u (execCreditBusyEntry s) := by
  simp only [Machine.execCreditBusyEntry]
  split
  · exact h
  · rename_i src e s e
    have h1 := h.of_takeEntry e
    split
    · exact h1.setVoq.touchVoqs
    · exact h1

theorem Keeps.execProbeEntry (h : Keeps u s) : KeepsOutcome u (execProbeEntry s) := by
  simp only [Machine.execProbeEntry]
  split
  · exact h
  · rename_i src e s e
    have h1 := h.of_takeEntry e
    exact h1.gatherEntry

theorem Keeps.execProbeAnswerEntry (h : Keeps u s) : KeepsOutcome u (execProbeAnswerEntry s) := by
  simp only [Machine.execProbeAnswerEntry]
  split
  · exact h
  · rename_i src e s e
    have h1 := h.of_takeEntry e
    exact KeepsOutcome.ite h1.setDestRec (KeepsOutcome.ite (Keeps.ite h1.setDestRec h1.setDestRec.enterDest.touchVoqs)
      (Keeps.ite h1.setDestRec h1.setDestRec.enterDest.touchVoqs))

theorem Keeps.execBeaconSend (h : Keeps u s) : KeepsOutcome u (execBeaconSend s) := by
  unfold Machine.execBeaconSend
  extract_lets n s1
  have h1 : Keeps u s1 := h.foldl (fun h1 => Keeps.ite h1 h1.sendControlPennant)
  clear_value s1 n
  refine KeepsOutcome.ite ?_ h
  exact h1.same rfl

theorem Keeps.missCheck {d : Nat} (h : Keeps u s) : Keeps u (missCheck s d) := h.setDestRec.routeChanged

theorem Keeps.execBeaconMissCheck (h : Keeps u s) : KeepsOutcome u (execBeaconMissCheck s) :=
  KeepsOutcome.ite (h.foldl (fun h1 => h1.missCheck)) h

theorem Keeps.execProbeSend {dest : Nat} (h : Keeps u s) : KeepsOutcome u (execProbeSend dest s) := KeepsOutcome.ite h.probeDest h

theorem Keeps.execProbeUnanswered {dest : Nat} (h : Keeps u s) : KeepsOutcome u (execProbeUnanswered dest s) := by
  simp only [Machine.execProbeUnanswered]
  split
  · exact h
  · exact KeepsOutcome.ite h.enterDest h

theorem Keeps.execCreditPennantSend {dest : Nat} (h : Keeps u s) : KeepsOutcome u (execCreditPennantSend dest s) := by
  unfold Machine.execCreditPennantSend
  extract_lets _
  refine KeepsOutcome.ite h ?_
  split
  · exact h
  · extract_lets gone
    have hg : Keeps u gone := h.same rfl
    refine KeepsOutcome.ite hg ?_
    split
    · exact h
    · rename_i e
      exact Keeps.setBundle (hg.of_spray e)

theorem Keeps.execGrantIssue {port : Nat} (h : Keeps u s) : KeepsOutcome u (execGrantIssue port s) := by
  simp only [Machine.execGrantIssue]
  split
  · exact h
  · exact KeepsOutcome.ite h (Keeps.gatherEntry (Keeps.setGrant (h.same rfl)))

theorem Keeps.execCreditReturnTimer {queue : Nat} (h : Keeps u s) : KeepsOutcome u (execCreditReturnTimer queue s) := by
  simp only [Machine.execCreditReturnTimer]
  split
  · exact KeepsOutcome.ite (Keeps.touchVoqs (Keeps.returnBytes (h.same rfl))) h
  · exact h

theorem Keeps.execCreditRequestTimeout {queue : Nat} (h : Keeps u s) : KeepsOutcome u (execCreditRequestTimeout queue s) :=
  KeepsOutcome.ite (Keeps.touchVoqs (Keeps.raise (Keeps.count1 (h.same rfl)))) h

theorem Keeps.endOut {i : Nat} (h : Keeps u s) : Keeps u (endOut s i) := by
  unfold Machine.endOut
  split
  · exact h
  · extract_lets lost _ _ s1
    have h1 : Keeps u lost := by
      unfold lost
      split
      · exact h.readPot
      · exact h
    have h2 : Keeps u s1 := h1.same rfl
    exact h2.releaseRef

theorem Keeps.afterCut {c : Cut} (h : Keeps u s) : Keeps u (afterCut s c) := by
  simp only [Machine.afterCut]
  split
  · exact (h.foldl (fun h1 => h1.endOut)).same rfl
  · exact h.foldl (fun h2 => h2.endOut)

theorem Keeps.sendMulticast {i : Nat} {o : Out} (h : Keeps u s) : Keeps u (sendMulticast s i o) := by
  simp only [Machine.sendMulticast]
  split
  · exact h
  · exact Keeps.ite h (Keeps.afterCut ((h.foldl (fun h1 => h1.setBundle)).same rfl))

theorem Keeps.of_sendStart {d : Nat} (h : Keeps u s) (e : sendStart s d = some t) : Keeps u t := by
  simp only [Machine.sendStart] at e
  repeat' split at e
  all_goals cases e
  · exact h
  · exact (h.foldl (fun h1 => h1.sendControlPennant)).setDestRec

theorem Keeps.sendUnicast {q : Nat} {o : Out} {line : List (Nat × Out)} (h : Keeps u s) : Keeps u (sendUnicast s q o line) := by
  simp only [Machine.sendUnicast]
  split
  · exact h.dropOut
  · split
    · exact h
    · split
      · exact h
      · split
        · exact h
        · rename_i t e
          have h1 := h.of_sendStart e
          split
          · exact h
          · rename_i b s e
            have h2 := h1.of_spray e
            exact Keeps.afterCut (h2.same rfl)

theorem Keeps.execPennantSend {queue : Nat} (h : Keeps u s) : KeepsOutcome u (execPennantSend queue s) := by
  simp only [Machine.execPennantSend]
  split
  · exact h
  · exact KeepsOutcome.ite h (KeepsOutcome.ite h.sendMulticast.touchVoqs h.sendUnicast.touchVoqs)

theorem Keeps.execReorderTimeout {src : Nat} (h : Keeps u s) : KeepsOutcome u (execReorderTimeout src s) := by
  simp only [Machine.execReorderTimeout]
  split
  · exact h
  · exact KeepsOutcome.ite (KeepsOutcome.ite h.openCtx.touchVoqs h) (KeepsOutcome.ite (KeepsOutcome.ite h.declareLost.touchVoqs h) h)

theorem Keeps.execReassemblyTimeout {src : Nat} {group : Option Nat} (h : Keeps u s) : KeepsOutcome u
    (execReassemblyTimeout src group s) := by
  simp only [Machine.execReassemblyTimeout]
  split
  · exact h
  · exact KeepsOutcome.ite h.dropAssembly.touchVoqs h

theorem Keeps.execFtDeviceIdWrite {client : Client} {value : Nat} (h : Keeps u s) : KeepsOutcome u (execFtDeviceIdWrite client value s) :=
  h.writeRow (fun h1 => h1.wDeviceId)

theorem Keeps.ledgerResidue (h : Keeps u s) : Keeps u (ledgerResidue s) := Keeps.raise (h.residueMismatch.same rfl)

theorem Keeps.execLedgerEpochBoundary (h : Keeps u s) : KeepsOutcome u (execLedgerEpochBoundary s) :=
  KeepsOutcome.ite (KeepsOutcome.ite (Keeps.same (Keeps.ite h.ledgerResidue h) rfl)
    (Keeps.raise (Keeps.setReg (Keeps.count1 (Keeps.same (Keeps.ite h.ledgerResidue h) rfl))))) h

theorem Keeps.execPerfSelectWrite {client : Client} {counter value : Nat} (h : Keeps u s) : KeepsOutcome u
    (execPerfSelectWrite client counter value s) :=
  h.writeRow (fun h1 => h1.wPerfSelect)

theorem Keeps.execPerfCounterWrite {client : Client} {counter value : Nat} (h : Keeps u s) : KeepsOutcome u
    (execPerfCounterWrite client counter value s) :=
  h.writeRow (fun h1 => h1.wPerfCounter)

theorem Keeps.execPerfCounterWrap {counter : Nat} (h : Keeps u s) : KeepsOutcome u (execPerfCounterWrap counter s) :=
  KeepsOutcome.ite h.perfAdd h

theorem Keeps.execBwWindowEnd {port : Nat} (h : Keeps u s) : KeepsOutcome u (execBwWindowEnd port s) :=
  KeepsOutcome.ite (Keeps.same (Keeps.ite h h.setReg.setReg.count32) rfl) h

theorem Keeps.execBwWindowKWrite {client : Client} {port value : Nat} (h : Keeps u s) : KeepsOutcome u
    (execBwWindowKWrite client port value s) :=
  h.writeRow (fun h1 => h1.wBwWindowK)

theorem Keeps.execQwmValueRead {client : Client} (h : Keeps u s) : KeepsOutcome u (execQwmValueRead client s) :=
  h.readRow (fun h1 => h1.setQueue)

theorem Keeps.execHistSample {monitor : Nat} (h : Keeps u s) : KeepsOutcome u (execHistSample monitor s) :=
  KeepsOutcome.ite (h.same rfl) h

theorem Keeps.execHistClear {client : Client} {monitor value : Nat} (h : Keeps u s) : KeepsOutcome u
    (execHistClear client monitor value s) :=
  h.writeRow (fun h1 => h1.wHistClear)

theorem Keeps.execSojClear {client : Client} {port value : Nat} (h : Keeps u s) : KeepsOutcome u (execSojClear client port value s) :=
  h.writeRow (fun h1 => h1.wSojClear)

theorem Keeps.execEnsignSnapshot (h : Keeps u s) : KeepsOutcome u (execEnsignSnapshot s) :=
  KeepsOutcome.ite (h.foldl (fun h1 => h1.ensRecord)) h

theorem Keeps.placeOwn {origin : Origin} {q desc : Nat} {data : List Byte} (h : Keeps u s) : Keeps u (placeOwn s origin q desc data) :=
  Keeps.ite (Keeps.touchVoqs (Keeps.enqueueArrival (h.same rfl))) (Keeps.discardArrival (Keeps.raise (Keeps.count1 (h.same rfl))))

theorem Keeps.sendEnsign {sets : List Byte} (h : Keeps u s) : Keeps u (sendEnsign s sets) := Keeps.placeOwn (h.same rfl)

theorem Keeps.execEnsignMessageSend (h : Keeps u s) : KeepsOutcome u (execEnsignMessageSend s) := by
  simp only [Machine.execEnsignMessageSend]
  split
  · exact h
  · exact KeepsOutcome.ite (Keeps.countBy (h.sendEnsign.same rfl)) h

theorem Keeps.execEnsignTemplateSend (h : Keeps u s) : KeepsOutcome u (execEnsignTemplateSend s) :=
  KeepsOutcome.ite (h.sendEnsign.same rfl) h

theorem Keeps.execEnsEnableWrite {client : Client} {value : Nat} (h : Keeps u s) : KeepsOutcome u (execEnsEnableWrite client value s) :=
  h.writeRow (fun h1 => h1.wEnsEnable)

theorem Keeps.wMirrorSession {n : Nat} {b : List Byte} (h : Keeps u s) : KeepsApplied u (wMirrorSession n b s) :=
  KeepsApplied.ite .fail (KeepsApplied.ite .fail h.setBlk.applied)

theorem Keeps.execMirrorSessionWrite {client : Client} {session : Nat} {value : List Byte} (h : Keeps u s) : KeepsOutcome u
    (execMirrorSessionWrite client session value s) :=
  h.commitRow (fun h1 => h1.wMirrorSession)

theorem Keeps.gatherEvent {e : FwEvent} {i : Nat} (h : Keeps u s) : Keeps u (gatherEvent s e i) := Keeps.ite (h.same rfl) h

theorem Keeps.execFwEventTake (h : Keeps u s) : KeepsOutcome u (execFwEventTake s) := by
  simp only [Machine.execFwEventTake]
  split
  · exact h
  · exact KeepsOutcome.ite (Keeps.foldl (h.same rfl) (fun h1 => h1.gatherEvent)) h

theorem Keeps.execCauseEnableWrite {client : Client} {entry value : Nat} (h : Keeps u s) : KeepsOutcome u
    (execCauseEnableWrite client entry value s) := by
  simp only [Machine.execCauseEnableWrite]
  split
  · exact h.writeRow (fun h1 => h1.writeCauseEnable.applied)
  · exact h

theorem Keeps.execCauseClear {client : Client} {entry value : Nat} (h : Keeps u s) : KeepsOutcome u
    (execCauseClear client entry value s) := by
  simp only [Machine.execCauseClear]
  split
  · exact h.writeRow (fun h1 => h1.clearCause.applied)
  · exact h

theorem Keeps.execEvtStickyClear {client : Client} {source value : Nat} (h : Keeps u s) : KeepsOutcome u
    (execEvtStickyClear client source value s) :=
  h.writeRow (fun h1 => h1.wSticky)

theorem Keeps.execEvtGroupStickyClear {client : Client} {group value : Nat} (h : Keeps u s) : KeepsOutcome u
    (execEvtGroupStickyClear client group value s) :=
  h.writeRow (fun h1 => h1.wGroupSticky)

theorem Keeps.execEvtMaskWrite {client : Client} {source value : Nat} (h : Keeps u s) : KeepsOutcome u
    (execEvtMaskWrite client source value s) :=
  h.writeRow (fun h1 => h1.wMask)

theorem Keeps.execEvtGroupMaskWrite {client : Client} {group value : Nat} (h : Keeps u s) : KeepsOutcome u
    (execEvtGroupMaskWrite client group value s) :=
  h.writeRow (fun h1 => h1.wGroupMask)

theorem Keeps.execEvtRouteWrite {client : Client} {source value : Nat} (h : Keeps u s) : KeepsOutcome u
    (execEvtRouteWrite client source value s) :=
  h.writeRow (fun h1 => h1.wRoute)

theorem Keeps.execEvtTestRaise {client : Client} {value : Nat} (h : Keeps u s) : KeepsOutcome u (execEvtTestRaise client value s) :=
  h.writeRow (fun h1 => h1.wTestRaise)

theorem Keeps.execEvtFwQueueHighRead {client : Client} (h : Keeps u s) : KeepsOutcome u (execEvtFwQueueHighRead client s) :=
  h.readRow (fun h1 => h1.setReg)

theorem Keeps.gpioIn (h : Keeps u s) : Keeps u (gpioIn s).2 := h.freeBits (w := 32)

theorem Keeps.readLeaves {c : Client} {k : Nat} (h : Keeps u s) : Keeps u (readLeaves s c k) := by
  simp only [Machine.readLeaves]
  split
  · exact h.setReg
  · split
    · exact h.same rfl
    · split
      · exact h.same rfl
      · split
        · exact Keeps.ite h.setReg h
        · exact h

theorem Keeps.readEntry {c : Client} {k : Nat} (h : Keeps u s) : Keeps u (readEntry s c k).2 := by
  simp only [Machine.readEntry]
  split
  · exact h
  · exact Keeps.iteSnd h (Keeps.iteSnd h (Keeps.iteSnd h.gpioIn h.readLeaves))

theorem Keeps.barRead {fn off n : Nat} (h : Keeps u s) : Keeps u (barRead s fn off n).2 := by
  simp only [Machine.barRead]
  split
  · exact h
  · split
    · exact h.noteFailure
    · split
      · exact h.noteFailure
      · split
        · exact h
        · split
          · exact h
          · exact h
          · exact h.readEntry

theorem Keeps.execOdAccessStatusRead {fn width : Nat} (h : Keeps u s) : KeepsOutcome u (execOdAccessStatusRead fn width s) :=
  KeepsOutcome.ite h h.barRead.emit

theorem Keeps.execMbDoorbell {client : Client} {value : Nat} (h : Keeps u s) : KeepsOutcome u (execMbDoorbell client value s) :=
  h.writeRow (fun h1 => h1.wDoorbell)

theorem Keeps.runRequest {x : Ctx} {f : Handler} {m : List Byte} {mk : Reply → List Byte} (h : Keeps u s)
    (hf : ∀ {s x b}, Keeps u s → Keeps u (f s x b).2) : Keeps u (runRequest s x f m mk).2 := by
  simp only [Machine.runRequest]
  split
  · exact hf h
  · exact Keeps.iteSnd h (hf h)

theorem Keeps.mailboxRespond {fn : Nat} {r : List Byte} (h : Keeps u s) : Keeps u (mailboxRespond s fn r) :=
  Keeps.ite h.setMailbox.raise h.setMailbox.raise

theorem Keeps.serveMailbox {fn : Nat} {kind : List Byte → Bool} {f : Handler} (h : Keeps u s)
    (hf : ∀ {s x b}, Keeps u s → Keeps u (f s x b).2) : Keeps u (serveMailbox s fn kind f) := by
  simp only [Machine.serveMailbox]
  split
  · exact h
  · split
    · exact (h.runRequest hf).mailboxRespond.afterResponse
    · exact (h.runRequest hf).setMailbox

theorem Keeps.of_channelHead {b : Nat} {x : List Byte × State} (h : Keeps u s) (e : channelHead s b = some x) : Keeps u x.2 := by
  simp only [Machine.channelHead] at e
  repeat' split at e
  all_goals cases e
  exact h.setBundle

theorem Keeps.of_takeMessage {via : Via} {kind : List Byte → Bool} {x : Nat × List Byte × List Byte × State} (h : Keeps u s)
    (e : takeMessage s via kind = some x) : Keeps u x.2.2.2 := by
  simp only [Machine.takeMessage] at e
  split at e
  · cases e
  · split at e <;> cases e
    exact h
  · split at e
    · rename_i hc
      split at e <;> cases e
      exact h.of_channelHead hc
    · cases e

theorem Keeps.channelSend {b : Nat} {m : List Byte} (h : Keeps u s) : Keeps u (channelSend s b m) := Keeps.ite h.setBundle h

theorem Keeps.sendAt {place : Nat} {peer m : List Byte} (h : Keeps u s) : Keeps u (sendAt s place peer m) :=
  Keeps.ite h.channelSend h.emit

theorem Keeps.answerAt {place : Nat} {peer : List Byte} (h : Keeps u r.2) : Keeps u (answerAt r place peer) := by
  simp only [Machine.answerAt]
  split
  · exact h.sendAt
  · exact h

theorem Keeps.authFailed (h : Keeps u s) : Keeps u (authFailed s) := h.count1.raise

theorem Keeps.replayed (h : Keeps u s) : Keeps u (replayed s) := h.count1.raise

theorem Keeps.cacheResponse {id seq : Nat} {r : List Byte} (h : Keeps u s) : Keeps u (cacheResponse s id seq r) := by
  simp only [Machine.cacheResponse]
  split
  · exact h.same rfl
  · exact h

theorem Keeps.serveSession {place : Nat} {peer : List Byte} {limit : Nat} {f : Handler} {m : List Byte} (h : Keeps u s)
    (hf : ∀ {s x b}, Keeps u s → Keeps u (f s x b).2) : Keeps u (serveSession s place peer limit f m).2 := by
  simp only [Machine.serveSession]
  split
  · exact h
  · split
    · exact h.authFailed
    · split
      · exact h
      · split
        · split
          · exact h.same rfl
          · exact h.replayed
        · split
          · exact Keeps.cacheResponse (Keeps.runRequest (h.same rfl) hf)
          · exact Keeps.runRequest (h.same rfl) hf

theorem Keeps.serveBody {via : Via} {ty : Nat} {f : Handler} (h : Keeps u s) (hf : ∀ {s x b}, Keeps u s → Keeps u (f s x b).2) :
    Keeps u (serveBody s via ty f) := by
  simp only [Machine.serveBody]
  split
  · exact h.serveMailbox hf
  · split
    · exact h
    · rename_i e
      have ht := h.of_takeMessage e
      exact Keeps.ite (ht.serveSession hf).answerAt.afterResponse ht

theorem Keeps.badBody {st : Status} (h : Keeps u s) : Keeps u (badBody s st).2 := h

theorem Keeps.readBytes {c : Client} {k : Nat} (h : Keeps u s) : Keeps u (readBytes s c k).2 := by
  simp only [Machine.readBytes]
  split
  · exact h
  · split
    · exact h
    · exact h.readEntry

theorem Keeps.readItem {c : Client} {k : Nat} (h : Keeps u s) : Keeps u (readItem s c k).2 := by
  simp only [Machine.readItem]
  split
  · exact h.noteFailure
  · exact h.readBytes

theorem Keeps.readBody {x : Ctx} {b : List Byte} (h : Keeps u s) : Keeps u (readBody s x b).2 :=
  Keeps.iteSnd h (Keeps.iteSnd h (h.foldlSnd (fun h1 => h1.readItem)))

theorem Keeps.execSynsaRead {via : Via} (h : Keeps u s) : KeepsOutcome u (execSynsaRead via s) := h.serveBody (fun h1 => h1.readBody)

theorem Keeps.stringWrite {k n : Nat} {v : List Byte} (h : Keeps u s) : KeepsApplied u (stringWrite k n v s) :=
  Keeps.applied (Keeps.ite h.setBlk.touchPath h.setBlk)

theorem Keeps.typedWrite {c : Client} {k : Nat} {v : List Byte} (h : Keeps u s) : KeepsApplied u (typedWrite s c k v) := by
  unfold Machine.typedWrite
  split
  · exact .fail
  · refine KeepsApplied.ite .fail (KeepsApplied.ite .fail ?_)
    split
    · refine KeepsApplied.ite .fail ?_
      split
      · exact .fail
      · exact h.stringWrite
    · exact KeepsApplied.ite .fail (h.checkedWrite (fun h1 => h1.entryWrite))

theorem Keeps.writeBody {x : Ctx} {b : List Byte} (h : Keeps u s) : Keeps u (writeBody s x b).2 := by
  simp only [Machine.writeBody]
  split
  · exact h
  · split
    · exact h
    · refine Keeps.foldlSnd h (fun h1 => ?_)
      split
      · rename_i s e
        have h2 : Keeps u s := KeepsApplied.of_eq h1.typedWrite e
        exact h2
      · exact h1.noteFailure

theorem Keeps.execSynsaWrite {via : Via} (h : Keeps u s) : KeepsOutcome u (execSynsaWrite via s) := h.serveBody (fun h1 => h1.writeBody)

theorem Keeps.failed {c : Client} {k : Nat} {st : Status} (h : Keeps u s) : Keeps u (failed s c k st).2 := h.noteFailure

theorem Keeps.freshNumber {w tries : Nat} {taken : Nat → Bool} (h : Keeps u s) : Keeps u (freshNumber s w tries taken).2 :=
  h.freeBits (w := w)

theorem Keeps.domainBeginBody {x : Ctx} {b : List Byte} (h : Keeps u s) : Keeps u (domainBeginBody s x b).2 := by
  simp only [Machine.domainBeginBody]
  split
  · exact h
  · split
    · exact h.failed
    · exact h.freshNumber.same rfl

theorem Keeps.execDomainBegin {via : Via} (h : Keeps u s) : KeepsOutcome u (execDomainBegin via s) :=
  h.serveBody (fun h1 => h1.domainBeginBody)

theorem Keeps.domainSegmentBody {x : Ctx} {b : List Byte} (h : Keeps u s) : Keeps u (domainSegmentBody s x b).2 := by
  simp only [Machine.domainSegmentBody]
  split
  · exact h
  · split
    · exact h
    · exact Keeps.iteSnd h.failed (Keeps.iteSnd h.failed (Keeps.iteSnd (Keeps.iteSnd h.failed (h.same rfl)) (Keeps.iteSnd h.failed
        (h.same rfl))))

theorem Keeps.execDomainSegment {via : Via} (h : Keeps u s) : KeepsOutcome u (execDomainSegment via s) :=
  h.serveBody (fun h1 => h1.domainSegmentBody)

theorem Keeps.dropTransfer {h' : Nat} (h : Keeps u s) : Keeps u (dropTransfer s h') := h.same rfl

theorem Keeps.readCommitted {k pos total : Nat} (h : Keeps u s) : Keeps u (readCommitted s k pos total) :=
  Keeps.ite (h.same rfl) (Keeps.ite (Keeps.ite h.count32 h) (Keeps.ite h.setPort h))

theorem Keeps.wDeviceKey {c : Client} {b : List Byte} (h : Keeps u s) : KeepsApplied u (wDeviceKey c b s) :=
  KeepsApplied.ite .fail (KeepsApplied.ite h.applied (h.cwBegin.bind (fun h1 => Keeps.applied (h1.same rfl))))

theorem Keeps.wStaged {b : List Byte} (h : Keeps u s) : KeepsApplied u (wStaged b s) :=
  KeepsApplied.ite .fail (KeepsApplied.ite .fail h.setBlk.setReg.applied)

theorem Keeps.wI2c {m : Nat} {b : List Byte} (h : Keeps u s) : KeepsApplied u (wI2c m b s) :=
  KeepsApplied.ite .fail (KeepsApplied.ite .fail (Keeps.applied (h.same rfl)))

theorem Keeps.wMdio {m : Nat} {b : List Byte} (h : Keeps u s) : KeepsApplied u (wMdio m b s) :=
  KeepsApplied.ite .fail (KeepsApplied.ite .fail (Keeps.applied (h.same rfl)))

theorem Keeps.boardCommit {k : Nat} {b : List Byte} (h : Keeps u s) : KeepsApplied u (boardCommit k b s) :=
  KeepsApplied.iteRule h.wI2c h.wMdio

theorem Keeps.wOdGrant {v : Nat} {b : List Byte} (h : Keeps u s) : KeepsApplied u (wOdGrant v b s) :=
  KeepsApplied.ite .fail (KeepsApplied.ite .fail h.setBlk.applied)

theorem Keeps.wDirtyRegions {v : Nat} {b : List Byte} (h : Keeps u s) : KeepsApplied u (wDirtyRegions v b s) :=
  KeepsApplied.ite .fail h.setBlk.applied

theorem Keeps.hostCommit {k : Nat} {b : List Byte} (h : Keeps u s) : KeepsApplied u (hostCommit k b s) :=
  KeepsApplied.iteRule h.wOdGrant h.wDirtyRegions

theorem Keeps.wFlexeCalendar {p : Nat} {b : List Byte} (h : Keeps u s) : KeepsApplied u (wFlexeCalendar p b s) :=
  KeepsApplied.ite .fail (KeepsApplied.ite .fail (KeepsApplied.ite .fail h.setBlk.applied))

theorem Keeps.ftCommit {k : Nat} {b : List Byte} (h : Keeps u s) : KeepsApplied u (ftCommit k b s) :=
  KeepsApplied.ite .fail (KeepsApplied.ite .fail (Keeps.applied (h.same rfl)))

theorem Keeps.clsCommit {k : Nat} {b : List Byte} (h : Keeps u s) : KeepsApplied u (clsCommit k b s) :=
  KeepsApplied.iteRule h.wStagePlan (KeepsApplied.iteRule h.wDirectTable (KeepsApplied.iteRule h.wRewriteProfiles .fail))

theorem Keeps.lkpCommit {k : Nat} {b : List Byte} (h : Keeps u s) : KeepsApplied u (lkpCommit k b s) :=
  KeepsApplied.iteRule h.commitLoad .fail

theorem Keeps.aseCommit {k : Nat} {b : List Byte} (h : Keeps u s) : KeepsApplied u (aseCommit k b s) :=
  KeepsApplied.iteRule h.commitLoad .fail

theorem Keeps.mcCommit {k : Nat} {b : List Byte} (h : Keeps u s) : KeepsApplied u (mcCommit k b s) :=
  KeepsApplied.iteRule h.wMtrConfig (KeepsApplied.iteRule h.commitLoad .fail)

theorem Keeps.wPortMap {b : List Byte} (h : Keeps u s) : KeepsApplied u (wPortMap b s) :=
  KeepsApplied.ite .fail (KeepsApplied.ite h.setBlk.applied .fail)

theorem Keeps.pmCommit {k : Nat} {b : List Byte} (h : Keeps u s) : KeepsApplied u (pmCommit k b s) := by
  suffices ∀ f, Machine.pmCommit k b = f → KeepsApplied u (f s) from this _ rfl
  intro f hf
  unfold Machine.pmCommit at hf
  split at hf
  all_goals subst hf
  · exact h.wAdmProfile
  · exact h.wPortMap
  · exact .fail

theorem Keeps.storeBlock {k n : Nat} {b : List Byte} (h : Keeps u s) : KeepsApplied u (storeBlock k n b s) :=
  KeepsApplied.ite h.setBlk.applied .fail

theorem Keeps.hbmCommit {k : Nat} {b : List Byte} (h : Keeps u s) : KeepsApplied u (hbmCommit k b s) := by
  suffices ∀ f, Machine.hbmCommit k b = f → KeepsApplied u (f s) from this _ rfl
  intro f hf
  unfold Machine.hbmCommit at hf
  split at hf
  all_goals subst hf
  · exact KeepsApplied.ite h.setBlk.applied .fail
  · exact h.storeBlock
  · exact h.storeBlock
  · exact h.storeBlock
  · exact h.storeBlock
  · exact .fail

theorem Keeps.wClassMaps {b : List Byte} (h : Keeps u s) : KeepsApplied u (wClassMaps b s) :=
  KeepsApplied.ite .fail (KeepsApplied.ite (Keeps.applied (h.same rfl)) .fail)

theorem Keeps.wAqmProfile {n : Nat} {b : List Byte} (h : Keeps u s) : KeepsApplied u (wAqmProfile n b s) :=
  KeepsApplied.ite .fail (KeepsApplied.ite .fail h.setBlk.applied)

theorem Keeps.qmCommit {k : Nat} {b : List Byte} (h : Keeps u s) : KeepsApplied u (qmCommit k b s) := by
  suffices ∀ f, Machine.qmCommit k b = f → KeepsApplied u (f s) from this _ rfl
  intro f hf
  unfold Machine.qmCommit at hf
  split at hf
  all_goals subst hf
  · exact h.wSchConfig
  · exact h.commitLoad
  · exact h.wClassMaps
  · exact h.wAqmProfile
  · exact .fail

theorem Keeps.obsCommit {k : Nat} {b : List Byte} (h : Keeps u s) : KeepsApplied u (obsCommit k b s) :=
  KeepsApplied.ite h.wMirrorSession (KeepsApplied.ite (KeepsApplied.ite h.setBlk.applied.ensWritten .fail)
    (KeepsApplied.ite (KeepsApplied.ite .fail (KeepsApplied.ite .fail h.setBlk.applied.ensWritten)) .fail))

theorem Keeps.domainCommit {c : Client} {k : Nat} {b : List Byte} (h : Keeps u s) : KeepsApplied u (domainCommit c k b s) :=
  KeepsApplied.iteRule (KeepsApplied.ite .fail (KeepsApplied.ite .fail h.setBlk.applied))
    (KeepsApplied.iteRule h.wDeviceKey (KeepsApplied.iteRule h.wStaged
    (KeepsApplied.iteRule h.boardCommit (KeepsApplied.iteRule h.hostCommit
    (KeepsApplied.iteRule h.wFlexeCalendar (KeepsApplied.iteRule h.ftCommit
    (KeepsApplied.iteRule h.clsCommit (KeepsApplied.iteRule h.lkpCommit
    (KeepsApplied.iteRule h.aseCommit (KeepsApplied.iteRule h.mcCommit
    (KeepsApplied.iteRule h.pmCommit (KeepsApplied.iteRule h.hbmCommit (KeepsApplied.iteRule h.qmCommit h.obsCommit)))))))))))))

theorem Keeps.domainEndBody {x : Ctx} {b : List Byte} (h : Keeps u s) : Keeps u (domainEndBody s x b).2 := by
  unfold Machine.domainEndBody
  extract_lets n act done t
  have ht : Keeps u t := h.dropTransfer
  have hd : ∀ {v}, Keeps u v → Keeps u (done v).2 := id
  clear_value done
  refine Keeps.iteSnd h ?_
  split
  · exact h
  · refine Keeps.iteSnd h.failed (Keeps.iteSnd (hd ht) (Keeps.iteSnd (hd ht.readCommitted) (Keeps.iteSnd h.failed ?_)))
    split
    · exact h.failed
    · split
      · rename_i e
        exact hd (ht.domainCommit.of_eq e)
      · exact h.failed

theorem Keeps.execDomainEnd {via : Via} (h : Keeps u s) : KeepsOutcome u (execDomainEnd via s) := h.serveBody (fun h1 => h1.domainEndBody)

theorem Keeps.startSave (h : Keeps u s) : KeepsApplied u (startSave s) :=
  KeepsApplied.ite .fail (Keeps.applied (Keeps.jobBegin (h.same rfl)))

theorem Keeps.startErase (h : Keeps u s) : KeepsApplied u (startErase s) := KeepsApplied.ite .fail h.jobBegin.applied

theorem Keeps.beginInstall (h : Keeps u s) : Keeps u (beginInstall s) := Keeps.ite h.jobBegin.jobEnd (h.jobBegin.setReg.same rfl)

theorem Keeps.entryBegin (h : Keeps u s) : Keeps u (entryBegin s) := Keeps.setReg (h.same rfl)

theorem Keeps.startEntry (h : Keeps u s) : KeepsApplied u (startEntry s) :=
  KeepsApplied.ite .fail (KeepsApplied.ite h.jobBegin.jobEnd.applied h.jobBegin.entryBegin.applied)

theorem Keeps.setTargets (h : Keeps u s) : Keeps u (setTargets s) := h.same rfl

theorem Keeps.startExit (h : Keeps u s) : KeepsApplied u (startExit s) :=
  KeepsApplied.ite .fail (KeepsApplied.ite .fail (KeepsApplied.ite h.jobBegin.jobEnd.applied (Keeps.applied (Keeps.setTargets
    (Keeps.setReg (h.jobBegin.same rfl))))))

theorem Keeps.dpBegin (h : Keeps u s) : Keeps u (dpBegin s) := h.same rfl

theorem Keeps.startIslReset (h : Keeps u s) : KeepsApplied u (startIslReset s) :=
  KeepsApplied.ite .fail (KeepsApplied.ite .fail (Keeps.applied (h.same rfl)))

theorem Keeps.pwrStart {k : Nat} (h : Keeps u s) : KeepsApplied u (pwrStart k s) :=
  KeepsApplied.ite h.startEntry (KeepsApplied.ite h.startExit
    (KeepsApplied.ite (KeepsApplied.ite .fail h.jobBegin.dpBegin.applied) (h.startIslReset.bind (fun h1 => h1.jobBegin.applied))))

theorem Keeps.thenBegin {k : Nat} {rule : State → Applied} (h : Keeps u s) (hr : ∀ {s}, Keeps u s → KeepsApplied u (rule s)) :
    KeepsApplied u (thenBegin k rule s) := (hr h).bind (fun h1 => h1.jobBegin.applied)

theorem Keeps.dropPunt {i : Nat} (h : Keeps u s) : Keeps u (dropPunt s i) := h.same rfl

theorem Keeps.hostWrite {fn a : Nat} {b : List Byte} (h : Keeps u s) : Keeps u (hostWrite s fn a b) :=
  Keeps.ite h.emit (h.emit.foldl (fun h1 => h1.foldl (fun h2 => h2.emit)))

theorem Keeps.ringFinish {fn : Nat} {inj : Bool} {r count : Nat} (h : Keeps u s) : Keeps u (ringFinish s fn inj r count) :=
  h.setFnReg.hostWrite.setRing

theorem Keeps.puntData {i : Nat} {c : PuntCtx} {p : Pkt} {n : Nat} (h : Keeps u s) : Keeps u (puntData s i c p n) :=
  Keeps.ite h.readPot.dropOut.dropPunt (h.readPot.hostWrite.same rfl)

theorem Keeps.puntDone {i : Nat} {o : Out} (h : Keeps u s) : Keeps u (puntDone s i o) := Keeps.releaseRef (h.same rfl)

theorem Keeps.puntWrite {i : Nat} (h : Keeps u s) : Keeps u (puntWrite s i) := by
  simp only [Machine.puntWrite]
  split
  · exact h
  · split
    · exact Keeps.ite h.dropOut.count1.dropPunt h.dropPunt
    · split
      · exact h.ringFinish.dropPunt
      · split
        · exact h.dropPunt
        · exact Keeps.ite h.puntData (Keeps.ite h (Keeps.ite (Keeps.puntDone (h.hostWrite.same rfl)) (h.hostWrite.same rfl)))

theorem Keeps.hostPart {p : HostState} (h : Keeps u s) : Keeps u { s with host := p } := h.same rfl

theorem Keeps.fnStop {fn : Nat} (h : Keeps u s) : Keeps u (fnStop s fn) := by
  unfold Machine.fnStop
  refine Keeps.foldl ?_ (fun h1 => h1.freeUnits.hostPart)
  refine Keeps.foldl ?_ (fun h1 => h1.puntWrite)
  refine Keeps.hostPart (Keeps.setFnReg ?_)
  exact h.setReg.foldl (fun h1 => h1.setFnReg.setFnReg)

theorem Keeps.vfResetBegin {v : Nat} (h : Keeps u s) : Keeps u (vfResetBegin s v) := Keeps.fnStop (h.same rfl)

theorem Keeps.lkpStart {k : Nat} (h : Keeps u s) : KeepsApplied u (lkpStart k s) := KeepsApplied.iteRule h.startLkpApply h.startPivotMove

theorem Keeps.mcStart {k : Nat} (h : Keeps u s) : KeepsApplied u (mcStart k s) := KeepsApplied.iteRule h.startLoadJob h.startSweep

theorem Keeps.hbmStart {k : Nat} (h : Keeps u s) : KeepsApplied u (hbmStart k s) := by
  simp only [Machine.hbmStart]
  split
  · exact h.startHbmInit
  · exact h.startHbmOffline.bind (fun h1 => h1.jobBegin.applied)
  · exact h.startCapture
  · exact .fail

theorem Keeps.jobRule {k : Nat} (h : Keeps u s) : KeepsApplied u (jobRule k s) :=
  KeepsApplied.iteRule h.startSave (KeepsApplied.iteRule h.startErase
    (KeepsApplied.iteRule h.beginInstall.applied (KeepsApplied.iteRule h.pwrStart (KeepsApplied.iteRule (h.thenBegin (fun h1 =>
    KeepsApplied.ite .fail h1.vfResetBegin.applied)) (KeepsApplied.iteRule (h.thenBegin (fun h2 => h2.startCalSwitch))
    (KeepsApplied.iteRule h.startLaneSetChange (KeepsApplied.iteRule (h.thenBegin (fun h3 => h3.startSwap)) (KeepsApplied.iteRule
    (h.thenBegin (fun h4 => h4.lkpStart)) (KeepsApplied.iteRule (h.thenBegin (fun h5 => h5.startAseApply))
    (KeepsApplied.iteRule (h.thenBegin (fun h6 => h6.mcStart))
    (KeepsApplied.iteRule h.hbmStart (h.thenBegin (fun h7 => h7.startLoadJob)))))))))))))

theorem Keeps.jobStartBody {x : Ctx} {b : List Byte} (h : Keeps u s) : Keeps u (jobStartBody s x b).2 := by
  simp only [Machine.jobStartBody]
  split
  · exact h
  · split
    · rename_i s e
      have h1 : Keeps u s := KeepsApplied.of_eq (h.jobStart (fun h2 => h2.jobRule)) e
      exact h1
    · exact h.failed

theorem Keeps.execJobStart {via : Via} (h : Keeps u s) : KeepsOutcome u (execJobStart via s) := h.serveBody (fun h1 => h1.jobStartBody)

theorem Keeps.jobStatusBody {x : Ctx} {b : List Byte} (h : Keeps u s) : Keeps u (jobStatusBody s x b).2 := by
  simp only [Machine.jobStatusBody]
  split
  · exact h
  · split
    · exact h.failed
    · exact Keeps.iteSnd h (Keeps.iteSnd h.failed (Keeps.iteSnd h.failed (Keeps.iteSnd h (Keeps.iteSnd h.failed h.setJob))))

theorem Keeps.execJobStatus {via : Via} (h : Keeps u s) : KeepsOutcome u (execJobStatus via s) := h.serveBody (fun h1 => h1.jobStatusBody)

theorem Keeps.sessionGone {id : Nat} (h : Keeps u s) : Keeps u (sessionGone s id) := h.filterOd.same rfl

theorem Keeps.execSynsaEventSend {session : Nat} (h : Keeps u s) : KeepsOutcome u (execSynsaEventSend session s) := by
  simp only [Machine.execSynsaEventSend]
  split
  · exact h
  · exact KeepsOutcome.ite h (KeepsOutcome.ite h.sessionGone (Keeps.sendAt (h.same rfl)))

theorem Keeps.probeBody {a1 : Ctx} {a2 : List Byte} (h : Keeps u s) : Keeps u (probeBody s a1 a2).2 := h

theorem Keeps.serveProbe {leaves : Nat} {m : List Byte} (h : Keeps u s) : Keeps u (serveProbe s leaves m).2 :=
  Keeps.iteSnd h (Keeps.iteSnd h (Keeps.iteSnd h h.authFailed))

theorem Keeps.execDiscoverProbe {via : Via} (h : Keeps u s) : KeepsOutcome u (execDiscoverProbe via s) := by
  simp only [Machine.execDiscoverProbe]
  split
  · exact h.serveMailbox (fun h1 => h1)
  · split
    · exact h
    · rename_i place peer m s e
      have h2 := h.of_takeMessage e
      exact Keeps.ite h2.serveProbe.answerAt h2

theorem Keeps.serveOpen {place : Nat} {peer m : List Byte} (h : Keeps u s) : Keeps u (serveOpen s place peer m).2 := by
  unfold Machine.serveOpen
  extract_lets b v k i r nd y _ _ s1
  have hi : Keeps u i.2 := by
    unfold i
    exact h.freshNumber
  have hr : Keeps u r.2 := hi.freeBits (w := 128)
  have h1 : Keeps u s1 := by
    clear_value r
    exact hr.same rfl
  clear_value s1
  exact Keeps.iteSnd h (Keeps.iteSnd h.authFailed (Keeps.iteSnd h (Keeps.iteSnd h h1)))

theorem Keeps.execSessionOpen {via : Via} (h : Keeps u s) : KeepsOutcome u (execSessionOpen via s) := by
  simp only [Machine.execSessionOpen]
  split
  · exact h
  · rename_i place peer m s e
    have h1 := h.of_takeMessage e
    exact Keeps.ite h1.serveOpen.answerAt h1

theorem Keeps.closeBody {x : Ctx} {a2 : List Byte} (h : Keeps u s) : Keeps u (closeBody s x a2).2 := h.sessionGone

theorem Keeps.execSessionClose {via : Via} (h : Keeps u s) : KeepsOutcome u (execSessionClose via s) := by
  simp only [Machine.execSessionClose]
  split
  · exact h
  · rename_i place peer m s e
    have h1 := h.of_takeMessage e
    exact Keeps.ite (h1.serveSession (fun h2 => h2.closeBody)).answerAt h1

theorem Keeps.execAnnounceSend (h : Keeps u s) : KeepsOutcome u (execAnnounceSend s) :=
  KeepsOutcome.ite (Keeps.foldl (h.same rfl) (fun h1 => h1.channelSend)) h

theorem Keeps.execAnnounceReceive {bundle : Nat} (h : Keeps u s) : KeepsOutcome u (execAnnounceReceive bundle s) := by
  unfold Machine.execAnnounceReceive
  split
  · exact h
  · rename_i e
    have h1 := h.of_takeMessage e
    exact Keeps.ite (h1.same rfl) h1

theorem Keeps.of_bodyHandler {n : Nat} {f : Handler} {x : Ctx} {b : List Byte} (h : Keeps u s) (e : bodyHandler n = some f) :
    Keeps u (f s x b).2 := by
  simp only [Machine.bodyHandler] at e
  repeat' split at e
  all_goals cases e
  · exact h.readBody
  · exact h.writeBody
  · exact h.domainBeginBody
  · exact h.domainSegmentBody
  · exact h.domainEndBody
  · exact h.jobStartBody
  · exact h.jobStatusBody

theorem Keeps.serveInner {place : Nat} {peer : List Byte} {limit : Nat} {channel : Bool} {m : List Byte} (h : Keeps u s) :
    Keeps u (serveInner s place peer limit channel m).2 := by
  simp only [Machine.serveInner]
  split
  · exact h
  · split
    · split
      · exact h.serveProbe
      · exact h.serveOpen
      · exact h.serveSession (fun h1 => h1.closeBody)
      · exact h
    · split
      · exact h
      · rename_i e
        exact Keeps.iteSnd (h.serveSession (fun h1 => h1.of_bodyHandler e)) (Keeps.iteSnd (h.runRequest (fun h1 => h1.of_bodyHandler e)) h)

theorem Keeps.of_relayForward {head inner : List Byte} {seq : Nat} {r : RelayEntry} (h : Keeps u s)
    (e : relayForward s head inner seq r = some t) : Keeps u t := by
  simp only [Machine.relayForward] at e
  repeat' split at e
  all_goals cases e
  exact Keeps.count1 (Keeps.channelSend (h.same rfl))

theorem Keeps.relayDropped (h : Keeps u s) : Keeps u (relayDropped s) := h.count1.raise

theorem Keeps.relayBody {x : Ctx} {b : List Byte} (h : Keeps u s) : Keeps u (relayBody s x b).2 := by
  simp only [Machine.relayBody]
  split
  · exact h
  · split
    · exact h
    · split
      · exact h.freshNumber.serveInner
      · split
        · rename_i s e
          have h1 := h.freshNumber.of_relayForward e
          exact h1
        · exact h.freshNumber.relayDropped

theorem Keeps.relayTransit {b : Nat} {m : List Byte} (h : Keeps u s) : Keeps u (relayTransit s b m) := by
  simp only [Machine.relayTransit]
  split
  · exact h
  · split
    · split
      · exact h.serveInner.channelSend
      · exact h.serveInner
    · split
      · rename_i s e
        have h1 := h.of_relayForward e
        exact h1
      · exact h.relayDropped.channelSend

theorem Keeps.execSynsaRelay {via : Via} (h : Keeps u s) : KeepsOutcome u (execSynsaRelay via s) := by
  simp only [Machine.execSynsaRelay]
  split
  · exact h
  · rename_i place peer m s e
    have h1 := h.of_takeMessage e
    exact KeepsOutcome.ite h1 (KeepsOutcome.ite (h1.serveSession (fun h2 => h2.relayBody)).answerAt.afterResponse
      (Keeps.ite h1.relayTransit.afterResponse h1))

theorem Keeps.relayAnswer {e : RelayEntry} {m : List Byte} (h : Keeps u s) : Keeps u (relayAnswer s e m) := by
  simp only [Machine.relayAnswer]
  split
  · exact h
  · exact h.cacheResponse.sendAt

theorem Keeps.execRelayResponse {bundle : Nat} (h : Keeps u s) : KeepsOutcome u (execRelayResponse bundle s) := by
  unfold Machine.execRelayResponse
  split
  · exact h
  · rename_i e
    have h1 := h.of_takeMessage e
    extract_lets n
    refine KeepsOutcome.ite h1 ?_
    split
    · exact h1
    · exact Keeps.ite h1.channelSend h1.relayAnswer

theorem Keeps.execRelayEntryExpire (h : Keeps u s) : KeepsOutcome u (execRelayEntryExpire s) := h.same rfl

theorem Keeps.execSessionIdleTimeout {session : Nat} (h : Keeps u s) : KeepsOutcome u (execSessionIdleTimeout session s) := by
  simp only [Machine.execSessionIdleTimeout]
  split
  · exact Keeps.ite h.sessionGone h
  · exact h

theorem Keeps.execDomainIdleTimeout {handle : Nat} (h : Keeps u s) : KeepsOutcome u (execDomainIdleTimeout handle s) := by
  simp only [Machine.execDomainIdleTimeout]
  split
  · exact Keeps.ite h.dropTransfer h
  · exact h

theorem Keeps.saveTake {upTo : Nat} (h : Keeps u s) : Keeps u (saveTake s upTo) := Keeps.jobProgress (h.same rfl)

theorem Keeps.saveEnd {result : Nat} (h : Keeps u s) : Keeps u (saveEnd s result) := by
  unfold Machine.saveEnd
  extract_lets _ s1 _
  have h1 : Keeps u s1 := Keeps.ite (Keeps.setReg (h.same rfl)) h
  exact Keeps.raise (Keeps.jobEnd (h1.same rfl))

theorem Keeps.execOdSave {turn : JobOp} {upTo result : Nat} (h : Keeps u s) : KeepsOutcome u (execOdSave turn upTo result s) := by
  simp only [Machine.execOdSave]
  split
  · exact h.concludeJob (h.jobStart (fun h1 => h1.startSave))
  · exact KeepsOutcome.ite h (KeepsOutcome.ite (Keeps.ite h.saveTake h) (Keeps.ite h.saveEnd h))

theorem Keeps.eraseStore (h : Keeps u s) : Keeps u (eraseStore s) := Keeps.setReg (h.same rfl)

theorem Keeps.execOdSettingsErase {turn : JobOp} (h : Keeps u s) : KeepsOutcome u (execOdSettingsErase turn s) := by
  simp only [Machine.execOdSettingsErase]
  split
  · exact h.concludeJob (h.jobStart (fun h1 => h1.startErase))
  · exact Keeps.ite h.eraseStore.jobEnd h

theorem Keeps.execCountedWrite {client : Client} {entry value : Nat} (h : Keeps u s) : KeepsOutcome u
    (execCountedWrite client entry value s) :=
  KeepsOutcome.ite h (h.writeRow (fun h1 => h1.cwWrite))

theorem Keeps.fabricSessionsOver (h : Keeps u s) : Keeps u (fabricSessionsOver s) := (h.foldl (fun h1 => h1.enterDest)).same rfl

theorem Keeps.clearFaults (h : Keeps u s) : Keeps u (clearFaults s) := Keeps.setReg (h.same rfl)

theorem Keeps.rebuildStores (h : Keeps u s) : Keeps u (rebuildStores s) :=
  Keeps.foldl (Keeps.foldl (h.same rfl) (fun h1 => h1.setReg)) (fun h2 => h2.skimRebuild)

theorem Keeps.flushTx {p : Nat} (h : Keeps u s) : Keeps u (flushTx s p) := by
  simp only [Machine.flushTx]
  split
  · exact h
  · split
    · exact h
    · split
      · exact h
      · exact Keeps.ite h.txEnds h.txAborted

theorem Keeps.unbindVoq {q : Nat} (h : Keeps u s) : Keeps u (unbindVoq s q) := h.same rfl

theorem Keeps.flushPackets (h : Keeps u s) : Keeps u (flushPackets s) := by
  unfold Machine.flushPackets
  extract_lets s1 s2 s3 s4 s5 s6
  have h1 : Keeps u s1 := h.foldl (fun h1 => h1.flushTx)
  have h2 : Keeps u s2 := h1.foldl (fun h1 => h1.dropOut)
  have h3 : Keeps u s3 := h2.foldl (fun h1 => h1.flushQueue)
  have h4 : Keeps u s4 := h3.foldl (fun h1 => h1.dropAssembly)
  have h5 : Keeps u s5 := h4.foldl (fun h1 => h1.macDiscard)
  have h6 : Keeps u s6 := h5.foldl (fun h1 => h1.unbindVoq)
  clear_value s6
  exact h6.same rfl

theorem Keeps.dpEnd (h : Keeps u s) : Keeps u (dpEnd s) :=
  Keeps.overridesOff (Keeps.raise (Keeps.count32 (Keeps.ite (Keeps.jobEnd
    (h.flushPackets.rebuildStores.clearFaults.fabricSessionsOver.same rfl))
    (h.flushPackets.rebuildStores.clearFaults.fabricSessionsOver.same rfl))))

theorem Keeps.cwEffect {b : Burn} (h : Keeps u s) (hb : b ∈ u.dict.burns) : Keeps u (cwEffect s b) := by
  unfold Machine.cwEffect
  refine Keeps.ite h.setReg.dpBegin.dpEnd (Keeps.ite h.setReg.raise ?_)
  split
  · rename_i he
    have hk : Keeps u { s with dict.deviceKey := b.value } :=
      ⟨h.odTidy, h.memoriesTidy, h.accounts, h.pending_eq, .inr ⟨b, hb, he, rfl⟩⟩
    exact hk.setReg
  · exact h

theorem Keeps.mem_of_find {l : List Burn} {b : Burn} {k : Nat} (e : l.find? (fun b => b.entry == k) = some b) : b ∈ l ∧ b.entry = k :=
  ⟨List.mem_of_find?_eq_some e, by simpa using List.find?_some e⟩

/-- Of writes of different entries, all but one go on burning. -/
theorem Keeps.burnsEnd {l : List Burn} {b : Burn} (hl : (l.map (·.entry)).Nodup) (hb : b ∈ l) :
    ((l.filter (fun x => x.entry != b.entry)).map (·.entry)).Nodup ∧ (l.filter (fun x => x.entry != b.entry)).length + 1 = l.length := by
  refine ⟨(List.Sublist.map _ List.filter_sublist).nodup hl, ?_⟩
  induction l with
  | nil => cases hb
  | cons a l ih =>
    obtain ⟨ha, hl⟩ := List.nodup_cons.1 hl
    rcases List.mem_cons.1 hb with rfl | hb
    · have : l.filter (fun x => x.entry != b.entry) = l :=
        List.filter_eq_self.2 fun x hx => by
          simp only [bne_iff_ne]
          exact fun e => ha (List.mem_map.2 ⟨x, hx, e⟩)
      rw [List.filter_cons_of_neg (by simp), this, List.length_cons]
    · have hne : a.entry ≠ b.entry := fun e => ha (List.mem_map.2 ⟨b, hb, e.symm⟩)
      rw [List.filter_cons_of_pos (by simpa using hne), List.length_cons, ih hl hb, List.length_cons]

theorem Keeps.execCountedWriteComplete {entry : Nat} (s : State) : KeepsOutcome s (execCountedWriteComplete entry s) := by
  unfold Machine.execCountedWriteComplete
  split
  · exact Keeps.refl s
  · rename_i b e
    obtain ⟨hb, he⟩ := Keeps.mem_of_find e
    refine Keeps.raise (Keeps.cwEffect ?_ hb)
    refine (Keeps.refl s).trans ⟨id, id, fun hc => ⟨?_, fun _ => Nat.le_refl _⟩, rfl, .inl rfl⟩ rfl
    obtain ⟨hcanonical, hplaces, hnodup, htotal⟩ := hc
    obtain ⟨hends, hlength⟩ := Keeps.burnsEnd hnodup hb
    rw [he] at hends hlength
    refine ⟨hcanonical, hplaces, hends, ?_⟩
    simp only [List.length_append, List.length_singleton]
    omega

theorem Keeps.execSynDeviceKeyWrite {client : Client} {value : List Byte} (h : Keeps u s) : KeepsOutcome u
    (execSynDeviceKeyWrite client value s) :=
  (h.commitRow (fun h1 => h1.wDeviceKey)).keyResponse

theorem Keeps.fnCause {fn pfBit vfBit : Nat} (h : Keeps u s) : Keeps u (fnCause s fn pfBit vfBit) := Keeps.ite h.raise h.raise

theorem Keeps.ringFull {o fn : Nat} (h : Keeps u s) : Keeps u (ringFull s o fn) := h.dropOut.count1.fnCause

theorem Keeps.puntStart {i : Nat} {o : Out} {p : Pkt} {addrs : List Nat} (h : Keeps u s) : Keeps u (puntStart s i o p addrs) :=
  Keeps.ite h.ringFull (Keeps.ite h.ringFull (Keeps.ite h.ringFull (Keeps.ite h (h.same rfl))))

theorem Keeps.execPuntDma {out : Nat} {addrs : List Nat} {writes : Nat} (h : Keeps u s) : KeepsOutcome u
    (execPuntDma out addrs writes s) := by
  simp only [Machine.execPuntDma]
  refine Keeps.foldl ?_ (fun h1 => h1.puntWrite)
  split
  · split
    · exact Keeps.ite h.puntStart h
    · exact h
  · exact h

theorem Keeps.doorbell {fn : Nat} {inj : Bool} {r v : Nat} (h : Keeps u s) : Keeps u (doorbell s fn inj r v) :=
  Keeps.ite (Keeps.ite h.count1 h.setRing) h

theorem Keeps.execPuntDoorbell {fn ring value : Nat} (h : Keeps u s) : KeepsOutcome u (execPuntDoorbell fn ring value s) := h.doorbell

theorem Keeps.execInjectDoorbell {fn ring value : Nat} (h : Keeps u s) : KeepsOutcome u (execInjectDoorbell fn ring value s) := h.doorbell

theorem Keeps.injectFinish {i : Nat} {j : Inject} (h : Keeps u s) : Keeps u (injectFinish s i j) :=
  Keeps.ringFinish (Keeps.ite (Keeps.hostWrite (h.same rfl)) (h.same rfl))

theorem Keeps.injectRefused {i : Nat} {j : Inject} (h : Keeps u s) : Keeps u (injectRefused s i j) :=
  Keeps.ite (Keeps.injectFinish (Keeps.fnCause (Keeps.count1 (h.same rfl)))) (Keeps.fnCause (Keeps.count1 (h.same rfl)))

theorem Keeps.issueReads {i : Nat} {j : Inject} {l : List (Nat × Nat × Nat)} (h : Keeps u s) : Keeps u (issueReads s i j l) :=
  h.foldl (fun h1 => Keeps.emit (h1.same rfl))

theorem Keeps.injectFetch {fn r : Nat} {l : List Nat} (h : Keeps u s) : Keeps u (injectFetch s fn r l) := by
  unfold Machine.injectFetch
  split
  · exact h
  · extract_lets y n d j i _ _ taken total reads
    have ht : Keeps u taken := h.same rfl
    clear_value taken
    refine Keeps.ite h (Keeps.ite ht.injectRefused (Keeps.ite ht.injectRefused (Keeps.ite h ?_)))
    split
    · rename_i e
      have h1 := ht.takeUnits.eq e
      exact Keeps.issueReads (Keeps.same (s := _) h1 rfl)
    · exact h

theorem Keeps.execInjectFetch {fn ring : Nat} {descs : List (List Byte)} (h : Keeps u s) : KeepsOutcome u
    (execInjectFetch fn ring descs s) :=
  KeepsOutcome.ite h.injectFetch h

theorem Keeps.injectBuild {i : Nat} {j : Inject} (h : Keeps u s) : Keeps u (injectBuild s i j) :=
  Keeps.injectFinish (h.writeCells.same rfl)

theorem Keeps.execInjectBuild {inject : Nat} (h : Keeps u s) : KeepsOutcome u (execInjectBuild inject s) := by
  simp only [Machine.execInjectBuild]
  split
  · exact h
  · exact KeepsOutcome.ite h (KeepsOutcome.ite h.injectFinish (KeepsOutcome.ite h h.injectBuild))

theorem Keeps.staleCompletion (h : Keeps u s) : Keeps u (staleCompletion s) := h.count1.raise

theorem Keeps.injectFailed {i : Nat} {j : Inject} (h : Keeps u s) : Keeps u (injectFailed s i j) :=
  Keeps.ite h (Keeps.fnCause (Keeps.count1 (h.freeUnits.same rfl)))

theorem Keeps.execHostReadCompletion {tag : Nat} {ok : Bool} {data : List Byte} (h : Keeps u s) : KeepsOutcome u
    (execHostReadCompletion tag ok data s) := by
  simp only [Machine.execHostReadCompletion]
  split
  · exact h.staleCompletion
  · split
    · exact Keeps.staleCompletion (h.same rfl)
    · split
      · exact h.same rfl
      · exact KeepsOutcome.ite (h.same rfl) (KeepsOutcome.ite (Keeps.injectFailed (h.same rfl)) (h.same rfl))

theorem Keeps.ringMessage {fn v : Nat} (h : Keeps u s) : Keeps u (ringMessage s fn v) := Keeps.ite (Keeps.ite h.setMsix h.emit) h

theorem Keeps.execRingInterrupt {fn : Nat} {inj : Bool} {ring : Nat} (h : Keeps u s) : KeepsOutcome u (execRingInterrupt fn inj ring s) :=
  KeepsOutcome.ite h.setRing.ringMessage h

theorem Keeps.execRingConfigWrite {client : Client} {entry value : Nat} (h : Keeps u s) : KeepsOutcome u
    (execRingConfigWrite client entry value s) := by
  simp only [Machine.execRingConfigWrite]
  split
  · exact KeepsOutcome.ite (h.writeRow (fun h1 => h1.wRing)) h
  · exact h.conclude .fail

theorem Keeps.execHostPuntBindWrite {client : Client} {value : Nat} (h : Keeps u s) : KeepsOutcome u
    (execHostPuntBindWrite client value s) :=
  h.writeRow (fun h1 => h1.wPuntBind)

theorem Keeps.execVfOdGrantWrite {client : Client} {vf : Nat} {value : List Byte} (h : Keeps u s) : KeepsOutcome u
    (execVfOdGrantWrite client vf value s) :=
  h.commitRow (fun h1 => h1.wOdGrant)

theorem Keeps.fnDefaults {fn : Nat} (h : Keeps u s) : Keeps u (fnDefaults s fn) := h.filterOd.same rfl

theorem Keeps.vfResetDone {v : Nat} (h : Keeps u s) : Keeps u (vfResetDone s v) := Keeps.raise (Keeps.count32 (h.fnDefaults.same rfl))

theorem Keeps.execVfFlr {vf : Nat} {complete : Bool} (h : Keeps u s) : KeepsOutcome u (execVfFlr vf complete s) :=
  KeepsOutcome.ite h (KeepsOutcome.ite (Keeps.ite h.count32.vfResetDone.overridesOff h) (Keeps.ite h h.vfResetBegin))

theorem Keeps.execVfReset {vf : Nat} {turn : JobOp} (h : Keeps u s) : KeepsOutcome u (execVfReset vf turn s) := by
  simp only [Machine.execVfReset]
  split
  · exact h.concludeJob (h.jobStartWith (fun h1 => KeepsApplied.ite .fail h1.vfResetBegin.applied))
  · exact KeepsOutcome.ite h.jobEnd.count32.vfResetDone.overridesOff h

theorem Keeps.resetVfs (h : Keeps u s) : Keeps u (resetVfs s) := (h.foldl (fun h1 => h1.fnStop.vfResetDone)).setReg

theorem Keeps.execVfEnableClear (h : Keeps u s) : KeepsOutcome u (execVfEnableClear s) :=
  KeepsOutcome.ite h h.resetVfs.countBy.overridesOff

theorem Keeps.resetFunctions {kind : Nat} (h : Keeps u s) : Keeps u (resetFunctions s kind) :=
  h.resetVfs.fnStop.fnDefaults.count32.overridesOff

theorem Keeps.execPfFlr (h : Keeps u s) : KeepsOutcome u (execPfFlr s) := h.resetFunctions

theorem Keeps.setHostLink {v : Nat} (h : Keeps u s) : Keeps u (setHostLink s v) := Keeps.ite h h.setReg.raise

theorem Keeps.execPcieHotReset (h : Keeps u s) : KeepsOutcome u (execPcieHotReset s) := h.resetFunctions.setHostLink

theorem Keeps.execPcieLinkChange {up : Bool} {rate width : Nat} (h : Keeps u s) : KeepsOutcome u (execPcieLinkChange up rate width s) :=
  KeepsOutcome.ite (Keeps.ite h h.resetFunctions.setHostLink) (KeepsOutcome.ite h.setHostLink h)

theorem Keeps.exportBegin {fn : Nat} (h : Keeps u s) : Keeps u (exportBegin s fn) := h.same rfl

theorem Keeps.exportStep {fn : Nat} (h : Keeps u s) : Keeps u (exportStep s fn) := by
  simp only [Machine.exportStep]
  split
  · exact h
  · exact Keeps.ite (h.same rfl) (Keeps.ite (h.hostWrite.same rfl)
      (Keeps.ite (h.setFnReg.hostWrite.same rfl) (Keeps.raise (h.setFnReg.hostWrite.same rfl))))

theorem Keeps.execCounterExport {fn writes : Nat} (h : Keeps u s) : KeepsOutcome u (execCounterExport fn writes s) :=
  Keeps.foldl (Keeps.ite h.exportBegin h) (fun h1 => h1.exportStep)

theorem Keeps.execFwStagedWrite {client : Client} {value : List Byte} (h : Keeps u s) : KeepsOutcome u (execFwStagedWrite client value s) :=
  h.commitRow (fun h1 => h1.wStaged)

theorem Keeps.execFwStagedVerify (h : Keeps u s) : KeepsOutcome u (execFwStagedVerify s) := KeepsOutcome.ite h.setReg h

theorem Keeps.installBroken (h : Keeps u s) : Keeps u (installBroken s) := h.setReg.raise

theorem Keeps.installSector {ok : Bool} (h : Keeps u s) : Keeps u (installSector s ok) :=
  Keeps.ite (Keeps.installBroken (Keeps.jobEnd (h.same rfl)))
    (Keeps.ite (Keeps.installBroken (Keeps.jobCancelled (Keeps.same (Keeps.jobProgress (h.same rfl)) rfl)))
    (Keeps.ite (Keeps.jobProgress (h.same rfl)) (Keeps.ite (Keeps.mgmtRestart (Keeps.raise (Keeps.setReg (Keeps.jobEnd (Keeps.jobProgress
    (h.same rfl)))))) (Keeps.raise (Keeps.setReg (Keeps.jobEnd (Keeps.jobProgress (h.same rfl))))))))

theorem Keeps.execFwInstall {turn : JobOp} {ok : Bool} (h : Keeps u s) : KeepsOutcome u (execFwInstall turn ok s) := by
  simp only [Machine.execFwInstall]
  split
  · exact h.concludeJob (h.jobStart (fun h1 => h1.beginInstall.applied))
  · exact Keeps.ite h.installSector h

theorem Keeps.enterRecovery (h : Keeps u s) : Keeps u (enterRecovery s) :=
  Keeps.ite (Keeps.foldl (Keeps.setReg (h.setReg.raise.setBlk.setReg.same rfl)) (fun h1 => h1.setFlane))
    (h.setReg.raise.setBlk.setReg.same rfl)

theorem Keeps.execLoaderBoot {readOk : Bool} {image : List Byte} (h : Keeps u s) : KeepsOutcome u (execLoaderBoot readOk image s) := by
  unfold Machine.execLoaderBoot
  extract_lets img code _ s1 s2 _ s3
  have h1 : Keeps u s1 := Keeps.setReg (h.same rfl)
  have h2 : Keeps u s2 := h1.setBlk.setReg
  have h3 : Keeps u s3 := by
    clear_value s2
    exact h2.same rfl
  exact KeepsOutcome.ite h (KeepsOutcome.ite (Keeps.ite h3.startupMark h3) h1.enterRecovery)

theorem Keeps.execRecoverySeek {bundle : Nat} {header : List Byte} (h : Keeps u s) : KeepsOutcome u (execRecoverySeek bundle header s) :=
  KeepsOutcome.ite (KeepsOutcome.ite (h.same rfl) (h.same rfl)) h

theorem Keeps.execRelayPoll {bundle valid : Nat} {header : List Byte} (h : Keeps u s) : KeepsOutcome u
    (execRelayPoll bundle valid header s) :=
  KeepsOutcome.ite (KeepsOutcome.ite (h.same rfl) (h.same rfl)) h

theorem Keeps.stageFetched {img : List Byte} (h : Keeps u s) : Keeps u (stageFetched s img) := h.setBlk.setReg

theorem Keeps.execImageFetchComplete {image : List Byte} (h : Keeps u s) : KeepsOutcome u (execImageFetchComplete image s) := by
  unfold Machine.execImageFetchComplete
  extract_lets _ s1 s3 _ s2
  have h1 : Keeps u s1 := h.same rfl
  have h2 : Keeps u s2 := h1.stageFetched.count32.raise
  have h3 : Keeps u s3 := h1.stageFetched.beginInstall
  clear_value s2 s3 s1
  split
  · exact h
  · refine KeepsOutcome.ite h1 (KeepsOutcome.ite ?_ (Keeps.ite h2.beginInstall h2))
    exact h3.same rfl

theorem Keeps.execFwRollbackFloorWrite {client : Client} {value : Nat} (h : Keeps u s) : KeepsOutcome u
    (execFwRollbackFloorWrite client value s) :=
  h.writeRow (fun h1 => h1.wRollbackFloor)

theorem Keeps.execMgmtRestartLFall (h : Keeps u s) : KeepsOutcome u (execMgmtRestartLFall s) :=
  KeepsOutcome.ite h (KeepsOutcome.ite (Keeps.mgmtRestart (h.same rfl)) (h.same rfl))

theorem Keeps.execMgmtRestartLRise (h : Keeps u s) : KeepsOutcome u (execMgmtRestartLRise s) := Keeps.ite (h.same rfl) h

theorem Keeps.execFwRestart {client : Client} {value : Nat} (h : Keeps u s) : KeepsOutcome u (execFwRestart client value s) :=
  (h.writeRow (fun h1 => h1.wFwRestart)).afterResponse

theorem Keeps.execFwWatchdogExpiry (h : Keeps u s) : KeepsOutcome u (execFwWatchdogExpiry s) := KeepsOutcome.ite h.raise.mgmtRestart h

theorem Keeps.firmwareStarts (h : Keeps u s) : Keeps u (firmwareStarts s) := by
  unfold Machine.firmwareStarts
  extract_lets again _ s1 s2 _ s3
  have h1 : Keeps u s1 := h.same rfl
  have h2 : Keeps u s2 := h1.eraseStore.raise
  have h3 : Keeps u s3 := Keeps.ite (Keeps.ite (h2.same rfl) h2) h1
  exact Keeps.ite h3.raise h3

theorem Keeps.appliesBack (h : Keeps u s) : Keeps u (appliesBack s) := by
  simp only [Machine.appliesBack]
  refine Keeps.foldl (h.same rfl) (fun h1 => ?_)
  split
  · exact h1.raise
  · exact h1

theorem Keeps.execFirmwareStart {ready : Bool} (h : Keeps u s) : KeepsOutcome u (execFirmwareStart ready s) :=
  KeepsOutcome.ite h (KeepsOutcome.ite (Keeps.ite h.firmwareStarts h)
    (KeepsOutcome.ite (Keeps.ite (Keeps.appliesBack (h.same rfl))
    (Keeps.raise (Keeps.startupMark (Keeps.setReg (Keeps.appliesBack (h.same rfl)))))) h))

theorem Keeps.fullReset (h : Keeps u s) : Keeps u (fullReset s) := by
  have hr : Keeps u (Machine.regionBroken s) := h.regionBroken
  unfold Machine.fullReset
  extract_lets r
  change Keeps u r at hr
  clear_value r
  refine hr.trans ⟨canonical_filter odDefault r.od _, fun _ => reset_memories_wf, fun hc => ⟨?_, fun _ => Nat.le_refl _⟩, rfl, .inl rfl⟩ rfl
  obtain ⟨hcanonical, hplaces, hnodup, htotal⟩ := hc
  refine ⟨hcanonical, hplaces, List.nodup_nil, ?_⟩
  simp only [List.length_append, List.length_nil]
  omega

theorem Keeps.startUp {kind straps : Nat} (h : Keeps u s) : Keeps u (startUp s kind straps) := h.fullReset.setReg.setReg.setReg.same rfl

theorem Keeps.execPowerOnReset {straps : Nat} (h : Keeps u s) : KeepsOutcome u (execPowerOnReset true straps s) := h.startUp


theorem Keeps.execPinReset {straps : Nat} (h : Keeps u s) : KeepsOutcome u (execPinReset straps s) := KeepsOutcome.ite h h.startUp

/-- What events bring on the side does not touch the torn writes. -/
theorem Keeps.noted_torn {ks : List Nat} {l : List Burn} (n : Noted ks s t) :
    Noted ks { s with dict.torn := l } { t with dict.torn := l } :=
  ⟨congrArg (fun r : State => { r with dict.torn := l }) n.1, n.2.1, n.2.2⟩

theorem Keeps.torn_foldl (l : List Burn) :
    (l.foldl (fun s b => Machine.raise { s with dict.cwLog := s.dict.cwLog ++ [cwRecord b 1] } .od 3) s).dict.torn = s.dict.torn := by
  induction l generalizing s with
  | nil => rfl
  | cons b l ih =>
    rw [List.foldl_cons, ih, (noted_raise [Reg.odCause] _ .od 3 (.inl (List.mem_singleton_self _))).1]

/-- The torn writes go from their list to the log (R400). -/
theorem Keeps.logTorn (l : List Burn) (h : Keeps u { s with dict.torn := l }) :
    Keeps u { l.foldl (fun s b => Machine.raise { s with dict.cwLog := s.dict.cwLog ++ [cwRecord b 1] } .od 3) s with dict.torn := []
      } := by
  induction l generalizing s with
  | nil => exact h
  | cons b l ih =>
    refine ih ?_
    have hl : Keeps u { s with dict.cwLog := s.dict.cwLog ++ [cwRecord b 1], dict.torn := l } := by
      refine h.trans ⟨id, id, fun hc => ⟨?_, fun _ => Nat.le_refl _⟩, rfl, .inl rfl⟩ rfl
      obtain ⟨hcanonical, hplaces, hnodup, htotal⟩ := hc
      refine ⟨hcanonical, hplaces, hnodup, ?_⟩
      simp only [List.length_append, List.length_cons, List.length_nil] at htotal ⊢
      omega
    exact hl.noted (Keeps.noted_torn (noted_raise [Reg.odCause] _ .od 3 (.inl (List.mem_singleton_self _))))

theorem Keeps.execFuseSenseComplete (h : Keeps u s) : KeepsOutcome u (execFuseSenseComplete s) := by
  unfold Machine.execFuseSenseComplete
  extract_lets _ s1 _ s2
  have h1 : Keeps u s1 := Keeps.startupMark (h.same rfl)
  have hl := Keeps.logTorn (s := { s1 with dict.torn := [] }) s1.dict.torn h1
  have e : s2.dict.torn = [] := Keeps.torn_foldl (s := { s1 with dict.torn := [] }) s1.dict.torn
  change Keeps u { s2 with dict.torn := [] } at hl
  clear_value s2
  exact KeepsOutcome.ite h (Keeps.setTargets (hl.same (by rw [e])))

theorem Keeps.execLoaderSectorCheck {sectorOk : Bool} {repaired : Nat} {d2dOk : Bool} (h : Keeps u s) : KeepsOutcome u
    (execLoaderSectorCheck sectorOk repaired d2dOk s) :=
  KeepsOutcome.ite h (KeepsOutcome.ite (h.same rfl) (KeepsOutcome.ite (Keeps.startupMark (Keeps.same (Keeps.setReg (h.setReg.same rfl))
    rfl)) (Keeps.raise (Keeps.setReg (h.setReg.same rfl)))))

theorem Keeps.loadStore (h : Keeps u s) : Keeps u (loadStore s) :=
  Keeps.foldl (Keeps.foldl (h.filterOd.same rfl) (fun h1 => h1.setReg)) (fun h2 => h2.setBlk)

theorem Keeps.bringUp (h : Keeps u s) : Keeps u (bringUp s) :=
  (((h.foldl (fun h1 => h1.setFlane)).foldl (fun h2 => h2.jobBegin)).foldl (fun h3 => h3.touchLink)).stacksInitialised

theorem Keeps.applyStore (h : Keeps u s) : Keeps u (applyStore s) := by
  unfold Machine.applyStore
  extract_lets s1 s2 s3 s4
  have h1 : Keeps u s1 := h.foldl (fun h1 => h1.setIsl)
  have h2 : Keeps u s2 := Keeps.ite h1 h1.setReg
  have h3 : Keeps u s3 := h2.foldl (fun h1 => h1.skimRebuild)
  have h4 : Keeps u s4 := h3.foldl (fun h1 => Keeps.ite h1.applyMode h1.setRole)
  exact h4.gpioDrive

theorem Keeps.execSettingsReload (h : Keeps u s) : KeepsOutcome u (execSettingsReload s) :=
  KeepsOutcome.ite (KeepsOutcome.ite h.loadStore.setReg.startupMark.applyStore.bringUp
    (h.loadStore.setReg.startupMark.foldl (fun h1 => h1.setPort)).applyStore) h

theorem Keeps.avsCommand {rail : Nat} {ack : Bool} (h : Keeps u s) : Keeps u (avsCommand s rail ack) :=
  Keeps.ite (Keeps.setReg (h.same rfl)) (Keeps.ite (h.same rfl) (Keeps.raise (h.same rfl)))

theorem Keeps.execAvsEvaluate {rail : Nat} {ack : Bool} (h : Keeps u s) : KeepsOutcome u (execAvsEvaluate rail ack s) :=
  KeepsOutcome.ite h (Keeps.ite (Keeps.ite h.setTargets h) (Keeps.avsCommand (Keeps.ite h.setTargets h)))

theorem Keeps.fabricDark (h : Keeps u s) : Keeps u (fabricDark s) :=
  Keeps.foldl ((h.foldl (fun h1 => h1.loseFrame)).same rfl) (fun h2 => h2.setReg.setReg.setReg.setReg.setBundle.bundleDown.setReg)

theorem Keeps.goDark (h : Keeps u s) : Keeps u (goDark s) :=
  Keeps.flushPackets (Keeps.fabricDark (Keeps.foldl (h.same rfl) (fun h1 => h1.linkFails)))

theorem Keeps.stacksRest (h : Keeps u s) : Keeps u (stacksRest s) :=
  Keeps.foldl (h.same rfl) (fun h1 => Keeps.ite h1.selfRefresh.setStack (Keeps.ite h1.drained.selfRefresh (Keeps.ite h1.selfRefresh h1)))

theorem Keeps.endRangeWork (h : Keeps u s) : Keeps u (endRangeWork s) := h.same rfl

theorem Keeps.islandsRest (h : Keeps u s) : Keeps u (islandsRest s) :=
  Keeps.setTargets (Keeps.endRangeWork (Keeps.foldl (h.same rfl) (fun h1 => h1.islStop)))

theorem Keeps.entryEnd (h : Keeps u s) : Keeps u (entryEnd s) :=
  Keeps.raise (Keeps.ite (Keeps.jobEnd (Keeps.setReg (h.same rfl))) (Keeps.setReg (h.same rfl)))

theorem Keeps.entryStep (h : Keeps u s) : Keeps u (entryStep s) := by
  unfold Machine.entryStep
  extract_lets due goTo
  have hg : ∀ {t n}, Keeps u t → Keeps u (goTo t n) := fun ht => ht.same rfl
  clear_value goTo due
  split
  · exact Keeps.ite (hg h.flushPackets) h
  · exact Keeps.ite (hg h.goDark) h
  · exact Keeps.ite (hg h.stacksRest) h
  · exact Keeps.ite h.islandsRest h
  · exact Keeps.ite h.entryEnd h
  · exact h

theorem Keeps.execRetentionEnter {turn : JobOp} (h : Keeps u s) : KeepsOutcome u (execRetentionEnter turn s) := by
  simp only [Machine.execRetentionEnter]
  split
  · exact h.concludeJob (h.jobStart (fun h1 => h1.startEntry))
  · exact h.entryStep

theorem Keeps.exitEnd (h : Keeps u s) : Keeps u (exitEnd s) := by
  unfold Machine.exitEnd
  extract_lets s1 s2 _ s3 _ s4 s5 s6 s7 s8
  have h1 : Keeps u s1 := h.foldl (fun h1 => Keeps.ite h1.islStart h1)
  have h2 : Keeps u s2 := h1.foldl (fun h1 => Keeps.ite h1.setStack.startRefresh (Keeps.ite h1.startRefresh h1))
  have h3 : Keeps u s3 := by
    clear_value s2
    exact Keeps.overridesOff (h2.same rfl)
  have h4 : Keeps u s4 := by
    clear_value s3
    exact h3.same rfl
  have h5 : Keeps u s5 := h4.foldl (fun h1 => h1.setFlane)
  have h6 : Keeps u s6 := h5.foldl (fun h1 => h1.touchLink)
  have h7 : Keeps u s7 := h6.setReg
  have h8 : Keeps u s8 := Keeps.ite h7.jobEnd h7
  exact h8.raise

theorem Keeps.execRetentionExit {turn : JobOp} (h : Keeps u s) : KeepsOutcome u (execRetentionExit turn s) := by
  simp only [Machine.execRetentionExit]
  split
  · exact h.concludeJob (h.jobStart (fun h1 => h1.startExit))
  · exact Keeps.ite h.exitEnd h

theorem Keeps.execDatapathReset {turn : JobOp} (h : Keeps u s) : KeepsOutcome u (execDatapathReset turn s) := by
  simp only [Machine.execDatapathReset]
  split
  · exact h.concludeJob (h.jobStartWith (fun h1 => KeepsApplied.ite .fail h1.dpBegin.applied))
  · exact KeepsOutcome.ite h.dpEnd h

theorem Keeps.islResetEnd (h : Keeps u s) : Keeps u (islResetEnd s) := by
  simp only [Machine.islResetEnd]
  split
  · exact h
  · exact Keeps.raise (Keeps.count32 (Keeps.ite (Keeps.jobEnd (Keeps.setIsl (h.same rfl))) (Keeps.setIsl (h.same rfl))))

theorem Keeps.execIslandReset {turn : JobOp} (h : Keeps u s) : KeepsOutcome u (execIslandReset turn s) := by
  simp only [Machine.execIslandReset]
  split
  · exact h.concludeJob (h.jobStartWith (fun h1 => h1.startIslReset))
  · exact h.islResetEnd

theorem Keeps.thermalEntry (h : Keeps u s) : Keeps u (thermalEntry s) :=
  Keeps.entryBegin (Keeps.ite (Keeps.jobEnd (Keeps.ite (h.foldl (fun h1 => h1.hbmInitEnd)).captureEnd.setStack
    (h.foldl (fun h2 => h2.hbmInitEnd)))) (Keeps.ite (h.foldl (fun h3 => h3.hbmInitEnd)).captureEnd.setStack
    (h.foldl (fun h4 => h4.hbmInitEnd))))

theorem Keeps.tempActs (h : Keeps u s) : Keeps u (tempActs s) := by
  unfold Machine.tempActs
  extract_lets m warn _ s1 crit was _ s2 s3
  have h1 : Keeps u s1 := Keeps.ite (Keeps.raise (h.same rfl)) (Keeps.ite (h.same rfl) h)
  have h2 : Keeps u s2 := by
    clear_value s1
    exact h1.same rfl
  have h3 : Keeps u s3 := h2.raise
  exact Keeps.ite (Keeps.ite h3.thermalEntry h3) h2

theorem Keeps.execTempRead {sensors diodes : List Nat} (h : Keeps u s) : KeepsOutcome u (execTempRead sensors diodes s) :=
  KeepsOutcome.ite ((h.foldl (fun h1 => h1.setReg)).foldl (fun h2 => h2.setReg)).setReg.setReg.tempActs h

theorem Keeps.execPowerEstimateUpdate (h : Keeps u s) : KeepsOutcome u (execPowerEstimateUpdate s) := KeepsOutcome.ite h.freeBits.setReg h

theorem Keeps.timeUnlocked (h : Keeps u s) : Keeps u (timeUnlocked s) := Keeps.ite (Keeps.emit (h.same rfl)) (h.same rfl)

theorem Keeps.lineSignalLost {l : Nat} (h : Keeps u s) : Keeps u (lineSignalLost s l) := by
  simp only [Machine.lineSignalLost]
  split
  · exact Keeps.touchLinks (Keeps.ite h.setReg.raise h.setReg)
  · exact Keeps.ite h.setReg.raise h.setReg

theorem Keeps.fabricSignalLost {l : Nat} (h : Keeps u s) : Keeps u (fabricSignalLost s l) := Keeps.ite h.setFlane.sectionDefect h

theorem Keeps.execRefclkLoss {clock : Nat} (h : Keeps u s) : KeepsOutcome u (execRefclkLoss clock s) :=
  KeepsOutcome.ite h (Keeps.raise (Keeps.ite h.timeUnlocked (Keeps.ite (h.foldl (fun h1 => h1.lineSignalLost)) (Keeps.ite (h.foldl (fun
    h2 => h2.fabricSignalLost)) h))))

theorem Keeps.scrubLost {cls unit idx : Nat} (h : Keeps u s) : Keeps u (scrubLost s cls unit idx) :=
  Keeps.ite h.setFlips.setQuar (Keeps.ite (Keeps.ite (h.setFlips.foldl (fun h1 => h1.setQuar))
    (h.setFlips.foldl (fun h2 => h2.setUsed)).leakUnits) h.setFlips)

theorem Keeps.patrolWord {cls unit idx found : Nat} (h : Keeps u s) : Keeps u (patrolWord s cls unit idx found) :=
  Keeps.ite (Keeps.readState (Keeps.ite h.setFlips h)) (Keeps.ite (Keeps.ite h.setFlips h) (Keeps.ite (Keeps.scrubLost (Keeps.checkWord
    (Keeps.ite h.setFlips h))) (Keeps.setFlips (Keeps.checkWord (Keeps.ite h.setFlips h)))))

theorem Keeps.sweepEnd {cls : Nat} (h : Keeps u s) : Keeps u (sweepEnd s cls) := Keeps.ite (h.same rfl) (h.same rfl)

theorem Keeps.execPatrolScrubRead {cls unit index found : Nat} {last : Bool} (h : Keeps u s) : KeepsOutcome u
    (execPatrolScrubRead cls unit index found last s) := by
  simp only [Machine.execPatrolScrubRead]
  split
  · exact h
  · exact KeepsOutcome.ite h (Keeps.ite (Keeps.sweepEnd (Keeps.ite (h.same rfl) (Keeps.patrolWord (h.same rfl))))
      (Keeps.ite (h.same rfl) (Keeps.patrolWord (h.same rfl))))

theorem Keeps.execPatrolScrubSweepStart {cls : Nat} (h : Keeps u s) : KeepsOutcome u (execPatrolScrubSweepStart cls s) :=
  KeepsOutcome.ite (KeepsOutcome.ite (h.count1.raise.same rfl) (h.same rfl)) h

theorem Keeps.execPatrolScrubBatch {unit : Nat} {reads : List (Nat × Nat × Nat)} (h : Keeps u s) : KeepsOutcome u
    (execPatrolScrubBatch unit reads s) :=
  KeepsOutcome.ite h (Keeps.foldl (h.same rfl) (fun h1 => Keeps.ite h1.patrolWord h1))

theorem Keeps.execMgmtRamError {index flips : Nat} (h : Keeps u s) : KeepsOutcome u (execMgmtRamError index flips s) :=
  KeepsOutcome.ite (Keeps.ite (h.setFlips.checkWord.setFlips.raise.same rfl) h.setFlips.checkWord.setFlips) h

theorem Keeps.execIntInjectWrite {client : Client} {value : Nat} (h : Keeps u s) : KeepsOutcome u (execIntInjectWrite client value s) :=
  h.writeRow (fun h1 => h1.wIntInject)

theorem Keeps.flitFault {i : Nat} {p : Pkt} {data : Bool} {unit idx n : Nat} (h : Keeps u s) : Keeps u (flitFault s i p data unit idx n) :=
  Keeps.ite h.setFlips.checkWord.setFlips (Keeps.ite h.setFlips.checkWord.setFlips.setPkt
    (Keeps.ite h.setFlips.checkWord.setFlips.discardArrival h.setFlips.checkWord.setFlips))

theorem Keeps.execInjectFire {index pkt : Nat} {data : Bool} (h : Keeps u s) : KeepsOutcome u (execInjectFire index pkt data s) := by
  simp only [Machine.execInjectFire]
  split
  · exact h
  · split
    · exact Keeps.ite h.ledgerResidue h
    · split
      · exact h
      · split
        · split
          · exact KeepsOutcome.ite h.injectFired.latchError.flitFault h
          · exact h
        · exact h.injectFired.latchError.setFlips

theorem Keeps.execPpsInEdge {off : Nat} (h : Keeps u s) : KeepsOutcome u (execPpsInEdge off s) :=
  KeepsOutcome.ite h (Keeps.ite (h.same rfl) (Keeps.setReg (h.same rfl)))

theorem Keeps.execPpsOutPulse (h : Keeps u s) : KeepsOutcome u (execPpsOutPulse s) := KeepsOutcome.ite (Keeps.emit (h.same rfl)) h

theorem Keeps.execGpioWrite {client : Client} {out : Bool} {value : Nat} (h : Keeps u s) : KeepsOutcome u
    (execGpioWrite client out value s) :=
  h.writeRow (fun h1 => h1.wGpio)

theorem Keeps.execIoI2cXfer {master : Nat} {answers : List (Nat × List Byte)} (h : Keeps u s) : KeepsOutcome u
    (execIoI2cXfer master answers s) :=
  KeepsOutcome.ite (Keeps.emit (h.same rfl)) h

theorem Keeps.execIoMdioXfer {master : Nat} {answers : List (Nat × List Byte)} (h : Keeps u s) : KeepsOutcome u
    (execIoMdioXfer master answers s) :=
  KeepsOutcome.ite (Keeps.emit (h.same rfl)) h

theorem Keeps.jtagHold {i : Nat} (h : Keeps u s) : Keeps u (jtagHold s i) := Keeps.ite h (h.fullReset.same rfl)

theorem Keeps.execJtagExtest (h : Keeps u s) : KeepsOutcome u (execJtagExtest s) := h.jtagHold

theorem Keeps.execJtagExtestPulse (h : Keeps u s) : KeepsOutcome u (execJtagExtestPulse s) := h.jtagHold

theorem Keeps.execJtagExtestTrain (h : Keeps u s) : KeepsOutcome u (execJtagExtestTrain s) := h.jtagHold

theorem Keeps.execJtagClamp (h : Keeps u s) : KeepsOutcome u (execJtagClamp s) := h.jtagHold

theorem Keeps.execJtagHighz (h : Keeps u s) : KeepsOutcome u (execJtagHighz s) := h.jtagHold

theorem Keeps.jtagLeave {straps : Nat} (h : Keeps u s) : Keeps u (jtagLeave s straps) := Keeps.ite h.startUp h

theorem Keeps.execJtagBypass {straps : Nat} (h : Keeps u s) : KeepsOutcome u (execJtagBypass straps s) := h.jtagLeave.emit

theorem Keeps.execJtagIdcode {straps : Nat} (h : Keeps u s) : KeepsOutcome u (execJtagIdcode straps s) := h.jtagLeave.emit

theorem Keeps.execJtagSamplePreload {straps : Nat} (h : Keeps u s) : KeepsOutcome u (execJtagSamplePreload straps s) := h.jtagLeave

theorem Keeps.execJtagTestExit {straps : Nat} (h : Keeps u s) : KeepsOutcome u (execJtagTestExit straps s) := h.jtagLeave

theorem Keeps.execPowerLoss (h : Keeps u s) : KeepsOutcome u (execPowerLoss s) := h.fullReset.same rfl

theorem Keeps.execTimePllLock (h : Keeps u s) : KeepsOutcome u (execTimePllLock s) := Keeps.ite h (h.same rfl)

theorem Keeps.execFabricLaneSignalChange {lane : Nat} {signal : Bool} (h : Keeps u s) : KeepsOutcome u
    (execFabricLaneSignalChange lane signal s) :=
  KeepsOutcome.ite (Keeps.ite h.setFlane h.setFlane.sectionDefect) h

theorem Keeps.execPrbsCheckerLock {fabric : Bool} {lane : Nat} (h : Keeps u s) : KeepsOutcome u (execPrbsCheckerLock fabric lane s) :=
  KeepsOutcome.ite (KeepsOutcome.ite h.setFlane h) (KeepsOutcome.ite (h.same rfl) h)

theorem Keeps.execFlexeGroupFault {port : Nat} (h : Keeps u s) : KeepsOutcome u (execFlexeGroupFault port s) := KeepsOutcome.ite h.raise h

theorem Keeps.releaseVector {fn v : Nat} (h : Keeps u s) : Keeps u (releaseVector s fn v) :=
  Keeps.ite (Keeps.ite h.setMsix.sendMsix h.setMsix) h

theorem Keeps.execMsixControlWrite {fn field vector : Nat} {on : Bool} (h : Keeps u s) : KeepsOutcome u
    (execMsixControlWrite fn field vector on s) :=
  KeepsOutcome.ite h (KeepsOutcome.ite (Keeps.ite (h.setMsix.foldl (fun h1 => Keeps.ite h1.sendMsix h1)) h.setMsix)
    (KeepsOutcome.ite (h.setMsix.foldl (fun h2 => h2.releaseVector)) h.setMsix.releaseVector))

theorem Keeps.execVfEnableSet {count : Nat} (h : Keeps u s) : KeepsOutcome u (execVfEnableSet count s) := KeepsOutcome.ite h.setReg h

theorem Keeps.execHostCompletionTimeout {tag : Nat} (h : Keeps u s) : KeepsOutcome u (execHostCompletionTimeout tag s) := by
  simp only [Machine.execHostCompletionTimeout]
  split
  · exact h
  · split
    · exact Keeps.injectFailed (h.same rfl)
    · exact h.same rfl

theorem Keeps.execCreditBusyHoldoffEnd {queue : Nat} (h : Keeps u s) : KeepsOutcome u (execCreditBusyHoldoffEnd queue s) := by
  simp only [Machine.execCreditBusyHoldoffEnd]
  split
  · exact KeepsOutcome.ite (Keeps.touchVoqs (h.same rfl)) h
  · exact h

theorem Keeps.exec (i : Instr) (s : State) (hi : ∀ n, i ≠ .powerOnReset false n) : KeepsOutcome s (exec i s) := by
  have h := Keeps.refl s
  simp only [Machine.exec]
  split
  · exact h.execRegisterWrite
  · exact h.execCrossing
  · exact h.execGovernorInterval
  · exact h.execIslandModeWrite
  · exact h.execPinAllScalableWrite
  · exact h.execTimeConfigWrite
  · exact h.execPortModeWrite
  · exact h.execPortFecWrite
  · exact h.execPortAdminUpWrite
  · exact h.execLinkUp
  · exact h.execLinkDown
  · exact h.execLineLaneSignalChange
  · exact h.execRxFrameStart
  · exact h.execRxFrameEnd
  · exact h.execPauseTimeExpiry
  · exact h.execLmacDrainResume
  · exact h.execPauseResend
  · exact h.execEggTimerFire
  · exact h.execEggHoldEnd
  · exact h.execTxFrameStart
  · exact h.execTxFrameEnd
  · exact h.execPortTsFifoRead
  · exact h.execPortStatsReadClear
  · exact h.execFlexeCalSwitch
  · exact h.execFlexeCalSwitchAck
  · exact h.execFlexeCalSwitchTimeout
  · exact h.execLanePrbsModeWrite
  · exact h.execPrbsLockLost
  · exact h.execLanePrbsErrorsRead
  · exact h.execLaneLoopbackWrite
  · exact h.execIngressPass
  · exact h.execCounterUpdatePost
  · exact h.execEgressRun
  · exact h.execClsEpochSwap
  · exact h.execEpochRetired
  · exact h.execClsStagePlanWrite
  · exact h.execClsDirectTableWrite
  · exact h.execClsRewriteProfilesWrite
  · exact h.execClsCompatBucketsWrite
  · exact h.execLearnNoticesRead
  · exact h.execLkpLoadWrite
  · exact h.execLkpApply
  · exact h.execRouteAdd
  · exact h.execRouteDelete
  · exact h.execRouteReplace
  · exact h.execExactAdd
  · exact h.execExactDelete
  · exact h.execExactReplace
  · exact h.execAdjacencyWrite
  · exact h.execGroupWrite
  · exact h.execMemberWrite
  · exact h.execActionProfileWrite
  · exact h.execCompatibilitySlotWrite
  · exact h.execLpmSubtreeSwitch
  · exact h.execLpmSubtreeFree
  · exact h.execLkpApplyEnd
  · exact h.execLkpPivotMove
  · exact h.execPivotOldCopiesRemove
  · exact h.execLkpDumpRead
  · exact h.execAseLoadWrite
  · exact h.execAseApply
  · exact h.execAseInsert
  · exact h.execAseDelete
  · exact h.execAseReplace
  · exact h.execAseMembership
  · exact h.execAseRegionCreate
  · exact h.execAseRegionDelete
  · exact h.execAseActionProfileWrite
  · exact h.execAseCopyStep
  · exact h.execAseWriteStep
  · exact h.execAseSweepStart
  · exact h.execAseScrubRead
  · exact h.execAseTempRead
  · exact h.execAseUpdateBudgetWrite
  · exact h.execAseScrubBudgetWrite
  · exact h.execAseDumpRead
  · exact h.execMeterCorrection
  · exact h.execMtrConfigWrite
  · exact h.execMtrLoadWrite
  · exact h.execMtrApply
  · exact h.execCtrPktsRead
  · exact h.execCtrClear
  · exact h.execCtrSweep
  · exact h.execEnqueueArrival
  · exact h.execSkimmerRebuildDone
  · exact h.execLastByteStored
  · exact h.execDequeue
  · exact h.execUnspillPrefetch
  · exact h.execPoolDescWrite
  · exact h.execAdmProfileWrite
  · exact h.execPoolSizeWrite
  · exact h.execFcThresholdWrite
  · exact h.execPoolWatermarkRead
  · exact h.execHbmRequest
  · exact h.execHbmRequestComplete
  · exact h.execRefreshDue
  · exact h.execRefreshPayback
  · exact h.execHbmTempRead
  · exact h.execHbmRateWindow
  · exact h.execHbmRateChange
  · exact h.execHbmRatePinWrite
  · exact h.execHbmIdleEnter
  · exact h.execHbmCapture
  · exact h.execHbmInit
  · exact h.execHbmOffline
  · exact h.execHbmDrained
  · exact h.execHbmPatrolScrub
  · exact h.execHbmScrubBatch
  · exact h.execHbmRefreshOwedMaxRead
  · exact h.execShaperRefill
  · exact h.execShaperCorrection
  · exact h.execMcFanout
  · exact h.execVoqIdleRelease
  · exact h.execQmLoadWrite
  · exact h.execQmApply
  · exact h.execNodeWrite
  · exact h.execQueueWrite
  · exact h.execClassMapWrite
  · exact h.execMcGroupWrite
  · exact h.execTargetWrite
  · exact h.execSchConfigWrite
  · exact h.execFecCodewordDecode
  · exact h.execBuntingFrameReceive
  · exact h.execBuntingFrameSend
  · exact h.execContainerFrameReceive
  · exact h.execLosClear
  · exact h.execPmSecond
  · exact h.execLaneSetPropose
  · exact h.execLaneSetAccept
  · exact h.execLaneSetReject
  · exact h.execLaneSetCommit
  · exact h.execLaneSetRequest
  · exact h.execLaneSetEffect
  · exact h.execLaneSetTimeout
  · exact h.execLaneQuiet
  · exact h.execLaneWake
  · exact h.execLaneAutoRemove
  · exact h.execShedGovernor
  · exact h.execFbLaneSetChange
  · exact h.execMgmtChannelPacket
  · exact h.execFabricPrbsLoopbackWrite
  · exact h.execFlPrbsErrorsRead
  · exact h.execIdlePennantReceive
  · exact h.execDataPennantReceive
  · exact h.execMulticastPennantReceive
  · exact h.execBeaconReceive
  · exact h.execSequenceStartReceive
  · exact h.execCreditRequestPennantReceive
  · exact h.execCreditGrantPennantReceive
  · exact h.execCreditRequestEntry
  · exact h.execCreditGrantEntry
  · exact h.execCreditReturnEntry
  · exact h.execCreditBusyEntry
  · exact h.execProbeEntry
  · exact h.execProbeAnswerEntry
  · exact h.execBeaconSend
  · exact h.execBeaconMissCheck
  · exact h.execProbeSend
  · exact h.execProbeUnanswered
  · exact h.execCreditPennantSend
  · exact h.execGrantIssue
  · exact h.execCreditReturnTimer
  · exact h.execCreditRequestTimeout
  · exact h.execPennantSend
  · exact h.execReorderTimeout
  · exact h.execReassemblyTimeout
  · exact h.execFtDeviceIdWrite
  · exact h.execLedgerEpochBoundary
  · exact h.execPerfSelectWrite
  · exact h.execPerfCounterWrite
  · exact h.execPerfCounterWrap
  · exact h.execBwWindowEnd
  · exact h.execBwWindowKWrite
  · exact h.execQwmValueRead
  · exact h.execHistSample
  · exact h.execHistClear
  · exact h.execSojClear
  · exact h.execEnsignSnapshot
  · exact h.execEnsignMessageSend
  · exact h.execEnsignTemplateSend
  · exact h.execEnsEnableWrite
  · exact h.execMirrorSessionWrite
  · exact h.execFwEventTake
  · exact h.execCauseEnableWrite
  · exact h.execCauseClear
  · exact h.execEvtStickyClear
  · exact h.execEvtGroupStickyClear
  · exact h.execEvtMaskWrite
  · exact h.execEvtGroupMaskWrite
  · exact h.execEvtRouteWrite
  · exact h.execEvtTestRaise
  · exact h.execEvtFwQueueHighRead
  · exact h.execOdAccessStatusRead
  · exact h.execMbDoorbell
  · exact h.execSynsaRead
  · exact h.execSynsaWrite
  · exact h.execDomainBegin
  · exact h.execDomainSegment
  · exact h.execDomainEnd
  · exact h.execJobStart
  · exact h.execJobStatus
  · exact h.execSynsaEventSend
  · exact h.execDiscoverProbe
  · exact h.execSessionOpen
  · exact h.execSessionClose
  · exact h.execAnnounceSend
  · exact h.execAnnounceReceive
  · exact h.execSynsaRelay
  · exact h.execRelayResponse
  · exact h.execRelayEntryExpire
  · exact h.execSessionIdleTimeout
  · exact h.execDomainIdleTimeout
  · exact h.execOdSave
  · exact h.execOdSettingsErase
  · exact h.execCountedWrite
  · exact Keeps.execCountedWriteComplete s
  · exact h.execSynDeviceKeyWrite
  · exact h.execPuntDma
  · exact h.execPuntDoorbell
  · exact h.execInjectDoorbell
  · exact h.execInjectFetch
  · exact h.execInjectBuild
  · exact h.execHostReadCompletion
  · exact h.execRingInterrupt
  · exact h.execRingConfigWrite
  · exact h.execHostPuntBindWrite
  · exact h.execVfOdGrantWrite
  · exact h.execVfFlr
  · exact h.execVfReset
  · exact h.execVfEnableClear
  · exact h.execPfFlr
  · exact h.execPcieHotReset
  · exact h.execPcieLinkChange
  · exact h.execCounterExport
  · exact h.execFwStagedWrite
  · exact h.execFwStagedVerify
  · exact h.execFwInstall
  · exact h.execLoaderBoot
  · exact h.execRecoverySeek
  · exact h.execRelayPoll
  · exact h.execImageFetchComplete
  · exact h.execFwRollbackFloorWrite
  · exact h.execMgmtRestartLFall
  · exact h.execMgmtRestartLRise
  · exact h.execFwRestart
  · exact h.execFwWatchdogExpiry
  · exact h.execFirmwareStart
  · rename_i ok n
    cases ok with
    | false => exact absurd rfl (hi n)
    | true => exact h.execPowerOnReset
  · exact h.execPinReset
  · exact h.execFuseSenseComplete
  · exact h.execLoaderSectorCheck
  · exact h.execSettingsReload
  · exact h.execAvsEvaluate
  · exact h.execRetentionEnter
  · exact h.execRetentionExit
  · exact h.execDatapathReset
  · exact h.execIslandReset
  · exact h.execTempRead
  · exact h.execPowerEstimateUpdate
  · exact h.execRefclkLoss
  · exact h.execPatrolScrubRead
  · exact h.execPatrolScrubSweepStart
  · exact h.execPatrolScrubBatch
  · exact h.execMgmtRamError
  · exact h.execIntInjectWrite
  · exact h.execInjectFire
  · exact h.execPpsInEdge
  · exact h.execPpsOutPulse
  · exact h.execGpioWrite
  · exact h.execIoI2cXfer
  · exact h.execIoMdioXfer
  · exact h.execJtagExtest
  · exact h.execJtagExtestPulse
  · exact h.execJtagExtestTrain
  · exact h.execJtagClamp
  · exact h.execJtagHighz
  · exact h.execJtagBypass
  · exact h.execJtagIdcode
  · exact h.execJtagSamplePreload
  · exact h.execJtagTestExit
  · exact h.execPowerLoss
  · exact h.execTimePllLock
  · exact h.execFabricLaneSignalChange
  · exact h.execPrbsCheckerLock
  · exact h.execFlexeGroupFault
  · exact h.execMsixControlWrite
  · exact h.execVfEnableSet
  · exact h.execHostCompletionTimeout
  · exact h.execCreditBusyHoldoffEnd

theorem Keeps.ppsFalls (h : Keeps u s) : Keeps u (ppsFalls s) := by
  simp only [Machine.ppsFalls]
  split
  · exact Keeps.ite (Keeps.emit (h.same rfl)) h
  · exact h

theorem Keeps.timeStepped {v : Nat} (h : Keeps u s) : Keeps u (timeStepped s v) := by
  unfold Machine.timeStepped
  generalize (v + 2 ^ 64 - s.time % 2 ^ 64) % 2 ^ 64 = w
  exact h.same rfl

theorem Keeps.timeArrivals (h : Keeps u s) : Keeps u (timeArrivals s) :=
  h.foldl (fun h1 => Keeps.ite (Keeps.timeStepped (h1.same rfl)) h1)

theorem Keeps.throttleTick {k : Nat} (h : Keeps u s) : Keeps u (throttleTick s k) := Keeps.ite h h.count1

theorem Keeps.tick (h : Keeps u s) : Keeps u (tick s) :=
  Keeps.ite (h.same rfl) (Keeps.perfEvent (Keeps.foldl (Keeps.ppsFalls (Keeps.timeArrivals (h.same rfl))) (fun h1 => h1.throttleTick)))

end Sys2Proof.Machine
end

section
/-! SUPPORT. What a step keeps (R411). -/

namespace Sys2Proof.Machine

/-- What a nanosecond of TIME keeps, and what a command of the queue keeps once it is taken. -/
theorem step_keeps {s t : State} (e : step s = .next t) :
    ∃ u, u = { s with pending := s.pending.tail } ∧ Keeps u t := by
  refine ⟨_, rfl, ?_⟩
  unfold step at e
  split at e
  · rename_i hp
    cases e
    have h : Keeps { s with pending := s.pending.tail } s :=
      (Keeps.refl _).same (by rw [hp]; rfl)
    exact h.tick
  · rename_i c rest hp
    rw [hp]
    have h := Keeps.exec c { s with pending := rest } (by
      rintro n rfl
      cases e)
    rw [e] at h
    exact h

theorem completes_of_keepsOutcome {u : State} {o : Host.Outcome State Fault Refusal} (h : KeepsOutcome u o) : ∃ t, o = .next t := by
  cases o with
  | next t => exact ⟨t, rfl⟩
  | fault f => exact h.elim
  | refused r => exact h.elim

end Sys2Proof.Machine
end

section
/-! SAFETY. What every step keeps. -/

namespace Sys2Proof

open Machine

/-- Settles O1: by the definition of a step. -/
theorem stepRunsFrontCommand : Obligations.StepRunsFrontCommand := by
  unfold Obligations.StepRunsFrontCommand
  intro c rest s
  rfl

/-- Settles O3: every command but a power-on outside the ratings leaves a next state (`Keeps.exec`). -/
theorem everyCommandCompletes : Obligations.EveryCommandCompletes := by
  unfold Obligations.EveryCommandCompletes
  exact ⟨fun c s hc => completes_of_keepsOutcome (Keeps.exec c s hc), fun n s => rfl⟩

/-- Settles O57: the state after reset lists two entries and nothing else. -/
theorem resetState : Obligations.ResetState := by
  unfold Obligations.ResetState
  refine ⟨rfl, rfl, rfl, rfl, by decide, by decide, by decide, fun k hk hk' => ?_, by decide, reset_memories_wf, ?_⟩
  · have hlast : k ≠ 0x130600 := hk
    have hcount : k ≠ 0x130701 := hk'
    change mget (odDefault k) [(0x130600, 1), (0x130701, 1)] k = odDefault k
    simp [mget, hlast, hcount]
  · exact ⟨by decide, fun k => Nat.zero_le _, List.nodup_nil, rfl⟩

/-- Settles O59: every function a command runs keeps the canonical forms and the accounts (`Keeps`), one lemma a function. -/
theorem stepKeepsTidy : Obligations.StepKeepsTidy := by
  unfold Obligations.StepKeepsTidy
  intro s t ho hm hc e
  obtain ⟨u, rfl, h⟩ := step_keeps e
  exact ⟨h.odTidy ho, h.memoriesTidy hm, (h.accounts hc).1⟩

/-- Settles O60: a step keeps the rest of the queue and the counts, and the device key but for a burning write of it (`Keeps`). -/
theorem stepKeepsCounts : Obligations.StepKeepsCounts := by
  unfold Obligations.StepKeepsCounts
  intro s t _ hc e
  obtain ⟨u, rfl, h⟩ := step_keeps e
  exact ⟨h.pending_eq, (h.accounts hc).2, fun hk => h.deviceKey.resolve_left hk⟩

end Sys2Proof
end

section
/-! SUPPORT. The event system (ch. 15): bits of masks, sticky bits under pulses, and the vectors of MSI-X. -/

namespace Sys2Proof.Machine

variable {α : Type}

/-! ### Bits -/

theorem bit_eq_testBit (v i : Nat) : bit v i = v.testBit i := by
  simp [bit, Nat.testBit, Nat.shiftRight_eq_div_pow, Nat.one_and_eq_mod_two]

theorem bit_land (v m i : Nat) : bit (Nat.land v m) i = (bit v i && bit m i) := by
  simp only [bit_eq_testBit]
  exact Nat.testBit_and v m i

theorem bit_succ (v i : Nat) : bit v (i + 1) = bit (v / 2) i := by
  rw [bit, bit, Nat.pow_succ', Nat.div_div_eq_div_mul]

theorem bit_zero (v : Nat) : bit v 0 = (v % 2 == 1) := by simp [bit]

/-- What a mask leaves of a value, halved and by its lowest bit. -/
theorem sub_and_div_two (v m : Nat) : (v - (v &&& m)) / 2 = v / 2 - (v / 2 &&& m / 2) ∧
    (v - (v &&& m)) % 2 = (if m % 2 = 1 then 0 else v % 2) := by
  have hd : (v &&& m) / 2 = (v / 2 &&& m / 2) := Nat.and_div_two
  have hm : (v &&& m) % 2 = if m % 2 = 1 then v % 2 else 0 := by
    rw [Nat.and_mod_two_pow (n := 1), Nat.pow_one]
    rcases Nat.mod_two_eq_zero_or_one m with h | h <;> rcases Nat.mod_two_eq_zero_or_one v with h' | h' <;> rw [h, h'] <;> rfl
  have hle : (v &&& m) ≤ v := Nat.and_le_left
  split at hm <;> rename_i h
  · simp only [h, if_true]
    omega
  · simp only [h, if_false]
    omega

theorem bit_dropBits (v m i : Nat) : bit (dropBits v m) i = (bit v i && !bit m i) := by
  change bit (v - (v &&& m)) i = _
  induction i generalizing v m with
  | zero =>
    rw [bit_zero, bit_zero, bit_zero, (sub_and_div_two v m).2]
    rcases Nat.mod_two_eq_zero_or_one m with h | h <;> simp [h]
  | succ i ih => rw [bit_succ, bit_succ, bit_succ, (sub_and_div_two v m).1, ih]

theorem mem_bitList {n v i : Nat} : i ∈ bitList n v ↔ i < n ∧ bit v i = true := by simp [bitList]

/-! ### Entries that no row names -/

/-- A permitted write names an entry of the dictionary. -/
theorem odFind_of_permitted {s : State} {c : Client} {k v : Nat} (h : Permitted s c k v) : ∃ r, odFind k = some r := by
  have hc := h.1
  unfold writeChecks at hc
  split at hc
  · cases hc
  · exact ⟨_, ‹_›⟩

/-! ### Sticky bits -/

/-- No sticky bit is cleared. -/
def StickyKept (s t : State) : Prop := ∀ src, srcSticky s src = true → srcSticky t src = true

theorem StickyKept.refl (s : State) : StickyKept s s := fun _ => id

theorem StickyKept.trans {s t u : State} (h : StickyKept s t) (g : StickyKept t u) : StickyKept s u := fun src hs => g src (h src hs)

theorem stickyKept_foldl {f : State → α → State} (h : ∀ s x, StickyKept s (f s x)) (l : List α) (s : State) :
    StickyKept s (l.foldl f s) :=
  List.foldlRecOn l f (motive := fun t => StickyKept s t) (.refl s) fun t ht x _ => ht.trans (h t x)

theorem sticky_sendMsix (s : State) (fn v : Nat) : (sendMsix s fn v).evt.sticky = s.evt.sticky := by
  simp only [sendMsix]
  repeat' split
  all_goals rfl

theorem sticky_riseMessages (s0 s : State) (l : List (Nat × Nat)) : (riseMessages s0 s l).evt.sticky = s.evt.sticky := by
  refine List.foldlRecOn l _ (motive := fun t : State => t.evt.sticky = s.evt.sticky) rfl fun t ht x _ => ?_
  split
  · rw [sticky_sendMsix, ht]
  · exact ht

theorem sticky_ensPut (s : State) (n : Nat) (b : List Byte) : (ensPut s n b).2.evt.sticky = s.evt.sticky := by
  simp only [ensPut]
  repeat' split
  all_goals rfl

theorem sticky_fwEnqueue (s : State) (src : Nat) : (fwEnqueue s src).evt.sticky = s.evt.sticky := by
  simp only [fwEnqueue]
  repeat' split
  all_goals rfl

/-- The pulse sets the source's sticky bit, and no other sticky bit moves (R380). -/
theorem sticky_pulseBare (s : State) (src : Nat) : (pulseBare s src).2.evt.sticky = mset false s.evt.sticky src true := by
  have hput : ∀ (c : Prop) [Decidable c] (t : State) (n : Nat) (b : List Byte),
      (if c then ensPut t n b else (false, t)).2.evt.sticky = t.evt.sticky := by
    intro c _ t n b
    split
    · exact sticky_ensPut t n b
    · rfl
  simp only [pulseBare]
  rw [hput]
  split
  · rw [sticky_fwEnqueue, sticky_riseMessages]
    rfl
  · rw [sticky_riseMessages]
    rfl

theorem srcSticky_pulseBare_self (s : State) (src : Nat) : srcSticky (pulseBare s src).2 src = true := by
  rw [srcSticky, sticky_pulseBare, mget_mset_self]

theorem stickyKept_pulseBare (s : State) (src : Nat) : StickyKept s (pulseBare s src).2 := by
  intro x hx
  by_cases h : x = src
  · rw [h, srcSticky_pulseBare_self]
  · rw [srcSticky, sticky_pulseBare, mget_mset_ne _ _ _ _ _ h]
    exact hx

theorem stickyKept_setReg (s : State) (k v : Nat) : StickyKept s (setReg s k v) := fun _ => id

theorem stickyKept_ensignDropped (s : State) : StickyKept s (ensignDropped s) := by
  simp only [ensignDropped]
  split
  · exact .refl s
  · split
    · exact (stickyKept_setReg s _ _).trans (stickyKept_pulseBare _ _)
    · exact stickyKept_setReg s _ _

theorem pulseOne_sticky (s : State) (src : Nat) : StickyKept s (pulseOne s src) ∧ srcSticky (pulseOne s src) src = true := by
  simp only [pulseOne]
  split
  · exact ⟨(stickyKept_pulseBare s src).trans (stickyKept_ensignDropped _),
      stickyKept_ensignDropped _ _ (srcSticky_pulseBare_self s src)⟩
  · exact ⟨stickyKept_pulseBare s src, srcSticky_pulseBare_self s src⟩

theorem pulse_sticky (s : State) (src : Nat) : StickyKept s (pulse s src) ∧ srcSticky (pulse s src) src = true := by
  have h := pulseOne_sticky s src
  simp only [pulse]
  split
  · have g := pulseOne_sticky (pulseOne s src) 64
    exact ⟨h.1.trans g.1, g.1 _ h.2⟩
  · exact h

theorem stickyKept_pulseCause (s : State) (c : CauseReg) (b : Nat) : StickyKept s (pulseCause s c b) := by
  simp only [pulseCause]
  split
  · exact (pulse_sticky s _).1
  · exact .refl s

/-- A cause that is newly raised and enabled pulses its source (R380). -/
theorem srcSticky_raise {s : State} {c : CauseReg} {b src : Nat} (hb : bit (reg s c.key) b = false)
    (he : bit (reg s c.enableKey) b = true) (hk : c.enableKey ≠ c.key) (hs : ∀ t, c.source t b = some src) :
    srcSticky (raise s c b) src = true := by
  have hen : bit (reg (setReg s c.key (setBit (reg s c.key) b)) c.enableKey) b = true := by rw [reg_setReg_ne s _ _ _ hk, he]
  simp only [raise, hb, hen, pulseCause, hs]
  exact (pulse_sticky _ _).2

/-! ### A cause enable (R380) -/

/-- Events and the cause enable of a port leave the entries its source depends on. -/
theorem reg_portPlace {s t : State} {p q sub : Nat} (h : Noted [Reg.portCauseEnable p] s t) (hp : p < 1024) (hq : q < 1024)
    (hsub : sub < 256) (hne : sub ≠ 0x1F) : reg t (key (0x2000 + q) sub) = reg s (key (0x2000 + q) sub) := by
  refine h.2.2 _ (side_portLane (by omega) (by omega) hsub) ?_
  rw [List.mem_singleton, Reg.portCauseEnable, keyIf_lt hp]
  simp only [key]
  omega

/-- One step of the search for the lowest PHY of a group (R60). -/
def lowerPhy (s : State) (b : Option Nat) (p : Nat) : Option Nat :=
  match b with
  | none => some p
  | some q => if reg s (Reg.portFlexePhyNumber p) < reg s (Reg.portFlexePhyNumber q) then some p else some q

theorem lowestPhy_eq_foldl (s : State) (l : List Nat) : lowestPhy s l = l.foldl (lowerPhy s) none := rfl

theorem portSource_of_noted {s t : State} {p : Nat} (h : Noted [Reg.portCauseEnable p] s t) (hp : p < 1024) :
    portSource t p = portSource s p := by
  have hrole : ∀ q, q < 1024 → reg t (Reg.portRole q) = reg s (Reg.portRole q) := fun q hq => by
    rw [Reg.portRole, keyIf_lt hq]
    exact reg_portPlace h hp hq (by decide) (by decide)
  have hgroup : ∀ q, q < 1024 → flexeGroup t q = flexeGroup s q := fun q hq => by
    rw [flexeGroup, flexeGroup, Reg.portFlexeGroup, keyIf_lt hq, reg_portPlace h hp hq (by decide) (by decide)]
  have hnumber : ∀ q, q < 1024 → reg t (Reg.portFlexePhyNumber q) = reg s (Reg.portFlexePhyNumber q) := fun q hq => by
    rw [Reg.portFlexePhyNumber, keyIf_lt hq]
    exact reg_portPlace h hp hq (by decide) (by decide)
  have hplace : ∀ j ∈ List.range 16, 64 * pipeOf p + 32 * (j / 8) + j % 8 < 1024 := fun j hj => by
    rw [List.mem_range] at hj
    simp only [pipeOf]
    omega
  have hphys : ∀ g, groupPhys t (pipeOf p) g = groupPhys s (pipeOf p) g := fun g => by
    refine List.filter_congr fun q hq => ?_
    obtain ⟨j, hj, rfl⟩ := List.mem_map.1 hq
    rw [hrole _ (hplace j hj), hgroup _ (hplace j hj)]
  have hlowest : ∀ (l : List Nat) (b : Option Nat), (∀ q ∈ l, q < 1024) → (∀ q ∈ b, q < 1024) →
      l.foldl (lowerPhy t) b = l.foldl (lowerPhy s) b := by
    intro l
    induction l with
    | nil => exact fun _ _ _ => rfl
    | cons p l ih =>
      intro b hl hb
      have hp := hl p (List.mem_cons_self ..)
      have hone : lowerPhy t b p = lowerPhy s b p := by
        cases b with
        | none => rfl
        | some q => simp only [lowerPhy, hnumber p hp, hnumber q (hb q rfl)]
      have hin : ∀ q ∈ lowerPhy s b p, q < 1024 := by
        cases b with
        | none => simpa [lowerPhy] using hp
        | some q =>
          simp only [lowerPhy]
          split
          · simpa using hp
          · exact hb
      rw [List.foldl_cons, List.foldl_cons, hone]
      exact ih _ (fun q hq => hl q (List.mem_cons_of_mem _ hq)) hin
  rw [portSource, portSource, hrole p hp, hgroup p hp, hphys, lowestPhy_eq_foldl, lowestPhy_eq_foldl, hlowest _ none _ (by simp)]
  intro q hq
  obtain ⟨j, hj, rfl⟩ := List.mem_map.1 (List.mem_of_mem_filter hq)
  exact hplace j hj

/-- The source of a cause depends on no entry that events move, nor on its enable. -/
theorem source_of_noted {s t : State} {c : CauseReg} (h : Noted [c.enableKey] s t) (hc : ∀ p, c = .port p → p < 1024) (b : Nat) :
    c.source t b = c.source s b := by
  cases c with
  | port p => exact portSource_of_noted h (hc p rfl)
  | _ => rfl

/-- The cause registers that there are: each parameter in its range. -/
def CauseReg.inPlace : CauseReg → Bool
  | .port p => decide (p < 1024)
  | .lane l => decide (l < 256)
  | .fl l => decide (l < 320)
  | .fb b => decide (b < 8)
  | .ase k => decide (k < 8)
  | .hbm s => decide (s < 4)
  | _ => true

/-- The test of one register against an entry. -/
theorem causeOfEntry_test {k : Nat} {r q : CauseReg} {b : Bool}
    (h : (if k = q.key then some (q, false) else if k = q.enableKey then some (q, true) else none) = some (r, b)) : r = q := by
  repeat' split at h
  all_goals cases h
  all_goals rfl

/-- The entries name cause registers that there are. -/
theorem causeOfEntry_inPlace {c : Client} {k : Nat} {r : CauseReg} {b : Bool} (h : causeOfEntry c k = some (r, b)) :
    r.inPlace = true := by
  simp only [causeOfEntry] at h
  split at h
  case isTrue hi =>
    rw [causeOfEntry_test h]
    simp only [CauseReg.inPlace, decide_eq_true_eq]
    omega
  split at h
  case isTrue hi =>
    rw [causeOfEntry_test h]
    simp only [CauseReg.inPlace, decide_eq_true_eq]
    omega
  split at h
  case isTrue hi =>
    rw [causeOfEntry_test h]
    simp only [CauseReg.inPlace, decide_eq_true_eq]
    omega
  split at h
  case isTrue hi =>
    rw [causeOfEntry_test h]
    simp only [CauseReg.inPlace, decide_eq_true_eq]
    omega
  split at h
  · cases c with
    | vf v =>
      cases h
      rfl
    | _ => cases h
  · obtain ⟨q, hq, ht⟩ := List.exists_of_findSome?_eq_some h
    rw [causeOfEntry_test ht]
    clear ht h
    revert q
    decide

/-- No entry of a function's own is moved by events. -/
theorem side_of_high {k : Nat} (h : 0x1000000 ≤ k) : sideEntry k = false := by
  simp only [sideEntry, Bool.or_eq_false_iff, Bool.and_eq_false_iff, beq_eq_false_iff_ne, decide_eq_false_iff_not,
    Reg.obsCause, Reg.evtPulses, Reg.evtFwQueueHigh, Reg.evtFwQueueLost, Reg.ensRecordsDropped, Reg.ensPostcardsSuppressed, key]
  omega

/-- A per-caller entry is moved by no event. -/
theorem side_callerKey (v : Nat) {k : Nat} (hs : sideEntry k = false) : sideEntry (callerKey v k) = false := by
  cases v with
  | zero => rwa [callerKey, Nat.zero_mul, Nat.zero_add]
  | succ n =>
    refine side_of_high ?_
    rw [callerKey]
    omega

/-- An enable is neither an entry that events move nor the register it enables. -/
theorem enableKey_side {r : CauseReg} (h : r.inPlace = true) : sideEntry r.enableKey = false ∧ r.enableKey ≠ r.key := by
  cases r with
  | port p =>
    have hp : p < 1024 := of_decide_eq_true h
    simp only [CauseReg.enableKey, CauseReg.key, Reg.portCauseEnable, Reg.portCause, keyIf_lt hp]
    exact ⟨side_portLane (by omega) (by omega) (by decide), key_ne_of_sub _ (by decide)⟩
  | lane p =>
    have hp : p < 256 := of_decide_eq_true h
    simp only [CauseReg.enableKey, CauseReg.key, Reg.laneCauseEnable, Reg.laneCause, keyIf_lt hp]
    exact ⟨side_portLane (by omega) (by omega) (by decide), key_ne_of_sub _ (by decide)⟩
  | fl p =>
    have hp : p < 320 := of_decide_eq_true h
    simp only [CauseReg.enableKey, CauseReg.key, Reg.flCauseEnable, Reg.flCause, keyIf_lt hp]
    exact ⟨side_portLane (by omega) (by omega) (by decide), key_ne_of_sub _ (by decide)⟩
  | fb p =>
    have hp : p < 8 := of_decide_eq_true h
    simp only [CauseReg.enableKey, CauseReg.key, Reg.fbCauseEnable, Reg.fbCause, keyIf_lt hp]
    exact ⟨side_portLane (by omega) (by omega) (by decide), key_ne_of_sub _ (by decide)⟩
  | ase p =>
    have hp : p < 8 := of_decide_eq_true h
    clear h
    revert hp
    revert p
    decide
  | hbm p =>
    have hp : p < 4 := of_decide_eq_true h
    clear h
    revert hp
    revert p
    decide
  | vf v =>
    simp only [CauseReg.enableKey, CauseReg.key]
    refine ⟨side_callerKey v (by decide), ?_⟩
    simp only [callerKey, Reg.vfCauseEnable, Reg.vfCause, key]
    omega
  | _ => decide

theorem reg_writeCauseEnable (s : State) {r : CauseReg} (h : r.inPlace = true) (v : Nat) :
    reg (writeCauseEnable s r v) r.enableKey = v ∧ Noted [r.enableKey] s (writeCauseEnable s r v) := by
  have hpulse : Noted [] (setReg s r.enableKey v) (writeCauseEnable s r v) :=
    noted_foldl [] _ (fun t b => noted_pulseCause [] t r b) _ _
  refine ⟨?_, (noted_setReg _ s _ v (.inl (List.mem_singleton.2 rfl))).trans hpulse.side⟩
  rw [hpulse.2.2 _ (enableKey_side h).1 List.not_mem_nil, reg_setReg_self]

/-- A bit that is newly enabled over a set cause pulses its source (R380). -/
theorem srcSticky_writeCauseEnable {s : State} {r : CauseReg} {v b src : Nat} (h : r.inPlace = true) (hb : b < 32)
    (hc : bit (reg s r.key) b = true) (hv : bit v b = true) (ho : bit (reg s r.enableKey) b = false) (hs : r.source s b = some src) :
    srcSticky (writeCauseEnable s r v) src = true := by
  have hport : ∀ p, r = .port p → p < 1024 := by
    rintro p rfl
    exact of_decide_eq_true h
  have hkey : reg (setReg s r.enableKey v) r.key = reg s r.key := reg_setReg_ne s _ _ _ (enableKey_side h).2.symm
  have hmem : b ∈ bitList 32 (Nat.land (reg (setReg s r.enableKey v) r.key) (dropBits v (Nat.land (reg s r.enableKey) v))) := by
    rw [mem_bitList, hkey, bit_land, bit_dropBits, bit_land, hc, hv, ho]
    exact ⟨hb, rfl⟩
  obtain ⟨l1, l2, hl⟩ := List.append_of_mem hmem
  have hbefore : Noted [r.enableKey] s (l1.foldl (fun t b => pulseCause t r b) (setReg s r.enableKey v)) :=
    (noted_setReg _ s _ v (.inl (List.mem_singleton.2 rfl))).trans (noted_foldl _ _ (fun t b => noted_pulseCause _ t r b) _ _)
  rw [writeCauseEnable, hl, List.foldl_append, List.foldl_cons]
  refine stickyKept_foldl (fun t b => stickyKept_pulseCause t r b) l2 _ _ ?_
  rw [pulseCause, source_of_noted hbefore hport, hs]
  exact (pulse_sticky _ src).2

end Sys2Proof.Machine
end

section
/-! SAFETY. Causes, their enables and the test raise (R380, R381, R388). -/

namespace Sys2Proof
open Machine

/-- Settles O39: a write of an enable is a store and the pulses of the bits it newly enables, none of which touches the enable. -/
theorem causesAndPulses : Obligations.CausesAndPulses := by
  intro s c k v r hs
  refine ⟨fun hk hp => ?_, fun hk hp => ?_, fun hp hlo hhi => ?_⟩
  · have hin := causeOfEntry_inPlace hk
    obtain ⟨hreg, hnoted⟩ := reg_writeCauseEnable s hin (writable k v)
    refine ⟨writeCauseEnable s r (writable k v), ?_, hreg, hnoted, ?_⟩
    · have := permitted_does hp (rule := fun s => .done (writeCauseEnable s r (writable k v))) rfl
      simp only [Does, Answers, exec, execCauseEnableWrite, hk, this]
    · intro b src hb hc hv ho hsrc
      exact srcSticky_writeCauseEnable hin hb hc hv ho hsrc
  · have := permitted_does hp (rule := fun s => .done (clearCause s r (writable k v))) rfl
    simp only [Does, Answers, exec, execCauseClear, hk, this]
    rfl
  · refine ⟨raise s .test (v - 1008), ?_, bit_raise_self s .test _ (by decide), noted_raise _ s .test _ (.inl (List.mem_singleton.2 rfl)),
      fun hb he => ?_⟩
    · refine congrArg Host.Outcome.next (permitted_does hp ?_)
      rw [wTestRaise, if_pos ⟨hlo, hhi⟩]
    · refine srcSticky_raise hb he (by decide) fun t => congrArg some ?_
      omega

end Sys2Proof
end

section
/-! SUPPORT. Event entries (R380, R384–R386): what a clear, a mask and the controls of MSI-X leave. -/

namespace Sys2Proof.Machine

/-! ### Sticky bits are cleared (R380, R386) -/

theorem clearSticky_of_pulsed {s : State} {src : Nat} (h : mfind s.evt.pulsedAt src = some s.time) : clearSticky s src = s := if_pos h

theorem clearSticky_of_not_pulsed {s : State} {src : Nat} (h : mfind s.evt.pulsedAt src ≠ some s.time) :
    clearSticky s src = { s with evt.sticky := mset false s.evt.sticky src false } := if_neg h

/-- A clear leaves all but the sticky bits, and sets none of them. -/
theorem clearSticky_frame (s : State) (src : Nat) : (∃ m, clearSticky s src = { s with evt.sticky := m }) ∧
    ∀ x, srcSticky s x = false → srcSticky (clearSticky s src) x = false := by
  by_cases h : mfind s.evt.pulsedAt src = some s.time
  · rw [clearSticky_of_pulsed h]
    exact ⟨⟨_, rfl⟩, fun _ => id⟩
  · rw [clearSticky_of_not_pulsed h]
    refine ⟨⟨_, rfl⟩, fun x hx => ?_⟩
    by_cases hxs : x = src
    · rw [hxs, srcSticky, mget_mset_self]
    · rw [srcSticky, mget_mset_ne _ _ _ _ _ hxs]
      exact hx

theorem foldl_clearSticky (f : Nat → Nat) : ∀ (l : List Nat) (s : State),
    (∃ m, l.foldl (fun s i => clearSticky s (f i)) s = { s with evt.sticky := m }) ∧
    (∀ x, srcSticky s x = false → srcSticky (l.foldl (fun s i => clearSticky s (f i)) s) x = false) ∧
    ∀ i ∈ l, mfind s.evt.pulsedAt (f i) ≠ some s.time → srcSticky (l.foldl (fun s i => clearSticky s (f i)) s) (f i) = false
  | [], _ => ⟨⟨_, rfl⟩, fun _ => id, by simp⟩
  | i :: r, s => by
    obtain ⟨⟨m, hone⟩, hclear⟩ := clearSticky_frame s (f i)
    obtain ⟨⟨m', hrest⟩, hkeep, hall⟩ := foldl_clearSticky f r (clearSticky s (f i))
    have hpulsed : (clearSticky s (f i)).evt.pulsedAt = s.evt.pulsedAt := by rw [hone]
    have htime : (clearSticky s (f i)).time = s.time := by rw [hone]
    rw [List.foldl_cons]
    refine ⟨?_, fun x hx => hkeep x (hclear x hx), fun j hj hp => ?_⟩
    · rw [hrest, hone]
      exact ⟨m', rfl⟩
    · rcases List.mem_cons.1 hj with rfl | hj
      · refine hkeep _ ?_
        rw [clearSticky_of_not_pulsed hp, srcSticky, mget_mset_self]
      · exact hall j hj (by rwa [hpulsed, htime])

/-! ### Masks and routes (R382, R384, R386) -/

theorem reg_sendMsix (s : State) (fn v k : Nat) : reg (sendMsix s fn v) k = reg s k := by
  simp only [sendMsix]
  repeat' split
  all_goals rfl

theorem reg_riseMessages (s0 s : State) (l : List (Nat × Nat)) (k : Nat) : reg (riseMessages s0 s l) k = reg s k := by
  refine List.foldlRecOn l _ (motive := fun t : State => reg t k = reg s k) rfl fun t ht x _ => ?_
  split
  · rw [reg_sendMsix, ht]
  · exact ht

/-- Values stored in entries, one after another: the entries of distinct places read their values, no other entry changes, and no
sticky bit. -/
theorem foldl_setReg_pairs (f : Nat → Nat) : ∀ (l : List (Nat × Nat)) (s : State), (l.map (fun x => f x.1)).Nodup →
    (∀ x ∈ l, reg (l.foldl (fun s x => setReg s (f x.1) x.2) s) (f x.1) = x.2) ∧
    OnlyEntries s (l.foldl (fun s x => setReg s (f x.1) x.2) s) (l.map (fun x => f x.1)) ∧
    (l.foldl (fun s x => setReg s (f x.1) x.2) s).evt = s.evt
  | [], _, _ => ⟨by simp, fun _ _ => rfl, rfl⟩
  | y :: r, s, h => by
    obtain ⟨hy, hr⟩ := List.nodup_cons.1 h
    obtain ⟨hall, honly, hevt⟩ := foldl_setReg_pairs f r (setReg s (f y.1) y.2) hr
    refine ⟨fun x hx => ?_, fun k hk => ?_, hevt⟩
    · rcases List.mem_cons.1 hx with rfl | hx
      · exact (honly _ hy).trans (reg_setReg_self s _ _)
      · exact hall x hx
    · simp only [List.map_cons, List.mem_cons, not_or] at hk
      exact (honly k hk.2).trans (reg_setReg_ne s _ k _ hk.1)

theorem setMasks_spec (s : State) (l : List (Nat × Nat)) (h : (l.map (fun x => Reg.evtMask x.1)).Nodup) :
    (∀ x ∈ l, reg (setMasks s l) (Reg.evtMask x.1) = x.2) ∧ OnlyEntries s (setMasks s l) (l.map (fun x => Reg.evtMask x.1)) ∧
    (setMasks s l).evt.sticky = s.evt.sticky := by
  obtain ⟨hall, honly, hevt⟩ := foldl_setReg_pairs Reg.evtMask l s h
  refine ⟨fun x hx => (reg_riseMessages ..).trans (hall x hx), fun k hk => (reg_riseMessages ..).trans (honly k hk), ?_⟩
  rw [setMasks, sticky_riseMessages, hevt]

theorem evtMask_injOn {a b : Nat} (ha : a < 1024) (hb : b < 1024) (h : Reg.evtMask a = Reg.evtMask b) : a = b := by
  rw [Reg.evtMask, Reg.evtMask, keyIf_lt ha, keyIf_lt hb] at h
  simp only [key] at h
  omega

/-- The masks of a group are sixteen entries. -/
theorem nodup_groupMasks {g : Nat} (h : g < 64) : ((List.range 16).map (fun i => Reg.evtMask (16 * g + i))).Nodup := by
  refine List.Nodup.map_on (fun a ha b hb he => ?_) List.nodup_range
  rw [List.mem_range] at ha hb
  have := evtMask_injOn (by omega) (by omega) he
  omega

/-! ### MSI-X (R383) -/

/-- The enable and the masks of every function are as they were. -/
def MsixControls (s t : State) : Prop := ∀ fn, (msixOf t fn).enable = (msixOf s fn).enable ∧
  (msixOf t fn).funcMask = (msixOf s fn).funcMask ∧ (msixOf t fn).vecMask = (msixOf s fn).vecMask

theorem MsixControls.refl (s : State) : MsixControls s s := fun _ => ⟨rfl, rfl, rfl⟩

theorem MsixControls.trans {s t u : State} (h : MsixControls s t) (g : MsixControls t u) : MsixControls s u := fun fn =>
  ⟨(g fn).1.trans (h fn).1, (g fn).2.1.trans (h fn).2.1, (g fn).2.2.trans (h fn).2.2⟩

theorem msixOf_setMsix (s : State) (fn : Nat) (m : MsiX) : msixOf (setMsix s fn m) fn = m := mget_mset_self _ _ _ _

theorem msixControls_setMsix (s : State) (fn : Nat) (p h : SMap Bool) :
    MsixControls s (setMsix s fn { msixOf s fn with pba := p, held := h }) := by
  intro f
  by_cases hf : f = fn
  · rw [hf, msixOf_setMsix]
    exact ⟨rfl, rfl, rfl⟩
  · rw [msixOf, setMsix, mget_mset_ne _ _ _ _ _ hf]
    exact ⟨rfl, rfl, rfl⟩

theorem msixControls_sendMsix (s : State) (fn v : Nat) : MsixControls s (sendMsix s fn v) := by
  simp only [sendMsix]
  split
  · split
    · exact msixControls_setMsix s fn _ _
    · exact .refl s
  · exact .refl s

theorem msixControls_releaseVector (s : State) (fn v : Nat) : MsixControls s (releaseVector s fn v) := by
  simp only [releaseVector]
  split
  · split
    · exact (msixControls_setMsix s fn _ _).trans (msixControls_sendMsix _ _ _)
    · exact msixControls_setMsix s fn _ _
  · exact .refl s

theorem msixControls_foldl {f : State → Nat → State} (h : ∀ s v, MsixControls s (f s v)) (l : List Nat) (s : State) :
    MsixControls s (l.foldl f s) :=
  List.foldlRecOn l f (motive := fun t => MsixControls s t) (.refl s) fun t ht v _ => ht.trans (h t v)

/-- A function that is there and is not in its reset takes a control (R383). -/
theorem exec_msixControl {s : State} {fn field v : Nat} {on : Bool} (h : fn = 0 ∨ fn ≤ reg s Reg.hostNumVfs)
    (hf : mget false s.host.inFlr fn = false) (hv : v < vectorCount fn) :
    exec (.msixControlWrite fn field v on) s =
      if field = 0 then .next (if on && !(msixOf s fn).enable then
          (List.range (vectorCount fn)).foldl (fun s v => if aggregate s fn v then sendMsix s fn v else s)
            (setMsix s fn { msixOf s fn with enable := on })
        else setMsix s fn { msixOf s fn with enable := on })
      else if field = 1 then .next ((List.range (vectorCount fn)).foldl (fun s v => releaseVector s fn v)
        (setMsix s fn { msixOf s fn with funcMask := on }))
      else .next (releaseVector (setMsix s fn { msixOf s fn with vecMask := mset false (msixOf s fn).vecMask v on }) fn v) := by
  have hthere : ¬((fn ≠ 0 ∧ reg s Reg.hostNumVfs < fn) ∨ mget false s.host.inFlr fn = true ∨ vectorCount fn ≤ v) := by
    rw [hf]
    simp only [Bool.false_eq_true, false_or]
    omega
  exact if_neg hthere

/-! ### The firmware's queue (R385, R421) -/

theorem gatherEvent_evt (s : State) (e : FwEvent) (i : Nat) :
    ∃ v, gatherEvent s e i = { s with evt := v } ∧ v.fwQueue = s.evt.fwQueue := by
  simp only [gatherEvent]
  split
  · exact ⟨_, rfl, rfl⟩
  · exact ⟨_, rfl, rfl⟩

theorem foldl_gatherEvent (e : FwEvent) (l : List Nat) (s : State) :
    ∃ v, l.foldl (fun s i => gatherEvent s e i) s = { s with evt := v } ∧ v.fwQueue = s.evt.fwQueue := by
  refine List.foldlRecOn l _ (motive := fun t : State => ∃ v, t = { s with evt := v } ∧ v.fwQueue = s.evt.fwQueue)
    ⟨_, rfl, rfl⟩ fun t ⟨v, ht, hq⟩ i _ => ?_
  subst ht
  obtain ⟨w, hone, hqueue⟩ := gatherEvent_evt { s with evt := v } e i
  exact ⟨w, hone, hqueue.trans hq⟩

end Sys2Proof.Machine
end

section
/-! SAFETY. Sticky bits, masks, routes, the firmware queue and MSI-X controls (R380, R382, R384–R386, R389). -/

namespace Sys2Proof
open Machine

/-- Settles O40: each write is its rule's, and what the messages and the gathered events move are not the bits stated. -/
theorem eventEntries : Obligations.EventEntries := by
  intro s c n v hs
  refine ⟨fun hp hr hv ha => ?_, fun hp hr ha => ?_, fun hp hr => ?_, fun hp hc hr => ?_, fun hp hr => ?_, fun hp hn hr => ?_,
    fun hp hr hvf hl => ?_, fun hp hb hl => ?_, fun h => ?_, fun e r hq hrun => ?_, fun on hn hf hv => ⟨?_, ?_, ?_⟩⟩
  · refine congrArg Host.Outcome.next (permitted_does hp ?_)
    rw [wSticky, hr, if_neg hv, clearSticky_of_not_pulsed ha]
    rfl
  · refine congrArg Host.Outcome.next (permitted_does hp ?_)
    rw [wSticky, hr, clearSticky_of_pulsed ha, ite_self]
    rfl
  · exact congrArg Host.Outcome.next (permitted_refused hp (by rw [wSticky, hr, if_pos rfl]))
  · subst hc
    obtain ⟨⟨m, hframe⟩, -, hall⟩ := foldl_clearSticky (fun i => 16 * n + i) (seenBits s .pf n v) s
    refine ⟨_, congrArg Host.Outcome.next (permitted_does hp (by rw [wGroupSticky, hr]; rfl)), by rw [hframe], fun i hi hb ha => ?_⟩
    exact hall i (List.mem_filter.2 ⟨mem_bitList.2 ⟨hi, hb⟩, rfl⟩) ha
  · obtain ⟨hall, honly, hsticky⟩ := setMasks_spec s [(n, v)] (List.nodup_singleton _)
    exact ⟨_, congrArg Host.Outcome.next (permitted_does hp (by rw [wMask, hr]; rfl)), hall _ (List.mem_singleton.2 rfl), honly, hsticky⟩
  · have hkeys : ((List.range 16).map (fun i => (16 * n + i, b2n (bit v i)))).map (fun x => Reg.evtMask x.1) =
        (List.range 16).map (fun i => Reg.evtMask (16 * n + i)) := by rw [List.map_map]; rfl
    obtain ⟨hall, honly, -⟩ := setMasks_spec s ((List.range 16).map (fun i => (16 * n + i, b2n (bit v i)))) (hkeys ▸ nodup_groupMasks hn)
    refine ⟨_, congrArg Host.Outcome.next (permitted_does hp (by rw [wGroupMask, hr]; rfl)), fun i hi => ?_, hkeys ▸ honly⟩
    exact hall (16 * n + i, b2n (bit v i)) (List.mem_map_of_mem (List.mem_range.2 hi))
  · have hlevel : (bit v 11 != bit (srcRoute s n) 11 && decide (levelOf s c < 3)) = false := by
      rcases hl with h | h
      · simp [h]
      · simp [h]
    have hroute : (reservedSource n || (bit v 22 && bits v 21 16 == 0)) = false := by
      rcases hvf with h | h
      · simp [hr, h]
      · simp [hr, h]
    refine ⟨_, congrArg Host.Outcome.next (permitted_does hp (by rw [wRoute, hlevel, hroute]; rfl)), ?_, fun k hk => ?_⟩
    · exact (reg_riseMessages ..).trans (reg_setReg_self ..)
    · exact (reg_riseMessages ..).trans (reg_setReg_ne _ _ _ _ fun h => hk (List.mem_singleton.2 h))
  · refine congrArg Host.Outcome.next (permitted_refused hp ?_)
    have hlevel : (bit v 11 != bit (srcRoute s n) 11 && decide (levelOf s c < 3)) = true := by simp [hb, hl]
    rw [wRoute, hlevel, if_pos rfl]
  · exact congrArg Host.Outcome.next (readRow_done s c _ _ _ h)
  · obtain ⟨w, hframe, hqueue⟩ := foldl_gatherEvent e (mkeys s.dict.sessions) { s with evt.fwQueue := r }
    refine ⟨{ s with evt := w }, ?_, hqueue, rfl⟩
    simp only [Answers, exec, execFwEventTake, hq, hrun, if_true, hframe]
  · refine ⟨_, (exec_msixControl hn hf hv).trans (if_pos rfl), ?_⟩
    have hset : (msixOf (setMsix s n { msixOf s n with enable := on }) n).enable = on := by rw [msixOf_setMsix]
    split
    · refine ((msixControls_foldl (fun t w => ?_) _ _) n).1.trans hset
      split
      · exact msixControls_sendMsix t n w
      · exact .refl t
    · exact hset
  · refine ⟨_, (exec_msixControl hn hf hv).trans ((if_neg (by decide)).trans (if_pos rfl)), ?_⟩
    refine ((msixControls_foldl (fun t w => msixControls_releaseVector t n w) _ _) n).2.1.trans ?_
    rw [msixOf_setMsix]
  · refine ⟨_, (exec_msixControl hn hf hv).trans ((if_neg (by decide)).trans (if_neg (by decide))), ?_⟩
    rw [((msixControls_releaseVector _ n v) n).2.2, msixOf_setMsix, mget_mset_self]

end Sys2Proof
end

section
/-! SUPPORT. Counted writes (R399, R417, R463): how one begins, and when it is turned away. -/

namespace Sys2Proof.Machine

/-- What begins to burn when a client writes a value to an entry (R399). -/
def burnOf (s : State) (c : Client) (k : Nat) (b : List Byte) : Burn :=
  { entry := k, value := b, client := logClient c, count := mget 0 s.dict.fuseCounts k + 1,
    sec := if s.clk.timeSet then timeNs s / 1000000000 % 2 ^ 32 else 0, at0 := s.time }

/-- The state in which a counted write burns: one count is taken. -/
def burning (s : State) (c : Client) (k : Nat) (b : List Byte) : State :=
  { s with dict.fuseCounts := mset 0 s.dict.fuseCounts k (mget 0 s.dict.fuseCounts k + 1), dict.burns := s.dict.burns ++ [burnOf s c k b] }

/-- A counted write begins where a place is left and no write of the entry burns. -/
theorem cwBegin_burns {s : State} {c : Client} {k : Nat} {b : List Byte} (hn : mget 0 s.dict.fuseCounts k < cwPlaces k)
    (hb : s.dict.burns.any (fun x => x.entry == k) = false) : cwBegin c k b s = .done (burning s c k b) := by
  simp only [cwBegin, if_neg (Nat.not_le.2 hn), hb]
  rfl

/-- A write of an entry that has places, by its rule. -/
theorem exec_countedWrite {s : State} {c : Client} {k v : Nat} (h : cwPlaces k ≠ 0) :
    exec (.countedWrite c k v) s = .next (writeRow s c k v (cwWrite c k v)) := if_neg h

theorem cwBegin_exhausted {s : State} {c : Client} {k : Nat} {b : List Byte} (hn : cwPlaces k ≤ mget 0 s.dict.fuseCounts k) :
    cwBegin c k b s = .fail .exhausted := by
  simp only [cwBegin, if_pos hn]

/-- An entry that is not held has no write that burns. -/
theorem not_burning_of_not_held {s : State} {k : Nat} (h : held s k = false) : s.dict.burns.any (fun x => x.entry == k) = false := by
  rw [held, Bool.or_eq_false_iff] at h
  exact h.2

theorem not_held_of_permitted {s : State} {c : Client} {k v : Nat} (h : Permitted s c k v) : held s k = false := by
  have hc := h.1
  unfold writeChecks at hc
  split at hc
  · cases hc
  · repeat' (split at hc <;> first | (cases hc; done) | skip)
    all_goals simp_all

theorem not_held_of_domainChecks {s : State} {c : Client} {k : Nat} (h : domainChecks s c k = none) : held s k = false := by
  unfold domainChecks at h
  split at h
  · cases h
  · repeat' (split at h <;> first | (cases h; done) | skip)
    all_goals simp_all

theorem wDeviceId_burns {s : State} {c : Client} {v : Nat} (hp : Permitted s c Reg.ftDeviceId v)
    (hne : writable Reg.ftDeviceId v ≠ reg s Reg.ftDeviceId) (h0 : writable Reg.ftDeviceId v ≠ 0)
    (h1 : writable Reg.ftDeviceId v ≠ 0xFFFFF) (hn : mget 0 s.dict.fuseCounts Reg.ftDeviceId < cwPlaces Reg.ftDeviceId) :
    wDeviceId c v s = .done (burning s c Reg.ftDeviceId (beBytes 4 (writable Reg.ftDeviceId v))) := by
  have hin : ¬(writable Reg.ftDeviceId v = 0 ∨ writable Reg.ftDeviceId v = 0xFFFFF) := by simp only [h0, h1, or_self, not_false_eq_true]
  simp only [wDeviceId, if_neg hne, if_neg hin]
  exact cwBegin_burns hn (not_burning_of_not_held (not_held_of_permitted hp))

theorem wRollbackFloor_burns {s : State} {c : Client} {v : Nat} (hp : Permitted s c Reg.fwRollbackFloor v)
    (hlo : reg s Reg.fwRollbackFloor < v) (hhi : v ≤ byteAt (blk s Reg.fwRunningHeader) 9)
    (hn : mget 0 s.dict.fuseCounts Reg.fwRollbackFloor < cwPlaces Reg.fwRollbackFloor) :
    wRollbackFloor c v s = .done (burning s c Reg.fwRollbackFloor [byte v]) := by
  have hin : ¬(v < reg s Reg.fwRollbackFloor ∨ byteAt (blk s Reg.fwRunningHeader) 9 < v) := by omega
  simp only [wRollbackFloor, if_neg (Nat.ne_of_gt hlo), if_neg hin]
  exact cwBegin_burns hn (not_burning_of_not_held (not_held_of_permitted hp))

theorem wRollbackFloor_refused {s : State} {c : Client} {v : Nat} (h : v < reg s Reg.fwRollbackFloor ∨
    (reg s Reg.fwRollbackFloor < v ∧ byteAt (blk s Reg.fwRunningHeader) 9 < v)) : wRollbackFloor c v s = .fail .refused := by
  have hne : v ≠ reg s Reg.fwRollbackFloor := by omega
  have hout : v < reg s Reg.fwRollbackFloor ∨ byteAt (blk s Reg.fwRunningHeader) 9 < v := h.imp_right And.right
  simp only [wRollbackFloor, if_neg hne, if_pos hout]

theorem wDeviceKey_eq {s : State} {c : Client} {b : List Byte} (hl : b.length = 32) (hne : b ≠ s.dict.deviceKey) :
    wDeviceKey c b s = (cwBegin c Reg.synDeviceKey b s).bind (fun s => .done { s with dict.closeDue := true }) := by
  rw [wDeviceKey, if_neg (not_not.2 hl), if_neg hne]

/-- The state in which a burn has ended: its record joins the log. -/
def burnt (s : State) (k : Nat) (x : Burn) : State :=
  { s with dict.burns := s.dict.burns.filter (fun y => y.entry != k), dict.cwLog := s.dict.cwLog ++ [cwRecord x 0] }

/-- The record of a failure is one entry of the dictionary (R403). -/
theorem noteFailure_od (s : State) (c : Client) (k : Nat) (st : Status) : ∃ d, noteFailure s c k st = { s with od := d } := by
  cases c with
  | pf => exact ⟨_, rfl⟩
  | vf v => exact ⟨_, rfl⟩
  | session i => exact ⟨_, rfl⟩
  | firmware => exact ⟨_, rfl⟩

theorem keyResponse_of_not_due {s : State} (h : s.dict.closeDue = false) : keyResponse s = s :=
  if_neg (by rw [h]; decide)

/-- The end of a burn (R399): the value takes effect, the record joins the log, and CW_WRITE is set. -/
theorem exec_countedWriteComplete {s : State} {k : Nat} {x : Burn} (h : s.dict.burns.find? (fun y => y.entry == k) = some x) :
    exec (.countedWriteComplete k) s = .next (raise (cwEffect (burnt s k x) x) .od 3) := by
  simp only [exec, execCountedWriteComplete, h]
  rfl

end Sys2Proof.Machine
end

section
/-! SAFETY. Counted writes (R399, R400, R417, R463). -/

namespace Sys2Proof
open Machine

/-- Settles O45: each write is the beginning of its burn, and the end of a burn is the value's effect, a record and a raised cause. -/
theorem countedWritesBurn : Obligations.CountedWritesBurn := by
  intro s c v b hs
  refine ⟨fun hp hne h0 h1 hn i hi => ?_, fun hp hlo hhi hn i hi => ?_, fun hp h => ?_, fun hd hl hne hn => ?_, fun hd hl hne hn hc => ?_,
    fun x hx => ?_, fun x hx => ?_⟩
  · refine ⟨_, burnOf s c Reg.ftDeviceId (beBytes 4 (writable Reg.ftDeviceId v)), ?_, rfl, rfl, rfl, rfl, rfl⟩
    have hrule := permitted_does hp (rule := wDeviceId c v) (wDeviceId_burns hp hne h0 h1 hn)
    rcases hi with rfl | rfl
    · exact congrArg Host.Outcome.next hrule
    · exact (exec_countedWrite (by decide)).trans (congrArg Host.Outcome.next hrule)
  · refine ⟨_, burnOf s c Reg.fwRollbackFloor [byte v], ?_, rfl, rfl, rfl⟩
    have hrule := permitted_does hp (rule := wRollbackFloor c v) (wRollbackFloor_burns hp hlo hhi hn)
    rcases hi with rfl | rfl
    · exact congrArg Host.Outcome.next hrule
    · exact (exec_countedWrite (by decide)).trans (congrArg Host.Outcome.next hrule)
  · exact congrArg Host.Outcome.next (permitted_refused hp (wRollbackFloor_refused h))
  · have hrule : wDeviceKey c b s = .done { burning s c Reg.synDeviceKey b with dict.closeDue := true } := by
      rw [wDeviceKey_eq hl hne, cwBegin_burns hn (not_burning_of_not_held (not_held_of_domainChecks hd))]
      rfl
    refine ⟨_, burnOf s c Reg.synDeviceKey b, congrArg (fun t => Host.Outcome.next (keyResponse t)) (commitRow_done s _ c _ _ hd hrule),
      rfl, rfl, rfl, rfl, rfl, mget_mset_self _ _ _ _⟩
  · have hrule : wDeviceKey c b s = .fail .exhausted := by
      rw [wDeviceKey_eq hl hne, cwBegin_exhausted hn]
      rfl
    refine (congrArg (fun t => Host.Outcome.next (keyResponse t)) (commitRow_ruleFailed s c _ _ _ hd hrule)).trans (congrArg Host.Outcome.next ?_)
    obtain ⟨d, hd⟩ := noteFailure_od s c Reg.synDeviceKey .exhausted
    exact keyResponse_of_not_due (by rw [hd]; exact hc)
  · have hk : x.entry = Reg.fwRollbackFloor := by simpa using List.find?_some hx
    have hend := exec_countedWriteComplete hx
    generalize hu : burnt s Reg.fwRollbackFloor x = u at hend
    have heff : cwEffect u x = raise (setReg u Reg.fwRollbackFloor (beNat x.value)) .fw 6 := by
      rw [cwEffect, hk, if_neg (by decide), if_pos rfl]
    have hnoted : Noted [Reg.fwRollbackFloor, Reg.fwCause, Reg.odCause] u (raise (cwEffect u x) .od 3) := by
      rw [heff]
      exact ((noted_setReg _ u _ _ (.inl (by decide))).trans (noted_raise _ _ .fw 6 (.inl (by decide)))).trans
        (noted_raise _ _ .od 3 (.inl (by decide)))
    have hdict : (raise (cwEffect u x) .od 3).dict = u.dict := by rw [hnoted.1]
    refine ⟨_, hend, ?_, ?_, bit_raise_self _ .od 3 (by decide), ?_, ?_⟩
    · rw [reg_raise_of_ne _ .od 3 (by decide) (by decide), heff, reg_raise_of_ne _ .fw 6 (by decide) (by decide), reg_setReg_self]
    · rw [reg_raise_of_ne _ .od 3 (by decide) (by decide), heff]
      exact bit_raise_self _ .fw 6 (by decide)
    · rw [hdict, ← hu, burnt]
    · rw [hdict, ← hu, burnt]
  · have hk : x.entry = Reg.synDeviceKey := by simpa using List.find?_some hx
    have hend := exec_countedWriteComplete hx
    generalize hu : burnt s Reg.synDeviceKey x = u at hend
    have heff : cwEffect u x = setReg { u with dict.deviceKey := x.value } Reg.synKeySet 1 := by
      rw [cwEffect, hk, if_neg (by decide), if_neg (by decide), if_pos rfl]
    rw [heff] at hend
    have hdict := (noted_raise [Reg.odCause] (setReg { u with dict.deviceKey := x.value } Reg.synKeySet 1) .od 3 (.inl (by decide))).1
    refine ⟨_, hend, ?_, ?_, bit_raise_self _ .od 3 (by decide), ?_⟩
    · rw [hdict]
      rfl
    · rw [reg_raise_of_ne _ .od 3 (by decide) (by decide), reg_setReg_self]
    · rw [hdict, ← hu, burnt]
      rfl

end Sys2Proof
end

section
/-! SUPPORT. The settings store, the doorbell and the record of failures (R396–R398, R403, R405). -/

namespace Sys2Proof.Machine

/-- A start that its rule turns away. -/
theorem mayStart_fails {s : State} {c : Client} {k : Nat} {rule : State → Applied} {st : Status} (h : MayStart s c k)
    (hr : rule s = .fail st) :
    concludeJob s c k (jobStart s c k rule) = emit (noteFailure s c k st) (.status (callerOf c) st.code []) := by
  rw [mayStart_rule h, hr]
  rfl

/-- Once every entry is taken, a step of a save ends it (R397). -/
theorem exec_odSave_last {s : State} {n r : Nat} (hj : jobRunning s Reg.odSave = true) (hp : 0x600000 ≤ s.dict.savePos) (hr : r ≤ 2) :
    exec (.odSave .step n r) s = .next (saveEnd s r) := by
  change execOdSave .step n r s = _
  simp only [execOdSave, hj]
  rw [if_neg (by decide), if_neg (Nat.not_lt.2 hp), if_pos hr]

/-- A step of a save before that takes the entries below its bound (R397). -/
theorem exec_odSave_takes {s : State} {n : Nat} (r : Nat) (hj : jobRunning s Reg.odSave = true) (hp : s.dict.savePos < n) (hn : n ≤ 0x600000) :
    exec (.odSave .step n r) s = .next (saveTake s n) := by
  change execOdSave .step n r s = _
  simp only [execOdSave, hj]
  rw [if_neg (by decide), if_pos (Nat.lt_of_lt_of_le hp hn), if_pos hp, Nat.min_eq_left hn]

/-- A cause raised leaves the dictionary's own state. -/
theorem dict_raise (s : State) (c : CauseReg) (b : Nat) : (raise s c b).dict = s.dict := by
  rw [(noted_raise [c.key] s c b (.inl (List.mem_singleton.2 rfl))).1]

/-- The end of a job leaves the settings store. -/
theorem store_jobEnd (s : State) (k r : Nat) : (jobEnd s k r).dict.store = s.dict.store ∧
    (jobEnd s k r).dict.storeBlocks = s.dict.storeBlocks ∧ (jobEnd s k r).dict.storeEmpty = s.dict.storeEmpty := by
  rw [jobEnd]
  split
  · exact ⟨rfl, rfl, rfl⟩
  · exact ⟨rfl, rfl, rfl⟩

/-- The doorbell of a mailbox that is up and serves no message (R405). -/
theorem wDoorbell_takes {s : State} {c : Client} {fn v : Nat} (hf : fnOf c = some fn) (hu : mailboxUp s fn = true)
    (hs : (mailbox s fn).state ≠ 1) : wDoorbell c v s = .done (setMailbox s fn
      (if mailboxTakes (padTo ((mailbox s fn).request.take v) v) then { mailbox s fn with state := 1, len := v }
        else { mailbox s fn with state := 0, len := 0 })) := by
  simp only [wDoorbell, hf, hu, Bool.not_true, Bool.false_eq_true, if_false, if_neg hs]

theorem wDoorbell_refused {s : State} {c : Client} {fn v : Nat} (hf : fnOf c = some fn) (hu : mailboxUp s fn = true)
    (hs : (mailbox s fn).state = 1) : wDoorbell c v s = .fail .refused := by
  simp only [wDoorbell, hf, hu, Bool.not_true, Bool.false_eq_true, if_false, if_pos hs]

theorem callerOf_fnClient (fn : Nat) : callerOf (fnClient fn) = fn := by
  rw [fnClient]
  split
  · rename_i h
    exact h.symm
  · rfl

/-- The row of the record of failures. -/
theorem odFind_odAccessStatus : ∃ r, odFind Reg.odAccessStatus = some r ∧ r.ty = .u64 ∧ r.acc = .rc := by
  exact ⟨_, rfl, rfl, rfl⟩

/-- A read depends on the value's kind through its row's type alone. -/
theorem readable_congr {s : State} {c : Client} {k : Nat} {r : OdRow} {f g : EType → Bool} (h : odFind k = some r) (hf : f r.ty = g r.ty) :
    readable s c k f = readable s c k g := by
  simp only [readable, h, hf]

/-- A read of the record of failures answers the caller's and clears it (R403). -/
theorem readEntry_odAccessStatus (s : State) (c : Client) : readEntry s c Reg.odAccessStatus =
    (reg s (callerKey (callerOf c) Reg.odAccessStatus), setReg s (callerKey (callerOf c) Reg.odAccessStatus) 0) := by
  obtain ⟨r, hr, hty, hacc⟩ := odFind_odAccessStatus
  have hvalue : entryValue s c Reg.odAccessStatus = reg s (callerKey (callerOf c) Reg.odAccessStatus) := by
    rw [entryValue, if_pos (by decide), dictRead, if_neg (by decide), if_neg (by decide), if_pos (.inl rfl)]
  have hleaves : readLeaves s c Reg.odAccessStatus = setReg s (callerKey (callerOf c) Reg.odAccessStatus) 0 := if_pos rfl
  rw [readEntry, hr]
  simp only
  rw [hty, hacc, if_neg (by decide), if_neg (by decide), if_neg (by decide), hvalue, hleaves]

end Sys2Proof.Machine
end

section
/-! SAFETY. Saves and erases of settings, the doorbell and the failure record (R396–R398, R403, R405). -/

namespace Sys2Proof
open Machine

/-- Settles O46: each row by its rule; a save's end is the store it leaves, the end of its job and a raised cause. -/
theorem storeDoorbellAndRecord : Obligations.StoreDoorbellAndRecord := by
  intro s c n r hs
  refine ⟨fun hm hj => ?_, fun hm hj => ?_, fun hm hj => ?_, fun hj hp hn => ?_, fun hj hp => ⟨?_, fun hr => ?_⟩, fun hj => ?_,
    fun fn m hf hp hu hm => ⟨fun h ht => ?_, fun h ht => ?_, fun h => ?_⟩, fun he hf hr => ?_⟩
  · refine congrArg Host.Outcome.next (mayStart_does hm ?_)
    rw [startSave, hj]
    rfl
  · refine congrArg Host.Outcome.next (mayStart_fails hm ?_)
    rw [startSave, hj, if_pos rfl]
  · refine congrArg Host.Outcome.next (mayStart_does hm ?_)
    rw [startErase, hj]
    rfl
  · exact ⟨_, exec_odSave_takes r hj hp hn, rfl, rfl, rfl, rfl⟩
  · refine ⟨_, exec_odSave_last hj hp (Nat.zero_le 2), ?_⟩
    simp only [saveEnd, if_true]
    generalize hw : ({ setReg _ Reg.fwSettingsSchema _ with dict.saveCopy := [], dict.saveBlocks := [] } : State) = w
    have hdict := dict_raise (jobEnd w Reg.odSave 0) .od 0
    have hjob : jobRunning w Reg.odSave = true := by rw [← hw]; exact hj
    obtain ⟨hstore, hblocks, hempty⟩ := store_jobEnd w Reg.odSave 0
    refine ⟨?_, ?_, ?_, ?_, bit_raise_self _ .od 0 (by decide)⟩
    · rw [hdict, hstore, ← hw]
      rfl
    · rw [hdict, hblocks, ← hw]
      rfl
    · rw [hdict, hempty, ← hw]
      rfl
    · rw [JobCompleted, job_raise]
      exact jobCompleted_jobEnd hjob 0
  · refine ⟨_, exec_odSave_last hj hp (by omega), ?_⟩
    have hne : r ≠ 0 := by omega
    simp only [saveEnd, if_neg hne]
    generalize hw : ({ s with dict.saveCopy := [], dict.saveBlocks := [] } : State) = w
    have hjob : jobRunning w Reg.odSave = true := by rw [← hw]; exact hj
    refine ⟨?_, ?_, bit_raise_self _ .od 0 (by decide)⟩
    · rw [dict_raise, (store_jobEnd w Reg.odSave r).1, ← hw]
    · rw [JobCompleted, job_raise]
      exact jobCompleted_jobEnd hjob r
  · have hjob : jobRunning (eraseStore s) Reg.odSettingsErase = true := hj
    obtain ⟨hstore, hblocks, hempty⟩ := store_jobEnd (eraseStore s) Reg.odSettingsErase 0
    refine ⟨_, congrArg Host.Outcome.next (if_pos hj), hstore, hblocks, hempty, ?_, jobCompleted_jobEnd hjob 0⟩
    rw [reg_jobEnd, eraseStore, reg_setReg_self]
  · subst hm
    refine congrArg Host.Outcome.next (permitted_does hp ?_)
    rw [wDoorbell_takes hf hu h, if_pos ht]
  · subst hm
    refine congrArg Host.Outcome.next (permitted_does hp ?_)
    rw [wDoorbell_takes hf hu h, if_neg (by rw [ht]; decide)]
  · exact congrArg Host.Outcome.next (permitted_refused hp (wDoorbell_refused hf hu h))
  · obtain ⟨row, hrow, hty, -⟩ := odFind_odAccessStatus
    have hfits : readable s (fnClient n) Reg.odAccessStatus (fun t => !mapFits (mapSize t) (8 * Reg.odAccessStatus) 8) = none := by
      refine (readable_congr hrow ?_).trans hr
      rw [hty]
      rfl
    have hread : barRead s n (8 * Reg.odAccessStatus) 8 = (leBytes 8 (reg s (callerKey n Reg.odAccessStatus)),
        setReg s (callerKey n Reg.odAccessStatus) 0) := by
      have hk : 8 * Reg.odAccessStatus / 8 = Reg.odAccessStatus := Nat.mul_div_cancel_left _ (by decide)
      simp only [barRead, hk]
      rw [if_neg (by decide), hfits]
      simp only
      rw [if_neg (by decide), hrow]
      simp only [hty]
      rw [readEntry_odAccessStatus, callerOf_fnClient]
    have hthere : ¬((!fnExists s n || fnInFlr s n) = true) := by rw [he, hf]; decide
    refine (if_neg hthere).trans ?_
    rw [hread]

end Sys2Proof
end

section
/-! SUPPORT. Rings (R435–R438, R441): the entries of a ring, and what their writes and a doorbell come to. -/

namespace Sys2Proof.Machine

/-! ### The entries of a ring -/

/-- Where the entries of a ring lie. -/
theorem ringEntry_index (inj : Bool) {r : Nat} (h : r < 8) :
    ringBase inj r = key (0x1630 + 8 * b2n inj) r ∧ ringSize inj r = key (0x1631 + 8 * b2n inj) r ∧
    ringCtrl inj r = key (0x1633 + 8 * b2n inj) r := by
  cases inj with
  | true =>
    simp only [ringBase, ringSize, ringCtrl, Reg.ringInjBase, Reg.ringInjSize, Reg.ringInjCtrl, keyIf_lt h, if_true]
    exact ⟨rfl, rfl, rfl⟩
  | false =>
    simp only [ringBase, ringSize, ringCtrl, Reg.ringPuntBase, Reg.ringPuntSize, Reg.ringPuntCtrl, keyIf_lt h, Bool.false_eq_true,
      if_false]
    exact ⟨rfl, rfl, rfl⟩

theorem idxOf_key {i n : Nat} (hi : i < 0x10000) (hn : n < 256) : idxOf (key i n) = i := by
  simp only [idxOf, key]
  omega

theorem subOf_key {i n : Nat} (hn : n < 256) : subOf (key i n) = n := by
  simp only [subOf, key]
  omega

theorem b2n_cases (b : Bool) : (b = true ∧ b2n b = 1) ∨ (b = false ∧ b2n b = 0) := by
  cases b with
  | true => exact .inl ⟨rfl, rfl⟩
  | false => exact .inr ⟨rfl, rfl⟩

/-- The index of a ring's entry tells its place and whether the ring injects. -/
theorem ringEntry_place (inj : Bool) {r n : Nat} (hr : r < 8) (hn : n < 8) :
    idxOf (key (0x1630 + n + 8 * b2n inj) r) = 0x1630 + n + 8 * b2n inj ∧ subOf (key (0x1630 + n + 8 * b2n inj) r) = r ∧
    (idxOf (key (0x1630 + n + 8 * b2n inj) r) - 0x1630) % 8 = n ∧
    decide (0x1638 ≤ idxOf (key (0x1630 + n + 8 * b2n inj) r)) = inj := by
  have hb := b2n_cases inj
  have hidx : idxOf (key (0x1630 + n + 8 * b2n inj) r) = 0x1630 + n + 8 * b2n inj := idxOf_key (by omega) (by omega)
  refine ⟨hidx, subOf_key (by omega), by omega, ?_⟩
  rw [hidx]
  rcases hb with ⟨rfl, hb⟩ | ⟨rfl, hb⟩
  · rw [decide_eq_true_eq]
    omega
  · rw [decide_eq_false_iff_not]
    omega

theorem wRing_eq (fn k v : Nat) (s : State) : wRing fn k v s =
    if (idxOf k - 0x1630) % 8 = 3 then wRingCtrl fn (decide (0x1638 ≤ idxOf k)) (subOf k) v s
    else if ringOn s fn (decide (0x1638 ≤ idxOf k)) (subOf k) || ((idxOf k - 0x1630) % 8 == 2 && v % 4 != 0) then .fail .refused
    else .done (setFnReg s fn k v) := by
  unfold wRing
  extract_lets r inj
  generalize (idxOf k - 0x1630) % 8 = n
  split
  · rw [if_pos rfl]
  · rename_i h
    rw [if_neg h]

/-- The rule of a ring's entry, by its place among the ring's entries. -/
theorem wRing_key (fn v : Nat) (s : State) (inj : Bool) {r n : Nat} (hr : r < 8) (hn : n < 8) :
    wRing fn (key (0x1630 + n + 8 * b2n inj) r) v s = if n = 3 then wRingCtrl fn inj r v s
      else if ringOn s fn inj r || (n == 2 && v % 4 != 0) then .fail .refused
      else .done (setFnReg s fn (key (0x1630 + n + 8 * b2n inj) r) v) := by
  obtain ⟨-, hsub, hplace, hinj⟩ := ringEntry_place inj hr hn
  rw [wRing_eq, hplace, hinj, hsub]

/-- A function's write of a ring's entry goes by its rule. -/
theorem exec_ringConfigWrite {s : State} {c : Client} {fn v n r : Nat} {inj : Bool} (hc : fnOf c = some fn) (hr : r < 8) (hn : n ≤ 3) :
    exec (.ringConfigWrite c (key (0x1630 + n + 8 * b2n inj) r) v) s =
      .next (writeRow s c (key (0x1630 + n + 8 * b2n inj) r) v (wRing fn (key (0x1630 + n + 8 * b2n inj) r) v)) := by
  have hidx := (ringEntry_place inj hr (n := n) (by omega)).1
  have hb := b2n_cases inj
  generalize key (0x1630 + n + 8 * b2n inj) r = k at hidx ⊢
  have hin : 0x1630 ≤ idxOf k ∧ idxOf k ≤ 0x163B := by omega
  simp only [exec, execRingConfigWrite, hc, if_pos hin]

/-- A ring is enabled from its entries (R435). -/
theorem wRingCtrl_enables {s : State} {fn r v w : Nat} {inj : Bool} (hw : w = (if inj then setBits v 3 0 0 else v))
    (hvec : fn = 0 ∨ bits w 29 22 ≤ 15) (hframes : bits w 21 12 ≠ 0) (hsize : bits w 3 0 ≤ 6) (hon : bit w 31 = true)
    (hoff : ringOn s fn inj r = false) (hbase : fnReg s fn (ringBase inj r) % 4096 = 0)
    (hsizes : ringSizes.contains (fnReg s fn (ringSize inj r)) = true) (hgrant : ringGranted s fn inj r = true) :
    wRingCtrl fn inj r v s =
      .done (setFnReg (setRing (setFnReg s fn (ringCtrl inj r) w) fn inj r {}) fn (ringConsumed inj r) 0) := by
  have hvalid : ¬((fn ≠ 0 ∧ 15 < bits w 29 22) ∨ bits w 21 12 = 0 ∨ 6 < bits w 3 0) := by omega
  have hturn : (bit w 31 && !ringOn s fn inj r) = true := by rw [hon, hoff]; rfl
  have hentries : ¬(fnReg s fn (ringBase inj r) % 4096 ≠ 0 ∨ ¬ ringSizes.contains (fnReg s fn (ringSize inj r)) = true ∨
      (!ringGranted s fn inj r) = true) := by
    rw [hbase, hsizes, hgrant]
    decide
  simp only [wRingCtrl, ← hw, if_neg hvalid, if_pos hturn, if_neg hentries]

/-! ### Doorbells (R436) -/

theorem doorbell_of_on {s : State} {fn r v : Nat} {inj : Bool} (hr : r < 8) (he : fnExists s fn = true) (hf : fnInFlr s fn = false)
    (ho : ringOn s fn inj r = true) (hv : v < 2 ^ 32) : doorbell s fn inj r v =
      if fnReg s fn (ringSize inj r) < (v + 2 ^ 32 - fnReg s fn (ringConsumed inj r)) % 2 ^ 32 then count1 s Reg.hostDoorbellErrors
      else setRing s fn inj r { ringOf s fn inj r with prod := v } := by
  have hopen : (decide (r < 8) && fnExists s fn && !fnInFlr s fn && ringOn s fn inj r) = true := by
    rw [he, hf, ho, decide_eq_true hr]
    rfl
  simp only [doorbell, hopen, if_true, Nat.mod_eq_of_lt hv]

/-! ### Ring interrupts (R441) -/

theorem ringMessage_sends {s : State} {fn v : Nat} (ho : msixOpen s fn = true) (hf : (msixOf s fn).funcMask = false)
    (hv : mget false (msixOf s fn).vecMask v = false) : ringMessage s fn v = emit s (.msix fn v) := by
  simp only [ringMessage, ho, hf, hv, Bool.or_self, if_true, Bool.false_eq_true, if_false]

/-! ### The binding of a punt queue (R438) -/

theorem wPuntBind_binds {v : Nat} {s : State} (hq : qType s (reg s Reg.hostPuntBindSelect) = 2)
    (hg : bit v 31 = false ∨ ringGranted s (bits v 29 24) false (bits v 2 0) = true) : wPuntBind v s =
      .done { s with host.bind := mset 0 s.host.bind (reg s Reg.hostPuntBindSelect) (writable Reg.hostPuntBind v) } := by
  have hvalid : ¬(qType s (reg s Reg.hostPuntBindSelect) ≠ 2 ∨
      (bit v 31 = true ∧ (!ringGranted s (bits v 29 24) false (bits v 2 0)) = true)) := by
    rintro (h | ⟨hon, hno⟩)
    · exact h hq
    · rcases hg with h | h
      · rw [h] at hon
        cases hon
      · rw [h] at hno
        cases hno
  simp only [wPuntBind, if_neg hvalid]

theorem wPuntBind_refused {v : Nat} {s : State} (hq : qType s (reg s Reg.hostPuntBindSelect) ≠ 2) : wPuntBind v s = .fail .refused := by
  simp only [wPuntBind, if_pos (Or.inl hq)]

end Sys2Proof.Machine
end

section
/-! SAFETY. Rings, doorbells, ring interrupts and punt bindings (R435–R438, R441). -/

namespace Sys2Proof
open Machine

/-- Settles O47: each row by its rule. -/
theorem ringsAndDoorbells : Obligations.RingsAndDoorbells := by
  intro s c fn r v inj hs hr hfn
  obtain ⟨hbase, hsize, hctrl⟩ := ringEntry_index inj hr
  refine ⟨fun he hf ho hv i hi => ?_, fun hc => ⟨fun w hp hw hvec hframes hsz hon hoff hb hsizes hg => ?_, fun k hk hp => ?_⟩,
    fun he hen hn hlate hopen hmask hvec => ?_, fun hp hq hg => ?_, fun hp hq => ?_⟩
  · have hexec : exec i s = .next (doorbell s fn inj r v) := by
      rw [hi]
      cases inj <;> rfl
    rw [Answers, Answers, hexec, doorbell_of_on hr he hf ho hv]
    exact ⟨fun h => by rw [if_neg (Nat.not_lt.2 h)], fun h => by rw [if_pos h]⟩
  · have hrule : wRing fn (ringCtrl inj r) v s = _ :=
      (hctrl ▸ (wRing_key fn v s inj (n := 3) hr (by decide)).trans (if_pos rfl)).trans
        (wRingCtrl_enables hw hvec hframes hsz hon hoff hb hsizes hg)
    have hdone := permitted_does hp hrule
    rw [hctrl] at hdone ⊢
    exact (exec_ringConfigWrite hc hr (n := 3) (by decide)).trans (congrArg Host.Outcome.next hdone)
  · obtain ⟨n, hn, rfl⟩ : ∃ n, n < 2 ∧ k = key (0x1630 + n + 8 * b2n inj) r := by
      rcases hk with rfl | rfl
      · exact ⟨0, by decide, hbase⟩
      · exact ⟨1, by decide, hsize⟩
    have hrule := wRing_key fn v s inj (n := n) hr (by omega)
    have hwb : (n == 2 && v % 4 != 0) = false := by
      rw [Bool.and_eq_false_iff]
      exact .inl (beq_false_of_ne (by omega))
    rw [if_neg (by omega), hwb, Bool.or_false] at hrule
    have hexec := exec_ringConfigWrite (s := s) (v := v) (inj := inj) hc hr (n := n) (by omega)
    refine ⟨fun ho => ?_, fun ho => ?_⟩
    · rw [ho, if_pos rfl] at hrule
      exact hexec.trans (congrArg Host.Outcome.next (permitted_refused hp hrule))
    · rw [ho, if_neg (by decide)] at hrule
      exact hexec.trans (congrArg Host.Outcome.next (permitted_does hp hrule))
  · refine (if_pos ⟨he, hen, hn, .inl hlate⟩).trans (congrArg Host.Outcome.next ?_)
    exact ringMessage_sends hopen hmask hvec
  · exact congrArg Host.Outcome.next (permitted_does hp (wPuntBind_binds hq hg))
  · exact congrArg Host.Outcome.next (permitted_refused hp (wPuntBind_refused hq))

end Sys2Proof
end

section
/-! SAFETY. Resets and start-up (R468, R470, R477, R481, R483): the phase a settings reload leaves. -/

namespace Sys2Proof
open Machine

/-- After a first reset the firmware has started: the settings store is empty, so `pwr_auto_bringup` is at its default, and no stack has
delays set. -/
def firmwareUp : State := { setReg State.reset Reg.pwrStartupPhase 1 with fw.started := true }

/-- The phase in which a settings reload leaves a state. -/
def reloadedPhase (s : State) : Option Nat :=
  match exec .settingsReload s with
  | .next t => some (reg t Reg.pwrStartupPhase)
  | _ => none

/-- With `pwr_auto_bringup` set and no stack to initialise, bring-up goes on to phase 3 in the reload itself. -/
theorem reloadedPhase_firmwareUp : reloadedPhase firmwareUp = some 3 := by decide +kernel

theorem odTidy_firmwareUp : OdTidy firmwareUp := by
  obtain ⟨-, -, -, -, -, -, -, -, hreset, -, -⟩ := resetState
  exact (noted_setReg [Reg.pwrStartupPhase] State.reset Reg.pwrStartupPhase 1 (.inl (List.mem_singleton.2 rfl))).2.1 hreset

/-- Refutes O52: in the state `firmwareUp` the settings reload leads to phase 3, not 2, for `pwr_auto_bringup` is 1 by default and no
stack has delays set. -/
theorem not_resetsAndStartup : ¬ Obligations.ResetsAndStartup := by
  intro h
  obtain ⟨-, -, -, -, -, hreload⟩ := h firmwareUp 0 odTidy_firmwareUp
  obtain ⟨t, ht, hphase⟩ := hreload rfl rfl rfl (by decide +kernel)
  have hthree := reloadedPhase_firmwareUp
  rw [reloadedPhase, show exec .settingsReload firmwareUp = .next t from ht] at hthree
  have : reg t Reg.pwrStartupPhase = 3 := Option.some.inj hthree
  omega

end Sys2Proof
end

section
/-! SUPPORT. Retention and the partial resets (R471–R473, R478, R479): the starts, and what the last steps leave. -/

namespace Sys2Proof.Machine

/-! ### Parts that a step leaves -/

theorem pwr_raise (s : State) (c : CauseReg) (b : Nat) : (raise s c b).pwr = s.pwr := part_raise (π := .pwr) s c b

theorem jobRunning_jobBegin (s : State) (k : Nat) : jobRunning (jobBegin s k) k = true := by
  rw [jobRunning, jobBegin, job_setJob_self]
  rfl

/-- The start of a job whose rule turns it away. -/
theorem mayStartWith_fails {s : State} {c : Client} {k : Nat} {rule : State → Applied} {st : Status} (h : MayStart s c k)
    (hr : rule s = .fail st) :
    concludeJob s c k (jobStartWith s c k rule) = emit (noteFailure s c k st) (.status (callerOf c) st.code []) :=
  mayStart_fails h (by rw [hr]; rfl)

/-- A job that runs ends; one that does not is left. -/
def jobOver (s : State) (k r : Nat) : State := if jobRunning s k then jobEnd s k r else s

theorem jobOver_frame (s : State) (k r : Nat) : ∃ d, jobOver s k r = { s with dict := d } := by
  rw [jobOver]
  split
  · exact ⟨_, jobEnd_eq s k r⟩
  · exact ⟨_, rfl⟩

theorem reg_jobOver (s : State) (k r e : Nat) : reg (jobOver s k r) e = reg s e := by
  obtain ⟨d, hd⟩ := jobOver_frame s k r
  rw [hd]
  rfl

theorem pwr_jobOver (s : State) (k r : Nat) : (jobOver s k r).pwr = s.pwr := by
  obtain ⟨d, hd⟩ := jobOver_frame s k r
  rw [hd]

theorem jobCompleted_jobOver {s : State} {k : Nat} (h : jobRunning s k = true) (r : Nat) : JobCompleted (jobOver s k r) k r := by
  rw [jobOver, if_pos h]
  exact jobCompleted_jobEnd h r

/-! ### Retention entry (R472) -/

theorem startEntry_begins {s : State} (hb : entryBusy s = false) (hs : reg s Reg.pwrState ≠ 2) :
    startEntry s = .done (entryBegin (jobBegin s Reg.pwrRetentionEnter)) := by
  simp only [startEntry, hb, Bool.false_eq_true, if_false, if_neg hs]

/-- The last step of an entry, once VDD_F stands at its target. -/
theorem entryStep_last {s : State} (he : s.pwr.entering = 6) (hr : railSettled s 0 = true) : entryStep s = entryEnd s := by
  simp only [entryStep, he, hr, if_true]

theorem entryEnd_eq (s : State) : entryEnd s =
    raise (jobOver (setReg { s with pwr.entering := 0 } Reg.pwrState 2) Reg.pwrRetentionEnter 0) .pwr 0 := rfl

/-! ### Retention exit (R473) -/

theorem startExit_begins {s : State} (ht : thermalHold s = false) (he : s.pwr.entering = 0) (hl : s.pwr.leaving = 0)
    (hs : reg s Reg.pwrState = 2) : startExit s = .done (setTargets (setReg { jobBegin s Reg.pwrRetentionExit with
      pwr.leaving := 1, pwr.since := s.time } Reg.pwrState 3)) := by
  have hidle : ¬(s.pwr.entering ≠ 0 ∨ s.pwr.leaving ≠ 0) := by simp only [he, hl]; decide
  have hret : ¬ reg s Reg.pwrState = 0 := by omega
  simp only [startExit, ht, Bool.false_eq_true, if_false, if_neg hidle, if_neg hret]

/-- An exit leaves transmitters and packets free to go, ACTIVE, its job ended and the change reported. -/
theorem exitEnd_eq (s : State) : ∃ u, (u.pwr.leaving = 0 ∧ u.pwr.flushing = false ∧ u.pwr.dark = false) ∧
    exitEnd s = raise (jobOver (setReg u Reg.pwrState 0) Reg.pwrRetentionExit 0) .pwr 0 := by
  have hlanes : ∀ (l : List Nat) (u : State), (l.foldl (fun s l => setFlane s l { flane s l with on := true }) u).pwr = u.pwr := fun l u => by
    have h : part .pwr (l.foldl (fun s l => setFlane s l { flane s l with on := true }) u) = part .pwr u := by simp
    exact h
  have hlinks : ∀ (l : List Nat) (u : State), (l.foldl touchLink u).pwr = u.pwr := fun l u => by
    have h : part .pwr (l.foldl touchLink u) = part .pwr u := by simp
    exact h
  unfold exitEnd
  extract_lets s1 s2 _ s3 _ s4 s5 s6 s7 s8
  have hpwr : s6.pwr = s4.pwr := (hlinks _ s5).trans (hlanes _ s4)
  refine ⟨s6, ?_, rfl⟩
  rw [hpwr]
  exact ⟨rfl, rfl, rfl⟩

/-! ### The data-path reset and the island reset (R478, R479) -/

theorem dpEnd_pwr (s : State) : (dpEnd s).pwr.dpReset = false := by
  have hpwr : ∀ u : State, (overridesOff (raise (count32 (jobOver u Reg.pwrDatapathReset 0) (Reg.pwrResetCount 4)) .pwr 4)).pwr = u.pwr :=
    fun u => by
      have h : part .pwr (overridesOff (raise (count32 (jobOver u Reg.pwrDatapathReset 0) (Reg.pwrResetCount 4)) .pwr 4)) = part .pwr u := by
        simp [jobOver]
      exact h
  unfold dpEnd
  extract_lets a _ b d
  exact congrArg PwrState.dpReset (hpwr b)

theorem startIslReset_begins {s : State} (hb : resetBusy s = false) (hn : scalable.contains (reg s Reg.pwrIslandResetArg) = true) :
    startIslReset s = .done { s with pwr.islReset := some (reg s Reg.pwrIslandResetArg), pwr.since := s.time } := by
  simp only [startIslReset, hb, hn, Bool.not_true, Bool.false_eq_true, if_false]

theorem startIslReset_refused {s : State} (hb : resetBusy s = false) (hn : scalable.contains (reg s Reg.pwrIslandResetArg) = false) :
    startIslReset s = .fail .refused := by
  simp only [startIslReset, hb, hn, Bool.not_false, Bool.false_eq_true, if_false, if_true]

theorem islResetEnd_eq {s : State} {n : Nat} (h : s.pwr.islReset = some n) : islResetEnd s =
    raise (count32 (jobOver (setIsl { s with pwr.islReset := none } n
      { pinned := flag s (Reg.islandMode n), floor := reg s (Reg.islandFloorStep n) }) Reg.pwrIslandReset 0) (Reg.pwrResetCount 5)) .pwr 4 := by
  simp only [islResetEnd, h]
  rfl

end Sys2Proof.Machine
end

section
/-! SAFETY. Retention, the data-path reset and the island reset (R471–R473, R478, R479). -/

namespace Sys2Proof
open Machine

/-- Settles O53: each start by its rule; each end is a chain of stores, the end of its job and a raised cause. -/
theorem retentionAndPartialResets : Obligations.RetentionAndPartialResets := by
  intro s c hs
  refine ⟨fun hm hb hst => ?_, fun hm hb => ?_, fun he hr => ?_, fun hm ht => ?_, fun hm ht he hl hst => ?_, fun hl hr => ?_,
    fun hm => ⟨fun hb => ?_, fun hb => ?_⟩, fun hd ht => ?_, fun hm hb => ⟨fun hn => ?_, fun hn => ?_⟩, fun n hn => ?_⟩
  · exact congrArg Host.Outcome.next (mayStart_does hm (startEntry_begins hb hst))
  · exact congrArg Host.Outcome.next (mayStart_fails hm (by rw [startEntry, hb, if_pos rfl]))
  · refine ⟨_, congrArg Host.Outcome.next ((entryStep_last he hr).trans (entryEnd_eq s)), ?_, ?_, bit_raise_self _ .pwr 0 (by decide),
      fun hj => ?_⟩
    · rw [reg_raise_of_ne _ .pwr 0 (by decide) (by decide), reg_jobOver, reg_setReg_self]
    · rw [pwr_raise, pwr_jobOver]
      rfl
    · rw [JobCompleted, job_raise]
      exact jobCompleted_jobOver (s := setReg { s with pwr.entering := 0 } Reg.pwrState 2) hj 0
  · exact congrArg Host.Outcome.next (mayStart_fails hm (by rw [startExit, ht]; rfl))
  · refine ⟨_, congrArg Host.Outcome.next (mayStart_does hm (startExit_begins ht he hl hst)), ?_, rfl, ?_⟩
    · exact reg_setReg_self _ _ _
    · exact jobRunning_jobBegin s Reg.pwrRetentionExit
  · obtain ⟨u, ⟨hleaving, hflushing, hdark⟩, hend⟩ := exitEnd_eq s
    have hpwr : (exitEnd s).pwr = u.pwr := by
      rw [hend, pwr_raise, pwr_jobOver]
      rfl
    refine ⟨exitEnd s, congrArg Host.Outcome.next (if_pos ⟨hl, hr⟩), ?_, by rw [hpwr, hleaving], by rw [hpwr, hflushing],
      by rw [hpwr, hdark], ?_⟩
    · rw [hend, reg_raise_of_ne _ .pwr 0 (by decide) (by decide), reg_jobOver, reg_setReg_self]
    · rw [hend]
      exact bit_raise_self _ .pwr 0 (by decide)
  · exact congrArg Host.Outcome.next (mayStartWith_does hm (by rw [hb]; rfl))
  · exact congrArg Host.Outcome.next (mayStartWith_fails hm (by rw [hb]; rfl))
  · exact ⟨_, if_pos ⟨hd, ht⟩, dpEnd_pwr s⟩
  · exact congrArg Host.Outcome.next (mayStartWith_does hm (startIslReset_begins hb hn))
  · exact congrArg Host.Outcome.next (mayStartWith_fails hm (startIslReset_refused hb hn))
  · refine ⟨_, congrArg Host.Outcome.next (islResetEnd_eq hn), ?_, ?_, bit_raise_self _ .pwr 4 (by decide), ?_⟩
    · rw [pwr_raise]
      exact congrArg PwrState.islReset (pwr_jobOver _ _ _)
    · rw [isl_of_noted (noted_raise [Reg.pwrCause] _ .pwr 4 (.inl (by decide)))]
      obtain ⟨d, hd⟩ := jobOver_frame (setIsl { s with pwr.islReset := none } n
        { pinned := flag s (Reg.islandMode n), floor := reg s (Reg.islandFloorStep n) }) Reg.pwrIslandReset 0
      rw [hd]
      exact isl_setIsl_self _ _ _
    · rw [reg_raise_of_ne _ .pwr 4 (by decide) (by decide), count32, countBy, reg_setReg_self, reg_jobOver]
      rfl

end Sys2Proof
end

section
/-! SUPPORT. Voltages, temperatures and clocks (R469, R474–R476, R485). -/

namespace Sys2Proof.Machine

/-! ### AVSBus (R469) -/

/-- A rail away from its target is sent a command, at least 50 us after the one before. -/
theorem exec_avsEvaluate {s : State} {n : Nat} (ack : Bool) (hn : n < 2) (hs : s.pwr.sensed = true) (hi : s.pwr.inReset = false)
    (ht : timeNs s % 100000000 ≠ 0) (hr : railSettled s n = false) (ha : ∀ a, mfind s.pwr.avsAt n = some a → a + 50000 ≤ s.time) :
    exec (.avsEvaluate n ack) s = .next (avsCommand s n ack) := by
  have hruns : ¬(2 ≤ n ∨ (!s.pwr.sensed) = true ∨ s.pwr.inReset = true) := by
    rw [hs, hi]
    simp only [Bool.not_true, Bool.false_eq_true, or_false]
    omega
  change execAvsEvaluate n ack s = _
  simp only [execAvsEvaluate, if_neg hruns, if_neg ht, hr, Bool.false_or]
  cases hat : mfind s.pwr.avsAt n with
  | none => rfl
  | some a =>
    have hlate : decide (s.time < a + 50000) = false := decide_eq_false (Nat.not_lt.2 (ha a hat))
    simp only [hlate, Bool.false_eq_true, if_false]

/-- The third command without an answer gives the regulator up (R469). -/
theorem avsCommand_third {s : State} {n : Nat} (h : 2 ≤ mget 0 s.pwr.nacks n) :
    ∃ u, avsCommand s n false = raise u .pwr 3 ∧ u.od = s.od ∧ mget false u.pwr.avsDead n = true := by
  have hthree : ¬ mget 0 s.pwr.nacks n + 1 < 3 := by omega
  unfold avsCommand
  extract_lets v _ s1 _ m _ s3
  exact ⟨_, (if_neg Bool.false_ne_true).trans (if_neg hthree), rfl, mget_mset_self _ _ _ _⟩

theorem avsNext_near (now target : Nat) : avsNext now target ≤ now + 25 ∧ now ≤ avsNext now target + 25 := by
  rw [avsNext]
  split
  · omega
  · omega

/-- A rail's voltage is not an entry that events move. -/
theorem side_pwrVddMv {n : Nat} (h : n < 2) : sideEntry (Reg.pwrVddMv n) = false ∧ Reg.pwrVddMv n ≠ Reg.pwrCause := by
  revert n
  decide

/-! ### Readings (R475) -/

/-- Readings stored each in its entry. -/
def readingsStored (f : Nat → Nat) (l : List Nat) (s : State) : State :=
  l.zipIdx.foldl (fun s x => setReg s (f x.2) (x.1 % 2 ^ 32)) s

theorem readingsStored_spec {f : Nat → Nat} {l : List Nat} (s : State) (h : ((List.range l.length).map f).Nodup) :
    (∀ i < l.length, reg (readingsStored f l s) (f i) = natAt l i % 2 ^ 32) ∧
    OnlyEntries s (readingsStored f l s) ((List.range l.length).map f) := by
  have hfold : readingsStored f l s =
      (l.zipIdx.map (fun x => (x.2, x.1 % 2 ^ 32))).foldl (fun s x => setReg s (f x.1) x.2) s := by
    rw [readingsStored, List.foldl_map]
  have hkeys : (l.zipIdx.map (fun x => (x.2, x.1 % 2 ^ 32))).map (fun x => f x.1) = (List.range l.length).map f := by
    rw [List.map_map, List.range_eq_range', ← List.zipIdx_map_snd, List.map_map]
    rfl
  obtain ⟨hall, honly, -⟩ := foldl_setReg_pairs f (l.zipIdx.map (fun x => (x.2, x.1 % 2 ^ 32))) s (hkeys ▸ h)
  rw [← hfold, hkeys] at honly
  rw [← hfold] at hall
  refine ⟨fun i hi => ?_, honly⟩
  refine hall (i, natAt l i % 2 ^ 32) (List.mem_map.2 ⟨(natAt l i, i), ?_, rfl⟩)
  rw [List.mk_mem_zipIdx_iff_getElem?, List.getElem?_eq_getElem hi, natAt, List.head?_drop, List.getElem?_eq_getElem hi]
  rfl

theorem pwr_readingsStored (f : Nat → Nat) (l : List Nat) (s : State) : (readingsStored f l s).pwr = s.pwr := by
  have h : part .pwr (readingsStored f l s) = part .pwr s := by simp [readingsStored]
  exact h

/-- The 64 sensors, the two diodes, and the hottest with its sensor. -/
def temperaturesRead (ss ds : List Nat) (s : State) : State :=
  setReg (setReg (readingsStored Reg.tempDiode ds (readingsStored Reg.tempSensor ss s)) Reg.tempMax ((hottest ss).1 % 2 ^ 32))
    Reg.tempMaxSensor (hottest ss).2

theorem exec_tempRead {s : State} {ss ds : List Nat} (ht : timeNs s % 100000 = 0) (hi : s.pwr.inReset = false) (hs : ss.length = 64)
    (hd : ds.length = 2) : exec (.tempRead ss ds) s = .next (tempActs (temperaturesRead ss ds s)) :=
  if_pos ⟨ht, by rw [hi]; rfl, hs, hd⟩

theorem temperatures_apart : ((List.range 64).map Reg.tempSensor).Nodup ∧ ((List.range 2).map Reg.tempDiode).Nodup ∧
    (∀ k ∈ (List.range 64).map Reg.tempSensor, k ∉ (List.range 2).map Reg.tempDiode ∧ k ≠ Reg.tempMax ∧ k ≠ Reg.tempMaxSensor) ∧
    (∀ k ∈ (List.range 2).map Reg.tempDiode, k ≠ Reg.tempMax ∧ k ≠ Reg.tempMaxSensor) ∧
    (∀ k ∈ [Reg.pwrTempWarnC, Reg.pwrTempCritC], k ∉ (List.range 64).map Reg.tempSensor ∧ k ∉ (List.range 2).map Reg.tempDiode ∧
      k ≠ Reg.tempMax ∧ k ≠ Reg.tempMaxSensor) := by decide +kernel

/-- What the entries of the temperatures read after a reading. -/
theorem reg_temperaturesRead {s : State} {ss ds : List Nat} (hs : ss.length = 64) (hd : ds.length = 2) :
    (∀ i < 64, reg (temperaturesRead ss ds s) (Reg.tempSensor i) = natAt ss i % 2 ^ 32) ∧
    (∀ i < 2, reg (temperaturesRead ss ds s) (Reg.tempDiode i) = natAt ds i % 2 ^ 32) ∧
    reg (temperaturesRead ss ds s) Reg.tempMax = (hottest ss).1 % 2 ^ 32 ∧
    reg (temperaturesRead ss ds s) Reg.tempMaxSensor = (hottest ss).2 ∧
    (∀ k ∈ [Reg.pwrTempWarnC, Reg.pwrTempCritC], reg (temperaturesRead ss ds s) k = reg s k) := by
  obtain ⟨hsensors, hdiodes, hsapart, hdapart, hlimits⟩ := temperatures_apart
  obtain ⟨hss, hsonly⟩ := readingsStored_spec (f := Reg.tempSensor) (l := ss) s (by rw [hs]; exact hsensors)
  obtain ⟨hds, hdonly⟩ := readingsStored_spec (f := Reg.tempDiode) (l := ds) (readingsStored Reg.tempSensor ss s) (by rw [hd]; exact hdiodes)
  rw [hs] at hss hsonly
  rw [hd] at hds hdonly
  refine ⟨fun i hi => ?_, fun i hi => ?_, ?_, reg_setReg_self _ _ _, fun k hk => ?_⟩
  · obtain ⟨hdiode, hmax, hsensor⟩ := hsapart _ (List.mem_map_of_mem (List.mem_range.2 hi))
    rw [temperaturesRead, reg_setReg_ne _ _ _ _ hsensor, reg_setReg_ne _ _ _ _ hmax, hdonly _ hdiode, hss i hi]
  · obtain ⟨hmax, hsensor⟩ := hdapart _ (List.mem_map_of_mem (List.mem_range.2 hi))
    rw [temperaturesRead, reg_setReg_ne _ _ _ _ hsensor, reg_setReg_ne _ _ _ _ hmax, hds i hi]
  · rw [temperaturesRead, reg_setReg_ne _ _ _ _ (by decide), reg_setReg_self]
  · obtain ⟨hsens, hdiode, hmax, hsensor⟩ := hlimits k hk
    rw [temperaturesRead, reg_setReg_ne _ _ _ _ hsensor, reg_setReg_ne _ _ _ _ hmax, hdonly _ hdiode, hsonly _ hsens]

theorem reg_withPwr (s : State) (p : PwrState) (k : Nat) : reg { s with pwr := p } k = reg s k := rfl

/-- Below both limits nothing but the power block's own marks moves (R475, R476). -/
theorem tempActs_cool {s : State} (hw : toSigned 32 (reg s Reg.tempMax) < 16 * (reg s Reg.pwrTempWarnC : Int))
    (hc : toSigned 32 (reg s Reg.tempMax) < 16 * (reg s Reg.pwrTempCritC : Int)) : ∃ p, tempActs s = { s with pwr := p } := by
  have hwarn : ¬(16 * (reg s Reg.pwrTempWarnC : Int) ≤ toSigned 32 (reg s Reg.tempMax) ∧ (!s.pwr.warned) = true) := by omega
  unfold tempActs
  extract_lets m warn _ s1 crit was _ s2
  have hs1 : ∃ p, s1 = { s with pwr := p } := by
    simp only [s1, warn, m, if_neg hwarn]
    split
    · exact ⟨_, rfl⟩
    · exact ⟨_, rfl⟩
  obtain ⟨p, hp⟩ := hs1
  have hcrit : crit = false := by
    change decide (16 * (reg s1 Reg.pwrTempCritC : Int) ≤ m) = false
    rw [hp, reg_withPwr]
    exact decide_eq_false (Int.not_le.2 hc)
  have hquiet : (crit && !was) = false := by rw [hcrit, Bool.false_and]
  rw [hquiet, if_neg Bool.false_ne_true]
  refine ⟨{ p with crit := crit }, ?_⟩
  change { s1 with pwr.crit := crit } = _
  rw [hp]

/-- A first reading at the warning sets the cause (R475). -/
theorem tempActs_warns {s : State} (hn : s.pwr.warned = false) (hw : 16 * (reg s Reg.pwrTempWarnC : Int) ≤ toSigned 32 (reg s Reg.tempMax))
    (hc : toSigned 32 (reg s Reg.tempMax) < 16 * (reg s Reg.pwrTempCritC : Int)) :
    (tempActs s).pwr.warned = true ∧ bit (reg (tempActs s) Reg.pwrCause) 1 = true := by
  have hwarn : 16 * (reg s Reg.pwrTempWarnC : Int) ≤ toSigned 32 (reg s Reg.tempMax) ∧ (!s.pwr.warned) = true := ⟨hw, by rw [hn]; rfl⟩
  have hlimit : reg (raise { s with pwr.warned := true } .pwr 1) Reg.pwrTempCritC = reg s Reg.pwrTempCritC :=
    reg_raise_of_ne _ .pwr 1 (by decide) (by decide)
  have hcrit : decide (16 * (reg (raise { s with pwr.warned := true } .pwr 1) Reg.pwrTempCritC : Int) ≤ toSigned 32 (reg s Reg.tempMax)) =
      false := by
    rw [hlimit]
    exact decide_eq_false (by omega)
  simp only [tempActs, if_pos hwarn, hcrit, Bool.false_and, Bool.false_eq_true, if_false]
  refine ⟨?_, bit_raise_self { s with pwr.warned := true } .pwr 1 (by decide)⟩
  rw [pwr_raise]

end Sys2Proof.Machine
end

section
/-! SAFETY. Voltages, temperatures, the power estimate and lost clocks (R469, R474–R476, R485). -/

namespace Sys2Proof
open Machine

/-- Settles O54: each command by its steps, and no cause raised moves an entry that is stated. -/
theorem voltagesTemperaturesClocks : Obligations.VoltagesTemperaturesClocks := by
  intro s n ss ds hs
  refine ⟨fun hn hsense hi ht hr ha v hv => ⟨?_, fun hnack => ?_⟩, fun ht hi hl hd hw hc => ?_, fun ht hi hl hd hn hw hc => ?_,
    fun ht hi => ?_, fun hn hi => ?_⟩
  · obtain ⟨hup, hdown⟩ := avsNext_near (reg s (Reg.pwrVddMv n)) (mget 750 s.pwr.target n)
    subst hv
    refine ⟨_, exec_avsEvaluate true hn hsense hi ht hr ha, ?_⟩
    simp only [avsCommand, if_true]
    exact ⟨reg_setReg_self _ _ _, rfl, mget_mset_self _ _ _ _, hup, hdown⟩
  · refine ⟨_, exec_avsEvaluate false hn hsense hi ht hr ha, ?_⟩
    obtain ⟨hside, hne⟩ := side_pwrVddMv hn
    obtain ⟨u, hu, hod, hdead⟩ := avsCommand_third hnack
    rw [hu]
    refine ⟨?_, ?_, bit_raise_self u .pwr 3 (by decide)⟩
    · rw [reg_raise_of_ne u .pwr 3 hside hne, reg, hod, reg]
    · rw [pwr_raise, hdead]
  · obtain ⟨hsens, hdiode, hmax, hsensor, hlimits⟩ := reg_temperaturesRead (s := s) hl hd
    have hwarnc := hlimits Reg.pwrTempWarnC (by decide)
    have hcritc := hlimits Reg.pwrTempCritC (by decide)
    obtain ⟨p, hp⟩ := tempActs_cool (s := temperaturesRead ss ds s) (by rw [hmax, hwarnc]; exact hw) (by rw [hmax, hcritc]; exact hc)
    refine ⟨_, (exec_tempRead ht hi hl hd).trans (congrArg Host.Outcome.next hp), hsens, hdiode, hmax, hsensor⟩
  · obtain ⟨-, -, hmax, -, hlimits⟩ := reg_temperaturesRead (s := s) hl hd
    have hwarnc := hlimits Reg.pwrTempWarnC (by decide)
    have hcritc := hlimits Reg.pwrTempCritC (by decide)
    have hpwr : (temperaturesRead ss ds s).pwr = s.pwr := (pwr_readingsStored _ _ _).trans (pwr_readingsStored _ _ _)
    refine ⟨_, exec_tempRead ht hi hl hd, tempActs_warns (by rw [hpwr, hn]) (by rw [hmax, hwarnc]; exact hw)
      (by rw [hmax, hcritc]; exact hc)⟩
  · refine ⟨setReg (freeBits s 16).2 Reg.pwrEstimateW (freeBits s 16).1, if_pos ⟨ht, by rw [hi]; rfl⟩, ?_, rfl, fun k hk => ?_⟩
    · rw [reg_setReg_self]
      exact Nat.mod_lt _ (by decide)
    · exact reg_setReg_ne _ _ _ _ fun h => hk (List.mem_singleton.2 h)
  · have hruns : ¬(13 < n ∨ s.pwr.inReset = true) := by
      rw [hi]
      simp only [Bool.false_eq_true, or_false]
      omega
    refine ⟨_, if_neg hruns, bit_raise_self _ .pwr 5 (by decide), fun h0 => ?_⟩
    have hfl : ∀ u : State, (raise u .pwr 5).fl = u.fl := fun u => by
      rw [(noted_raise [Reg.pwrCause] u .pwr 5 (.inl (by decide))).1]
    rw [hfl, if_pos h0, timeUnlocked]
    split
    · rfl
    · rfl

end Sys2Proof
end

section
/-! SUPPORT. What a full reset leaves (R400, R477, R481), and the board's pins and buses (R522–R525). -/

namespace Sys2Proof.Machine

/-! ### A table cut to some of its indexes -/

theorem mget_of_below {α : Type} (d : α) {m : SMap α} {lo k : Nat} (h : risingFrom lo m = true) (hk : k < lo) : mget d m k = d := by
  cases m with
  | nil => rfl
  | cons p r =>
    simp only [risingFrom, Bool.and_eq_true, decide_eq_true_eq] at h
    exact if_pos (by omega)

/-- A rising table cut to the indexes of a test reads as before there, and as unlisted elsewhere. -/
theorem mget_filter_keys {α : Type} (d : α) (q : Nat → Bool) (k : Nat) : ∀ (m : SMap α) (lo : Nat), risingFrom lo m = true →
    mget d (m.filter (fun p => q p.1)) k = if q k then mget d m k else d
  | [], _, _ => by simp [mget]
  | (j, v) :: r, lo, h => by
    simp only [risingFrom, Bool.and_eq_true, decide_eq_true_eq] at h
    have hrest := mget_filter_keys d q k r (j + 1) h.2
    cases hq : q j with
    | true =>
      rw [show ((j, v) :: r).filter (fun p => q p.1) = (j, v) :: r.filter (fun p => q p.1) from List.filter_cons_of_pos hq, mget, mget, hrest]
      by_cases hlt : k < j
      · simp only [if_pos hlt, ite_self]
      · by_cases he : k = j
        · subst he
          simp only [if_neg hlt, if_true, hq]
        · simp only [if_neg hlt, if_neg he]
    | false =>
      rw [show ((j, v) :: r).filter (fun p => q p.1) = r.filter (fun p => q p.1) from List.filter_cons_of_neg (by simp [hq]), hrest, mget]
      by_cases hlt : k < j
      · rw [mget_of_below d h.2 (Nat.lt_succ_of_lt hlt), if_pos hlt]
      · by_cases he : k = j
        · subst he
          simp only [hq, Bool.false_eq_true, if_false]
        · simp only [if_neg hlt, if_neg he]

/-! ### Resets (R400, R477, R481) -/

theorem regionBroken_frame (s : State) : ∃ d, regionBroken s = { s with od := d } := by
  rw [regionBroken]
  split
  · exact ⟨_, rfl⟩
  · exact ⟨_, rfl⟩

theorem noted_regionBroken (s : State) : Noted [Reg.fwRegionState] s (regionBroken s) :=
  noted_ite _ (noted_setReg _ _ _ _ (.inl (List.mem_singleton.2 rfl))) (.refl _ s)

/-- A region marked as broken leaves every other entry. -/
theorem reg_regionBroken (s : State) {k : Nat} (h : k ≠ Reg.fwRegionState) : reg (regionBroken s) k = reg s k := by
  rw [regionBroken]
  split
  · exact reg_setReg_ne _ _ _ _ h
  · rfl

/-- A full reset leaves fuses, and every other entry at its default. -/
theorem reg_fullReset {s : State} (hs : OdTidy s) {k : Nat} (hk : k < 2 ^ 24) (hr : k ≠ Reg.fwRegionState) :
    reg (fullReset s) k = if isFuse k = true then reg s k else odDefault k := by
  have htidy : OdTidy (regionBroken s) := (noted_regionBroken s).2.1 hs
  have hcut : reg (fullReset s) k = if (decide (k < 2 ^ 24) && isFuse k) = true then reg (regionBroken s) k else odDefault k :=
    mget_filter_keys (odDefault k) (fun j => decide (j < 2 ^ 24) && isFuse j) k _ 0 htidy.1
  rw [hcut, decide_eq_true hk, Bool.true_and, reg_regionBroken s hr]

/-- Start-up from a reset keeps fuses and flash, and leaves everything else as at reset (R477, R481, R483). -/
theorem restarted_startUp {s : State} (hs : OdTidy s) {kind : Nat} (hkind : kind = 1 ∨ kind = 2) (straps : Nat) :
    Restarted s (startUp s kind straps) kind straps := by
  have hapart : Reg.pwrLastReset ≠ Reg.pwrResetCount kind ∧ Reg.pwrLastReset ≠ Reg.idStraps ∧ Reg.pwrResetCount kind ≠ Reg.idStraps := by
    rcases hkind with rfl | rfl <;> decide
  obtain ⟨hlc, hls, hcs⟩ := hapart
  have hreg : ∀ k, reg (startUp s kind straps) k = reg (setReg (setReg (setReg (fullReset s) Reg.pwrLastReset kind)
      (Reg.pwrResetCount kind) 1) Reg.idStraps (straps % 256)) k := fun _ => rfl
  obtain ⟨d, hd⟩ := regionBroken_frame s
  have hdict : (regionBroken s).dict = s.dict := by rw [hd]
  have hfw : (regionBroken s).fw = s.fw := by rw [hd]
  refine ⟨?_, ?_, ?_, fun k hk hn => ?_, ?_, (congrArg DictState.store hdict :), (congrArg DictState.fuseCounts hdict :),
    (congrArg DictState.deviceKey hdict :), congrArg (fun x => x.torn ++ x.burns) hdict, rfl, rfl, (congrArg FwState.image hfw :), rfl⟩
  · rw [hreg, reg_setReg_ne _ _ _ _ hls, reg_setReg_ne _ _ _ _ hlc, reg_setReg_self]
  · rw [hreg, reg_setReg_ne _ _ _ _ hcs, reg_setReg_self]
  · rw [hreg, reg_setReg_self]
  · simp only [List.mem_cons, List.not_mem_nil, or_false, not_or] at hn
    obtain ⟨hlast, hcount, hstraps, hregion⟩ := hn
    rw [hreg, reg_setReg_ne _ _ _ _ hstraps, reg_setReg_ne _ _ _ _ hcount, reg_setReg_ne _ _ _ _ hlast, reg_fullReset hs hk hregion]
  · rw [startUp, fullReset, hd]
    rfl

/-- A JTAG instruction that holds the device leaves it as in a pin reset (R523). -/
theorem jtagHold_eq {s : State} (h : s.pwr.off = false) (i : Nat) :
    jtagHold s i = { fullReset s with pwr := { inReset := true, jtag := some i } } :=
  if_neg (by rw [h]; exact Bool.false_ne_true)

theorem store_fullReset (s : State) : (fullReset s).dict.store = s.dict.store := by
  obtain ⟨d, hd⟩ := regionBroken_frame s
  rw [fullReset, hd]

theorem jtagLeave_idle {s : State} (h : s.pwr.jtag = none) (straps : Nat) : jtagLeave s straps = s := by
  rw [jtagLeave, h]
  rfl

/-! ### Pulse per second and GPIO (R522, R524) -/

/-- An edge at the pulse input, latched or not by how near the one before was. -/
theorem exec_ppsInEdge {s : State} {n : Nat} (hi : s.pwr.inReset = false) (hn : n ≤ 4) (near : Bool)
    (h : (match s.io.ppsInAt with
      | some t => decide (s.time < t + 1000)
      | none => false) = near) : exec (.ppsInEdge n) s = .next (if near then { s with io.ppsInAt := some s.time }
        else setReg { s with io.ppsInAt := some s.time } Reg.ioPpsInTs ((timeNs s + n + 2 ^ 64 - 2) % 2 ^ 64)) := by
  subst h
  refine if_neg ?_
  rw [hi]
  simp only [Bool.false_eq_true, false_or]
  omega

/-- The pins are driven as the two entries say, and no entry changes. -/
theorem gpioDrive_spec (s : State) : (gpioDrive s).od = s.od ∧
    (gpioDrive s).io.gpio = reg s Reg.ioGpioDir * 2 ^ 32 + Nat.land (reg s Reg.ioGpioDir) (reg s Reg.ioGpioOut) := by
  simp only [gpioDrive]
  split
  · exact ⟨rfl, ‹_›⟩
  · exact ⟨rfl, rfl⟩

end Sys2Proof.Machine
end

section
/-! SAFETY. Pulse per second, GPIO, the serial masters and JTAG (R522–R525). -/

namespace Sys2Proof
open Machine

/-- Settles O56: each command by its rule; a held device is a full reset, and leaving the hold a start-up. -/
theorem boardSignals : Obligations.BoardSignals := by
  intro s c n v ans hs
  refine ⟨fun hi hn ha => ?_, fun a hi hn ha hlt => ?_, fun ht hl hi hf => ?_, fun k out hk hp => ?_, fun l hrun hl => ?_,
    fun l hrun hl => ?_, fun ho i j hij => ?_, fun hj => ⟨?_, ?_, ?_, ?_⟩, fun j hj => ?_⟩
  · refine exec_ppsInEdge hi hn false ?_
    cases hat : s.io.ppsInAt with
    | none => rfl
    | some a => exact decide_eq_false (Nat.not_lt.2 (ha a hat))
  · refine exec_ppsInEdge hi hn true ?_
    rw [ha]
    exact decide_eq_true hlt
  · exact if_pos ⟨ht, hl, by rw [hi]; rfl, hf⟩
  · obtain ⟨hod, hpins⟩ := gpioDrive_spec (setReg s k v)
    have hreg : ∀ e, reg (gpioDrive (setReg s k v)) e = reg (setReg s k v) e := fun e => by rw [reg, hod, reg]
    refine ⟨gpioDrive (setReg s k v), ?_, ?_, fun e he => ?_, ?_⟩
    · subst hk
      exact congrArg Host.Outcome.next (permitted_does hp rfl)
    · rw [hreg, reg_setReg_self]
    · rw [hreg, reg_setReg_ne _ _ _ _ fun h => he (List.mem_singleton.2 h)]
    · rw [hpins, hreg, hreg]
  · subst hl
    exact if_pos hrun
  · subst hl
    exact if_pos hrun
  · have hhold : exec i s = .next (jtagHold s j) := by
      simp only [List.mem_cons, List.not_mem_nil, or_false, Prod.mk.injEq] at hij
      rcases hij with ⟨rfl, rfl⟩ | ⟨rfl, rfl⟩ | ⟨rfl, rfl⟩ | ⟨rfl, rfl⟩ | ⟨rfl, rfl⟩ <;> rfl
    refine ⟨_, hhold.trans (congrArg Host.Outcome.next (jtagHold_eq ho j)), rfl, rfl, store_fullReset s⟩
  · exact congrArg (fun t => Host.Outcome.next (emit t (.jtag [0]))) (jtagLeave_idle hj n)
  · exact congrArg (fun t => Host.Outcome.next (emit t (.jtag (leBytes 4 idcode)))) (jtagLeave_idle hj n)
  · exact congrArg Host.Outcome.next (jtagLeave_idle hj n)
  · exact congrArg Host.Outcome.next (jtagLeave_idle hj n)
  · refine ⟨startUp s 2 n, congrArg Host.Outcome.next (if_pos ?_), restarted_startUp hs (.inr rfl) n⟩
    rw [hj]
    rfl

end Sys2Proof
end

section
/-! SUPPORT. Scrubs and injected faults (R488, R490, R491, R496, R498). -/

namespace Sys2Proof.Machine

theorem flipsOf_setFlips_self (s : State) (cls unit idx n : Nat) : flipsOf (setFlips s cls unit idx n) cls unit idx = n :=
  mget_mset_self _ _ _ _

theorem integ_raise (s : State) (c : CauseReg) (b : Nat) : (raise s c b).integ = s.integ := by
  rw [(noted_raise [c.key] s c b (.inl (List.mem_singleton.2 rfl))).1]

theorem fw_raise (s : State) (c : CauseReg) (b : Nat) : (raise s c b).fw = s.fw := part_raise (π := .fw) s c b

/-! ### Errors in words (R488) -/

theorem intCorrected_apart {cls : Nat} (h : cls < 12) : sideEntry (Reg.intCorrected cls) = false ∧
    Reg.intCorrected cls ≠ Reg.intCause ∧ Reg.intCorrected cls ≠ Reg.intLastError := by
  revert cls
  decide

/-- A corrected word adds one to its class's count and sets the cause (R488). -/
theorem wordCorrected_spec (s : State) {cls : Nat} (unit idx : Nat) (h : cls < 12) :
    reg (wordCorrected s cls unit idx) (Reg.intCorrected cls) = (reg s (Reg.intCorrected cls) + 1) % 2 ^ 64 ∧
    bit (reg (wordCorrected s cls unit idx) Reg.intCause) 0 = true := by
  obtain ⟨hside, hcause, hlast⟩ := intCorrected_apart h
  have hcount : reg (latchError (count1 s (Reg.intCorrected cls)) cls 0 unit idx) (Reg.intCorrected cls) =
      (reg s (Reg.intCorrected cls) + 1) % 2 ^ 64 := by
    rw [latchError, reg_setReg_ne _ _ _ _ hlast, count1, countBy, reg_setReg_self]
  refine ⟨?_, bit_raise_self _ .int 0 (by decide)⟩
  rw [wordCorrected, reg_raise_of_ne _ .int 0 hside hcause]
  split
  · rw [reg_raise_of_ne _ .int 4 hside hcause, hcount]
  · exact hcount

theorem fw_wordCorrected (s : State) (cls unit idx : Nat) : (wordCorrected s cls unit idx).fw = s.fw := by
  have h : part .fw (wordCorrected s cls unit idx) = part .fw s := by simp [wordCorrected]
  exact h

/-- One flipped bit is corrected (R488). -/
theorem checkWord_one {s : State} {cls unit idx : Nat} (h : flipsOf s cls unit idx = 1) :
    checkWord s cls unit idx = (false, wordCorrected s cls unit idx) := by
  simp only [checkWord, h]
  rfl

/-- Two flipped bits are beyond SECDED (R488). -/
theorem checkWord_two {s : State} {cls unit idx : Nat} (h : flipsOf s cls unit idx = 2) (hc : isSecded cls = true) :
    checkWord s cls unit idx = (true, wordLost s cls unit idx false) := by
  simp only [checkWord, h, hc]
  rfl

/-! ### Patrol scrubs (R490, R491) -/

theorem patrolWord_clean {s : State} {cls unit idx : Nat} (hc : cls ≠ 3) (h : flipsOf s cls unit idx = 0) :
    patrolWord s cls unit idx 0 = s := by
  rw [patrolWord, if_neg (Nat.not_lt_zero _)]
  simp only [if_neg hc, if_pos h]

/-- A word with one flipped bit, found now or before, is written back corrected. -/
theorem patrolWord_corrects {s : State} {cls unit idx : Nat} (hc : cls ≠ 3) (h : flipsOf s cls unit idx ≤ 1) :
    ∃ u, u.od = s.od ∧ patrolWord s cls unit idx 1 = setFlips (wordCorrected u cls unit idx) cls unit idx 0 := by
  have hone : ∀ u : State, flipsOf u cls unit idx = 1 → (if cls = 3 then readState u (idx / 2)
      else if flipsOf u cls unit idx = 0 then u
      else if (checkWord u cls unit idx).1 then scrubLost (checkWord u cls unit idx).2 cls unit idx
      else setFlips (checkWord u cls unit idx).2 cls unit idx 0) = setFlips (wordCorrected u cls unit idx) cls unit idx 0 := fun u hu => by
    rw [if_neg hc, if_neg (by omega), checkWord_one hu, if_neg Bool.false_ne_true]
  by_cases hz : flipsOf s cls unit idx < 1
  · exact ⟨setFlips s cls unit idx 1, rfl, by rw [patrolWord, if_pos hz]; exact hone _ (flipsOf_setFlips_self s cls unit idx 1)⟩
  · exact ⟨s, rfl, by rw [patrolWord, if_neg hz]; exact hone s (by omega)⟩

/-- A patrol read in its place, of an array that runs (R490). -/
theorem exec_patrolScrubRead {s : State} {cls unit idx p found : Nat} (hp : mfind s.integ.sweeps cls = some p) (hu : unit < 256)
    (hi : idx < 2 ^ 40) (hk : p ≤ unit * 2 ^ 40 + idx) (hs : reg s Reg.pwrState = 0) (hc : scrubCounts s cls unit = false)
    (hf : found ≤ 3) : exec (.patrolScrubRead cls unit idx found false) s = .next (patrolWord
      { s with integ.sweeps := mput s.integ.sweeps cls (unit * 2 ^ 40 + idx + 1) } cls unit idx found) := by
  have hreads : ¬(unit * 2 ^ 40 + idx < p ∨ 3 < found ∨ 256 ≤ unit ∨ 2 ^ 40 ≤ idx ∨ (reg s Reg.pwrState ≠ 0 ∧ cls ≠ 0xB)) := by
    rw [hs]
    omega
  have hcount : ∀ m, scrubCounts { s with integ.sweeps := m } cls unit = false := fun _ => hc
  change execPatrolScrubRead cls unit idx found false s = _
  simp only [execPatrolScrubRead, hp, Nat.mod_eq_of_lt hu, Nat.mod_eq_of_lt hi, if_neg hreads, hcount, Bool.false_eq_true, if_false]

/-- Reads that find nothing change nothing. -/
theorem foldl_patrolWord_clean {unit : Nat} {s : State} : ∀ reads : List (Nat × Nat × Nat),
    (∀ r ∈ reads, (r.1 = 0 ∨ r.1 = 1 ∨ r.1 = 4) ∧ r.2.2 = 0 ∧ flipsOf s r.1 unit r.2.1 = 0) →
    reads.foldl (fun s r => if (r.1 = 0 ∨ r.1 = 1 ∨ r.1 = 4) ∧ r.2.2 ≤ 3 then patrolWord s r.1 unit r.2.1 r.2.2 else s) s = s
  | [], _ => rfl
  | r :: l, h => by
    obtain ⟨hc, hf, hz⟩ := h r (List.mem_cons_self ..)
    rw [List.foldl_cons, if_pos ⟨hc, by omega⟩, hf, patrolWord_clean (by omega) hz]
    exact foldl_patrolWord_clean l fun x hx => h x (List.mem_cons_of_mem _ hx)

/-- A word of management RAM that is read with flipped bits (R496). -/
theorem exec_mgmtRamError {s : State} {idx n : Nat} (h : 1 ≤ n ∧ n ≤ 3) {lost : Bool} {t : State}
    (hc : checkWord (setFlips s 0xB 118 idx n) 0xB 118 idx = (lost, t)) : exec (.mgmtRamError idx n) s = .next (if lost then
      { raise (setFlips t 0xB 118 idx 0) .int 7 with fw.halted := true, fw.running := false } else setFlips t 0xB 118 idx 0) := by
  refine (if_pos h).trans ?_
  rw [hc]

/-! ### Injected faults (R498) -/

theorem wIntInject_arms {s : State} {v : Nat} (hk : bits v 63 60 ≤ 3) (hc : bits v 59 56 ≤ 0xB) :
    wIntInject v s = .done (setReg s Reg.intInject v) := by
  have hok : ¬(4 < bits v 63 60 ∨ (bits v 63 60 = 4 ∧ 6 < bits v 59 56) ∨ 0xB < bits v 59 56) := by omega
  simp only [wIntInject, if_neg hok]

/-- An armed fault fires at its word (R498). -/
theorem exec_injectFire {s : State} {idx i cls unit : Nat} {d : Bool} (hlo : 1 ≤ bits (reg s Reg.intInject) 63 60)
    (hhi : bits (reg s Reg.intInject) 63 60 ≤ 3) (hc : bits (reg s Reg.intInject) 59 56 = cls)
    (hu : bits (reg s Reg.intInject) 55 48 = unit) (ha : cls ≠ 0xA)
    (hi : bits (reg s Reg.intInject) 39 0 = 0xFFFFFFFFFF ∨ bits (reg s Reg.intInject) 39 0 = idx) :
    exec (.injectFire idx i d) s = .next (setFlips (latchError (injectFired s) cls 3 unit idx) cls unit idx
      (bits (reg s Reg.intInject) 63 60)) := by
  subst hc hu
  have hat : ¬(bits (reg s Reg.intInject) 39 0 ≠ 0xFFFFFFFFFF ∧ bits (reg s Reg.intInject) 39 0 ≠ idx) := by
    rintro ⟨h1, h2⟩
    exact hi.elim h1 h2
  refine (if_neg (by omega)).trans ((if_neg (by omega)).trans ?_)
  exact (if_neg hat).trans (if_neg ha)

/-- A fault that fires disarms, is counted and sets the cause (R498). -/
theorem injectFired_spec (s : State) : reg (injectFired s) Reg.intInject = 0 ∧
    reg (injectFired s) Reg.intInjectFired = (reg s Reg.intInjectFired + 1) % 2 ^ 32 ∧ bit (reg (injectFired s) Reg.intCause) 6 = true := by
  refine ⟨?_, ?_, bit_raise_self _ .int 6 (by decide)⟩
  · rw [injectFired, reg_raise_of_ne _ .int 6 (by decide) (by decide), count32, countBy, reg_setReg_ne _ _ _ _ (by decide), reg_setReg_self]
  · rw [injectFired, reg_raise_of_ne _ .int 6 (by decide) (by decide), count32, countBy, reg_setReg_self,
      reg_setReg_ne _ _ _ _ (by decide)]

end Sys2Proof.Machine
end

section
/-! SAFETY. Patrol scrubs, management RAM errors and injected faults (R490, R491, R496, R498). -/

namespace Sys2Proof
open Machine

/-- Settles O55: each command by its rule, over what a check of a word does. -/
theorem scrubsAndInjectedFaults : Obligations.ScrubsAndInjectedFaults := by
  intro s c cls unit idx v hs
  refine ⟨fun hz ht hp => ⟨fun hn => ?_, fun p hs' => ?_⟩, fun p hp hu hi hk hst hc h3 h12 => ⟨fun hf => ?_, fun hf => ?_⟩,
    fun reads hd hne hstop hst hall => ?_, ?_, ?_, fun hp hk hc => ?_, fun hp hk => ?_, fun i d hlo hhi hc hu ha hi => ?_⟩
  · have hstart : scrubPeriod s cls ≠ 0 ∧ atMultiple s (scrubPeriod s cls) = true ∧ (reg s Reg.pwrState = 0 ∨ cls = 0xB) :=
      ⟨hz, by rw [atMultiple, decide_eq_true (Nat.pos_of_ne_zero hz), ht]; rfl, hp⟩
    refine (if_pos hstart).trans ?_
    rw [hn]
    rfl
  · have hstart : scrubPeriod s cls ≠ 0 ∧ atMultiple s (scrubPeriod s cls) = true ∧ (reg s Reg.pwrState = 0 ∨ cls = 0xB) :=
      ⟨hz, by rw [atMultiple, decide_eq_true (Nat.pos_of_ne_zero hz), ht]; rfl, hp⟩
    refine ⟨_, (if_pos hstart).trans (if_pos (by rw [hs']; rfl)), ?_, bit_raise_self _ .int 5 (by decide), ?_⟩
    · exact (reg_raise_of_ne _ .int 5 (by decide) (by decide)).trans (reg_setReg_self ..)
    · exact (congrArg IntegState.sweeps (integ_raise (count1 s Reg.intScrubLate) .int 5) :)
  · exact (exec_patrolScrubRead hp hu hi hk hst hc (by decide)).trans (congrArg Host.Outcome.next (patrolWord_clean h3 hf))
  · obtain ⟨u, hod, hword⟩ := patrolWord_corrects (s := { s with integ.sweeps := mput s.integ.sweeps cls (unit * 2 ^ 40 + idx + 1) })
      (unit := unit) (idx := idx) h3 hf
    obtain ⟨hcount, hcause⟩ := wordCorrected_spec u unit idx h12
    refine ⟨_, (exec_patrolScrubRead hp hu hi hk hst hc (by decide)).trans (congrArg Host.Outcome.next hword),
      flipsOf_setFlips_self _ _ _ _ _, ?_, hcause⟩
    rw [reg_setFlips, hcount, reg, hod]
    rfl
  · have hready : ¬(mget 0 s.integ.due unit = 0 ∨ reads.length ≠ mget 0 s.integ.due unit ∨
        ((isl s unit).stopped = true ∧ mget 0 s.integ.due unit < 1024) ∨ reg s Reg.pwrState ≠ 0) := by
      rw [hd, hstop, hst]
      simp [hne]
    exact (if_neg hready).trans (congrArg Host.Outcome.next (foldl_patrolWord_clean reads hall))
  · have hword := checkWord_one (flipsOf_setFlips_self s 0xB 118 idx 1)
    refine ⟨_, exec_mgmtRamError (by decide) hword, ?_, ?_⟩
    all_goals rw [if_neg Bool.false_ne_true]
    · rw [reg_setFlips, (wordCorrected_spec _ 118 idx (by decide)).1]
      rfl
    · rw [setFlips_fw, fw_wordCorrected]
      rfl
  · have hword := checkWord_two (flipsOf_setFlips_self s 0xB 118 idx 2) rfl
    refine ⟨_, exec_mgmtRamError (by decide) hword, ?_⟩
    rw [if_pos rfl]
    exact ⟨rfl, rfl, bit_raise_self _ .int 7 (by decide)⟩
  · exact congrArg Host.Outcome.next (permitted_does hp (wIntInject_arms hk hc))
  · exact congrArg Host.Outcome.next (permitted_refused hp (if_pos (.inl hk)))
  · obtain ⟨hdisarmed, hfired, hcause⟩ := injectFired_spec s
    refine ⟨_, exec_injectFire hlo hhi hc hu ha hi, ?_, flipsOf_setFlips_self _ _ _ _ _, ?_, ?_⟩
    · rw [reg_setFlips, latchError, reg_setReg_ne _ _ _ _ (by decide), hdisarmed]
    · rw [reg_setFlips, latchError, reg_setReg_ne _ _ _ _ (by decide), hcause]
    · rw [reg_setFlips, latchError, reg_setReg_ne _ _ _ _ (by decide), hfired]

end Sys2Proof
end

section
/-! SUPPORT. The host's desk: the engine of the dictionary, the functions in reset, VF Enable and the host link. What
discards, links, lanes and punts leave of it. -/

namespace Sys2Proof.Machine

variable {α β : Type}

/-! ### The desk of a state -/

/-- The entries of the desk: the host link and VF Enable. -/
def isDesk (k : Nat) : Bool := k == Reg.hostLink || k == Reg.hostNumVfs

theorem isDesk_iff {k : Nat} : isDesk k = true ↔ k = Reg.hostLink ∨ k = Reg.hostNumVfs := by
  rw [isDesk, Bool.or_eq_true, beq_iff_eq, beq_iff_eq]

/-- Events move no entry of the desk. -/
theorem side_of_isDesk {k : Nat} (h : isDesk k = true) : sideEntry k = false := by
  rcases isDesk_iff.1 h with rfl | rfl
  · decide
  · decide

/-- No entry above the first of the host is on the desk. -/
theorem notDesk_high {k : Nat} (h : 0x160201 ≤ k) : isDesk k = false := by
  rw [isDesk, Bool.or_eq_false_iff, beq_eq_false_iff_ne, beq_eq_false_iff_ne, Reg.hostLink, Reg.hostNumVfs]
  simp only [key]
  omega

theorem notDesk_low {k : Nat} (h : k < 0x160000) : isDesk k = false := by
  rw [isDesk, Bool.or_eq_false_iff, beq_eq_false_iff_ne, beq_eq_false_iff_ne, Reg.hostLink, Reg.hostNumVfs]
  simp only [key]
  omega

theorem notDesk_key {idx sub : Nat} (h : 0x1603 ≤ idx ∨ (idx < 0x15FF ∧ sub < 256)) : isDesk (key idx sub) = false := by
  rcases h with h | h
  · refine notDesk_high ?_
    simp only [key]
    omega
  · refine notDesk_low ?_
    simp only [key]
    omega

theorem notDesk_keyIf {b : Bool} {idx sub : Nat} (h : b = true → 0x1603 ≤ idx ∨ (idx < 0x15FF ∧ sub < 256)) :
    isDesk (keyIf b (key idx sub)) = false := by
  cases b with
  | false => rfl
  | true => exact notDesk_key (h rfl)

@[simp] theorem notDesk_main (p sub : Nat) : isDesk (key (0x2000 + p) sub) = false := notDesk_key (.inl (by omega))
@[simp] theorem notDesk_portCause (p : Nat) : isDesk (CauseReg.key (.port p)) = false := notDesk_keyIf fun _ => .inl (by omega)
@[simp] theorem notDesk_flCause (l : Nat) : isDesk (CauseReg.key (.fl l)) = false := notDesk_keyIf fun _ => .inl (by omega)
@[simp] theorem notDesk_fbCause (b : Nat) : isDesk (CauseReg.key (.fb b)) = false := notDesk_keyIf fun _ => .inl (by omega)
@[simp] theorem notDesk_portLinkUp (p : Nat) : isDesk (Reg.portLinkUp p) = false := notDesk_keyIf fun _ => .inl (by omega)
@[simp] theorem notDesk_dropTotal (r : Nat) : isDesk (Reg.dropTotal r) = false := notDesk_keyIf fun _ => .inl (by omega)
@[simp] theorem notDesk_dropPort (p r : Nat) : isDesk (Reg.dropPort p r) = false := notDesk_keyIf fun _ => .inl (by omega)
@[simp] theorem notDesk_dropUnattributed (r : Nat) : isDesk (Reg.dropUnattributed r) = false := notDesk_keyIf fun _ => .inl (by omega)
@[simp] theorem notDesk_poolLeaked (n : Nat) : isDesk (Reg.poolLeaked n) = false := notDesk_keyIf fun _ => .inl (by omega)
@[simp] theorem notDesk_flDefects (l : Nat) : isDesk (Reg.flDefects l) = false := notDesk_keyIf fun _ => .inl (by omega)
@[simp] theorem notDesk_flRxLaneId (l : Nat) : isDesk (Reg.flRxLaneId l) = false := notDesk_keyIf fun _ => .inl (by omega)
@[simp] theorem notDesk_fbPathDefects (b : Nat) : isDesk (Reg.fbPathDefects b) = false := notDesk_keyIf fun _ => .inl (by omega)
@[simp] theorem notDesk_lanePrbsMode (l : Nat) : isDesk (Reg.lanePrbsMode l) = false := notDesk_keyIf fun _ => .inl (by omega)
@[simp] theorem notDesk_laneLoopback (l : Nat) : isDesk (Reg.laneLoopback l) = false := notDesk_keyIf fun _ => .inl (by omega)
@[simp] theorem notDesk_intCorrected (c : Nat) : isDesk (Reg.intCorrected c) = false :=
  notDesk_keyIf fun h => .inr ⟨by decide, by simp only [decide_eq_true_eq] at h; omega⟩
@[simp] theorem notDesk_intUncorrectable (c : Nat) : isDesk (Reg.intUncorrectable c) = false :=
  notDesk_keyIf fun h => .inr ⟨by decide, by simp only [decide_eq_true_eq] at h; omega⟩
@[simp] theorem notDesk_pmCause : isDesk (CauseReg.key .pm) = false := by decide
@[simp] theorem notDesk_intCause : isDesk (CauseReg.key .int) = false := by decide

/-- An entry that a function holds a value of is not on the desk. -/
theorem notDesk_callerKey (fn : Nat) {k : Nat} (h : isDesk k = false) : isDesk (callerKey fn k) = false := by
  cases fn with
  | zero => rwa [callerKey, Nat.zero_mul, Nat.zero_add]
  | succ n =>
    refine notDesk_high ?_
    rw [callerKey]
    omega

@[simp] theorem notDesk_ringConsumed (fn : Nat) (inj : Bool) (r : Nat) : isDesk (callerKey fn (ringConsumed inj r)) = false := by
  refine notDesk_callerKey fn ?_
  rw [ringConsumed]
  split
  · exact notDesk_keyIf fun _ => .inl (by omega)
  · exact notDesk_keyIf fun _ => .inl (by omega)

/-- What the desk holds. -/
structure Desk where
  dict : DictState
  inFlr : SMap Bool
  entries : Nat → Nat

/-- What the entries of the desk read. -/
def deskEntries (od : SMap Nat) (k : Nat) : Nat := if isDesk k then mget (odDefault k) od k else 0

/-- The desk of a state. -/
def desk (s : State) : Desk := ⟨s.dict, s.host.inFlr, deskEntries s.od⟩

theorem dict_of_desk {s t : State} (h : desk t = desk s) : t.dict = s.dict := congrArg Desk.dict h
theorem inFlr_of_desk {s t : State} (h : desk t = desk s) : t.host.inFlr = s.host.inFlr := congrArg Desk.inFlr h

theorem reg_of_desk {s t : State} (h : desk t = desk s) {k : Nat} (hk : isDesk k = true) : reg t k = reg s k := by
  have hentry := congrFun (congrArg Desk.entries h) k
  simpa only [desk, deskEntries, hk, if_true, reg] using hentry

/-- Storing another entry leaves the entries of the desk. -/
theorem deskEntries_mset {k : Nat} (h : isDesk k = false) (od : SMap Nat) (v : Nat) :
    deskEntries (mset (odDefault k) od k v) = deskEntries od := by
  funext j
  simp only [deskEntries]
  split
  · rename_i hj
    exact mget_default_ne _ _ od k j v (by rintro rfl; simp [h] at hj)
  · rfl

@[simp] theorem desk_mk (od blocks pending time timeOffset freeCtr sent evt led obs pkts nextPkt outs nextOut ports lanes lmacs mem qm pwr
    host fl ft hbm integ ase dict cls lkp mtr fw clk io) :
    desk (State.mk od blocks pending time timeOffset freeCtr sent evt led obs pkts nextPkt outs nextOut ports lanes lmacs mem qm pwr
      host fl ft hbm integ ase dict cls lkp mtr fw clk io) = ⟨dict, host.inFlr, deskEntries od⟩ := (rfl)

@[simp] theorem desk_self (s : State) : Desk.mk s.dict s.host.inFlr (deskEntries s.od) = desk s := (rfl)

@[simp] theorem desk_ite (c : Prop) [Decidable c] (s t : State) : desk (if c then s else t) = if c then desk s else desk t :=
  apply_ite desk c s t

@[simp] theorem desk_foldl {f : State → α → State} (h : ∀ s x, desk (f s x) = desk s) (l : List α) (s : State) :
    desk (l.foldl f s) = desk s :=
  List.foldlRecOn l f (motive := fun t => desk t = desk s) rfl fun t ht x _ => (h t x).trans ht

/-- What events bring on the side leaves the desk as it was. -/
theorem desk_of_noted {ks : List Nat} {s t : State} (h : Noted ks s t) (hk : ∀ k ∈ ks, isDesk k = false) : desk t = desk s := by
  obtain ⟨heq, -, hreg⟩ := h
  have hentries : deskEntries t.od = deskEntries s.od := by
    funext k
    by_cases hj : isDesk k = true
    · have hread := hreg k (side_of_isDesk hj) fun hmem => by simp [hk k hmem] at hj
      simpa only [deskEntries, hj, if_true, reg] using hread
    · simp [deskEntries, hj]
  rw [heq, desk_mk, hentries, desk_self]

/-! ### Shared operations -/

@[simp] theorem desk_setReg {k : Nat} (h : isDesk k = false) (s : State) (v : Nat) : desk (setReg s k v) = desk s := by
  rw [setReg, desk_mk, deskEntries_mset h, desk_self]

@[simp] theorem desk_countBy {k : Nat} (h : isDesk k = false) (s : State) (w n : Nat) : desk (countBy s w k n) = desk s := desk_setReg h s _
@[simp] theorem desk_count1 {k : Nat} (h : isDesk k = false) (s : State) : desk (count1 s k) = desk s := desk_setReg h s _
@[simp] theorem desk_count32 {k : Nat} (h : isDesk k = false) (s : State) : desk (count32 s k) = desk s := desk_setReg h s _
@[simp] theorem desk_emit (s : State) (e : Emission) : desk (emit s e) = desk s := (rfl)
@[simp] theorem desk_freeBits (s : State) (w : Nat) : desk (freeBits s w).2 = desk s := (rfl)
@[simp] theorem desk_setPkt (s : State) (i : Nat) (p : Pkt) : desk (setPkt s i p) = desk s := (rfl)
@[simp] theorem desk_delPkt (s : State) (i : Nat) : desk (delPkt s i) = desk s := (rfl)
@[simp] theorem desk_setPort (s : State) (p : Nat) (x : Port) : desk (setPort s p x) = desk s := (rfl)
@[simp] theorem desk_setQueue (s : State) (q : Nat) (x : Queue) : desk (setQueue s q x) = desk s := (rfl)
@[simp] theorem desk_setFlane (s : State) (l : Nat) (x : FLane) : desk (setFlane s l x) = desk s := (rfl)
@[simp] theorem desk_setBundle (s : State) (b : Nat) (x : FBundle) : desk (setBundle s b x) = desk s := (rfl)
@[simp] theorem desk_setDestRec (s : State) (d : Nat) (x : DestRec) : desk (setDestRec s d x) = desk s := (rfl)
@[simp] theorem desk_queueLeft (s : State) : desk (queueLeft s) = desk s := (rfl)
@[simp] theorem desk_dueKnown (s : State) (i : Nat) (p : Pkt) : desk (dueKnown s i p) = desk s := (rfl)
@[simp] theorem desk_probeDest (s : State) (d : Nat) : desk (probeDest s d) = desk s := (rfl)
@[simp] theorem desk_dropPunt (s : State) (i : Nat) : desk (dropPunt s i) = desk s := (rfl)
@[simp] theorem desk_setRing (s : State) (fn : Nat) (inj : Bool) (r : Nat) (x : Ring) : desk (setRing s fn inj r x) = desk s := (rfl)

@[simp] theorem desk_raise {c : CauseReg} (h : isDesk c.key = false) (s : State) (b : Nat) : desk (raise s c b) = desk s :=
  desk_of_noted (noted_raise [c.key] s c b (.inl (by simp))) (by simpa using h)

@[simp] theorem desk_perfEvent (s : State) (code inst n : Nat) : desk (perfEvent s code inst n) = desk s :=
  desk_of_noted (noted_perfEvent [] s code inst n) (by simp)

@[simp] theorem desk_postcard (s : State) (r : Nat) (c : Card) : desk (postcard s r c) = desk s :=
  desk_of_noted (noted_postcard [] s r c) (by simp)

@[simp] theorem desk_discard (s : State) (r : Nat) (at? : Option Nat) (c : Card) : desk (discard s r at? c) = desk s := by
  have hcount : ∀ s, desk (dropCounted s r at?) = desk s := fun s => by cases at? <;> simp [dropCounted]
  have henter : ∀ s, desk (dropEntered s r) = desk s := fun s => by
    rw [dropEntered]
    split <;> rfl
  simp [discard_eq, hcount, henter]

/-! ### Packet memory (ch. 9, ch. 20) -/

@[simp] theorem desk_setFlips (s : State) (cls unit idx n : Nat) : desk (setFlips s cls unit idx n) = desk s := (rfl)

@[simp] theorem desk_latchError (s : State) (cls kind unit idx : Nat) : desk (latchError s cls kind unit idx) = desk s :=
  desk_setReg (by decide) s _

@[simp] theorem desk_wordLost (s : State) (cls unit idx : Nat) (p : Bool) : desk (wordLost s cls unit idx p) = desk s := by simp [wordLost]

@[simp] theorem desk_checkWord (s : State) (cls unit idx : Nat) : desk (checkWord s cls unit idx).2 = desk s := by
  have hcorrected : ∀ s, desk (wordCorrected s cls unit idx) = desk s := fun s => by simp [wordCorrected]
  have hfree : desk (freeBits s 1).2 = desk s := rfl
  simp [checkWord, hcorrected, hfree]

@[simp] theorem desk_checkWords (s : State) (cls : Nat) (l : List (Nat × Nat)) : desk (checkWords s cls l).2 = desk s :=
  List.foldlRecOn l _ (motive := fun r : Bool × State => desk r.2 = desk s) rfl fun r hr x _ => (desk_checkWord r.2 cls x.1 x.2).trans hr

@[simp] theorem desk_wordsWritten (s : State) (cls unit : Nat) (idxs : List Nat) : desk (wordsWritten s cls unit idxs) = desk s := by
  simp only [wordsWritten]
  split <;> simp +decide [injectFired]

@[simp] theorem desk_setUsed (s : State) (m u v : Nat) : desk (setUsed s m u v) = desk s := by simp [setUsed]
@[simp] theorem desk_setQuar (s : State) (m u : Nat) : desk (setQuar s m u) = desk s := by simp [setQuar]
@[simp] theorem desk_setSkim (s : State) (n h t c : Nat) : desk (setSkim s n h t c) = desk s := (rfl)
@[simp] theorem desk_potWrite (s : State) (a : Nat) (b : List Byte) : desk (potWrite s a b) = desk s := by simp [potWrite]
@[simp] theorem desk_setLinkWord (s : State) (c w : Nat) : desk (setLinkWord s c w) = desk s := by simp [setLinkWord]
@[simp] theorem desk_ptrFault (s : State) (wh n p : Nat) : desk (ptrFault s wh n p) = desk s := by simp +decide [ptrFault]

@[simp] theorem desk_quarantinePtr (s : State) (m p : Nat) : desk (quarantinePtr s m p) = desk s := by
  simp only [quarantinePtr]
  split
  · split <;> simp [poolLowCheck]
  · rfl

@[simp] theorem desk_leakUnits (s : State) (m : Nat) (l : List Nat) : desk (leakUnits s m l) = desk s := by
  refine desk_foldl (fun s u => ?_) l s
  split <;> simp

@[simp] theorem desk_freeUnit (s : State) (m u : Nat) : desk (freeUnit s m u) = desk s := by
  have hbitmap : desk (readBitmap s m u) = desk s := by simp [readBitmap]
  rw [freeUnit]
  split <;> simp [hbitmap]

@[simp] theorem desk_freeUnits (s : State) (m : Nat) (l : List Nat) : desk (freeUnits s m l) = desk s := by simp [freeUnits]

@[simp] theorem desk_writeCells (s : State) (l : List Nat) (b : List Byte) : desk (writeCells s l b) = desk s := by
  induction l generalizing s b with
  | nil => rfl
  | cons c r ih => simp [writeCells, ih]

@[simp] theorem desk_walkLinks (s : State) (l : List Nat) : desk (walkLinks s l).2 = desk s := by
  induction l generalizing s with
  | nil => rfl
  | cons c r ih =>
    cases r with
    | nil => rfl
    | cons d r =>
      simp only [walkLinks]
      split
      · simp
      · simp [ih]

@[simp] theorem desk_readPot (s : State) (i : Nat) (p : Pkt) (a b : Nat) : desk (readPot s i p a b).2 = desk s := by
  simp only [readPot]
  repeat' split
  all_goals simp

/-! ### Flow control (R71, R224) and the counters of a port -/

@[simp] theorem desk_mainCount (s : State) (p sub n : Nat) : desk (mainCount s p sub n) = desk s := by simp [mainCount]
@[simp] theorem desk_fbCount (s : State) (p sub n : Nat) : desk (fbCount s p sub n) = desk s := by simp [fbCount]
@[simp] theorem desk_fbTxSize (s : State) (p : Nat) (f : List Byte) : desk (fbTxSize s p f) = desk s := by simp [fbTxSize]
@[simp] theorem desk_rxCounted (s : State) (p l : Nat) : desk (rxCounted s p l) = desk s := by simp [rxCounted, fbRxSize]
@[simp] theorem desk_rxErrorCount (s : State) (p r : Nat) : desk (rxErrorCount s p r) = desk s := by simp [rxErrorCount]
@[simp] theorem desk_sendControl (s : State) (p : Nat) (f : List Byte) : desk (sendControl s p f) = desk s := by simp [sendControl]

@[simp] theorem desk_queueControl (s : State) (p : Nat) (pfc : Bool) (vec time : Nat) : desk (queueControl s p pfc vec time) = desk s := by
  simp only [queueControl]
  repeat' split
  all_goals simp

@[simp] theorem desk_fcCheckOf (s : State) (p : Pkt) : desk (fcCheckOf s p) = desk s := by
  rw [fcCheckOf]
  split <;> simp [fcCheck, thresholdStep, sendXoff]

/-! ### Packets and queues that are emptied (R215, R355) -/

@[simp] theorem desk_freePkt (s : State) (i : Nat) : desk (freePkt s i) = desk s := by
  rw [freePkt]
  split <;> simp

@[simp] theorem desk_releaseRef (s : State) (i : Nat) : desk (releaseRef s i) = desk s := by
  have hread : ∀ p, desk (readCount s p).2 = desk s := fun p => by
    rw [readCount]
    split
    · split <;> simp
    · rfl
  rw [releaseRef]
  split
  · simp +decide [hread, countLost]
  · simp +decide

@[simp] theorem desk_creditBack (s : State) (i : Nat) : desk (creditBack s i) = desk s := by
  rw [creditBack]
  split
  · split <;> rfl
  · rfl

@[simp] theorem desk_leaveArrival (s : State) (p : Pkt) : desk (leaveArrival s p) = desk s := by
  rw [leaveArrival]
  split <;> rfl

@[simp] theorem desk_discardArrival (s : State) (i r : Nat) : desk (discardArrival s i r) = desk s := by
  rw [discardArrival]
  split <;> simp

@[simp] theorem desk_discardHeld (s : State) (q : Nat) (r : Ref) (reason : Nat) : desk (discardHeld s q r reason) = desk s := by
  rw [discardHeld]
  split <;> simp

@[simp] theorem desk_flushQueue (s : State) (q r : Nat) : desk (flushQueue s q r) = desk s := by simp [flushQueue]
@[simp] theorem desk_spillExit (s : State) (q : Nat) : desk (spillExit s q) = desk s := by simp +decide [spillExit]
@[simp] theorem desk_purge (s : State) (i r : Nat) : desk (purge s i r) = desk s := by simp [purge]
@[simp] theorem desk_touchVoqs (s : State) : desk (touchVoqs s) = desk s := by rw [touchVoqs_eq, desk_mk, desk_self]
@[simp] theorem desk_correctionsDue (s : State) (ds : List MeterDraw) (len : Option Nat) : desk (correctionsDue s ds len) = desk s := by
  simp [correctionsDue]

@[simp] theorem desk_macDiscard (s : State) (i r : Nat) (data : List Byte) : desk (macDiscard s i r data) = desk s := by
  simp only [macDiscard]
  repeat' split
  all_goals simp

@[simp] theorem desk_rxDiscard (s : State) (p r : Nat) (data : List Byte) : desk (rxDiscard s p r data) = desk s := by simp [rxDiscard]

@[simp] theorem desk_rxLost (s : State) (p : Nat) : desk (rxLost s p) = desk s := by
  rw [rxLost]
  split <;> simp

@[simp] theorem desk_dropOut (s : State) (o r : Nat) : desk (dropOut s o r) = desk s := by
  rw [dropOut]
  split <;> simp

/-! ### Links, lanes and bundles (R57, R307, R335) -/

@[simp] theorem desk_linkFails (s : State) (p : Nat) (lane : Bool) : desk (linkFails s p lane) = desk s := by
  simp only [linkFails]
  repeat' split
  all_goals simp

@[simp] theorem desk_touchLink (s : State) (p : Nat) : desk (touchLink s p) = desk s := by simp [touchLink]
@[simp] theorem desk_touchLinks (s : State) (p : Nat) : desk (touchLinks s p) = desk s := by simp [touchLinks]
@[simp] theorem desk_dropWaiting (s : State) (d : Nat) : desk (dropWaiting s d) = desk s := by simp [dropWaiting]
@[simp] theorem desk_enterDest (s : State) (d st : Nat) : desk (enterDest s d st) = desk s := by simp +decide [enterDest]
@[simp] theorem desk_bundleDown (s : State) (b : Nat) : desk (bundleDown s b) = desk s := by simp [bundleDown, routeChanged]
@[simp] theorem desk_touchPath (s : State) (b : Nat) : desk (touchPath s b) = desk s := by simp [touchPath]
@[simp] theorem desk_sectionDefect (s : State) (l k : Nat) (on : Bool) : desk (sectionDefect s l k on) = desk s := by simp [sectionDefect]
@[simp] theorem desk_loseFrame (s : State) (l : Nat) : desk (loseFrame s l) = desk s := by simp [loseFrame]

/-! ### Overrides that return to their defaults (R482) -/

theorem notDesk_override {s : State} {k : Nat} (h : k ∈ overrideKeys s) : isDesk k = false := by
  refine notDesk_high ?_
  simp only [overrideKeys, List.mem_filter, Bool.or_eq_true, Bool.and_eq_true, decide_eq_true_eq] at h
  simp only [key] at h
  omega


theorem desk_overrideOff {k : Nat} (h : isDesk k = false) (s : State) : desk ((overrideOff k s).getD s) = desk s := by
  rw [overrideOff]
  split
  · simp only [wFlTest]
    repeat' split
    all_goals simp [Applied.getD, h]
  · split
    · have hmode := desk_setReg (notDesk_lanePrbsMode (idxOf k - 0x2400)) s 0
      simp only [wLanePrbs]
      repeat' split
      · rfl
      · simp only [Applied.getD, desk_touchLinks, desk_emit, desk_mk]
        exact hmode
      · simp only [Applied.getD, desk_emit, desk_mk]
        exact hmode
    · simp only [wLaneLoopback]
      repeat' split
      all_goals simp [Applied.getD]

theorem desk_overridesOff {s : State} (hs : OdTidy s) : desk (overridesOff s) = desk s := by
  have hcut : deskEntries (s.od.filter (fun e => !(idxOf e.1 == 0x1320 || e.1 == Reg.intInject))) = deskEntries s.od := by
    funext k
    simp only [deskEntries]
    split
    · rename_i hk
      have hkeep : (!(idxOf k == 0x1320 || k == Reg.intInject)) = true := by
        rcases isDesk_iff.1 hk with rfl | rfl <;> decide
      rw [mget_filter_keys (odDefault k) (fun j => !(idxOf j == 0x1320 || j == Reg.intInject)) k _ 0 hs.1, if_pos hkeep]
    · rfl
  rw [overridesOff]
  refine List.foldlRecOn _ _ (motive := fun t => desk t = desk s) ?_ fun t ht k hk => ?_
  · rw [desk_mk, hcut]
    rfl
  · rw [desk_overrideOff (notDesk_override hk), ht]

/-! ### Punts (R439, R443) -/

@[simp] theorem desk_hostWrite (s : State) (fn a : Nat) (b : List Byte) : desk (hostWrite s fn a b) = desk s := by simp [hostWrite]
@[simp] theorem desk_ringFinish (s : State) (fn : Nat) (inj : Bool) (r n : Nat) : desk (ringFinish s fn inj r n) = desk s := by
  simp [ringFinish, setFnReg]

@[simp] theorem desk_puntData (s : State) (i : Nat) (c : PuntCtx) (p : Pkt) (n : Nat) : desk (puntData s i c p n) = desk s := by
  simp [puntData]

@[simp] theorem desk_puntDone (s : State) (i : Nat) (o : Out) : desk (puntDone s i o) = desk s := by simp [puntDone]

@[simp] theorem desk_puntWrite (s : State) (i : Nat) : desk (puntWrite s i) = desk s := by
  simp only [puntWrite]
  repeat' split
  all_goals simp +decide

end Sys2Proof.Machine
end

section
/-! SUPPORT. Management restarts and the loader's boots (R456, R457, R464): what they leave of the firmware, its entries and the
dictionary. -/

namespace Sys2Proof.Machine

variable {s : State}

/-! ### Management restarts (R464) -/

/-- What a management restart leaves before the counts and the overrides. -/
structure RestartBegun (s u : State) (cause : Nat) : Prop where
  bootDue : u.fw.bootDue = true
  bootCause : u.fw.bootCause = cause
  stopped : u.fw.running = false
  restarted : u.fw.restarted = true
  sessions : u.dict.sessions = []
  transfers : u.dict.transfers = []
  pinLow : u.fw.pinLow = s.fw.pinLow
  tidy : OdTidy s → OdTidy u

/-- What a management restart takes up: the region and the sessions closed, and nothing staged. -/
def restartClosed (s : State) : State := setReg (setBlk (closeSessions (regionBroken s)) Reg.fwStaged []) Reg.fwStagedValid 0

theorem fw_restartClosed (s : State) : (restartClosed s).fw = s.fw := by
  have h : part .fw (restartClosed s) = part .fw s := by simp [restartClosed]
  exact h

theorem sessions_restartClosed (s : State) : (restartClosed s).dict.sessions = [] := rfl

theorem odTidy_restartClosed (hs : OdTidy s) : OdTidy (restartClosed s) :=
  ((Keeps.refl s).regionBroken.closeSessions.setBlk.setReg (k := Reg.fwStagedValid) (v := 0)).odTidy hs

theorem mgmtRestart_eq (s : State) (cause : Nat) : ∃ u, RestartBegun s u cause ∧
    mgmtRestart s cause = overridesOff (count32 (count32 (setReg u Reg.fwState 0) Reg.fwRestartCount) (Reg.pwrResetCount 3)) := by
  unfold mgmtRestart
  extract_lets s1 s2 _ _ _ s3
  have hfw : s2.fw = s.fw := fw_restartClosed s
  refine ⟨s3, ⟨rfl, rfl, rfl, rfl, sessions_restartClosed s, rfl, (congrArg FwState.pinLow hfw :), fun h => ?_⟩, rfl⟩
  exact odTidy_restartClosed h

theorem mgmtRestarted (hs : OdTidy s) (cause : Nat) :
    MgmtRestarted (mgmtRestart s cause) cause ∧ (mgmtRestart s cause).fw.pinLow = s.fw.pinLow := by
  obtain ⟨u, hu, heq⟩ := mgmtRestart_eq s cause
  have htidy : OdTidy (count32 (count32 (setReg u Reg.fwState 0) Reg.fwRestartCount) (Reg.pwrResetCount 3)) :=
    (Keeps.refl u).setReg.count32.count32.odTidy (hu.tidy hs)
  have hdict : (mgmtRestart s cause).dict = u.dict := by
    rw [heq, dict_of_desk (desk_overridesOff htidy)]
    rfl
  have hfw : (mgmtRestart s cause).fw = u.fw := by
    have h : part .fw (mgmtRestart s cause) = part .fw u := by
      rw [heq]
      simp
    exact h
  refine ⟨⟨?_, ?_, ?_, ?_, ?_, ?_⟩, ?_⟩
  · rw [hfw, hu.bootDue]
  · rw [hfw, hu.bootCause]
  · rw [hfw, hu.stopped]
  · rw [hfw, hu.restarted]
  · rw [hdict, hu.sessions]
  · rw [hdict, hu.transfers]
  · rw [hfw, hu.pinLow]

/-- A write of `fw_restart` restarts the firmware after its answer. -/
theorem fwRestarted (hs : OdTidy s) (hdue : s.fw.restartDue = true) : MgmtRestarted (afterResponse s) 4 := by
  have hfw : (keyResponse s).fw = s.fw := by
    have h : part .fw (keyResponse s) = part .fw s := by simp
    exact h
  rw [afterResponse, if_pos (by rw [hfw, hdue])]
  exact (mgmtRestarted ((Keeps.refl s).keyResponse.odTidy hs) 4).1

theorem afterResponse_of_quiet (h : Quiet s) : afterResponse s = s := by
  obtain ⟨hclose, hrestart⟩ := h
  simp only [afterResponse, keyResponse_of_not_due hclose, hrestart, Bool.false_eq_true, if_false]

/-! ### The loader's boot (R456, R457) -/

/-- The boot that the loader has begun, with its cause and code (R456). -/
def bootBegun (s : State) (code : Nat) : State :=
  setReg { s with fw.bootDue := false } Reg.fwLastBoot (s.fw.bootCause * 2 ^ 24 + code * 2 ^ 16)

/-- The body of the image loaded (R456). -/
def bootLoaded (s : State) (img : List Byte) : State :=
  { setReg (setBlk s Reg.fwRunningHeader (img.take 320)) Reg.idFwVersion (imgVersion img) with fw.loaded := true }

/-- The entries of an image that did not boot (R457). -/
def bootFailed (s : State) : State :=
  setReg (setBlk (raise (setReg s Reg.fwState 1) .fw 0) Reg.fwRunningHeader []) Reg.idFwVersion 0

theorem execLoaderBoot_eq {readOk : Bool} {image img : List Byte} {code : Nat} (hdue : s.fw.bootDue = true) (hpin : s.fw.pinLow = false)
    (hl : s.fw.loader = true) (hr : s.pwr.inReset = false) (himg : img = s.fw.image.getD image) (hcode : code = bootCheck s readOk img) :
    execLoaderBoot readOk image s = .next (if code = 0 then
      (if s.fw.bootCause ≤ 2 then startupMark (bootLoaded (bootBegun s code) img) 4 else bootLoaded (bootBegun s code) img)
      else enterRecovery (bootBegun s code)) := by
  subst hcode himg
  have hboots : ¬((!s.fw.bootDue) = true ∨ s.fw.pinLow = true ∨ (!s.fw.loader) = true ∨ s.pwr.inReset = true) := by
    simp [hdue, hpin, hl, hr]
  rw [execLoaderBoot, if_neg hboots]
  extract_lets img code s1 s2 _ s3
  by_cases h : code = 0
  · rw [if_pos h, if_pos h]
    rfl
  · rw [if_neg h, if_neg h]
    rfl

/-- Recovery leaves what a failed boot leaves, but for the phase, the lanes and the next seek. -/
theorem enterRecovery_frame (s : State) : (enterRecovery s).fw.bootDue = s.fw.bootDue ∧ (enterRecovery s).blocks = (bootFailed s).blocks ∧
    ∀ k, k ≠ Reg.pwrStartupPhase → reg (enterRecovery s) k = reg (bootFailed s) k := by
  have hlanes : ∀ (l : List Nat) (u : State), ∃ f, l.foldl (fun s l => setFlane s l { flane s l with on := true }) u = { u with fl := f } :=
    fun l u => List.foldlRecOn l _ (motive := fun t => ∃ f, t = { u with fl := f }) ⟨_, rfl⟩ fun t ⟨f, hf⟩ x _ => ⟨_, by rw [hf]; rfl⟩
  have hfw : part .fw (bootFailed s) = part .fw s := by simp [bootFailed]
  have hdue : (bootFailed s).fw.bootDue = s.fw.bootDue := (congrArg FwState.bootDue hfw :)
  unfold enterRecovery
  extract_lets s1 _ _ s2
  split
  · obtain ⟨f, hf⟩ := hlanes (List.range 320) (setReg s2 Reg.pwrStartupPhase 5)
    rw [hf]
    exact ⟨hdue, rfl, fun k hk => reg_setReg_ne _ _ _ _ hk⟩
  · exact ⟨hdue, rfl, fun k _ => rfl⟩

/-! ### The firmware starts (R462, R464) -/

theorem firmwareStarts_fw (s : State) : (firmwareStarts s).fw =
    { s.fw with loaded := false, started := true, startedAt := s.time, restarted := false } := by
  unfold firmwareStarts
  extract_lets _ _ s1 s2 s3 s4
  have herase : ∀ u : State, (raise (eraseStore u) .fw 2).fw = u.fw := fun u => by
    have h : part .fw (raise (eraseStore u) .fw 2) = part .fw u := by simp [eraseStore]
    exact h
  have hraise : ∀ u : State, (raise u .fw 1).fw = u.fw := fun u => fw_raise u .fw 1
  have hstore : s4.fw = s1.fw := by
    simp only [s4]
    split
    · split
      · exact herase s1
      · exact herase s1
    · rfl
  split
  · rw [hraise, hstore]
  · rw [hstore]

theorem bit_firmwareStarts (h : s.fw.restarted = true) : bit (reg (firmwareStarts s) Reg.fwCause) 1 = true := by
  simp only [firmwareStarts, h, if_true]
  exact bit_raise_self _ .fw 1 (by decide)

theorem appliesBack_of_none (h : s.fw.appliesEnded = []) : appliesBack s = { s with fw.appliesEnded := [] } := by
  rw [appliesBack, h]
  rfl

/-- The firmware serves once the settings are applied (R483). -/
def firmwareServes (s : State) : State :=
  raise (startupMark (setReg { s with fw.running := true, fw.appliesEnded := [] } Reg.pwrStartupPhase 4) 7) .pwr 6

theorem execFirmwareStart_ready (hr : s.pwr.inReset = false) (hh : s.fw.halted = false) (hs : s.fw.started = true)
    (hn : s.fw.running = false) (hp : reg s Reg.pwrStartupPhase = 3) (ha : s.fw.appliesEnded = []) :
    execFirmwareStart true s = .next (firmwareServes s) := by
  have hlive : ¬(s.pwr.inReset = true ∨ s.fw.halted = true) := by simp [hr, hh]
  have hserves : s.fw.started = true ∧ (!s.fw.running) = true ∧ (reg s Reg.pwrStartupPhase = 3 ∨ reg s Reg.pwrStartupPhase = 4 ∨
      (reg s Reg.pwrStartupPhase = 2 ∧ (!flag s Reg.pwrAutoBringup) = true)) := ⟨hs, by rw [hn]; rfl, .inl hp⟩
  rw [execFirmwareStart, if_neg hlive, if_neg (by decide)]
  extract_lets p _ u
  rw [if_pos hserves, if_neg (show ¬p = 4 by simp only [p, hp]; decide)]
  have hback : u = { s with fw.running := true, fw.appliesEnded := [] } := appliesBack_of_none (s := { s with fw.running := true }) ha
  rw [hback]
  rfl

end Sys2Proof.Machine
end

section
/-! SAFETY. Boots and management restarts (R455–R457, R464, R483). -/

namespace Sys2Proof
open Machine

/-- The loader's check loads the body, or enters recovery by its code. -/
theorem loaderBoot_answers {s : State} {readOk : Bool} {image img : List Byte} {code : Nat} (hdue : s.fw.bootDue = true)
    (hpin : s.fw.pinLow = false) (hl : s.fw.loader = true) (hr : s.pwr.inReset = false) (himg : img = s.fw.image.getD image)
    (hcode : code = bootCheck s readOk img) : ∃ t, Answers (.loaderBoot readOk image) s t ∧ t.fw.bootDue = false ∧
      reg t Reg.fwLastBoot = s.fw.bootCause * 2 ^ 24 + code * 2 ^ 16 ∧
      (code = 0 → t.fw.loaded = true ∧ reg t Reg.idFwVersion = imgVersion img ∧ blk t Reg.fwRunningHeader = img.take 320) ∧
      (code ≠ 0 → reg t Reg.fwState = 1 ∧ bit (reg t Reg.fwCause) 0 = true ∧ reg t Reg.idFwVersion = 0 ∧
        blk t Reg.fwRunningHeader = []) := by
  refine ⟨_, execLoaderBoot_eq hdue hpin hl hr himg hcode, ?_⟩
  by_cases h : code = 0
  · rw [if_pos h]
    have hlast : reg (bootLoaded (bootBegun s code) img) Reg.fwLastBoot = s.fw.bootCause * 2 ^ 24 + code * 2 ^ 16 :=
      (reg_setReg_ne _ _ _ _ (by decide)).trans (reg_setReg_self _ _ _)
    have hversion : reg (bootLoaded (bootBegun s code) img) Reg.idFwVersion = imgVersion img := reg_setReg_self _ _ _
    have hheader : blk (bootLoaded (bootBegun s code) img) Reg.fwRunningHeader = img.take 320 := mget_mset_self _ _ _ _
    by_cases hfirst : s.fw.bootCause ≤ 2
    · rw [if_pos hfirst]
      exact ⟨rfl, hlast, fun _ => ⟨rfl, hversion, hheader⟩, fun hne => absurd h hne⟩
    · rw [if_neg hfirst]
      exact ⟨rfl, hlast, fun _ => ⟨rfl, hversion, hheader⟩, fun hne => absurd h hne⟩
  · rw [if_neg h]
    obtain ⟨hdue, hblocks, hreg⟩ := enterRecovery_frame (bootBegun s code)
    have hraised : ∀ k, sideEntry k = false → k ≠ Reg.fwCause → k ≠ Reg.idFwVersion → k ≠ Reg.fwState →
        reg (bootFailed (bootBegun s code)) k = reg (bootBegun s code) k := fun k hs hc hv hst => by
      refine (reg_setReg_ne _ _ _ _ hv).trans ((reg_raise_of_ne _ _ _ hs ?_).trans (reg_setReg_ne _ _ _ _ hst))
      exact hc
    refine ⟨hdue, ?_, fun hz => absurd hz h, fun _ => ⟨?_, ?_, ?_, ?_⟩⟩
    · rw [hreg _ (by decide), hraised _ (by decide) (by decide) (by decide) (by decide)]
      exact reg_setReg_self _ _ _
    · rw [hreg _ (by decide)]
      refine (reg_setReg_ne _ _ _ _ (by decide)).trans ((reg_raise_of_ne _ _ _ (by decide) (by decide)).trans ?_)
      exact reg_setReg_self _ _ _
    · rw [hreg _ (by decide)]
      rw [show reg (bootFailed (bootBegun s code)) Reg.fwCause = _ from reg_setReg_ne _ _ _ _ (by decide)]
      exact bit_raise_self _ .fw 0 (by decide)
    · rw [hreg _ (by decide)]
      exact reg_setReg_self _ _ _
    · rw [blk, hblocks]
      exact mget_mset_self _ _ _ _

/-- Settles O51, by what a management restart, the loader's check and the start of the firmware leave of the firmware's part. -/
theorem bootsAndRestarts : Obligations.BootsAndRestarts := by
  intro s c readOk image img code hs
  refine ⟨loaderBoot_answers, ?_, ?_, ?_, ?_, ?_, ?_⟩
  · intro hr hh
    have hlive : ¬(s.pwr.inReset = true ∨ s.fw.halted = true) := by simp [hr, hh]
    refine ⟨fun hl => ?_, fun hst hn hp ha => ?_⟩
    · have hexec : execFirmwareStart false s = .next (firmwareStarts s) := by simp [execFirmwareStart, hlive, hl]
      have hfw := firmwareStarts_fw s
      exact ⟨_, hexec, by rw [hfw], by rw [hfw], by rw [hfw], bit_firmwareStarts⟩
    · have hfw : (firmwareServes s).fw = _ := fw_raise _ .pwr 6
      refine ⟨_, execFirmwareStart_ready hr hh hst hn hp ha, by rw [hfw]; rfl, ?_, bit_raise_self _ .pwr 6 (by decide)⟩
      exact (reg_raise_of_ne _ .pwr 6 (by decide) (by decide)).trans (reg_setReg_self _ _ _)
  · intro hp hl hr hat
    have hfalls : (s.fw.loader = true ∧ (!s.pwr.inReset) = true ∧ s.fw.pinAt + 1000 ≤ s.time) := ⟨hl, by rw [hr]; rfl, hat⟩
    have hexec : execMgmtRestartLFall s = .next (mgmtRestart { s with fw.pinLow := true } 3) := by
      rw [execMgmtRestartLFall, hp, if_neg (by decide), if_pos hfalls]
    have hbegun := mgmtRestarted (s := { s with fw.pinLow := true }) hs 3
    exact ⟨_, hexec, hbegun⟩
  · intro hp
    simp only [Answers, exec, execMgmtRestartLRise, hp, if_true]
  · intro hw
    have hwritten : writeRow s c Reg.fwRestart 1 (wFwRestart 1) = emit { s with fw.restartDue := true } (okTo c) := permitted_does hw rfl
    have hexec : execFwRestart c 1 s = .next (afterResponse (emit { s with fw.restartDue := true } (okTo c))) := by
      rw [execFwRestart, hwritten]
    exact ⟨_, hexec, fwRestarted (s := emit { s with fw.restartDue := true } (okTo c)) hs rfl⟩
  · intro hw hq
    have hexec : writeRow s c Reg.fwRestart 0 (wFwRestart 0) = emit s (okTo c) := permitted_does hw rfl
    exact congrArg Host.Outcome.next (by rw [hexec, afterResponse_of_quiet (s := emit s (okTo c)) hq])
  · intro hl hst hp hr
    have hexpires : s.fw.loader = true ∧ (s.fw.started = true ∨ s.fw.halted = true) ∧ (!s.fw.pinLow) = true ∧ (!s.pwr.inReset) = true :=
      ⟨hl, hst, by rw [hp]; rfl, by rw [hr]; rfl⟩
    have hexec : execFwWatchdogExpiry s = .next (mgmtRestart (raise s .fw 5) 5) := by rw [execFwWatchdogExpiry, if_pos hexpires]
    have htidy : OdTidy (raise s .fw 5) := (noted_raise [CauseReg.fw.key] s .fw 5 (.inl (by simp))).2.1 hs
    exact ⟨_, hexec, (mgmtRestarted htidy 5).1⟩

end Sys2Proof
end

section
/-! SUPPORT. Installs (R454, R460): what a sector and the end of an install leave. -/

namespace Sys2Proof.Machine

variable {s : State}

/-! ### Installs begin -/

theorem beginInstall_staged (h : blk s Reg.fwStaged ≠ []) :
    beginInstall s = { setReg (jobBegin s Reg.fwInstall) Reg.fwRegionState 2 with fw.pos := 0 } := by
  have hsome : ¬(blk (jobBegin s Reg.fwInstall) Reg.fwStaged).isEmpty = true := by
    rw [List.isEmpty_iff]
    exact h
  simp only [beginInstall, if_neg hsome]

theorem beginInstall_unstaged (h : blk s Reg.fwStaged = []) : beginInstall s = jobEnd (jobBegin s Reg.fwInstall) Reg.fwInstall 2 := by
  have hnone : (blk (jobBegin s Reg.fwInstall) Reg.fwStaged).isEmpty = true := List.isEmpty_iff.2 h
  simp only [beginInstall, if_pos hnone]

/-- What an install that begins leaves as it was. -/
theorem beginInstall_frame (s : State) : (∀ k, blk (beginInstall s) k = blk s k) ∧ (beginInstall s).fw.fetch = s.fw.fetch ∧
    ∀ k, k ≠ Reg.fwRegionState → reg (beginInstall s) k = reg s k := by
  by_cases h : blk s Reg.fwStaged = []
  · rw [beginInstall_unstaged h, jobEnd_eq]
    exact ⟨fun _ => rfl, rfl, fun _ _ => rfl⟩
  · rw [beginInstall_staged h]
    exact ⟨fun _ => rfl, rfl, fun k hk => reg_setReg_ne (jobBegin s Reg.fwInstall) Reg.fwRegionState k 2 hk⟩

theorem jobRunning_beginInstall (h : blk s Reg.fwStaged ≠ []) : jobRunning (beginInstall s) Reg.fwInstall = true := by
  rw [beginInstall_staged h]
  exact jobRunning_jobBegin s Reg.fwInstall

/-- A sound image is not empty. -/
theorem ne_nil_of_imageSound {b : List Byte} (h : imageSound b = true) : b ≠ [] := by
  rintro rfl
  rw [imageSound, Bool.and_eq_true, beq_iff_eq, List.length_nil] at h
  omega

/-! ### Sectors and ends -/

/-- An install without a complete region leaves the dictionary and the firmware. -/
theorem installBroken_spec (s : State) : (installBroken s).dict = s.dict ∧ reg (installBroken s) Reg.fwRegionState = 1 ∧
    bit (reg (installBroken s) Reg.fwCause) 7 = true :=
  ⟨dict_raise _ .fw 7, (reg_raise_of_ne _ .fw 7 (by decide) (by decide)).trans (reg_setReg_self _ _ _), bit_raise_self _ .fw 7 (by decide)⟩

/-- The state once the sector at `fw.pos` holds. -/
def sectorHeld (s : State) (n : Nat) : State :=
  jobProgress { s with fw.pos := s.fw.pos + n, fw.image := some ((blk s Reg.fwStaged).take (s.fw.pos + n)) } Reg.fwInstall (ceilDiv n 1024)

theorem job_sectorHeld (s : State) (n : Nat) : job (sectorHeld s n) Reg.fwInstall =
    { job s Reg.fwInstall with progress := (job s Reg.fwInstall).progress + ceilDiv n 1024 } := by
  rw [sectorHeld, job_jobProgress]
  rfl

theorem jobRunning_sectorHeld (n : Nat) (h : jobRunning s Reg.fwInstall = true) : jobRunning (sectorHeld s n) Reg.fwInstall = true := by
  rw [jobRunning, job_sectorHeld]
  exact h

theorem installSector_lost (s : State) : installSector s false = installBroken (jobEnd { s with
    fw.image := some ((blk s Reg.fwStaged).take s.fw.pos), fw.autoBoot := false } Reg.fwInstall 1) := rfl

theorem installSector_cancelled {n : Nat} (hn : min 65536 ((blk s Reg.fwStaged).length - s.fw.pos) = n)
    (hc : (job s Reg.fwInstall).cancel = true) :
    installSector s true = installBroken (jobCancelled { sectorHeld s n with fw.autoBoot := false } Reg.fwInstall 3) := by
  subst hn
  have hcancel : (job (sectorHeld s (min 65536 ((blk s Reg.fwStaged).length - s.fw.pos))) Reg.fwInstall).cancel = true := by
    rw [job_sectorHeld]
    exact hc
  exact if_pos hcancel

theorem installSector_goes_on {n : Nat} (hn : min 65536 ((blk s Reg.fwStaged).length - s.fw.pos) = n)
    (hc : (job s Reg.fwInstall).cancel = false) (hl : s.fw.pos + n < (blk s Reg.fwStaged).length) :
    installSector s true = sectorHeld s n := by
  subst hn
  have hcancel : ¬(job (sectorHeld s (min 65536 ((blk s Reg.fwStaged).length - s.fw.pos))) Reg.fwInstall).cancel = true := by
    rw [job_sectorHeld]
    simp [hc]
  exact (if_neg hcancel).trans (if_pos hl)

theorem installSector_ends {n : Nat} (hn : min 65536 ((blk s Reg.fwStaged).length - s.fw.pos) = n)
    (hc : (job s Reg.fwInstall).cancel = false) (hl : ¬s.fw.pos + n < (blk s Reg.fwStaged).length) (ha : s.fw.autoBoot = false) :
    installSector s true = raise (setReg (jobEnd (sectorHeld s n) Reg.fwInstall 0) Reg.fwRegionState 0) .fw 3 := by
  subst hn
  generalize hn : min 65536 ((blk s Reg.fwStaged).length - s.fw.pos) = n at hl ⊢
  have hcancel : ¬(job (sectorHeld s n) Reg.fwInstall).cancel = true := by
    rw [job_sectorHeld]
    simp [hc]
  have hauto : ¬(raise (setReg (jobEnd (sectorHeld s n) Reg.fwInstall 0) Reg.fwRegionState 0) .fw 3).fw.autoBoot = true := by
    have h : part .fw (raise (setReg (jobEnd (sectorHeld s n) Reg.fwInstall 0) Reg.fwRegionState 0) .fw 3) = part .fw (sectorHeld s n) := by simp
    have hkept : (raise (setReg (jobEnd (sectorHeld s n) Reg.fwInstall 0) Reg.fwRegionState 0) .fw 3).fw.autoBoot = s.fw.autoBoot :=
      (congrArg FwState.autoBoot h :)
    simp [hkept, ha]
  subst hn
  exact (if_neg hcancel).trans ((if_neg hl).trans (if_neg hauto))

/-- An image fetched through the relay is staged and counted (R460). -/
def relayStaged (s : State) (b : List Byte) : State := raise (count32 (stageFetched s b) Reg.fwRelayFetches) .fw 4

theorem relayStaged_spec (s : State) (b : List Byte) : blk (relayStaged s b) Reg.fwStaged = b ∧ (relayStaged s b).fw = s.fw ∧
    reg (relayStaged s b) Reg.fwStagedValid = 2 ∧
    reg (relayStaged s b) Reg.fwRelayFetches = (reg s Reg.fwRelayFetches + 1) % 2 ^ 32 ∧ bit (reg (relayStaged s b) Reg.fwCause) 4 = true := by
  have hblocks : (relayStaged s b).blocks = (stageFetched s b).blocks := by
    rw [relayStaged, (noted_raise [CauseReg.fw.key] _ .fw 4 (.inl (by simp))).1]
    rfl
  refine ⟨?_, fw_raise _ .fw 4, ?_, ?_, bit_raise_self _ .fw 4 (by decide)⟩
  · rw [blk, hblocks]
    exact mget_mset_self _ _ _ _
  · refine (reg_raise_of_ne _ .fw 4 (by decide) (by decide)).trans ((reg_setReg_ne _ _ _ _ (by decide)).trans ?_)
    exact reg_setReg_self _ _ _
  · refine (reg_raise_of_ne _ .fw 4 (by decide) (by decide)).trans ((reg_setReg_self _ _ _).trans ?_)
    rw [show reg (stageFetched s b) Reg.fwRelayFetches = reg s Reg.fwRelayFetches from reg_setReg_ne _ _ _ _ (by decide)]

end Sys2Proof.Machine
end

section
/-! SAFETY. Images are staged, checked, installed and fetched (R452–R454, R458–R461). -/

namespace Sys2Proof
open Machine

theorem staged_commits {s : State} (c : Client) (b : List Byte) (hd : domainChecks s c Reg.fwStaged = none) :
    (stagedBusy s = false → s.fw.fetch = none → 385 ≤ b.length → b.length ≤ 15728640 →
      Does (.fwStagedWrite c b) s c (setReg (setBlk s Reg.fwStaged b) Reg.fwStagedValid 1)) ∧
    (stagedBusy s = true → TurnedAway (.fwStagedWrite c b) s c Reg.fwStaged .busy) := by
  refine ⟨fun hb hf hmin hmax => ?_, fun hb => ?_⟩
  · have hfit : ¬(b.length < 385 ∨ 15728640 < b.length) := by omega
    have hrule : wStaged b s = .done (setReg (setBlk s Reg.fwStaged b) Reg.fwStagedValid 1) := by
      simp only [wStaged, hb, hf, Option.isSome_none, Bool.or_false, Bool.false_eq_true, if_false, if_neg hfit]
    exact congrArg Host.Outcome.next (commitRow_done s _ c Reg.fwStaged (wStaged b) hd hrule)
  · have hrule : wStaged b s = .fail .busy := by simp only [wStaged, hb, Bool.true_or, if_true]
    exact congrArg Host.Outcome.next (commitRow_ruleFailed s c Reg.fwStaged (wStaged b) .busy hd hrule)

theorem install_begins {s : State} {c : Client} (h : MayStart s c Reg.fwInstall) (ok : Bool) :
    Answers (.fwInstall (.start c) ok) s (answeredWord (beginInstall s) c Reg.fwInstall) :=
  congrArg Host.Outcome.next (mayStart_does h rfl)

theorem install_steps {s : State} (hrun : jobRunning s Reg.fwInstall = true) :
    (∃ t, Answers (.fwInstall .step false) s t ∧ JobCompleted t Reg.fwInstall 1 ∧ reg t Reg.fwRegionState = 1 ∧
      bit (reg t Reg.fwCause) 7 = true) ∧
    ((job s Reg.fwInstall).cancel = false → s.fw.pos + 65536 < (blk s Reg.fwStaged).length →
      ∃ t, Answers (.fwInstall .step true) s t ∧ t.fw.pos = s.fw.pos + 65536 ∧
        (job t Reg.fwInstall).progress = (job s Reg.fwInstall).progress + 64 ∧ jobRunning t Reg.fwInstall = true ∧
        t.fw.image = some ((blk s Reg.fwStaged).take (s.fw.pos + 65536))) ∧
    ((job s Reg.fwInstall).cancel = false → s.fw.pos ≤ (blk s Reg.fwStaged).length →
      (blk s Reg.fwStaged).length ≤ s.fw.pos + 65536 → s.fw.autoBoot = false →
      ∃ t, Answers (.fwInstall .step true) s t ∧ JobCompleted t Reg.fwInstall 0 ∧ reg t Reg.fwRegionState = 0 ∧
        bit (reg t Reg.fwCause) 3 = true ∧ t.fw.image = some (blk s Reg.fwStaged)) ∧
    ((job s Reg.fwInstall).cancel = true → ∃ t, Answers (.fwInstall .step true) s t ∧ (job t Reg.fwInstall).state = 3 ∧
      reg t Reg.fwRegionState = 1) := by
  have hstep : ∀ ok, Answers (.fwInstall .step ok) s (installSector s ok) := fun ok => congrArg Host.Outcome.next (if_pos hrun)
  refine ⟨⟨_, hstep false, ?_⟩, fun hc hl => ⟨_, hstep true, ?_⟩, fun hc hpos hl ha => ⟨_, hstep true, ?_⟩, fun hc => ⟨_, hstep true, ?_⟩⟩
  · rw [installSector_lost]
    generalize hu : ({ s with fw.image := some ((blk s Reg.fwStaged).take s.fw.pos), fw.autoBoot := false } : State) = u
    have hrunning : jobRunning u Reg.fwInstall = true := by
      rw [← hu]
      exact hrun
    obtain ⟨hdict, hregion, hcause⟩ := installBroken_spec (jobEnd u Reg.fwInstall 1)
    refine ⟨?_, hregion, hcause⟩
    rw [JobCompleted, job, hdict]
    exact jobCompleted_jobEnd hrunning 1
  · rw [installSector_goes_on (n := 65536) (by omega) hc hl]
    refine ⟨rfl, ?_, jobRunning_sectorHeld _ hrun, rfl⟩
    rw [job_sectorHeld]
    rfl
  · rw [installSector_ends (n := (blk s Reg.fwStaged).length - s.fw.pos) (by omega) hc (by omega) ha]
    generalize hn : (blk s Reg.fwStaged).length - s.fw.pos = n
    refine ⟨?_, (reg_raise_of_ne _ .fw 3 (by decide) (by decide)).trans (reg_setReg_self _ _ _), bit_raise_self _ .fw 3 (by decide), ?_⟩
    · rw [JobCompleted, job_raise]
      exact jobCompleted_jobEnd (jobRunning_sectorHeld n hrun) 0
    · rw [fw_raise, jobEnd_eq]
      change some ((blk s Reg.fwStaged).take (s.fw.pos + n)) = _
      rw [List.take_of_length_le (by omega)]
  · rw [installSector_cancelled rfl hc]
    generalize min 65536 ((blk s Reg.fwStaged).length - s.fw.pos) = n
    generalize hu : ({ sectorHeld s n with fw.autoBoot := false } : State) = u
    have hrunning : jobRunning u Reg.fwInstall = true := by
      rw [← hu]
      exact jobRunning_sectorHeld n hrun
    obtain ⟨hdict, hregion, -⟩ := installBroken_spec (jobCancelled u Reg.fwInstall 3)
    refine ⟨?_, hregion⟩
    rw [job, hdict, jobCancelled, if_pos hrunning]
    exact congrArg Job.state (job_setJob_self u Reg.fwInstall _)

theorem relay_polls {s : State} {h : List Byte} {n : Nat} (hr : s.fw.running = true) (he : flag s Reg.fwRelayEnable = true) (hn : n < 8)
    (hat : (mfind s.fw.polled n).getD s.fw.startedAt + reg s Reg.fwRelayPollS * 1000000000 ≤ s.time) (valid : Nat) :
    (s.fw.fetch = none → stagedBusy s = false → relayQualifies s valid h = true → Answers (.relayPoll n valid h) s
      { s with fw.polled := mput s.fw.polled n s.time, fw.fetch := some { bundle := n, header := h, recovery := false } }) ∧
    (relayQualifies s valid h = false → Answers (.relayPoll n valid h) s { s with fw.polled := mput s.fw.polled n s.time }) := by
  have hpolls : s.fw.running = true ∧ flag s Reg.fwRelayEnable = true ∧ n < 8 ∧
      (mfind s.fw.polled n).getD s.fw.startedAt + reg s Reg.fwRelayPollS * 1000000000 ≤ s.time := ⟨hr, he, hn, hat⟩
  refine ⟨fun hf hb hq => ?_, fun hq => ?_⟩
  · have hfetches : s.fw.fetch = none ∧ (!stagedBusy s) = true ∧ relayQualifies s valid h = true := ⟨hf, by rw [hb]; rfl, hq⟩
    exact (if_pos hpolls).trans (if_pos hfetches)
  · have hnone : ¬(s.fw.fetch = none ∧ (!stagedBusy s) = true ∧ relayQualifies s valid h = true) := by simp [hq]
    exact (if_pos hpolls).trans (if_neg hnone)

theorem recovery_seeks {s : State} {h : List Byte} {n : Nat} (hst : reg s Reg.fwState = 1) (hl : s.fw.loader = true)
    (hd : s.fw.bootDue = false) (hf : s.fw.fetch = none) (hj : jobRunning s Reg.fwInstall = false) (ht : seekTurn s = some n)
    (hnext : s.fw.seekNext = 0) (hat : s.fw.seekAt + 1000000000 ≤ s.time) :
    (magicOk h = true → headerFit s h = 0 → Answers (.recoverySeek n h) s { s with
      fw.seekAt := s.time, fw.seekNext := seekAfter s n, fw.fetch := some { bundle := n, header := h, recovery := true } }) ∧
    (magicOk h = false → Answers (.recoverySeek n h) s { s with fw.seekAt := s.time, fw.seekNext := seekAfter s n }) := by
  have hseeks : reg s Reg.fwState = 1 ∧ s.fw.loader = true ∧ (!s.fw.bootDue) = true ∧ s.fw.fetch = none ∧
      jobRunning s Reg.fwInstall = false ∧ seekTurn s = some n ∧ (s.fw.seekNext ≠ 0 ∨ s.fw.seekAt + 1000000000 ≤ s.time) :=
    ⟨hst, hl, by rw [hd]; rfl, hf, hj, ht, .inr hat⟩
  have hstamp : (if s.fw.seekNext = 0 then s.time else s.fw.seekAt) = s.time := if_pos hnext
  refine ⟨fun hm hfit => ?_, fun hm => ?_⟩
  · have hfound : magicOk h = true ∧ headerFit s h = 0 := ⟨hm, hfit⟩
    refine (if_pos hseeks).trans ((if_pos hfound).trans ?_)
    rw [hstamp]
  · have hnone : ¬(magicOk h = true ∧ headerFit s h = 0) := by simp [hm]
    refine (if_pos hseeks).trans ((if_neg hnone).trans ?_)
    rw [hstamp]

theorem fetch_completes {s : State} {b : List Byte} {f : Fetch} (hf : s.fw.fetch = some f) :
    (imageSound b = false → Answers (.imageFetchComplete b) s { s with fw.fetch := none }) ∧
    (stagedBusy s = false → f.recovery = true → ∃ t, Answers (.imageFetchComplete b) s t ∧ t.fw.fetch = none ∧ (imageSound b = true →
      blk t Reg.fwStaged = b ∧ reg t Reg.fwStagedValid = 2 ∧ t.fw.autoBoot = true ∧ jobRunning t Reg.fwInstall = true)) ∧
    (stagedBusy s = false → f.recovery = false → ∃ t, Answers (.imageFetchComplete b) s t ∧ t.fw.fetch = none ∧ (imageSound b = true →
      blk t Reg.fwStaged = b ∧ reg t Reg.fwStagedValid = 2 ∧
      reg t Reg.fwRelayFetches = (reg s Reg.fwRelayFetches + 1) % 2 ^ 32 ∧ bit (reg t Reg.fwCause) 4 = true)) := by
  generalize hu : ({ s with fw.fetch := none } : State) = u
  have hnone : u.fw.fetch = none := by rw [← hu]
  have hcount : reg s Reg.fwRelayFetches = reg u Reg.fwRelayFetches := by rw [← hu]; rfl
  have hexec : execImageFetchComplete b s = if stagedBusy u = true ∨ (!imageSound b) = true then .next u
      else if f.recovery = true then .next { beginInstall (stageFetched u b) with fw.autoBoot := true }
      else .next (if autoInstalls (relayStaged u b) b = true then beginInstall (relayStaged u b) else relayStaged u b) := by
    rw [← hu, execImageFetchComplete, hf]
    rfl
  have hunsound : imageSound b = false → Answers (.imageFetchComplete b) s u := fun hb => by
    have hlost : stagedBusy u = true ∨ (!imageSound b) = true := .inr (by rw [hb]; rfl)
    exact hexec.trans (if_pos hlost)
  have hbusy : stagedBusy s = false → stagedBusy u = false := fun h => by
    rw [← hu]
    exact h
  refine ⟨hunsound, fun hfree hrec => ?_, fun hfree hrec => ?_⟩
  · by_cases hb : imageSound b = true
    · have hkeeps : ¬(stagedBusy u = true ∨ (!imageSound b) = true) := by simp [hbusy hfree, hb]
      have hstored : blk (stageFetched u b) Reg.fwStaged = b := mget_mset_self _ _ _ _
      have hrun := jobRunning_beginInstall (s := stageFetched u b) (by rw [hstored]; exact ne_nil_of_imageSound hb)
      obtain ⟨hblk, hfetch, hreg⟩ := beginInstall_frame (stageFetched u b)
      refine ⟨_, hexec.trans ((if_neg hkeeps).trans (if_pos hrec)), hfetch.trans hnone, fun _ => ⟨(hblk _).trans hstored, ?_, rfl, hrun⟩⟩
      exact (hreg _ (by decide)).trans (reg_setReg_self _ _ _)
    · exact ⟨u, hunsound (by simpa using hb), hnone, fun h => absurd h hb⟩
  · by_cases hb : imageSound b = true
    · have hkeeps : ¬(stagedBusy u = true ∨ (!imageSound b) = true) := by simp [hbusy hfree, hb]
      have hrelay : ¬f.recovery = true := by simp [hrec]
      obtain ⟨hstored, hfw, hvalid, hfetches, hcause⟩ := relayStaged_spec u b
      have hfetch : (relayStaged u b).fw.fetch = none := by rw [hfw, hnone]
      refine ⟨_, hexec.trans ((if_neg hkeeps).trans (if_neg hrelay)), ?_⟩
      rw [hcount]
      split
      · obtain ⟨hblk, hkept, hreg⟩ := beginInstall_frame (relayStaged u b)
        refine ⟨hkept.trans hfetch, fun _ => ⟨(hblk _).trans hstored, ?_, ?_, ?_⟩⟩
        · rw [hreg _ (by decide), hvalid]
        · rw [hreg _ (by decide), hfetches]
        · rw [hreg _ (by decide), hcause]
      · exact ⟨hfetch, fun _ => ⟨hstored, hvalid, hfetches, hcause⟩⟩
    · exact ⟨u, hunsound (by simpa using hb), hnone, fun h => absurd h hb⟩

/-- Settles O50, by what the start, a sector and the end of an install leave, and the conditions of a poll, a seek and a fetch. -/
theorem imagesStagedAndInstalled : Obligations.ImagesStagedAndInstalled := by
  intro s c b h n _
  refine ⟨fun hd => (staged_commits c b hd).1, fun hd => (staged_commits c b hd).2, fun hst hv => if_pos ⟨hst, hv⟩, fun hm ok => ?_,
    install_steps, relay_polls, recovery_seeks, fun f hf => fetch_completes hf⟩
  refine ⟨fun hb => ?_, fun hb => ?_⟩
  · rw [← beginInstall_staged hb]
    exact install_begins hm ok
  · rw [← beginInstall_unstaged hb]
    exact install_begins hm ok

end Sys2Proof
end

section
/-! SUPPORT. Resets of functions (R443, R444, R477) and counter exports (R445): what they leave of the desk, the rings and what went
out. -/

namespace Sys2Proof.Machine

variable {s t : State}

/-! ### What went out stays -/

theorem sent_foldl {α : Type} {f : State → α → State} (h : ∀ s x, s.sent ⊆ (f s x).sent) (l : List α) (s : State) :
    s.sent ⊆ (l.foldl f s).sent :=
  List.foldlRecOn l f (motive := fun t => s.sent ⊆ t.sent) (List.Subset.refl _) fun t ht x _ => List.Subset.trans ht (h t x)

theorem sent_emit (s : State) (e : Emission) : s.sent ⊆ (emit s e).sent := List.subset_cons_self e s.sent

theorem sent_sendMsix (s : State) (fn v : Nat) : s.sent ⊆ (sendMsix s fn v).sent := by
  rw [sendMsix]
  split
  · dsimp only
    split
    · exact List.Subset.refl _
    · exact sent_emit s _
  · exact List.Subset.refl _

theorem sent_fwEnqueue (s : State) (src : Nat) : (fwEnqueue s src).sent = s.sent := by
  simp only [fwEnqueue]
  repeat' split
  all_goals rfl

theorem sent_ensPut (s : State) (n : Nat) (b : List Byte) : (ensPut s n b).2.sent = s.sent := by
  rw [ensPut]
  repeat' split
  all_goals rfl

theorem sent_pulseBare (s : State) (src : Nat) : s.sent ⊆ (pulseBare s src).2.sent := by
  unfold pulseBare
  extract_lets s0 s1 _ s2 s3 s4
  have hrise : s.sent ⊆ s3.sent := sent_foldl (fun u x => by
    split
    · exact sent_sendMsix u x.1 x.2
    · exact List.Subset.refl _) _ s2
  have hqueue : s4.sent = s3.sent := by
    simp only [s4]
    split
    · exact sent_fwEnqueue s3 src
    · rfl
  split
  · rw [sent_ensPut, hqueue]
    exact hrise
  · rw [hqueue]
    exact hrise

theorem sent_ensignDropped (s : State) : s.sent ⊆ (ensignDropped s).sent := by
  simp only [ensignDropped]
  split
  · exact List.Subset.refl _
  · split
    · exact sent_pulseBare (setReg s Reg.obsCause (setBit (reg s Reg.obsCause) 3)) 899
    · exact List.Subset.refl _

theorem sent_pulseOne (s : State) (src : Nat) : s.sent ⊆ (pulseOne s src).sent := by
  simp only [pulseOne]
  split
  · exact List.Subset.trans (sent_pulseBare s src) (sent_ensignDropped _)
  · exact sent_pulseBare s src

theorem sent_pulse (s : State) (src : Nat) : s.sent ⊆ (pulse s src).sent := by
  simp only [pulse]
  split
  · exact List.Subset.trans (sent_pulseOne s src) (sent_pulseOne _ 64)
  · exact sent_pulseOne s src

/-- A cause raised takes back nothing that went out. -/
theorem sent_raise (s : State) (c : CauseReg) (b : Nat) : s.sent ⊆ (raise s c b).sent := by
  simp only [raise]
  split
  · exact List.Subset.refl _
  · split
    · simp only [pulseCause]
      split
      · exact sent_pulse (setReg s c.key (setBit (reg s c.key) b)) _
      · exact List.Subset.refl _
    · exact List.Subset.refl _

/-- A write to host memory goes out, whatever it marks dirty (R446). -/
theorem mem_sent_hostWrite (s : State) (fn a : Nat) (b : List Byte) : .hostWrite fn a b ∈ (hostWrite s fn a b).sent := by
  have hwritten : .hostWrite fn a b ∈ (emit s (.hostWrite fn a b)).sent := List.mem_cons_self
  rw [hostWrite]
  split
  · exact hwritten
  · exact sent_foldl (fun u r => sent_foldl (fun u l => sent_emit u _) _ u) _ _ hwritten

/-! ### A function stops (R444) -/

@[simp] theorem notDesk_vfGeneration (v : Nat) : isDesk (Reg.vfGeneration v) = false := notDesk_keyIf fun _ => .inl (by omega)

@[simp] theorem notDesk_ringCtrl (fn : Nat) (inj : Bool) (r : Nat) : isDesk (callerKey fn (ringCtrl inj r)) = false := by
  refine notDesk_callerKey fn ?_
  rw [ringCtrl]
  split
  · exact notDesk_keyIf fun _ => .inl (by omega)
  · exact notDesk_keyIf fun _ => .inl (by omega)

@[simp] theorem notDesk_exportEnable (fn : Nat) : isDesk (callerKey fn Reg.ctrExportEnable) = false := notDesk_callerKey fn (by decide)

/-- Every ring of a function is disabled (step 2 of Table — VF FLR timeline). -/
def ringsOff (s : State) (fn : Nat) : State :=
  (List.range 8).foldl (fun s r =>
    let s := setFnReg s fn (ringCtrl false r) (clearBit (fnReg s fn (ringCtrl false r)) 31)
    setFnReg s fn (ringCtrl true r) (clearBit (fnReg s fn (ringCtrl true r)) 31)) s

/-- The tags of a function are stale, and its exports are dropped. -/
def tagsStale (s : State) (fn : Nat) : State :=
  { s with
    host.tags := s.host.tags.map (fun (t : Nat × Tag) => (t.1, { t.2 with stale := t.2.stale || t.2.fn == fn }))
    host.exports := mdel s.host.exports fn }

/-- Steps 1 and 2: the generation rises, and rings and exports are off. -/
def ringsStopped (s : State) (fn : Nat) : State :=
  setFnReg (ringsOff (setReg s (Reg.vfGeneration fn) ((fnGen s fn + 1) % 256)) fn) fn Reg.ctrExportEnable 0

/-- What the engines hold for a function is given up. -/
def fnQuieted (s : State) (fn : Nat) : State := tagsStale (ringsStopped s fn) fn

/-- Steps 3 and 4: the punts of the function are written out. -/
def puntsLeft (s : State) (fn : Nat) : State := (s.host.punts.filter (fun x => x.2.fn == fn)).foldl (fun s x => puntWrite s x.1) s

/-- Step 5: its injects are dropped. -/
def injectsLeft (s : State) (fn : Nat) : State :=
  (s.host.injects.filter (fun x => x.2.fn == fn)).foldl (fun s x =>
    { freeUnits s 0 x.2.cells with host.injects := mdel s.host.injects x.1 }) s

theorem fnStop_eq (s : State) (fn : Nat) : fnStop s fn = injectsLeft (puntsLeft (fnQuieted s fn) fn) fn := by
  rw [fnStop, injectsLeft, puntsLeft, fnQuieted, tagsStale, ringsStopped, ringsOff]

@[simp] theorem desk_ringsOff (s : State) (fn : Nat) : desk (ringsOff s fn) = desk s :=
  by simp [ringsOff, setFnReg]

theorem host_ringsOff (s : State) (fn : Nat) : (ringsOff s fn).host = s.host :=
  List.foldlRecOn _ _ (motive := fun t : State => t.host = s.host) rfl fun _ ht _ _ => ht

@[simp] theorem desk_tagsStale (s : State) (fn : Nat) : desk (tagsStale s fn) = desk s := (rfl)

@[simp] theorem desk_ringsStopped (s : State) (fn : Nat) : desk (ringsStopped s fn) = desk s := by
  rw [ringsStopped, setFnReg, desk_setReg (notDesk_exportEnable fn), desk_ringsOff, desk_setReg (notDesk_vfGeneration fn)]

theorem host_ringsStopped (s : State) (fn : Nat) : (ringsStopped s fn).host = s.host := by
  rw [ringsStopped, setFnReg, setReg_host, host_ringsOff, setReg_host]

@[simp] theorem desk_puntsLeft (s : State) (fn : Nat) : desk (puntsLeft s fn) = desk s := by simp [puntsLeft]

@[simp] theorem desk_injectsLeft (s : State) (fn : Nat) : desk (injectsLeft s fn) = desk s :=
  by
  have hdrop : ∀ (u : State) (x : Nat × Inject), desk { freeUnits u 0 x.2.cells with host.injects := mdel u.host.injects x.1 } = desk u :=
    fun u x => desk_freeUnits u 0 x.2.cells
  exact desk_foldl hdrop _ s

@[simp] theorem desk_fnStop (s : State) (fn : Nat) : desk (fnStop s fn) = desk s := by
  rw [fnStop_eq, desk_injectsLeft, desk_puntsLeft, fnQuieted, desk_tagsStale, desk_ringsStopped]

/-- A function for which no punt and no inject runs stops at once. -/
theorem fnStop_idle {v : Nat} (hp : ∀ x ∈ s.host.punts, x.2.fn ≠ v) (hi : ∀ x ∈ s.host.injects, x.2.fn ≠ v) :
    fnStop s v = fnQuieted s v := by
  have hstale : ∀ u : State, (tagsStale u v).host.punts = u.host.punts ∧ (tagsStale u v).host.injects = u.host.injects := fun _ => ⟨rfl, rfl⟩
  have hkept := hstale (ringsStopped s v)
  rw [host_ringsStopped, ← fnQuieted] at hkept
  have hpunts : puntsLeft (fnQuieted s v) v = fnQuieted s v := by
    rw [puntsLeft, hkept.1, List.filter_eq_nil_iff.2 fun x hx => by simpa using hp x hx, List.foldl_nil]
  rw [fnStop_eq, hpunts, injectsLeft, hkept.2, List.filter_eq_nil_iff.2 fun x hx => by simpa using hi x hx, List.foldl_nil]

theorem reg_ringsOff (s : State) {fn k : Nat} (h : k < fn * 2 ^ 24) : reg (ringsOff s fn) k = reg s k := by
  have hkey : ∀ e, k ≠ callerKey fn e := fun e he => by
    rw [callerKey] at he
    omega
  refine List.foldlRecOn _ _ (motive := fun t => reg t k = reg s k) rfl fun t ht r _ => ?_
  exact (reg_setReg_ne _ _ _ _ (hkey _)).trans ((reg_setReg_ne _ _ _ _ (hkey _)).trans ht)

theorem ringOn_cleared_self (s : State) (fn : Nat) (inj : Bool) (r : Nat) :
    ringOn (setFnReg s fn (ringCtrl inj r) (clearBit (fnReg s fn (ringCtrl inj r)) 31)) fn inj r = false := by
  rw [ringOn, fnReg, setFnReg, reg_setReg_self, bit_clearBit_self]

/-- A ring that is off stays off while others are cleared. -/
theorem ringOn_cleared {fn : Nat} {inj : Bool} {r : Nat} (h : ringOn s fn inj r = false) (e : Nat) :
    ringOn (setFnReg s fn e (clearBit (fnReg s fn e) 31)) fn inj r = false := by
  by_cases he : callerKey fn (ringCtrl inj r) = callerKey fn e
  · rw [ringOn, fnReg, setFnReg, he, reg_setReg_self, bit_clearBit_self]
  · rwa [ringOn, fnReg, setFnReg, reg_setReg_ne _ _ _ _ he]

theorem ringOn_ringsOff (s : State) (fn : Nat) {r : Nat} (hr : r < 8) :
    ringOn (ringsOff s fn) fn false r = false ∧ ringOn (ringsOff s fn) fn true r = false := by
  refine foldl_reaches (I := fun _ => True) (Q := fun t => ringOn t fn false r = false ∧ ringOn t fn true r = false)
    (fun _ _ _ _ => trivial) (fun t _ => ?_) (fun t x h => ?_) (List.mem_range.2 hr) trivial
  · exact ⟨ringOn_cleared (ringOn_cleared_self t fn false r) _, ringOn_cleared_self _ fn true r⟩
  · exact ⟨ringOn_cleared (ringOn_cleared h.1 _) _, ringOn_cleared (ringOn_cleared h.2 _) _⟩

/-! ### Resets begin and complete (R444, R477) -/

theorem fnInFlr_vfResetBegin (s : State) (v : Nat) : fnInFlr (vfResetBegin s v) v = true := by
  have h := inFlr_of_desk (desk_fnStop { s with host.inFlr := mset false s.host.inFlr v true } v)
  rw [fnInFlr, vfResetBegin, h]
  exact mget_mset_self _ _ _ _

theorem vfResetBegin_idle {v : Nat} (h1 : 1 ≤ v) (h2 : v ≤ 63) (hp : ∀ x ∈ s.host.punts, x.2.fn ≠ v)
    (hi : ∀ x ∈ s.host.injects, x.2.fn ≠ v) : fnGen (vfResetBegin s v) v = (fnGen s v + 1) % 256 ∧
      ∀ r < 8, ringOn (vfResetBegin s v) v false r = false ∧ ringOn (vfResetBegin s v) v true r = false := by
  have hgen : Reg.vfGeneration v < v * 2 ^ 24 := by
    simp only [Reg.vfGeneration, keyIf, key, show decide (v < 64) = true by simpa using Nat.lt_succ_of_le h2]
    simp only [if_true]
    omega
  generalize hu : ({ s with host.inFlr := mset false s.host.inFlr v true } : State) = u
  have hstop : vfResetBegin s v = fnQuieted u v := by
    rw [vfResetBegin, hu]
    refine fnStop_idle ?_ ?_
    · rw [← hu]
      exact hp
    · rw [← hu]
      exact hi
  have hquiet : ∀ k, k ≠ callerKey v Reg.ctrExportEnable →
      reg (fnQuieted u v) k = reg (ringsOff (setReg u (Reg.vfGeneration v) ((fnGen u v + 1) % 256)) v) k := fun k hk => by
    have hstale : ∀ w : State, reg (tagsStale w v) k = reg w k := fun _ => rfl
    rw [fnQuieted, hstale, ringsStopped, setFnReg, reg_setReg_ne _ _ _ _ hk]
  rw [hstop]
  refine ⟨?_, fun r hr => ?_⟩
  · rw [fnGen, hquiet _ (by rw [callerKey]; omega), reg_ringsOff _ hgen, reg_setReg_self, ← hu]
    rfl
  · have hring : ∀ inj, callerKey v (ringCtrl inj r) ≠ callerKey v Reg.ctrExportEnable := fun inj he => by
      rw [callerKey, callerKey, ringCtrl, Reg.ringInjCtrl, Reg.ringPuntCtrl, Reg.ctrExportEnable] at he
      simp only [keyIf, decide_eq_true hr, if_true, key] at he
      split at he
      · omega
      · omega
    simp only [ringOn, fnReg, hquiet _ (hring _)]
    exact ringOn_ringsOff _ v hr

theorem fnInFlr_vfResetDone (s : State) (v : Nat) : fnInFlr (overridesOff (vfResetDone s v)) v = false := by
  have hhost : part .host (overridesOff (vfResetDone s v)) = part .host { fnDefaults s v with
      host.inFlr := mset false (fnDefaults s v).host.inFlr v false } := by
    simp [vfResetDone]
  have hflr := (congrArg HostState.inFlr hhost :)
  rw [fnInFlr, show (overridesOff (vfResetDone s v)).host.inFlr = _ from hflr]
  exact mget_mset_self _ _ _ _

theorem reg_fnDefaults (hs : OdTidy s) (fn : Nat) {k : Nat} (hk : isDesk k = true) : reg (fnDefaults s fn) k = reg s k := by
  have hkeep : (!(k / 2 ^ 24 == fn && perFunction k)) = true := by
    have hshared : perFunction k = false := by rcases isDesk_iff.1 hk with rfl | rfl <;> decide
    rw [hshared, Bool.and_false, Bool.not_false]
  have hread := mget_filter_keys (odDefault k) (fun j => !(j / 2 ^ 24 == fn && perFunction j)) k s.od 0 hs.1
  rw [if_pos hkeep] at hread
  exact hread

/-- The functions' own state at its defaults, once every VF is gone (R443). -/
def functionsCleared (s : State) : State := fnDefaults (fnStop (resetVfs s) 0) 0

theorem resetFunctions_eq (s : State) (kind : Nat) :
    resetFunctions s kind = overridesOff (count32 (functionsCleared s) (Reg.pwrResetCount kind)) := rfl

theorem reg_overridesOff (hs : OdTidy s) {k : Nat} (hk : isDesk k = true) : reg (overridesOff s) k = reg s k :=
  reg_of_desk (desk_overridesOff hs) hk

theorem numVfs_resetFunctions (hs : OdTidy s) {kind : Nat} (hkind : isDesk (Reg.pwrResetCount kind) = false) :
    reg (resetFunctions s kind) Reg.hostNumVfs = 0 := by
  have hk : isDesk Reg.hostNumVfs = true := by decide
  have hvfs : reg (resetVfs s) Reg.hostNumVfs = 0 := reg_setReg_self _ _ _
  have htidy : OdTidy (count32 (functionsCleared s) (Reg.pwrResetCount kind)) :=
    (Keeps.refl s).resetVfs.fnStop.fnDefaults.count32.odTidy hs
  rw [resetFunctions_eq, reg_overridesOff htidy hk,
    reg_of_desk (desk_count32 hkind _) hk, functionsCleared, reg_fnDefaults ((Keeps.refl s).resetVfs.fnStop.odTidy hs) 0 hk,
    reg_of_desk (desk_fnStop (resetVfs s) 0) hk, hvfs]

theorem host_of_part (h : part .host t = part .host s) : t.host = s.host := h

theorem mget_filter_off {α : Type} (d : α) {p : Nat × α → Bool} {k : Nat} (m : SMap α) (h : ∀ x ∈ m, p x = true → x.1 ≠ k) :
    mget d (m.filter p) k = d := by
  induction m with
  | nil => rfl
  | cons x m ih =>
    have hrest := ih fun y hy => h y (List.mem_cons_of_mem x hy)
    rw [List.filter_cons]
    split
    · rename_i hx
      have hne : ¬k = x.1 := fun he => h x List.mem_cons_self hx he.symm
      simp only [mget, if_neg hne, hrest, ite_self]
    · exact hrest

theorem ring_fnDefaults (s : State) : mget {} (fnDefaults s 0).host.rings (ringKey 0 false 0) = {} :=
  mget_filter_off _ _ fun x _ hx he => by simp [he, ringKey, b2n] at hx

theorem ring_resetFunctions (s : State) (kind : Nat) : mget {} (resetFunctions s kind).host.rings (ringKey 0 false 0) = {} := by
  have hhost : part .host (resetFunctions s kind) = part .host (functionsCleared s) := by simp [resetFunctions_eq]
  rw [host_of_part hhost, functionsCleared, ring_fnDefaults]

theorem numVfs_vfEnableClear (hs : OdTidy s) :
    reg (overridesOff (countBy (resetVfs s) 32 (Reg.pwrResetCount 6) 63)) Reg.hostNumVfs = 0 := by
  have hk : isDesk Reg.hostNumVfs = true := by decide
  have hcount : isDesk (Reg.pwrResetCount 6) = false := by decide
  rw [reg_overridesOff ((Keeps.refl s).resetVfs.countBy.odTidy hs) hk, reg_of_desk (desk_countBy hcount _ _ _) hk]
  exact reg_setReg_self _ _ _

/-! ### The host link (R447) -/

theorem reg_setHostLink_self (s : State) (v : Nat) : reg (setHostLink s v) Reg.hostLink = v := by
  rw [setHostLink]
  split
  · assumption
  · rw [reg_raise_of_ne _ .host 0 (by decide) (by decide), reg_setReg_self]

theorem numVfs_setHostLink (s : State) (v : Nat) : reg (setHostLink s v) Reg.hostNumVfs = reg s Reg.hostNumVfs := by
  rw [setHostLink]
  split
  · rfl
  · rw [reg_raise_of_ne _ .host 0 (by decide) (by decide), reg_setReg_ne _ _ _ _ (by decide)]

theorem setHostLink_changes {v : Nat} (h : reg s Reg.hostLink ≠ v) :
    bit (reg (setHostLink s v) Reg.hostCause) 0 = true ∧ Noted [Reg.hostLink, Reg.hostCause] s (setHostLink s v) := by
  rw [setHostLink, if_neg h]
  exact ⟨bit_raise_self _ .host 0 (by decide),
    (noted_setReg _ s _ v (.inl (by simp))).trans (noted_raise _ _ .host 0 (.inl (by simp [CauseReg.key, Reg.hostCause])))⟩

/-! ### Counter exports (R445) -/

theorem exportStep_pair {v : Nat} {e : Export} (he : mfind s.host.exports v = some e) (hg : fnGen s v = e.gen) (hp : e.pos < e.count) :
    mfind (exportStep s v).host.exports v = some { e with pos := e.pos + 1 } ∧ .hostWrite v (e.addr + 16 * e.pos)
      (beBytes 8 (pairOf s (e.base + e.pos)).1 ++ beBytes 8 (pairOf s (e.base + e.pos)).2) ∈ (exportStep s v).sent := by
  simp only [exportStep, he, hg, ne_eq, not_true_eq_false, if_false, if_pos hp]
  exact ⟨mfind_mput_self _ _ _, mem_sent_hostWrite _ _ _ _⟩

/-- A write to host memory changes nothing but what went out. -/
theorem hostWrite_frame (s : State) (fn a : Nat) (b : List Byte) : ∃ l, hostWrite s fn a b = { s with sent := l } := by
  have hfold : ∀ {α : Type} (f : State → α → State), (∀ t x, ∃ l, f t x = { t with sent := l }) → ∀ (l : List α) (t : State),
      ∃ k, l.foldl f t = { t with sent := k } := fun f hf l t =>
    List.foldlRecOn l f (motive := fun u => ∃ k, u = { t with sent := k }) ⟨_, rfl⟩ fun u ⟨k, hk⟩ x _ => by
      obtain ⟨m, hm⟩ := hf u x
      exact ⟨m, by rw [hm, hk]⟩
  rw [hostWrite]
  split
  · exact ⟨_, rfl⟩
  · obtain ⟨l, hl⟩ := hfold _ (fun t r => hfold _ (fun u l => ⟨_, rfl⟩) _ t) (dirtyRegions (emit s (.hostWrite fn a b)) fn)
      (emit s (.hostWrite fn a b))
    exact ⟨l, hl⟩

theorem reg_hostWrite (s : State) (fn a : Nat) (b : List Byte) (k : Nat) : reg (hostWrite s fn a b) k = reg s k := by
  obtain ⟨l, hl⟩ := hostWrite_frame s fn a b
  rw [hl]
  rfl

/-- The state once the trailer of exported pairs is written. -/
def trailerWritten (s : State) (v : Nat) (e : Export) : State :=
  let n := (fnReg s v Reg.ctrExportSeq + 1) % 2 ^ 64
  let s := hostWrite (setFnReg s v Reg.ctrExportSeq n) v (e.addr + 16 * e.count) (beBytes 8 n ++ beBytes 8 e.at0)
  { s with host.exports := mdel s.host.exports v }

theorem exportStep_trailer {v : Nat} {e : Export} (he : mfind s.host.exports v = some e) (hg : fnGen s v = e.gen) (hp : ¬e.pos < e.count) :
    exportStep s v = if v = 0 then trailerWritten s v e else raise (trailerWritten s v e) (.vf v) 3 := by
  simp only [exportStep, he, hg, ne_eq, not_true_eq_false, if_false, if_neg hp]
  rfl

theorem trailerWritten_spec (s : State) (v : Nat) (e : Export) : mfind (trailerWritten s v e).host.exports v = none ∧
    fnReg (trailerWritten s v e) v Reg.ctrExportSeq = (fnReg s v Reg.ctrExportSeq + 1) % 2 ^ 64 ∧
    .hostWrite v (e.addr + 16 * e.count) (beBytes 8 ((fnReg s v Reg.ctrExportSeq + 1) % 2 ^ 64) ++ beBytes 8 e.at0) ∈
      (trailerWritten s v e).sent := by
  refine ⟨mfind_mdel_self _ _, ?_, mem_sent_hostWrite _ _ _ _⟩
  exact (reg_hostWrite _ v _ _ _).trans (reg_setReg_self _ _ _)

end Sys2Proof.Machine
end

section
/-! SAFETY. Functions, grants, the PCIe link and counter exports (R430, R434, R443–R445, R447, R477). -/

namespace Sys2Proof
open Machine

theorem odGrant_commits {s : State} {c : Client} {v : Nat} {b : List Byte} (hd : domainChecks s c (Reg.vfOdGrant v) = none)
    (hl : b.length ≤ 256) :
    (b.length % 8 = 0 → (∀ x ∈ chunks 8 32 b, grantBad x = false) →
      Does (.vfOdGrantWrite c v b) s c (setBlk s (Reg.vfOdGrant v) b)) ∧
    ((b.length % 8 ≠ 0 ∨ ∃ x ∈ chunks 8 32 b, grantBad x = true) →
      TurnedAway (.vfOdGrantWrite c v b) s c (Reg.vfOdGrant v) .refused) := by
  have hfit : ¬256 < b.length := by omega
  refine ⟨fun h8 hgood => ?_, fun hbad => ?_⟩
  · have hall : ¬(b.length % 8 ≠ 0 ∨ (chunks 8 32 b).any grantBad = true) := by
      rw [List.any_eq_true]
      rintro (h | ⟨x, hx, hxb⟩)
      · exact h h8
      · rw [hgood x hx] at hxb
        cases hxb
    have hrule : wOdGrant v b s = .done (setBlk s (Reg.vfOdGrant v) b) := by rw [wOdGrant, if_neg hfit, if_neg hall]
    exact congrArg Host.Outcome.next (commitRow_done s _ c _ (wOdGrant v b) hd hrule)
  · have hany : b.length % 8 ≠ 0 ∨ (chunks 8 32 b).any grantBad = true := by rwa [List.any_eq_true]
    have hrule : wOdGrant v b s = .fail .refused := by rw [wOdGrant, if_neg hfit, if_pos hany]
    exact congrArg Host.Outcome.next (commitRow_ruleFailed s c _ (wOdGrant v b) .refused hd hrule)

theorem vfFlr_answers {s : State} {v : Nat} (h1 : 1 ≤ v) (h2 : v ≤ reg s Reg.hostNumVfs) (hj : jobRunning s (Reg.vfReset v) = false) :
    (fnInFlr s v = false → Answers (.vfFlr v false) s (vfResetBegin s v)) ∧
    (fnInFlr s v = true → Answers (.vfFlr v true) s (overridesOff (vfResetDone (count32 s (Reg.pwrResetCount 6)) v))) := by
  have hheld : ¬(v = 0 ∨ reg s Reg.hostNumVfs < v ∨ jobRunning s (Reg.vfReset v) = true) := by
    rw [hj]
    rintro (h | h | h)
    · omega
    · omega
    · cases h
  refine ⟨fun hf => ?_, fun hf => ?_⟩
  · rw [Answers, show exec (.vfFlr v false) s = execVfFlr v false s from rfl, execVfFlr, if_neg hheld, if_neg (by decide), hf,
      if_neg (by decide)]
  · rw [Answers, show exec (.vfFlr v true) s = execVfFlr v true s from rfl, execVfFlr, if_neg hheld, if_pos rfl, if_pos hf]

theorem vfReset_answers (s : State) (c : Client) (v : Nat) :
    (MayStart s c (Reg.vfReset v) → fnInFlr s v = true → TurnedAway (.vfReset v (.start c)) s c (Reg.vfReset v) .busy) ∧
    (MayStart s c (Reg.vfReset v) → fnInFlr s v = false → ∃ t, Answers (.vfReset v (.start c)) s t ∧ fnInFlr t v = true ∧
      jobRunning t (Reg.vfReset v) = true) ∧
    (jobRunning s (Reg.vfReset v) = true → ∃ t, Answers (.vfReset v .step) s t ∧ fnInFlr t v = false) := by
  refine ⟨fun hm hf => ?_, fun hm hf => ?_, fun hj => ⟨_, if_pos hj, fnInFlr_vfResetDone _ v⟩⟩
  · exact congrArg Host.Outcome.next (mayStartWith_fails hm (by rw [hf]; rfl))
  · have hrule : (if fnInFlr s v = true then Applied.fail .busy else .done (vfResetBegin s v)) = .done (vfResetBegin s v) :=
      if_neg (by rw [hf]; decide)
    exact ⟨_, congrArg Host.Outcome.next (mayStartWith_does hm hrule), fnInFlr_vfResetBegin s v, jobRunning_jobBegin _ _⟩

theorem pcieLink_rises {s : State} {rate width x : Nat} (h1 : 1 ≤ rate) (h6 : rate ≤ 6)
    (hw : width = 1 ∨ width = 2 ∨ width = 4 ∨ width = 8) (hb : rate = 6 → bit (reg s Reg.idStraps) 2 = false)
    (hx : x = rate * 256 + width * 16 + 2 + b2n (rate == 6)) (hne : reg s Reg.hostLink ≠ x) :
    ∃ t, Answers (.pcieLinkChange true rate width) s t ∧ reg t Reg.hostLink = x ∧ bit (reg t Reg.hostCause) 0 = true ∧
      Noted [Reg.hostLink, Reg.hostCause] s t := by
  subst hx
  have hok : 1 ≤ rate ∧ rate ≤ 6 ∧ (width = 1 ∨ width = 2 ∨ width = 4 ∨ width = 8) ∧ ¬(rate = 6 ∧ bit (reg s Reg.idStraps) 2 = true) :=
    ⟨h1, h6, hw, fun ⟨h, hs⟩ => by rw [hb h] at hs; cases hs⟩
  exact ⟨_, if_pos hok, reg_setHostLink_self _ _, setHostLink_changes hne⟩

theorem export_begins {s : State} {v : Nat} (hn : mfind s.host.exports v = none) (he : fnExists s v = true) (hf : fnInFlr s v = false)
    (hon : fnReg s v Reg.ctrExportEnable = 1) (hat : timeNs s % (1000 * fnReg s v Reg.ctrExportPeriodUs) = 0) :
    Answers (.counterExport v 0) s (exportBegin s v) := by
  have hdue : (mfind s.host.exports v).isNone = true ∧ fnExists s v = true ∧ (!fnInFlr s v) = true ∧
      fnReg s v Reg.ctrExportEnable = 1 ∧ timeNs s % (1000 * fnReg s v Reg.ctrExportPeriodUs) = 0 :=
    ⟨by rw [hn]; rfl, he, by rw [hf]; rfl, hon, hat⟩
  exact congrArg Host.Outcome.next (if_pos hdue)

theorem export_steps {s : State} {v : Nat} {e : Export} (he : mfind s.host.exports v = some e) (hg : fnGen s v = e.gen) :
    (e.pos < e.count → ∃ t, Answers (.counterExport v 1) s t ∧ mfind t.host.exports v = some { e with pos := e.pos + 1 } ∧
      .hostWrite v (e.addr + 16 * e.pos)
        (beBytes 8 (pairOf s (e.base + e.pos)).1 ++ beBytes 8 (pairOf s (e.base + e.pos)).2) ∈ t.sent) ∧
    (e.count ≤ e.pos → v ≤ 63 → ∃ t, Answers (.counterExport v 1) s t ∧ mfind t.host.exports v = none ∧
      fnReg t v Reg.ctrExportSeq = (fnReg s v Reg.ctrExportSeq + 1) % 2 ^ 64 ∧
      .hostWrite v (e.addr + 16 * e.count)
        (beBytes 8 ((fnReg s v Reg.ctrExportSeq + 1) % 2 ^ 64) ++ beBytes 8 e.at0) ∈ t.sent) := by
  have hruns : ¬((mfind s.host.exports v).isNone = true ∧ fnExists s v = true ∧ (!fnInFlr s v) = true ∧
      fnReg s v Reg.ctrExportEnable = 1 ∧ timeNs s % (1000 * fnReg s v Reg.ctrExportPeriodUs) = 0) := by
    rw [he]
    exact fun h => Bool.noConfusion h.1
  have hstep : Answers (.counterExport v 1) s (exportStep s v) :=
    congrArg (fun u => Host.Outcome.next (exportStep u v)) (if_neg hruns)
  refine ⟨fun hp => ⟨_, hstep, exportStep_pair he hg hp⟩, fun hp hv => ⟨_, hstep, ?_⟩⟩
  obtain ⟨hgone, hseq, hout⟩ := trailerWritten_spec s v e
  rw [exportStep_trailer he hg (by omega)]
  split
  · exact ⟨hgone, hseq, hout⟩
  · have hraise := noted_raise [CauseReg.key (.vf v)] (trailerWritten s v e) (.vf v) 3 (.inl (by simp))
    have hhost : (raise (trailerWritten s v e) (.vf v) 3).host = (trailerWritten s v e).host := by rw [hraise.1]
    refine ⟨by rw [hhost, hgone], ?_, sent_raise _ _ _ hout⟩
    rw [← hseq]
    refine reg_raise_of_ne _ (.vf v) 3 (side_callerKey v (by decide)) fun h => ?_
    rw [CauseReg.key, callerKey, callerKey, Nat.add_left_cancel_iff] at h
    exact absurd h (by decide)

/-- Settles O49: resets of functions leave the host's desk but for VF Enable and the function's hold, and exported pairs stay sent. -/
theorem functionsGrantsAndExports : Obligations.FunctionsGrantsAndExports := by
  intro s c v n b hs
  obtain ⟨hbusy, hstart, hstep⟩ := vfReset_answers s c v
  refine ⟨fun hd hl => (odGrant_commits hd hl).1, fun hd hl => (odGrant_commits hd hl).2, fun h1 h2 h63 hj hf => ?_,
    fun h1 h2 _ hj hf => ⟨_, (vfFlr_answers h1 h2 hj).2 hf, fnInFlr_vfResetDone _ v⟩, hbusy, hstart, hstep,
    fun hn h1 h63 hlo hhi => if_pos ⟨h1, h63, hn, hlo, hhi⟩, fun hne => ⟨_, if_neg hne, numVfs_vfEnableClear hs⟩,
    ⟨_, rfl, numVfs_resetFunctions hs (by decide), ring_resetFunctions s 7⟩, ⟨_, rfl, ?_, reg_setHostLink_self _ 0⟩,
    fun rate width x => pcieLink_rises, fun hne => ⟨_, congrArg Host.Outcome.next (if_neg hne), reg_setHostLink_self _ 0⟩,
    export_begins, fun e => export_steps⟩
  · exact ⟨_, (vfFlr_answers h1 h2 hj).1 hf, fnInFlr_vfResetBegin s v, vfResetBegin_idle h1 h63⟩
  · rw [numVfs_setHostLink, numVfs_resetFunctions hs (by decide)]

end Sys2Proof
end

section
/-! SUPPORT. What a pulse leaves of the entries beside the event system's own (R380), the wraps of performance counters (R364) and the
entries of a bandwidth window (R367). -/

namespace Sys2Proof.Machine

variable {s t u : State}

/-! ### Pulses and the entries they count in -/

/-- The entries that pulses count in, or set a bit of. -/
def pulseEntries : List Nat :=
  [Reg.obsCause, Reg.evtPulses, Reg.evtFwQueueHigh, Reg.evtFwQueueLost, Reg.ensRecordsDropped]

/-- Between `s` and `t` pulses have come: other entries stand, causes of the observation block stay set, and overflows stay. -/
structure Pulsed (s t : State) : Prop where
  entries : ∀ k, k ∉ pulseEntries → reg t k = reg s k
  causes : ∀ i, bit (reg s Reg.obsCause) i = true → bit (reg t Reg.obsCause) i = true
  overflow : t.obs.perfOverflow = s.obs.perfOverflow

theorem Pulsed.refl (s : State) : Pulsed s s := ⟨fun _ _ => rfl, fun _ => id, rfl⟩

theorem Pulsed.trans (h : Pulsed s t) (g : Pulsed t u) : Pulsed s u :=
  ⟨fun k hk => (g.entries k hk).trans (h.entries k hk), fun i hi => g.causes i (h.causes i hi), g.overflow.trans h.overflow⟩

theorem pulsed_same (ho : t.od = s.od) (hp : t.obs.perfOverflow = s.obs.perfOverflow) : Pulsed s t := by
  have hreg : ∀ k, reg t k = reg s k := fun k => by rw [reg, ho, reg]
  exact ⟨fun k _ => hreg k, fun i => by rw [hreg]; exact id, hp⟩

theorem pulsed_setReg {k : Nat} (hk : k ∈ pulseEntries) (ho : k ≠ Reg.obsCause) (s : State) (v : Nat) : Pulsed s (setReg s k v) := by
  refine ⟨fun j hj => reg_setReg_ne _ _ _ _ ?_, fun i hi => ?_, rfl⟩
  · rintro rfl
    exact hj hk
  · rwa [reg_setReg_ne _ _ _ _ ho.symm]

theorem pulsed_obsCause (s : State) (b : Nat) : Pulsed s (setReg s Reg.obsCause (setBit (reg s Reg.obsCause) b)) := by
  refine ⟨fun j hj => reg_setReg_ne _ _ _ _ ?_, fun i hi => ?_, rfl⟩
  · rintro rfl
    exact hj (by decide)
  · rw [reg_setReg_self]
    exact bit_setBit_of_bit b hi

theorem pulsed_sendMsix (s : State) (fn v : Nat) : Pulsed s (sendMsix s fn v) := by
  rw [sendMsix]
  split
  · dsimp only
    split
    · exact pulsed_same rfl rfl
    · exact pulsed_same rfl rfl
  · exact .refl s

theorem pulsed_riseMessages (s0 s : State) (vs : List (Nat × Nat)) : Pulsed s (riseMessages s0 s vs) := by
  refine List.foldlRecOn vs _ (motive := fun t => Pulsed s t) (.refl s) fun t ht v _ => ?_
  split
  · exact ht.trans (pulsed_sendMsix t v.1 v.2)
  · exact ht

theorem pulsed_fwEnqueue (s : State) (src : Nat) : Pulsed s (fwEnqueue s src) := by
  unfold fwEnqueue
  split
  · extract_lets q _ u
    have hqueue : Pulsed s u := pulsed_same rfl rfl
    split
    · exact hqueue.trans (pulsed_setReg (by decide) (by decide) u _)
    · exact hqueue
  · exact pulsed_setReg (by decide) (by decide) s _

theorem pulsed_ensPut (s : State) (n : Nat) (b : List Byte) : Pulsed s (ensPut s n b).2 := by
  rw [ensPut]
  split
  · split
    · exact pulsed_same rfl rfl
    · exact pulsed_setReg (by decide) (by decide) s _
  · exact .refl s

theorem pulsed_pulseBare (s : State) (src : Nat) : Pulsed s (pulseBare s src).2 := by
  unfold pulseBare
  extract_lets s0 s1 _ s2 s3 s4
  have hcount : Pulsed s s2 := (pulsed_setReg (k := Reg.evtPulses) (by decide) (by decide) s _).trans (pulsed_same rfl rfl)
  have hrise : Pulsed s s3 := hcount.trans (pulsed_riseMessages s0 s2 _)
  have hqueue : Pulsed s s4 := by
    simp only [s4]
    split
    · exact hrise.trans (pulsed_fwEnqueue s3 src)
    · exact hrise
  split
  · exact hqueue.trans (pulsed_ensPut s4 _ _)
  · exact hqueue

theorem pulsed_ensignDropped (s : State) : Pulsed s (ensignDropped s) := by
  simp only [ensignDropped]
  split
  · exact .refl s
  · split
    · exact (pulsed_obsCause s 3).trans (pulsed_pulseBare _ 899)
    · exact pulsed_obsCause s 3

theorem pulsed_pulseOne (s : State) (src : Nat) : Pulsed s (pulseOne s src) := by
  simp only [pulseOne]
  split
  · exact (pulsed_pulseBare s src).trans (pulsed_ensignDropped _)
  · exact pulsed_pulseBare s src

theorem pulsed_pulse (s : State) (src : Nat) : Pulsed s (pulse s src) := by
  simp only [pulse]
  split
  · exact (pulsed_pulseOne s src).trans (pulsed_pulseOne _ 64)
  · exact pulsed_pulseOne s src

/-- A cause of the observation block that is raised stands, and the entries beside it stay (R380). -/
theorem raise_obs (s : State) (b : Nat) : Pulsed s (raise s .obs b) ∧ bit (reg (raise s .obs b) Reg.obsCause) b = true := by
  have hset : bit (reg (setReg s Reg.obsCause (setBit (reg s Reg.obsCause) b)) Reg.obsCause) b = true := by
    rw [reg_setReg_self, bit_setBit_self]
  simp only [raise]
  split
  · rename_i h
    exact ⟨.refl s, h⟩
  · split
    · have hpulse : Pulsed (setReg s Reg.obsCause (setBit (reg s Reg.obsCause) b))
          (pulseCause (setReg s Reg.obsCause (setBit (reg s Reg.obsCause) b)) .obs b) := by
        simp only [pulseCause]
        split
        · exact pulsed_pulse _ _
        · exact .refl _
      exact ⟨(pulsed_obsCause s b).trans hpulse, hpulse.causes b hset⟩
    · exact ⟨pulsed_obsCause s b, hset⟩

/-! ### Performance counters (R364) -/

theorem perfCounter_of {n : Nat} (h : n < 4096) : Reg.perfCounter n = 0x510000 + n := by
  simp only [Reg.perfCounter, keyIf, decide_eq_true h, if_true, key]
  omega

theorem perfSelect_of {n : Nat} (h : n < 4096) : Reg.perfSelect n = 0x511000 + n := by
  simp only [Reg.perfSelect, keyIf, decide_eq_true h, if_true, key]
  omega

theorem perfCounter_ne_perfSelect {n : Nat} (h : n < 4096) (m : Nat) : Reg.perfCounter n ≠ Reg.perfSelect m := by
  rw [perfCounter_of h]
  by_cases hm : m < 4096
  · rw [perfSelect_of hm]
    omega
  · simp [Reg.perfSelect, keyIf, hm]

theorem perfCounter_ne {n m : Nat} (h : n < 4096) (hne : n ≠ m) : Reg.perfCounter n ≠ Reg.perfCounter m := by
  rw [perfCounter_of h]
  by_cases hm : m < 4096
  · rw [perfCounter_of hm]
    omega
  · simp [Reg.perfCounter, keyIf, hm]

theorem perfCounter_not_pulsed {n : Nat} (h : n < 4096) : Reg.perfCounter n ∉ pulseEntries := by
  rw [perfCounter_of h]
  simp only [pulseEntries, Reg.obsCause, Reg.evtPulses, Reg.evtFwQueueHigh, Reg.evtFwQueueLost, Reg.ensRecordsDropped, key, List.mem_cons,
    List.not_mem_nil, or_false]
  omega

/-- An overflow of a counter is set, and pulses OVERFLOW (R364). -/
def perfOverflowed (s : State) (n : Nat) : State := raise { s with obs.perfOverflow := mset false s.obs.perfOverflow n true } .obs 2

theorem perfOverflowed_spec (s : State) (n : Nat) : mget false (perfOverflowed s n).obs.perfOverflow n = true ∧
    bit (reg (perfOverflowed s n) Reg.obsCause) 2 = true ∧ ∀ k, k ∉ pulseEntries → reg (perfOverflowed s n) k = reg s k := by
  obtain ⟨hpulsed, hcause⟩ := raise_obs { s with obs.perfOverflow := mset false s.obs.perfOverflow n true } 2
  refine ⟨?_, hcause, hpulsed.entries⟩
  rw [perfOverflowed, hpulsed.overflow]
  exact mget_mset_self _ _ _ _

/-- A carry into the counters from `m` on leaves the counters below. -/
theorem perfCounter_perfCarry {n : Nat} (h : n < 4096) (fuel : Nat) {m : Nat} (hm : n < m) (s : State) :
    reg (perfCarry fuel s m) (Reg.perfCounter n) = reg s (Reg.perfCounter n) := by
  have hset : ∀ (s : State) (m v : Nat), n < m → reg (setReg s (Reg.perfCounter m) v) (Reg.perfCounter n) = reg s (Reg.perfCounter n) :=
    fun s m v hm => reg_setReg_ne _ _ _ _ (perfCounter_ne h (Nat.ne_of_lt hm))
  induction fuel generalizing s m with
  | zero => rfl
  | succ fuel ih =>
    simp only [perfCarry]
    split
    · split
      · exact hset s m _ hm
      · split
        · exact (ih (Nat.lt_succ_of_lt hm) _).trans (hset s m _ hm)
        · exact ((perfOverflowed_spec _ m).2.2 _ (perfCounter_not_pulsed h)).trans (hset s m _ hm)
    · rfl

theorem perfCarry_stops {fuel m : Nat} (hon : bit (reg s (Reg.perfSelect m)) 31 = true) (hv : reg s (Reg.perfCounter m) + 1 < 2 ^ 32) :
    perfCarry (fuel + 1) s m = setReg s (Reg.perfCounter m) ((reg s (Reg.perfCounter m) + 1) % 2 ^ 32) := by
  simp only [perfCarry, if_pos hon, if_pos hv]

/-- A counter at its end wraps, and carries into the next or sets its overflow. -/
theorem perfAdd_wraps {n : Nat} (hn : n < 4096) (hv : reg s (Reg.perfCounter n) = 2 ^ 32 - 1) :
    perfAdd s n 1 = if bit (reg s (Reg.perfSelect n)) 30 then perfCarry 4096 (setReg s (Reg.perfCounter n) 0) (n + 1)
      else perfOverflowed (setReg s (Reg.perfCounter n) 0) n := by
  have hselect : ∀ v, reg (setReg s (Reg.perfCounter n) v) (Reg.perfSelect n) = reg s (Reg.perfSelect n) :=
    fun v => reg_setReg_ne _ _ _ _ (perfCounter_ne_perfSelect hn n).symm
  have hfull : reg s (Reg.perfCounter n) + 1 = 2 ^ 32 := by omega
  rw [perfAdd, hfull, Nat.mod_self, if_neg (Nat.lt_irrefl _), hselect]
  rfl

/-! ### Bandwidth windows (R367) -/

/-- The octets of a window, and its sequence one higher. -/
def windowCounted (s : State) (n rx tx : Nat) : State :=
  count32 (setReg (setReg s (Reg.bwRxBytes n) rx) (Reg.bwTxBytes n) tx) (Reg.bwSeq n)

theorem windowCounted_spec {n : Nat} (hn : n < 1024) (s : State) (rx tx : Nat) : reg (windowCounted s n rx tx) (Reg.bwRxBytes n) = rx ∧
    reg (windowCounted s n rx tx) (Reg.bwTxBytes n) = tx ∧
    reg (windowCounted s n rx tx) (Reg.bwSeq n) = (reg s (Reg.bwSeq n) + 1) % 2 ^ 32 := by
  have hkeys : Reg.bwRxBytes n ≠ Reg.bwTxBytes n ∧ Reg.bwRxBytes n ≠ Reg.bwSeq n ∧ Reg.bwTxBytes n ≠ Reg.bwSeq n := by
    simp only [Reg.bwRxBytes, Reg.bwTxBytes, Reg.bwSeq, keyIf, decide_eq_true hn, if_true, key]
    omega
  obtain ⟨hrt, hrs, hts⟩ := hkeys
  rw [windowCounted, count32, countBy, reg_setReg_self, reg_setReg_ne _ _ _ _ hrs, reg_setReg_ne _ _ _ _ hts, reg_setReg_self,
    reg_setReg_ne _ _ _ _ hrt, reg_setReg_self, reg_setReg_ne _ _ _ _ hts.symm, reg_setReg_ne _ _ _ _ hrs.symm]
  exact ⟨rfl, rfl, rfl⟩

theorem execBwWindowEnd_eq {n : Nat} (hn : n < 1024) (hat : atMultiple s (2 ^ reg s (Reg.bwWindowK n) * 1000) = true)
    (hskip : mget 0 s.obs.bwSkip n = 0) : ∃ o : ObsState, execBwWindowEnd n s = .next { windowCounted s n
        (octetsSince (reg s (Reg.fbRxOctets n)) (mget 0 s.obs.bwRx n)) (octetsSince (reg s (Reg.fbTxOctets n)) (mget 0 s.obs.bwTx n)) with
        obs := o } ∧ mget 0 o.bwRx n = reg s (Reg.fbRxOctets n) := by
  have hends : n < 1024 ∧ atMultiple s (2 ^ reg s (Reg.bwWindowK n) * 1000) = true := ⟨hn, hat⟩
  have hruns : ¬mget 0 s.obs.bwSkip n ≠ 0 := fun h => h hskip
  rw [execBwWindowEnd, if_pos hends]
  extract_lets rx tx s1 s2 u
  have hu : u = windowCounted s n (octetsSince rx (mget 0 s.obs.bwRx n)) (octetsSince tx (mget 0 s.obs.bwTx n)) := if_neg hruns
  rw [hu]
  exact ⟨_, rfl, mget_mset_self _ _ _ _⟩

end Sys2Proof.Machine
end

section
/-! SAFETY. The ledger, performance counters, windows and histograms (R360, R361, R363, R364, R367–R370, R377). -/

namespace Sys2Proof
open Machine

/-- The ledger an epoch's end leaves: its record joins the history, and the terms start again (R361). -/
def epochLedger (s : State) : Ledger :=
  { oRx := s.led.oRx, oFab := s.led.oFab, oQueue := s.led.oQueue, oOut := s.led.oOut, oGen := s.led.oGen,
    oStart := s.led.oRx + s.led.oFab + s.led.oQueue + s.led.oOut + s.led.oGen, incomplete := false,
    history := (ledgerRecord s.led (timeNs s / 1000000 - 1) :: s.led.history).take 64 }

/-- An imbalance is counted, named and reported (R361). -/
def mismatchReported (s : State) (epoch : Nat) : State :=
  raise (setReg (count1 s Reg.ledgerMismatches) Reg.ledgerLastMismatch epoch) .obs 0

theorem mismatchReported_spec (s : State) (epoch : Nat) :
    reg (mismatchReported s epoch) Reg.ledgerMismatches = (reg s Reg.ledgerMismatches + 1) % 2 ^ 64 ∧
    reg (mismatchReported s epoch) Reg.ledgerLastMismatch = epoch ∧ bit (reg (mismatchReported s epoch) Reg.obsCause) 0 = true ∧
    (mismatchReported s epoch).led = s.led := by
  obtain ⟨hpulsed, hcause⟩ := raise_obs (setReg (count1 s Reg.ledgerMismatches) Reg.ledgerLastMismatch epoch) 0
  refine ⟨?_, ?_, hcause, ?_⟩
  · refine (hpulsed.entries _ (by decide)).trans ((reg_setReg_ne _ _ _ _ (by decide)).trans ?_)
    exact reg_setReg_self _ _ _
  · exact (hpulsed.entries _ (by decide)).trans (reg_setReg_self _ _ _)
  · rw [mismatchReported, (noted_raise [CauseReg.obs.key] _ .obs 0 (.inl (by simp))).1]
    rfl

theorem ledgerEpoch_answers {s : State} (hs : Sound s) (hat : timeNs s % 1000000 = 0) : Answers .ledgerEpochBoundary s
    (if s.led.incomplete = true ∨ s.led.imbalance = 0 then { s with led := epochLedger s }
      else mismatchReported { s with led := epochLedger s } (timeNs s / 1000000 - 1)) := by
  have hms : atMultiple s 1000000 = true := by simp [atMultiple, hat]
  have hclean : (if residueArmed s 6 = true then ledgerResidue s else s) = s := by rw [residueArmed_of_sound hs 6, if_neg Bool.false_ne_true]
  rw [Answers, show exec .ledgerEpochBoundary s = execLedgerEpochBoundary s from rfl, execLedgerEpochBoundary, if_pos hms,
    hclean]
  extract_lets _ l epoch u
  by_cases h : s.led.incomplete = true ∨ s.led.imbalance = 0
  · rw [if_pos h, if_pos h]
    rfl
  · rw [if_neg h, if_neg h]
    rfl

theorem perfCounter_wraps {s : State} {n : Nat} (hn : n < 4095) (hon : bit (reg s (Reg.perfSelect n)) 31 = true)
    (hv : reg s (Reg.perfCounter n) = 2 ^ 32 - 1) : ∃ t, Answers (.perfCounterWrap n) s t ∧ reg t (Reg.perfCounter n) = 0 ∧
      (bit (reg s (Reg.perfSelect n)) 30 = false → mget false t.obs.perfOverflow n = true ∧ bit (reg t Reg.obsCause) 2 = true) ∧
      (bit (reg s (Reg.perfSelect n)) 30 = true → bit (reg s (Reg.perfSelect (n + 1))) 31 = true →
        reg s (Reg.perfCounter (n + 1)) + 1 < 2 ^ 32 →
        reg t (Reg.perfCounter (n + 1)) = reg s (Reg.perfCounter (n + 1)) + 1) := by
  have hlow : n < 4096 := by omega
  have hwraps : n < 4096 ∧ bit (reg s (Reg.perfSelect n)) 31 = true ∧ reg s (Reg.perfCounter n) = 2 ^ 32 - 1 := ⟨hlow, hon, hv⟩
  have hzero : reg (setReg s (Reg.perfCounter n) 0) (Reg.perfCounter n) = 0 := reg_setReg_self _ _ _
  refine ⟨_, if_pos hwraps, ?_⟩
  rw [perfAdd_wraps hlow hv]
  by_cases hc : bit (reg s (Reg.perfSelect n)) 30 = true
  · rw [if_pos hc]
    refine ⟨(perfCounter_perfCarry hlow 4096 (Nat.lt_succ_self n) _).trans hzero, fun h => absurd h (by simp [hc]), fun _ hnext hlt => ?_⟩
    have hselect : reg (setReg s (Reg.perfCounter n) 0) (Reg.perfSelect (n + 1)) = reg s (Reg.perfSelect (n + 1)) :=
      reg_setReg_ne _ _ _ _ (perfCounter_ne_perfSelect hlow (n + 1)).symm
    have hcounter : reg (setReg s (Reg.perfCounter n) 0) (Reg.perfCounter (n + 1)) = reg s (Reg.perfCounter (n + 1)) :=
      reg_setReg_ne _ _ _ _ (perfCounter_ne (by omega) (by omega))
    rw [perfCarry_stops (by rw [hselect]; exact hnext) (by rw [hcounter]; exact hlt), reg_setReg_self, hcounter]
    exact Nat.mod_eq_of_lt hlt
  · rw [if_neg hc]
    obtain ⟨hover, hcause, hkept⟩ := perfOverflowed_spec (setReg s (Reg.perfCounter n) 0) n
    exact ⟨(hkept _ (perfCounter_not_pulsed hlow)).trans hzero, fun _ => ⟨hover, hcause⟩, fun h => absurd h hc⟩

theorem bwWindow_ends {s : State} {n : Nat} (hn : n < 1024) (hat : atMultiple s (2 ^ reg s (Reg.bwWindowK n) * 1000) = true)
    (hskip : mget 0 s.obs.bwSkip n = 0) : ∃ t, Answers (.bwWindowEnd n) s t ∧
      reg t (Reg.bwRxBytes n) = octetsSince (reg s (Reg.fbRxOctets n)) (mget 0 s.obs.bwRx n) ∧
      reg t (Reg.bwTxBytes n) = octetsSince (reg s (Reg.fbTxOctets n)) (mget 0 s.obs.bwTx n) ∧
      reg t (Reg.bwSeq n) = (reg s (Reg.bwSeq n) + 1) % 2 ^ 32 ∧ mget 0 t.obs.bwRx n = reg s (Reg.fbRxOctets n) := by
  obtain ⟨o, hexec, hbase⟩ := execBwWindowEnd_eq hn hat hskip
  generalize octetsSince (reg s (Reg.fbRxOctets n)) (mget 0 s.obs.bwRx n) = rx at hexec ⊢
  generalize octetsSince (reg s (Reg.fbTxOctets n)) (mget 0 s.obs.bwTx n) = tx at hexec ⊢
  obtain ⟨hrx, htx, hseq⟩ := windowCounted_spec hn s rx tx
  have hreg : ∀ (u : State) (k : Nat), reg { u with obs := o } k = reg u k := fun _ _ => rfl
  refine ⟨_, hexec, ?_, ?_, ?_, hbase⟩
  · rw [hreg, hrx]
  · rw [hreg, htx]
  · rw [hreg, hseq]

theorem histogram_samples {s : State} {n b : Nat} {l : List Nat} (hn : n < 64) (hon : bit (reg s (Reg.histMonitor n)) 63 = true)
    (hat : atMultiple s (bits (reg s (Reg.histMonitor n)) 39 20 * 128) = true)
    (hl : l = (if mget [] s.obs.histBins n = [] then List.replicate 16 0 else mget [] s.obs.histBins n))
    (hb : b = histBin (qDepth (queue s (bits (reg s (Reg.histMonitor n)) 62 44))) (bits (reg s (Reg.histMonitor n)) 43 40)) :
    ∃ t, Answers (.histSample n) s t ∧ t = { s with obs.histBins := t.obs.histBins } ∧
      mget [] t.obs.histBins n = putAt l b (min (natAt l b + 1) (2 ^ 64 - 1)) := by
  have hsamples : n < 64 ∧ bit (reg s (Reg.histMonitor n)) 63 = true ∧
      atMultiple s (bits (reg s (Reg.histMonitor n)) 39 20 * 128) = true := ⟨hn, hon, hat⟩
  refine ⟨{ s with obs.histBins := mset [] s.obs.histBins n (putAt l b (min (natAt l b + 1) (2 ^ 64 - 1))) }, ?_, rfl,
    mget_mset_self _ _ _ _⟩
  refine (if_pos hsamples).trans ?_
  simp only [List.isEmpty_iff, ← hl, ← hb]

/-- Settles O37: each row by its rule, and what a pulse leaves beside the event system's own entries. -/
theorem ledgerCountersAndWindows : Obligations.LedgerCountersAndWindows := by
  intro s c n v _
  refine ⟨fun hs hat => ⟨_, ledgerEpoch_answers hs hat, ?_⟩, fun hp hi hm hb => ?_, fun hp hv hi => ?_, fun hp => ?_,
    fun hn hon hv => perfCounter_wraps hn hon hv, bwWindow_ends, fun hp => ?_, fun hr => ?_, fun l b => histogram_samples, fun hp hv => ?_,
    fun hp hv => ?_⟩
  · by_cases h : s.led.incomplete = true ∨ s.led.imbalance = 0
    · rw [if_pos h]
      refine ⟨rfl, fun hc hi => ?_, fun _ => rfl⟩
      rcases h with h | h
      · rw [hc] at h
        cases h
      · exact absurd h hi
    · rw [if_neg h]
      obtain ⟨hcount, hlast, hcause, hled⟩ := mismatchReported_spec { s with led := epochLedger s } (timeNs s / 1000000 - 1)
      exact ⟨hled, fun _ _ => ⟨hcount, hlast, hcause⟩, fun h' => absurd h' h⟩
  · have hfit : ¬(v ≠ 0 ∧ (perfInstances (bits v 27 18) = 0 ∨ (!(perfModes (bits v 27 18)).contains (bits v 29 28)) = true ∨
        perfInstances (bits v 27 18) ≤ bits v 17 0 ∨ (bit v 30 = true ∧ n = 4095))) := by
      rintro ⟨-, h | h | h | ⟨h, h'⟩⟩
      · omega
      · rw [hm] at h
        cases h
      · omega
      · rcases hb with hb | hb
        · rw [hb] at h
          cases h
        · exact hb h'
    exact congrArg Host.Outcome.next (permitted_does hp (if_neg hfit))
  · exact congrArg Host.Outcome.next (permitted_refused hp (if_pos ⟨hv, .inl hi⟩))
  · exact congrArg Host.Outcome.next (permitted_does hp rfl)
  · exact congrArg Host.Outcome.next (permitted_does hp rfl)
  · exact congrArg Host.Outcome.next (readRow_done s c _ _ _ hr)
  · exact congrArg Host.Outcome.next (permitted_does hp (congrArg Applied.done (if_neg hv)))
  · exact congrArg Host.Outcome.next (permitted_does hp (congrArg Applied.done (if_neg hv)))

end Sys2Proof
end

section
/-! SUPPORT. Responses and requests (R405, R415, R416): lengths, what a response in a mailbox leaves, what reads leave, and numbers the
device chooses. -/

namespace Sys2Proof.Machine

variable {s t u : State}

/-! ### Lengths -/

@[simp] theorem length_beBytes (n v : Nat) : (beBytes n v).length = n := by
  induction n with
  | zero => rfl
  | succ n ih => rw [beBytes, List.length_cons, ih]

@[simp] theorem length_padTo (l : List Byte) (n : Nat) : (padTo l n).length = n := by
  rw [padTo, List.length_append, List.length_take, List.length_replicate]
  omega

theorem length_response (m : List Byte) (sid : Nat) (r : Reply) : (response m sid r).length = 20 + r.body.length := by
  simp only [response, synsaMessage, List.length_append, List.length_cons, List.length_nil, length_beBytes]

theorem length_identityBody (s : State) (op b : Nat) : (identityBody s op b).length = 96 := by
  simp only [identityBody, unitId, List.length_append, List.length_cons, List.length_nil, length_beBytes, length_padTo]

/-! ### Mailboxes (R405) -/

theorem mailbox_setMailbox_self (s : State) (fn : Nat) (m : Mailbox) : mailbox (setMailbox s fn m) fn = m := mget_mset_self _ _ _ _

/-- The mailbox with a response in its window. -/
def responded (x : Mailbox) (a : List Byte) : Mailbox :=
  { x with state := 2, len := a.length, response := splice (padTo x.response 4096) 0 a }

theorem take_responded (x : Mailbox) (a : List Byte) : (responded x a).response.take a.length = a := by
  simp only [responded, splice, List.take_zero, List.nil_append, List.take_left']

theorem replied_raise {fn : Nat} (c : CauseReg) (b : Nat) (u : State) (a : List Byte)
    (hc : c.key ∈ [Reg.odCause, callerKey fn Reg.vfCause]) :
    Replied u (raise (setMailbox u fn (responded (mailbox u fn) a)) c b) fn a := by
  have hnoted := noted_raise [Reg.odCause, callerKey fn Reg.vfCause] (setMailbox u fn (responded (mailbox u fn) a)) c b (.inl hc)
  have hbox : mailbox (raise (setMailbox u fn (responded (mailbox u fn) a)) c b) fn = responded (mailbox u fn) a := by
    rw [mailbox, dict_raise]
    exact mailbox_setMailbox_self _ _ _
  generalize raise (setMailbox u fn (responded (mailbox u fn) a)) c b = t at hnoted hbox
  obtain ⟨hframe, htidy, hreg⟩ := hnoted
  refine ⟨by rw [hbox]; rfl, by rw [hbox]; rfl, by rw [hbox, take_responded], ?_, htidy, hreg⟩
  rw [hframe]
  rfl

/-- The answer a mailbox takes, once nothing waits for it to leave. -/
theorem replied_mailboxRespond (hq : Quiet u) (fn : Nat) (a : List Byte) : Replied u (afterResponse (mailboxRespond u fn a)) fn a := by
  have hcause : ∃ c b, c.key ∈ [Reg.odCause, callerKey fn Reg.vfCause] ∧
      mailboxRespond u fn a = raise (setMailbox u fn (responded (mailbox u fn) a)) c b := by
    by_cases h : fn = 0
    · exact ⟨.od, 5, List.mem_cons_self, if_pos h⟩
    · exact ⟨.vf fn, 4, List.mem_cons_of_mem _ List.mem_cons_self, if_neg h⟩
  obtain ⟨c, b, hc, hresp⟩ := hcause
  have hquiet : Quiet (raise (setMailbox u fn (responded (mailbox u fn) a)) c b) := by
    rw [Quiet, dict_raise, fw_raise]
    exact hq
  rw [hresp, afterResponse_of_quiet hquiet]
  exact replied_raise c b u a hc

/-- A handler's answer that fits stands in the mailbox. -/
theorem serveMailbox_replies {fn : Nat} {kind : List Byte → Bool} {f : Handler} {m : List Byte} {r : Reply}
    (hm : mailboxMessage s fn kind = some m)
    (hf : f s { client := fnClient fn, limit := 4096, frame := 20 } (msgBody m) = (some r, u)) (hl : r.body.length ≤ 4076)
    (hq : Quiet u) : Replied u (serveMailbox s fn kind f) fn (response m 0 r) := by
  have hfit : ¬4096 < (response m 0 r).length := by
    rw [length_response]
    omega
  have hrun : runRequest s { client := fnClient fn, limit := 4096, frame := 20 } f m (response m 0) = (some (response m 0 r), u) := by
    rw [runRequest, hf]
    exact if_neg hfit
  rw [serveMailbox, hm]
  simp only [hrun]
  exact replied_mailboxRespond hq fn _

/-- A handler without an answer leaves the mailbox empty. -/
theorem serveMailbox_discards {fn : Nat} {kind : List Byte → Bool} {f : Handler} {m : List Byte}
    (hm : mailboxMessage s fn kind = some m)
    (hf : f s { client := fnClient fn, limit := 4096, frame := 20 } (msgBody m) = (none, u)) :
    serveMailbox s fn kind f = setMailbox u fn { mailbox u fn with state := 0, len := 0 } := by
  have hrun : runRequest s { client := fnClient fn, limit := 4096, frame := 20 } f m (response m 0) = (none, u) := by
    rw [runRequest, hf]
  rw [serveMailbox, hm]
  simp only [hrun]

/-! ### What reads and failures leave -/

theorem dict_readLeaves (s : State) (c : Client) (k : Nat) : (readLeaves s c k).dict = s.dict := by
  simp only [readLeaves]
  repeat' split
  all_goals rfl

theorem dict_readEntry (s : State) (c : Client) (k : Nat) : (readEntry s c k).2.dict = s.dict := by
  rw [readEntry]
  split
  · rfl
  · split
    · rfl
    · split
      · rfl
      · split
        · rfl
        · exact dict_readLeaves s c k

theorem dict_readBytes (s : State) (c : Client) (k : Nat) : (readBytes s c k).2.dict = s.dict := by
  simp only [readBytes]
  split
  · rfl
  · split
    · rfl
    · exact dict_readEntry s c k

theorem quiet_readBytes (h : Quiet s) (c : Client) (k : Nat) : Quiet (readBytes s c k).2 := by
  have hfw : part .fw (readBytes s c k).2 = part .fw s := part_readBytes s c k
  rw [Quiet, dict_readBytes, show (readBytes s c k).2.fw = s.fw from hfw]
  exact h

theorem quiet_noteFailure (h : Quiet s) (c : Client) (k : Nat) (st : Status) : Quiet (noteFailure s c k st) := by
  cases c <;> exact h

/-! ### Numbers the device chooses (notes/assumptions/7) -/

/-- Of `tries` numbers in a row that are fewer than those of their width, one is not among fewer numbers that are taken. -/
theorem freshNumber_free {w tries : Nat} {taken : Nat → Bool} {l : List Nat} (hw : tries ≤ 2 ^ w) (hl : l.length < tries)
    (ht : ∀ n, taken n = true → n ∈ l) :
    (freshNumber s w tries taken).1 < 2 ^ w ∧ taken (freshNumber s w tries taken).1 = false := by
  have hpos : 0 < 2 ^ w := Nat.two_pow_pos w
  simp only [freshNumber]
  generalize (freeBits s w).1 = a
  have hnodup : ((List.range tries).map (fun i => (a + i) % 2 ^ w)).Nodup := by
    refine (List.nodup_map_iff_inj_on List.nodup_range).2 fun i hi j hj hij => ?_
    rw [List.mem_range] at hi hj
    have hmod : i ≡ j [MOD 2 ^ w] := Nat.ModEq.add_left_cancel' a hij
    exact Nat.ModEq.eq_of_lt_of_lt hmod (by omega) (by omega)
  have hfree : ∃ n ∈ (List.range tries).map (fun i => (a + i) % 2 ^ w), taken n = false := by
    by_contra h
    have hsub : (List.range tries).map (fun i => (a + i) % 2 ^ w) ⊆ l := fun n hn => ht n (by
      by_contra hne
      exact h ⟨n, hn, by simpa using hne⟩)
    have hlen := (hnodup.subperm hsub).length_le
    simp only [List.length_map, List.length_range] at hlen
    omega
  cases hfind : ((List.range tries).map (fun i => (a + i) % 2 ^ w)).find? (fun n => !taken n) with
  | none =>
    obtain ⟨n, hn, hnt⟩ := hfree
    have := List.find?_eq_none.1 hfind n hn
    simp [hnt] at this
  | some n =>
    have hmem := List.mem_of_find?_eq_some hfind
    obtain ⟨i, -, hi⟩ := List.mem_map.1 hmem
    have hn := List.find?_some hfind
    refine ⟨?_, by simpa using hn⟩
    rw [Option.getD_some, ← hi]
    exact Nat.mod_lt _ hpos

/-! ### Bodies (R406–R410, R416) -/

section
variable {x : Ctx} {b : List Byte} {k : Nat}

/-- READ of one item answers its status and value. -/
theorem readBody_one (hn : byteAt b 0 = 1) (hl : b.length = 5) (hk : k = refKey b 1) (hg : k ≠ Reg.synEventGroups)
    (hr : readable s x.client k (fun t => t == .domain || t == .job) = none) :
    readBody s x b = (some ⟨0, [1, 0, byte (((odFind k).map (fun r => r.ty.code)).getD 0)] ++
      beBytes 2 (readBytes s x.client k).1.length ++ (readBytes s x.client k).1⟩, (readBytes s x.client k).2) := by
  have hitem : readItem s x.client k = ([0, byte (((odFind k).map (fun r => r.ty.code)).getD 0)] ++
      beBytes 2 (readBytes s x.client k).1.length ++ (readBytes s x.client k).1, (readBytes s x.client k).2) := by
    have hnone : ¬(k = Reg.synEventGroups ∧ (fnOf x.client).isSome = true) := fun h => hg h.1
    simp only [readItem, hr, if_neg hnone]
  have hlay : ¬(byteAt b 0 = 0 ∨ b.length ≠ 1 + 4 * byteAt b 0) := by omega
  have hfew : ¬64 < byteAt b 0 := by omega
  rw [readBody, if_neg hfew, if_neg hlay, hn]
  change ((some ⟨0, [byte 1] ++ (readItem s x.client (refKey b 1)).1⟩ : Option Reply), (readItem s x.client (refKey b 1)).2) = _
  rw [← hk, hitem]
  rfl

/-- WRITE of one item is its typed write. -/
theorem writeBody_one (hn : byteAt b 0 = 1) (hl : b.length = 7 + beAt b 5 2) (hk : k = refKey b 1) :
    writeBody s x b = match typedWrite s x.client k (b.drop 7) with
      | .done u => (some ⟨0, [1, 0]⟩, u)
      | .fail st => (some ⟨0, [1, byte st.code]⟩, noteFailure s x.client k st) := by
  have hlen : beAt (b.drop 1) 4 2 = beAt b 5 2 := by rw [beAt, slice, List.drop_drop, beAt, slice]
  have hkey : refKey (b.drop 1) 0 = k := by
    rw [hk, refKey, refKey, beAt, beAt, slice, slice, byteAt, byteAt, List.drop_drop, List.drop_drop]
  have hvalue : slice (b.drop 1) 6 (beAt b 5 2) = b.drop 7 := by
    rw [slice, List.drop_drop, List.take_of_length_le (by rw [List.length_drop]; omega)]
  have hrest : (b.drop 1).drop (6 + beAt b 5 2) = [] := by
    rw [List.drop_drop, List.drop_eq_nil_iff]
    omega
  have hitems : writeItems 1 (b.drop 1) = some [(k, b.drop 7)] := by
    have hfit : ¬(b.drop 1).length < 6 + beAt b 5 2 := by
      rw [List.length_drop]
      omega
    rw [writeItems, hlen]
    simp only [if_neg hfit, hrest, writeItems, List.isEmpty_nil, if_true, Option.map_some, hkey, hvalue]
  have hfew : ¬64 < byteAt b 0 := by omega
  rw [writeBody, if_neg hfew, hn, if_neg Nat.one_ne_zero, hitems]
  simp only [List.foldl_cons, List.foldl_nil]
  cases typedWrite s x.client k (b.drop 7) with
  | done u => rfl
  | fail st => rfl

/-- DOMAIN_SEGMENT of a transfer that is written. -/
theorem domainSegmentBody_write {h : Nat} {y : Transfer} (hy : transferOf s x.client h = some y) (hh : h = beAt b 0 2)
    (hw : y.write = true) (hl : b.length = 8 + beAt b 2 2) (ho : beAt b 4 4 = y.pos) (ht : y.pos + beAt b 2 2 ≤ y.total) :
    domainSegmentBody s x b = (some ⟨0, beBytes 2 h ++ beBytes 2 (beAt b 2 2) ++ beBytes 4 y.pos⟩,
      { s with dict.transfers := mput s.dict.transfers h { y with
        buf := y.buf ++ b.drop 8, pos := y.pos + beAt b 2 2, lastAt := s.time } }) := by
  subst hh
  simp [domainSegmentBody, hy, hw, hl, ho, Nat.not_lt.2 ht]

/-- DOMAIN_SEGMENT of a transfer that is read. -/
theorem domainSegmentBody_read {h : Nat} {y : Transfer} (hy : transferOf s x.client h = some y) (hh : h = beAt b 0 2)
    (hw : y.write = false) (hl : b.length = 8) (ho : beAt b 4 4 = y.pos) (hn : beAt b 2 2 ≤ x.limit - x.frame - 8) :
    domainSegmentBody s x b = (some ⟨0, beBytes 2 h ++ beBytes 2 (slice y.buf y.pos (beAt b 2 2)).length ++ beBytes 4 y.pos ++
        slice y.buf y.pos (beAt b 2 2)⟩,
      { s with dict.transfers := mput s.dict.transfers h { y with
        pos := y.pos + (slice y.buf y.pos (beAt b 2 2)).length, lastAt := s.time } }) := by
  subst hh
  simp [domainSegmentBody, hy, hw, hl, ho, Nat.not_lt.2 hn]

/-- DOMAIN_SEGMENT away from the position fails (R406). -/
theorem domainSegmentBody_sequence {h : Nat} {y : Transfer} (hy : transferOf s x.client h = some y) (hh : h = beAt b 0 2)
    (hw : y.write = true → b.length = 8 + beAt b 2 2) (hr : y.write = false → b.length = 8) (ho : beAt b 4 4 ≠ y.pos) :
    domainSegmentBody s x b = failed s x.client y.entry .sequence := by
  subst hh
  have hlay : ((y.write && b.length != 8 + beAt b 2 2) || (!y.write && b.length != 8)) = false := by
    cases hy' : y.write with
    | true => simp [hw hy']
    | false => simp [hr hy']
  have hlong : ¬b.length < 8 := by
    cases hy' : y.write with
    | true => rw [hw hy']; omega
    | false => rw [hr hy']; omega
  simp only [domainSegmentBody, if_neg hlong, hy, hlay, Bool.false_eq_true, if_false, ne_eq, ho, not_false_eq_true, if_true]

/-- DOMAIN_END that drops a transfer. -/
theorem domainEndBody_drops {h : Nat} {y : Transfer} (hy : transferOf s x.client h = some y) (hh : h = beAt b 0 2)
    (hl : b.length = 4) (ha : byteAt b 2 = 1) :
    domainEndBody s x b = (some ⟨0, beBytes 2 h ++ [0, 0]⟩, dropTransfer s h) := by
  subst hh
  simp [domainEndBody, hl, hy, ha]

/-- DOMAIN_END of a whole write is its commit, or its failure. -/
theorem domainEndBody_commits {h : Nat} {y : Transfer} (hy : transferOf s x.client h = some y) (hh : h = beAt b 0 2)
    (hl : b.length = 4) (ha : byteAt b 2 = 0) (hw : y.write = true) (hp : y.pos = y.total)
    (hd : domainChecks (dropTransfer s h) x.client y.entry = none)
    (hc : domainCommit x.client y.entry y.buf (dropTransfer s h) = .done u) :
    domainEndBody s x b = (some ⟨0, beBytes 2 h ++ [0, 0]⟩, u) := by
  subst hh
  simp [domainEndBody, hl, hy, ha, hw, hp, hd, hc]

theorem domainEndBody_short {h : Nat} {y : Transfer} (hy : transferOf s x.client h = some y) (hh : h = beAt b 0 2)
    (hl : b.length = 4) (ha : byteAt b 2 = 0) (hw : y.write = true) (hp : y.pos ≠ y.total) :
    domainEndBody s x b = failed s x.client y.entry .refused := by
  subst hh
  simp [domainEndBody, hl, hy, ha, hw, hp]

/-- A transfer that may begin finds one of sixteen places free (R408). -/
theorem transfers_lt_of_begins {c : Client} {dir total : Nat} (h : beginRefusal s c k dir total = none) :
    s.dict.transfers.length < 16 := by
  simp only [beginRefusal] at h
  by_contra hfull
  have hfull' : 16 ≤ s.dict.transfers.length ∨ (dir = 0 ∧ 33554432 < stagedBytes s + total) := .inl (by omega)
  split at h
  · cases h
  · simp only [if_pos hfull'] at h
    repeat' split at h
    all_goals cases h

/-- The handle of a transfer that begins. -/
def freshHandle (s : State) : Nat := (freshNumber s 16 17 (fun n => (mfind s.dict.transfers n).isSome)).1

theorem freshHandle_free {c : Client} {dir total : Nat} (h : beginRefusal s c k dir total = none) :
    freshHandle s < 2 ^ 16 ∧ mfind s.dict.transfers (freshHandle s) = none := by
  have hfew := transfers_lt_of_begins h
  obtain ⟨hlt, hfree⟩ := freshNumber_free (s := s) (w := 16) (tries := 17) (taken := fun n => (mfind s.dict.transfers n).isSome)
    (l := mkeys s.dict.transfers) (by decide) (by rw [mkeys, List.length_map]; omega)
    fun n hn => by
      obtain ⟨v, hv⟩ := Option.isSome_iff_exists.1 hn
      exact mem_mkeys_of_mfind hv
  exact ⟨hlt, by rw [freshHandle]; simpa using hfree⟩

/-- The transfer that a client begins. -/
def begunTransfer (s : State) (c : Client) (k dir total : Nat) : Transfer :=
  { client := c, entry := k, write := dir == 0, total := if dir = 1 then (if dir = 1 then domainValue s k else []).length else total,
    buf := if dir = 1 then domainValue s k else [], lastAt := s.time }

/-- The state once it has begun. -/
def transferBegun (s : State) (y : Transfer) : State :=
  { s with freeCtr := s.freeCtr + 1, dict.transfers := mput s.dict.transfers (freshHandle s) y }

theorem domainBeginBody_begins (hl : b.length = 12)
    (hr : beginRefusal s x.client (refKey b 0) (byteAt b 4) (beAt b 8 4) = none) :
    domainBeginBody s x b = (some ⟨0, beBytes 2 (freshHandle s) ++ [0, 0] ++
        beBytes 4 (if byteAt b 4 = 1 then (begunTransfer s x.client (refKey b 0) (byteAt b 4) (beAt b 8 4)).total else 0) ++
        beBytes 2 (x.limit - x.frame - 8)⟩,
      transferBegun s (begunTransfer s x.client (refKey b 0) (byteAt b 4) (beAt b 8 4))) := by
  rw [domainBeginBody, if_neg (not_not_intro hl)]
  simp only [hr]
  rfl

theorem domainBeginBody_refused {st : Status} (hl : b.length = 12)
    (hr : beginRefusal s x.client (refKey b 0) (byteAt b 4) (beAt b 8 4) = some st) :
    domainBeginBody s x b = failed s x.client (refKey b 0) st := by
  rw [domainBeginBody, if_neg (not_not_intro hl)]
  simp only [hr]

end

end Sys2Proof.Machine
end

section
/-! SAFETY. Mailbox messages and what they answer (R405–R410, R416, R423). -/

namespace Sys2Proof
open Machine

section
variable {s : State} {fn : Nat} {c : Client} {m b : List Byte}

/-- A message of a type is served by the handler of its type. -/
theorem mailbox_answers {ty : Nat} {f : Handler} {r : Reply} {u : State} (hm : Asked s fn ty m)
    (hf : f s { client := fnClient fn, limit := 4096, frame := 20 } (msgBody m) = (some r, u)) (hl : r.body.length ≤ 4076) (hq : Quiet u) :
    Replied u (serveBody s (.mailbox fn) ty f) fn (response m 0 r) := serveMailbox_replies hm hf hl hq

theorem read_replies (hq : Quiet s) (hm : Asked s fn 1 m) (hb : b = msgBody m) {k : Nat} (hn : byteAt b 0 = 1) (hl : b.length = 5)
    (hk : k = refKey b 1) (hg : k ≠ Reg.synEventGroups)
    (hr : readable s (fnClient fn) k (fun t => t == .domain || t == .job) = none)
    (hlen : (readBytes s (fnClient fn) k).1.length ≤ 4000) :
    ∃ t, Answers (.synsaRead (.mailbox fn)) s t ∧ Replied (readBytes s (fnClient fn) k).2 t fn (response m 0 ⟨0,
      [1, 0, byte (((odFind k).map (fun r => r.ty.code)).getD 0)] ++ beBytes 2 (readBytes s (fnClient fn) k).1.length ++
        (readBytes s (fnClient fn) k).1⟩) := by
  subst hb
  refine ⟨_, rfl, mailbox_answers hm (readBody_one hn hl hk hg hr) ?_ (quiet_readBytes hq _ k)⟩
  simp only [List.length_append, List.length_cons, List.length_nil, length_beBytes]
  omega

theorem write_replies (hq : Quiet s) (hm : Asked s fn 2 m) (hb : b = msgBody m) {k : Nat} (hn : byteAt b 0 = 1)
    (hl : b.length = 7 + beAt b 5 2) (hk : k = refKey b 1) :
    (∀ u, typedWrite s (fnClient fn) k (b.drop 7) = .done u → Quiet u →
      ∃ t, Answers (.synsaWrite (.mailbox fn)) s t ∧ Replied u t fn (response m 0 ⟨0, [1, 0]⟩)) ∧
    (∀ st, typedWrite s (fnClient fn) k (b.drop 7) = .fail st → ∃ t, Answers (.synsaWrite (.mailbox fn)) s t ∧
      Replied (noteFailure s (fnClient fn) k st) t fn (response m 0 ⟨0, [1, byte st.code]⟩)) := by
  subst hb
  have hbody := writeBody_one (s := s) (x := { client := fnClient fn, limit := 4096, frame := 20 }) hn hl hk
  refine ⟨fun u hu hqu => ⟨_, rfl, mailbox_answers hm (hbody.trans (by rw [hu])) (by simp) hqu⟩,
    fun st hst => ⟨_, rfl, mailbox_answers hm (hbody.trans (by rw [hst])) (by simp) (quiet_noteFailure hq _ _ _)⟩⟩

theorem failure_replies (hq : Quiet s) {ty : Nat} {f : Handler} {k : Nat} {st : Status} (hm : Asked s fn ty m)
    (hf : f s { client := fnClient fn, limit := 4096, frame := 20 } (msgBody m) = failed s (fnClient fn) k st) :
    Replied (noteFailure s (fnClient fn) k st) (serveBody s (.mailbox fn) ty f) fn (response m 0 ⟨st.code, []⟩) :=
  mailbox_answers hm hf (Nat.zero_le _) (quiet_noteFailure hq _ _ _)

theorem begin_replies (hq : Quiet s) (hm : Asked s fn 3 m) (hb : b = msgBody m) {k : Nat} (hl : b.length = 12) (hk : k = refKey b 0) :
    (beginRefusal s (fnClient fn) k (byteAt b 4) (beAt b 8 4) = none →
      ∃ g u t, Answers (.domainBegin (.mailbox fn)) s t ∧ g < 2 ^ 16 ∧ mfind s.dict.transfers g = none ∧
        (byteAt b 4 = 0 → mfind u.dict.transfers g = some {
          client := fnClient fn, entry := k, write := true, total := beAt b 8 4, lastAt := s.time }) ∧
        (byteAt b 4 = 1 → mfind u.dict.transfers g = some {
          client := fnClient fn, entry := k, write := false, total := (domainValue s k).length, buf := domainValue s k, lastAt := s.time }) ∧
        u = { s with freeCtr := u.freeCtr, dict.transfers := u.dict.transfers } ∧
        Replied u t fn (response m 0 ⟨0, beBytes 2 g ++ [0, 0] ++
          beBytes 4 (if byteAt b 4 = 1 then (domainValue s k).length else 0) ++ beBytes 2 4068⟩)) ∧
    (∀ st, beginRefusal s (fnClient fn) k (byteAt b 4) (beAt b 8 4) = some st → ∃ t, Answers (.domainBegin (.mailbox fn)) s t ∧
      Replied (noteFailure s (fnClient fn) k st) t fn (response m 0 ⟨st.code, []⟩)) := by
  subst hb hk
  refine ⟨fun hr => ?_, fun st hr => ⟨_, rfl, failure_replies hq hm (domainBeginBody_refused hl hr)⟩⟩
  obtain ⟨hlt, hfree⟩ := freshHandle_free hr
  generalize hy : begunTransfer s (fnClient fn) (refKey (msgBody m) 0) (byteAt (msgBody m) 4) (beAt (msgBody m) 8 4) = y
  have hfound : mfind (transferBegun s y).dict.transfers (freshHandle s) = some y := mfind_mput_self _ _ _
  have hlong : (if byteAt (msgBody m) 4 = 1 then y.total else 0) =
      if byteAt (msgBody m) 4 = 1 then (domainValue s (refKey (msgBody m) 0)).length else 0 := by
    split
    · rename_i h
      simp only [← hy, begunTransfer, h, if_true]
    · rfl
  have hbody := domainBeginBody_begins (s := s) (x := { client := fnClient fn, limit := 4096, frame := 20 }) hl hr
  simp only [hy] at hbody
  rw [hlong] at hbody
  refine ⟨freshHandle s, transferBegun s y, _, rfl, hlt, hfree, fun h0 => ?_, fun h1 => ?_, rfl, mailbox_answers hm hbody ?_ hq⟩
  · rw [hfound, ← hy]
    simp only [begunTransfer, h0]
    rfl
  · rw [hfound, ← hy]
    simp only [begunTransfer, h1]
    rfl
  · simp only [List.length_append, List.length_cons, List.length_nil, length_beBytes]
    omega

theorem segment_replies (hq : Quiet s) (hb : b = msgBody m) {h : Nat} {x : Transfer} (hx : transferOf s (fnClient fn) h = some x)
    (hh : h = beAt b 0 2) (hm : Asked s fn 4 m) :
    (x.write = true → b.length = 8 + beAt b 2 2 → beAt b 4 4 = x.pos → x.pos + beAt b 2 2 ≤ x.total →
      ∃ t, Answers (.domainSegment (.mailbox fn)) s t ∧ Replied { s with dict.transfers := mput s.dict.transfers h { x with
        buf := x.buf ++ b.drop 8, pos := x.pos + beAt b 2 2, lastAt := s.time } } t fn
        (response m 0 ⟨0, beBytes 2 h ++ beBytes 2 (beAt b 2 2) ++ beBytes 4 x.pos⟩)) ∧
    (x.write = false → b.length = 8 → beAt b 4 4 = x.pos → beAt b 2 2 ≤ 4068 → ∀ d, d = slice x.buf x.pos (beAt b 2 2) →
      ∃ t, Answers (.domainSegment (.mailbox fn)) s t ∧
        Replied { s with dict.transfers := mput s.dict.transfers h { x with pos := x.pos + d.length, lastAt := s.time } } t fn
          (response m 0 ⟨0, beBytes 2 h ++ beBytes 2 d.length ++ beBytes 4 x.pos ++ d⟩)) ∧
    ((x.write = true → b.length = 8 + beAt b 2 2) → (x.write = false → b.length = 8) → beAt b 4 4 ≠ x.pos →
      ∃ t, Answers (.domainSegment (.mailbox fn)) s t ∧
        Replied (noteFailure s (fnClient fn) x.entry .sequence) t fn (response m 0 ⟨9, []⟩)) := by
  subst hb
  refine ⟨fun hw hl ho ht => ⟨_, rfl, mailbox_answers hm (domainSegmentBody_write hx hh hw hl ho ht) ?_ hq⟩,
    fun hw hl ho hn d hd => ?_, fun hw hl ho => ⟨_, rfl, failure_replies hq hm (domainSegmentBody_sequence hx hh hw hl ho)⟩⟩
  · simp only [List.length_append, length_beBytes]
    omega
  · subst hd
    refine ⟨_, rfl, mailbox_answers hm (domainSegmentBody_read hx hh hw hl ho hn) ?_ hq⟩
    have hfew : (slice x.buf x.pos (beAt (msgBody m) 2 2)).length ≤ beAt (msgBody m) 2 2 := by
      rw [slice]
      exact List.length_take_le _ _
    simp only [List.length_append, length_beBytes]
    omega

theorem end_replies (hq : Quiet s) (hb : b = msgBody m) {h : Nat} {x : Transfer} (hx : transferOf s (fnClient fn) h = some x)
    (hh : h = beAt b 0 2) (hm : Asked s fn 5 m) (hl : b.length = 4) :
    (byteAt b 2 = 1 → ∃ t, Answers (.domainEnd (.mailbox fn)) s t ∧
      Replied (dropTransfer s h) t fn (response m 0 ⟨0, beBytes 2 h ++ [0, 0]⟩)) ∧
    (byteAt b 2 = 0 → x.write = true → x.pos = x.total → domainChecks (dropTransfer s h) (fnClient fn) x.entry = none →
      ∀ u, domainCommit (fnClient fn) x.entry x.buf (dropTransfer s h) = .done u → Quiet u → ∃ t,
        Answers (.domainEnd (.mailbox fn)) s t ∧ Replied u t fn (response m 0 ⟨0, beBytes 2 h ++ [0, 0]⟩)) ∧
    (byteAt b 2 = 0 → x.write = true → x.pos ≠ x.total → ∃ t, Answers (.domainEnd (.mailbox fn)) s t ∧
      Replied (noteFailure s (fnClient fn) x.entry .refused) t fn (response m 0 ⟨1, []⟩)) := by
  subst hb
  have hfit : (beBytes 2 h ++ ([0, 0] : List Byte)).length ≤ 4076 := by simp
  exact ⟨fun ha => ⟨_, rfl, mailbox_answers hm (domainEndBody_drops hx hh hl ha) hfit hq⟩,
    fun ha hw hp hd u hc hqu => ⟨_, rfl, mailbox_answers hm (domainEndBody_commits hx hh hl ha hw hp hd hc) hfit hqu⟩,
    fun ha hw hp => ⟨_, rfl, failure_replies hq hm (domainEndBody_short hx hh hl ha hw hp)⟩⟩

theorem job_replies (hq : Quiet s) (hb : b = msgBody m) {k : Nat} (hk : k = refKey b 0) :
    (Asked s fn 6 m → b.length = 4 → ∀ u, jobStart s (fnClient fn) k (jobRule k) = .done u → Quiet u →
      ∃ t, Answers (.jobStart (.mailbox fn)) s t ∧ Replied u t fn (response m 0 ⟨0, beBytes 8 (job u k).word⟩)) ∧
    (Asked s fn 7 m → b.length = 8 → readable s (fnClient fn) k (fun t => t != .job) = none →
      (byteAt b 4 = 0 → ∃ t, Answers (.jobStatus (.mailbox fn)) s t ∧
        Replied s t fn (response m 0 ⟨0, beBytes 8 (job s k).word⟩)) ∧
      (byteAt b 4 = 1 → ((odFind k).map (·.wr)).getD 3 ≤ levelOf s (fnClient fn) → jobRunning s k = true → k ≠ Reg.clsEpochSwap →
        ∀ u, u = setJob s k { job s k with cancel := true } → ∃ t, Answers (.jobStatus (.mailbox fn)) s t ∧
          Replied u t fn (response m 0 ⟨0, beBytes 8 (job u k).word⟩))) := by
  subst hb hk
  have hfit : ∀ v, (beBytes 8 v).length ≤ 4076 := fun v => by simp
  refine ⟨fun hm hl u hu hqu => ⟨_, rfl, mailbox_answers hm ?_ (hfit _) hqu⟩, fun hm hl hr => ⟨fun ha => ⟨_, rfl, mailbox_answers hm ?_ (hfit _) hq⟩,
    fun ha hlev hrun hk u hu => ⟨_, rfl, mailbox_answers (u := u) hm ?_ (hfit _) ?_⟩⟩⟩
  · simp only [jobStartBody, hl, hu, ne_eq, not_true_eq_false, if_false]
  · simp only [jobStatusBody, hl, hr, ha, ne_eq, not_true_eq_false, if_false, if_true]
  · subst hu
    simp only [jobStatusBody, hl, hr, ha, hrun, ne_eq, not_true_eq_false, if_false, Nat.one_ne_zero, Nat.lt_irrefl, Nat.not_lt.2 hlev,
      Bool.not_true, Bool.false_eq_true, hk]
  · subst hu
    exact hq

theorem probe_replies (hq : Quiet s) (hm : mailboxMessage s fn (discoverOp 1) = some m) :
    (flag s Reg.synDiscoverOpen = true → ∃ t, Answers (.discoverProbe (.mailbox fn)) s t ∧
      Replied s t fn (response m 0 ⟨0, identityBody s 1 0xFF⟩)) ∧
    (flag s Reg.synDiscoverOpen = false → Answers (.discoverProbe (.mailbox fn)) s
      (setMailbox s fn { mailbox s fn with state := 0, len := 0 })) := by
  refine ⟨fun ho => ⟨_, rfl, serveMailbox_replies hm (r := ⟨0, identityBody s 1 0xFF⟩) ?_ ?_ hq⟩, fun ho => ?_⟩
  · simp only [probeBody, ho, if_true]
  · rw [length_identityBody]
    decide
  · refine congrArg Host.Outcome.next (serveMailbox_discards hm ?_)
    simp only [probeBody, ho, Bool.false_eq_true, if_false]

end

/-- Settles O42: a message in a mailbox is answered by the handler of its type. -/
theorem mailboxMessages : Obligations.MailboxMessages := by
  intro s fn c m b h k _ hq hc hb
  subst hc
  refine ⟨fun hm hn hl hk hg hr x hx hlen => ?_, fun hm hn hl hk => write_replies hq hm hb hn hl hk,
    fun hm hl hk => begin_replies hq hm hb hl hk, fun x hx hh => ⟨fun hm => (segment_replies hq hb hx hh hm).1,
      fun hm => (segment_replies hq hb hx hh hm).2.1, fun hm => (segment_replies hq hb hx hh hm).2.2,
      fun hm hl => (end_replies hq hb hx hh hm hl).1, fun hm hl => (end_replies hq hb hx hh hm hl).2.1,
      fun hm hl => (end_replies hq hb hx hh hm hl).2.2⟩,
    fun hm hl hk => (job_replies hq hb hk).1 hm hl, fun hm hl hk => (job_replies hq hb hk).2 hm hl, probe_replies hq⟩
  subst hx
  exact read_replies hq hm hb hn hl hk hg hr hlen

end Sys2Proof
end

section
/-! SUPPORT. Sessions (R418–R421, R423): numbers that are free, what a read and an answer leave, and messages that go out. -/

namespace Sys2Proof.Machine

variable {s t u : State}

/-! ### Sequence numbers (R420) -/

theorem acceptSeq_none_iff (high window n : Nat) :
    acceptSeq high window n = none ↔ n ≤ high ∧ (n + 64 ≤ high ∨ bit window (high - n) = true) := by
  rw [acceptSeq]
  by_cases hn : high < n
  · rw [if_pos hn]
    exact ⟨(nomatch ·), fun h => absurd h.1 (Nat.not_le.2 hn)⟩
  · rw [if_neg hn]
    by_cases hw : high < n + 64 ∧ (!bit window (high - n)) = true
    · rw [if_pos hw]
      obtain ⟨hlt, hbit⟩ := hw
      refine ⟨(nomatch ·), fun ⟨_, h⟩ => ?_⟩
      rcases h with h | h
      · omega
      · rw [h] at hbit
        cases hbit
    · rw [if_neg hw]
      refine ⟨fun _ => ⟨Nat.not_lt.1 hn, ?_⟩, fun _ => rfl⟩
      by_cases hlt : high < n + 64
      · right
        by_contra hbit
        exact hw ⟨hlt, by simpa using hbit⟩
      · exact .inl (Nat.not_lt.1 hlt)

/-! ### Messages that go out -/

/-- A message that goes out changes a bundle's channel or what was sent. -/
theorem sendAt_frame (s : State) (place : Nat) (peer m : List Byte) : ∃ f l, sendAt s place peer m = { s with fl := f, sent := l } := by
  rw [sendAt]
  split
  · rw [channelSend]
    split
    · exact ⟨_, _, rfl⟩
    · exact ⟨_, _, rfl⟩
  · exact ⟨_, _, rfl⟩

theorem answerAt_frame (r : Option (List Byte) × State) (place : Nat) (peer : List Byte) :
    ∃ f l, answerAt r place peer = { r.2 with fl := f, sent := l } := by
  rw [answerAt]
  split
  · exact sendAt_frame _ _ _ _
  · exact ⟨_, _, rfl⟩

theorem reg_answerAt (r : Option (List Byte) × State) (place : Nat) (peer : List Byte) (k : Nat) :
    reg (answerAt r place peer) k = reg r.2 k := by
  obtain ⟨f, l, h⟩ := answerAt_frame r place peer
  rw [h]
  rfl

theorem dict_answerAt (r : Option (List Byte) × State) (place : Nat) (peer : List Byte) : (answerAt r place peer).dict = r.2.dict := by
  obtain ⟨f, l, h⟩ := answerAt_frame r place peer
  rw [h]

theorem fw_answerAt (r : Option (List Byte) × State) (place : Nat) (peer : List Byte) : (answerAt r place peer).fw = r.2.fw := by
  obtain ⟨f, l, h⟩ := answerAt_frame r place peer
  rw [h]

theorem quiet_answerAt {r : Option (List Byte) × State} (h : Quiet r.2) (place : Nat) (peer : List Byte) :
    Quiet (answerAt r place peer) := by
  rw [Quiet, dict_answerAt, fw_answerAt]
  exact h

/-- A message taken outside the mailbox is served in its session. -/
theorem serveBody_taken {via : Via} {ty place : Nat} {f : Handler} {peer m : List Byte}
    (h : takeMessage s via (fun m => msgType m == ty && !msgIsResponse m) = some (place, peer, m, u)) (hp : placeOn u place = true) :
    serveBody s via ty f = afterResponse (answerAt (serveSession u place peer (placeLimit place) f m) place peer) := by
  cases via with
  | mailbox fn => cases h
  | udp oob dst dport from_ whole b => simp only [serveBody, h, hp, if_true]
  | channel b => simp only [serveBody, h, hp, if_true]

/-! ### Requests in a session (R419, R420) -/

/-- A read changes neither the engine of the dictionary nor the firmware. -/
structure Reads (s t : State) : Prop where
  dict : t.dict = s.dict
  fw : t.fw = s.fw

theorem reads_noteFailure (s : State) (c : Client) (k : Nat) (st : Status) : Reads s (noteFailure s c k st) := by
  cases c <;> exact ⟨rfl, rfl⟩

theorem reads_readItem (s : State) (c : Client) (k : Nat) : Reads s (readItem s c k).2 := by
  simp only [readItem]
  split
  · exact reads_noteFailure s c k _
  · have hfw : part .fw (readBytes s c k).2 = part .fw s := part_readBytes s c k
    exact ⟨dict_readBytes s c k, hfw⟩

theorem readBody_reads (s : State) (x : Ctx) (b : List Byte) : ∃ r v, readBody s x b = (some r, v) ∧ Reads s v := by
  simp only [readBody]
  split
  · exact ⟨_, s, rfl, ⟨rfl, rfl⟩⟩
  · split
    · exact ⟨_, s, rfl, ⟨rfl, rfl⟩⟩
    · refine ⟨_, _, rfl, ?_⟩
      refine List.foldlRecOn _ _ (motive := fun r : List Byte × State => Reads s r.2) ⟨rfl, rfl⟩ fun r hr i _ => ?_
      have hitem := reads_readItem r.2 x.client (refKey b (1 + 4 * i))
      exact ⟨hitem.dict.trans hr.dict, hitem.fw.trans hr.fw⟩

theorem runRequest_reads (s : State) (x : Ctx) (m : List Byte) (mk : Reply → List Byte) :
    ∃ out v, runRequest s x readBody m mk = (some out, v) ∧ Reads s v := by
  obtain ⟨r, v, hbody, hreads⟩ := readBody_reads s x (msgBody m)
  simp only [runRequest, hbody]
  split
  · exact ⟨_, s, rfl, ⟨rfl, rfl⟩⟩
  · exact ⟨_, v, rfl, hreads⟩

theorem fw_cacheResponse (s : State) (id seq : Nat) (r : List Byte) : (cacheResponse s id seq r).fw = s.fw := by
  rw [cacheResponse]
  split <;> rfl

theorem closeDue_cacheResponse (s : State) (id seq : Nat) (r : List Byte) :
    (cacheResponse s id seq r).dict.closeDue = s.dict.closeDue := by
  rw [cacheResponse]
  split <;> rfl

theorem cacheResponse_keeps {id : Nat} {x : Session} (h : mfind s.dict.sessions id = some x) (seq : Nat) (r : List Byte) :
    mfind (cacheResponse s id seq r).dict.sessions id = some { x with cache := ((seq, r) :: x.cache).take 8 } := by
  rw [cacheResponse, h]
  exact mfind_mput_self _ _ _

theorem cacheResponse_of_none {id : Nat} (h : mfind s.dict.sessions id = none) (seq : Nat) (r : List Byte) :
    cacheResponse s id seq r = s := by
  rw [cacheResponse, h]

/-- The session with a sequence number taken. -/
def seqTaken (s : State) (id : Nat) (x : Session) (w : Nat × Nat) : State :=
  { s with dict.sessions := mput s.dict.sessions id { x with high := w.1, window := w.2, lastAt := s.time } }

/-- Who asks in a session. -/
def sessionCtx (place : Nat) (peer : List Byte) (limit : Nat) (m : List Byte) : Ctx :=
  { client := .session (msgSession m), limit := limit, frame := 36, session := msgSession m, seq := msgSeq m, place := place, peer := peer }

/-- The response of a session, with its tag. -/
def sessionResponse (x : Session) (m : List Byte) (a : Reply) : List Byte := tagged x.key (response m (msgSession m) a)

section
variable {place limit : Nat} {peer m : List Byte} {f : Handler} {x : Session}

/-- A request under its tag with a number not seen before is run, and its answer kept. -/
theorem serveSession_runs {w : Nat × Nat} {out : List Byte} {v : State} (hk : flag s Reg.synKeySet = true)
    (hx : mfind s.dict.sessions (msgSession m) = some x) (ht : tagHolds x.key m = true) (hn : msgSeq m ≠ 0)
    (hw : acceptSeq x.high x.window (msgSeq m) = some w)
    (hrun : runRequest (seqTaken s (msgSession m) x w) (sessionCtx place peer limit m) f m (sessionResponse x m) = (some out, v)) :
    serveSession s place peer limit f m = (some out, cacheResponse v (msgSession m) (msgSeq m) out) := by
  simp only [serveSession, hk, if_true, hx, ht, Bool.not_true, Bool.false_eq_true, if_false, if_neg hn, hw]
  delta seqTaken sessionCtx sessionResponse at hrun
  dsimp only at hrun
  rw [hrun]

/-- A replay is counted (R420). -/
theorem serveSession_replay (hk : flag s Reg.synKeySet = true) (hx : mfind s.dict.sessions (msgSession m) = some x)
    (ht : tagHolds x.key m = true) (hn : msgSeq m ≠ 0) (hw : acceptSeq x.high x.window (msgSeq m) = none)
    (hc : x.cache.find? (fun e => e.1 == msgSeq m) = none) : serveSession s place peer limit f m = (none, replayed s) := by
  simp only [serveSession, hk, if_true, hx, ht, Bool.not_true, Bool.false_eq_true, if_false, if_neg hn, hw, hc]

/-- A failed tag is counted (R420). -/
theorem serveSession_unauthentic (hk : flag s Reg.synKeySet = true) (hx : mfind s.dict.sessions (msgSession m) = some x)
    (ht : tagHolds x.key m = false) : serveSession s place peer limit f m = (none, authFailed s) := by
  simp only [serveSession, hk, if_true, hx, ht, Bool.not_false]

end

theorem quiet_raise_count (h : Quiet s) (k : Nat) (c : CauseReg) (b : Nat) : Quiet (raise (count1 s k) c b) := by
  rw [Quiet, dict_raise, fw_raise]
  exact h

/-- A count under a cause of the dictionary. -/
theorem counted_raise (s : State) {k : Nat} (hs : sideEntry k = false) (hk : k ≠ Reg.odCause) (b : Nat) :
    reg (raise (count1 s k) .od b) k = (reg s k + 1) % 2 ^ 64 ∧ bit (reg (raise (count1 s k) .od b) Reg.odCause) b = true :=
  ⟨(reg_raise_of_ne _ .od b hs hk).trans (reg_setReg_self _ _ _), bit_raise_self _ .od b (by decide)⟩

/-! ### Sessions open and close (R418, R419) -/

/-- The number of a session that opens. -/
def freshSession (s : State) : Nat × State :=
  freshNumber s 32 35 (fun n => n == 0 || n == 2 ^ 32 - 1 || (mfind s.dict.sessions n).isSome)

theorem freshSession_free (h : s.dict.sessions.length < 32) :
    (freshSession s).1 ≠ 0 ∧ (freshSession s).1 < 2 ^ 32 - 1 ∧ mfind s.dict.sessions (freshSession s).1 = none := by
  obtain ⟨hlt, hfree⟩ := freshNumber_free (s := s) (w := 32) (tries := 35)
    (taken := fun n => n == 0 || n == 2 ^ 32 - 1 || (mfind s.dict.sessions n).isSome) (l := 0 :: (2 ^ 32 - 1) :: mkeys s.dict.sessions)
    (by norm_num) (by rw [List.length_cons, List.length_cons, mkeys, List.length_map]; omega) fun n hn => by
      rw [Bool.or_eq_true, Bool.or_eq_true, beq_iff_eq, beq_iff_eq] at hn
      rcases hn with (rfl | rfl) | hn
      · exact List.mem_cons_self
      · exact List.mem_cons_of_mem _ List.mem_cons_self
      · obtain ⟨v, hv⟩ := Option.isSome_iff_exists.1 hn
        exact List.mem_cons_of_mem _ (List.mem_cons_of_mem _ (mem_mkeys_of_mfind hv))
  rw [← freshSession] at hlt hfree
  rw [Bool.or_eq_false_iff, Bool.or_eq_false_iff, beq_eq_false_iff_ne, beq_eq_false_iff_ne] at hfree
  obtain ⟨⟨hzero, htop⟩, hnone⟩ := hfree
  exact ⟨hzero, by omega, by simpa using hnone⟩

/-- The nonce of the device. -/
def deviceNonce (s : State) : List Byte := beBytes 16 (freeBits (freshSession s).2 128).1

/-- The session that an open makes (R418). -/
def openedSession (s : State) (place : Nat) (peer m : List Byte) : Session :=
  { level := byteAt (msgBody m) 1, transport := place, peer := peer, label := slice (msgBody m) 20 16,
    key := sessionKey (levelKey s (byteAt (msgBody m) 1)) (slice (msgBody m) 4 16 ++ deviceNonce s) (freshSession s).1, lastAt := s.time }

theorem serveOpen_opens {place : Nat} {peer m : List Byte} (hk : flag s Reg.synKeySet = true) (hv : byteAt (msgBody m) 1 ≤ 3)
    (hl : (msgBody m).length = 36) (ht : tagHolds (levelKey s (byteAt (msgBody m) 1)) m = true) (hid : msgSession m = 0)
    (hn : msgSeq m ≠ 0) (hfew : s.dict.sessions.length < 32) :
    (serveOpen s place peer m).2.dict.sessions = mput s.dict.sessions (freshSession s).1 (openedSession s place peer m) := by
  have hauth : (decide (3 < byteAt (msgBody m) 1) || (msgBody m).length != 36 || !tagHolds (levelKey s (byteAt (msgBody m) 1)) m) = false := by
    simp [Nat.not_lt.2 hv, hl, ht]
  have hfirst : ¬(msgSession m ≠ 0 ∨ msgSeq m = 0) := by
    rintro (h | h)
    · exact h hid
    · exact hn h
  simp only [serveOpen, hk, hauth, Bool.not_true, Bool.false_eq_true, if_false, if_neg hfirst, if_neg (Nat.not_le.2 hfew)]
  rfl

theorem sessions_sessionGone (s : State) (id : Nat) : mfind (sessionGone s id).dict.sessions id = none := mfind_mdel_self _ _

/-- A close is answered, and the session is gone. -/
theorem runRequest_closes {x : Ctx} {m : List Byte} {y : Session} (hlim : 1400 ≤ x.limit) :
    ∃ out, runRequest s x closeBody m (sessionResponse y m) = (some out, sessionGone s x.session) := by
  have hfit : ¬x.limit < (sessionResponse y m ⟨0, []⟩).length := by
    have htag : (tagOf y.key (response m (msgSession m) ⟨0, []⟩)).length ≤ 16 := List.length_take_le _ _
    rw [sessionResponse, tagged, List.length_append, length_response, List.length_nil]
    omega
  exact ⟨_, if_neg hfit⟩

theorem placeLimit_le (place : Nat) : 1400 ≤ placeLimit place := by
  rw [placeLimit]
  split <;> omega

end Sys2Proof.Machine
end

section
/-! SAFETY. Sessions open, serve in sequence, and end (R408, R418–R421, R423). -/

namespace Sys2Proof
open Machine

section
variable {s u : State} {via : Via} {place : Nat} {peer m : List Byte}

theorem session_opens (h : takeMessage s via (discoverOp 2) = some (place, peer, m, u)) (hp : placeOn u place = true)
    (hk : flag u Reg.synKeySet = true) (hv : byteAt (msgBody m) 1 ≤ 3) (hl : (msgBody m).length = 36)
    (ht : tagHolds (levelKey u (byteAt (msgBody m) 1)) m = true) (hid : msgSession m = 0) (hn : msgSeq m ≠ 0)
    (hfew : u.dict.sessions.length < 32) : ∃ t i x nd, Answers (.sessionOpen via) s t ∧ i ≠ 0 ∧ i < 2 ^ 32 - 1 ∧
      mfind u.dict.sessions i = none ∧ mfind t.dict.sessions i = some x ∧ x.level = byteAt (msgBody m) 1 ∧ x.transport = place ∧
      x.peer = peer ∧ nd.length = 16 ∧
      x.key = sessionKey (levelKey u (byteAt (msgBody m) 1)) (slice (msgBody m) 4 16 ++ nd) i ∧ x.high = 0 ∧ x.lastAt = u.time := by
  obtain ⟨hzero, htop, hnone⟩ := freshSession_free hfew
  have hexec : execSessionOpen via s = .next (answerAt (serveOpen u place peer m) place peer) := by
    simp only [execSessionOpen, h, hp, if_true]
  refine ⟨_, (freshSession u).1, openedSession u place peer m, deviceNonce u, hexec, hzero, htop, hnone, ?_, rfl, rfl, rfl,
    length_beBytes 16 _, rfl, rfl, rfl⟩
  rw [dict_answerAt, serveOpen_opens hk hv hl ht hid hn hfew]
  exact mfind_mput_self _ _ _

theorem session_reads {x : Session} (h : takeMessage s via (fun m => msgType m == 1 && !msgIsResponse m) = some (place, peer, m, u))
    (hp : placeOn u place = true) (hq : Quiet u) (hk : flag u Reg.synKeySet = true)
    (hx : mfind u.dict.sessions (msgSession m) = some x) :
    (tagHolds x.key m = true → msgSeq m ≠ 0 → ∀ w, acceptSeq x.high x.window (msgSeq m) = some w → ∃ t y,
      Answers (.synsaRead via) s t ∧ mfind t.dict.sessions (msgSession m) = some y ∧ y.high = w.1 ∧ y.window = w.2 ∧
      y.lastAt = u.time ∧ y.key = x.key ∧ y.level = x.level) ∧
    (tagHolds x.key m = true → msgSeq m ≠ 0 → acceptSeq x.high x.window (msgSeq m) = none →
      x.cache.find? (fun e => e.1 == msgSeq m) = none → ∃ t, Answers (.synsaRead via) s t ∧
        reg t Reg.synReplays = (reg u Reg.synReplays + 1) % 2 ^ 64 ∧ bit (reg t Reg.odCause) 2 = true) ∧
    (tagHolds x.key m = false → ∃ t, Answers (.synsaRead via) s t ∧
      reg t Reg.synAuthFailures = (reg u Reg.synAuthFailures + 1) % 2 ^ 64 ∧ bit (reg t Reg.odCause) 1 = true) := by
  have hexec : Answers (.synsaRead via) s (afterResponse (answerAt (serveSession u place peer (placeLimit place) readBody m) place peer)) :=
    congrArg Host.Outcome.next (serveBody_taken h hp)
  refine ⟨fun ht hn w hw => ?_, fun ht hn hw hc => ⟨_, hexec, ?_⟩, fun ht => ⟨_, hexec, ?_⟩⟩
  · obtain ⟨out, v, hrun, hreads⟩ := runRequest_reads (seqTaken u (msgSession m) x w) (sessionCtx place peer (placeLimit place) m) m
      (sessionResponse x m)
    have hserve := serveSession_runs hk hx ht hn hw hrun
    have hquiet : Quiet (serveSession u place peer (placeLimit place) readBody m).2 := by
      rw [hserve, Quiet, closeDue_cacheResponse, fw_cacheResponse, hreads.dict, hreads.fw]
      exact hq
    have hfound : mfind v.dict.sessions (msgSession m) = some { x with high := w.1, window := w.2, lastAt := u.time } := by
      rw [hreads.dict]
      exact mfind_mput_self _ _ _
    generalize serveSession u place peer (placeLimit place) readBody m = r at hexec hserve hquiet
    refine ⟨_, { x with high := w.1, window := w.2, lastAt := u.time, cache := ((msgSeq m, out) :: x.cache).take 8 }, hexec, ?_, rfl, rfl,
      rfl, rfl, rfl⟩
    rw [afterResponse_of_quiet (quiet_answerAt hquiet place peer), dict_answerAt, hserve]
    exact cacheResponse_keeps hfound _ _
  · have hserve := serveSession_replay (place := place) (peer := peer) (limit := placeLimit place) (f := readBody) hk hx ht hn hw hc
    have hquiet : Quiet (replayed u) := quiet_raise_count hq _ _ _
    rw [hserve, afterResponse_of_quiet (quiet_answerAt hquiet place peer), reg_answerAt, reg_answerAt]
    exact counted_raise u (by decide) (by decide) 2
  · have hserve := serveSession_unauthentic (place := place) (peer := peer) (limit := placeLimit place) (f := readBody) hk hx ht
    have hquiet : Quiet (authFailed u) := quiet_raise_count hq _ _ _
    rw [hserve, afterResponse_of_quiet (quiet_answerAt hquiet place peer), reg_answerAt, reg_answerAt]
    exact counted_raise u (by decide) (by decide) 1

theorem session_closes {x : Session} {w : Nat × Nat} (h : takeMessage s via (discoverOp 3) = some (place, peer, m, u))
    (hp : placeOn u place = true) (hk : flag u Reg.synKeySet = true) (hx : mfind u.dict.sessions (msgSession m) = some x)
    (ht : tagHolds x.key m = true) (hn : msgSeq m ≠ 0) (hw : acceptSeq x.high x.window (msgSeq m) = some w) :
    ∃ t, Answers (.sessionClose via) s t ∧ mfind t.dict.sessions (msgSession m) = none := by
  have hexec : execSessionClose via s = .next (answerAt (serveSession u place peer (placeLimit place) closeBody m) place peer) := by
    simp only [execSessionClose, h, hp, if_true]
  obtain ⟨out, hrun⟩ := runRequest_closes (s := seqTaken u (msgSession m) x w) (x := sessionCtx place peer (placeLimit place) m) (m := m)
    (y := x) (placeLimit_le place)
  have hgone : mfind (sessionGone (seqTaken u (msgSession m) x w) (msgSession m)).dict.sessions (msgSession m) = none :=
    sessions_sessionGone _ _
  refine ⟨_, hexec, ?_⟩
  rw [dict_answerAt, serveSession_runs hk hx ht hn hw hrun]
  exact (cacheResponse_of_none hgone (msgSeq m) out).symm ▸ hgone

end

theorem events_sent {s : State} {i a : Nat} {x : Session} (hx : mfind s.dict.sessions i = some x) (hg : mget [] s.evt.gather i ≠ [])
    (ha : mfind s.evt.gatherAt i = some a) (hr : s.fw.running = true) (hi : s.pwr.inReset = false)
    (hdue : a + 10000000 ≤ s.time ∨ 32 ≤ (mget [] s.evt.gather i).length) (hseq : mget 0 s.evt.evSeq i + 1 < 2 ^ 64) :
    ∃ t, Answers (.synsaEventSend i) s t ∧
      mget [] t.evt.gather i = (mget [] s.evt.gather i).drop 32 ∧ mget 0 t.evt.evSeq i = mget 0 s.evt.evSeq i + 1 ∧
      (16 ≤ x.transport → ∃ b, t.sent = .synsa (x.transport - 16) x.peer
        (tagged x.key (synsaMessage 8 0 0 i (mget 0 s.evt.evSeq i + 1) b)) :: s.sent) := by
  have hsends : ((mget [] s.evt.gather i).isEmpty || !synsaUp s ||
      !(decide (a + 10000000 ≤ s.time) || decide (32 ≤ (mget [] s.evt.gather i).length))) = false := by
    simp only [Bool.or_eq_false_iff, Bool.not_eq_false', Bool.or_eq_true, decide_eq_true_eq, synsaUp, hr, hi, Bool.not_false, Bool.and_true]
    refine ⟨⟨?_, trivial⟩, hdue⟩
    rw [List.isEmpty_eq_false_iff]
    exact hg
  have hexec : ∃ e b, execSynsaEventSend i s = .next (sendAt { s with evt := e } x.transport x.peer
      (tagged x.key (synsaMessage 8 0 0 i (mget 0 s.evt.evSeq i + 1) b))) ∧
      mget [] e.gather i = (mget [] s.evt.gather i).drop 32 ∧ mget 0 e.evSeq i = mget 0 s.evt.evSeq i + 1 := by
    simp only [execSynsaEventSend, ha, Option.getD_some, hx, hsends, Bool.false_eq_true, if_false, if_neg (Nat.not_le.2 hseq)]
    exact ⟨_, _, rfl, mget_mset_self _ _ _ _, mget_mset_self _ _ _ _⟩
  obtain ⟨e, b, heq, hgather, hnext⟩ := hexec
  obtain ⟨f, l, hframe⟩ := sendAt_frame { s with evt := e } x.transport x.peer
    (tagged x.key (synsaMessage 8 0 0 i (mget 0 s.evt.evSeq i + 1) b))
  refine ⟨_, heq, ?_, ?_, fun htr => ⟨b, ?_⟩⟩
  · rw [hframe]
    exact hgather
  · rw [hframe]
    exact hnext
  · rw [sendAt, if_neg (by omega)]
    rfl

/-- Announces on the bundles of a list (R423). -/
def announced (s : State) (l : List Nat) : State :=
  l.foldl (fun s b => channelSend s b (synsaMessage 9 0 0 0 0 (identityBody s 4 b))) s

theorem announced_frame (l : List Nat) (s : State) : ∃ m, announced s l = { s with fl.bundles := m } ∧
    ∀ b, b ∉ l → bundle (announced s l) b = bundle s b := by
  induction l generalizing s with
  | nil => exact ⟨_, rfl, fun _ _ => rfl⟩
  | cons x xs ih =>
    obtain ⟨m, hm, hkept⟩ := ih (channelSend s x (synsaMessage 9 0 0 0 0 (identityBody s 4 x)))
    have hsend : ∃ n, channelSend s x (synsaMessage 9 0 0 0 0 (identityBody s 4 x)) = { s with fl.bundles := n } ∧
        ∀ b, b ≠ x → bundle (channelSend s x (synsaMessage 9 0 0 0 0 (identityBody s 4 x))) b = bundle s b := by
      rw [channelSend]
      split
      · exact ⟨_, rfl, fun b hb => mget_mset_ne _ _ _ _ _ hb⟩
      · exact ⟨_, rfl, fun _ _ => rfl⟩
    obtain ⟨n, hn, hother⟩ := hsend
    refine ⟨m, ?_, fun b hb => ?_⟩
    · rw [announced, List.foldl_cons, ← announced, hm, hn]
    · rw [announced, List.foldl_cons, ← announced, hkept b (fun h => hb (List.mem_cons_of_mem x h)),
        hother b fun h => hb (h ▸ List.mem_cons_self)]

/-- What a bundle announces depends on no bundle. -/
theorem announce_withBundles (s : State) (m : SMap FBundle) (b : Nat) :
    channelUp { s with fl.bundles := m } b = channelUp s b ∧ identityBody { s with fl.bundles := m } 4 b = identityBody s 4 b := ⟨rfl, rfl⟩

theorem announced_goes {l : List Nat} (hl : l.Nodup) {b : Nat} (hb : b ∈ l) (hlt : b < 8) (s : State) (hup : channelUp s b = true) :
    (bundle (announced s l) b).mgOut = (bundle s b).mgOut ++ [synsaMessage 9 0 0 0 0 (identityBody s 4 b)] := by
  obtain ⟨l1, l2, rfl⟩ := List.append_of_mem hb
  have hnodup := List.nodup_middle.1 hl
  obtain ⟨hnot, -⟩ := List.nodup_cons.1 hnodup
  rw [List.mem_append, not_or] at hnot
  obtain ⟨hb1, hb2⟩ := hnot
  obtain ⟨m, hm, hbefore⟩ := announced_frame l1 s
  obtain ⟨hchannel, hbody⟩ := announce_withBundles s m b
  rw [← hm] at hchannel hbody
  have hsplit : announced s (l1 ++ b :: l2) =
      announced (channelSend (announced s l1) b (synsaMessage 9 0 0 0 0 (identityBody (announced s l1) 4 b))) l2 := by
    rw [announced, List.foldl_append, List.foldl_cons, ← announced, ← announced]
  obtain ⟨-, -, hafter⟩ := announced_frame l2 (channelSend (announced s l1) b (synsaMessage 9 0 0 0 0 (identityBody (announced s l1) 4 b)))
  have hsend : b < 8 ∧ channelUp (announced s l1) b = true := ⟨hlt, by rw [hchannel, hup]⟩
  rw [hsplit, hafter b hb2, hbody, channelSend, if_pos hsend, ← hbefore b hb1]
  exact congrArg FBundle.mgOut (mget_mset_self _ _ _ _)

/-- Settles O43: a message taken outside the mailbox is served in its session, and what goes out changes only a channel or what was sent. -/
theorem sessionsOpenServeAndEnd : Obligations.SessionsOpenServeAndEnd := by
  refine ⟨acceptSeq_none_iff, fun s _ => ⟨fun via place peer m u => session_opens, fun via place peer m u x h hp hq _ hk hx =>
    session_reads h hp hq hk hx, fun via place peer m u x w => session_closes, fun i x hx hidle => ?_, fun h x hx hidle => ?_,
    fun i x a => events_sent, fun hr hi he ha => ?_, fun b p peer m u h hp hl hid => ?_⟩⟩
  · refine ⟨_, ?_, sessions_sessionGone s i⟩
    simp only [Answers, exec, execSessionIdleTimeout, hx, if_pos hidle]
  · simp only [Answers, exec, execDomainIdleTimeout, hx, if_pos hidle, dropTransfer]
  · have hdue : (synsaUp s && bit (reg s Reg.synEnable) 2 && decide (s.dict.announcedAt + 1000000000 ≤ s.time)) = true := by
      simp [synsaUp, hr, hi, he, ha]
    obtain ⟨f, hf, -⟩ := announced_frame (List.range 8) { s with dict.announcedAt := s.time }
    refine ⟨announced { s with dict.announcedAt := s.time } (List.range 8), if_pos hdue, by rw [hf], fun b hb hup => ?_⟩
    exact announced_goes List.nodup_range (List.mem_range.2 hb) hb { s with dict.announcedAt := s.time } hup
  · have htaken : (placeOn u p && (msgBody m).length == 96 && msgSession m == 0) = true := by simp [hp, hl, hid]
    simp only [Answers, exec, execAnnounceReceive, h, htaken, if_true]

end Sys2Proof
end
